-- ==== Sys2Proof/Word.lean ====
section
/-! DEFINITION. The plain types the commands and the state are written in: bytes, tables keyed by number,
and the small records that are operands of commands. -/
namespace Sys2Proof

/-- One byte of a packet, a register or a memory. -/
abbrev Byte := BitVec 8

/-- A string of bytes, byte 0 first. -/
abbrev Bytes := List Byte

/-- A sparse table: number and value, rising by number. An unlisted number has the default its reader names. -/
abbrev Table (α : Type) := List (Nat × α)

/-- The path a Tosen packet travels on (R405): a Tosen submission ring of a function, the management port
from one source address, or the Windlass port. -/
inductive Path where
  | ring (fn rid : Nat)
  | mp (mac : Nat)
  | windlass
  deriving DecidableEq, Repr


/-- A stage of an action profile (R165): its learn holds key ranges and the result template. -/
structure Stage where
  table : Nat := 0xFF
  key : List (Nat × Nat) := []
  miss : Nat := 0
  learn : Option (List (Nat × Nat) × Nat) := none
  deriving DecidableEq, Repr

/-- One operation of a TABLE_BATCH (R175): a table entry or a Spout entry of 64 bytes, inserted or deleted. -/
inductive BatchOp where
  | insert (table : Nat) (key : Bytes) (result : Nat) (fixed replace : Bool)
  | delete (table : Nat) (key : Bytes)
  | spoutInsert (entry : Bytes)
  | spoutDelete (dom : Nat) (key : Bytes)
  deriving DecidableEq, Repr

/-- A general Ummuez instruction, as far as R216-R230 fix what it does: the arithmetic itself is the instruction reference's. -/
inductive GInstr where
  /-- rd := the result of operation `op` on two registers. -/
  | alu (op rd rs1 rs2 : Nat)
  /-- Loads and stores of 1, 2, 4 or 8 bytes at a register plus an offset. -/
  | load (width rd rs1 : Nat) (off : Int)
  | store (width rs1 rs2 : Nat) (off : Int)
  /-- A branch on two registers that is or is not taken to pc plus an offset; a jump to a register, its return address to rd. -/
  | branch (rs1 rs2 : Nat) (taken : Bool) (off : Int)
  | jump (rd rs1 : Nat)
  /-- 8-byte compare-and-swap (compares with rs2, writes rs3) and fetch-and-add on local memory; rd := the old value. -/
  | cas (rd rs1 rs2 rs3 : Nat)
  | fadd (rd rs1 rs2 : Nat)
  /-- An encoding that R223 does not list. -/
  | illegal
  deriving DecidableEq, Repr

end Sys2Proof
end

