-- ==== Sys2Proof/Syntax.lean ====
section
/-! DEFINITION. The commands of the block: one constructor for each row of spec/opcode_table.json. Every command
carries first `dt`, the device time that has passed since the command before it, in units of 2^-16 ns. -/
namespace Sys2Proof

/-- The commands: the operations, events and instructions of the opcode table. -/
inductive Instr where
  /-- PWR_GOOD_FALL (R487):  -/
  | pwrGoodFall (dt : Nat)
  /-- PWR_GOOD_RISE (R486):  -/
  | pwrGoodRise (dt : Nat)
  /-- PERST_N_ASSERT (R487): how long the pin stays low, in ns -/
  | perstNAssert (dt : Nat) (low : Nat)
  /-- PERST_N_RELEASE (R488):  -/
  | perstNRelease (dt : Nat)
  /-- RESET_N_ASSERT (R487): how long the pin stays low, in ns -/
  | resetNAssert (dt : Nat) (low : Nat)
  /-- RESET_N_RELEASE (R488):  -/
  | resetNRelease (dt : Nat)
  /-- VDD_AUX_UP (R499):  -/
  | vddAuxUp (dt : Nat)
  /-- VDD_AUX_LOSS (R487):  -/
  | vddAuxLoss (dt : Nat)
  /-- REF_CORE_LOSS (R487):  -/
  | refCoreLoss (dt : Nat)
  /-- RESET_CLOSE_TIMEOUT (R489):  -/
  | resetCloseTimeout (dt : Nat)
  /-- THERM_ASSERT (R497): Tj, signed, in °C -/
  | thermAssert (dt : Nat) (tj : Nat)
  /-- THERM_RELEASE (R497): Tj, signed, in °C -/
  | thermRelease (dt : Nat) (tj : Nat)
  /-- THERMAL_CRITICAL (R497): Tj, signed, in °C -/
  | thermalCritical (dt : Nat) (tj : Nat)
  /-- THERMAL_TRIP (R497): Tj, signed, in °C -/
  | thermalTrip (dt : Nat) (tj : Nat)
  /-- I2C_WRITE (R498): bytes written after the address -/
  | i2cWrite (dt : Nat) (data : Bytes)
  /-- BOOT_ROM_START (R433): header and manifest of slot A, then of slot B, as the flash gives them; none: as the model holds them -/
  | bootRomStart (dt : Nat) (flash : List Bytes)
  /-- BOOT_BLOCK_LANDED (R433): 0 good, 1 flash read error, 2 guard-code error in the load buffer; the block -/
  | bootBlockLanded (dt : Nat) (status : Nat) (data : Bytes)
  /-- RECOVERY_WINDOW_END (R436): as BOOT_ROM_START -/
  | recoveryWindowEnd (dt : Nat) (flash : List Bytes)
  /-- REC_VER_OFFER_WRITE (R438): the word written -/
  | recVerOfferWrite (dt : Nat) (value : Nat)
  /-- REC_BEGIN (R438): over MP: source address and version; length (over PCIe: REC_LEN) -/
  | recBegin (dt : Nat) (mp : Option (Nat × Nat)) (len : Nat)
  /-- REC_CHUNK (R438): over MP: source address and version; offset, length and data (over PCIe: REC_OFFSET, REC_LEN and the window) -/
  | recChunk (dt : Nat) (mp : Option (Nat × Nat)) (off n : Nat) (data : Bytes)
  /-- REC_FINISH (R437): over MP: source address and version; PERSIST -/
  | recFinish (dt : Nat) (mp : Option (Nat × Nat)) (persist : Bool)
  /-- REC_FLASH_WRITE_DONE (R437): the read-back check passed -/
  | recFlashWriteDone (dt : Nat) (good : Bool)
  /-- REC_ABORT (R438): over MP: source address and version -/
  | recAbort (dt : Nat) (mp : Option (Nat × Nat))
  /-- REC_STATUS_REQUEST (R439): source address and version -/
  | recStatusRequest (dt : Nat) (mac ver : Nat)
  /-- REC_DATA_WINDOW_WRITE (R438): offset in the window, data; the write came while the command before it still ran -/
  | recDataWindowWrite (dt : Nat) (off : Nat) (data : Bytes) (early : Bool)
  /-- REC_TRANSFER_TIMEOUT (R438):  -/
  | recTransferTimeout (dt : Nat)
  /-- MODE_QUERY (R32): session's path -/
  | modeQuery (dt : Nat) (path : Path)
  /-- ENTER_SERVICE (R34): path, flags -/
  | enterService (dt : Nat) (path : Path) (accept : Nat)
  /-- ENTER_DRAIN (R39): path, limit in ns -/
  | enterDrain (dt : Nat) (path : Path) (limit : Nat)
  /-- RESUME (R41): session's path -/
  | resume (dt : Nat) (path : Path)
  /-- WDOG_CONFIG (R32): path, period in units of 2^20 ns -/
  | wdogConfig (dt : Nat) (path : Path) (period : Nat)
  /-- READY_QUERY (R32): path, function field -/
  | readyQuery (dt : Nat) (path : Path) (func : Nat)
  /-- WATCHDOG_FEED (R35): the word written -/
  | watchdogFeed (dt : Nat) (value : Nat)
  /-- WATCHDOG_EXPIRY (R35):  -/
  | watchdogExpiry (dt : Nat)
  /-- DRAIN_WORK_COMPLETE (R39):  -/
  | drainWorkComplete (dt : Nat)
  /-- DRAIN_LIMIT_EXPIRY (R39):  -/
  | drainLimitExpiry (dt : Nat)
  /-- DRAIN_TX_STOP (R39):  -/
  | drainTxStop (dt : Nat)
  /-- DRAIN_CHAIN_CLOSE (R39):  -/
  | drainChainClose (dt : Nat)
  /-- LOCKDOWN_CHAIN_CLOSE (R43):  -/
  | lockdownChainClose (dt : Nat)
  /-- FUNCTION_READY (R33): function -/
  | functionReady (dt : Nat) (fn : Nat)
  /-- TB_NOW_LO_READ (R47): the reading function -/
  | tbNowLoRead (dt : Nat) (fn : Nat)
  /-- LATCHING_LO_READ (R12): function, offset in its control BAR or 2^32 plus that in its configuration space, bytes -/
  | latchingLoRead (dt : Nat) (fn off n : Nat)
  /-- REGISTER_WRITE (R13): 0 control BAR or 1 configuration space; function, offset (in configuration space the model's number of the field), bytes, value -/
  | registerWrite (dt : Nat) (space fn off n value : Nat)
  /-- PPS_IN_EDGE (R49): a rising edge of PPS_IN -/
  | ppsInEdge (dt : Nat)
  /-- REF10M_IN_LOSS (R49): REF10M_IN has no edge for 1,000 ns, or is more than 10 ppm off -/
  | ref10mInLoss (dt : Nat)
  /-- SYNCE_LOCK_LOSS (R49): a port's receive CDR or link loses lock, on a lane of the port -/
  | synceLockLoss (dt : Nat) (port lane : Nat)
  /-- TOD_IN_MESSAGE (R52): the bytes received on TOD_IN -/
  | todInMessage (dt : Nat) (data : Bytes)
  /-- PTP_SYNC_RECEIVED (R50): port, PTP domain, sequence, two-step flag, originTimestamp and receive stamp in 2^-16 ns -/
  | ptpSyncReceived (dt : Nat) (port domain seq : Nat) (twoStep : Bool) (origin rx : Nat)
  /-- PTP_FOLLOW_UP_RECEIVED (R50): the precise origin time of a two-step Sync -/
  | ptpFollowUpReceived (dt : Nat) (port domain seq origin : Nat)
  /-- PTP_DELAY_REQ_RECEIVED (R50): the message's sequence and receive stamp -/
  | ptpDelayReqReceived (dt : Nat) (port domain seq rx : Nat)
  /-- PTP_DELAY_RESP_RECEIVED (R50): the answer to a Delay_Req, with its receive time -/
  | ptpDelayRespReceived (dt : Nat) (port domain seq t4 : Nat)
  /-- PTP_PDELAY_REQ_RECEIVED (R50): the message's sequence and receive stamp -/
  | ptpPdelayReqReceived (dt : Nat) (port domain seq rx : Nat)
  /-- PTP_PDELAY_RESP_RECEIVED (R50): the peer's receive and transmit times, and the receive stamp -/
  | ptpPdelayRespReceived (dt : Nat) (port domain seq t2 t3 rx : Nat)
  /-- PTP_ANNOUNCE_RECEIVED (R50): the grandmaster identity announced -/
  | ptpAnnounceReceived (dt : Nat) (port domain grandmaster : Nat)
  /-- PTP_MANAGEMENT_RECEIVED (R50): a management message -/
  | ptpManagementReceived (dt : Nat) (port : Nat)
  /-- PTP_RECEIPT_TIMEOUT (R49): the receipt time-out of the time-receiver port runs out -/
  | ptpReceiptTimeout (dt : Nat)
  /-- PTP_SYNC_TRANSMIT (R50): the port at the instant of a Sync of its rate, and the originTimestamp the message carries, 0 or an estimate (IEEE 1588) -/
  | ptpSyncTransmit (dt : Nat) (port origin : Nat)
  /-- PTP_DELAY_REQ_TRANSMIT (R50): the originTimestamp of the Delay_Req whose instant has come on the time-receiver port, 0 or an estimate (IEEE 1588) -/
  | ptpDelayReqTransmit (dt : Nat) (origin : Nat)
  /-- PTP_PDELAY_REQ_TRANSMIT (R50): the port at the instant of its Pdelay_Req, and the originTimestamp the message carries, 0 or an estimate (IEEE 1588) -/
  | ptpPdelayReqTransmit (dt : Nat) (port origin : Nat)
  /-- ESMC_PDU_RECEIVED (R51): an ESMC PDU with its quality level -/
  | esmcPduReceived (dt : Nat) (port level : Nat)
  /-- EVALUATION_SECOND_END (R56): the servo's measurement over the second: phase error in 2^-8 ns, Δf in 2^-16 ppb; whether REF10M_IN and the SyncE lane were good throughout -/
  | evaluationSecondEnd (dt : Nat) (phase drift : Int) (ref10m synce : Bool)
  /-- HOLDOVER_CLASS_CHANGE (R57): AGE_S reaches a class boundary -/
  | holdoverClassChange (dt : Nat)
  /-- TIME_QUERY (R66): no parameters -/
  | timeQuery (dt : Nat) (path : Path)
  /-- TIME_REF_SELECT (R53): code, label source, TAI_SECOND, PTP port, SyncE port -/
  | timeRefSelect (dt : Nat) (path : Path) (code label tai ptp synce : Nat)
  /-- TIME_SET_PPS_DELAY (R66): the delay, as in TB_PPS_IN_DELAY -/
  | timeSetPpsDelay (dt : Nat) (path : Path) (delay : Nat)
  /-- TIME_STEP (R59): kind, ns and fraction -/
  | timeStep (dt : Nat) (path : Path) (kind : Nat) (value : Int) (frac : Nat)
  /-- TIME_SET_UTC (R61): the signed offset -/
  | timeSetUtc (dt : Nat) (path : Path) (offset : Int)
  /-- TIME_LEAP_ANNOUNCE (R61): direction and t_L -/
  | timeLeapAnnounce (dt : Nat) (path : Path) (dir : Int) (at_ : Nat)
  /-- TIME_OUTPUT_CONFIG (R66): the outputs' settings; a lane of 0xFF selects none -/
  | timeOutputConfig (dt : Nat) (path : Path) (advance width ref10m tod lane0 div0 lane1 div1 : Nat)
  /-- TIME_PTP_CONFIG (R66): profile, domain, transport, time-receiver port, transmitter mask, message rates, Announce interval in ns, time-out count, delayAsymmetry per port -/
  | timePtpConfig (dt : Nat) (path : Path) (profile domain transport receiver transmitters sync delay pdelay announce timeout : Nat) (asym : List Int)
  /-- TIME_REF_RELEASE (R66): no parameters -/
  | timeRefRelease (dt : Nat) (path : Path)
  /-- TIME_SET_APPLY (R54): the grid point after the labelled edge or Sync -/
  | timeSetApply (dt : Nat)
  /-- TIME_STEP_APPLY (R59): the grid point g of the pending step -/
  | timeStepApply (dt : Nat)
  /-- UTC_OFFSET_APPLY (R61): the grid point after TIME_SET_UTC -/
  | utcOffsetApply (dt : Nat)
  /-- LEAP_APPLY (R61): the instant t_L -/
  | leapApply (dt : Nat)
  /-- PPS_OUT_EDGE (R63): the count reaches N × 10^9 − advance -/
  | ppsOutEdge (dt : Nat)
  /-- PPS_PULSE_END (R63): the width of the pulse has elapsed -/
  | ppsPulseEnd (dt : Nat)
  /-- TOD_OUT_MESSAGE (R52): 10 ms after a PPS_OUT edge -/
  | todOutMessage (dt : Nat)
  /-- RECEIVE_EVENT (R75): port, time since its SFD was detected in 2^-16 ns, the bytes from the destination address through the FCS, whether it ended before a valid end of frame, and the egress ports on which a cut-through replica had begun, and what the PCS has counted since the event before: codewords corrected and not, symbols corrected, invalid blocks -/
  | receiveEvent (dt : Nat) (port age : Nat) (data : Bytes) (trunc : Bool) (cut : Nat) (pcs : List Nat)
  /-- PAUSE_FRAME_RECEIVED (R124): port, time since its SFD was detected, and the bytes of a PAUSE or PFC frame -/
  | pauseFrameReceived (dt : Nat) (port age : Nat) (data : Bytes)
  /-- PAUSE_TIMER_EXPIRY (R124): the port and the priority (0 under link PAUSE) -/
  | pauseTimerExpiry (dt : Nat) (port prio : Nat)
  /-- PFC_REFRESH (R123): the port -/
  | pfcRefresh (dt : Nat) (port : Nat)
  /-- PIPELINE_DISPATCH (R189): the slot of the dispatch wheel that turns -/
  | pipelineDispatch (dt : Nat) (slot : Nat)
  /-- DEEP_CACHE_FILL (R174): port, place of the frame among the port's frames that wait for this stage, the stage, and whether the bucket is uncorrectable -/
  | deepCacheFill (dt : Nat) (port pos stage : Nat) (poison : Bool)
  /-- LEARN_APPLY (R169): the oldest learn in stamp order -/
  | learnApply (dt : Nat)
  /-- FRAME_ADMISSION (R185): the ingress port -/
  | frameAdmission (dt : Nat) (port : Nat)
  /-- FRAME_TRANSMIT_START (R186): the egress port -/
  | frameTransmitStart (dt : Nat) (port : Nat)
  /-- TX_FRAME_COMPLETE (R75): the port, and the time since the frame's SFD was detected, in 2^-16 ns -/
  | txFrameComplete (dt : Nat) (port age : Nat)
  /-- HOST_DELIVERY (R261): the host scheduler serves a queue, or a waiting frame goes on -/
  | hostDelivery (dt : Nat)
  /-- BUCKET_REFILL (R182): a grid point of 2^10 ns -/
  | bucketRefill (dt : Nat)
  /-- METER_CHANGE_APPLY (R183): a grid point of 2^10 ns at which changes are due -/
  | meterChangeApply (dt : Nat)
  /-- QUEUE_SAMPLE (R190): a grid point of 2^12 ns -/
  | queueSample (dt : Nat)
  /-- SAMPLE_PERIOD_END (R190): a grid point of 2^20 ns -/
  | samplePeriodEnd (dt : Nat)
  /-- QUEUE_COMMIT (R194): the commit instant of the oldest queue change accepted -/
  | queueCommit (dt : Nat)
  /-- TX_FRAME_READ_COMPLETE (R202): the PCIe tag of the read and the data that came -/
  | txFrameReadComplete (dt : Nat) (tag : Nat) (data : Bytes)
  /-- SLUICE_HOLD_POINT (R203): the port -/
  | sluiceHoldPoint (dt : Nat) (port : Nat)
  /-- SLUICE_RELEASE (R199): the port; how far a marker group at the start instant moves it, in 2^-16 ns, at most 12.8 ns -/
  | sluiceRelease (dt : Nat) (port shift : Nat)
  /-- SLUICE_PHASE_STEP (R198): the port -/
  | sluicePhaseStep (dt : Nat) (port : Nat)
  /-- SPOUT_REPLICA_START (R152): the egress port -/
  | spoutReplicaStart (dt : Nat) (port : Nat)
  /-- HEARTBEAT_SEND (R131): a grid point of 102,400 ns, or the line of the heartbeat port is free -/
  | heartbeatSend (dt : Nat)
  /-- HEARTBEAT_INTERVAL_SETTLE (R132): the end of an interval -/
  | heartbeatIntervalSettle (dt : Nat)
  /-- EPOCH_CLOSE (R85): a grid point of 2^10 ns -/
  | epochClose (dt : Nat)
  /-- EPOCH_ROOT_FINAL (R85): the domain whose oldest closed epoch has had all its events hashed -/
  | epochRootFinal (dt : Nat) (dom : Nat)
  /-- CHECKPOINT_CLOSE (R94): a grid point of 2^20 ns -/
  | checkpointClose (dt : Nat)
  /-- CHECKPOINT_SIGNED (R95): the signing engine has signed the checkpoint that closed first -/
  | checkpointSigned (dt : Nat)
  /-- CHAIN_OPEN (R99): the grid point at which chains open -/
  | chainOpen (dt : Nat)
  /-- EXPORT_COPY (R103): the domain whose export ring has room -/
  | exportCopy (dt : Nat) (dom : Nat)
  /-- LEDGER_QUOTA_APPLY (R89): a grid point of 2^10 ns -/
  | ledgerQuotaApply (dt : Nat)
  /-- LEDGER_STATUS (R106): the domain -/
  | ledgerStatus (dt : Nat) (path : Path) (dom : Nat)
  /-- LEDGER_SET_QUOTA (R89): domain and quota -/
  | ledgerSetQuota (dt : Nat) (path : Path) (dom quota : Nat)
  /-- LEDGER_SET_CISTERN (R101): domain and size in MiB -/
  | ledgerSetCistern (dt : Nat) (path : Path) (dom size : Nat)
  /-- LEDGER_CERT_GET (R106): domain, which certificate, buffer address and length -/
  | ledgerCertGet (dt : Nat) (path : Path) (dom which addr len : Nat)
  /-- LEDGER_RETAINED_GET (R106): the domain -/
  | ledgerRetainedGet (dt : Nat) (path : Path) (dom : Nat)
  /-- PCS_ALIGN_LOCK (R115): the port -/
  | pcsAlignLock (dt : Nat) (port : Nat)
  /-- WELLHEAD_CAL_COMPLETE (R70): the port and the measured link-up parts in 2^-16 ns -/
  | wellheadCalComplete (dt : Nat) (port linkRx linkTx : Nat)
  /-- PCS_LOCK_LOSS (R115): the port -/
  | pcsLockLoss (dt : Nat) (port : Nat)
  /-- ALIGNMENT_SLIP (R71): the port -/
  | alignmentSlip (dt : Nat) (port : Nat)
  /-- REMOTE_FAULT_RECEIVED (R115): the port -/
  | remoteFaultReceived (dt : Nat) (port : Nat)
  /-- FAULT_CLEAR (R115): the port -/
  | faultClear (dt : Nat) (port : Nat)
  /-- LOCAL_FAULT_DETECTED (R129): the port -/
  | localFaultDetected (dt : Nat) (port : Nat)
  /-- AUTONEG_COMPLETE (R114): the port -/
  | autonegComplete (dt : Nat) (port : Nat)
  /-- AUTONEG_NO_COMMON_MODE (R114): the port -/
  | autonegNoCommonMode (dt : Nat) (port : Nat)
  /-- WAKE_PATTERN_DETECTED (R128): the port -/
  | wakePatternDetected (dt : Nat) (port : Nat)
  /-- LANE_TEST_END (R137): the lane, the errors found and the bits or symbols compared -/
  | laneTestEnd (dt : Nat) (lane errors compared : Nat)
  /-- MDIO_POLL (R133): the PHY's resolved link, speed in Mb/s and duplex, and the frames whose first attempt deferred to carrier since the poll before -/
  | mdioPoll (dt : Nat) (up : Bool) (speed : Nat) (full : Bool) (deferred : Nat)
  /-- MP_COLLISION (R134): the 32 bits of the jam, which the standard leaves free -/
  | mpCollision (dt : Nat) (jam : Nat)
  /-- MP_BACKOFF_EXPIRY (R134): whether carrier is sensed, to which a new attempt defers -/
  | mpBackoffExpiry (dt : Nat) (carrier : Bool)
  /-- PORT_MAP_SET (R112): mode code and FEC of P0-P23 -/
  | portMapSet (dt : Nat) (path : Path) (modes fecs : List Nat)
  /-- PORT_CONFIG (R122): the fields of R136 in order -/
  | portConfig (dt : Nat) (path : Path) (port mac maxFrame append strip rxMode rxStrip stripTpid txInsert insertTpid tci autoneg : Nat)
  /-- PORT_STATUS (R136): port, or 0xFF for MP -/
  | portStatus (dt : Nat) (path : Path) (port : Nat)
  /-- PORT_PFC_CONFIG (R123): port, PAUSE_MODE, enable vector, XOFF_KIB and XON_KIB per priority, PFC_QUANTA -/
  | portPfcConfig (dt : Nat) (path : Path) (port mode enable : Nat) (xoff xon : List Nat) (quanta : Nat)
  /-- PORT_DORMANT (R128): the port -/
  | portDormant (dt : Nat) (path : Path) (port : Nat)
  /-- PORT_WAKE (R115): the port -/
  | portWake (dt : Nat) (path : Path) (port : Nat)
  /-- PORT_HEARTBEAT_CONFIG (R131): port or 0xFF, destination address, pair identifier -/
  | portHeartbeatConfig (dt : Nat) (path : Path) (port dst pair : Nat)
  /-- PORT_MP_CONFIG (R133): 1 to follow the PHY, or 0 with a fixed speed and duplex -/
  | portMpConfig (dt : Nat) (path : Path) (follow speed duplex : Nat)
  /-- PORT_LANE_TEST (R137): lane, rate in 0.01 Gb/s, pattern 0-6 in the order of R136, loopback, duration in 2^20 ns -/
  | portLaneTest (dt : Nat) (path : Path) (lane rate pattern loopback duration : Nat)
  /-- PARSE_GRAPH_LOAD (R141): buffer address and length, and what host memory holds there -/
  | parseGraphLoad (dt : Nat) (path : Path) (addr len : Nat) (buf : Bytes)
  /-- PARSE_GRAPH_SWAP (R141): no parameters -/
  | parseGraphSwap (dt : Nat) (path : Path)
  /-- PARSE_GRAPH_SWAP_EFFECT (R141): the instant a swap takes effect -/
  | parseGraphSwapEffect (dt : Nat)
  /-- CLASS_RULE_SET (R146): the fields of R156, and what host memory holds at the address -/
  | classRuleSet (dt : Nat) (path : Path) (dom idx ports addr cls profile notarise : Nat) (buf : Bytes)
  /-- CLASS_RULE_CLEAR (R156): domain and index -/
  | classRuleClear (dt : Nat) (path : Path) (dom idx : Nat)
  /-- PRS_PORT_CONFIG (R156): port, KEY_PROFILE, MALFORMED_SUMP, SUMP_QUEUE -/
  | prsPortConfig (dt : Nat) (path : Path) (port profile malSump sump : Nat)
  /-- SPOUT_PROFILE_SET (R148): profile, INCLUDE_PORT, offset and length pairs -/
  | spoutProfileSet (dt : Nat) (path : Path) (profile withPort : Nat) (ranges : List (Nat × Nat))
  /-- PRS_STATUS (R156): the port -/
  | prsStatus (dt : Nat) (path : Path) (port : Nat)
  /-- CLASS_RULE_QUOTA (R156): domain and quota -/
  | classRuleQuota (dt : Nat) (path : Path) (dom quota : Nat)
  /-- SPOUT_EN_WRITE (R155): the port and the value written -/
  | spoutEnWrite (dt : Nat) (port : Nat) (on : Bool)
  /-- TABLE_CREATE (R161): the fields of R178; no seed asks for a drawn one -/
  | tableCreate (dt : Nat) (path : Path) (table dom tier log2 keyLen : Nat) (seed : Option Nat) (evict mult notify : Nat)
  /-- TABLE_DESTROY (R178): the table -/
  | tableDestroy (dt : Nat) (path : Path) (table : Nat)
  /-- TABLE_INSERT (R168): table, key address, RESULT, the flags STATIC and REPLACE, and what host memory holds at the address -/
  | tableInsert (dt : Nat) (path : Path) (table addr result fixed replace : Nat) (key : Bytes)
  /-- TABLE_DELETE (R178): table, key address, and what host memory holds there -/
  | tableDelete (dt : Nat) (path : Path) (table addr : Nat) (key : Bytes)
  /-- TABLE_READ (R178): table, key address, and what host memory holds there -/
  | tableRead (dt : Nat) (path : Path) (table addr : Nat) (key : Bytes)
  /-- TABLE_BATCH (R175): buffer address, operation count, and the operations the buffer spells -/
  | tableBatch (dt : Nat) (path : Path) (addr count : Nat) (ops : List BatchOp)
  /-- TABLE_COMMIT (R175): the commit instant of the oldest change accepted -/
  | tableCommit (dt : Nat)
  /-- PROFILE_SET (R165): profile index, four stages, final result -/
  | profileSet (dt : Nat) (path : Path) (idx : Nat) (stages : List Stage) (final : Nat)
  /-- LEARN_CONFIG (R170): port, LEARN_MAX, LEARN_RATE, LEARN_BURST, LEARN_OVER -/
  | learnConfig (dt : Nat) (path : Path) (port max rate burst flood : Nat)
  /-- SPOUT_INSERT (R176): entry address, and what host memory holds there -/
  | spoutInsert (dt : Nat) (path : Path) (addr : Nat) (entry : Bytes)
  /-- SPOUT_DELETE (R178): domain, key address, and what host memory holds there -/
  | spoutDelete (dt : Nat) (path : Path) (dom addr : Nat) (key : Bytes)
  /-- TABLE_STATUS (R178): a table or a port, and its number -/
  | tableStatus (dt : Nat) (path : Path) (isPort : Bool) (num : Nat)
  /-- TABLE_QUOTA (R178): domain, profile quota, cache, miss-slot and Spout share -/
  | tableQuota (dt : Nat) (path : Path) (dom profiles cache misses spout : Nat)
  /-- SPOUT_SEED_SET (R176): the seed, or none for a drawn one -/
  | spoutSeedSet (dt : Nat) (path : Path) (seed : Option Nat)
  /-- LEARN_REFILL (R170): a grid point of 2^20 ns -/
  | learnRefill (dt : Nat)
  /-- AGEING_SWEEP (R171): the table -/
  | ageingSweep (dt : Nat) (table : Nat)
  /-- TM_METER_SET (R182): the fields of R194 in order -/
  | tmMeterSet (dt : Nat) (path : Path) (meter cir pir cbs pbs aware : Nat) (lenAdjust : Int) (yellow red : Nat)
  /-- TM_METER_READ (R194): the meter -/
  | tmMeterRead (dt : Nat) (path : Path) (meter : Nat)
  /-- TM_QUEUE_SET (R180): queue, kind, port or function, ring, TC, QUANTUM, limits, SPILL_EN, sample enable -/
  | tmQueueSet (dt : Nat) (path : Path) (queue kind dest ring tc quantum limG limY limR spill sample : Nat)
  /-- TM_QUEUE_READ (R194): the queue -/
  | tmQueueRead (dt : Nat) (path : Path) (queue : Nat)
  /-- TM_SHAPER_SET (R188): queue, mode, SCIR, SPIR, SCBS, SPBS -/
  | tmShaperSet (dt : Nat) (path : Path) (queue mode cir pir cbs pbs : Nat)
  /-- TM_SCHED_SET (R186): scheduler, LEN_ADJUST, DOM_QUANTUM of the 16 domains -/
  | tmSchedSet (dt : Nat) (path : Path) (sched lenAdjust : Nat) (quanta : List Nat)
  /-- TM_BUFFER_SET (R184): ING_RES_KIB, SPOUT_RES_KIB and DEFAULT_PRIO of the 24 ports, DOM_QUOTA_KIB and SPILL_MIB of the 16 domains -/
  | tmBufferSet (dt : Nat) (path : Path) (ing spout prio share spill : List Nat)
  /-- TM_SLOTS_SET (R189): SLOTS of the 16 domains -/
  | tmSlotsSet (dt : Nat) (path : Path) (slots : List Nat)
  /-- TM_QUOTA (R180): base and count of the queue and meter ranges, and the sampled-queue quota, of the 16 domains -/
  | tmQuota (dt : Nat) (path : Path) (queues meters : List (Nat × Nat)) (sampled : List Nat)
  /-- TM_SAMPLE_CONFIG (R190): PERIOD_MULT -/
  | tmSampleConfig (dt : Nat) (path : Path) (mult : Nat)
  /-- TM_STATUS (R194): the domain -/
  | tmStatus (dt : Nat) (path : Path) (dom : Nat)
  /-- SLUICE_COMP_SET (R196): port, whole ns and fraction of C_p -/
  | sluiceCompSet (dt : Nat) (path : Path) (port whole frac : Nat)
  /-- SLUICE_COMP_COMMIT (R208): the commit instant of the oldest change accepted -/
  | sluiceCompCommit (dt : Nat)
  /-- SLUICE_STATUS (R208): the port -/
  | sluiceStatus (dt : Nat) (path : Path) (port : Nat)
  /-- SLUICE_QUOTA (R202): store share of the 16 domains -/
  | sluiceQuota (dt : Nat) (path : Path) (shares : List Nat)
  /-- GENERAL_INSTRUCTION (R223): a thread of a core, the instruction word at its pc, and what it is: its registers, its offset, whether a branch is taken -/
  | generalInstruction (dt : Nat) (core thr word : Nat) (g : GInstr)
  /-- CISTERN_LOAD_RETURN (R218): the thread whose oldest load returns -/
  | cisternLoadReturn (dt : Nat) (core thr : Nat)
  /-- TNOW (R224): the thread and the instruction word -/
  | tnow (dt : Nat) (core thr word : Nat)
  /-- TNOWQ (R223): the thread and the instruction word -/
  | tnowq (dt : Nat) (core thr word : Nat)
  /-- DLSET (R226): the thread and the instruction word -/
  | dlset (dt : Nat) (core thr word : Nat)
  /-- DLCLR (R223): the thread and the instruction word -/
  | dlclr (dt : Nat) (core thr word : Nat)
  /-- WFE (R225): the thread and the instruction word -/
  | wfe (dt : Nat) (core thr word : Nat)
  /-- SIG (R223): the thread and the instruction word -/
  | sig (dt : Nat) (core thr word : Nat)
  /-- CRR (R221): the thread and the instruction word -/
  | crr (dt : Nat) (core thr word : Nat)
  /-- CRW (R221): the thread and the instruction word -/
  | crw (dt : Nat) (core thr word : Nat)
  /-- TSPAWN (R220): the thread and the instruction word -/
  | tspawn (dt : Nat) (core thr word : Nat)
  /-- TEXIT (R223): the thread and the instruction word -/
  | texit (dt : Nat) (core thr word : Nat)
  /-- TRET (R228): the thread and the instruction word -/
  | tret (dt : Nat) (core thr word : Nat)
  /-- FENCE_D (R227): the thread and the instruction word -/
  | fenceD (dt : Nat) (core thr word : Nat)
  /-- RPOST (R257): the thread and the instruction word -/
  | rpost (dt : Nat) (core thr word : Nat)
  /-- TRAP (R228): the thread and the instruction word -/
  | trap (dt : Nat) (core thr word : Nat)
  /-- CBEGIN (R239): the thread and the instruction word -/
  | cbegin (dt : Nat) (core thr word : Nat)
  /-- CBEGIN_T (R242): the thread and the instruction word -/
  | cbeginT (dt : Nat) (core thr word : Nat)
  /-- CPUT (R239): the thread and the instruction word -/
  | cput (dt : Nat) (core thr word : Nat)
  /-- CCOMMIT (R240): the thread and the instruction word -/
  | ccommit (dt : Nat) (core thr word : Nat)
  /-- CCOMMIT_R (R240): the thread and the instruction word -/
  | ccommitR (dt : Nat) (core thr word : Nat)
  /-- CABORT (R239): the thread and the instruction word -/
  | cabort (dt : Nat) (core thr word : Nat)
  /-- CRECV (R241): the thread and the instruction word -/
  | crecv (dt : Nat) (core thr word : Nat)
  /-- CRECV_T (R242): the thread and the instruction word -/
  | crecvT (dt : Nat) (core thr word : Nat)
  /-- CFREE (R239): the thread and the instruction word -/
  | cfree (dt : Nat) (core thr word : Nat)
  /-- ESUB (R246): the thread and the instruction word -/
  | esub (dt : Nat) (core thr word : Nat)
  /-- EUNSUB (R246): the thread and the instruction word -/
  | eunsub (dt : Nat) (core thr word : Nat)
  /-- EGET (R246): the thread and the instruction word -/
  | eget (dt : Nat) (core thr word : Nat)
  /-- EDONE (R246): the thread and the instruction word -/
  | edone (dt : Nat) (core thr word : Nat)
  /-- ITAKE (R291): the thread and the instruction word -/
  | itake (dt : Nat) (core thr word : Nat)
  /-- IRETIRE (R291): the thread and the instruction word -/
  | iretire (dt : Nat) (core thr word : Nat)
  /-- IPOST (R291): the thread and the instruction word -/
  | ipost (dt : Nat) (core thr word : Nat)
  /-- PGALLOC (R292): the thread and the instruction word -/
  | pgalloc (dt : Nat) (core thr word : Nat)
  /-- PGFREE (R292): the thread and the instruction word -/
  | pgfree (dt : Nat) (core thr word : Nat)
  /-- DEADLINE_FIRE (R226): the thread whose deadline is reached -/
  | deadlineFire (dt : Nat) (core thr : Nat)
  /-- DRY_WELL_FAULT (R232): the core -/
  | dryWellFault (dt : Nat) (core : Nat)
  /-- OVERSEER_RESTART (R233): the overseer, 96-99 -/
  | overseerRestart (dt : Nat) (core : Nat)
  /-- CORE_LOAD (R211): core, buffer address, length, local-memory offset, and what the buffer holds -/
  | coreLoad (dt : Nat) (path : Path) (core addr len off : Nat) (data : Bytes)
  /-- CORE_START (R211): core, thread mask, address of the 8 start records, and what they hold -/
  | coreStart (dt : Nat) (path : Path) (core mask addr : Nat) (data : Bytes)
  /-- CORE_STOP (R231): the core -/
  | coreStop (dt : Nat) (path : Path) (core : Nat)
  /-- CORE_RESTART (R211): the core and CLEAR -/
  | coreRestart (dt : Nat) (path : Path) (core clear : Nat)
  /-- CORE_URGENT (R215): core, and thread or 0xFF -/
  | coreUrgent (dt : Nat) (path : Path) (core thr : Nat)
  /-- CORE_STATUS (R235): the core -/
  | coreStatus (dt : Nat) (path : Path) (core : Nat)
  /-- CHAN_CREATE (R237): channel, receiver core and thread, store offset, capacity, senders as cores and threads -/
  | chanCreate (dt : Nat) (path : Path) (chan core thr off cap : Nat) (senders : List (Nat × Nat))
  /-- CHAN_DESTROY (R245): the channel -/
  | chanDestroy (dt : Nat) (path : Path) (chan : Nat)
  /-- CHAN_ABANDON (R244): the channel -/
  | chanAbandon (dt : Nat) (path : Path) (chan : Nat)
  /-- CHAN_STATUS (R250): the channel -/
  | chanStatus (dt : Nat) (path : Path) (chan : Nat)
  /-- CHAN_QUOTA (R250): base and count of each of the 16 domains -/
  | chanQuota (dt : Nat) (path : Path) (ranges : List (Nat × Nat))
  /-- CHAN_SLOT_HOLD_TIMEOUT (R243): a hold of 1,000,000 ns -/
  | chanSlotHoldTimeout (dt : Nat)
  /-- HANDOVER_HELD_TIMEOUT (R248): 2^20 ns since a marker was inserted -/
  | handoverHeldTimeout (dt : Nat)
  /-- DOORBELL_WRITE (R256): function, doorbell offset divided by 8, bytes of the write, value written -/
  | doorbellWrite (dt : Nat) (fn ring width value : Nat)
  /-- INDEX_READ_RETURN (R256): function, ring, the 4 bytes read -/
  | indexReadReturn (dt : Nat) (fn ring value : Nat)
  /-- DESCRIPTOR_FETCH (R267): function, ring, the bytes read -/
  | descriptorFetch (dt : Nat) (fn ring : Nat) (data : Bytes)
  /-- RING_ENABLE_WRITE (R271): function, ring, the word written to RING_CFG -/
  | ringEnableWrite (dt : Nat) (fn ring value : Nat)
  /-- RING_VER_OFFER_WRITE (R270): function, the word written -/
  | ringVerOfferWrite (dt : Nat) (fn value : Nat)
  /-- INTERRUPT_MODERATION_END (R265): the moderation periods that have ended -/
  | interruptModerationEnd (dt : Nat)
  /-- RING_QUOTA (R272): rings and completion rings of the 16 domains -/
  | ringQuota (dt : Nat) (path : Path) (rings cqs : List Nat)
  /-- FN_RESET (R269): function field: PF 8 bits, VF 16 bits, VF-valid bit -/
  | fnReset (dt : Nat) (path : Path) (func : Nat)
  /-- FLR (R269): function -/
  | flr (dt : Nat) (fn : Nat)
  /-- FN_RESET_COMPLETE (R269): function -/
  | fnResetComplete (dt : Nat) (fn : Nat)
  /-- DMA_DESCRIPTOR_START (R280): function and DMA ring -/
  | dmaDescriptorStart (dt : Nat) (fn ring : Nat)
  /-- PCIE_READ_COMPLETION (R326): tag, status (0 successful, 2 UR, 3 CA), EP, whether it is the last completion of its read, data -/
  | pcieReadCompletion (dt : Nat) (tag status : Nat) (ep last : Bool) (data : Bytes)
  /-- FLUSH_READ_COMPLETE (R281): function and ring of the run -/
  | flushReadComplete (dt : Nat) (fn ring : Nat)
  /-- COMPLETION_TIMEOUT (R325): tag of the read -/
  | completionTimeout (dt : Nat) (tag : Nat)
  /-- TAG_QUARANTINE_END (R326): the tag -/
  | tagQuarantineEnd (dt : Nat) (tag : Nat)
  /-- DMA_CHANNEL_SET (R274): channel, domain, role and weight -/
  | dmaChannelSet (dt : Nat) (path : Path) (chan dom role weight : Nat)
  /-- DMA_STATUS (R285): channel -/
  | dmaStatus (dt : Nat) (path : Path) (chan : Nat)
  /-- CONTEXT_FETCH_COMPLETE (R295): the context, type times 2^30 plus domain times 2^26 plus number, and whether its read succeeded -/
  | contextFetchComplete (dt : Nat) (key : Nat) (good : Bool)
  /-- CONTEXT_WRITEBACK_COMPLETE (R297): the context and whether its write succeeded -/
  | contextWritebackComplete (dt : Nat) (key : Nat) (good : Bool)
  /-- PAGE_ZEROED (R289): the zeroing of the released page that is first in order -/
  | pageZeroed (dt : Nat)
  /-- SUMP_ITEM_CREATE (R299): the domain whose Sump queues are served -/
  | sumpItemCreate (dt : Nat) (dom : Nat)
  /-- ITEM_DELIVERY (R301): the thread that has room for a record -/
  | itemDelivery (dt : Nat) (core thr : Nat)
  /-- REBALANCE (R303): a grid point of 2^20 ns -/
  | rebalance (dt : Nat)
  /-- CISTERN_QUOTA (R289): domain, data pages, item MiB, context-backing pages -/
  | cisternQuota (dt : Nat) (path : Path) (dom data item ctx : Nat)
  /-- CISTERN_STATUS (R309): the domain -/
  | cisternStatus (dt : Nat) (path : Path) (dom : Nat)
  /-- CTX_SHARE (R306): queue-pair lines, other lines, miss packets and miss KiB of each of the 16 domains -/
  | ctxShare (dt : Nat) (path : Path) (shares : List (List Nat))
  /-- CTX_BACKING_SET (R293): context type, host address, entries -/
  | ctxBackingSet (dt : Nat) (path : Path) (type addr entries : Nat)
  /-- CTX_PIN (R294): context type, number, and whether to pin -/
  | ctxPin (dt : Nat) (path : Path) (type ctx pin : Nat)
  /-- IMP_CLASS_SET (R300): class and its settings -/
  | impClassSet (dt : Nat) (path : Path) (cls inflight depth reissue moving high low : Nat)
  /-- IMP_QUEUE_SET (R299): Sump queue, class, flow base, log2 of the flow count, key ranges -/
  | impQueueSet (dt : Nat) (path : Path) (q cls f k : Nat) (ranges : List (Nat × Nat))
  /-- IMP_MIGRATE (R303): flow (for TD0 with its domain above bit 20), core and thread -/
  | impMigrate (dt : Nat) (path : Path) (flow core thr : Nat)
  /-- IMP_FLOW_STATUS (R310): the flow -/
  | impFlowStatus (dt : Nat) (path : Path) (flow : Nat)
  /-- IMP_QUOTA (R310): flow range and hand-over share of each of the 16 domains -/
  | impQuota (dt : Nat) (path : Path) (quotas : List (Nat × Nat))
  /-- PCIE_LINK_UP (R315): link B or A, SPEED code, width, Flit Mode -/
  | pcieLinkUp (dt : Nat) (b : Bool) (speed width : Nat) (flit : Bool)
  /-- DL_DOWN (R331): link B or A -/
  | dlDown (dt : Nat) (b : Bool)
  /-- WINDOW_REQUEST (R319): function, BAR offset, bytes, direction, EP of a write, data of a write -/
  | windowRequest (dt : Nat) (fn off n : Nat) (write ep : Bool) (data : Bytes)
  /-- EXPANSION_ROM_READ (R323): offset and bytes -/
  | expansionRomRead (dt : Nat) (off n : Nat)
  /-- WIN_CTRL_REG_WRITE (R321): PF of the table, entry, the word written -/
  | winCtrlRegWrite (dt : Nat) (pf e value : Nat)
  /-- WIN_ADDRESS_WRITE (R321): PF of the table, entry, word of the entry, the word written -/
  | winAddressWrite (dt : Nat) (pf e word value : Nat)
  /-- WIN_DRAINED (R321): function and entry -/
  | winDrained (dt : Nat) (fn e : Nat)
  /-- PM_STATE_WRITE (R329): function, D3hot or D0 -/
  | pmStateWrite (dt : Nat) (fn : Nat) (d3 : Bool)
  /-- D3HOT_WORK_TIMEOUT (R329): function -/
  | d3hotWorkTimeout (dt : Nat) (fn : Nat)
  /-- BUS_MASTER_ENABLE_WRITE (R329): function and bit -/
  | busMasterEnableWrite (dt : Nat) (fn : Nat) (on : Bool)
  /-- VF_ENABLE_WRITE (R315): PF, NumVFs, VF Enable, VF Memory Space Enable -/
  | vfEnableWrite (dt : Nat) (pf num : Nat) (on mse : Bool)
  /-- CTO_VALUE_WRITE (R325): function and Completion Timeout Value -/
  | ctoValueWrite (dt : Nat) (fn value : Nat)
  /-- ASPM_L1_ENTRY (R330): link B or A -/
  | aspmL1Entry (dt : Nat) (b : Bool)
  /-- L0P_WIDTH_REDUCE (R330): link B or A -/
  | l0pWidthReduce (dt : Nat) (b : Bool)
  /-- PCIE_STATUS (R333): function field -/
  | pcieStatus (dt : Nat) (path : Path) (func : Nat)
  /-- PCIE_CTO_SET (R325): function field and µs -/
  | pcieCtoSet (dt : Nat) (path : Path) (func us : Nat)
  /-- WIN_WRITE (R333): function field, entry, TARGET, PAGES -/
  | winWrite (dt : Nat) (path : Path) (func e target pages : Nat)
  /-- WIN_CTRL (R333): function field, entry, VALID, SEQ, RD_EN, WR_EN -/
  | winCtrl (dt : Nat) (path : Path) (func e valid seq rd wr : Nat)
  /-- WIN_READ (R333): function field and entry -/
  | winRead (dt : Nat) (path : Path) (func e : Nat)
  /-- PCIE_WIN_MAX (R316): function field and largest window size in bytes -/
  | pcieWinMax (dt : Nat) (path : Path) (func size : Nat)
  /-- PCIE_POWER_CONFIG (R330): L1_IDLE, L0P_AUTO, L0P_WIDTH, LTR snoop and no-snoop -/
  | pciePowerConfig (dt : Nat) (path : Path) (idle auto width snoop nosnoop : Nat)
  /-- SRIOV_LIMIT (R314): TotalVFs of PF1-PF7 -/
  | sriovLimit (dt : Nat) (path : Path) (total : List Nat)
  /-- RDMA_REQUEST_PACKET (R353): the function whose engine intake is served -/
  | rdmaRequestPacket (dt : Nat) (fn : Nat)
  /-- RDMA_ACK_RECEIVED (R352): the function whose engine intake is served -/
  | rdmaAckReceived (dt : Nat) (fn : Nat)
  /-- RDMA_NAK_RECEIVED (R352): the function whose engine intake is served -/
  | rdmaNakReceived (dt : Nat) (fn : Nat)
  /-- RDMA_RNR_NAK_RECEIVED (R354): the function whose engine intake is served -/
  | rdmaRnrNakReceived (dt : Nat) (fn : Nat)
  /-- RDMA_READ_RESPONSE (R349): the function whose engine intake is served -/
  | rdmaReadResponse (dt : Nat) (fn : Nat)
  /-- CNP_RECEIVED (R356): the function whose engine intake is served -/
  | cnpReceived (dt : Nat) (fn : Nat)
  /-- ACK_TIMER_EXPIRY (R352): the queue pair -/
  | ackTimerExpiry (dt : Nat) (qp : Nat)
  /-- RNR_TIMER_EXPIRY (R354): the queue pair -/
  | rnrTimerExpiry (dt : Nat) (qp : Nat)
  /-- RESPONDER_ACK_TIMER (R353): the queue pair -/
  | responderAckTimer (dt : Nat) (qp : Nat)
  /-- CC_RATE_INCREASE (R356): a grid point of 2^16 ns -/
  | ccRateIncrease (dt : Nat)
  /-- RDMA_PACED_ENQUEUE (R356): the queue pair -/
  | rdmaPacedEnqueue (dt : Nat) (qp : Nat)
  /-- QPN_QUIET_END (R363): the end of a quiet period -/
  | qpnQuietEnd (dt : Nat)
  /-- MR_DRAIN_COMPLETE (R360): the index of the region that is closing -/
  | mrDrainComplete (dt : Nat) (region : Nat)
  /-- RDMA_FN_CONFIG (R361): function and event ring -/
  | rdmaFnConfig (dt : Nat) (path : Path) (func ring : Nat)
  /-- RDMA_GID_SET (R343): port, index, address of 128 bits, domain -/
  | rdmaGidSet (dt : Nat) (path : Path) (port index addr dom : Nat)
  /-- QP_CREATE (R340): function, send ring, receive ring, transmit queue -/
  | qpCreate (dt : Nat) (path : Path) (func send recv queue : Nat)
  /-- QP_MODIFY (R342): queue pair, target state (0 RESET, 1 INIT, 2 RTR, 3 RTS, 4 SQD, 5 ERROR), attributes of R343 by their number in its order -/
  | qpModify (dt : Nat) (path : Path) (qp to_ : Nat) (attrs : List (Nat × Nat))
  /-- QP_QUERY (R366): the queue pair -/
  | qpQuery (dt : Nat) (path : Path) (qp : Nat)
  /-- QP_DESTROY (R342): the queue pair -/
  | qpDestroy (dt : Nat) (path : Path) (qp : Nat)
  /-- MR_REGISTER (R357): function, PD, space (0 host, 1 cistern), address, length, base VA, rights -/
  | mrRegister (dt : Nat) (path : Path) (func pd space addr len va rights : Nat)
  /-- MR_DEREGISTER (R360): the remote key -/
  | mrDeregister (dt : Nat) (path : Path) (key : Nat)
  /-- MR_QUERY (R366): the remote key -/
  | mrQuery (dt : Nat) (path : Path) (key : Nat)
  /-- RDMA_QUOTA (R340): QP base, QP count and region quota of each of the 16 domains -/
  | rdmaQuota (dt : Nat) (path : Path) (quotas : List (Nat × Nat × Nat))
  /-- RDMA_CC_SET (R356): domain, CC_EN, CC_DEC, CC_AI and CC_MIN in Mb/s -/
  | rdmaCcSet (dt : Nat) (path : Path) (dom en dec ai min : Nat)
  /-- RDMA_QPN_QUIET (R363): the exponent of the quiet period -/
  | rdmaQpnQuiet (dt : Nat) (path : Path) (exponent : Nat)
  /-- RDMA_STATUS (R366): the domain -/
  | rdmaStatus (dt : Nat) (path : Path) (dom : Nat)
  /-- STORAGE_FLUSH_START (R373): every Flush that may start does -/
  | storageFlushStart (dt : Nat)
  /-- NS_CREATE (R371): function field, ID, block size, capacity in bytes, and of each target 25 values: port, queue, receive queue, DEST_QPN, DEST_MAC, DEST_IP (two fields), GID, source port, DSCP, hop limit, flow label, VLAN_EN, TCI, ECN, RX_PSN, MTU, MAX_DEST_RD, MIN_RNR, TX_PSN, TIMEOUT, RETRY, RNR_RETRY, MAX_RD, remote key, base address -/
  | nsCreate (dt : Nat) (path : Path) (func id blk cap : Nat) (targets : List (List Nat))
  /-- NS_TARGET_SET (R372): function field, ID, target, and its 25 values as in NS_CREATE -/
  | nsTargetSet (dt : Nat) (path : Path) (func id target : Nat) (attrs : List Nat)
  /-- NS_DELETE (R372): function field and ID -/
  | nsDelete (dt : Nat) (path : Path) (func id : Nat)
  /-- NS_STATUS (R383): function field and ID -/
  | nsStatus (dt : Nat) (path : Path) (func id : Nat)
  /-- MACSEC_PORT_CONFIG (R374): port, on, suite (0 GCM-AES-256, 1 XPN), VALIDATE, replay window, SCI inclusion, confidentiality offset, bypass EtherTypes -/
  | macsecPortConfig (dt : Nat) (path : Path) (port on suite validate window sci offset : Nat) (exempt : List Nat)
  /-- MACSEC_SA_SET (R376): port, channel (0 transmit, 1-4 receive 0-3), SCI, AN, SAK of 256 bits, SSCI, salt of 96 bits, PN -/
  | macsecSaSet (dt : Nat) (path : Path) (port sc sci an key ssci salt pn : Nat)
  /-- MACSEC_TX_AN (R376): port and AN -/
  | macsecTxAn (dt : Nat) (path : Path) (port an : Nat)
  /-- MACSEC_STATUS (R383): the port -/
  | macsecStatus (dt : Nat) (path : Path) (port : Nat)
  /-- IPSEC_SA_SET (R377): direction (0 outbound), SPI, addresses of 128 bits, key of 256 bits, salt, ESN, starting sequence, outer template with its length, NAT-T ports (0: none) -/
  | ipsecSaSet (dt : Nat) (path : Path) (dir spi src dst key salt esn seq tlen : Nat) (template : Bytes) (sport dport : Nat)
  /-- IPSEC_SA_DELETE (R383): the handle -/
  | ipsecSaDelete (dt : Nat) (path : Path) (handle : Nat)
  /-- IPSEC_QUEUE_BIND (R378): queue, and an outbound handle or 0xFFFF for ESP_IN -/
  | ipsecQueueBind (dt : Nat) (path : Path) (queue sa : Nat)
  /-- IPSEC_SA_READ (R383): the handle -/
  | ipsecSaRead (dt : Nat) (path : Path) (handle : Nat)
  /-- SEC_KEY_QUOTA (R380): slots of the 16 domains -/
  | secKeyQuota (dt : Nat) (path : Path) (slots : List Nat)
  /-- MAP_CRC_CHECK (R393):  -/
  | mapCrcCheck (dt : Nat)
  /-- PROV_STAGE (R403): path, buffer address and length, what host memory holds there -/
  | provStage (dt : Nat) (path : Path) (addr len : Nat) (buf : Bytes)
  /-- PROV_CHECK (R391): session's path -/
  | provCheck (dt : Nat) (path : Path)
  /-- PROV_BURN (R394): path, the CRC -/
  | provBurn (dt : Nat) (path : Path) (crc : Nat)
  /-- PROV_BURN_COMPLETE (R394):  -/
  | provBurnComplete (dt : Nat)
  /-- PROV_DEBUG_CLOSE (R396): path, domain, bits to withdraw -/
  | provDebugClose (dt : Nat) (path : Path) (dom rights : Nat)
  /-- PROV_ISO_LOCK (R397): session's path -/
  | provIsoLock (dt : Nat) (path : Path)
  /-- DOMAIN_QUERY (R403): path, domain -/
  | domainQuery (dt : Nat) (path : Path) (dom : Nat)
  /-- DOMAIN_PORT_STATS (R392): path, port -/
  | domainPortStats (dt : Nat) (path : Path) (port : Nat)
  /-- TOSEN_SEGMENT_RECEIVED (R413): a good frame on MP, destination address through FCS -/
  | tosenSegmentReceived (dt : Nat) (frame : Bytes)
  /-- MP_REASSEMBLY_TIMEOUT (R413): 2^27 ns since the last segment of a partial packet -/
  | mpReassemblyTimeout (dt : Nat)
  /-- MP_SESSION_IDLE_TIMEOUT (R420): 2^34 ns since the last request of an MP session -/
  | mpSessionIdleTimeout (dt : Nat)
  /-- SESSION_OPEN (R417): major, lowest and highest minor, flags, event area, client identifier -/
  | sessionOpen (dt : Nat) (path : Path) (major lo hi flags area client : Nat)
  /-- SESSION_CLOSE (R420): no parameters -/
  | sessionClose (dt : Nat) (path : Path)
  /-- SESSION_PING (R424): no parameters -/
  | sessionPing (dt : Nat) (path : Path)
  /-- STAGE_WRITE (R416): offset, length and data -/
  | stageWrite (dt : Nat) (path : Path) (off len : Nat) (data : Bytes)
  /-- STAGE_READ (R416): offset and length -/
  | stageRead (dt : Nat) (path : Path) (off len : Nat)
  /-- SESSION_STATUS (R424): no parameters -/
  | sessionStatus (dt : Nat) (path : Path)
  /-- SESSION_MP_ALLOW (R414): count and addresses -/
  | sessionMpAllow (dt : Nat) (path : Path) (count : Nat) (macs : List Nat)
  /-- BOOT_STATUS (R445): session's path -/
  | bootStatus (dt : Nat) (path : Path)
  /-- IMAGE_WRITE_BEGIN (R440): path, length; the flash reports an error -/
  | imageWriteBegin (dt : Nat) (path : Path) (len : Nat) (err : Bool)
  /-- IMAGE_WRITE (R440): path, address, offset, length, what host memory holds there; the flash reports an error -/
  | imageWrite (dt : Nat) (path : Path) (addr off len : Nat) (buf : Bytes) (err : Bool)
  /-- IMAGE_WRITE_END (R440): path; the flash reports an error -/
  | imageWriteEnd (dt : Nat) (path : Path) (err : Bool)
  /-- BOOT_RESTART (R445): session's path -/
  | bootRestart (dt : Nat) (path : Path)
  /-- BOOT_ROLLBACK_COMMIT (R442): path, version, ALLOW_FALLBACK_LOSS -/
  | bootRollbackCommit (dt : Nat) (path : Path) (v allow : Nat)
  /-- BOOT_KEY_PROGRAM (R443): path, slot, KEY_HASH in six fields -/
  | bootKeyProgram (dt : Nat) (path : Path) (slot : Nat) (hash : List Nat)
  /-- BOOT_KEY_REVOKE (R443): path, slot -/
  | bootKeyRevoke (dt : Nat) (path : Path) (slot : Nat)
  /-- SCRUB_READ (R454): physical address, stack and pseudo-channel of the word, symbols found bad, and what the word holds: 0 cistern space, 1 spill, 2 context backing, 3 deep tables, 4 ledger cistern, 5 reserved; its domain; its cistern address, its frame as in SRAM_SCRUB_READ, its context's key, its table × 2^26 + bucket, or its slot -/
  | scrubRead (dt : Nat) (addr stack pch mask kind dom sub : Nat)
  /-- SRAM_SCRUB_READ (R455): store (R457) and byte in it, symbols found bad, domain that owns the word, what it belongs to -/
  | sramScrubRead (dt : Nat) (store off mask dom key : Nat)
  /-- UE_REPORT_PERIOD_END (R458): the domain, 16 for shared stores -/
  | ueReportPeriodEnd (dt : Nat) (dom : Nat)
  /-- MEM_STATUS (R460): domain -/
  | memStatus (dt : Nat) (path : Path) (dom : Nat)
  /-- MEM_SCRUB_CONFIG (R460): SCRUB_LOG2, SRAM_SCRUB_LOG2, RETIRE_C2, CE_ALERT_K -/
  | memScrubConfig (dt : Nat) (path : Path) (scrub sram retire alert : Nat)
  /-- MEM_ERROR_LOG (R457): buffer address and length -/
  | memErrorLog (dt : Nat) (path : Path) (addr len : Nat)
  /-- MEM_RETIRED_LIST (R456): buffer address and length -/
  | memRetiredList (dt : Nat) (path : Path) (addr len : Nat)
  /-- MEM_RETIRE_PAGE (R456): page number -/
  | memRetirePage (dt : Nat) (path : Path) (page : Nat)
  /-- MEM_INJECT (R460): domain, cistern address, symbol mask -/
  | memInject (dt : Nat) (path : Path) (dom addr mask : Nat)
  /-- LINE_RESET (R463):  -/
  | lineReset (dt : Nat)
  /-- WL_HEADER_CRC_FAIL (R463):  -/
  | wlHeaderCrcFail (dt : Nat)
  /-- WL_SESSION_IDLE_TIMEOUT (R466):  -/
  | wlSessionIdleTimeout (dt : Nat)
  /-- WL_PROBE_DISCONNECT (R420):  -/
  | wlProbeDisconnect (dt : Nat)
  /-- CONNECT (R466): SEQ, payload CRC good, payload fields -/
  | connect (dt : Nat) (seq : Nat) (crc : Bool) (f : List Nat)
  /-- DISCONNECT (R466): SEQ, payload CRC good, payload fields -/
  | disconnect (dt : Nat) (seq : Nat) (crc : Bool) (f : List Nat)
  /-- WL_STATUS (R467): SEQ, payload CRC good, payload fields -/
  | wlStatus (dt : Nat) (seq : Nat) (crc : Bool) (f : List Nat)
  /-- CSR_READ (R467): SEQ, payload CRC good, payload fields -/
  | csrRead (dt : Nat) (seq : Nat) (crc : Bool) (f : List Nat)
  /-- WL_HALT (R469): SEQ, payload CRC good, payload fields -/
  | wlHalt (dt : Nat) (seq : Nat) (crc : Bool) (f : List Nat)
  /-- WL_RESUME (R469): SEQ, payload CRC good, payload fields -/
  | wlResume (dt : Nat) (seq : Nat) (crc : Bool) (f : List Nat)
  /-- WL_STEP (R470): SEQ, payload CRC good, payload fields -/
  | wlStep (dt : Nat) (seq : Nat) (crc : Bool) (f : List Nat)
  /-- BP_SET (R471): SEQ, payload CRC good, payload fields -/
  | bpSet (dt : Nat) (seq : Nat) (crc : Bool) (f : List Nat)
  /-- BP_CLEAR (R471): SEQ, payload CRC good, payload fields -/
  | bpClear (dt : Nat) (seq : Nat) (crc : Bool) (f : List Nat)
  /-- REG_READ (R472): SEQ, payload CRC good, payload fields -/
  | regRead (dt : Nat) (seq : Nat) (crc : Bool) (f : List Nat)
  /-- REG_WRITE (R472): SEQ, payload CRC good, payload fields -/
  | regWrite (dt : Nat) (seq : Nat) (crc : Bool) (f : List Nat)
  /-- WL_MEM_READ (R472): SEQ, payload CRC good, payload fields -/
  | wlMemRead (dt : Nat) (seq : Nat) (crc : Bool) (f : List Nat)
  /-- WL_MEM_WRITE (R472): SEQ, payload CRC good, payload fields -/
  | wlMemWrite (dt : Nat) (seq : Nat) (crc : Bool) (f : List Nat)
  /-- WL_CHAN_ABANDON (R244): SEQ, payload CRC good, payload fields -/
  | wlChanAbandon (dt : Nat) (seq : Nat) (crc : Bool) (f : List Nat)
  /-- WL_TOSEN (R467): SEQ, payload CRC good, the packet -/
  | wlTosen (dt : Nat) (seq : Nat) (crc : Bool) (data : Bytes)
  /-- POLL (R467): SEQ, payload CRC good, payload fields -/
  | poll (dt : Nat) (seq : Nat) (crc : Bool) (f : List Nat)
  /-- DEBUG_STATUS (R477): path, domain -/
  | debugStatus (dt : Nat) (path : Path) (dom : Nat)
  /-- DEBUG_SESSION_END (R477): session's path -/
  | debugSessionEnd (dt : Nat) (path : Path)
  /-- TAP_RESET (R478):  -/
  | tapReset (dt : Nat)
  /-- EXTEST (R478): what the cells capture and what is shifted in -/
  | extest (dt : Nat) (capture shift : Nat)
  /-- IDCODE (R478):  -/
  | idcode (dt : Nat)
  /-- SAMPLE_PRELOAD (R478): what the cells capture and what is shifted in -/
  | samplePreload (dt : Nat) (capture shift : Nat)
  /-- CLAMP (R478):  -/
  | clamp (dt : Nat)
  /-- HIGHZ (R478):  -/
  | highz (dt : Nat)
  /-- EXTEST_PULSE (R479): what the cells capture, what is shifted in, falling TCK edges then spent in Run-Test/Idle -/
  | extestPulse (dt : Nat) (capture shift idle : Nat)
  /-- EXTEST_TRAIN (R479): what the cells capture, what is shifted in, falling TCK edges then spent in Run-Test/Idle -/
  | extestTrain (dt : Nat) (capture shift idle : Nat)
  /-- BYPASS (R478):  -/
  | bypass (dt : Nat)
  /-- REF_CORE_RETURN (R488):  -/
  | refCoreReturn (dt : Nat)
  /-- OSC_HOLD_PRESENCE_CHANGE (R46): whether a good clock is now on OSC_HOLD -/
  | oscHoldPresenceChange (dt : Nat) (present : Bool)
  /-- CISTERN_WRITE_STORED (R281): whose write: a core and thread, or a function, ring and descriptor index -/
  | cisternWriteStored (dt : Nat) (core : Bool) (unit sub idx : Nat)
  /-- BOOT_SIGNATURE_VERIFIED (R433):  -/
  | bootSignatureVerified (dt : Nat)
  /-- SECURITY_CHANGE_COMMIT (R383): the instant c of the oldest change accepted -/
  | securityChangeCommit (dt : Nat)
  deriving DecidableEq, Repr

end Sys2Proof
end

