-- ==== Sys2Proof/WellFormed.lean ====
section
/-! DEFINITION. The ranges of the operands: what the fields of a command can hold. A command whose operands lie
outside them is spelled by no packet, register write or event of the hardware. -/
namespace Sys2Proof

/-- A data port P0-P23 (R109). -/
def Chk.port (p : Nat) : Bool := p < 24
/-- A tenancy domain TD0-TD15 (R385). -/
def Chk.dom (d : Nat) : Bool := d < 16
/-- A core: pump 0-95, overseer 96-99 (R234). -/
def Chk.core (c : Nat) : Bool := c < 100
/-- A thread of a core (R210). -/
def Chk.thr (t : Nat) : Bool := t < 8
/-- A value of `w` bits. -/
def Chk.width (w v : Nat) : Bool := v < 2 ^ w
/-- A 64-bit field of a Tosen packet (R408). -/
def Chk.f64 (v : Nat) : Bool := v < 2 ^ 64
/-- A signed 64-bit field (R408). -/
def Chk.i64 (v : Int) : Bool := -2 ^ 63 ≤ v && v < 2 ^ 63
/-- A list of 64-bit fields. -/
def Chk.f64s (l : List Nat) : Bool := l.all Chk.f64
/-- A PCIe function number of the model: physical function times 4096, plus 1 and the virtual function's number. -/
def Chk.fn (f : Nat) : Bool := f < 8 * 4096
/-- A ring number of a function (R252). -/
def Chk.ring (r : Nat) : Bool := r < 1024
/-- A device-facing instruction word in format D (R223): opcode 0x5B, funct3 and funct7. -/
def Chk.instrD (c t w f3 f7 : Nat) : Bool :=
  Chk.core c && Chk.thr t && Chk.width 32 w && w % 128 == 0x5B && w / 2 ^ 12 % 8 == f3 && w / 2 ^ 25 == f7
/-- The same in format C. -/
def Chk.instrC (c t w f3 : Nat) : Bool := Chk.core c && Chk.thr t && Chk.width 32 w && w % 128 == 0x5B && w / 2 ^ 12 % 8 == f3
/-- A general instruction's registers and widths. -/
def Chk.ginstr : GInstr → Bool
  | .alu _ d a b => d < 32 && a < 32 && b < 32
  | .load n d a _ => [1, 2, 4, 8].contains n && d < 32 && a < 32
  | .store n a b _ => [1, 2, 4, 8].contains n && a < 32 && b < 32
  | .branch a b _ _ => a < 32 && b < 32
  | .jump d a => d < 32 && a < 32
  | .cas d a b n => d < 32 && a < 32 && b < 32 && n < 32
  | .fadd d a b => d < 32 && a < 32 && b < 32
  | .illegal => true

/-- Whether a command's operands lie in the ranges their fields have. -/
def Instr.wellFormed : Instr → Bool
  | .pwrGoodFall _ => true
  | .pwrGoodRise _ => true
  | .perstNAssert _ _ => true
  | .perstNRelease _ => true
  | .resetNAssert _ _ => true
  | .resetNRelease _ => true
  | .vddAuxUp _ => true
  | .vddAuxLoss _ => true
  | .refCoreLoss _ => true
  | .resetCloseTimeout _ => true
  | .thermAssert _ tj => Chk.width 8 tj
  | .thermRelease _ tj => Chk.width 8 tj
  | .thermalCritical _ tj => Chk.width 8 tj
  | .thermalTrip _ tj => Chk.width 8 tj
  | .i2cWrite _ _ => true
  | .bootRomStart _ _ => true
  | .bootBlockLanded _ status _ => status ≤ 2
  | .recoveryWindowEnd _ _ => true
  | .recVerOfferWrite _ value => Chk.width 32 value
  | .recBegin _ _ len => Chk.width 32 len
  | .recChunk _ _ off n _ => Chk.width 32 off && Chk.width 32 n
  | .recFinish _ _ _ => true
  | .recFlashWriteDone _ _ => true
  | .recAbort _ _ => true
  | .recStatusRequest _ mac ver => Chk.width 48 mac && Chk.width 8 ver
  | .recDataWindowWrite _ off data _ => off + data.length ≤ 524288
  | .recTransferTimeout _ => true
  | .modeQuery _ _ => true
  | .enterService _ _ accept => Chk.f64 accept
  | .enterDrain _ _ limit => Chk.f64 limit
  | .resume _ _ => true
  | .wdogConfig _ _ period => Chk.f64 period
  | .readyQuery _ _ func => Chk.f64 func
  | .watchdogFeed _ value => Chk.width 32 value
  | .watchdogExpiry _ => true
  | .drainWorkComplete _ => true
  | .drainLimitExpiry _ => true
  | .drainTxStop _ => true
  | .drainChainClose _ => true
  | .lockdownChainClose _ => true
  | .functionReady _ fn => Chk.fn fn
  | .tbNowLoRead _ fn => Chk.fn fn
  | .latchingLoRead _ fn off n => Chk.fn fn && (Chk.width 21 off || 2 ^ 32 ≤ off && off < 2 ^ 32 + 4096) && [1, 2, 4, 8, 16].contains n && off % n == 0
  | .registerWrite _ space fn off n value => space ≤ 1 && Chk.fn fn && Chk.width 21 off && [1, 2, 4, 8, 16].contains n && off % n == 0 && Chk.f64 value
  | .ppsInEdge _ => true
  | .ref10mInLoss _ => true
  | .synceLockLoss _ port lane => Chk.port port && lane < 24
  | .todInMessage _ _ => true
  | .ptpSyncReceived _ port domain _ _ _ _ => Chk.port port && domain < 256
  | .ptpFollowUpReceived _ port domain _ _ => Chk.port port && domain < 256
  | .ptpDelayReqReceived _ port domain _ _ => Chk.port port && domain < 256
  | .ptpDelayRespReceived _ port domain _ _ => Chk.port port && domain < 256
  | .ptpPdelayReqReceived _ port domain _ _ => Chk.port port && domain < 256
  | .ptpPdelayRespReceived _ port domain _ _ _ _ => Chk.port port && domain < 256
  | .ptpAnnounceReceived _ port _ grandmaster => Chk.port port && Chk.f64 grandmaster
  | .ptpManagementReceived _ port => Chk.port port
  | .ptpReceiptTimeout _ => true
  | .ptpSyncTransmit _ port origin => Chk.port port && Chk.width 80 origin
  | .ptpDelayReqTransmit _ origin => Chk.width 80 origin
  | .ptpPdelayReqTransmit _ port origin => Chk.port port && Chk.width 80 origin
  | .esmcPduReceived _ port level => Chk.port port && level < 16
  | .evaluationSecondEnd _ _ _ _ _ => true
  | .holdoverClassChange _ => true
  | .timeQuery _ _ => true
  | .timeRefSelect _ _ code label tai ptp synce => Chk.f64s [code, label, tai, ptp, synce]
  | .timeSetPpsDelay _ _ delay => Chk.f64 delay
  | .timeStep _ _ kind _ frac => Chk.f64 kind && Chk.f64 frac
  | .timeSetUtc _ _ offset => Chk.i64 offset
  | .timeLeapAnnounce _ _ dir at_ => Chk.i64 dir && Chk.f64 at_
  | .timeOutputConfig _ _ advance width ref10m tod lane0 div0 lane1 div1 => Chk.f64s [advance, width, ref10m, tod, lane0, div0, lane1, div1]
  | .timePtpConfig _ _ profile domain transport receiver transmitters sync delay pdelay announce timeout asym => Chk.f64s [profile, domain, transport, receiver, transmitters, sync, delay, pdelay, announce, timeout] && asym.length == 24
  | .timeRefRelease _ _ => true
  | .timeSetApply _ => true
  | .timeStepApply _ => true
  | .utcOffsetApply _ => true
  | .leapApply _ => true
  | .ppsOutEdge _ => true
  | .ppsPulseEnd _ => true
  | .todOutMessage _ => true
  | .receiveEvent _ port _ _ _ cut pcs => Chk.port port && Chk.width 24 cut && decide (pcs.length ≤ 4) && pcs.all (Chk.width 48)
  | .pauseFrameReceived _ port _ _ => Chk.port port
  | .pauseTimerExpiry _ port prio => Chk.port port && prio < 8
  | .pfcRefresh _ port => Chk.port port
  | .pipelineDispatch _ slot => slot < 1024
  | .deepCacheFill _ port _ stage _ => Chk.port port && stage < 4
  | .learnApply _ => true
  | .frameAdmission _ port => Chk.port port
  | .frameTransmitStart _ port => Chk.port port
  | .txFrameComplete _ port _ => Chk.port port
  | .hostDelivery _ => true
  | .bucketRefill _ => true
  | .meterChangeApply _ => true
  | .queueSample _ => true
  | .samplePeriodEnd _ => true
  | .queueCommit _ => true
  | .txFrameReadComplete _ tag _ => Chk.width 14 tag
  | .sluiceHoldPoint _ port => Chk.port port
  | .sluiceRelease _ port shift => Chk.port port && shift ≤ 838861
  | .sluicePhaseStep _ port => Chk.port port
  | .spoutReplicaStart _ port => Chk.port port
  | .heartbeatSend _ => true
  | .heartbeatIntervalSettle _ => true
  | .epochClose _ => true
  | .epochRootFinal _ dom => Chk.dom dom
  | .checkpointClose _ => true
  | .checkpointSigned _ => true
  | .chainOpen _ => true
  | .exportCopy _ dom => Chk.dom dom
  | .ledgerQuotaApply _ => true
  | .ledgerStatus _ _ dom => Chk.f64 dom
  | .ledgerSetQuota _ _ dom quota => Chk.f64s [dom, quota]
  | .ledgerSetCistern _ _ dom size => Chk.f64s [dom, size]
  | .ledgerCertGet _ _ dom which addr len => Chk.f64s [dom, which, addr, len]
  | .ledgerRetainedGet _ _ dom => Chk.f64 dom
  | .pcsAlignLock _ port => Chk.port port
  | .wellheadCalComplete _ port linkRx linkTx => Chk.port port && Chk.width 32 linkRx && Chk.width 32 linkTx
  | .pcsLockLoss _ port => Chk.port port
  | .alignmentSlip _ port => Chk.port port
  | .remoteFaultReceived _ port => Chk.port port
  | .faultClear _ port => Chk.port port
  | .localFaultDetected _ port => Chk.port port
  | .autonegComplete _ port => Chk.port port
  | .autonegNoCommonMode _ port => Chk.port port
  | .wakePatternDetected _ port => Chk.port port
  | .laneTestEnd _ lane errors compared => Chk.port lane && Chk.f64 errors && Chk.f64 compared
  | .mdioPoll _ _ speed _ deferred => (speed == 10 || speed == 100 || speed == 1000) && Chk.width 48 deferred
  | .mpCollision _ jam => Chk.width 32 jam
  | .mpBackoffExpiry _ _ => true
  | .portMapSet _ _ modes fecs => modes.length == 24 && fecs.length == 24 && Chk.f64s modes && Chk.f64s fecs
  | .portConfig _ _ port mac maxFrame append strip rxMode rxStrip stripTpid txInsert insertTpid tci autoneg => Chk.f64s [port, mac, maxFrame, append, strip, rxMode, rxStrip, stripTpid, txInsert, insertTpid, tci, autoneg]
  | .portStatus _ _ port => Chk.f64 port
  | .portPfcConfig _ _ port mode enable xoff xon quanta => Chk.f64s [port, mode, enable, quanta] && xoff.length == 8 && xon.length == 8 && Chk.f64s xoff && Chk.f64s xon
  | .portDormant _ _ port => Chk.f64 port
  | .portWake _ _ port => Chk.f64 port
  | .portHeartbeatConfig _ _ port dst pair => Chk.f64s [port, dst, pair]
  | .portMpConfig _ _ follow speed duplex => Chk.f64s [follow, speed, duplex]
  | .portLaneTest _ _ lane rate pattern loopback duration => Chk.f64s [lane, rate, pattern, loopback, duration]
  | .parseGraphLoad _ _ addr len _ => Chk.f64s [addr, len]
  | .parseGraphSwap _ _ => true
  | .parseGraphSwapEffect _ => true
  | .classRuleSet _ _ dom idx ports addr cls profile notarise _ => Chk.f64s [dom, idx, ports, addr, cls, profile, notarise]
  | .classRuleClear _ _ dom idx => Chk.f64s [dom, idx]
  | .prsPortConfig _ _ port profile malSump sump => Chk.f64s [port, profile, malSump, sump]
  | .spoutProfileSet _ _ profile withPort ranges => Chk.f64s [profile, withPort] && ranges.length ≤ 8 && ranges.all (fun r => Chk.f64 r.1 && Chk.f64 r.2)
  | .prsStatus _ _ port => Chk.f64 port
  | .classRuleQuota _ _ dom quota => Chk.f64s [dom, quota]
  | .spoutEnWrite _ port _ => Chk.port port
  | .tableCreate _ _ table dom tier log2 keyLen seed evict mult notify => Chk.f64s [table, dom, tier, log2, keyLen, evict, mult, notify] && seed.all Chk.f64
  | .tableDestroy _ _ table => Chk.f64 table
  | .tableInsert _ _ table addr result fixed replace _ => Chk.f64s [table, addr, result, fixed, replace]
  | .tableDelete _ _ table addr _ => Chk.f64s [table, addr]
  | .tableRead _ _ table addr _ => Chk.f64s [table, addr]
  | .tableBatch _ _ addr count ops => Chk.f64s [addr, count] && ops.length == count
  | .tableCommit _ => true
  | .profileSet _ _ idx stages final => Chk.f64s [idx, final] && stages.length == 4
  | .learnConfig _ _ port max rate burst flood => Chk.f64s [port, max, rate, burst, flood]
  | .spoutInsert _ _ addr _ => Chk.f64 addr
  | .spoutDelete _ _ dom addr _ => Chk.f64s [dom, addr]
  | .tableStatus _ _ _ num => Chk.f64 num
  | .tableQuota _ _ dom profiles cache misses spout => Chk.f64s [dom, profiles, cache, misses, spout]
  | .spoutSeedSet _ _ seed => seed.all Chk.f64
  | .learnRefill _ => true
  | .ageingSweep _ table => table < 16
  | .tmMeterSet _ _ meter cir pir cbs pbs aware lenAdjust yellow red => Chk.f64s [meter, cir, pir, cbs, pbs, aware, yellow, red] && Chk.i64 lenAdjust
  | .tmMeterRead _ _ meter => Chk.f64 meter
  | .tmQueueSet _ _ queue kind dest ring tc quantum limG limY limR spill sample => Chk.f64s [queue, kind, dest, ring, tc, quantum, limG, limY, limR, spill, sample]
  | .tmQueueRead _ _ queue => Chk.f64 queue
  | .tmShaperSet _ _ queue mode cir pir cbs pbs => Chk.f64s [queue, mode, cir, pir, cbs, pbs]
  | .tmSchedSet _ _ sched lenAdjust quanta => Chk.f64s [sched, lenAdjust] && quanta.length == 16 && Chk.f64s quanta
  | .tmBufferSet _ _ ing spout prio share spill => ing.length == 24 && spout.length == 24 && prio.length == 24 && share.length == 16 && spill.length == 16 && Chk.f64s (ing ++ spout ++ prio ++ share ++ spill)
  | .tmSlotsSet _ _ slots => slots.length == 16 && Chk.f64s slots
  | .tmQuota _ _ queues meters sampled => queues.length == 16 && meters.length == 16 && sampled.length == 16 && Chk.f64s sampled && queues.all (fun r => Chk.f64 r.1 && Chk.f64 r.2) && meters.all (fun r => Chk.f64 r.1 && Chk.f64 r.2)
  | .tmSampleConfig _ _ mult => Chk.f64 mult
  | .tmStatus _ _ dom => Chk.f64 dom
  | .sluiceCompSet _ _ port whole frac => Chk.f64s [port, whole, frac]
  | .sluiceCompCommit _ => true
  | .sluiceStatus _ _ port => Chk.f64 port
  | .sluiceQuota _ _ shares => shares.length == 16 && Chk.f64s shares
  | .generalInstruction _ core thr word g => Chk.core core && Chk.thr thr && Chk.width 32 word && Chk.ginstr g
  | .cisternLoadReturn _ core thr => Chk.core core && Chk.thr thr
  | .tnow _ core thr word => Chk.instrD core thr word 0 0x00
  | .tnowq _ core thr word => Chk.instrD core thr word 0 0x01
  | .dlset _ core thr word => Chk.instrD core thr word 0 0x02
  | .dlclr _ core thr word => Chk.instrD core thr word 0 0x03
  | .wfe _ core thr word => Chk.instrD core thr word 0 0x04
  | .sig _ core thr word => Chk.instrD core thr word 0 0x05
  | .crr _ core thr word => Chk.instrC core thr word 1
  | .crw _ core thr word => Chk.instrC core thr word 2
  | .tspawn _ core thr word => Chk.instrD core thr word 3 0x00
  | .texit _ core thr word => Chk.instrD core thr word 3 0x01
  | .tret _ core thr word => Chk.instrD core thr word 3 0x02
  | .fenceD _ core thr word => Chk.instrD core thr word 3 0x03
  | .rpost _ core thr word => Chk.instrD core thr word 5 0x00
  | .trap _ core thr word => Chk.instrC core thr word 7
  | .cbegin _ core thr word => Chk.instrD core thr word 4 0x00
  | .cbeginT _ core thr word => Chk.instrD core thr word 4 0x01
  | .cput _ core thr word => Chk.instrD core thr word 4 0x02
  | .ccommit _ core thr word => Chk.instrD core thr word 4 0x03
  | .ccommitR _ core thr word => Chk.instrD core thr word 4 0x04
  | .cabort _ core thr word => Chk.instrD core thr word 4 0x05
  | .crecv _ core thr word => Chk.instrD core thr word 4 0x08
  | .crecvT _ core thr word => Chk.instrD core thr word 4 0x09
  | .cfree _ core thr word => Chk.instrD core thr word 4 0x0A
  | .esub _ core thr word => Chk.instrD core thr word 4 0x10
  | .eunsub _ core thr word => Chk.instrD core thr word 4 0x11
  | .eget _ core thr word => Chk.instrD core thr word 4 0x12
  | .edone _ core thr word => Chk.instrD core thr word 4 0x13
  | .itake _ core thr word => Chk.instrD core thr word 6 0x00
  | .iretire _ core thr word => Chk.instrD core thr word 6 0x01
  | .ipost _ core thr word => Chk.instrD core thr word 6 0x02
  | .pgalloc _ core thr word => Chk.instrD core thr word 6 0x08
  | .pgfree _ core thr word => Chk.instrD core thr word 6 0x09
  | .deadlineFire _ core thr => Chk.core core && Chk.thr thr
  | .dryWellFault _ core => Chk.core core
  | .overseerRestart _ core => Chk.core core
  | .coreLoad _ _ core addr len off data => Chk.f64s [core, addr, len, off] && data.length ≤ 262144
  | .coreStart _ _ core mask addr data => Chk.f64s [core, mask, addr] && data.length ≤ 128
  | .coreStop _ _ core => Chk.f64 core
  | .coreRestart _ _ core clear => Chk.f64s [core, clear]
  | .coreUrgent _ _ core thr => Chk.f64s [core, thr]
  | .coreStatus _ _ core => Chk.f64 core
  | .chanCreate _ _ chan core thr off cap senders => Chk.f64s [chan, core, thr, off, cap] && Chk.f64s (senders.flatMap (fun e => [e.1, e.2]))
  | .chanDestroy _ _ chan => Chk.f64 chan
  | .chanAbandon _ _ chan => Chk.f64 chan
  | .chanStatus _ _ chan => Chk.f64 chan
  | .chanQuota _ _ ranges => ranges.length == 16 && Chk.f64s (ranges.flatMap (fun e => [e.1, e.2]))
  | .chanSlotHoldTimeout _ => true
  | .handoverHeldTimeout _ => true
  | .doorbellWrite _ fn ring width value => Chk.fn fn && Chk.ring ring && width ≤ 8 && Chk.f64 value
  | .indexReadReturn _ fn ring value => Chk.fn fn && Chk.ring ring && Chk.width 32 value
  | .descriptorFetch _ fn ring _ => Chk.fn fn && Chk.ring ring
  | .ringEnableWrite _ fn ring value => Chk.fn fn && Chk.ring ring && Chk.width 32 value
  | .ringVerOfferWrite _ fn value => Chk.fn fn && Chk.width 32 value
  | .interruptModerationEnd _ => true
  | .ringQuota _ _ rings cqs => rings.length == 16 && cqs.length == 16 && Chk.f64s rings && Chk.f64s cqs
  | .fnReset _ _ func => Chk.f64 func
  | .flr _ fn => Chk.fn fn
  | .fnResetComplete _ fn => Chk.fn fn
  | .dmaDescriptorStart _ fn ring => Chk.fn fn && Chk.ring ring
  | .pcieReadCompletion _ tag status _ _ _ => tag < 16384 && (status == 0 || status == 2 || status == 3)
  | .flushReadComplete _ fn ring => Chk.fn fn && Chk.ring ring
  | .completionTimeout _ tag => tag < 16384
  | .tagQuarantineEnd _ tag => tag < 16384
  | .dmaChannelSet _ _ chan dom role weight => Chk.f64s [chan, dom, role, weight]
  | .dmaStatus _ _ chan => Chk.f64 chan
  | .contextFetchComplete _ key _ => Chk.width 32 key
  | .contextWritebackComplete _ key _ => Chk.width 32 key
  | .pageZeroed _ => true
  | .sumpItemCreate _ dom => Chk.dom dom
  | .itemDelivery _ core thr => Chk.core core && Chk.thr thr
  | .rebalance _ => true
  | .cisternQuota _ _ dom data item ctx => Chk.f64s [dom, data, item, ctx]
  | .cisternStatus _ _ dom => Chk.f64 dom
  | .ctxShare _ _ shares => shares.length == 16 && shares.all (fun l => l.length == 4 && Chk.f64s l)
  | .ctxBackingSet _ _ type addr entries => Chk.f64s [type, addr, entries]
  | .ctxPin _ _ type ctx pin => Chk.f64s [type, ctx, pin]
  | .impClassSet _ _ cls inflight depth reissue moving high low => Chk.f64s [cls, inflight, depth, reissue, moving, high, low]
  | .impQueueSet _ _ q cls f k ranges => Chk.f64s [q, cls, f, k] && Chk.f64s (ranges.flatMap (fun e => [e.1, e.2]))
  | .impMigrate _ _ flow core thr => Chk.f64s [flow, core, thr]
  | .impFlowStatus _ _ flow => Chk.f64 flow
  | .impQuota _ _ quotas => quotas.length == 16 && Chk.f64s (quotas.flatMap (fun e => [e.1, e.2]))
  | .pcieLinkUp _ _ speed width _ => 1 ≤ speed && speed ≤ 6 && [1, 2, 4, 8, 16].contains width
  | .dlDown _ _ => true
  | .windowRequest _ fn off n write _ data => Chk.fn fn && off < 2 ^ 36 && 1 ≤ n && n ≤ 4096 && (if write then data.length == n else data.isEmpty)
  | .expansionRomRead _ off n => off + n ≤ 2 ^ 22
  | .winCtrlRegWrite _ pf e value => pf < 8 && e < 64 && Chk.width 32 value
  | .winAddressWrite _ pf e word value => pf < 8 && e < 64 && word ≤ 2 && Chk.width 32 value
  | .winDrained _ fn e => Chk.fn fn && e < 64
  | .pmStateWrite _ fn _ => Chk.fn fn
  | .d3hotWorkTimeout _ fn => Chk.fn fn
  | .busMasterEnableWrite _ fn _ => Chk.fn fn
  | .vfEnableWrite _ pf num _ _ => pf < 8 && Chk.width 16 num
  | .ctoValueWrite _ fn value => Chk.fn fn && Chk.width 4 value
  | .aspmL1Entry _ _ => true
  | .l0pWidthReduce _ _ => true
  | .pcieStatus _ _ func => Chk.f64 func
  | .pcieCtoSet _ _ func us => Chk.f64s [func, us]
  | .winWrite _ _ func e target pages => Chk.f64s [func, e, target, pages]
  | .winCtrl _ _ func e valid seq rd wr => Chk.f64s [func, e, valid, seq, rd, wr]
  | .winRead _ _ func e => Chk.f64s [func, e]
  | .pcieWinMax _ _ func size => Chk.f64s [func, size]
  | .pciePowerConfig _ _ idle auto width snoop nosnoop => Chk.f64s [idle, auto, width, snoop, nosnoop]
  | .sriovLimit _ _ total => total.length == 7 && Chk.f64s total
  | .rdmaRequestPacket _ fn => Chk.fn fn
  | .rdmaAckReceived _ fn => Chk.fn fn
  | .rdmaNakReceived _ fn => Chk.fn fn
  | .rdmaRnrNakReceived _ fn => Chk.fn fn
  | .rdmaReadResponse _ fn => Chk.fn fn
  | .cnpReceived _ fn => Chk.fn fn
  | .ackTimerExpiry _ qp => Chk.width 20 qp
  | .rnrTimerExpiry _ qp => Chk.width 20 qp
  | .responderAckTimer _ qp => Chk.width 20 qp
  | .ccRateIncrease _ => true
  | .rdmaPacedEnqueue _ qp => Chk.width 20 qp
  | .qpnQuietEnd _ => true
  | .mrDrainComplete _ region => Chk.width 20 region
  | .rdmaFnConfig _ _ func ring => Chk.f64s [func, ring]
  | .rdmaGidSet _ _ port index addr dom => Chk.f64s [port, index, dom] && Chk.width 128 addr
  | .qpCreate _ _ func send recv queue => Chk.f64s [func, send, recv, queue]
  | .qpModify _ _ qp to_ attrs => Chk.f64s [qp, to_] && attrs.all (fun a => Chk.f64 a.1 && Chk.width 128 a.2)
  | .qpQuery _ _ qp => Chk.f64 qp
  | .qpDestroy _ _ qp => Chk.f64 qp
  | .mrRegister _ _ func pd space addr len va rights => Chk.f64s [func, pd, space, addr, len, va, rights]
  | .mrDeregister _ _ key => Chk.f64 key
  | .mrQuery _ _ key => Chk.f64 key
  | .rdmaQuota _ _ quotas => quotas.length == 16 && quotas.all (fun q => Chk.f64s [q.1, q.2.1, q.2.2])
  | .rdmaCcSet _ _ dom en dec ai min => Chk.f64s [dom, en, dec, ai, min]
  | .rdmaQpnQuiet _ _ exponent => Chk.f64 exponent
  | .rdmaStatus _ _ dom => Chk.f64 dom
  | .storageFlushStart _ => true
  | .nsCreate _ _ func id blk cap targets => Chk.f64s [func, id, blk, cap] && targets.length ≤ 4000 && targets.all (fun t => t.length == 25 && t.all (fun v => Chk.width 128 v))
  | .nsTargetSet _ _ func id target attrs => Chk.f64s [func, id, target] && attrs.length == 25 && attrs.all (fun v => Chk.width 128 v)
  | .nsDelete _ _ func id => Chk.f64s [func, id]
  | .nsStatus _ _ func id => Chk.f64s [func, id]
  | .macsecPortConfig _ _ port on suite validate window sci offset exempt => Chk.f64s [port, on, suite, validate, window, sci, offset] && Chk.f64s exempt
  | .macsecSaSet _ _ port sc sci an key ssci salt pn => Chk.f64s [port, sc, sci, an, ssci, pn] && Chk.width 256 key && Chk.width 96 salt
  | .macsecTxAn _ _ port an => Chk.f64s [port, an]
  | .macsecStatus _ _ port => Chk.f64 port
  | .ipsecSaSet _ _ dir spi src dst key salt esn seq tlen template sport dport => Chk.f64s [dir, spi, salt, esn, seq, tlen, sport, dport] && Chk.width 128 src && Chk.width 128 dst && Chk.width 256 key && template.length == tlen
  | .ipsecSaDelete _ _ handle => Chk.f64 handle
  | .ipsecQueueBind _ _ queue sa => Chk.f64s [queue, sa]
  | .ipsecSaRead _ _ handle => Chk.f64 handle
  | .secKeyQuota _ _ slots => slots.length == 16 && Chk.f64s slots
  | .mapCrcCheck _ => true
  | .provStage _ _ addr len _ => Chk.f64s [addr, len]
  | .provCheck _ _ => true
  | .provBurn _ _ crc => Chk.f64 crc
  | .provBurnComplete _ => true
  | .provDebugClose _ _ dom rights => Chk.f64s [dom, rights]
  | .provIsoLock _ _ => true
  | .domainQuery _ _ dom => Chk.f64 dom
  | .domainPortStats _ _ port => Chk.f64 port
  | .tosenSegmentReceived _ _ => true
  | .mpReassemblyTimeout _ => true
  | .mpSessionIdleTimeout _ => true
  | .sessionOpen _ _ major lo hi flags area client => Chk.f64s [major, lo, hi, flags, area, client]
  | .sessionClose _ _ => true
  | .sessionPing _ _ => true
  | .stageWrite _ _ off len data => Chk.f64s [off, len] && data.length == len
  | .stageRead _ _ off len => Chk.f64s [off, len]
  | .sessionStatus _ _ => true
  | .sessionMpAllow _ _ count macs => Chk.f64 count && Chk.f64s macs
  | .bootStatus _ _ => true
  | .imageWriteBegin _ _ len _ => Chk.f64 len
  | .imageWrite _ _ addr off len _ _ => Chk.f64s [addr, off, len]
  | .imageWriteEnd _ _ _ => true
  | .bootRestart _ _ => true
  | .bootRollbackCommit _ _ v allow => Chk.f64s [v, allow]
  | .bootKeyProgram _ _ slot hash => Chk.f64 slot && Chk.f64s hash
  | .bootKeyRevoke _ _ slot => Chk.f64 slot
  | .scrubRead _ addr stack pch mask kind dom _ => Chk.width 38 addr && stack < 4 && pch < 32 && Chk.width 36 mask && kind ≤ 5 && Chk.dom dom
  | .sramScrubRead _ store _ mask dom _ => 1 ≤ store && store ≤ 9 && Chk.width 36 mask && Chk.dom dom
  | .ueReportPeriodEnd _ dom => dom ≤ 16
  | .memStatus _ _ dom => Chk.f64 dom
  | .memScrubConfig _ _ scrub sram retire alert => Chk.f64s [scrub, sram, retire, alert]
  | .memErrorLog _ _ addr len => Chk.f64s [addr, len]
  | .memRetiredList _ _ addr len => Chk.f64s [addr, len]
  | .memRetirePage _ _ page => Chk.f64 page
  | .memInject _ _ dom addr mask => Chk.f64s [dom, addr, mask]
  | .lineReset _ => true
  | .wlHeaderCrcFail _ => true
  | .wlSessionIdleTimeout _ => true
  | .wlProbeDisconnect _ => true
  | .connect _ seq _ f => Chk.width 8 seq && Chk.f64s f
  | .disconnect _ seq _ f => Chk.width 8 seq && Chk.f64s f
  | .wlStatus _ seq _ f => Chk.width 8 seq && Chk.f64s f
  | .csrRead _ seq _ f => Chk.width 8 seq && Chk.f64s f
  | .wlHalt _ seq _ f => Chk.width 8 seq && Chk.f64s f
  | .wlResume _ seq _ f => Chk.width 8 seq && Chk.f64s f
  | .wlStep _ seq _ f => Chk.width 8 seq && Chk.f64s f
  | .bpSet _ seq _ f => Chk.width 8 seq && Chk.f64s f
  | .bpClear _ seq _ f => Chk.width 8 seq && Chk.f64s f
  | .regRead _ seq _ f => Chk.width 8 seq && Chk.f64s f
  | .regWrite _ seq _ f => Chk.width 8 seq && Chk.f64s f
  | .wlMemRead _ seq _ f => Chk.width 8 seq && Chk.f64s f
  | .wlMemWrite _ seq _ f => Chk.width 8 seq && Chk.f64s f
  | .wlChanAbandon _ seq _ f => Chk.width 8 seq && Chk.f64s f
  | .wlTosen _ seq _ _ => Chk.width 8 seq
  | .poll _ seq _ f => Chk.width 8 seq && Chk.f64s f
  | .debugStatus _ _ dom => Chk.f64 dom
  | .debugSessionEnd _ _ => true
  | .tapReset _ => true
  | .extest _ capture shift => Chk.width 612 capture && Chk.width 612 shift
  | .idcode _ => true
  | .samplePreload _ capture shift => Chk.width 612 capture && Chk.width 612 shift
  | .clamp _ => true
  | .highz _ => true
  | .extestPulse _ capture shift _ => Chk.width 612 capture && Chk.width 612 shift
  | .extestTrain _ capture shift _ => Chk.width 612 capture && Chk.width 612 shift
  | .bypass _ => true
  | .refCoreReturn _ => true
  | .oscHoldPresenceChange _ _ => true
  | .cisternWriteStored _ core unit sub idx => (if core then Chk.core unit && Chk.thr sub else Chk.fn unit && Chk.ring sub) && Chk.width 32 idx
  | .bootSignatureVerified _ => true
  | .securityChangeCommit _ => true

/-- The device time that passes before the command, in units of 2^-16 ns. -/
def Instr.time : Instr → Nat
  | .pwrGoodFall dt => dt
  | .pwrGoodRise dt => dt
  | .perstNAssert dt _ => dt
  | .perstNRelease dt => dt
  | .resetNAssert dt _ => dt
  | .resetNRelease dt => dt
  | .vddAuxUp dt => dt
  | .vddAuxLoss dt => dt
  | .refCoreLoss dt => dt
  | .resetCloseTimeout dt => dt
  | .thermAssert dt _ => dt
  | .thermRelease dt _ => dt
  | .thermalCritical dt _ => dt
  | .thermalTrip dt _ => dt
  | .i2cWrite dt _ => dt
  | .bootRomStart dt _ => dt
  | .bootBlockLanded dt _ _ => dt
  | .recoveryWindowEnd dt _ => dt
  | .recVerOfferWrite dt _ => dt
  | .recBegin dt _ _ => dt
  | .recChunk dt _ _ _ _ => dt
  | .recFinish dt _ _ => dt
  | .recFlashWriteDone dt _ => dt
  | .recAbort dt _ => dt
  | .recStatusRequest dt _ _ => dt
  | .recDataWindowWrite dt _ _ _ => dt
  | .recTransferTimeout dt => dt
  | .modeQuery dt _ => dt
  | .enterService dt _ _ => dt
  | .enterDrain dt _ _ => dt
  | .resume dt _ => dt
  | .wdogConfig dt _ _ => dt
  | .readyQuery dt _ _ => dt
  | .watchdogFeed dt _ => dt
  | .watchdogExpiry dt => dt
  | .drainWorkComplete dt => dt
  | .drainLimitExpiry dt => dt
  | .drainTxStop dt => dt
  | .drainChainClose dt => dt
  | .lockdownChainClose dt => dt
  | .functionReady dt _ => dt
  | .tbNowLoRead dt _ => dt
  | .latchingLoRead dt _ _ _ => dt
  | .registerWrite dt _ _ _ _ _ => dt
  | .ppsInEdge dt => dt
  | .ref10mInLoss dt => dt
  | .synceLockLoss dt _ _ => dt
  | .todInMessage dt _ => dt
  | .ptpSyncReceived dt _ _ _ _ _ _ => dt
  | .ptpFollowUpReceived dt _ _ _ _ => dt
  | .ptpDelayReqReceived dt _ _ _ _ => dt
  | .ptpDelayRespReceived dt _ _ _ _ => dt
  | .ptpPdelayReqReceived dt _ _ _ _ => dt
  | .ptpPdelayRespReceived dt _ _ _ _ _ _ => dt
  | .ptpAnnounceReceived dt _ _ _ => dt
  | .ptpManagementReceived dt _ => dt
  | .ptpReceiptTimeout dt => dt
  | .ptpSyncTransmit dt _ _ => dt
  | .ptpDelayReqTransmit dt _ => dt
  | .ptpPdelayReqTransmit dt _ _ => dt
  | .esmcPduReceived dt _ _ => dt
  | .evaluationSecondEnd dt _ _ _ _ => dt
  | .holdoverClassChange dt => dt
  | .timeQuery dt _ => dt
  | .timeRefSelect dt _ _ _ _ _ _ => dt
  | .timeSetPpsDelay dt _ _ => dt
  | .timeStep dt _ _ _ _ => dt
  | .timeSetUtc dt _ _ => dt
  | .timeLeapAnnounce dt _ _ _ => dt
  | .timeOutputConfig dt _ _ _ _ _ _ _ _ _ => dt
  | .timePtpConfig dt _ _ _ _ _ _ _ _ _ _ _ _ => dt
  | .timeRefRelease dt _ => dt
  | .timeSetApply dt => dt
  | .timeStepApply dt => dt
  | .utcOffsetApply dt => dt
  | .leapApply dt => dt
  | .ppsOutEdge dt => dt
  | .ppsPulseEnd dt => dt
  | .todOutMessage dt => dt
  | .receiveEvent dt _ _ _ _ _ _ => dt
  | .pauseFrameReceived dt _ _ _ => dt
  | .pauseTimerExpiry dt _ _ => dt
  | .pfcRefresh dt _ => dt
  | .pipelineDispatch dt _ => dt
  | .deepCacheFill dt _ _ _ _ => dt
  | .learnApply dt => dt
  | .frameAdmission dt _ => dt
  | .frameTransmitStart dt _ => dt
  | .txFrameComplete dt _ _ => dt
  | .hostDelivery dt => dt
  | .bucketRefill dt => dt
  | .meterChangeApply dt => dt
  | .queueSample dt => dt
  | .samplePeriodEnd dt => dt
  | .queueCommit dt => dt
  | .txFrameReadComplete dt _ _ => dt
  | .sluiceHoldPoint dt _ => dt
  | .sluiceRelease dt _ _ => dt
  | .sluicePhaseStep dt _ => dt
  | .spoutReplicaStart dt _ => dt
  | .heartbeatSend dt => dt
  | .heartbeatIntervalSettle dt => dt
  | .epochClose dt => dt
  | .epochRootFinal dt _ => dt
  | .checkpointClose dt => dt
  | .checkpointSigned dt => dt
  | .chainOpen dt => dt
  | .exportCopy dt _ => dt
  | .ledgerQuotaApply dt => dt
  | .ledgerStatus dt _ _ => dt
  | .ledgerSetQuota dt _ _ _ => dt
  | .ledgerSetCistern dt _ _ _ => dt
  | .ledgerCertGet dt _ _ _ _ _ => dt
  | .ledgerRetainedGet dt _ _ => dt
  | .pcsAlignLock dt _ => dt
  | .wellheadCalComplete dt _ _ _ => dt
  | .pcsLockLoss dt _ => dt
  | .alignmentSlip dt _ => dt
  | .remoteFaultReceived dt _ => dt
  | .faultClear dt _ => dt
  | .localFaultDetected dt _ => dt
  | .autonegComplete dt _ => dt
  | .autonegNoCommonMode dt _ => dt
  | .wakePatternDetected dt _ => dt
  | .laneTestEnd dt _ _ _ => dt
  | .mdioPoll dt _ _ _ _ => dt
  | .mpCollision dt _ => dt
  | .mpBackoffExpiry dt _ => dt
  | .portMapSet dt _ _ _ => dt
  | .portConfig dt _ _ _ _ _ _ _ _ _ _ _ _ _ => dt
  | .portStatus dt _ _ => dt
  | .portPfcConfig dt _ _ _ _ _ _ _ => dt
  | .portDormant dt _ _ => dt
  | .portWake dt _ _ => dt
  | .portHeartbeatConfig dt _ _ _ _ => dt
  | .portMpConfig dt _ _ _ _ => dt
  | .portLaneTest dt _ _ _ _ _ _ => dt
  | .parseGraphLoad dt _ _ _ _ => dt
  | .parseGraphSwap dt _ => dt
  | .parseGraphSwapEffect dt => dt
  | .classRuleSet dt _ _ _ _ _ _ _ _ _ => dt
  | .classRuleClear dt _ _ _ => dt
  | .prsPortConfig dt _ _ _ _ _ => dt
  | .spoutProfileSet dt _ _ _ _ => dt
  | .prsStatus dt _ _ => dt
  | .classRuleQuota dt _ _ _ => dt
  | .spoutEnWrite dt _ _ => dt
  | .tableCreate dt _ _ _ _ _ _ _ _ _ _ => dt
  | .tableDestroy dt _ _ => dt
  | .tableInsert dt _ _ _ _ _ _ _ => dt
  | .tableDelete dt _ _ _ _ => dt
  | .tableRead dt _ _ _ _ => dt
  | .tableBatch dt _ _ _ _ => dt
  | .tableCommit dt => dt
  | .profileSet dt _ _ _ _ => dt
  | .learnConfig dt _ _ _ _ _ _ => dt
  | .spoutInsert dt _ _ _ => dt
  | .spoutDelete dt _ _ _ _ => dt
  | .tableStatus dt _ _ _ => dt
  | .tableQuota dt _ _ _ _ _ _ => dt
  | .spoutSeedSet dt _ _ => dt
  | .learnRefill dt => dt
  | .ageingSweep dt _ => dt
  | .tmMeterSet dt _ _ _ _ _ _ _ _ _ _ => dt
  | .tmMeterRead dt _ _ => dt
  | .tmQueueSet dt _ _ _ _ _ _ _ _ _ _ _ _ => dt
  | .tmQueueRead dt _ _ => dt
  | .tmShaperSet dt _ _ _ _ _ _ _ => dt
  | .tmSchedSet dt _ _ _ _ => dt
  | .tmBufferSet dt _ _ _ _ _ _ => dt
  | .tmSlotsSet dt _ _ => dt
  | .tmQuota dt _ _ _ _ => dt
  | .tmSampleConfig dt _ _ => dt
  | .tmStatus dt _ _ => dt
  | .sluiceCompSet dt _ _ _ _ => dt
  | .sluiceCompCommit dt => dt
  | .sluiceStatus dt _ _ => dt
  | .sluiceQuota dt _ _ => dt
  | .generalInstruction dt _ _ _ _ => dt
  | .cisternLoadReturn dt _ _ => dt
  | .tnow dt _ _ _ => dt
  | .tnowq dt _ _ _ => dt
  | .dlset dt _ _ _ => dt
  | .dlclr dt _ _ _ => dt
  | .wfe dt _ _ _ => dt
  | .sig dt _ _ _ => dt
  | .crr dt _ _ _ => dt
  | .crw dt _ _ _ => dt
  | .tspawn dt _ _ _ => dt
  | .texit dt _ _ _ => dt
  | .tret dt _ _ _ => dt
  | .fenceD dt _ _ _ => dt
  | .rpost dt _ _ _ => dt
  | .trap dt _ _ _ => dt
  | .cbegin dt _ _ _ => dt
  | .cbeginT dt _ _ _ => dt
  | .cput dt _ _ _ => dt
  | .ccommit dt _ _ _ => dt
  | .ccommitR dt _ _ _ => dt
  | .cabort dt _ _ _ => dt
  | .crecv dt _ _ _ => dt
  | .crecvT dt _ _ _ => dt
  | .cfree dt _ _ _ => dt
  | .esub dt _ _ _ => dt
  | .eunsub dt _ _ _ => dt
  | .eget dt _ _ _ => dt
  | .edone dt _ _ _ => dt
  | .itake dt _ _ _ => dt
  | .iretire dt _ _ _ => dt
  | .ipost dt _ _ _ => dt
  | .pgalloc dt _ _ _ => dt
  | .pgfree dt _ _ _ => dt
  | .deadlineFire dt _ _ => dt
  | .dryWellFault dt _ => dt
  | .overseerRestart dt _ => dt
  | .coreLoad dt _ _ _ _ _ _ => dt
  | .coreStart dt _ _ _ _ _ => dt
  | .coreStop dt _ _ => dt
  | .coreRestart dt _ _ _ => dt
  | .coreUrgent dt _ _ _ => dt
  | .coreStatus dt _ _ => dt
  | .chanCreate dt _ _ _ _ _ _ _ => dt
  | .chanDestroy dt _ _ => dt
  | .chanAbandon dt _ _ => dt
  | .chanStatus dt _ _ => dt
  | .chanQuota dt _ _ => dt
  | .chanSlotHoldTimeout dt => dt
  | .handoverHeldTimeout dt => dt
  | .doorbellWrite dt _ _ _ _ => dt
  | .indexReadReturn dt _ _ _ => dt
  | .descriptorFetch dt _ _ _ => dt
  | .ringEnableWrite dt _ _ _ => dt
  | .ringVerOfferWrite dt _ _ => dt
  | .interruptModerationEnd dt => dt
  | .ringQuota dt _ _ _ => dt
  | .fnReset dt _ _ => dt
  | .flr dt _ => dt
  | .fnResetComplete dt _ => dt
  | .dmaDescriptorStart dt _ _ => dt
  | .pcieReadCompletion dt _ _ _ _ _ => dt
  | .flushReadComplete dt _ _ => dt
  | .completionTimeout dt _ => dt
  | .tagQuarantineEnd dt _ => dt
  | .dmaChannelSet dt _ _ _ _ _ => dt
  | .dmaStatus dt _ _ => dt
  | .contextFetchComplete dt _ _ => dt
  | .contextWritebackComplete dt _ _ => dt
  | .pageZeroed dt => dt
  | .sumpItemCreate dt _ => dt
  | .itemDelivery dt _ _ => dt
  | .rebalance dt => dt
  | .cisternQuota dt _ _ _ _ _ => dt
  | .cisternStatus dt _ _ => dt
  | .ctxShare dt _ _ => dt
  | .ctxBackingSet dt _ _ _ _ => dt
  | .ctxPin dt _ _ _ _ => dt
  | .impClassSet dt _ _ _ _ _ _ _ _ => dt
  | .impQueueSet dt _ _ _ _ _ _ => dt
  | .impMigrate dt _ _ _ _ => dt
  | .impFlowStatus dt _ _ => dt
  | .impQuota dt _ _ => dt
  | .pcieLinkUp dt _ _ _ _ => dt
  | .dlDown dt _ => dt
  | .windowRequest dt _ _ _ _ _ _ => dt
  | .expansionRomRead dt _ _ => dt
  | .winCtrlRegWrite dt _ _ _ => dt
  | .winAddressWrite dt _ _ _ _ => dt
  | .winDrained dt _ _ => dt
  | .pmStateWrite dt _ _ => dt
  | .d3hotWorkTimeout dt _ => dt
  | .busMasterEnableWrite dt _ _ => dt
  | .vfEnableWrite dt _ _ _ _ => dt
  | .ctoValueWrite dt _ _ => dt
  | .aspmL1Entry dt _ => dt
  | .l0pWidthReduce dt _ => dt
  | .pcieStatus dt _ _ => dt
  | .pcieCtoSet dt _ _ _ => dt
  | .winWrite dt _ _ _ _ _ => dt
  | .winCtrl dt _ _ _ _ _ _ _ => dt
  | .winRead dt _ _ _ => dt
  | .pcieWinMax dt _ _ _ => dt
  | .pciePowerConfig dt _ _ _ _ _ _ => dt
  | .sriovLimit dt _ _ => dt
  | .rdmaRequestPacket dt _ => dt
  | .rdmaAckReceived dt _ => dt
  | .rdmaNakReceived dt _ => dt
  | .rdmaRnrNakReceived dt _ => dt
  | .rdmaReadResponse dt _ => dt
  | .cnpReceived dt _ => dt
  | .ackTimerExpiry dt _ => dt
  | .rnrTimerExpiry dt _ => dt
  | .responderAckTimer dt _ => dt
  | .ccRateIncrease dt => dt
  | .rdmaPacedEnqueue dt _ => dt
  | .qpnQuietEnd dt => dt
  | .mrDrainComplete dt _ => dt
  | .rdmaFnConfig dt _ _ _ => dt
  | .rdmaGidSet dt _ _ _ _ _ => dt
  | .qpCreate dt _ _ _ _ _ => dt
  | .qpModify dt _ _ _ _ => dt
  | .qpQuery dt _ _ => dt
  | .qpDestroy dt _ _ => dt
  | .mrRegister dt _ _ _ _ _ _ _ _ => dt
  | .mrDeregister dt _ _ => dt
  | .mrQuery dt _ _ => dt
  | .rdmaQuota dt _ _ => dt
  | .rdmaCcSet dt _ _ _ _ _ _ => dt
  | .rdmaQpnQuiet dt _ _ => dt
  | .rdmaStatus dt _ _ => dt
  | .storageFlushStart dt => dt
  | .nsCreate dt _ _ _ _ _ _ => dt
  | .nsTargetSet dt _ _ _ _ _ => dt
  | .nsDelete dt _ _ _ => dt
  | .nsStatus dt _ _ _ => dt
  | .macsecPortConfig dt _ _ _ _ _ _ _ _ _ => dt
  | .macsecSaSet dt _ _ _ _ _ _ _ _ _ => dt
  | .macsecTxAn dt _ _ _ => dt
  | .macsecStatus dt _ _ => dt
  | .ipsecSaSet dt _ _ _ _ _ _ _ _ _ _ _ _ _ => dt
  | .ipsecSaDelete dt _ _ => dt
  | .ipsecQueueBind dt _ _ _ => dt
  | .ipsecSaRead dt _ _ => dt
  | .secKeyQuota dt _ _ => dt
  | .mapCrcCheck dt => dt
  | .provStage dt _ _ _ _ => dt
  | .provCheck dt _ => dt
  | .provBurn dt _ _ => dt
  | .provBurnComplete dt => dt
  | .provDebugClose dt _ _ _ => dt
  | .provIsoLock dt _ => dt
  | .domainQuery dt _ _ => dt
  | .domainPortStats dt _ _ => dt
  | .tosenSegmentReceived dt _ => dt
  | .mpReassemblyTimeout dt => dt
  | .mpSessionIdleTimeout dt => dt
  | .sessionOpen dt _ _ _ _ _ _ _ => dt
  | .sessionClose dt _ => dt
  | .sessionPing dt _ => dt
  | .stageWrite dt _ _ _ _ => dt
  | .stageRead dt _ _ _ => dt
  | .sessionStatus dt _ => dt
  | .sessionMpAllow dt _ _ _ => dt
  | .bootStatus dt _ => dt
  | .imageWriteBegin dt _ _ _ => dt
  | .imageWrite dt _ _ _ _ _ _ => dt
  | .imageWriteEnd dt _ _ => dt
  | .bootRestart dt _ => dt
  | .bootRollbackCommit dt _ _ _ => dt
  | .bootKeyProgram dt _ _ _ => dt
  | .bootKeyRevoke dt _ _ => dt
  | .scrubRead dt _ _ _ _ _ _ _ => dt
  | .sramScrubRead dt _ _ _ _ _ => dt
  | .ueReportPeriodEnd dt _ => dt
  | .memStatus dt _ _ => dt
  | .memScrubConfig dt _ _ _ _ _ => dt
  | .memErrorLog dt _ _ _ => dt
  | .memRetiredList dt _ _ _ => dt
  | .memRetirePage dt _ _ => dt
  | .memInject dt _ _ _ _ => dt
  | .lineReset dt => dt
  | .wlHeaderCrcFail dt => dt
  | .wlSessionIdleTimeout dt => dt
  | .wlProbeDisconnect dt => dt
  | .connect dt _ _ _ => dt
  | .disconnect dt _ _ _ => dt
  | .wlStatus dt _ _ _ => dt
  | .csrRead dt _ _ _ => dt
  | .wlHalt dt _ _ _ => dt
  | .wlResume dt _ _ _ => dt
  | .wlStep dt _ _ _ => dt
  | .bpSet dt _ _ _ => dt
  | .bpClear dt _ _ _ => dt
  | .regRead dt _ _ _ => dt
  | .regWrite dt _ _ _ => dt
  | .wlMemRead dt _ _ _ => dt
  | .wlMemWrite dt _ _ _ => dt
  | .wlChanAbandon dt _ _ _ => dt
  | .wlTosen dt _ _ _ => dt
  | .poll dt _ _ _ => dt
  | .debugStatus dt _ _ => dt
  | .debugSessionEnd dt _ => dt
  | .tapReset dt => dt
  | .extest dt _ _ => dt
  | .idcode dt => dt
  | .samplePreload dt _ _ => dt
  | .clamp dt => dt
  | .highz dt => dt
  | .extestPulse dt _ _ _ => dt
  | .extestTrain dt _ _ _ => dt
  | .bypass dt => dt
  | .refCoreReturn dt => dt
  | .oscHoldPresenceChange dt _ => dt
  | .cisternWriteStored dt _ _ _ _ => dt
  | .bootSignatureVerified dt => dt
  | .securityChangeCommit dt => dt

end Sys2Proof
end

