-- ==== Sys2Proof/Decode.lean ====
section
/-! DEFINITION. The decoder of command words. `spec/opcode_table.json` gives no row any bits: a command is no word of
the block's, so no word spells one. -/
namespace Sys2Proof

/-- The command the table's bits spell: none, as the table gives no row bits. (DESIGN CHOICE, unsafe: notes/assumptions/1.md) -/
def decodeTableWord (_nbits _w : Nat) : Option Instr := none

end Sys2Proof
end

