-- ==== Sys2Proof/Machine/Table.lean ====
section
/-! DEFINITION. Operations on sparse tables keyed by number, and small numeric helpers. -/
namespace Sys2Proof.Machine

/-- The entry of number `k`, if the table lists one. -/
def tget? {α : Type} : Table α → Nat → Option α
  | [], _ => none
  | (k', v) :: r, k => if k' = k then some v else tget? r k

/-- The entry of number `k`, or `d` where none is listed. (DESIGN CHOICE, safe: notes/assumptions/5.md) -/
def tget {α : Type} (t : Table α) (k : Nat) (d : α) : α := (tget? t k).getD d

/-- The table with entry `k` set to `v`, in rising order. (DESIGN CHOICE, safe: notes/assumptions/5.md) -/
def tset {α : Type} : Table α → Nat → α → Table α
  | [], k, v => [(k, v)]
  | (k', v') :: r, k, v =>
    if k' = k then (k, v) :: r
    else if k < k' && (tget? r k).isNone then (k, v) :: (k', v') :: r
    else (k', v') :: tset r k v

/-- The table without entry `k`. -/
def tdel {α : Type} (t : Table α) (k : Nat) : Table α := t.filter (fun e => e.1 != k)

/-- Entry `k` (default `d`) replaced by its image under `f`. -/
def tupd {α : Type} (t : Table α) (k : Nat) (d : α) (f : α → α) : Table α := tset t k (f (tget t k d))

/-- Every listed entry replaced by its image under `f`. -/
def tmap {α : Type} (t : Table α) (f : α → α) : Table α := t.map (fun e => (e.1, f e.2))

/-- Every listed entry replaced by its image under `f`, which also sees the number. -/
def tmapK {α : Type} (t : Table α) (f : Nat → α → α) : Table α := t.map (fun e => (e.1, f e.1 e.2))

/-- The table form: numbers rise strictly. -/
def twf {α : Type} : Table α → Bool
  | [] => true
  | [_] => true
  | (k, _) :: (k', v') :: r => k < k' && twf ((k', v') :: r)

/-- Bits `[hi:lo]` of `n`. -/
def bits (n hi lo : Nat) : Nat := n / 2 ^ lo % 2 ^ (hi + 1 - lo)

/-- Bit `i` of `n`. -/
def bit (n i : Nat) : Bool := n.testBit i

/-- A flag as the number 0 or 1. -/
def b2n (b : Bool) : Nat := if b then 1 else 0

/-- A signed value as `w` bits of two's complement. -/
def twos (w : Nat) (v : Int) : Nat := (v % (2 ^ w : Int)).toNat

/-- `n` with bit `i` set. -/
def setBit (n i : Nat) : Nat := if n.testBit i then n else n + 2 ^ i

/-- `n` with bit `i` clear. -/
def clearBit (n i : Nat) : Nat := if n.testBit i then n - 2 ^ i else n

/-- `w` bytes of `n`, least significant first. -/
def le : Nat → Nat → Bytes
  | _, 0 => []
  | n, w + 1 => BitVec.ofNat 8 n :: le (n / 256) w

/-- The number a string of bytes spells, least significant byte first. -/
def ofLe : Bytes → Nat
  | [] => 0
  | b :: r => b.toNat + 256 * ofLe r

/-- The number a string of bytes spells, most significant byte first. -/
def ofBe (b : Bytes) : Nat := b.foldl (fun a x => a * 256 + x.toNat) 0

/-- `w` bytes of `n`, most significant first. -/
def be (n w : Nat) : Bytes := (le n w).reverse

/-- `w` zero bytes. -/
def zeros (w : Nat) : Bytes := List.replicate w 0

/-- Bytes `[off, off+w)` of a string, zeros where it ends early. -/
def slice (b : Bytes) (off w : Nat) : Bytes :=
  let x := (b.drop off).take w
  x ++ zeros (w - x.length)

/-- The least multiple of `m` that is above `n` (`m` positive). -/
def nextMult (n m : Nat) : Nat := (n / m + 1) * m

/-- The least multiple of `m` not below `n` (`m` positive). -/
def ceilMult (n m : Nat) : Nat := (n + m - 1) / m * m

/-- `a / b` rounded up (`b` positive). -/
def ceilDiv (a b : Nat) : Nat := (a + b - 1) / b

/-- `n + 1`, holding at `m`. -/
def satInc (n m : Nat) : Nat := if n < m then n + 1 else m

/-- A counter of 48 bits, one higher (R12's counters wrap at 2^48). -/
def inc48 (n : Nat) : Nat := (n + 1) % 2 ^ 48

/-- A counter of 48 bits, `k` higher. -/
def add48 (n k : Nat) : Nat := (n + k) % 2 ^ 48

/-- Entry `i` of a list of numbers, 0 beyond its end. -/
def nth (l : List Nat) (i : Nat) : Nat := l.getD i 0

/-- A list of numbers with entry `i` replaced (unchanged where it is shorter). -/
def setNth (l : List Nat) (i v : Nat) : List Nat := l.set i v

/-- Counter `i` of a list of 48-bit counters, one higher. -/
def bump (l : List Nat) (i : Nat) : List Nat := l.set i (inc48 (nth l i))

/-- Counter `i` of a list of 48-bit counters, `k` higher. -/
def bumpBy (l : List Nat) (i k : Nat) : List Nat := l.set i (add48 (nth l i) k)

end Sys2Proof.Machine
end

