-- ==== Sys2Proof/Machine/Hash.lean ====
section
/-! DEFINITION. The digests and check codes the spec names by their standards: SHA-256 and SHA-384 (FIPS 180-4; R84, R428),
CRC-32C (R163), CRC-16/CCITT-FALSE (R464), and the Reed-Solomon guard code's field (R448). -/
namespace Sys2Proof.Machine

/-- The sixty-four round constants of FIPS 180-4, section 4.2.2. -/
def sha256K : List (BitVec 32) := [
  0x428a2f98, 0x71374491, 0xb5c0fbcf, 0xe9b5dba5, 0x3956c25b, 0x59f111f1, 0x923f82a4, 0xab1c5ed5,
  0xd807aa98, 0x12835b01, 0x243185be, 0x550c7dc3, 0x72be5d74, 0x80deb1fe, 0x9bdc06a7, 0xc19bf174] ++ [
  0xe49b69c1, 0xefbe4786, 0x0fc19dc6, 0x240ca1cc, 0x2de92c6f, 0x4a7484aa, 0x5cb0a9dc, 0x76f988da,
  0x983e5152, 0xa831c66d, 0xb00327c8, 0xbf597fc7, 0xc6e00bf3, 0xd5a79147, 0x06ca6351, 0x14292967] ++ [
  0x27b70a85, 0x2e1b2138, 0x4d2c6dfc, 0x53380d13, 0x650a7354, 0x766a0abb, 0x81c2c92e, 0x92722c85,
  0xa2bfe8a1, 0xa81a664b, 0xc24b8b70, 0xc76c51a3, 0xd192e819, 0xd6990624, 0xf40e3585, 0x106aa070] ++ [
  0x19a4c116, 0x1e376c08, 0x2748774c, 0x34b0bcb5, 0x391c0cb3, 0x4ed8aa4a, 0x5b9cca4f, 0x682e6ff3,
  0x748f82ee, 0x78a5636f, 0x84c87814, 0x8cc70208, 0x90befffa, 0xa4506ceb, 0xbef9a3f7, 0xc67178f2]

/-- The eight working variables of a round. -/
structure Sha where
  a : BitVec 32
  b : BitVec 32
  c : BitVec 32
  d : BitVec 32
  e : BitVec 32
  f : BitVec 32
  g : BitVec 32
  h : BitVec 32
  deriving DecidableEq, Repr

/-- The initial hash value of FIPS 180-4, section 5.3.3. -/
def shaInit : Sha := ⟨0x6a09e667, 0xbb67ae85, 0x3c6ef372, 0xa54ff53a, 0x510e527f, 0x9b05688c, 0x1f83d9ab, 0x5be0cd19⟩

/-- One round, with its constant plus its schedule word. -/
def shaRound (s : Sha) (kw : BitVec 32) : Sha :=
  let s1 := s.e.rotateRight 6 ^^^ s.e.rotateRight 11 ^^^ s.e.rotateRight 25
  let ch := (s.e &&& s.f) ^^^ (~~~ s.e &&& s.g)
  let t1 := s.h + s1 + ch + kw
  let s0 := s.a.rotateRight 2 ^^^ s.a.rotateRight 13 ^^^ s.a.rotateRight 22
  let mj := (s.a &&& s.b) ^^^ (s.a &&& s.c) ^^^ (s.b &&& s.c)
  ⟨t1 + (s0 + mj), s.a, s.b, s.c, s.d + t1, s.e, s.f, s.g⟩

/-- The rounds over a window of sixteen schedule words, oldest first. -/
def shaRounds : List (BitVec 32) → List (BitVec 32) → Sha → Sha
  | [], _, s => s
  | k :: ks, w, s =>
    let w0 := w.getD 0 0
    let w1 := w.getD 1 0
    let w9 := w.getD 9 0
    let w14 := w.getD 14 0
    let g0 := w1.rotateRight 7 ^^^ w1.rotateRight 18 ^^^ (w1 >>> 3)
    let g1 := w14.rotateRight 17 ^^^ w14.rotateRight 19 ^^^ (w14 >>> 10)
    shaRounds ks (w.drop 1 ++ [w0 + g0 + w9 + g1]) (shaRound s (k + w0))

/-- The big-endian words of a block. -/
def shaWords : Bytes → Nat → List (BitVec 32)
  | _, 0 => []
  | b, n + 1 => BitVec.ofNat 32 (ofBe (b.take 4)) :: shaWords (b.drop 4) n

/-- The message padded to a multiple of 64 bytes. -/
def shaPad (m : Bytes) : Bytes :=
  m ++ [0x80#8] ++ zeros ((119 - m.length % 64) % 64) ++ be (8 * m.length) 8

/-- The compression function over `n` blocks. -/
def shaBlocks : Nat → Bytes → Sha → Sha
  | 0, _, s => s
  | n + 1, b, s =>
    let t := shaRounds sha256K (shaWords b 16) s
    shaBlocks n (b.drop 64) ⟨s.a + t.a, s.b + t.b, s.c + t.c, s.d + t.d, s.e + t.e, s.f + t.f, s.g + t.g, s.h + t.h⟩

/-- The SHA-256 digest of a message, 32 bytes. -/
def sha256 (m : Bytes) : Bytes :=
  let p := shaPad m
  let s := shaBlocks (p.length / 64) p shaInit
  be s.a.toNat 4 ++ be s.b.toNat 4 ++ be s.c.toNat 4 ++ be s.d.toNat 4
    ++ be s.e.toNat 4 ++ be s.f.toNat 4 ++ be s.g.toNat 4 ++ be s.h.toNat 4

/-- One bit step of the reflected CRC-32C (polynomial 0x1EDC6F41). -/
def crc32cBit (c : BitVec 32) : BitVec 32 :=
  if c.getLsbD 0 then (c >>> 1) ^^^ 0x82F63B78#32 else c >>> 1

/-- CRC-32C over a string of bytes from a register value. -/
def crc32cRun (seed : BitVec 32) (m : Bytes) : BitVec 32 :=
  m.foldl (fun c b =>
    let x := c ^^^ b.setWidth 32
    crc32cBit (crc32cBit (crc32cBit (crc32cBit (crc32cBit (crc32cBit (crc32cBit (crc32cBit x)))))))) seed

/-- CRC-32C with the seed loaded into the register and the result complemented (R163). -/
def crc32c (seed : Nat) (m : Bytes) : Nat := (~~~ crc32cRun (BitVec.ofNat 32 seed) m).toNat

/-- One bit step of the reflected CRC-32 of IEEE 802.3. -/
def crc32Bit (c : BitVec 32) : BitVec 32 :=
  if c.getLsbD 0 then (c >>> 1) ^^^ 0xEDB88320#32 else c >>> 1

/-- The frame check sequence of IEEE 802.3, as the number its four bytes spell least significant first. -/
def fcs (m : Bytes) : Nat :=
  (~~~ m.foldl (fun (c : BitVec 32) (b : Byte) =>
    let x := c ^^^ b.setWidth 32
    crc32Bit (crc32Bit (crc32Bit (crc32Bit (crc32Bit (crc32Bit (crc32Bit (crc32Bit x)))))))) 0xFFFFFFFF#32).toNat

/-- One bit step of CRC-16/CCITT-FALSE (polynomial 0x1021). -/
def crc16Bit (c : BitVec 16) : BitVec 16 := if c.msb then (c <<< 1) ^^^ 0x1021#16 else c <<< 1

/-- CRC-16/CCITT-FALSE over a string of bytes (R464). -/
def crc16 (m : Bytes) : Nat :=
  (m.foldl (fun (c : BitVec 16) (b : Byte) =>
    let x := c ^^^ (b.setWidth 16 <<< 8)
    crc16Bit (crc16Bit (crc16Bit (crc16Bit (crc16Bit (crc16Bit (crc16Bit (crc16Bit x)))))))) 0xFFFF#16).toNat

/-! SHA-384 (FIPS 180-4; R428, R432). -/

/-- The eighty round constants of FIPS 180-4, section 4.2.3. -/
def sha512K : List (BitVec 64) := [
  0x428a2f98d728ae22, 0x7137449123ef65cd, 0xb5c0fbcfec4d3b2f, 0xe9b5dba58189dbbc,
  0x3956c25bf348b538, 0x59f111f1b605d019, 0x923f82a4af194f9b, 0xab1c5ed5da6d8118,
  0xd807aa98a3030242, 0x12835b0145706fbe, 0x243185be4ee4b28c, 0x550c7dc3d5ffb4e2,
  0x72be5d74f27b896f, 0x80deb1fe3b1696b1, 0x9bdc06a725c71235, 0xc19bf174cf692694] ++ [
  0xe49b69c19ef14ad2, 0xefbe4786384f25e3, 0x0fc19dc68b8cd5b5, 0x240ca1cc77ac9c65,
  0x2de92c6f592b0275, 0x4a7484aa6ea6e483, 0x5cb0a9dcbd41fbd4, 0x76f988da831153b5,
  0x983e5152ee66dfab, 0xa831c66d2db43210, 0xb00327c898fb213f, 0xbf597fc7beef0ee4,
  0xc6e00bf33da88fc2, 0xd5a79147930aa725, 0x06ca6351e003826f, 0x142929670a0e6e70] ++ [
  0x27b70a8546d22ffc, 0x2e1b21385c26c926, 0x4d2c6dfc5ac42aed, 0x53380d139d95b3df,
  0x650a73548baf63de, 0x766a0abb3c77b2a8, 0x81c2c92e47edaee6, 0x92722c851482353b,
  0xa2bfe8a14cf10364, 0xa81a664bbc423001, 0xc24b8b70d0f89791, 0xc76c51a30654be30,
  0xd192e819d6ef5218, 0xd69906245565a910, 0xf40e35855771202a, 0x106aa07032bbd1b8] ++ [
  0x19a4c116b8d2d0c8, 0x1e376c085141ab53, 0x2748774cdf8eeb99, 0x34b0bcb5e19b48a8,
  0x391c0cb3c5c95a63, 0x4ed8aa4ae3418acb, 0x5b9cca4f7763e373, 0x682e6ff3d6b2b8a3,
  0x748f82ee5defb2fc, 0x78a5636f43172f60, 0x84c87814a1f0ab72, 0x8cc702081a6439ec,
  0x90befffa23631e28, 0xa4506cebde82bde9, 0xbef9a3f7b2c67915, 0xc67178f2e372532b] ++ [
  0xca273eceea26619c, 0xd186b8c721c0c207, 0xeada7dd6cde0eb1e, 0xf57d4f7fee6ed178,
  0x06f067aa72176fba, 0x0a637dc5a2c898a6, 0x113f9804bef90dae, 0x1b710b35131c471b,
  0x28db77f523047d84, 0x32caab7b40c72493, 0x3c9ebe0a15c9bebc, 0x431d67c49c100d4c,
  0x4cc5d4becb3e42b6, 0x597f299cfc657e2a, 0x5fcb6fab3ad6faec, 0x6c44198c4a475817]

/-- The eight working variables of a round on 64-bit words. -/
structure Sha5 where
  a : BitVec 64
  b : BitVec 64
  c : BitVec 64
  d : BitVec 64
  e : BitVec 64
  f : BitVec 64
  g : BitVec 64
  h : BitVec 64
  deriving DecidableEq, Repr

/-- The initial hash value of SHA-384, FIPS 180-4, section 5.3.4. -/
def sha384Init : Sha5 := ⟨0xcbbb9d5dc1059ed8, 0x629a292a367cd507, 0x9159015a3070dd17, 0x152fecd8f70e5939,
  0x67332667ffc00b31, 0x8eb44a8768581511, 0xdb0c2e0d64f98fa7, 0x47b5481dbefa4fa4⟩

/-- One round on 64-bit words. -/
def sha5Round (s : Sha5) (kw : BitVec 64) : Sha5 :=
  let s1 := s.e.rotateRight 14 ^^^ s.e.rotateRight 18 ^^^ s.e.rotateRight 41
  let ch := (s.e &&& s.f) ^^^ (~~~ s.e &&& s.g)
  let t1 := s.h + s1 + ch + kw
  let s0 := s.a.rotateRight 28 ^^^ s.a.rotateRight 34 ^^^ s.a.rotateRight 39
  let mj := (s.a &&& s.b) ^^^ (s.a &&& s.c) ^^^ (s.b &&& s.c)
  ⟨t1 + (s0 + mj), s.a, s.b, s.c, s.d + t1, s.e, s.f, s.g⟩

/-- The rounds over a window of sixteen schedule words of 64 bits. -/
def sha5Rounds : List (BitVec 64) → List (BitVec 64) → Sha5 → Sha5
  | [], _, s => s
  | k :: ks, w, s =>
    let w0 := w.getD 0 0
    let w1 := w.getD 1 0
    let w9 := w.getD 9 0
    let w14 := w.getD 14 0
    let g0 := w1.rotateRight 1 ^^^ w1.rotateRight 8 ^^^ (w1 >>> 7)
    let g1 := w14.rotateRight 19 ^^^ w14.rotateRight 61 ^^^ (w14 >>> 6)
    sha5Rounds ks (w.drop 1 ++ [w0 + g0 + w9 + g1]) (sha5Round s (k + w0))

/-- The big-endian 64-bit words of a block. -/
def sha5Words : Bytes → Nat → List (BitVec 64)
  | _, 0 => []
  | b, n + 1 => BitVec.ofNat 64 (ofBe (b.take 8)) :: sha5Words (b.drop 8) n

/-- The compression function of SHA-512 over `n` blocks. -/
def sha5Blocks : Nat → Bytes → Sha5 → Sha5
  | 0, _, s => s
  | n + 1, b, s =>
    let t := sha5Rounds sha512K (sha5Words b 16) s
    sha5Blocks n (b.drop 128) ⟨s.a + t.a, s.b + t.b, s.c + t.c, s.d + t.d, s.e + t.e, s.f + t.f, s.g + t.g, s.h + t.h⟩

/-- The SHA-384 digest of a message, 48 bytes. -/
def sha384 (m : Bytes) : Bytes :=
  let p := m ++ [0x80#8] ++ zeros ((239 - m.length % 128) % 128) ++ be (8 * m.length) 16
  let s := sha5Blocks (p.length / 128) p sha384Init
  be s.a.toNat 8 ++ be s.b.toNat 8 ++ be s.c.toNat 8 ++ be s.d.toNat 8 ++ be s.e.toNat 8 ++ be s.f.toNat 8

end Sys2Proof.Machine
end

