-- ==== Sys2Proof/Machine/Memory.lean ====
section
/-! DEFINITION. The block's byte-addressed stores as ONE sparse list of cells in canonical form: addresses
strictly rising, and no cell equal to 0, which is what an unlisted address reads as (R217: SRAM reads zero after
device reset; R289: a page is zeroed before it is allocated; R416: a staging area reads zero at open). -/
namespace Sys2Proof.Machine

/-- A store: listed cells, rising by address, none of value 0. (DESIGN CHOICE, unsafe: notes/assumptions/6.md) -/
abbrev Memory := List Host.Cell

/-- The byte an unlisted address reads as. (DESIGN CHOICE, unsafe: notes/assumptions/6.md) -/
def Memory.dflt : Byte := 0

/-- The byte at an address. -/
def mread : Memory → Nat → Byte
  | [], _ => Memory.dflt
  | (k, v) :: r, a => if k = a then v else mread r a

/-- The store with the cell of one address dropped. -/
def mclear : Memory → Nat → Memory
  | [], _ => []
  | (k, v) :: r, a => if k = a then mclear r a else (k, v) :: mclear r a

/-- The store with a cell put in its place (any cell of that address replaced). -/
def mput : Memory → Nat → Byte → Memory
  | [], a, b => [(a, b)]
  | (k, v) :: r, a, b =>
    if a < k then (a, b) :: (k, v) :: r
    else if a = k then (a, b) :: r
    else (k, v) :: mput r a b

/-- One byte written; writing what an unlisted address reads as removes the cell. -/
def mwrite (m : Memory) (a : Nat) (b : Byte) : Memory :=
  if b = Memory.dflt then mclear m a else mput m a b

/-- `n` bytes from an address up. -/
def mreads (m : Memory) (a : Nat) : Nat → Bytes
  | 0 => []
  | n + 1 => mread m a :: mreads m (a + 1) n

/-- A string of bytes written from an address up. -/
def mwrites (m : Memory) (a : Nat) : Bytes → Memory
  | [] => m
  | b :: r => mwrites (mwrite m a b) (a + 1) r

/-- The store with every cell of `[a, a + n)` reading 0. -/
def mzero (m : Memory) (a n : Nat) : Memory := m.filter (fun c => c.1 < a || a + n ≤ c.1)

/-- The canonical form of a store. -/
def Memory.wf : Memory → Bool
  | [] => true
  | [(_, v)] => v != 0
  | (k, v) :: (k', v') :: r => v != 0 && k < k' && Memory.wf ((k', v') :: r)

/-- Where each store of the block lies in the one list. Local memory of core `c` (0-95 pump, 96-99 overseer, R216).
(DESIGN CHOICE, unsafe: notes/assumptions/6.md) -/
def localAt (c a : Nat) : Nat := 2 ^ 72 + c * 2 ^ 20 + a % 2 ^ 20
/-- The cistern space of domain `d` (R290). (DESIGN CHOICE, unsafe: notes/assumptions/6.md) -/
def cisternAt (d a : Nat) : Nat := 2 ^ 80 + d * 2 ^ 64 + a % 2 ^ 64
/-- The staging area of Tosen session slot `i` (R416): 1 MiB. (DESIGN CHOICE, unsafe: notes/assumptions/6.md) -/
def stageAt (i a : Nat) : Nat := 2 ^ 88 + i * 2 ^ 20 + a % 2 ^ 20
/-- The boot ROM's load buffer (R433), what a recovery transfer has brought, from its manifest region on (R437), the data window of the
recovery function (R438), and the image that an update writes to its slot (R440). (DESIGN CHOICE, unsafe: notes/assumptions/6.md) -/
def bufAt (a : Nat) : Nat := 2 ^ 90 + a
def recAt (a : Nat) : Nat := 2 ^ 91 + a
def recWinAt (a : Nat) : Nat := 2 ^ 92 + a
def imageAt (a : Nat) : Nat := 2 ^ 93 + a

end Sys2Proof.Machine
end

