-- ==== Sys2Proof/Config.lean ====
section
/-! DEFINITION. What the spec leaves open or names by a standard it does not restate: free values, as constants
without a body, so that nothing can evaluate them and a claim holds whatever they are. -/
namespace Sys2Proof

/-- The `n`-th value drawn from the on-die random bit generator or left open by the spec (R99, R163, R358, R379).
(DESIGN CHOICE, safe: notes/assumptions/10.md; DESIGN CHOICE, safe: notes/assumptions/91.md; DESIGN CHOICE, safe: notes/assumptions/162.md) -/
opaque Config.drawn : Nat → BitVec 512
/-- The class with which egress classification marks a frame of a domain sent on a port for itemisation, where it does (R26): the spec
names no way to set it. (DESIGN CHOICE, safe: notes/assumptions/175.md) -/
opaque Config.egressClass (port dom : Nat) (data : Bytes) : Option Nat

/-- The bytes of a PTP message on the wire, which IEEE 1588-2019 and its transports give and R50 does not repeat: transport, port, type,
sequence and the times and flags it carries. (DESIGN CHOICE, safe: notes/assumptions/10.md) -/
opaque Config.ptpFrame : Nat → Nat → Nat → Nat → List Nat → Bytes
/-- The device's unique secret, as fused (R386, R95): nothing reads it but the signing engine. (DESIGN CHOICE, safe: notes/assumptions/10.md) -/
opaque Config.secret : BitVec 256
/-- The salt and the info string of a domain's key derivation (R95, RFC 5869): the spec names the domain number as the info's content
and gives neither's bytes. (DESIGN CHOICE, safe: notes/assumptions/10.md; DESIGN CHOICE, unsafe: notes/assumptions/40.md) -/
opaque Config.keyInfo : Nat → Bytes × Bytes
/-- The private key of the device identity (R96). (DESIGN CHOICE, safe: notes/assumptions/10.md) -/
opaque Config.identityKey : Nat
/-- The DER certificates issued outside the device: 0 device identity, 1 Milhorn Device CA (R96, R106).
(DESIGN CHOICE, safe: notes/assumptions/10.md) -/
opaque Config.issuedCert : Nat → Bytes
/-- The DER Name of the device with a serial number, and of a domain of it: the attributes are the manufacturer's (R96).
(DESIGN CHOICE, safe: notes/assumptions/10.md; DESIGN CHOICE, unsafe: notes/assumptions/40.md) -/
opaque Config.deviceName : Nat → Bytes
/-- The model's own reading. (DESIGN CHOICE, safe: notes/assumptions/10.md; DESIGN CHOICE, unsafe: notes/assumptions/40.md) -/
opaque Config.domainName : Nat → Nat → Bytes
/-- The serial number of the `n`-th ledger certificate issued (R96, RFC 5280).
(DESIGN CHOICE, safe: notes/assumptions/10.md; DESIGN CHOICE, unsafe: notes/assumptions/40.md) -/
opaque Config.certSerial : Nat → Nat
/-- Where a port's marker groups lie in its mode and FEC (R205): the first group's start in 2^-16 ns of device time; for an RS-FEC mode also five
times the distance between groups, and a group's length. The spec gives the distance and length for 100GBASE-R4 only.
(DEDUCED, unsafe: notes/assumptions/65.md) -/
opaque Config.markers (port mode fec : Nat) : Nat × Nat × Nat
/-- Addresses of the internal window through which overseers reach the configuration of every block (R233), which the spec does not give.
(DESIGN CHOICE, unsafe: notes/assumptions/178.md) -/
opaque Config.overseerWindow (addr : Nat) : Bool
/-- The result of an arithmetic operation the spec leaves to the Ummuez instruction set's own reference (R223).
(DESIGN CHOICE, safe: notes/assumptions/10.md; DESIGN CHOICE, unsafe: notes/assumptions/69.md) -/
opaque Config.alu : Nat → Nat → Nat → BitVec 64

end Sys2Proof
end

