-- ==== Sys2Proof/Machine/State.lean ====
section
/-! DEFINITION. The state of the block: every register, store, queue, counter, mode and pin the spec gives it, as
plain data, by unit; the queue of waiting commands; and the state right after reset. -/
namespace Sys2Proof.Machine

/-- The pins and lines the block drives (R495). -/
inductive Pin where
  | failsafeN | thermN | ppsOut | ref10mOut | todOut | recClk0 | recClk1
  deriving DecidableEq, Repr

/-- What leaves the block in a step: the model's own record of it, newest first in `State.out`. -/
inductive Emission where
  /-- A write into the address space of function `fn` in host memory. -/
  | hostWrite (fn addr : Nat) (data : Bytes)
  /-- A read the block issues to host memory: `len` bytes for ring or unit `why`. -/
  | hostRead (fn addr len why : Nat)
  /-- An MSI-X vector signalled. -/
  | irq (fn vector : Nat)
  /-- The value a register read returns. -/
  | value (fn off v : Nat)
  /-- A Latency Tolerance Reporting message on link A or B: its snoop and no-snoop latencies (R330). -/
  | ltr (b : Bool) (snoop nosnoop : Nat)
  /-- Bytes a read of a window, BAR or expansion ROM returns; `ok` false: UR; `ep`: poisoned. -/
  | readData (data : Bytes) (ok ep : Bool)
  /-- A frame on the management port to a MAC address. -/
  | mpFrame (dst : Nat) (data : Bytes)
  /-- A Windlass response: type, sequence, class, fields. -/
  | windlass (type seq cls : Nat) (fields : List Nat)
  /-- The first byte of a frame on a data port; the same frame cut short. -/
  | frame (port : Nat) (data : Bytes)
  | truncated (port : Nat) (len : Nat)
  /-- A MAC control frame or ordered set a port's MAC generates: kind and values. -/
  | mac (port kind : Nat) (vals : List Nat)
  /-- A level change of a pin; a time-of-day message; a TAP shift-out value. -/
  | pin (p : Pin) (high : Bool)
  | tod (data : Bytes)
  | tap (ir : Nat) (data : Nat)
  /-- A PTP or ESMC message passed on or sent on a port. -/
  | ptp (port type seq : Nat) (vals : List Nat)
  /-- A program or erase of the SPI flash: slot and what was written (a header word's offset and value). -/
  | flash (slot off v : Nat)
  /-- A value a thread receives: core, thread, destination value, status. -/
  | thread (core thr value : Nat)
  /-- An I2C byte not acknowledged. -/
  | i2cNak
  deriving DecidableEq, Repr

/-- The operating modes of R28, with the boot phase (R5), in which `MODE` reads 0x1 and `ENTRY_CAUSE` 0x00. -/
inductive Mode where
  | boot | factory | recovery | priming | service | drain | lockdown
  deriving DecidableEq, Repr

/-- What Drain has reached (R39): nothing, steps 1 and 2, step 4 at t1, step 6, step 7. -/
inductive DrainStep where
  | none | draining | faulting | silent | closed
  deriving DecidableEq, Repr

/-- Status of one PCIe function (R28, R33). -/
structure FnStatus where
  ready : Bool := false
  halted : Bool := false
  inReset : Bool := false
  deriving DecidableEq, Repr

/-- Modes, readiness, watchdog and drain (R28-R43). -/
structure Glb where
  mode : Mode := .boot
  inTransition : Bool := false
  entryCause : Nat := 0
  /-- Ledger time of entry into the current mode (R32). -/
  modeEntered : Nat := 0
  fns : Table FnStatus := []
  wdogPeriod : Nat := 0x00F0
  /-- The period the running watchdog counts (R35). -/
  wdogRunning : Nat := 0x00F0
  armed : Bool := false
  fed : Bool := false
  expired : Bool := false
  badFeeds : Nat := 0
  /-- Expiry instant, in elapsed device time (R35). -/
  wdogExpiry : Nat := 0
  drainDone : Bool := false
  limitHit : Bool := false
  abandoned : Nat := 0
  drainStep : DrainStep := .none
  /-- Elapsed instants of t0 and t1, and the drain limit L, in 2^-16 ns (R39). -/
  drainT0 : Nat := 0
  drainT1 : Nat := 0
  drainLimit : Nat := 0
  /-- FAILSAFE_N, true when high (deasserted). -/
  failsafe : Bool := false
  /-- Elapsed instant of the Lockdown cause (R43). -/
  lockT0 : Nat := 0
  deriving DecidableEq, Repr

/-- The servo states of R46 and R56. -/
inductive Servo where
  | freeRun | freqAcq | phaseAcq | locked | holdover
  deriving DecidableEq, Repr

/-- A time set of R54 that is pending: its label source, the second it labels, the earliest instant of the edge it
names, and the edge once evaluated (device time of E and its TAI second). -/
structure TimeSet where
  /-- 0 TOD_IN label, 1 command label, 2 PTP. -/
  src : Nat
  second : Nat
  /-- Elapsed instant before which no edge is named. -/
  notBefore : Nat := 0
  /-- Device time of the edge or Sync, and the reference's time there. -/
  edge : Option (Nat × Nat) := none
  deriving DecidableEq, Repr

/-- A step accepted under R59: the grid point g, the value g′, and its kind. -/
structure StepReq where
  g : Nat
  target : Nat
  kind : Nat
  deriving DecidableEq, Repr

/-- The settings of the time outputs (R63, R66). -/
structure OutCfg where
  /-- Advance in 2^-16 ns; width in ms. -/
  advance : Nat := 0
  width : Nat := 100
  ref10m : Bool := true
  tod : Bool := true
  /-- Lane of each REC_CLK (32: none) and divider (0: 156.25 MHz, 1: 31.25 MHz). -/
  lane0 : Nat := 32
  div0 : Nat := 0
  lane1 : Nat := 32
  div1 : Nat := 0
  deriving DecidableEq, Repr

/-- The PTP settings of R50. -/
structure PtpCfg where
  /-- 0 Default Delay Request-Response, 1 Default Peer-to-Peer, 2 G.8275.1. -/
  profile : Nat := 0
  domain : Nat := 0
  /-- 0 IEEE 802.3, 1 UDP over IPv4, 2 UDP over IPv6. -/
  transport : Nat := 0
  receiver : Nat := 32
  transmitters : List Nat := []
  /-- Messages per second: Sync, Delay_Req, Pdelay_Req; Announce interval in ns. -/
  syncRate : Nat := 1
  delayRate : Nat := 1
  pdelayRate : Nat := 1
  announceNs : Nat := 1000000000
  receiptTimeout : Nat := 3
  /-- delayAsymmetry per port, in 2^-16 ns, signed. -/
  asymmetry : Table Int := []
  grandmaster : Nat := 0
  deriving DecidableEq, Repr

/-- What the PTP time-receiver port has measured (IEEE 1588-2019 as R50 uses it). -/
structure PtpState where
  /-- A two-step Sync waiting for its Follow_Up: sequence and receive stamp. -/
  sync : Option (Nat × Nat) := none
  /-- Last accepted Sync: origin time and receive stamp. -/
  last : Option (Nat × Nat) := none
  /-- A Delay_Req or Pdelay_Req out: sequence and transmit stamp. -/
  req : Option (Nat × Nat) := none
  /-- Mean path delay, once one measurement is complete, in 2^-16 ns. -/
  delay : Option Int := none
  offset : Int := 0
  heard : Nat := 0
  lost : Bool := true
  seqSync : Table Nat := []
  seqReq : Nat := 0
  seqPreq : Table Nat := []
  mgmtDropped : Nat := 0
  /-- Announces recorded: port and grandmaster. -/
  announces : Table Nat := []
  deriving DecidableEq, Repr

/-- The timebase (R45-R67). Device time itself is `State.now`. -/
structure Tb where
  servo : Servo := .freeRun
  freeEpoch : Bool := true
  outOfCapture : Bool := false
  oscHold : Bool := false
  qualified : Bool := false
  qualSeconds : Nat := 0
  phaseErr : Int := 0
  /-- The frequency the servo has learned and the phase slew it commands besides: FREQ_ADJ is their sum (R55). -/
  freqAdj : Int := 0
  slew : Int := 0
  ageS : Nat := 0
  /-- Elapsed instant of entry into HOLDOVER. -/
  holdAt : Nat := 0
  holdClass : Nat := 3
  /-- Seconds of qualified history, saturating at 600 (R55, R57). -/
  history : Nat := 0
  /-- The evaluation second in which the selection was accepted is still running (R55); the reference was released. -/
  acqPart : Bool := false
  released : Bool := false
  utcOffset : Int := 0
  leapState : Nat := 3
  leapNs : Nat := 0
  leapDir : Int := 0
  utcNext : Option Int := none
  /-- Elapsed instant at which a TIME_SET_UTC was accepted (R61). -/
  utcAt : Nat := 0
  ppsDelay : Nat := 0
  /-- The delay that edges are judged with: in HOLDOVER the one in force before a change (R66). -/
  delayUsed : Nat := 0
  refLosses : Nat := 0
  steps : Nat := 0
  strays : Nat := 0
  todMismatch : Nat := 0
  /-- Reference selected: 0 and 1 none. `held`: the code of the lost or released one. -/
  ref : Nat := 0
  held : Nat := 0
  refLost : Bool := false
  labelSrc : Nat := 0
  ptpPort : Nat := 32
  syncePort : Nat := 32
  /-- Presence of each component: seen in this evaluation second, seconds present, seconds absent. -/
  ppsSeen : Bool := false
  ppsOk : Nat := 0
  ppsBad : Nat := 0
  ppsEdge : Option Nat := none
  ref10mOk : Nat := 0
  ptpOk : Nat := 0
  synceOk : Nat := 0
  /-- Last valid TOD_IN message: its second and when it came (elapsed). -/
  todLabel : Option (Nat × Nat) := none
  todFresh : Bool := false
  set : Option TimeSet := none
  step : Option StepReq := none
  out : OutCfg := {}
  /-- Output settings accepted, and the device time of the whole second at which they take effect (R66). -/
  outNext : Option OutCfg := none
  outAt : Nat := 0
  /-- Lanes whose CDR has lost lock since their port last aligned (R63). -/
  cdrLost : List Nat := []
  ppsHigh : Bool := false
  ppsFellAt : Nat := 0
  lastSecond : Nat := 0
  todSeq : Nat := 0
  todDue : Option (Nat × Nat) := none
  /-- Each REC_CLK output is running. -/
  rec0 : Bool := false
  rec1 : Bool := false
  ptp : PtpCfg := {}
  ptps : PtpState := {}
  esmc : Table Nat := []
  /-- Read latches: per function NS_HI, FRAC, QUALITY (R47); per PF0 register the latched upper half (R12). -/
  latch : Table (Nat × Nat × Nat) := []
  latch64 : Table Nat := []
  /-- Quality bytes no longer in force, each with the elapsed instant at which it ceased, newest first (R58, R74). -/
  quals : List (Nat × Nat) := []
  /-- Time steps applied: the elapsed instant and the count it ended at, newest first (R59, R74). -/
  lines : List (Nat × Nat) := []
  deriving DecidableEq, Repr

/-- What a Wellhead handed to the Ledger for one event (R75): where and when it was stamped, and its leaf. -/
structure Feed where
  port : Nat := 0
  dir : Nat := 0
  trunc : Bool := false
  /-- Elapsed instant of the SFD at the balls; the stamp and its quality byte. -/
  at_ : Nat := 0
  stamp : Nat := 0
  quality : Nat := 0
  len : Nat := 0
  leaf : Bytes := []
  deriving DecidableEq, Repr

/-- A frame inside the block, from the MAC or a transmit ring to its destination (R16). -/
structure Frame where
  /-- Its bytes: a received frame's after any strip, with the FCS it came with; a transmitted frame's as posted. -/
  data : Bytes := []
  /-- Ingress port, or 32 where it came from a host ring, a core or the RDMA engine. -/
  port : Nat := 32
  dom : Nat := 0
  feed : Feed := {}
  /-- Priority of R181, DEI of the outermost tag, a stripped tag (TPID, TCI), a failed FCS that is delivered. -/
  prio : Nat := 0
  dei : Bool := false
  tag : Option (Nat × Nat) := none
  fcsBad : Bool := false
  /-- The classifier's result and the parse vector (R142, R146). -/
  cls : Nat := 0
  profile : Nat := 0
  notarise : Bool := false
  pv : Bytes := []
  /-- 0 by profile, 1 dropped in the pipeline, 2 to the port's Sump queue. -/
  path : Nat := 0
  /-- 0 waits for dispatch, 1 waits for deep buckets, 2 resolved; the stages still missing; the pipeline it took. -/
  phase : Nat := 0
  misses : List Nat := []
  /-- Results of its stages, and the stages that missed. -/
  found : Table Nat := []
  missed : List Nat := []
  pipe : Nat := 0
  /-- What decided (R167): queue (32768: dropped), meter; 0 not named, 1 itemised, 2 unitemised (R88, R90). -/
  queue : Nat := 32768
  meter : Nat := 0xFFFF
  item : Nat := 0
  colour : Nat := 0
  /-- Transmitted frames: the descriptor (ring key, index), its requests, the TCI to insert, the posting core and thread. -/
  desc : Option (Nat × Nat) := none
  wantMark : Bool := false
  tci : Option Nat := none
  /-- RDMA packet: queue pair, PSN. -/
  rdma : Option (Nat × Nat) := none
  /-- A cell of it is poisoned (R452). -/
  bad : Bool := false
  /-- Elapsed instant of admission. -/
  admitted : Nat := 0
  /-- Held in its ingress reservation (R184), or spilled to HBM. -/
  heldIn : Bool := false
  spilled : Bool := false
  deriving DecidableEq, Repr

/-- A frame a port's MAC is sending (R120): its bytes on the wire and what it is. -/
structure TxFrame where
  data : Bytes := []
  /-- 0 from a queue, 1 a release, 2 a Spout replica, 3 a heartbeat, 4 MAC control, 5 PTP. -/
  kind : Nat := 0
  frame : Frame := {}
  queue : Nat := 32768
  aborted : Bool := false
  /-- Device time of the start instant at which it starts (R197). -/
  start : Nat := 0
  /-- WH_CAL_TX when its SFD passed (R68, R75). -/
  cal : Nat := 0
  /-- It ends truncated, its port having gone DORMANT or been remapped (R75, R112); a Spout replica whose source still comes in. -/
  cut : Bool := false
  thru : Bool := false
  /-- What a waiting flow-control frame says: the priorities it names and their times (R123). -/
  pfc : Option (Nat × List Nat) := none
  /-- A PTP message: its type and sequence (R50). -/
  ptp : Option (Nat × Nat) := none
  deriving DecidableEq, Repr

/-- A digest: 32 bytes. -/
abbrev Digest := Bytes

/-- One epoch of a chain, open or waiting for its last events (R84-R87). Instants in 2^-16 ns. -/
structure Epoch where
  start : Nat := 0
  /-- Elapsed instants of its open and its close; its end in device time, quality byte and port mask, once closed. -/
  openedAt : Nat := 0
  closedAt : Nat := 0
  stop : Nat := 0
  quality : Nat := 0
  mask : Nat := 0
  short : Bool := false
  /-- Per port: its events in ascending order of stamp, receive before transmit (R85): stamp, direction, leaf. -/
  ports : Table (List (Nat × Nat × Digest)) := []
  /-- Record accumulator I, records written, and those the cistern retains, oldest first. -/
  acc : Digest := List.replicate 32 0
  count : Nat := 0
  records : List Bytes := []
  itemised : Nat := 0
  specials : Nat := 0
  unQuota : Nat := 0
  unRetain : Nat := 0
  immediate : Bool := false
  final : Bool := false
  /-- The itemisation quota it ran under, once closed (R89, R108). -/
  quota : Option Nat := none
  deriving DecidableEq, Repr

/-- A checkpoint whose close is due once its last epoch's root is final: its kind, the end of its period, where the next
period starts, and what it states of the instant of its close (R94). -/
structure Due where
  kind : Nat
  stop : Nat
  nextStart : Nat
  quality : Nat
  mode : Nat
  utc : Nat
  leap : Nat
  leapNs : Nat
  ringVer : Nat
  quota : Nat
  deriving DecidableEq, Repr

/-- A checkpoint closed and waiting for its signature (R95): bytes 0-159, the stream slot it occupies if retained. -/
structure Ckpt where
  body : Bytes
  slot : Nat
  kept : Bool
  kind : Nat
  sequence : Nat
  closedAt : Nat
  deriving DecidableEq, Repr

/-- One 32-byte slot of the cistern stream that has not been exported (R101). -/
structure LSlot where
  chain : Nat
  num : Nat
  data : Bytes
  /-- False while it is reserved for a checkpoint not yet signed. -/
  ready : Bool := true
  ends : Bool := false
  opening : Bool := false
  final : Bool := false
  deriving DecidableEq, Repr

/-- The checkpoint period running in a chain (R94). -/
structure Period where
  start : Nat := 0
  epochs : Nat := 0
  epochsLost : Nat := 0
  frames : Nat := 0
  itemised : Nat := 0
  unitemised : Nat := 0
  specials : Nat := 0
  deriving DecidableEq, Repr

/-- The chain of one domain (R81-R104). -/
structure Chain where
  isOpen : Bool := false
  /-- The number of its certificate, issued at its last open (R96). -/
  certNo : Nat := 0
  id : Nat := 0
  /-- Sequence of the next checkpoint, of the last closed, of the last signed. -/
  nextSeq : Nat := 0
  closedSeq : Nat := 0
  signedSeq : Nat := 0
  value : Digest := []
  prevHash : Digest := []
  predUnknown : Bool := false
  period : Period := {}
  epoch : Epoch := {}
  /-- Epochs closed whose roots are not yet final, oldest first, each with the checkpoint that closes with it. -/
  closing : List (Epoch × Option Due) := []
  waiting : List Ckpt := []
  quota : Option Nat := none
  quotaNext : Option Nat := none
  /-- Cistern size in force and for the next open, in KiB (R101). -/
  sizeKib : Nat := 262144
  sizeNextKib : Nat := 262144
  /-- Next slot number of the chain, and the slots not yet exported, oldest first. -/
  written : Nat := 0
  stream : List LSlot := []
  ckptLostNow : Nat := 0
  gap : Bool := false
  /-- Slots at the head of the stream copied into completed buffers whose completions are not yet written (R102); free space changed. -/
  copied : Nat := 0
  freed : Bool := false
  retainLow : Bool := false
  sumStopped : Bool := false
  /-- ITEMISED, UNITEM_QUOTA, UNITEM_RETAIN, UNCHAINED, EPOCHS_LOST, CKPT_LOST (R105). -/
  counters : List Nat := [0, 0, 0, 0, 0, 0]
  deriving DecidableEq, Repr

/-- The Ledger (R81-R108). -/
structure Ledger where
  chains : Table Chain := []
  /-- The retention store (R98): per domain, the last signed checkpoint, 256 bytes. -/
  retention : Table Bytes := []
  retainValid : Bool := false
  /-- The store's check failed at start: it is treated as empty until it next takes a checkpoint (R98). -/
  retainBad : Bool := false
  /-- Chain opens so far, which number the certificates issued then (R96). -/
  issued : Nat := 0
  /-- The store as it stood at the open of the current chain (R106). -/
  atOpen : Table Bytes := []
  /-- A chain open is due at the next grid point, and its cause: 0 boot, 1 RESUME (R91, R99). -/
  openDue : Option Nat := none
  backlogSent : Bool := false
  deriving DecidableEq, Repr

/-- The states of a data port (R115). -/
inductive PState where
  | disabled | dormant | training | calibrating | up | fault | held
  deriving DecidableEq, Repr

/-- The settings of PORT_CONFIG and PORT_PFC_CONFIG (R117-R123). -/
structure PortCfg where
  mac : Nat := 0
  maxFrame : Nat := 1522
  fcsAppend : Bool := true
  fcsStrip : Bool := false
  fcsRx : Bool := false
  rxStrip : Bool := false
  stripTpid : Nat := 0x8100
  txInsert : Nat := 0
  insertTpid : Nat := 0x8100
  tci : Nat := 0
  autoneg : Bool := false
  deriving DecidableEq, Repr

/-- The settings of PORT_PFC_CONFIG (R123). -/
structure PfcCfg where
  /-- 0 none, 1 link PAUSE, 2 PFC. -/
  mode : Nat := 0
  enable : Nat := 0
  /-- XOFF_KIB and XON_KIB per priority. -/
  xoff : List Nat := [0, 0, 0, 0, 0, 0, 0, 0]
  xon : List Nat := [0, 0, 0, 0, 0, 0, 0, 0]
  quanta : Nat := 0xFFFF
  deriving DecidableEq, Repr

/-- One data port: its map entry, its MAC and its Wellhead (R68-R79, R109-R127). MP's MAC is port 24. -/
structure PortSt where
  /-- Mode code and FEC of the port map. -/
  mode : Nat := 0
  fec : Nat := 0
  state : PState := .disabled
  /-- The transmitter of a HELD port has been stopped (Drain step 6). -/
  stopped : Bool := false
  localFault : Bool := false
  remoteFault : Bool := false
  anDone : Bool := false
  wakeSeen : Bool := false
  linkUps : Nat := 0
  linkDowns : Nat := 0
  cfg : PortCfg := {}
  /-- Settings replaced by PORT_CONFIG, newest first, each with the elapsed instant of the command: an event that began before it is
  handled under them (R122). -/
  cfgLog : List (Nat × PortCfg) := []
  /-- Bytes its ingress reservation held before each change, newest first, with the elapsed instant of the change (R121). -/
  heldLog : List (Nat × Nat) := []
  /-- PORT_MAP_SET has named the port since reset, with lanes or without (R33). -/
  given : Bool := false
  pfc : PfcCfg := {}
  /-- Per priority: the elapsed instant its pause ends (0: not paused), the bytes held in the ingress reservation, and the instant of
  the next repeat. -/
  pausedTo : List Nat := [0, 0, 0, 0, 0, 0, 0, 0]
  held : List Nat := [0, 0, 0, 0, 0, 0, 0, 0]
  refreshAt : List Nat := [0, 0, 0, 0, 0, 0, 0, 0]
  asserted : Nat := 0
  half : Nat := 0
  halfMask : Nat := 0xFFFFFFFFFFFFFFFF
  counters : List Nat := List.replicate 64 0
  /-- Frames the MAC is sending, the one on the wire first. -/
  tx : List TxFrame := []
  /-- Elapsed instant at which the line is free again, gap included; whether a release holds it until then. -/
  busyTo : Nat := 0
  busyRel : Bool := false
  -- Wellhead (R79)
  calState : Nat := 0
  /-- Link-up parts of the corrections, receive and transmit, in 2^-16 ns. -/
  linkRx : Nat := 0
  linkTx : Nat := 0
  calRuns : Nat := 0
  slips : Nat := 0
  rxEvents : Nat := 0
  txEvents : Nat := 0
  truncEvents : Nat := 0
  /-- Last receive and transmit stamp: device time and quality byte. -/
  lastRx : Nat × Nat := (0, 0)
  lastTx : Nat × Nat := (0, 0)
  deriving DecidableEq, Repr

/-- The heartbeat port (R130-R132). -/
structure Heartbeat where
  port : Option Nat := none
  dst : Nat := 0
  pair : Nat := 0
  seq : Nat := 0
  /-- The grid point last served; one whose heartbeat waits for the frame in progress, with its quality byte. -/
  served : Nat := 0
  waiting : Option (Nat × Nat) := none
  /-- The first interval that counts, or none while checking does not run; the next interval to settle. -/
  checking : Option Nat := none
  /-- Intervals in which the partner has been heard and that are not settled yet. -/
  heard : List Nat := []
  heardLast : Bool := false
  missed : Nat := 0
  lost : Bool := false
  deriving DecidableEq, Repr

/-- The management port (R133, R134). -/
structure Mp where
  up : Bool := false
  /-- 1000, 100 or 10. -/
  speed : Nat := 0
  half : Bool := false
  /-- Fixed speed and duplex, or none to follow the PHY. -/
  fixed : Option (Nat × Bool) := none
  refused : Bool := false
  /-- Collisions of the frame in progress and the end of its back-off. -/
  attempts : Nat := 0
  backoff : Option Nat := none
  /-- Half duplex: the frames still to send, each with its destination, and the elapsed instant at which the first one's attempt began. -/
  tx : List (Nat × Bytes) := []
  begun : Nat := 0
  deriving DecidableEq, Repr

/-- A lane test (R137): lane, rate, pattern, loopback, end, path of the command. -/
structure LaneTest where
  lane : Nat
  rate : Nat
  pattern : Nat
  loop : Nat
  ends : Nat
  path : Path
  deriving DecidableEq, Repr

/-- The ports, the heartbeat port, the management port and a lane test (R109-R137). -/
structure Ports where
  ports : Table PortSt := []
  hb : Heartbeat := {}
  mp : Mp := {}
  laneTests : List LaneTest := []
  /-- Half-range events to send at the end of the command: port and counter index (R125). -/
  halfDue : List (Nat × Nat) := []
  /-- Flow-control changes to send at the end of the command, by port: the priorities and their times (R123). -/
  pfcDue : Table (Nat × List Nat) := []
  deriving DecidableEq, Repr

/-- A parse graph (R139, R140): its node records of 32 bytes and transition records of 8. -/
structure Graph where
  loaded : Bool := false
  nodes : List Bytes := []
  trans : List Bytes := []
  deriving DecidableEq, Repr

/-- A classifier rule (R146). -/
structure Rule where
  ports : Nat
  value : Bytes
  mask : Bytes
  cls : Nat
  profile : Nat
  notarise : Bool
  deriving DecidableEq, Repr

/-- A port's parser settings (R155). -/
structure PrsPort where
  spoutEn : Bool := false
  keyProfile : Nat := 0
  malSump : Bool := false
  sump : Nat := 0
  deriving DecidableEq, Repr

/-- A Spout key profile (R148): byte ranges as offset and length. -/
structure KeyProfile where
  withPort : Bool := false
  ranges : List (Nat × Nat) := []
  deriving DecidableEq, Repr

/-- An action profile (R165, R166): its stages and what a frame without a deciding result does. -/
structure Profile where
  stages : List Stage := []
  final : Nat := 1
  deriving DecidableEq, Repr

/-- A table entry (R162). -/
structure Entry where
  key : Bytes
  result : Nat
  hit : Bool := true
  stale : Bool := false
  fixed : Bool := false
  learned : Bool := false
  srcPort : Nat := 0x1F
  inserted : Nat := 0
  deriving DecidableEq, Repr

/-- A table (R161-R173): entries by bucket × 4 + slot, the overflow store by index. -/
structure MTable where
  dom : Nat := 0
  deep : Bool := false
  log2 : Nat := 8
  keyLen : Nat := 1
  seed : Nat := 0
  evict : Nat := 0
  mult : Nat := 0
  notify : Bool := false
  slots : Table Entry := []
  ovf : Table Entry := []
  ovfHigh : Bool := false
  /-- Device time of the last sweep point served, or of the creation, plus one. -/
  swept : Nat := 0
  /-- What the last sweep removed, with its place: overflow store or bucket, and number. -/
  grave : List (Bool × Nat × Entry) := []
  /-- LOOKUPS, HITS, INSERTS, INSERT_FAILS, EVICTIONS, AGED, LEARNED, LEARN_MOVES, POISONED. -/
  counters : List Nat := [0, 0, 0, 0, 0, 0, 0, 0, 0]
  deriving DecidableEq, Repr

/-- A Spout entry (R149). -/
structure SpoutEntry where
  key : Bytes
  dom : Nat
  action : Nat
  mirror : Bool
  egress : Nat
  tc : Nat
  cls : Nat
  hits : Nat := 0
  octets : Nat := 0
  deriving DecidableEq, Repr

/-- What a frame sees by its SFD stamp (R141, R157, R175). Rules and profiles are keyed by domain × 4096 + index, Spout entries by
bucket × 4 + slot. -/
structure View where
  graph : Graph := {}
  rules : Table Rule := []
  profiles : Table Profile := []
  tables : Table MTable := []
  spout : Table SpoutEntry := []
  spoutSeed : Nat := 0xFFFFFFFF
  keyProfiles : Table KeyProfile := []
  ports : Table PrsPort := []
  deriving DecidableEq, Repr

/-- One operation on a table, a profile or the Spout's table (R175, R178). -/
inductive TblOp where
  | create (t : Nat) (v : MTable) (random : Bool)
  | destroy (t : Nat)
  | insert (t : Nat) (key : Bytes) (result : Nat) (fixed replace : Bool)
  | delete (t : Nat) (key : Bytes)
  | profile (dom idx : Nat) (p : Profile)
  | spoutIns (e : SpoutEntry)
  | spoutDel (dom : Nat) (key : Bytes)
  deriving DecidableEq, Repr

/-- A change of a table accepted and not yet committed (R175). -/
structure TblPend where
  path : Path
  opcode : Nat
  ops : List TblOp
  at_ : Nat
  deriving DecidableEq, Repr

/-- A learn waiting to be applied (R169). -/
structure Learn where
  table : Nat
  key : Bytes
  result : Nat
  port : Nat
  at_ : Nat
  stamp : Nat
  deriving DecidableEq, Repr

/-- A port's learning limits (R170). `tokens` none: full. -/
structure LearnPort where
  max : Nat := 1048576
  rate : Nat := 0
  burst : Nat := 0
  flood : Bool := false
  tokens : Nat := 0
  refused : Nat := 0
  reached : Bool := false
  deriving DecidableEq, Repr

/-- A Spout replica waiting for its egress port (R151, R152). -/
structure SpoutRep where
  ingress : Nat
  egress : Nat
  data : Bytes
  tc : Nat
  fcsBad : Bool
  at_ : Nat
  deriving DecidableEq, Repr

/-- Shares of a domain in the pipelines' stores; none: the default of D enabled domains (R146, R165, R174, R176). -/
structure PlQuota where
  rules : Option Nat := none
  profiles : Option Nat := none
  cache : Option Nat := none
  misses : Option Nat := none
  spout : Option Nat := none
  deriving DecidableEq, Repr

/-- The parser, classifier, Spout and pipelines (R138-R179). -/
structure Pl where
  cur : View := {}
  /-- Earlier views, each with the elapsed instant at which the next one took over, newest first. -/
  past : List (Nat × View) := []
  bank : Nat := 0
  inactive : Graph := {}
  /-- Swaps accepted and not yet in effect: the paths of their commands. -/
  swap : List Path := []
  /-- Frames between the classifier and the traffic manager, oldest first. -/
  frames : List Frame := []
  nextPipe : Nat := 0
  /-- Deep-table cache: domain, table, key, most recently used first. -/
  cache : List (Nat × Nat × Bytes) := []
  cacheHits : Nat := 0
  cacheMisses : Nat := 0
  learns : List Learn := []
  learnPorts : Table LearnPort := []
  /-- Device time of the last refill of the learning buckets, plus one. -/
  refilled : Nat := 0
  quotas : Table PlQuota := []
  pend : List TblPend := []
  seedSet : Bool := false
  spoutWait : List SpoutRep := []
  /-- Per port the eight counters of R155; reasons 1-6 malformed and 1-4 slow, device-wide. -/
  counters : Table (List Nat) := []
  malformed : List Nat := [0, 0, 0, 0, 0, 0, 0]
  slow : List Nat := [0, 0, 0, 0, 0]
  deriving DecidableEq, Repr

/-- Rates and bursts of a meter or shaper (R182, R188): kb/s and bytes. -/
structure Rates where
  cir : Nat := 0
  pir : Nat := 0
  cbs : Nat := 64
  pbs : Nat := 64
  deriving DecidableEq, Repr

/-- The settings of a meter (R182). -/
structure MeterCfg where
  rates : Rates := {}
  aware : Bool := false
  lenAdjust : Int := 0
  yellowDrop : Bool := false
  redAdmit : Bool := false
  deriving DecidableEq, Repr

/-- A meter (R182, R183): buckets in 2^-8 byte; changes waiting for their grid points. -/
structure Meter where
  set_ : Bool := false
  cfg : MeterCfg := {}
  tc : Nat := 0
  tp : Nat := 0
  next : List (Nat × MeterCfg) := []
  /-- Green, yellow, red frames; green, yellow, red octets; DROPPED. -/
  counters : List Nat := [0, 0, 0, 0, 0, 0, 0]
  deriving DecidableEq, Repr

/-- The settings of a queue (R180, R185, R187). -/
structure QCfg where
  kind : Nat := 0
  port : Nat := 0
  fn : Nat := 0
  ring : Nat := 0
  tc : Nat := 0
  quantum : Nat := 1536
  limG : Nat := 1048576
  limY : Nat := 1048576
  limR : Nat := 1048576
  spill : Bool := false
  sample : Bool := false
  deriving DecidableEq, Repr

/-- Histograms of a sampled queue in the running report period (R190, R191). -/
structure Hist where
  samples : Nat := 0
  obs : Nat := 0
  maxDepth : Nat := 0
  maxDelay : Nat := 0
  drops : Nat := 0
  enqueued : Nat := 0
  depth : List Nat := [0, 0, 0, 0, 0, 0, 0, 0]
  delay : List Nat := [0, 0, 0, 0, 0, 0, 0, 0]
  short : Bool := false
  gap : Bool := false
  /-- A time step has fallen in the running report period (R60, R191). -/
  discont : Bool := false
  deriving DecidableEq, Repr

/-- A queue (R180-R190). -/
structure Queue where
  cfg : QCfg := {}
  frames : List Frame := []
  /-- Cells of its replicas in the release store (R202). -/
  stored : Nat := 0
  deficit : Nat := 0
  /-- Shaper mode, rates, buckets in 2^-8 byte, changes waiting for their grid points. -/
  shMode : Nat := 0
  sh : Rates := {}
  sc : Int := 0
  sp : Int := 0
  shNext : List (Nat × Nat × Rates) := []
  /-- ADMITTED, METER_DROPS, LIMIT_DROPS_G, _Y, _R, SHARE_DROPS, NOT_READY_DROPS, SENT, SENT_OCTETS. -/
  counters : List Nat := [0, 0, 0, 0, 0, 0, 0, 0, 0]
  /-- Elapsed instant of the last drop. -/
  lastDrop : Option Nat := none
  hist : Hist := {}
  /-- Security association the queue is bound to (R378): index, or ESP_IN as 0xFFFF. -/
  sa : Option Nat := none
  deriving DecidableEq, Repr

/-- A scheduler (R186, R187): a port's, or the host's as number 0xFE. Lists are keyed domain × 2 + band (0 committed, 1 excess). -/
structure Sched where
  lenAdjust : Option Nat := none
  quanta : Table Nat := []
  doms : List Nat := []
  domDeficit : Table Nat := []
  /-- The domain at the head has had its quantum added. -/
  domTurn : Bool := false
  lists : Table (List Nat) := []
  /-- The queue at the head of a list has had its quantum added. -/
  visiting : Table Bool := []
  deriving DecidableEq, Repr

/-- A queue change accepted and not yet committed (R194). -/
structure QPend where
  path : Path
  queue : Nat
  cfg : QCfg
  dom : Nat
  deriving DecidableEq, Repr

/-- A domain's part of the traffic manager (R184-R195); none: the default. -/
structure TmDom where
  shareKib : Option Nat := none
  spillMib : Nat := 0
  slots : Nat := 0
  queues : Option (Nat × Nat) := none
  meters : Option (Nat × Nat) := none
  sampled : Option Nat := none
  periodMult : Nat := 1
  periodNext : Option Nat := none
  shareFull : Bool := false
  spillFull : Bool := false
  deriving DecidableEq, Repr

/-- The traffic manager (R180-R195). -/
structure Tm where
  meters : Table Meter := []
  queues : Table Queue := []
  scheds : Table Sched := []
  doms : Table TmDom := []
  ingRes : Table Nat := []
  spoutRes : Table Nat := []
  defPrio : Table Nat := []
  pend : List QPend := []
  counters : List Nat := [0, 0, 0, 0, 0, 0, 0, 0]
  /-- Device time of the last refill and of the last sample point served, each plus one. -/
  refilled : Nat := 0
  sampled : Nat := 0
  /-- Device time of the last period end served, plus one. -/
  ended : Nat := 0
  /-- The owners of the 1,024 dispatch slots, 16 for none (R189), empty while none is reserved; the slot used last, and the slots begun by then. -/
  wheel : List Nat := []
  slotAt : Option (Nat × Nat) := none
  /-- Sample records waiting for room: none are kept (R192); bytes already placed in the posted buffer of each domain. -/
  filled : Table Nat := []
  deriving DecidableEq, Repr

/-- A replica in the release store (R202). Instants in device time. -/
structure Replica where
  port : Nat
  target : Nat
  start : Nat
  tag : Nat
  frame : Frame
  queue : Nat
  cls : Nat
  notarise : Bool
  lateSend : Bool
  late : Bool := false
  shifted : Bool := false
  dom : Nat
  deriving DecidableEq, Repr

/-- The Sluice of one port (R196-R205). -/
structure SluPort where
  /-- C_p in 2^-16 ns. -/
  comp : Nat := 0
  /-- Φ_p and the phase it moves to, in 2^-6 ns; steps are taken while they differ. -/
  phase : Nat := 0
  goal : Nat := 0
  settled : Bool := false
  /-- Steps left of a move, and its direction. -/
  left : Nat := 0
  up : Bool := true
  /-- Elapsed instant of the next step of a move. -/
  stepAt : Nat := 0
  counters : List Nat := [0, 0, 0, 0, 0, 0, 0, 0]
  deriving DecidableEq, Repr

/-- The count of one event cause of a port in a 2^20 ns period (R208): the period, the count, the first replica's tag and target. -/
structure SluEv where
  period : Nat
  count : Nat
  tag : Nat
  target : Nat
  deriving DecidableEq, Repr

/-- The Sluice (R196-R209). -/
structure Slu where
  ports : Table SluPort := []
  shares : Table Nat := []
  store : List Replica := []
  pend : List (Path × Nat × Nat) := []
  events : Table SluEv := []
  deriving DecidableEq, Repr

/-- Thread states (R212). -/
inductive TState where
  | inactive | ready | stalled | waiting | halted
  deriving DecidableEq, Repr

/-- What a thread waits for inside an instruction. -/
inductive Blocked where
  /-- `wfe` with its mask and destination (R225). -/
  | wfe (mask rd : Nat)
  /-- `cbegin` or `crecv` on a channel (R239, R242). -/
  | cbegin (chan rd : Nat)
  | crecv (chan rd : Nat)
  /-- `fence.d` (R227), and `ccommit.r` after its waits (R240). -/
  | fence
  | commit (chan rd : Nat)
  /-- A ninth load waits for one to return (R218); the load it is. -/
  | load (width rd addr : Nat)
  /-- A result that finds the hand-over store full (R248): the ring post or the commit. -/
  | post (rd ring : Nat) (desc : Bytes)
  | result (chan rd : Nat)
  /-- Its next instruction names these registers, and awaits the loads out to them (R212). -/
  | await (regs : List Nat)
  deriving DecidableEq, Repr

/-- An event or work-delivery subscription (R246, R301). -/
structure Sub where
  kind : Nat
  /-- Kind 1: class mask. Kind 2: opcode and subject. -/
  mask : Nat := 0
  opcode : Nat := 0
  subject : Nat := 0
  region : Nat := 0
  /-- Records written and not read, read and not freed, oldest first, as slots of the region; the next slot. -/
  unread : List Nat := []
  read : List Nat := []
  next : Nat := 0
  lost : Nat := 0
  deriving DecidableEq, Repr

/-- A hardware thread (R212-R229). -/
structure Thread where
  state : TState := .inactive
  /-- The state a debug halt suspended. -/
  under : TState := .ready
  regs : Table Nat := []
  pc : Nat := 0
  priv : Bool := true
  pp : Bool := false
  tactive : Bool := false
  tvec : Nat := 0
  tpc : Nat := 0
  tcause : Nat := 0
  tval : Nat := 0
  deadline : Nat := 0
  dlValid : Bool := false
  pend : Nat := 0
  ucodeBase : Nat := 0
  ucodeLimit : Nat := 0
  udataBase : Nat := 0
  udataLimit : Nat := 0
  retired : Nat := 0
  scratch : Nat := 0
  /-- Fraction and quality byte latched by the last `tnow`. -/
  latched : Nat := 0
  blocked : Option Blocked := none
  /-- Cistern loads out (destination, address, value as it was when the load was issued, poisoned), oldest first; cistern stores not yet stored; ring completions awaited. -/
  loads : List (Nat × Nat × Nat × Bool) := []
  stores : Nat := 0
  posts : Nat := 0
  subs : Table Sub := []
  /-- Channel whose send slot it holds; channels on which its message was abandoned. -/
  slot : Option Nat := none
  abandoned : List Nat := []
  /-- Its current item: flow key and item number, with the handle and the region slot of its record. -/
  item : Option (Nat × Nat × Nat × Nat) := none
  /-- Registers that hold poisoned data, with the address it came from; the pc whose breakpoint has been taken (R471). -/
  bad : Table Nat := []
  skip : Option Nat := none
  /-- A `wfe` of the thread has completed in this command (R470). -/
  woke : Bool := false
  deriving DecidableEq, Repr

/-- What has been issued in a core's present slot (R213): the thread, the pc a second instruction must have, the register the first writes,
whether it accesses memory, and whether no second may follow. -/
structure Issue where
  thr : Nat
  next : Nat
  dst : Nat
  mem : Bool
  last : Bool
  deriving DecidableEq, Repr

/-- Core states (R211); `unassigned` is read from the fuse map. -/
inductive CState where
  | empty | loaded | running | stopped
  deriving DecidableEq, Repr

/-- A core (R210-R234). -/
structure Core where
  state : CState := .empty
  /-- In `EMPTY` by a restart with `CLEAR` = 1 (R283). -/
  cleared : Bool := false
  threads : Table Thread := []
  /-- `CR_URGENT[3:0]` (R215). -/
  urgent : Nat := 0
  faultClass : Nat := 0
  faultTid : Nat := 0
  faultPc : Nat := 0
  faultVal : Nat := 0
  faultTime : Nat := 0
  /-- Elapsed instant of its start (CR_CYCLES) and of its stop (R233). -/
  startedAt : Nat := 0
  stoppedAt : Nat := 0
  /-- The arbiter (R214): the last thread given a slot round robin, the cycle count of the present slot, and what it has issued. Where the round
  robin stands when a core starts is not in the spec. -/
  rr : Nat := 7
  slot : Nat := 0
  issue : Option Issue := none
  /-- Items lost after their one re-issue, for the core's next CORE_EVENT (R249): flow number × 2^32 + item number. -/
  lost : List Nat := []
  /-- RETIRED, DUAL_SLOTS, IDLE_SLOTS, WFE_WAITS, TRAPS, FAULTS, DRY_WELLS, RESTARTS. -/
  counters : List Nat := [0, 0, 0, 0, 0, 0, 0, 0]
  deriving DecidableEq, Repr

/-- A channel (R237-R245). -/
structure Channel where
  dom : Nat
  recv : Nat × Nat
  senders : List (Nat × Nat)
  cap : Nat
  off : Nat
  /-- The slot holder, the device time it took the slot, and whether CHAN_EVENT cause 1 has been sent for this hold. -/
  holder : Option (Nat × Nat) := none
  since : Nat := 0
  told : Bool := false
  staged : List Nat := []
  /-- Slots committed and not taken, taken and not freed, oldest first. -/
  ready : List Nat := []
  taken : List Nat := []
  next : Nat := 0
  seq : Nat := 0
  broken : Bool := false
  /-- Threads a try form has registered: core, thread, and whether for sending. -/
  tries : List (Nat × Nat × Bool) := []
  /-- COMMITS, ABANDONS, CHAN_LOST. -/
  counters : List Nat := [0, 0, 0]
  deriving DecidableEq, Repr

/-- Cores and channels (R210-R251). -/
structure Cores where
  cores : Table Core := []
  chans : Table Channel := []
  /-- Channels destroyed and not created again: instructions of their ends return status 4 (R245). -/
  gone : Table Channel := []
  /-- Channel range of each domain: base and count; unlisted: the default share (R237). -/
  ranges : Table (Nat × Nat) := []
  deriving DecidableEq, Repr

/-- A work item (R298, R301). -/
structure Item where
  seq : Nat
  /-- Item buffer, or none for an `ipost` item. -/
  buf : Option Nat := none
  len : Nat := 0
  word : Nat := 0
  queue : Nat := 0xFFFF
  reissued : Bool := false
  /-- Before the hand-over marker. -/
  before : Bool := false
  /-- Delivered: the thread has its record; taken: it is, or was, a current item. -/
  taken : Bool := false
  /-- Where its record lies: core, thread, handle and slot of the region. -/
  at_ : Option (Nat × Nat × Nat × Nat) := none
  deriving DecidableEq, Repr

/-- A result held during a hand-over (R248): a ring post or a committed message. -/
inductive HeldResult where
  | post (core thr ring : Nat) (desc : Bytes)
  | message (core thr chan : Nat) (words : List Nat)
  deriving DecidableEq, Repr

/-- A flow (R298-R304), keyed by domain × 2^20 + number. -/
structure Flow where
  cls : Nat := 0
  place : Option (Nat × Nat) := none
  /-- Items not delivered, and delivered and not retired, oldest first. -/
  items : List Item := []
  out : List Item := []
  nextSeq : Nat := 0
  /-- The hand-over in progress: old placement, device time of the marker, whether its event was sent, results held; and results of a
  hand-over whose marker has retired that wait for room in their rings. -/
  hand : Option (Nat × Nat) := none
  markedAt : Nat := 0
  told : Bool := false
  held : List HeldResult := []
  due : List HeldResult := []
  /-- The next item is the first at a new placement. -/
  migrated : Bool := false
  /-- Order of its last delivery (R301). -/
  served : Nat := 0
  fullPeriod : Option Nat := none
  deriving DecidableEq, Repr

/-- A flow class (R300). -/
structure FClass where
  inflight : Nat := 1
  depth : Nat := 256
  refuse : Bool := false
  rebalance : Bool := false
  high : Nat := 1024
  low : Nat := 64
  /-- "No eligible placement" has been reported in this episode. -/
  told : Bool := false
  deriving DecidableEq, Repr

/-- A Sump queue's settings (R299). -/
structure SumpCfg where
  cls : Nat
  base : Nat
  log2 : Nat
  ranges : List (Nat × Nat)
  deriving DecidableEq, Repr

/-- A context the pager keeps (R293-R297), keyed by type × 2^30 + domain × 2^26 + number. -/
structure Ctx where
  /-- 0 cache, 1 backing pool, 2 home table. -/
  place : Nat := 0
  changed : Bool := true
  /-- Where a copy of an unchanged context stands: 0 nowhere, 1 backing pool, 2 home table. -/
  copy : Nat := 0
  pinned : Bool := false
  failed : Bool := false
  /-- A fetch is out, and from the backing pool or the home table; a write-back is in flight; a CTX_PIN command waits. -/
  fetching : Bool := false
  writing : Bool := false
  waiting : Option Path := none
  /-- Order of last use. -/
  used : Nat := 0
  /-- RDMA packets parked, oldest first. -/
  parked : List Frame := []
  deriving DecidableEq, Repr

/-- A domain's resources in the managers (R287-R309); none: the default. -/
structure RmDom where
  dataPages : Nat := 0
  itemMib : Nat := 16
  ctxPages : Nat := 256
  qpLines : Option Nat := none
  otherLines : Option Nat := none
  missPkts : Option Nat := none
  missKib : Option Nat := none
  flows : Option Nat := none
  handover : Option Nat := none
  /-- Data pages mapped, as page number and count, rising. -/
  mapped : List (Nat × Nat) := []
  /-- Item buffers in use. -/
  bufs : List Nat := []
  /-- Home tables: per type its host address and entries. -/
  homes : Table (Nat × Nat) := []
  /-- Page event episodes running, by cause × 8 + subject, and occurrences since the last event. -/
  episodes : List Nat := []
  occurred : Table Nat := []
  rr : Nat := 0
  counters : List Nat := [0, 0, 0, 0, 0, 0, 0, 0, 0, 0, 0, 0]
  deriving DecidableEq, Repr

/-- The resource managers (R285-R310). -/
structure Rm where
  doms : Table RmDom := []
  /-- Pages released and still being zeroed: domain, page, count, in order. -/
  zeroing : List (Nat × Nat × Nat) := []
  ctxs : Table Ctx := []
  clock : Nat := 0
  flows : Table Flow := []
  /-- Classes by domain × 8 + class; Sump queues by queue. -/
  classes : Table FClass := []
  sumps : Table SumpCfg := []
  rebalanced : Nat := 0
  deriving DecidableEq, Repr

/-- A descriptor fetched from a submission ring and not yet covered by a completion (R258). -/
structure Desc where
  idx : Nat := 0
  raw : Bytes := []
  addr : Nat := 0
  aux : Nat := 0
  tag : Nat := 0
  len : Nat := 0
  type : Nat := 0
  flags : Nat := 0
  queue : Nat := 0
  tci : Nat := 0
  dstatus : Nat := 0
  /-- The engine has begun it; it has ended; its frame was sent on no port. -/
  started : Bool := false
  ended : Bool := false
  notSent : Bool := false
  /-- A receive buffer that holds the last byte of a frame under RC_EVERY_FRAME. -/
  rc : Bool := false
  /-- Bytes of a receive buffer already filled. -/
  filled : Nat := 0
  /-- Stamp, quality byte and port of its frame (R263). -/
  stamp : Option (Nat × Nat × Nat) := none
  /-- The last host byte written for it, the last bytes of its `FLUSH_HERE` entries (R281), and the writes to cisterns and local memory
  not yet acknowledged. -/
  wrote : Option Nat := none
  here : List Nat := []
  acks : Nat := 0
  /-- A Tosen request's packet, once it has been read (R409). -/
  body : Option Bytes := none
  /-- Bytes of a failed DMA transfer whose writes were issued (R283). -/
  count : Nat := 0
  deriving DecidableEq, Repr

/-- A frame being transmitted from a ring (R260): its descriptors, and what has become of its replicas. -/
structure TxJob where
  first : Nat
  count : Nat
  read : Bool := false
  /-- The bytes of its descriptors, as they come; the frame or its replicas have been admitted. -/
  data : Table Bytes := []
  admitted : Bool := false
  /-- Replicas still to end; the ports named, ascending. -/
  left : Nat := 0
  ports : List Nat := []
  /-- The port with the lowest number on which it was sent, with its stamp and quality byte. -/
  sent : Option (Nat × Nat × Nat) := none
  /-- Report address of R77. -/
  report : Option Nat := none
  release : Bool := false
  /-- The schedule entry of R200. -/
  entry : Bytes := []
  deriving DecidableEq, Repr

/-- One piece of a DMA transfer (R278). -/
structure Piece where
  space : Nat
  addr : Nat
  len : Nat
  flush : Bool := false
  deriving DecidableEq, Repr

/-- The transfer a DMA ring's channel is carrying out (R277-R283). -/
structure DmaJob where
  idx : Nat
  /-- 0 list of sources to come, 1 list of destinations to come, 2 data to come. -/
  phase : Nat
  src : List Piece := []
  dst : List Piece := []
  /-- Source pieces still to be read, the bytes already moved, and the total. -/
  todo : List Piece := []
  /-- Sub-codes of the checks of R279 that the lists have failed. -/
  bad : List Nat := []
  moved : Nat := 0
  len : Nat := 0
  deriving DecidableEq, Repr

/-- A completion on its way to a completion ring (R263-R266). -/
structure Comp where
  data : Bytes
  /-- The submission ring whose `CI` it moves, and to what. -/
  src : Option (Nat × Nat) := none
  /-- The event packet written to its slot of the event area first (R412). -/
  area : Nat := 0
  packet : Bytes := []
  /-- Its time is that of its writing (R263). -/
  timed : Bool := false
  /-- The domain whose ledger cistern it frees, and how many slots (R102). -/
  frees : Option (Nat × Nat) := none
  deriving DecidableEq, Repr

/-- One ring (R252-R271). Indices are free-running, modulo 2^32. -/
structure Ring where
  base : Nat := 0
  idxAddr : Nat := 0
  enable : Bool := false
  kind : Nat := 0
  log2 : Nat := 0
  engine : Nat := 0
  rcEvery : Bool := false
  cq : Nat := 0
  vector : Nat := 0
  mod : Nat := 0
  /-- Next index the device fetches (submission) or writes (completion). -/
  dev : Nat := 0
  /-- `CI` the device has written (submission). -/
  done : Nat := 0
  /-- The host-written index as last read. -/
  host : Nat := 0
  reading : Bool := false
  again : Bool := false
  cfgRefused : Bool := false
  fullStop : Bool := false
  sumpFull : Bool := false
  sump : List Comp := []
  /-- Completions their engines keep while the sump is full; whether RING_EVENT cause 2 has been sent in this episode (R266). -/
  late : List Comp := []
  sumpTold : Bool := false
  fetched : List Desc := []
  /-- Descriptors read whose unit is not wholly posted (R260): they are not fetched yet. -/
  peek : List Bytes := []
  /-- End of the moderation period that has signalled, in device time; a write held in it (R265). -/
  modEnd : Nat := 0
  modHeld : Bool := false
  /-- A core-posted ring's `PI`, as the device itself counts it (R257). -/
  pi : Nat := 0
  /-- Threads whose posts a completion has yet to cover (R225): index, and core × 8 + thread; the ring's DMA channel (R275). -/
  posters : List (Nat × Nat) := []
  chan : Option Nat := none
  /-- A read of descriptors is out. -/
  fetching : Bool := false
  jobs : List TxJob := []
  dma : Option DmaJob := none
  /-- Flush reads of the first run that are out, and whether they have completed (R281). -/
  flushing : Nat := 0
  flushed : Bool := false
  /-- A run of DMA descriptors in which one has failed (R283). -/
  runFailed : Bool := false
  deriving DecidableEq, Repr

/-- The ring state of one function (R270, R271). -/
structure RingFn where
  offer : Nat := 0
  agreed : Nat := 0
  noCommon : Bool := false
  haltEntry : Nat := 0
  haltRing : Nat := 0
  haltReason : Nat := 0
  haltSub : Nat := 0
  /-- DB_BAD, DB_IGNORED, RX_BUF_WAITS, FULL_EPISODES, MALFORMED. -/
  counters : List Nat := [0, 0, 0, 0, 0]
  deriving DecidableEq, Repr

/-- Rings, doorbells and completions (R252-R273): rings are keyed by function × 1024 + ring. -/
structure Rings where
  rings : Table Ring := []
  fns : Table RingFn := []
  /-- Rings and completion rings each domain may enable; unlisted: the default share of R252. -/
  quota : Table (Nat × Nat) := []
  deriving DecidableEq, Repr

/-- A DMA channel's assignment (R274): domain, role and weight; none: the default of D enabled domains. -/
structure Chan where
  cfg : Option (Nat × Nat × Nat) := none
  /-- BYTES_READ, BYTES_WRITTEN, DESCRIPTORS, ERRORS, FLUSH_READS. -/
  counters : List Nat := [0, 0, 0, 0, 0]
  deriving DecidableEq, Repr

/-- A frame that waits at its channel for receive buffers (R261): its ring, its queue, and the bytes still to place. -/
structure RxWait where
  ring : Nat
  queue : Nat
  frame : Frame
  data : Bytes
  first : Bool
  deriving DecidableEq, Repr

/-- The DMA channels (R274-R284), with the channel each host-delivery queue is attached to, and the channel that issued last with the
requests left of its turn (R276). -/
structure Dma where
  chans : Table Chan := []
  queueChan : Table Nat := []
  waits : Table RxWait := []
  turn : Nat × Nat := (63, 0)
  deriving DecidableEq, Repr

/-- An entry of a window table (R320). -/
structure Win where
  target : Nat := 0
  pages : Nat := 0
  valid : Bool := false
  seq : Nat := 0
  rd : Bool := false
  wr : Bool := false
  drained : Bool := true
  ignored : Bool := false
  urs : Nat := 0
  /-- The paths of the WIN_CTRL commands that wait for the drain. -/
  waiting : List Path := []
  deriving DecidableEq, Repr

/-- A host read (R324): what for - 0 index, 1 descriptors, 2 frame data, 3 DMA data, 4 scatter-gather list, 5 flush, 6 context,
7 RDMA data, 8 storage data, 9 storage list - with its ring, its address and length, and the elapsed instant and timeout it was issued with. -/
structure HRead where
  tag : Nat
  fn : Nat
  what : Nat
  ring : Nat
  addr : Nat
  len : Nat
  /-- The descriptor index, or the unit's own number of what it reads; its data is no longer wanted. -/
  sub : Nat := 0
  dead : Bool := false
  /-- Bytes that have come. -/
  got : Bytes := []
  at_ : Nat := 0
  cto : Nat := 0
  deriving DecidableEq, Repr

/-- The PCIe state of a function (R313-R330). -/
structure PFn where
  bme : Bool := false
  mse : Bool := false
  d3 : Bool := false
  d3At : Nat := 0
  /-- Completion Timeout Value and CTO_US. -/
  ctoVal : Nat := 0
  ctoUs : Nat := 16000
  frozen : Bool := false
  cause : Nat := 0
  what : Nat := 0
  ring : Nat := 0
  wins : Table Win := []
  /-- WIN_MAX in force and for the next function reset; the window BAR size the host chose (none: WIN_MAX). -/
  winMax : Nat := 268435456
  winMaxNext : Nat := 268435456
  winSize : Option Nat := none
  /-- Of a PF: the window BAR size of its VFs; the enable bit of PF0's expansion ROM. -/
  vfWin : Option Nat := none
  romEn : Bool := false
  /-- MSI-X Enable and Function Mask; the MSI-X table's words, vector × 4 + word, and the vectors whose pending bit is set (R317). -/
  msixOn : Bool := false
  msixMask : Bool := false
  /-- 10-Bit Tag Requester Enable (R324). -/
  tag10 : Bool := false
  msix : Table Nat := []
  pba : List Nat := []
  /-- VF Enable with NumVFs, and the elapsed instant it was set. -/
  vfs : Nat := 0
  vfAt : Nat := 0
  /-- Elapsed instant the function reset in progress began, and the paths of the FN_RESET commands that wait for it. -/
  resetAt : Nat := 0
  resetPaths : List Path := []
  /-- Writes and messages of the function that wait for Bus Master Enable (R329), oldest first. -/
  outbox : List Emission := []
  deriving DecidableEq, Repr

/-- One link (R332). -/
structure Link where
  speed : Nat := 0
  width : Nat := 0
  flit : Bool := false
  active : Nat := 0
  lpm : Nat := 0
  up : Bool := false
  /-- The host's enables of ASPM L1 and L0p (R330). -/
  aspm : Bool := false
  l0p : Bool := false
  deriving DecidableEq, Repr

/-- The PCIe host interface (R311-R334). -/
structure Pcie where
  linkA : Link := {}
  linkB : Link := {}
  x8x8 : Bool := false
  fns : Table PFn := []
  /-- Reads out; reads that wait for Bus Master Enable, a power state or a tag; tags in quarantine, with the instant each is freed and its function. -/
  reads : List HRead := []
  held : List HRead := []
  quarantine : Table (Nat × Nat) := []
  nextTag : Nat := 0
  lateAt : Option Nat := none
  counters : List Nat := [0, 0, 0, 0, 0, 0, 0, 0]
  /-- L1_IDLE (2^10 ns), L0P_AUTO, L0P_WIDTH, LTR snoop and no-snoop (R330). -/
  l1Idle : Nat := 64
  l0pAuto : Bool := false
  l0pWidth : Nat := 8
  ltr : Nat × Nat := (0, 0)
  /-- TotalVFs per PF in force and for the next device reset; unlisted: 292 where fused to an enabled domain. -/
  totalVfs : Table Nat := []
  totalNext : Table Nat := []
  /-- The expansion ROM image of the running firmware (R323). -/
  rom : Bytes := []
  deriving DecidableEq, Repr

/-- The states of a queue pair (R342); destroyed ones are not listed. -/
inductive QState where
  | reset | init | rtr | rts | sqd | error
  deriving DecidableEq, Repr

/-- The attributes of R343. -/
structure QpAttr where
  port : Nat := 0
  pd : Nat := 0
  dqpn : Nat := 0
  dmac : Nat := 0
  dip : Nat := 0
  gid : Nat := 0
  sport : Nat := 0
  dscp : Nat := 0
  hop : Nat := 64
  label : Nat := 0
  /-- TCI, where `VLAN_EN` is set. -/
  vlan : Option Nat := none
  ecn : Bool := false
  rxPsn : Nat := 0
  mtu : Nat := 4096
  maxDest : Nat := 16
  minRnr : Nat := 1
  txPsn : Nat := 0
  timeout : Nat := 14
  retry : Nat := 7
  rnrRetry : Nat := 7
  maxRd : Nat := 16
  deriving DecidableEq, Repr

/-- Whose request it is: a descriptor of a send ring, or a command of the storage engine with its target. -/
inductive Owner where
  | ring (k idx : Nat)
  | stor (cmd target : Nat)
  deriving DecidableEq, Repr

/-- A request of a queue pair, from its fetch to its completion (R344, R345). -/
structure RReq where
  owner : Owner
  /-- Operation 0-8, space and address of the local buffer, remote address and key. -/
  op : Nat
  space : Nat := 0
  addr : Nat := 0
  len : Nat := 0
  va : Nat := 0
  rkey : Nat := 0
  imm : Nat := 0
  fence : Bool := false
  solicited : Bool := false
  flushType : Nat := 0
  op1 : Nat := 0
  op2 : Nat := 0
  /-- The local data: asked for, under a number; there; its bytes. -/
  serial : Nat := 0
  asked : Bool := false
  ready : Bool := false
  data : Bytes := []
  /-- First PSN and how many PSNs it takes, once the engine has started it. -/
  first : Option Nat := none
  psns : Nat := 0
  /-- Response bytes placed; a response completed. -/
  got : Nat := 0
  answered : Bool := false
  deriving DecidableEq, Repr

/-- An answer of a responder in PSN order (R350, R353): 0 an acknowledgement, 1 READ data, 2 an atomic's result. -/
structure RResp where
  kind : Nat
  psn : Nat
  msn : Nat := 0
  syndrome : Nat := 0
  data : Bytes := []
  /-- Host reads it waits for, by their number; the bytes still to come; the region it reads. -/
  waits : Option Nat := none
  need : Nat := 0
  region : Option Nat := none
  deriving DecidableEq, Repr

/-- The message a responder is receiving (R346, R359, R360). -/
structure RMsg where
  op : Nat
  va : Nat := 0
  region : Option Nat := none
  total : Nat := 0
  got : Nat := 0
  /-- Receive buffer taken: its index, and whether it is too small. -/
  buf : Option Nat := none
  short : Bool := false
  /-- Bytes of a SEND received so far. -/
  data : Bytes := []
  deriving DecidableEq, Repr

/-- A queue pair (R340-R343, R352-R356). -/
structure Qp where
  fn : Nat
  dom : Nat
  sendRing : Nat := 0
  recvRing : Nat := 0
  /-- A storage queue pair: its namespace's key and target. -/
  storage : Option (Nat × Nat) := none
  queue : Nat := 0
  state : QState := .reset
  attr : QpAttr := {}
  /-- Requests not completed, oldest first; the next PSN never used, the next to send, the oldest not acknowledged. -/
  reqs : List RReq := []
  nextPsn : Nat := 0
  sendPsn : Nat := 0
  ackPsn : Nat := 0
  retries : Nat := 7
  rnrs : Nat := 7
  /-- Elapsed instants at which the ACK timer and the RNR wait end. -/
  timer : Option Nat := none
  rnrAt : Option Nat := none
  /-- Rc in kb/s, none while it is the port's; the elapsed instant of the next packet; a CNP has come in the running period. -/
  rate : Option Nat := none
  nextAt : Nat := 0
  /-- Elapsed instant of the last retransmission from the requester's own timer (R367). -/
  backAt : Option Nat := none
  slowed : Bool := false
  drained : Bool := false
  -- responder
  expPsn : Nat := 0
  msn : Nat := 0
  msg : Option RMsg := none
  nakked : Bool := false
  unacked : Nat := 0
  ackAt : Option Nat := none
  resps : List RResp := []
  /-- Host bytes written and not flushed: the last. -/
  wrote : Option Nat := none
  /-- Results of the last atomics: PSN and original value. -/
  atomics : List (Nat × Nat) := []
  cnpPeriod : Option Nat := none
  failed : Bool := false
  /-- DROPPED_STATE, REQUESTS, RESPONSES. -/
  counters : List Nat := [0, 0, 0]
  deriving DecidableEq, Repr

/-- A region (R357). Rights: bits 0-4 in the order of R357. -/
structure Mr where
  fn : Nat
  pd : Nat
  space : Nat
  addr : Nat
  len : Nat
  va : Nat
  rights : Nat
  key : Nat
  /-- Closing, with the path of the command that waits (R360). -/
  closing : Option Path := none
  /-- The last byte written to its host memory and not acknowledged; the read that asks for that is under way (R281, R360). -/
  wrote : Option Nat := none
  asking : Bool := false
  refused : Nat := 0
  deriving DecidableEq, Repr

/-- Congestion settings of a domain (R356), rates in Mb/s. -/
structure CcCfg where
  en : Bool := false
  dec : Nat := 1
  ai : Nat := 400
  min : Nat := 100
  deriving DecidableEq, Repr

/-- The event records of a QP and cause in a 2^20 ns period (R361): `count` occurrences that no record has carried. -/
structure RdmaEv where
  period : Nat
  fn : Nat
  qp : Nat
  cause : Nat
  count : Nat := 0
  deriving DecidableEq, Repr

/-- A destroyed queue-pair number (R363): when its quiet period ends, and whether it has. -/
structure QpFree where
  num : Nat
  ends : Nat
  free : Bool
  deriving DecidableEq, Repr

/-- The RDMA engine (R335-R367). -/
structure Rdma where
  qps : Table Qp := []
  qpFree : List QpFree := []
  quietLog : Nat := 22
  mrs : Table Mr := []
  /-- Indices freed, the longest free first; the lowest index never used; the key byte of each index's last key. -/
  mrFree : List Nat := []
  mrNext : Nat := 0
  mrKeys : Table Nat := []
  /-- GID entries by port × 16 + index: address and domain. -/
  gids : Table (Nat × Nat) := []
  qpRange : Table (Nat × Nat) := []
  mrQuota : Table Nat := []
  cc : Table CcCfg := []
  /-- RDMA_CC_SET commands that wait for their grid point. -/
  ccPend : List (Path × Nat × CcCfg) := []
  ceRcvd : Table Nat := []
  /-- Packets in each function's intake (R337). -/
  intake : Table (List Frame) := []
  eventRings : Table Nat := []
  events : List RdmaEv := []
  /-- Number of the next host read; the 2^16 ns grid point last served (R356). -/
  serial : Nat := 0
  ccGrid : Nat := 0
  counters : List Nat := [0, 0, 0, 0, 0, 0, 0, 0, 0, 0, 0, 0, 0, 0, 0, 0]
  deriving DecidableEq, Repr

/-- A target of a namespace (R371): counts of its requests and failures. -/
structure NsTarget where
  queue : Nat
  rxQueue : Nat
  attr : QpAttr
  rkey : Nat
  va : Nat
  online : Bool := false
  qp : Nat := 0
  requests : Nat := 0
  failures : Nat := 0
  deriving DecidableEq, Repr

/-- A namespace (R371, R372), keyed by function × 64 + ID − 1. State: 0 OFFLINE, 1 READY, 2 DEGRADED. -/
structure Ns where
  blk : Nat
  cap : Nat
  state : Nat := 0
  targets : List NsTarget
  deriving DecidableEq, Repr

/-- A storage command from its fetch to its end (R369-R373). -/
structure StCmd where
  id : Nat
  key : Nat
  idx : Nat
  ns : Nat
  op : Nat
  fua : Bool
  va : Nat
  len : Nat
  /-- Data buffer, or list; pieces still to read or fill; the data. -/
  sgl : Bool := false
  addr : Nat := 0
  todo : List (Nat × Nat) := []
  listed : Bool := false
  data : Bytes := []
  /-- Started: its requests are posted. Per target: requests to end, and the status of a failure. `won`: the engine has begun it. -/
  started : Bool := false
  left : Table (Nat × Nat) := []
  won : Bool := false
  deriving DecidableEq, Repr

/-- Storage (R368-R373): namespaces and commands. -/
structure Stor where
  nss : Table Ns := []
  cmds : List StCmd := []
  nextCmd : Nat := 0
  /-- Requests of its QPs that have ended and await the storage engine: command, target, status and data read. -/
  ended : List (Nat × Nat × Nat × Bytes) := []
  deriving DecidableEq, Repr

/-- A MACsec security association (R376): its key, XPN salt and SSCI, and the next PN. -/
structure MsSa where
  key : Nat
  ssci : Nat
  salt : Nat
  pn : Nat
  /-- SEC_EVENT causes 1 and 2 have been sent for it. -/
  told : Bool := false
  toldEnd : Bool := false
  deriving DecidableEq, Repr

/-- A secure channel (R376): its SCI and its associations by AN. -/
structure MsSc where
  sci : Nat := 0
  sas : Table MsSa := []
  deriving DecidableEq, Repr

/-- The MACsec engine of a port (R374-R376). Channel 0 transmits, channels 1 to 4 are the receive channels 0 to 3. -/
structure MsPort where
  on : Bool := false
  xpn : Bool := false
  validate : Nat := 0
  window : Nat := 0
  withSci : Bool := false
  offset : Nat := 0
  bypass : List Nat := [0x888E]
  txAn : Nat := 0
  exhausted : Bool := false
  scs : Table MsSc := []
  /-- MS_PROTECTED, MS_VALIDATED, MS_ICV_FAIL, MS_REPLAY, MS_NO_SA, MS_UNTAGGED, MS_PN_EXHAUSTED. -/
  counters : List Nat := [0, 0, 0, 0, 0, 0, 0]
  deriving DecidableEq, Repr

/-- An IPsec security association (R377, R378). -/
structure EspSa where
  dom : Nat
  outbound : Bool
  spi : Nat
  src : Nat
  dst : Nat
  key : Nat
  salt : Nat
  esn : Bool
  /-- Outbound: the next sequence number. Inbound: the highest accepted, and the window below it as bits. -/
  seq : Nat
  window : Nat := 0
  template : Bytes := []
  natt : Option (Nat × Nat) := none
  told : Bool := false
  deriving DecidableEq, Repr

/-- A security change accepted and not yet committed (R383). -/
inductive SecOp where
  | port (p : Nat) (v : MsPort)
  | sa (p sc : Nat) (sci an : Nat) (v : MsSa)
  | txAn (p an : Nat)
  | esp (handle : Nat) (v : EspSa)
  | espDel (handle : Nat)
  | bind (q : Nat) (sa : Nat)
  | quota (l : List Nat)
  | nsCreate (key : Nat) (v : Ns)
  | nsTarget (key i : Nat) (v : NsTarget)
  | nsDelete (key : Nat)
  deriving DecidableEq, Repr

/-- A change with the command it answers and the reply's fields (R375-R383). -/
structure SecPend where
  path : Path
  opcode : Nat
  op : SecOp
  reply : List Nat := []
  deriving DecidableEq, Repr

/-- The security engines (R374-R384). -/
structure Sec where
  ports : Table MsPort := []
  esp : Table EspSa := []
  /-- Key slots of each domain; unlisted: ⌊16,384 / D⌋. -/
  quota : Table Nat := []
  pend : List SecPend := []
  /-- ESP_OUT, ESP_IN, ESP_NO_SA, ESP_ICV_FAIL, ESP_REPLAY. -/
  counters : List Nat := [0, 0, 0, 0, 0]
  deriving DecidableEq, Repr

/-- A slot of image-signing keys (R428). -/
structure KeySlot where
  hash : Nat := 0
  programmed : Nat := 0
  revoked : Nat := 0
  deriving DecidableEq, Repr

/-- The fuse block (R386-R389) and what the device latched from it. Bit fields of the map are kept as the map's
bytes 0x280-0x3CF; the identity, key and counter regions are fields of their own. -/
structure Fuse where
  serial : Nat := 0
  prodDate : Nat := 0
  orderCode : Nat := 0x0A
  stepping : Nat := 0x10
  subsysVendor : Nat := 0
  subsysId : Nat := 0
  mpMac : Nat := 0
  keys : List KeySlot := [{}, {}, {}, {}]
  /-- The anti-rollback thermometer (R429), fuse i as bit i. -/
  counter : Nat := 0
  /-- Calibration, in 2^-16 ns: the Wellheads' factory parts by lane × 2 + direction, and the PPS_IN input delay under 48 (R70, R386). -/
  calib : Table Nat := []
  /-- The domain map as fused (336 bytes) and `MAP_CRC`. -/
  map : Bytes := []
  mapCrc : Nat := 0
  repair : Bytes := []
  /-- The map in force, latched at device reset (R393, R395). -/
  live : Bytes := []
  /-- The map staged in Factory (R403). -/
  staged : Bytes := []
  /-- A burn in progress (R394): the path of its command and the map it burns. -/
  burning : Option (Path × Bytes) := none
  mapOk : Bool := false
  /-- Release of the running firmware against `FW_FLOOR` (R398). -/
  floorMet : Bool := false
  deriving DecidableEq, Repr

/-- A Tosen request as it was accepted (R407, R409): its header, and for a ring its descriptor. -/
structure TReq where
  seq : Nat := 0
  opcode : Nat := 0
  ver : Nat := 0
  flags : Nat := 0
  dom : Nat := 0
  len : Nat := 0
  carried : Nat := 0
  status : Nat := 0
  /-- The request's descriptor: index on its ring, `TAG`, reply buffer and its capacity. -/
  idx : Nat := 0
  tag : Nat := 0
  buf : Nat := 0
  cap : Nat := 0
  deriving DecidableEq, Repr

/-- A reply kept for repetition (R418). -/
structure TReply where
  seq : Nat
  /-- When its execution began; 0 where it was refused before. -/
  began : Nat := 0
  opcode : Nat
  status : Nat
  fields : List Nat
  deriving DecidableEq, Repr

/-- One open Tosen session (R405, R416-R420). -/
structure Session where
  path : Path
  dom : Nat
  gen : Nat
  /-- E, the next sequence the session expects. -/
  want : Nat := 2
  ver : Nat
  events : Bool := false
  area : Nat := 0
  client : Nat := 0
  number : Nat := 0
  queue : List TReq := []
  /-- The request whose execution has begun and whose reply is still to come, with the device time of its start. -/
  running : Option TReq := none
  began : Nat := 0
  cache : List TReply := []
  stale : Nat := 0
  /-- Elapsed instant of the last request (R420). -/
  heard : Nat := 0
  /-- Events held by firmware while the reply ring is full (R412), oldest first, and those lost since. -/
  held : List (List Nat) := []
  lostNow : Nat := 0
  deriving DecidableEq, Repr

/-- A packet being reassembled on MP (R413). -/
structure Partial where
  mac : Nat
  nextIdx : Nat
  data : Bytes
  at_ : Nat
  deriving DecidableEq, Repr

/-- The Tosen command service (R405-R426). -/
structure Tosen where
  sessions : List Session := []
  /-- Last generation used on each path (R417). -/
  gens : List (Path × Nat) := []
  nextNumber : Nat := 0
  evLost : Table Nat := []
  allow : List Nat := []
  /-- SESSION_OPEN requests that have arrived and not been executed. -/
  opens : List (Path × TReq) := []
  mpRefused : Nat := 0
  segDiscards : Nat := 0
  partials : List Partial := []
  deriving DecidableEq, Repr

/-- One image slot of the SPI flash (R430-R432): its header, and of its manifest and blocks what the boot ROM checks. -/
structure Slot where
  magic : Nat := 0xFFFFFFFF
  format : Nat := 0xFF
  state : Nat := 0xFFFFFFFF
  sequence : Nat := 0xFFFFFFFF
  trial : Nat := 0xFFFFFFFF
  /-- Manifest header (512 bytes) and hash table. -/
  manifest : Bytes := []
  lastFail : Nat := 0
  failBlock : Nat := 0
  deriving DecidableEq, Repr

/-- The boot ROM, the recovery function, the BOOT block and an image update (R433-R445). -/
structure Boot where
  slotA : Slot := {}
  slotB : Slot := {}
  cycle : Nat := 0
  /-- Slot being tried (0 A, 1 B), and those after it in candidate order; a slot before it in this cycle has failed. -/
  trying : Option Nat := none
  rest : List Nat := []
  anyFailed : Bool := false
  /-- Of the attempt: blocks landed and hashed, the signature verified, and what a block has failed with: reason and block. -/
  blocks : Nat := 0
  sigOk : Bool := false
  bad : Option (Nat × Nat) := none
  /-- A recovery window is open, and when it ends (R436). -/
  window : Bool := false
  windowEnd : Nat := 0
  /-- REC_VER_OFFER, REC_VER_AGREED, REC_LEN, REC_OFFSET (R438). -/
  recOffer : Nat := 0
  recAgreed : Nat := 0
  recLen : Nat := 0
  recOffset : Nat := 0
  /-- REC_STATUS: STATE, BUSY, FAIL, BLOCKS_DONE, OWNER; a BEGIN over PCIe was refused while MP's transfer ran. -/
  recState : Nat := 0
  recBusy : Bool := false
  recFail : Nat := 0
  recBlocks : Nat := 0
  recOwner : Nat := 0
  recRefused : Bool := false
  /-- Of the transfer: length, bytes accepted, elapsed instant of its last command; manifest checked, signature verified, what a block
  has failed with; FINISH has come, with its PERSIST; the slot a persistent write writes. -/
  recTotal : Nat := 0
  recAccepted : Nat := 0
  recHeard : Nat := 0
  recManOk : Bool := false
  recSigOk : Bool := false
  recBad : Option (Nat × Nat) := none
  recFinish : Option Bool := none
  recTarget : Nat := 0
  /-- BOOT_STATUS, BOOT_SV, BOOT_KEYS, BOOT_ATTEMPTS, BOOT_LOAD_US of the running image (R444). -/
  bootedSlot : Nat := 0
  fromHost : Bool := false
  trial : Bool := false
  fallback : Bool := false
  markedValid : Bool := false
  release : Nat := 0
  sv : Nat := 0
  signer : Nat := 0
  attempts : Nat := 0
  loadUs : Nat := 0
  /-- The image update in progress (R440): the path and generation of its session, the slot, its length, and the bytes written. -/
  updating : Option (Path × Nat) := none
  updTarget : Nat := 0
  updLen : Nat := 0
  updDone : Nat := 0
  deriving DecidableEq, Repr
/-- Memory integrity (R447-R461). -/
structure MemCfg where
  scrub : Nat := 36
  sram : Nat := 32
  retireC2 : Nat := 4
  ceAlertK : Nat := 1
  deriving DecidableEq, Repr

/-- Memory integrity (R446-R461). -/
structure Mem where
  cfg : MemCfg := {}
  cfgNext : Option MemCfg := none
  /-- Elapsed instant the running scrub pass began, and the passes completed. -/
  passAt : Nat := 0
  /-- Elapsed instant the running pass over SRAM began, and the exponent of the next (R455). -/
  sramAt : Nat := 0
  sramNext : Option Nat := none
  passes : Nat := 0
  /-- The error log, oldest first: corrected records and UE records. -/
  logC : List Bytes := []
  logU : List Bytes := []
  /-- Retired pages; pages to be retired when freed, by owner's key and page number; per page the addresses corrected as C2 in the
  running pass. -/
  retired : List Nat := []
  marked : List (Nat × Nat) := []
  c2 : Table (List Nat) := []
  lastUe : Nat := 0
  /-- Per stack CORR_1, CORR_2, UNCORR, POISON_READS, SCRUB_FIXES; SRAM_CORR, SRAM_UNCORR, FABRIC_CORR, FABRIC_UNCORR. -/
  stackErrs : Table (List Nat) := []
  sram : List Nat := [0, 0, 0, 0]
  /-- Per domain UNCORR and POISON_CONSUMED. -/
  doms : Table (List Nat) := []
  /-- Poisoned 32-byte words of `State.ram`, by address / 32; words with inverted symbols and their masks (R460). -/
  poison : List Nat := []
  bad : Table Nat := []
  /-- Poisoned entries of the other stores: store of R457 and the entry's key. -/
  marks : List (Nat × Nat) := []
  /-- UE events per domain and corrected errors per stack in the running grid period: the period and the count. -/
  uePeriod : Table (Nat × Nat) := []
  cePeriod : Table (Nat × Nat) := []
  deriving DecidableEq, Repr

/-- A breakpoint slot (R471): kind 0 none, 1 instruction, 2 data write, 3 data read, 4 either. -/
structure Bp where
  kind : Nat := 0
  mask : Nat := 0
  addr : Nat := 0
  len : Nat := 0
  deriving DecidableEq, Repr

/-- A kept Windlass response (R465). -/
structure WlResp where
  type : Nat
  seq : Nat
  cls : Nat
  fields : List Nat
  deriving DecidableEq, Repr

/-- TAP controller and registers (R478, R479): the instruction in force, the boundary register as captured, the values its last update
latched, and whether the AC-coupled output cells hold inverted values. -/
structure Tap where
  ir : Nat := 1
  boundary : Nat := 0
  latched : Nat := 0
  inverted : Bool := false
  deriving DecidableEq, Repr

/-- The Windlass port, its session and the boundary scan (R462-R479). -/
structure Dbg where
  connected : Bool := false
  agreed : Nat := 0
  /-- The line is ignored until the next line reset (R463). -/
  deaf : Bool := false
  /-- A connected session's Tosen session is open; packets waiting for POLL, each with events lost before it. -/
  queue : List (Bytes × Nat) := []
  lost : Nat := 0
  last : Option WlResp := none
  heard : Nat := 0
  /-- Breakpoints, key core × 8 + slot. -/
  bps : Table Bp := []
  /-- Threads halted through the port: key core × 8 + thread, cause (R469) and breakpoint slot. -/
  halted : Table (Nat × Nat) := []
  /-- Steps in progress: key core × 8 + thread, instructions left, count asked (R470). -/
  steps : Table (Nat × Nat) := []
  /-- Instructions completed in the last step of a thread; the STEP request still to be answered: its sequence and its thread. -/
  stepped : Table Nat := []
  stepWait : Option (Nat × Nat) := none
  /-- PACKETS, HDR_CRC_ERR, DATA_CRC_ERR, REFUSED, HALTS, BP_HITS. -/
  counters : List Nat := [0, 0, 0, 0, 0, 0]
  /-- DEBUG_EVENT causes 3 to 6 sent: key core × 8 + cause, the 2^20 ns period and the count in it (R477). -/
  evPeriod : Table (Nat × Nat) := []
  tap : Tap := {}
  deriving DecidableEq, Repr

/-- Pins, rails, reset and temperature (R485-R499). -/
structure Power where
  pwrGood : Bool := true
  perst : Bool := true
  resetN : Bool := true
  /-- Elapsed instant of the last release of PERST_N (R323). -/
  perstAt : Nat := 0
  refCore : Bool := true
  vddAux : Bool := true
  /-- Device reset holds the block. -/
  inReset : Bool := false
  resetBegan : Nat := 0
  /-- A reset close runs (R489): its pin (0 PERST_N, 1 RESET_N) and its start, in elapsed time. -/
  closing : Bool := false
  closePin : Nat := 0
  /-- The CAUSE code the reset will record. -/
  closeCause : Nat := 0
  closeBegan : Nat := 0
  /-- Device reset has ended and the boot ROM is still to start (R488). -/
  bootDue : Bool := true
  /-- A thermal trip holds the reset (R497): Tj has not fallen below 95 °C since; PWR_GOOD has gone low since; and high again. -/
  tripHeld : Bool := false
  tripHot : Bool := false
  tripPwrLow : Bool := false
  tripCycled : Bool := false
  /-- Tj as last read, as a signed byte of two's complement. -/
  tj : Nat := 25
  tjMax : Nat := 0x80
  therm : Bool := false
  tripSeen : Bool := false
  cause : Nat := 0
  closed : Bool := false
  i2cPtr : Nat := 0
  deriving DecidableEq, Repr

/-- The whole block. -/
structure State where
  /-- The commands waiting, first in, first out. -/
  pending : List Instr := []
  /-- Device time: the 80-bit counter of R45, in units of 2^-16 ns. -/
  now : Nat := 0
  /-- Elapsed device time (R352), which no step changes; the model's own count, in units of 2^-16 ns. -/
  elapsed : Nat := 0
  /-- The model's own: how many free values have been drawn. -/
  fresh : Nat := 0
  /-- The model's own: what has left the block, newest first. -/
  out : List Emission := []
  ram : List Host.Cell := []
  glb : Glb := {}
  pw : Power := {}
  tb : Tb := {}
  led : Ledger := {}
  rings : Rings := {}
  fuse : Fuse := {}
  tosen : Tosen := {}
  boot : Boot := {}
  dbg : Dbg := {}
  ports : Ports := {}
  pl : Pl := {}
  tm : Tm := {}
  slu : Slu := {}
  dma : Dma := {}
  pcie : Pcie := {}
  cores : Cores := {}
  rm : Rm := {}
  mem : Mem := {}
  rdma : Rdma := {}
  stor : Stor := {}
  sec : Sec := {}
  deriving DecidableEq, Repr

/-- Why a command stops the machine. -/
inductive Fault where
  /-- No command raises it: the block answers every malformed access with a status, a UR or a discard (R12, R423). -/
  | none
  deriving DecidableEq, Repr

/-- Why a command has no meaning in the model. -/
inductive Refusal where
  /-- A row of the table without a meaning yet; safe: nothing is claimed of it. -/
  | notModelled (mnemonic : String)
  deriving DecidableEq, Repr

/-- The block right after device reset ends: the boot ROM is about to start (R5, R433). -/
def State.reset : State := {}

end Sys2Proof.Machine
end

