-- ==== Sys2Proof/Machine/Ops.lean ====
section
/-! DEFINITION. The operations every unit shares: time, free values, the fused domain map, functions and their
domains, and the completion rings through which everything the block reports reaches the host. -/
namespace Sys2Proof.Machine

/-- What a command answers. -/
abbrev Out := Host.Outcome State Fault Refusal

/-- `n` ns in units of 2^-16 ns. -/
def ns (n : Nat) : Nat := n * 65536
/-- One second of device time. -/
def second : Nat := ns 1000000000
/-- The ns count of an instant, and its fraction. -/
def nsOf (t : Nat) : Nat := t / 65536
def fracOf (t : Nat) : Nat := t % 65536
/-- The grid period of 2^k ns. -/
def grid (k : Nat) : Nat := 2 ^ (k + 16)
/-- The first grid point of 2^k ns after an instant. -/
def nextGrid (k t : Nat) : Nat := nextMult t (grid k)

/-- Something leaves the block. (DESIGN CHOICE, safe: notes/assumptions/7.md) -/
def State.emit (s : State) (e : Emission) : State := { s with out := e :: s.out }

/-- Several things leave the block, the first of the list first. -/
def State.emits (s : State) (es : List Emission) : State := { s with out := es.reverse ++ s.out }

/-- Whether everything device reset waits for holds (R488): pins high, REF_CORE present, no trip held. -/
def Power.released (p : Power) : Bool := p.pwrGood && p.perst && p.resetN && p.refCore && p.vddAux && !p.tripHeld

/-! The issue slots of a core (R213, R214). -/

/-- Cycles of a core's clock since its start, 0.5 ns each (R213, R221). (DEDUCED, unsafe: notes/assumptions/70.md) -/
def Core.cycle (x : Core) (el : Nat) : Nat := ((if x.state = .running then el else x.stoppedAt) - x.startedAt) / 32768
/-- Whether a thread is `READY`. -/
def Core.ready (x : Core) (t : Nat) : Bool := (tget x.threads t {}).state == .ready
/-- The threads that are `READY`, in the order in which the round robin takes them next (R214). -/
def Core.turns (x : Core) : List Nat := ((List.range 8).map (fun i => (x.rr + 1 + i) % 8)).filter x.ready
/-- The urgent thread, if one is designated and `READY` (R214, R215). -/
def Core.urgentOn (x : Core) : Option Nat := if x.urgent % 2 = 1 && x.ready (x.urgent / 2 % 8) then some (x.urgent / 2 % 8) else none
/-- The thread the arbiter gives a slot at position `p` (R214). (DEDUCED, unsafe: notes/assumptions/177.md) -/
def Core.grant (x : Core) (p : Nat) : Option Nat := match x.urgentOn with
  | some u => if p % 4 = 0 && p / 4 ≠ u && x.ready (p / 4) then some (p / 4) else some u
  | none => x.turns.head?

/-- The slots that have passed since a core's last change: each is idle, or went to a thread `READY` (R213, R214).
(DEDUCED, unsafe: notes/assumptions/177.md) -/
def Core.settle (x : Core) (el : Nat) : Core :=
  if x.state ≠ .running || x.cycle el ≤ x.slot then x
  else
    let n := x.cycle el - x.slot - b2n x.issue.isSome
    let r := x.turns
    { x with slot := x.cycle el, issue := none
             counters := if r.isEmpty then bumpBy x.counters 2 n else x.counters
             rr := if n = 0 || r.isEmpty || x.urgentOn.isSome then x.rr else r.getD ((n - 1) % r.length) x.rr }

/-- The slots of every core settled. -/
def State.slots (s : State) : State := { s with cores.cores := tmap s.cores.cores (fun x => x.settle s.elapsed) }

/-- `dt` of device time passes. Device reset holds the counter at zero; it ends 10 µs after it began, once its pins are
released, and the counter starts then (R45, R488). (DESIGN CHOICE, safe: notes/assumptions/2.md) -/
def State.elapse (s : State) (dt : Nat) : State :=
  let t := s.elapsed + dt
  State.slots <| if s.pw.inReset then
    let e := max (s.pw.resetBegan + ns 10000) s.elapsed
    if s.pw.released && e ≤ t then
      { s with elapsed := t, now := (t - e) % 2 ^ 80, pw := { s.pw with inReset := false, bootDue := true } }
    else { s with elapsed := t, now := 0 }
  else { s with elapsed := t, now := (s.now + dt) % 2 ^ 80 }

/-- Nothing but pins, the Ledger's close and the always-on region acts: device reset or a reset close is on (R488, R489).
(DEDUCED, unsafe: notes/assumptions/13.md) -/
def State.dead (s : State) : Bool := s.pw.inReset || s.pw.closing

/-- A free value of `w` bits (R99, R163): no statement can know it. (DESIGN CHOICE, safe: notes/assumptions/10.md) -/
def State.freeBits (s : State) (w : Nat) : Nat := (Config.drawn s.fresh).toNat % 2 ^ w
/-- The free value just read has been used. (DESIGN CHOICE, safe: notes/assumptions/10.md) -/
def State.used (s : State) : State := { s with fresh := s.fresh + 1 }

/-! The domain map (R386-R392). -/

/-- A field of the map in force: bits `[hi:lo]` of `w` bytes at offset `off` of the FUSE block. -/
def mapField (m : Bytes) (off w hi lo : Nat) : Nat := bits (ofLe (slice m (off - 0x280) w)) hi lo

/-- PROV_LOCK of the map in force. -/
def State.prov (s : State) : Bool := mapField s.fuse.live 0x280 8 0 0 == 1
/-- ISO_LOCK, which a burn sets at once (R397). -/
def State.isoLock (s : State) : Bool := mapField s.fuse.map 0x280 8 1 1 == 1
/-- Whether a domain is enabled: in Factory only TD0 (R385). -/
def State.domOn (s : State) (d : Nat) : Bool :=
  if s.prov then d == 0 || (mapField s.fuse.live 0x280 8 19 4).testBit d && d < 16 else d == 0
/-- The enabled domains, ascending. -/
def State.doms (s : State) : List Nat := (List.range 16).filter s.domOn
/-- How many domains are enabled. -/
def State.domCount (s : State) : Nat := s.doms.length
/-- A field of a domain's record (R388). -/
def State.domField (s : State) (d hi lo : Nat) : Nat := mapField s.fuse.live (0x288 + d * 8) 8 hi lo
/-- The PF of a function, and whether it is a VF. -/
def pfOf (fn : Nat) : Nat := fn / 4096
def isVf (fn : Nat) : Bool := fn % 4096 != 0
/-- The function number of a packet's or a command's function field: PF 8 bits, VF 16 bits, VF-valid bit. A VF beyond the 4,095 a PF can have
gets a number of no function. -/
def fnOf (f : Nat) : Nat :=
  if !f.testBit 24 then f % 256 * 4096 else if f / 256 % 65536 < 4095 then f % 256 * 4096 + 1 + f / 256 % 65536 else 2 ^ 20 * 4096 + 1 + f % 256 * 4096
/-- The domain of a function (R389): its PF's record. -/
def State.fnDom (s : State) (fn : Nat) : Nat :=
  if s.prov && pfOf fn != 0 && pfOf fn < 8 then mapField s.fuse.live (0x308 + pfOf fn) 1 3 0 else 0
/-- Whether the map presents a PF (R389). -/
def State.pfOn (s : State) (p : Nat) : Bool :=
  p == 0 || s.prov && p < 8 && mapField s.fuse.live (0x308 + p) 1 6 6 == 1 && s.domOn (s.fnDom (p * 4096))
/-- The domain of a data port, its SHARED bit and its share mask (R390). -/
def State.portDom (s : State) (p : Nat) : Nat := if s.prov then mapField s.fuse.live (0x310 + p * 4) 4 3 0 else 0
def State.portShared (s : State) (p : Nat) : Bool := s.prov && mapField s.fuse.live (0x310 + p * 4) 4 4 4 == 1
def State.portMask (s : State) (p : Nat) : Nat :=
  if s.portShared p then mapField s.fuse.live (0x310 + p * 4) 4 21 6 else 2 ^ s.portDom p
/-- Whether a domain may use a port: its own, or one it shares. -/
def State.portIn (s : State) (p d : Nat) : Bool := (s.portMask p).testBit d
/-- The domain of a core, or none where it is unassigned (R210, R390). -/
def State.coreDom (s : State) (c : Nat) : Option Nat :=
  if c ≥ 96 then (if c < 100 then some 0 else none)
  else if s.prov then
    let r := mapField s.fuse.live (0x370 + c) 1 4 0
    if r ≥ 16 && s.domOn (r % 16) then some (r % 16) else none
  else some 0

/-- Data ports, cores and stacks of the order code (R2). -/
def State.isB (s : State) : Bool := s.fuse.orderCode == 0x0B
def State.portCount (s : State) : Nat := if s.isB then 16 else 24
def State.coreCount (s : State) : Nat := if s.isB then 48 else 96
def State.stackCount (s : State) : Nat := if s.isB then 2 else 4

/-- The MODE field of GLB_MODE (R28). -/
def Mode.code : Mode → Nat
  | .factory => 0
  | .boot => 1
  | .recovery => 1
  | .priming => 2
  | .service => 3
  | .drain => 4
  | .lockdown => 5

/-- The mode of the block. -/
def State.mode (s : State) : Mode := s.glb.mode
/-- Whether management firmware runs (R31): every mode but the boot phase and Recovery. -/
def State.firmware (s : State) : Bool :=
  match s.glb.mode with
  | .boot => false
  | .recovery => false
  | _ => true

/-- The status of a function. -/
def State.fn (s : State) (f : Nat) : FnStatus := tget s.glb.fns f {}
def State.setFn (s : State) (f : Nat) (v : FnStatus) : State := { s with glb.fns := tset s.glb.fns f v }

/-! Ledger time and its quality byte (R58). -/

/-- The servo field of the quality byte. -/
def Servo.field : Servo → Nat
  | .freeRun => 0
  | .freqAcq => 1
  | .phaseAcq => 1
  | .locked => 2
  | .holdover => 3

/-- The quality byte in force (R58). -/
def State.quality (s : State) : Nat :=
  let q := if s.tb.qualified && s.tb.servo == .locked then 0x80 else 0
  let r := if s.tb.freeEpoch then 0 else if s.tb.servo == .holdover then s.tb.held else s.tb.ref
  let l := if s.tb.servo == .holdover then s.tb.holdClass else s.tb.leapState
  q + r % 8 * 16 + s.tb.servo.field * 4 + l % 4

/-- The byte in force at an instant, among those that have ceased, newest first, and the present one. -/
def qualAt : List (Nat × Nat) → Nat → Nat → Nat
  | [], _, q => q
  | (e, o) :: r, t, q => if t < e then qualAt r t o else q
/-- The quality byte in force at elapsed instant `t` (R74). -/
def State.qualityAt (s : State) (t : Nat) : Nat := qualAt s.tb.quals t s.quality
/-- The byte `q` was in force until now: kept where it has ceased. -/
def State.noteQuality (s : State) (q : Nat) : State :=
  if s.quality = q then s else { s with tb.quals := (s.elapsed, q) :: s.tb.quals }

/-- A ledger time as bytes: ns count, fraction, quality byte. -/
def stampBytes (t q : Nat) : Bytes := le (nsOf t) 8 ++ le (fracOf t) 2 ++ le q 1

/-- The key of a ring of a function. -/
def rkey (fn r : Nat) : Nat := fn * 1024 + r
/-- The function of a ring key. -/
def fnOfKey (k : Nat) : Nat := k / 1024
def State.ring (s : State) (k : Nat) : Ring := tget s.rings.rings k {}
def State.setRing (s : State) (k : Nat) (r : Ring) : State := { s with rings.rings := tset s.rings.rings k r }
def State.ringFn (s : State) (f : Nat) : RingFn := tget s.rings.fns f {}
def State.setRingFn (s : State) (f : Nat) (r : RingFn) : State := { s with rings.fns := tset s.rings.fns f r }
/-! Threads (R220, R225). -/

/-- Bytes written to one of the block's stores; a word written whole loses its poison (R451). -/
def State.ramWrite (s : State) (a : Nat) (b : Bytes) : State :=
  let whole := fun w => a ≤ 32 * w && 32 * w + 32 ≤ a + b.length
  { s with ram := mwrites s.ram a b, mem.poison := s.mem.poison.filter (fun w => !whole w)
           mem.bad := s.mem.bad.filter (fun e => !whole e.1) }

def State.core (s : State) (c : Nat) : Core := tget s.cores.cores c {}
def State.setCore (s : State) (c : Nat) (x : Core) : State := { s with cores.cores := tset s.cores.cores c x }
def State.thr (s : State) (c t : Nat) : Thread := tget (s.core c).threads t {}
def State.setThr (s : State) (c t : Nat) (x : Thread) : State := s.setCore c { s.core c with threads := tset (s.core c).threads t x }

/-- A general register: w0 reads zero and discards writes (R220). -/
def Thread.reg (t : Thread) (r : Nat) : Nat := if r = 0 then 0 else tget t.regs r 0
def Thread.setReg (t : Thread) (r v : Nat) : Thread := if r = 0 then t else { t with regs := tset t.regs r (v % 2 ^ 64), bad := tdel t.bad r }

/-- `TSTATE` (R234). -/
def TState.code : TState → Nat
  | .inactive => 0
  | .ready => 1
  | .stalled => 2
  | .waiting => 3
  | .halted => 4

/-- Whether a thread is live (R212). -/
def Thread.live (t : Thread) : Bool := t.state != .inactive

/-- The thread goes on from a wait or a stall: `READY`, or halted by the debugger with that to return to. -/
def Thread.resume (t : Thread) : Thread :=
  if t.state = .halted then { t with under := .ready, blocked := none } else { t with state := .ready, blocked := none }

/-- A wait on wake sources completes when a pending one is in its mask (R225). -/
def Thread.tryWfe (t : Thread) : Thread :=
  match t.blocked with
  | some (.wfe mask rd) =>
    let got := t.pend &&& mask
    if got = 0 || t.state = .halted then t else ({ t with pend := t.pend - got, woke := true }.setReg rd got).resume
  | _ => t

/-- A wake source sets its bit in a thread's pending set (R225). -/
def State.wake (s : State) (c t src : Nat) : State :=
  let x := s.thr c t
  if (s.core c).state = .running && x.live then s.setThr c t ({ x with pend := setBit x.pend src }.tryWfe) else s

/-- A record for a subscription: written to the next of its 16 places, or counted while all are unfreed (R247, R301). -/
def State.subRecord (s : State) (c t h : Nat) (mk : Nat → Bytes) : State :=
  let x := s.thr c t
  match tget? x.subs h with
  | none => s
  | some u =>
    if u.unread.length + u.read.length ≥ 16 then s.setThr c t { x with subs := tset x.subs h { u with lost := u.lost + 1 } }
    else
      let s1 := s.ramWrite (localAt c (u.region + u.next * 32)) (mk u.lost)
      let u1 := { u with unread := u.unread ++ [u.next], next := (u.next + 1) % 16, lost := 0 }
      (s1.setThr c t { x with subs := tset x.subs h u1 }).wake c t 4

/-- The cause among an event's parameters (R247); READY_EVENT has none. (DEDUCED, unsafe: notes/assumptions/78.md) -/
def eventCause (opcode : Nat) (fields : List Nat) : Nat :=
  if opcode = 0x0110 then 0 else if opcode = 0x0210 || opcode = 0x0830 || opcode = 0x0C10 then nth fields 0
  else if opcode = 0x0111 || opcode = 0x0950 || opcode = 0x0730 || opcode = 0x0A50 then nth fields 2
  else if opcode = 0x0D10 then nth fields 3 else nth fields 1

/-- The subject among an event's parameters: the port, queue, core or channel, which for all but two events comes first.
(DEDUCED, unsafe: notes/assumptions/78.md) -/
def eventSubject (opcode : Nat) (fields : List Nat) : Nat := nth fields (if opcode = 0x0D10 || opcode = 0x0730 then 1 else 0) % 65536

/-- An event given to the threads of a domain that subscribe to it (R246, R247). (DEDUCED, unsafe: notes/assumptions/78.md) -/
def State.subEvent (s : State) (d opcode : Nat) (fields : List Nat) : State :=
  let subj := eventSubject opcode fields
  let who := s.cores.cores.flatMap (fun (c : Nat × Core) =>
    if s.coreDom c.1 == some d && c.2.state == .running then
      c.2.threads.flatMap (fun (t : Nat × Thread) => if t.2.live then (t.2.subs.filter (fun u =>
        u.2.kind == 2 && u.2.opcode == opcode && (u.2.subject == 0xFFFF || u.2.subject == subj))).map (fun u => (c.1, t.1, u.1)) else [])
    else [])
  who.foldl (fun s x => s.subRecord x.1 x.2.1 x.2.2 (fun lost =>
    le opcode 2 ++ le (eventCause opcode fields) 1 ++ le (b2n (lost > 0)) 1 ++ le (min lost 65535) 2 ++ le subj 2 ++ le (nsOf s.now) 8
      ++ slice (fields.flatMap (fun f => le f 8)) 0 16)) s

/-- The threads whose posts to ring `k` a completion covers get `COMPLETION` (R225, R265). -/
def State.wakePosters (s : State) (k : Nat) : State :=
  let r := s.ring k
  let covered := r.posters.filter (fun p => (r.done + 2 ^ 32 - p.1 - 1) % 2 ^ 32 < 2 ^ 31)
  let s1 := s.setRing k { r with posters := r.posters.filter (fun p => !((r.done + 2 ^ 32 - p.1 - 1) % 2 ^ 32 < 2 ^ 31)) }
  covered.foldl (fun s p =>
    let x := s.thr (p.2 / 8) (p.2 % 8)
    (s.setThr (p.2 / 8) (p.2 % 8) { x with posts := x.posts - 1 }).wake (p.2 / 8) (p.2 % 8) 3) s1

/-! Functions at the link (R313-R329). -/

/-- A function as packets name it (R272): PF in bits [7:0], VF in [23:8], VF-valid in bit 24. -/
def fnCode (f : Nat) : Nat := pfOf f + (if isVf f then (f % 4096 - 1) * 256 + 2 ^ 24 else 0)

def State.pfn (s : State) (f : Nat) : PFn := tget s.pcie.fns f {}
def State.setPfn (s : State) (f : Nat) (x : PFn) : State := { s with pcie.fns := tset s.pcie.fns f x }
/-- A PCIe counter of the device (R332), one higher. -/
def State.pcieCount (s : State) (i : Nat) : State := { s with pcie.counters := bump s.pcie.counters i }

/-- A function that originates no request at all: in reset (R269), frozen (R328), or stopped by Lockdown (R43). -/
def State.mute (s : State) (f : Nat) : Bool :=
  (s.fn f).inReset || (s.pfn f).frozen || (s.glb.mode == .lockdown && f != 0)

/-- A function whose requests wait: Bus Master Enable is 0, or D3hot has ended its work (R329). -/
def State.waits (s : State) (f : Nat) : Bool :=
  !(s.pfn f).bme || ((s.pfn f).d3 && (s.pfn f).d3At + ns 10000000 ≤ s.elapsed)

/-- Whether link B carries a function (R314). -/
def State.onB (s : State) (f : Nat) : Bool := s.pcie.x8x8 && pfOf f ≥ 4
/-- The link of a function. -/
def State.linkOf (s : State) (f : Nat) : Link := if s.onB f then s.pcie.linkB else s.pcie.linkA
def State.setLink (s : State) (b : Bool) (l : Link) : State := if b then { s with pcie.linkB := l } else { s with pcie.linkA := l }
/-- A packet of a function takes its link out of L1 (R330). (DEDUCED, unsafe: notes/assumptions/106.md) -/
def State.linkBusy (s : State) (f : Nat) : State :=
  let l := s.linkOf f
  if l.lpm ≥ 2 then s.setLink (s.onB f) { l with lpm := if l.active = l.width then 0 else 1 } else s

/-- Outbound data of more than 16 KiB at one instant takes the link back to full width (R330). (DEDUCED, unsafe: notes/assumptions/106.md) -/
def State.linkFull (s : State) (f n : Nat) : State :=
  let l := s.linkOf f
  if n > 16384 && l.lpm = 1 then s.setLink (s.onB f) { l with lpm := 0, active := l.width } else s

/-- Bytes of data an emission carries to the host. -/
def Emission.hostBytes : Emission → Nat
  | .hostWrite _ _ b => b.length
  | _ => 0

/-- A write or message of a function: sent, held until the function may send again, or, of a mute function, never sent. -/
def State.hostWr (s : State) (f : Nat) (e : Emission) : State :=
  if s.mute f then s
  else if s.waits f then s.setPfn f { s.pfn f with outbox := (s.pfn f).outbox ++ [e] }
  else ((s.linkBusy f).linkFull f e.hostBytes).emit e

/-! Rings and completions (R252-R266). -/

/-- A ring counter of a function, one higher (R271). -/
def State.ringCount (s : State) (f i : Nat) : State :=
  s.setRingFn f { s.ringFn f with counters := bump (s.ringFn f).counters i }

/-- Entry size by kind (R252). -/
def Ring.size (r : Ring) : Nat := if r.kind == 2 then 16 else 32
/-- Entries of the ring. -/
def Ring.entries (r : Ring) : Nat := 2 ^ r.log2
/-- Entries a completion ring holds: PI − CI modulo 2^32 (R253). -/
def Ring.held (r : Ring) : Nat := (r.dev + 2 ^ 32 - r.host) % 2 ^ 32
def Ring.full (r : Ring) : Bool := r.held ≥ r.entries

/-- A vector of a function that its MSI-X table masks, or whose function has MSI-X off or masked. -/
def PFn.masked (x : PFn) (v : Nat) : Bool := !x.msixOn || x.msixMask || (tget x.msix (4 * v + 3) 1).testBit 0

/-- A vector signalled (R265, R317): sent, or pending while it is masked. -/
def State.sendVector (s : State) (f v : Nat) : State :=
  let x := s.pfn f
  if s.mute f then s
  else if x.masked v then s.setPfn f { x with pba := v :: x.pba.filter (fun y => y != v) }
  else s.hostWr f (.irq f v)

/-- Pending vectors of a function that nothing masks any more are sent. (PRESUMED, unsafe: notes/assumptions/101.md) -/
def State.sendPending (s : State) (f : Nat) : State :=
  let x := s.pfn f
  let go := x.pba.filter (fun v => !x.masked v)
  go.foldl (fun s v => s.sendVector f v) (s.setPfn f { x with pba := x.pba.filter (fun v => x.masked v) })

/-- The signal of a completion ring's vector after a write of PI (R265). (PRESUMED, unsafe: notes/assumptions/101.md) -/
def State.signal (s : State) (k : Nat) : State :=
  let r := s.ring k
  if r.mod == 0 then s.sendVector (fnOfKey k) r.vector
  else if s.now < r.modEnd then s.setRing k { r with modHeld := true }
  else (s.setRing k { r with modEnd := nextMult s.now (r.mod * grid 10), modHeld := false }).sendVector (fnOfKey k) r.vector

/-- The entry of a completion whose time is that of its writing (R263). -/
def Comp.bytes (c : Comp) (t q : Nat) : Bytes := if c.timed then stampBytes t q ++ c.data.drop 11 else c.data

/-- Exported slots are free once their completion has been written (R102). (DEDUCED, unsafe: notes/assumptions/36.md) -/
def Chain.free (c : Chain) (n : Nat) : Chain := { c with stream := c.stream.drop n, copied := c.copied - n, freed := true }
def State.freeSlots (s : State) (x : Option (Nat × Nat)) : State :=
  match x with
  | none => s
  | some (d, n) => { s with led.chains := tupd s.led.chains d {} (fun c => c.free n) }

/-- A completion written to its ring in the order of R265: event packet, entry, PI, the submission ring's CI, interrupt. -/
def State.writeComp (s : State) (k : Nat) (c : Comp) : State :=
  let r := s.ring k
  let f := fnOfKey k
  let slot := r.dev % r.entries
  let s1 := if c.packet.isEmpty then s else s.hostWr f (.hostWrite f (c.area + slot * 256) c.packet)
  let s2 := s1.hostWr f (.hostWrite f (r.base + slot * r.size) (c.bytes s.now s.quality))
  let pi := (r.dev + 1) % 2 ^ 32
  let s3 := ((s2.setRing k { r with dev := pi }).hostWr f (.hostWrite f r.idxAddr (le pi 4))).freeSlots c.frees
  let s4 := match c.src with
    | none => s3
    | some (q, ci) =>
      let x := s3.ring q
      ((s3.setRing q { x with done := ci }).hostWr f (.hostWrite f (x.idxAddr + 4) (le ci 4))).wakePosters q
  s4.signal k

/-- A completion handed to a completion ring (R266): written when the ring has room and its sump is empty, otherwise
held in the sump. The list names the causes of RING_EVENT that arise, each once per episode. A completion that finds 64 entries in the
sump stays with its engine: none is dropped. (DEDUCED, unsafe: notes/assumptions/84.md) -/
def State.postCore (s : State) (k : Nat) (c : Comp) : State × List Nat :=
  let r := s.ring k
  if !r.enable || s.mute (fnOfKey k) then (s, [])
  else if r.sump.isEmpty && !r.full then (s.writeComp k c, [])
  else if r.sump.length ≥ 64 then (s.setRing k { r with late := r.late ++ [c] }, [])
  else
    let full := r.sump.length = 63
    let s1 := s.setRing k { r with fullStop := true, sumpFull := full, sumpTold := r.sumpTold || full, sump := r.sump ++ [c] }
    let s2 := if r.fullStop then s1 else s1.ringCount (fnOfKey k) 3
    (s2, (if r.fullStop then [] else [1]) ++ (if full && !r.sumpTold then [2] else []))

/-- Whether the fetched work of a submission ring that has not begun must wait: the sump it ends into is full (R266 step 3).
(DEDUCED, unsafe: notes/assumptions/84.md) -/
def State.sumpStops (s : State) (k : Nat) : Bool := (s.ring (rkey (fnOfKey k) (s.ring k).cq)).sumpFull
/-- Whether a source that answers no descriptor already holds its next entry for a ring whose sump is full (R266 step 3).
(DEDUCED, unsafe: notes/assumptions/84.md) -/
def Ring.holdsKind (r : Ring) (kind : Nat) : Bool := r.sumpFull && r.late.any (fun c => ofLe (slice c.data 4 1) == kind)

/-- The completions of a sump written while the ring has room (R266 step 4). (DEDUCED, unsafe: notes/assumptions/84.md) -/
def State.flushSump (s : State) (k : Nat) : Nat → State
  | 0 => s
  | n + 1 =>
    let r := s.ring k
    match r.sump with
    | [] => s.setRing k { r with fullStop := false, sumpFull := false, sumpTold := false }
    | c :: rest =>
      if r.full then s
      else
        let next := rest ++ r.late.take 1
        let s := s.setRing k { r with
          sump := next, late := r.late.drop 1, sumpFull := next.length ≥ 64, fullStop := !next.isEmpty, sumpTold := r.sumpTold && !next.isEmpty }
        (s.writeComp k c).flushSump k n

end Sys2Proof.Machine
end

