-- ==== Sys2Proof/Machine/MacCount.lean ====
section
/-! DEFINITION. The MAC counters of the data ports and of MP, which is port 24 (R125, R127), and the padding and FCS of R120. -/
namespace Sys2Proof.Machine

def State.pt (s : State) (p : Nat) : PortSt := tget s.ports.ports p {}
def State.setPt (s : State) (p : Nat) (v : PortSt) : State := { s with ports.ports := tset s.ports.ports p v }

/-- Counter `i` of a port's MAC `k` higher (R125): bit 47 rising sets its half-range bit and asks for its event. -/
def State.macBy (s : State) (p i k : Nat) : State :=
  let x := s.pt p
  let o := nth x.counters i
  let n := add48 o k
  let s1 := s.setPt p { x with counters := x.counters.set i n, half := if !o.testBit 47 && n.testBit 47 then setBit x.half i else x.half }
  if !o.testBit 47 && n.testBit 47 && x.halfMask.testBit i then { s1 with ports.halfDue := s1.ports.halfDue ++ [(p, i)] } else s1
def State.mac (s : State) (p i : Nat) : State := s.macBy p i 1

/-- Size bin of a frame length (R127). -/
def sizeBin (n : Nat) : Nat :=
  if n ≤ 64 then 0 else if n ≤ 127 then 1 else if n ≤ 255 then 2 else if n ≤ 511 then 3 else if n ≤ 1023 then 4
  else if n ≤ 1518 then 5 else 6

/-- Whether bytes 12 and 13 hold a VLAN TPID (R113). -/
def tagged (b : Bytes) : Bool :=
  let t := ofBe (slice b 12 2)
  t == 0x8100 || t == 0x88A8

/-- The frame, octet, cast, tag and size counters, from index `base` (0 receive, 32 transmit) and `bins` (16, 48). -/
def State.macGood (s : State) (p base bins : Nat) (b : Bytes) : State :=
  let n := b.length
  let first := ((b.headD 0).toNat)
  let cast := if b.take 6 = List.replicate 6 0xFF#8 then 4 else if first % 2 = 1 then 3 else 2
  let s1 := (((s.mac p base).macBy p (base + 1) n).mac p (base + cast)).mac p (bins + sizeBin n)
  if tagged b then s1.mac p (base + 5) else s1

/-- A good frame received on MP (R127). -/
def State.mpGood (s : State) (b : Bytes) : State := (s.macBy 24 30 b.length).macGood 24 0 16 b
/-- A frame received on MP counted as R117 sorts it, and whether it goes on: PAUSE is counted and never acted on (R127, R133). -/
def State.mpSort (s : State) (b : Bytes) : Bool × State :=
  let n := b.length
  let good := n ≥ 4 && b.drop (n - 4) == le (fcs (b.take (n - 4))) 4
  let s1 := s.macBy 24 30 n
  if n < 64 then (false, s1.mac 24 (if good then 23 else 24))
  else if n > (s.pt 24).cfg.maxFrame then (false, s1.mac 24 (if good then 25 else 26))
  else if !good then (false, s1.mac 24 27)
  else if ofBe (slice b 12 2) = 0x8808 then (false, if ofBe (slice b 14 2) = 1 then s1.mac 24 6 else s1)
  else (true, s.mpGood b)

/-- Frames sent complete, and their kind (R127). -/
def State.macSent (s : State) (p : Nat) (b : Bytes) : State :=
  let et := ofBe (slice b 12 2)
  let oc := ofBe (slice b 14 2)
  let s1 := s.macGood p 32 48 b
  if et = 0x8808 ∧ oc = 1 then s1.mac p 38
  else if et = 0x8808 ∧ oc = 0x0101 then
    (List.range 8).foldl (fun s i => if (ofBe (slice b 16 2)).testBit i then s.mac p (40 + i) else s) (s1.mac p 39)
  else s1

/-- The padding and FCS of R120: a body of at least 60 bytes, then its FCS. -/
def padFcs (b : Bytes) : Bytes :=
  let c := b ++ zeros (60 - b.length)
  c ++ le (fcs c) 4

end Sys2Proof.Machine
end

