-- ==== Sys2Proof/Machine/TosenOps.lean ====
section
/-! DEFINITION. Tosen packets, events and replies (R405-R426): how every command of the groups is checked and
answered, and how every event of the block reaches its sessions. -/
namespace Sys2Proof.Machine

/-- A Tosen packet as bytes (R407, R408): the 16-byte header and one 8-byte field per parameter. -/
def tosenPacket (ver flags opcode seq gen dom status : Nat) (fields : List Nat) : Bytes :=
  le ver 1 ++ le flags 1 ++ le opcode 2 ++ le seq 4 ++ le gen 1 ++ le dom 1
    ++ le (16 + 8 * fields.length) 2 ++ le status 4 ++ fields.flatMap (fun f => le f 8)

/-- An MP packet cut into segments of at most 1,488 bytes (R413). -/
def mpSegments (fuel idx : Nat) (total : Nat) (p : Bytes) : List Bytes :=
  match fuel with
  | 0 => []
  | f + 1 =>
    let part := p.take 1488
    let rest := p.drop 1488
    let fl := (if idx = 0 then 1 else 0) + (if rest.isEmpty then 2 else 0)
    let seg := be 0x88B5 2 ++ be 0x5453 2 ++ le 1 1 ++ le fl 1 ++ be idx 2 ++ be part.length 2 ++ part
    if rest.isEmpty then [seg] else seg :: mpSegments f (idx + 1) total rest

/-- What MP's MAC sends for the part of a frame from its EtherType on. -/
def State.mpBytes (s : State) (mac : Nat) (b : Bytes) : Bytes := padFcs (be mac 6 ++ be s.fuse.mpMac 6 ++ b)
/-- A frame sent complete on MP (R127). -/
def State.mpOut (s : State) (mac : Nat) (b : Bytes) : State := (s.macSent 24 (s.mpBytes mac b)).emit (.mpFrame mac b)
/-- A frame of MP (R134): in full duplex it is sent; in half duplex it waits for those before it and for its time on the line.
(DESIGN CHOICE, unsafe: notes/assumptions/47.md) -/
def State.mpTx (s : State) (mac : Nat) (b : Bytes) : State :=
  let m := s.ports.mp
  if m.half then { s with ports.mp := { m with tx := m.tx ++ [(mac, b)], begun := if m.tx.isEmpty then max s.elapsed m.begun else m.begun } }
  else s.mpOut mac b

/-- A bit time of MP at 10 or 100 Mb/s, in 2^-16 ns (R134). -/
def mpBit (speed : Nat) : Nat := if speed = 10 then ns 100 else ns 10

/-- The frames of half-duplex MP whose attempt has gone its whole length without a collision are sent, each after the gap of 96 bit times
(R127, R134). (DESIGN CHOICE, unsafe: notes/assumptions/47.md) -/
def State.mpEnds (s : State) : Nat → State
  | 0 => s
  | n + 1 =>
    let m := s.ports.mp
    match m.tx with
    | [] => s
    | (mac, b) :: rest =>
      let e := m.begun + mpBit m.speed * 8 * ((s.mpBytes mac b).length + 8)
      if m.half && (m.backoff.isSome || s.elapsed < e) then s
      else
        let s1 := { s with ports.mp := { m with tx := rest, attempts := 0, backoff := none, begun := e + 96 * mpBit m.speed } }.mpOut mac b
        (if m.attempts = 0 then s1 else s1.mac 24 (if m.attempts = 1 then 59 else 60)).mpEnds n
def State.mpFlush (s : State) : State := s.mpEnds s.ports.mp.tx.length

/-- A packet sent to an MP session's address (R413). -/
def State.mpSend (s : State) (mac : Nat) (p : Bytes) : State :=
  (mpSegments (p.length / 1488 + 1) 0 p.length p).foldl (fun s b => s.mpTx mac b) s

/-- The session of a path. -/
def State.session? (s : State) (p : Path) : Option Session := s.tosen.sessions.find? (fun x => x.path == p)

/-- The session of a path replaced by its image. -/
def onFirst (p : Path) (f : Session → Session) : List Session → List Session
  | [] => []
  | y :: r => if y.path = p then f y :: r else y :: onFirst p f r
def State.onSession (s : State) (p : Path) (f : Session → Session) : State := { s with tosen.sessions := onFirst p f s.tosen.sessions }

/-- The completion ring of a ring path. -/
def State.replyRing (s : State) (fn rid : Nat) : Nat := rkey fn (s.ring (rkey fn rid)).cq

/-- One event for one session, as an event packet and its completion (R412). -/
def eventComp (x : Session) (opcode dom t lost : Nat) (fields : List Nat) : Comp :=
  let pk := tosenPacket x.ver 2 opcode 0 x.gen dom 0 fields
  let data := (fields.flatMap (fun f => le f 8))
  { data := le 0 4 ++ le 3 1 ++ le (if lost > 0 then 1 else 0) 1 ++ le opcode 2 ++ le (nsOf t) 8
      ++ le (min lost 65535) 2 ++ le dom 1 ++ le 0 1 ++ slice data 0 12
    area := x.area, packet := pk }

/-- An event written to a ring session: to its completion ring, or held by firmware while the ring's sump is full, at most 256
of them, and counted beyond that (R412). (DEDUCED, unsafe: notes/assumptions/135.md) -/
def State.eventRing (s : State) (x : Session) (fn rid opcode dom : Nat) (fields : List Nat) : State × List (Nat × Nat) :=
  let k := s.replyRing fn rid
  if (s.ring k).sumpFull || !x.held.isEmpty then
    if x.held.length < 256 then (s.onSession x.path (fun y => { y with held := y.held ++ [opcode :: dom :: s.now :: fields] }), [])
    else (s.onSession x.path (fun y => { y with lostNow := y.lostNow + 1 }), [])
  else
    let r := (s.onSession x.path (fun y => { y with lostNow := 0 })).postCore k (eventComp x opcode dom s.now x.lostNow fields)
    (r.1, r.2.map (fun c => (k, c)))

/-- An event sent to the event session of one domain, and to the threads that subscribe to what its ring receives (R246); where the domain has none, counted in its EVENTS_LOST and given
to those threads all the same (R412). The list names RING_EVENT
causes that arise: ring key and cause. (DEDUCED, unsafe: notes/assumptions/78.md) -/
def State.eventDom (s0 : State) (d opcode dom : Nat) (fields : List Nat) : State × List (Nat × Nat) :=
  match s0.tosen.sessions.find? (fun x => x.dom == d && x.events && match x.path with | .ring _ _ => true | _ => false) with
  | some x =>
    match x.path with
    | .ring fn rid =>
      let lost := ((s0.ring (s0.replyRing fn rid)).sumpFull || !x.held.isEmpty) && x.held.length ≥ 256
      (if lost then s0 else s0.subEvent d opcode fields).eventRing x fn rid opcode dom fields
    | _ => (s0, [])
  | none => (({ s0 with tosen.evLost := tupd s0.tosen.evLost d 0 inc48 } : State).subEvent d opcode fields, [])

/-- A packet queued for the Windlass probe's POLL (R467): 64 packets, and beyond them counted. -/
def State.windlassQueue (s : State) (p : Bytes) : State :=
  if s.dbg.queue.length < 64 then
    { s with dbg.queue := s.dbg.queue ++ [(p, s.dbg.lost)], dbg.lost := 0 }
  else { s with dbg.lost := s.dbg.lost + 1 }

/-- An event of TD0 to every MP and Windlass session opened with EVENTS; with `all`, to every MP session (R32, R331). -/
def State.eventSide (s : State) (all : Bool) (opcode dom : Nat) (fields : List Nat) : State :=
  s.tosen.sessions.foldl (fun s x =>
    let pk := tosenPacket x.ver 2 opcode 0 x.gen dom 0 fields
    match x.path with
    | .mp mac => if all || x.events then s.mpSend mac pk else s
    | .windlass => if x.events then s.windlassQueue pk else s
    | .ring _ _ => s) s

/-- An event to the domains listed, TD0's copy also to the sessions off the rings, without the RING_EVENTs it causes. -/
def State.event0 (s : State) (ds : List Nat) (opcode dom : Nat) (fields : List Nat) : State × List (Nat × Nat) :=
  let r := ds.eraseDups.foldl (fun (a : State × List (Nat × Nat)) d =>
    let x := a.1.eventDom d opcode dom fields
    (x.1, a.2 ++ x.2)) (s, [])
  (if ds.contains 0 then r.1.eventSide false opcode dom fields else r.1, r.2)

/-- Ledger time as an event's field. -/
def State.ledgerNs (s : State) : Nat := nsOf s.now

/-- RING_EVENT for a completion ring that filled, given how such an event is itself sent (R272). -/
def State.ringEventBy (send : State → List Nat → Nat → Nat → List Nat → State) (s : State) (k cause : Nat) : State :=
  let f := fnOfKey k
  send s [s.fnDom f, 0] 0x0950 (s.fnDom f) [fnCode f, k % 1024, cause, s.ledgerNs]

def State.event1 (s : State) (ds : List Nat) (opcode dom : Nat) (fields : List Nat) : State :=
  let r := s.event0 ds opcode dom fields
  r.2.foldl (fun s kc => State.ringEventBy (fun s a b c d => (s.event0 a b c d).1) s kc.1 kc.2) r.1

/-- An event sent by the block (R412): to the event sessions of the domains listed and, when TD0 is among them, to the
MP and Windlass sessions with EVENTS. A completion ring that fills on the way raises its own RING_EVENT. -/
def State.event (s : State) (ds : List Nat) (opcode dom : Nat) (fields : List Nat) : State :=
  let r := s.event0 ds opcode dom fields
  r.2.foldl (fun s kc => State.ringEventBy State.event1 s kc.1 kc.2) r.1

/-- A completion handed to its ring, with the RING_EVENT a full ring or sump raises (R266). -/
def State.post (s : State) (k : Nat) (c : Comp) : State :=
  let r := s.postCore k c
  r.2.foldl (fun s x => State.ringEventBy State.event1 s k x) r.1

/-! Requests and replies. -/

/-- The refusal of a command that names a port absent on the order code (R3), where its group lists no code of its own for one: that of the port
commands (R136). (DESIGN CHOICE, unsafe: notes/assumptions/174.md) -/
def absentPort : Nat := 0x02000041

/-- The opcodes only TD0 may issue (R422 step 7, from each group's own rule). (DEDUCED, unsafe: notes/assumptions/134.md) -/
def td0Only (op : Nat) : Bool :=
  match op / 256 with
  | 0x01 => true
  | 0x02 => op != 0x0201
  | 0x0C => op != 0x0C01
  | 0x0E => op != 0x0E06 && op != 0x0E07
  | _ => [0x0007, 0x0302, 0x0303, 0x0401, 0x0407, 0x0408, 0x0409, 0x0501, 0x0502, 0x0506, 0x0508, 0x0520, 0x0521, 0x052B,
          0x052C, 0x0606, 0x0607, 0x0608, 0x0609, 0x0622, 0x0724, 0x0744, 0x0801, 0x0803, 0x0821, 0x0822, 0x0823, 0x0824,
          0x0825, 0x0906, 0x0907, 0x0908, 0x0940, 0x0960, 0x0A0A, 0x0A0C, 0x0B20, 0x0D02].contains op

/-- The opcodes the block accepts in Lockdown (R422 step 8, from each group's list). (DEDUCED, unsafe: notes/assumptions/134.md) -/
def lockdownOk (op : Nat) : Bool :=
  op / 256 == 0x00 || op / 256 == 0x01 ||
  [0x0201, 0x0301, 0x0304, 0x0305, 0x0403, 0x0507, 0x052A, 0x060B, 0x0621, 0x0706, 0x0743, 0x0802, 0x0723, 0x0901, 0x0961,
   0x0A05, 0x0A0D, 0x0A43, 0x0B04, 0x0C01, 0x0D01, 0x0D02, 0x0E06, 0x0820, 0x0822].contains op

/-- The opcodes TD0 may issue for another domain's resource under the isolation lock (R397): quotas and shares, status and
query commands, group 0x01, FN_RESET, CORE_STOP. (DEDUCED, unsafe: notes/assumptions/14.md; DEDUCED, unsafe: notes/assumptions/134.md) -/
def isoExempt (op : Nat) : Bool :=
  op / 256 == 0x01 || td0Only op && op != 0x0825 && op != 0x0521 ||
  [0x0301, 0x0304, 0x0305, 0x0403, 0x0507, 0x052A, 0x060B, 0x0621, 0x0706, 0x0743, 0x0802, 0x0723, 0x0901, 0x0961, 0x0A05,
   0x0A09, 0x0A0D, 0x0A43, 0x0B04, 0x0820, 0x0D01, 0x0E06, 0x0941, 0x0703].contains op

/-- Whose permission a command needs (R422 step 7): nobody's beyond the group's rule, the domain that owns the resource named,
or that of a port, which for a shared port is TD0's alone. (DEDUCED, unsafe: notes/assumptions/14.md) -/
inductive Perm where
  | any
  | owner (d : Nat)
  | port (p : Nat)
  | nobody
  deriving DecidableEq, Repr

/-- The failing status of R422 step 7, or 0. -/
def State.permFail (s : State) (op dom : Nat) : Perm → Nat
  | .nobody => 0x0400FF01
  | .any => if td0Only op ∧ dom ≠ 0 then 0x0400FF01 else 0
  | .owner d =>
    if td0Only op ∧ dom ≠ 0 then 0x0400FF01
    else if dom = d then 0
    else if dom ≠ 0 then 0x0400FF01
    else if s.isoLock ∧ !isoExempt op then 0x0400FF02 else 0
  | .port p =>
    let d := if s.portShared p then 0 else s.portDom p
    if dom = d then 0
    else if dom ≠ 0 then 0x0400FF01
    else if s.isoLock ∧ !isoExempt op then 0x0400FF02 else 0

/-- The opcodes not refused in Drain (R39 step 1). -/
def drainOk (op : Nat) : Bool := op / 256 = 0 || op / 256 = 1 || op = 0x0941

/-- The first minor of major 2 that has an opcode, and whether major 1 has it (R421). -/
def sinceMinor (op : Nat) : Nat :=
  if 0x0620 ≤ op && op ≤ 0x0630 then 1
  else if 0x0720 ≤ op && op ≤ 0x0730 then 2
  else if op = 0x0A0B || op = 0x0A0C then 3 else 0
def inMajor1 (op : Nat) : Bool := op / 256 ≠ 0x0E && sinceMinor op = 0

/-- What a command's meaning answers: a status and reply fields at once, or a reply that comes later. -/
inductive Answer where
  | reply (status : Nat) (fields : List Nat)
  | later
  deriving DecidableEq, Repr

/-- A refusal: the status, and the state as it was (R423). -/
def State.deny (s : State) (status : Nat) : Answer × State := (.reply status [], s)
/-- Success with reply fields. -/
def State.ok (s : State) (fields : List Nat) : Answer × State := (.reply 0 fields, s)

/-! Buffers that a command names (R416). -/

/-- Whether an address parameter breaks R416: a staging address on a ring session, or one with bits [62:20] set. -/
def badAddr (p : Path) (a : Nat) : Bool :=
  a ≥ 2 ^ 63 && (match p with | .ring _ _ => true | _ => a % 2 ^ 63 ≥ 2 ^ 20)

/-- `n` bytes a command reads: from its session's staging area, or those `host` gives as what host memory holds.
(DESIGN CHOICE, unsafe: notes/assumptions/131.md) -/
def State.cmdRead (s : State) (p : Path) (a n : Nat) (host : Bytes) : Bytes :=
  if a ≥ 2 ^ 63 then
    match s.session? p with
    | some x => mreads s.ram (stageAt x.number a) n
    | none => zeros n
  else slice host 0 n

/-- Bytes a command writes: to its session's staging area, or to host memory by the function of its path. -/
def State.cmdWrite (s : State) (p : Path) (a : Nat) (b : Bytes) : State :=
  if a ≥ 2 ^ 63 then
    match s.session? p with
    | some x => s.ramWrite (stageAt x.number a) b
    | none => s
  else
    let f := match p with
      | .ring fn _ => fn
      | _ => 0
    s.hostWr f (.hostWrite f a b)

/-- The checks of R422 steps 3 to 8 on a request whose opcode takes `n` fields, some field of which has bits above its
width when `wide` is true, and which needs the permission `perm`. Zero when all pass.
(DEDUCED, unsafe: notes/assumptions/14.md; DESIGN CHOICE, unsafe: notes/assumptions/131.md) -/
def State.checks (s : State) (x : Session) (q : TReq) (n : Nat) (wide : Bool) (perm : Perm) : Nat :=
  if q.len ≠ q.carried ∨ q.flags ≠ 0 ∨ q.status ≠ 0 then 0x0300FF01
  else if q.ver ≠ x.ver then 0x0500FF04
  else if x.ver / 16 = 2 ∧ q.dom ≠ x.dom then 0x0400FF03
  else if x.ver / 16 = 1 ∧ !inMajor1 q.opcode then 0x0500FF03
  else if x.ver / 16 = 2 ∧ x.ver % 16 < sinceMinor q.opcode then 0x0500FF03
  else if q.len ≠ 16 + 8 * n then 0x0300FF03
  else if wide then 0x0300FF04
  else if s.permFail q.opcode x.dom perm ≠ 0 then s.permFail q.opcode x.dom perm
  else if s.glb.mode = .drain ∧ !drainOk q.opcode then 0x0200FF01
  else if s.glb.mode = .lockdown ∧ !lockdownOk q.opcode then 0x0200FF01
  else 0

/-- The descriptor at index `i` of ring `k` marked ended with a status, and the ring's leading ended ones taken off:
the consumer index that follows (R254). -/
def Ring.finish (r : Ring) (i st : Nat) : Ring :=
  { r with fetched := r.fetched.map (fun d => if d.idx == i && !d.ended then { d with ended := true, dstatus := st } else d) }

/-- The leading ended descriptors of a ring. -/
def endedPrefix : List Desc → Nat
  | [] => 0
  | d :: r => if d.ended then endedPrefix r + 1 else 0

/-- The reply of a request written on its session's path (R411, R413, R467); `dup` marks a repeated one. -/
def State.sendReply (s : State) (x : Session) (q : TReq) (gen status dup began : Nat) (fields : List Nat) : State :=
  let full := 16 + 8 * fields.length
  match x.path with
  | .mp mac => s.mpSend mac (tosenPacket x.ver (1 + 4 * dup) q.opcode q.seq gen x.dom status fields)
  | .windlass => s.windlassQueue (tosenPacket x.ver (1 + 4 * dup) q.opcode q.seq gen x.dom status fields)
  | .ring fn rid =>
    let tr := if full > q.cap then 1 else 0
    let pk := (tosenPacket x.ver (1 + 4 * dup + 8 * tr) q.opcode q.seq gen x.dom status fields).take q.cap
    let s := s.hostWr fn (.hostWrite fn q.buf pk)
    let k := rkey fn rid
    let r := (s.ring k).finish q.idx 0
    let n := endedPrefix r.fetched
    let ci := (r.fetched.take n).getLast?.map (fun d => (k, (d.idx + 1) % 2 ^ 32))
    let s := s.setRing k { r with fetched := r.fetched.drop n }
    let c := le q.tag 4 ++ le 2 1 ++ le (tr + 2 * dup) 1 ++ le full 2 ++ le q.seq 4 ++ le gen 1 ++ le x.dom 1
      ++ le q.opcode 2 ++ le status 4 ++ le (nsOf began) 8 ++ le 0 4
    s.post (s.replyRing fn rid) { data := c, src := ci }

/-- The session's request answered: the reply goes out, is kept for repetition, and the session is free for its next one. -/
def State.reply1 (s : State) (x : Session) (q : TReq) (status began : Nat) (fields : List Nat) : State :=
  let s := s.sendReply x q x.gen status 0 began fields
  s.onSession x.path (fun y => { y with
    running := none, cache := ({ seq := q.seq, began := began, opcode := q.opcode, status := status, fields := fields } :: y.cache).take 16 })

/-- The opcodes a request may name: those of the groups of R425 that are defined and not sent by the device (R422 step 5). -/
def opDefined (op : Nat) : Bool :=
  [(0x0001, 0x0007), (0x0101, 0x0106), (0x0201, 0x0209), (0x0301, 0x0305), (0x0401, 0x0409), (0x0501, 0x0508), (0x0520, 0x052C),
   (0x0601, 0x060B), (0x0620, 0x0622), (0x0701, 0x0706), (0x0720, 0x0724), (0x0740, 0x0744), (0x0801, 0x0805), (0x0820, 0x0825),
   (0x0901, 0x0908), (0x0940, 0x0941), (0x0960, 0x0961), (0x0A01, 0x0A0D), (0x0A40, 0x0A43), (0x0B01, 0x0B04), (0x0B10, 0x0B13),
   (0x0B20, 0x0B20), (0x0C01, 0x0C08), (0x0D01, 0x0D02), (0x0E01, 0x0E07)].any (fun r => r.1 ≤ op && op ≤ r.2)

/-- Requests at the head of a session's queue that name no opcode of a request: each is answered when its execution would begin, by
the first of steps 3 to 5 of R422 that fails. (DEDUCED, unsafe: notes/assumptions/130.md) -/
def State.skipUndefined (s : State) (p : Path) : Nat → State
  | 0 => s
  | n + 1 =>
    match s.session? p with
    | none => s
    | some x =>
      match x.running, x.queue with
      | none, q :: rest =>
        if opDefined q.opcode then s
        else
          let x0 := { x with queue := rest }
          let st := if q.len ≠ q.carried ∨ q.flags ≠ 0 ∨ q.status ≠ 0 then 0x0300FF01
            else if q.ver ≠ x.ver then 0x0500FF04
            else if x.ver / 16 = 2 ∧ q.dom ≠ x.dom then 0x0400FF03 else 0x0300FF02
          ((s.onSession p (fun y => { y with queue := rest })).reply1 x0 q st 0 []).skipUndefined p n
      | _, _ => s

/-- A request answered, after which the session goes on to the next that has a meaning. -/
def State.answer (s : State) (x : Session) (q : TReq) (status began : Nat) (fields : List Nat) : State :=
  (s.reply1 x q status began fields).skipUndefined x.path (x.queue.length + 1)

/-- Whether a path's replies find room: a ring whose sump is full starts no request (R266 step 3).
(DEDUCED, unsafe: notes/assumptions/84.md; DEDUCED, unsafe: notes/assumptions/130.md) -/
def State.replyRoom (s : State) (p : Path) : Bool := match p with
  | .ring fn rid => !(s.ring (s.replyRing fn rid)).sumpFull
  | _ => true

/-- A command of a Tosen group executed (R419, R422): the request at the head of the session's queue, which must name
this opcode, with no other of the session executing. Where there is none, the command is not due and nothing changes.
`body` is the opcode's own part: its class 0x03, 0x02 and 0x01 checks in that order (R422 step 9) and its effect; it is
given the issuing domain. (DESIGN CHOICE, unsafe: notes/assumptions/4.md; DEDUCED, unsafe: notes/assumptions/130.md) -/
def State.tosenRun (s : State) (p : Path) (opcode n : Nat) (wide : Bool) (perm : Perm)
    (body : State → Nat → Answer × State) : State :=
  if !s.firmware then s else
  match s.session? p with
  | none => s
  | some x =>
    match x.running, x.queue with
    | none, q :: rest =>
      if q.opcode ≠ opcode || !s.replyRoom p then s
      else
        let x0 := { x with queue := rest }
        let st := s.checks x q n wide perm
        if st ≠ 0 then (s.onSession p (fun y => { y with queue := rest })).answer x0 q st 0 []
        else
          match body (s.onSession p (fun y => { y with queue := rest, running := some q, began := s.now })) x.dom with
          | (.later, s') => s'
          | (.reply st fs, s') =>
            match s'.session? p with
            | none => s'
            | some y => s'.answer y q st (if st = 0 then s.now else 0) fs
    | _, _ => s

/-- The reply that a command left for later (R419): sent when the session still has it executing. (DEDUCED, unsafe: notes/assumptions/130.md) -/
def State.tosenLater (s : State) (p : Path) (opcode status : Nat) (fields : List Nat) : State :=
  match s.session? p with
  | none => s
  | some x =>
    match x.running with
    | none => s
    | some q =>
      if q.opcode ≠ opcode then s
      else s.answer x q status x.began fields

end Sys2Proof.Machine
end

