-- ==== Sys2Proof/Machine/DebugOps.lean ====
section
/-! DEFINITION. Debug halts and steps of threads (R469, R470, R477), which every command can end in. -/
namespace Sys2Proof.Machine

/-- A counter of a core (R234), higher by one. -/
def State.coreCount1 (s : State) (c i : Nat) : State := s.setCore c { s.core c with counters := bump (s.core c).counters i }
/-- The domain a core works for; overseers are TD0's (R233). -/
def State.cdom (s : State) (c : Nat) : Nat := (s.coreDom c).getD 0

/-! Debug halts (R469, R470, R477). -/

/-- The key of a thread. -/
def tkey (c t : Nat) : Nat := c * 8 + t
/-- A DBG counter (R476), higher by one. -/
def State.dbgCount (s : State) (i : Nat) : State := { s with dbg.counters := bump s.dbg.counters i }

/-- Whether a right of the Windlass port is open for a domain (R396, R468): 0 observe, 1 halt and step, 2 write, 3 cistern access. -/
def State.debugOpen (s : State) (d right : Nat) : Bool := !s.prov || !(mapField s.fuse.map (0x288 + d * 8) 8 61 58).testBit right

/-- DEBUG_EVENT causes 3 to 6 (R477): at most once per core and cause in a 2^20 ns grid period, with the count.
(DEDUCED, unsafe: notes/assumptions/157.md) -/
def State.debugEventFor (s : State) (d c t cause key : Nat) : State :=
  let k := key * 8 + cause
  let period := s.now / grid 20
  let o := tget s.dbg.evPeriod k (period + 1, 0)
  if o.1 = period then { s with dbg.evPeriod := tset s.dbg.evPeriod k (period, o.2 + 1) }
  else
    { s with dbg.evPeriod := tset s.dbg.evPeriod k (period, 0) }.event [d, 0] 0x0D10 d [d, c, t, cause, o.2 + 1, s.ledgerNs]
/-- The model's own reading. (DEDUCED, unsafe: notes/assumptions/157.md) -/
def State.debugEvent (s : State) (c t cause : Nat) : State := s.debugEventFor (s.cdom c) c t cause c

/-- A thread halted by the debugger with a cause of R469. (DEDUCED, unsafe: notes/assumptions/151.md; DEDUCED, unsafe: notes/assumptions/154.md) -/
def State.haltThr (s : State) (c t cause slot : Nat) : State :=
  let x := s.thr c t
  if !x.live || x.state = .halted then s
  else
    let s1 := (s.setThr c t { x with state := .halted, under := x.state }).dbgCount 4
    { s1 with dbg.halted := tset s1.dbg.halted (tkey c t) (cause, slot), dbg.steps := tdel s1.dbg.steps (tkey c t) }.debugEvent c t 3

/-- An instruction of a thread has completed: one less of a step in progress (R470). A step
during which a right was withdrawn (its count then 0) leaves the thread running (R404). (DEDUCED, unsafe: notes/assumptions/155.md) -/
def State.stepTick (s : State) (c t : Nat) : State :=
  match tget? s.dbg.steps (tkey c t) with
  | none => s
  | some (n, all) =>
    let s1 : State := { s with dbg.stepped := tupd s.dbg.stepped (tkey c t) 0 (fun x => x + 1) }
    if n > 1 then { s1 with dbg.steps := tset s1.dbg.steps (tkey c t) (n - 1, all) }
    else if all ≠ 0 then s1.haltThr c t 2 0
    else { s1 with dbg.steps := tdel s1.dbg.steps (tkey c t) }

/-- A Windlass response is sent and kept (R464, R465). (DEDUCED, unsafe: notes/assumptions/151.md) -/
def State.wlRespond (s : State) (type seq cls : Nat) (fields : List Nat) : State :=
  let s1 := if cls = 2 then s.dbgCount 3 else s
  { s1 with dbg.last := some { type := type, seq := seq, cls := cls, fields := fields } }.emit (.windlass (type + 0x80) seq cls fields)

/-- The response to a STEP that the end of its step, or a wait within it, allows (R470). (DEDUCED, unsafe: notes/assumptions/155.md) -/
def State.wlStepped (s : State) : State :=
  match s.dbg.stepWait with
  | none => s
  | some (seq, k) =>
    let x := s.thr (k / 8) (k % 8)
    let done := { s with dbg.stepWait := none }
    if (tget? s.dbg.steps k).isNone || (s.core (k / 8)).state != .running then
      { done with dbg.steps := tdel done.dbg.steps k }.wlRespond 0x12 seq 0 [tget s.dbg.stepped k 0, x.pc]
    else if x.state = .waiting then done.wlRespond 0x12 seq 1 [5]
    else s

/-- Threads whose `wfe` has completed in this command: the wait counts in their step (R470). (DEDUCED, unsafe: notes/assumptions/155.md) -/
def State.stepFlush (s : State) : State :=
  (s.dbg.steps.foldl (fun s e =>
    let x := s.thr (e.1 / 8) (e.1 % 8)
    if x.woke then (s.setThr (e.1 / 8) (e.1 % 8) { x with woke := false }).stepTick (e.1 / 8) (e.1 % 8) else s) s).wlStepped

end Sys2Proof.Machine
end

