-- ==== Sys2Proof/Machine/Crypto.lean ====
section
/-! DEFINITION. The algorithms the signing engine, the boot ROM and the security engines use by name: HMAC and HKDF with SHA-384 (RFC 2104,
RFC 5869), ECDSA on P-384 with the key and nonce generation of FIPS 186-5 and RFC 6979 (R95, R433), the DER encodings of R94 and R96, and
AES-256-GCM (R376, R377). -/
namespace Sys2Proof.Machine

/-! HMAC and HKDF. -/

/-- HMAC-SHA-384 (RFC 2104): blocks of 128 bytes. -/
def hmac384 (key m : Bytes) : Bytes :=
  let k := slice (if key.length > 128 then sha384 key else key) 0 128
  sha384 (k.map (· ^^^ 0x5C#8) ++ sha384 (k.map (· ^^^ 0x36#8) ++ m))

/-- HKDF-SHA-384 of at most 96 bytes (RFC 5869): extract, then the first two blocks of expand. -/
def hkdf384 (salt ikm info : Bytes) (n : Nat) : Bytes :=
  let prk := hmac384 salt ikm
  let t1 := hmac384 prk (info ++ [1#8])
  (t1 ++ hmac384 prk (t1 ++ info ++ [2#8])).take n

/-! The curve P-384 (FIPS 186-5, SP 800-186). -/

/-- The field prime and the order of the base point. -/
def p384P : Nat := 2 ^ 384 - 2 ^ 128 - 2 ^ 96 + 2 ^ 32 - 1
def p384N : Nat := 0xFFFFFFFFFFFFFFFFFFFFFFFFFFFFFFFFFFFFFFFFFFFFFFFFC7634D81F4372DDF581A0DB248B0A77AECEC196ACCC52973
/-- The coefficient b of y² = x³ − 3x + b. -/
def p384B : Nat := 0xB3312FA7E23EE7E4988E056BE3F82D19181D9C6EFE8141120314088F5013875AC656398D8A2ED19D2A85C8EDD3EC2AEF

/-- Powers modulo `m`: exponent bits from bit `k - 1` down. -/
def powMod (m b e : Nat) : Nat → Nat
  | 0 => 1
  | k + 1 =>
    let r := powMod m b (e / 2) k
    if e = 0 then 1 else if e % 2 = 1 then r * r % m * b % m else r * r % m
/-- The inverse modulo a prime of 384 bits. -/
def invMod (m x : Nat) : Nat := powMod m (x % m) (m - 2) 384

/-- A point in Jacobian coordinates: x = X / Z², y = Y / Z³; Z = 0 at infinity. -/
structure JPoint where
  x : Nat
  y : Nat
  z : Nat
  deriving DecidableEq, Repr

/-- The base point. -/
def p384G : JPoint :=
  { x := 0xAA87CA22BE8B05378EB1C71EF320AD746E1D3B628BA79B9859F741E082542A385502F25DBF55296C3A545E3872760AB7
    y := 0x3617DE4A96262C6F5D9E98BF9292DC29F8F41DBD289A147CE9DA3113B5F0B8C00A60B1CE1D7E819D7A431D7C90EA0E5F, z := 1 }

/-- Differences in the field. -/
def fsub (a b : Nat) : Nat := (a + p384P - b % p384P) % p384P

/-- A point doubled. -/
def JPoint.dbl (a : JPoint) : JPoint :=
  let p := p384P
  let d := a.z * a.z % p
  let g := a.y * a.y % p
  let b := a.x * g % p
  let al := 3 * (fsub a.x d * ((a.x + d) % p) % p) % p
  let x := fsub (al * al % p) (8 * b)
  { x := x, y := fsub (al * fsub (4 * b % p) x % p) (8 * (g * g % p)), z := 2 * a.y * a.z % p }

/-- Two points added. -/
def JPoint.add (a b : JPoint) : JPoint :=
  let p := p384P
  if a.z = 0 then b
  else if b.z = 0 then a
  else
    let za := a.z * a.z % p
    let zb := b.z * b.z % p
    let u1 := a.x * zb % p
    let u2 := b.x * za % p
    let s1 := a.y * b.z % p * zb % p
    let s2 := b.y * a.z % p * za % p
    if u1 = u2 then (if s1 = s2 then a.dbl else { x := 1, y := 1, z := 0 })
    else
      let h := fsub u2 u1
      let r := fsub s2 s1
      let hh := h * h % p
      let h3 := hh * h % p
      let v := u1 * hh % p
      let x := fsub (fsub (r * r % p) h3) (2 * v)
      { x := x, y := fsub (r * fsub v x % p) (s1 * h3 % p), z := h * a.z % p * b.z % p }

/-- A multiple of a point: scalar bits from bit `k - 1` down. -/
def JPoint.mul (a : JPoint) (e : Nat) : Nat → JPoint
  | 0 => { x := 1, y := 1, z := 0 }
  | k + 1 =>
    let r := (a.mul (e / 2) k).dbl
    if e % 2 = 1 then r.add a else r

/-- A point's affine coordinates. -/
def JPoint.affine (a : JPoint) : Nat × Nat :=
  let i := invMod p384P a.z
  let i2 := i * i % p384P
  (a.x * i2 % p384P, a.y * i2 % p384P * i % p384P)

/-! ECDSA. -/

/-- Key pair generation with 448 random bits (FIPS 186-5, A.2.1): the private key. -/
def ecdsaKey (random : Bytes) : Nat := ofBe (random.take 56) % (p384N - 1) + 1

/-- The nonces RFC 6979 draws for a key and a digest of 48 bytes, from its HMAC state: the first that is in range and good. -/
def rfc6979 (good : Nat → Bool) (k v : Bytes) : Nat → Nat
  | 0 => 1
  | n + 1 =>
    let v1 := hmac384 k v
    let x := ofBe v1
    if 1 ≤ x && x < p384N && good x then x
    else
      let k1 := hmac384 k (v1 ++ [0#8])
      rfc6979 good k1 (hmac384 k1 v1) n

/-- A signature with nonce `k`: r and s. -/
def ecdsaRS (d z k : Nat) : Nat × Nat :=
  let r := ((p384G.mul k 384).affine).1 % p384N
  (r, invMod p384N k * ((z + r * d) % p384N) % p384N)

/-- ECDSA over P-384 with SHA-384 and the nonces of RFC 6979: r ‖ s, 48 bytes each, big-endian (R94, R95). -/
def ecdsaSign (d : Nat) (m : Bytes) : Bytes :=
  let h := sha384 m
  let z := ofBe h
  let seed := be d 48 ++ be (z % p384N) 48
  let v0 := List.replicate 48 1#8
  let k1 := hmac384 (zeros 48) (v0 ++ [0#8] ++ seed)
  let v1 := hmac384 k1 v0
  let k2 := hmac384 k1 (v1 ++ [1#8] ++ seed)
  let good := fun k => (ecdsaRS d z k).1 != 0 && (ecdsaRS d z k).2 != 0
  let x := ecdsaRS d z (rfc6979 good k2 (hmac384 k2 v1) 64)
  be x.1 48 ++ be x.2 48

/-! DER. -/

/-- A DER length. -/
def derLen (n : Nat) : Bytes := if n < 128 then le n 1 else if n < 256 then [0x81#8] ++ le n 1 else [0x82#8] ++ be n 2
/-- A DER element. -/
def der (tag : Nat) (body : Bytes) : Bytes := le tag 1 ++ derLen body.length ++ body
/-- A non-negative INTEGER held in big-endian bytes: without leading zeros, and with one where the first bit is set. -/
def derInt (b : Bytes) : Bytes :=
  let x := b.dropWhile (fun y => y == 0#8)
  der 2 (match x with
    | [] => [0#8]
    | y :: _ => if y.msb then 0#8 :: x else x)

/-- The AlgorithmIdentifier of a P-384 key, and of ecdsa-with-SHA384. -/
def oidKey : Bytes := be 0x06072A8648CE3D020106052B81040022 16
def oidSign : Bytes := der 0x30 (be 0x06082A8648CE3D040303 10)
/-- The SubjectPublicKeyInfo of a P-384 key (RFC 5480): its point uncompressed. -/
def spki (x y : Nat) : Bytes := der 0x30 (der 0x30 oidKey ++ der 3 ([0#8, 4#8] ++ be x 48 ++ be y 48))
def spkiOf (d : Nat) : Bytes :=
  let q := (p384G.mul d 384).affine
  spki q.1 q.2

/-- Whether a signature of 96 bytes verifies over a message under a DER SubjectPublicKeyInfo (FIPS 186-5, 6.4.2; R433).
(DESIGN CHOICE, unsafe: notes/assumptions/139.md) -/
def ecdsaVerify (pub m sig : Bytes) : Bool :=
  let x := ofBe (slice pub 24 48)
  let y := ofBe (slice pub 72 48)
  let r := ofBe (slice sig 0 48)
  let s := ofBe (slice sig 48 48)
  let p := p384P
  pub == spki x y && x < p && y < p && y * y % p == (x * x % p * x + (p - 3) * x + p384B) % p
    && 1 ≤ r && r < p384N && 1 ≤ s && s < p384N
    && (let w := invMod p384N s
        let q := (p384G.mul (ofBe (sha384 m) * w % p384N) 384).add (({ x := x, y := y, z := 1 } : JPoint).mul (r * w % p384N) 384)
        q.z != 0 && q.affine.1 % p384N == r)

/-! AES-256-GCM (FIPS 197, SP 800-38D), over numbers: a block's first byte is the most significant. -/

/-- The S-box, entry `i` in byte `i`. -/
def aesS : Nat :=
  0x16BB54B00F2D99416842E6BF0D89A18CDF2855CEE9871E9B948ED9691198F8E19E1DC186B95735610EF6034866B53E708A8BBD4B1F74DDE8C6B4A61C2E2578BA * 2 ^ 1536 +
  0x08AE7A65EAF4566CA94ED58D6D37C8E779E4959162ACD3C25C2406490A3A32E0DB0B5EDE14B8EE4688902A22DC4F816073195D643D7EA7C41744975FEC130CCD * 2 ^ 1024 +
  0xD2F3FF1021DAB6BCF5389D928F40A351A89F3C507F02F94585334D43FBAAEFD0CF584C4A39BECB6A5BB1FC20ED00D153842FE329B3D63B52A05A6E1B1A2C8309 * 2 ^ 512 +
  0x75B227EBE28012079A059618C323C7041531D871F1E5A534CCF73F362693FDB7C072A49CAFA2D4ADF04759FA7DC982CA76ABD7FE2B670130C56F6BF27B777C63 * 2 ^ 0

def aesSub (x : Nat) : Nat := aesS / 2 ^ (8 * x) % 256
/-- Multiplication by x in the field of AES. -/
def xtime (x : Nat) : Nat := if x < 128 then 2 * x else (2 * x) % 256 ^^^ 0x1B

/-- A word of the key schedule from the word before it and the one eight before (FIPS 197, 5.2). -/
def aesWord (i rcon old w : Nat) : Nat :=
  let sub := fun w => aesSub (w / 2 ^ 24) * 2 ^ 24 + aesSub (w / 2 ^ 16 % 256) * 2 ^ 16 + aesSub (w / 2 ^ 8 % 256) * 2 ^ 8 + aesSub (w % 256)
  let t := if i % 8 = 0 then sub (w * 256 % 2 ^ 32 + w / 2 ^ 24) ^^^ (rcon * 2 ^ 24) else if i % 8 = 4 then sub w else w
  old ^^^ t
/-- The sixty words of the key schedule, the newest first. -/
def aesKeys (l : List Nat) (i rcon : Nat) : Nat → List Nat
  | 0 => l
  | n + 1 => aesKeys (aesWord i rcon (l.getD 7 0) (l.headD 0) :: l) (i + 1) (if i % 8 = 0 then xtime rcon else rcon) n
/-- The fifteen round keys of a 256-bit key. -/
def aesRounds (key : Nat) : List (List Nat) :=
  let w := (aesKeys ((List.range 8).map (fun i => key / 2 ^ (32 * i) % 2 ^ 32)) 8 1 52).reverse
  (List.range 15).map (fun r => (List.range 16).map (fun i => (w.getD (4 * r + i / 4) 0) / 2 ^ (8 * (3 - i % 4)) % 256))

/-- One column of MixColumns. -/
def aesMix (a b c d : Nat) : List Nat :=
  let m := fun x y z w => xtime x ^^^ (xtime y ^^^ y) ^^^ z ^^^ w
  [m a b c d, m b c d a, m c d a b, m d a b c]
/-- A round after the first key: SubBytes and ShiftRows, MixColumns but in the last round, the round key. -/
def aesRound (last : Bool) (s k : List Nat) : List Nat :=
  let t := (List.range 16).map (fun i => aesSub (s.getD ((i + 4 * (i % 4)) % 16) 0))
  let u := if last then t else (List.range 4).flatMap (fun c => aesMix (t.getD (4 * c) 0) (t.getD (4 * c + 1) 0) (t.getD (4 * c + 2) 0) (t.getD (4 * c + 3) 0))
  List.zipWith (fun x y => x ^^^ y) u k
/-- A block enciphered. -/
def aesBlock (keys : List (List Nat)) (b : Nat) : Nat :=
  let s0 := List.zipWith (fun x y => x ^^^ y) ((List.range 16).map (fun i => b / 2 ^ (8 * (15 - i)) % 256)) (keys.getD 0 [])
  let s1 := ((keys.drop 1).take 13).foldl (aesRound false) s0
  (aesRound true s1 (keys.getD 14 [])).foldl (fun a x => a * 256 + x) 0

/-- The product of GHASH: `x` by `v`, bits of `x` from the most significant. -/
def gmul (x v z : Nat) : Nat → Nat
  | 0 => z
  | n + 1 => gmul x (if v % 2 = 1 then v / 2 ^^^ (0xE1 * 2 ^ 120) else v / 2) (if x.testBit n then z ^^^ v else z) n
/-- Bytes in blocks of 16, the last padded with zeros. -/
def blocks16 : Nat → Bytes → List Nat
  | 0, _ => []
  | n + 1, b => if b.isEmpty then [] else ofBe (slice b 0 16) :: blocks16 n (b.drop 16)
def ghash (h : Nat) (l : List Nat) : Nat := l.foldl (fun y b => gmul (y ^^^ b) h 0 128) 0

/-- The bytes of a text under the key stream from a counter block on. -/
def gctr (keys : List (List Nat)) (c : Nat) (b : Bytes) : Bytes :=
  let l := blocks16 (b.length / 16 + 1) b
  ((l.zipIdx.flatMap (fun x => be (x.1 ^^^ aesBlock keys (c / 2 ^ 32 * 2 ^ 32 + (c + x.2) % 2 ^ 32)) 16))).take b.length

/-- The check value of a ciphertext with its associated data. -/
def gcmTag (keys : List (List Nat)) (nonce : Nat) (aad ct : Bytes) : Bytes :=
  let h := aesBlock keys 0
  let s := ghash h (blocks16 (aad.length / 16 + 1) aad ++ blocks16 (ct.length / 16 + 1) ct ++ [8 * aad.length * 2 ^ 64 + 8 * ct.length])
  be (s ^^^ aesBlock keys (nonce % 2 ^ 96 * 2 ^ 32 + 1)) 16

/-- AES-256-GCM: key and 96-bit nonce as numbers, associated data, plaintext; the ciphertext and its check value of 16 bytes.
(DESIGN CHOICE, unsafe: notes/assumptions/120.md) -/
def gcmSeal (key nonce : Nat) (aad m : Bytes) : Bytes :=
  let keys := aesRounds key
  let ct := gctr keys (nonce % 2 ^ 96 * 2 ^ 32 + 2) m
  ct ++ gcmTag keys nonce aad ct
/-- The plaintext of a ciphertext with its check value, or none where that is wrong. (DESIGN CHOICE, unsafe: notes/assumptions/120.md) -/
def gcmOpen (key nonce : Nat) (aad c : Bytes) : Option Bytes :=
  let keys := aesRounds key
  let ct := c.take (c.length - 16)
  if c.length < 16 || gcmTag keys nonce aad ct != c.drop (c.length - 16) then none
  else some (gctr keys (nonce % 2 ^ 96 * 2 ^ 32 + 2) ct)

end Sys2Proof.Machine
end

