-- ==== Sys2Proof/Machine/LedgerOps.lean ====
section
/-! DEFINITION. What every unit asks of the Pethiale Ledger (R81-R104): leaves, records, epochs, checkpoints. -/
namespace Sys2Proof.Machine

def State.chain (s : State) (d : Nat) : Chain := tget s.led.chains d {}
def State.setChain (s : State) (d : Nat) (c : Chain) : State := { s with led.chains := tset s.led.chains d c }

/-- A domain's itemisation quota in force: the value set, or the share each enabled domain has at the open (R89).
(DEDUCED, unsafe: notes/assumptions/37.md) -/
def State.itemQuota (s : State) (d : Nat) : Nat := (s.chain d).quota.getD (409 / s.domCount)

/-- Bytes of a chain's cistern not holding unexported slots or records of epochs not yet in the stream (R102).
(DEDUCED, unsafe: notes/assumptions/36.md) -/
def Chain.freeBytes (c : Chain) : Nat :=
  c.sizeKib * 1024 - 32 * (c.stream.length + c.epoch.records.length + (c.closing.map (fun e => e.1.records.length)).sum)

/-- The leaf of an event (R84). -/
def leaf (t q portdir len : Nat) (head : Bytes) : Digest :=
  sha256 ([0x00#8] ++ stampBytes t q ++ le portdir 1 ++ le len 2 ++ head.take 128)

/-- An event put among those of its port: in ascending order of stamp, a receive event before a transmit event (R85). -/
def putLeaf : List (Nat × Nat × Digest) → Nat × Nat × Digest → List (Nat × Nat × Digest)
  | [], x => [x]
  | a :: r, x => if x.1 < a.1 || (x.1 == a.1 && x.2.1 < a.2.1) then x :: a :: r else a :: putLeaf r x

/-- The accumulator A of a port (R84). -/
def portAcc (l : List (Nat × Nat × Digest)) : Digest := l.foldl (fun a x => sha256 ([0x01#8] ++ a ++ x.2.2)) (zeros 32)

/-- An event entered in its epoch (R84, R85). -/
def Epoch.feed (e : Epoch) (p stamp dir : Nat) (l : Digest) : Epoch :=
  { e with ports := tupd e.ports p [] (fun x => putLeaf x (stamp, dir, l)), mask := setBit e.mask p }

/-- A record placed in an epoch (R84, R91): its EPOCH_SEQ is its place; `keep` tells whether the cistern retains it. -/
def Epoch.record (e : Epoch) (mk : Nat → Bytes) (keep : Bool) : Epoch :=
  let r := slice (mk e.count) 0 32
  { e with acc := sha256 ([0x06#8] ++ e.acc ++ r), count := e.count + 1, records := if keep then e.records ++ [r] else e.records }

/-- Whether an event whose SFD passed at elapsed instant `at` belongs to the chain's open epoch. -/
def Chain.isCurrent (c : Chain) (t : Nat) : Bool := c.isOpen && c.epoch.openedAt ≤ t

/-- The chain with the epoch that holds elapsed instant `t` changed by `f`: the open one, or the closing one that contains it
(R85: a feed stamped before g enters the epoch ending at g). -/
def Chain.atEpoch (c : Chain) (t : Nat) (f : Epoch → Epoch) : Chain :=
  if c.isCurrent t then { c with epoch := f c.epoch }
  else { c with closing := c.closing.map (fun x => if x.1.openedAt ≤ t && t < x.1.closedAt then (f x.1, x.2) else x) }

/-- The count at elapsed instant `t` on the timeline then in force, among those that steps have ended, newest first, and the present one,
which gives `v` there. (DEDUCED, safe: notes/assumptions/33.md) -/
def lineAt : List (Nat × Nat) → Nat → Nat → Nat
  | [], _, v => v
  | (e, g) :: r, t, v => if t < e then lineAt r t (g - (e - t)) else v

/-- The device time an event's SFD is stamped with, given its elapsed instant: the value the counter held then (R73, R74).
(DEDUCED, safe: notes/assumptions/33.md) -/
def State.stampAt (s : State) (t : Nat) : Nat := lineAt s.tb.lines t (s.now - (s.elapsed - t))

/-- Whether a feed at elapsed instant `t` finds an epoch of an open chain. (DESIGN CHOICE, unsafe: notes/assumptions/34.md) -/
def Chain.takes (c : Chain) (t : Nat) : Bool :=
  c.isCurrent t || c.closing.any (fun x => x.1.openedAt ≤ t && t < x.1.closedAt)

/-- A special record's bytes (R91). -/
def specialBytes (t q sub : Nat) (imm : Bool) (args : Bytes) (seq : Nat) : Bytes :=
  stampBytes t q ++ le 2 1 ++ le seq 2 ++ le sub 1 ++ le (b2n imm) 1 ++ slice args 0 16

/-- A special record written into one chain's current epoch (R91), where the chain is open. -/
def Chain.special (c : Chain) (t q sub : Nat) (imm final : Bool) (args : Bytes) : Chain :=
  if !c.isOpen then c
  else
    let keep := c.freeBytes ≥ 65536
    let e := c.epoch.record (specialBytes t q sub imm args) keep
    { c with epoch := { e with specials := e.specials + 1, immediate := e.immediate || imm, final := e.final || final } }

/-- A special record written into every open chain (R62, R91). -/
def State.specials (s : State) (sub : Nat) (imm final : Bool) (args : Bytes) : State :=
  { s with led.chains := tmap s.led.chains (fun c => c.special s.now s.quality sub imm final args) }

/-- A special record written into one domain's chain. -/
def State.special1 (s : State) (d sub : Nat) (imm final : Bool) (args : Bytes) : State :=
  s.setChain d ((s.chain d).special s.now s.quality sub imm final args)

/-- LEDGER_EVENT to TD0 and the domain concerned (R106). -/
def State.ledgerEvent (s : State) (d cause : Nat) : State := s.event [0, d] 0x0310 d [d, cause, s.ledgerNs]

/-- The retention actions of R102 after the free space of a chain has changed. (DEDUCED, unsafe: notes/assumptions/36.md) -/
def State.retention (s : State) (d : Nat) : State :=
  let c := s.chain d
  let f := c.freeBytes
  let s1 :=
    if c.isOpen && !c.retainLow && f < 2 ^ 20 then
      ((s.setChain d { c with retainLow := true }).special1 d 0x12 false false (le 1 1 ++ le (f / 1024) 4)).ledgerEvent d 1
    else if c.isOpen && c.retainLow && f ≥ 2 ^ 21 then
      ((s.setChain d { c with retainLow := false }).special1 d 0x12 false false (le 0 1 ++ le (f / 1024) 4)).ledgerEvent d 2
    else s
  let c := s1.chain d
  if !c.sumStopped && c.isOpen && f < 65536 then (s1.setChain d { c with sumStopped := true }).ledgerEvent d 3
  else if c.sumStopped && f ≥ 65536 then s1.setChain d { c with sumStopped := false }
  else s1

/-- The function that owns a domain's export ring: the lowest-numbered PF fused to it (R103). -/
def State.ledgerFn (s : State) (d : Nat) : Nat :=
  ((List.range 8).find? (fun p => s.pfOn p && s.fnDom (p * 4096) == d)).getD 0 * 4096

/-- Whether a data port is in the port map. -/
def State.mapped (s : State) (p : Nat) : Bool := (tget s.ports.ports p {}).mode != 0

/-- PORT_MASK of an epoch summary (R93). -/
def State.epochMask (s : State) (d : Nat) (e : Epoch) : Nat :=
  ((List.range 24).filter (fun p => s.portDom p == d && (s.mapped p || (tget? e.ports p).isSome))).foldl (fun a p => a + 2 ^ p) 0

/-- What a checkpoint states of the instant of its close (R94). -/
def State.mkDue (s : State) (d kind stop next : Nat) : Due :=
  { kind := kind, stop := stop, nextStart := next, quality := s.quality, mode := s.glb.mode.code
    utc := (s.tb.utcOffset % 65536).toNat, leap := s.tb.leapState, leapNs := s.tb.leapNs
    ringVer := (s.ringFn (s.ledgerFn d)).agreed, quota := s.itemQuota d }

/-- The close of one chain's epoch at the present instant (R85, R92): a checkpoint is due with it when the epoch holds an
immediate record, a final one when the chain ends. The next epoch starts at `next`. -/
def State.closeEpoch (s : State) (d next : Nat) : State :=
  let c := s.chain d
  if !c.isOpen then s
  else
    let e := { c.epoch with closedAt := s.elapsed, stop := s.now, quality := s.quality, mask := s.epochMask d c.epoch
                            quota := some (s.itemQuota d) }
    let due := if e.final then some (s.mkDue d 3 s.now next) else if e.immediate then some (s.mkDue d 1 s.now next) else none
    s.setChain d { c with
      closing := c.closing ++ [(e, due)], isOpen := !e.final
      epoch := { start := next, openedAt := s.elapsed, short := next % grid 10 != 0 } }

/-- A checkpoint made due with the last epoch closed at this instant, where none is yet (R94, R108). -/
def State.dueCkpt (s : State) (d kind next : Nat) : State :=
  let c := s.chain d
  match c.closing.getLast? with
  | none => s
  | some (_, some _) => s
  | some (e, none) =>
    if e.stop != s.now then s
    else s.setChain d { c with closing := c.closing.dropLast ++ [(e, some (s.mkDue d kind e.stop next))] }

/-- Whether an epoch is empty (R86). -/
def Epoch.empty (e : Epoch) : Bool := e.ports.isEmpty && e.count == 0 && e.unQuota + e.unRetain == 0

/-- Events of an epoch. -/
def Epoch.frames (e : Epoch) : Nat := (e.ports.map (fun x => x.2.length)).sum

/-- The frame root F (R84). -/
def Epoch.frameRoot (e : Epoch) : Digest :=
  sha256 ([0x02#8] ++ ((List.range 24).filter (fun p => e.mask.testBit p)).flatMap (fun p =>
    let x := tget e.ports p []
    le p 1 ++ le x.length 4 ++ portAcc x))

/-- Slot 1 of the epoch's summary (R93). -/
def Epoch.summary (e : Epoch) : Bytes :=
  le (nsOf e.start) 8 ++ le (fracOf e.start) 2 ++ le e.quality 1 ++ le 3 1 ++ le e.count 2 ++ le e.unQuota 2 ++ le e.unRetain 2
    ++ le 0 2 ++ le e.frames 4 ++ le e.mask 3 ++ le (b2n e.short) 1 ++ le 0 4

/-- The epoch's root R (R84, R86). -/
def Epoch.root (e : Epoch) (d : Nat) : Digest :=
  if e.empty then sha256 ([0x07#8] ++ le d 1 ++ le (nsOf e.start) 8 ++ le (fracOf e.start) 2)
  else sha256 ([0x03#8] ++ le d 1 ++ e.summary ++ e.frameRoot ++ e.acc)

/-- Slots appended to a chain's stream. -/
def Chain.append (c : Chain) (ds : List Bytes) : Chain :=
  { c with written := c.written + ds.length
           stream := c.stream ++ (ds.zip (List.range ds.length)).map (fun x => { chain := c.id, num := c.written + x.2, data := x.1 }) }

/-- The oldest closing epoch's root becomes final: it extends the chain value and its records and summary enter the stream,
or are lost for want of space (R85, R86, R102). An epoch one of whose special records was not retained counts as lost (R108).
(DEDUCED, unsafe: notes/assumptions/35.md) -/
def Chain.finalRoot (c : Chain) (d : Nat) (e : Epoch) : Chain :=
  let v := sha256 ([0x04#8] ++ c.value ++ e.root d)
  let p := c.period
  let room := c.freeBytes ≥ 65536 && e.records.length == e.count
  let c1 := if e.empty then c
    else c.append (e.records ++ if room then [e.summary, e.frameRoot] else [])
  let lost := if !e.empty && !room then 1 else 0
  { c1 with
    value := v
    counters := bumpBy c1.counters 4 lost
    period := { p with epochs := p.epochs + 1, epochsLost := p.epochsLost + lost, frames := p.frames + e.frames
                       itemised := p.itemised + e.itemised, unitemised := p.unitemised + e.unQuota + e.unRetain
                       specials := p.specials + e.specials } }

/-- The ECDSA P-384 private key of a domain (R95): FIPS 186-5 A.2.1 on the output of HKDF-SHA-384. (DESIGN CHOICE, unsafe: notes/assumptions/40.md) -/
def ledgerKey (d : Nat) : Nat :=
  let i := Config.keyInfo d
  ecdsaKey (hkdf384 i.1 (be Config.secret.toNat 32) i.2 56)

/-- `KEY_ID` of a domain's key (R94): bytes 0-7 of SHA-256 of its SubjectPublicKeyInfo. (DESIGN CHOICE, unsafe: notes/assumptions/40.md) -/
def ledgerKeyId (d : Nat) : Bytes := slice (sha256 (spkiOf (ledgerKey d))) 0 8

/-- Year, month and day of a count of days since 1970-01-01, in the civil calendar. -/
def civil (days : Nat) : Nat × Nat × Nat :=
  let z := days + 719468
  let era := z / 146097
  let doe := z % 146097
  let yoe := (doe - doe / 1460 + doe / 36524 - doe / 146096) / 365
  let doy := doe - (365 * yoe + yoe / 4 - yoe / 100)
  let mp := (5 * doy + 2) / 153
  let m := if mp < 10 then mp + 3 else mp - 9
  (yoe + era * 400 + (if m ≤ 2 then 1 else 0), m, doy - (153 * mp + 2) / 5 + 1)

/-- A number in `n` decimal digits of ASCII. -/
def digits (v : Nat) : Nat → Bytes
  | 0 => []
  | n + 1 => digits (v / 10) n ++ [BitVec.ofNat 8 (0x30 + v % 10)]

/-- The DER time of the start of a day (RFC 5280, 4.1.2.5): UTCTime through 2049, GeneralizedTime after. -/
def derDay (days : Nat) : Bytes :=
  let x := civil days
  let rest := digits x.2.1 2 ++ digits x.2.2 2 ++ digits 0 6 ++ [0x5A#8]
  if x.1 < 2050 then der 0x17 (digits (x.1 % 100) 2 ++ rest) else der 0x18 (digits x.1 4 ++ rest)

/-- What a ledger certificate's signature covers (R96, RFC 5280): version 3, its number, the algorithm, the issuer, the validity from the
production date without end, the subject, the key, and the key usage digitalSignature. (DESIGN CHOICE, unsafe: notes/assumptions/40.md) -/
def ledgerTbs (serial prodDate d n : Nat) : Bytes :=
  der 0x30 (der 0xA0 (derInt [2#8]) ++ derInt (be (Config.certSerial n % 2 ^ 159 + 1) 20) ++ oidSign ++ Config.deviceName serial
    ++ der 0x30 (derDay prodDate ++ der 0x18 (digits 99991231235959 14 ++ [0x5A#8])) ++ Config.domainName serial d
    ++ spkiOf (ledgerKey d)
    ++ der 0xA3 (der 0x30 (be 0x300E0603551D0F0101FF040403020780 16)))

/-- The ledger certificate of a domain, the `n`-th issued (R96): X.509 v3, signed with ecdsa-with-SHA384 by the device identity key.
(DESIGN CHOICE, unsafe: notes/assumptions/40.md) -/
def ledgerCert (serial prodDate d n : Nat) : Bytes :=
  let tbs := ledgerTbs serial prodDate d n
  let sig := ecdsaSign Config.identityKey tbs
  der 0x30 (tbs ++ oidSign ++ der 3 ([0#8] ++ der 0x30 (derInt (slice sig 0 48) ++ derInt (slice sig 48 48))))

/-- A certificate as `LEDGER_CERT_GET` returns it (R96, R106): a domain's own is that of its last chain open.
(DESIGN CHOICE, unsafe: notes/assumptions/40.md) -/
def State.certificate (s : State) (which d : Nat) : Bytes :=
  if which = 2 then ledgerCert s.fuse.serial s.fuse.prodDate d (s.chain d).certNo else Config.issuedCert which

/-- Bytes 0-159 of a checkpoint (R94). (DEDUCED, unsafe: notes/assumptions/35.md) -/
def Chain.ckptBody (c : Chain) (d : Nat) (u : Due) (factory opening : Bool) (pred : Nat × Nat) : Bytes :=
  let p := c.period
  let flags := b2n factory + 2 * b2n (opening && c.predUnknown) + 4 * b2n (p.epochsLost > 0) + 8 * b2n c.gap
  le (nsOf u.stop) 8 ++ le (fracOf u.stop) 2 ++ le u.quality 1 ++ le 4 1 ++ le u.kind 1 ++ le flags 1 ++ le d 1 ++ le u.mode 1
    ++ le c.id 8 ++ le c.nextSeq 8 ++ le (nsOf p.start) 8 ++ le (fracOf p.start) 2 ++ le u.utc 2 ++ le u.leap 1 ++ le 0x11 1
    ++ le u.ringVer 1 ++ le 0 1 ++ le u.leapNs 8 ++ le p.epochsLost 4 ++ le p.epochs 2 ++ le u.quota 2
    ++ (if opening then le pred.1 8 ++ le pred.2 8 else le p.frames 8 ++ le p.itemised 4 ++ le p.unitemised 4)
    ++ le p.specials 4 ++ le c.ckptLostNow 4 ++ ledgerKeyId d ++ c.value ++ c.prevHash

/-- A checkpoint closed (R94, R95, R97, R102): its eight slots are reserved, or it is not retained; in Factory it is complete at
once, unsigned. -/
def State.closeCkpt (s : State) (d : Nat) (u : Due) (opening : Bool) (pred : Nat × Nat) : State :=
  let c := s.chain d
  let factory := s.glb.mode = .factory
  let body := c.ckptBody d u factory opening pred
  let kept := c.freeBytes ≥ 256
  let slots : List LSlot := (List.range 8).map (fun i =>
    { chain := c.id, num := c.written + i, data := if factory then slice (body ++ zeros 96) (32 * i) 32 else []
      ready := factory, ends := i == 7, opening := opening && i == 0, final := u.kind == 3 && i == 7 })
  let ck : Ckpt := { body := body, slot := c.written, kept := kept, kind := u.kind, sequence := c.nextSeq, closedAt := s.elapsed }
  let c1 := { c with
    stream := if kept then c.stream ++ slots else c.stream
    written := if kept then c.written + 8 else c.written
    waiting := if factory then c.waiting else c.waiting ++ [ck]
    closedSeq := c.nextSeq, nextSeq := c.nextSeq + 1
    prevHash := sha256 body
    counters := if kept then c.counters else bump c.counters 5
    ckptLostNow := if kept then 0 else c.ckptLostNow + 1
    gap := !kept
    period := { start := u.nextStart } }
  let s1 := s.setChain d c1
  if kept then s1 else s1.ledgerEvent d 4

/-- Frees and retention after completions of exports have been written (R102). (DEDUCED, unsafe: notes/assumptions/36.md) -/
def State.ledFlush (s : State) : State :=
  (s.led.chains.filter (fun (x : Nat × Chain) => x.2.freed)).foldl (fun (s : State) (x : Nat × Chain) =>
    (s.setChain x.1 { s.chain x.1 with freed := false }).retention x.1) s

/-- The oldest closing epoch of a chain made final, with the checkpoint due with it (R85, R92), once every frame stamped in it has its
decision, so that its record is in the root (R88, R107). At the instant of the
close itself, the checkpoint of a 2^20 ns point and a step due there come first (R24, R59). (DESIGN CHOICE, unsafe: notes/assumptions/34.md) -/
def State.rootFinal (s : State) (d : Nat) : State :=
  let c := s.chain d
  match c.closing with
  | [] => s
  | (e, due) :: rest =>
    if s.pl.frames.any (fun (f : Frame) => f.port < 24 && s.portDom f.port == d && f.phase < 2 && e.openedAt ≤ f.feed.at_ && f.feed.at_ < e.closedAt) then s else
    let first := (due.isNone && e.stop % grid 20 == 0) || s.tb.step.any (fun x => x.g == s.now) ||
      s.tb.set.any (fun x => x.edge.any (fun y => y.1 < s.now))
    if e.closedAt = s.elapsed && first then s else
    let c1 := (c.finalRoot d e)
    let s1 := (s.setChain d { c1 with closing := rest }).retention d
    match due with
    | none => s1
    | some u => (s1.closeCkpt d u false (0, 0)).retention d

/-- Closed checkpoints awaiting signature, over all chains. -/
def State.backlog (s : State) : Nat := (s.led.chains.map (fun x => x.2.waiting.length)).sum

/-- The feed of one event from a Wellhead (R75, R84): its leaf enters the accumulator of its port in the epoch that contains its
stamp. `t` is the elapsed instant of its SFD at the balls. A feed that finds no open chain is counted UNCHAINED.
(DESIGN CHOICE, unsafe: notes/assumptions/34.md) -/
def State.ledgerFeed (s : State) (port dir : Nat) (trunc : Bool) (t len : Nat) (head : Bytes) : State × Feed :=
  let d := s.portDom port
  let c := s.chain d
  let stamp := s.stampAt t
  let l := leaf stamp (s.qualityAt t) (port % 32 + 32 * (dir % 2) + 64 * b2n trunc) len head
  let f : Feed := { port := port, dir := dir, trunc := trunc, at_ := t, stamp := stamp, quality := s.qualityAt t, len := len, leaf := l }
  if c.takes t then (s.setChain d (c.atEpoch t (fun e => e.feed port stamp (dir % 2) l)), f)
  else (s.setChain d { c with counters := bump c.counters 3 }, f)

/-- A frame named for itemisation (R88, R90): 1 itemised, 2 unitemised, 0 where no chain took its leaf. `src` 1 for a Spout mirror.
The record enters the epoch of the frame's stamp (R107). (DESIGN CHOICE, unsafe: notes/assumptions/34.md) -/
def State.ledgerMark (s : State) (f : Feed) (src : Nat) (fcsBad : Bool) (cls : Nat) : State × Nat :=
  let d := s.portDom f.port
  let c := s.chain d
  let t := f.at_
  if !c.takes t then (s, 0)
  else
    let e := if c.isCurrent t then c.epoch
      else ((c.closing.find? (fun x => x.1.openedAt ≤ t && t < x.1.closedAt)).map (·.1)).getD c.epoch
    if e.itemised ≥ e.quota.getD (s.itemQuota d) then
      (s.setChain d { c.atEpoch t (fun e => { e with unQuota := e.unQuota + 1 }) with counters := bump c.counters 1 }, 2)
    else if c.retainLow || c.freeBytes < 2 ^ 20 then
      ((s.setChain d { c.atEpoch t (fun e => { e with unRetain := e.unRetain + 1 }) with counters := bump c.counters 2 }).retention d, 2)
    else
      let mk := fun seq => stampBytes f.stamp f.quality ++ le 1 1 ++ le seq 2
        ++ le (f.port % 32 + 32 * (f.dir % 2) + 64 * b2n f.trunc + 128 * (src % 2)) 1 ++ le (b2n fcsBad) 1
        ++ le f.len 2 ++ le cls 2 ++ f.leaf.take 12
      let c2 := c.atEpoch t (fun e => { e.record mk true with itemised := e.itemised + 1 })
      ((s.setChain d { c2 with counters := bump c2.counters 0 }).retention d, 1)

end Sys2Proof.Machine
end

