-- ==== Sys2Proof/Machine/ModeOps.lean ====
section
/-! DEFINITION. Mode changes and their events, FAILSAFE_N, what the mode and function status registers read, and the ends of sessions (R28,
R29, R32, R33, R35). -/
namespace Sys2Proof.Machine

/-- MODE_EVENT (R32): to TD0, and on entry into Lockdown to every MP session. -/
def State.modeEvent (s : State) (old : Nat) : State :=
  let fs := [old, s.glb.mode.code, s.glb.entryCause, s.ledgerNs]
  if s.glb.mode = .lockdown then
    let r := s.eventDom 0 0x0111 0 fs
    r.1.eventSide true 0x0111 0 fs
  else s.event [0] 0x0111 0 fs

/-- FAILSAFE_N driven (R35, R39). (DESIGN CHOICE, unsafe: notes/assumptions/4.md) -/
def State.setFailsafe (s : State) (high : Bool) : State :=
  if s.glb.failsafe = high then s else { s with glb.failsafe := high }.emit (.pin .failsafeN high)

/-- A mode change (R29): `MODE`, its cause and the ledger time of entry; the mode-change record with an immediate checkpoint in
every open chain; the event. -/
def State.changeMode (s : State) (m : Mode) (cause flags : Nat) : State :=
  let old := s.glb.mode.code
  let s := { s with glb.mode := m, glb.entryCause := cause, glb.modeEntered := s.now }
  let s := s.specials 0x02 true false (le old 1 ++ le m.code 1 ++ le cause 1 ++ le flags 1)
  s.modeEvent old

/-- READY_EVENT (R32) for a function whose status was `o`. -/
def State.readyEvent (s : State) (f : Nat) (o : FnStatus) : State :=
  let n := s.fn f
  s.event [0] 0x0110 0 [fnCode f, b2n o.ready, b2n n.ready, b2n o.halted, b2n n.halted, b2n o.inReset, b2n n.inReset, s.ledgerNs]

/-- A function's status changed, and reported when READY, HALTED or IN_RESET differs. -/
def State.putFn (s : State) (f : Nat) (n : FnStatus) : State :=
  let o := s.fn f
  if o = n then s else (s.setFn f n).readyEvent f o

/-- The session is one of MP. -/
def Session.onMp (x : Session) : Bool := match x.path with
  | .mp _ => true
  | _ => false

/-- `GLB_MODE` (R28). -/
def State.glbMode (s : State) : Nat := s.glb.mode.code + 8 * b2n s.glb.inTransition + 256 * s.glb.entryCause

/-- `GLB_FN_STATUS` of a function (R28). -/
def State.fnStatus (s : State) (f : Nat) : Nat :=
  let x := s.fn f
  b2n x.ready + 2 * b2n x.halted + 4 * b2n x.inReset + 8 * b2n (s.quality ≥ 128) + 256 * s.fnDom f

/-- Tosen sessions that satisfy `p` end (R420): their queued requests are not executed, and the reply of a request still
executing is not sent. -/
def State.endSessions (s : State) (p : Session → Bool) : State :=
  { s with tosen.sessions := s.tosen.sessions.filter (fun x => !p x) }

end Sys2Proof.Machine
end

