-- ==== Sys2Proof/Machine/PortOps.lean ====
section
/-! DEFINITION. What every unit asks of the ports: time passing before a command, MAC counters, port events, the frames a MAC
itself makes, and a port's changes of state (R115-R132). -/
namespace Sys2Proof.Machine

/-- PORT_EVENT (R136): to TD0 and the domain the port is fused to. -/
def State.portEvent (s : State) (p cause : Nat) (more : List Nat) : State :=
  s.event [0, if p < 24 then s.portDom p else 0] 0x0410 (if p < 24 then s.portDom p else 0) ([p, cause] ++ more ++ [s.ledgerNs])

/-- Half-range events of the counters that passed bit 47 in this command (R125). -/
def State.flushHalf (s : State) : State :=
  let due := s.ports.halfDue
  due.foldl (fun s x => s.portEvent (if x.1 = 24 then 0xFF else x.1) 8 [x.2]) { s with ports.halfDue := [] }

/-- SLUICE_EVENT (R208): one for each port and cause of a 2^20 ns period that has ended, with its count. (DEDUCED, unsafe: notes/assumptions/68.md) -/
def State.sluFlush (s : State) : State :=
  let due := s.slu.events.filter (fun (e : Nat × SluEv) => e.2.period != s.now / grid 20)
  due.foldl (fun s e =>
    let p := e.1 / 8
    let d := s.portDom p
    s.event [d, 0] 0x0630 d [p, e.1 % 8, e.2.tag, nsOf e.2.target, e.2.count, s.ledgerNs])
    { s with slu.events := s.slu.events.filter (fun (e : Nat × SluEv) => e.2.period == s.now / grid 20) }


/-- Counter `i` of a port's parser and Spout (R155). -/
def State.prsCount (s : State) (p i : Nat) : State :=
  { s with pl.counters := tset s.pl.counters p (bump (tget s.pl.counters p [0, 0, 0, 0, 0, 0, 0, 0]) i) }

/-- Whether a port's link is up. -/
def State.portUp (s : State) (p : Nat) : Bool := (s.pt p).state == .up

/-- Lanes of a mode (R109). -/
def modeLanes (m : Nat) : Nat :=
  match m with
  | 1 => 1 | 2 => 1 | 3 => 1 | 4 => 4 | 5 => 1 | 6 => 2 | 7 => 4 | 8 => 8 | _ => 0

/-- Whether a mode allows an FEC code (R109): 0 none, 1 RS(528,514), 2 RS(544,514). -/
def modeFec (m f : Nat) : Bool :=
  match m with
  | 0 => f == 0 | 1 => f == 0 | 2 => f == 0 | 3 => f ≤ 1 | 4 => f ≤ 1 | 5 => f == 2 | 6 => f == 2 | 7 => f == 2 | 8 => f == 2
  | _ => false

/-- One byte time of a mode, in 2^-16 ns, as numerator over 25: 8 bits at the port rate (R153). -/
def modeRateMbps (m : Nat) : Nat :=
  match m with
  | 1 => 1000 | 2 => 10000 | 3 => 25000 | 4 => 100000 | 5 => 100000 | 6 => 200000 | 7 => 400000 | 8 => 800000 | _ => 0

/-- The time `n` bytes take on a port, in 2^-16 ns. -/
def State.byteTime (s : State) (p n : Nat) : Nat :=
  let r := modeRateMbps (s.pt p).mode
  if r = 0 then 0 else n * 8 * 1000 * 65536 / r

/-- The low-latency class (R110). -/
def PortSt.lowLatency (x : PortSt) : Bool := (x.mode == 2 || x.mode == 3 || x.mode == 4) && x.fec == 0

/-- A PAUSE or PFC frame (R123, Annex 31B, IEEE 802.1Qbb): `en` and the times of the priorities it names. -/
def pauseFrame (mac mode en : Nat) (times : List Nat) : Bytes :=
  be 0x0180C2000001 6 ++ be mac 6 ++ be 0x8808 2 ++
    (if mode = 1 then be 1 2 ++ be (nth times 0) 2 else be 0x0101 2 ++ be en 2 ++ times.flatMap (fun t => be t 2))

/-- Factory parts of a Wellhead's corrections, by lane and direction (R70). (DESIGN CHOICE, unsafe: notes/assumptions/19.md) -/
def State.factoryCal (s : State) (lane dir : Nat) : Nat := tget s.fuse.calib (2 * lane + dir) 0
/-- WH_CAL_TX: zero while CAL_STATE is not 2 (R79). -/
def State.calTx (s : State) (p : Nat) : Nat :=
  if (s.pt p).calState = 2 then (s.factoryCal p 1 + (s.pt p).linkTx) % 2 ^ 32 else 0

/-! Start instants (R197-R199, R205). -/

/-- Start instants per 32 ns in a mode: q is 32 ns over this. -/
def startsPer32 (m : Nat) : Nat :=
  match m with
  | 1 => 2 | 2 => 10 | 3 => 25 | 4 => 50 | 5 => 50 | 6 => 100 | 7 => 200 | 8 => 200 | _ => 0

/-- The start instant nearest a target; of two equally near, the earlier (R197, R199). Instants in 2^-16 ns. -/
def startInstant (n phase target : Nat) : Nat :=
  if n = 0 then target
  else
    let x : Int := (target : Int) - phase * 1024
    let k : Int := -((2097152 - 2 * n * x) / (2 * 2097152))
    ((phase : Int) * 1024 + k * 2097152 / n).toNat

/-- The first start instant not before `t` (R197). -/
def startFrom (n phase t : Nat) : Nat :=
  if n = 0 then t
  else
    let x : Int := (t : Int) - phase * 1024
    let k : Int := -((-x * n) / 2097152)
    ((phase : Int) * 1024 + k * 2097152 / n).toNat

/-- Whether a port's mode has marker groups (R205). -/
def PortSt.hasMarkers (x : PortSt) : Bool := x.mode == 4 || x.fec != 0

/-- The place of a port's marker groups: the first one's start, five times their distance, and a group's length (R205): in 100GBASE-R4
12.8 ns every 209,715.2 ns, which is a fifth of 2^20 ns. (DEDUCED, unsafe: notes/assumptions/65.md) -/
def State.markers (s : State) (p : Nat) : Nat × Nat × Nat :=
  let x := s.pt p
  let m := Config.markers p x.mode x.fec
  if x.mode = 4 then (m.1, grid 20, 838861) else (m.1, m.2.1, m.2.2 % 838862)

/-- The start of the marker group that holds or precedes `t`, where there is one. -/
def State.groupAt (s : State) (p t : Nat) : Option Nat :=
  let m := s.markers p
  if !(s.pt p).hasMarkers || t < m.1 then none else some (m.1 + (5 * (t - m.1) + 4) / m.2.1 * m.2.1 / 5)

/-- A start instant, moved past the marker group it would fall in (R205). (DEDUCED, unsafe: notes/assumptions/65.md) -/
def State.pastGroup (s : State) (p t : Nat) : Nat :=
  match s.groupAt p t with
  | none => t
  | some g => if t < g + (s.markers p).2.2 then startFrom (startsPer32 (s.pt p).mode) (tget s.slu.ports p {}).phase (g + (s.markers p).2.2) else t

/-- The next start instant of a port, in device time (R197, R205). (DEDUCED, unsafe: notes/assumptions/65.md) -/
def State.startAt (s : State) (p : Nat) : Nat :=
  s.pastGroup p (startFrom (startsPer32 (s.pt p).mode) (tget s.slu.ports p {}).phase s.now)

/-- `NEXT_MARKER` (R205, R207): ns count of the start of the next marker group; 0 in modes without groups.
(DEDUCED, unsafe: notes/assumptions/65.md) -/
def State.nextMarker (s : State) (p : Nat) : Nat :=
  if !(s.pt p).hasMarkers then 0
  else match s.groupAt p s.now with
    | none => nsOf (s.markers p).1
    | some g => nsOf ((s.markers p).1 + ((5 * (g - (s.markers p).1) + 4) / (s.markers p).2.1 + 1) * (s.markers p).2.1 / 5)

/-- The frame first on the wire of a port begins, at the port's next start instant (R197): the line is taken for it and its minimum gap, and
its stamp takes the correction now in force (R68, R75). -/
def State.beginTx (s : State) (p : Nat) : State :=
  let x := s.pt p
  match x.tx with
  | [] => s
  | t :: r =>
    let start := s.startAt p
    (s.setPt p { x with
      tx := { t with cal := s.calTx p, start := start } :: r
      busyTo := s.elapsed + (start - s.now) + s.byteTime p (t.data.length + 20), busyRel := t.kind == 1 }).emit
      (.frame p t.data)

/-- A frame put on the wire: behind the frame in progress, ahead of every queued one. -/
def State.startTx (s : State) (p : Nat) (t : TxFrame) : State :=
  let x := s.pt p
  let s1 := s.setPt p { x with tx := x.tx ++ [t] }
  if x.tx.isEmpty then s1.beginTx p else s1

/-- A PTP message sent on a port that is UP: behind the frame in progress, ahead of every queued one. (PRESUMED, unsafe: notes/assumptions/30.md) -/
def State.ptpSend (s : State) (p type seq : Nat) (vals : List Nat) : State :=
  if !s.firmware || !s.portUp p then s
  else (s.emit (.ptp p type seq vals)).startTx p
    { data := Config.ptpFrame s.tb.ptp.transport p type seq vals, kind := 5, ptp := some (type, seq) }

/-- A PTP message has passed the transmit reference plane with this stamp (R50): a Sync or Pdelay_Resp is followed by its Follow_Up, the
transmit time of a request is kept. The Follow_Up of a Sync carries currentUtcOffset and the leap flags (R62).
(PRESUMED, unsafe: notes/assumptions/30.md) -/
def State.ptpSent (s : State) (p type seq stamp : Nat) : State :=
  match type with
  | 0x0 => s.ptpSend p 0x8 seq [stamp, twos 16 s.tb.utcOffset, b2n (s.tb.leapState != 3), b2n (s.tb.leapState == 1), b2n (s.tb.leapState == 2)]
  | 0x1 => { s with tb.ptps.req := some (seq, stamp) }
  | 0x2 => if p = s.tb.ptp.receiver then { s with tb.ptps.req := some (seq, stamp) } else s
  | 0x3 => s.ptpSend p 0xA seq [stamp]
  | _ => s

/-- One quantum is 512 bit times at the port rate (R123). -/
def State.quanta (s : State) (p n : Nat) : Nat := s.byteTime p (64 * n)

/-- Whether the PFC enable vector names a priority, so that its frames stay in the ingress reservation until they leave their queue (R184).
(DEDUCED, unsafe: notes/assumptions/60.md) -/
def PfcCfg.holds (c : PfcCfg) (p : Nat) : Bool := c.mode == 2 && c.enable.testBit p
/-- The priorities flow control tracks on a port: all as one under link PAUSE (R123). (DEDUCED, unsafe: notes/assumptions/60.md) -/
def PfcCfg.tracked (c : PfcCfg) (p : Nat) : Bool := (c.mode == 1 && p == 0) || (c.mode == 2 && c.enable.testBit p)

/-- A flow-control frame that names the priorities of `en` with their times (R123). -/
def State.pfcFrame (s : State) (p en : Nat) (times : List Nat) : TxFrame :=
  { data := padFcs (pauseFrame (s.pt p).cfg.mac (s.pt p).pfc.mode en times), kind := 4, pfc := some (en, times) }

/-- Two messages of flow control in one: the later one's time stands where both name a priority. -/
def pfcMerge (a b : Nat × List Nat) : Nat × List Nat :=
  (a.1 ||| b.1, (List.range 8).map (fun i => if b.1.testBit i then nth b.2 i else nth a.2 i))

/-- A change of priorities to be told to the partner: one frame for all that change in the same interval (R123). -/
def State.pfcAsk (s : State) (p en : Nat) (times : List Nat) : State :=
  { s with ports.pfcDue := tset s.ports.pfcDue p (match tget? s.ports.pfcDue p with
      | some a => pfcMerge a (en, times)
      | none => (en, times)) }

/-- The changes of a command go to the line: in the frame that still waits there, or in one of their own (R123).
(DEDUCED, unsafe: notes/assumptions/45.md) -/
def State.pfcSend (s : State) (p : Nat) (m : Nat × List Nat) : State :=
  let x := s.pt p
  if x.state ≠ .up then s
  else match (x.tx.drop 1).find? (fun t => t.pfc.isSome) with
    | some t =>
      let n := pfcMerge (t.pfc.getD m) m
      s.setPt p { x with tx := x.tx.take 1 ++ (x.tx.drop 1).map (fun y => if y.pfc.isSome then s.pfcFrame p n.1 n.2 else y) }
    | none => s.startTx p (s.pfcFrame p m.1 m.2)
def State.pfcFlush (s : State) : State :=
  s.ports.pfcDue.foldl (fun (s : State) (x : Nat × Nat × List Nat) => s.pfcSend x.1 x.2) { s with ports.pfcDue := [] }

/-- Flow control re-evaluated after a port's held bytes or thresholds changed (R123): priorities that reach XOFF_KIB are asserted,
those at or below XON_KIB released. (DEDUCED, unsafe: notes/assumptions/45.md) -/
def State.pfcCheck (s : State) (p : Nat) : State :=
  let x := s.pt p
  let up := (List.range 8).filter (fun i => x.pfc.tracked i && !x.asserted.testBit i && nth x.held i ≥ nth x.pfc.xoff i * 1024)
  let down := (List.range 8).filter (fun i => x.asserted.testBit i && (!x.pfc.tracked i || nth x.held i ≤ nth x.pfc.xon i * 1024))
  if up.isEmpty && down.isEmpty then s
  else
    let next := s.elapsed + s.quanta p x.pfc.quanta / 2
    (s.setPt p { x with asserted := down.foldl clearBit (up.foldl setBit x.asserted)
                        refreshAt := up.foldl (fun r i => setNth r i next) x.refreshAt }).pfcAsk p
      ((up ++ down).foldl (fun e i => e + 2 ^ i) 0) ((List.range 8).map (fun i => if up.contains i then x.pfc.quanta else 0))

/-- Bytes of a priority charged to, or taken from, a port's ingress reservation (R184). (DEDUCED, unsafe: notes/assumptions/60.md) -/
def State.holdBytes (s : State) (p prio : Nat) (f : Nat → Nat) : State :=
  let x := s.pt p
  let i := if x.pfc.mode = 1 then 0 else prio % 8
  (s.setPt p { x with held := setNth x.held i (f (nth x.held i)), heldLog := (s.elapsed, x.held.sum) :: x.heldLog }).pfcCheck p

/-- What no command of the units reaches: the waiting commands, elapsed and device time, the fuses, the retention store, and the pins,
rails and reset. -/
def State.keepAll (t r : State) : State :=
  { r with pending := t.pending, elapsed := t.elapsed, now := t.now, pw := t.pw, fuse := t.fuse, led.retention := t.led.retention }
/-- The same of a time step, which writes device time, modulo 2^80 (R45, R59). -/
def State.keepButTime (t r : State) : State :=
  { r with pending := t.pending, elapsed := t.elapsed, now := r.now % 2 ^ 80, pw := t.pw, fuse := t.fuse, led.retention := t.led.retention }
/-- The same of a row that writes the fuse block or what was latched from it. -/
def State.keepButFuse (t r : State) : State := { r with pending := t.pending, elapsed := t.elapsed, now := t.now, pw := t.pw, led.retention := t.led.retention }
/-- The same of a row that also writes the reset and thermal flags. -/
def State.keepButPins (t r : State) : State := { r with pending := t.pending, elapsed := t.elapsed, now := t.now, led.retention := t.led.retention }

/-- Time passes, then the command acts unless a reset or a reset close holds the block (R488, R489). -/
def State.runWith (keep : State → State → State) (s : State) (dt : Nat) (f : State → State) : Out :=
  let t := s.elapse dt
  .next (if t.dead then t else keep t (((f t.mpFlush.sluFlush).ledFlush.pfcFlush.flushHalf).stepFlush.noteQuality t.quality))
/-- By what the row may write. (DESIGN CHOICE, unsafe: notes/assumptions/3.md; DEDUCED, unsafe: notes/assumptions/13.md) -/
def State.run (s : State) (dt : Nat) (f : State → State) : Out := s.runWith State.keepAll dt f
def State.runTime (s : State) (dt : Nat) (f : State → State) : Out := s.runWith State.keepButTime dt f
def State.runFuse (s : State) (dt : Nat) (f : State → State) : Out := s.runWith State.keepButFuse dt f
def State.runFree (s : State) (dt : Nat) (f : State → State) : Out := s.runWith State.keepButPins dt f

/-! Heartbeat checking (R132). -/

/-- The modes in which heartbeats are sent and checked (R131, R132). -/
def Mode.heartbeats (m : Mode) : Bool :=
  match m with
  | .priming => true
  | .service => true
  | .drain => true
  | _ => false

/-- Checking starts or resumes: only intervals that begin at or after this instant count (R132). -/
def State.hbStart (s : State) : State :=
  { s with ports.hb := { s.ports.hb with checking := some (ceilDiv s.now (ns 102400)), heard := [], heardLast := false, missed := 0 } }

/-- Checking started where the heartbeat port is UP in a mode that has heartbeats. -/
def State.hbCheck (s : State) : State :=
  match s.ports.hb.port with
  | some p => if s.portUp p && s.glb.mode.heartbeats then (if s.ports.hb.checking.isNone then s.hbStart else s)
      else { s with ports.hb.checking := none }
  | none => s

/-- The heartbeat port leaves UP: where checking ran, partner loss at once, unless already reported (R132). -/
def State.hbDown (s : State) (p : Nat) : State :=
  if s.ports.hb.port ≠ some p then s
  else
    let s1 := { s with ports.hb := { s.ports.hb with checking := none, heard := [], heardLast := false, missed := 0, waiting := none } }
    if s.ports.hb.lost || s.ports.hb.checking.isNone then s1 else { s1 with ports.hb.lost := true }.portEvent p 6 []

/-! A port that leaves `UP` (R70, R75, R112, R115, R151, R157). -/

/-- Bytes of the frame of `n` bytes on a port's line that have passed, its preamble aside. -/
def State.sentBytes (s : State) (p n : Nat) : Nat :=
  min n ((s.elapsed + s.byteTime p (n + 20) - (s.pt p).busyTo) * modeRateMbps (s.pt p).mode / (8 * 1000 * 65536) - 8)

/-- The frame in progress ends truncated after the bytes that have passed. -/
def State.cutTx (s : State) (p : Nat) (t : TxFrame) : TxFrame := { t with cut := true, data := t.data.take (s.sentBytes p t.data.length) }

/-- What becomes of a port's transmissions when it leaves `UP`: replicas of the Spout that wait for it, or that go through it while
their frame comes in, are counted in SPOUT_EGRESS_DROPS, nothing that waits for the line is sent, and `f` tells what the frame in
progress turns into. (DEDUCED, unsafe: notes/assumptions/42.md) -/
def State.txEnds (s : State) (p : Nat) (f : TxFrame → TxFrame) : State :=
  let x := s.pt p
  let n := ((x.tx.drop 1).filter (fun t => t.kind == 2)).length + ((x.tx.take 1).filter (fun t => t.thru)).length
    + (s.pl.spoutWait.filter (fun r => r.egress == p)).length
  let s1 := { s.setPt p { x with tx := (x.tx.take 1).map f } with pl.spoutWait := s.pl.spoutWait.filter (fun r => r.egress != p) }
  if n = 0 then s1
  else { s1 with pl.counters := tset s1.pl.counters p (bumpBy (tget s1.pl.counters p [0, 0, 0, 0, 0, 0, 0, 0]) 3 n) }

/-- The control part of MAC_STATUS (R126, R129): what a port transmits. In `TRAINING` every mode above 1000BASE-X trains its lanes, and
no fault replaces that. (DEDUCED, unsafe: notes/assumptions/42.md) -/
def PortSt.txSignal (x : PortSt) : Nat :=
  match x.state with
  | .disabled => 0
  | .dormant => 0
  | .held => if x.stopped then 0 else 2
  | .training => if x.mode ≥ 2 || (x.cfg.autoneg && !x.anDone) then 1 else if x.localFault then 2 else 1
  | _ => if x.localFault then 2 else 1

/-- PORT_STATE (R126). -/
def PState.code : PState → Nat
  | .disabled => 0
  | .dormant => 1
  | .training => 2
  | .calibrating => 3
  | .up => 4
  | .fault => 5
  | .held => 6

/-- MAC_STATUS, MAC_LANES and MAC_LINK_COUNTS of a port (R126); on MP, port 24. -/
def State.macStatus (s : State) (p : Nat) : Nat :=
  let x := s.pt p
  if p = 24 then
    let m := s.ports.mp
    (if m.up then 4 else 0) + 8 * (if !m.up then 0 else if m.speed = 1000 then 1 else if m.speed = 100 then 9 else 0xA)
      + 2048 * b2n (m.up && m.half) + 4096 * b2n m.up
  else
    let paused := if x.pfc.mode = 1 then (if s.elapsed < nth x.pausedTo 0 then 255 else 0)
      else ((List.range 8).filter (fun i => s.elapsed < nth x.pausedTo i)).foldl (fun a i => a + 2 ^ i) 0
    x.state.code + 8 * x.mode + 128 * x.fec + 512 * b2n x.lowLatency + 1024 * b2n x.localFault + 2048 * b2n x.remoteFault
      + 4096 * x.txSignal + 16384 * b2n x.anDone + 32768 * b2n x.wakeSeen + 65536 * paused + 16777216 * x.asserted
def State.macLanes (s : State) (p : Nat) : Nat :=
  let n := modeLanes (s.pt p).mode
  if n = 0 then 0x3F else p + 64 * n
def State.macLinks (s : State) (p : Nat) : Nat := (s.pt p).linkUps + 65536 * (s.pt p).linkDowns

/-- Whether a priority is paused on a port at this instant (R124). -/
def State.pausedOn (s : State) (p prio : Nat) : Bool :=
  let x := s.pt p
  if x.pfc.mode = 1 then s.elapsed < nth x.pausedTo 0
  else x.pfc.mode == 2 && s.elapsed < nth x.pausedTo (prio % 8)

/-! Release phases (R197, R198). -/

/-- A number of 2^-6 ns steps modulo q, rounded down: q is 2,048 / n steps. -/
def modQ (n x : Nat) : Nat := if n = 0 then 0 else x * n % 2048 / n

/-- Φ for a compensation, in 2^-6 ns: (−C) mod q to the nearest step (R198). (DEDUCED, unsafe: notes/assumptions/67.md) -/
def phaseFor (n comp : Nat) : Nat :=
  if n = 0 then 0
  else
    let r := comp * n % (32 * 65536)
    let neg := (32 * 65536 - r) % (32 * 65536)
    modQ n ((2 * neg + 1024 * n) / (2 * 1024 * n))

/-- A move of the phase to its goal by the shorter way round (R198). (DEDUCED, unsafe: notes/assumptions/67.md) -/
def SluPort.move (x : SluPort) (n now : Nat) : SluPort :=
  let up := (x.goal * n + 2048 * n - x.phase * n) % 2048
  let steps := ceilDiv (min up (2048 - up)) n
  if up = 0 then { x with phase := x.goal, left := 0, settled := true }
  else { x with left := steps, up := up ≤ 1024, settled := false, stepAt := now + grid 14 }

/-- An event of a port in the running 2^20 ns period (R208), sent with its count once the period is past.
(DEDUCED, unsafe: notes/assumptions/68.md) -/
def State.sluEvent (s : State) (p cause tag target : Nat) : State :=
  let k := p * 8 + cause
  match tget? s.slu.events k with
  | some e => { s with slu.events := tset s.slu.events k { e with count := e.count + 1 } }
  | none => { s with slu.events := tset s.slu.events k { period := s.now / grid 20, count := 1, tag := tag, target := target } }

/-- The stored replicas of a port aimed at the start instants of its present phase (R199), `now` being the device time; none goes back.
(DEDUCED, unsafe: notes/assumptions/65.md) -/
def State.reaim (s : State) (p now : Nat) : State :=
  let n := startsPer32 (s.pt p).mode
  let ph := (tget s.slu.ports p {}).phase
  { s with slu.store := s.slu.store.map (fun r =>
      if r.port == p && !r.late && !r.shifted && now < r.start then { r with start := max (startInstant n ph r.target) (startFrom n ph now) } else r) }

/-- A time step: heartbeat intervals are counted on the new timeline, the phases of all ports move, and replicas whose start instants are skipped are late (R198, R204, R209).
(DEDUCED, unsafe: notes/assumptions/46.md; DEDUCED, unsafe: notes/assumptions/67.md) -/
def State.sluStep (s : State) (target : Nat) : State :=
  let g := s.now
  let ports := tmapK s.slu.ports (fun p (x : SluPort) =>
    let n := startsPer32 (s.pt p).mode
    if n = 0 then x
    else
      let d := if target ≥ g then (target - g) / 1024 else (2048 * (g - target) - (g - target) / 1024)
      { x with phase := modQ n (x.phase + d) }.move n s.elapsed)
  let done := (s.slu.ports.filter (fun (x : Nat × SluPort) => !x.2.settled && (tget ports x.1 {}).settled && startsPer32 (s.pt x.1).mode != 0)).map (·.1)
  let s1 := done.foldl (fun s p => s.sluEvent p 5 0 0) { s with slu.ports := ports }
  let late := { s1 with slu.store := s1.slu.store.map (fun r => if g ≤ r.start && r.start < target then { r with late := true } else r) }
  { (List.range 24).foldl (fun (s : State) p => s.reaim p target) late with ports.hb := { s.ports.hb with checking := s.ports.hb.checking.map (fun _ => ceilDiv target (ns 102400)), heard := [] } }

/-- WH_CAL_RX: zero while CAL_STATE is not 2 (R79). -/
def State.calRx (s : State) (p : Nat) : Nat :=
  if (s.pt p).calState = 2 then (s.factoryCal p 0 + (s.pt p).linkRx) % 2 ^ 32 else 0

/-- The capture step of 2^-4 ns (R72). -/
def capture (t : Nat) : Nat := t / 4096 * 4096

end Sys2Proof.Machine
end

