-- ==== Sys2Proof/Machine/PowerOps.lean ====
section
/-! DEFINITION. Device reset and the reset close (R100, R487-R489, R504). -/
namespace Sys2Proof.Machine

/-- Every output takes the reset column of R495. -/
def State.outputsReset (s : State) : State :=
  let s1 := s.setFailsafe false
  let s2 := if s1.tb.rec0 then s1.emit (.pin .recClk0 false) else s1
  let s3 := if s2.tb.rec1 then s2.emit (.pin .recClk1 false) else s2
  let s4 := if s3.tb.ppsHigh then s3.emit (.pin .ppsOut false) else s3
  { s4.emit (.pin .ref10mOut false) with tb.rec0 := false, tb.rec1 := false, tb.ppsHigh := false }

/-- Bits of a map that an interrupted burn has set of those it was to set: any of them (R394). `r` are the free values.
(DESIGN CHOICE, safe: notes/assumptions/163.md) -/
def partBurn (old new r : Bytes) : Bytes :=
  (List.range 336).map (fun i =>
    let n := if i = 0 then new.getD 0 0 &&& 0xFC#8 else new.getD i 0
    old.getD i 0 ||| (n &&& r.getD i 0))

/-- The fuses after device reset: a burn in progress stops where it stands, before PROV_LOCK; the map is latched (R393, R394).
(DESIGN CHOICE, safe: notes/assumptions/163.md) -/
def State.fuseReset (s : State) : Fuse :=
  let f := s.fuse
  let m := match f.burning with
    | none => f.map
    | some (_, new) => partBurn f.map new ((List.range 6).flatMap (fun i => le (Config.drawn (s.fresh + i)).toNat 64))
  let c := match f.burning with
    | none => f.mapCrc
    | some _ => f.mapCrc ||| (Config.drawn (s.fresh + 6)).toNat % 2 ^ 32
  { f with map := m, live := m, mapCrc := c, staged := [], burning := none, mapOk := false, floorMet := false }

/-- Whether a map presents two links of eight lanes (R314, R386). -/
def mapX8X8 (m : Bytes) : Bool := mapField m 0x280 8 2 2 == 1

/-- Device reset begins (R488): every register takes its reset value, but for the always-on region, the fuses, the flash and what is
outside the block. (DEDUCED, unsafe: notes/assumptions/160.md) -/
def State.deviceReset (s : State) (cause : Nat) (closed : Bool) : State :=
  if s.pw.inReset then s
  else
    let s1 := s.outputsReset
    let f := s1.fuseReset
    { pending := s1.pending
      elapsed := s1.elapsed
      fresh := s1.fresh + 7
      out := s1.out
      fuse := f
      boot := { slotA := { s1.boot.slotA with lastFail := 0, failBlock := 0 }, slotB := { s1.boot.slotB with lastFail := 0, failBlock := 0 } }
      led := { retention := s1.led.retention }
      dbg := { tap := s1.dbg.tap }
      pcie := { x8x8 := mapX8X8 f.map, totalVfs := s1.pcie.totalNext }
      pw := { s1.pw with inReset := true, resetBegan := s1.elapsed, closing := false, bootDue := false, cause := cause, closed := closed } }

/-- The chains are all closed and signed. (DEDUCED, unsafe: notes/assumptions/161.md) -/
def State.chainsClosed (s : State) : Bool :=
  s.led.chains.all (fun (x : Nat × Chain) => !x.2.isOpen && x.2.closing.isEmpty && x.2.waiting.isEmpty)

/-- The close ends: every final checkpoint is signed and retained (R489). (DEDUCED, unsafe: notes/assumptions/160.md) -/
def State.closeCheck (s : State) : State :=
  if s.pw.closing && s.chainsClosed then s.deviceReset s.pw.closeCause true else s

/-- The modes whose chains a reset close closes (R487). -/
def Mode.closes (m : Mode) : Bool :=
  match m with
  | .priming => true
  | .service => true
  | .drain => true
  | _ => false

/-- A source of reset with reset close (R100, R487, R489): of pin `pin` (0 PERST_N, 1 RESET_N), recorded as `cause`.
(DEDUCED, unsafe: notes/assumptions/160.md; DEDUCED, unsafe: notes/assumptions/161.md) -/
def State.resetClose (s : State) (pin cause : Nat) : State :=
  if s.dead then s
  else if !s.glb.mode.closes || !s.pw.pwrGood then s.deviceReset cause false
  else if s.chainsClosed then s.deviceReset cause (s.glb.mode = .drain && s.glb.drainDone)
  else
    let s1 := (s.specials 0x13 true true (le pin 1)).outputsReset
    { s1 with
      ports.ports := tmap s1.ports.ports (fun x => { x with tx := [] })
      pcie.linkA := {}, pcie.linkB := {}, tosen.sessions := []
      pw := { s1.pw with closing := true, closePin := pin, closeCause := cause, closeBegan := s1.elapsed } }

/-- What a command that acted leaves to report is reported when the block works before and after; no command reaches the waiting
commands or elapsed time. -/
def State.report (t u : State) : State :=
  { (if t.dead || u.dead then u else u.ledFlush.pfcFlush.flushHalf.stepFlush.noteQuality t.quality) with pending := t.pending, elapsed := t.elapsed }

/-- Time passes and a pin, a rail or the always-on region acts, reset or no reset (R485, R487). -/
def State.runPins (s : State) (dt : Nat) (f : State → State) : Out :=
  let t := s.elapse dt
  .next (t.report (f (if t.dead then t else t.mpFlush.sluFlush)))

/-- The reset state and the fuses are not written by the row. -/
def State.keepPins (t r : State) : State := { r with pw := t.pw, fuse := t.fuse }

/-- Time passes, then the Ledger acts: it keeps running through a reset close, and device reset begins when the close ends (R100,
R489). (DEDUCED, unsafe: notes/assumptions/13.md) -/
def State.runLedger (s : State) (dt : Nat) (f : State → State) : Out :=
  let t := s.elapse dt
  .next (if t.pw.inReset then t else t.report (t.keepPins (f (if t.dead then t else t.mpFlush.sluFlush))).closeCheck)

end Sys2Proof.Machine
end

