-- ==== Sys2Proof/Machine/Lockdown.lean ====
section
/-! DEFINITION. Entry into Lockdown (R42, R43): the one operation that reaches into every unit at once. -/
namespace Sys2Proof.Machine

/-- A Tosen ring of PF0, which stays reachable in Lockdown. -/
def State.tosenRing (s : State) (k : Nat) : Bool := fnOfKey k == 0 && s.firmware && (tget s.rings.rings k {}).engine == 5

/-- A ring as Lockdown leaves it: its work ends without completions, but for the Tosen rings of PF0 (`live`); of PF0's completion rings
the replies and events that wait to be written stay, those from before the entry being gone (R273). (DEDUCED, unsafe: notes/assumptions/84.md) -/
def Ring.stopped (live : Nat → Bool) (k : Nat) (r : Ring) : Ring :=
  if live k then r
  else if fnOfKey k = 0 && r.kind ≥ 2 then { r with sump := r.sump.filter (fun (c : Comp) => match c.src with
    | some x => live x.1
    | none => true) }
  else { r with fetched := [], jobs := [], dma := none, sump := [], late := [], flushing := 0, flushed := false, reading := false, again := false
                fetching := false, posters := [], runFailed := false, peek := [] }

/-- A data port at R43 step 2 (R115): it sends remote fault, and a frame already started ends with an error control block. -/
def PortSt.lockdown (x : PortSt) : PortSt :=
  match x.state with
  | .disabled => x
  | .dormant => x
  | _ => { x with state := .held, stopped := false }

/-- The data ports at R43 step 2: heartbeat checking ends with `UP` (R132), replicas that wait are counted (R151), and the frame in
progress is aborted. -/
def State.portsLockdown (s : State) : State :=
  (s.ports.ports.map (·.1)).foldl (fun (s : State) p =>
    if p ≥ 24 then s
    else
      let s1 := (s.hbDown p).txEnds p (fun t => { t with aborted := true })
      s1.setPt p (s1.pt p).lockdown) s

/-- A thread of a core that stops (R231): loads out are discarded, deadlines and pending events cleared. -/
def Thread.stop (t : Thread) : Thread :=
  { t with loads := [], deadline := 0, dlValid := false, pend := 0, blocked := none, slot := none, abandoned := [], posts := 0
           item := none, subs := []
           state := if t.state = .inactive then .inactive else if t.state = .halted then .halted else .stalled }

/-- A core that stops, with what the fault registers record (R230, R231). -/
def Core.stop (c : Core) (now el cls tid pc val : Nat) : Core :=
  { c with state := .stopped, faultClass := cls, faultTid := tid, faultPc := pc, faultVal := val, faultTime := now, stoppedAt := el
           threads := tmap c.threads Thread.stop }

/-- Pump cores 0-95 stop (R211), a core already stopped keeping its class. -/
def State.coresLockdown (s : State) (cause : Nat) : State :=
  (List.range 96).foldl (fun s c =>
    if c < s.coreCount && (s.coreDom c).isSome then
      let x := tget s.cores.cores c {}
      if x.state = .stopped then s
      else { s with cores.cores := tset s.cores.cores c (x.stop s.now s.elapsed 0xF 0 0 cause) }
    else s) s

/-- A channel whose receiver core has stopped (R245): its staged message is abandoned, its messages not yet taken are lost. -/
def Channel.cut (c : Channel) : Channel :=
  { c with holder := none, staged := [], tries := [], ready := [], broken := true
           counters := bumpBy (bumpBy c.counters 1 (b2n c.holder.isSome)) 2 c.ready.length }

/-- A chain that the cause affects takes no more feeds and no final checkpoint (R43 step 5, R82). -/
def Chain.cut (c : Chain) : Chain := { c with isOpen := false, closing := [], waiting := [] }

/-- The session belongs to a command ring of a function other than PF0 (R43 step 3, R405). -/
def Session.offPf0 (x : Session) : Bool :=
  match x.path with
  | .ring fn _ => fn != 0
  | _ => false

/-- Entry into Lockdown on a cause of R30, with the chains it affects (R42, R43 steps 1 to 4). Nothing happens in a mode from which
no cause leads there. -/
def State.lockdownOn (s : State) (cause : Nat) (affected : List Nat) : State :=
  match s.glb.mode with
  | .boot => s
  | .recovery => s
  | .lockdown => s
  | _ =>
    let s := { s with led.chains := tmapK s.led.chains (fun d c => if affected.contains d then c.cut else c) }
    let s := { s with rings.rings := tmap s.rings.rings (fun r => { r with sump := [], late := [], fullStop := false, sumpFull := false, sumpTold := false }) }
    let s := { s with glb.inTransition := false, glb.lockT0 := s.elapsed, glb.armed := false }.changeMode .lockdown cause 0
    let s := s.setFailsafe false
    let s := { s with rings.rings := tmapK s.rings.rings (Ring.stopped s.tosenRing) }
    let live := fun (r : HRead) => r.fn == 0 && (r.what == 10 || (r.what < 2 && (s.tosenRing r.ring || (tget s.rings.rings r.ring {}).kind ≥ 2)))
    let s := { s with pcie.reads := s.pcie.reads.map (fun (r : HRead) => if live r then r else { r with dead := true })
                      pcie.held := s.pcie.held.filter live
                      pcie.fns := tmap s.pcie.fns (fun f => { f with outbox := [] }) }
    let s := s.endSessions Session.offPf0
    let s := s.coresLockdown cause
    let s := s.cores.chans.foldl (fun (s : State) (c : Nat × Channel) => 
        if c.2.broken then s
        else
          let at_ := c.2.holder.getD (0, 0)
          s.event [c.2.dom, 0] 0x0750 c.2.dom [c.1, 2, at_.1, at_.2, (s.thr at_.1 at_.2).state.code, s.ledgerNs])
      { s with cores.chans := tmap s.cores.chans Channel.cut }
    let s := { s with rm.ctxs := tmap s.rm.ctxs (fun c => { c with parked := [], fetching := false, writing := false }) }
    let s := s.portsLockdown
    let s := { s with slu.store := [], slu.events := [], pl.frames := [], pl.learns := [], pl.spoutWait := [], dma.waits := [], rdma.intake := []
                      tm.queues := tmap s.tm.queues (fun q => { q with frames := [], stored := 0 }) }
    let s := { s with ports.hb := { s.ports.hb with checking := none, waiting := none } }
    let s := { s with tb.step := none, tb.set := none, led.openDue := none, boot.updating := none }
    let s := if s.tb.rec0 then { s with tb.rec0 := false }.emit (.pin .recClk0 false) else s
    let s := if s.tb.rec1 then { s with tb.rec1 := false }.emit (.pin .recClk1 false) else s
    if s.tb.ppsHigh then s else s.emit (.pin .ref10mOut false)

/-- Entry into Lockdown on a cause that affects no chain. -/
def State.lockdown (s : State) (cause : Nat) : State := s.lockdownOn cause []

end Sys2Proof.Machine
end

