-- ==== Sys2Proof/Machine/RingOps.lean ====
section
/-! DEFINITION. The ring engine's shared operations (R252-R269, R324-R328): host reads, fetching, runs and their completions, the end
of a transmitted frame, halting and freezing a function. -/
namespace Sys2Proof.Machine

/-- Whether a function exists (R269, R314): the map presents its PF, and a VF is one of those enabled. -/
def State.fnExists (s : State) (f : Nat) : Bool :=
  s.pfOn (pfOf f) && (!isVf f || f % 4096 ≤ (s.pfn (pfOf f * 4096)).vfs)

/-- Whether a write to a BAR of a function acts (R31, R318): firmware runs, the link is up, the function exists with Memory Space Enable, is in D0 and not in
reset, and Lockdown has not stopped it. (DEDUCED, unsafe: notes/assumptions/105.md) -/
def State.barOpen (s : State) (f : Nat) : Bool :=
  s.firmware && (s.linkOf f).up && s.fnExists f && (s.pfn f).mse && !(s.pfn f).d3 && !(s.fn f).inReset && !(s.glb.mode == .lockdown && f != 0)

/-- Whether a function's configuration space answers (R315): a VF's from 1 ms after VF Enable; in Recovery function 0's alone. -/
def State.cfgOpen (s : State) (f : Nat) : Bool :=
  (s.glb.mode != .recovery || f == 0) && (s.linkOf f).up && s.fnExists f && (!isVf f || (s.pfn (pfOf f * 4096)).vfAt + ns 1000000 ≤ s.elapsed)

/-! Host reads (R324-R327). -/

/-- A function's completion timeout (R325), in 2^-16 ns. -/
def PFn.timeout (x : PFn) : Nat := ns (1000 * (if x.ctoVal = 1 then 50 else if x.ctoVal = 2 then 1000 else x.ctoUs))


/-- Whether a tag is free for one more read of a function (R314, R324).
(DESIGN CHOICE, unsafe: notes/assumptions/90.md; PRESUMED, unsafe: notes/assumptions/99.md) -/
def State.tagFree (s : State) (f : Nat) : Bool :=
  let out := s.pcie.reads.length + s.pcie.quarantine.length
  let link := (s.pcie.reads.filter (fun (r : HRead) => s.onB r.fn == s.onB f)).length
    + (s.pcie.quarantine.filter (fun (q : Nat × Nat × Nat) => s.onB q.2.2 == s.onB f)).length
  let own := (s.pcie.reads.filter (fun (r : HRead) => r.fn == f)).length + (s.pcie.quarantine.filter (fun (q : Nat × Nat × Nat) => q.2.2 == f)).length
  out < 16384 && (!s.pcie.x8x8 || link < 12288) && ((s.linkOf f).flit || own < (if (s.pfn f).tag10 then 1024 else 256))

/-- Host reads outstanding for the rings of a channel. (DEDUCED, unsafe: notes/assumptions/89.md) -/
def State.chanReads (s : State) (c : Nat) : Nat :=
  (s.pcie.reads.filter (fun (r : HRead) => (r.what == 2 || r.what == 3 || r.what == 4 || r.what == 5) && (s.ring r.ring).chan == some c)).length

/-- Whether the channel a read belongs to has 1,024 reads out (R276). -/
def State.chanFull (s : State) (r : HRead) : Bool :=
  (r.what == 2 || r.what == 3 || r.what == 4 || r.what == 5) && (match (s.ring r.ring).chan with
    | some c => s.chanReads c ≥ 1024
    | none => false)

/-- The lowest tag neither out nor in quarantine. -/
def State.freeTag (s : State) : Nat :=
  let n := s.pcie.reads.length + s.pcie.quarantine.length
  ((List.range (n + 1)).find? (fun t => !s.pcie.reads.any (fun (r : HRead) => r.tag == t) && (tget? s.pcie.quarantine t).isNone)).getD 0

/-- A host read issued, or held while its function may not send, no tag is free, or its channel has as many out as it may (R276, R324, R329). -/
def State.issue (s : State) (r : HRead) : State :=
  if s.mute r.fn then s
  else if s.waits r.fn || !s.tagFree r.fn || s.chanFull r then { s with pcie.held := s.pcie.held ++ [r] }
  else
    let r := { r with tag := s.freeTag, at_ := s.elapsed, cto := (s.pfn r.fn).timeout }
    ({ s with pcie.reads := s.pcie.reads ++ [r] }.linkBusy r.fn).emit (.hostRead r.fn r.addr r.len r.what)

def State.hread (s : State) (f what ring addr len sub : Nat) : State :=
  s.issue { tag := 0, fn := f, what := what, ring := ring, addr := addr, len := len, sub := sub }

/-- Domain, role and weight of a channel: its assignment, or the default. (DEDUCED, unsafe: notes/assumptions/89.md) -/
def State.chanCfg (s : State) (c : Nat) : Nat × Nat × Nat :=
  match (tget s.dma.chans c {}).cfg with
  | some x => x
  | none =>
    let n := 64 / s.domCount
    match s.doms.getD (c / n) 16 with
    | 16 => (16, 0, 1)
    | d => (d, c % n % 4, 1)

/-- Whether nothing holds a read back any more. -/
def State.goes (s : State) (r : HRead) : Bool :=
  s.mute r.fn || (!s.waits r.fn && s.tagFree r.fn && !s.chanFull r)

/-- The channel a read is a request of (R276). -/
def State.readChan (s : State) (r : HRead) : Option Nat :=
  if r.what == 2 || r.what == 3 || r.what == 4 || r.what == 5 then (s.ring r.ring).chan else none

/-- Of channels with work, the one that has requests of its turn left, else the next by number (R276).
(DESIGN CHOICE, unsafe: notes/assumptions/90.md) -/
def State.turnOf (s : State) (c0 : Nat) (cs : List Nat) : Nat :=
  let t := s.dma.turn
  if t.2 > 0 && cs.contains t.1 then t.1
  else
    let dist := fun (c : Nat) => (c + 63 - t.1) % 64
    cs.foldl (fun b c => if dist c < dist b then c else b) c0

/-- A channel issues one request of its turn of as many as its weight (R276). -/
def State.spendTurn (s : State) (c : Nat) : State :=
  let t := s.dma.turn
  { s with dma.turn := (c, (if t.2 > 0 && t.1 == c then t.2 else (s.chanCfg c).2.2) - 1) }

/-- The held read that goes next: the oldest one that nothing holds back any more, or, where that is a channel's, the oldest one of the
channel whose turn it is; and the state with that turn spent. -/
def State.nextHeld (s : State) : Option (HRead × State) :=
  let l := s.pcie.held.filter s.goes
  match l.head? with
  | none => none
  | some r => match s.readChan r with
    | none => some (r, s)
    | some c0 =>
      let c := s.turnOf c0 (l.filterMap s.readChan)
      some ((l.find? (fun x => s.readChan x == some c)).getD r, s.spendTurn c)

/-- As many held reads as can go, one after another. -/
def State.issueNext (s : State) : Nat → State
  | 0 => s
  | n + 1 => match s.nextHeld with
    | none => s
    | some x => ({ x.2 with pcie.held := x.2.pcie.held.erase x.1 }.issue x.1).issueNext n

/-- The held reads tried again (R276, R324, R329). -/
def State.issueHeld (s : State) : State := s.issueNext s.pcie.held.length

/-- The writes and reads of a function that waited for it go out (R329). -/
def State.unwait (s : State) (f : Nat) : State :=
  let s1 := if s.waits f || s.mute f then s
    else (s.setPfn f { s.pfn f with outbox := [] }).emits (s.pfn f).outbox
  s1.issueHeld

/-- The oldest read out that satisfies `p`, and the state without it. -/
def State.takeRead (s : State) (p : HRead → Bool) : Option (HRead × State) :=
  match s.pcie.reads.find? p with
  | none => none
  | some r => some (r, { s with pcie.reads := s.pcie.reads.filter (fun x => x.tag != r.tag) }.issueHeld)

/-! Indices and descriptors (R253, R256). -/

/-- The engine code of a transmit, DMA or storage ring, or an RDMA ring bound as a send ring (R39 step 1); `send` tells the last. -/
def Ring.newWork (r : Ring) (send : Bool) : Bool := r.engine == 0 || r.engine == 2 || r.engine == 4 || (r.engine == 3 && send)

/-- Whether an RDMA ring is bound as a send ring (R39, R341). -/
def State.isSend (s : State) (k : Nat) : Bool := s.rdma.qps.any (fun (q : Nat × Qp) => q.2.storage.isNone && q.2.sendRing == k)

/-- The host-written index of a ring read after a doorbell: one read at a time, and one more after it (R256). -/
def State.readIndex (s : State) (k : Nat) : State :=
  let r := s.ring k
  if r.reading then s.setRing k { r with again := true }
  else (s.setRing k { r with reading := true }).hread (fnOfKey k) 0 k (if r.kind ≥ 2 then r.idxAddr + 4 else r.idxAddr) 4 0

/-- A slot that belongs to the descriptor before it: the schedule entry of R200, the extension of R344. -/
def Desc.isEntry (d : Desc) : Bool := d.type == 0xFF

/-- DMA and RDMA descriptors fetched and not completed (R276). -/
def State.inFlight (s : State) : Nat :=
  (s.rings.rings.map (fun (x : Nat × Ring) => if x.2.engine == 2 || x.2.engine == 3 then (x.2.fetched.filter (fun d => !d.isEntry)).length else 0)).sum

/-- Slots of DMA and RDMA rings whose reads are out. -/
def State.comingIn (s : State) : Nat :=
  ((s.pcie.reads ++ s.pcie.held).map (fun (r : HRead) =>
    if r.what == 1 && ((s.ring r.ring).engine == 2 || (s.ring r.ring).engine == 3) then r.len / 32 else 0)).sum

/-- Requests of a Tosen ring fetched and not answered (R409). -/
def Ring.unanswered (r : Ring) : Nat := (r.fetched.filter (fun d => !d.ended)).length

/-- Whether a submission ring may fetch (R266 step 1, R268, R276, R328, R329): in Drain only the descriptors already fetched complete (R39). -/
def State.mayFetch (s : State) (k : Nat) : Bool :=
  let r := s.ring k
  let f := fnOfKey k
  r.enable && r.kind < 2 && !r.fetching && r.host != (r.dev + r.peek.length) % 2 ^ 32 && !s.mute f && !(s.fn f).halted && !(s.pfn f).d3
    && !(s.ring (rkey f r.cq)).fullStop && (s.glb.mode != .lockdown || r.engine == 5)
    && !(s.glb.mode == .drain && r.newWork (s.isSend k))
    && !((r.engine == 2 || r.engine == 3) && s.inFlight + s.comingIn ≥ 65536) && !(r.engine == 5 && r.unanswered ≥ 16)

/-- The descriptors posted and not read are read, up to the ring's last slot (R256); of a Tosen ring, as many as its window has room for. -/
def State.fetch (s : State) (k : Nat) : State :=
  if !s.mayFetch k then s
  else
    let r := s.ring k
    let from_ := (r.dev + r.peek.length) % 2 ^ 32
    let n0 := min ((r.host + 2 ^ 32 - from_) % 2 ^ 32) (r.entries - from_ % r.entries)
    let n := if r.engine = 5 then min n0 (16 - r.unanswered)
      else if r.engine = 2 || r.engine = 3 then min n0 (65536 - (s.inFlight + s.comingIn)) else n0
    (s.setRing k { r with fetching := true }).hread (fnOfKey k) 1 k (r.base + from_ % r.entries * 32) (32 * n) 0

/-- The submission rings of a function that feed its completion ring `k`. -/
def State.feeders (s : State) (k : Nat) : List Nat :=
  (s.rings.rings.filter (fun (x : Nat × Ring) => fnOfKey x.1 == fnOfKey k && x.2.enable && x.2.kind < 2 && x.2.cq == k % 1024)).map (·.1)

/-- Events firmware has held for a completion ring, written once its sump has room (R412): the first after a loss names it. -/
def State.flushHeld (s : State) (k : Nat) : Nat → State
  | 0 => s
  | n + 1 =>
    if (s.ring k).sumpFull then s
    else
      match s.tosen.sessions.find? (fun x => !x.held.isEmpty && match x.path with
          | .ring fn rid => s.replyRing fn rid == k
          | _ => false) with
      | none => s
      | some x =>
        match x.held with
        | (op :: dom :: t :: fs) :: rest =>
          ((s.onSession x.path (fun y => { y with held := rest, lostNow := 0 })).post k (eventComp x op dom t x.lostNow fs)).flushHeld k n
        | _ => s

/-- Room seen on a completion ring: the sump is written, and the rings that feed it fetch again once it is empty (R266 step 4). -/
def State.roomSeen (s : State) (k : Nat) : State :=
  let s1 := (s.flushSump k 65536).flushHeld k 1024
  if (s1.ring k).fullStop then s1 else (s1.feeders k).foldl State.fetch s1

/-! Halting and freezing (R268, R328). -/

/-- RING_HALT_INFO (R271). -/
def RingFn.haltInfo (x : RingFn) : Nat := x.haltEntry + 2 ^ 32 * x.haltRing + 2 ^ 42 * x.haltReason + 2 ^ 46 * x.haltSub

/-- A malformed entry (R268): a function of TD0 leads to Lockdown; any other is halted. -/
def State.malformed (s : State) (k entry reason sub : Nat) : State :=
  let f := fnOfKey k
  let s1 := s.ringCount f 4
  if s.fnDom f = 0 then s1.lockdown 0x10
  else if (s.fn f).halted then s1
  else
    let x := { s1.ringFn f with haltEntry := entry, haltRing := k % 1024, haltReason := reason, haltSub := sub }
    let s2 := (s1.setRingFn f x).putFn f { s1.fn f with halted := true }
    s2.event [s2.fnDom f, 0] 0x0950 (s2.fnDom f) [fnCode f, k % 1024, 3, x.haltInfo, s2.ledgerNs]

/-- GLB_FN_FREEZE (R317). -/
def PFn.freezeReg (x : PFn) : Nat := b2n x.frozen + 2 * x.cause + 16 * x.what + 256 * x.ring

/-- PCIE_EVENT (R333). -/
def State.pcieEvent (s : State) (f cause : Nat) (more : List Nat) : State :=
  s.event [0, s.fnDom f] 0x0930 (s.fnDom f) ([fnCode f, cause] ++ more ++ [s.ledgerNs])

/-- A ring whose fetched and in-flight work has ended without completions. -/
def Ring.dropWork (r : Ring) : Ring :=
  { r with fetched := [], jobs := [], dma := none, flushing := 0, flushed := false, reading := false, again := false, fetching := false
           runFailed := false, posters := [], peek := [] }

/-- The reads of a function no longer wanted: those out end with their data discarded, those held are not issued.
(DEDUCED, unsafe: notes/assumptions/107.md) -/
def State.dropReads (s : State) (f : Nat) : State :=
  { s with pcie.reads := s.pcie.reads.map (fun (r : HRead) => if r.fn = f then { r with dead := true } else r)
           pcie.held := s.pcie.held.filter (fun (r : HRead) => r.fn != f) }

/-- Containment freeze of a function (R328). -/
def State.freeze (s : State) (f cause what ring : Nat) : State :=
  if (s.pfn f).frozen then s
  else
    let s1 := { s with rings.rings := tmapK s.rings.rings (fun k r => if fnOfKey k = f then r.dropWork else r) }.dropReads f
    let x := { s1.pfn f with frozen := true, cause := cause, what := what, ring := ring, outbox := [] }
    ((s1.setPfn f x).pcieCount 7).pcieEvent f 2 [x.freezeReg]

/-! Runs and their completions (R254, R263, R281). -/

/-- Whether a descriptor asks for a completion. -/
def Desc.rcSet (d : Desc) : Bool := d.flags.testBit 0 || d.rc

/-- The first run of a ring: its descriptors up to the first that asks for a completion, with a schedule entry that follows it. -/
def firstRun : List Desc → Option (List Desc)
  | [] => none
  | d :: r => if d.rcSet then some (d :: r.takeWhile Desc.isEntry) else (firstRun r).map (fun x => d :: x)

/-- The flush reads a run needs (R281): its last host byte, and the last byte of each `FLUSH_HERE` entry, each with its descriptor. -/
def runFlush (run : List Desc) : List (Nat × Nat) :=
  let last := ((run.filter (fun d => d.wrote.isSome)).getLast?).map (fun d => (d.wrote.getD 0, d.idx))
  last.toList ++ run.flatMap (fun d => d.here.map (fun a => (a, d.idx)))

/-- The batch completion of a run (R263). -/
def runComp (k : Nat) (run : List Desc) : Comp :=
  let rc := ((run.filter (fun d => d.rcSet)).getLast?).getD {}
  let st := b2n (run.any (fun d => d.dstatus != 0)) + 2 * b2n rc.stamp.isSome + 4 * b2n (run.any (fun d => d.notSent))
    + 8 * b2n (run.any (fun d => d.dstatus == 1))
  let t := rc.stamp.getD (0, 0, 0)
  { data := stampBytes t.1 t.2.1 ++ le st 1 ++ le rc.idx 2 ++ le (k % 1024 + 1024 * t.2.2) 2
    timed := rc.stamp.isNone
    src := (run.getLast?).map (fun d => (k, (d.idx + 1) % 2 ^ 32)) }

/-- Counter `i` of a channel `k` higher (R284). -/
def State.chanCount (s : State) (c i k : Nat) : State :=
  { s with dma.chans := tupd s.dma.chans c {} (fun x => { x with counters := bumpBy x.counters i k }) }

/-- Every run of a ring that has ended is completed in order, each after its flush reads (R263, R265, R281). -/
def State.tryRuns (s : State) (k : Nat) : Nat → State
  | 0 => s
  | n + 1 =>
    let r := s.ring k
    match firstRun r.fetched with
    | none => s
    | some run =>
      if run.any (fun d => !d.ended || d.acks > 0) || r.flushing > 0 then s
      else if !r.flushed && !(runFlush run).isEmpty then
        let s0 := match r.chan with
          | some c => s.chanCount c 4 (runFlush run).length
          | none => s
        let s1 := s0.setRing k { r with flushing := (runFlush run).length }
        (runFlush run).foldl (fun s x => s.hread (fnOfKey k) 5 k x.1 0 x.2) s1
      else
        let s1 := s.setRing k { r with fetched := r.fetched.drop run.length, flushed := false }
        ((s1.post (rkey (fnOfKey k) r.cq) (runComp k run)).fetch k).tryRuns k n

/-- As many runs as the ring has descriptors. -/
def State.runs (s : State) (k : Nat) : State := s.tryRuns k ((s.ring k).fetched.length + 1)

/-- One descriptor of a ring changed. -/
def Ring.onDesc (r : Ring) (i : Nat) (f : Desc → Desc) : Ring :=
  { r with fetched := r.fetched.map (fun d => if d.idx = i && !d.isEntry then f d else d) }

/-- The slot of index `i`. -/
def Ring.slotAddr (r : Ring) (i : Nat) : Nat := r.base + i % r.entries * 32

/-- A descriptor ends with a status; one other than success is written to its slot (R258). -/
def State.descEnd (s : State) (k i st : Nat) : State :=
  let r := s.ring k
  let s1 := s.setRing k (r.onDesc i (fun d =>
    { d with started := true, ended := true, dstatus := st, wrote := if st = 0 then d.wrote else some (r.slotAddr i + 31) }))
  if st = 0 then s1 else s1.hostWr (fnOfKey k) (.hostWrite (fnOfKey k) (r.slotAddr i + 31) (le st 1))

/-- A flush read of a run has ended; one that failed ends its descriptor with 0x10, the count of a transfer being its `LEN` (R283). -/
def State.flushDone (s : State) (k i : Nat) (good : Bool) : State :=
  let r := s.ring k
  if r.flushing = 0 then s
  else
    let s0 := if good || r.engine ≠ 2 then s else match r.fetched.find? (fun d => d.idx == i) with
      | some d => s.hostWr (fnOfKey k) (.hostWrite (fnOfKey k) (r.slotAddr i + 20) (le d.len 4))
      | none => s
    let s1 := if good then s else s0.descEnd k i 0x10
    let r1 := s1.ring k
    (s1.setRing k { r1 with flushing := r1.flushing - 1, flushed := r1.flushing = 1 }).runs k

/-! The end of a transmitted frame (R77, R260). -/

/-- A 16-byte stamp block (R76). -/
def stampBlock (t q port flags len : Nat) : Bytes := stampBytes t q ++ le port 1 ++ le flags 1 ++ le 0 1 ++ le len 2

/-- FLAGS of a stamp block: direction, itemisation (1 itemised, 2 unitemised), a failed FCS, not sent. -/
def blockFlags (dir item : Nat) (bad notSent : Bool) : Nat :=
  dir + 2 * b2n (item = 1) + 4 * b2n (item = 2) + 8 * b2n bad + 16 * b2n notSent

/-- The frame of a ring job has ended everywhere: its descriptors end, sent or with status `st`. -/
def State.jobEnd (s : State) (k : Nat) (j : TxJob) (st : Nat) : State :=
  let idx := (List.range j.count).map (fun i => (j.first + i) % 2 ^ 32)
  let code := if j.sent.isSome then 0 else st
  let s1 := idx.foldl (fun s i => s.descEnd k i code) s
  let s2 := idx.foldl (fun s i => s.setRing k ((s.ring k).onDesc i (fun d =>
    { d with notSent := j.sent.isNone, stamp := if d.rcSet then j.sent else d.stamp }))) s1
  let r := s2.ring k
  let s3 := s2.setRing k { r with jobs := r.jobs.filter (fun x => x.first != j.first) }
  (match r.chan with
    | some c => s3.chanCount c (if code = 3 || code = 4 then 3 else 2) (if code = 3 || code = 4 then 1 else j.count)
    | none => s3).runs k

/-- One replica of a ring's frame has ended on a port: sent with its stamp and quality byte, or not, with the status of a frame sent
nowhere. Its stamp report is written, in the place of its port (R77). (DESIGN CHOICE, unsafe: notes/assumptions/85.md) -/
def State.txEnd (s : State) (k first port : Nat) (sent : Option (Nat × Nat)) (item len st : Nat) : State :=
  let r := s.ring k
  match r.jobs.find? (fun j => j.first == first) with
  | none => s
  | some j =>
    let s1 := match j.report with
      | none => s
      | some a =>
        let at_ := a + 16 * (j.ports.takeWhile (fun p => p != port)).length
        let b := match sent with
          | some x => stampBlock x.1 x.2 port (blockFlags 1 item false false) len
          | none => stampBlock 0 0 port (blockFlags 1 0 false true) (s.freeBits 16)
        let s0 := (if sent.isSome then s else s.used).hostWr (fnOfKey k) (.hostWrite (fnOfKey k) at_ b)
        s0.setRing k ((s0.ring k).onDesc j.first (fun d => { d with wrote := some (at_ + 15) }))
    let best := match j.sent, sent with
      | some b, some x => if port < b.2.2 then some (x.1, x.2, port) else some b
      | none, some x => some (x.1, x.2, port)
      | b, none => b
    let j1 := { j with left := j.left - 1, sent := best }
    let r1 := s1.ring k
    let s2 := s1.setRing k { r1 with jobs := r1.jobs.map (fun x => if x.first = first then j1 else x) }
    if j1.left = 0 then s2.jobEnd k j1 st else s2

/-- A queued or stored frame that came from a ring ends unsent on a port, with status `st` (0x01 drained, 0x02 not sent). -/
def State.txLost (s : State) (f : Frame) (port st : Nat) : State :=
  match f.desc with
  | none => s
  | some (k, first) => s.txEnd k first port none 0 0 st

end Sys2Proof.Machine
end

