-- ==== Sys2Proof/Machine/MemOps.lean ====
section
/-! DEFINITION. The memories behind the guard code (R287-R290, R447-R458): what is mapped, reads and writes of cistern space and local
memory, poison, the error log and page retirement. -/
namespace Sys2Proof.Machine

def State.rmDom (s : State) (d : Nat) : RmDom := tget s.rm.doms d {}
def State.setRmDom (s : State) (d : Nat) (x : RmDom) : State := { s with rm.doms := tset s.rm.doms d x }

/-- A page of 64 KiB (R287). -/
def pageSize : Nat := 65536

/-- Whether a data page of a domain's cistern space is mapped (R290, R292). -/
def RmDom.pageOn (x : RmDom) (p : Nat) : Bool := x.mapped.any (fun m => m.1 ≤ p && p < m.1 + m.2)

/-- Whether `n` bytes from a cistern address lie on mapped data pages (R290). -/
def State.cisternOk (s : State) (d a n : Nat) : Bool :=
  n == 0 || (a + n ≤ 2 ^ 36 && (List.range ((a + n - 1) / pageSize - a / pageSize + 1)).all (fun i => (s.rmDom d).pageOn (a / pageSize + i)))

/-- The item pool of a domain, which cores read (R290). -/
def itemBase : Nat := 0xF0000000
def State.itemOk (s : State) (d a n : Nat) : Bool := itemBase ≤ a && a + n ≤ itemBase + (s.rmDom d).itemMib * 2 ^ 20

/-- How many symbols a 36-bit mask names. -/
def symbols (m : Nat) : Nat := ((List.range 36).filter (fun i => m.testBit i)).length

/-- A record of the error log (R457). -/
def memRecord (t addr store cls dom source stack pch syms action : Nat) : Bytes :=
  le (nsOf t) 8 ++ le addr 8 ++ le store 1 ++ le cls 1 ++ le dom 1 ++ le source 1 ++ le stack 1 ++ le pch 1 ++ le syms 5 ++ le action 1
    ++ le 0 4

/-- A record as the fields of an event. -/
def recordFields (r : Bytes) : List Nat := (List.range 4).map (fun i => ofLe (slice r (8 * i) 8))

/-- Counter `i` of a stack, of the SRAM and fabric group, or of a domain (R459). -/
def State.stackCount1 (s : State) (st i : Nat) : State :=
  { s with mem.stackErrs := tset s.mem.stackErrs st (bump (tget s.mem.stackErrs st [0, 0, 0, 0, 0]) i) }
def State.sramCount (s : State) (i : Nat) : State := { s with mem.sram := bump s.mem.sram i }
def State.memDom (s : State) (d i : Nat) : State := { s with mem.doms := tset s.mem.doms d (bump (tget s.mem.doms d [0, 0]) i) }

/-- MEM_EVENT (R458): to TD0 and the owner; of a shared store, to TD0 only. (DEDUCED, unsafe: notes/assumptions/149.md) -/
def State.memEvent (s : State) (owner cause : Nat) (more : List Nat) : State :=
  s.event (if owner < 16 then [0, owner] else [0]) 0x0830 (if owner < 16 then owner else 0) ([cause] ++ more ++ [s.ledgerNs])

/-- A corrected word (R449, R450, R457): logged, written back, and counted for its stack or the SRAM; more than `CE_ALERT` in a stack in one
2^30 ns grid period is reported once. -/
def State.corrected (s : State) (addr store dom source stack pch mask : Nat) : State :=
  let n := symbols mask
  let hbm := store = 0
  let rec_ := memRecord s.now addr store n (if dom < 16 then dom else 255) source (if hbm then stack else 0xFF) (if hbm then pch else 0xFF) mask (if store = 10 then 0 else 1)
  let s1 := { s with mem.logC := (s.mem.logC ++ [rec_]).drop (s.mem.logC.length + 1 - 192) }
  if !hbm then s1.sramCount (if store = 10 then 2 else 0)
  else
    let s2 := s1.stackCount1 stack (n - 1)
    let s3 := if source = 1 then s2.stackCount1 stack 4 else s2
    let period := s.now / grid 30
    let o := tget s3.mem.cePeriod stack (period, 0)
    let c := if o.1 = period then o.2 + 1 else 1
    let s4 := { s3 with mem.cePeriod := tset s3.mem.cePeriod stack (period, c) }
    if c = s4.mem.cfg.ceAlertK * 1024 + 1 then s4.memEvent 255 4 (recordFields rec_) else s4

/-- The key of a data page among the pages marked for retirement. -/
def dataPageKey (d p : Nat) : Nat := d * 2 ^ 20 + p % 2 ^ 20

/-- A page to be retired (R456), by its owner's key and its number: when it is freed, or at once where it is a data page that its pool
holds free. (DEDUCED, unsafe: notes/assumptions/148.md) -/
def State.markPage (s : State) (dom : Nat) (p : Nat × Nat) (more : List Nat) : State :=
  if s.mem.marked.contains p || s.mem.retired.contains p.2 then s
  else
    let free := p.1 < 16 * 2 ^ 20 && !(s.rmDom (p.1 / 2 ^ 20)).pageOn (p.1 % 2 ^ 20)
      && !s.rm.zeroing.any (fun z => z.1 == p.1 / 2 ^ 20 && z.2.1 ≤ p.1 % 2 ^ 20 && p.1 % 2 ^ 20 < z.2.1 + z.2.2)
    let s1 : State := if free then { s with mem.retired := s.mem.retired ++ [p.2] } else { s with mem.marked := s.mem.marked ++ [p] }
    s1.memEvent dom 2 more

/-- The UE report of a grid period that has ended (R458): of a domain, or of the shared stores (16). Past 64 of them the count is sent. -/
def State.uePeriodEnd (s : State) (k : Nat) : State :=
  match tget? s.mem.uePeriod k with
  | none => s
  | some (p, n) =>
    if p ≥ s.now / grid 20 then s
    else
      let s1 : State := { s with mem.uePeriod := tdel s.mem.uePeriod k }
      if n > 64 && s.glb.mode ≠ .lockdown then s1.memEvent (if k < 16 then k else 255) 1 [n] else s1

/-- A UE (R449, R451, R452, R456, R458): logged, counted and reported; a page of HBM is marked for retirement; in TD0's or shared state it
leads to Lockdown, in an unassigned core's (`dom` 16) to nothing more. `page` is the owner's key and the page number of an HBM page; `affected` the chains the word belongs to.
(DEDUCED, unsafe: notes/assumptions/149.md) -/
def State.ueFound (s : State) (addr store dom source stack pch : Nat) (page : Option (Nat × Nat)) (affected : List Nat) : State :=
  let fatal := dom = 0 || dom > 16 || s.glb.mode = .factory
  let act := if s.glb.mode = .lockdown || fatal then 4 else if page.isSome then 3 else 2
  let hbm := store = 0
  let rec_ := memRecord s.now addr store 3 (if dom < 16 then dom else 255) source (if hbm then stack else 0xFF) (if hbm then pch else 0xFF) 0 act
  let s1 := { s with mem.logU := (s.mem.logU ++ [rec_]).drop (s.mem.logU.length + 1 - 64), mem.lastUe := addr }
  let s2 := if hbm then s1.stackCount1 stack 2 else s1.sramCount (if store = 10 then 3 else 1)
  let s3 := if dom < 16 then s2.memDom dom 0 else s2
  if s.glb.mode = .lockdown then s3
  else
    let k := if dom < 16 then dom else 16
    let s3 := s3.uePeriodEnd k
    let period := s3.now / grid 20
    let c := (tget s3.mem.uePeriod k (period, 0)).2 + 1
    let s4 := { s3 with mem.uePeriod := tset s3.mem.uePeriod k (period, c) }
    let s5 := if c ≤ 64 then s4.memEvent dom 1 (recordFields rec_) else s4
    let s6 := match page with
      | some p => s5.markPage dom p (recordFields rec_)
      | none => s5
    if fatal then s6.lockdownOn 0x11 affected else s6

/-- The owner of a word of the byte store, and whether it is in HBM: cistern space of a domain, or local memory of a core (16: of none).
(DEDUCED, unsafe: notes/assumptions/149.md) -/
def State.wordOwner (s : State) (w : Nat) : Nat × Bool :=
  let a := 32 * w
  if a ≥ 2 ^ 80 then ((a - 2 ^ 80) / 2 ^ 64, true)
  else
    let c := (a - 2 ^ 72) / 2 ^ 20
    if c ≥ 96 then (255, false) else ((s.coreDom c).getD 16, false)

/-- A word decoded as it is read (R449): symbols that were inverted are corrected, or the word is poisoned and reported. Where in HBM it
lies is the device's own placement, a free value. (DESIGN CHOICE, unsafe: notes/assumptions/146.md) -/
def State.decodeWord (s : State) (w : Nat) : State :=
  match tget? s.mem.bad w with
  | none => s
  | some mask =>
    let o := s.wordOwner w
    let a := 32 * w
    let s0 := { s with mem.bad := tdel s.mem.bad w }
    -- a poisoned word that takes a further error is poisoned already (R451)
    if s.mem.poison.contains w then s0 else
    let phys := s.freeBits 38
    let stack := phys % s.stackCount
    let addr := if o.2 then phys else (a - 2 ^ 72) % 2 ^ 20
    let store := if o.2 then 0 else if (a - 2 ^ 72) / 2 ^ 20 ≥ 96 then 8 else 3
    let s1 := if o.2 then s0.used else s0
    if symbols mask ≤ 2 then s1.corrected addr store o.1 0 stack (phys / 256 % 32) mask
    else
      let page := if o.2 then some (dataPageKey o.1 ((a - 2 ^ 80) % 2 ^ 64 / pageSize), phys / pageSize) else none
      { s1 with mem.poison := s1.mem.poison ++ [w] }.ueFound addr store o.1 0 stack (phys / 256 % 32) page []

/-- The 32-byte words that `n` bytes from an address touch. -/
def wordsOf (a n : Nat) : List Nat := if n = 0 then [] else (List.range ((a + n - 1) / 32 - a / 32 + 1)).map (fun i => a / 32 + i)

/-- The words of a range read: each inverted one is decoded. -/
def State.decodeRange (s : State) (a n : Nat) : State :=
  if s.mem.bad.isEmpty then s else (s.mem.bad.filter (fun e => a / 32 ≤ e.1 && e.1 * 32 < a + n)).foldl (fun s e => s.decodeWord e.1) s

/-- Whether a range holds a poisoned word. -/
def State.poisoned (s : State) (a n : Nat) : Bool := n > 0 && s.mem.poison.any (fun w => a < 32 * w + 32 && 32 * w < a + n)

/-- The poisoned words of a range. -/
def State.poisonedWords (s : State) (a n : Nat) : List Nat := s.mem.poison.filter (fun w => a < 32 * w + 32 && 32 * w < a + n)

/-- Bytes read by a consumer for domain `d` (R449, R453): none where a word is poisoned, which is counted; words of HBM found poisoned
before this read count in POISON_READS. -/
def State.consume (s : State) (d a n : Nat) : State × Option Bytes :=
  let s1 := s.decodeRange a n
  if s1.poisoned a n then
    let s2 := if a ≥ 2 ^ 80 then (s.poisonedWords a n).foldl (fun (s : State) _ => (s.stackCount1 (s.freeBits 2 % s.stackCount) 3).used) s1 else s1
    (s2.memDom d 1, none)
  else (s1, some (mreads s1.ram a n))

/-- Bytes written to the byte store: a word written in part is read and merged first (R450). -/
def State.store (s : State) (a : Nat) (b : Bytes) : State :=
  let ends := (wordsOf a b.length).filter (fun w => 32 * w < a || a + b.length < 32 * w + 32)
  let s1 := if s.mem.bad.isEmpty then s else ends.foldl State.decodeWord s
  s1.ramWrite a b

/-- A range zeroed, its poison cleared (R451). -/
def State.zero (s : State) (a n : Nat) : State :=
  let inside := fun w => a ≤ 32 * w && 32 * w + 32 ≤ a + n
  { s with ram := mzero s.ram a n, mem.poison := s.mem.poison.filter (fun w => !inside w), mem.bad := s.mem.bad.filter (fun e => !inside e.1) }

/-- A pass over SRAM that has ended (R455): its successor runs at the pace then set. -/
def State.rollSram (s : State) : State :=
  let l := grid s.mem.cfg.sram
  let el := s.elapsed - s.mem.sramAt
  if el < l then s
  else
    let sram := s.mem.sramNext.getD s.mem.cfg.sram
    { s with mem.cfg := { s.mem.cfg with sram := sram }, mem.sramNext := none, mem.sramAt := s.mem.sramAt + l + (el - l) / grid sram * grid sram }

/-- Scrub passes that have ended (R454, R455): each one's successor runs at the settings then in force. (DEDUCED, unsafe: notes/assumptions/150.md) -/
def State.rollPass (s : State) : State :=
  let s := s.rollSram
  let l := grid s.mem.cfg.scrub
  let el := s.elapsed - s.mem.passAt
  if el < l then s
  else
    let cfg := { s.mem.cfgNext.getD s.mem.cfg with sram := s.mem.cfg.sram }
    let more := (el - l) / grid cfg.scrub
    { s with mem.cfg := cfg, mem.cfgNext := none, mem.passAt := s.mem.passAt + l + more * grid cfg.scrub
             mem.passes := min 65535 (s.mem.passes + 1 + more), mem.c2 := [] }

end Sys2Proof.Machine
end

