-- ==== Sys2Proof/Machine/TmOps.lean ====
section
/-! DEFINITION. The traffic manager's shared operations (R180-R192): ranges, the packet buffer, metering, admission, the schedulers'
deficit round robin, and what a port's MAC makes of a frame (R118-R120). -/
namespace Sys2Proof.Machine

def State.queue (s : State) (q : Nat) : Queue := tget s.tm.queues q {}
def State.setQueue (s : State) (q : Nat) (x : Queue) : State := { s with tm.queues := tset s.tm.queues q x }
def State.meter (s : State) (m : Nat) : Meter := tget s.tm.meters m {}
def State.setMeter (s : State) (m : Nat) (x : Meter) : State := { s with tm.meters := tset s.tm.meters m x }
def State.tmDom (s : State) (d : Nat) : TmDom := tget s.tm.doms d {}
def State.setTmDom (s : State) (d : Nat) (x : TmDom) : State := { s with tm.doms := tset s.tm.doms d x }
def State.tmCount (s : State) (i : Nat) : State := { s with tm.counters := bump s.tm.counters i }

/-- The place of a domain among the enabled ones, ascending from 0. -/
def State.domRank (s : State) (d : Nat) : Nat := (s.doms.takeWhile (fun x => x != d)).length

/-- The default share of `n` things: the i-th enabled domain holds the i-th ⌊n / D⌋ (R180). -/
def State.defRange (s : State) (n d : Nat) : Nat × Nat :=
  if s.domOn d then (s.domRank d * (n / s.domCount), n / s.domCount) else (0, 0)

/-- Queue and meter range of a domain (R180). -/
def State.queueRange (s : State) (d : Nat) : Nat × Nat := (s.tmDom d).queues.getD (s.defRange 32768 d)
def State.meterRange (s : State) (d : Nat) : Nat × Nat := (s.tmDom d).meters.getD (s.defRange 32768 d)
def inRange (r : Nat × Nat) (n : Nat) : Bool := r.1 ≤ n && n < r.1 + r.2
/-- The domain that owns a queue or a meter. -/
def State.queueDom (s : State) (q : Nat) : Option Nat := s.doms.find? (fun d => inRange (s.queueRange d) q)
def State.meterDom (s : State) (m : Nat) : Option Nat := s.doms.find? (fun d => inRange (s.meterRange d) m)
def State.sampleQuota (s : State) (d : Nat) : Nat := (s.tmDom d).sampled.getD (4096 / s.domCount)

/-- Cells of a frame (R184). -/
def cells (n : Nat) : Nat := ceilDiv n 256
def Frame.cells (f : Frame) : Nat := Sys2Proof.Machine.cells f.data.length

/-- Whether two ranges overlap. -/
def rangesMeet (a b : Nat × Nat) : Bool := a.2 > 0 && b.2 > 0 && a.1 < b.1 + b.2 && b.1 < a.1 + a.2

/-- Ranges of the sixteen domains that lie within `n` and do not overlap. -/
def rangesOk (n : Nat) (l : List (Nat × Nat)) : Bool :=
  l.all (fun r => r.1 + r.2 ≤ n || r.2 == 0) && (List.range l.length).all (fun i => (List.range i).all (fun j =>
    !rangesMeet (l.getD i (0, 0)) (l.getD j (0, 0))))

/-! Frames as the MAC sends them (R118-R120). -/

/-- Whether one of the tags stacked after the source address has a TPID (R119): `b` begins at the outermost EtherType. -/
def carriesTag (tpid : Nat) : Nat → Bytes → Bool
  | 0, _ => false
  | n + 1, b =>
    let t := ofBe (slice b 0 2)
    (t == 0x8100 || t == 0x88A8) && (t == tpid || carriesTag tpid n (b.drop 4))

/-- The tag a port inserts into a frame, if any (R119). -/
def PortCfg.insertion (c : PortCfg) (data : Bytes) (tci : Option Nat) : Option Nat :=
  if c.txInsert = 1 then tci
  else if c.txInsert = 2 then
    match tci with
    | some t => some t
    | none => if carriesTag c.insertTpid (data.length / 4) (data.drop 12) then none else some c.tci
  else none

/-- The frame on the wire, destination address through FCS, and whether a supplied FCS was wrong. (DEDUCED, unsafe: notes/assumptions/61.md) -/
def PortCfg.wire (c : PortCfg) (data : Bytes) (tci : Option Nat) : Bytes × Bool :=
  let body := if c.fcsAppend then data else data.take (data.length - 4)
  let bad := !c.fcsAppend && (data.length < 4 || data.drop (data.length - 4) != le (fcs body) 4)
  match c.insertion data tci with
  | some t => (padFcs (body.take 12 ++ be c.insertTpid 2 ++ be t 2 ++ body.drop 12), bad)
  | none => if c.fcsAppend || data.length < 64 then (padFcs body, bad) else (data, bad)

/-- Wire length of a frame on its way to a queue: what the port will send, or what was received less a stripped tag (R183, R186).
(DEDUCED, unsafe: notes/assumptions/61.md) -/
def State.wireLen (s : State) (c : QCfg) (f : Frame) : Nat :=
  if c.kind = 1 then (((s.pt c.port).cfg.wire f.data f.tci).1).length
  else if f.port < 32 then f.feed.len - (if f.tag.isSome then 4 else 0)
  else max 64 (f.data.length + 4)

/-! DMA channels (R274, R275). -/

/-- Rings and queues attached to a channel. -/
def State.attached (s : State) (c : Nat) : Nat :=
  (s.rings.rings.filter (fun (x : Nat × Ring) => x.2.enable && x.2.chan == some c)).length
    + (s.dma.queueChan.filter (fun (x : Nat × Nat) => x.2 == c)).length

/-- The channel of a role a domain's ring or queue is attached to: the one with the fewest attachments, the lowest on a tie. -/
def State.attach (s : State) (d role : Nat) : Option Nat :=
  let cs := (List.range 64).filter (fun c => (s.chanCfg c).1 == d && (s.chanCfg c).2.1 == role)
  cs.foldl (fun (b : Option Nat) c => match b with
    | none => some c
    | some x => if s.attached c < s.attached x then some c else some x) none

/-! Schedulers (R186-R188). -/

/-- Scheduler 0xFE is the host's; a port's has the port's number. -/
def hostSched : Nat := 0xFE
def QCfg.sched (c : QCfg) : Nat := if c.kind = 2 then hostSched else c.port
def State.sched (s : State) (n : Nat) : Sched := tget s.tm.scheds n {}
def State.setSched (s : State) (n : Nat) (x : Sched) : State := { s with tm.scheds := tset s.tm.scheds n x }
def State.lenAdjust (s : State) (n : Nat) : Nat := (s.sched n).lenAdjust.getD (if n = hostSched then 0 else 20)
def State.domQuantum (s : State) (n d : Nat) : Nat := tget (s.sched n).quanta d 9728

/-- Scheduled length of a frame of a queue. -/
def State.schedLen (s : State) (c : QCfg) (f : Frame) : Nat := s.wireLen c f + s.lenAdjust c.sched

/-- Whether a ring has a posted receive buffer. -/
def State.hasBuffer (s : State) (k : Nat) : Bool := !s.sumpStops k && (s.ring k).fetched.any (fun d => !d.ended)

/-- The band of a queue in which it may send: 0 committed, 1 excess, none where it may not (R186, R188). A kind 2 queue with ring 0x3FF
is served while its function's RDMA intake has room (R337); any other, while no frame waits at its channel (R275). -/
def State.band (s : State) (q : Nat) : Option Nat :=
  let x := s.queue q
  let rdma := x.cfg.ring = 0x3FF
  let free := match tget? s.dma.queueChan q with
    | some c => (tget? s.dma.waits c).isNone
    | none => false
  let k := rkey x.cfg.fn x.cfg.ring
  if x.frames.isEmpty then none
  else if x.cfg.kind = 1 && s.pausedOn x.cfg.port x.cfg.tc then none
  else if x.cfg.kind = 2 && ((if rdma then (tget s.rdma.intake x.cfg.fn []).length ≥ 256 else !s.hasBuffer k || !free) || s.mute x.cfg.fn || s.waits x.cfg.fn || (s.pfn x.cfg.fn).d3) then none
  else if x.cfg.kind ≠ 1 && x.cfg.kind ≠ 2 then none
  else if x.shMode = 0 then some 1
  else if x.sc > 0 then some 0
  else if x.sp > 0 then some 1
  else none

/-- A list of the table, and the same changed. -/
def Sched.list (x : Sched) (k : Nat) : List Nat := tget x.lists k []
def Sched.setList (x : Sched) (k : Nat) (l : List Nat) : Sched := { x with lists := if l.isEmpty then tdel x.lists k else tset x.lists k l }

/-- A queue taken out of a list; the visit ends when it was at the head. -/
def Sched.remove (x : Sched) (k q : Nat) : Sched :=
  let l := x.list k
  let x1 := x.setList k (l.filter (fun y => y != q))
  if l.head? = some q then { x1 with visiting := tset x1.visiting k false } else x1

/-- A queue's place in its scheduler's lists brought up to date with its band: it joins the tail of a list on becoming eligible there, and
leaves the other with its deficit (R187, R188). A domain with an eligible queue takes part in the domain level.
(DEDUCED, unsafe: notes/assumptions/62.md) -/
def State.sync (s : State) (q : Nat) : State :=
  let x := s.queue q
  match s.queueDom q with
  | none => s
  | some d =>
    if x.cfg.kind ≠ 1 && x.cfg.kind ≠ 2 then s
    else
      let n := x.cfg.sched
      let b := s.band q
      let sc := s.sched n
      let sc1 := [0, 1].foldl (fun (sc : Sched) i =>
        let k := d * 2 + i
        if b = some i then (if (sc.list k).contains q then sc else sc.setList k (sc.list k ++ [q]))
        else if (sc.list k).contains q then sc.remove k q else sc) sc
      let any := !(sc1.list (d * 2)).isEmpty || !(sc1.list (d * 2 + 1)).isEmpty
      let sc2 :=
        if any && !sc1.doms.contains d then { sc1 with doms := sc1.doms ++ [d] }
        else if !any && sc1.doms.contains d then
          { sc1 with doms := sc1.doms.filter (fun y => y != d), domTurn := sc1.domTurn && sc1.doms.head? != some d
                     domDeficit := tdel sc1.domDeficit d }
        else sc1
      let s1 := s.setSched n sc2
      if x.frames.isEmpty && x.deficit != 0 then s1.setQueue q { x with deficit := 0 } else s1

/-- Every queue of a scheduler brought up to date. -/
def State.syncSched (s : State) (n : Nat) : State :=
  (s.tm.queues.filter (fun (x : Nat × Queue) => (x.2.cfg.kind == 1 || x.2.cfg.kind == 2) && x.2.cfg.sched == n)).foldl (fun s x => s.sync x.1) s

/-- The next frame of a domain at a scheduler (R187): the queue whose visit covers its head frame, visits turning over until one does.
(DEDUCED, unsafe: notes/assumptions/62.md) -/
def State.pickQueue (s : State) (n d : Nat) : Nat → Option (Nat × State)
  | 0 => none
  | fuel + 1 =>
    let sc := s.sched n
    let k := if (sc.list (d * 2)).isEmpty then d * 2 + 1 else d * 2
    match sc.list k with
    | [] => none
    | q :: rest =>
      let x := s.queue q
      let x1 := if tget sc.visiting k false then x else { x with deficit := x.deficit + x.cfg.quantum }
      let s1 := (s.setQueue q x1).setSched n { sc with visiting := tset sc.visiting k true }
      match x.frames with
      | [] => none
      | f :: _ =>
        if s.schedLen x.cfg f ≤ x1.deficit then some (q, s1)
        else (s1.setSched n { (s1.sched n).setList k (rest ++ [q]) with visiting := tset sc.visiting k false }).pickQueue n d fuel

/-- The frame a scheduler sends next (R186): the domain at the head sends while its deficit covers its next frame.
(DEDUCED, unsafe: notes/assumptions/62.md) -/
def State.pickDom (s : State) (n : Nat) : Nat → Option (Nat × Nat × State)
  | 0 => none
  | fuel + 1 =>
    let sc := s.sched n
    match sc.doms with
    | [] => none
    | d :: rest =>
      let def0 := tget sc.domDeficit d 0
      let def1 := if sc.domTurn then def0 else def0 + s.domQuantum n d
      let s1 := s.setSched n { sc with domDeficit := tset sc.domDeficit d def1, domTurn := true }
      match s1.pickQueue n d 65536 with
      | none => none
      | some (q, s2) =>
        let x := s2.queue q
        match x.frames with
        | [] => none
        | f :: _ =>
          if s.schedLen x.cfg f ≤ def1 then some (q, d, s2)
          else (s2.setSched n { s2.sched n with doms := rest ++ [d], domTurn := false }).pickDom n fuel

/-- The frame at the head of a queue leaves it: deficits and shaper buckets pay its scheduled length (R186-R188). -/
def State.sendHead (s : State) (n d q : Nat) : State :=
  let x := s.queue q
  match x.frames with
  | [] => s
  | f :: rest =>
    let l := s.schedLen x.cfg f
    let x1 := { x with
      frames := rest, deficit := x.deficit - l
      sc := if x.shMode = 1 then x.sc - (l : Int) * 256 else x.sc, sp := if x.shMode = 1 then x.sp - (l : Int) * 256 else x.sp
      counters := bumpBy (bump x.counters 7) 8 (s.wireLen x.cfg f) }
    let sc := s.sched n
    ((s.setQueue q x1).setSched n { sc with domDeficit := tset sc.domDeficit d (tget sc.domDeficit d 0 - l) }).sync q

/-! Meters (R182, R183). -/

/-- Tokens of a rate per 2^10 ns, in 2^-8 byte. -/
def tokens (kbps : Nat) : Nat := (2 * kbps * 32768 + 1000000) / 2000000

/-- R182's constraints on a pair of rates and bursts. -/
def Rates.good (r : Rates) : Bool := r.cir ≤ r.pir && 64 ≤ r.cbs && r.cbs ≤ r.pbs && r.pbs ≤ 16 * 2 ^ 20

/-- A frame metered: its colour, and whether the meter's action drops it. -/
def Meter.colour (m : Meter) (len : Nat) (dei : Bool) : Nat × Bool × Meter :=
  let b := ((len : Int) + m.cfg.lenAdjust).toNat * 256
  let pre := m.cfg.aware && dei
  if m.tp < b then (2, !m.cfg.redAdmit, m)
  else if pre || m.tc < b then (1, m.cfg.yellowDrop, { m with tp := m.tp - b })
  else (0, false, { m with tp := m.tp - b, tc := m.tc - b })

/-! The packet buffer (R184). -/

/-- Ingress reservation and Spout reserve of a port, in KiB. -/
def State.ingRes (s : State) (p : Nat) : Nat := if modeLanes (s.pt p).mode = 0 then 0 else tget s.tm.ingRes p 256
def State.spoutRes (s : State) (p : Nat) : Nat := if (s.pt p).lowLatency then tget s.tm.spoutRes p 32 else 0
/-- The shared pool, in KiB. -/
def State.sharedKib (s : State) : Nat := 96 * 1024 - ((List.range 24).map (fun p => s.ingRes p + s.spoutRes p)).sum
/-- The fused ceilings of a domain (R388): memory pages and packet-buffer KiB; none where no map is in force. -/
def State.memCeil (s : State) (d : Nat) : Option Nat := if s.prov then some (s.domField d 21 0) else none
def State.bufCeil (s : State) (d : Nat) : Option Nat := if s.prov then some (s.domField d 53 37) else none
def State.shareKib (s : State) (d : Nat) : Nat :=
  (s.tmDom d).shareKib.getD (if s.domOn d then (match s.bufCeil d with | some c => min c (s.sharedKib / s.domCount) | none => s.sharedKib / s.domCount) else 0)

/-! Pools of pages (R287-R289). -/

/-- Pages in all pools of a domain (R288). -/
def State.poolPages (s : State) (d : Nat) : Nat :=
  let x := s.rmDom d
  let deep := ((s.pl.cur.tables.filter (fun (t : Nat × MTable) => t.2.deep && t.2.dom == d)).map (fun (t : Nat × MTable) => 2 ^ (t.2.log2 - 8))).sum
  x.dataPages + x.itemMib * 16 + x.ctxPages + (s.tmDom d).spillMib * 16 + (max (s.chain d).sizeKib (s.chain d).sizeNextKib) / 64 + deep
/-- Pages that pools have given up since `old`, other than data pages, wait to be zeroed before they are free (R289): as pages that lie in no
cistern space. -/
def State.released (s old : State) : State :=
  let held := fun (s : State) d => s.poolPages d - (s.rmDom d).dataPages
  s.doms.foldl (fun s d => if held s d < held old d then { s with rm.zeroing := s.rm.zeroing ++ [(d, 2 ^ 24, held old d - held s d)] } else s) s

/-- `PAGES_TOTAL` (R287). -/
def State.pagesTotal (s : State) : Nat := if s.isB then 1000328 else 2098961
/-- Both limits of R289 hold, retired pages counted with the pools (R456). (DEDUCED, unsafe: notes/assumptions/38.md) -/
def State.poolsOk (s : State) : Bool :=
  s.doms.all (fun d => match s.memCeil d with | some c => s.poolPages d ≤ c | none => true) && (s.doms.map s.poolPages).sum + s.mem.retired.length ≤ s.pagesTotal


/-- Cells of a domain's frames on die, in its share; and in HBM. -/
def State.cellsUsed (s : State) (d : Nat) : Nat :=
  (s.tm.queues.map (fun (x : Nat × Queue) =>
    ((x.2.frames.filter (fun f => f.dom == d && !f.heldIn && !f.spilled)).map Frame.cells).sum)).sum
  + ((s.slu.store.filter (fun r => r.dom == d && !r.frame.spilled)).map (fun r => r.frame.cells)).sum
def State.spillUsed (s : State) (d : Nat) : Nat :=
  (s.tm.queues.map (fun (x : Nat × Queue) => ((x.2.frames.filter (fun f => f.dom == d && f.spilled)).map Frame.cells).sum)).sum
  + ((s.slu.store.filter (fun r => r.dom == d && r.frame.spilled)).map (fun r => r.frame.cells)).sum

/-- Depth of a queue in cells, replicas in the release store included (R185, R202). -/
def Queue.depth (q : Queue) : Nat := (q.frames.map Frame.cells).sum + q.stored

/-- TM_EVENT (R194). -/
def State.tmEvent (s : State) (subject d cause : Nat) : State := s.event [d, 0] 0x0610 d [subject, cause, s.ledgerNs]

/-- A frame dropped at a queue: counter `i` of the queue and `dev` of the device; the first drop after 2^20 ns without is reported.
(DEDUCED, unsafe: notes/assumptions/64.md) -/
def State.queueDrop (s : State) (q i dev : Nat) : State :=
  let x := s.queue q
  let first := match x.lastDrop with
    | none => true
    | some t => t + grid 20 ≤ s.elapsed
  let s1 := (s.setQueue q { x with counters := bump x.counters i, lastDrop := some s.elapsed, hist := { x.hist with drops := x.hist.drops + 1 } }).tmCount dev
  if first then s1.tmEvent q ((s.queueDom q).getD 0) 1 else s1

/-- The part of a domain's memory a frame of `n` cells goes to at admission (R185 rules 4 to 6): on die, to HBM, or nowhere; with the
events of a share or quota that proves full. (DEDUCED, unsafe: notes/assumptions/64.md) -/
def State.placeCells (s : State) (q d n : Nat) : Option Bool × State :=
  let t := s.tmDom d
  if s.cellsUsed d + n ≤ s.shareKib d * 4 then (some false, if t.shareFull then s.setTmDom d { t with shareFull := false } else s)
  else
    let s1 := if t.shareFull then s else (s.setTmDom d { t with shareFull := true }).tmEvent d d 2
    if !(s.queue q).cfg.spill then (none, s1)
    else
      let t := s1.tmDom d
      if s1.spillUsed d + n ≤ t.spillMib * 4096 then
        let s2 := if t.spillFull then s1.setTmDom d { t with spillFull := false } else s1
        let s3 := if (s2.queue q).frames.any (fun f => f.spilled) then s2 else s2.tmEvent q d 3
        (some true, s3.tmCount 5)
      else (none, if t.spillFull then s1 else (s1.setTmDom d { t with spillFull := true }).tmEvent d d 4)

/-- Whether rule 1 of R185 drops a frame at a queue. -/
def State.queueDead (s : State) (q : Nat) : Bool :=
  let c := (s.queue q).cfg
  c.kind == 0 || (c.kind == 2 && (!(s.fn c.fn).ready || (s.fn c.fn).halted || (s.fn c.fn).inReset))

/-- A frame leaves its ingress reservation (R184). -/
def State.unhold (s : State) (f : Frame) : State :=
  if f.port < 24 then s.holdBytes f.port f.prio (fun n => n - f.cells * 256) else s

/-- A frame put on a queue (R185). -/
def State.enqueue (s : State) (q : Nat) (f : Frame) : State :=
  let x := s.queue q
  ((s.setQueue q { x with frames := x.frames ++ [{ f with queue := q, admitted := s.elapsed }], counters := bump x.counters 0
                          hist := { x.hist with enqueued := x.hist.enqueued + 1 } }).tmCount 0).sync q

/-- Admission of a frame to a queue, already coloured (R185): the first rule that applies. The flag says whether it was admitted. -/
def State.admitTo (s : State) (q : Nat) (f : Frame) : Bool × State :=
  let x := s.queue q
  let track := f.port < 24 && (s.pt f.port).pfc.holds f.prio
  let d := (s.queueDom q).getD f.dom
  let lim := if f.colour = 0 then x.cfg.limG else if f.colour = 1 then x.cfg.limY else x.cfg.limR
  if s.queueDead q then (false, (s.queueDrop q 6 4).unhold f)
  else if track then (true, s.enqueue q { f with heldIn := true })
  else if x.depth + f.cells > lim then (false, (s.queueDrop q (2 + f.colour) 2).unhold f)
  else
    match s.placeCells q d f.cells with
    | (some sp, s1) => (true, ((s1.enqueue q { f with spilled := sp, dom := d }).unhold f))
    | (none, s1) => (false, (s1.queueDrop q 5 3).unhold f)

/-- A frame metered and admitted (R183, R185). (DEDUCED, unsafe: notes/assumptions/58.md) -/
def State.takeIn (s : State) (f : Frame) : Bool × State :=
  let q := f.queue
  if f.meter ≥ 32768 || !(s.meter f.meter).set_ then s.admitTo q { f with colour := 0 }
  else
    let m := s.meter f.meter
    let len := s.wireLen (s.queue q).cfg f
    let r := m.colour len f.dei
    let m1 := { r.2.2 with counters := bumpBy (bump m.counters r.1) (3 + r.1) len }
    if r.2.1 then (false, ((s.setMeter f.meter { m1 with counters := bump m1.counters 6 }).queueDrop q 1 1).unhold f)
    else (s.setMeter f.meter m1).admitTo q { f with colour := r.1 }

/-- A frame discarded out of a queue: its hold ends and a ring's frame ends unsent with status `st`. -/
def State.frameLost (s : State) (f : Frame) (port st : Nat) : State :=
  (if f.heldIn then s.unhold f else s).txLost f port st

end Sys2Proof.Machine
end

