-- ==== Sys2Proof/Machine/DmaOps.lean ====
section
/-! DEFINITION. How a DMA channel carries out a descriptor (R277-R283): its lists, its pieces in order, each access checked when it is
made, and its end. -/
namespace Sys2Proof.Machine

/-- A local address (R277): its core and byte. -/
def localCore (a : Nat) : Nat := bits a 24 18
def localOff (a : Nat) : Nat := a % 2 ^ 18

/-- Whether an access to local memory ends a descriptor with 0x12 (R283). -/
def State.localBad (s : State) (a : Nat) : Bool :=
  (s.coreDom (localCore a)).isNone || ((s.core (localCore a)).state == .empty && (s.core (localCore a)).cleared)

/-- Bytes up to the end of the page or of the piece, whichever comes first. -/
def Piece.chunk (p : Piece) : Nat := if p.space = 1 then min p.len (pageSize - p.addr % pageSize) else p.len
/-- A piece without its first `n` bytes. -/
def Piece.after (p : Piece) (n : Nat) : Piece := { p with addr := p.addr + n, len := p.len - n }
/-- A piece put back at the head of a list where something is left of it. -/
def Piece.rest (p : Piece) (n : Nat) (l : List Piece) : List Piece := if n ≥ p.len then l else p.after n :: l

/-- Whether a byte of a space lies in a piece. -/
def Piece.has (p : Piece) (space a : Nat) : Bool := p.space == space && p.addr ≤ a && a < p.addr + p.len
/-- Bytes to be put at an address of a space: those that the source overlaps take unspecified values (R279).
(DESIGN CHOICE, safe: notes/assumptions/91.md) -/
def State.overlapped (s : State) (src : List Piece) (space a : Nat) (b : Bytes) : Bytes × State :=
  if src.any (fun p => p.space == space && p.addr < a + b.length && a < p.addr + p.len) then
    (b.zipIdx.map (fun x => if src.any (fun p => p.has space (a + x.2)) then BitVec.ofNat 8 (Config.drawn (s.fresh + x.2)).toNat else x.1),
      { s with fresh := s.fresh + b.length })
  else (b, s)

def State.setDma (s : State) (k : Nat) (j : Option DmaJob) : State := s.setRing k { s.ring k with dma := j }

/-- Counter `i` of the channel a ring is attached to, `n` higher. -/
def State.ringChan (s : State) (k i n : Nat) : State := match (s.ring k).chan with
  | some c => s.chanCount c i n
  | none => s

/-- The descriptors of a failed run that follow the one that failed (R283): those fetched end with 0x13, up to the one with `RC`. -/
def Ring.restOfRun (r : Ring) (i : Nat) : List Desc :=
  let after := (r.fetched.dropWhile (fun d => d.idx != i)).drop 1
  let n := (after.takeWhile (fun d => !d.rcSet)).length
  after.take (n + 1)

/-- A descriptor's transfer ends (R281, R283): with a status other than success, the bytes issued are written to its slot and the rest of
the run is not started. -/
def State.dmaEnd (s : State) (k st : Nat) : State :=
  match (s.ring k).dma with
  | none => s
  | some j =>
    let f := fnOfKey k
    let s1 := (s.setDma k none).ringChan k (if st = 0 then 2 else 3) 1
    if st = 0 then (s1.descEnd k j.idx 0).runs k
    else
      let r := s1.ring k
      let bad := (r.fetched.find? (fun d => d.idx == j.idx)).map (fun d => d.rcSet) == some true
      let rest := if bad then [] else r.restOfRun j.idx
      let s2 := (s1.hostWr f (.hostWrite f (r.slotAddr j.idx + 20) (le j.moved 4))).descEnd k j.idx st
      let s3 := rest.foldl (fun s d => s.descEnd k d.idx 0x13) s2
      (s3.setRing k { s3.ring k with runFailed := !bad && !rest.any Desc.rcSet }).runs k

/-- Bytes put to the destinations of a transfer in ascending order; the flag says whether all of them were.
(DEDUCED, unsafe: notes/assumptions/88.md) -/
def State.dmaPut (s : State) (k : Nat) (b : Bytes) : Nat → Bool × State
  | 0 => (true, s)
  | n + 1 =>
    match (s.ring k).dma with
    | none => (false, s)
    | some j =>
      match b, j.dst with
      | [], _ => (true, s)
      | _, [] => (true, s)
      | _, p :: rest =>
        let f := fnOfKey k
        let d := s.fnDom f
        let m := min b.length p.chunk
        let (part, s0) := s.overlapped j.src p.space p.addr (b.take m)
        let j1 := { j with dst := p.rest m rest, moved := j.moved + m }
        if p.space = 0 then
          let last := p.addr + m - 1
          let s1 := (s0.hostWr f (.hostWrite f p.addr part)).ringChan k 1 m
          let r := (s1.ring k).onDesc j.idx (fun y => { y with wrote := some last, here := if p.flush && m = p.len then y.here ++ [last] else y.here })
          (s1.setRing k { r with dma := some j1 }).dmaPut k (b.drop m) n
        else if p.space = 1 && !s.cisternOk d p.addr m then (false, s.dmaEnd k 0x11)
        else if p.space = 2 && s.localBad p.addr then (false, s.dmaEnd k 0x12)
        else
          let at_ := if p.space = 1 then cisternAt d p.addr else localAt (localCore p.addr) (localOff p.addr)
          let s1 := (s0.store at_ part).ringChan k 1 m
          let r := (s1.ring k).onDesc j.idx (fun y => { y with acks := y.acks + 1 })
          (s1.setRing k { r with dma := some j1 }).dmaPut k (b.drop m) n

/-- The fuel of a transfer: its pieces and its pages. -/
def DmaJob.fuel (j : DmaJob) : Nat := 4 * (j.len / pageSize + j.todo.length + j.dst.length + 2)

/-- A transfer goes on from its next source piece: host memory is read, and the transfer waits; anything else is moved at once (R280, R283).
(DEDUCED, unsafe: notes/assumptions/88.md) -/
def State.dmaGo (s : State) (k : Nat) : Nat → State
  | 0 => s
  | n + 1 =>
    match (s.ring k).dma with
    | none => s
    | some j =>
      match j.todo with
      | [] => s.dmaEnd k 0
      | p :: rest =>
        let d := s.fnDom (fnOfKey k)
        if p.space = 0 then (s.setDma k (some { j with todo := rest })).hread (fnOfKey k) 3 k p.addr p.len j.idx
        else
          let m := p.chunk
          if p.space = 1 && !s.cisternOk d p.addr m then s.dmaEnd k 0x11
          else if p.space = 2 && s.localBad p.addr then s.dmaEnd k 0x12
          else
            let at_ := if p.space = 1 then cisternAt d p.addr else localAt (localCore p.addr) (localOff p.addr)
            match s.consume d at_ m with
            | (s1, none) => s1.dmaEnd k 0x04
            | (s1, some b) =>
              let s2 := (s1.setDma k (some { j with todo := p.rest m rest })).ringChan k 0 m
              match s2.dmaPut k b (4 * (m / pageSize + j.dst.length + 2)) with
              | (true, s3) => s3.dmaGo k n
              | (false, s3) => s3

/-- Whether a function's DMA is at work. -/
def State.dmaOn (s : State) (k : Nat) : Bool := !s.mute (fnOfKey k) && !s.waits (fnOfKey k)

/-- A malformed descriptor found after its fetch (R268, R279): it and everything after it on its ring is not started. -/
def State.malformedAt (s : State) (k i reason sub : Nat) : State :=
  let r := s.ring k
  (s.setRing k { r with fetched := r.fetched.takeWhile (fun d => d.idx != i), dma := none, peek := [] }).malformed k i reason sub

/-- The next descriptor of a DMA ring begins (R278-R280). -/
def State.dmaStart (s : State) (k : Nat) : State :=
  let r := s.ring k
  if r.dma.isSome || r.engine ≠ 2 || !s.dmaOn k then s
  else match r.fetched.find? (fun d => !d.ended && !d.started) with
    | none => s
    | some d =>
      let r1 := r.onDesc d.idx (fun y => { y with started := true })
      if d.type = 0x1F && (d.addr = 0 || d.addr % 16 ≠ 0 || d.aux = 0 || d.aux % 16 ≠ 0) then s.malformedAt k d.idx 9 1
      else if d.type = 0x1F then
        (s.setRing k { r1 with dma := some { idx := d.idx, phase := 0, len := d.len } }).hread (fnOfKey k) 4 k d.addr 16 d.idx
      else
        let src : Piece := { space := d.type % 4, addr := d.addr, len := d.len }
        let dst : Piece := { space := d.type / 4 % 4, addr := d.aux, len := d.len }
        let j : DmaJob := { idx := d.idx, phase := 2, src := [src], dst := [dst], todo := [src], len := d.len }
        (s.setRing k { r1 with dma := some j }).dmaGo k j.fuel

/-- A list entry (R278). -/
def pieceOf (b : Bytes) : Piece :=
  { space := ofLe (slice b 12 1) % 4, addr := ofLe (slice b 0 8), len := ofLe (slice b 8 4), flush := (ofLe (slice b 13 1)).testBit 1 }

/-- The sub-code of the first check of R279 a list entry fails by itself: 2, 3, 6, or 0. Its core must be of the domain. -/
def State.entryCheck (s : State) (d : Nat) (hostOnly : Bool) (b : Bytes) : Nat :=
  let p := pieceOf b
  let sp := ofLe (slice b 12 1)
  if p.len = 0 || p.len > 2 ^ 24 then 2
  else if sp > 3 || p.space = 3 || (hostOnly && p.space ≠ 0) || ofLe (slice b 13 1) > 3 || ofLe (slice b 14 2) ≠ 0
      || (p.space = 2 && (p.addr ≥ 2 ^ 25 || s.coreDom (localCore p.addr) != some d || localCore p.addr ≥ 96)) then 3
  else if p.space = 2 && localOff p.addr + p.len > 2 ^ 18 then 6
  else 0

/-- One entry of a transfer's list has come (R278, R279): the next is read, or, once both lists are whole, they are checked in the order
of the table, and the transfer begins. (DEDUCED, unsafe: notes/assumptions/88.md) -/
def State.dmaList (s : State) (k : Nat) (b : Bytes) : State :=
  match (s.ring k).dma with
  | none => s
  | some j =>
    let f := fnOfKey k
    let sub := s.entryCheck (s.fnDom f) false b
    let first := j.phase = 0
    let list := (if first then j.src else j.dst) ++ [pieceOf b]
    let desc := ((s.ring k).fetched.find? (fun y => y.idx == j.idx)).getD {}
    let last := (ofLe (slice b 13 1)).testBit 0
    let over_ := last || list.length ≥ 1024
    let sum := (list.map (fun (p : Piece) => p.len)).sum
    let bad := j.bad ++ (if sub ≠ 0 then [sub] else []) ++ (if over_ && !last then [4] else []) ++ (if last && sum ≠ desc.len then [5] else [])
    let j1 := if first then { j with src := list, bad := bad } else { j with dst := list, bad := bad }
    if !over_ then (s.setDma k (some j1)).hread f 4 k ((if first then desc.addr else desc.aux) + 16 * list.length) 16 j.idx
    else if first then (s.setDma k (some { j1 with phase := 1 })).hread f 4 k desc.aux 16 j.idx
    else if !bad.isEmpty then s.malformedAt k j.idx 9 (bad.foldl min 6)
    else
      let j2 := { j1 with phase := 2, todo := j1.src }
      (s.setDma k (some j2)).dmaGo k j2.fuel

/-- What is still to come for a transfer that has ended is not wanted. -/
def State.dropDmaReads (s : State) (k : Nat) : State :=
  { s with pcie.reads := s.pcie.reads.map (fun (r : HRead) => if r.what = 3 && r.ring = k then { r with dead := true } else r) }

/-- Host data of a transfer has come (R280): `more` says that its read is not over. -/
def State.dmaData (s : State) (k : Nat) (b : Bytes) (more : Bool) : State :=
  match (s.ring k).dma with
  | none => s
  | some j =>
    match (s.ringChan k 0 b.length).dmaPut k b (4 * (b.length / pageSize + j.dst.length + 2)) with
    | (false, s1) => s1.dropDmaReads k
    | (true, s1) => if more then s1 else s1.dmaGo k j.fuel

end Sys2Proof.Machine
end

