-- ==== Sys2Proof/Machine/PagerOps.lean ====
section
/-! DEFINITION. The pools and the context pager (R287-R297, R306, R307): sizes and shares, page events, and where each context lies. -/
namespace Sys2Proof.Machine

/-- A domain's counter of R308, higher by `n`. -/
def State.rmCount (s : State) (d i n : Nat) : State :=
  s.setRmDom d { s.rmDom d with counters := bumpBy (s.rmDom d).counters i n }

/-- Data pages a domain has mapped. -/
def RmDom.usedPages (x : RmDom) : Nat := (x.mapped.map (fun m => m.2)).sum
/-- Pages released and not yet zeroed. -/
def State.zeroingPages (s : State) : Nat := (s.rm.zeroing.map (fun z => z.2.2)).sum
/-- `FREE_PAGES` (R308): zeroed pages that no pool has taken. -/
def State.freePages (s : State) : Nat :=
  let held := (s.doms.map (fun d => s.poolPages d - (s.rmDom d).dataPages + (s.rmDom d).usedPages)).sum
  s.pagesTotal - held - s.zeroingPages - s.mem.retired.length

/-! Shares (R306). -/
def State.qpLines (s : State) (d : Nat) : Nat := (s.rmDom d).qpLines.getD (16384 / s.domCount)
def State.otherLines (s : State) (d : Nat) : Nat := (s.rmDom d).otherLines.getD (49152 / s.domCount)
def State.missPkts (s : State) (d : Nat) : Nat := (s.rmDom d).missPkts.getD (4096 / s.domCount)
def State.missKib (s : State) (d : Nat) : Nat := (s.rmDom d).missKib.getD (8192 / s.domCount)
def State.flowRange (s : State) (d : Nat) : Nat := (s.rmDom d).flows.getD (1048576 / s.domCount)
def State.handShare (s : State) (d : Nat) : Nat := (s.rmDom d).handover.getD (8192 / s.domCount)

/-- A completion on the ring session of a domain that receives its events. -/
def State.postEvent (s : State) (d : Nat) (data : Bytes) : State :=
  match s.tosen.sessions.find? (fun x => x.dom == d && x.events && match x.path with
      | .ring _ _ => true
      | _ => false) with
  | some x => match x.path with
    | .ring fn rid => if (s.ring (s.replyRing fn rid)).holdsKind 4 then s else s.post (s.replyRing fn rid) { data := data }
    | _ => s
  | none => s

/-- Whether a domain's page events wait for room (R266 step 3). -/
def State.pageHeld (s : State) (d : Nat) : Bool :=
  s.tosen.sessions.any (fun x => x.dom == d && x.events && match x.path with
    | .ring fn rid => (s.ring (s.replyRing fn rid)).holdsKind 4
    | _ => false)

/-- A page event (R307): causes 3 to 6 once per episode. -/
def State.pageEvent (s : State) (d ctype cause subject : Nat) : State :=
  let x := s.rmDom d
  let k := cause * 2 ^ 24 + ctype * 2 ^ 20 + subject
  let n := tget x.occurred k 0 + 1
  if cause ≥ 3 && x.episodes.contains k then s.setRmDom d { x with occurred := tset x.occurred k n }
  else
    let data := le 0 4 ++ le 4 1 ++ le d 1 ++ le ctype 1 ++ le cause 1 ++ le subject 4 ++ le s.ledgerNs 8 ++ le n 4 ++ zeros 8
    let s1 := s.setRmDom d { x with occurred := if s.pageHeld d then tset x.occurred k n else tdel x.occurred k, episodes := if cause ≥ 3 then x.episodes ++ [k] else x.episodes }
    (if d = 0 then [0] else [d, 0]).foldl (fun s e => s.postEvent e data) s1

/-- A pool that may have recovered (R307): above 1/8 of its size, its episodes end. -/
def State.poolRise (s : State) (d subject free size : Nat) : State :=
  if free * 8 > size then
    s.setRmDom d { s.rmDom d with episodes := (s.rmDom d).episodes.filter (fun k => k / 2 ^ 24 < 3 || k / 2 ^ 24 = 6 || k % 2 ^ 24 ≠ subject) }
  else s

/-- A pool after a change (R307): below 1/16 of its size, cause 3; above 1/8, its episodes end. (DEDUCED, unsafe: notes/assumptions/92.md) -/
def State.poolLevel (s : State) (d subject free size : Nat) : State :=
  if free * 8 ≤ size && free * 16 < size then s.pageEvent d 0 3 subject else s.poolRise d subject free size

/-- The data pool after a change. -/
def State.dataLevel (s : State) (d : Nat) : State :=
  s.poolLevel d 0 ((s.rmDom d).dataPages - (s.rmDom d).usedPages) (s.rmDom d).dataPages
/-- The item pool after a change: 64 buffers of 16 KiB in each MiB. -/
def State.itemLevel (s : State) (d : Nat) : State :=
  s.poolLevel d 1 ((s.rmDom d).itemMib * 64 - (s.rmDom d).bufs.length) ((s.rmDom d).itemMib * 64)

/-! Contexts (R293-R297). -/

/-- The key of a context: type, domain and number. -/
def ctxKey (t d n : Nat) : Nat := t * 2 ^ 30 + d * 2 ^ 26 + n
def ctxType (k : Nat) : Nat := k / 2 ^ 30
def ctxDom (k : Nat) : Nat := k / 2 ^ 26 % 16
def ctxNum (k : Nat) : Nat := k % 2 ^ 26

def State.ctx? (s : State) (k : Nat) : Option Ctx := tget? s.rm.ctxs k
def State.setCtx (s : State) (k : Nat) (x : Ctx) : State := { s with rm.ctxs := tset s.rm.ctxs k x }

/-- Types that share cache lines: queue pairs alone, flows and storage queues together (R293). -/
def ctxGroup (t : Nat) : Bool := t == 1
/-- The contexts of a domain that share lines with type `t`. -/
def State.ctxsOf (s : State) (d t : Nat) : Table Ctx :=
  s.rm.ctxs.filter (fun (c : Nat × Ctx) => ctxDom c.1 == d && ctxGroup (ctxType c.1) == ctxGroup t)
def State.lines (s : State) (d t : Nat) : Nat := if t = 1 then s.qpLines d else s.otherLines d
/-- Contexts the backing pool holds at most, 256 bytes each, and holds now. -/
def State.backCap (s : State) (d : Nat) : Nat := (s.rmDom d).ctxPages * 256
def State.backUsed (s : State) (d : Nat) : Nat :=
  (s.rm.ctxs.filter (fun (c : Nat × Ctx) => ctxDom c.1 == d && (c.2.place == 1 || c.2.copy == 1))).length
/-- The backing pool after entries of it became free. -/
def State.backRise (s : State) (d : Nat) : State := s.poolRise d 4 (s.backCap d - s.backUsed d) (s.backCap d)
/-- The home table of a type. -/
def State.homeOf (s : State) (d t : Nat) : Option (Nat × Nat) := tget? (s.rmDom d).homes t

/-- Whether one more context of a type may be created (R293). (DEDUCED, unsafe: notes/assumptions/94.md) -/
def State.ctxRoom (s : State) (t d : Nat) : Bool :=
  let n := (s.rm.ctxs.filter (fun (c : Nat × Ctx) => ctxDom c.1 == d && ctxType c.1 == t)).length
  let homeless := fun (one : Bool) => (s.rm.ctxs.filter (fun (c : Nat × Ctx) =>
    ctxDom c.1 == d && ctxGroup (ctxType c.1) == one && (s.homeOf d (ctxType c.1)).isNone)).length
  match s.homeOf d t with
  | some h => n < h.2
  | none => (homeless true + b2n (ctxGroup t) - s.qpLines d) + (homeless false + b2n (!ctxGroup t) - s.otherLines d) ≤ s.backCap d

/-- The lowest-numbered PF of a domain: its function. -/
def State.firstPf (s : State) (d : Nat) : Nat :=
  (((List.range 8).find? (fun p => s.pfOn p && s.fnDom (p * 4096) == d)).getD 0) * 4096

/-- The entry least recently used of a list. -/
def oldestCtx : Table Ctx → Option (Nat × Ctx)
  | [] => none
  | c :: r => match oldestCtx r with
    | none => some c
    | some o => if c.2.used ≤ o.2.used then some c else some o

/-- A context written to its home table (R293, R294). (DESIGN CHOICE, safe: notes/assumptions/93.md) -/
def State.toHome (s : State) (k : Nat) (x : Ctx) : State :=
  let d := ctxDom k
  let a := ((s.homeOf d (ctxType k)).getD (0, 0)).1 + 256 * ctxNum k
  let s0 := s.setCtx k { x with place := if x.place = 1 then 2 else x.place, copy := 2, changed := false, writing := true }
  let body := (List.range 4).flatMap (fun i => le ((Config.drawn (s.fresh + i)).toNat) 64)
  ({ s0 with fresh := s.fresh + 4 }.hostWr (s.firstPf d) (.hostWrite (s.firstPf d) a body)).rmCount d 4 1

/-- Room made in the backing pool: its least recently used entry goes to its home table (R294). -/
def State.backRoom (s : State) (d : Nat) : State :=
  if s.backUsed d < s.backCap d then s
  else match oldestCtx (s.rm.ctxs.filter (fun (c : Nat × Ctx) => ctxDom c.1 == d && c.2.place == 1 && (s.homeOf d (ctxType c.1)).isSome)) with
    | some c => s.toHome c.1 c.2
    | none => s

/-- A line freed in a domain's share (R294): the least recently used one goes, unpinned, not failed and not in use. A backing pool that has
no room for it is exhausted (R307). (DEDUCED, unsafe: notes/assumptions/92.md; DEDUCED, unsafe: notes/assumptions/94.md) -/
def State.evict (s : State) (d t : Nat) : State :=
  let inCache := (s.ctxsOf d t).filter (fun c => c.2.place == 0)
  if inCache.length < s.lines d t then s
  else match oldestCtx (inCache.filter (fun c => !c.2.pinned && !c.2.failed)) with
    | none => s
    | some (k, x) =>
      if !x.changed && x.copy ≠ 0 then s.setCtx k { x with place := x.copy }
      else
        let s0 := if s.backUsed d < s.backCap d then s else s.pageEvent d 0 4 4
        let s1 := s0.backRoom d
        if s1.backUsed d < s1.backCap d then
          (((s1.setCtx k { x with place := 1, copy := 1, changed := false, writing := true }).rmCount d 4 1).poolLevel d 4
            (s1.backCap d - s1.backUsed d - 1) (s1.backCap d))
        else if (s1.homeOf d (ctxType k)).isNone then s1
        else
          let s2 := s1.toHome k x
          s2.setCtx k { tget s2.rm.ctxs k {} with place := 2 }

/-- A context created: in the cache (R293). -/
def State.ctxNew (s : State) (k : Nat) : State :=
  let s1 := s.evict (ctxDom k) (ctxType k)
  { s1 with rm.clock := s1.rm.clock + 1 }.setCtx k { used := s1.rm.clock }

/-- A context destroyed with its engine's object; its line's poison goes with it. -/
def State.ctxGone (s : State) (k : Nat) : State :=
  { s with rm.ctxs := tdel s.rm.ctxs k, mem.marks := s.mem.marks.filter (fun m => m != (4, k)) }.backRise (ctxDom k)

/-- A context used (R294): the cache holds it, and its line becomes the most recently used. (DEDUCED, unsafe: notes/assumptions/94.md) -/
def State.ctxUse (s : State) (k : Nat) : State := match s.ctx? k with
  | some x => ({ s with rm.clock := s.rm.clock + 1 }.setCtx k { x with used := s.rm.clock, changed := true, copy := 0 }).backRise (ctxDom k)
  | none => s

/-- A fetch of an absent context starts (R294, R295): not while its write-back is in flight. -/
def State.ctxFetch (s : State) (k : Nat) : State := match s.ctx? k with
  | none => s
  | some x =>
    if x.place = 0 || x.fetching || x.failed then s
    else
      let d := ctxDom k
      let s1 := (s.setCtx k { x with fetching := true }).rmCount d 1 1
      if x.writing then s1
      else if x.place = 1 then s1.rmCount d 2 1
      else
        let a := ((s1.homeOf d (ctxType k)).getD (0, 0)).1 + 256 * ctxNum k
        (s1.rmCount d 3 1).hread (s1.firstPf d) 6 0 a 256 k

/-- Whether a context is resident; where it is not, its fetch is started (R295). A line found poisoned counts as a fetch that fails (R452). -/
def State.ctxNeed (s : State) (k : Nat) : Bool × State := match s.ctx? k with
  | none => (true, s)
  | some x =>
    if x.place = 0 && s.mem.marks.contains (4, k) then (false, s.setCtx k { x with place := 1, fetching := true })
    else if x.place = 0 then (!x.failed, (s.ctxUse k).rmCount (ctxDom k) 0 1) else (false, s.ctxFetch k)

/-- Packets and KiB parked in a domain's miss share. -/
def State.parkedNow (s : State) (d : Nat) : Nat × Nat :=
  let fs := (s.rm.ctxs.filter (fun (c : Nat × Ctx) => ctxDom c.1 == d)).flatMap (fun (c : Nat × Ctx) => c.2.parked)
  (fs.length, (fs.map (fun f => f.data.length)).sum)

/-- An RDMA packet parked for its context, or dropped while the miss share is full (R296). -/
def State.park (s : State) (k : Nat) (f : Frame) : State :=
  let d := ctxDom k
  let u := s.parkedNow d
  match s.ctx? k with
  | none => s
  | some x =>
    if u.1 ≥ s.missPkts d || u.2 + f.data.length > s.missKib d * 1024 then (s.rmCount d 5 1).pageEvent d 1 6 0
    else s.setCtx k { x with parked := x.parked ++ [f] }

/-- The miss share's episode ends once more than 1/8 of it is free (R307). (DEDUCED, unsafe: notes/assumptions/92.md) -/
def State.missLevel (s : State) (d : Nat) : State :=
  let u := s.parkedNow d
  if (s.missPkts d - u.1) * 8 > s.missPkts d && (s.missKib d * 1024 - u.2) * 8 > s.missKib d * 1024 then
    s.setRmDom d { s.rmDom d with episodes := (s.rmDom d).episodes.filter (fun e => e / 2 ^ 24 ≠ 6) }
  else s

/-- Contexts of a domain pinned among the lines of a type, and whether one more may be (R294). -/
def State.pinRoom (s : State) (d t : Nat) : Bool := (((s.ctxsOf d t).filter (fun c => c.2.pinned)).length + 1) * 4 ≤ s.lines d t

end Sys2Proof.Machine
end

