-- ==== Sys2Proof/Machine/ChanOps.lean ====
section
/-! DEFINITION. What threads share (R225, R237-R245, R469-R471): debug halts and steps, channels, and the changes of a channel that
threads wait for. -/
namespace Sys2Proof.Machine

/-- A blocked instruction of a thread completes with a value in its destination (R242). -/
def State.unblock (s : State) (c t rd v : Nat) : State := (s.setThr c t ((s.thr c t).setReg rd v).resume).stepTick c t

/-- A result that marks a status (R239). -/
def statusVal (n : Nat) : Nat := 2 ^ 63 + n

/-! Channels (R237-R245). -/

def State.chan? (s : State) (n : Nat) : Option Channel := tget? s.cores.chans n
def State.setChan (s : State) (n : Nat) (h : Channel) : State := { s with cores.chans := tset s.cores.chans n h }

/-- The wake source of a channel for one of its ends (R242). -/
def Channel.source (h : Channel) (c t : Nat) : Nat :=
  if (h.recv :: h.senders).any (fun e => e != (c, t) && e.1 != c) then 2 else 1

/-- Messages of a channel held for a hand-over (R248). -/
def State.chanHeld (s : State) (n : Nat) : Nat :=
  (s.rm.flows.map (fun (f : Nat × Flow) => ((f.2.due ++ f.2.held).filter (fun h => match h with
    | .message _ _ m _ => m == n
    | _ => false)).length)).sum

/-- Positions a channel has taken (R240): committed, taken and reserved. (DEDUCED, unsafe: notes/assumptions/77.md) -/
def State.chanUsed (s : State) (n : Nat) (h : Channel) : Nat :=
  h.ready.length + h.taken.length + b2n h.holder.isSome + s.chanHeld n

/-- CHAN_EVENT (R250). -/
def State.chanEvent (s : State) (d subject cause c t : Nat) : State :=
  s.event [d, 0] 0x0750 d [subject, cause, c, t, (s.thr c t).state.code, s.ledgerNs]

/-- Threads a try form registered are woken by the change they asked for (R242). -/
def State.chanSignal (s : State) (n : Nat) (send : Bool) : State :=
  match s.chan? n with
  | none => s
  | some h =>
    let who := h.tries.filter (fun x => x.2.2 == send)
    who.foldl (fun s x => s.wake x.1 x.2.1 (h.source x.1 x.2.1)) (s.setChan n { h with tries := h.tries.filter (fun x => x.2.2 != send) })

/-- Whether a pair is ahead of another: ascending core, then thread (R241). -/
def ahead (a b : Nat × Nat) : Bool := a.1 < b.1 || (a.1 == b.1 && a.2 ≤ b.2)
/-- The first of a list of threads by core, then thread. -/
def firstThr : List (Nat × Nat) → Option (Nat × Nat)
  | [] => none
  | a :: r => match firstThr r with
    | none => some a
    | some b => if ahead a b then some a else some b

/-- The send slot of a channel taken by a thread (R239). -/
def State.takeSlot (s : State) (n c t : Nat) (h : Channel) : State :=
  let s1 := s.setChan n { h with holder := some (c, t), since := s.now, told := false, staged := [] }
  s1.setThr c t { s1.thr c t with slot := some n, abandoned := (s1.thr c t).abandoned.filter (fun a => a != n) }

/-- A sender blocked at `cbegin` gets the slot once it and a position are free (R239, R240). (DEDUCED, unsafe: notes/assumptions/77.md) -/
def State.pumpSend (s : State) (n : Nat) : State :=
  match s.chan? n with
  | none => s
  | some h =>
    if h.broken || h.holder.isSome || s.chanUsed n h ≥ h.cap then s
    else
      let wait := h.senders.filter (fun e => (s.thr e.1 e.2).state == .waiting && match (s.thr e.1 e.2).blocked with
        | some (.cbegin m _) => m == n
        | _ => false)
      match firstThr wait with
      | none => s
      | some (c, t) => match (s.thr c t).blocked with
        | some (.cbegin _ rd) => (s.takeSlot n c t h).unblock c t rd 0
        | _ => s

/-- The oldest committed message taken (R239): the state, and the local address of its slot header. -/
def State.takeMsg (s : State) (n : Nat) : Option (State × Nat) :=
  match s.chan? n with
  | none => none
  | some h => match h.ready with
    | [] => none
    | k :: rest => some (s.setChan n { h with ready := rest, taken := h.taken ++ [k] }, h.off + 72 * k)

/-- A receiver blocked at `crecv` takes a message that has been committed (R241). (DEDUCED, unsafe: notes/assumptions/77.md) -/
def State.pumpRecv (s : State) (n : Nat) : State :=
  match s.chan? n with
  | none => s
  | some h =>
    let (c, t) := h.recv
    let x := s.thr c t
    match x.blocked with
    | some (.crecv m rd) =>
      if m ≠ n || x.state ≠ .waiting then s
      else match s.takeMsg n with
        | none => s
        | some (s1, a) => s1.unblock c t rd a
    | _ => s

/-- A change on the sending side of a channel: a slot released or a position freed (R242). -/
def State.sendChange (s : State) (n : Nat) : State := (s.chanSignal n true).pumpSend n

/-- A message becomes visible in the receiver's store (R238, R241). -/
def State.commitMsg (s : State) (n c t : Nat) (words : List Nat) : State :=
  match s.chan? n with
  | none => s
  | some h =>
    if h.broken then s.setChan n { h with counters := bump h.counters 2 }
    else
      let k := h.next
      let head := words.length + 16 * t + 128 * c + 2 ^ 32 * h.seq
      let s1 := s.store (localAt h.recv.1 (h.off + 72 * k)) (le head 8 ++ words.flatMap (fun w => le w 8))
      let h1 := { h with ready := h.ready ++ [k], next := (k + 1) % h.cap, seq := (h.seq + 1) % 2 ^ 32, counters := bump h.counters 0 }
      ((s1.setChan n h1).chanSignal n false).pumpRecv n

/-- The send slot of a channel released without a commit, its holder no longer holding it; with `mark`, its `ccommit` learns of it, one that
awaits room for its result at once (R244). -/
def State.dropSlot (s : State) (n : Nat) (mark : Bool) : State :=
  match s.chan? n with
  | none => s
  | some h => match h.holder with
    | none => s
    | some (c, t) =>
      let x := s.thr c t
      let s1 := s.setChan n { h with holder := none, staged := [], counters := bump h.counters 1 }
      match mark, x.blocked with
      | true, some (.result m rd) => if m = n then (s1.setThr c t { x with slot := none }).unblock c t rd (statusVal 3) else s1
      | _, _ => s1.setThr c t { x with slot := none, abandoned := if mark then x.abandoned ++ [n] else x.abandoned }

/-- An abandon (R244): `mark` leaves the holder to learn of it from its `ccommit`. -/
def State.abandon (s : State) (n : Nat) (mark : Bool) : State :=
  match s.chan? n with
  | none => s
  | some h => match h.holder with
    | none => s
    | some (c, t) => ((s.dropSlot n mark).chanEvent h.dom n 3 c t).sendChange n

/-- A channel breaks (R245): its slot and positions released, which threads of a try form learn (R242), and its blocked threads with status 4.
(DEDUCED, unsafe: notes/assumptions/76.md) -/
def State.breakChan (s : State) (n : Nat) : State :=
  match s.chan? n with
  | none => s
  | some h0 =>
    if h0.broken then s
    else
      let s1 := s.dropSlot n false
      match s1.chan? n with
      | none => s1
      | some h =>
        let ends := h.recv :: h.senders
        let s1' := if h0.holder.isSome || !h.ready.isEmpty then s1.chanSignal n true else s1
        let s2 := s1'.setChan n { h with ready := [], tries := [], broken := true, counters := bumpBy h.counters 2 h.ready.length }
        let s3 := ends.foldl (fun s e => match (s.thr e.1 e.2).blocked with
          | some (.cbegin m rd) => if m = n then s.unblock e.1 e.2 rd (statusVal 4) else s
          | some (.crecv m rd) => if m = n then s.unblock e.1 e.2 rd (statusVal 4) else s
          | some (.commit m rd) => if m = n then s.unblock e.1 e.2 rd (statusVal 4) else s
          | some (.result m rd) => if m = n then s.unblock e.1 e.2 rd (statusVal 4) else s
          | _ => s) s2
        let at_ := h0.holder.getD (0, 0)
        s3.chanEvent h.dom n 2 at_.1 at_.2

end Sys2Proof.Machine
end

