-- ==== Sys2Proof/Machine/FlowOps.lean ====
section
/-! DEFINITION. Flows and their hand-over (R248, R249, R298-R305): placements, delivery, results that are held, markers and re-issue. -/
namespace Sys2Proof.Machine

def flowKey (d n : Nat) : Nat := d * 2 ^ 20 + n
def flowDom (k : Nat) : Nat := k / 2 ^ 20
def flowNum (k : Nat) : Nat := k % 2 ^ 20
def State.flow (s : State) (k : Nat) : Flow := tget s.rm.flows k {}
def State.setFlow (s : State) (k : Nat) (f : Flow) : State := { s with rm.flows := tset s.rm.flows k f }
def State.fclass (s : State) (d c : Nat) : FClass := tget s.rm.classes (d * 8 + c) {}
def State.setFclass (s : State) (d c : Nat) (x : FClass) : State := { s with rm.classes := tset s.rm.classes (d * 8 + c) x }

/-- IMP_EVENT (R310). (DESIGN CHOICE, unsafe: notes/assumptions/97.md) -/
def State.impEvent (s : State) (d subject cause : Nat) : State := s.event [d, 0] 0x0730 d [d, subject, cause, s.ledgerNs]

/-! Placements (R302). -/

/-- A thread has a kind-1 subscription to a class. -/
def Thread.covers (x : Thread) (c : Nat) : Bool := x.subs.any (fun u => u.2.kind == 1 && u.2.mask.testBit c)

/-- Whether a thread is an eligible placement for a class of a domain. -/
def State.eligible (s : State) (d cls : Nat) (p : Nat × Nat) : Bool :=
  s.coreDom p.1 == some d && (s.core p.1).state == .running && (s.thr p.1 p.2).live && (s.thr p.1 p.2).state != .halted
    && (s.thr p.1 p.2).covers cls

/-- The threads of the device that are started. -/
def State.threads (s : State) : List (Nat × Nat) :=
  s.cores.cores.flatMap (fun (c : Nat × Core) => c.2.threads.map (fun t => (c.1, t.1)))

/-- How many flows are placed on a thread. -/
def State.placedOn (s : State) (p : Nat × Nat) : Nat := (s.rm.flows.filter (fun (f : Nat × Flow) => f.2.place == some p)).length

/-- The placement with the fewest flows, ties to the lower core and then the lower thread. -/
def State.fewest (s : State) : List (Nat × Nat) → Option (Nat × Nat)
  | [] => none
  | a :: r => match s.fewest r with
    | none => some a
    | some b =>
      if s.placedOn a < s.placedOn b || (s.placedOn a = s.placedOn b && ahead a b) then some a else some b

/-- The eligible placement R302 chooses, none of the excluded ones. -/
def State.pickPlace (s : State) (d cls : Nat) (excl : Nat × Nat → Bool) : Option (Nat × Nat) :=
  s.fewest (s.threads.filter (fun p => s.eligible d cls p && !excl p))

/-- A flow given a placement, or waiting for one; that none is eligible is reported once per class and episode (R302). -/
def State.placeFlow (s : State) (k : Nat) (moved : Bool) (excl : Nat × Nat → Bool) : State :=
  let f := s.flow k
  let d := flowDom k
  let c := s.fclass d f.cls
  match s.pickPlace d f.cls excl with
  | some p => (s.setFlow k { f with place := some p, migrated := moved || f.migrated }).setFclass d f.cls { c with told := false }
  | none =>
    let s1 := s.setFlow k { f with place := none, migrated := moved || f.migrated }
    if c.told then s1 else (s1.setFclass d f.cls { c with told := true }).impEvent d f.cls 1

/-! Item buffers (R298, R299). -/

/-- The lowest free item buffer of a domain, or none. -/
def State.freeBuf (s : State) (d : Nat) : Option Nat :=
  let x := s.rmDom d
  if x.bufs.length ≥ x.itemMib * 64 then none else (List.range (x.bufs.length + 1)).find? (fun b => !x.bufs.contains b)

/-- An item's buffer freed. -/
def State.dropBuf (s : State) (d : Nat) (b : Option Nat) : State := match b with
  | none => s
  | some n => (s.setRmDom d { s.rmDom d with bufs := (s.rmDom d).bufs.erase n }).itemLevel d

/-! Results in a hand-over (R248). -/

/-- A descriptor posted to a core-posted ring (R257): its slot, `PI`, and the doorbell. -/
def State.corePost (s : State) (k : Nat) (b : Bytes) (who : Nat) : State :=
  let r := s.ring k
  let f := fnOfKey k
  let pi := (r.pi + 1) % 2 ^ 32
  let s1 := s.hostWr f (.hostWrite f (r.slotAddr r.pi) b)
  let s2 := s1.setRing k { r with pi := pi, posters := r.posters ++ [(r.pi, who)] }
  (s2.hostWr f (.hostWrite f r.idxAddr (le pi 4))).readIndex k

/-- Whether a core-posted ring is full (R257). -/
def Ring.postFull (r : Ring) : Bool := (r.pi + 2 ^ 32 - r.done) % 2 ^ 32 ≥ r.entries

/-- The flow for whose hand-over a thread's results are held, its current item being behind the marker and not re-issued; or, with `true`, behind
whose released results that still wait for room they go. (DEDUCED, unsafe: notes/assumptions/79.md) -/
def State.holdsFor (s : State) (c t : Nat) : Option (Nat × Bool) := match (s.thr c t).item with
  | none => none
  | some (k, seq, _, _) =>
    let f := s.flow k
    if f.hand.isSome && f.out.any (fun i => i.seq == seq && !i.before && !i.reissued) then some (k, false)
    else if !f.due.isEmpty then some (k, true) else none

/-- A result put into a flow's hand-over store. -/
def Flow.hold (f : Flow) (due : Bool) (h : HeldResult) : Flow := if due then { f with due := f.due ++ [h] } else { f with held := f.held ++ [h] }
/-- Results of a flow in the store. -/
def Flow.stored (f : Flow) : Nat := f.held.length + f.due.length

/-- Results held for all flows of a domain, and for the device. -/
def State.heldOf (s : State) (d : Nat) : Nat :=
  (s.rm.flows.map (fun (f : Nat × Flow) => if flowDom f.1 = d then f.2.stored else 0)).sum
def State.heldAll (s : State) : Nat := (s.rm.flows.map (fun (f : Nat × Flow) => f.2.stored)).sum
/-- Room for one more held result: of the flow, the domain's share and the device (R248, R306). -/
def State.holdRoom (s : State) (k : Nat) : Bool :=
  (s.flow k).stored < 256 && s.heldOf (flowDom k) < s.handShare (flowDom k) && s.heldAll < 8192

/-- One held result delivered, or none while its ring is full. -/
def State.releaseOne (s : State) (h : HeldResult) : Option State := match h with
  | .post c t k b => if !(s.ring k).enable then some s else if (s.ring k).postFull then none else some (s.corePost k b (tkey c t))
  | .message c t n w => some (s.commitMsg n c t w)

/-- A flow's held results released in order (R248 step 3). (DEDUCED, unsafe: notes/assumptions/79.md) -/
def State.release (s : State) (k : Nat) : Nat → State
  | 0 => s
  | n + 1 =>
    let f := s.flow k
    match f.due with
    | [] => s
    | h :: rest => match (s.setFlow k { f with due := rest }).releaseOne h with
      | some s1 => s1.release k n
      | none => s

/-- A staged message committed, or held for a hand-over (R240, R248): the slot is free, the position taken. -/
def State.commitNow (s : State) (c t n : Nat) (words : List Nat) (hold : Option (Nat × Bool)) : State :=
  match s.chan? n with
  | none => s
  | some h =>
    let s1 := (s.setChan n { h with holder := none, staged := [] }).setThr c t { s.thr c t with slot := none }
    let s2 := match hold with
      | some k => s1.setFlow k.1 ((s1.flow k.1).hold k.2 (HeldResult.message c t n words))
      | none => s1.commitMsg n c t words
    s2.sendChange n

/-- Whether a result of a thread may be emitted now, and the flow it is held for. -/
def State.mayEmit (s : State) (c t : Nat) : Bool × Option (Nat × Bool) := match s.holdsFor c t with
  | none => (true, none)
  | some k => (s.holdRoom k.1, some k)

/-- A descriptor posted by a thread, held, or its thread stalled (R248). -/
def State.emitPost (s : State) (c t rd k : Nat) (b : Bytes) : State :=
  let x := s.thr c t
  match s.mayEmit c t with
  | (true, none) => (s.setThr c t ({ x with posts := x.posts + 1, blocked := none }.setReg rd 0)).corePost k b (tkey c t)
  | (true, some f) =>
    (s.setThr c t ({ x with posts := x.posts + 1, blocked := none }.setReg rd 0)).setFlow f.1
      ((s.flow f.1).hold f.2 (HeldResult.post c t k b))
  | (false, _) => s.setThr c t { x with state := .stalled, blocked := some (.post rd k b) }

/-- A staged message committed by its thread, held, or its thread stalled (R240, R248). -/
def State.emitCommit (s : State) (c t rd n : Nat) : State :=
  let x := s.thr c t
  match s.mayEmit c t, s.chan? n with
  | (true, hold), some h => (s.setThr c t ({ x with blocked := none }.setReg rd 0)).commitNow c t n h.staged hold
  | (true, _), none => s.setThr c t ({ x with blocked := none }.setReg rd (statusVal 4))
  | (false, _), _ => s.setThr c t { x with state := .stalled, blocked := some (.result n rd) }

/-- Whether a post finds its ring's function reset, halted or frozen, or the ring full (R257, R273). (DEDUCED, unsafe: notes/assumptions/74.md) -/
def State.postRefused (s : State) (k : Nat) : Bool :=
  let f := fnOfKey k
  (s.fn f).inReset || (s.fn f).halted || (s.pfn f).frozen || !(s.ring k).enable || (s.ring k).postFull

/-- Threads stalled at a result tried again, in ascending core and thread. -/
def State.retryHeld (s : State) : State :=
  s.threads.foldl (fun s p =>
    let x := s.thr p.1 p.2
    if x.state ≠ .stalled then s
    else match x.blocked with
      | some (.post rd k b) =>
        if s.postRefused k then s.unblock p.1 p.2 rd 1
        else if !(s.mayEmit p.1 p.2).1 then s else ((s.setThr p.1 p.2 { x with state := .ready }).emitPost p.1 p.2 rd k b).stepTick p.1 p.2
      | some (.result n rd) => if !(s.mayEmit p.1 p.2).1 then s else ((s.setThr p.1 p.2 { x with state := .ready }).emitCommit p.1 p.2 rd n).stepTick p.1 p.2
      | _ => s) s

/-- Results still held after their marker, tried again. -/
def State.releaseAll (s : State) : State :=
  if s.rm.flows.any (fun (f : Nat × Flow) => !f.2.due.isEmpty || !f.2.held.isEmpty) then
    (s.rm.flows.foldl (fun (s : State) (f : Nat × Flow) => s.release f.1 8192) s).retryHeld
  else s

/-! Markers, moves and re-issue (R248, R249, R303, R304). -/

/-- The marker retires when no item before it is left (R248 step 1, R249): held results are released, and the move is complete. -/
def State.retireMarker (s : State) (k : Nat) : State :=
  let f := s.flow k
  if f.hand.isNone || f.items.any (·.before) || f.out.any (·.before) then s
  else
    let s1 := (s.setFlow k { f with hand := none, told := false, held := [], due := f.due ++ f.held }).rmCount (flowDom k) 8 1
    ((s1.release k 8192).impEvent (flowDom k) (flowNum k) 4).releaseAll

/-- Items of a core re-issued once, ahead of the flow's others, or refused by their class; one re-issued before is lost, which the core's next
CORE_EVENT reports (R249, R304). (DEDUCED, unsafe: notes/assumptions/79.md) -/
def State.reissue (s : State) (k c : Nat) (l : List Item) : State :=
  let d := flowDom k
  let lost := l.filter (·.reissued)
  let again := l.filter (fun i => !i.reissued)
  let s0 := if lost.isEmpty then s else s.setCore c { s.core c with lost := (s.core c).lost ++ lost.map (fun i => flowNum k * 2 ^ 32 + i.seq) }
  let s1 := lost.foldl (fun s i => s.dropBuf d i.buf) s0
  if (s.fclass d (s.flow k).cls).refuse then
    again.foldl (fun s i => ((s.dropBuf d i.buf).rmCount d 10 1).impEvent d (flowNum k) 3) s1
  else
    let new := again.map (fun i => { i with reissued := true, before := true, taken := false, at_ := none })
    (s1.setFlow k { s1.flow k with items := new ++ (s1.flow k).items }).rmCount d 9 again.length

/-- A hand-over marker inserted, where none is (R248): every item there is before it. -/
def Flow.mark (f : Flow) (old : Nat × Nat) (now : Nat) : Flow :=
  if f.hand.isSome then f
  else
    { f with
      hand := some old, markedAt := now, told := false
      items := f.items.map (fun i => { i with before := true }), out := f.out.map (fun i => { i with before := true }) }

/-- An item's record lies with a core, or with a thread. -/
def Item.onCore (i : Item) (c : Nat) : Bool := match i.at_ with
  | some x => x.1 == c
  | none => false
def Item.onThr (i : Item) (c t : Nat) : Bool := match i.at_ with
  | some x => x.1 == c && x.2.1 == t
  | none => false

/-- What a core stop does to one flow (R249, R303). (DEDUCED, unsafe: notes/assumptions/79.md) -/
def State.flowStop (s : State) (k c : Nat) : State :=
  let f := s.flow k
  let onA := match f.hand with
    | some p => p.1 == c
    | none => false
  let onB := match f.place with
    | some p => p.1 == c
    | none => false
  if !onA && !onB then s
  else
    let f1 := if f.hand.isNone then f.mark (f.place.getD (0, 0)) s.now else f
    let onA := onA || f.hand.isNone
    -- the old placement's items: taken, delivered or still to come before the marker
    let gone := fun (i : Item) => (onA && i.before && !i.reissued) || i.onCore c || (onB && f.hand.isSome && !i.before)
    let l := (f1.out ++ f1.items).filter gone
    let cut := if onB && f.hand.isSome then f1.held else []
    let s0 := s.setFlow k
      { f1 with
        out := f1.out.filter (fun i => !gone i), items := f1.items.filter (fun i => !gone i)
        held := if onB && f.hand.isSome then [] else f1.held }
    let s1 := cut.foldl (fun s h => match h with
      | .message _ _ n _ => s.sendChange n
      | .post _ _ _ _ => s) s0
    let s2 := s1.reissue k c l
    let s3 := if onB then s2.placeFlow k true (fun _ => false) else s2
    s3.retireMarker k

/-- What `texit` does to one flow (R303): the current item is re-issued, everything else goes to the new placement. -/
def State.flowExit (s : State) (k c t : Nat) : State :=
  let f := s.flow k
  if f.hand ≠ some (c, t) && f.place ≠ some (c, t) then s
  else
    let f1 := f.mark (c, t) s.now
    let onA := f1.hand == some (c, t)
    let cur := f1.out.filter (fun i => i.onThr c t && i.taken)
    let back := f1.out.filter (fun i => i.onThr c t && !i.taken)
    let free := fun (i : Item) => if onA && !i.reissued then { i with before := false } else i
    let s1 := s.setFlow k
      { f1 with
        out := f1.out.filter (fun i => !i.onThr c t)
        items := (back.map (fun i => { i with before := !onA && i.before, at_ := none })) ++ f1.items.map free }
    let s2 := s1.reissue k c cur
    let s3 := if f.place = some (c, t) then s2.placeFlow k true (fun p => p == (c, t)) else s2
    s3.retireMarker k

/-- What the end of a subscription does to one flow its thread no longer covers (R303): the current item retires normally. -/
def State.flowUncovered (s : State) (k c t : Nat) : State :=
  let f := s.flow k
  if f.place ≠ some (c, t) || (s.thr c t).covers f.cls then s
  else
    let f1 := f.mark (c, t) s.now
    let back := f1.out.filter (fun i => i.onThr c t && !i.taken)
    let keep := f1.out.filter (fun i => !(i.onThr c t && !i.taken))
    let s1 := s.setFlow k
      { f1 with
        out := keep
        items := (back ++ f1.items).map (fun i => if i.reissued then { i with at_ := none } else { i with before := false, at_ := none }) }
    ((s1.placeFlow k true (fun p => p == (c, t))).retireMarker k)

/-- Every flow after a change to a core or a thread. -/
def State.flowsAfter (s : State) (f : State → Nat → State) : State := (s.rm.flows.map (·.1)).foldl f s

/-! Items in, and delivery (R298, R301). -/

/-- An item enters a flow: its context is created with the flow, and the flow placed when its first item arrives (R293, R302).
(DEDUCED, unsafe: notes/assumptions/96.md) -/
def State.addItem (s : State) (k cls : Nat) (i : Item) : State :=
  let s0 := if (tget? s.rm.flows k).isNone then (s.setFlow k { cls := cls }).ctxNew (ctxKey 2 (flowDom k) (flowNum k)) else s
  let f := s0.flow k
  let s1 := s0.setFlow k { f with items := f.items ++ [{ i with seq := f.nextSeq }], nextSeq := (f.nextSeq + 1) % 2 ^ 32 }
  if f.place.isNone then s1.placeFlow k false (fun _ => false) else s1

/-- Items of a flow that count against its depth. -/
def Flow.depth (f : Flow) : Nat := (f.items.filter (fun i => !i.reissued)).length

/-- Where an item goes (R248, R249). -/
def Flow.dest (f : Flow) (i : Item) : Option (Nat × Nat) := if i.before && !i.reissued && f.hand.isSome then f.hand else f.place

/-- The next item of a flow for a thread, its class's `INFLIGHT` allowing. -/
def State.nextFor (s : State) (k c t : Nat) : Option Item :=
  let f := s.flow k
  let busy := (f.out.filter (fun i => i.onThr c t)).length
  if busy ≥ (s.fclass (flowDom k) f.cls).inflight then none else f.items.find? (fun i => f.dest i == some (c, t))

/-- The lowest kind-1 subscription of a thread that covers a class and has a free record. -/
def Thread.recordSub (x : Thread) (cls : Nat) : Option Nat :=
  (x.subs.find? (fun u => u.2.kind == 1 && u.2.mask.testBit cls && u.2.unread.length + u.2.read.length < 16)).map (·.1)

/-- A record of R301. -/
def itemRecord (k cls : Nat) (moved : Bool) (i : Item) : Bytes :=
  le (flowNum k + 2 ^ 20 * cls) 4 ++ le i.seq 4 ++ le (match i.buf with
    | some b => itemBase + b * 16384
    | none => 0) 8 ++ le i.len 2 ++ le (b2n i.reissued + 2 * b2n i.buf.isNone + 4 * b2n moved) 1 ++ le 0 1 ++ le i.queue 2 ++ le 0 2
    ++ le i.word 8

/-- One item delivered to a thread: its record written, its subscription's bit set (R301). -/
def State.deliverItem (s : State) (k c t : Nat) (i : Item) (h : Nat) : State :=
  let f := s.flow k
  let x := s.thr c t
  let u := tget x.subs h { kind := 1, region := 0 }
  let toNew := f.dest i == f.place
  let s1 := s.store (localAt c (u.region + 32 * u.next)) (itemRecord k f.cls (f.migrated && toNew) i)
  let i1 := { i with at_ := some (c, t, h, u.next) }
  let f1 := { f with
    items := f.items.filter (fun y => y != i), out := f.out ++ [i1], served := s.rm.clock + 1, migrated := f.migrated && !toNew }
  let s2 := { s1.setFlow k f1 with rm.clock := s.rm.clock + 1 }.rmCount (flowDom k) 7 1
  let x1 := s2.thr c t
  let u1 := { u with unread := u.unread ++ [u.next], next := (u.next + 1) % 16 }
  (s2.setThr c t { x1 with subs := tset x1.subs h u1 }).wake c t 4

/-- The flow whose turn it is for a thread: the least recently served with an item that may be delivered. -/
def State.turnFor (s : State) (c t : Nat) : Option Nat :=
  let ks := (s.rm.flows.filter (fun (f : Nat × Flow) => (s.nextFor f.1 c t).isSome && ((s.thr c t).recordSub f.2.cls).isSome))
  (ks.foldl (fun (a : Option (Nat × Nat)) (f : Nat × Flow) => match a with
    | some b => if f.2.served < b.2 then some (f.1, f.2.served) else a
    | none => some (f.1, f.2.served)) none).map (·.1)

end Sys2Proof.Machine
end

