-- ==== Sys2Proof/Machine/CoreOps.lean ====
section
/-! DEFINITION. The core (R210-R232, R469-R471): stops, faults and traps, memory as a thread sees it, and what every instruction meets
before and after its own effect. -/
namespace Sys2Proof.Machine

/-- CORE_EVENT (R235), with the items lost since the last one behind its fields (R249). (DEDUCED, unsafe: notes/assumptions/79.md) -/
def State.coreEvent (s : State) (c cause : Nat) : State :=
  let x := s.core c
  let d := s.cdom c
  (s.setCore c { x with lost := [] }).event [d, 0] 0x0710 d ([c, cause, x.faultClass, x.faultTid, x.faultPc, x.faultVal, s.ledgerNs] ++ x.lost)

/-- A thread's registrations at channels forgotten. -/
def State.dropTries (s : State) (p : Nat × Nat → Bool) : State :=
  { s with cores.chans := tmap s.cores.chans (fun (h : Channel) => { h with tries := h.tries.filter (fun x => !p (x.1, x.2.1)) }) }

/-- A core stops (R231): its staged messages are abandoned, its channels break, its flows move, and `CORE_EVENT` is sent. -/
def State.stopCore (s : State) (c cls t pc val cause : Nat) : State :=
  let x := s.core c
  let slots := x.threads.filterMap (fun y => y.2.slot.map (fun n => (n, y.1)))
  let s1 := s.setCore c (x.stop s.now s.elapsed cls t pc val)
  let s2 := { s1 with dbg.steps := s1.dbg.steps.filter (fun e => e.1 / 8 != c) }.dropTries (fun p => p.1 == c)
  let s3 := slots.foldl (fun s y => match s.chan? y.1 with
    | some h => ((s.dropSlot y.1 false).chanEvent h.dom y.1 3 c y.2).sendChange y.1
    | none => s) s2
  let broken := (s3.cores.chans.filter (fun (h : Nat × Channel) => h.2.recv.1 == c)).map (·.1)
  let s4 := broken.foldl State.breakChan s3
  ((s4.flowsAfter (fun s k => s.flowStop k c)).retryHeld).coreEvent c cause

/-- Tosen requests being executed on an overseer that faults are answered with a retry (R233); on which overseer a request runs is the
firmware's own, a free value. (DESIGN CHOICE, unsafe: notes/assumptions/75.md) -/
def State.overseerLost (s : State) (o : Nat) : State :=
  let on := s.tosen.sessions.filter (fun x => x.running.isSome)
  on.foldl (fun s x => match x.running with
    | some q => if s.freeBits 2 = o then (s.used).tosenLater x.path q.opcode 0x01000090 [] else s.used
    | none => s) s

/-- A fault of a class of R230 in a thread, at a pc, with its value: the whole core stops. When all four overseers have stopped, the device
enters Lockdown (R233). -/
def State.coreFault (s : State) (c t pc cls val : Nat) : State :=
  if (s.core c).state ≠ .running then s
  else
    let s0 := (s.coreCount1 c 5).setThr c t { s.thr c t with pc := pc }
    let s1 := s0.stopCore c cls t pc val 1
    if c < 96 then s1
    else
      let s2 := s1.overseerLost (c - 96)
      if [96, 97, 98, 99].all (fun o => (s2.core o).state == .stopped) then s2.lockdown 0x13 else s2

/-- A trap of a thread (R228, R229), `tpc` being what `CR_TPC` keeps. It ends a step in progress (R470). -/
def State.trapTo (s : State) (c t cause val pc tpc : Nat) : State :=
  let x := s.thr c t
  if x.tactive then s.coreFault c t pc 7 cause
  else
    let x1 := { x with tpc := tpc, tcause := cause, tval := val, pp := x.priv, priv := true, tactive := true, pc := x.tvec }
    let s1 := (s.setThr c t x1).coreCount1 c 4
    match tget? s1.dbg.steps (tkey c t) with
    | none => s1
    | some (_, 0) => { s1 with dbg.steps := tdel s1.dbg.steps (tkey c t) }
    | some _ => s1.haltThr c t 2 0

/-! Memory as a thread sees it (R216-R219). -/

/-- What an access of `n` bytes meets: 0 local memory, 1 the cistern window, 2 a trap, 3 misaligned, 4 an access fault, 5 the window through
which an overseer reaches the configuration of every block (R233), whose addresses the spec does not give.
(DEDUCED, unsafe: notes/assumptions/73.md; DESIGN CHOICE, unsafe: notes/assumptions/178.md) -/
def State.accessKind (s : State) (c t a n : Nat) (write : Bool) : Nat :=
  let x := s.thr c t
  let win := 2 ^ 32 ≤ a && a + n ≤ 2 ^ 33
  if !x.priv && !(x.udataBase ≤ a && a + n ≤ x.udataLimit) && !win then 2
  else if a % n ≠ 0 then 3
  else if a + n ≤ 2 ^ 18 then 0
  else if win && (s.cisternOk (s.cdom c) (a - 2 ^ 32) n || (!write && s.itemOk (s.cdom c) (a - 2 ^ 32) n)) then 1
  else if c ≥ 96 && Config.overseerWindow a then 5
  else 4

/-- Whether an access traps or faults. -/
def badKind (k : Nat) : Bool := 2 ≤ k && k ≤ 4

/-- The trap or fault of an access that is not allowed. -/
def State.accessBad (s : State) (c t pc a kind : Nat) : State :=
  if kind = 2 then s.trapTo c t 4 a pc pc else if kind = 3 then s.coreFault c t pc 3 a else s.coreFault c t pc 2 a

/-- Where an address of a thread lies in the byte store. -/
def State.placeOf (s : State) (c a : Nat) : Nat := if a < 2 ^ 32 then localAt c a else cisternAt (s.cdom c) (a - 2 ^ 32)

/-- The lowest watchpoint slot an access matches (R471). -/
def State.watchSlot (s : State) (c t a n : Nat) (write : Bool) : Option Nat :=
  (List.range 8).find? (fun i =>
    let b := tget s.dbg.bps (tkey c i) {}
    (b.kind == 4 || b.kind == (if write then 2 else 3)) && b.mask.testBit t && a < b.addr + b.len && b.addr < a + n)

/-- A watchpoint hit halts the thread once the access has completed (R471). -/
def State.watch (s : State) (c t a n : Nat) (write : Bool) : State :=
  if (s.core c).state ≠ .running then s
  else match s.watchSlot c t a n write with
    | some i => ((s.dbgCount 5).debugEvent c t 5).haltThr c t 4 i
    | none => s

/-- A loaded value of `n` bytes: what the instruction set makes of the bits above them is not in the spec.
(DESIGN CHOICE, unsafe: notes/assumptions/69.md) -/
def loadValue (n raw : Nat) : Nat := if n ≥ 8 then raw else raw + (Config.alu (1000 + n) raw 0).toNat / 2 ^ (8 * n) * 2 ^ (8 * n)

/-- A cistern load issued (R218): the value is read now, the accesses of one thread to one block being in program order; a ninth stalls.
(DEDUCED, unsafe: notes/assumptions/73.md) -/
def State.cisternLoad (s : State) (c t n rd a : Nat) : State :=
  let x := s.thr c t
  if x.loads.length ≥ 8 then s.setThr c t { x with state := .stalled, blocked := some (.load n rd a) }
  else
    let at_ := s.placeOf c a
    let s1 := s.decodeRange at_ n
    let v := loadValue n (ofLe (mreads s1.ram at_ n))
    s1.setThr c t { x with loads := x.loads ++ [(rd, a, v, s1.poisoned at_ n)] }

/-- A load of a thread. What an overseer reads of a block's configuration is a free value. (DESIGN CHOICE, unsafe: notes/assumptions/178.md) -/
def State.loadAt (s : State) (c t pc n rd a : Nat) : State :=
  let k := s.accessKind c t a n false
  if badKind k then s.accessBad c t pc a k
  else if k = 5 then ((s.used).setThr c t ((s.thr c t).setReg rd (loadValue n (s.freeBits (8 * n))))).watch c t a n false
  else if k = 1 then (s.cisternLoad c t n rd a).watch c t a n false
  else match s.consume (s.cdom c) (localAt c a) n with
    | (s1, none) => s1.coreFault c t pc 4 a
    | (s1, some b) => (s1.setThr c t ((s1.thr c t).setReg rd (loadValue n (ofLe b)))).watch c t a n false

/-- A store of a thread: a cistern store is posted (R218). What an overseer's store makes of a block's configuration is the management
firmware's own, and is not followed. (DEDUCED, unsafe: notes/assumptions/73.md; DESIGN CHOICE, unsafe: notes/assumptions/178.md) -/
def State.storeAt (s : State) (c t pc n a v : Nat) : State :=
  let k := s.accessKind c t a n true
  if badKind k then s.accessBad c t pc a k
  else if k = 5 then s.watch c t a n true
  else
    let s1 := s.store (s.placeOf c a) (le v n)
    let s2 := if k = 1 then s1.setThr c t { s1.thr c t with stores := (s1.thr c t).stores + 1 } else s1
    s2.watch c t a n true

/-- An atomic of 8 bytes on local memory (R217): `f` gives what is stored for the old value, none for nothing.
(DEDUCED, unsafe: notes/assumptions/73.md) -/
def State.atomicAt (s : State) (c t pc rd a : Nat) (f : Nat → Option Nat) : State :=
  let k := s.accessKind c t a 8 true
  if badKind k then s.accessBad c t pc a k
  else if k = 1 || k = 5 then s.coreFault c t pc 2 a
  else match s.consume (s.cdom c) (localAt c a) 8 with
    | (s1, none) => s1.coreFault c t pc 4 a
    | (s1, some b) =>
      let old := ofLe b
      let s2 := match f old with
        | some v => s1.store (localAt c a) (le v 8)
        | none => s1
      ((s2.setThr c t ((s2.thr c t).setReg rd old)).watch c t a 8 true)

/-! An instruction (R213, R219, R223, R470, R471). -/

/-- The instruction breakpoint a thread meets at its pc. -/
def State.bpSlot (s : State) (c t pc : Nat) : Option Nat :=
  (List.range 8).find? (fun i =>
    let b := tget s.dbg.bps (tkey c i) {}
    b.kind == 1 && b.mask.testBit t && b.addr == pc)

/-- Fields of an instruction word (R223). -/
def wRd (w : Nat) : Nat := bits w 11 7
def wRs1 (w : Nat) : Nat := bits w 19 15
def wRs2 (w : Nat) : Nat := bits w 24 20
def wImm (w : Nat) : Nat := bits w 31 20

/-- The instruction itself, once its fetch is done: a poisoned source, a privileged form in U, and its effect, which is given the pc. One that
faults, or that traps with `CR_TPC` at itself, is not retired.
(DESIGN CHOICE, unsafe: notes/assumptions/69.md; DEDUCED, unsafe: notes/assumptions/70.md) -/
def State.execute (s : State) (c t word : Nat) (src : List Nat) (prv : Bool) (body : State → Nat → State) : State :=
  let x := s.thr c t
  let pc := x.pc
  match src.find? (fun r => (tget? x.bad r).isSome) with
  | some r => (s.memDom (s.cdom c) 1).coreFault c t pc 4 (tget x.bad r 0)
  | none =>
    let s0 := s.setThr c t { x with pc := pc + 4, skip := none }
    if prv && !x.priv then s0.trapTo c t 2 word pc pc
    else
      let s1 := body s0 pc
      if (s1.core c).state = .stopped || (!x.tactive && (s1.thr c t).tactive && (s1.thr c t).tpc == pc) then s1
      else
        let s2 := (s1.setThr c t { s1.thr c t with retired := (s1.thr c t).retired + 1 }).coreCount1 c 0
        if (s2.thr c t).blocked.isSome then s2 else s2.stepTick c t

/-- What the arbiter needs to know of an instruction (R213): the registers it reads and writes, whether it accesses memory, and whether no
second instruction may share its slot: a device-facing one, which is not a second either, and a branch that is taken. -/
structure Form where
  src : List Nat := []
  dst : Nat := 0
  mem : Bool := false
  dev : Bool := false
  taken : Bool := false
  deriving DecidableEq, Repr

/-- A core whose present slot goes to a thread, for a first instruction (R214). -/
def Core.gives (x : Core) (t pc : Nat) (f : Form) : Core :=
  let last := f.dev || f.taken
  { x with issue := some { thr := t, next := pc + 4, dst := if last then 0 else f.dst, mem := f.mem, last := last }
           rr := if x.urgentOn.isSome then x.rr else t }

/-- Whether a second instruction may share the slot (R213). -/
def Issue.pairs (i : Issue) (t pc : Nat) (f : Form) : Bool :=
  i.thr == t && !i.last && i.next == pc && !f.dev && !(i.mem && f.mem) && (i.dst == 0 || !f.src.contains i.dst)

/-- The core once a thread has issued an instruction in the present slot, or none where the slot is not the thread's (R213, R214).
(DEDUCED, unsafe: notes/assumptions/177.md) -/
def Core.takes (x : Core) (t pc : Nat) (f : Form) : Option Core := match x.issue with
  | none => if x.grant (x.slot % 32) = some t then some (x.gives t pc f) else none
  | some i => if i.pairs t pc f then some { x with issue := some { i with last := true }, counters := bump x.counters 1 } else none

/-- The fetch of an instruction a thread issues, its breakpoint first, and then its effect. A row whose word is not what stands at the pc
changes nothing, and the slot stays as it is in `s`. (DESIGN CHOICE, unsafe: notes/assumptions/69.md) -/
def State.fetchInstr (s v : State) (c t word : Nat) (src : List Nat) (prv : Bool) (body : State → Nat → State) : State :=
  let x := v.thr c t
  match (if x.skip = some x.pc then none else v.bpSlot c t x.pc) with
  | some i =>
    let s1 := ((v.setThr c t { x with skip := some x.pc }).dbgCount 5).debugEvent c t 5
    s1.haltThr c t 3 i
  | none =>
    if !x.priv && !(x.ucodeBase ≤ x.pc && x.pc + 4 ≤ x.ucodeLimit) then v.trapTo c t 3 x.pc x.pc x.pc
    else if x.pc + 4 > 2 ^ 18 then v.coreFault c t x.pc 2 x.pc
    else match v.consume (v.cdom c) (localAt c x.pc) 4 with
      | (s1, none) => s1.coreFault c t x.pc 4 x.pc
      | (s1, some b) => if ofLe b = word then s1.execute c t word src prv body else s

/-- An instruction of a thread of a running core that is `READY`, in a slot the arbiter gives the thread (R213, R214). A thread whose next
instruction names a register that a cistern load has yet to write is `STALLED` (R212). (DESIGN CHOICE, unsafe: notes/assumptions/69.md) -/
def State.issueInstr (s : State) (c t word : Nat) (f : Form) (prv : Bool) (body : State → Nat → State) : State :=
  let x := s.thr c t
  let out := x.loads.filter (fun l => l.1 != 0 && (f.src.contains l.1 || l.1 == f.dst))
  if !s.firmware || (s.core c).state ≠ .running || x.state ≠ .ready then s
  else if !out.isEmpty then
    if ofLe (mreads s.ram (localAt c x.pc) 4) = word then s.setThr c t { x with state := .stalled, blocked := some (.await (out.map (·.1))) } else s
  else match (s.core c).takes t x.pc f with
    | none => s
    | some y => s.fetchInstr (s.setCore c y) c t word f.src prv body

/-- A device-facing instruction (R223). (DESIGN CHOICE, unsafe: notes/assumptions/69.md) -/
def State.instr (s : State) (c t word : Nat) (src : List Nat) (dst : Nat) (prv : Bool) (body : State → Nat → State) : State :=
  s.issueInstr c t word { src := src, dst := dst, dev := true } prv body

/-- Whether a word is of format C with this funct3, or of format D with this funct3 and funct7 (R223). -/
def wordC (w f3 : Nat) : Bool := w < 2 ^ 32 && bits w 6 0 == 0x5B && bits w 14 12 == f3
def wordD (w f3 f7 : Nat) : Bool := wordC w f3 && bits w 31 25 == f7

/-- The device-facing instruction of format C, or D, that a word is; a row whose word is another instruction's changes nothing. -/
def State.instrC (s : State) (c t word f3 : Nat) (src : List Nat) (dst : Nat) (prv : Bool) (body : State → Nat → State) : State :=
  if wordC word f3 then s.instr c t word src dst prv body else s
def State.instrD (s : State) (c t word f3 f7 : Nat) (src : List Nat) (dst : Nat) (prv : Bool) (body : State → Nat → State) : State :=
  if wordD word f3 f7 then s.instr c t word src dst prv body else s

/-- The encodings of major opcode 0x5B that R223, R239, R246, R257, R291 and R301 list. -/
def listedWord (w : Nat) : Bool := match bits w 14 12 with
  | 0 => bits w 31 25 ≤ 5
  | 3 => bits w 31 25 ≤ 3
  | 4 => [0, 1, 2, 3, 4, 5, 8, 9, 0xA, 0x10, 0x11, 0x12, 0x13].contains (bits w 31 25)
  | 5 => bits w 31 25 == 0
  | 6 => [0, 1, 2, 8, 9].contains (bits w 31 25)
  | _ => true

/-- A thread as `CORE_START` or `tspawn` starts it (R220). -/
def newThread (pc arg : Nat) : Thread := { state := .ready, regs := if arg = 0 then [] else [(1, arg)], pc := pc }

/-- A jump of a thread to a target (R230). -/
def State.jumpTo (s : State) (c t pc target : Nat) : State :=
  if target % 4 ≠ 0 then s.coreFault c t pc 3 target else s.setThr c t { s.thr c t with pc := target }

/-- A thread ends (R223, R236, R303): what it holds is given up; the last live thread's end leaves the core `LOADED`. -/
def State.endThread (s : State) (c t : Nat) : State :=
  let x := s.thr c t
  let s1 := s.setThr c t
    { x with state := .inactive, deadline := 0, dlValid := false, pend := 0, blocked := none, subs := [], item := none, abandoned := [], slot := none }
  let s2 := { s1 with dbg.steps := tdel s1.dbg.steps (tkey c t) }.dropTries (fun p => p == (c, t))
  let s3 := match x.slot with
    | some n => s2.abandon n false
    | none => s2
  let s4 := (s3.flowsAfter (fun s k => s.flowExit k c t)).retryHeld
  if (s4.core c).threads.any (fun y => y.2.live) then s4
  else (s4.setCore c { s4.core c with state := .loaded, stoppedAt := s4.elapsed }).coreEvent c 3

/-- The mask a thread waits with (R232). -/
def State.waitMask (s : State) (c t : Nat) : Nat := match (s.thr c t).blocked with
  | some (.wfe m _) => m
  | some (.cbegin n _) => match s.chan? n with
    | some h => 2 ^ h.source c t
    | none => 0
  | some (.crecv n _) => match s.chan? n with
    | some h => 2 ^ h.source c t
    | none => 0
  | _ => 0

/-- The sources outside the core that are armed for a thread (R225), as bits. -/
def State.armed (s : State) (c t : Nat) : Nat :=
  let x := s.thr c t
  let ends := s.cores.chans.filter (fun (h : Nat × Channel) =>
    (h.2.recv :: h.2.senders).contains (c, t) && (h.2.recv :: h.2.senders).any (fun e => e.1 != c))
  b2n x.dlValid + 4 * b2n (!ends.isEmpty) + 8 * b2n (x.posts > 0) + 16 * b2n (!x.subs.isEmpty)

/-- The conditions of a dry well (R232). -/
def State.dryWell (s : State) (c : Nat) : Bool :=
  let live := (s.core c).threads.filter (fun y => y.2.live)
  (s.core c).state == .running && !live.isEmpty && live.all (fun y =>
    y.2.state == .waiting && (y.2.pend &&& s.waitMask c y.1) == 0 && (s.armed c y.1 &&& s.waitMask c y.1) == 0)

end Sys2Proof.Machine
end

