-- ==== Sys2Proof/Machine/BootOps.lean ====
section
/-! DEFINITION. The boot ROM's choice and checks of an image, the start of firmware, and Recovery (R427-R437), with the check of the fused
map that firmware makes at its start (R393). -/
namespace Sys2Proof.Machine

/-! The fused map (R387, R393). -/

/-- Bytes of the domain map, 0x280-0x3CF (R387). -/
def mapLen : Nat := 336

/-- The map as MAP_CRC takes it (R393): `PROV_LOCK` 1, `ISO_LOCK` 0, every `DEBUG_CLOSED` 0. -/
def mapMasked (m : Bytes) : Bytes :=
  (List.range mapLen).map (fun i =>
    let b := m.getD i 0
    if i = 0 then (b ||| 0x01#8) &&& 0xFD#8 else if 8 ≤ i && i < 136 && i % 8 = 7 then b &&& 0xC3#8 else b)

/-- MAP_CRC of a map (R393). -/
def mapCrcOf (m : Bytes) : Nat := crc32c 0xFFFFFFFF (mapMasked m)

/-- The fused map passes its check (R393). -/
def State.mapGood (s : State) : Bool := mapCrcOf s.fuse.map == s.fuse.mapCrc
/-- The PROV_LOCK fuse, whether or not the map is in force yet. -/
def State.lockFuse (s : State) : Bool := mapField s.fuse.map 0x280 8 0 0 == 1

/-! Keys and the counter (R428, R429). -/

/-- An 8-bit fuse field reads as set when at least 5 of its fuses are 1. -/
def readsSet (v : Nat) : Bool := ((List.range 8).filter (fun i => v.testBit i)).length ≥ 5
/-- A key slot; there are four. -/
def State.keySlot (s : State) (k : Nat) : KeySlot := s.fuse.keys.getD k {}
/-- A slot is live. -/
def KeySlot.live (k : KeySlot) : Bool := readsSet k.programmed && !readsSet k.revoked

/-- The anti-rollback counter (R429): how many consecutive fuses from 0 on are 1. (DEDUCED, unsafe: notes/assumptions/145.md) -/
def State.counter (s : State) : Nat := ((List.range 1024).find? (fun i => !s.fuse.counter.testBit i)).getD 1024

/-! Manifests (R432). -/

def manBlocks (m : Bytes) : Nat := ofLe (slice m 0x0A 2)
def manSv (m : Bytes) : Nat := ofLe (slice m 0x08 2)
def manRelease (m : Bytes) : Nat := ofLe (slice m 0x06 2)
def manKey (m : Bytes) : Nat := ofLe (slice m 0x05 1)
def manPub (m : Bytes) : Bytes := slice m 0xA0 (ofLe (slice m 0x90 2))
def manHash (m : Bytes) (i : Nat) : Bytes := slice m (0x200 + 48 * i) 48
/-- Header and hash table. -/
def manLen (m : Bytes) : Nat := 512 + 48 * manBlocks m
/-- The sections in use: type, offset and length. -/
def manSections (m : Bytes) : List (Nat × Nat × Nat) :=
  ((List.range 8).map (fun i => (ofLe (slice m (0x10 + 16 * i) 1), ofLe (slice m (0x14 + 16 * i) 4), ofLe (slice m (0x18 + 16 * i) 4)))).filter
    (fun x => x.1 != 0)

/-- No two of a list of ranges overlap. -/
def disjoint : List (Nat × Nat) → Bool
  | [] => true
  | x :: r => r.all (fun y => x.1 + x.2 ≤ y.1 || y.1 + y.2 ≤ x.1) && disjoint r

/-- The manifest is well formed (R432). (DEDUCED, unsafe: notes/assumptions/137.md) -/
def State.manGood (s : State) (m : Bytes) : Bool :=
  let b := manBlocks m
  let ss := manSections m
  ofLe (slice m 0 4) == 0x4D414E49 && ofLe (slice m 4 1) / 16 == 1 && ofLe (slice m 0x0C 2) == 0x2460 && 1 ≤ b && b ≤ 1022
    && ofLe (slice m 0x0E 1) ≤ s.fuse.stepping
    && (ss.filter (fun x => x.1 == 1)).length == 1 && (ss.filter (fun x => x.1 == 2)).length ≤ 1
    && ss.all (fun x => x.2.1 % 8 == 0 && x.2.1 + x.2.2 ≤ b * 65536) && disjoint (ss.map (fun x => x.2))

/-- The checks of R433 between the manifest and the block reads: the reason of R434, or 0.
(DEDUCED, unsafe: notes/assumptions/137.md; DESIGN CHOICE, unsafe: notes/assumptions/139.md) -/
def State.manFail (s : State) (m : Bytes) : Nat :=
  let k := s.keySlot (manKey m)
  if !s.manGood m then 2
  else if !readsSet k.programmed then 3
  else if readsSet k.revoked then 4
  else if ofLe (sha384 (manPub m)) ≠ k.hash then 5
  else 0

/-- The message of the manifest's signature: the signature's own bytes are taken as zero. -/
def manMessage (m : Bytes) : Bytes := slice m 0 0x120 ++ zeros 0x60 ++ slice m 0x180 (manLen m - 0x180)

/-- The signature and the security version (R433): the reason, or 0. (DESIGN CHOICE, unsafe: notes/assumptions/139.md) -/
def State.sigFail (s : State) (m : Bytes) : Nat :=
  if !ecdsaVerify (manPub m) (manMessage m) (slice m 0x120 0x60) then 6
  else if manSv m < s.counter then 7 else 0

/-! Slots (R431, R433). -/

def State.slot (s : State) (i : Nat) : Slot := if i = 0 then s.boot.slotA else s.boot.slotB
def State.setSlot (s : State) (i : Nat) (x : Slot) : State := if i = 0 then { s with boot.slotA := x } else { s with boot.slotB := x }

/-- A slot's state as `BOOT_SLOT` codes it (R444). -/
def Slot.code (x : Slot) : Nat :=
  if x.state = 0xFFFFFFFF then 0
  else if x.state = 0xFFFFFF00 then (if x.trial = 0xFFFFFFFF then 1 else 2)
  else if x.state = 0xFFFF0000 then 3
  else if x.state = 0xFF000000 then 4 else 5

/-- A word of a slot's header programmed. -/
def State.program (s : State) (i off v : Nat) : State := s.emit (.flash i off v)
/-- `STATE` of a slot programmed (R431). -/
def State.slotState (s : State) (i v : Nat) : State := (s.setSlot i { s.slot i with state := v }).program i 16 v

/-- Slots by descending sequence, slot A first on a tie. -/
def State.bySequence (s : State) (l : List Nat) : List Nat :=
  if l = [0, 1] && (s.slot 0).sequence < (s.slot 1).sequence then [1, 0] else l

/-- The candidate slots in order (R433). (DEDUCED, unsafe: notes/assumptions/138.md) -/
def State.candidates (s : State) : List Nat :=
  let of := fun c => [0, 1].filter (fun i => (s.slot i).code == c)
  let valid := of 3
  s.bySequence ((of 1).filter (fun i => valid.all (fun v => (s.slot v).sequence < (s.slot i).sequence))) ++ s.bySequence valid ++ s.bySequence (of 4)

/-- The SEQUENCE of an image written now: the highest of a slot that is not `EMPTY`, plus 1 (R440). -/
def State.nextSequence (s : State) : Nat :=
  ((([0, 1].filter (fun i => (s.slot i).code != 0)).map (fun i => (s.slot i).sequence + 1)).foldl max 0)

/-! The BOOT block (R444). -/

def State.bootStatus (s : State) : Nat :=
  s.boot.bootedSlot + 2 * b2n s.boot.fromHost + 4 * b2n s.boot.trial + 8 * b2n s.boot.fallback + 16 * b2n s.boot.markedValid + 65536 * s.boot.release
def State.bootSv (s : State) : Nat := s.boot.sv + 65536 * s.counter
def State.bootKeys (s : State) : Nat :=
  ((List.range 4).map (fun k => b2n (readsSet (s.keySlot k).programmed) * 2 ^ k + b2n (readsSet (s.keySlot k).revoked) * 2 ^ (4 + k))).sum
    + 256 * s.boot.signer
def Slot.reg (x : Slot) : Nat := x.sequence + 2 ^ 32 * x.code + 2 ^ 40 * x.lastFail + 2 ^ 48 * x.failBlock
/-- The registers of R444, in the order of their offsets. -/
def State.bootRegs (s : State) : List Nat :=
  [s.bootStatus, s.bootSv, s.bootKeys, s.boot.attempts, s.boot.loadUs, s.boot.slotA.reg, s.boot.slotB.reg]

/-- BOOT_EVENT (R445). -/
def State.bootEvent (s : State) (cause : Nat) : State := s.event [0] 0x0C10 0 [cause, s.bootStatus, s.ledgerNs]

/-- The SUPERSEDED step of R440: the other slot is `VALID` with a lower sequence. (DEDUCED, unsafe: notes/assumptions/138.md) -/
def State.supersede (s : State) : State :=
  let o := 1 - s.boot.bootedSlot
  if (s.slot o).code = 3 && (s.slot o).sequence < (s.slot s.boot.bootedSlot).sequence then (s.slotState o 0xFF000000).bootEvent 3 else s

/-- A trial becomes `VALID` when PF0 becomes `READY` (R440). -/
def State.markTrial (s : State) : State :=
  if !s.boot.trial || s.boot.markedValid then s
  else ({ s.slotState s.boot.bootedSlot 0xFFFF0000 with boot.markedValid := true }.bootEvent 1).supersede

/-! Start of firmware (R29, R393, R433). -/

/-- The overseer cores begin the management firmware. (DEDUCED, unsafe: notes/assumptions/144.md) -/
def State.overseersStart (s : State) : State :=
  [96, 97, 98, 99].foldl (fun s c => s.setCore c { state := .running, startedAt := s.elapsed, threads := [(0, newThread 0 0)] }) s

/-- Firmware starts from verified image bytes at `base` of the boot ROM's buffers, with manifest `m` (R29, R393, R398, R433, R444).
(DEDUCED, unsafe: notes/assumptions/144.md; DESIGN CHOICE, safe: notes/assumptions/169.md) -/
def State.startImage (s : State) (m : Bytes) (base : Nat) : State :=
  let rom := ((manSections m).find? (fun x => x.1 == 2)).map (fun x => mreads s.ram (base + x.2.1) x.2.2)
  let fromRec := s.glb.mode = .recovery
  let bad := s.freeBits 1 = 1
  let s := s.used
  let b := s.boot
  let s1 : State := { s with
    pcie.rom := rom.getD []
    ram := s.ram.filter (fun c => c.1 < 2 ^ 90)
    pcie.linkA := if fromRec then {} else s.pcie.linkA
    pcie.linkB := if fromRec then {} else s.pcie.linkB
    pcie.fns := if fromRec then [] else s.pcie.fns
    boot := { b with
      trying := none, rest := [], bad := none, window := false, recState := 0, recBusy := false, recFinish := none
      release := manRelease m, sv := manSv m, signer := 2 ^ manKey m, attempts := b.cycle, loadUs := nsOf s.now / 1000 }
    led.openDue := some 0, led.retainBad := bad, led.retainValid := !s.led.retention.isEmpty && !bad
    fuse.floorMet := decide (mapField s.fuse.map 0x280 8 35 20 ≤ manRelease m)
    fuse.mapOk := !s.prov || s.mapGood }
  let s2 := s1.overseersStart
  let s3 := { s2 with glb.inTransition := s.prov }.changeMode (if s.prov then .priming else .factory) 0 0
  let s4 := if s3.boot.fallback then s3.bootEvent 2 else s3
  if s4.fuse.mapOk then s4 else s4.lockdown 0x14

/-! The boot cycle (R433). -/

/-- A slot's attempt has ended with a reason. -/
def State.slotFailed (s : State) (i reason block : Nat) : State :=
  { s.setSlot i { s.slot i with lastFail := reason, failBlock := block } with boot.trying := none, boot.anyFailed := true }

/-- The header check and those of the manifest: a manifest that could not be read is reason 9. (DEDUCED, unsafe: notes/assumptions/137.md) -/
def State.slotCheck (s : State) (i : Nat) : Nat :=
  let x := s.slot i
  if x.magic ≠ 0x53454C53 || x.format / 16 ≠ 1 then 1
  else if x.manifest.length < manLen x.manifest then 9
  else s.manFail x.manifest

/-- Recovery is entered, or goes on, with a window of 2^33 ns (R436). -/
def State.toRecovery (s : State) : State :=
  let s1 := if s.glb.mode = .recovery then s
    else { s with glb.mode := .recovery, glb.entryCause := 2, glb.modeEntered := s.now, pcie.linkA := {}, pcie.linkB := {}, pcie.fns := [] }
  { s1 with boot.trying := none, boot.rest := [], boot.window := true, boot.windowEnd := s1.elapsed + grid 33 }

/-- The next candidate whose header and manifest pass begins its attempt; with none left, Recovery. -/
def State.tryNext (s : State) : List Nat → State
  | [] => s.toRecovery
  | i :: rest =>
    match s.slotCheck i with
    | 0 => { s with boot.trying := some i, boot.rest := rest, boot.blocks := 0, boot.sigOk := false, boot.bad := none }
    | r => (s.slotFailed i r 0).tryNext rest

/-- A slot as read from the flash: a header shorter than its fields could not be read (reason 9). (DESIGN CHOICE, unsafe: notes/assumptions/136.md) -/
def Slot.read (x : Slot) (h m : Bytes) : Slot :=
  { x with magic := ofLe (slice h 0 4), format := ofLe (slice h 4 1), state := ofLe (slice h 16 4), sequence := ofLe (slice h 20 4)
           trial := ofLe (slice h 24 4), manifest := m, lastFail := if h.length < 28 then 9 else x.lastFail }

/-- A cycle begins with the headers of the slots: as `flash` gives them - header and manifest of slot A, then of slot B - or as the
model holds them. (DESIGN CHOICE, unsafe: notes/assumptions/136.md) -/
def State.bootCycle (s : State) (flash : List Bytes) : State :=
  let r := fun (x : Slot) (i : Nat) => match flash with
    | [] => x
    | _ => x.read (flash.getD i []) (flash.getD (i + 1) [])
  let s1 : State := { s with boot.slotA := r s.boot.slotA 0, boot.slotB := r s.boot.slotB 2, boot.anyFailed := false }
  s1.tryNext s1.candidates

/-- The slot being tried has failed: on to the next. -/
def State.attemptFails (s : State) (i reason block : Nat) : State := (s.slotFailed i reason block).tryNext s.boot.rest

/-- The attempt goes on once the signature has verified: a block that failed ends it, and with every block hashed the slot starts.
(DEDUCED, unsafe: notes/assumptions/137.md) -/
def State.attemptCheck (s : State) (i : Nat) : State :=
  let x := s.slot i
  if !s.boot.sigOk then s
  else match s.boot.bad with
    | some (r, b) => s.attemptFails i r b
    | none =>
      if s.boot.blocks < manBlocks x.manifest then s
      else
        let pending := x.code = 1
        let s1 := if pending then (s.setSlot i { x with trial := 0 }).program i 24 0 else s
        let s2 : State := { s1 with boot.bootedSlot := i, boot.fromHost := false, boot.trial := pending, boot.fallback := s.boot.anyFailed }
        let s3 := s2.startImage x.manifest (bufAt 0)
        if x.code = 3 then s3.supersede else s3

/-! Transfers (R436-R438). -/

/-- A transfer has failed. -/
def State.recFails (s : State) (reason : Nat) : State :=
  { s with boot.recState := 5, boot.recFail := reason, boot.recBusy := false, boot.recFinish := none }

/-- The manifest of a transfer. -/
def State.recManifest (s : State) : Bytes :=
  let h := mreads s.ram (recAt 0) 512
  mreads s.ram (recAt 0) (min 65536 (manLen h))

/-- Blocks hashed as they complete, up to `n` of them. -/
def State.recHash (s : State) : Nat → State
  | 0 => s
  | n + 1 =>
    let i := s.boot.recBlocks
    if s.boot.recBad.isSome || s.boot.recAccepted < 65536 * (i + 2) || !s.boot.recManOk || i ≥ manBlocks s.recManifest then s
    else if sha384 (mreads s.ram (recAt (65536 * (i + 1))) 65536) = manHash s.recManifest i then { s with boot.recBlocks := i + 1 }.recHash n
    else { s with boot.recBad := some (8, i) }

/-- The slot a persistent transfer writes: the one not first in candidate order. (DEDUCED, unsafe: notes/assumptions/142.md) -/
def State.recSlot (s : State) : Nat := if s.candidates.head? = some 1 then 0 else 1

/-- A verified transfer whose FINISH has come acts on PERSIST (R437): it starts, or its flash write begins.
(DEDUCED, unsafe: notes/assumptions/142.md) -/
def State.recActs (s : State) (persist : Bool) : State :=
  let m := s.recManifest
  if !persist then
    { s with boot.recState := 4, boot.fromHost := true, boot.trial := false, boot.fallback := false, boot.bootedSlot := 0 }.startImage m (recAt 65536)
  else
    let t := s.recSlot
    let s1 := s.slotState t 0
    { (s1.setSlot t {}).program t 16 0xFFFFFFFF with boot.recState := 3, boot.recBusy := true, boot.recTarget := t }

/-- What a transfer has come to: its checks in the order of R433, and its FINISH. (DESIGN CHOICE, unsafe: notes/assumptions/140.md) -/
def State.recCheck (s : State) : State :=
  let m := s.recManifest
  let s1 := if s.boot.recManOk || s.boot.recAccepted < min 65536 (manLen m) || s.boot.recAccepted < 512 then s
    else match s.manFail m with
      | 0 => if (manBlocks m + 1) * 65536 = s.boot.recTotal then { s with boot.recManOk := true } else s.recFails 12
      | r => s.recFails r
  if s1.boot.recState ≠ 1 && s1.boot.recState ≠ 2 then s1
  else
    let s2 := s1.recHash 1022
    if !s2.boot.recSigOk then s2
    else match s2.boot.recBad with
      | some (r, _) => s2.recFails r
      | none => match s2.boot.recFinish with
        | some p => if s2.boot.recBlocks = manBlocks m then s2.recActs p else s2
        | none => s2

end Sys2Proof.Machine
end

