-- ==== Sys2Proof/Machine/Cores.lean ====
section
/-! DEFINITION. The rows of the pump cores (R210-R236): instructions of a thread, what returns to it, and the commands of group 0x07
that load, start, stop and restart a core. -/
namespace Sys2Proof.Machine

/-- A register of a thread. -/
def State.reg (s : State) (c t r : Nat) : Nat := (s.thr c t).reg r
/-- A register of a thread set. -/
def State.put (s : State) (c t r v : Nat) : State := s.setThr c t ((s.thr c t).setReg r v)
/-- A register plus an offset. -/
def plusOff (a : Nat) (off : Int) : Nat := twos 64 ((a : Int) + off)

/-- The registers a general instruction reads, and its destination. -/
def gReads : GInstr → List Nat
  | .alu _ _ a b => [a, b]
  | .load _ _ a _ => [a]
  | .store _ a b _ => [a, b]
  | .branch a b _ _ => [a, b]
  | .jump _ a => [a]
  | .cas _ a b d => [a, b, d]
  | .fadd _ a b => [a, b]
  | .illegal => []
def gDest : GInstr → Nat
  | .alu _ d _ _ => d
  | .load _ d _ _ => d
  | .store _ _ _ _ => 0
  | .branch _ _ _ _ => 0
  | .jump d _ => d
  | .cas d _ _ _ => d
  | .fadd d _ _ => d
  | .illegal => 0

/-- What the arbiter needs to know of a general instruction (R213): a jump is a branch that is taken. -/
def gForm (g : GInstr) : Form :=
  { src := gReads g, dst := gDest g
    mem := match g with
      | .load _ _ _ _ => true
      | .store _ _ _ _ => true
      | .cas _ _ _ _ => true
      | .fadd _ _ _ => true
      | _ => false
    taken := match g with
      | .branch _ _ k _ => k
      | .jump _ _ => true
      | _ => false }

/-- What a general instruction does (R216-R219, R223, R230). (DESIGN CHOICE, unsafe: notes/assumptions/69.md) -/
def State.general (s : State) (c t word : Nat) (g : GInstr) (pc : Nat) : State := match g with
  | .alu op d a b => s.put c t d (Config.alu op (s.reg c t a) (s.reg c t b)).toNat
  | .load n d a off => s.loadAt c t pc n d (plusOff (s.reg c t a) off)
  | .store n a b off => s.storeAt c t pc n (plusOff (s.reg c t a) off) (s.reg c t b)
  | .branch _ _ taken off => if taken then s.jumpTo c t pc (plusOff pc off) else s
  | .jump d a =>
    let target := s.reg c t a
    if target % 4 ≠ 0 then s.coreFault c t pc 3 target else (s.put c t d (pc + 4)).jumpTo c t pc target
  | .cas d a b n =>
    let want := s.reg c t b
    let new := s.reg c t n
    s.atomicAt c t pc d (s.reg c t a) (fun old => if old = want then some new else none)
  | .fadd d a b =>
    let v := s.reg c t b
    s.atomicAt c t pc d (s.reg c t a) (fun old => some ((old + v) % 2 ^ 64))
  | .illegal => s.coreFault c t pc 1 word

/-- GENERAL_INSTRUCTION (R216-R219, R223): of major opcode 0x5B, a listed word is a row of its own, and any other is illegal.
(DESIGN CHOICE, unsafe: notes/assumptions/69.md) -/
def execGeneralInstruction (dt core thr word : Nat) (g : GInstr) (s : State) : Out := s.run dt fun s =>
  if bits word 6 0 ≠ 0x5B then s.issueInstr core thr word (gForm g) false fun s pc => s.general core thr word g pc
  else if listedWord word then s
  else s.instr core thr word [] 0 false fun s pc => s.coreFault core thr pc 1 word

/-- A thread that awaited a load goes on once none is out to the registers its instruction names (R212). -/
def Thread.awaited (x : Thread) : Thread := match x.blocked with
  | some (.await r) => if x.loads.any (fun l => r.contains l.1) then x else x.resume
  | _ => x

/-- CISTERN_LOAD_RETURN (R218): the oldest load out returns; a ninth that waited is issued. -/
def execCisternLoadReturn (dt core thr : Nat) (s : State) : Out := s.run dt fun s =>
  let x := s.thr core thr
  match x.loads with
  | [] => s
  | (rd, a, v, p) :: rest =>
    let x1 := { x with loads := rest }.setReg rd v
    let x2 := if p && rd ≠ 0 then { x1 with bad := tset x1.bad rd a } else x1
    match x.blocked with
    | some (.load n d b) =>
      if x.state = .stalled then ((s.setThr core thr { x2 with state := .ready, blocked := none }).cisternLoad core thr n d b).stepTick core thr
      else s.setThr core thr x2
    | _ => s.setThr core thr x2.awaited

/-! Time and waiting (R224-R226). -/

/-- TNOW (R224): the core's replica lies within 1 ns of the central counter, where is free. (DEDUCED, safe: notes/assumptions/72.md) -/
def execTnow (dt core thr word : Nat) (s : State) : Out := s.run dt fun s =>
  s.instrD core thr word 0 0 [] (wRd word) false fun s _ =>
    let v := twos 80 ((s.now : Int) + (s.freeBits 64 % 131073 : Nat) - 65536)
    let s1 := s.used
    s1.setThr core thr ({ s1.thr core thr with latched := fracOf v + 65536 * s1.quality }.setReg (wRd word) (nsOf v))

/-- TNOWQ (R223). -/
def execTnowq (dt core thr word : Nat) (s : State) : Out := s.run dt fun s =>
  s.instrD core thr word 0 1 [] (wRd word) false fun s _ => s.put core thr (wRd word) (s.thr core thr).latched

/-- A valid deadline that device time has reached fires once (R226). -/
def State.fireDeadline (s : State) (c t : Nat) : State :=
  let x := s.thr c t
  if x.dlValid && x.deadline ≤ nsOf s.now then (s.setThr c t { x with dlValid := false }).wake c t 0 else s

/-- DLSET (R226). -/
def execDlset (dt core thr word : Nat) (s : State) : Out := s.run dt fun s =>
  s.instrD core thr word 0 2 [wRs1 word] 0 false fun s _ =>
    (s.setThr core thr { s.thr core thr with deadline := s.reg core thr (wRs1 word), dlValid := true }).fireDeadline core thr

/-- DLCLR (R223). -/
def execDlclr (dt core thr word : Nat) (s : State) : Out := s.run dt fun s =>
  s.instrD core thr word 0 3 [] 0 false fun s _ => s.setThr core thr { s.thr core thr with dlValid := false }

/-- WFE (R225). -/
def execWfe (dt core thr word : Nat) (s : State) : Out := s.run dt fun s =>
  s.instrD core thr word 0 4 [wRs1 word] (wRd word) false fun s pc =>
    let m := s.reg core thr (wRs1 word)
    let x := s.thr core thr
    let got := x.pend &&& m
    if m ≥ 64 then s.coreFault core thr pc 1 word
    else if got ≠ 0 then s.setThr core thr ({ x with pend := x.pend - got }.setReg (wRd word) got)
    else (s.setThr core thr { x with state := .waiting, blocked := some (.wfe m (wRd word)) }).coreCount1 core 3

/-- SIG (R223, R236). -/
def execSig (dt core thr word : Nat) (s : State) : Out := s.run dt fun s =>
  s.instrD core thr word 0 5 [wRs1 word] 0 false fun s _ => s.wake core (s.reg core thr (wRs1 word) % 8) 5

/-- DEADLINE_FIRE (R226). -/
def execDeadlineFire (dt core thr : Nat) (s : State) : Out := s.run dt fun s =>
  if (s.core core).state = .running && (s.thr core thr).live then s.fireDeadline core thr else s

/-! Control registers (R221, R222). -/

/-- Whether U may read a control register, or write it. -/
def crUser (n : Nat) (write : Bool) : Bool := if write then n == 6 else [0, 1, 6, 7, 8, 13, 14].contains n

/-- Whether a thread is its core's urgent thread. -/
def State.isUrgent (s : State) (c t : Nat) : Bool := (s.core c).urgent == 1 + 2 * t

/-- A control register's value. (DEDUCED, unsafe: notes/assumptions/70.md) -/
def State.crValue (s : State) (c t n : Nat) : Nat :=
  let x := s.thr c t
  match n with
  | 0 => t + 256 * c + 65536 * s.cdom c
  | 1 => b2n x.priv + 2 * b2n x.pp + 4 * b2n x.tactive + 8 * b2n (s.isUrgent c t)
  | 2 => x.tvec
  | 3 => x.tpc
  | 4 => x.tcause
  | 5 => x.tval
  | 6 => x.deadline
  | 7 => x.pend
  | 8 => (s.core c).urgent
  | 9 => x.ucodeBase
  | 10 => x.ucodeLimit
  | 11 => x.udataBase
  | 12 => x.udataLimit
  | 13 => (s.core c).cycle s.elapsed % 2 ^ 64
  | 14 => x.retired % 2 ^ 64
  | _ => x.scratch

/-- A control register written; read-only ones and reserved bits stay. (DEDUCED, unsafe: notes/assumptions/71.md) -/
def State.crWrite (s : State) (c t n v : Nat) : State :=
  let x := s.thr c t
  match n with
  | 1 => s.setThr c t { x with priv := bit v 0, pp := bit v 1 }
  | 2 => s.setThr c t { x with tvec := v / 4 * 4 }
  | 3 => s.setThr c t { x with tpc := v }
  | 6 => s.setThr c t { x with deadline := v }
  | 8 => s.setCore c { s.core c with urgent := v % 16 }
  | 9 => s.setThr c t { x with ucodeBase := v }
  | 10 => s.setThr c t { x with ucodeLimit := v }
  | 11 => s.setThr c t { x with udataBase := v }
  | 12 => s.setThr c t { x with udataLimit := v }
  | 15 => s.setThr c t { x with scratch := v }
  | _ => s

/-- CRR (R221). -/
def execCrr (dt core thr word : Nat) (s : State) : Out := s.run dt fun s =>
  s.instrC core thr word 1 [] (wRd word) false fun s pc =>
    if wImm word > 15 then s.coreFault core thr pc 1 word
    else if !(s.thr core thr).priv && !crUser (wImm word) false then s.trapTo core thr 2 word pc pc
    else s.put core thr (wRd word) (s.crValue core thr (wImm word))

/-- CRW (R221). -/
def execCrw (dt core thr word : Nat) (s : State) : Out := s.run dt fun s =>
  s.instrC core thr word 2 [wRs1 word] 0 false fun s pc =>
    if wImm word > 15 then s.coreFault core thr pc 1 word
    else if !(s.thr core thr).priv && !crUser (wImm word) true then s.trapTo core thr 2 word pc pc
    else s.crWrite core thr (wImm word) (s.reg core thr (wRs1 word))

/-! Threads and traps (R220, R223, R228). -/

/-- TSPAWN (R220, R223). (DEDUCED, unsafe: notes/assumptions/71.md) -/
def execTspawn (dt core thr word : Nat) (s : State) : Out := s.run dt fun s =>
  s.instrD core thr word 3 0 [wRs1 word, wRs2 word] (wRd word) true fun s pc =>
    let arg := s.reg core thr (wRs1 word)
    let entry := s.reg core thr (wRs2 word)
    if (s.thr core (arg % 8)).live then s.put core thr (wRd word) 1
    else if entry % 4 ≠ 0 then s.coreFault core thr pc 5 word
    else (s.setThr core (arg % 8) (newThread entry arg)).put core thr (wRd word) 0

/-- TEXIT (R223). -/
def execTexit (dt core thr word : Nat) (s : State) : Out := s.run dt fun s =>
  s.instrD core thr word 3 1 [] 0 false fun s _ => s.endThread core thr

/-- TRET (R228). (DEDUCED, unsafe: notes/assumptions/71.md) -/
def execTret (dt core thr word : Nat) (s : State) : Out := s.run dt fun s =>
  s.instrD core thr word 3 2 [] 0 true fun s pc =>
    let x := s.thr core thr
    if x.tpc % 4 ≠ 0 then s.coreFault core thr pc 3 x.tpc
    else s.setThr core thr { x with priv := x.pp, tactive := false, pc := x.tpc }

/-- TRAP (R228, R229). -/
def execTrap (dt core thr word : Nat) (s : State) : Out := s.run dt fun s =>
  s.instrC core thr word 7 [] 0 false fun s pc => s.trapTo core thr 1 (wImm word) pc (pc + 4)

/-- FENCE_D (R227). -/
def execFenceD (dt core thr word : Nat) (s : State) : Out := s.run dt fun s =>
  s.instrD core thr word 3 3 [] 0 false fun s _ =>
    let x := s.thr core thr
    if x.stores = 0 then s else s.setThr core thr { x with state := .stalled, blocked := some .fence }

/-- The ring an `rpost` names (R257), or none. (DEDUCED, unsafe: notes/assumptions/74.md) -/
def postRing (v : Nat) : Option Nat :=
  let pf := bits v 12 10
  let vf := bits v 24 14
  if v ≥ 2 ^ 25 || (!bit v 13 && vf ≠ 0) then none else some (rkey (pf * 4096 + (if bit v 13 then vf + 1 else 0)) (bits v 9 0))

/-- RPOST (R223, R257). (DEDUCED, unsafe: notes/assumptions/74.md) -/
def execRpost (dt core thr word : Nat) (s : State) : Out := s.run dt fun s =>
  s.instrD core thr word 5 0 [wRs1 word, wRs2 word] (wRd word) false fun s pc =>
    let a := s.reg core thr (wRs2 word)
    match postRing (s.reg core thr (wRs1 word)) with
    | none => s.coreFault core thr pc 5 word
    | some k =>
      let f := fnOfKey k
      let r := s.ring k
      let reset := (s.fn f).inReset
      if !s.fnExists f || s.fnDom f ≠ s.cdom core || (!reset && (!r.enable || r.kind ≠ 1)) || a % 32 ≠ 0 || a + 32 > 2 ^ 18 then
        s.coreFault core thr pc 5 word
      else if s.glb.mode = .lockdown || (s.glb.mode = .drain && r.newWork (s.isSend k)) then (s.ringCount f 1).put core thr (wRd word) 2
      else if s.postRefused k then s.put core thr (wRd word) 1
      else match s.consume (s.cdom core) (localAt core a) 32 with
        | (s1, none) => s1.coreFault core thr pc 4 a
        | (s1, some b) => s1.emitPost core thr (wRd word) k b

/-! What happens to a core (R232, R233). -/

/-- DRY_WELL_FAULT (R232). -/
def execDryWellFault (dt core : Nat) (s : State) : Out := s.run dt fun s =>
  if !s.dryWell core then s
  else
    let live := ((s.core core).threads.filter (fun y => y.2.live)).map (·.1)
    let t := live.headD 0
    (s.coreCount1 core 6).coreFault core t (s.thr core t).pc 6 ((live.map (fun i => 2 ^ i)).sum)

/-- OVERSEER_RESTART (R233). (DESIGN CHOICE, unsafe: notes/assumptions/75.md) -/
def execOverseerRestart (dt core : Nat) (s : State) : Out := s.run dt fun s =>
  if core < 96 || (s.core core).state ≠ .stopped || ! [96, 97, 98, 99].any (fun o => (s.core o).state == .running) then s
  else
    let x := s.core core
    ((s.setCore core { x with state := .running, threads := [(0, newThread 0 0)], urgent := 0, startedAt := s.elapsed, rr := 7, slot := 0, issue := none }).coreCount1 core 7).coreEvent core 4

/-! Registers (R234). -/

/-- CORE_STATE (R234). -/
def State.coreState (s : State) (c : Nat) : Nat := if (s.coreDom c).isNone then 0 else match (s.core c).state with
  | .empty => 1
  | .loaded => 2
  | .running => 3
  | .stopped => 4
/-- PMP_CORE_STATE, PMP_THREADS and PMP_SUMMARY. -/
def State.pmpCoreState (s : State) (c : Nat) : Nat :=
  let x := s.core c
  s.coreState c + 16 * s.cdom c + 256 * x.faultClass + 4096 * x.faultTid + 65536 * (x.urgent % 16)
def State.pmpThreads (s : State) (c : Nat) : Nat :=
  ((s.core c).threads.map (fun y => (y.2.state.code + 8 * b2n y.2.priv) * 2 ^ (4 * y.1))).sum
def State.pmpSummary (s : State) : Nat :=
  let n := fun st => ((List.range 96).filter (fun c => (s.coreDom c).isSome && (s.core c).state == st)).length
  n .running + 256 * n .stopped + ((List.range 4).map (fun o => if (s.core (96 + o)).state = .running then 2 ^ (16 + o) else 0)).sum

/-- A core's window (R234). -/
def State.coreWindow (s : State) (c : Nat) : List Nat :=
  let x := s.core c
  [s.pmpCoreState c, s.pmpThreads c, x.faultPc, x.faultVal, nsOf x.faultTime] ++ x.counters

/-! Commands of group 0x07 (R235). -/

/-- Whose command a core's is: its domain's, and no one's for an overseer. (DESIGN CHOICE, unsafe: notes/assumptions/75.md) -/
def State.corePerm (s : State) (c : Nat) : Perm :=
  if 96 ≤ c && c < 100 then .nobody
  else if c ≥ s.coreCount then .any
  else match s.coreDom c with
    | some d => .owner d
    | none => .any
/-- A core that a fault may still be stopping (R231, R236). (DESIGN CHOICE, safe: notes/assumptions/179.md) -/
def State.faultStopping (s : State) (c : Nat) : Bool :=
  let x := s.core c
  x.state == .stopped && 0 < x.faultClass && x.faultClass < 0xE && s.elapsed ≤ x.stoppedAt + ns 2000
/-- A core that is `UNASSIGNED` or absent. -/
def State.coreAbsent (s : State) (c : Nat) : Bool := c ≥ s.coreCount || (s.coreDom c).isNone

/-- CORE_LOAD (R211, R235). -/
def execCoreLoad (dt : Nat) (path : Path) (core addr len off : Nat) (data : Bytes) (s : State) : Out := s.run dt fun s =>
  s.tosenRun path 0x0701 4 (core ≥ 100) (s.corePerm core) fun s _ =>
    if badAddr path addr then s.deny 0x03000F02
    else if off + len > 2 ^ 18 || off % 8 ≠ 0 then s.deny 0x03000090
    else if s.coreAbsent core then s.deny 0x02000092
    else if (s.core core).state = .running then s.deny 0x02000090
    else
      let s1 := s.store (localAt core off) (s.cmdRead path addr len data)
      let x := s1.core core
      (s1.setCore core { x with state := if x.state = .stopped then .stopped else .loaded, cleared := false }).ok []

/-- CORE_START (R211, R220, R235). -/
def execCoreStart (dt : Nat) (path : Path) (core mask addr : Nat) (data : Bytes) (s : State) : Out := s.run dt fun s =>
  s.tosenRun path 0x0702 3 (core ≥ 100 || mask ≥ 256) (s.corePerm core) fun s _ =>
    let b := s.cmdRead path addr 128 data
    let named := (List.range 8).filter (fun t => mask.testBit t)
    let entry := fun t => ofLe (slice b (16 * t) 8)
    if badAddr path addr then s.deny 0x03000F02
    else if mask = 0 || named.any (fun t => entry t % 4 ≠ 0) then s.deny 0x03000091
    else if s.coreAbsent core then s.deny 0x02000092
    else if (s.core core).state ≠ .loaded then s.deny 0x02000091
    else
      let s1 := s.setCore core { s.core core with state := .running, startedAt := s.elapsed, rr := 7, slot := 0, issue := none }
      (named.foldl (fun s t => s.setThr core t (newThread (entry t) (ofLe (slice b (16 * t + 8) 8)))) s1).ok []

/-- CORE_STOP (R231, R235); how long a fault takes to stop a core, within the 2 µs of its event, is open (R236).
(DESIGN CHOICE, safe: notes/assumptions/179.md) -/
def execCoreStop (dt : Nat) (path : Path) (core : Nat) (s : State) : Out := s.run dt fun s =>
  s.tosenRun path 0x0703 1 (core ≥ 100) (s.corePerm core) fun s _ =>
    if s.coreAbsent core then s.deny 0x02000092
    else if s.faultStopping core && s.freeBits 1 = 1 then s.used.ok []
    else if s.faultStopping core then s.used.deny 0x02000093
    else if (s.core core).state ≠ .running then s.deny 0x02000093
    else (s.stopCore core 0xE 0 0 0 2).ok []

/-- CORE_RESTART (R211, R235). -/
def execCoreRestart (dt : Nat) (path : Path) (core clear : Nat) (s : State) : Out := s.run dt fun s =>
  s.tosenRun path 0x0704 2 (core ≥ 100 || clear ≥ 2) (s.corePerm core) fun s _ =>
    if s.coreAbsent core then s.deny 0x02000092
    else if (s.core core).state ≠ .stopped then s.deny 0x02000094
    else
      let x := s.core core
      let s0 := if clear = 1 then s.zero (localAt core 0) (2 ^ 18) else s
      let s1 := s0.setCore core { x with state := if clear = 1 then .empty else .loaded, cleared := clear == 1, threads := [], urgent := 0, startedAt := 0, stoppedAt := 0 }
      let s2 := { s1 with dbg.halted := s1.dbg.halted.filter (fun e => e.1 / 8 != core) }
      ((s2.coreCount1 core 7).coreEvent core 4).ok []

/-- CORE_URGENT (R215, R235). -/
def execCoreUrgent (dt : Nat) (path : Path) (core thr : Nat) (s : State) : Out := s.run dt fun s =>
  s.tosenRun path 0x0705 2 (core ≥ 100 || (thr ≥ 8 && thr ≠ 0xFF)) (s.corePerm core) fun s _ =>
    if s.coreAbsent core then s.deny 0x02000092
    else (s.setCore core { s.core core with urgent := if thr = 0xFF then 0 else 1 + 2 * thr }).ok []

/-- CORE_STATUS (R234, R235). -/
def execCoreStatus (dt : Nat) (path : Path) (core : Nat) (s : State) : Out := s.run dt fun s =>
  s.tosenRun path 0x0706 1 (core ≥ 100) (s.corePerm core) fun s d =>
    if s.coreAbsent core then s.deny 0x02000092
    else
      let w := s.coreWindow core
      s.ok (if d = 0 then w ++ [s.pmpSummary] else w)

end Sys2Proof.Machine
end

