-- ==== Sys2Proof/Machine/Channels.lean ====
section
/-! DEFINITION. The rows of channels and event subscriptions (R237-R251). -/
namespace Sys2Proof.Machine

/-- The channel an instruction names, one destroyed being broken (R245), if its thread is the end the instruction needs (R239).
(DEDUCED, unsafe: notes/assumptions/76.md) -/
def State.chanFor (s : State) (c t n : Nat) (send : Bool) : Option Channel := match (s.chan? n).or (tget? s.cores.gone n) with
  | some h => if h.dom = s.cdom c && (if send then h.senders.contains (c, t) else h.recv == (c, t)) then some h else none
  | none => none

/-- A thread registered by a try form (R242). -/
def State.tryOn (s : State) (c t n : Nat) (send : Bool) (h : Channel) : State :=
  if h.tries.contains (c, t, send) then s else s.setChan n { h with tries := h.tries ++ [(c, t, send)] }

/-- `cbegin` and its try form. -/
def State.begin_ (s : State) (c t word pc : Nat) (try_ : Bool) : State :=
  let n := s.reg c t (wRs1 word)
  match s.chanFor c t n true with
  | none => s.coreFault c t pc 5 word
  | some h =>
    if (s.thr c t).slot.isSome then s.coreFault c t pc 5 word
    else if h.broken then s.put c t (wRd word) (statusVal 4)
    else if h.holder.isNone && s.chanUsed n h < h.cap then (s.takeSlot n c t h).put c t (wRd word) 0
    else if try_ then (s.tryOn c t n true h).put c t (wRd word) (statusVal 1)
    else s.setThr c t { s.thr c t with state := .waiting, blocked := some (.cbegin n (wRd word)) }

/-- CBEGIN (R239, R240). -/
def execCbegin (dt core thr word : Nat) (s : State) : Out := s.run dt fun s =>
  s.instrD core thr word 4 0 [wRs1 word] (wRd word) false fun s pc => s.begin_ core thr word pc false
/-- CBEGIN_T (R239, R242). -/
def execCbeginT (dt core thr word : Nat) (s : State) : Out := s.run dt fun s =>
  s.instrD core thr word 4 1 [wRs1 word] (wRd word) false fun s pc => s.begin_ core thr word pc true

/-- CPUT (R239, R244). -/
def execCput (dt core thr word : Nat) (s : State) : Out := s.run dt fun s =>
  s.instrD core thr word 4 2 [wRs1 word, wRs2 word] 0 false fun s pc =>
    let n := s.reg core thr (wRs1 word)
    match s.chanFor core thr n true with
    | none => s.coreFault core thr pc 5 word
    | some h =>
      if h.broken || (s.thr core thr).abandoned.contains n then s
      else if (s.thr core thr).slot ≠ some n || h.staged.length ≥ 8 then s.coreFault core thr pc 5 word
      else s.setChan n { h with staged := h.staged ++ [s.reg core thr (wRs2 word)] }

/-- What `ccommit` does once its waits are over (R239, R240, R244). -/
def State.commit (s : State) (c t word pc rd n : Nat) : State :=
  match s.chanFor c t n true with
  | none => s.coreFault c t pc 5 word
  | some h =>
    let x := s.thr c t
    if h.broken then s.put c t rd (statusVal 4)
    else if x.abandoned.contains n then (s.setThr c t { x with abandoned := x.abandoned.filter (fun a => a != n) }).put c t rd (statusVal 3)
    else if x.slot ≠ some n || h.staged.isEmpty then s.coreFault c t pc 5 word
    else s.emitCommit c t rd n

/-- CCOMMIT (R240). -/
def execCcommit (dt core thr word : Nat) (s : State) : Out := s.run dt fun s =>
  s.instrD core thr word 4 3 [wRs1 word] (wRd word) false fun s pc => s.commit core thr word pc (wRd word) (s.reg core thr (wRs1 word))
/-- CCOMMIT_R (R240): after every earlier cistern store of the thread. -/
def execCcommitR (dt core thr word : Nat) (s : State) : Out := s.run dt fun s =>
  s.instrD core thr word 4 4 [wRs1 word] (wRd word) false fun s pc =>
    let n := s.reg core thr (wRs1 word)
    let x := s.thr core thr
    if x.stores = 0 || x.slot ≠ some n || (s.chan? n).all (fun h => h.staged.isEmpty) then s.commit core thr word pc (wRd word) n
    else s.setThr core thr { x with state := .stalled, blocked := some (.commit n (wRd word)) }

/-- CABORT (R239). (DEDUCED, unsafe: notes/assumptions/77.md) -/
def execCabort (dt core thr word : Nat) (s : State) : Out := s.run dt fun s =>
  s.instrD core thr word 4 5 [wRs1 word] 0 false fun s pc =>
    let n := s.reg core thr (wRs1 word)
    match s.chanFor core thr n true with
    | none => s.coreFault core thr pc 5 word
    | some h =>
      if (s.thr core thr).slot ≠ some n then s
      else ((s.setThr core thr { s.thr core thr with slot := none }).setChan n { h with holder := none, staged := [] }).sendChange n

/-- `crecv` and its try form. -/
def State.recv (s : State) (c t word pc : Nat) (try_ : Bool) : State :=
  let n := s.reg c t (wRs1 word)
  match s.chanFor c t n false with
  | none => s.coreFault c t pc 5 word
  | some h =>
    if h.broken then s.put c t (wRd word) (statusVal 4)
    else match s.takeMsg n with
      | some (s1, a) => s1.put c t (wRd word) a
      | none =>
        if try_ then (s.tryOn c t n false h).put c t (wRd word) (statusVal 1)
        else s.setThr c t { s.thr c t with state := .waiting, blocked := some (.crecv n (wRd word)) }

/-- CRECV (R241). -/
def execCrecv (dt core thr word : Nat) (s : State) : Out := s.run dt fun s =>
  s.instrD core thr word 4 8 [wRs1 word] (wRd word) false fun s pc => s.recv core thr word pc false
/-- CRECV_T (R241, R242). -/
def execCrecvT (dt core thr word : Nat) (s : State) : Out := s.run dt fun s =>
  s.instrD core thr word 4 9 [wRs1 word] (wRd word) false fun s pc => s.recv core thr word pc true

/-- CFREE (R239). -/
def execCfree (dt core thr word : Nat) (s : State) : Out := s.run dt fun s =>
  s.instrD core thr word 4 0xA [wRs1 word] 0 false fun s pc =>
    let n := s.reg core thr (wRs1 word)
    match s.chanFor core thr n false with
    | none => s.coreFault core thr pc 5 word
    | some h =>
      if h.broken then s
      else match h.taken with
        | [] => s.coreFault core thr pc 5 word
        | _ :: rest => (s.setChan n { h with taken := rest }).sendChange n

/-! Subscriptions (R246, R247, R301). -/

/-- Flows that wait for a placement, tried again (R302). -/
def State.placeWaiting (s : State) (d : Nat) : State :=
  s.flowsAfter (fun s k =>
    let f := s.flow k
    if flowDom k = d && f.place.isNone && !f.items.isEmpty then s.placeFlow k false (fun _ => false) else s)

/-- ESUB (R246, R301). (DEDUCED, unsafe: notes/assumptions/78.md) -/
def execEsub (dt core thr word : Nat) (s : State) : Out := s.run dt fun s =>
  s.instrD core thr word 4 0x10 [wRs1 word, wRs2 word] (wRd word) false fun s pc =>
    let v := s.reg core thr (wRs1 word)
    let a := s.reg core thr (wRs2 word)
    let x := s.thr core thr
    let kind := v % 256
    let all := ((s.core core).threads.map (fun y => y.2.subs.length)).sum
    if (kind ≠ 1 && kind ≠ 2) || (kind = 1 && bits v 15 8 = 0) || a % 32 ≠ 0 || a + 512 > 2 ^ 18 then s.coreFault core thr pc 5 word
    else if x.subs.length ≥ 4 || all ≥ 16 then s.put core thr (wRd word) (statusVal 1)
    else
      let h := ((List.range 4).find? (fun i => (tget? x.subs i).isNone)).getD 0
      let u : Sub := { kind := kind, mask := bits v 15 8, opcode := bits v 31 16, subject := bits v 47 32, region := a }
      let s1 := (s.setThr core thr { x with subs := tset x.subs h u }).put core thr (wRd word) h
      if kind = 1 then s1.placeWaiting (s.cdom core) else s1

/-- EUNSUB (R246, R303). (DEDUCED, unsafe: notes/assumptions/78.md) -/
def execEunsub (dt core thr word : Nat) (s : State) : Out := s.run dt fun s =>
  s.instrD core thr word 4 0x11 [wRs1 word] 0 false fun s pc =>
    let h := s.reg core thr (wRs1 word)
    let x := s.thr core thr
    match tget? x.subs h with
    | none => s.coreFault core thr pc 5 word
    | some u =>
      let s1 := s.setThr core thr { x with subs := tdel x.subs h }
      if u.kind ≠ 1 then s1
      else
        let s2 := s1.flowsAfter (fun s k =>
          let f := s.flow k
          let lost := fun (i : Item) => !i.taken && match i.at_ with
            | some (c, t, g, _) => c == core && t == thr && g == h
            | none => false
          s.setFlow k
            { f with
              out := f.out.filter (fun i => !lost i)
              items := (f.out.filter lost).map (fun i => { i with at_ := none }) ++ f.items })
        (s2.flowsAfter (fun s k => s.flowUncovered k core thr)).retryHeld

/-- EGET (R246, R291). (DEDUCED, unsafe: notes/assumptions/78.md) -/
def execEget (dt core thr word : Nat) (s : State) : Out := s.run dt fun s =>
  s.instrD core thr word 4 0x12 [wRs1 word] (wRd word) false fun s pc =>
    let h := s.reg core thr (wRs1 word)
    let x := s.thr core thr
    match tget? x.subs h with
    | none => s.coreFault core thr pc 5 word
    | some u =>
      if u.kind = 1 then s.coreFault core thr pc 5 word
      else match u.unread with
        | [] => s.put core thr (wRd word) (statusVal 1)
        | k :: rest =>
          (s.setThr core thr { x with subs := tset x.subs h { u with unread := rest, read := u.read ++ [k] } }).put core thr (wRd word)
            (u.region + 32 * k)

/-- EDONE (R246, R291). (DEDUCED, unsafe: notes/assumptions/78.md) -/
def execEdone (dt core thr word : Nat) (s : State) : Out := s.run dt fun s =>
  s.instrD core thr word 4 0x13 [wRs1 word] 0 false fun s pc =>
    let h := s.reg core thr (wRs1 word)
    let x := s.thr core thr
    match tget? x.subs h with
    | none => s.coreFault core thr pc 5 word
    | some u =>
      if u.kind = 1 then s.coreFault core thr pc 5 word
      else s.setThr core thr { x with subs := tset x.subs h { u with read := u.read.drop 1 } }

/-! Commands (R250) and time-outs (R243, R248). -/

/-- A domain's channel range (R237): base and count. -/
def State.chanRange (s : State) (d : Nat) : Nat × Nat := (tget? s.cores.ranges d).getD (s.defRange 4096 d)
/-- The domain whose range holds a channel. -/
def State.chanOwner (s : State) (n : Nat) : Option Nat := s.doms.find? (fun d => inRange (s.chanRange d) n)
/-- Whose command a channel's is. -/
def State.chanPerm (s : State) (n : Nat) : Perm := match s.chanOwner n with
  | some d => .owner d
  | none => .any

/-- CHAN_CREATE (R237, R250). -/
def execChanCreate (dt : Nat) (path : Path) (chan core thr off cap : Nat) (senders : List (Nat × Nat)) (s : State) : Out := s.run dt fun s =>
  s.tosenRun path 0x0740 (6 + 2 * senders.length) false (s.chanPerm chan) fun s _ =>
    let all := (core, thr) :: senders
    if all.any (fun e => e.1 ≥ 100) || cap = 0 || cap > 64 || senders.isEmpty || senders.length > 8 || off % 8 ≠ 0 || off + 72 * cap > 2 ^ 18 || all.any (fun e => e.2 ≥ 8) then
      s.deny 0x030000A0
    else match s.chanOwner chan with
      | none => s.deny 0x020000A0
      | some d =>
        let clash := s.cores.chans.any (fun (h : Nat × Channel) =>
          h.2.recv.1 == core && off < h.2.off + 72 * h.2.cap && h.2.off < off + 72 * cap)
        if (s.chan? chan).isSome then s.deny 0x020000A0
        else if all.any (fun e => e.1 ≥ 96 || s.coreAbsent e.1 || s.coreDom e.1 != some d) then s.deny 0x020000A1
        else if clash then s.deny 0x020000A4
        else
          let h : Channel := { dom := d, recv := (core, thr), senders := senders, cap := cap, off := off }
          { s.setChan chan h with cores.gone := tdel s.cores.gone chan }.ok []

/-- CHAN_DESTROY (R245, R250). (DEDUCED, unsafe: notes/assumptions/76.md) -/
def execChanDestroy (dt : Nat) (path : Path) (chan : Nat) (s : State) : Out := s.run dt fun s =>
  s.tosenRun path 0x0741 1 false (s.chanPerm chan) fun s _ =>
    let s1 := s.breakChan chan
    match s1.chan? chan with
    | none => s1.ok []
    | some h => { s1 with cores.chans := tdel s1.cores.chans chan, cores.gone := tset s1.cores.gone chan h }.ok []

/-- CHAN_ABANDON (R244, R250). -/
def execChanAbandon (dt : Nat) (path : Path) (chan : Nat) (s : State) : Out := s.run dt fun s =>
  s.tosenRun path 0x0742 1 false (s.chanPerm chan) fun s _ =>
    if ((s.chan? chan).bind (fun h => h.holder)).isNone then s.deny 0x020000A2 else (s.abandon chan true).ok []

/-- CHAN_STATUS (R250). (DEDUCED, unsafe: notes/assumptions/76.md) -/
def execChanStatus (dt : Nat) (path : Path) (chan : Nat) (s : State) : Out := s.run dt fun s =>
  s.tosenRun path 0x0743 1 false (s.chanPerm chan) fun s _ =>
    let h := (s.chan? chan).getD { dom := 0, recv := (0, 0), senders := [], cap := 0, off := 0 }
    let at_ := h.holder.getD (0xFF, 0)
    s.ok ([h.recv.1, h.recv.2, h.senders.length] ++ h.senders.flatMap (fun e => [e.1, e.2])
      ++ [h.ready.length, h.taken.length, b2n h.holder.isSome + s.chanHeld chan, at_.1, at_.2,
          if h.holder.isSome then nsOf (s.now - h.since) else 0, b2n h.broken] ++ h.counters)

/-- CHAN_QUOTA (R237, R250): base and count for each of the 16 domains. -/
def execChanQuota (dt : Nat) (path : Path) (ranges : List (Nat × Nat)) (s : State) : Out := s.run dt fun s =>
  s.tosenRun path 0x0744 32 false .any fun s _ =>
    let leaves := s.cores.chans.any (fun (h : Nat × Channel) => !inRange (ranges.getD h.2.dom (0, 0)) h.1)
    if !rangesOk 4096 ranges || leaves then s.deny 0x020000A3
    else { s with cores.ranges := ranges.zipIdx.map (fun (r : (Nat × Nat) × Nat) => (r.2, r.1))
                  cores.gone := s.cores.gone.filter (fun (h : Nat × Channel) => inRange (ranges.getD h.2.dom (0, 0)) h.1) }.ok []

/-- CHAN_SLOT_HOLD_TIMEOUT (R243): once per hold of 1,000,000 ns. -/
def execChanSlotHoldTimeout (dt : Nat) (s : State) : Out := s.run dt fun s =>
  let due := s.cores.chans.filter (fun (h : Nat × Channel) => h.2.holder.isSome && !h.2.told && h.2.since + ns 1000000 ≤ s.now)
  due.foldl (fun s h =>
    let at_ := h.2.holder.getD (0, 0)
    (s.setChan h.1 { h.2 with told := true }).chanEvent h.2.dom h.1 1 at_.1 at_.2) s

/-- HANDOVER_HELD_TIMEOUT (R248): a marker not retired 2^20 ns after its insertion. -/
def execHandoverHeldTimeout (dt : Nat) (s : State) : Out := s.run dt fun s =>
  let due := s.rm.flows.filter (fun (f : Nat × Flow) => f.2.hand.isSome && !f.2.told && f.2.markedAt + grid 20 ≤ s.now)
  due.foldl (fun s f =>
    let at_ := f.2.hand.getD (0, 0)
    (s.setFlow f.1 { f.2 with told := true }).chanEvent (flowDom f.1) (flowNum f.1) 4 at_.1 at_.2) s

end Sys2Proof.Machine
end

