-- ==== Sys2Proof/Machine/SecOps.lean ====
section
/-! DEFINITION. The security engines on the data path (R374-R378): MACsec on the ports, ESP on host-ring frames. -/
namespace Sys2Proof.Machine

def State.ms (s : State) (p : Nat) : MsPort := tget s.sec.ports p {}
def State.setMs (s : State) (p : Nat) (x : MsPort) : State := { s with sec.ports := tset s.sec.ports p x }
def State.msCount (s : State) (p i : Nat) : State := s.setMs p { s.ms p with counters := bump (s.ms p).counters i }
def State.espCount (s : State) (i : Nat) : State := { s with sec.counters := bump s.sec.counters i }

/-- The domain MACsec on a port is charged to and reports to: a shared port's is TD0 (R381). -/
def State.portOwner (s : State) (p : Nat) : Nat := if s.portShared p then 0 else s.portDom p

/-- SEC_EVENT (R383). -/
def State.secEvent (s : State) (d subject cause : Nat) : State := s.event [d, 0] 0x0B30 d [subject, cause, s.ledgerNs]

/-- Whether a frame is never protected on a MACsec port (R375): MAC control, heartbeats, and the bypass list. -/
def MsPort.exempt (m : MsPort) (b : Bytes) : Bool :=
  let t := ofBe (slice b 12 2)
  t == 0x8808 || (t == 0x88B5 && ofBe (slice b 14 2) == 0x4842) || m.bypass.contains t

/-- The nonce of a protected frame (IEEE 802.1AE): SCI and PN, or under XPN the SSCI and PN with the salt.
(DESIGN CHOICE, unsafe: notes/assumptions/120.md; PRESUMED, unsafe: notes/assumptions/121.md) -/
def msNonce (xpn : Bool) (sci : Nat) (a : MsSa) (pn : Nat) : Nat :=
  if xpn then Nat.xor (a.ssci * 2 ^ 64 + pn) a.salt else sci * 2 ^ 32 + pn

/-- The SecTAG (IEEE 802.1AE): EtherType, TCI and AN, short length, PN, and the SCI where it is sent. (PRESUMED, unsafe: notes/assumptions/121.md) -/
def secTag (withSci : Bool) (sci an pn short : Nat) : Bytes :=
  be 0x88E5 2 ++ le (0x0C + an % 4 + if withSci then 0x20 else 0) 1 ++ le (if short < 48 then short else 0) 1 ++ be pn 4
    ++ (if withSci then be sci 8 else [])

/-- PN limits: where it has to stop, and the threshold of R376. -/
def pnTop (xpn : Bool) : Nat := if xpn then 2 ^ 64 else 2 ^ 32
def pnNear (xpn : Bool) : Nat := if xpn then 0xC000000000000000 else 0xC0000000

/-- A frame, without its FCS, as the port's MACsec engine sends it (R376): unchanged, protected, or none where the PN is exhausted.
(DEDUCED, unsafe: notes/assumptions/122.md) -/
def State.msProtect (s : State) (p : Nat) (b : Bytes) : Option Bytes × State :=
  let m := s.ms p
  if !m.on || m.exempt b then (some b, s)
  else
    let sc := tget m.scs 0 {}
    match tget? sc.sas m.txAn with
    | none => (none, s.msCount p 6)
    | some a =>
      if a.pn ≥ pnTop m.xpn then
        let s1 := s.setMs p { m with exhausted := true, counters := bump m.counters 6
                                     scs := tset m.scs 0 { sc with sas := tset sc.sas m.txAn { a with toldEnd := true } } }
        (none, if a.toldEnd then s1 else s1.secEvent (s.portOwner p) p 2)
      else
        let body := b.drop 12
        let clear := body.take m.offset
        let tag := secTag m.withSci sc.sci m.txAn a.pn body.length
        let sealed := slice (gcmSeal a.key (msNonce m.xpn sc.sci a a.pn) (b.take 12 ++ tag ++ clear) (body.drop m.offset)) 0
          ((body.drop m.offset).length + 16)
        let near := a.pn + 1 > pnNear m.xpn && !a.told
        let a1 := { a with pn := a.pn + 1, told := a.told || near }
        let s1 := s.setMs p { m with counters := bump m.counters 0, scs := tset m.scs 0 { sc with sas := tset sc.sas m.txAn a1 } }
        (some (b.take 12 ++ tag ++ clear ++ sealed), if near then s1.secEvent (s.portOwner p) p 1 else s1)

/-- The full PN of a received frame under XPN: the upper half that makes it the next at or after the lowest acceptable.
(PRESUMED, unsafe: notes/assumptions/121.md) -/
def xpnOf (next window low : Nat) : Nat :=
  let base := next - window
  let c := base / 2 ^ 32 * 2 ^ 32 + low
  if c < base then c + 2 ^ 32 else c

/-- A received frame, without its FCS, at the port's MACsec engine (R375): the frame passed on, or none where it is dropped.
(PRESUMED, unsafe: notes/assumptions/121.md) -/
def State.msVerify (s : State) (p : Nat) (b : Bytes) : Option Bytes × State :=
  let m := s.ms p
  if !m.on then (some b, s)
  else if ofBe (slice b 12 2) ≠ 0x88E5 then
    if m.validate = 2 && !m.exempt b then (none, s.msCount p 5) else (some b, s)
  else
    let fail := fun (i : Nat) => if m.validate = 2 then (none, s.msCount p i) else (some b, if m.validate = 1 then s.msCount p i else s)
    let tci := (b.getD 14 0).toNat
    let withSci := tci.testBit 5
    let low := ofBe (slice b 16 4)
    let sci := ofBe (slice b 20 8)
    let hdr := if withSci then 28 else 20
    let found := m.scs.find? (fun x => x.1 ≥ 1 && (x.2.sci == sci || !withSci))
    match found with
    | none => fail 4
    | some (i, sc) =>
      match tget? sc.sas (tci % 4) with
      | none => fail 4
      | some a =>
        let pn := if m.xpn then xpnOf a.pn m.window low else low
        if pn + m.window < a.pn then fail 3
        else
          let short := (b.getD 15 0).toNat % 64
          let rest := b.drop hdr
          let rest := if short > 0 && short + 16 < rest.length then rest.take (short + 16) else rest
          let clear := rest.take m.offset
          match gcmOpen a.key (msNonce m.xpn sc.sci a pn) (b.take hdr ++ clear) (rest.drop m.offset) with
          | none => fail 2
          | some pt =>
            let n := rest.length - 16 - m.offset
            let a1 := { a with pn := max a.pn (pn + 1) }
            (some (b.take 12 ++ clear ++ slice pt 0 n),
              s.setMs p { m with counters := bump m.counters 1, scs := tset m.scs i { sc with sas := tset sc.sas (tci % 4) a1 } })

/-! ESP (R377, R378, RFC 4303, RFC 4106). -/

/-- Bytes of padding that bring a trailer to a multiple of four (RFC 4303). -/
def espPad (n : Nat) : Nat := (4 - (n + 2) % 4) % 4

/-- A frame encapsulated by an outbound association: its Ethernet header, the outer header, the ESP packet.
(PRESUMED, unsafe: notes/assumptions/123.md) -/
def EspSa.encap (a : EspSa) (b : Bytes) : Bytes :=
  let inner := b.drop 14
  let v6 := ofBe (slice b 12 2) == 0x86DD
  let pad := espPad inner.length
  let plain := inner ++ (List.range pad).map (fun i => BitVec.ofNat 8 (i + 1)) ++ le pad 1 ++ le (if v6 then 41 else 4) 1
  let hdr := be a.spi 4 ++ be a.seq 4
  let aad := if a.esn then be a.spi 4 ++ be a.seq 8 else hdr
  let sealed := slice (gcmSeal a.key (a.salt * 2 ^ 64 + a.seq) aad plain) 0 (plain.length + 16)
  let udp := match a.natt with
    | none => []
    | some (sp, dp) => be sp 2 ++ be dp 2 ++ be (8 + 8 + 8 + sealed.length) 2 ++ be 0 2
  let outer6 := (a.template.headD 0).toNat / 16 == 6
  b.take 12 ++ be (if outer6 then 0x86DD else 0x0800) 2 ++ a.template ++ udp ++ hdr ++ be a.seq 8 ++ sealed

/-- The last sequence number of an association. -/
def EspSa.top (a : EspSa) : Nat := if a.esn then 2 ^ 64 - 1 else 2 ^ 32 - 1

/-- A frame of a queue bound to an outbound association, as it is read (R378): encapsulated, or the status it ends with.
(PRESUMED, unsafe: notes/assumptions/123.md) -/
def State.espOut (s : State) (q port : Nat) (b : Bytes) : (Except Nat Bytes) × State :=
  match (s.queue q).sa with
  | none => (.ok b, s)
  | some h =>
    if h = 0xFFFF then (.ok b, s)
    else match tget? s.sec.esp h with
      | none => (.error 0x51, s)
      | some a =>
        if a.seq > a.top then (.error 0x51, s)
        else
          let e := a.encap b
          if e.length + 4 > (s.pt port).cfg.maxFrame then (.error 0x50, s)
          else
            let near := a.seq + 1 > a.top / 4 * 3 && !a.told
            let s1 := { s with sec.esp := tset s.sec.esp h { a with seq := a.seq + 1, told := a.told || near } }.espCount 0
            (.ok e, if near then s1.secEvent a.dom h 3 else s1)

/-- Where the ESP packet of a frame starts, with its destination address; none where the frame carries none. -/
def espAt (b : Bytes) : Option (Nat × Nat) :=
  let v := ofBe (slice b 12 2)
  if v = 0x0800 then
    let ihl := (b.getD 14 0).toNat % 16 * 4
    let proto := (b.getD 23 0).toNat
    let dst := ofBe (slice b 30 4)
    if proto = 50 then some (14 + ihl, dst)
    else if proto = 17 && ofBe (slice b (14 + ihl + 2) 2) = 4500 && ofBe (slice b (14 + ihl + 8) 4) ≠ 0 then some (14 + ihl + 8, dst) else none
  else if v = 0x86DD then
    let nh := (b.getD 20 0).toNat
    let dst := ofBe (slice b 38 16)
    if nh = 50 then some (54, dst)
    else if nh = 17 && ofBe (slice b 56 2) = 4500 && ofBe (slice b 62 4) ≠ 0 then some (62, dst) else none
  else none

/-- A frame without what follows its IP packet. -/
def ipCut (b : Bytes) : Bytes :=
  let v := ofBe (slice b 12 2)
  if v = 0x0800 then b.take (14 + ofBe (slice b 16 2)) else if v = 0x86DD then b.take (54 + ofBe (slice b 18 2)) else b

/-- The full sequence number of a received packet under ESN (RFC 4303): at or above the window's lower edge. -/
def esnOf (top low : Nat) : Nat := xpnOf (top + 1) 1024 low

/-- A frame of an `ESP_IN` queue at its delivery (R378): its bytes as delivered, or none where it is dropped.
(PRESUMED, unsafe: notes/assumptions/123.md) -/
def State.espIn (s : State) (d : Nat) (b : Bytes) : Option Bytes × State :=
  match espAt b with
  | none => (some b, s)
  | some (off, dst) =>
    let spi := ofBe (slice b off 4)
    match s.sec.esp.find? (fun x => x.2.dom == d && !x.2.outbound && x.2.spi == spi && x.2.dst == dst) with
    | none => (none, s.espCount 2)
    | some (h, a) =>
      let low := ofBe (slice b (off + 4) 4)
      let seq := if a.esn then esnOf a.seq low else low
      let behind := a.seq - seq
      if seq = 0 || (seq ≤ a.seq && (behind ≥ 1024 || a.window.testBit behind)) then (none, s.espCount 4)
      else
        let hdr := slice b off 8
        let aad := if a.esn then be spi 4 ++ be seq 8 else hdr
        let ct := (ipCut b).drop (off + 16)
        let n := ct.length - 16
        match gcmOpen a.key (a.salt * 2 ^ 64 + ofBe (slice b (off + 8) 8)) aad ct with
        | none => (none, s.espCount 3)
        | some x =>
          let pt := slice x 0 n
          let pad := (pt.getD (n - 2) 0).toNat
          let inner := pt.take (n - 2 - pad)
          let w := if seq > a.seq then setBit (a.window * 2 ^ (seq - a.seq) % 2 ^ 1024) 0 else setBit a.window behind
          let v6 := (inner.headD 0).toNat / 16 == 6
          let s1 := { s with sec.esp := tset s.sec.esp h { a with seq := max a.seq seq, window := w } }.espCount 1
          (some (b.take 12 ++ be (if v6 then 0x86DD else 0x0800) 2 ++ inner), s1)

end Sys2Proof.Machine
end

