-- ==== Sys2Proof/Machine/SluOps.lean ====
section
/-! DEFINITION. The Sluice's shared operations (R196-R209): targets and start instants, the release store, releases and discards; and
how a queued frame takes the line of its port (R120, R152, R203). -/
namespace Sys2Proof.Machine

def State.sluPort (s : State) (p : Nat) : SluPort := tget s.slu.ports p {}
def State.setSluPort (s : State) (p : Nat) (x : SluPort) : State := { s with slu.ports := tset s.slu.ports p x }
def State.sluCount (s : State) (p i : Nat) : State := s.setSluPort p { s.sluPort p with counters := bump (s.sluPort p).counters i }

/-- Store share of a domain (R202). -/
def State.sluShare (s : State) (d : Nat) : Nat := tget s.slu.shares d (if s.domOn d then 16384 / s.domCount else 0)
def State.sluUsed (s : State) (d : Nat) : Nat := (s.slu.store.filter (fun r => r.dom == d)).length

/-- A port's phase changed: its stored replicas follow (R198, R199). -/
def State.setPhase (s : State) (p : Nat) (x : SluPort) : State := (s.setSluPort p x).reaim p s.now

/-- A replica leaves the release store. -/
def State.dropReplica (s : State) (r : Replica) : State :=
  let x := s.queue r.queue
  { (s.setQueue r.queue { x with stored := x.stored - r.frame.cells }) with slu.store := s.slu.store.erase r }

/-- A stored replica is discarded: it ends unsent with status `st` (R202, R204, R209). -/
def State.discardReplica (s : State) (r : Replica) (counter st : Nat) : State :=
  ((s.dropReplica r).sluCount r.port counter).txLost r.frame r.port st

/-- The replicas of a port that has left `UP` (R209). -/
def State.sluDown (s : State) (p : Nat) : State :=
  (s.slu.store.filter (fun r => r.port == p)).foldl (fun s r => s.discardReplica r 7 2) s

/-- The earlier of two replicas (R204): target, then PF, VF and ring of its poster, then its position. -/
def Replica.before (a b : Replica) : Bool :=
  let k := fun (r : Replica) => (r.frame.desc.getD (0, 0)).1
  a.target < b.target || (a.target == b.target && k a < k b)

/-- Whether the line of a port is free for a new frame: up, nothing on it, the gap over. -/
def State.lineFree (s : State) (p : Nat) : Bool := s.portUp p && (s.pt p).tx.isEmpty && (s.pt p).busyTo ≤ s.elapsed

/-- Whether a frame of `len` wire bytes ends, with its gap, before the start of every replica of the port whose hold point has come (R203).
(DEDUCED, safe: notes/assumptions/66.md) -/
def State.clearOf (s : State) (p len : Nat) : Bool :=
  (s.slu.store.filter (fun r => r.port == p && !r.late)).all (fun r =>
    s.startAt p + s.byteTime p ((s.pt p).cfg.maxFrame + 20) < r.target || s.startAt p + s.byteTime p (len + 20) ≤ r.start)

/-- Whether a frame of `len` wire bytes of lower precedence may start on a port now: no late replica is waiting for the line either.
(DEDUCED, unsafe: notes/assumptions/65.md) -/
def State.holdOk (s : State) (p len : Nat) : Bool :=
  s.clearOf p len && !s.slu.store.any (fun r => r.port == p && r.late && r.lateSend && !s.pausedOn p (s.queue r.queue).cfg.tc)

/-- Whether a Spout replica is due on a port (R152): one of a class that is not paused waits. -/
def State.spoutDue (s : State) (p : Nat) : Bool := s.pl.spoutWait.any (fun r => r.egress == p && !s.pausedOn p r.tc)

/-- The bytes a port's MAC puts on the wire for a frame: tag insertion, MACsec, padding and FCS (R119, R120, R376). None where the frame
is discarded, for its PN or for its length. -/
def State.macFrame (s : State) (p : Nat) (data : Bytes) (tci : Option Nat) : Option Bytes × State :=
  let c := (s.pt p).cfg
  let w := c.wire data tci
  let s1 := if w.2 then s.mac p 56 else s
  let r := if (s1.ms p).on then
      let inner := (c.insertion data tci)
      let body := if c.fcsAppend then data else data.take (data.length - 4)
      let tagged := match inner with
        | some t => body.take 12 ++ be c.insertTpid 2 ++ be t 2 ++ body.drop 12
        | none => body
      match s1.msProtect p tagged with
      | (some b, s2) => (some (padFcs b), s2)
      | (none, s2) => (none, s2)
    else (some w.1, s1)
  match r with
  | (none, s2) => (none, s2)
  | (some b, s2) => if b.length > c.maxFrame then (none, s2.mac p 57) else (some b, s2)

/-- The replica of a port to act on: of those whose start instant has come, the first in precedence that is not late already, or that is
late, is to be sent late, and can start now. (DEDUCED, unsafe: notes/assumptions/65.md) -/
def State.dueReplica (s : State) (p : Nat) : Option Replica :=
  let go := fun (r : Replica) => r.lateSend && s.lineFree p && !s.pausedOn p (s.queue r.queue).cfg.tc
    && { s with slu.store := s.slu.store.erase r }.clearOf p (r.frame.data.length + 4)
  (s.slu.store.filter (fun r => r.port == p && r.start ≤ s.now && (!r.late || !r.lateSend || !s.portUp p || go r))).foldl
    (fun (b : Option Replica) r => match b with
      | none => some r
      | some x => if r.before x then some r else some x) none

/-- A replica starts (R199, R203, R206): its queue's shaper pays its scheduled length. -/
def State.releaseReplica (s : State) (r : Replica) : State :=
  let s0 := s.dropReplica r
  let x := s0.queue r.queue
  let l := s.schedLen x.cfg r.frame
  let x1 := if x.shMode = 1 then { x with sc := x.sc - (l : Int) * 256, sp := x.sp - (l : Int) * 256 } else x
  let s1 := (s0.setQueue r.queue { x1 with counters := bumpBy (bump x1.counters 7) 8 (s.wireLen x.cfg r.frame) }).sync r.queue
  if r.frame.bad then (s1.memDom r.dom 1).txLost r.frame r.port 2
  else match s1.macFrame r.port r.frame.data r.frame.tci with
  | (none, s2) => s2.txLost r.frame r.port 2
  | (some b, s2) =>
    let s3 := s2.sluCount r.port 0
    let s4 := if (s3.sluPort r.port).settled then s3 else s3.sluCount r.port 6
    s4.startTx r.port { data := b, kind := 1, frame := { r.frame with cls := r.cls, notarise := r.notarise }, queue := r.queue }

/-- A replica of a release admitted on its port (R202): the rules of R185, then the early limit and the domain's store share.
(DEDUCED, unsafe: notes/assumptions/65.md) -/
def State.admitReplica (s : State) (f : Frame) (release tag port q cls : Nat) (notarise lateSend : Bool) : State :=
  let d := f.dom
  let x := s.queue q
  if s.queueDead q then (s.queueDrop q 6 4).txLost f port 2
  else if x.depth + f.cells > x.cfg.limG then (s.queueDrop q 2 2).txLost f port 2
  else
    match s.placeCells q d f.cells with
    | (none, s1) => (s1.queueDrop q 5 3).txLost f port 2
    | (some sp, s1) =>
      let x := s1.queue q
      let s2 := (s1.setQueue q { x with counters := bump x.counters 0, hist := { x.hist with enqueued := x.hist.enqueued + 1 } }).tmCount 0
      let t := ns release - (s.sluPort port).comp
      if t > s.now + grid 30 then ((s2.sluCount port 3).sluEvent port 3 tag t).txLost f port 2
      else if s2.sluUsed d ≥ s2.sluShare d then ((s2.sluCount port 4).sluEvent port 4 tag t).txLost f port 2
      else
        let st := startInstant (startsPer32 (s.pt port).mode) (s.sluPort port).phase t
        let r : Replica := { port := port, target := t, start := st, tag := tag, frame := { f with spilled := sp, admitted := s.elapsed }
                             queue := q, cls := cls, notarise := notarise, lateSend := lateSend, late := st < s.now, dom := d }
        let s3 := { (s2.setQueue q { s2.queue q with stored := (s2.queue q).stored + f.cells }) with slu.store := s2.slu.store ++ [r] }
        if r.late && !lateSend then (s3.discardReplica r 2 2).sluEvent port 1 tag t else s3

end Sys2Proof.Machine
end

