-- ==== Sys2Proof/Machine/Timebase.lean ====
section
/-! DEFINITION. The timebase (R45-R67): device time, references, the servo, holdover, steps, UTC and leap seconds, the time
outputs and the PTP service. -/
namespace Sys2Proof.Machine

/-- SERVO_STATE (R46). -/
def Servo.code : Servo → Nat
  | .freeRun => 0
  | .freqAcq => 1
  | .phaseAcq => 2
  | .locked => 3
  | .holdover => 4

/-- TB_STATUS (R46). -/
def State.tbStatus (s : State) : Nat :=
  s.tb.servo.code + 8 * b2n s.tb.freeEpoch + 16 * b2n s.tb.outOfCapture + 32 * b2n s.tb.oscHold + 256 * s.quality
    + 65536 * s.tb.qualSeconds

/-- AGE_S (R46): whole seconds since entry into HOLDOVER. -/
def State.ageS (s : State) : Nat :=
  if s.tb.servo = .holdover then min ((s.elapsed - s.tb.holdAt) / second) 0xFFFFFFFF else 0

/-- TB_UTC (R46). -/
def State.tbUtc (s : State) : Nat := twos 16 s.tb.utcOffset + 65536 * s.tb.leapState

/-- TIME_EVENT (R66): cause, old and new TB_STATUS, PHASE_ERR, quality level, ledger time. -/
def State.timeEvent (s : State) (cause old level : Nat) : State :=
  s.event [0] 0x0210 0 [cause, old, s.tbStatus, twos 64 s.tb.phaseErr, level, s.ledgerNs]

/-- A change of servo state, with its record (R62, R91 subtype 0x0C). -/
def State.setServo (s : State) (v : Servo) : State :=
  if s.tb.servo = v then s
  else
    let o := s.tb.servo.code
    { s with tb.servo := v }.specials 0x0C false false (le o 1 ++ le v.code 1 ++ le (twos 32 s.tb.phaseErr) 4)

/-- A change of holdover class, with its record (R62, R91 subtype 0x0D). (DEDUCED, unsafe: notes/assumptions/32.md) -/
def State.setClass (s : State) (c : Nat) : State :=
  if s.tb.holdClass = c then s
  else
    let o := s.tb.holdClass
    { s with tb.holdClass := c }.specials 0x0D false false (le o 1 ++ le c 1 ++ le s.ageS 4)

/-- Entry into HOLDOVER on a loss or a release (R56, R57): the frequency learned stays, without the slew.
(DEDUCED, unsafe: notes/assumptions/32.md) -/
def State.holdoverEntry (s : State) : State :=
  let good := s.tb.servo = .locked ∧ s.tb.history ≥ 600 ∧ s.tb.oscHold = true
  let s1 := { s with tb.qualified := false, tb.qualSeconds := 0, tb.held := s.tb.ref, tb.holdAt := s.elapsed
                     tb.holdClass := if good then 0 else 3, tb.outOfCapture := false, tb.history := 0, tb.slew := 0 }
  s1.setServo .holdover

/-- The selected reference is lost (R49, R62): `mask` names the components. (DEDUCED, unsafe: notes/assumptions/32.md) -/
def State.refLoss (s : State) (mask : Nat) : State :=
  if s.tb.ref < 2 || s.tb.refLost || s.tb.servo = .holdover || s.tb.servo = .freeRun then s
  else
    let old := s.tbStatus
    let s1 := { s with tb.refLost := true, tb.refLosses := satInc s.tb.refLosses 255 }
    let s2 := s1.specials 0x07 true false (le s1.tb.ref 1 ++ le mask 1)
    s2.holdoverEntry.timeEvent 6 old 0

/-- Whether every component of a reference has been present for the last two evaluation seconds (R49, R53). -/
def Tb.presentFor2 (t : Tb) (code : Nat) : Bool :=
  match code with
  | 2 => t.ppsOk ≥ 2 && t.ref10mOk ≥ 2
  | 3 => t.ppsOk ≥ 2
  | 4 => t.ptpOk ≥ 2
  | 5 => t.ptpOk ≥ 2 && t.synceOk ≥ 2
  | _ => false

/-- A time set or a step is pending (R54, R59). -/
def Tb.stepping (t : Tb) : Bool := t.step.isSome || t.set.isSome

/-! PPS_IN and the other inputs. -/

/-- Present, too early or too late, of an edge before the first time set, against the reference edge (R49). -/
def ppsEarly (since : Nat) : Bool := since + ns 100000 < second
def ppsLate (since : Nat) : Bool := second + ns 100000 < since

/-- Whether device time `t` lies within 1,000 ns of a whole second plus the cable delay (R49). -/
def inWindow (t delay : Nat) : Bool :=
  let x := (t + second - delay % second) % second
  x ≤ ns 1000 || second - x ≤ ns 1000

/-- An edge that counts as present: it may be the one a pending time set names (R54). (DEDUCED, unsafe: notes/assumptions/27.md) -/
def State.ppsGood (s : State) : State :=
  let s1 := { s with tb.ppsSeen := true, tb.ppsEdge := some s.elapsed, tb.todFresh := false }
  match s.tb.set with
  | some x =>
    if x.edge.isSome then s1
    else if x.src = 0 then
      match s.tb.todFresh, s.tb.todLabel with
      | true, some l => { s1 with tb.set := some { x with edge := some (s.now, (l.1 + 1) * second + s.tb.ppsDelay) } }
      | _, _ => s1
    else if x.src = 1 && x.notBefore ≤ s.elapsed then
      { s1 with tb.set := some { x with edge := some (s.now, x.second * second + s.tb.ppsDelay) } }
    else s1
  | none => s1

/-- A stray edge counted (R46, R49). -/
def State.ppsStray (s : State) : State := { s with tb.strays := satInc s.tb.strays 255 }

/-- PPS_IN_EDGE (R49, R54). (DEDUCED, unsafe: notes/assumptions/27.md) -/
def execPpsInEdge (dt : Nat) (s : State) : Out := s.run dt fun s =>
  if s.tb.freeEpoch then
    match s.tb.ppsEdge with
    | none => { s with tb.ppsEdge := some s.elapsed, tb.todFresh := false }
    | some e =>
      let since := s.elapsed - e
      if ppsEarly since then s.ppsStray
      else if ppsLate since then { s.ppsStray with tb.ppsEdge := some s.elapsed }
      else s.ppsGood
  else if inWindow s.now s.tb.delayUsed then s.ppsGood
  else s.ppsStray

/-- REF10M_IN_LOSS (R49): declared at once. -/
def execRef10mInLoss (dt : Nat) (s : State) : Out := s.run dt fun s =>
  let s1 := { s with tb.ref10mOk := 0 }
  if s.tb.ref = 2 then s1.refLoss 2 else s1

/-- REC_CLK outputs that carry a lane are forced low (R63). -/
def State.recClkOff (s : State) (lane : Nat) : State :=
  let s1 := if s.tb.rec0 && s.tb.out.lane0 = lane then { s with tb.rec0 := false }.emit (.pin .recClk0 false) else s
  if s1.tb.rec1 && s1.tb.out.lane1 = lane then { s1 with tb.rec1 := false }.emit (.pin .recClk1 false) else s1

/-- Whether a lane's CDR has lock: its port has aligned and not lost lock since (R115). (DEDUCED, unsafe: notes/assumptions/31.md) -/
def State.laneLocked (s : State) (lane : Nat) : Bool :=
  (List.range 24).any (fun p =>
    let x := s.pt p
    (x.state == .calibrating || x.state == .up || x.state == .fault || (x.state == .held && x.calState ≠ 0)) && p ≤ lane && lane < p + modeLanes x.mode)
    && !s.tb.cdrLost.contains lane

/-- Whether PPS_OUT, REF10M_OUT and TOD_OUT run (R31, R63). -/
def State.outputsRun (s : State) : Bool :=
  match s.glb.mode with
  | .boot => false
  | .recovery => false
  | .lockdown => false
  | _ => true

/-- Output settings whose whole second has come take effect (R66): REC_CLK follows the lanes they name, and REF10M_OUT ends where it is disabled.
(DEDUCED, unsafe: notes/assumptions/31.md) -/
def State.installOut (s : State) : State :=
  match s.tb.outNext with
  | none => s
  | some o =>
    if s.now < s.tb.outAt then s
    else
      let r0 := s.outputsRun && s.laneLocked o.lane0
      let r1 := s.outputsRun && s.laneLocked o.lane1
      let es := (if s.tb.rec0 = r0 then [] else [.pin .recClk0 r0]) ++ (if s.tb.rec1 = r1 then [] else [.pin .recClk1 r1])
        ++ (if s.tb.out.ref10m && !o.ref10m then [.pin .ref10mOut false] else [])
      { s with tb.out := o, tb.outNext := none, tb.rec0 := r0, tb.rec1 := r1 }.emits es

/-- REC_CLK outputs that carry a lane of a port run again once it has aligned (R63). (DEDUCED, unsafe: notes/assumptions/31.md) -/
def State.recClkOn (s : State) (port : Nat) : State :=
  let has (lane : Nat) : Bool := port ≤ lane && lane < port + modeLanes (s.pt port).mode
  let s : State := { s with tb.cdrLost := s.tb.cdrLost.filter (fun l => !has l) }
  let s1 := if s.outputsRun && has s.tb.out.lane0 && !s.tb.rec0 then { s with tb.rec0 := true }.emit (.pin .recClk0 true) else s
  if s1.outputsRun && has s1.tb.out.lane1 && !s1.tb.rec1 then { s1 with tb.rec1 := true }.emit (.pin .recClk1 true) else s1

/-- The SyncE lock of a port lost (R49, R63). -/
def State.synceLoss (s : State) (port : Nat) : State :=
  let s1 := if s.tb.syncePort = port then { s with tb.synceOk := 0 } else s
  if s1.tb.ref = 5 && s1.tb.syncePort = port then s1.refLoss 8 else s1

/-- The PTP component lost (R49): the time-receiver port's link went down, or no Sync came in time. -/
def State.ptpLoss (s : State) : State :=
  let s1 := { s with tb.ptps.lost := true, tb.ptpOk := 0 }
  if s1.tb.ref = 4 || s1.tb.ref = 5 then s1.refLoss 4 else s1

/-- SYNCE_LOCK_LOSS (R49, R63). -/
def execSynceLockLoss (dt port lane : Nat) (s : State) : Out := s.run dt fun s => ({ s with tb.cdrLost := s.tb.cdrLost ++ [lane] }.recClkOff lane).synceLoss port

/-- TOD_IN_MESSAGE (R52, R54): discarded unless it is a whole message with a good CRC; a label that disagrees with device time is
counted and reported. (DEDUCED, unsafe: notes/assumptions/27.md) -/
def execTodInMessage (dt : Nat) (data : Bytes) (s : State) : Out := s.run dt fun s =>
  let good := data.length = 20 ∧ slice data 0 4 = [0xC3#8, 0x5E#8, 0x01#8, 0x14#8] ∧ ofLe (slice data 18 2) = crc16 (slice data 2 16)
  if !decide good then s
  else
    let sec := ofLe (slice data 4 8)
    let s1 := { s with tb.todLabel := some (sec, s.elapsed), tb.todFresh := true }
    if !s.tb.freeEpoch && (s.now - s.tb.ppsDelay) / second ≠ sec then
      let old := s1.tbStatus
      { s1 with tb.todMismatch := satInc s1.tb.todMismatch 255 }.timeEvent 3 old 0
    else s1

/-! PTP (R50). -/

/-- delayAsymmetry of a port. -/
def Tb.asym (t : Tb) (port : Nat) : Int := tget t.ptp.asymmetry port 0

/-- A Sync accepted: origin time t1, receive stamp t2 (R50, R54). (PRESUMED, unsafe: notes/assumptions/30.md) -/
def State.syncAccept (s : State) (port t1 t2 : Nat) : State :=
  let d : Int := s.tb.ptps.delay.getD 0
  let off : Int := (t2 : Int) - t1 - d - s.tb.asym port
  let s1 := { s with tb.ptps.last := some (t1, t2), tb.ptps.sync := none, tb.ptps.offset := off, tb.ptps.heard := s.elapsed
                     tb.ptps.lost := false }
  match s.tb.set, s.tb.ptps.delay with
  | some x, some _ =>
    if x.src = 2 && x.edge.isNone then
      { s1 with tb.set := some { x with edge := some (s.now, ((s.now : Int) - off).toNat) } }
    else s1
  | _, _ => s1

/-- PTP_SYNC_RECEIVED (R50). (DESIGN CHOICE, unsafe: notes/assumptions/167.md) -/
def execPtpSyncReceived (dt port domain seq : Nat) (twoStep : Bool) (origin rx : Nat) (s : State) : Out := s.run dt fun s =>
  if !s.portUp port || port ≠ s.tb.ptp.receiver || domain ≠ s.tb.ptp.domain then s
  else if twoStep then { s with tb.ptps.sync := some (seq, rx) }
  else s.syncAccept port origin rx

/-- PTP_FOLLOW_UP_RECEIVED (R50). (DESIGN CHOICE, unsafe: notes/assumptions/167.md) -/
def execPtpFollowUpReceived (dt port domain seq origin : Nat) (s : State) : Out := s.run dt fun s =>
  if !s.portUp port || port ≠ s.tb.ptp.receiver || domain ≠ s.tb.ptp.domain then s
  else match s.tb.ptps.sync with
    | some x => if x.1 = seq then s.syncAccept port origin x.2 else s
    | none => s

/-- PTP_DELAY_REQ_RECEIVED (R50): a time transmitter answers with the receive time. -/
def execPtpDelayReqReceived (dt port domain seq rx : Nat) (s : State) : Out := s.run dt fun s =>
  if !s.portUp port || s.tb.ptp.profile = 1 || !s.tb.ptp.transmitters.contains port || domain ≠ s.tb.ptp.domain then s
  else s.ptpSend port 0x9 seq [rx]

/-- PTP_DELAY_RESP_RECEIVED (R50): one delay measurement is complete. (PRESUMED, unsafe: notes/assumptions/30.md) -/
def execPtpDelayRespReceived (dt port domain seq t4 : Nat) (s : State) : Out := s.run dt fun s =>
  if !s.portUp port || port ≠ s.tb.ptp.receiver || domain ≠ s.tb.ptp.domain then s
  else match s.tb.ptps.req, s.tb.ptps.last with
    | some r, some l =>
      if r.1 = seq then
        { s with tb.ptps.req := none
                 tb.ptps.delay := some ((((l.2 : Int) - l.1) + ((t4 : Int) - r.2)) / 2) }
      else s
    | _, _ => s

/-- PTP_PDELAY_REQ_RECEIVED (R50): answered under the peer-to-peer profile, with a follow-up that carries the answer's transmit stamp. -/
def execPtpPdelayReqReceived (dt port domain seq rx : Nat) (s : State) : Out := s.run dt fun s =>
  if !s.portUp port || s.tb.ptp.profile ≠ 1 || domain ≠ s.tb.ptp.domain || !(port = s.tb.ptp.receiver || s.tb.ptp.transmitters.contains port) then s
  else s.ptpSend port 0x3 seq [rx]

/-- PTP_PDELAY_RESP_RECEIVED (R50). (PRESUMED, unsafe: notes/assumptions/30.md) -/
def execPtpPdelayRespReceived (dt port domain seq t2 t3 rx : Nat) (s : State) : Out := s.run dt fun s =>
  if !s.portUp port || s.tb.ptp.profile ≠ 1 || port ≠ s.tb.ptp.receiver || domain ≠ s.tb.ptp.domain then s
  else match s.tb.ptps.req with
    | some r =>
      if r.1 = seq then
        { s with tb.ptps.req := none, tb.ptps.delay := some ((((rx : Int) - r.2) - ((t3 : Int) - t2)) / 2) }
      else s
    | none => s

/-- PTP_ANNOUNCE_RECEIVED (R50): recorded, and reported when from another grandmaster; never acted on. -/
def execPtpAnnounceReceived (dt port domain grandmaster : Nat) (s : State) : Out := s.run dt fun s =>
  if !s.portUp port then s else
  let s1 := { s with tb.ptps.announces := tset s.tb.ptps.announces port grandmaster }
  if domain = s.tb.ptp.domain && grandmaster ≠ s.tb.ptp.grandmaster then s1.timeEvent 5 s1.tbStatus 0 else s1

/-- PTP_MANAGEMENT_RECEIVED (R50): discarded and counted. -/
def execPtpManagementReceived (dt port : Nat) (s : State) : Out := s.run dt fun s =>
  if !s.portUp port then s else { s with tb.ptps.mgmtDropped := inc48 s.tb.ptps.mgmtDropped }

/-- PTP_RECEIPT_TIMEOUT (R49): due once no Sync has been accepted for the time-out. -/
def execPtpReceiptTimeout (dt : Nat) (s : State) : Out := s.run dt fun s =>
  if s.tb.ptps.lost || s.elapsed < s.tb.ptps.heard + ns (s.tb.ptp.receiptTimeout * s.tb.ptp.announceNs) then s else s.ptpLoss

/-- PTP_SYNC_TRANSMIT (R50): a two-step Sync; its Follow_Up goes out once its transmit stamp is known. -/
def execPtpSyncTransmit (dt port origin : Nat) (s : State) : Out := s.run dt fun s =>
  if !s.firmware || !s.portUp port || !s.tb.ptp.transmitters.contains port then s
  else
    let q := tget s.tb.ptps.seqSync port 0
    { s with tb.ptps.seqSync := tset s.tb.ptps.seqSync port ((q + 1) % 65536) }.ptpSend port 0x0 q [origin]

/-- PTP_DELAY_REQ_TRANSMIT (R50). (DESIGN CHOICE, unsafe: notes/assumptions/167.md) -/
def execPtpDelayReqTransmit (dt origin : Nat) (s : State) : Out := s.run dt fun s =>
  if !s.firmware || !s.portUp s.tb.ptp.receiver || s.tb.ptp.profile = 1 || s.tb.ptp.receiver ≥ 24 || !(s.tb.ref = 4 || s.tb.ref = 5) then s
  else
    let q := s.tb.ptps.seqReq
    { s with tb.ptps.seqReq := (q + 1) % 65536 }.ptpSend s.tb.ptp.receiver 0x1 q [origin]

/-- PTP_PDELAY_REQ_TRANSMIT (R50). -/
def execPtpPdelayReqTransmit (dt port origin : Nat) (s : State) : Out := s.run dt fun s =>
  if !s.firmware || !s.portUp port || s.tb.ptp.profile ≠ 1 || !(port = s.tb.ptp.receiver || s.tb.ptp.transmitters.contains port) then s
  else
    let q := tget s.tb.ptps.seqPreq port 0
    { s with tb.ptps.seqPreq := tset s.tb.ptps.seqPreq port ((q + 1) % 65536) }.ptpSend port 0x2 q [origin]

/-- ESMC_PDU_RECEIVED (R51): passed to firmware; a change of quality level is reported. -/
def execEsmcPduReceived (dt port level : Nat) (s : State) : Out := s.run dt fun s =>
  if !s.portUp port then s else
  let s1 := s.emit (.ptp port 0x100 0 [level])
  if tget? s.tb.esmc port = some level then s1
  else { s1 with tb.esmc := tset s1.tb.esmc port level }.timeEvent 4 s1.tbStatus level

/-! The servo (R55-R57). -/

/-- Limits in the register units: phase in 2^-8 ns, drift in 2^-16 ppb. -/
def phaseWithin (p : Int) (eighths : Nat) : Bool := p.natAbs ≤ eighths
def driftWithin (d : Int) (ppb : Nat) : Bool := d.natAbs ≤ ppb * 65536

/-- PHASE_ERR saturates at ±(2^31 − 1) (R46). -/
def satPhase (p : Int) : Int := max (-(2 ^ 31 - 1)) (min p (2 ^ 31 - 1))
/-- FREQ_ADJ is clamped to ±32,000 ppb (R45). (DEDUCED, unsafe: notes/assumptions/29.md) -/
def clampAdj (a : Int) : Int := max (-(32000 * 65536)) (min a (32000 * 65536))

/-- Presence of each component over the evaluation second that ends (R49). -/
def Tb.evalPresence (t : Tb) (ref10m synce : Bool) : Tb :=
  { t with
    ppsOk := if t.ppsSeen then t.ppsOk + 1 else 0
    ppsBad := if t.ppsSeen then 0 else t.ppsBad + 1
    ppsSeen := false
    ref10mOk := if ref10m then t.ref10mOk + 1 else 0
    synceOk := if synce then t.synceOk + 1 else 0
    ptpOk := if t.ptps.lost then 0 else t.ptpOk + 1 }

/-- The frequency the servo tracks at the end of a second (R55): references 3 and 4 give it by the same source as Δf; of references 2 and 5
it is REF10M_IN's or the recovered clock's, whose measurement no rule gives, a free value. (DEDUCED, unsafe: notes/assumptions/29.md) -/
def State.tracked (s : State) (drift : Int) : Int :=
  if s.tb.ref = 3 || s.tb.ref = 4 then clampAdj (s.tb.freqAdj - drift) else clampAdj ((s.freeBits 33 : Int) - 2 ^ 32)

/-- The phase slew of the next second (R55, R56): toward zero, by at most 200 ns in the second, its size a free value; none beyond the
capture range, where the servo tracks frequency only. (DEDUCED, unsafe: notes/assumptions/29.md) -/
def State.slewFor (s : State) (phase : Int) : Int :=
  if !phaseWithin phase 256000 then 0 else -(phase.sign * ((s.freeBits 64 / 2 ^ 33 % (200 * 65536 + 1) : Nat) : Int))

/-- The servo's step at the end of a second with a live reference (R55, R56). (DEDUCED, unsafe: notes/assumptions/29.md) -/
def State.servoStep (s : State) (phase drift : Int) : State :=
  let s := { s with tb.phaseErr := satPhase phase }
  let both := phaseWithin phase 256 && driftWithin drift 2
  match s.tb.servo with
  | .freqAcq =>
    if s.tb.acqPart then { s with tb.acqPart := false }
    else
      let s1 := { s with tb.freqAdj := clampAdj (s.tb.freqAdj - drift) }
      let left := drift - (s.tb.freqAdj - s1.tb.freqAdj)
      if driftWithin left 2 then s1.setServo .phaseAcq else s1
  | .phaseAcq =>
    let s1 := { s with tb.freqAdj := s.tracked drift, tb.slew := s.slewFor phase }.used
    if phaseWithin phase 256000 then
      let s2 := { s1 with tb.outOfCapture := false }
      if both then { s2 with tb.qualSeconds := 1 }.setServo .locked else s2
    else
      let old := s1.tbStatus
      { s1 with tb.outOfCapture := true }.timeEvent 1 old 0
  | .locked =>
    let s1 := { s with tb.freqAdj := s.tracked drift, tb.slew := s.slewFor phase }.used
    if both then
      let q := min (s1.tb.qualSeconds + 1) 16
      { s1 with tb.qualSeconds := q, tb.qualified := s1.tb.qualified || q ≥ 16
                tb.history := if s1.tb.qualified then min (s1.tb.history + 1) 600 else 0 }
    else if !phaseWithin phase 512 || !driftWithin drift 4 then
      { s1 with tb.qualified := false, tb.qualSeconds := 0, tb.history := 0 }.setServo .phaseAcq
    else if s1.tb.qualified then { s1 with tb.history := min (s1.tb.history + 1) 600 }
    else { s1 with tb.qualSeconds := 0 }
  | _ => s

/-- EVALUATION_SECOND_END (R49, R55, R56): due at each whole second of device time. (DEDUCED, unsafe: notes/assumptions/29.md) -/
def execEvaluationSecondEnd (dt : Nat) (phase drift : Int) (ref10m synce : Bool) (s : State) : Out := s.run dt fun s =>
  if s.now % second ≠ 0 then s
  else
    let s := s.installOut
    let s1 := { s with tb := s.tb.evalPresence ref10m synce }
    if s1.tb.ref < 2 then s1
    else if s1.tb.servo = .holdover then
      if s1.tb.refLost && !s1.tb.released && s1.tb.presentFor2 s1.tb.ref then
        let old := s1.tbStatus
        let s2 := { s1 with tb.refLost := false, tb.delayUsed := s1.tb.ppsDelay }.specials 0x08 true false (le s1.tb.ref 1)
        (s2.setServo .phaseAcq).timeEvent 7 old 0
      else s1
    else if (s1.tb.ref = 2 || s1.tb.ref = 3) && s1.tb.ppsBad ≥ 2 then s1.refLoss 1
    else s1.servoStep phase drift

/-- The holdover class that AGE_S gives (R57). -/
def classOfAge (age : Nat) : Nat := if age < 1000 then 0 else if age < 7200 then 1 else 2

/-- HOLDOVER_CLASS_CHANGE (R56, R57). -/
def execHoldoverClassChange (dt : Nat) (s : State) : Out := s.run dt fun s =>
  if s.tb.servo ≠ .holdover || s.tb.holdClass = 3 || classOfAge s.ageS = s.tb.holdClass then s
  else
    let old := s.tbStatus
    (s.setClass (classOfAge s.ageS)).timeEvent 2 old 0

/-! Commands of group 0x02 (R66). -/

/-- FREQ_ADJ (R46): the frequency adjustment applied. (DEDUCED, unsafe: notes/assumptions/29.md) -/
def State.freqReg (s : State) : Int := clampAdj (s.tb.freqAdj + s.tb.slew)

/-- TIME_QUERY (R66). -/
def execTimeQuery (dt : Nat) (path : Path) (s : State) : Out := s.run dt fun s =>
  s.tosenRun path 0x0201 0 false .any fun s _ =>
    s.ok [nsOf s.now, fracOf s.now, s.quality, s.tbStatus, twos 64 s.tb.phaseErr, twos 64 s.freqReg, s.ageS, s.tbUtc, s.tb.leapNs]

/-- Whether a port cannot serve as a reference (R53): absent, without lanes, or its link down. -/
def State.refPortBad (s : State) (p : Nat) : Bool :=
  p ≥ s.portCount || !s.mapped p || !s.portUp p

/-- TIME_REF_SELECT (R53, R54, R56). (DESIGN CHOICE, unsafe: notes/assumptions/167.md) -/
def execTimeRefSelect (dt : Nat) (path : Path) (code label tai ptp synce : Nat) (s : State) : Out := s.run dt fun s =>
  s.tosenRun path 0x0202 5 false .any fun s _ =>
    let usesPtp := code = 4 ∨ code = 5
    if code < 2 ∨ code > 5 ∨ label > 1 ∨ (usesPtp ∧ ptp > 23) ∨ (code = 5 ∧ synce > 23) then s.deny 0x03000010
    else if (usesPtp ∧ s.refPortBad ptp) ∨ (code = 5 ∧ s.refPortBad synce) then s.deny 0x02000011
    else if !s.tb.presentFor2 code ∨ (usesPtp ∧ ptp ≠ s.tb.ptp.receiver) then s.deny 0x02000010
    else if label = 0 ∧ !(match s.tb.todLabel with | some l => decide (s.elapsed ≤ l.2 + 2 * second) | none => false) then
      s.deny 0x02000013
    else if s.tb.stepping then s.deny 0x01000010
    else
      let set : Option TimeSet := if s.tb.freeEpoch then
          some { src := if usesPtp then 2 else label, second := tai, notBefore := s.elapsed + ns (2 ^ 27) } else none
      let s1 := { s with tb.ref := code, tb.labelSrc := label, tb.ptpPort := if usesPtp then ptp else s.tb.ptpPort
                         tb.syncePort := if code = 5 then synce else s.tb.syncePort, tb.servo := .freqAcq, tb.freqAdj := s.freqReg, tb.slew := 0
                         tb.delayUsed := s.tb.ppsDelay, tb.refLost := false, tb.released := false, tb.qualified := false, tb.qualSeconds := 0
                         tb.history := 0, tb.outOfCapture := false
                         tb.acqPart := s.now % second != 0, tb.set := set }
      let s2 := s1.specials 0x05 true false (le code 1 ++ le label 1 ++ le ptp 1 ++ le synce 1)
      let o := s.tb.servo.code
      (if o = 1 then s2 else s2.specials 0x0C false false (le o 1 ++ le 1 1 ++ le (twos 32 s2.tb.phaseErr) 4)).ok []

/-- TIME_SET_PPS_DELAY (R62, R66, R67). (DEDUCED, unsafe: notes/assumptions/28.md) -/
def execTimeSetPpsDelay (dt : Nat) (path : Path) (delay : Nat) (s : State) : Out := s.run dt fun s =>
  s.tosenRun path 0x0203 1 false .any fun s _ =>
    if s.tb.stepping then s.deny 0x01000010
    else
      let v := delay % 2 ^ 32
      if v = s.tb.ppsDelay then s.ok []
      else
      let s1 := { s with tb.ppsDelay := v, tb.delayUsed := if s.tb.servo = Servo.holdover then s.tb.delayUsed else v, tb.qualified := false, tb.qualSeconds := 0, tb.history := 0 }
      (s1.specials 0x09 true false (le v 4)).ok []

/-- The grid point at which a step accepted now is applied (R59): the first at least 2^16 ns later. -/
def stepPoint (now : Nat) : Nat := ceilMult (now + ns 65536) (grid 10)

/-- TIME_STEP (R59). -/
def execTimeStep (dt : Nat) (path : Path) (kind : Nat) (value : Int) (frac : Nat) (s : State) : Out := s.run dt fun s =>
  s.tosenRun path 0x0204 3 false .any fun s _ =>
    let g := stepPoint s.now
    let t : Int := if kind = 0 then (g : Int) + value * 65536 + frac else value * 65536 + frac
    if kind > 1 ∨ frac ≥ 65536 then s.deny 0x03000011
    else if t = g then s.deny 0x03000011
    else if t < 0 ∨ t ≥ 2 ^ 80 then s.deny 0x03000011
    else if s.tb.stepping then s.deny 0x01000010
    else { s with tb.step := some { g := g, target := t.toNat, kind := kind } }.ok [nsOf g, nsOf t.toNat, fracOf t.toNat]

/-- TIME_SET_UTC (R61). (DESIGN CHOICE, unsafe: notes/assumptions/168.md) -/
def execTimeSetUtc (dt : Nat) (path : Path) (offset : Int) (s : State) : Out := s.run dt fun s =>
  s.tosenRun path 0x0205 1 false .any fun s _ =>
    if offset < -32768 ∨ offset > 32767 then s.deny 0x03000015
    else if offset = s.tb.utcOffset ∧ s.tb.leapState = 0 then s.ok []
    else { s with tb.utcNext := some offset, tb.utcAt := s.elapsed }.ok []

/-- TIME_LEAP_ANNOUNCE (R61). -/
def execTimeLeapAnnounce (dt : Nat) (path : Path) (dir : Int) (at_ : Nat) (s : State) : Out := s.run dt fun s =>
  s.tosenRun path 0x0206 2 false .any fun s _ =>
    if dir = 0 then
      if s.tb.leapNs = 0 then s.ok []
      else
        let s1 := { s with tb.leapNs := 0, tb.leapDir := 0, tb.leapState := 0 }
        (s1.specials 0x0B false false (le 0 1 ++ le s.tb.leapNs 8)).ok []
    else if dir ≠ 1 ∧ dir ≠ -1 then s.deny 0x03000012
    else if at_ % 1000000000 ≠ 0 ∨ ns at_ < s.now + ns (2 ^ 30) then s.deny 0x03000012
    else if s.tb.leapNs ≠ 0 then s.deny 0x02000012
    else if s.tb.leapState = 3 then s.deny 0x02000014
    else
      let s1 := { s with tb.leapNs := at_, tb.leapDir := dir, tb.leapState := if dir = 1 then 1 else 2 }
      (s1.specials 0x0B false false (le (twos 8 dir) 1 ++ le at_ 8)).ok []

/-- TIME_OUTPUT_CONFIG (R63, R66): effective at the next whole second. (DESIGN CHOICE, unsafe: notes/assumptions/174.md) -/
def execTimeOutputConfig (dt : Nat) (path : Path) (advance width ref10m tod lane0 div0 lane1 div1 : Nat) (s : State) : Out :=
  s.run dt fun s => s.tosenRun path 0x0207 8 false .any fun s _ =>
    let laneBad := fun (l : Nat) => l ≠ 0xFF ∧ l ≥ 24
    if advance ≥ 2 ^ 32 ∨ width < 1 ∨ width > 500 ∨ ref10m > 1 ∨ tod > 1 ∨ laneBad lane0 ∨ laneBad lane1 ∨ div0 > 1 ∨ div1 > 1 then
      s.deny 0x03000013
    else if (lane0 < 24 ∧ lane0 ≥ s.portCount) ∨ (lane1 < 24 ∧ lane1 ≥ s.portCount) then s.deny 0x02000011
    else
      let o : OutCfg := { advance := advance, width := width, ref10m := decide (ref10m = 1), tod := decide (tod = 1),
                          lane0 := min lane0 32, div0 := div0, lane1 := min lane1 32, div1 := div1 }
      { s with tb.outAt := nextMult s.now second, tb.outNext := some o }.ok []

/-- TIME_PTP_CONFIG (R50, R66). (PRESUMED, unsafe: notes/assumptions/30.md; DESIGN CHOICE, unsafe: notes/assumptions/174.md) -/
def execTimePtpConfig (dt : Nat) (path : Path) (profile domain transport receiver transmitters sync delay pdelay announce timeout : Nat)
    (asym : List Int) (s : State) : Out :=
  s.run dt fun s => s.tosenRun path 0x0208 34 false .any fun s _ =>
    let tx := (List.range 64).filter (fun p => transmitters.testBit p)
    let rateBad := fun (r : Nat) => r < 1 ∨ r > 128
    if profile > 2 ∨ domain > 255 ∨ transport > 2 ∨ (receiver > 23 ∧ receiver ≠ 0xFF) ∨ tx.length > 8 ∨ tx.any (fun p => p > 23)
      ∨ rateBad sync ∨ rateBad delay ∨ rateBad pdelay ∨ announce = 0 ∨ timeout = 0 then s.deny 0x03000014
    else if (receiver ≤ 23 ∧ receiver ≥ s.portCount) ∨ tx.any (fun p => p ≥ s.portCount) then s.deny 0x02000011
    else
      let c : PtpCfg := { profile := profile, domain := domain, transport := transport, receiver := min receiver 32
                          transmitters := tx, syncRate := sync, delayRate := delay, pdelayRate := pdelay, announceNs := announce
                          receiptTimeout := timeout, grandmaster := s.tb.ptp.grandmaster
                          asymmetry := (List.range 24).map (fun p => (p, asym.getD p 0)) }
      { s with tb.ptp := c, tb.ptps := { s.tb.ptps with sync := none, req := none, delay := none } }.ok []

/-- TIME_REF_RELEASE (R54, R56, R62). -/
def execTimeRefRelease (dt : Nat) (path : Path) (s : State) : Out := s.run dt fun s =>
  s.tosenRun path 0x0209 0 false .any fun s _ =>
    if s.tb.ref < 2 || s.tb.released then s.ok []
    else
      let s1 := { s with tb.set := none, tb.released := true }
      let s2 := s1.specials 0x06 true false (le s.tb.ref 1)
      (if s2.tb.servo = .holdover then s2 else s2.holdoverEntry).ok []

/-! Steps (R54, R59, R60). -/

/-- Records that a mode change at g wrote into the epoch just begun stand in the one that ends at g (R67, R92).
(DEDUCED, unsafe: notes/assumptions/39.md) -/
def Epoch.join (e f : Epoch) (keep : Bool) : Epoch :=
  let e1 := f.records.foldl (fun e r => e.record (fun n => r.take 12 ++ le n 2 ++ r.drop 14) keep) e
  { e1 with specials := e1.specials + f.specials, immediate := e1.immediate || f.immediate, final := e1.final || f.final }

/-- One chain at a step: the epoch ending at g closes if it has not, the record made by `args` is its last, an immediate
checkpoint ends at g, and the next epoch starts at g′. (DEDUCED, unsafe: notes/assumptions/39.md) -/
def State.stepChain (s : State) (d sub target : Nat) (args : Bytes) : State :=
  let c0 := s.chain d
  if !c0.isOpen then s
  else
    let s1 := if c0.epoch.openedAt < s.elapsed then s.closeEpoch d target else s
    let c := s1.chain d
    match c.closing.getLast? with
    | none => s1
    | some (e, due) =>
      let f := c.epoch
      let moved := f.specials > 0 && f.specials == f.count && f.records.length == f.count
      let e0 := if moved then e.join f true else e
      let e1 := e0.record (specialBytes s1.now s1.quality sub true args) (c.freeBytes ≥ 65536)
      let e2 := { e1 with specials := e1.specials + 1, immediate := true }
      let u := match due with
        | some u => { u with nextStart := target, kind := max u.kind 1 }
        | none => s1.mkDue d 1 e.stop target
      s1.setChain d { c with
        closing := c.closing.dropLast ++ [(e2, some u)]
        epoch := { (if moved then { c.epoch with acc := zeros 32, count := 0, records := [], specials := 0, immediate := false, final := false }
          else c.epoch) with start := target, short := target % grid 10 != 0 } }

/-- Interrupt moderation follows the grid of the new timeline (R60, R265). -/
def Ring.stepMod (r : Ring) (g target : Nat) : Ring := if r.modEnd ≤ g then r else { r with modEnd := ceilMult target (r.mod * grid 10) }

/-- The counter takes g′ after every chain has its record and checkpoint (R59). Grid points that a backward step repeats run again, and at a
forward step's own g′ no refill runs (R60, R195). A step in FREQ_ACQ leaves no whole evaluation second (R55).
(DEDUCED, unsafe: notes/assumptions/63.md) -/
def State.stepTo (s : State) (sub target : Nat) (args : Bytes) : State :=
  let s1 := (s.led.chains.map (·.1)).foldl (fun s d => s.stepChain d sub target args) s
  { s1.sluStep target with
    now := target
    tb.steps := satInc s1.tb.steps 255
    tb.freeEpoch := false
    tb.lines := (s1.elapsed, s1.now) :: s1.tb.lines
    tb.acqPart := if s1.tb.servo = .freqAcq then target % second != 0 else s1.tb.acqPart
    tb.outAt := if s1.tb.outNext.isSome then ceilMult target second else s1.tb.outAt
    tm.refilled := if s1.now < target then target + 1 else 0
    tm.sampled := 0
    tm.ended := 0
    ports.hb.served := 0
    pl.refilled := 0
    rdma.ccGrid := ceilDiv target (grid 16) - 1
    rings.rings := tmap s1.rings.rings (fun r => r.stepMod s1.now target)
    tm.queues := tmap s1.tm.queues (fun q => { q with hist := { q.hist with discont := true, short := true } })
    pl.cur.tables := tmap s1.pl.cur.tables (fun x => { x with swept := target }) }

/-- TIME_SET_APPLY (R54): due at the first grid point after the edge or Sync was evaluated. (DEDUCED, unsafe: notes/assumptions/26.md) -/
def execTimeSetApply (dt : Nat) (s : State) : Out := s.runTime dt fun s =>
  match s.tb.set with
  | some x =>
    match x.edge with
    | some e =>
      if s.now % grid 10 ≠ 0 || s.now ≤ e.1 then s
      else
        let target := (e.2 + (s.now - e.1)) % 2 ^ 80
        let s1 := { s with tb.set := none }
        s1.stepTo 0x03 target (le (nsOf target) 8 ++ le (fracOf target) 2 ++ le s.tb.ref 1)
    | none => s
  | none => s

/-- TIME_STEP_APPLY (R56, R59, R60). (DEDUCED, unsafe: notes/assumptions/26.md) -/
def execTimeStepApply (dt : Nat) (s : State) : Out := s.runTime dt fun s =>
  match s.tb.step with
  | some x =>
    if s.now ≠ x.g then s
    else
      let s1 := { s with tb.step := none }.stepTo 0x04 x.target (le (nsOf x.target) 8 ++ le (fracOf x.target) 2 ++ le x.kind 1)
      match s1.tb.servo with
      | .freeRun => { s1 with tb.ref := 1 }
      | .holdover => s1.setClass 3
      | _ => { s1 with tb.qualified := false, tb.qualSeconds := 0, tb.history := 0 }.setServo .phaseAcq
  | none => s

/-- UTC_OFFSET_APPLY (R61, R62). -/
def execUtcOffsetApply (dt : Nat) (s : State) : Out := s.run dt fun s =>
  match s.tb.utcNext with
  | some v =>
    if s.now % grid 10 ≠ 0 || s.elapsed ≤ s.tb.utcAt then s
    else
      let o := s.tb.utcOffset
      let l := s.tb.leapState
      let s1 := { s with tb.utcNext := none, tb.utcOffset := v, tb.leapState := if l = 3 then 0 else l }
      if o ≠ v || l = 3 then s1.specials 0x0A true false (le (twos 16 o) 2 ++ le (twos 16 v) 2 ++ le 0 1) else s1
  | none => s

/-- LEAP_APPLY (R61, R62): due when device time has reached t_L. -/
def execLeapApply (dt : Nat) (s : State) : Out := s.run dt fun s =>
  if s.tb.leapNs = 0 || s.now < ns s.tb.leapNs then s
  else
    let o := s.tb.utcOffset
    let v := o + s.tb.leapDir
    let s1 := { s with tb.utcOffset := v, tb.leapState := 0, tb.leapNs := 0, tb.leapDir := 0 }
    s1.specials 0x0A true false (le (twos 16 o) 2 ++ le (twos 16 v) 2 ++ le 1 1)

/-! Time outputs (R52, R63). -/

/-- PPS_OUT_EDGE (R63): due when the count is N × 10^9 − advance, with the settings in force. (DEDUCED, unsafe: notes/assumptions/31.md) -/
def execPpsOutEdge (dt : Nat) (s : State) : Out := s.run dt fun s =>
  let s := s.installOut
  let o := s.tb.out
  if !s.outputsRun || (s.now + o.advance) % second ≠ 0 then s
  else
    let n := (s.now + o.advance) / second
    let s1 := { s with tb.ppsHigh := true, tb.ppsFellAt := s.elapsed + ns (o.width * 1000000)
                       tb.lastSecond := n, tb.todDue := if o.tod then some (s.elapsed + ns 10000000, n) else none }
    let s2 := s1.emit (.pin .ppsOut true)
    if o.ref10m then s2.emit (.pin .ref10mOut true) else s2

/-- PPS_PULSE_END (R43, R63). -/
def execPpsPulseEnd (dt : Nat) (s : State) : Out := s.run dt fun s =>
  if !s.tb.ppsHigh || s.elapsed < s.tb.ppsFellAt then s
  else
    let s1 := { s with tb.ppsHigh := false }.emit (.pin .ppsOut false)
    if s1.glb.mode = .lockdown then s1.emit (.pin .ref10mOut false) else s1

/-- The time-of-day message (R52). -/
def todMessage (sec : Nat) (utc : Int) (leap q seq : Nat) : Bytes :=
  let body := le 0x01 1 ++ le 0x14 1 ++ le sec 8 ++ le (twos 16 utc) 2 ++ le leap 1 ++ le q 1 ++ le seq 2
  le 0xC3 1 ++ le 0x5E 1 ++ body ++ le (crc16 body) 2

/-- TOD_OUT_MESSAGE (R52, R63): due 10 ms after a PPS_OUT edge. (DEDUCED, unsafe: notes/assumptions/31.md) -/
def execTodOutMessage (dt : Nat) (s : State) : Out := s.run dt fun s =>
  match s.tb.todDue with
  | some x =>
    if !s.outputsRun || s.elapsed < x.1 then s
    else
      { s with tb.todDue := none, tb.todSeq := (s.tb.todSeq + 1) % 65536 }.emit
        (.tod (todMessage x.2 s.tb.utcOffset s.tb.leapState (s.qualityAt (x.1 - ns 10000000)) s.tb.todSeq))
  | none => s

/-- OSC_HOLD_PRESENCE_CHANGE (R46). -/
def execOscHoldPresenceChange (dt : Nat) (present : Bool) (s : State) : Out := s.run dt fun s => { s with tb.oscHold := present }

end Sys2Proof.Machine
end

