-- ==== Sys2Proof/Machine/Ports.lean ====
section
/-! DEFINITION. The rows of the port complex (R109-R137): link events, lane tests, the management port, flow control, heartbeats and the
commands of group 0x04. -/
namespace Sys2Proof.Machine

/-- The recovered clocks of a port's lanes end (R63). -/
def State.recClksOff (s : State) (p : Nat) : State :=
  (List.range (modeLanes (s.pt p).mode)).foldl (fun s i => s.recClkOff (p + i)) s

/-- What follows when a port leaves `UP` or its link: what it sends (`f`: the frame in progress), heartbeat checking, PTP, SyncE,
recovered clocks and, where it was `UP`, stored releases. -/
def State.portLeaves (s : State) (p : Nat) (down : Bool) (f : TxFrame → TxFrame) : State :=
  let s1 := (if s.portUp p then s.sluDown p else s).hbDown p |>.txEnds p f
  if !down then s1
  else
    let s2 := s1.recClksOff p
    let s3 := s2.synceLoss p
    if s3.tb.ptp.receiver = p then s3.ptpLoss else s3

/-- Auto-negotiation begins: the port advertises its configured mode and FEC (R114). -/
def State.advertise (s : State) (p : Nat) : State :=
  let x := s.pt p
  if x.state = .training && x.cfg.autoneg then s.emit (.mac p 0 [x.mode, x.fec]) else s

/-- A port that goes back from `UP` or `FAULT` to `TRAINING` (R115): a frame already started completes, a replica that goes through it
ends with the link (R157). -/
def State.linkDown (s : State) (p : Nat) (x1 : PortSt) (slip : Bool) : State :=
  let s1 := s.portLeaves p true (fun t => if t.thru then s.cutTx p t else t)
  let x := { x1 with state := .training, linkDowns := satInc x1.linkDowns 65535, tx := (s1.pt p).tx }
  ((s1.setPt p x).portEvent p (if slip then 9 else 2) []).advertise p

/-- Lost PCS or FEC lock, or an alignment slip (R71, R115). (DEDUCED, unsafe: notes/assumptions/42.md) -/
def State.lockLost (s : State) (p : Nat) (slip : Bool) : State :=
  let x := s.pt p
  let x1 := { x with localFault := true, anDone := false, calState := if slip then 1 else 0
                     slips := if slip then satInc x.slips 65535 else x.slips }
  match x.state with
  | .up => s.linkDown p x1 slip
  | .fault => s.linkDown p x1 slip
  | .calibrating => ((s.setPt p { x1 with state := .training }).recClksOff p).advertise p
  | .training => s.setPt p x1
  | .held => (s.setPt p x1).recClksOff p
  | _ => s

/-- PCS_ALIGN_LOCK (R114, R115): the Wellhead measures, auto-negotiation having ended where it runs; in `HELD` it does so without a change of state (R80, R115). -/
def execPcsAlignLock (dt port : Nat) (s : State) : Out := s.run dt fun s =>
  let x := s.pt port
  match x.state with
  | .training =>
    if x.cfg.autoneg && !x.anDone then s
    else (s.setPt port { x with state := .calibrating, calState := 1, localFault := false }).recClkOn port
  | .held => if x.calState = 2 then s else (s.setPt port { x with calState := 1, localFault := false }).recClkOn port
  | _ => s

/-- WELLHEAD_CAL_COMPLETE (R70, R115, R198): the measured link-up parts are in force and the release phase is set.
(DEDUCED, unsafe: notes/assumptions/42.md) -/
def execWellheadCalComplete (dt port linkRx linkTx : Nat) (s : State) : Out := s.run dt fun s =>
  let x := s.pt port
  let y := s.sluPort port
  let ph := phaseFor (startsPer32 x.mode) y.comp
  let x1 := { x with calState := 2, linkRx := linkRx, linkTx := linkTx, calRuns := satInc x.calRuns 65535 }
  let slu := { y with phase := ph, goal := ph, left := 0, settled := true }
  match x.state with
  | .calibrating =>
    (((s.setPt port { x1 with state := .up, linkUps := satInc x.linkUps 65535 }).setPhase port slu).hbCheck).portEvent port 1 []
  | .held => if x.calState = 1 then (s.setPt port x1).setPhase port slu else s
  | _ => s

/-- PCS_LOCK_LOSS (R115). -/
def execPcsLockLoss (dt port : Nat) (s : State) : Out := s.run dt fun s => s.lockLost port false

/-- ALIGNMENT_SLIP (R71, R115): found only while `CAL_STATE` is 2. -/
def execAlignmentSlip (dt port : Nat) (s : State) : Out := s.run dt fun s =>
  if (s.pt port).calState = 2 then s.lockLost port true else s

/-- REMOTE_FAULT_RECEIVED (R115). -/
def execRemoteFaultReceived (dt port : Nat) (s : State) : Out := s.run dt fun s =>
  let x := s.pt port
  match x.state with
  | .up =>
    let s1 := s.portLeaves port false (fun t => t)
    (s1.setPt port { s1.pt port with state := .fault, remoteFault := true }).portEvent port 3 []
  | .disabled => s
  | .dormant => s
  | _ => s.setPt port { x with remoteFault := true }

/-- FAULT_CLEAR (R115). (DEDUCED, unsafe: notes/assumptions/42.md) -/
def execFaultClear (dt port : Nat) (s : State) : Out := s.run dt fun s =>
  let x := s.pt port
  match x.state with
  | .fault => (s.setPt port { x with state := .up, remoteFault := false, localFault := false }).hbCheck
  | .disabled => s
  | .dormant => s
  | _ => s.setPt port { x with remoteFault := false, localFault := false }

/-- LOCAL_FAULT_DETECTED (R126, R129). -/
def execLocalFaultDetected (dt port : Nat) (s : State) : Out := s.run dt fun s =>
  let x := s.pt port
  match x.state with
  | .disabled => s
  | .dormant => s
  | _ => s.setPt port { x with localFault := true }

/-- AUTONEG_COMPLETE (R114, R126). -/
def execAutonegComplete (dt port : Nat) (s : State) : Out := s.run dt fun s =>
  let x := s.pt port
  if x.state = .training && x.cfg.autoneg then s.setPt port { x with anDone := true } else s

/-- AUTONEG_NO_COMMON_MODE (R114). -/
def execAutonegNoCommonMode (dt port : Nat) (s : State) : Out := s.run dt fun s =>
  let x := s.pt port
  if x.state = .training && x.cfg.autoneg then s.portEvent port 4 [] else s

/-- WAKE_PATTERN_DETECTED (R128): once per dormancy. -/
def execWakePatternDetected (dt port : Nat) (s : State) : Out := s.run dt fun s =>
  let x := s.pt port
  if x.state = .dormant && !x.wakeSeen then (s.setPt port { x with wakeSeen := true }).portEvent port 5 [] else s

/-- LANE_TEST_END (R137): the counts go into the command's reply.
(DEDUCED, unsafe: notes/assumptions/44.md; DESIGN CHOICE, unsafe: notes/assumptions/173.md) -/
def execLaneTestEnd (dt lane errors compared : Nat) (s : State) : Out := s.run dt fun s =>
  match s.ports.laneTests.find? (fun t => t.lane == lane && t.ends ≤ s.elapsed) with
  | none => s
  | some t => { s with ports.laneTests := s.ports.laneTests.erase t }.tosenLater t.path 0x0409 0 [errors, compared]

/-! The management port (R133, R134). -/

/-- MDIO_POLL (R127, R133, R420, R426): the PHY's resolved status; what deferred to carrier in half duplex is counted.
(DESIGN CHOICE, unsafe: notes/assumptions/47.md) -/
def execMdioPoll (dt : Nat) (up : Bool) (speed : Nat) (full : Bool) (deferred : Nat) (s : State) : Out := s.run dt fun s0 =>
  let m := s0.ports.mp
  let s := if m.up && m.half && deferred != 0 then s0.macBy 24 63 deferred else s0
  let sp := match m.fixed with
    | some f => f
    | none => (speed, full)
  let bad := up && sp.1 = 1000 && !sp.2
  let on := up && !bad
  let x := s.pt 24
  let x1 := if on && !m.up then { x with linkUps := satInc x.linkUps 65535 }
    else if !on && m.up then { x with linkDowns := satInc x.linkDowns 65535 } else x
  let s0 : State := if on || !m.up then s else { s.endSessions Session.onMp with tosen.partials := [] }
  let s1 : State := { s0.setPt 24 x1 with ports.mp := { m with up := on, speed := sp.1, half := !sp.2, refused := bad, tx := if on then m.tx else [], backoff := if on then m.backoff else none } }
  if bad && !m.refused then s1.portEvent 0xFF 4 [] else s1

/-- MP_COLLISION (R134): the frame in progress is jammed; one found more than a slot time of 512 bit times after transmission began, or on
the sixteenth attempt, is given up; any other waits a back-off. -/
def execMpCollision (dt jam : Nat) (s : State) : Out := s.run dt fun s =>
  let m := s.ports.mp
  let next := { m with attempts := 0, backoff := none, tx := m.tx.drop 1, begun := s.elapsed + (32 + 96) * mpBit m.speed }
  if !(m.up && m.half) || m.tx.isEmpty || m.backoff.isSome || s.elapsed < m.begun then s
  else
    let s1 := s.emit (.mac 24 1 [jam])
    let n := m.attempts + 1
    if s.elapsed > m.begun + 512 * mpBit m.speed then { s1 with ports.mp := next }.mac 24 61
    else if n ≥ 16 then { s1 with ports.mp := next }.mac 24 62
    else
      let r := s.freeBits (min n 10)
      { s1.used with ports.mp := { m with attempts := n, backoff := some (s.elapsed + 32 * mpBit m.speed + r * (512 * mpBit m.speed)) } }

/-- MP_BACKOFF_EXPIRY (R134): the frame is tried again, unless carrier is sensed. (DESIGN CHOICE, unsafe: notes/assumptions/47.md) -/
def execMpBackoffExpiry (dt : Nat) (carrier : Bool) (s : State) : Out := s.run dt fun s =>
  let m := s.ports.mp
  match m.backoff with
  | none => s
  | some e => if s.elapsed < e || carrier then s else { s with ports.mp := { m with backoff := none, begun := s.elapsed } }

/-! Flow control (R123, R124). -/

/-- PAUSE_TIMER_EXPIRY (R124): the priority is released, and its queues may be served again. -/
def execPauseTimerExpiry (dt port prio : Nat) (s : State) : Out := s.run dt fun s =>
  let x := s.pt port
  let t := nth x.pausedTo prio
  if t = 0 || s.elapsed < t then s
  else (s.setPt port { x with pausedTo := setNth x.pausedTo prio 0 }).syncSched port

/-- PFC_REFRESH (R123): the frame is repeated for the asserted priorities whose repeat is due and which are still above `XON_KIB`.
(DEDUCED, unsafe: notes/assumptions/45.md) -/
def execPfcRefresh (dt port : Nat) (s : State) : Out := s.run dt fun s =>
  let x := s.pt port
  let due := (List.range 8).filter (fun i => x.asserted.testBit i && nth x.refreshAt i ≤ s.elapsed && nth x.held i > nth x.pfc.xon i * 1024)
  if due.isEmpty || x.state ≠ .up then s
  else
    let next := s.elapsed + s.quanta port x.pfc.quanta / 2
    let times := (List.range 8).map (fun i => if due.contains i then x.pfc.quanta else 0)
    (s.setPt port { x with refreshAt := due.foldl (fun r i => setNth r i next) x.refreshAt }).pfcAsk port (due.foldl (fun e i => e + 2 ^ i) 0) times

/-! Heartbeats (R130-R132). -/

/-- A heartbeat for the grid point `g`, in ns, with the quality byte there (R130). -/
def State.heartbeat (s : State) (p g q : Nat) : Bytes :=
  let h := s.ports.hb
  let b := be h.dst 6 ++ be (s.pt p).cfg.mac 6 ++ be 0x88B5 2 ++ be 0x4842 2 ++ le 1 1 ++ le s.glb.mode.code 1 ++ be h.pair 2 ++ be h.seq 8
    ++ be g 8 ++ le q 1 ++ le (b2n h.heardLast) 1 ++ zeros 22
  b ++ le (fcs b) 4

/-- A heartbeat starts, or waits for the frame in progress and for a release that is due first (R131). (DEDUCED, unsafe: notes/assumptions/46.md) -/
def State.sendHeartbeat (s : State) (p g q : Nat) : State :=
  if s.lineFree p && s.holdOk p 64 then
    ({ s with ports.hb := { s.ports.hb with seq := (s.ports.hb.seq + 1) % 2 ^ 64, waiting := none } }).startTx p
      { data := s.heartbeat p g q, kind := 3 }
  else { s with ports.hb := { s.ports.hb with waiting := some (g, q) } }

/-- HEARTBEAT_SEND (R131): at a grid point of 102,400 ns, or for one whose heartbeat is still waiting. (DEDUCED, unsafe: notes/assumptions/46.md) -/
def execHeartbeatSend (dt : Nat) (s : State) : Out := s.run dt fun s =>
  match s.ports.hb.port with
  | none => s
  | some p =>
    if !s.portUp p || !s.glb.mode.heartbeats then s
    else match s.ports.hb.waiting with
      | some w => s.sendHeartbeat p w.1 w.2
      | none =>
        let g := nsOf s.now
        if s.now % ns 102400 ≠ 0 || s.ports.hb.served = g + 1 then s
        else { s with ports.hb := { s.ports.hb with served := g + 1 } }.sendHeartbeat p g s.quality

/-- HEARTBEAT_INTERVAL_SETTLE (R132): the oldest interval that counts, once it has ended. (DEDUCED, unsafe: notes/assumptions/46.md) -/
def execHeartbeatIntervalSettle (dt : Nat) (s : State) : Out := s.run dt fun s =>
  match s.ports.hb.port, s.ports.hb.checking with
  | some p, some k =>
    if s.now < (k + 1) * ns 102400 then s
    else
      let h := s.ports.hb
      let on := h.heard.contains k
      let h1 := { h with checking := some (k + 1), heard := h.heard.filter (fun i => i > k), heardLast := on
                         missed := if on then 0 else h.missed + 1 }
      if on then
        if h.lost then { s with ports.hb := { h1 with lost := false } }.portEvent p 7 [] else { s with ports.hb := h1 }
      else if h1.missed = 4 && !h.lost then { s with ports.hb := { h1 with lost := true } }.portEvent p 6 []
      else { s with ports.hb := h1 }
  | _, _ => s

/-! Commands of group 0x04 (R135, R136). -/

/-- The first check of every opcode that names a port or a lane (R136): a number above 23, then one absent on the order code. -/
def State.portCheck (s : State) (p : Nat) : Nat := if p > 23 then 0x03000045 else if p ≥ s.portCount then 0x02000041 else 0

/-- Whose permission a port's command needs; a number that names no port is left to the command's own check.
(DEDUCED, unsafe: notes/assumptions/44.md) -/
def portPerm (p : Nat) : Perm := if p < 24 then .port p else if p = 0xFF then .owner 0 else .any

/-- The same where the opcode takes no number but a data port's. (DEDUCED, unsafe: notes/assumptions/44.md) -/
def dataPerm (p : Nat) : Perm := if p < 24 then .port p else .any

/-- The conditions of R109 and R111 on a map that need no fuse: each mode's FEC, the alignment, no lane twice. -/
def mapShape (modes fecs : List Nat) : Bool :=
  (List.range 24).all (fun p => let k := modeLanes (nth modes p)
    modeFec (nth modes p) (nth fecs p) && (k == 0 || (p % k == 0 && p + k ≤ 24)) &&
      (List.range k).all (fun i => i == 0 || nth modes (p + i) == 0))

/-- Each lane of a map exists (R3), and the ports a multi-lane port takes carry its fuse record (R111). -/
def State.mapLanes (s : State) (modes : List Nat) : Bool :=
  (List.range 24).all (fun p => p + modeLanes (nth modes p) ≤ s.portCount || modeLanes (nth modes p) == 0)
def State.mapRecords (s : State) (modes : List Nat) : Bool :=
  (List.range 24).all (fun p => (List.range (modeLanes (nth modes p))).all (fun i =>
    s.portDom (p + i) == s.portDom p && s.portShared (p + i) == s.portShared p && s.portMask (p + i) == s.portMask p))

/-- A port the map affects (R112): `DISABLED` at once, its frame in progress truncated, then in its new mode with nothing paused.
(DEDUCED, unsafe: notes/assumptions/43.md) -/
def State.remap (s : State) (p mode fec : Nat) : State :=
  let s1 := s.portLeaves p true (s.cutTx p)
  let x := s1.pt p
  ((s1.setPt p { x with
    mode := mode, fec := fec, state := if mode = 0 then .disabled else .training, stopped := false, localFault := false, remoteFault := false
    anDone := false, wakeSeen := false, calState := 0, pausedTo := List.replicate 8 0, asserted := 0 }).syncSched p).advertise p

/-- PORT_MAP_SET (R111, R112, R136). (DEDUCED, unsafe: notes/assumptions/43.md; DESIGN CHOICE, unsafe: notes/assumptions/173.md) -/
def execPortMapSet (dt : Nat) (path : Path) (modes fecs : List Nat) (s : State) : Out := s.run dt fun s =>
  let wide := modes.any (fun m => m ≥ 16) || fecs.any (fun f => f ≥ 4)
  s.tosenRun path 0x0401 48 wide .any fun s _ =>
    if !mapShape modes fecs then s.deny 0x03000040
    else if !s.mapLanes modes then s.deny 0x02000041
    else if !s.mapRecords modes then s.deny 0x02000040
    else
      let hit := (List.range 24).filter (fun p => (s.pt p).mode != nth modes p || (s.pt p).fec != nth fecs p)
      let mask := fun (s : State) d => ((List.range 24).filter (fun p => s.portDom p == d && s.mapped p)).foldl (fun a p => a + 2 ^ p) 0
      let doms := (hit.map s.portDom).eraseDups
      let s1 := hit.foldl (fun s p => s.remap p (nth modes p) (nth fecs p)) s
      let s2 := doms.foldl (fun s2 d => s2.special1 d 0x10 false false (le (mask s d) 3 ++ le (mask s1 d) 3)) s1
      ((List.range 24).foldl (fun s p => if p < s.portCount then s.setPt p { s.pt p with given := true } else s) s2).ok []

/-- PORT_CONFIG (R117-R119, R122, R136). -/
def execPortConfig (dt : Nat) (path : Path) (port mac maxFrame append strip rxMode rxStrip stripTpid txInsert insertTpid tci autoneg : Nat)
    (s : State) : Out := s.run dt fun s =>
  let wide := mac ≥ 2 ^ 48 || stripTpid ≥ 65536 || insertTpid ≥ 65536 || tci ≥ 65536
  s.tosenRun path 0x0402 12 wide (dataPerm port) fun s _ =>
    let tp := fun t => t == 0x8100 || t == 0x88A8
    if port > 23 then s.deny 0x03000045
    else if maxFrame < 1522 || maxFrame > 9728 || append > 1 || strip > 1 || rxMode > 1 || rxStrip > 1 || txInsert > 2 || autoneg > 1
        || !tp stripTpid || !tp insertTpid then s.deny 0x03000041
    else if port ≥ s.portCount then s.deny 0x02000041
    else
      let x := s.pt port
      let c : PortCfg := { mac := mac, maxFrame := maxFrame, fcsAppend := append == 1, fcsStrip := strip == 1, fcsRx := rxMode == 1
                           rxStrip := rxStrip == 1, stripTpid := stripTpid, txInsert := txInsert, insertTpid := insertTpid, tci := tci
                           autoneg := autoneg == 1 }
      (s.setPt port { x with cfg := c, cfgLog := (s.elapsed, x.cfg) :: x.cfgLog }).ok []

/-- PORT_STATUS (R126, R136). -/
def execPortStatus (dt : Nat) (path : Path) (port : Nat) (s : State) : Out := s.run dt fun s =>
  s.tosenRun path 0x0403 1 false (portPerm port) fun s _ =>
    let p := if port = 0xFF then 24 else port
    if port > 23 && port ≠ 0xFF then s.deny 0x03000045
    else if p < 24 && p ≥ s.portCount then s.deny 0x02000041
    else s.ok ([s.macStatus p, s.macLanes p, s.macLinks p] ++ (List.range 64).map (fun i => nth (s.pt p).counters i))

/-- The bytes of a port held in its ingress reservation, by priority (R184). -/
def State.heldBytes (s : State) (p : Nat) (mode : Nat) : List Nat :=
  let fs := s.pl.frames ++ s.tm.queues.flatMap (fun (x : Nat × Queue) => x.2.frames.filter (fun f => f.heldIn))
  (fs.filter (fun f => f.port == p)).foldl (fun l f => let i := if mode = 1 then 0 else f.prio % 8
    setNth l i (nth l i + f.cells * 256)) (List.replicate 8 0)

/-- PORT_PFC_CONFIG (R123, R136). (DEDUCED, unsafe: notes/assumptions/45.md) -/
def execPortPfcConfig (dt : Nat) (path : Path) (port mode enable : Nat) (xoff xon : List Nat) (quanta : Nat) (s : State) : Out := s.run dt fun s =>
  s.tosenRun path 0x0404 20 (enable ≥ 256 || quanta ≥ 65536) (dataPerm port) fun s _ =>
    let c : PfcCfg := { mode := mode, enable := enable, xoff := xoff.take 8, xon := xon.take 8, quanta := quanta }
    let res := tget s.tm.ingRes port 256
    if port > 23 then s.deny 0x03000045
    else if mode > 2 || (List.range 8).any (fun i => c.tracked i && !(nth xon i < nth xoff i && nth xoff i ≤ res)) then s.deny 0x03000042
    else if port ≥ s.portCount then s.deny 0x02000041
    else
      let x := s.pt port
      let x1 := { x with pfc := c, held := s.heldBytes port mode, pausedTo := if mode = x.pfc.mode then x.pausedTo else List.replicate 8 0 }
      (((s.setPt port x1).pfcCheck port).syncSched port).ok []

/-- PORT_DORMANT (R115, R128, R136). -/
def execPortDormant (dt : Nat) (path : Path) (port : Nat) (s : State) : Out := s.run dt fun s =>
  s.tosenRun path 0x0405 1 false (dataPerm port) fun s _ =>
    if s.portCheck port ≠ 0 then s.deny (s.portCheck port)
    else
      let x := s.pt port
      match x.state with
      | .disabled => s.deny 0x02000042
      | .held => s.deny 0x02000042
      | .dormant => s.ok []
      | _ =>
        let s1 := s.portLeaves port true (s.cutTx port)
        (s1.setPt port { s1.pt port with state := .dormant, wakeSeen := false, calState := 0, anDone := false, localFault := false
                                         remoteFault := false }).ok []

/-- PORT_WAKE (R115, R136). -/
def execPortWake (dt : Nat) (path : Path) (port : Nat) (s : State) : Out := s.run dt fun s =>
  s.tosenRun path 0x0406 1 false (dataPerm port) fun s _ =>
    if s.portCheck port ≠ 0 then s.deny (s.portCheck port)
    else
      let x := s.pt port
      if x.state ≠ .dormant then s.deny 0x02000043
      else ((s.setPt port { x with state := .training, wakeSeen := false }).advertise port).ok []

/-- PORT_HEARTBEAT_CONFIG (R130-R132, R136). -/
def execPortHeartbeatConfig (dt : Nat) (path : Path) (port dst pair : Nat) (s : State) : Out := s.run dt fun s =>
  s.tosenRun path 0x0407 3 (dst ≥ 2 ^ 48 || pair ≥ 65536) .any fun s _ =>
    if port > 23 && port ≠ 0xFF then s.deny 0x03000045
    else if port ≠ 0xFF && port ≥ s.portCount then s.deny 0x02000041
    else
      let h : Heartbeat := { port := if port = 0xFF then none else some port, dst := dst, pair := pair, served := s.ports.hb.served }
      ({ s with ports.hb := h }.hbCheck).ok []

/-- PORT_MP_CONFIG (R133, R136): follow the PHY (1), or a fixed speed in Mb/s and full duplex (1) or half (0).
(DESIGN CHOICE, unsafe: notes/assumptions/172.md) -/
def execPortMpConfig (dt : Nat) (path : Path) (follow speed duplex : Nat) (s : State) : Out := s.run dt fun s =>
  s.tosenRun path 0x0408 3 false .any fun s _ =>
    if follow = 1 then { s with ports.mp := { s.ports.mp with fixed := none } }.ok []
    else if follow > 1 || duplex > 1 || !(speed = 10 || speed = 100 || speed = 1000) || (speed = 1000 && duplex = 0) then s.deny 0x03000043
    else { s with ports.mp := { s.ports.mp with fixed := some (speed, duplex = 1), speed := speed, half := duplex = 0 } }.ok []

/-- The port a lane belongs to: the one whose lanes hold it, or the port of its own number. (DEDUCED, unsafe: notes/assumptions/44.md) -/
def State.lanePort (s : State) (l : Nat) : Nat :=
  ((List.range 24).find? (fun p => p ≤ l && l < p + modeLanes (s.pt p).mode)).getD l

/-- PORT_LANE_TEST (R109, R136, R137): the rate in units of 0.01 Gb/s. The reply comes at the end of the test.
(DEDUCED, unsafe: notes/assumptions/44.md; DESIGN CHOICE, unsafe: notes/assumptions/173.md) -/
def execPortLaneTest (dt : Nat) (path : Path) (lane rate pattern loopback duration : Nat) (s : State) : Out := s.run dt fun s =>
  s.tosenRun path 0x0409 5 false .any fun s _ =>
    if lane > 23 then s.deny 0x03000045
    else if loopback > 1 || rate < 125 || rate > 11250 || pattern > 6 || (pattern = 6 && rate ≤ 2800) then s.deny 0x03000044
    else if lane ≥ s.portCount then s.deny 0x02000041
    else if (s.pt (s.lanePort lane)).state ≠ .disabled then s.deny 0x02000044
    else
      let t : LaneTest := { lane := lane, rate := rate, pattern := pattern, loop := loopback, ends := s.elapsed + duration * grid 20, path := path }
      (.later, { s with ports.laneTests := s.ports.laneTests ++ [t] })

end Sys2Proof.Machine
end

