-- ==== Sys2Proof/Machine/Tm.lean ====
section
/-! DEFINITION. The rows of the traffic manager: its grid events (R182-R192), queue changes, and the commands of group 0x06 (R194). -/
namespace Sys2Proof.Machine

/-! Sampling (R190-R192). -/

/-- Whether queue sampling runs: not in Lockdown, and in Drain until step 6 (R192). (DEDUCED, unsafe: notes/assumptions/63.md) -/
def State.sampling (s : State) : Bool :=
  s.firmware && s.glb.mode != .lockdown && s.glb.drainStep != .silent && s.glb.drainStep != .closed
    && (s.glb.drainStep != .faulting || s.elapsed < s.glb.drainT1 + grid 20)

/-- The bin of a value among seven rising limits. -/
def binOf (limits : List Nat) (v : Nat) : Nat := (limits.takeWhile (fun l => l ≤ v)).length
def depthBins : List Nat := [1024, 4096, 16384, 65536, 262144, 1048576, 4194304]
def delayBins : List Nat := [256, 1024, 4096, 16384, 65536, 262144, 1048576]

/-- Delay in ns of the frame at a queue's head: since its SFD stamp, or since its admission where it came from no port (R190). -/
def State.headDelay (s : State) (q : Nat) (x : Queue) : Option Nat :=
  let f : Option Frame := match x.frames with
    | f :: _ => some f
    | [] => (s.slu.store.find? (fun (r : Replica) => r.queue == q)).map (fun (r : Replica) => r.frame)
  f.map (fun (f : Frame) => if f.port < 24 then nsOf (s.now - f.feed.stamp) else nsOf (s.elapsed - f.admitted))

/-- One sample of a queue. -/
def State.sampleQueue (s : State) (q : Nat) (x : Queue) : Queue :=
  if !x.cfg.sample then x
  else
    let h := { x.hist with samples := x.hist.samples + 1 }
    match s.headDelay q x with
    | none => { x with hist := h }
    | some t =>
      let d := x.depth * 256
      let t := min t 0xFFFFFFFF
      { x with hist := { h with
          obs := h.obs + 1, maxDepth := max h.maxDepth d, maxDelay := max h.maxDelay t
          depth := h.depth.set (binOf depthBins d) (nth h.depth (binOf depthBins d) + 1)
          delay := h.delay.set (binOf delayBins t) (nth h.delay (binOf delayBins t) + 1) } }

/-- The samples of the present instant, once, where it is a 2^12 ns point. (DEDUCED, unsafe: notes/assumptions/63.md) -/
def State.sampleDue (s : State) : State :=
  if s.now % grid 12 ≠ 0 || s.tm.sampled = s.now + 1 || !s.sampling then s
  else { s with tm.queues := tmapK s.tm.queues s.sampleQueue, tm.sampled := s.now + 1 }

/-- QUEUE_SAMPLE (R190). (DESIGN CHOICE, unsafe: notes/assumptions/3.md) -/
def execQueueSample (dt : Nat) (s : State) : Out := s.run dt fun s => s.sampleDue

/-- A sample record (R191). -/
def sampleRecord (q d t quality : Nat) (h : Hist) (part : Bool) : Bytes :=
  le t 8 ++ le q 2 ++ le d 1 ++ le (b2n (h.obs == 0) + 2 * b2n h.discont + 4 * b2n (h.short || part) + 8 * b2n h.gap) 1 ++ le quality 1 ++ zeros 3
    ++ le h.samples 4 ++ le h.obs 4 ++ le h.maxDepth 4 ++ le h.maxDelay 4 ++ le h.drops 4 ++ le h.enqueued 4 ++ zeros 24
    ++ h.depth.flatMap (fun n => le n 4) ++ h.delay.flatMap (fun n => le n 4)

/-- The sampling ring of a domain: the ring of its lowest-numbered PF that feeds the sampling engine (R192). -/
def State.sampleRing (s : State) (d : Nat) : Option Nat :=
  (s.rings.rings.find? (fun (x : Nat × Ring) => fnOfKey x.1 == s.ledgerFn d && x.2.enable && x.2.engine == 7)).map (·.1)

/-- The buffer in use on a ring ends: its completion is written. -/
def State.bufferDone (s : State) (k i : Nat) : State :=
  let r := s.ring k
  let s1 := match r.chan with
    | some c => s.chanCount c 2 1
    | none => s
  ((s1.setRing k (r.onDesc i (fun d => { d with rc := true }))).descEnd k i 0).runs k

/-- One record put into the posted buffers of a domain's sampling ring, or lost for want of room (R192). -/
def State.putRecord (s : State) (d : Nat) (b : Bytes) : Bool × State :=
  match s.sampleRing d with
  | none => (false, s)
  | some k =>
    if s.mute (fnOfKey k) || (s.ring k).sumpFull then (false, s)
    else match (s.ring k).fetched.find? (fun x => !x.ended) with
      | none => (false, s)
      | some x =>
        let at_ := tget s.tm.filled d 0
        let s1 := (s.hostWr (fnOfKey k) (.hostWrite (fnOfKey k) (x.addr + at_) b)).setRing k
          ((s.ring k).onDesc x.idx (fun y => { y with started := true, wrote := some (x.addr + at_ + 127) }))
        let s1 := match (s1.ring k).chan with
          | some c => s1.chanCount c 1 128
          | none => s1
        if at_ + 256 > x.len then (true, { s1 with tm.filled := tdel s1.tm.filled d }.bufferDone k x.idx)
        else (true, { s1 with tm.filled := tset s1.tm.filled d (at_ + 128) })

/-- The records of a domain's sampled queues at the end of a period, after which the buffer in use completes (R190, R192).
(DEDUCED, unsafe: notes/assumptions/63.md) -/
def State.writeRecords (s : State) (d : Nat) (part : Bool) (t : Nat) : State :=
  let qs := s.tm.queues.filter (fun (x : Nat × Queue) => x.2.cfg.sample && s.queueDom x.1 == some d)
  let s1 := qs.foldl (fun s x =>
    let h := (s.queue x.1).hist
    let r := s.putRecord d (sampleRecord x.1 d t s.quality h part)
    let s1 := r.2.setQueue x.1 { r.2.queue x.1 with hist := { gap := !r.1 } }
    if r.1 then s1.tmCount 6 else (s1.tmCount 7).tmEvent x.1 d 5) s
  match s1.sampleRing d, tget? s1.tm.filled d with
  | some k, some _ =>
    match (s1.ring k).fetched.find? (fun x => !x.ended) with
    | some x => { s1 with tm.filled := tdel s1.tm.filled d }.bufferDone k x.idx
    | none => s1
  | _, _ => s1

/-- SAMPLE_PERIOD_END (R190): at each 2^20 ns point the periods that end there, after the sample of that point. A new `PERIOD_MULT` takes
over at the first multiple of its own period; a period it cuts short is partial. (DEDUCED, unsafe: notes/assumptions/63.md) -/
def execSamplePeriodEnd (dt : Nat) (s : State) : Out := s.run dt fun s =>
  if s.now % grid 20 ≠ 0 || !s.sampling || s.tm.ended = s.now + 1 then s
  else
    { s.sampleDue with tm.ended := s.now + 1 } |> s.doms.foldl (fun s d =>
      let t := s.tmDom d
      let ends := s.now % (t.periodMult * grid 20) = 0
      match t.periodNext with
      | some m =>
        if s.now % (m * grid 20) = 0 then (s.writeRecords d (!ends) s.ledgerNs).setTmDom d { t with periodMult := m, periodNext := none }
        else if ends then s.writeRecords d false s.ledgerNs else s
      | none => if ends then s.writeRecords d false s.ledgerNs else s)

/-! Buckets (R182, R183, R188). -/

/-- The instant a meter or shaper change accepted now takes effect (R183). -/
def State.changeAt (s : State) : Nat := ceilMult (s.now + ns 4) (grid 10)

/-- The changes of a meter that are due, installed in order and the buckets clamped; a first set fills them (R36). -/
def Meter.install (m : Meter) (now : Nat) : Meter :=
  let due := m.next.filter (fun x => x.1 ≤ now)
  due.foldl (fun m x =>
    let c := x.2.rates.cbs * 256
    let p := x.2.rates.pbs * 256
    { m with set_ := true, cfg := x.2, tc := if m.set_ then min m.tc c else c, tp := if m.set_ then min m.tp p else p })
    { m with next := m.next.filter (fun x => !(x.1 ≤ now)) }

def Queue.install (q : Queue) (now : Nat) : Queue :=
  let due := q.shNext.filter (fun x => x.1 ≤ now)
  due.foldl (fun q x =>
    let c : Int := x.2.2.cbs * 256
    let p : Int := x.2.2.pbs * 256
    { q with shMode := x.2.1, sh := x.2.2, sc := if q.shMode = 1 then min q.sc c else c, sp := if q.shMode = 1 then min q.sp p else p })
    { q with shNext := q.shNext.filter (fun x => !(x.1 ≤ now)) }

/-- One refill (R182, R188). -/
def Meter.refill (m : Meter) : Meter :=
  if !m.set_ then m
  else { m with tc := min (m.cfg.rates.cbs * 256) (m.tc + tokens m.cfg.rates.cir), tp := min (m.cfg.rates.pbs * 256) (m.tp + tokens m.cfg.rates.pir) }
def Queue.refill (q : Queue) : Queue :=
  if q.shMode = 0 then q
  else { q with sc := min (q.sh.cbs * 256 : Int) (q.sc + tokens q.sh.cir), sp := min (q.sh.pbs * 256 : Int) (q.sp + tokens q.sh.pir) }

/-- The band of every queue with frames brought up to date. -/
def State.syncShaped (s : State) : State :=
  (s.tm.queues.filter (fun (x : Nat × Queue) => !x.2.frames.isEmpty)).foldl (fun s x => s.sync x.1) s

/-- The changes due at a grid point of 2^10 ns installed (R24 step 4, R183). -/
def State.installDue (s : State) : State :=
  if s.now % grid 10 ≠ 0 then s
  else { s with tm.meters := tmap s.tm.meters (fun m => m.install s.now), tm.queues := tmap s.tm.queues (fun q => q.install s.now) }

/-- METER_CHANGE_APPLY (R183). -/
def execMeterChangeApply (dt : Nat) (s : State) : Out := s.run dt fun s =>
  if s.now % grid 10 ≠ 0 || s.glb.mode = .lockdown then s else s.sampleDue.installDue.syncShaped

/-- BUCKET_REFILL (R182, R24): after the sample of the same point and the changes due there. (DESIGN CHOICE, unsafe: notes/assumptions/3.md) -/
def execBucketRefill (dt : Nat) (s : State) : Out := s.run dt fun s =>
  if s.now % grid 10 ≠ 0 || s.tm.refilled = s.now + 1 || s.glb.mode = .lockdown then s
  else
    let s1 := s.sampleDue.installDue
    { s1 with tm.meters := tmap s1.tm.meters Meter.refill, tm.queues := tmap s1.tm.queues Queue.refill, tm.refilled := s1.now + 1 }.syncShaped

/-! Queue changes. -/

/-- A queue's new settings take effect: one that keeps its kind and destination keeps its place and its visit (R187), any other leaves the
lists of its old scheduler and joins those of the new one; a host-delivery queue that
changes kind or destination is attached anew (R275). -/
def State.applyQueue (s : State) (q : Nat) (c : QCfg) : State :=
  let x := s.queue q
  let stays := c.kind = x.cfg.kind && c.port = x.cfg.port && c.fn = x.cfg.fn && c.ring = x.cfg.ring
  let s1 := if stays then s else (s.setQueue q { x with frames := [] }).sync q
  let h : Hist := if c.sample && !x.cfg.sample then { short := true } else x.hist
  let s2 := s1.setQueue q { s1.queue q with cfg := c, frames := x.frames, deficit := if x.frames.isEmpty then 0 else x.deficit, hist := h }
  let same := c.kind = x.cfg.kind && c.fn = x.cfg.fn && c.ring = x.cfg.ring
  let s3 := if same && (tget? s2.dma.queueChan q).isSome then s2
    else
      let s3 := { s2 with dma.queueChan := tdel s2.dma.queueChan q }
      if c.kind ≠ 2 || c.ring = 0x3FF then s3
      else match s3.attach ((s3.queueDom q).getD 0) 1 with
        | some ch => { s3 with dma.queueChan := tset s3.dma.queueChan q ch }
        | none => s3
  s3.sync q

/-- Whether settings would move a queue that holds frames to another kind or destination (R194). -/
def State.queueHeld (s : State) (q : Nat) (c : QCfg) : Bool :=
  let x := s.queue q
  x.depth > 0 && (c.kind != x.cfg.kind || c.port != x.cfg.port || c.fn != x.cfg.fn || c.ring != x.cfg.ring)

/-- QUEUE_COMMIT (R194): the oldest change accepted commits, and its reply states the instant. A queue that has taken frames since the
acceptance keeps its kind and destination. -/
def execQueueCommit (dt : Nat) (s : State) : Out := s.run dt fun s =>
  match s.tm.pend with
  | [] => s
  | p :: rest =>
    let s1 := { s with tm.pend := rest }
    if s.queueHeld p.queue p.cfg then s1.tosenLater p.path 0x0603 0x02000073 []
    else (s1.applyQueue p.queue p.cfg).tosenLater p.path 0x0603 0 [s.ledgerNs]

/-! Commands (R194). -/

/-- Whose permission a queue's or a meter's command needs; one in no range is left to the command's own check. -/
def State.queuePerm (s : State) (q : Nat) : Perm := match s.queueDom q with
  | some d => .owner d
  | none => .any
def State.meterPerm (s : State) (m : Nat) : Perm := match s.meterDom m with
  | some d => .owner d
  | none => .any

/-- TM_METER_SET (R182, R183, R194). -/
def execTmMeterSet (dt : Nat) (path : Path) (meter cir pir cbs pbs aware : Nat) (lenAdjust : Int) (yellow red : Nat) (s : State) : Out := s.run dt fun s =>
  s.tosenRun path 0x0601 9 false (s.meterPerm meter) fun s _ =>
    let r : Rates := { cir := cir, pir := pir, cbs := cbs, pbs := pbs }
    if !r.good || aware > 1 || lenAdjust < -32 || lenAdjust > 63 || yellow > 1 || red > 1 then s.deny 0x03000070
    else if (s.meterDom meter).isNone then s.deny 0x02000070
    else
      let m := s.meter meter
      let c : MeterCfg := { rates := r, aware := aware == 1, lenAdjust := lenAdjust, yellowDrop := yellow == 1, redAdmit := red == 1 }
      (s.setMeter meter { m with next := m.next ++ [(s.changeAt, c)] }).ok [nsOf s.changeAt]

/-- TM_METER_READ (R194). (DEDUCED, unsafe: notes/assumptions/58.md) -/
def execTmMeterRead (dt : Nat) (path : Path) (meter : Nat) (s : State) : Out := s.run dt fun s =>
  s.tosenRun path 0x0602 1 false (s.meterPerm meter) fun s _ =>
    if (s.meterDom meter).isNone then s.deny 0x02000070
    else
      let m := s.meter meter
      let c := m.cfg
      s.ok ([c.rates.cir, c.rates.pir, c.rates.cbs, c.rates.pbs, b2n c.aware, twos 64 c.lenAdjust, b2n c.yellowDrop, b2n c.redAdmit, m.tc, m.tp]
        ++ m.counters)

/-- Sampled queues of a domain, changes accepted included. -/
def State.sampledCount (s : State) (d : Nat) : Nat :=
  let now := (s.tm.queues.filter (fun (x : Nat × Queue) => x.2.cfg.sample && s.queueDom x.1 == some d)).map (·.1)
  ((s.tm.pend.filter (fun p => p.cfg.sample && p.dom == d)).map (fun p => p.queue) ++ now).eraseDups.length

/-- TM_QUEUE_SET (R180, R185, R187, R194): `dest` is the port of kind 1 or the function of kind 2. (DEDUCED, unsafe: notes/assumptions/59.md) -/
def execTmQueueSet (dt : Nat) (path : Path) (queue kind dest ring tc quantum limG limY limR spill sample : Nat) (s : State) : Out := s.run dt fun s =>
  s.tosenRun path 0x0603 11 false (s.queuePerm queue) fun s _ =>
    let d := (s.queueDom queue).getD 0
    let f := fnOf dest
    let bad := kind > 3 || tc > 7 || quantum < 64 || quantum > 2 ^ 20 || limR < 1 || limR > limY || limY > limG || limG > 2 ^ 20 || spill > 1
      || sample > 1 || (kind = 1 && dest > 23) || (kind = 2 && ring > 1023)
    let x := s.queue queue
    let c : QCfg := { kind := kind, port := if kind = 1 then dest else 0, fn := if kind = 2 then f else 0, ring := if kind = 2 then ring else 0
                      tc := tc, quantum := quantum, limG := limG, limY := limY, limR := limR, spill := spill == 1, sample := sample == 1 }
    if bad then s.deny 0x03000071
    else if (s.queueDom queue).isNone || (kind = 1 && !(s.portIn dest d && dest < s.portCount)) || (kind = 2 && !(s.fnExists f && s.fnDom f == d)) then
      s.deny 0x02000071
    else if sample = 1 && !x.cfg.sample && s.sampledCount d ≥ s.sampleQuota d then s.deny 0x02000072
    else if s.queueHeld queue c then s.deny 0x02000073
    else (.later, { s with tm.pend := s.tm.pend ++ [{ path := path, queue := queue, cfg := c, dom := d }] })

/-- TM_QUEUE_READ (R194). The band reads 0 committed, 1 excess, 2 blocked by the shaper. (DEDUCED, unsafe: notes/assumptions/58.md) -/
def execTmQueueRead (dt : Nat) (path : Path) (queue : Nat) (s : State) : Out := s.run dt fun s =>
  s.tosenRun path 0x0604 1 false (s.queuePerm queue) fun s _ =>
    if (s.queueDom queue).isNone then s.deny 0x02000071
    else
      let x := s.queue queue
      let c := x.cfg
      let band := if x.shMode = 0 then 1 else if x.sc > 0 then 0 else if x.sp > 0 then 1 else 2
      s.ok ([c.kind, if c.kind = 2 then fnCode c.fn else c.port, c.ring, c.tc, c.quantum, c.limG, c.limY, c.limR, b2n c.spill, b2n c.sample,
             x.depth * 256, x.deficit, band, twos 64 x.sc, twos 64 x.sp] ++ x.counters)

/-- TM_SHAPER_SET (R188, R194). (DEDUCED, unsafe: notes/assumptions/59.md) -/
def execTmShaperSet (dt : Nat) (path : Path) (queue mode cir pir cbs pbs : Nat) (s : State) : Out := s.run dt fun s =>
  s.tosenRun path 0x0605 6 false (s.queuePerm queue) fun s _ =>
    let r : Rates := { cir := cir, pir := pir, cbs := cbs, pbs := pbs }
    if mode > 1 || (mode = 1 && !r.good) then s.deny 0x03000070
    else if (s.queueDom queue).isNone then s.deny 0x02000071
    else
      let x := s.queue queue
      (s.setQueue queue { x with shNext := x.shNext ++ [(s.changeAt, mode, r)] }).ok [nsOf s.changeAt]

/-- TM_SCHED_SET (R186, R194). (DEDUCED, unsafe: notes/assumptions/59.md) -/
def execTmSchedSet (dt : Nat) (path : Path) (sched lenAdjust : Nat) (quanta : List Nat) (s : State) : Out := s.run dt fun s =>
  s.tosenRun path 0x0606 18 false .any fun s _ =>
    if (sched > 23 && sched ≠ hostSched) || lenAdjust > 63 || quanta.any (fun q => q < 1536 || q > 2 ^ 20) then s.deny 0x03000072
    else if sched ≠ hostSched && sched ≥ s.portCount then s.deny 0x02000071
    else (s.setSched sched { s.sched sched with lenAdjust := some lenAdjust, quanta := (List.range 16).map (fun d => (d, nth quanta d)) }).ok []

/-- TM_BUFFER_SET (R123, R184, R194): lists of 24 ports and 16 domains. (DEDUCED, unsafe: notes/assumptions/59.md) -/
def execTmBufferSet (dt : Nat) (path : Path) (ing spout prio share spill : List Nat) (s : State) : Out := s.run dt fun s =>
  let wide := share.any (fun x => x ≥ 2 ^ 17) || spill.any (fun x => x ≥ 2 ^ 16)
  s.tosenRun path 0x0607 104 wide .any fun s _ =>
    let ports := List.range 24
    let lanes := fun p => modeLanes (s.pt p).mode > 0
    let bad := ports.any (fun p =>
      let i := nth ing p
      let r := nth spout p
      !(i % 16 == 0 && 16 ≤ i && i ≤ 4096 || i == 0 && !lanes p) || r % 16 != 0 || r > 256 || (r > 0 && !(s.pt p).lowLatency) || nth prio p > 7)
    let t := { s with
      tm.ingRes := ports.map (fun p => (p, nth ing p)), tm.spoutRes := ports.map (fun p => (p, nth spout p))
      tm.defPrio := ports.map (fun p => (p, nth prio p))
      tm.doms := (List.range 16).map (fun d => (d, { s.tmDom d with shareKib := some (nth share d), spillMib := nth spill d })) }
    let ceil := (List.range 16).any (fun d => match s.bufCeil d with
      | some c => nth share d > c
      | none => false)
    let low := ports.any (fun p => lanes p && (List.range 8).any (fun i => (s.pt p).pfc.tracked i && nth ing p < nth (s.pt p).pfc.xoff i))
    let more := ports.any (fun p => nth ing p < s.ingRes p && (s.heldBytes p 0).sum > nth ing p * 1024
        || nth spout p < s.spoutRes p && ((s.pl.spoutWait.filter (fun r => r.egress == p)).map (fun r => r.data.length)).sum > nth spout p * 1024)
      || (List.range 16).any (fun d => nth share d < s.shareKib d && s.cellsUsed d > nth share d * 4
        || nth spill d < (s.tmDom d).spillMib && s.spillUsed d > nth spill d * 4096)
    if bad then s.deny 0x03000073
    else if share.sum > t.sharedKib || ceil || low || !t.poolsOk then s.deny 0x02000074
    else if more then s.deny 0x01000070
    else (t.released s).ok []

/-- Slot `i` of the wheel, given the slots each domain holds so far (R189): to the domain whose next reserved slot falls due first, among those
whose next one may already stand here; 16 for none. (DESIGN CHOICE, unsafe: notes/assumptions/176.md) -/
def wheelSlot (slots got : List Nat) (i : Nat) : Nat :=
  ((List.range 16).filter (fun d => nth got d < nth slots d && nth got d * 1024 / nth slots d ≤ i)).foldl (fun a d =>
    if a = 16 || ceilDiv ((nth got d + 1) * 1024) (nth slots d) < ceilDiv ((nth got a + 1) * 1024) (nth slots a) then d else a) 16

/-- The wheel of 1,024 dispatch slots: each domain's reserved ones spaced as evenly as whole slots allow (R189): the j-th of r between slots
⌊1,024 j / r⌋ and ⌈1,024 (j + 1) / r⌉. (DESIGN CHOICE, unsafe: notes/assumptions/176.md) -/
def wheelOf (slots : List Nat) : List Nat :=
  ((List.range 1024).foldl (fun (a : List Nat × List Nat) i =>
    let d := wheelSlot slots a.2 i
    (d :: a.1, if d < 16 then a.2.set d (nth a.2 d + 1) else a.2)) ([], List.replicate 16 0)).1.reverse

/-- TM_SLOTS_SET (R189, R194). -/
def execTmSlotsSet (dt : Nat) (path : Path) (slots : List Nat) (s : State) : Out := s.run dt fun s =>
  s.tosenRun path 0x0608 16 false .any fun s _ =>
    if slots.sum > 1024 then s.deny 0x02000075
    else ((slots.zip (List.range 16)).foldl (fun (s : State) x => s.setTmDom x.2 { s.tmDom x.2 with slots := x.1 })
      { s with tm.wheel := wheelOf slots }).ok []

/-- TM_QUOTA (R180, R190, R194): bases and counts of the queue and meter ranges, and the sampled-queue quotas.
(DEDUCED, unsafe: notes/assumptions/58.md; DEDUCED, unsafe: notes/assumptions/59.md) -/
def execTmQuota (dt : Nat) (path : Path) (queues meters : List (Nat × Nat)) (sampled : List Nat) (s : State) : Out := s.run dt fun s =>
  s.tosenRun path 0x0609 80 false .any fun s _ =>
    let used := fun (t : Nat × Queue) => t.2.cfg.kind != 0 || t.2.depth > 0
    let move := fun (r : List (Nat × Nat)) n (o : Option Nat) => match o with
      | some d => !inRange (r.getD d (0, 0)) n
      | none => false
    if !rangesOk 32768 queues || !rangesOk 32768 meters
        || (s.tm.queues.filter used).any (fun (x : Nat × Queue) => move queues x.1 (s.queueDom x.1))
        || (s.tm.meters.filter (fun (x : Nat × Meter) => x.2.set_ || !x.2.next.isEmpty)).any (fun (x : Nat × Meter) => move meters x.1 (s.meterDom x.1)) then
      s.deny 0x02000076
    else ((List.range 16).foldl (fun (s : State) d => s.setTmDom d { s.tmDom d with
      queues := some (queues.getD d (0, 0)), meters := some (meters.getD d (0, 0)), sampled := some (nth sampled d) }) s).ok []

/-- TM_SAMPLE_CONFIG (R190, R194). -/
def execTmSampleConfig (dt : Nat) (path : Path) (mult : Nat) (s : State) : Out := s.run dt fun s =>
  s.tosenRun path 0x060A 1 false .any fun s d =>
    if mult < 1 || mult > 1024 then s.deny 0x03000074
    else (s.setTmDom d { s.tmDom d with periodNext := some mult }).ok []

/-- A domain's window of the TM block (R193): zero where the domain is not enabled. -/
def State.tmWindow (s : State) (d : Nat) : List Nat :=
  if !s.domOn d then [0, 0, 0, 0]
  else
    let t := s.tmDom d
    [s.shareKib d, ceilDiv (s.cellsUsed d) 4, t.spillMib + 65536 * ceilDiv (s.spillUsed d) 4096, t.slots + 65536 * t.periodMult]

/-- TM_STATUS (R193, R194). -/
def execTmStatus (dt : Nat) (path : Path) (dom : Nat) (s : State) : Out := s.run dt fun s =>
  s.tosenRun path 0x060B 1 false (.owner dom) fun s _ => s.ok (s.tmWindow dom ++ s.tm.counters)

end Sys2Proof.Machine
end

