-- ==== Sys2Proof/Machine/Transmit.lean ====
section
/-! DEFINITION. The rows of the transmit side (R75, R77, R120, R186, R196-R209, R260, R261): frames read from host rings, starts and ends on
the ports, host delivery, and the Sluice. -/
namespace Sys2Proof.Machine

/-! The Wellhead (R68-R75). -/

/-- The elapsed instant at which an SFD detected at elapsed instant `e` crossed the balls, with correction `sub`
on receive or `add` on transmit: the detection is captured in steps of 2^-4 ns (R68, R72, R74). (DEDUCED, safe: notes/assumptions/33.md) -/
def State.sfdAt (s : State) (e sub add : Nat) : Nat :=
  let det := s.stampAt e
  e + add - (det - capture det) - sub

/-- A port's counter of stamped events and its last stamp (R79). -/
def State.whTx (s : State) (p : Nat) (f : Feed) : State :=
  let x := s.pt p
  s.setPt p { x with txEvents := inc48 x.txEvents, lastTx := (f.stamp, f.quality), truncEvents := if f.trunc then inc48 x.truncEvents else x.truncEvents }

/-! Frames read from host rings (R202, R260). -/

/-- The frame of a job whose bytes are all there, admitted: on its queue, or as one replica for each port of its schedule entry. A frame that
cannot be admitted ends at once (R185, R202, R378). -/
def State.admitJob (s : State) (k : Nat) (j : TxJob) : State :=
  let r := s.ring k
  let s0 := s.setRing k { r with jobs := r.jobs.map (fun x => if x.first = j.first then { x with admitted := true, data := [] } else x) }
  let d := ((r.fetched.find? (fun d => d.idx == j.first)).getD {})
  let data := j.data.flatMap (fun x => x.2)
  let dom := s.fnDom (fnOfKey k)
  let base : Frame := { data := data, dom := dom, desc := some (k, j.first), wantMark := d.flags.testBit 1
                        tci := if d.flags.testBit 3 then some d.tci else none }
  if j.release then
    let e := j.entry
    let q0 := ofLe (slice e 12 2) % 32768
    j.ports.foldl (fun s p =>
      match s.espOut (q0 + p) p data with
      | (.error st, s1) => s1.txEnd k j.first p none 0 0 st
      | (.ok b, s1) => s1.admitReplica { base with data := b } (ofLe (slice e 0 8)) (ofLe (slice e 16 8)) p (q0 + p) (ofLe (slice e 14 2))
          ((e.getD 11 0).toNat.testBit 0) ((e.getD 11 0).toNat.testBit 1)) s0
  else
    let p := (s.queue d.queue).cfg.port
    match s0.espOut d.queue p data with
    | (.error st, s1) => s1.txEnd k j.first p none 0 0 st
    | (.ok b, s1) =>
      match s1.admitTo d.queue { base with data := b, meter := 0xFFFF } with
      | (true, s2) => s2
      | (false, s2) => s2.txEnd k j.first p none 0 0 2

/-- The jobs of a ring admitted in ring order, up to the first whose bytes are not all there; none while the completions' sump is full (R266). -/
def State.admitJobs (s : State) (k : Nat) : Nat → State
  | 0 => s
  | n + 1 =>
    match (s.ring k).jobs.find? (fun j => !j.admitted) with
    | none => s
    | some j => if s.sumpStops k then s else if j.read then (s.admitJob k j).admitJobs k n else s

/-- The bytes of one descriptor of a transmitted frame have come from host memory. -/
def State.txPiece (s : State) (k idx : Nat) (b : Bytes) : State :=
  let r := s.ring k
  match r.jobs.find? (fun j => (idx + 2 ^ 32 - j.first) % 2 ^ 32 < j.count) with
  | none => s
  | some j =>
    let data := tset j.data ((idx + 2 ^ 32 - j.first) % 2 ^ 32) b
    let j1 := { j with data := data, read := data.length = j.count }
    let s1 := s.setRing k { r with jobs := r.jobs.map (fun x => if x.first = j.first then j1 else x) }
    let s2 := match r.chan with
      | some c => s1.chanCount c 0 b.length
      | none => s1
    s2.admitJobs k (r.jobs.length + 1)

/-- A read of a transmitted frame failed (R327): the frame is not sent, and its descriptors end with the status. -/
def State.txPieceFail (s : State) (k idx st : Nat) : State :=
  let r := s.ring k
  match r.jobs.find? (fun j => (idx + 2 ^ 32 - j.first) % 2 ^ 32 < j.count) with
  | none => s
  | some j => if j.admitted then s else
    (j.ports.foldl (fun s p => s.txEnd k j.first p none 0 0 st) s).admitJobs k (r.jobs.length + 1)

/-- Data that has come for a read, put with what came before; all of it, once it is complete. -/
def State.gather (s : State) (r : HRead) (data : Bytes) : Option Bytes × State :=
  let got := r.got ++ data
  if got.length ≥ r.len then
    (some (got.take r.len), { s with pcie.reads := s.pcie.reads.filter (fun (x : HRead) => x.tag != r.tag) }.issueHeld)
  else (none, { s with pcie.reads := s.pcie.reads.map (fun (x : HRead) => if x.tag = r.tag then { x with got := got } else x) })

/-- TX_FRAME_READ_COMPLETE (R202, R260): data for a read of frame bytes. -/
def execTxFrameReadComplete (dt tag : Nat) (data : Bytes) (s : State) : Out := s.run dt fun s =>
  match s.pcie.reads.find? (fun (r : HRead) => r.tag == tag && r.what == 2) with
  | none => s
  | some r =>
    match s.gather r data with
    | (some b, s1) => if r.dead then s1 else s1.txPiece r.ring r.sub b
    | (none, s1) => s1

/-! Starts on the ports (R152, R186). -/

/-- The frame a port's scheduler sends next is started, unless something of higher precedence is due or the frame would run into a held
interval (R186, R203). -/
def State.startNext (s : State) (p : Nat) : State :=
  if !s.lineFree p || s.spoutDue p || (s.ports.hb.port = some p && s.ports.hb.waiting.isSome) || s.glb.mode = .lockdown then s
  else match s.pickDom p 65536 with
    | none => s
    | some (q, d, s1) =>
      match (s1.queue q).frames with
      | [] => s
      | f :: _ =>
        let s2 := s1.sendHead p d q
        let s3 := if f.heldIn then s2.unhold f else s2
        if f.bad then (s3.memDom f.dom 1).txLost f p 2
        else match s3.macFrame p f.data f.tci with
        | (none, s4) => s4.txLost f p 2
        | (some b, s4) => if s.holdOk p b.length then s4.startTx p { data := b, kind := 0, frame := f, queue := q } else s

/-- FRAME_TRANSMIT_START (R186). -/
def execFrameTransmitStart (dt port : Nat) (s : State) : Out := s.run dt fun s => s.startNext port

/-- Egress classification (R26, R88): the class of a frame of a host ring, a core or the RDMA engine that it marks for itemisation. What it
marks the spec leaves open. (DESIGN CHOICE, safe: notes/assumptions/175.md) -/
def TxFrame.egress (t : TxFrame) (p : Nat) : Option Nat :=
  if t.kind > 1 || t.frame.port < 32 then none else Config.egressClass p t.frame.dom t.data

/-- The first frame of a port's line has ended: its counters (R127), the feed to the Ledger (R75, R84), its itemisation (R26, R88, R206) and
its stamp report (R77); the next frame waiting for the line begins. -/
def State.txComplete (s : State) (p age : Nat) : State :=
  let x := s.pt p
  match x.tx with
  | [] => s
  | t :: rest =>
    let s0 := s.setPt p { x with tx := rest }
    let s1 := if t.aborted then s0.mac p 55 else if t.cut then s0 else if t.kind = 3 then s0.mac p 58 else s0.macSent p t.data
    let r := s1.ledgerFeed p 1 t.cut (s1.sfdAt (s1.elapsed - age) 0 t.cal) t.data.length t.data
    let s2 := r.1.whTx p r.2
    let g := t.egress p
    let want := t.frame.port ≥ 32 && (t.frame.wantMark || t.frame.notarise || g.isSome)
    let m := if want then s2.ledgerMark r.2 0 false (g.getD t.frame.cls) else (s2, 0)
    let s3 := match t.frame.desc with
      | some (k, first) => m.1.txEnd k first p (some (r.2.stamp, r.2.quality)) m.2 t.data.length 0
      | none => m.1
    let s4 := match t.ptp with
      | some (type, seq) => s3.ptpSent p type seq r.2.stamp
      | none => s3
    if rest.isEmpty || !s4.portUp p then s4 else s4.beginTx p

/-- TX_FRAME_COMPLETE (R75): `age` is the time since the frame's SFD was detected. -/
def execTxFrameComplete (dt port age : Nat) (s : State) : Out := s.run dt fun s => s.txComplete port age

/-! Host delivery (R76, R261). -/

/-- The receive record of a buffer (R261). -/
def rxRecord (f : Frame) (q bytes tag : Nat) (first last : Bool) : Bytes :=
  let fl := b2n first + 2 * b2n last + 4 * b2n f.tag.isSome + 8 * b2n f.fcsBad + 16 * b2n (f.item == 1) + 32 * b2n (f.item == 2)
  let tg := f.tag.getD (0, 0)
  le bytes 4 ++ le f.cls 2 ++ le fl 1 ++ le f.port 1 ++ be tg.1 2 ++ be tg.2 2 ++ le q 2 ++ le f.colour 1 ++ le 0 1 ++ le tag 4 ++ zeros 12

/-- The stamp block of a received frame (R76). -/
def Frame.block (f : Frame) : Bytes := stampBlock f.feed.stamp f.feed.quality f.port (blockFlags 0 f.item f.fcsBad false) f.feed.len

/-- Bytes of a frame placed in the posted buffers of its ring, in index order; where they run out, or the completions' sump is
full (R266 step 3), the frame waits at its channel. -/
def State.placeRx (s : State) (c : Nat) (w : RxWait) : Nat → State
  | 0 => s
  | n + 1 =>
    let k := w.ring
    let f := fnOfKey k
    match (if s.sumpStops k then none else (s.ring k).fetched.find? (fun d => !d.ended)) with
    | none => if s.sumpStops k then { s with dma.waits := tset s.dma.waits c w }.syncSched hostSched else ({ s with dma.waits := tset s.dma.waits c w }.ringCount f 2).syncSched hostSched
    | some d =>
      let part := w.data.take d.len
      let last := w.data.length ≤ d.len
      let slot := (s.ring k).slotAddr d.idx
      let s1 := (s.hostWr f (.hostWrite f d.addr part)).hostWr f (.hostWrite f slot (rxRecord w.frame w.queue part.length d.tag w.first last))
      let s2 := ((s1.chanCount c 1 part.length).chanCount c 2 1)
      let r := s2.ring k
      let s3 := s2.setRing k (r.onDesc d.idx (fun y => { y with
        wrote := some (slot + 31), filled := part.length, rc := last && r.rcEvery
        stamp := some (w.frame.feed.stamp, w.frame.feed.quality, w.frame.port) }))
      let s4 := (s3.descEnd k d.idx 0).runs k
      if last then s4 else s4.placeRx c { w with data := w.data.drop d.len, first := false } n

/-- A frame of a host-delivery queue taken by its engine: the RDMA engine's intake, or a receive ring by way of its channel, after ESP (R337, R378). -/
def State.deliver (s : State) (q : Nat) (f : Frame) : State :=
  let x := s.queue q
  if x.cfg.ring = 0x3FF then
    { s with rdma.intake := tset s.rdma.intake x.cfg.fn (tget s.rdma.intake x.cfg.fn [] ++ [f]) }
  else
    let e := if x.sa = some 0xFFFF then s.espIn ((s.queueDom q).getD f.dom) f.data else (some f.data, s)
    match e with
    | (none, s1) => s1
    | (some b, s1) =>
      match tget? s1.dma.queueChan q with
      | none => s1
      | some c =>
        let w : RxWait := { ring := rkey x.cfg.fn x.cfg.ring, queue := q, frame := f, data := f.block ++ b, first := true }
        s1.placeRx c w (b.length + 16)

/-- HOST_DELIVERY (R261): a frame that waits at its channel goes on once a buffer is posted; otherwise the host scheduler serves a queue. -/
def execHostDelivery (dt : Nat) (s : State) : Out := s.run dt fun s =>
  if s.glb.mode = .lockdown then s
  else match s.dma.waits.find? (fun (x : Nat × RxWait) => s.hasBuffer x.2.ring && !s.mute (fnOfKey x.2.ring)) with
  | some (c, w) => ({ s with dma.waits := tdel s.dma.waits c }.placeRx c w (w.data.length + 1)).syncSched hostSched
  | none =>
    match (s.syncSched hostSched).pickDom hostSched 65536 with
      | none => s
      | some (q, d, s1) =>
        match (s1.queue q).frames with
        | [] => s
        | f :: _ =>
          let s2 := s1.sendHead hostSched d q
          let s3 := if f.heldIn then s2.unhold f else s2
          (if f.bad then s3.memDom f.dom 1 else s3.deliver q f).syncSched hostSched

/-! The Sluice (R196-R209). -/

/-- SLUICE_HOLD_POINT (R203): from now on lower precedence must fit before the release; the rule is applied at each start.
(DEDUCED, safe: notes/assumptions/66.md) -/
def execSluiceHoldPoint (dt port : Nat) (s : State) : Out := s.run dt fun s => if port < 24 then s else s

/-- How far a marker group at a replica's start instant moves it (R205). -/
def State.markerShift (s : State) (r : Replica) : Nat := s.pastGroup r.port r.start - r.start

/-- Whether a stored replica loses a conflict against one that starts before it on the same port (R204): its start instant falls before the
other's last byte and gap. (DEDUCED, unsafe: notes/assumptions/65.md) -/
def State.loses (s : State) (r x : Replica) : Bool :=
  x.port == r.port && !x.late && r.before x && x.start < r.start + s.byteTime r.port (r.frame.data.length + 4 + 20)

/-- SLUICE_RELEASE (R199, R203-R205, R209): the start instant of a replica has come; `shift` is how far a marker group that covers it moves
it. A conflict is resolved first, and its losers are late. (DEDUCED, unsafe: notes/assumptions/65.md) -/
def execSluiceRelease (dt port shift : Nat) (s : State) : Out := s.run dt fun s =>
  if s.glb.mode = .lockdown then s
  else match s.dueReplica port with
    | none => s
    | some r =>
      let free := s.lineFree port && !s.pausedOn port (s.queue r.queue).cfg.tc
      if !s.portUp port then s.discardReplica r 7 2
      else if r.late then
        if r.lateSend then ((s.releaseReplica r).sluCount port 1).sluEvent port 2 r.tag r.target
        else (s.discardReplica r 2 2).sluEvent port 1 r.tag r.target
      else if !free then
        if r.lateSend then { s with slu.store := s.slu.store.map (fun x => if x = r then { r with late := true } else x) }
        else (s.discardReplica r 2 2).sluEvent port 1 r.tag r.target
      else if !r.shifted && shift ≠ s.markerShift r then s
      else if shift > 0 && !r.shifted then
        ({ s with slu.store := s.slu.store.map (fun x =>
            if x = r then { r with start := r.start + shift, shifted := true } else if s.loses r x then { x with late := true } else x) }.sluCount port 5).sluEvent
          port 6 r.tag r.target
      else s.releaseReplica r

/-- SLUICE_PHASE_STEP (R198): one step of 2^-6 ns of a move; the transmit correction follows it. (DEDUCED, unsafe: notes/assumptions/67.md) -/
def execSluicePhaseStep (dt port : Nat) (s : State) : Out := s.run dt fun s =>
  let y := s.sluPort port
  let n := startsPer32 (s.pt port).mode
  if y.left = 0 || s.elapsed < y.stepAt || n = 0 then s
  else
    let x := s.pt port
    let q := 2048 / n
    let ph := if y.up then modQ n (y.phase + 1) else if y.phase = 0 then q - 1 else y.phase - 1
    let s1 := s.setPt port { x with linkTx := (x.linkTx + (if y.up then 1024 else 2 ^ 32 - 1024)) % 2 ^ 32 }
    if y.left = 1 then (s1.setPhase port { y with phase := y.goal, left := 0, settled := true }).sluEvent port 5 0 0
    else s1.setPhase port { y with phase := ph, left := y.left - 1, stepAt := y.stepAt + grid 14 }

/-- SLUICE_COMP_SET (R196, R208): whole ns and fraction of C_p. -/
def execSluiceCompSet (dt : Nat) (path : Path) (port whole frac : Nat) (s : State) : Out := s.run dt fun s =>
  s.tosenRun path 0x0620 3 false (dataPerm port) fun s _ =>
    if port > 23 || whole ≥ 2 ^ 20 || frac ≥ 65536 then s.deny 0x03000080
    else if port ≥ s.portCount then s.deny 0x02000081
    else (.later, { s with slu.pend := s.slu.pend ++ [(path, port, whole * 65536 + frac)] })

/-- SLUICE_COMP_COMMIT (R198, R208): the oldest change accepted commits; on a calibrated port the phase begins its move. -/
def execSluiceCompCommit (dt : Nat) (s : State) : Out := s.run dt fun s =>
  match s.slu.pend with
  | [] => s
  | (path, p, comp) :: rest =>
    let n := startsPer32 (s.pt p).mode
    let y := { s.sluPort p with comp := comp, goal := phaseFor n comp }
    let y1 := if (s.pt p).calState = 2 && n ≠ 0 then y.move n s.elapsed else { y with phase := y.goal }
    let s1 := { s with slu.pend := rest }.setPhase p y1
    -- a move that the new goal ends at once (R198)
    (if y1.settled && !y.settled then s1.sluEvent p 5 0 0 else s1).tosenLater path 0x0620 0 [s.ledgerNs]

/-- SLU_PHASE (R207). -/
def State.sluPhase (s : State) (p : Nat) : Nat :=
  let y := s.sluPort p
  let n := startsPer32 (s.pt p).mode
  y.phase + 1024 * b2n y.settled + 65536 * (if n = 0 then 0 else 3200 / n)
/-- SLU_DOM (R207). -/
def State.sluDom (s : State) (d : Nat) : Nat := s.sluShare d + 65536 * s.sluUsed d
/-- SLUICE_STATUS (R207, R208). (DEDUCED, unsafe: notes/assumptions/65.md) -/
def execSluiceStatus (dt : Nat) (path : Path) (port : Nat) (s : State) : Out := s.run dt fun s =>
  s.tosenRun path 0x0621 1 false (dataPerm port) fun s _ =>
    if port > 23 then s.deny 0x03000081
    else if port ≥ s.portCount then s.deny 0x02000081
    else
      let y := s.sluPort port
      s.ok ([y.comp / 65536, y.comp % 65536, s.sluPhase port, s.nextMarker port] ++ y.counters ++ [s.sluDom (s.portOwner port)])

/-- SLUICE_QUOTA (R202, R208). -/
def execSluiceQuota (dt : Nat) (path : Path) (shares : List Nat) (s : State) : Out := s.run dt fun s =>
  s.tosenRun path 0x0622 16 false .any fun s _ =>
    if shares.sum > 16384 || (List.range 16).any (fun d => s.sluUsed d > nth shares d) then s.deny 0x02000080
    else { s with slu.shares := (List.range 16).map (fun d => (d, nth shares d)) }.ok []

end Sys2Proof.Machine
end

