-- ==== Sys2Proof/Machine/Items.lean ====
section
/-! DEFINITION. The rows of work items and cistern pages (R287-R292, R298-R305, R310): what threads take, retire and post, what the
Impeller delivers and moves, and the commands that set it up. -/
namespace Sys2Proof.Machine

/-! Instructions (R291). -/

/-- ITAKE (R291, R301). -/
def execItake (dt core thr word : Nat) (s : State) : Out := s.run dt fun s =>
  s.instrD core thr word 6 0 [wRs1 word] (wRd word) false fun s pc =>
    let h := s.reg core thr (wRs1 word)
    let x := s.thr core thr
    match tget? x.subs h with
    | none => s.coreFault core thr pc 5 word
    | some u =>
      if u.kind ≠ 1 || x.item.isSome then s.coreFault core thr pc 5 word
      else match u.unread with
        | [] => s.put core thr (wRd word) (statusVal 1)
        | k :: rest =>
          let here := some (core, thr, h, k)
          let who := s.rm.flows.filterMap (fun (f : Nat × Flow) => (f.2.out.find? (fun i => i.at_ == here)).map (fun i => (f.1, i.seq)))
          let s1 := who.foldl (fun s w => s.setFlow w.1
            { s.flow w.1 with out := (s.flow w.1).out.map (fun i => if i.at_ = here then { i with taken := true } else i) }) s
          let item := who.head?.map (fun w => (w.1, w.2, h, k))
          (s1.setThr core thr { x with subs := tset x.subs h { u with unread := rest, read := u.read ++ [k] }, item := item }).put core thr
            (wRd word) (u.region + 32 * k)

/-- IRETIRE (R291, R301): the record and the buffer are freed, and a marker before which nothing is left retires. -/
def execIretire (dt core thr word : Nat) (s : State) : Out := s.run dt fun s =>
  s.instrD core thr word 6 1 [] 0 false fun s pc =>
    let x := s.thr core thr
    match x.item with
    | none => s.coreFault core thr pc 5 word
    | some (k, seq, h, slot) =>
      let f := s.flow k
      let mine := fun (i : Item) => i.seq == seq && i.taken && i.onThr core thr
      let subs := match tget? x.subs h with
        | some u => tset x.subs h { u with read := u.read.filter (fun r => r != slot) }
        | none => x.subs
      let s1 := (s.setThr core thr { x with item := none, subs := subs }).setFlow k { f with out := f.out.filter (fun i => !mine i) }
      let s2 := (f.out.filter mine).foldl (fun s i => s.dropBuf (flowDom k) i.buf) s1
      (s2.retireMarker k).retryHeld

/-- The class of a flow: as it stands, or that of the Sump queue whose flows it is among; else 0. (DEDUCED, unsafe: notes/assumptions/96.md) -/
def State.classOf (s : State) (d n : Nat) : Nat := match tget? s.rm.flows (flowKey d n) with
  | some f => f.cls
  | none => ((s.rm.sumps.find? (fun (q : Nat × SumpCfg) => s.queueDom q.1 == some d && q.2.base ≤ n && n < q.2.base + 2 ^ q.2.log2)).map
      (fun q => q.2.cls)).getD 0

/-- Whether a flow has room for one more item, and a context for itself (R293, R298). -/
def State.flowRoom (s : State) (d n : Nat) : Bool :=
  let k := flowKey d n
  (s.flow k).depth < (s.fclass d (s.classOf d n)).depth && ((tget? s.rm.flows k).isSome || s.ctxRoom 2 d)

/-- IPOST (R291, R298). -/
def execIpost (dt core thr word : Nat) (s : State) : Out := s.run dt fun s =>
  s.instrD core thr word 6 2 [wRs1 word, wRs2 word] (wRd word) false fun s pc =>
    let n := s.reg core thr (wRs1 word)
    let d := s.cdom core
    if n ≥ s.flowRange d then s.coreFault core thr pc 5 word
    else if !s.flowRoom d n then s.put core thr (wRd word) (statusVal 1)
    else (s.put core thr (wRd word) 0).addItem (flowKey d n) (s.classOf d n) { seq := 0, word := s.reg core thr (wRs2 word) }

/-- The lowest run of `n` free pages of a domain from page `lo` below page `hi`. -/
def freeRun (n hi lo : Nat) : List (Nat × Nat) → Option Nat
  | [] => if lo + n ≤ hi then some lo else none
  | (p, k) :: r => if p + k ≤ lo then freeRun n hi lo r else if lo + n ≤ min p hi then some lo else freeRun n hi (p + k) r

/-- A range put in the list of mapped ranges. -/
def mapRange : List (Nat × Nat) → Nat × Nat → List (Nat × Nat)
  | [], m => [m]
  | a :: r, m => if m.1 < a.1 then m :: a :: r else a :: mapRange r m

/-- A range taken out of the list of mapped ranges. -/
def unmapRange (l : List (Nat × Nat)) (p n : Nat) : List (Nat × Nat) :=
  l.flatMap (fun m =>
    let before := if m.1 < p then [(m.1, min m.2 (p - m.1))] else []
    let after := if p + n < m.1 + m.2 then [(max m.1 (p + n), m.1 + m.2 - max m.1 (p + n))] else []
    before ++ after)

/-- PGALLOC (R291, R292): the pages read zero. (DEDUCED, unsafe: notes/assumptions/92.md) -/
def execPgalloc (dt core thr word : Nat) (s : State) : Out := s.run dt fun s =>
  s.instrD core thr word 6 8 [wRs1 word] (wRd word) true fun s pc =>
    let v := s.reg core thr (wRs1 word)
    let n := v % 2048
    let d := s.cdom core
    let x := s.rmDom d
    let high := bit v 31
    if n = 0 || n > 1024 then s.coreFault core thr pc 5 word
    else if x.usedPages + n > x.dataPages || s.freePages < n then (s.pageEvent d 0 4 0).put core thr (wRd word) (statusVal 5)
    else match freeRun n (if high then 0x100000 else 0xF000) (if high then 0x10000 else 0) x.mapped with
      | none => s.put core thr (wRd word) (statusVal 6)
      | some p =>
        let s1 := (s.setRmDom d { x with mapped := mapRange x.mapped (p, n) }).zero (cisternAt d (p * pageSize)) (n * pageSize)
        (s1.dataLevel d).put core thr (wRd word) (p * pageSize)

/-- PGFREE (R291, R292): the pages are unmapped at once and zeroed before they are free. -/
def execPgfree (dt core thr word : Nat) (s : State) : Out := s.run dt fun s =>
  s.instrD core thr word 6 9 [wRs1 word, wRs2 word] 0 true fun s pc =>
    let a := s.reg core thr (wRs1 word)
    let n := s.reg core thr (wRs2 word)
    let d := s.cdom core
    let x := s.rmDom d
    let p := a / pageSize
    let own := n ≤ 0x100000 && (unmapRange x.mapped p n).foldl (fun t m => t + m.2) n == x.usedPages
    if a % pageSize ≠ 0 || !own then s.coreFault core thr pc 5 word
    else if n = 0 then s
    else
      let s1 := s.setRmDom d { x with mapped := unmapRange x.mapped p n }
      { s1 with rm.zeroing := s1.rm.zeroing ++ [(d, p, n)] }.dataLevel d

/-! The Impeller (R298-R305). -/

/-- Whether the Impeller serves (R305): not in Lockdown, nor once Drain has reached t1. -/
def State.impOn (s : State) : Bool := s.firmware && s.glb.mode != .lockdown &&
  (s.glb.mode != .drain || s.glb.drainStep == .none || s.glb.drainStep == .draining)

/-- The flow of a frame from a Sump queue (R299). -/
def SumpCfg.flow (c : SumpCfg) (b : Bytes) : Nat :=
  let key := c.ranges.flatMap (fun r => slice (b.take 128) r.1 r.2)
  c.base + crc32c 0xFFFFFFFF key % 2 ^ c.log2

/-- The Sump queue of a domain whose turn it is: the first after the one last served that has a frame. (DEDUCED, unsafe: notes/assumptions/98.md) -/
def State.sumpTurn (s : State) (d : Nat) : Option Nat :=
  let qs := (s.tm.queues.filter (fun (q : Nat × Queue) => s.queueDom q.1 == some d && q.2.cfg.kind == 3 && !q.2.frames.isEmpty
    && (tget? s.rm.sumps q.1).isSome)).map (·.1)
  match qs.find? (fun q => q > (s.rmDom d).rr) with
  | some q => some q
  | none => qs.head?

/-- A frame taken off a Sump queue. -/
def State.sumpPop (s : State) (q : Nat) (f : Frame) : State :=
  let x := s.queue q
  let s1 := s.setQueue q { x with frames := x.frames.drop 1, counters := bumpBy (bump x.counters 7) 8 f.data.length }
  if f.heldIn then s1.unhold f else s1

/-- The first drop at a full flow in a grid period is reported (R298). -/
def State.flowFull (s : State) (k : Nat) : State :=
  let f := s.flow k
  let period := s.now / grid 20
  let s1 := s.rmCount (flowDom k) 11 1
  if f.fullPeriod = some period then s1
  else
    let s2 := if (tget? s1.rm.flows k).isSome then s1.setFlow k { f with fullPeriod := some period } else s1
    s2.impEvent (flowDom k) (flowNum k) 2

/-- SUMP_ITEM_CREATE (R298, R299, R378): a frame of an `ESP_IN` queue is decrypted as it is copied. (DEDUCED, unsafe: notes/assumptions/98.md) -/
def execSumpItemCreate (dt dom : Nat) (s : State) : Out := s.run dt fun s =>
  if !s.impOn then s
  else match s.sumpTurn dom with
    | none => s
    | some q => match s.freeBuf dom, (s.queue q).frames with
      | none, _ => s.pageEvent dom 0 5 1
      | _, [] => s
      | some b, f :: _ =>
        let c := (tget? s.rm.sumps q).getD { cls := 0, base := 0, log2 := 0, ranges := [] }
        let n := c.flow f.data
        let s0 := (s.sumpPop q f).setRmDom dom { s.rmDom dom with rr := q }
        let e := if (s.queue q).sa = some 0xFFFF then s0.espIn dom f.data else (some f.data, s0)
        let s1 := e.2
        if f.bad then s0.memDom dom 1
        else if !s1.flowRoom dom n then s1.flowFull (flowKey dom n)
        else e.1.elim s1 fun bytes =>
          let body := f.block ++ bytes
          let s2 := (s1.setRmDom dom { s1.rmDom dom with bufs := (s1.rmDom dom).bufs ++ [b] }).itemLevel dom
          let s3 := s2.store (cisternAt dom (itemBase + 16384 * b)) body
          s3.addItem (flowKey dom n) c.cls { seq := 0, buf := some b, len := body.length, word := nsOf f.feed.stamp, queue := q }

/-- ITEM_DELIVERY (R301): the next item for a thread; a flow whose context is absent waits for its fetch (R296). -/
def execItemDelivery (dt core thr : Nat) (s : State) : Out := s.run dt fun s =>
  let s := s.releaseAll
  let x := s.thr core thr
  if !s.impOn || (s.core core).state ≠ .running || !x.live || x.state = .halted then s
  else match s.turnFor core thr with
    | none => s
    | some k => match s.nextFor k core thr, x.recordSub (s.flow k).cls with
      | some i, some h =>
        let r := s.ctxNeed (ctxKey 2 (flowDom k) (flowNum k))
        if r.1 then r.2.deliverItem k core thr i h else r.2
      | _, _ => s

/-- The undelivered items of a placement's flows of a class (R303). -/
def State.flowBacklog (s : State) (d cls : Nat) (p : Nat × Nat) : Nat :=
  (s.rm.flows.map (fun (f : Nat × Flow) => if flowDom f.1 = d && f.2.cls = cls && f.2.place = some p then f.2.items.length else 0)).sum

/-- The flow of a placement with the most undelivered items, its hand-over complete. -/
def State.fullest (s : State) (d cls : Nat) (p : Nat × Nat) : Option Nat :=
  ((s.rm.flows.filter (fun (f : Nat × Flow) => flowDom f.1 == d && f.2.cls == cls && f.2.place == some p && f.2.hand.isNone && f.2.due.isEmpty)).foldl
    (fun (a : Option (Nat × Nat)) (f : Nat × Flow) => match a with
      | some b => if f.2.items.length > b.2 then some (f.1, f.2.items.length) else a
      | none => some (f.1, f.2.items.length)) none).map (·.1)

/-- A flow moved to a placement (R248). -/
def State.moveFlow (s : State) (k : Nat) (p : Nat × Nat) : State :=
  let f := s.flow k
  (s.setFlow k { f.mark (f.place.getD p) s.now with place := some p, migrated := true }).retireMarker k

/-- One class of a domain rebalanced (R303). -/
def State.rebalance (s : State) (d cls : Nat) : State :=
  let c := s.fclass d cls
  if !c.rebalance then s
  else
    let ps := s.threads.filter (s.eligible d cls)
    let src := (ps.filter (fun p => s.flowBacklog d cls p ≥ c.high)).foldl (fun (a : Option (Nat × Nat)) p => match a with
      | some b => if s.flowBacklog d cls p > s.flowBacklog d cls b then some p else a
      | none => some p) none
    match src with
    | none => s
    | some p =>
      match s.fullest d cls p, s.fewest (ps.filter (fun q => q != p && s.flowBacklog d cls q ≤ c.low)) with
      | some k, some q => s.moveFlow k q
      | _, _ => s

/-- REBALANCE (R303): at a 2^20 ns grid point, once. -/
def execRebalance (dt : Nat) (s : State) : Out := s.run dt fun s =>
  let g := s.now / grid 20
  if !s.impOn || g ≤ s.rm.rebalanced then s
  else (s.doms.flatMap (fun d => (List.range 8).map (fun c => (d, c)))).foldl (fun s x => s.rebalance x.1 x.2) { s with rm.rebalanced := g }

/-! Commands (R310). -/

/-- IMP_CLASS_SET (R300, R310): of the issuing domain. -/
def execImpClassSet (dt : Nat) (path : Path) (cls inflight depth reissue rebalance high low : Nat) (s : State) : Out := s.run dt fun s =>
  s.tosenRun path 0x0720 7 false .any fun s d =>
    if cls ≥ 8 || reissue > 1 || rebalance > 1 || inflight = 0 || inflight > 16 || depth = 0 || depth > 4096 || high = 0 || high > 65535 || low = 0 || low > 65535 || low ≥ high then
      s.deny 0x030000E0
    else (s.setFclass d cls
      { s.fclass d cls with
        inflight := inflight, depth := depth, refuse := reissue == 1, rebalance := rebalance == 1, high := high, low := low }).ok []

/-- IMP_QUEUE_SET (R299, R310). -/
def execImpQueueSet (dt : Nat) (path : Path) (q cls f k : Nat) (ranges : List (Nat × Nat)) (s : State) : Out := s.run dt fun s =>
  s.tosenRun path 0x0721 (5 + 2 * ranges.length) false (s.queuePerm q) fun s _ =>
    let d := (s.queueDom q).getD 0
    if cls ≥ 8 || k > 12 || ranges.length > 4 || ranges.any (fun r => r.1 + r.2 > 128) || f + 2 ^ k > s.flowRange d then s.deny 0x030000E1
    else if (s.queueDom q).isNone || (s.queue q).cfg.kind ≠ 3 then s.deny 0x020000E0
    else { s with rm.sumps := tset s.rm.sumps q { cls := cls, base := f, log2 := k, ranges := ranges } }.ok []

/-- The flow a command names: of the issuing domain, or for TD0 its domain above bit 20. (DESIGN CHOICE, unsafe: notes/assumptions/97.md) -/
def cmdFlow (d v : Nat) : Nat := if d = 0 then flowKey (v / 2 ^ 20 % 16) (v % 2 ^ 20) else flowKey d v
/-- Whose command a flow's is. -/
def flowPerm (v : Nat) : Perm := if v ≥ 2 ^ 20 then .owner (v / 2 ^ 20 % 16) else .any

/-- IMP_MIGRATE (R303, R305, R310). -/
def execImpMigrate (dt : Nat) (path : Path) (flow core thr : Nat) (s : State) : Out := s.run dt fun s =>
  s.tosenRun path 0x0722 3 (flow ≥ 2 ^ 24) (flowPerm flow) fun s d =>
    let k := cmdFlow d flow
    let f := s.flow k
    if s.coreDom core != some (flowDom k) || thr ≥ 8 || (s.core core).state ≠ .running || !(s.thr core thr).live || !(s.thr core thr).covers f.cls then
      s.deny 0x020000E1
    else if f.hand.isSome || !f.due.isEmpty then s.deny 0x010000E0
    else if (tget? s.rm.flows k).isNone || f.place = some (core, thr) then s.ok []
    else (s.moveFlow k (core, thr)).ok []

/-- IMP_FLOW_STATUS (R310). (DESIGN CHOICE, unsafe: notes/assumptions/97.md) -/
def execImpFlowStatus (dt : Nat) (path : Path) (flow : Nat) (s : State) : Out := s.run dt fun s =>
  s.tosenRun path 0x0723 1 (flow ≥ 2 ^ 24) (flowPerm flow) fun s d =>
    let f := s.flow (cmdFlow d flow)
    let p := f.place.getD (0xFF, 0xFF)
    let a := f.hand.getD (0xFF, 0xFF)
    s.ok [p.1, p.2, f.cls, f.items.length, f.out.length, f.stored, b2n f.hand.isSome, a.1, a.2, f.nextSeq]

/-- IMP_QUOTA (R306, R310): flow range and hand-over share of each of the 16 domains. -/
def execImpQuota (dt : Nat) (path : Path) (quotas : List (Nat × Nat)) (s : State) : Out := s.run dt fun s =>
  s.tosenRun path 0x0724 32 false .any fun s _ =>
    let on := quotas.zipIdx.filter (fun r => s.domOn r.2)
    let leaves := s.rm.flows.any (fun (f : Nat × Flow) => !on.any (fun r => r.2 == flowDom f.1 && flowNum f.1 < r.1.1))
    if (on.map (fun r => r.1.1)).sum > 1048576 || (on.map (fun r => r.1.2)).sum > 8192 || leaves then s.deny 0x020000E2
    else (on.foldl (fun s r => s.setRmDom r.2 { s.rmDom r.2 with flows := some r.1.1, handover := some r.1.2 }) s).ok []

end Sys2Proof.Machine
end

