-- ==== Sys2Proof/Machine/Rm.lean ====
section
/-! DEFINITION. The rows of the pools and the context pager (R287-R297, R306-R309), but for what a fetch or a write-back returns. -/
namespace Sys2Proof.Machine

/-- PAGE_ZEROED (R289, R456): the first page of those released is free, or retired. (DEDUCED, unsafe: notes/assumptions/148.md) -/
def execPageZeroed (dt : Nat) (s : State) : Out := s.run dt fun s =>
  match s.rm.zeroing with
  | [] => s
  | (d, p, n) :: rest =>
    let s1 : State := { s with rm.zeroing := if n ≤ 1 then rest else (d, p + 1, n - 1) :: rest }
    match s1.mem.marked.find? (fun m => p < 2 ^ 20 && m.1 == dataPageKey d p) with
    | some m => { s1 with mem.marked := s1.mem.marked.erase m, mem.retired := s1.mem.retired ++ [m.2] }
    | none => s1

/-- CISTERN_QUOTA (R288, R289, R309). -/
def execCisternQuota (dt : Nat) (path : Path) (dom data item ctx : Nat) (s : State) : Out := s.run dt fun s =>
  s.tosenRun path 0x0801 4 (dom ≥ 16) .any fun s _ =>
    let x := s.rmDom dom
    let s1 := s.setRmDom dom { x with dataPages := data, itemMib := item, ctxPages := ctx }
    let top := (s.memCeil dom).getD s.pagesTotal
    if !s.domOn dom || data > top || item > 256 || ctx ≥ 2 ^ 22 then s.deny 0x030000D0
    else if !s1.poolsOk then s.deny 0x020000D0
    else if x.usedPages > data || x.bufs.any (fun b => b ≥ item * 64) || s.backUsed dom > ctx * 256 then s.deny 0x010000D0
    else ((((s1.released s).dataLevel dom).itemLevel dom).backRise dom).ok []

/-- A domain's window of R308; it reads zero while the domain is not enabled. -/
def State.rmWindow (s : State) (d : Nat) : List Nat :=
  if !s.domOn d then List.replicate 20 0
  else
    let x := s.rmDom d
    [x.dataPages, x.usedPages, x.itemMib + 4096 * (x.itemMib * 64 - x.bufs.length), x.ctxPages, s.qpLines d + 65536 * s.otherLines d,
     s.missPkts d + 16384 * s.missKib d, s.flowRange d, s.handShare d + 65536 * s.heldOf d] ++ x.counters

/-- CISTERN_STATUS (R308, R309). -/
def execCisternStatus (dt : Nat) (path : Path) (dom : Nat) (s : State) : Out := s.run dt fun s =>
  s.tosenRun path 0x0802 1 (dom ≥ 16) (.owner dom) fun s d =>
    s.ok (s.rmWindow dom ++ (if d = 0 then [s.pagesTotal, s.freePages] else []))

/-- Contexts of a domain pinned in the lines of type `t`. -/
def State.pinned (s : State) (d t : Nat) : Nat := ((s.ctxsOf d t).filter (fun c => c.2.pinned)).length

/-- Lines beyond a domain's shares given up (R294). (DEDUCED, unsafe: notes/assumptions/94.md) -/
def State.shrink (s : State) (d t : Nat) : State :=
  let n := ((s.ctxsOf d t).filter (fun c => c.2.place == 0)).length
  (List.range (n - s.lines d t)).foldl (fun s _ => s.evict d t) s

/-- CTX_SHARE (R306, R309): queue-pair lines, other lines, miss packets and miss KiB of each of the 16 domains. -/
def execCtxShare (dt : Nat) (path : Path) (shares : List (List Nat)) (s : State) : Out := s.run dt fun s =>
  s.tosenRun path 0x0803 64 false .any fun s _ =>
    let on := (shares.zipIdx.filter (fun (r : List Nat × Nat) => s.domOn r.2))
    let sum := fun i => (on.map (fun (r : List Nat × Nat) => nth r.1 i)).sum
    let pins := on.any (fun (r : List Nat × Nat) => s.pinned r.2 1 * 4 > nth r.1 0 || s.pinned r.2 2 * 4 > nth r.1 1)
    if sum 0 > 16384 || sum 1 > 49152 || sum 2 > 4096 || sum 3 > 8192 || pins then s.deny 0x020000D1
    else (on.foldl (fun s (r : List Nat × Nat) =>
      let s1 := s.setRmDom r.2
        { s.rmDom r.2 with
          qpLines := some (nth r.1 0), otherLines := some (nth r.1 1), missPkts := some (nth r.1 2), missKib := some (nth r.1 3) }
      (((s1.shrink r.2 1).shrink r.2 2).missLevel r.2)) s).ok []

/-- CTX_BACKING_SET (R293, R309): of the issuing domain. (DEDUCED, unsafe: notes/assumptions/95.md) -/
def execCtxBackingSet (dt : Nat) (path : Path) (type addr entries : Nat) (s : State) : Out := s.run dt fun s =>
  s.tosenRun path 0x0804 3 (type = 0 || type > 3) .any fun s d =>
    if badAddr path addr || addr ≥ 2 ^ 63 then s.deny 0x03000F02
    else if addr % 4096 ≠ 0 || entries = 0 then s.deny 0x030000D1
    else if s.rm.ctxs.any (fun (c : Nat × Ctx) => ctxDom c.1 == d && ctxType c.1 == type) then s.deny 0x020000D2
    else (s.setRmDom d { s.rmDom d with homes := tset (s.rmDom d).homes type (addr, entries) }).ok []

/-- CTX_PIN (R294, R309): of the issuing domain; answered once the context is resident. (DEDUCED, unsafe: notes/assumptions/95.md) -/
def execCtxPin (dt : Nat) (path : Path) (type ctx pin : Nat) (s : State) : Out := s.run dt fun s =>
  s.tosenRun path 0x0805 3 (type > 3 || ctx ≥ 2 ^ 26 || pin ≥ 2) .any fun s d =>
    let k := ctxKey type d ctx
    if pin = 1 && !(s.ctx? k).any (fun x => x.pinned) && !s.pinRoom d type then s.deny 0x020000D3
    else match s.ctx? k with
    | none => s.deny 0x020000D4
    | some x =>
      if pin = 0 then (s.setCtx k { x with pinned := false }).ok []
      else if x.place = 0 then (s.setCtx k { x with pinned := true }).ok []
      else
        let s1 := s.setCtx k { x with pinned := true, waiting := some path }
        (.later, s1.ctxFetch k)

end Sys2Proof.Machine
end

