-- ==== Sys2Proof/Machine/RdmaOps.lean ====
section
/-! DEFINITION. RoCEv2 packets and the requester (R335-R352, R356): their form on the wire, the requests of a queue pair, sending, go-back-N,
and the ends of requests. -/
namespace Sys2Proof.Machine

/-! Packets (R335, R338; Annex A17). -/

/-- How far one PSN lies after another, modulo 2^24. -/
def psnDiff (a b : Nat) : Nat := (a + 2 ^ 24 - b % 2 ^ 24) % 2 ^ 24

/-- A base transport header: opcode, solicited event, pad count, destination QPN, acknowledgement request, PSN.
(PRESUMED, unsafe: notes/assumptions/108.md) -/
def bth (op : Nat) (se : Bool) (pad dqpn : Nat) (ack : Bool) (psn : Nat) : Bytes :=
  le op 1 ++ le (128 * b2n se + 16 * pad) 1 ++ be 0xFFFF 2 ++ le 0 1 ++ be dqpn 3 ++ le (128 * b2n ack) 1 ++ be psn 3

/-- The one's complement checksum of an IPv4 header. -/
def ipSum (h : Bytes) : Nat :=
  let s := ((List.range (h.length / 2)).map (fun i => ofBe (slice h (2 * i) 2))).sum
  let f := s % 65536 + s / 65536
  65535 - (f % 65536 + f / 65536)

/-- The ICRC of a packet: its fields that the network may change count as ones. (PRESUMED, unsafe: notes/assumptions/108.md) -/
def icrc (v4 : Bool) (ip udp body : Bytes) : Nat :=
  let m := if v4 then (((ip.set 1 0xFF).set 8 0xFF).set 10 0xFF).set 11 0xFF
    else ((((ip.set 0 0x6F).set 1 0xFF).set 2 0xFF).set 3 0xFF).set 7 0xFF
  fcs (List.replicate 8 0xFF ++ m ++ (udp.set 6 0xFF).set 7 0xFF ++ body.set 4 0xFF)

/-- Whether an address of 128 bits is an IPv4-mapped one. -/
def isMapped (a : Nat) : Bool := a / 2 ^ 32 == 0xFFFF

def State.qp? (s : State) (n : Nat) : Option Qp := tget? s.rdma.qps n
def State.setQp (s : State) (n : Nat) (q : Qp) : State := { s with rdma.qps := tset s.rdma.qps n q }
/-- A counter of R365, higher by one; a counter of a queue pair. -/
def State.rdmaCount (s : State) (i : Nat) : State := { s with rdma.counters := bump s.rdma.counters i }
def Qp.bump (q : Qp) (i : Nat) : Qp := { q with counters := q.counters.set i (inc48 (nth q.counters i)) }

/-- A packet of a queue pair on the wire, without its FCS: `body` begins with the BTH. (PRESUMED, unsafe: notes/assumptions/108.md) -/
def State.roceFrame (s : State) (q : Qp) (body : Bytes) : Bytes :=
  let a := q.attr
  let sip := (tget s.rdma.gids (a.port * 16 + a.gid) (0, 0)).1
  let ecn := if a.ecn then 2 else 0
  let n := 8 + body.length + 4
  let udp := be a.sport 2 ++ be 4791 2 ++ be n 2 ++ be 0 2
  let v4 := isMapped a.dip
  let h4 := [0x45] ++ le (a.dscp * 4 + ecn) 1 ++ be (20 + n) 2 ++ be 0 2 ++ be 0x4000 2 ++ le a.hop 1 ++ le 17 1 ++ be 0 2
    ++ be (sip % 2 ^ 32) 4 ++ be (a.dip % 2 ^ 32) 4
  let ip := if v4 then h4.take 10 ++ be (ipSum h4) 2 ++ h4.drop 12
    else be (6 * 2 ^ 28 + (a.dscp * 4 + ecn) * 2 ^ 20 + a.label) 4 ++ be n 2 ++ le 17 1 ++ le a.hop 1 ++ be sip 16 ++ be a.dip 16
  be a.dmac 6 ++ be (s.pt a.port).cfg.mac 6 ++ be (if v4 then 0x0800 else 0x86DD) 2 ++ ip ++ udp ++ body ++ le (icrc v4 ip udp body) 4

/-- A packet of a queue pair put on its transmit queue (R338), green and without a meter. -/
def State.rdmaSend (s : State) (n : Nat) (body : Bytes) (psn : Nat) : State :=
  match s.qp? n with
  | none => s
  | some q =>
    let s1 := s.rdmaCount 1
    (s1.admitTo q.queue { data := s1.roceFrame q body, dom := q.dom, meter := 0xFFFF, tci := q.attr.vlan, rdma := some (n, psn) }).2

/-! Events (R361). -/

/-- An event record: at most one per QP, cause and period, with the occurrences since the last. -/
def State.rdmaEvent (s : State) (fn n cause syndrome key va : Nat) : State :=
  let period := s.now / grid 20
  let mine := fun (e : RdmaEv) => e.fn == fn && e.qp == n && e.cause == cause
  let old := (s.rdma.events.find? mine).getD { period := period + 1, fn := fn, qp := n, cause := cause }
  let rest := s.rdma.events.filter (fun e => !mine e)
  if old.period = period then { s with rdma.events := rest ++ [{ old with count := old.count + 1 }] }
  else match tget? s.rdma.eventRings fn with
    | none => s.rdmaCount 15
    | some k =>
      let data := le 0 4 ++ le 5 1 ++ le (s.fnDom fn) 1 ++ le cause 1 ++ le syndrome 1 ++ le n 3 ++ le 0 1 ++ le key 4 ++ le va 8
        ++ le (min (old.count + 1) 65535) 2 ++ le s.ledgerNs 6
      if (s.ring k).holdsKind 5 then { s with rdma.events := rest ++ [{ old with count := old.count + 1 }] }
      else { s with rdma.events := rest ++ [{ old with period := period, count := 0 }] }.post k { data := data }

/-! Ends of requests (R342, R348, R349). -/

/-- A request ends with a status: its descriptor, or the storage engine's request. -/
def State.reqEnd (s : State) (r : RReq) (st : Nat) : State := match r.owner with
  | .ring k i => (s.descEnd k i st).runs k
  | .stor c t => { s with stor.ended := s.stor.ended ++ [(c, t, st, r.data)] }

/-- The receive buffer that a half-received message has taken ends. (DEDUCED, unsafe: notes/assumptions/110.md) -/
def State.endMsg (s : State) (n st : Nat) : State :=
  match s.qp? n with
  | none => s
  | some q => match q.msg.bind (fun m => m.buf) with
    | some i => ((s.setQp n { q with msg := none }).descEnd q.recvRing i st).runs q.recvRing
    | none => s.setQp n { q with msg := none }

/-- Every request of a queue pair ends: the oldest with `first`, the others with `rest`. -/
def State.endAll (s : State) (n first rest : Nat) : State :=
  match s.qp? n with
  | none => s
  | some q =>
    let s1 := s.setQp n { q with reqs := [], timer := none, rnrAt := none, sendPsn := q.nextPsn, ackPsn := q.nextPsn }
    (q.reqs.zipIdx.foldl (fun s r => s.reqEnd r.1 (if r.2 = 0 then first else rest)) s1)

/-- A queue pair enters `ERROR` (R342): its oldest request ends with a status, and the cause is reported.
(DEDUCED, unsafe: notes/assumptions/110.md) -/
def State.qpError (s : State) (n st cause : Nat) : State :=
  match s.qp? n with
  | none => s
  | some q =>
    let s1 := (s.setQp n { q with state := .error, resps := [], ackAt := none, unacked := 0 }).endMsg n (if cause = 5 then 0x29 else 0x20)
    (s1.endAll n st (if cause = 5 then 0x29 else 0x20)).rdmaEvent q.fn n cause 0 0 0

/-! The requester (R344, R345, R349, R352). -/

/-- Whether a request is answered by responses: READ and the atomics. -/
def RReq.answers (r : RReq) : Bool := r.op == 4 || r.op == 5 || r.op == 6
/-- Whether a request sends local data. -/
def RReq.sends (r : RReq) : Bool := r.op < 4 && r.len > 0
/-- How many PSNs a request takes. -/
def RReq.count (r : RReq) (mtu : Nat) : Nat := if r.op ≤ 4 then max 1 (ceilDiv r.len mtu) else 1

/-- The part of a message at packet `i` of `n`: 0 first, 1 middle, 2 last, 3 only. -/
def partOf (i n : Nat) : Nat := if n = 1 then 3 else if i = 0 then 0 else if i + 1 = n then 2 else 1

/-- The BTH opcode of a packet of a SEND or WRITE. -/
def sendOp (op part : Nat) : Nat :=
  let base := if op < 2 then 0 else 6
  let imm := op % 2 == 1
  base + (match part with
    | 0 => 0
    | 1 => 1
    | 2 => if imm then 3 else 2
    | _ => if imm then 5 else 4)

def reth (va key len : Nat) : Bytes := be va 8 ++ be key 4 ++ be len 4

/-- Packet `i` of a request (R345; Volume 1). (PRESUMED, unsafe: notes/assumptions/108.md) -/
def RReq.packet (r : RReq) (q : Qp) (i : Nat) : Bytes :=
  let mtu := q.attr.mtu
  let n := r.psns
  let psn := (r.first.getD 0 + i) % 2 ^ 24
  let part := partOf i n
  let last := part ≥ 2
  let d := q.attr.dqpn
  match r.op with
  | 4 => bth 0x0C r.solicited 0 d true psn ++ reth (r.va + i * mtu) r.rkey (r.len - i * mtu)
  | 5 => bth 0x13 r.solicited 0 d true psn ++ be r.va 8 ++ be r.rkey 4 ++ be r.op2 8 ++ be r.op1 8
  | 6 => bth 0x14 r.solicited 0 d true psn ++ be r.va 8 ++ be r.rkey 4 ++ be r.op1 8 ++ be 0 8
  | 7 => bth 0x1C r.solicited 0 d true psn ++ be (r.flushType % 4 + 16 * (r.flushType / 4)) 4 ++ reth r.va r.rkey r.len
  | 8 => bth 0x1D r.solicited 0 d true psn ++ reth r.va r.rkey 8 ++ le r.op1 8
  | _ =>
    let b := (r.data.drop (i * mtu)).take mtu
    let pad := (4 - b.length % 4) % 4
    bth (sendOp r.op part) (r.solicited && last) pad d last psn
      ++ (if r.op ≥ 2 && i = 0 then reth r.va r.rkey r.len else []) ++ (if r.op % 2 = 1 && last then le r.imm 4 else []) ++ b ++ zeros pad

/-- Request packets sent and not acknowledged (R352): a READ is one. -/
def Qp.unackedPkts (q : Qp) : Nat :=
  (q.reqs.map (fun r => match r.first with
    | none => 0
    | some f =>
      let sent := min r.psns (psnDiff q.sendPsn f)
      let acked := if psnDiff q.ackPsn f < 2 ^ 23 then min r.psns (psnDiff q.ackPsn f) else 0
      if psnDiff q.sendPsn f ≥ 2 ^ 23 then 0 else if r.op = 4 then b2n (sent > acked) else sent - acked)).sum

/-- READs and atomics outstanding. -/
def Qp.readsOut (q : Qp) : Nat := (q.reqs.filter (fun r => r.first.isSome && r.answers && !r.answered)).length

/-- The local address of a request's buffer in the byte store. -/
def State.localData (s : State) (d space addr len : Nat) : Option (Except Nat Bytes) × State :=
  if space = 0 then (none, s)
  else if !s.cisternOk d addr len then (some (.error 0x11), s)
  else match s.consume d (cisternAt d addr) len with
    | (s1, none) => (some (.error 4), s1)
    | (s1, some b) => (some (.ok b), s1)

/-- One request of a queue pair changed. -/
def Qp.onReq (q : Qp) (i : Nat) (f : RReq → RReq) : Qp := { q with reqs := q.reqs.zipIdx.map (fun r => if r.2 = i then f r.1 else r.1) }

/-- The local data of a request asked for (R349): a host buffer is read, a cistern buffer is there at once. -/
def State.askData (s : State) (n i : Nat) (r : RReq) : State :=
  match s.qp? n with
  | none => s
  | some q =>
    match s.localData q.dom r.space r.addr r.len with
    | (none, s1) =>
      let k := s1.rdma.serial
      ({ s1 with rdma.serial := k + 1 }.setQp n (q.onReq i (fun r => { r with asked := true, serial := k }))).hread q.fn 7 n r.addr r.len k
    | (some (.ok b), s1) => s1.setQp n (q.onReq i (fun r => { r with asked := true, ready := true, data := b }))
    | (some (.error st), s1) =>
      -- earlier requests are not failed by it: the failing one ends, and the queue pair with it
      let s2 := (q.reqs.take i).foldl (fun s r => s.reqEnd r 0x20) (s1.setQp n { q with reqs := q.reqs.drop i })
      s2.qpError n st 4

/-- A domain's congestion settings (R356). -/
def State.ccOf (s : State) (d : Nat) : CcCfg := tget s.rdma.cc d {}

/-- A rate of kb/s of a port's mode. -/
def State.portKbps (s : State) (p : Nat) : Nat := modeRateMbps (s.pt p).mode * 1000

/-- Rc of a queue pair, in kb/s (R356). -/
def State.rateOf (s : State) (q : Qp) : Nat := q.rate.getD (s.portKbps q.attr.port)

/-- A packet of a queue pair at its rate's pace (R356): when the next may follow. (DEDUCED, unsafe: notes/assumptions/115.md) -/
def Qp.paced (q : Qp) (rate now bytes : Nat) : Qp :=
  { q with nextAt := now + (if rate = 0 then 0 else ceilDiv (bytes * 8 * 1000000 * 65536) rate) }

/-- The packet at the next PSN to send, sent. -/
def State.sendAt (s : State) (n i : Nat) (r : RReq) : State :=
  match s.qp? n with
  | none => s
  | some q =>
    let k := psnDiff q.sendPsn (r.first.getD 0)
    let body := r.packet q k
    let step := if r.op = 4 then r.psns - k else 1
    let timer := if q.timer.isSome || q.attr.timeout = 0 then q.timer else some (s.elapsed + ns (2 ^ (12 + q.attr.timeout)))
    let q1 := { q with sendPsn := (q.sendPsn + step) % 2 ^ 24, timer := timer }
    let q2 := q1.paced (s.rateOf q) s.elapsed ((s.roceFrame q body).length + 4)
    (s.setQp n (if i = 0 ∨ k = 0 then q2.bump 1 else q2)).rdmaSend n body q.sendPsn

/-- The request that holds a PSN. -/
def Qp.reqAt (q : Qp) (psn : Nat) : Option (RReq × Nat) := q.reqs.zipIdx.find? (fun r => match r.1.first with
  | some f => psnDiff psn f < r.1.psns
  | none => false)

/-- Every outstanding request of a queue pair in `SQD` has been acknowledged: reported once (R342). -/
def State.sqDrained (s : State) (n : Nat) (q : Qp) : State :=
  if q.state = .sqd && !q.drained && !q.reqs.any (fun r => r.first.isSome) then (s.setQp n { q with drained := true }).rdmaEvent q.fn n 6 0 0 0 else s

/-- A request of a ring whose completions' sump is full does not begin (R266 step 3). -/
def RReq.stopped (r : RReq) (s : State) : Bool := match r.owner with
  | .ring k _ => s.sumpStops k
  | _ => false

/-- The requester of a queue pair goes on as far as it can: retransmissions first, then requests in ring order (R341, R344, R352, R354,
R356, R362). -/
def State.pump (s : State) (n : Nat) : Nat → State
  | 0 => s
  | fuel + 1 =>
    match s.qp? n with
    | none => s
    | some q =>
      if (q.state ≠ .rts && q.state ≠ .sqd) || s.glb.mode = .lockdown || s.mute q.fn then s
      else
        let c := s.ctxNeed (ctxKey 1 q.dom n)
        if !c.1 then (if q.reqs.isEmpty then s else c.2)
        else if q.rnrAt.isSome || q.unackedPkts ≥ 2048 || ((s.ccOf q.dom).en && s.elapsed < q.nextAt) then s
        else if q.sendPsn ≠ q.nextPsn then
          match q.reqAt q.sendPsn with
          | some (r, i) => (c.2.sendAt n i r).pump n fuel
          | none => s.setQp n { q with sendPsn := q.nextPsn }
        else if q.state = .sqd then s.sqDrained n q
        else match q.reqs.zipIdx.find? (fun r => r.1.first.isNone) with
          | none => s
          | some (r, i) =>
            if r.stopped s || (r.fence && q.readsOut > 0) || (r.answers && q.readsOut ≥ q.attr.maxRd) then s
            else if r.sends && !r.ready then (if r.asked then s else (s.askData n i r).pump n fuel)
            else
              let psns := r.count q.attr.mtu
              let q1 := q.onReq i (fun r => { r with first := some q.nextPsn, psns := psns })
              (c.2.setQp n { q1 with nextPsn := (q.nextPsn + psns) % 2 ^ 24 }).pump n fuel

/-- Enough rounds for everything a queue pair has to send. -/
def State.pumpQp (s : State) (n : Nat) : State := s.pump n 8192

/-- The oldest requests that are wholly acknowledged, and answered where they are to be, end (R349). -/
def State.retire (s : State) (n : Nat) : Nat → State
  | 0 => s
  | fuel + 1 =>
    match s.qp? n with
    | none => s
    | some q => match q.reqs with
      | [] => s
      | r :: rest => match r.first with
        | none => s
        | some f =>
          let d := psnDiff q.ackPsn f
          if d < 2 ^ 23 && d ≥ r.psns && (!r.answers || r.answered) then ((s.setQp n { q with reqs := rest }).reqEnd r 0).retire n fuel
          else s

/-- Everything before `psn` is acknowledged, up to the first READ or atomic still unanswered (R352): the timer restarts, the retry count is
full again. -/
def State.ackTo (s : State) (n psn : Nat) : State :=
  match s.qp? n with
  | none => s
  | some q =>
    if psnDiff psn q.ackPsn > psnDiff q.nextPsn q.ackPsn then s
    else
      let wall := (q.reqs.find? (fun r => r.first.isSome && r.answers && !r.answered)).bind (fun r => r.first)
      let to_ := match wall with
        | some w => if psnDiff w q.ackPsn < psnDiff psn q.ackPsn then w else psn
        | none => psn
      if to_ = q.ackPsn then s
      else
        let behind := psnDiff to_ q.sendPsn < 2 ^ 23
        let timer := if to_ = q.nextPsn || q.attr.timeout = 0 then none else some (s.elapsed + ns (2 ^ (12 + q.attr.timeout)))
        let s1 := s.setQp n
          { q with
            ackPsn := to_, sendPsn := if behind then to_ else q.sendPsn, retries := q.attr.retry, rnrs := q.attr.rnrRetry, timer := timer }
        s1.retire n (q.reqs.length + 1)

/-- A timer with its expiry: it fires at the first 2^10 ns grid point at or after it (R352). -/
def State.timerFires (s : State) (t : Option Nat) : Bool := match t with
  | some e => e ≤ s.elapsed && s.now % grid 10 ≤ s.elapsed - e
  | none => false

/-- A retransmission from a PSN (R352): it counts once against the retry count, and ends the oldest request when none is left.
(DEDUCED, unsafe: notes/assumptions/110.md) -/
def State.goBack (s : State) (n psn : Nat) : State :=
  match s.qp? n with
  | none => s
  | some q =>
    if q.retries = 0 then s.qpError n 0x25 4
    else
      let timer := if q.attr.timeout = 0 then none else some (s.elapsed + ns (2 ^ (12 + q.attr.timeout)))
      ((s.setQp n { q with retries := q.retries - 1, sendPsn := psn, timer := timer }).rdmaCount 7).pumpQp n

/-- Bytes of a response placed in the local buffer (R349). A storage request keeps them. -/
def State.placeLocal (s : State) (n i : Nat) (r : RReq) (b : Bytes) : Except Nat State :=
  match s.qp? n with
  | none => .ok s
  | some q => match r.owner with
    | .stor _ _ => .ok (s.setQp n (q.onReq i (fun r => { r with data := r.data ++ b, got := r.got + b.length })))
    | .ring k idx =>
      let s1 := s.setQp n (q.onReq i (fun r => { r with got := r.got + b.length }))
      let a := r.addr + r.got
      if b.isEmpty then .ok s1
      else if r.space = 0 then
        .ok ((s1.hostWr q.fn (.hostWrite q.fn a b)).setRing k ((s1.ring k).onDesc idx (fun d => { d with wrote := some (a + b.length - 1) })))
      else if s1.cisternOk q.dom a b.length then .ok (s1.store (cisternAt q.dom a) b)
      else .error 0x11

/-- Data that a requester asked for has come from host memory, or its read has failed with a status (R342, R349). -/
def State.rdmaData (s : State) (n serial : Nat) (res : Except Nat Bytes) : State :=
  match s.qp? n with
  | none => s
  | some q => match q.reqs.zipIdx.find? (fun r => r.1.asked && !r.1.ready && r.1.serial == serial) with
    | none => s
    | some (_, i) => match res with
      | .ok b => (s.setQp n (q.onReq i (fun r => { r with ready := true, data := b }))).pumpQp n
      | .error st =>
        let s1 := (q.reqs.take i).foldl (fun s r => s.reqEnd r 0x20) (s.setQp n { q with reqs := q.reqs.drop i })
        s1.qpError n st 4

end Sys2Proof.Machine
end

