-- ==== Sys2Proof/Machine/RdmaIn.lean ====
section
/-! DEFINITION. Packets that reach the RDMA engine (R336, R350-R360): the responder, and what acknowledgements and responses do to the
requester. -/
namespace Sys2Proof.Machine

/-! The form of a packet. -/

/-- Where a frame's EtherType lies, behind at most two tags. -/
def etherAt (b : Bytes) : Nat :=
  let tag := fun n => ofBe (slice b n 2) = 0x8100 || ofBe (slice b n 2) = 0x88A8
  if tag 12 then (if tag 16 then 20 else 16) else 12

/-- A RoCEv2 packet in a frame: its destination address, its ECN field, the bytes from the BTH to before the ICRC, and whether the ICRC is
right; none where the frame is not one (R335). -/
def roceOf (b : Bytes) : Option (Nat × Nat × Bytes × Bool) :=
  let e := etherAt b
  let t := ofBe (slice b e 2)
  let v4 := t == 0x0800
  let hl := if v4 then 20 else 40
  let ip := slice b (e + 2) hl
  let udp := slice b (e + 2 + hl) 8
  let n := ofBe (slice udp 4 2)
  let proto := (ip.getD (if v4 then 9 else 6) 0).toNat
  let ver := (ip.getD 0 0).toNat
  if (!v4 && t ≠ 0x86DD) || (v4 && ver ≠ 0x45) || (!v4 && ver / 16 ≠ 6) || proto ≠ 17 || ofBe (slice udp 2 2) ≠ 4791 || n < 24
      || e + 2 + hl + n > b.length then none
  else
    let body := slice b (e + 2 + hl + 8) (n - 12)
    let sum := ofLe (slice b (e + 2 + hl + n - 4) 4)
    let dip := if v4 then 0xFFFF * 2 ^ 32 + ofBe (slice ip 16 4) else ofBe (slice ip 24 16)
    let tos := if v4 then (ip.getD 1 0).toNat else ofBe (slice ip 0 2) / 16 % 256
    some (dip, tos % 4, body, icrc v4 ip udp body == sum)

/-- Fields of a BTH. -/
def bthOp (b : Bytes) : Nat := (b.getD 0 0).toNat
def bthQpn (b : Bytes) : Nat := ofBe (slice b 5 3)
def bthPsn (b : Bytes) : Nat := ofBe (slice b 9 3)
def bthAck (b : Bytes) : Bool := (b.getD 8 0).toNat ≥ 128
def bthSe (b : Bytes) : Bool := (b.getD 1 0).toNat ≥ 128
def bthPad (b : Bytes) : Nat := (b.getD 1 0).toNat / 16 % 4
/-- What follows a header of `h` bytes, without the pad. -/
def bodyAfter (b : Bytes) (h : Nat) : Bytes := (b.drop h).take (b.length - h - bthPad b)

/-! The responder's answers (R353). -/

/-- An answer put behind those that wait, in PSN order. -/
def State.respond (s : State) (n : Nat) (r : RResp) : State := match s.qp? n with
  | some q => s.setQp n { q with resps := q.resps ++ [r] }
  | none => s

/-- An AETH: syndrome and message number. (PRESUMED, unsafe: notes/assumptions/108.md) -/
def aeth (syn msn : Nat) : Bytes := le syn 1 ++ be (msn % 2 ^ 24) 3

/-- The packets of a READ response from PSN `psn`. -/
def readPackets (q : Qp) (psn msn : Nat) (data : Bytes) : List (Nat × Bytes) :=
  let mtu := q.attr.mtu
  let n := max 1 (ceilDiv data.length mtu)
  (List.range n).map (fun i =>
    let b := (data.drop (i * mtu)).take mtu
    let pad := (4 - b.length % 4) % 4
    let part := partOf i n
    let op := 0x0D + part
    let p := (psn + i) % 2 ^ 24
    (p, bth op false pad q.attr.dqpn false p ++ (if part = 1 then [] else aeth 0x1F msn) ++ b ++ zeros pad))

/-- The answers at the head of a queue pair that wait for nothing are sent. -/
def State.drainResps (s : State) (n : Nat) : Nat → State
  | 0 => s
  | fuel + 1 =>
    match s.qp? n with
    | none => s
    | some q => match q.resps with
      | [] => s
      | r :: rest =>
        if r.waits.isSome then s
        else
          let s1 := s.setQp n { q with resps := rest }
          let s2 := match r.kind with
            | 1 => (readPackets q r.psn r.msn r.data).foldl (fun (s : State) (p : Nat × Bytes) => s.rdmaSend n p.2 p.1) (s1.setQp n ({ q with resps := rest }.bump 2))
            | 2 => (s1.setQp n ({ q with resps := rest }.bump 2)).rdmaSend n (bth 0x12 false 0 q.attr.dqpn false r.psn ++ aeth 0x1F r.msn ++ r.data) r.psn
            | _ => s1.rdmaSend n (bth 0x11 false 0 q.attr.dqpn false r.psn ++ aeth r.syndrome r.msn) r.psn
          s2.drainResps n fuel

def State.drainAll (s : State) (n : Nat) : State := s.drainResps n (((s.qp? n).map (fun q => q.resps.length)).getD 0 + 1)

/-- An acknowledgement of everything executed (R353). -/
def State.sendAck (s : State) (n : Nat) : State := match s.qp? n with
  | none => s
  | some q =>
    let psn := (q.expPsn + 2 ^ 24 - 1) % 2 ^ 24
    ((s.setQp n { q with unacked := 0, ackAt := none }).respond n { kind := 0, psn := psn, msn := q.msn, syndrome := 0x1F }).drainAll n

/-- A NAK of a syndrome at a PSN. -/
def State.sendNak (s : State) (n syn psn : Nat) : State := match s.qp? n with
  | none => s
  | some q => (s.respond n { kind := 0, psn := psn, msn := q.msn, syndrome := syn }).drainAll n

/-- A request that an access check refuses (R359): counted, reported where it has a cause, and answered. -/
def State.refuse (s : State) (n psn syn cause key va : Nat) : State := match s.qp? n with
  | none => s
  | some q =>
    let s1 := s.rdmaCount 11
    let s2 := if cause = 0 then s1 else s1.rdmaEvent q.fn n cause syn key va
    s2.sendNak n syn psn

/-! Checks (R359). -/

/-- The region a key names. -/
def State.mr? (s : State) (key : Nat) : Option Mr := tget? s.rdma.mrs (key / 256)

/-- The checks of R359 in their order: syndrome and event cause of the first that fails (0, 0: none), and the state, in which a refusal of a
closing region is counted. `rights` are those needed. (PRESUMED, unsafe: notes/assumptions/109.md) -/
def State.mrCheck (s : State) (q : Qp) (key va len : Nat) (rights : List Nat) (atomic : Bool) : (Nat × Nat) × State :=
  match s.mr? key with
  | none => ((0x62, 2), s)
  | some m =>
    if m.key ≠ key then ((0x62, 2), s.rdmaCount 12)
    else if m.closing.isSome then
      ((0x62, 1), { s with rdma.mrs := tset s.rdma.mrs (key / 256) { m with refused := m.refused + 1 } })
    else if m.fn ≠ q.fn || m.pd ≠ q.attr.pd then ((0x62, 3), s)
    else if rights.any (fun r => !m.rights.testBit r) then ((0x62, 3), s)
    else if va < m.va || va + len > m.va + m.len || (atomic && va % 8 ≠ 0) then ((0x62, 3), s)
    else if atomic && m.space = 0 && rights.contains 2 then ((0x61, 0), s)
    else ((0, 0), s)

/-- A region whose deregistration is complete (R360): its index is free, the command answered. -/
def State.mrEnd (s : State) (i : Nat) : State := match tget? s.rdma.mrs i with
  | none => s
  | some m => match m.closing with
    | none => s
    | some p => { s with rdma.mrs := tdel s.rdma.mrs i, rdma.mrFree := s.rdma.mrFree ++ [i]
                         rdma.mrKeys := tset s.rdma.mrKeys i (m.key % 256) }.tosenLater p 0x0A08 0 [m.refused]

/-- Where a region's virtual address lies. -/
def Mr.at_ (m : Mr) (va : Nat) : Nat := m.addr + (va - m.va)

/-- Bytes placed in a region: none where a cistern page is not mapped. -/
def State.mrWrite (s : State) (n : Nat) (m : Mr) (va : Nat) (b : Bytes) : Option State := match s.qp? n with
  | none => none
  | some q =>
    if b.isEmpty then some s
    else if m.space = 0 then
      let last := some (m.at_ va + b.length - 1)
      let s1 := (s.hostWr m.fn (.hostWrite m.fn (m.at_ va) b)).setQp n { q with wrote := last }
      some { s1 with rdma.mrs := tmap s1.rdma.mrs (fun (x : Mr) => if x.key = m.key then { x with wrote := last } else x) }
    else if s.cisternOk q.dom (m.at_ va) b.length then some (s.store (cisternAt q.dom (m.at_ va)) b) else none

/-! Executing requests (R346, R350, R351, R353, R354). -/

/-- A packet executed: the PSN moves on by `k`; a message that ends counts; an ACK is sent, or comes due (R353). -/
def State.executed (s : State) (n k : Nat) (ends ack : Bool) : State := match s.qp? n with
  | none => s
  | some q =>
    let q1 := { q with expPsn := (q.expPsn + k) % 2 ^ 24, nakked := false, msn := if ends then (q.msn + 1) % 2 ^ 24 else q.msn
                       unacked := q.unacked + 1, ackAt := some (q.ackAt.getD (s.elapsed + ns 4096)) }
    let s1 := s.setQp n q1
    if ends || ack || q1.unacked ≥ 16 then s1.sendAck n else s1

/-- The next posted receive buffer of a queue pair's receive ring (R341), which none begins to fill while its sump is full (R266).
(DEDUCED, unsafe: notes/assumptions/84.md) -/
def State.recvBuf (s : State) (q : Qp) : Option Desc :=
  if q.storage.isSome || s.sumpStops q.recvRing then none else (s.ring q.recvRing).fetched.find? (fun d => !d.started && !d.ended)

/-- No buffer is posted (R354). -/
def State.rnr (s : State) (n psn : Nat) : State := match s.qp? n with
  | none => s
  | some q => ((s.rdmaCount 9).sendNak n (0x20 + q.attr.minRnr) psn).rdmaEvent q.fn n 7 0 0 0

/-- A message that used a receive buffer is complete (R346): its bytes, its record, its end. None where a cistern page is not mapped. -/
def State.recvEnd (s : State) (n : Nat) (q : Qp) (d : Desc) (f : Frame) (data : Bytes) (imm : Option Nat) (se withWrite : Bool) : State :=
  let k := q.recvRing
  let host := d.type < 0x30
  if !host && !data.isEmpty && !s.cisternOk q.dom d.addr data.length then (s.descEnd k d.idx 0x11).runs k
  else
    let s1 := if data.isEmpty then s
      else if host then s.hostWr q.fn (.hostWrite q.fn d.addr data) else s.store (cisternAt q.dom d.addr) data
    let slot := (s1.ring k).slotAddr d.idx
    let rec_ := le data.length 4 ++ le n 3 ++ le (b2n imm.isSome + 2 * b2n se + 4 * b2n withWrite) 1 ++ le (imm.getD 0) 4 ++ le q.attr.dqpn 3 ++ le 0 1
      ++ le d.tag 4 ++ le (nsOf f.feed.stamp) 8 ++ zeros 4
    let s2 := s1.hostWr q.fn (.hostWrite q.fn slot rec_)
    let r := s2.ring k
    let s3 := s2.setRing k (r.onDesc d.idx (fun y => { y with wrote := some (slot + 31), filled := data.length, rc := r.rcEvery }))
    (s3.descEnd k d.idx 0).runs k

/-- A SEND packet (R346, R353, R354): its message is placed once it is whole. -/
def State.doSend (s : State) (n : Nat) (q : Qp) (f : Frame) (b : Bytes) : State :=
  let op := bthOp b
  let first := op = 0 || op = 4 || op = 5
  let last := op ≥ 2
  let hasImm := op = 3 || op = 5
  let part := bodyAfter b (if hasImm then 16 else 12)
  let psn := bthPsn b
  if first && q.msg.isSome || !first && (q.msg.map (fun m => m.op)) ≠ some 0 then s.sendNak n 0x61 psn
  else
    let buf := if first then s.recvBuf q else (q.msg.bind (fun m => m.buf)).bind (fun i => (s.ring q.recvRing).fetched.find? (fun d => d.idx == i))
    match buf with
    | none => if first then s.rnr n psn else s.sendNak n 0x61 psn
    | some d =>
      let data := ((q.msg.map (fun m => m.data)).getD []) ++ part
      let s1 := s.setRing q.recvRing ((s.ring q.recvRing).onDesc d.idx (fun y => { y with started := true }))
      if data.length > d.len then
        ((s1.setQp n { q with msg := none }).descEnd q.recvRing d.idx 0x27).runs q.recvRing |>.sendNak n 0x61 psn
      else if last then
        let imm := if hasImm then some (ofLe (slice b 12 4)) else none
        if d.type ≥ 0x30 && !data.isEmpty && !s1.cisternOk q.dom d.addr data.length then
          ((s1.setQp n { q with msg := none }).recvEnd n q d f data imm (bthSe b) false).sendNak n 0x63 psn
        else ((s1.setQp n { q with msg := none }).recvEnd n q d f data imm (bthSe b) false).executed n 1 true (bthAck b)
      else (s1.setQp n { q with msg := some { op := 0, buf := some d.idx, data := data, got := data.length } }).executed n 1 false (bthAck b)

/-- An RDMA WRITE packet (R353, R359, R360): checked at its first packet. -/
def State.doWrite (s : State) (n : Nat) (q : Qp) (f : Frame) (b : Bytes) : State :=
  let op := bthOp b
  let first := op = 6 || op ≥ 10
  let last := op ≥ 8
  let hasImm := op = 9 || op = 11
  let psn := bthPsn b
  let hd := 12 + (if first then 16 else 0)
  let imm := if hasImm then some (ofLe (slice b hd 4)) else none
  let part := bodyAfter b (if hasImm then hd + 4 else hd)
  let va := ofBe (slice b 12 8)
  let key := ofBe (slice b 20 4)
  let len := ofBe (slice b 24 4)
  if first && q.msg.isSome || !first && (q.msg.map (fun m => m.op)) ≠ some 2 then s.sendNak n 0x61 psn
  else
    let chk := if first then s.mrCheck q key va len [1] false else ((0, 0), s)
    let s0 := chk.2
    if chk.1.1 ≠ 0 then s0.refuse n psn chk.1.1 chk.1.2 key va
    else
      let m0 : RMsg := if first then { op := 2, va := va, region := some (key / 256), total := len } else q.msg.getD { op := 2 }
      match m0.region.bind (fun i => tget? s0.rdma.mrs i) with
      | none => s0.sendNak n 0x61 psn
      | some m =>
        if m0.got + part.length > m0.total || (last && m0.got + part.length ≠ m0.total) then (s0.setQp n { q with msg := none }).sendNak n 0x61 psn
        else if hasImm && (s0.recvBuf q).isNone then s0.rnr n psn
        else match s0.mrWrite n m m0.va part with
          | none => (s0.setQp n { q with msg := none }).sendNak n 0x63 psn
          | some s1 =>
            let q1 := (s1.qp? n).getD q
            let m1 := { m0 with va := m0.va + part.length, got := m0.got + part.length }
            let s2 := s1.setQp n { q1 with msg := if last then none else some m1 }
            let s3 := match (if hasImm then s2.recvBuf q1 else none) with
              | some d => s2.recvEnd n q1 d f [] imm (bthSe b) true
              | none => s2
            s3.executed n 1 last (bthAck b)

/-- A READ request (R350, R353): `dup` for one executed again, which moves no PSN on. -/
def State.doRead (s : State) (n : Nat) (q : Qp) (b : Bytes) (dup : Bool) : State :=
  let va := ofBe (slice b 12 8)
  let key := ofBe (slice b 20 4)
  let len := ofBe (slice b 24 4)
  let psn := bthPsn b
  let chk := s.mrCheck q key va len [0] false
  let s0 := chk.2
  if chk.1.1 ≠ 0 then s0.refuse n psn chk.1.1 chk.1.2 key va
  else match s0.mr? key with
    | none => s0
    | some m =>
      let k := max 1 (ceilDiv len q.attr.mtu)
      let msn := if dup then q.msn else (q.msn + 1) % 2 ^ 24
      let next := { q with expPsn := if dup then q.expPsn else (q.expPsn + k) % 2 ^ 24, msn := msn, nakked := false, unacked := 0, ackAt := none }
      if m.space = 0 && len > 0 then
        let ser := s0.rdma.serial
        let r : RResp := { kind := 1, psn := psn, msn := msn, waits := some ser, need := len, region := some (key / 256) }
        ({ s0 with rdma.serial := ser + 1 }.setQp n { next with resps := next.resps ++ [r] }).hread m.fn 7 n (m.at_ va) len ser
      else match s0.localData q.dom 1 (m.at_ va) len with
        | (some (.ok d), s1) =>
          let r : RResp := { kind := 1, psn := psn, msn := msn, data := d }
          (s1.setQp n { next with resps := next.resps ++ [r] }).drainAll n
        | (_, s1) => s1.sendNak n 0x63 psn

/-- An atomic (R351, R353): executed on cistern memory, its result saved. (PRESUMED, unsafe: notes/assumptions/109.md) -/
def State.doAtomic (s : State) (n : Nat) (q : Qp) (b : Bytes) : State :=
  let va := ofBe (slice b 12 8)
  let key := ofBe (slice b 20 4)
  let swap := ofBe (slice b 24 8)
  let cmp := ofBe (slice b 32 8)
  let psn := bthPsn b
  let chk := s.mrCheck q key va 8 [2] true
  let s0 := chk.2
  if chk.1.1 ≠ 0 then s0.refuse n psn chk.1.1 chk.1.2 key va
  else match s0.mr? key with
    | none => s0
    | some m => match s0.localData q.dom 1 (m.at_ va) 8 with
      | (some (.ok d), s1) =>
        let old := ofLe d
        let new := if bthOp b = 0x13 then (if old = cmp then swap else old) else (old + swap) % 2 ^ 64
        let s2 := s1.store (cisternAt q.dom (m.at_ va)) (le new 8)
        let msn := (q.msn + 1) % 2 ^ 24
        let saved := ((q.atomics ++ [(psn, old)]).reverse.take q.attr.maxDest).reverse
        (s2.setQp n { q with expPsn := (q.expPsn + 1) % 2 ^ 24, msn := msn, nakked := false, unacked := 0, ackAt := none, atomics := saved
                             resps := q.resps ++ [{ kind := 2, psn := psn, msn := msn, data := be old 8 }] }).drainAll n
      | (_, s1) => s1.sendNak n 0x63 psn

/-- A FLUSH (R350): acknowledged once every earlier write is at the level it names. -/
def State.doFlush (s : State) (n : Nat) (q : Qp) (b : Bytes) : State :=
  let feth := ofBe (slice b 12 4)
  let va0 := ofBe (slice b 16 8)
  let key := ofBe (slice b 24 4)
  let len0 := ofBe (slice b 28 4)
  let whole := feth / 16 % 4 = 1
  let m0 := s.mr? key
  let va := if whole then (m0.map (fun m => m.va)).getD va0 else va0
  let len := if whole then (m0.map (fun m => m.len)).getD 0 else len0
  let psn := bthPsn b
  let chk := s.mrCheck q key va len ((if feth.testBit 0 then [3] else []) ++ (if feth.testBit 1 then [4] else [])) false
  let s0 := chk.2
  if chk.1.1 ≠ 0 then s0.refuse n psn chk.1.1 chk.1.2 key va
  else match m0, q.wrote with
    | some m, some a =>
      if m.space ≠ 0 then s0.executed n 1 true true
      else
        let ser := s0.rdma.serial
        let msn := (q.msn + 1) % 2 ^ 24
        let r : RResp := { kind := 0, psn := psn, msn := msn, syndrome := 0x1F, waits := some ser, region := some (key / 256) }
        ({ s0 with rdma.serial := ser + 1 }.setQp n
          { q with expPsn := (q.expPsn + 1) % 2 ^ 24, msn := msn, nakked := false, unacked := 0, ackAt := none, wrote := none
                   resps := q.resps ++ [r] }).hread m.fn 7 n a 0 ser
    | _, _ => s0.executed n 1 true true

/-- An ATOMIC WRITE (R350, R351). (PRESUMED, unsafe: notes/assumptions/109.md) -/
def State.doAtomicWrite (s : State) (n : Nat) (q : Qp) (b : Bytes) : State :=
  let va := ofBe (slice b 12 8)
  let key := ofBe (slice b 20 4)
  let psn := bthPsn b
  let chk := s.mrCheck q key va 8 [1] true
  let s0 := chk.2
  if chk.1.1 ≠ 0 then s0.refuse n psn chk.1.1 chk.1.2 key va
  else match (s0.mr? key).bind (fun m => s0.mrWrite n m va (slice b 28 8)) with
    | some s1 => s1.executed n 1 true (bthAck b)
    | none => s0.sendNak n 0x63 psn

/-- A duplicate (R353). -/
def State.duplicate (s : State) (n : Nat) (q : Qp) (b : Bytes) : State :=
  let op := bthOp b
  if op = 0x0C then s.doRead n q b true
  else if op = 0x13 || op = 0x14 then
    match q.atomics.find? (fun a => a.1 == bthPsn b) with
    | some a => (s.respond n { kind := 2, psn := a.1, msn := q.msn, data := be a.2 8 }).drainAll n
    | none => s
  else s.sendAck n

/-- A request packet for a responder queue pair (R350-R354). -/
def State.request (s : State) (n : Nat) (q : Qp) (f : Frame) (b : Bytes) : State :=
  let d := psnDiff (bthPsn b) q.expPsn
  let op := bthOp b
  if d = 0 then
    if op ≤ 5 then s.doSend n q f b
    else if op ≤ 11 then s.doWrite n q f b
    else if op = 0x0C then s.doRead n q b false
    else if op = 0x13 || op = 0x14 then s.doAtomic n q b
    else if op = 0x1C then s.doFlush n q b
    else if op = 0x1D then s.doAtomicWrite n q b
    else s.sendNak n 0x61 (bthPsn b)
  else if d < 2 ^ 23 then
    if q.nakked then s else ((s.setQp n { q with nakked := true }).rdmaCount 5).sendNak n 0x60 q.expPsn
  else s.duplicate n q b

/-! What answers do to the requester (R352, R354, R356). -/

/-- The coded RNR times (Volume 1), in units of 10 µs. (PRESUMED, unsafe: notes/assumptions/108.md) -/
def rnrTime (t : Nat) : Nat :=
  nth [65536, 1, 2, 3, 4, 6, 8, 12, 16, 24, 32, 48, 64, 96, 128, 192, 256, 384, 512, 768, 1024, 1536, 2048, 3072, 4096, 6144, 8192, 12288,
    16384, 24576, 32768, 49152] t

/-- A response or acknowledgement names a PSN that is outstanding. -/
def Qp.awaits (q : Qp) (psn : Nat) : Bool := psnDiff psn q.ackPsn < psnDiff q.nextPsn q.ackPsn

/-- An ACK (R352). -/
def State.ackIn (s : State) (n : Nat) (q : Qp) (b : Bytes) : State :=
  if !q.awaits (bthPsn b) then s else ((s.ackTo n ((bthPsn b + 1) % 2 ^ 24)).pumpQp n)

/-- A NAK (R348, R352): of the sequence, retransmission; any other ends its request. -/
def State.nakIn (s : State) (n : Nat) (q : Qp) (b : Bytes) : State :=
  let psn := bthPsn b
  let code := (b.getD 12 0).toNat % 32
  if code = 0 then
    let s1 := s.rdmaCount 6
    if psnDiff psn q.ackPsn > psnDiff q.nextPsn q.ackPsn then s1
    else
      let s2 := s1.ackTo n psn
      -- R367: with the timer firing at this instant, one retransmission, from the earlier PSN
      if q.backAt = some s.elapsed then s2
      else if s.timerFires q.timer then s2.goBack n (((s2.qp? n).map (fun x => x.ackPsn)).getD psn)
      else s2.goBack n psn
  else if !q.awaits psn then s
  else
    let st := if code = 1 then 0x23 else if code = 2 then 0x22 else if code = 3 then 0x24 else 0x28
    (s.ackTo n psn).qpError n st 4

/-- An RNR NAK (R354). -/
def State.rnrIn (s : State) (n : Nat) (q : Qp) (b : Bytes) : State :=
  let psn := bthPsn b
  let s1 := s.rdmaCount 10
  if !q.awaits psn then s1
  else
    let s2 := s1.ackTo n psn
    match s2.qp? n with
    | none => s2
    | some q2 =>
      if q2.attr.rnrRetry ≠ 7 && q2.rnrs = 0 then s2.qpError n 0x26 4
      else
        s2.setQp n
          { q2 with
            rnrs := if q2.attr.rnrRetry = 7 then q2.rnrs else q2.rnrs - 1, sendPsn := psn, timer := none
            rnrAt := some (s2.elapsed + ns (rnrTime ((b.getD 12 0).toNat % 32) * 10000)) }

/-- A READ or atomic response (R348, R349): placed in the local buffer; one that does not fit its request is a bad response. -/
def State.responseIn (s : State) (n : Nat) (q : Qp) (b : Bytes) : State :=
  let psn := bthPsn b
  let op := bthOp b
  match q.reqAt psn with
  | none => s
  | some (r, _) =>
    if !r.answers || r.answered then s
    else
      let k := psnDiff psn (r.first.getD 0)
      let done := if r.op = 4 then r.got / q.attr.mtu else 0
      let part := if op = 0x12 then le (ofBe (slice b 16 8)) 8 else bodyAfter b (if op = 0x0E then 12 else 16)
      let want := if r.op = 4 then min q.attr.mtu (r.len - k * q.attr.mtu) else 8
      let fits := if r.op = 4 then op = 0x0D + partOf k r.psns || (k + 1 = r.psns && op = 0x10) || (op = 0x0D && k + 1 < r.psns) else op = 0x12
      if k ≠ done then s
      else if !fits || part.length ≠ want then s.qpError n 0x28 4
      else
        let s0 := s.ackTo n (r.first.getD 0)
        match (s0.qp? n).bind (fun q => q.reqAt psn) with
        | none => s0
        | some (r1, i1) => match s0.placeLocal n i1 r1 part with
          | .error st => s0.qpError n st 4
          | .ok s1 =>
            let s2 := if k + 1 = r.psns then (match s1.qp? n with
              | some q1 => s1.setQp n (q1.onReq i1 (fun r => { r with answered := true }))
              | none => s1) else s1
            (s2.ackTo n ((psn + 1) % 2 ^ 24)).pumpQp n

/-- A CNP (R356, R367). (DEDUCED, unsafe: notes/assumptions/115.md) -/
def State.cnpIn (s : State) (n : Nat) (q : Qp) : State :=
  let s1 := s.rdmaCount 14
  let c := s.ccOf q.dom
  if !c.en || q.state = .error || q.state = .reset then s1
  else
    let r := s1.rateOf q
    s1.setQp n { q with rate := some (max (c.min * 1000) (r - r / 2 ^ c.dec)), slowed := true }

/-- A packet that arrived with CE (R355). -/
def State.ceIn (s : State) (n : Nat) (q : Qp) : State :=
  let s1 : State := { s with rdma.ceRcvd := tupd s.rdma.ceRcvd q.dom 0 inc48 }
  let period := s.now / grid 16
  if q.cnpPeriod = some period then s1
  else
    let body := bth 0x81 false 0 q.attr.dqpn false 0
    ((s1.setQp n { q with cnpPeriod := some period }).rdmaCount 13).rdmaSend n (body.set 4 0x40 ++ zeros 16) 0

/-! Taking a packet (R336, R362, R363). -/

/-- The rows a packet belongs to, by its opcode: 0 a request, 1 ACK, 2 NAK, 3 RNR NAK, 4 a response, 5 CNP. -/
def pktClass (f : Frame) : Nat := match roceOf f.data with
  | none => 0
  | some (_, _, b, _) =>
    let op := bthOp b
    if op = 0x81 then 5
    else if op = 0x11 then (if (b.getD 12 0).toNat / 32 = 1 then 3 else if (b.getD 12 0).toNat / 32 = 3 then 2 else 1)
    else if (0x0D ≤ op && op ≤ 0x10) || op = 0x12 then 4
    else 0

/-- Whether a destination address is a GID of a port that belongs to a domain (R336). -/
def State.gidOk (s : State) (p dip d : Nat) : Bool :=
  (List.range 16).any (fun i => tget? s.rdma.gids (p * 16 + i) == some (dip, d))

/-- A packet of a queue pair whose context is resident. -/
def State.rdmaPacket (s : State) (n : Nat) (f : Frame) : State :=
  match s.qp? n, roceOf f.data with
  | some q, some (_, ecn, b, _) =>
    let cls := pktClass f
    let live := q.state == .rtr || q.state == .rts || q.state == .sqd
    if cls = 5 then s.cnpIn n q
    else if !live then s.setQp n (q.bump 0)
    else
      let s1 := if ecn = 3 then s.ceIn n q else s
      let q1 := (s1.qp? n).getD q
      match cls with
      | 0 => s1.request n q1 f b
      | 1 => s1.ackIn n q1 b
      | 2 => s1.nakIn n q1 b
      | 3 => s1.rnrIn n q1 b
      | _ => s1.responseIn n q1 b
  | _, _ => s

/-- A packet taken from the intake of a function (R336, R362): dropped and counted, parked for its context, or processed.
(DEDUCED, unsafe: notes/assumptions/110.md) -/
def State.takePacket (s : State) (fn : Nat) (f : Frame) : State :=
  let s0 := s.rdmaCount 0
  match roceOf f.data with
  | none => s0.rdmaCount 3
  | some (dip, _, b, good) =>
    let qpn := bthQpn b
    let n := qpn % 2 ^ 20
    if !good then s0.rdmaCount 2
    else if s0.rdma.qpFree.any (fun x => x.num == n && !x.free && s0.elapsed < x.ends) && qpn / 2 ^ 20 = 1 then s0.rdmaCount 4
    else match s0.qp? n with
      | none => s0.rdmaCount 3
      | some q =>
        if qpn / 2 ^ 20 ≠ 1 || q.fn ≠ fn || !s0.gidOk f.port dip q.dom then s0.rdmaCount 3
        else
          let k := ctxKey 1 q.dom n
          let waiting := ((s0.ctx? k).map (fun x => !x.parked.isEmpty)).getD false
          let c := s0.ctxNeed k
          if c.1 && !waiting then c.2.rdmaPacket n f
          else if ((s0.ctx? k).map (fun x => x.failed)).getD false then s0.setQp n (q.bump 0)
          else c.2.park k f

/-- The packet at the head of a function's intake, if it belongs to a row. -/
def State.intake (s : State) (fn cls : Nat) : State :=
  if s.glb.mode = .lockdown || s.mute fn then s
  else match tget s.rdma.intake fn [] with
    | [] => s
    | f :: rest =>
      if pktClass f ≠ cls then s
      else (({ s with rdma.intake := tset s.rdma.intake fn rest }.takePacket fn f)).syncSched hostSched

/-- Data of a READ or the end of a FLUSH's read that a responder waited for; a failed read is answered with a NAK (R353). -/
def State.respData (s : State) (n serial : Nat) (res : Except Nat Bytes) : State :=
  match s.qp? n with
  | none => s
  | some q =>
    if !q.resps.any (fun r => r.waits == some serial) then s.rdmaData n serial res
    else
      let f := fun (r : RResp) => if r.waits = some serial then (match res with
        | .ok b => { r with waits := none, data := b }
        | .error _ => { r with kind := 0, waits := none, syndrome := 0x63 }) else r
      (s.setQp n { q with resps := q.resps.map f }).drainAll n

end Sys2Proof.Machine
end

