-- ==== Sys2Proof/Machine/StorOps.lean ====
section
/-! DEFINITION. Queue pairs as objects (R340-R342, R363, R364), and the storage engine (R368-R373): its commands, the requests it posts to its
targets, and what their ends make of a namespace. -/
namespace Sys2Proof.Machine

/-! Queue pairs (R340-R342, R363). -/

/-- A domain's range of queue-pair numbers: base and count. -/
def State.qpRangeOf (s : State) (d : Nat) : Nat × Nat := (tget? s.rdma.qpRange d).getD (s.defRange 1048576 d)

/-- The number a new queue pair of a domain takes: the one free the longest, or the status that says why there is none.
(DEDUCED, unsafe: notes/assumptions/113.md) -/
def State.newQpn (s : State) (d : Nat) : Except Nat Nat :=
  let r := s.qpRangeOf d
  let used := (s.rdma.qps.filter (fun (q : Nat × Qp) => inRange r q.1)).length
  let gone := s.rdma.qpFree.filter (fun x => inRange r x.num)
  let bound := r.1 + used + gone.length
  if used ≥ r.2 || !s.ctxRoom 1 d then .error 0x02000103
  else match ((List.range (used + gone.length + 1)).map (fun i => r.1 + i)).find? (fun n => n < r.1 + r.2 && n ≤ bound && (s.qp? n).isNone
      && !gone.any (fun x => x.num == n)) with
    | some n => .ok n
    | none => match gone.find? (fun x => x.free || x.ends ≤ s.elapsed) with
      | some x => .ok x.num
      | none => .error 0x01000100

/-- A queue pair created in `RESET`, its context in the cache (R342). -/
def State.newQp (s : State) (n : Nat) (q : Qp) : State :=
  ({ s with rdma.qpFree := s.rdma.qpFree.filter (fun x => x.num != n) }.setQp n q).ctxNew (ctxKey 1 q.dom n)

/-- A queue pair destroyed: its descriptors end with 0x20, and its quiet period begins (R342, R363). -/
def State.killQp (s : State) (n : Nat) : State :=
  match s.qp? n with
  | none => s
  | some q =>
    let s1 := (s.endAll n 0x20 0x20).endMsg n 0x20
    let s2 : State := { s1 with
      rdma.qps := tdel s1.rdma.qps n
      rdma.qpFree := s1.rdma.qpFree ++ [{ num := n, ends := s1.elapsed + ns (2 ^ s1.rdma.quietLog), free := false }] }
    s2.ctxGone (ctxKey 1 q.dom n)

/-- A queue pair set to `ERROR` or `RESET` by command: every descriptor ends with a status (R342). -/
def State.haltQp (s : State) (n : Nat) (to_ : QState) (st : Nat) : State :=
  let s1 := (s.endAll n st st).endMsg n st
  match s1.qp? n with
  | none => s1
  | some q =>
    if to_ = .reset then
      s1.setQp n
        { q with
          state := .reset, nextPsn := 0, sendPsn := 0, ackPsn := 0, expPsn := 0, msn := 0, nakked := false, unacked := 0, ackAt := none
          resps := [], wrote := none, atomics := [], rate := none, drained := false, timer := none, rnrAt := none }
    else s1.setQp n { q with state := to_, resps := [], ackAt := none, unacked := 0 }

/-- A queue pair brought to `RTS` with its attributes (R342, R343). -/
def Qp.start (q : Qp) : Qp :=
  { q with state := .rts, expPsn := q.attr.rxPsn, nextPsn := q.attr.txPsn, sendPsn := q.attr.txPsn, ackPsn := q.attr.txPsn
           retries := q.attr.retry, rnrs := q.attr.rnrRetry, drained := false }

/-! Namespaces (R371, R372). -/

/-- The key of a namespace. -/
def nsKey (fn id : Nat) : Nat := fn * 64 + (id - 1)
def nsFn (k : Nat) : Nat := k / 64
def nsId (k : Nat) : Nat := k % 64 + 1
def State.ns? (s : State) (k : Nat) : Option Ns := tget? s.stor.nss k
def State.setNs (s : State) (k : Nat) (v : Ns) : State := { s with stor.nss := tset s.stor.nss k v }

/-- STOR_EVENT (R383). -/
def State.storEvent (s : State) (k cause target : Nat) : State :=
  let f := nsFn k
  s.event [s.fnDom f, 0] 0x0A50 (s.fnDom f) [fnCode f, nsId k, cause, target, s.ledgerNs]

/-- A storage command ends (R370). -/
def State.cmdEnd (s : State) (c : StCmd) (st : Nat) : State :=
  let s1 : State := { s with stor.cmds := s.stor.cmds.filter (fun x => x.id != c.id) }
  (s1.descEnd c.key c.idx st).runs c.key

def State.setCmd (s : State) (c : StCmd) : State := { s with stor.cmds := s.stor.cmds.map (fun x => if x.id = c.id then c else x) }

/-- A request put behind those of a target's queue pair (R371). -/
def State.targetReq (s : State) (t : NsTarget) (r : RReq) : State := match s.qp? t.qp with
  | some q => if q.state = .error then s.reqEnd r 0x20 else s.setQp t.qp { q with reqs := q.reqs ++ [r] }
  | none => s.reqEnd r 0x20

/-- The requests of a command for one target (R371). -/
def StCmd.reqs (c : StCmd) (t : NsTarget) (i : Nat) : List RReq :=
  let own : Owner := .stor c.id i
  let write : RReq := { owner := own, op := 2, len := c.len, va := t.va + c.va, rkey := t.rkey, asked := true, ready := true
                        data := if c.op = 3 then zeros c.len else c.data }
  let flush : RReq := { owner := own, op := 7, len := c.len, va := t.va + c.va, rkey := t.rkey, flushType := 2 }
  match c.op with
  | 0 => [{ owner := own, op := 7, va := t.va, rkey := t.rkey, flushType := 6 }]
  | 2 => [{ owner := own, op := 4, len := c.len, va := t.va + c.va, rkey := t.rkey }]
  | _ => if c.fua then [write, flush] else [write]

/-- A command's requests posted to its targets: a Read's to one, any other's to every online target (R371). -/
def State.postCmd (s : State) (c : StCmd) (n : Ns) : State :=
  let on := n.targets.zipIdx.filter (fun t => t.1.online)
  let who := if c.op = 2 then (on.filter (fun t => (tget? c.left t.2).isNone)).take 1 else on
  let left := who.foldl (fun l t => tset l t.2 ((c.reqs t.1 t.2).length, 0)) c.left
  let s1 := s.setCmd { c with started := true, left := left, data := [] }
  let s2 := who.foldl (fun s t => (c.reqs t.1 t.2).foldl (fun s r => s.targetReq t.1 r) s) s1
  who.foldl (fun s t => s.pumpQp t.1.qp) s2

/-- Bytes of a command's data buffer still to read or fill, in pieces of host memory. -/
def StCmd.put (c : StCmd) (s : State) (b : Bytes) : State :=
  let f := fnOfKey c.key
  let r := c.todo.foldl (fun (a : State × Bytes) (p : Nat × Nat) =>
    if a.2.isEmpty then a
    else
      let part := a.2.take p.2
      let s1 := a.1.hostWr f (.hostWrite f p.1 part)
      (s1.setRing c.key ((s1.ring c.key).onDesc c.idx (fun d => { d with wrote := some (p.1 + part.length - 1) })), a.2.drop p.2)) (s, b)
  r.1

/-- Every command of a namespace that is not complete ends with 0x40 (R372). -/
def State.nsAbort (s : State) (k : Nat) : State := (s.stor.cmds.filter (fun c => c.ns == k)).foldl (fun s c => s.cmdEnd c 0x40) s

/-- A target taken offline: its queue pair enters `ERROR` (R372). (DEDUCED, unsafe: notes/assumptions/117.md) -/
def State.targetOff (s : State) (k i : Nat) : State := match s.ns? k with
  | none => s
  | some n => match n.targets[i]? with
    | none => s
    | some t =>
      if !t.online then s
      else
        let s1 := s.setNs k { n with state := 2, targets := n.targets.set i { t with online := false, failures := inc48 t.failures } }
        let s2 := if ((s1.qp? t.qp).map (fun q => q.state)) == some .error then s1 else s1.haltQp t.qp .error 0x20
        s2.storEvent k 2 i

/-- Refusals of a target (R370). -/
def refusal (st : Nat) : Bool := st == 0x22 || st == 0x23 || st == 0x24

/-- A command whose requests have all ended (R370, R372, R384). (DEDUCED, unsafe: notes/assumptions/117.md) -/
def State.cmdDone (s : State) (c : StCmd) (n : Ns) (data : Bytes) : State :=
  let bad := c.left.filter (fun t => t.2.2 != 0)
  let good := c.left.filter (fun t => t.2.2 == 0)
  let others := n.targets.zipIdx.any (fun t => t.1.online && (tget? c.left t.2).isNone)
  let s0 := if c.op = 2 && !good.isEmpty then c.put s data else s
  if bad.isEmpty then s0.cmdEnd c 0
  else if !good.isEmpty then (bad.foldl (fun s t => s.targetOff c.ns t.1) s0).cmdEnd c 0x44
  else if c.op = 2 && others then
    let s1 := bad.foldl (fun s t => s.targetOff c.ns t.1) s0
    match s1.ns? c.ns with
    | some n1 => s1.postCmd c n1
    | none => s1
  else
    let st := if bad.all (fun t => refusal t.2.2) then 0x42 else 0x43
    let off := bad.foldl (fun (s : State) t => match s.ns? c.ns with
      | some m => s.setNs c.ns { m with targets := m.targets.zipIdx.map (fun x => if x.2 = t.1 then { x.1 with online := false, failures := inc48 x.1.failures } else x.1) }
      | none => s) s0
    let s1 := match off.ns? c.ns with
      | some m => off.setNs c.ns { m with state := 0 }
      | none => off
    let s2 := ((s1.cmdEnd c st).nsAbort c.ns)
    let qps := (bad.filterMap (fun t => (n.targets[t.1]?).map (fun x => x.qp)))
    (qps.foldl (fun s q => if ((s.qp? q).map (fun x => x.state)) == some .error then s else s.haltQp q .error 0x20) s2).storEvent c.ns 3 (bad.headD (0, 0, 0)).1

/-- One request of the storage engine has ended. -/
def State.storEnd (s : State) (id t st : Nat) (data : Bytes) : State :=
  match s.stor.cmds.find? (fun c => c.id == id) with
  | none => s
  | some c => match s.ns? c.ns with
    | none => s
    | some n =>
      let o := tget c.left t (1, 0)
      let left := tset c.left t (o.1 - 1, if o.2 = 0 then st else o.2)
      let c1 := { c with left := left }
      let targets := n.targets.zipIdx.map (fun x => if x.2 = t then { x.1 with requests := inc48 x.1.requests } else x.1)
      let n1 := { n with targets := targets }
      let s1 := (s.setCmd c1).setNs c.ns n1
      if left.all (fun x => x.2.1 = 0) then s1.cmdDone c1 n1 data else s1

/-- The ended requests of the storage engine dealt with, in order. -/
def State.storSettle (s : State) : Nat → State
  | 0 => s
  | k + 1 => match s.stor.ended with
    | [] => s
    | e :: rest => ({ s with stor.ended := rest }.storEnd e.1 e.2.1 e.2.2.1 e.2.2.2).storSettle k

/-- After anything the RDMA engine has done: what it ended for the storage engine. -/
def State.settle (s : State) : State := if s.stor.ended.isEmpty then s else s.storSettle 4096

/-- The status a command meets as it starts (R370), or 0. -/
def State.cmdCheck (s : State) (c : StCmd) : Nat := match s.ns? c.ns with
  | none => 0x40
  | some n => if n.state = 0 then 0x40 else if c.va + c.len > n.cap then 0x41 else 0

/-- A command whose buffer is known begins (R371): a Write's data is read first. -/
def State.cmdBegin (s : State) (c : StCmd) : State :=
  let st := s.cmdCheck c
  if st ≠ 0 then s.cmdEnd c st
  else match c.op, c.todo with
    | 1, p :: rest => (s.setCmd { c with todo := rest }).hread (fnOfKey c.key) 8 c.key p.1 p.2 c.id
    | 0, _ => s
    | _, _ => match s.ns? c.ns with
      | some n => (s.postCmd c n).settle
      | none => s

/-- The next commands of the storage rings that may start, start: in ring order, each once its list has been read. A Flush waits for its own
event (R373). (DEDUCED, unsafe: notes/assumptions/119.md) -/
def State.cmdNext (s : State) : Nat → State
  | 0 => s
  | k + 1 =>
    match s.stor.cmds.find? (fun c => c.listed && !c.started && !c.won && c.op ≠ 0
        && !s.stor.cmds.any (fun x => x.key == c.key && x.id < c.id && !x.started && !x.won)) with
    | none => s
    | some c =>
      let x := s.ctxNeed (ctxKey 3 (s.fnDom (fnOfKey c.key)) c.key)
      if !x.1 then x.2 else ((x.2.setCmd { c with won := true }).cmdBegin { c with won := true }).cmdNext k

/-- A storage descriptor taken by the engine (R369): a list is read first. -/
def State.storAdmit (s : State) (k : Nat) (d : Desc) : State :=
  let f := fnOfKey k
  let blk := ((s.ns? (f * 64 + bits d.aux 45 40)).map (fun n => n.blk)).getD 512
  let sgl := d.type.testBit 2
  let c : StCmd :=
    { id := s.stor.nextCmd, key := k, idx := d.idx, ns := f * 64 + bits d.aux 45 40, op := d.type % 4, fua := d.type.testBit 3
      va := d.aux % 2 ^ 32 * blk, len := d.len, sgl := sgl, addr := d.addr, todo := if sgl then [] else [(d.addr, d.len)], listed := !sgl }
  let s1 : State := { s with stor.nextCmd := s.stor.nextCmd + 1, stor.cmds := s.stor.cmds ++ [c] }
  let s2 := s1.setRing k ((s1.ring k).onDesc d.idx (fun y => { y with started := true }))
  if !sgl then s2.cmdNext 64
  else if d.addr = 0 || d.addr % 16 ≠ 0 then { s2 with stor.cmds := s.stor.cmds }.malformedAt k d.idx 9 3
  else s2.hread f 9 k d.addr 16 c.id

/-- One entry of a command's list has come (R278, R369). (DEDUCED, unsafe: notes/assumptions/119.md) -/
def State.storList (s : State) (id : Nat) (b : Bytes) : State :=
  match s.stor.cmds.find? (fun c => c.id == id) with
  | none => s
  | some c =>
    let f := fnOfKey c.key
    let p := pieceOf b
    let todo := c.todo ++ [(p.addr, p.len)]
    let last := (ofLe (slice b 13 1)).testBit 0
    let sum := (todo.map (fun p => p.2)).sum
    let bad := s.entryCheck (s.fnDom f) true b ≠ 0 || (todo.length ≥ 1024 && !last) || (last && sum ≠ c.len)
    if bad then { s with stor.cmds := s.stor.cmds.filter (fun x => x.id != id) }.malformedAt c.key c.idx 9 3
    else if last then (s.setCmd { c with todo := todo, listed := true }).cmdNext 64
    else (s.setCmd { c with todo := todo }).hread f 9 c.key (c.addr + 16 * todo.length) 16 id

/-- Data of a Write has come from host memory, or its read has failed with a status. -/
def State.storData (s : State) (id : Nat) (res : Except Nat Bytes) : State :=
  match s.stor.cmds.find? (fun c => c.id == id) with
  | none => s
  | some c => match res with
    | .error st => (s.cmdEnd c st).cmdNext 64
    | .ok b =>
      let c1 := { c with data := c.data ++ b }
      match c1.todo, s.ns? c.ns with
      | p :: rest, _ => (s.setCmd { c1 with todo := rest }).hread (fnOfKey c.key) 8 c.key p.1 p.2 id
      | [], some n => if n.state = 0 then s.cmdEnd c 0x40 else ((s.setCmd c1).postCmd c1 n).settle
      | [], none => s.cmdEnd c 0x40

/-- Whether a Flush may start (R373): every write of its namespace fetched earlier has issued its RDMA WRITE. -/
def State.flushReady (s : State) (c : StCmd) : Bool :=
  c.op == 0 && !c.started && !s.stor.cmds.any (fun x => x.id < c.id && !x.started && ((x.ns == c.ns && x.op % 2 == 1) || (x.key == c.key && !x.won)))

/-- The storage queue pairs of a namespace destroyed, and the namespace with them (R372). -/
def State.dropNs (s : State) (k : Nat) : State := match s.ns? k with
  | none => s
  | some n =>
    let s1 := s.nsAbort k
    let s2 := n.targets.foldl (fun s t => s.killQp t.qp) s1
    { s2 with stor.nss := tdel s2.stor.nss k }.settle

end Sys2Proof.Machine
end

