-- ==== Sys2Proof/Machine/Rdma.lean ====
section
/-! DEFINITION. The rows of the RDMA engine (R335-R367) and what a context fetch or write-back returns (R295-R297). -/
namespace Sys2Proof.Machine

/-! Packets (R336, R352-R356): the one at the head of a function's intake. -/

/-- RDMA_REQUEST_PACKET (R353). -/
def execRdmaRequestPacket (dt fn : Nat) (s : State) : Out := s.run dt fun s => (s.intake fn 0).settle
/-- RDMA_ACK_RECEIVED (R352). -/
def execRdmaAckReceived (dt fn : Nat) (s : State) : Out := s.run dt fun s => (s.intake fn 1).settle
/-- RDMA_NAK_RECEIVED (R348, R352). -/
def execRdmaNakReceived (dt fn : Nat) (s : State) : Out := s.run dt fun s => (s.intake fn 2).settle
/-- RDMA_RNR_NAK_RECEIVED (R354). -/
def execRdmaRnrNakReceived (dt fn : Nat) (s : State) : Out := s.run dt fun s => (s.intake fn 3).settle
/-- RDMA_READ_RESPONSE (R349). -/
def execRdmaReadResponse (dt fn : Nat) (s : State) : Out := s.run dt fun s => (s.intake fn 4).settle
/-- CNP_RECEIVED (R356). -/
def execCnpReceived (dt fn : Nat) (s : State) : Out := s.run dt fun s => (s.intake fn 5).settle

/-! Timers (R352-R356, R363). -/

/-- Whether RDMA timers run: not in Lockdown (R364). -/
def State.rdmaOn (s : State) : Bool := s.firmware && s.glb.mode != .lockdown

/-- ACK_TIMER_EXPIRY (R352). -/
def execAckTimerExpiry (dt qp : Nat) (s : State) : Out := s.run dt fun s =>
  match s.qp? qp with
  | none => s
  | some q =>
    if !s.rdmaOn || (q.state ≠ .rts && q.state ≠ .sqd) || !s.timerFires q.timer then s
    else (((s.setQp qp { q with backAt := some s.elapsed }).rdmaCount 8).goBack qp q.ackPsn).settle

/-- RNR_TIMER_EXPIRY (R354). -/
def execRnrTimerExpiry (dt qp : Nat) (s : State) : Out := s.run dt fun s =>
  match s.qp? qp with
  | none => s
  | some q =>
    if !s.rdmaOn || !s.timerFires q.rnrAt then s else (((s.setQp qp { q with rnrAt := none }).rdmaCount 7).pumpQp qp).settle

/-- RESPONDER_ACK_TIMER (R353). -/
def execResponderAckTimer (dt qp : Nat) (s : State) : Out := s.run dt fun s =>
  match s.qp? qp with
  | none => s
  | some q => match q.ackAt with
    | some e => if s.rdmaOn && e ≤ s.elapsed && q.unacked > 0 then s.sendAck qp else s
    | none => s

/-- CC_RATE_INCREASE (R356): at a grid point of 2^16 ns, once; new settings take effect there. (DEDUCED, unsafe: notes/assumptions/115.md) -/
def execCcRateIncrease (dt : Nat) (s : State) : Out := s.run dt fun s =>
  let g := s.now / grid 16
  if !s.rdmaOn || g ≤ s.rdma.ccGrid then s
  else
    let qps := tmap s.rdma.qps (fun (q : Qp) => match q.rate with
      | none => { q with slowed := false }
      | some r =>
        let top := s.portKbps q.attr.port
        let up := r + (s.ccOf q.dom).ai * 1000
        if q.slowed then { q with slowed := false } else { q with rate := if up ≥ top then none else some up })
    let s1 : State := { s with rdma.ccGrid := g, rdma.qps := qps, rdma.ccPend := [] }
    s.rdma.ccPend.foldl (fun (s : State) (p : Path × Nat × CcCfg) =>
      { s with
        rdma.cc := tset s.rdma.cc p.2.1 p.2.2
        rdma.qps := tmap s.rdma.qps (fun (q : Qp) => if q.dom = p.2.1 then { q with rate := q.rate.map (max (p.2.2.min * 1000)) } else q)
      }.tosenLater p.1 0x0A0B 0 []) s1

/-- RDMA_PACED_ENQUEUE (R356). -/
def execRdmaPacedEnqueue (dt qp : Nat) (s : State) : Out := s.run dt fun s =>
  match s.qp? qp with
  | none => s
  | some q => if s.rdmaOn && (s.ccOf q.dom).en && q.nextAt ≤ s.elapsed then (s.pumpQp qp).settle else s

/-- QPN_QUIET_END (R363): every quiet period that has ended. -/
def execQpnQuietEnd (dt : Nat) (s : State) : Out := s.run dt fun s =>
  { s with rdma.qpFree := s.rdma.qpFree.map (fun x => if x.ends ≤ s.elapsed then { x with free := true } else x) }

/-- Whether a message or an answer validated before a region's mark is still under way (R360). -/
def State.mrBusy (s : State) (i : Nat) : Bool :=
  s.rdma.qps.any (fun (q : Nat × Qp) => (q.2.state == .rtr || q.2.state == .rts || q.2.state == .sqd)
    && ((q.2.msg.bind (fun m => m.region)) == some i || q.2.resps.any (fun r => r.region == some i)))

/-- MR_DRAIN_COMPLETE (R360): host writes to the region are first acknowledged by a read of no bytes (R281). -/
def execMrDrainComplete (dt region : Nat) (s : State) : Out := s.run dt fun s =>
  match tget? s.rdma.mrs region with
  | none => s
  | some m => match m.closing with
    | none => s
    | some _ =>
      if s.mrBusy region || m.asking then s
      else match m.wrote with
        | some a => { s with rdma.mrs := tset s.rdma.mrs region { m with asking := true } }.hread m.fn 11 0 a 0 region
        | none => s.mrEnd region

/-! Commands (R366). -/

/-- Whose command one on a function is: its domain's. -/
def State.funcPerm (s : State) (f : Nat) : Perm := .owner (s.fnDom (f % 256 * 4096))

/-- RDMA_FN_CONFIG (R361, R366). -/
def execRdmaFnConfig (dt : Nat) (path : Path) (func ring : Nat) (s : State) : Out := s.run dt fun s =>
  s.tosenRun path 0x0A01 2 (func ≥ 2 ^ 25 || ring ≥ 1024) (s.funcPerm func) fun s _ =>
    let k := rkey (fnOf func) ring
    if !(s.ring k).enable || (s.ring k).kind ≠ 3 then s.deny 0x02000100
    else { s with rdma.eventRings := tset s.rdma.eventRings (fnOf func) k }.ok []

/-- RDMA_GID_SET (R343, R366). -/
def execRdmaGidSet (dt : Nat) (path : Path) (port index addr dom : Nat) (s : State) : Out := s.run dt fun s =>
  s.tosenRun path 0x0A02 5 (port ≥ 24 || dom ≥ 16) (.port port) fun s _ =>
    if index > 15 then s.deny 0x03000100
    else if port ≥ s.portCount then s.deny absentPort
    else { s with rdma.gids := tset s.rdma.gids (port * 16 + index) (addr, dom) }.ok []

/-- Whether a ring may be bound to a queue pair in a role (R341): enabled, engine 3, a submission ring of the function, not bound in the other. -/
def State.bindOk (s : State) (k : Nat) (send : Bool) : Bool :=
  let r := s.ring k
  r.enable && r.engine == 3 && r.kind < 2
    && !s.rdma.qps.any (fun (q : Nat × Qp) => q.2.storage.isNone && (if send then q.2.recvRing == k else q.2.sendRing == k))

/-- QP_CREATE (R340-R342, R366). -/
def execQpCreate (dt : Nat) (path : Path) (func send recv queue : Nat) (s : State) : Out := s.run dt fun s =>
  s.tosenRun path 0x0A03 4 (func ≥ 2 ^ 25 || send ≥ 1024 || recv ≥ 1024 || queue ≥ 32768) (s.funcPerm func) fun s _ =>
    let f := fnOf func
    let d := s.fnDom f
    if send = recv || !s.bindOk (rkey f send) true || !s.bindOk (rkey f recv) false then s.deny 0x02000101
    else if s.queueDom queue != some d || (s.queue queue).cfg.kind ≠ 1 then s.deny 0x02000102
    else match s.newQpn d with
      | .error e => s.deny e
      | .ok n => (s.newQp n { fn := f, dom := d, sendRing := rkey f send, recvRing := rkey f recv, queue := queue }).ok [n]

/-- Whose command a queue pair's is. -/
def State.qpPerm (s : State) (n : Nat) : Perm := match s.qp? n with
  | some q => .owner q.dom
  | none => match s.doms.find? (fun d => inRange (s.qpRangeOf d) n) with
    | some d => .owner d
    | none => .any

/-- States of a queue pair as QP_MODIFY and QP_QUERY number them. -/
def QState.code : QState → Nat
  | .reset => 0
  | .init => 1
  | .rtr => 2
  | .rts => 3
  | .sqd => 4
  | .error => 5

/-- The attributes of R343, numbered in its order, that a transition takes. (DEDUCED, unsafe: notes/assumptions/111.md) -/
def attrsFor (from_ : QState) (to_ : Nat) : List Nat :=
  if to_ = 1 then [0, 1] else if to_ = 2 then [2, 3, 4, 5, 6, 7, 8, 9, 10, 11, 12, 13, 14, 15, 16]
  else if to_ = 3 && from_ == .rtr then [17, 18, 19, 20, 21] else []
/-- Those without a default. (DEDUCED, unsafe: notes/assumptions/111.md) -/
def attrsNeeded (from_ : QState) (to_ : Nat) : List Nat :=
  if to_ = 1 then [0, 1] else if to_ = 2 then [2, 3, 4, 5, 13] else if to_ = 3 && from_ == .rtr then [17] else []
/-- The first value an attribute cannot have. -/
def attrTop (a : Nat) : Nat :=
  nth [24, 65536, 2 ^ 24, 2 ^ 48, 2 ^ 128, 16, 65536, 64, 256, 2 ^ 20, 2, 65536, 2, 2 ^ 24, 4097, 17, 32, 2 ^ 24, 32, 8, 8, 17] a

/-- An attribute set. -/
def QpAttr.put (x : QpAttr) (a v : Nat) : QpAttr := match a with
  | 0 => { x with port := v }
  | 1 => { x with pd := v }
  | 2 => { x with dqpn := v }
  | 3 => { x with dmac := v }
  | 4 => { x with dip := v }
  | 5 => { x with gid := v }
  | 6 => { x with sport := v }
  | 7 => { x with dscp := v }
  | 8 => { x with hop := v }
  | 9 => { x with label := v }
  | 10 => { x with vlan := if v = 1 then some (x.vlan.getD 0) else none }
  | 11 => { x with vlan := x.vlan.map (fun _ => v) }
  | 12 => { x with ecn := v == 1 }
  | 13 => { x with rxPsn := v }
  | 14 => { x with mtu := v }
  | 15 => { x with maxDest := v }
  | 16 => { x with minRnr := v }
  | 17 => { x with txPsn := v }
  | 18 => { x with timeout := v }
  | 19 => { x with retry := v }
  | 20 => { x with rnrRetry := v }
  | _ => { x with maxRd := v }

/-- The attributes a transition starts from: those it takes have their defaults (R343). (DEDUCED, unsafe: notes/assumptions/111.md) -/
def QpAttr.base (x : QpAttr) (to_ : Nat) : QpAttr :=
  if to_ = 2 then { port := x.port, pd := x.pd, txPsn := x.txPsn, timeout := x.timeout, retry := x.retry, rnrRetry := x.rnrRetry, maxRd := x.maxRd }
  else { x with timeout := 14, retry := 7, rnrRetry := 7, maxRd := 16 }

/-- Values of attributes that their range does not allow. -/
def attrBad (a v : Nat) : Bool := v ≥ attrTop a || (a == 14 && ! [256, 512, 1024, 2048, 4096].contains v)

/-- Whether R342 has a transition. -/
def qpMoves (from_ : QState) (to_ : Nat) : Bool :=
  to_ == 0 || to_ == 5 || (to_ == 1 && from_ == .reset) || (to_ == 2 && from_ == .init) || (to_ == 3 && (from_ == .rtr || from_ == .sqd))
    || (to_ == 4 && from_ == .rts)

/-- QP_MODIFY (R342, R343, R366): attributes as number and value pairs. (DESIGN CHOICE, unsafe: notes/assumptions/112.md) -/
def execQpModify (dt : Nat) (path : Path) (qp to_ : Nat) (attrs : List (Nat × Nat)) (s : State) : Out := s.run dt fun s =>
  s.tosenRun path 0x0A04 (3 + 2 * attrs.length + (attrs.filter (fun a => a.1 == 4)).length) (qp ≥ 2 ^ 20 || to_ > 5) (s.qpPerm qp) fun s _ =>
    match s.qp? qp with
    | none => s.deny 0x02000104
    | some q =>
      let bad := attrs.any (fun a => !(attrsFor q.state to_).contains a.1 || attrBad a.1 a.2)
        || (attrsNeeded q.state to_).any (fun a => !attrs.any (fun b => b.1 == a))
        || (to_ == 1 && !attrs.any (fun a => a.1 == 0 && a.2 < 24 && (a.2 ≥ s.portCount || s.portIn a.2 q.dom)))
      let from_ := if attrsFor q.state to_ = [] then q.attr else q.attr.base to_
      let x := (attrs.filter (fun a => a.1 == 10) ++ attrs.filter (fun a => a.1 != 10)).foldl (fun x a => x.put a.1 a.2) from_
      if bad then s.deny 0x03000101
      else if q.storage.isSome then s.deny 0x02000110
      else if !qpMoves q.state to_ || (to_ == 1 && attrs.any (fun a => a.1 == 0 && a.2 ≥ s.portCount)) then s.deny 0x02000104
      else
        let s1 := match to_ with
          | 0 => s.haltQp qp .reset 0x21
          | 1 => s.setQp qp { q with state := .init, attr := x }
          | 2 => s.setQp qp { q with state := .rtr, attr := x, expPsn := x.rxPsn }
          | 3 =>
            if q.state = QState.rtr then
              (s.setQp qp { q with state := .rts, attr := x, nextPsn := x.txPsn, sendPsn := x.txPsn, ackPsn := x.txPsn
                                   retries := x.retry, rnrs := x.rnrRetry, drained := false }).pumpQp qp
            else (s.setQp qp { q with state := .rts, drained := false }).pumpQp qp
          | 4 => (s.setQp qp { q with state := .sqd, drained := false }).sqDrained qp { q with state := .sqd, drained := false }
          | _ => s.haltQp qp .error 0x20
        s1.settle.ok []

/-- QP_QUERY (R366). (DESIGN CHOICE, unsafe: notes/assumptions/112.md) -/
def execQpQuery (dt : Nat) (path : Path) (qp : Nat) (s : State) : Out := s.run dt fun s =>
  s.tosenRun path 0x0A05 1 (qp ≥ 2 ^ 20) (s.qpPerm qp) fun s _ =>
    match s.qp? qp with
    | none => s.ok [0xFF]
    | some q =>
      let a := q.attr
      s.ok ([q.state.code, a.port, a.pd, a.dqpn, a.dmac, a.dip / 2 ^ 64, a.dip % 2 ^ 64, a.gid, a.sport, a.dscp, a.hop, a.label,
        b2n a.vlan.isSome, a.vlan.getD 0, b2n a.ecn, a.rxPsn, a.mtu, a.maxDest, a.minRnr, a.txPsn, a.timeout, a.retry, a.rnrRetry, a.maxRd,
        q.expPsn, q.nextPsn, q.sendPsn, q.ackPsn, q.retries, q.rnrs, q.rate.getD (s.portKbps a.port)] ++ q.counters)

/-- QP_DESTROY (R342, R366). (DESIGN CHOICE, unsafe: notes/assumptions/112.md) -/
def execQpDestroy (dt : Nat) (path : Path) (qp : Nat) (s : State) : Out := s.run dt fun s =>
  s.tosenRun path 0x0A06 1 (qp ≥ 2 ^ 20) (s.qpPerm qp) fun s _ =>
    if (s.qp? qp).any (fun q => q.storage.isSome) then s.deny 0x02000110 else ((s.killQp qp).settle).ok []

/-- Regions of a domain, and its quota (R357). -/
def State.mrUsed (s : State) (d : Nat) : Nat := (s.rdma.mrs.filter (fun (m : Nat × Mr) => s.fnDom m.2.fn == d)).length
def State.mrQuotaOf (s : State) (d : Nat) : Nat := (tget? s.rdma.mrQuota d).getD (1048576 / s.domCount)

/-- MR_REGISTER (R357, R358, R366). The key byte an index carried before its first use is drawn at random.
(DEDUCED, unsafe: notes/assumptions/113.md; DESIGN CHOICE, safe: notes/assumptions/114.md) -/
def execMrRegister (dt : Nat) (path : Path) (func pd space addr len va rights : Nat) (s : State) : Out := s.run dt fun s =>
  s.tosenRun path 0x0A07 7 (func ≥ 2 ^ 25 || pd ≥ 65536 || rights ≥ 32) (s.funcPerm func) fun s _ =>
    let f := fnOf func
    if len = 0 || len > 2 ^ 40 || space > 1 || (space = 1 && (rights.testBit 4 || addr + len > 2 ^ 36)) then s.deny 0x03000102
    else if s.mrUsed (s.fnDom f) ≥ s.mrQuotaOf (s.fnDom f) || (s.rdma.mrNext ≥ 1048576 && s.rdma.mrFree.isEmpty) then s.deny 0x02000105
    else if addr + len > 2 ^ 64 then s.deny 0x02000106
    else
      let fresh := s.rdma.mrNext < 1048576
      let i := if fresh then s.rdma.mrNext else s.rdma.mrFree.headD 0
      let prev := (tget? s.rdma.mrKeys i).getD (s.freeBits 8)
      let s1 := if (tget? s.rdma.mrKeys i).isNone then s.used else s
      let key := i * 256 + (prev + 1) % 256
      let m : Mr := { fn := f, pd := pd, space := space, addr := addr, len := len, va := va, rights := rights, key := key }
      { s1 with rdma.mrs := tset s1.rdma.mrs i m, rdma.mrNext := if fresh then s1.rdma.mrNext + 1 else s1.rdma.mrNext
                rdma.mrFree := if fresh then s1.rdma.mrFree else s1.rdma.mrFree.drop 1 }.ok [key]

/-- Whose command one on a key is. -/
def State.keyPerm (s : State) (key : Nat) : Perm := match s.mr? key with
  | some m => .owner (s.fnDom m.fn)
  | none => .any

/-- MR_DEREGISTER (R360, R366). -/
def execMrDeregister (dt : Nat) (path : Path) (key : Nat) (s : State) : Out := s.run dt fun s =>
  s.tosenRun path 0x0A08 1 (key ≥ 2 ^ 32) (s.keyPerm key) fun s _ =>
    match s.mr? key with
    | none => s.deny 0x02000107
    | some m =>
      if m.key ≠ key then s.deny 0x02000107
      else if m.closing.isSome then s.deny 0x01000101
      else (.later, { s with rdma.mrs := tset s.rdma.mrs (key / 256) { m with closing := some path, refused := 0 } })

/-- MR_QUERY (R366): its last field is 0 open, 1 closing, 2 no such region. (DESIGN CHOICE, unsafe: notes/assumptions/112.md) -/
def execMrQuery (dt : Nat) (path : Path) (key : Nat) (s : State) : Out := s.run dt fun s =>
  s.tosenRun path 0x0A09 1 (key ≥ 2 ^ 32) (s.keyPerm key) fun s _ =>
    match s.mr? key with
    | some m => if m.key = key then s.ok [fnCode m.fn, m.pd, m.space, m.addr, m.len, m.va, m.rights, b2n m.closing.isSome] else s.ok [0, 0, 0, 0, 0, 0, 0, 2]
    | none => s.ok [0, 0, 0, 0, 0, 0, 0, 2]

/-- RDMA_QUOTA (R340, R357, R366): base, count and region quota of each of the 16 domains. -/
def execRdmaQuota (dt : Nat) (path : Path) (quotas : List (Nat × Nat × Nat)) (s : State) : Out := s.run dt fun s =>
  s.tosenRun path 0x0A0A 48 false .any fun s _ =>
    let on := quotas.zipIdx.filter (fun (r : (Nat × Nat × Nat) × Nat) => s.domOn r.2)
    let clash := !rangesOk 1048576 (on.map (fun r => (r.1.1, r.1.2.1)))
    let qpOut := s.rdma.qps.any (fun (q : Nat × Qp) => !on.any (fun r => r.2 == q.2.dom && r.1.1 ≤ q.1 && q.1 < r.1.1 + r.1.2.1))
    let mrOut := on.any (fun r => s.mrUsed r.2 > r.1.2.2)
    if clash || (on.map (fun r => r.1.2.1)).sum > 1048576 || (on.map (fun r => r.1.2.2)).sum > 1048576 || qpOut || mrOut then s.deny 0x02000108
    else { s with rdma.qpRange := quotas.zipIdx.map (fun (r : (Nat × Nat × Nat) × Nat) => (r.2, (r.1.1, r.1.2.1)))
                  rdma.mrQuota := quotas.zipIdx.map (fun (r : (Nat × Nat × Nat) × Nat) => (r.2, r.1.2.2)) }.ok []

/-- RDMA_CC_SET (R356, R366): answered at the next 2^16 ns grid point. -/
def execRdmaCcSet (dt : Nat) (path : Path) (dom en dec ai min : Nat) (s : State) : Out := s.run dt fun s =>
  s.tosenRun path 0x0A0B 5 (dom ≥ 16) (.owner dom) fun s _ =>
    if en > 1 || dec = 0 || dec > 4 || ai = 0 || ai > 10000 || min < 10 || min > 100000 then s.deny 0x03000103
    else (.later, { s with rdma.ccPend := s.rdma.ccPend ++ [(path, dom, { en := en == 1, dec := dec, ai := ai, min := min })] })

/-- RDMA_QPN_QUIET (R363, R366). -/
def execRdmaQpnQuiet (dt : Nat) (path : Path) (exponent : Nat) (s : State) : Out := s.run dt fun s =>
  s.tosenRun path 0x0A0C 1 false .any fun s _ =>
    if exponent < 20 || exponent > 30 then s.deny 0x03000104 else { s with rdma.quietLog := exponent }.ok []

/-- A domain's window of R365. -/
def State.rdmaWindow (s : State) (d : Nat) : List Nat :=
  if !s.domOn d then [0, 0, 0, 0, 0, 0]
  else
    let r := s.qpRangeOf d
    [r.2, r.1, (s.rdma.qps.filter (fun (q : Nat × Qp) => q.2.dom == d)).length, s.mrQuotaOf d, s.mrUsed d, b2n (s.ccOf d).en + 2 * (s.ccOf d).dec]

/-- RDMA_STATUS (R365, R366). -/
def execRdmaStatus (dt : Nat) (path : Path) (dom : Nat) (s : State) : Out := s.run dt fun s =>
  s.tosenRun path 0x0A0D 1 (dom ≥ 16) (.owner dom) fun s d =>
    let w := s.rdmaWindow dom ++ [tget s.rdma.ceRcvd dom 0]
    s.ok (if d = 0 then w ++ [s.rdma.qps.length, s.rdma.quietLog, s.rdma.mrs.length] ++ s.rdma.counters else w)

/-! Contexts (R295-R297). -/

/-- A context's engine is told that it has failed (R297, R342). (DEDUCED, unsafe: notes/assumptions/116.md) -/
def State.ctxFailed (s : State) (k cause : Nat) : State := match s.ctx? k with
  | none => s
  | some x =>
    let s1 := (s.setCtx k { x with failed := true, fetching := false, writing := false, place := if cause = 2 then 0 else x.place, parked := [], waiting := none }).rmCount (ctxDom k) 6
      x.parked.length
    let s2 := s1.pageEvent (ctxDom k) (ctxType k) cause (ctxNum k)
    let s3 := match x.waiting with
      | some p => s2.tosenLater p 0x0805 0x020000D4 []
      | none => s2
    let live := (s3.qp? (ctxNum k)).any (fun q => q.state == .rtr || q.state == .rts || q.state == .sqd)
    (if ctxType k = 1 && live then s3.qpError (ctxNum k) 0x29 5 else s3).settle

/-- Parked packets of a context that is resident, processed in arrival order (R296). -/
def State.unpark (s : State) (k : Nat) : Nat → State
  | 0 => s
  | n + 1 => match s.ctx? k with
    | none => s
    | some x => match x.parked with
      | [] => s
      | f :: rest =>
        let s1 := s.setCtx k { x with parked := rest }
        (if f.bad then (s1.rmCount (ctxDom k) 5 1).memDom (ctxDom k) 1 else s1.rdmaPacket (ctxNum k) f).unpark k n

/-- A context back in the cache (R295, R296). -/
def State.ctxBack (s : State) (k : Nat) : State := match s.ctx? k with
  | none => s
  | some x =>
    let s0 := s.evict (ctxDom k) (ctxType k)
    let s1 := { s0 with rm.clock := s0.rm.clock + 1 }.setCtx k
      { x with place := 0, copy := x.place, changed := false, fetching := false, waiting := none, used := s0.rm.clock }
    let s2 := match x.waiting with
      | some p => s1.tosenLater p 0x0805 0 []
      | none => s1
    let s3 := (s2.unpark k (x.parked.length + 1)).missLevel (ctxDom k)
    match ctxType k with
    | 1 => (s3.pumpQp (ctxNum k)).settle
    | 3 => s3.cmdNext 64
    | _ => s3

/-- CONTEXT_FETCH_COMPLETE (R295-R297): `good` tells whether the read of the home table or of the backing pool succeeded. -/
def execContextFetchComplete (dt key : Nat) (good : Bool) (s : State) : Out := s.run dt fun s =>
  match s.ctx? key with
  | none => s
  | some x =>
    if !s.rdmaOn || !x.fetching || x.writing then s
    else if s.mem.marks.contains (4, key) then
      ({ s with mem.marks := s.mem.marks.filter (fun m => m != (4, key)) }.memDom (ctxDom key) 1).ctxFailed key 1
    else if x.place = 1 then (if good then s.ctxBack key else s.ctxFailed key 1)
    else match s.takeRead (fun r => r.what == 6 && r.sub == key && !r.dead) with
      | none => s
      | some (_, s1) => if good then s1.ctxBack key else s1.ctxFailed key 1

/-- CONTEXT_WRITEBACK_COMPLETE (R294, R297): a fetch that waited for the write-back starts. -/
def execContextWritebackComplete (dt key : Nat) (good : Bool) (s : State) : Out := s.run dt fun s =>
  match s.ctx? key with
  | none => s
  | some x =>
    if !s.rdmaOn || !x.writing then s
    else if !good then s.ctxFailed key 2
    else
      let s1 := s.setCtx key { x with writing := false, fetching := false }
      if x.fetching then s1.ctxFetch key else s1

end Sys2Proof.Machine
end

