-- ==== Sys2Proof/Machine/FnReset.lean ====
section
/-! DEFINITION. Function reset (R269, R364, R372, R209, R185) and the end of a function's work without completions (R328, R329). -/
namespace Sys2Proof.Machine

/-- Keys of the contexts whose fetch from a home table goes through a function. -/
def State.ctxsVia (s : State) (f : Nat) : List Nat :=
  ((s.pcie.reads ++ s.pcie.held).filter (fun (r : HRead) => r.fn == f && r.what == 6 && !r.dead)).map (fun (r : HRead) => r.sub)

/-- The requests of a function's queue pairs and its storage commands end without completions. -/
def State.workGone (s : State) (f : Nat) : State :=
  { s with
    stor.cmds := s.stor.cmds.filter (fun (c : StCmd) => fnOfKey c.key != f)
    rdma.qps := tmap s.rdma.qps (fun (q : Qp) => if q.fn ≠ f then q else
      { q with
        reqs := [], timer := none, rnrAt := none, sendPsn := q.nextPsn, ackPsn := q.nextPsn, msg := none, resps := [], ackAt := none
        unacked := 0 }) }

/-- Containment freeze with all that it ends (R328): contexts on their way through the function fail (R297). -/
def State.freezeFn (s : State) (f cause what ring : Nat) : State :=
  if (s.pfn f).frozen then s
  else (s.ctxsVia f).foldl (fun s k => s.ctxFailed k 1) ((s.freeze f cause what ring).workGone f)

/-- Work that D3hot has ended (R329): without completions, its reads unwanted. -/
def State.d3Ends (s : State) (f : Nat) : State :=
  let s1 := { s with rings.rings := tmapK s.rings.rings (fun k r => if fnOfKey k = f then r.dropWork else r) }.dropReads f
  (s.ctxsVia f).foldl (fun s k => s.ctxFailed k 1) (s1.workGone f)

/-- Threads no longer await completions of a ring that is reset. -/
def State.forgetPosts (s : State) (r : Ring) : State :=
  r.posters.foldl (fun s p =>
    let x := s.thr (p.2 / 8) (p.2 % 8)
    s.setThr (p.2 / 8) (p.2 % 8) { x with posts := x.posts - 1 }) s

/-- Regions of a function removed without the two phases (R364). -/
def State.dropRegions (s : State) (f : Nat) : State :=
  (s.rdma.mrs.filter (fun (m : Nat × Mr) => m.2.fn == f)).foldl (fun (s : State) (m : Nat × Mr) =>
    let s1 : State := { s with
      rdma.mrs := tdel s.rdma.mrs m.1
      rdma.mrFree := s.rdma.mrFree ++ [m.1]
      rdma.mrKeys := tset s.rdma.mrKeys m.1 (m.2.key % 256) }
    match m.2.closing with
    | some p => s1.tosenLater p 0x0A08 0 [m.2.refused]
    | none => s1) s

/-- The frames of a function's host-delivery queues discarded (R185). -/
def State.dropHostFrames (s : State) (f : Nat) : State :=
  let qs := s.tm.queues.filter (fun (q : Nat × Queue) => q.2.cfg.kind == 2 && q.2.cfg.fn == f && !q.2.frames.isEmpty)
  let s1 := qs.foldl (fun (s : State) (q : Nat × Queue) =>
    let s0 := s.setQueue q.1 { s.queue q.1 with frames := [] }
    q.2.frames.foldl (fun s x => (if x.heldIn then s.unhold x else s).queueDrop q.1 6 4) s0) s
  { s1 with dma.waits := s1.dma.waits.filter (fun (w : Nat × RxWait) => fnOfKey w.2.ring != f), rdma.intake := tdel s1.rdma.intake f }.syncSched hostSched

/-- Tosen sessions on the rings of functions end, with the requests to open one (R420). -/
def State.endFnSessions (s : State) (p : Nat → Bool) : State :=
  let on := fun (x : Path) => match x with
    | .ring fn _ => p fn
    | _ => false
  { s with tosen.opens := s.tosen.opens.filter (fun x => !on x.1) }.endSessions (fun x => on x.path)

/-- The registers of the recovery function that a function reset clears, with the transfer they show (R14, R438).
(DEDUCED, unsafe: notes/assumptions/181.md) -/
def State.recReset (s : State) : State :=
  { s with boot := { s.boot with recOffer := 0, recAgreed := 0, recLen := 0, recOffset := 0, recState := 0, recBusy := false, recFail := 0
                                 recBlocks := 0, recOwner := 0, recAccepted := 0, recFinish := none } }

/-- A frame that no longer answers a descriptor of a function. -/
def Frame.disown (f : Nat) (x : Frame) : Frame := if (x.desc.map (fun d => fnOfKey d.1)) = some f then { x with desc := none } else x
/-- The frames of a function that are on their way to the ports go on without a completion (R269). -/
def State.disown (s : State) (f : Nat) : State :=
  { s with tm.queues := tmap s.tm.queues (fun q => { q with frames := q.frames.map (Frame.disown f) })
           ports.ports := tmap s.ports.ports (fun x => { x with tx := x.tx.map (fun t => { t with frame := t.frame.disown f }) }) }

/-- The reset of one function begins (R269): what it clears, and what it keeps. (DEDUCED, unsafe: notes/assumptions/86.md) -/
def State.resetOne (s : State) (f : Nat) : State :=
  if (s.fn f).inReset then s
  else
    let lost := s.ctxsVia f
    let s1 := ((s.endFnSessions (fun x => x == f)).putFn f { inReset := true }).dropReads f
    let s2 := (s1.stor.nss.filter (fun (n : Nat × Ns) => nsFn n.1 == f)).foldl (fun (s : State) (n : Nat × Ns) => s.dropNs n.1) s1
    let s3 := (s2.rdma.qps.filter (fun (q : Nat × Qp) => q.2.fn == f)).foldl (fun (s : State) (q : Nat × Qp) => s.killQp q.1) s2
    let s4 := s3.dropRegions f
    let mine := s4.rings.rings.filter (fun (r : Nat × Ring) => fnOfKey r.1 == f)
    let s5 := mine.foldl (fun (s : State) (r : Nat × Ring) =>
      let s0 := s.forgetPosts r.2
      if r.2.engine = 4 then s0.ctxGone (ctxKey 3 (s0.fnDom f) r.1) else s0) s4
    let old := s5.ringFn f
    let s6 : State := { s5 with
      rings.rings := s5.rings.rings.filter (fun (r : Nat × Ring) => fnOfKey r.1 != f)
      rings.fns := tset s5.rings.fns f { counters := old.counters }
      tb.latch := tdel s5.tb.latch f
      rdma.eventRings := tdel s5.rdma.eventRings f
      stor.cmds := s5.stor.cmds.filter (fun (c : StCmd) => fnOfKey c.key != f) }
    let x := s6.pfn f
    let waits := x.wins.flatMap (fun (w : Nat × Win) => w.2.waiting)
    let s6 := if f = 0 && s6.glb.mode = .recovery then s6.recReset else s6
    let s6 : State := { s6 with led.chains := tmapK s6.led.chains (fun d c => if s6.ledgerFn d = f then { c with copied := 0 } else c) }
    let s7 := s6.setPfn f { x with frozen := false, cause := 0, what := 0, ring := 0, wins := [], winMax := x.winMaxNext, resetAt := s6.elapsed, outbox := [], msix := [], pba := [] }
    let s8 := waits.foldl (fun (s : State) (p : Path) => s.tosenLater p 0x0904 0 []) s7
    let s9 := (s8.slu.store.filter (fun r => (r.frame.desc.map (fun d => fnOfKey d.1)) == some f)).foldl (fun s r => (s.dropReplica r).sluCount r.port 7) (s8.dropHostFrames f)
    lost.foldl (fun s k => s.ctxFailed k 1) (s9.disown f)

/-- The VFs a PF has (R314). -/
def State.vfsOf (s : State) (f : Nat) : List Nat := if isVf f then [] else (List.range (s.pfn f).vfs).map (fun i => f + 1 + i)

/-- A function reset begins: of a PF, with each of its VFs. (DEDUCED, unsafe: notes/assumptions/86.md) -/
def State.functionReset (s : State) (f : Nat) : State := ((f :: s.vfsOf f)).foldl State.resetOne s

/-- A function's configuration space returns to its default values. (PRESUMED, unsafe: notes/assumptions/99.md) -/
def PFn.configDefault (x : PFn) : PFn := { x with bme := false, mse := false, d3 := false, ctoVal := 0, romEn := false, msixOn := false, msixMask := false, tag10 := false }

/-- A function reset completes (R269, R33): `IN_RESET` returns to 0, PF0 is ready again, and the commands that asked for it are answered. -/
def State.resetDone (s : State) (f : Nat) : State :=
  if !(s.fn f).inReset then s
  else
    let x := s.pfn f
    let s0 := (s.putFn f { ready := f == 0 && s.firmware }).setPfn f { x with resetPaths := [] }
    let s1 := if f = 0 && s.firmware then s0.markTrial else s0
    x.resetPaths.foldl (fun (s : State) (p : Path) => s.tosenLater p 0x0941 0 []) s1

end Sys2Proof.Machine
end

