-- ==== Sys2Proof/Machine/TosenIn.lean ====
section
/-! DEFINITION. How Tosen packets arrive (R405, R407-R420): the generation and sequence checks, the window, and the requests of a ring
in the order of its descriptors. -/
namespace Sys2Proof.Machine

/-- The sequence after `e`: modulo 2^32, 0 skipped (R418). -/
def nextSeq (e : Nat) : Nat := if e + 1 ≥ 2 ^ 32 then 1 else e + 1
/-- How far a sequence lies ahead of the expected one, 0 skipped. -/
def seqAhead (e q : Nat) : Nat := (q + (2 ^ 32 - 1) - e) % (2 ^ 32 - 1)

/-- A packet's header as a request (R407), with the length it was carried in. -/
def reqOf (b : Bytes) (carried : Nat) : TReq :=
  { seq := ofLe (slice b 4 4), opcode := ofLe (slice b 2 2), ver := ofLe (slice b 0 1), flags := ofLe (slice b 1 1), dom := ofLe (slice b 9 1)
    len := ofLe (slice b 10 2), carried := carried, status := ofLe (slice b 12 4) }
/-- A packet's generation. -/
def genOf (b : Bytes) : Nat := ofLe (slice b 8 1)

/-- The domain a path issues for (R405). -/
def State.pathDom (s : State) (p : Path) : Nat := match p with
  | .ring fn _ => s.fnDom fn
  | _ => 0

/-- Whether a path carries Tosen in the present mode (R405). -/
def State.carries (s : State) (p : Path) : Bool :=
  s.firmware && match p with
    | .ring fn _ => fn == 0 || (s.glb.mode != .lockdown && s.glb.mode != .factory)
    | _ => true

/-- A request discarded without a reply: its descriptor is done with (R418). (DEDUCED, unsafe: notes/assumptions/132.md) -/
def State.discardReq (s : State) (p : Path) (q : TReq) : State := match p with
  | .ring fn rid => s.setRing (rkey fn rid) ((s.ring (rkey fn rid)).finish q.idx 0)
  | _ => s

/-- A request discarded and counted in `STALE`. -/
def State.stale (s : State) (x : Session) (q : TReq) : State := (s.onSession x.path (fun y => { y with heard := x.heard, stale := inc48 y.stale })).discardReq x.path q

/-- A reply to a request that no session accepted (R417). -/
def State.refuseReq (s : State) (p : Path) (q : TReq) (status : Nat) : State :=
  s.sendReply { path := p, dom := s.pathDom p, gen := 0, ver := q.ver } q 0 status 0 0 []

/-- The sessions of a path end (R420): requests queued or executing get no reply, and their descriptors are done with.
(DEDUCED, unsafe: notes/assumptions/132.md) -/
def State.endPath (s : State) (p : Path) : State :=
  let s1 := match s.session? p with
    | some x => (x.running.toList ++ x.queue).foldl (fun (s : State) q => s.discardReq p q) s
    | none => s
  s1.endSessions (fun x => x.path == p)

/-- A request that arrives on a path (R417-R419). (DEDUCED, unsafe: notes/assumptions/129.md) -/
def State.tosenArrive (s : State) (p : Path) (q : TReq) (gen : Nat) : State :=
  if !s.carries p then s
  else if q.opcode = 1 && q.seq = 1 && gen = 0 then
    let s1 := if p = .windlass then s else s.endPath p
    { s1 with tosen.opens := s1.tosen.opens ++ [(p, q)] }
  else match s.session? p with
    | none => if q.opcode = 1 then s.discardReq p q else s.refuseReq p q 0x0300FF05
    | some x0 =>
      let x := { x0 with heard := s.elapsed }
      let heard := s.onSession p (fun y => { y with heard := s.elapsed })
      if gen ≠ x.gen || q.seq = 0 || q.opcode = 1 then s.stale x q
      else
        let a := seqAhead x.want q.seq
        let waiting := x.queue.length + b2n x.running.isSome
        let onMp := match p with
          | .mp _ => true
          | _ => false
        if a = 0 then
          if onMp && waiting ≥ 16 then heard.sendReply x q x.gen 0x0100FF01 0 0 []
          else (heard.onSession p (fun y => { y with want := nextSeq x.want, queue := x.queue ++ [q] })).skipUndefined p (x.queue.length + 2)
        else if a ≤ 15 then heard.sendReply x q x.gen 0x0100FF03 0 0 [x.want]
        else if a ≥ 2 ^ 32 - 17 then
          match x.cache.find? (fun c => c.seq == q.seq) with
          | some c => heard.sendReply x { q with opcode := c.opcode } x.gen c.status 1 c.began c.fields
          | none =>
            if x.queue.any (fun y => y.seq == q.seq) || (x.running.map (fun y => y.seq)) == some q.seq then heard.discardReq p q
            else s.stale x q
        else s.stale x q

/-- The requests of a Tosen ring whose packets have been read, taken in ring order (R409). (DEDUCED, unsafe: notes/assumptions/132.md) -/
def State.takeRequests (s : State) (k : Nat) : Nat → State
  | 0 => s
  | n + 1 =>
    match (s.ring k).fetched.find? (fun d => !d.ended && !d.started) with
    | none => s
    | some d =>
      match d.body with
      | none => s
      | some b =>
        let q := { reqOf b b.length with idx := d.idx, tag := d.tag, buf := d.aux, cap := d.len / 65536 }
        let s1 := s.setRing k ((s.ring k).onDesc d.idx (fun y => { y with started := true, body := none }))
        (s1.tosenArrive (.ring (fnOfKey k) (k % 1024)) q (genOf b)).takeRequests k n

/-- A Tosen request's packet has come from host memory. -/
def State.requestRead (s : State) (k idx : Nat) (b : Bytes) : State :=
  (s.setRing k ((s.ring k).onDesc idx (fun d => { d with body := some b }))).takeRequests k 64

/-- Its read failed (R327): the descriptor ends with the status, and is not answered. (DEDUCED, unsafe: notes/assumptions/132.md) -/
def State.requestFail (s : State) (k idx st : Nat) : State := (s.descEnd k idx st).takeRequests k 64

end Sys2Proof.Machine
end

