-- ==== Sys2Proof/Machine/RingIn.lean ====
section
/-! DEFINITION. What comes back from host memory (R256, R258-R262, R267, R326, R327): indices, descriptors with their checks, and the unit each
other read belongs to; and what its failure does. -/
namespace Sys2Proof.Machine

/-! Descriptors as they are read (R258). -/

/-- A descriptor of 32 bytes at an index. -/
def descOf (i : Nat) (b : Bytes) : Desc :=
  { idx := i, raw := b, addr := ofLe (slice b 0 8), aux := ofLe (slice b 8 8), tag := ofLe (slice b 16 4), len := ofLe (slice b 20 4)
    type := ofLe (slice b 24 1), flags := ofLe (slice b 25 1), queue := ofLe (slice b 26 2), tci := ofBe (slice b 28 2) }

/-- Whether byte 30, which every descriptor leaves zero, is zero. -/
def Desc.pad (d : Desc) : Nat := ofLe (slice d.raw 30 1)

/-- The first check that fails: a reason of R267 and its sub-code. (DEDUCED, unsafe: notes/assumptions/82.md) -/
def firstFail : List (Bool × Nat × Nat) → Option (Nat × Nat)
  | [] => none
  | (b, r) :: l => if b then some r else firstFail l

/-- What the next slots of a ring hold (R260, R344): less than a unit, a malformed slot, or a unit of `n` slots. -/
inductive UnitRead where
  | more
  | bad (off reason sub : Nat)
  | whole (n : Nat)
  deriving DecidableEq, Repr

/-- Slots of a transmitted frame from slot `i` on (R260): its chained descriptors, then the schedule entry where it is released. -/
def txSlots (entry : Bool) : Nat → List Desc → UnitRead
  | _, [] => .more
  | i, d :: r =>
    if i ≥ 16 then .bad 16 6 0
    else if d.type != 1 || !d.flags.testBit 5 then (if entry && d.type == 1 && r.isEmpty then .more else .whole (i + 1 + b2n (entry && d.type == 1)))
    else txSlots entry (i + 1) r

/-- The unit at the head of the slots read from a ring. (DEDUCED, unsafe: notes/assumptions/82.md) -/
def unitOf (engine minor : Nat) (l : List Desc) : UnitRead :=
  match l with
  | [] => .more
  | d :: r =>
    if engine = 0 then txSlots (d.flags.testBit 2 && minor ≥ 4) 0 l
    else if engine = 3 && d.type % 16 ≤ 8 && 2 ≤ d.type / 16 && d.type / 16 ≤ 3 then (if r.isEmpty then .more else .whole 2)
    else .whole 1

/-! The checks of R267. -/

/-- A queue of kind 1 of a domain. -/
def State.txQueueOk (s : State) (d q : Nat) : Bool := s.queueDom q == some d && (s.queue q).cfg.kind == 1

/-- One descriptor of a frame of `n` descriptors, at place `i` (R260). (DEDUCED, unsafe: notes/assumptions/82.md) -/
def State.checkTx (s : State) (dom minor n i : Nat) (d : Desc) (total : Nat) : Option (Nat × Nat) :=
  let rel := d.flags.testBit 2
  let rep := d.flags.testBit 4
  firstFail
    [(d.type ≠ 1, 1, 0),
     (d.flags ≥ 64 || d.queue ≥ 32768 || d.pad ≠ 0 || (rep && minor < 3) || (rel && minor < 4) || (!rep && d.aux ≠ 0)
       || (i = 0 && rel && d.queue ≠ 0), 2, 0),
     (d.len = 0 || d.len > 9728 || (i + 1 = n && (total < 14 || total > 9728)), 3, 0),
     (d.addr = 0 || (rep && (d.aux = 0 || d.aux % 16 ≠ 0)), 4, 0),
     (i = 0 && !rel && !s.txQueueOk dom d.queue, 5, 0),
     ((i > 0 && (d.flags / 2 % 16 ≠ 0)) || (d.flags.testBit 0 && i + 1 ≠ n), 6, 0)]

/-- The ports a schedule entry names, ascending. -/
def entryPorts (b : Bytes) : List Nat := (List.range 24).filter (fun p => (ofLe (slice b 8 3)).testBit p)

/-- A schedule entry (R200, R201). -/
def State.checkEntry (s : State) (dom : Nat) (b : Bytes) : Option (Nat × Nat) :=
  let base := ofLe (slice b 12 2)
  firstFail
    [(ofLe (slice b 11 1) > 3 || base ≥ 32768 || ofLe (slice b 24 8) ≠ 0, 2, 0),
     ((entryPorts b).isEmpty || (entryPorts b).any (fun p => p ≥ s.portCount || !s.portIn p dom || !s.txQueueOk dom (base + p)
        || (s.queue (base + p)).cfg.port ≠ p), 5, 0)]

/-- Whether a descriptor's tag breaks R264 on a ring that feeds an out-of-order ring. -/
def State.tagBad (s : State) (k : Nat) (d : Desc) : Bool :=
  let r := s.ring k
  (s.ring (rkey (fnOfKey k) r.cq)).kind == 3 && (d.tag / 2 ^ 24 == 0 || r.fetched.any (fun x => x.tag % 2 ^ 24 == d.tag % 2 ^ 24))

/-- Bit `TYPE` of an RDMA descriptor: its operation, and whether its buffer is in a cistern. -/
def Desc.op (d : Desc) : Nat := d.type % 16
def Desc.space (d : Desc) : Nat := d.type / 16 % 2

/-- Whether an extension slot holds something its operation does not use (R344, R345). -/
def extBad (op : Nat) (x : Bytes) : Bool :=
  let f := ofLe (slice x 13 1)
  ofLe (slice x 0 4) ≥ 2 ^ 20 || ofLe (slice x 12 1) > 3 || ofLe (slice x 14 2) ≠ 0 || (op < 2 && ofLe (slice x 4 4) ≠ 0)
    || (op ≠ 1 && op ≠ 3 && ofLe (slice x 8 4) ≠ 0) || (if op = 7 then f > 7 || f % 4 = 0 || f % 4 = 3 else f ≠ 0)
    || (op ≠ 5 && op ≠ 6 && op ≠ 8 && ofLe (slice x 16 8) ≠ 0) || (op ≠ 5 && ofLe (slice x 24 8) ≠ 0)

/-- A descriptor of an RDMA ring with its extension slot (R344-R347). -/
def State.checkRdma (s : State) (k : Nat) (d : Desc) (x : Bytes) : Option (Nat × Nat) :=
  let op := d.op
  let q := s.qp? (ofLe (slice x 0 4) % 2 ^ 20)
  let bound := if op = 9 then s.rdma.qps.any (fun (q : Nat × Qp) => q.2.storage.isNone && q.2.recvRing == k)
    else q.any (fun q => q.storage.isNone && q.fn == fnOfKey k && q.sendRing == k)
  let lenBad := if op = 5 || op = 6 || op = 8 then d.len ≠ 8
    else if op = 7 then (if (ofLe (slice x 13 1)).testBit 2 then d.len ≠ 0 else d.len = 0 || d.len > 2 ^ 31) else d.len > 2 ^ 31
  firstFail
    [(d.type / 16 < 2 || d.type / 16 > 3 || op > 9 || (d.space = 1 && (op = 7 || op = 8)), 1, 0),
     (d.flags > 1 || d.queue ≠ 0 || d.tci ≠ 0 || d.pad ≠ 0 || ((op = 7 || op = 8) && d.addr ≠ 0) || (op = 9 && d.aux ≠ 0), 2, 0),
     ((op = 5 || op = 6) && d.addr % 8 ≠ 0, 4, 0),
     (d.space = 0 && op ≠ 7 && op ≠ 8 && d.len > 0 && d.addr = 0, 4, 0),
     (!bound, 9, 1), (op ≠ 9 && extBad op x, 9, 2), (lenBad, 9, 3)]

/-- A plain DMA space's address (R277, R279): a host address is needed, a local one lies in a core of the domain. -/
def State.dmaAddrFail (s : State) (dom space a len : Nat) : List (Bool × Nat × Nat) :=
  if space = 0 then [(a = 0, 4, 0)]
  else if space = 2 then
    [(a ≥ 2 ^ 25, 2, 0), (s.coreDom (localCore a) != some dom || localCore a ≥ 96, 5, 0), (localOff a + len > 2 ^ 18, 9, 6)]
  else []

/-- A DMA descriptor (R277). A scatter-gather copy's lists are checked by its channel. -/
def State.checkDma (s : State) (dom : Nat) (d : Desc) : Option (Nat × Nat) :=
  let plain := d.type ≠ 0x1F
  let both := if plain then s.dmaAddrFail dom (d.type % 4) d.addr d.len ++ s.dmaAddrFail dom (d.type / 4 % 4) d.aux d.len else []
  let of := fun n => both.any (fun x => x.1 && x.2.1 == n)
  firstFail
    [(d.type / 16 ≠ 1 || (plain && (d.type % 4 = 3 || d.type / 4 % 4 = 3)), 1, 0),
     (d.flags > 1 || d.queue ≠ 0 || d.tci ≠ 0 || d.pad ≠ 0 || of 2, 2, 0), (d.len = 0 || d.len > 2 ^ 28, 3, 0), (of 4, 4, 0), (of 5, 5, 0), (of 9, 9, 6)]

/-- A storage descriptor (R369). -/
def State.checkStor (s : State) (f : Nat) (d : Desc) : Option (Nat × Nat) :=
  let n := s.ns? (f * 64 + bits d.aux 45 40)
  let blk := (n.map (fun n => n.blk)).getD 512
  let flush := d.type = 0x40
  firstFail
    [(! [0x40, 0x41, 0x42, 0x43, 0x45, 0x46, 0x49, 0x4B, 0x4D].contains d.type, 1, 0),
     (d.flags > 1 || d.queue ≠ 0 || d.tci ≠ 0 || d.pad ≠ 0 || bits d.aux 39 32 ≠ 0 || d.aux ≥ 2 ^ 46, 2, 0),
     (!flush && d.type % 4 ≠ 3 && !d.type.testBit 2 && d.addr = 0, 4, 0), (n.isNone, 9, 1),
     (if flush then d.len ≠ 0 || d.addr ≠ 0 || d.aux % 2 ^ 32 ≠ 0 else d.len = 0 || d.len % blk ≠ 0 || d.len > 2 ^ 20, 9, 2)]

/-- A descriptor of any ring but a transmit ring; `x` is its extension slot. (DEDUCED, unsafe: notes/assumptions/82.md) -/
def State.checkDesc (s : State) (k : Nat) (d : Desc) (x : Bytes) : Option (Nat × Nat) :=
  let f := fnOfKey k
  match (s.ring k).engine with
  | 1 => firstFail
      [(d.type ≠ 2, 1, 0), (d.flags > 1 || d.aux ≠ 0 || d.queue ≠ 0 || d.pad ≠ 0, 2, 0), (d.len < 256 || d.len > 65536 || d.len % 64 ≠ 0, 3, 0),
       (d.addr = 0 || d.addr % 64 ≠ 0, 4, 0)]
  | 2 => s.checkDma (s.fnDom f) d
  | 3 => s.checkRdma k d x
  | 4 => s.checkStor f d
  | 5 => firstFail
      [(d.type ≠ 4, 1, 0), (d.flags ≠ 0 || d.queue ≠ 0 || d.tci ≠ 0 || d.pad ≠ 0, 2, 0),
       (d.addr = 0 || d.addr % 8 ≠ 0 || d.aux = 0 || d.aux % 8 ≠ 0, 4, 0), (s.tagBad k d, 7, 0),
       (d.len % 65536 < 16 || d.len % 65536 > 65528 || d.len % 8 ≠ 0, 9, 1), (d.len / 65536 < 16 || d.len / 65536 % 8 ≠ 0, 9, 2)]
  | e => firstFail
      [(d.type ≠ 3, 1, 0), (d.flags ≠ 0 || d.aux ≠ 0 || d.queue ≠ 0 || d.tci ≠ 0 || d.pad ≠ 0, 2, 0),
       (d.len = 0 || d.len % 4096 ≠ 0 || (e = 6 && d.len > 2 ^ 20), 3, 0), (d.addr = 0 || d.addr % 4096 ≠ 0, 4, 0), (s.tagBad k d, 7, 0)]

/-- The first slot of a unit that fails a check: its place, reason and sub-code. -/
def State.unitFail (s : State) (k : Nat) (u : List Desc) : Option (Nat × Nat × Nat) :=
  let r := s.ring k
  let dom := s.fnDom (fnOfKey k)
  let minor := (s.ringFn (fnOfKey k)).agreed % 16
  let first := u.headD {}
  if r.engine = 0 then
    let n := min u.length ((u.takeWhile (fun d => d.type == 1 && d.flags.testBit 5)).length + 1)
    let total := ((u.take n).map (fun d => d.len)).sum
    u.zipIdx.findSome? (fun x =>
      (if x.2 < n then s.checkTx dom minor n x.2 x.1 total else s.checkEntry dom x.1.raw).map (fun e => (x.2, e)))
  else (s.checkDesc k first ((u.getD 1 {}).raw)).map (fun e => (0, e))

/-! A unit handed to its engine. -/

/-- A frame read from a ring (R260): its job, and a read for each of its descriptors. -/
def State.takeFrame (s : State) (k : Nat) (u : List Desc) : State :=
  let first := u.headD {}
  let n := u.length - b2n (first.flags.testBit 2)
  let entry := (u.getD n {}).raw
  let rel := first.flags.testBit 2
  let ports := if rel then entryPorts entry else [(s.queue first.queue).cfg.port]
  let j : TxJob :=
    { first := first.idx, count := n, left := ports.length, ports := ports, release := rel, entry := if rel then entry else []
      report := if first.flags.testBit 4 then some first.aux else none }
  let r := s.ring k
  (u.take n).foldl (fun s d => s.hread (fnOfKey k) 2 k d.addr d.len d.idx) (s.setRing k { r with jobs := r.jobs ++ [j] })

/-- A send request put behind those of its queue pair (R342, R344). -/
def State.startSend (s : State) (k : Nat) (d : Desc) (x : Bytes) : State :=
  let n := ofLe (slice x 0 4) % 2 ^ 20
  match s.qp? n with
  | none => s
  | some q =>
    if q.state = .error then (s.descEnd k d.idx 0x20).runs k
    else if q.state = .reset then (s.descEnd k d.idx 0x21).runs k
    else
      let r : RReq :=
        { owner := .ring k d.idx, op := d.op, space := d.space, addr := d.addr, len := d.len, va := d.aux, rkey := ofLe (slice x 4 4)
          imm := ofBe (slice x 8 4), fence := (ofLe (slice x 12 1)).testBit 0, solicited := (ofLe (slice x 12 1)).testBit 1
          flushType := ofLe (slice x 13 1), op1 := ofLe (slice x 16 8), op2 := ofLe (slice x 24 8) }
      ((s.setQp n { q with reqs := q.reqs ++ [r] }).pumpQp n).settle

/-- A checked unit joins its ring's fetched work and its engine takes it. Descriptors behind a failed one of their run are not started (R283). -/
def State.takeUnit (s : State) (k : Nat) (u : List Desc) : State :=
  let r := s.ring k
  let d := u.headD {}
  let rest := u.drop 1
  let own := if r.engine = 0 then u.length - b2n (d.flags.testBit 2) else 1
  let list := u.zipIdx.map (fun x => if x.2 < own then x.1 else { x.1 with type := 0xFF, ended := true, flags := 0 })
  let s1 := s.setRing k { r with fetched := r.fetched ++ list, dev := (r.dev + u.length) % 2 ^ 32 }
  match r.engine with
  | 0 => s1.takeFrame k u
  | 1 => s1.syncSched hostSched
  | 2 =>
    if r.runFailed then
      let s2 := s1.descEnd k d.idx 0x13
      (s2.setRing k { s2.ring k with runFailed := !d.rcSet }).runs k
    else s1
  | 3 =>
    if d.op ≠ 9 then s1.startSend k d ((rest.headD {}).raw) else s1
  | 4 => s1.storAdmit k d
  | 5 => s1.hread (fnOfKey k) 10 k d.addr (d.len % 65536) d.idx
  | _ => s1

/-- The slots read from a ring taken unit by unit; a unit not wholly read, or one that may not begin (R266 step 3), is kept. -/
def State.takeUnits (s : State) (k : Nat) (l : List Bytes) : Nat → State
  | 0 => s
  | n + 1 =>
    let r := s.ring k
    let f := fnOfKey k
    if s.mute f || (s.fn f).halted || l.isEmpty || (s.glb.mode = .lockdown && r.engine ≠ 5) then s
    else if s.sumpStops k then s.setRing k { r with peek := l }
    else
      let ds := l.zipIdx.map (fun x => descOf ((r.dev + x.2) % 2 ^ 32) x.1)
      match unitOf r.engine ((s.ringFn f).agreed % 16) ds with
      | .more => s.setRing k { r with peek := l }
      | .bad off reason sub => s.malformed k ((r.dev + off) % 2 ^ 32) reason sub
      | .whole m => match s.unitFail k (ds.take m) with
        | some (off, reason, sub) => s.malformed k ((r.dev + off) % 2 ^ 32) reason sub
        | none => (s.takeUnit k (ds.take m)).takeUnits k (l.drop m) n

/-- The bytes of `n` slots. -/
def slotsOf (b : Bytes) (n : Nat) : List Bytes := (List.range n).map (fun i => slice b (32 * i) 32)

/-- Descriptors have come from host memory (R256, R267): checked, taken by their engine, and the next ones fetched. -/
def State.descsRead (s : State) (k : Nat) (b : Bytes) : State :=
  let r := s.ring k
  let l := r.peek ++ slotsOf b (b.length / 32)
  ((s.setRing k { r with fetching := false, peek := [] }).takeUnits k l (l.length + 1)).fetch k

/-- Work that a full sump kept from beginning begins (R266 step 4). -/
def State.restart (s : State) (k : Nat) : State :=
  if (s.ring k).sumpFull then s
  else (s.feeders k).foldl (fun s j =>
    let l := (s.ring j).peek
    let s1 := if l.isEmpty then s else (s.setRing j { s.ring j with peek := [] }).takeUnits j l (l.length + 1)
    let s2 := if (s1.ring j).engine = 0 then s1.admitJobs j ((s1.ring j).jobs.length + 1) else s1
    if (s2.ring j).engine ≠ 3 then s2
    else ((s2.rdma.qps.filter (fun (q : Nat × Qp) => q.2.storage.isNone && q.2.sendRing == j)).foldl (fun (s : State) (q : Nat × Qp) => s.pumpQp q.1) s2).settle) s

/-- A ring's host-written index has come (R253, R256, R266, R267). -/
def State.indexRead (s : State) (k v : Nat) : State :=
  let r := s.ring k
  let s1 := s.setRing k { r with reading := false, again := false, host := v }
  let s2 :=
    if r.kind ≥ 2 then (s1.roomSeen k).restart k
    else if (v + 2 ^ 32 - r.done) % 2 ^ 32 > r.entries then (s1.setRing k { s1.ring k with host := r.host }).malformed k v 8 0
    else s1.fetch k
  if r.again && (s2.ring k).enable && !s2.mute (fnOfKey k) then s2.readIndex k else s2

/-! Reads that have ended (R326, R327). -/

/-- All the data of a read has come. -/
def State.readGood (s : State) (r : HRead) (b : Bytes) : State :=
  match r.what with
  | 0 => s.indexRead r.ring (ofLe (slice b 0 4))
  | 1 => s.descsRead r.ring b
  | 2 => s.txPiece r.ring r.sub b
  | 4 => s.dmaList r.ring b
  | 5 => s.flushDone r.ring r.sub true
  | 6 => s.ctxBack r.sub
  | 7 => (s.respData r.ring r.sub (.ok b)).settle
  | 8 => s.storData r.sub (.ok b)
  | 9 => s.storList r.sub b
  | 10 => s.requestRead r.ring r.sub b
  | 11 => s.mrEnd r.sub
  | _ => s

/-- A read has failed: `st` is 3 for UR, CA or a timeout and 4 for poison; `cause` is that of R317. -/
def State.readBad (s : State) (r : HRead) (cause : Nat) : State :=
  let st := if cause = 4 then 4 else 3
  match r.what with
  | 0 => s.freezeFn r.fn cause 1 (r.ring % 1024)
  | 1 => s.freezeFn r.fn cause 2 (r.ring % 1024)
  | 2 => s.txPieceFail r.ring r.sub st
  | 3 => (s.dmaEnd r.ring st).dropDmaReads r.ring
  | 4 => s.dmaEnd r.ring st
  | 5 => s.flushDone r.ring r.sub false
  | 6 => s.ctxFailed r.sub 1
  | 7 => (s.respData r.ring r.sub (.error st)).settle
  | 8 => s.storData r.sub (.error st)
  | 9 => s.storData r.sub (.error st)
  | 10 => s.requestFail r.ring r.sub st
  | 11 => s.mrEnd r.sub
  | _ => s

/-- A completion for a read (R326): data, which may be part of what was asked, or a status - 0 successful, 2 UR, 3 CA - and `ep` where it is poisoned. -/
def State.readReturn (s : State) (r : HRead) (status : Nat) (ep : Bool) (data : Bytes) : State :=
  let gone := { s with pcie.reads := s.pcie.reads.filter (fun (x : HRead) => x.tag != r.tag) }.issueHeld
  if status ≠ 0 then (if r.dead then gone.pcieCount 3 else (gone.pcieCount 3).readBad r status)
  else
    let s0 := if ep then s.pcieCount 4 else s
    match s0.gather r data with
    | (whole, s1) =>
      if r.dead then s1
      else if ep then
        { s1 with pcie.reads := s1.pcie.reads.map (fun (x : HRead) => if x.tag = r.tag then { x with dead := true } else x) }.readBad r 4
      else if r.what = 3 then s1.dmaData r.ring data whole.isNone
      else match whole with
        | some b => s1.readGood r b
        | none => s1

end Sys2Proof.Machine
end

