-- ==== Sys2Proof/Machine/Rings.lean ====
section
/-! DEFINITION. The rows of rings, doorbells and completions, and of function reset (R252-R273). -/
namespace Sys2Proof.Machine

/-- DOORBELL_WRITE (R256); of a halted function, one for a completion ring whose sump holds entries is accepted, so that they are written (R273).
(DEDUCED, unsafe: notes/assumptions/83.md) -/
def execDoorbellWrite (dt fn ring width value : Nat) (s : State) : Out := s.run dt fun s =>
  let k := rkey fn ring
  let r := s.ring k
  if !s.barOpen fn || (width ≠ 4 && width ≠ 8) then s
  else if value ≠ ring || !r.enable || ((s.fn fn).halted && (r.kind < 2 || r.sump.isEmpty)) || (s.pfn fn).frozen then s.ringCount fn 0
  else if s.glb.mode = .drain && r.kind < 2 && r.newWork (s.isSend k) then s.ringCount fn 1
  else s.readIndex k

/-- INDEX_READ_RETURN (R256): data for the read of a ring's index. -/
def execIndexReadReturn (dt fn ring value : Nat) (s : State) : Out := s.run dt fun s =>
  match s.pcie.reads.find? (fun (r : HRead) => r.what == 0 && r.ring == rkey fn ring && !r.dead) with
  | none => s
  | some r => s.readReturn r 0 false (le value 4)

/-- DESCRIPTOR_FETCH (R267): data for the read of a ring's descriptors. -/
def execDescriptorFetch (dt fn ring : Nat) (data : Bytes) (s : State) : Out := s.run dt fun s =>
  match s.pcie.reads.find? (fun (r : HRead) => r.what == 1 && r.ring == rkey fn ring && !r.dead) with
  | none => s
  | some r => s.readReturn r 0 false data

/-! Enabling (R252, R270, R271). -/

/-- Rings and completion rings a domain may enable. (DEDUCED, unsafe: notes/assumptions/80.md) -/
def State.ringQuota (s : State) (d : Nat) : Nat × Nat := tget s.rings.quota d (65536 / s.domCount, 2048 / s.domCount)
/-- Enabled rings that satisfy `p`. -/
def State.ringsOn (s : State) (p : Nat → Ring → Bool) : Nat := (s.rings.rings.filter (fun (x : Nat × Ring) => x.2.enable && p x.1 x.2)).length
/-- RING_FN_LIMIT (R271). (DEDUCED, unsafe: notes/assumptions/80.md) -/
def State.fnLimit (s : State) (f : Nat) : Nat :=
  min 1024 (s.ringQuota (s.fnDom f)).1 + 2048 * min 1024 (s.ringQuota (s.fnDom f)).2

/-- The role of R274 an engine's work has. -/
def engineRole (e : Nat) : Option Nat :=
  if e = 0 then some 2 else if e = 1 then some 1 else if e = 2 then some 0 else if e = 6 || e = 7 then some 3 else none

/-- The fields of a RING_CFG word put into a ring that is not enabled (R271); reserved encodings are not taken (R15).
(DESIGN CHOICE, unsafe: notes/assumptions/81.md) -/
def Ring.config (r : Ring) (v : Nat) : Ring :=
  { r with
    kind := bits v 2 1, log2 := if 4 ≤ bits v 7 3 && bits v 7 3 ≤ 16 then bits v 7 3 else r.log2
    engine := if bits v 11 8 ≤ 7 then bits v 11 8 else r.engine, rcEvery := v.testBit 12, cq := bits v 25 16 }

/-- Whether a ring's configuration is valid (R271, R274, R409, R103, R192, R368). (DEDUCED, unsafe: notes/assumptions/80.md) -/
def State.ringValid (s : State) (k : Nat) (r : Ring) : Bool :=
  let f := fnOfKey k
  let d := s.fnDom f
  let cq := s.ring (rkey f r.cq)
  let ofDom := fun (n : Nat) (_ : Ring) => s.fnDom (fnOfKey n) == d
  (s.ringFn f).agreed != 0 && 4 ≤ r.log2 && r.log2 ≤ 16
    && s.ringsOn ofDom < (s.ringQuota d).1 && s.ringsOn (fun n _ => fnOfKey n == f) < 1024
    && (if r.kind ≥ 2 then r.vector < (if isVf f then 64 else 2048) && s.ringsOn (fun n x => ofDom n x && x.kind ≥ 2) < (s.ringQuota d).2
        else cq.enable && cq.kind == (if r.engine == 5 || r.engine == 6 then 3 else 2)
          && (match engineRole r.engine with
              | some role => (s.attach d role).isSome
              | none => true)
          && (r.engine != 6 && r.engine != 7 || f == s.firstPf d) && (r.engine != 4 || (mapField s.fuse.live (0x308 + pfOf f) 1 5 4 == 1 && pfOf f != 0 && s.ctxRoom 3 d)))

/-- A ring enabled: it starts empty, attached to a channel where its engine uses one (R275); a storage ring gets its context (R371). -/
def State.enableRing (s : State) (k : Nat) (r : Ring) : State :=
  let d := s.fnDom (fnOfKey k)
  let chan := if r.kind ≥ 2 || r.engine = 1 then none else (engineRole r.engine).bind (fun role => s.attach d role)
  let s1 := s.setRing k
    { base := r.base, idxAddr := r.idxAddr, enable := true, kind := r.kind, log2 := r.log2, engine := r.engine, rcEvery := r.rcEvery, cq := r.cq
      vector := r.vector, mod := r.mod, chan := chan }
  if r.kind < 2 && r.engine = 4 then s1.ctxNew (ctxKey 3 d k) else s1

/-- A write of RING_CFG (R271). (DESIGN CHOICE, unsafe: notes/assumptions/81.md) -/
def State.ringCfgWrite (s : State) (fn ring value : Nat) : State :=
  let k := rkey fn ring
  let r := s.ring k
  if !s.barOpen fn || r.enable then s
  else
    let r1 := r.config value
    if !value.testBit 0 then s.setRing k r1
    else if s.ringValid k r1 then s.enableRing k r1
    else s.setRing k { r1 with cfgRefused := true }

/-- RING_ENABLE_WRITE (R271). -/
def execRingEnableWrite (dt fn ring value : Nat) (s : State) : Out := s.run dt fun s => s.ringCfgWrite fn ring value

/-- A write of RING_VER_OFFER (R8, R270): the device implements 1.0 to 1.4. -/
def State.ringOfferWrite (s : State) (fn value : Nat) : State :=
  if !s.barOpen fn || s.ringsOn (fun n _ => fnOfKey n == fn) > 0 then s
  else
    let lo := bits value 7 4
    let hi := bits value 11 8
    let good := bits value 3 0 = 1 && lo ≤ hi && lo ≤ 4
    s.setRingFn fn { s.ringFn fn with offer := value % 4096, agreed := if good then 16 + min hi 4 else 0, noCommon := !good }

/-- RING_VER_OFFER_WRITE (R270). -/
def execRingVerOfferWrite (dt fn value : Nat) (s : State) : Out := s.run dt fun s => s.ringOfferWrite fn value

/-- INTERRUPT_MODERATION_END (R265): every vector held whose period has ended is signalled. -/
def execInterruptModerationEnd (dt : Nat) (s : State) : Out := s.run dt fun s =>
  (s.rings.rings.filter (fun (r : Nat × Ring) => r.2.modHeld && r.2.modEnd ≤ s.now)).foldl (fun (s : State) (r : Nat × Ring) => s.signal r.1) s

/-- RING_QUOTA (R252, R272): rings of the 16 domains, then completion rings. -/
def execRingQuota (dt : Nat) (path : Path) (rings cqs : List Nat) (s : State) : Out := s.run dt fun s =>
  s.tosenRun path 0x0940 32 false .any fun s _ =>
    let less := (List.range 16).any (fun d => s.ringsOn (fun n _ => s.fnDom (fnOfKey n) == d) > nth rings d
      || s.ringsOn (fun n r => s.fnDom (fnOfKey n) == d && r.kind ≥ 2) > nth cqs d)
    if rings.sum > 65536 || cqs.sum > 2048 || less then s.deny 0x020000B0
    else { s with rings.quota := (List.range 16).map (fun d => (d, (nth rings d, nth cqs d))) }.ok []

/-! Function reset (R269). -/

/-- FN_RESET (R272): TD0 for any function, a domain for the VFs of its own PFs. It joins a reset in progress. -/
def execFnReset (dt : Nat) (path : Path) (func : Nat) (s : State) : Out := s.run dt fun s =>
  s.tosenRun path 0x0941 1 (func ≥ 2 ^ 25) (if func.testBit 24 then .owner (s.fnDom (func % 256 * 4096)) else .owner 0) fun s _ =>
    let f := fnOf func
    if !s.fnExists f then s.deny 0x02000004
    else
      let s1 := s.functionReset f
      (.later, s1.setPfn f { s1.pfn f with resetPaths := (s1.pfn f).resetPaths ++ [path] })

/-- FLR (R269): a Function Level Reset through configuration space, whose registers it returns to their defaults.
(DESIGN CHOICE, unsafe: notes/assumptions/100.md; DEDUCED, unsafe: notes/assumptions/181.md) -/
def execFlr (dt fn : Nat) (s : State) : Out := s.run dt fun s =>
  if !s.cfgOpen fn then s
  else if s.glb.mode = .recovery then (if fn = 0 then s.recReset.setPfn 0 (s.pfn 0).configDefault else s)
  else if !s.firmware then s
  else
    let s1 := s.functionReset fn
    s1.setPfn fn (s1.pfn fn).configDefault

/-- FN_RESET_COMPLETE (R269). -/
def execFnResetComplete (dt fn : Nat) (s : State) : Out := s.run dt fun s => s.resetDone fn

end Sys2Proof.Machine
end

