-- ==== Sys2Proof/Machine/Dma.lean ====
section
/-! DEFINITION. The rows of the DMA engines (R274-R285). -/
namespace Sys2Proof.Machine

/-- DMA_DESCRIPTOR_START (R266, R280): the next descriptor of a ring, unless its completion ring's sump is full.
(DESIGN CHOICE, unsafe: notes/assumptions/90.md) -/
def execDmaDescriptorStart (dt fn ring : Nat) (s : State) : Out := s.run dt fun s =>
  let k := rkey fn ring
  if (s.ring (rkey fn (s.ring k).cq)).sumpFull || s.glb.mode = .lockdown || !s.firmware then s else s.dmaStart k

/-- FLUSH_READ_COMPLETE (R281): the oldest flush read of a ring that is out completes successfully. -/
def execFlushReadComplete (dt fn ring : Nat) (s : State) : Out := s.run dt fun s =>
  match s.pcie.reads.find? (fun (r : HRead) => r.what == 5 && r.ring == rkey fn ring && !r.dead) with
  | none => s
  | some r => s.readReturn r 0 false []

/-- A thread whose last cistern store has been stored goes on from a fence, or commits its message (R227, R240). -/
def State.fenceDone (s : State) (c t : Nat) : State :=
  let x := s.thr c t
  match x.blocked with
  | some .fence => (s.setThr c t x.resume).stepTick c t
  | some (.commit n rd) => ((s.setThr c t x.resume).commit c t 0 (x.pc - 4) rd n).stepTick c t
  | _ => s

/-- CISTERN_WRITE_STORED (R281, R218): of a core, `unit` and `sub` are core and thread; of a DMA ring, function and ring, with the index of
the descriptor. (DEDUCED, unsafe: notes/assumptions/88.md) -/
def execCisternWriteStored (dt : Nat) (core : Bool) (unit sub idx : Nat) (s : State) : Out := s.run dt fun s =>
  if core then
    let x := s.thr unit sub
    if x.stores = 0 then s
    else
      let s1 := s.setThr unit sub { x with stores := x.stores - 1 }
      if x.stores = 1 then s1.fenceDone unit sub else s1
  else
    let k := rkey unit sub
    (s.setRing k ((s.ring k).onDesc idx (fun d => { d with acks := d.acks - 1 }))).runs k

/-- DMA_CHANNEL_SET (R274, R285). -/
def execDmaChannelSet (dt : Nat) (path : Path) (chan dom role weight : Nat) (s : State) : Out := s.run dt fun s =>
  s.tosenRun path 0x0960 4 (chan ≥ 64 || dom ≥ 16 || role ≥ 4) .any fun s _ =>
    if weight < 1 || weight > 15 then s.deny 0x030000C0
    else if s.attached chan > 0 then s.deny 0x020000C0
    else { s with dma.chans := tupd s.dma.chans chan {} (fun x => { x with cfg := some (dom, role, weight) }) }.ok []

/-- DMA_CH_CFG (R284). -/
def State.chanCfgReg (s : State) (c : Nat) : Nat :=
  let x := s.chanCfg c
  x.1 % 16 + 16 * x.2.1 + 64 * x.2.2

/-- DMA_CH_STATE (R284). -/
def State.chanState (s : State) (c : Nat) : Nat :=
  let busy := s.chanReads c > 0 || (tget? s.dma.waits c).isSome
    || s.rings.rings.any (fun (r : Nat × Ring) => r.2.chan == some c && (r.2.dma.isSome || r.2.fetched.any (fun d => !d.ended)))
  b2n busy + 2 * s.attached c + 4096 * s.chanReads c

/-- DMA_STATUS (R285): the channel's window; for TD0 also the descriptors in flight. -/
def execDmaStatus (dt : Nat) (path : Path) (chan : Nat) (s : State) : Out := s.run dt fun s =>
  s.tosenRun path 0x0961 1 (chan ≥ 64) (.owner (s.chanCfg chan).1) fun s d =>
    let w := [s.chanCfgReg chan, s.chanState chan] ++ (tget s.dma.chans chan {}).counters
    s.ok (if d = 0 then w ++ [s.inFlight] else w)

end Sys2Proof.Machine
end

