-- ==== Sys2Proof/Machine/Tosen.lean ====
section
/-! DEFINITION. The Tosen service's own rows (R405-R426): segments on MP, sessions and their staging areas. -/
namespace Sys2Proof.Machine

/-- Whether a path is a ring. -/
def pathOnRing (p : Path) : Bool := match p with
  | .ring _ _ => true
  | _ => false

/-- A segment of an allowed address (R413): reassembled, or the partial packet discarded. (DEDUCED, unsafe: notes/assumptions/133.md) -/
def State.segment (s : State) (mac : Nat) (first last : Bool) (idx : Nat) (data : Bytes) : State :=
  let late := s.tosen.partials.any (fun x => x.mac == mac && x.at_ + grid 27 ≤ s.elapsed)
  let s := if late then
      { s with tosen.partials := s.tosen.partials.filter (fun x => x.mac != mac), tosen.segDiscards := inc48 s.tosen.segDiscards }
    else s
  let old := s.tosen.partials.find? (fun x => x.mac == mac)
  let rest := s.tosen.partials.filter (fun x => x.mac != mac)
  let drop := { s with tosen.partials := rest, tosen.segDiscards := inc48 s.tosen.segDiscards }
  let done := fun (s : State) (d : Bytes) => s.tosenArrive (.mp mac) (reqOf d d.length) (genOf d)
  let keep := fun (s : State) (n : Nat) (d : Bytes) =>
    if last then done { s with tosen.partials := rest } d
    else { s with tosen.partials := rest ++ [{ mac := mac, nextIdx := n, data := d, at_ := s.elapsed }] }
  match old with
  | none => if first && idx = 0 then keep s 1 data else s
  | some o =>
    if first then (if idx = 0 then keep drop 1 data else drop)
    else if idx = o.nextIdx then keep s (idx + 1) (o.data ++ data)
    else drop

/-- TOSEN_SEGMENT_RECEIVED (R117, R127, R413, R414): a frame on MP, destination address through FCS. (DEDUCED, unsafe: notes/assumptions/133.md) -/
def execTosenSegmentReceived (dt : Nat) (frame : Bytes) (s : State) : Out := s.run dt fun s =>
  if !s.ports.mp.up then s
  else
    let s1 := (s.mpSort frame).2
    let src := ofBe (slice frame 6 6)
    let n := ofBe (slice frame 20 2)
    let fl := ofLe (slice frame 17 1)
    if !(s.mpSort frame).1 || !s.firmware || ofBe (slice frame 0 6) ≠ s.fuse.mpMac || ofBe (slice frame 12 2) ≠ 0x88B5 || ofBe (slice frame 14 2) ≠ 0x5453
        || ofLe (slice frame 16 1) ≠ 1 then s1
    else if s.glb.mode ≠ .factory && !s.tosen.allow.contains src then { s1 with tosen.mpRefused := inc48 s1.tosen.mpRefused }
    else if fl > 3 || n < 8 || n > 1488 || (!fl.testBit 1 && n ≠ 1488) || frame.length < 26 + n then s1
    else s1.segment src (fl.testBit 0) (fl.testBit 1) (ofBe (slice frame 18 2)) (slice frame 22 n)

/-- MP_REASSEMBLY_TIMEOUT (R413): 2^27 ns since the last segment of a partial packet. -/
def execMpReassemblyTimeout (dt : Nat) (s : State) : Out := s.run dt fun s =>
  let old := s.tosen.partials.filter (fun x => x.at_ + grid 27 ≤ s.elapsed)
  { s with tosen.partials := s.tosen.partials.filter (fun x => s.elapsed < x.at_ + grid 27)
           tosen.segDiscards := add48 s.tosen.segDiscards old.length }

/-- MP_SESSION_IDLE_TIMEOUT (R420): 2^34 ns without a request. -/
def execMpSessionIdleTimeout (dt : Nat) (s : State) : Out := s.run dt fun s =>
  s.endSessions (fun x => x.onMp && x.heard + grid 34 ≤ s.elapsed)

/-! Sessions (R417, R421, R424). -/

/-- The version agreed on an offer of one major and a range of minors (R8, R421): a status of class 0x05, or the version. -/
def agreeTosen (major lo hi : Nat) : Except Nat Nat :=
  let top := if major = 2 then 3 else 6
  if major ≠ 1 && major ≠ 2 then .error 0x0500FF01
  else if lo > hi || lo > top then .error 0x0500FF02
  else .ok (major * 16 + min hi top)

/-- The limits of R405 reached by a path. -/
def State.sessionLimit (s : State) (p : Path) : Bool :=
  let ss := s.tosen.sessions
  match p with
  | .mp _ => (ss.filter Session.onMp).length ≥ 8
  | .windlass => ss.any (fun x => x.path == .windlass)
  | .ring fn _ =>
    let rings := ss.filter (fun x => match x.path with
      | .ring _ _ => true
      | _ => false)
    rings.length ≥ 1024 || (rings.filter (fun x => x.dom == s.fnDom fn)).length ≥ 64

/-- The status a SESSION_OPEN meets, or the version it agrees (R415, R417, R421-R424). (DEDUCED, unsafe: notes/assumptions/129.md) -/
def State.openCheck (s : State) (p : Path) (q : TReq) (major lo hi flags area : Nat) : Except Nat Nat :=
  let onRing := pathOnRing p
  let d := s.pathDom p
  let ev : Bool := flags == 1
  if q.len ≠ q.carried ∨ q.flags ≠ 0 ∨ q.status ≠ 0 then .error 0x0300FF01
  else if q.ver ≠ major * 16 then .error 0x0500FF04
  else if major = 2 ∧ q.dom ≠ d then .error 0x0400FF03
  else if q.len ≠ 64 then .error 0x0300FF03
  else if major > 15 ∨ lo > 15 ∨ hi > 15 ∨ flags > 1 then .error 0x0300FF04
  else match agreeTosen major lo hi with
    | .error e => .error e
    | .ok v =>
      if p = .windlass ∧ !s.debugOpen 0 2 then .error 0x0400FF04
      else if onRing && area ≥ 2 ^ 63 then .error 0x03000F02
      else if ev && (major = 1 || (onRing && (area = 0 || area % 256 ≠ 0))) then .error 0x03000F01
      else if ev && onRing && s.tosen.sessions.any (fun x => x.dom == d && x.events && !x.onMp && x.path != .windlass) then .error 0x02000F01
      else if s.sessionLimit p then .error 0x0200FF02
      else .ok v

/-- The generation a path's next session takes (R417). -/
def State.nextGen (s : State) (p : Path) : Nat :=
  let g := ((s.tosen.gens.find? (fun x => x.1 == p)).map (fun x => x.2)).getD 0
  if g ≥ 255 then 1 else g + 1

/-- SESSION_OPEN (R417, R424): the oldest request to open on the path is executed. (DEDUCED, unsafe: notes/assumptions/129.md) -/
def execSessionOpen (dt : Nat) (path : Path) (major lo hi flags area client : Nat) (s : State) : Out := s.run dt fun s =>
  match s.tosen.opens.find? (fun x => x.1 == path) with
  | none => s
  | some (_, q) =>
    let s0 : State := { s with tosen.opens := s.tosen.opens.erase (path, q) }
    if !s0.carries path then s0
    else match s0.openCheck path q major lo hi flags area with
      | .error e => s0.refuseReq path q e
      | .ok v =>
        let gen := s0.nextGen path
        let stage := match path with
          | .ring _ _ => 0
          | _ => 2 ^ 20
        let fs := [v, gen, s0.tosen.nextNumber, 16, 0x23, stage]
        let x : Session := { path := path, dom := s0.pathDom path, gen := gen, ver := v, events := flags = 1, area := area, client := client
                             number := s0.tosen.nextNumber, heard := s0.elapsed }
        let s1 : State := { s0 with tosen.sessions := s0.tosen.sessions ++ [x], tosen.nextNumber := s0.tosen.nextNumber + 1
                                    tosen.gens := (path, gen) :: s0.tosen.gens.filter (fun g => g.1 != path) }
        s1.reply1 x q 0 s1.now fs

/-- SESSION_CLOSE (R420, R424): requests behind it are not executed; its reply is the session's last. -/
def execSessionClose (dt : Nat) (path : Path) (s : State) : Out := s.run dt fun s =>
  let before := s.session? path
  let s1 := s.tosenRun path 0x0002 0 false .any fun s _ =>
    match s.session? path with
    | some x => ((x.queue.foldl (fun s q => s.discardReq path q) s).onSession path (fun y => { y with queue := [] })).ok []
    | none => s.ok []
  match before, s1.session? path with
  | some _, some x => match x.cache with
    | c :: _ => if c.opcode = 2 && c.status = 0 then s1.endSessions (fun y => y.path == path) else s1
    | [] => s1
  | _, _ => s1

/-- SESSION_PING (R424). -/
def execSessionPing (dt : Nat) (path : Path) (s : State) : Out := s.run dt fun s =>
  s.tosenRun path 0x0003 0 false .any fun s _ => s.ok [s.ledgerNs, s.quality, s.glbMode]

/-- The status of a staging access (R424), or 0. -/
def stageCheck (p : Path) (off len : Nat) : Nat :=
  if len = 0 || len > 65496 || off + len > 2 ^ 20 then 0x03000F02 else if pathOnRing p then 0x02000F02 else 0

/-- STAGE_WRITE (R416, R424). -/
def execStageWrite (dt : Nat) (path : Path) (off len : Nat) (data : Bytes) (s : State) : Out := s.run dt fun s =>
  s.tosenRun path 0x0004 (2 + ceilDiv len 8) false .any fun s _ =>
    if stageCheck path off len ≠ 0 then s.deny (stageCheck path off len)
    else match s.session? path with
      | some x => (s.ramWrite (stageAt x.number off) (slice data 0 len)).ok []
      | none => s.ok []

/-- Bytes as 8-byte fields, padded with zeros (R408). -/
def fieldsOf (b : Bytes) : List Nat := (List.range (ceilDiv b.length 8)).map (fun i => ofLe (slice b (8 * i) 8))

/-- STAGE_READ (R416, R424). -/
def execStageRead (dt : Nat) (path : Path) (off len : Nat) (s : State) : Out := s.run dt fun s =>
  s.tosenRun path 0x0005 2 false .any fun s _ =>
    if stageCheck path off len ≠ 0 then s.deny (stageCheck path off len)
    else match s.session? path with
      | some x => s.ok (fieldsOf (mreads s.ram (stageAt x.number off) len))
      | none => s.ok []

/-- A path as a reply's field: a ring's function and number, an MP address, or the Windlass port. (DEDUCED, unsafe: notes/assumptions/135.md) -/
def pathField (p : Path) : Nat := match p with
  | .ring fn rid => fnCode fn + rid * 2 ^ 32
  | .mp mac => 2 ^ 62 + mac
  | .windlass => 2 ^ 63

/-- SESSION_STATUS (R424). (DEDUCED, unsafe: notes/assumptions/135.md) -/
def execSessionStatus (dt : Nat) (path : Path) (s : State) : Out := s.run dt fun s =>
  s.tosenRun path 0x0006 0 false .any fun s d =>
    match s.session? path with
    | none => s.ok []
    | some x =>
      let own := [pathField path, x.gen, x.want, x.ver, x.stale, s.tosen.segDiscards, tget s.tosen.evLost d 0]
      let all := s.tosen.sessions.flatMap (fun y => [pathField y.path, y.dom, y.gen, y.client, y.ver])
      s.ok (if d = 0 then own ++ (s.tosen.sessions.length :: all) ++ [s.tosen.mpRefused] else own)

/-- SESSION_MP_ALLOW (R414, R424): sessions of addresses that leave the list end. -/
def execSessionMpAllow (dt : Nat) (path : Path) (count : Nat) (macs : List Nat) (s : State) : Out := s.run dt fun s =>
  s.tosenRun path 0x0007 (1 + count) (macs.any (fun m => m ≥ 2 ^ 48)) .any fun s _ =>
    if count > 8 then s.deny 0x03000F03
    else
      let new := macs.take count
      let gone := s.tosen.allow.filter (fun m => !new.contains m)
      ({ s with tosen.allow := new }.endSessions (fun x => match x.path with
        | .mp m => gone.contains m
        | _ => false)).ok []

end Sys2Proof.Machine
end

