-- ==== Sys2Proof/Machine/Windlass.lean ====
section
/-! DEFINITION. The rows of the Windlass debug port and of group 0x0D (R462-R477): the line, its session, halting and stepping, breakpoints,
registers and memory, and Tosen over the port. -/
namespace Sys2Proof.Machine

/-! Halting, resuming and rights (R468-R473). -/

/-- A thread that goes on meets what its wait, block or stall then requires (R469). -/
def State.wlRetry (s : State) (c t : Nat) : State :=
  let x := s.thr c t
  match x.blocked with
  | some (.wfe _ _) => s.setThr c t x.tryWfe
  | some (.cbegin n _) => s.pumpSend n
  | some (.crecv n _) => s.pumpRecv n
  | some .fence => if x.stores = 0 then s.fenceDone c t else s
  | some (.commit _ _) => if x.stores = 0 then s.fenceDone c t else s
  | some (.load n d b) =>
    if x.loads.length < 8 then ((s.setThr c t { x with state := .ready, blocked := none }).cisternLoad c t n d b).stepTick c t else s
  | some (.post _ _ _) => s.retryHeld
  | some (.result _ _) => s.retryHeld
  | some (.await _) => s.setThr c t x.awaited
  | none => s

/-- A halted thread put back in the state the halt suspended; a thread of a stopped core stays stalled. (DEDUCED, unsafe: notes/assumptions/154.md) -/
def State.wlGo (s : State) (c t : Nat) : State :=
  let x := s.thr c t
  if x.state ≠ .halted then s
  else
    let s1 := s.setThr c t { x with state := if (s.core c).state = .running then x.under else .stalled, woke := false }
    { s1 with dbg.halted := tdel s1.dbg.halted (tkey c t) }

/-- A halted thread resumes (R469, R477). -/
def State.wlResume (s : State) (c t : Nat) : State :=
  if (s.thr c t).state ≠ .halted then s
  else
    let s1 := (s.wlGo c t).debugEvent c t 4
    if (s1.core c).state = .running then s1.wlRetry c t else s1

/-- Every thread halted through the port for which `p` holds resumes. -/
def State.wlResumeAll (s : State) (p : Nat → Bool) : State :=
  s.dbg.halted.foldl (fun s e => if p (e.1 / 8) then s.wlResume (e.1 / 8) (e.1 % 8) else s) s

/-- The Tosen session of the Windlass port ends (R420). -/
def State.wlTosenEnd (s : State) : State :=
  let s1 : State := { s with tosen.opens := s.tosen.opens.filter (fun x => x.1 != Path.windlass) }
  s1.endSessions (fun x => x.path == Path.windlass)

/-- DEBUG_EVENT causes 1 and 2 (R477): to every enabled domain. (DEDUCED, unsafe: notes/assumptions/157.md) -/
def State.debugAll (s : State) (cause : Nat) : State :=
  if !s.firmware then s else s.doms.foldl (fun s d => s.event [d] 0x0D10 d [d, 0, 0, cause, 1, s.ledgerNs]) s

/-- A Windlass session ends (R466). (DEDUCED, unsafe: notes/assumptions/153.md) -/
def State.wlEnd (s : State) : State :=
  if !s.dbg.connected then s
  else
    let s0 : State := { s with dbg.steps := [], dbg.stepWait := none }
    let s1 := (s0.wlResumeAll (fun _ => true)).wlTosenEnd
    { s1 with dbg.connected := false, dbg.agreed := 0, dbg.bps := [], dbg.queue := [], dbg.lost := 0 }.debugAll 2

/-- DBG_RIGHTS (R476): the rights open for each domain. -/
def State.dbgRights (s : State) : Nat :=
  ((List.range 16).flatMap (fun d => (List.range 4).map (fun r => if s.debugOpen d r then 2 ^ (4 * d + r) else 0))).sum

/-- DBG_STATUS (R476). -/
def State.dbgStatus (s : State) : Nat :=
  b2n s.dbg.connected + 2 * b2n (s.session? .windlass).isSome + 256 * s.dbg.agreed + 65536 * s.dbg.halted.length

/-- `GLB_ID` (R4). -/
def State.glbId (s : State) : Nat := 0x24600000 + s.fuse.orderCode * 256 + s.fuse.stepping

/-! Requests (R464-R467). -/

/-- A response that follows later (R470), in place of a class. -/
def wlLater : Nat := 256

/-- What a request answers: class, fields, state. -/
abbrev WlAns := Nat × List Nat × State

/-- A request of class 0x03 carries a reason the spec does not state (R464): a free value. (DESIGN CHOICE, unsafe: notes/assumptions/152.md) -/
def State.wlMalformed (s : State) : WlAns := (3, [1 + s.freeBits 16 % 6], s.used)

/-- A request that lacks a right (R468): the reason is a free value likewise. (DESIGN CHOICE, unsafe: notes/assumptions/152.md) -/
def State.wlNoRight (s : State) : WlAns := (4, [1 + s.freeBits 16 % 6], s.used)

/-- A Windlass request with a valid header (R463-R467): `types` tells whether Recovery serves it, `n` how many fields it takes.
(DEDUCED, unsafe: notes/assumptions/151.md) -/
def State.wlRun (s : State) (type seq : Nat) (crc : Bool) (f : List Nat) (inRec : Bool) (lenOk : Bool) (body : State → WlAns) : State :=
  if s.dbg.deaf then s
  else
    let s0 := match s.dbg.stepWait with
      | some (q, _) => { s with dbg.stepWait := none }.wlRespond 0x12 q 1 [5]
      | none => s
    let s1 := { s0 with dbg.heard := s0.elapsed }.dbgCount 0
    match (match s1.dbg.last with
      | some r => if r.seq = seq then some r else none
      | none => none) with
    | some r => s1.emit (.windlass (r.type + 0x80) r.seq r.cls r.fields)
    | none =>
      let done := fun (a : WlAns) => if a.1 = wlLater then a.2.2 else a.2.2.wlRespond type seq a.1 a.2.1
      if !crc && !f.isEmpty then done (s1.dbgCount 2).wlMalformed
      else if type ≠ 1 && !s1.dbg.connected then done (3, [2], s1)
      else if !s1.firmware && !inRec then done (2, [4], s1)
      else if !lenOk then done s1.wlMalformed
      else done (body s1)

/-- The domain of a core the request names, where it is there and assigned. -/
def State.wlCore (s : State) (c : Nat) : Option Nat :=
  if c < s.coreCount || (96 ≤ c && c < 100) then s.coreDom c else none

/-- A request about a core, given the rights it needs. -/
def State.onCore (s : State) (c : Nat) (rights : List Nat) (body : State → Nat → WlAns) : WlAns :=
  match s.wlCore c with
  | none => (2, [1], s)
  | some d => if rights.all (s.debugOpen d) then body s d else s.wlNoRight

/-- LINE_RESET (R463). -/
def execLineReset (dt : Nat) (s : State) : Out := s.run dt fun s => { s with dbg.deaf := false }

/-- WL_HEADER_CRC_FAIL (R463). (DEDUCED, unsafe: notes/assumptions/153.md) -/
def execWlHeaderCrcFail (dt : Nat) (s : State) : Out := s.run dt fun s =>
  if s.dbg.deaf then s else { s with dbg.deaf := true }.dbgCount 1

/-- WL_SESSION_IDLE_TIMEOUT (R466): 2^30 ns without a valid header. -/
def execWlSessionIdleTimeout (dt : Nat) (s : State) : Out := s.run dt fun s =>
  if s.dbg.connected && s.dbg.heard + grid 30 ≤ s.elapsed then s.wlEnd else s

/-- WL_PROBE_DISCONNECT (R420): the Tosen session ends, and what it was executing completes without a reply.
(DEDUCED, unsafe: notes/assumptions/153.md) -/
def execWlProbeDisconnect (dt : Nat) (s : State) : Out := s.run dt fun s => s.wlTosenEnd

/-- CONNECT (R6, R8, R466, R467): an open session ends first. (DEDUCED, unsafe: notes/assumptions/153.md) -/
def execConnect (dt seq : Nat) (crc : Bool) (f : List Nat) (s : State) : Out := s.run dt fun s =>
  s.wlRun 0x01 seq crc f true (f.length == 3) fun s =>
    if nth f 0 ≠ 1 || nth f 1 ≠ 0 then (5, [], s)
    else
      let s1 := s.wlEnd
      let s2 : State := { s1 with dbg.connected := true, dbg.agreed := 0x10 }
      let s3 := s2.debugAll 1
      (0, [0x10, s3.glbId, s3.fuse.serial, s3.glbMode, s3.dbgRights], s3)

/-- DISCONNECT (R466). -/
def execDisconnect (dt seq : Nat) (crc : Bool) (f : List Nat) (s : State) : Out := s.run dt fun s =>
  s.wlRun 0x02 seq crc f true f.isEmpty fun s => (0, [], s.wlEnd)

/-- Halt causes of a core's threads (R469): one byte per thread, cause in bits [3:0], slot in bits [7:4]. -/
def State.haltCauses (s : State) (c : Nat) : Nat :=
  ((s.dbg.halted.filter (fun e => e.1 / 8 == c)).map (fun e => (e.2.1 + 16 * e.2.2) * 256 ^ (e.1 % 8))).sum

/-- STATUS (R467, R469). -/
def execWlStatus (dt seq : Nat) (crc : Bool) (f : List Nat) (s : State) : Out := s.run dt fun s =>
  s.wlRun 0x03 seq crc f (nth f 0 == 0xFF) (f.length == 1) fun s =>
    if nth f 0 = 0xFF then (0, [s.glbMode, s.dbgStatus], s)
    else s.onCore (nth f 0) [0] fun s _ =>
      (0, [s.glbMode, s.dbgStatus, s.pmpCoreState (nth f 0), s.pmpThreads (nth f 0), s.haltCauses (nth f 0)], s)

/-- The threads of a mask. -/
def threadsOf (mask : Nat) : List Nat := (List.range 8).filter (fun t => mask.testBit t)

/-- HALT (R469): refused as a whole when a thread named is `INACTIVE`. (DEDUCED, unsafe: notes/assumptions/154.md) -/
def execWlHalt (dt seq : Nat) (crc : Bool) (f : List Nat) (s : State) : Out := s.run dt fun s =>
  s.wlRun 0x10 seq crc f false (f.length == 2 && nth f 1 < 256) fun s =>
    s.onCore (nth f 0) [1] fun s _ =>
      let c := nth f 0
      let ts := threadsOf (nth f 1)
      if (s.core c).state ≠ .running || ts.any (fun t => !(s.thr c t).live) then (2, [2], s)
      else
        let s1 := ts.foldl (fun s t => s.haltThr c t 1 0) s
        (0, [nth f 1], s1)

/-- RESUME of the Windlass port (R469). (DEDUCED, unsafe: notes/assumptions/154.md) -/
def execWlResume (dt seq : Nat) (crc : Bool) (f : List Nat) (s : State) : Out := s.run dt fun s =>
  s.wlRun 0x11 seq crc f false (f.length == 2 && nth f 1 < 256) fun s =>
    s.onCore (nth f 0) [1] fun s _ =>
      let c := nth f 0
      let ts := threadsOf (nth f 1)
      if (s.core c).state ≠ .running || ts.any (fun t => (s.thr c t).state != .halted) then (2, [2], s)
      else (0, [], ts.foldl (fun s t => s.wlResume c t) s)

/-- STEP (R470): the response follows when the step ends or waits. (DEDUCED, unsafe: notes/assumptions/155.md) -/
def execWlStep (dt seq : Nat) (crc : Bool) (f : List Nat) (s : State) : Out := s.run dt fun s =>
  let c := nth f 0
  let t := nth f 1
  let n := nth f 2
  s.wlRun 0x12 seq crc f false (f.length == 3 && 1 ≤ n && n ≤ 65535) fun s =>
    s.onCore c [1] fun s _ =>
      if t > 7 then (2, [1], s)
      else if (tget? s.dbg.steps (tkey c t)).isSome then (1, [5], s)
      else if (s.core c).state ≠ .running || (s.thr c t).state ≠ .halted then (2, [2], s)
      else
        let g := s.wlGo c t
        let s1 : State := { g with dbg.steps := tset g.dbg.steps (tkey c t) (n, n), dbg.stepped := tset g.dbg.stepped (tkey c t) 0, dbg.stepWait := some (seq, tkey c t) }
        (wlLater, [], s1.wlRetry c t)

/-- BP_SET (R471). -/
def execBpSet (dt seq : Nat) (crc : Bool) (f : List Nat) (s : State) : Out := s.run dt fun s =>
  let kind := nth f 2
  let a := nth f 4
  let len := nth f 5
  let good := if kind = 1 then len == 4 && a % 4 == 0 else (List.range 13).any (fun i => len == 2 ^ i) && a % len == 0
  s.wlRun 0x13 seq crc f false (f.length == 6 && nth f 1 < 8 && 1 ≤ kind && kind ≤ 4 && nth f 3 < 256 && good) fun s =>
    s.onCore (nth f 0) [1] fun s _ =>
      (0, [], { s with dbg.bps := tset s.dbg.bps (tkey (nth f 0) (nth f 1)) { kind := kind, mask := nth f 3, addr := a, len := len } })

/-- BP_CLEAR (R471). -/
def execBpClear (dt seq : Nat) (crc : Bool) (f : List Nat) (s : State) : Out := s.run dt fun s =>
  s.wlRun 0x14 seq crc f false (f.length == 2 && nth f 1 < 8) fun s =>
    s.onCore (nth f 0) [1] fun s _ => (0, [], { s with dbg.bps := tdel s.dbg.bps (tkey (nth f 0) (nth f 1)) })

/-- Whether a register number of R472 names a register. (DEDUCED, unsafe: notes/assumptions/158.md) -/
def isReg (r : Nat) : Bool := r ≤ 32 || (0x1000 ≤ r && r ≤ 0x100F)

/-- REG_READ (R472). -/
def execRegRead (dt seq : Nat) (crc : Bool) (f : List Nat) (s : State) : Out := s.run dt fun s =>
  let c := nth f 0
  let t := nth f 1
  let r := nth f 2
  s.wlRun 0x15 seq crc f false (f.length == 3) fun s =>
    s.onCore c [0] fun s _ =>
      if t > 7 || !isReg r then (2, [1], s)
      else if (s.thr c t).state ≠ .halted && (s.core c).state ≠ .stopped then (2, [2], s)
      else (0, [if r < 32 then s.reg c t r else if r = 32 then (s.thr c t).pc else s.crValue c t (r - 0x1000)], s)

/-- Registers a debugger may not write (R221, R472): w0 and the read-only control registers. (DEDUCED, unsafe: notes/assumptions/158.md) -/
def regFixed (r : Nat) : Bool := r == 0 || [0x1000, 0x1004, 0x1005, 0x1007, 0x100D, 0x100E].contains r

/-- REG_WRITE (R472). (DEDUCED, unsafe: notes/assumptions/158.md) -/
def execRegWrite (dt seq : Nat) (crc : Bool) (f : List Nat) (s : State) : Out := s.run dt fun s =>
  let c := nth f 0
  let t := nth f 1
  let r := nth f 2
  let v := nth f 3
  s.wlRun 0x16 seq crc f false (f.length == 4) fun s =>
    s.onCore c [0, 2] fun s _ =>
      if t > 7 || !isReg r then (2, [1], s)
      else if (s.thr c t).state ≠ .halted || (s.core c).state = .stopped || regFixed r || (r = 32 && v % 4 ≠ 0) then (2, [2], s)
      else
        let s1 := if r < 32 then s.put c t r v
          else if r = 32 then s.setThr c t { s.thr c t with pc := v, skip := none }
          else s.crWrite c t (r - 0x1000) v
        (0, [], s1.debugEvent c t 6)

/-- A memory request: its space, core or domain, address and length; what it names, or the answer that refuses it (R472). -/
def State.wlMem (s : State) (f : List Nat) (rights : List Nat) (write : Bool) : Except WlAns (Nat × Nat) :=
  let who := nth f 1
  let a := nth f 2
  let n := nth f 3
  if nth f 0 = 0 then
    match s.wlCore who with
    | none => .error (2, [1], s)
    | some d =>
      if !rights.all (s.debugOpen d) then .error s.wlNoRight
      else if a % 8 ≠ 0 || a + n > 2 ^ 18 then .error (2, [3], s)
      else .ok (d, localAt who a)
  else if who > 15 || !s.domOn who then .error (2, [1], s)
  else if !(3 :: rights).all (s.debugOpen who) then .error s.wlNoRight
  else if s.cisternOk who a n || (!write && s.itemOk who a n) then .ok (who, cisternAt who a)
  else .error (2, [3], s)

/-- The form of a memory request (R467). -/
def memForm (f : List Nat) (data : Nat) : Bool :=
  f.length == 4 + data && nth f 0 < 2 && 8 ≤ nth f 3 && nth f 3 ≤ 4096 && nth f 3 % 8 == 0

/-- MEM_READ (R472): poisoned bytes are withheld. -/
def execWlMemRead (dt seq : Nat) (crc : Bool) (f : List Nat) (s : State) : Out := s.run dt fun s =>
  s.wlRun 0x17 seq crc f false (memForm f 0) fun s =>
    match s.wlMem f [0] false with
    | .error a => a
    | .ok (d, at_) => match s.consume d at_ (nth f 3) with
      | (s1, none) => (2, [3], s1)
      | (s1, some b) => (0, fieldsOf b, s1)

/-- MEM_WRITE (R472). (DEDUCED, unsafe: notes/assumptions/158.md) -/
def execWlMemWrite (dt seq : Nat) (crc : Bool) (f : List Nat) (s : State) : Out := s.run dt fun s =>
  s.wlRun 0x18 seq crc f false (memForm f (nth f 3 / 8)) fun s =>
    match s.wlMem f [0, 2] true with
    | .error a => a
    | .ok (d, at_) =>
      let s1 := s.store at_ ((f.drop 4).flatMap (fun x => le x 8))
      (0, [], if nth f 0 = 0 then s1.debugEvent (nth f 1) 0 6 else s1.debugEventFor d 0xFF 0 6 (256 + d))

/-- CHAN_ABANDON of the Windlass port (R244, R467). -/
def execWlChanAbandon (dt seq : Nat) (crc : Bool) (f : List Nat) (s : State) : Out := s.run dt fun s =>
  s.wlRun 0x19 seq crc f false (f.length == 1) fun s =>
    match s.chan? (nth f 0) with
    | none => (2, [1], s)
    | some h =>
      if !s.debugOpen h.dom 2 then s.wlNoRight
      else if h.holder.isNone then (2, [2], s) else (0, [], s.abandon (nth f 0) true)

/-- TOSEN (R415, R467): one whole packet. -/
def execWlTosen (dt seq : Nat) (crc : Bool) (data : Bytes) (s : State) : Out := s.run dt fun s =>
  s.wlRun 0x20 seq crc (fieldsOf data) false (16 ≤ data.length && data.length % 8 == 0) fun s =>
    if !s.debugOpen 0 2 then s.wlNoRight
    else if s.dbg.queue.length ≥ 64 then (1, [6], s)
    else (0, [], s.tosenArrive .windlass (reqOf data data.length) (genOf data))

/-- POLL (R467): the oldest packet waiting; one that follows lost events is marked in bit 4 of its `FLAGS`.
(DESIGN CHOICE, unsafe: notes/assumptions/156.md) -/
def execPoll (dt seq : Nat) (crc : Bool) (f : List Nat) (s : State) : Out := s.run dt fun s =>
  s.wlRun 0x21 seq crc f false f.isEmpty fun s =>
    if !s.debugOpen 0 2 then s.wlNoRight
    else match s.dbg.queue with
      | [] => (0, [], s)
      | (p, lost) :: rest =>
        let q := if lost > 0 then p.set 1 (p.getD 1 0 ||| 16) else p
        (0, fieldsOf q, { s with dbg.queue := rest })

/-! Commands of group 0x0D (R477). -/

/-- DEBUG_STATUS (R477). -/
def execDebugStatus (dt : Nat) (path : Path) (dom : Nat) (s : State) : Out := s.run dt fun s =>
  s.tosenRun path 0x0D01 1 (dom > 15) (.owner dom) fun s by_ =>
    let mine := (s.dbg.halted.filter (fun e => s.coreDom (e.1 / 8) == some dom)).length
    s.ok ([s.dbgRights / 16 ^ dom % 16, b2n s.dbg.connected, mine] ++ (if by_ = 0 then
      [s.dbgStatus, s.dbgRights % 2 ^ 32, s.dbgRights / 2 ^ 32, 0x1246056F] ++ s.dbg.counters else []))

/-- DEBUG_SESSION_END (R466, R477). -/
def execDebugSessionEnd (dt : Nat) (path : Path) (s : State) : Out := s.run dt fun s =>
  s.tosenRun path 0x0D02 0 false .any fun s _ =>
    if !s.dbg.connected then s.deny 0x02000D01 else s.wlEnd.ok []

end Sys2Proof.Machine
end

