-- ==== Sys2Proof/Machine/Provision.lean ====
section
/-! DEFINITION. The rows of tenancy and provisioning (R385-R404): the checks of a staged map, the burn, what is withdrawn after it, and the queries
of group 0x0E. -/
namespace Sys2Proof.Machine

/-! The rules of R391. -/

def mapDomRec (m : Bytes) (d hi lo : Nat) : Nat := mapField m (0x288 + d * 8) 8 hi lo
def mapPf (m : Bytes) (n hi lo : Nat) : Nat := mapField m (0x308 + n) 1 hi lo
def mapPort (m : Bytes) (p hi lo : Nat) : Nat := mapField m (0x310 + p * 4) 4 hi lo
def mapCore (m : Bytes) (c hi lo : Nat) : Nat := mapField m (0x370 + c) 1 hi lo
/-- A domain is enabled in a map. -/
def mapOn (m : Bytes) (d : Nat) : Bool := (mapField m 0x280 8 19 4).testBit d
/-- The bits of a mask. -/
def maskBits (m : Nat) : List Nat := (List.range 16).filter (fun d => m.testBit d)

/-- Rules 1 to 8 of R391 on a map, in order. (DEDUCED, unsafe: notes/assumptions/125.md) -/
def State.mapRules (s : State) (m : Bytes) : List Bool :=
  let doms := List.range 16
  let pfs := List.range 8
  let ports := List.range 24
  let cores := List.range 96
  [ mapOn m 0 && doms.all (fun d => (mapDomRec m d 62 62 == 1) == mapOn m d),
    pfs.all (fun n => mapPf m n 6 6 == 0 || mapOn m (mapPf m n 3 0)) && cores.all (fun c => mapCore m c 4 4 == 0 || mapOn m (mapCore m c 3 0))
      && (List.range s.portCount).all (fun p => mapOn m (mapPort m p 3 0)),
    mapPf m 0 6 6 == 1 && mapPf m 0 3 0 == 0 && doms.all (fun d => d == 0 || !mapOn m d || pfs.any (fun n => mapPf m n 6 6 == 1 && mapPf m n 3 0 == d)),
    ports.all (fun p =>
      let k := mapPort m p 21 6
      if mapPort m p 4 4 = 0 then k == 0
      else mapPort m p 3 0 == 0 && k.testBit 0 && (maskBits k).length ≥ 2 && (maskBits k).all (mapOn m)),
    pfs.all (fun n => mapPf m n 6 6 == 1 || mapPf m n 5 0 == 0) && cores.all (fun c => mapCore m c 4 4 == 1 || mapCore m c 3 0 == 0),
    (doms.map (fun d => mapDomRec m d 21 0)).sum ≤ s.pagesTotal && (doms.map (fun d => mapDomRec m d 36 22)).sum ≤ 16384
      && (doms.map (fun d => mapDomRec m d 53 37)).sum ≤ 98304,
    !s.isB || ports.all (fun p => p < 16 || mapPort m p 31 0 == 0) && cores.all (fun c => c < 48 || mapCore m c 7 0 == 0),
    mapField m 0x280 8 3 3 == 0 && mapField m 0x280 8 63 36 == 0 && doms.all (fun d => mapDomRec m d 63 63 == 0 && mapDomRec m d 57 54 != 15)
      && pfs.all (fun n => mapPf m n 7 7 == 0) && ports.all (fun p => mapPort m p 5 5 == 0 && mapPort m p 31 22 == 0)
      && cores.all (fun c => mapCore m c 7 5 == 0) ]

/-- The first rule of R391 that a map fails. -/
def State.mapFails (s : State) (m : Bytes) : Option Nat := ((s.mapRules m).findIdx? (fun b => !b)).map (fun i => i + 1)

/-- The map a burn leaves (R394): the staged bits, `PROV_LOCK` set, `ISO_LOCK` as it was. (DEDUCED, unsafe: notes/assumptions/126.md) -/
def burned (old staged : Bytes) : Bytes :=
  (List.range mapLen).map (fun i =>
    let b := staged.getD i 0
    if i = 0 then ((b &&& 0xFC#8) ||| 0x01#8) ||| (old.getD 0 0 &&& 0x02#8) else b)

/-- What the fuses of a map read once another's bits are burned too: a bit never goes back (R395). (DEDUCED, unsafe: notes/assumptions/126.md) -/
def bothBurned (old new : Bytes) : Bytes := (List.range mapLen).map (fun i => old.getD i 0 ||| new.getD i 0)

/-- A burn would need a 0 where a fuse reads 1, or a change of a map already locked (R394, R395). (DEDUCED, unsafe: notes/assumptions/126.md) -/
def State.burnBlocked (s : State) (staged : Bytes) : Bool :=
  let new := burned s.fuse.map staged
  let closed := fun i => if 8 ≤ i && i < 136 && i % 8 = 7 then 0x3C#8 else 0#8
  let clash := (List.range mapLen).any (fun i => (s.fuse.map.getD i 0 &&& ~~~new.getD i 0) != 0)
  let late := s.lockFuse && (List.range mapLen).any (fun i => ((s.fuse.map.getD i 0 ^^^ new.getD i 0) &&& ~~~closed i) != 0)
  let c := mapCrcOf staged
  clash || late || (s.fuse.mapCrc &&& (2 ^ 32 - 1 - c)) != 0

/-- MAP_CRC_CHECK (R393): at a grid point of 2^30 ns, while PROV_LOCK is 1. -/
def execMapCrcCheck (dt : Nat) (s : State) : Out := s.runFuse dt fun s =>
  if !s.firmware || s.now % grid 30 ≠ 0 || !s.lockFuse then s
  else if s.mapGood then { s with fuse.mapOk := true }
  else { s with fuse.mapOk := false }.lockdown 0x14

/-- PROV_STAGE (R403). (DEDUCED, unsafe: notes/assumptions/125.md) -/
def execProvStage (dt : Nat) (path : Path) (addr len : Nat) (buf : Bytes) (s : State) : Out := s.runFuse dt fun s =>
  s.tosenRun path 0x0E01 2 false .any fun s _ =>
    if badAddr path addr then s.deny 0x03000F02
    else if len ≠ mapLen then s.deny 0x03000130
    else if s.glb.mode ≠ .factory then s.deny 0x02000130
    else { s with fuse.staged := s.cmdRead path addr mapLen buf }.ok []

/-- PROV_CHECK (R391, R403). -/
def execProvCheck (dt : Nat) (path : Path) (s : State) : Out := s.run dt fun s =>
  s.tosenRun path 0x0E02 0 false .any fun s _ =>
    if s.glb.mode ≠ .factory then s.deny 0x02000130
    else match s.mapFails s.fuse.staged with
      | some r => (.reply 0x02000132 [r], s)
      | none => s.ok [mapCrcOf s.fuse.staged]

/-- PROV_BURN (R394, R403): answered when the last fuse is verified. (DEDUCED, unsafe: notes/assumptions/125.md) -/
def execProvBurn (dt : Nat) (path : Path) (crc : Nat) (s : State) : Out := s.runFuse dt fun s =>
  s.tosenRun path 0x0E03 1 (crc ≥ 2 ^ 32) .any fun s _ =>
    let m := s.fuse.staged
    if crc ≠ mapCrcOf m then s.deny 0x03000131
    else if s.glb.mode ≠ .factory then s.deny 0x02000130
    else match s.mapFails m with
      | some r => (.reply 0x02000132 [r], s)
      | none =>
        if s.fuse.burning.isSome || s.burnBlocked m then s.deny 0x02000131
        else (.later, { s with fuse.burning := some (path, m) })

/-- PROV_BURN_COMPLETE (R394): the map, MAP_CRC and PROV_LOCK are burned; the map comes into force at the next device reset (R29).
(DEDUCED, unsafe: notes/assumptions/126.md) -/
def execProvBurnComplete (dt : Nat) (s : State) : Out := s.runFuse dt fun s =>
  match s.fuse.burning with
  | none => s
  | some (p, m) =>
    { s with fuse.burning := none, fuse.map := bothBurned s.fuse.map (burned s.fuse.map m), fuse.mapCrc := s.fuse.mapCrc ||| mapCrcOf m }.tosenLater p 0x0E03 0 []

/-- Bits of a byte of the fused map burned. -/
def State.burnByte (s : State) (i : Nat) (v : Byte) : State :=
  { s with fuse.map := (slice s.fuse.map 0 mapLen).set i (s.fuse.map.getD i 0 ||| v) }

/-- A debug right of a domain has closed (R396, R404, R468). (DEDUCED, unsafe: notes/assumptions/128.md) -/
def State.rightsClosed (s : State) (d : Nat) (lost : Nat → Bool) : State :=
  let mine := fun c => s.coreDom c == some d
  let s1 : State := { s with
    dbg.steps := tmapK s.dbg.steps (fun k v => if mine (k / 8) then (v.1, 0) else v)
    dbg.bps := s.dbg.bps.filter (fun (b : Nat × Bp) => !mine (b.1 / 8)) }
  let s2 := s1.wlResumeAll mine
  if d = 0 && lost 2 then s2.wlTosenEnd else s2

/-- PROV_DEBUG_CLOSE (R396, R403). -/
def execProvDebugClose (dt : Nat) (path : Path) (dom rights : Nat) (s : State) : Out := s.runFuse dt fun s =>
  s.tosenRun path 0x0E04 2 (dom > 15 || rights > 15) .any fun s _ =>
    let lost := fun r => rights.testBit r && s.debugOpen dom r
    let s1 := s.burnByte (15 + dom * 8) (BitVec.ofNat 8 (rights * 4))
    if s.prov && (List.range 4).any lost then (s1.rightsClosed dom lost).ok [] else s1.ok []

/-- PROV_ISO_LOCK (R397, R403). -/
def execProvIsoLock (dt : Nat) (path : Path) (s : State) : Out := s.runFuse dt fun s =>
  s.tosenRun path 0x0E05 0 false .any fun s _ =>
    if !s.lockFuse then s.deny 0x02000133 else (s.burnByte 0 0x02#8).ok []

/-! Queries (R392, R398, R402, R403). -/

/-- The guarantee holds for a domain (R398). -/
def State.guarantee (s : State) (d : Nat) : Bool :=
  (match s.glb.mode with
    | .priming => true
    | .service => true
    | .drain => true
    | _ => false)
  && s.isoLock && s.fuse.mapOk && s.fuse.floorMet && s.domOn d && mapDomRec s.fuse.map d 61 58 == 15

/-- ISO_STATUS (R402), with the GUARANTEE bits of the domains for which `who` holds. -/
def State.isoStatus (s : State) (who : Nat → Bool) : Nat :=
  b2n s.isoLock + 2 * b2n s.fuse.floorMet + 4 * b2n s.fuse.mapOk
    + ((List.range 16).map (fun d => if who d && s.guarantee d then 2 ^ (16 + d) else 0)).sum

/-- A list of records with their numbers, preceded by its count (R408). (DESIGN CHOICE, unsafe: notes/assumptions/127.md) -/
def records (ns : List Nat) (rec_ : Nat → Nat) : List Nat := ns.length :: ns.map (fun n => rec_ n + 2 ^ 32 * n)

/-- DOMAIN_QUERY (R403). (DESIGN CHOICE, unsafe: notes/assumptions/127.md) -/
def execDomainQuery (dt : Nat) (path : Path) (dom : Nat) (s : State) : Out := s.run dt fun s =>
  s.tosenRun path 0x0E06 1 (dom > 15) (.owner dom) fun s by_ =>
    let m := s.fuse.map
    s.ok ([mapDomRec m dom 63 0]
      ++ records ((List.range 8).filter (fun n => mapPf m n 6 6 == 1 && mapPf m n 3 0 == dom)) (fun n => mapPf m n 7 0)
      ++ records ((List.range s.portCount).filter (fun p => mapPort m p 3 0 == dom || (mapPort m p 21 6).testBit dom)) (fun p => mapPort m p 31 0)
      ++ records ((List.range s.coreCount).filter (fun c => mapCore m c 4 4 == 1 && mapCore m c 3 0 == dom)) (fun c => mapCore m c 7 0)
      ++ [s.isoStatus (fun d => by_ == 0 || d == by_)])

/-- DOMAIN_PORT_STATS (R392, R403): the port's MAC counters, then the caller's frames and octets sent and frames dropped.
(DESIGN CHOICE, unsafe: notes/assumptions/127.md) -/
def execDomainPortStats (dt : Nat) (path : Path) (port : Nat) (s : State) : Out := s.run dt fun s =>
  s.tosenRun path 0x0E07 1 false .any fun s d =>
    if port ≥ s.portCount || !s.portShared port || !(s.portMask port).testBit d then s.deny 0x02000134
    else
      let qs := s.tm.queues.filter (fun (q : Nat × Queue) => q.2.cfg.kind == 1 && q.2.cfg.port == port && s.queueDom q.1 == some d)
      let sum := fun i => (qs.map (fun q => nth q.2.counters i)).sum % 2 ^ 48
      s.ok ((s.pt port).counters ++ [sum 7, sum 8, ([1, 2, 3, 4, 5, 6].map sum).sum % 2 ^ 48])

end Sys2Proof.Machine
end

