-- ==== Sys2Proof/Machine/Power.lean ====
section
/-! DEFINITION. The rows of power, reset, temperature and the I2C target (R485-R499), and of the boundary scan (R478, R479). -/
namespace Sys2Proof.Machine

/-! Pins and rails (R485-R489). -/

/-- PWR_GOOD_FALL (R487, R504): device reset at once, during a reset close too. -/
def execPwrGoodFall (dt : Nat) (s : State) : Out := s.runPins dt fun s =>
  if !s.pw.pwrGood then s
  else { s with pw := { s.pw with pwrGood := false, tripPwrLow := true, tripCycled := false } }.deviceReset 1 false

/-- A thermal trip lets go once Tj is below 95 °C and PWR_GOOD has gone low and high again (R497). (DEDUCED, unsafe: notes/assumptions/165.md) -/
def Power.tripCheck (p : Power) : Power := if p.tripHeld && !p.tripHot && p.tripCycled then { p with tripHeld := false } else p

/-- PWR_GOOD_RISE (R486). -/
def execPwrGoodRise (dt : Nat) (s : State) : Out := s.runPins dt fun s =>
  if s.pw.pwrGood then s
  else { s with pw := Power.tripCheck { s.pw with pwrGood := true, tripCycled := s.pw.tripPwrLow } }

/-- PERST_N_ASSERT (R487): a pulse shorter than 100 µs resets nothing. (DESIGN CHOICE, safe: notes/assumptions/162.md) -/
def execPerstNAssert (dt low : Nat) (s : State) : Out := s.runPins dt fun s =>
  if low < 100000 || !s.pw.perst then s else { s with pw.perst := false }.resetClose 0 2

/-- PERST_N_RELEASE (R488). -/
def execPerstNRelease (dt : Nat) (s : State) : Out := s.runPins dt fun s =>
  { s with pw.perst := true, pw.perstAt := if s.pw.perst then s.pw.perstAt else s.elapsed }

/-- RESET_N_ASSERT (R487): between 100 ns and 1 µs either outcome is allowed. (DESIGN CHOICE, safe: notes/assumptions/162.md) -/
def execResetNAssert (dt low : Nat) (s : State) : Out := s.runPins dt fun s =>
  if low < 100 || !s.pw.resetN then s
  else if 1000 ≤ low then { s with pw.resetN := false }.resetClose 1 3
  else if s.freeBits 1 = 0 then s.used
  else { s.used with pw.resetN := false }.resetClose 1 3

/-- RESET_N_RELEASE (R488): the boundary scan takes no pins any more (R478). -/
def execResetNRelease (dt : Nat) (s : State) : Out := s.runPins dt fun s => { s with pw.resetN := true, dbg.tap.inverted := false }

/-- VDD_AUX_UP (R485, R499): the always-on region starts at its reset values; the rest is in device reset.
(DESIGN CHOICE, unsafe: notes/assumptions/164.md) -/
def execVddAuxUp (dt : Nat) (s : State) : Out := s.runPins dt fun s =>
  if s.pw.vddAux then s
  else { s with pw := { s.pw with
    vddAux := true, resetBegan := s.elapsed, cause := 0, closed := false, tjMax := 0x80, tripSeen := false, therm := false
    tripHeld := false, tripHot := false, tripPwrLow := false, tripCycled := false, i2cPtr := 0 } }

/-- VDD_AUX_LOSS (R487, R504): device reset; the always-on region is lost with the retention store (R98).
(DESIGN CHOICE, unsafe: notes/assumptions/164.md) -/
def execVddAuxLoss (dt : Nat) (s : State) : Out := s.runPins dt fun s =>
  if !s.pw.vddAux then s
  else
    let s1 := { s with pw.vddAux := false }.deviceReset 0 false
    let s2 := if s1.pw.therm then s1.emit (.pin .thermN true) else s1
    { s2 with led.retention := [], dbg.tap := {}, pw.therm := false }

/-- REF_CORE_LOSS (R487, R504). -/
def execRefCoreLoss (dt : Nat) (s : State) : Out := s.runPins dt fun s =>
  if !s.pw.refCore then s else { s with pw.refCore := false }.deviceReset 5 false

/-- REF_CORE_RETURN (R488). -/
def execRefCoreReturn (dt : Nat) (s : State) : Out := s.runPins dt fun s => { s with pw.refCore := true }

/-- RESET_CLOSE_TIMEOUT (R489): 2^21 ns after the assertion. -/
def execResetCloseTimeout (dt : Nat) (s : State) : Out := s.runPins dt fun s =>
  if s.pw.closing && s.pw.closeBegan + grid 21 ≤ s.elapsed then s.deviceReset s.pw.closeCause false else s

/-! Temperature (R497-R499). -/

/-- A signed byte. -/
def tjOf (b : Nat) : Int := if b % 256 < 128 then (b % 256 : Nat) else (b % 256 : Nat) - 256

/-- A reading of the sensors: TJ and TJ_MAX (R499). (DEDUCED, unsafe: notes/assumptions/165.md) -/
def State.reading (s : State) (tj : Nat) : State :=
  { s with pw.tj := tj % 256, pw.tjMax := if tjOf s.pw.tjMax < tjOf tj then tj % 256 else s.pw.tjMax }

/-- THERM_N asserted. -/
def State.thermOn (s : State) : State := if s.pw.therm then s else { s with pw.therm := true }.emit (.pin .thermN false)

/-- THERM_ASSERT (R497). -/
def execThermAssert (dt tj : Nat) (s : State) : Out := s.runPins dt fun s =>
  if !s.pw.vddAux || tjOf tj < 100 then s else (s.reading tj).thermOn

/-- THERM_RELEASE (R497). -/
def execThermRelease (dt tj : Nat) (s : State) : Out := s.runPins dt fun s =>
  if !s.pw.vddAux || 95 ≤ tjOf tj then s
  else
    let s1 := s.reading tj
    let s2 := if s1.pw.therm then s1.emit (.pin .thermN true) else s1
    { s2 with pw := Power.tripCheck { s2.pw with therm := false, tripHot := false } }

/-- THERMAL_CRITICAL (R42, R497): Lockdown with cause 0x12, from the modes that it leads there from. (DEDUCED, unsafe: notes/assumptions/165.md) -/
def execThermalCritical (dt tj : Nat) (s : State) : Out := s.runPins dt fun s =>
  if !s.pw.vddAux || tjOf tj < 110 then s
  else
    let s1 := (s.reading tj).thermOn
    if s1.dead then s1 else s1.keepPins (s1.lockdown 0x12)

/-- THERMAL_TRIP (R497, R504): device reset without reset close, held. (DEDUCED, unsafe: notes/assumptions/165.md) -/
def execThermalTrip (dt tj : Nat) (s : State) : Out := s.runPins dt fun s =>
  if !s.pw.vddAux || tjOf tj < 120 then s
  else
    let s1 := (s.reading tj).thermOn
    { s1 with pw := { s1.pw with tripSeen := true, tripHeld := true, tripHot := true, tripPwrLow := !s1.pw.pwrGood, tripCycled := false } }.deviceReset 6 false

/-! The I2C target (R498). -/

/-- What a read of a register of the I2C target returns (R498). (DESIGN CHOICE, safe: notes/assumptions/166.md) -/
def State.i2cReg (s : State) (r : Nat) : Nat :=
  match r with
  | 0 => s.pw.tj
  | 1 => s.pw.tjMax
  | 2 => (if s.pw.inReset then 7 else s.glb.mode.code) + 8 * b2n s.pw.therm + 16 * b2n s.glb.failsafe + 32 * b2n s.pw.tripHeld
  | 3 => 0x24
  | _ => 0

/-- I2C_WRITE (R498): the first byte sets the pointer, every further one is not acknowledged. (DESIGN CHOICE, safe: notes/assumptions/166.md) -/
def execI2cWrite (dt : Nat) (data : Bytes) (s : State) : Out := s.runPins dt fun s =>
  if !s.pw.vddAux then s
  else match data with
    | [] => s
    | b :: rest => { s with pw.i2cPtr := b.toNat }.emits (rest.map (fun _ => Emission.i2cNak))

/-- BOOT_RESTART (R445): answered, then as an assertion of RESET_N. (DEDUCED, unsafe: notes/assumptions/161.md) -/
def execBootRestart (dt : Nat) (path : Path) (s : State) : Out := s.runPins dt fun s =>
  if s.dead then s
  else s.tosenRun path 0x0C05 0 false .any fun s _ => (.later, (s.tosenLater path 0x0C05 0 []).resetClose 1 4)

/-! Boundary scan (R478, R479). -/

/-- A pass through an instruction and its data register: the TAP works whenever VDD_AUX is in range, and reset does not touch it. The
instruction register captures 0b0000_0001. (DESIGN CHOICE, unsafe: notes/assumptions/159.md) -/
def State.tapScan (s : State) (ir : Nat) (f : Tap → Tap × Nat) : State :=
  if !s.pw.vddAux then s
  else
    let r := f { s.dbg.tap with ir := ir, inverted := false }
    { s with dbg.tap := r.1 }.emits [.tap 256 1, .tap ir r.2]

/-- The bypass register: one bit, which captures 0. -/
def Tap.bypass (t : Tap) : Tap × Nat := (t, 0)
/-- The boundary register: captured, shifted out, and updated with what is shifted in. (DESIGN CHOICE, unsafe: notes/assumptions/159.md) -/
def Tap.scan (t : Tap) (capture shift : Nat) : Tap × Nat := ({ t with boundary := capture, latched := shift }, capture)

/-- Whether the instruction in force takes the pins: only while RESET_N is low. -/
def State.tapTakes (s : State) : Bool := !s.pw.resetN && [0x00, 0x04, 0x05, 0x06, 0x07].contains s.dbg.tap.ir
/-- What the taken pins show: the latched values, none under HIGHZ; an AC-coupled output cell their inverse.
(DESIGN CHOICE, unsafe: notes/assumptions/159.md) -/
def State.tapDrives (s : State) : Option (Nat × Bool) :=
  if s.tapTakes && s.dbg.tap.ir != 0x05 then some (s.dbg.tap.latched, s.dbg.tap.inverted) else none

/-- TAP_RESET (R478): Test-Logic-Reset selects IDCODE. -/
def execTapReset (dt : Nat) (s : State) : Out := s.runPins dt fun s => if !s.pw.vddAux then s else { s with dbg.tap.ir := 1, dbg.tap.inverted := false }

/-- EXTEST (R478): as BYPASS while RESET_N is high. -/
def execExtest (dt capture shift : Nat) (s : State) : Out := s.runPins dt fun s =>
  s.tapScan 0x00 fun t => if s.pw.resetN then t.bypass else t.scan capture shift

/-- IDCODE (R478). -/
def execIdcode (dt : Nat) (s : State) : Out := s.runPins dt fun s =>
  s.tapScan 0x01 fun t => (t, 0x1246056F)

/-- SAMPLE/PRELOAD (R478): the pins stay with the functional logic. -/
def execSamplePreload (dt capture shift : Nat) (s : State) : Out := s.runPins dt fun s =>
  s.tapScan 0x02 fun t => t.scan capture shift

/-- CLAMP (R478): the pins show the values latched before; bypass is selected. -/
def execClamp (dt : Nat) (s : State) : Out := s.runPins dt fun s =>
  s.tapScan 0x04 fun t => t.bypass

/-- HIGHZ (R478). -/
def execHighz (dt : Nat) (s : State) : Out := s.runPins dt fun s =>
  s.tapScan 0x05 fun t => t.bypass

/-- EXTEST_PULSE (R479): the output cells hold the inverted value for as long as the TAP is in Run-Test/Idle. -/
def execExtestPulse (dt capture shift idle : Nat) (s : State) : Out := s.runPins dt fun s =>
  s.tapScan 0x06 fun t => if s.pw.resetN then t.bypass else
    let r := t.scan capture shift
    ({ r.1 with inverted := decide (0 < idle) }, r.2)

/-- EXTEST_TRAIN (R479): the output toggles at each falling edge of TCK in Run-Test/Idle. (DESIGN CHOICE, unsafe: notes/assumptions/159.md) -/
def execExtestTrain (dt capture shift idle : Nat) (s : State) : Out := s.runPins dt fun s =>
  s.tapScan 0x07 fun t => if s.pw.resetN then t.bypass else
    let r := t.scan capture shift
    ({ r.1 with inverted := idle % 2 == 1 }, r.2)

/-- BYPASS (R478). -/
def execBypass (dt : Nat) (s : State) : Out := s.runPins dt fun s =>
  s.tapScan 0xFF fun t => t.bypass

end Sys2Proof.Machine
end

