-- ==== Sys2Proof/Machine/Boot.lean ====
section
/-! DEFINITION. The rows of secure start, images and recovery (R427-R446). -/
namespace Sys2Proof.Machine

/-! The boot ROM (R433). -/

/-- BOOT_ROM_START (R433): device reset has ended. -/
def execBootRomStart (dt : Nat) (flash : List Bytes) (s : State) : Out := s.runFree dt fun s =>
  if !s.pw.bootDue || s.glb.mode ≠ .boot then s else { s with pw.bootDue := false }.bootCycle flash

/-- BOOT_BLOCK_LANDED (R433): the next block of the slot being tried is in the load buffer and is hashed. What it fails with is
recorded once the signature and the security version have passed. (DESIGN CHOICE, unsafe: notes/assumptions/136.md) -/
def execBootBlockLanded (dt status : Nat) (data : Bytes) (s : State) : Out := s.runFuse dt fun s =>
  match s.boot.trying with
  | none => s
  | some i =>
    let n := s.boot.blocks
    let m := (s.slot i).manifest
    if s.boot.bad.isSome || n ≥ manBlocks m then s
    else if status = 1 then { s with boot.bad := some (9, n) }.attemptCheck i
    else if status = 2 then { s with boot.bad := some (10, n) }.attemptCheck i
    else
      let b := slice data 0 65536
      if sha384 b ≠ manHash m n then { s with boot.bad := some (8, n) }.attemptCheck i
      else ({ s with boot.blocks := n + 1 }.ramWrite (bufAt (65536 * n)) b).attemptCheck i

/-- BOOT_SIGNATURE_VERIFIED (R433): of the slot being tried, or of the transfer. (DEDUCED, unsafe: notes/assumptions/21.md) -/
def execBootSignatureVerified (dt : Nat) (s : State) : Out := s.runFuse dt fun s =>
  match s.boot.trying with
  | some i =>
    if s.boot.sigOk then s
    else match s.sigFail (s.slot i).manifest with
      | 0 => { s with boot.sigOk := true }.attemptCheck i
      | r => s.attemptFails i r 0
  | none =>
    if s.glb.mode ≠ .recovery || !s.boot.recManOk || s.boot.recSigOk || (s.boot.recState ≠ 1 && s.boot.recState ≠ 2) then s
    else match s.sigFail s.recManifest with
      | 0 => { s with boot.recSigOk := true }.recCheck
      | r => s.recFails r

/-! Recovery (R436-R439). -/

/-- A transfer is in progress. -/
def State.recActive (s : State) : Bool := 1 ≤ s.boot.recState && s.boot.recState ≤ 4

/-- RECOVERY_WINDOW_END (R436): the next cycle starts, unless a transfer is in progress. -/
def execRecoveryWindowEnd (dt : Nat) (flash : List Bytes) (s : State) : Out := s.runFuse dt fun s =>
  if s.glb.mode ≠ .recovery || !s.boot.window || s.elapsed < s.boot.windowEnd || s.recActive then s
  else { s with boot.window := false, boot.cycle := s.boot.cycle + 1 }.bootCycle flash

/-- Whether the BAR of the recovery function answers (R315, R438). -/
def State.recOpen (s : State) : Bool := s.glb.mode == .recovery && s.pcie.linkA.up && (s.pfn 0).mse

/-- The version agreed on an offer (R8, R438). -/
def recAgree (v : Nat) : Nat := if v % 16 = 1 && v / 16 % 16 = 0 then 0x10 else 0

/-- REC_VER_OFFER_WRITE (R8, R438). -/
def execRecVerOfferWrite (dt value : Nat) (s : State) : Out := s.runFuse dt fun s =>
  if !s.recOpen then s else { s with boot.recOffer := value % 4096, boot.recAgreed := recAgree value }

/-- REC_STATUS (R438), with the reason that a refused path sees. -/
def State.recStatus (s : State) (fail : Nat) : Nat :=
  s.boot.recState + 8 * b2n s.boot.recBusy + 16 * fail + 256 * s.boot.recBlocks + 2 ^ 18 * s.boot.recOwner

/-- A recovery request on MP as a frame (R439). -/
def recFrame (dst src ver op persist : Nat) (v n : Nat) (data : Bytes) : Bytes :=
  padFcs (be dst 6 ++ be src 6 ++ be 0x88B5 2 ++ be 0x5245 2 ++ le ver 1 ++ le op 1 ++ le persist 1 ++ le 0 1 ++ be v 4 ++ be n 2 ++ data)

/-- A reply on MP (R439). -/
def State.recReply (s : State) (mac op fail : Nat) : State :=
  let b := be 0x88B5 2 ++ be 0x5245 2 ++ le 0x10 1 ++ le (op + 128) 1 ++ le 0 2 ++ be (s.recStatus fail) 4 ++ be 0 2
  s.mpTx mac b

/-- Whether commands of the recovery protocol act: the window is open, and no command runs. -/
def State.recTakes (s : State) : Bool := s.boot.window && !s.boot.recBusy

/-- A command of the recovery protocol on its path: over PCIe it is ignored until a version is agreed; over MP it is answered, and a
major version other than 1 with reason 12. `act` gives the state and a reason that only this path sees; `after` follows the answer.
(DEDUCED, unsafe: notes/assumptions/141.md) -/
def State.recRun (s : State) (mp : Option (Nat × Nat)) (op persist v n : Nat) (data : Bytes) (act : State → Nat → State × Nat)
    (after : State → State) : State :=
  let s := if s.glb.mode = .recovery && s.boot.recState = 1 && s.boot.recHeard + grid 34 ≤ s.elapsed then s.recFails 13 else s
  if s.glb.mode ≠ .recovery then s
  else match mp with
    | none =>
      if !s.recOpen || s.boot.recAgreed = 0 || !s.recTakes then s
      else
        let r := act { s with boot.recRefused := false } 0
        after { r.1 with boot.recRefused := r.2 != 0 }
    | some (mac, ver) =>
      if !s.ports.mp.up then s
      else
        let s1 := s.mpGood (recFrame s.fuse.mpMac mac ver op persist v n data)
        if ver / 16 ≠ 1 then s1.recReply mac op 12
        else if !s1.recTakes then s1.recReply mac op s1.boot.recFail
        else
          let r := act s1 1
          after (r.1.recReply mac op (if r.2 = 0 then r.1.boot.recFail else r.2))

/-- REC_BEGIN (R438): the length of a transfer on a path, 64 KiB × (1 + BLOCKS). (DEDUCED, unsafe: notes/assumptions/141.md) -/
def State.recBegin (s : State) (owner len : Nat) : State × Nat :=
  if s.recActive && s.boot.recOwner ≠ owner then (s, 14)
  else
    let s1 : State := { s with
      ram := mzero s.ram (recAt 0) (2 ^ 90)
      boot := { s.boot with
        recState := 1, recFail := 0, recBlocks := 0, recOwner := owner, recTotal := len, recAccepted := 0, recHeard := s.elapsed
        recManOk := false, recSigOk := false, recBad := none, recFinish := none } }
    (if len % 65536 ≠ 0 || len < 131072 || 67043328 < len then s1.recFails 12 else s1, 0)

/-- REC_BEGIN (R438, R439). -/
def execRecBegin (dt : Nat) (mp : Option (Nat × Nat)) (len : Nat) (s : State) : Out := s.runFuse dt fun s =>
  s.recRun mp 1 0 len 0 [] (fun s o => s.recBegin o (if o = 0 then s.boot.recLen else len)) id

/-- A chunk of `n` bytes, at most `most`, at an offset (R438). (DEDUCED, unsafe: notes/assumptions/141.md) -/
def State.recChunk (s : State) (owner most off n : Nat) (data : Bytes) : State × Nat :=
  if s.boot.recState ≠ 1 || s.boot.recOwner ≠ owner then (s, 0)
  else if n < 8 || most < n || n % 8 ≠ 0 then (s.recFails 12, 0)
  else if off ≠ s.boot.recAccepted then (s.recFails 11, 0)
  else if s.boot.recTotal < off + n then (s.recFails 12, 0)
  else (({ s with boot.recAccepted := off + n, boot.recHeard := s.elapsed }.ramWrite (recAt off) (slice data 0 n)).recCheck, 0)

/-- REC_CHUNK (R438, R439). -/
def execRecChunk (dt : Nat) (mp : Option (Nat × Nat)) (off n : Nat) (data : Bytes) (s : State) : Out := s.runFuse dt fun s =>
  s.recRun mp 2 0 off n data (fun s o =>
    if o = 0 then s.recChunk 0 524288 s.boot.recOffset s.boot.recLen (mreads s.ram (recWinAt 0) s.boot.recLen) else s.recChunk 1 1488 off n data) id

/-- FINISH of a transfer whose bytes have all come (R437, R438): while the signature is still being verified, STATE is 2. -/
def State.recFinishes (s : State) (owner : Nat) (persist : Bool) : State × Nat :=
  if s.boot.recState ≠ 1 || s.boot.recOwner ≠ owner || s.boot.recAccepted < s.boot.recTotal then (s, 0)
  else
    let ready := s.boot.recSigOk && s.boot.recBad.isNone
    ({ s with boot.recHeard := s.elapsed, boot.recFinish := some persist, boot.recBusy := true
              boot.recState := if ready then (if persist then 3 else 4) else 2 }, 0)

/-- FINISH acts at once on a transfer already verified. -/
def State.recGo (s : State) : State :=
  match s.boot.recFinish with
  | some p => if s.boot.recState = 3 || s.boot.recState = 4 then s.recActs p else s
  | none => s

/-- REC_FINISH (R437-R439). -/
def execRecFinish (dt : Nat) (mp : Option (Nat × Nat)) (persist : Bool) (s : State) : Out := s.runFuse dt fun s =>
  s.recRun mp 3 (b2n persist) 0 0 [] (fun s o => s.recFinishes o persist) State.recGo

/-- REC_FLASH_WRITE_DONE (R437, R440): the slot is `PENDING` and its image starts as a trial; after a read-back check that failed the
slot is not bootable, and the image starts all the same. (DEDUCED, unsafe: notes/assumptions/142.md) -/
def execRecFlashWriteDone (dt : Nat) (good : Bool) (s : State) : Out := s.runFuse dt fun s =>
  if s.boot.recState ≠ 3 || !s.boot.recBusy then s
  else
    let m := s.recManifest
    let t := s.boot.recTarget
    let q := s.nextSequence
    let s1 := if good then
        ((((s.setSlot t { magic := 0x53454C53, format := 0x10, state := 0xFFFFFF00, sequence := q, trial := 0, manifest := m }).program t 20 q).program
          t 16 0xFFFFFF00).program t 24 0)
      else s.slotState t 0
    { s1 with boot.bootedSlot := t, boot.fromHost := false, boot.trial := good, boot.fallback := false }.startImage m (recAt 65536)

/-- REC_ABORT (R438). -/
def execRecAbort (dt : Nat) (mp : Option (Nat × Nat)) (s : State) : Out := s.runFuse dt fun s =>
  s.recRun mp 4 0 0 0 [] (fun s o =>
    if s.recActive && s.boot.recOwner = o then ({ s with boot.recState := 0, boot.recAccepted := 0, boot.recBlocks := 0, boot.recFinish := none }, 0)
    else (s, 0)) id

/-- REC_STATUS_REQUEST (R439). -/
def execRecStatusRequest (dt mac ver : Nat) (s : State) : Out := s.runFuse dt fun s =>
  if s.glb.mode ≠ .recovery || !s.ports.mp.up then s
  else
    let s1 := s.mpGood (recFrame s.fuse.mpMac mac ver 5 0 0 0 [])
    s1.recReply mac 5 (if ver / 16 = 1 then s1.boot.recFail else 12)

/-- REC_DATA_WINDOW_WRITE (R438): a write while `BUSY` is 1 is discarded, and the transfer fails. (DEDUCED, unsafe: notes/assumptions/141.md) -/
def execRecDataWindowWrite (dt off : Nat) (data : Bytes) (early : Bool) (s : State) : Out := s.runFuse dt fun s =>
  if !s.recOpen then s
  else if early || s.boot.recBusy then (if s.recActive then s.recFails 15 else s)
  else s.ramWrite (recWinAt (off % 524288)) (data.take (524288 - off % 524288))

/-- REC_TRANSFER_TIMEOUT (R438). -/
def execRecTransferTimeout (dt : Nat) (s : State) : Out := s.runFuse dt fun s =>
  if s.glb.mode = .recovery && s.boot.recState = 1 && s.boot.recHeard + grid 34 ≤ s.elapsed then s.recFails 13 else s

/-! Commands of group 0x0C (R440-R445). -/

/-- BOOT_STATUS (R444, R445). -/
def execBootStatus (dt : Nat) (path : Path) (s : State) : Out := s.run dt fun s =>
  s.tosenRun path 0x0C01 0 false .any fun s _ => s.ok s.bootRegs

/-- The update in progress, while its session is open (R440, R446). -/
def State.updateOf (s : State) : Option Path := match s.boot.updating with
  | some (p, g) => if (s.session? p).any (fun x => x.gen == g) then some p else none
  | none => none

/-- A flash error ends the command (R445). (DEDUCED, unsafe: notes/assumptions/143.md) -/
def State.flashError (s : State) : Answer × State := (.reply 0x02000142 [9, 0], s.bootEvent 4)

/-- IMAGE_WRITE_BEGIN (R440, R445): the target's header becomes `INVALID`, then is erased. (DEDUCED, unsafe: notes/assumptions/143.md) -/
def execImageWriteBegin (dt : Nat) (path : Path) (len : Nat) (err : Bool) (s : State) : Out := s.run dt fun s =>
  s.tosenRun path 0x0C02 1 false .any fun s _ =>
    let t := 1 - s.boot.bootedSlot
    let g := ((s.session? path).map (fun x => x.gen)).getD 0
    if len % 65536 ≠ 0 || len < 131072 || 67043328 < len then s.deny 0x03000140
    else if s.updateOf.any (fun p => p != path) then s.deny 0x01000140
    else
      let s1 := s.slotState t 0
      if err then { s1 with boot.updating := none }.flashError
      else
        let s2 := (s1.setSlot t {}).program t 16 0xFFFFFFFF
        { s2 with
          ram := mzero s2.ram (imageAt 0) (2 ^ 26)
          boot.updating := some (path, g), boot.updTarget := t, boot.updLen := len, boot.updDone := 0 }.ok [t]

/-- IMAGE_WRITE (R440, R445). (DEDUCED, unsafe: notes/assumptions/143.md) -/
def execImageWrite (dt : Nat) (path : Path) (addr off len : Nat) (buf : Bytes) (err : Bool) (s : State) : Out := s.run dt fun s =>
  s.tosenRun path 0x0C03 3 false .any fun s _ =>
    if badAddr path addr then s.deny 0x03000F02
    else if len < 8 || 1048576 < len || len % 8 ≠ 0 || (s.updateOf = some path && s.boot.updLen < off + len) then s.deny 0x03000140
    else if s.updateOf ≠ some path || off ≠ s.boot.updDone then s.deny 0x02000140
    else if err then s.flashError
    else { s with boot.updDone := off + len }.ramWrite (imageAt off) (s.cmdRead path addr len buf) |>.ok []

/-- The blocks of the written image against their hashes: the first that fails. -/
def State.imageBad (s : State) (m : Bytes) : Option Nat :=
  (List.range (manBlocks m)).find? (fun i => sha384 (mreads s.ram (imageAt (65536 * (i + 1))) 65536) != manHash m i)

/-- IMAGE_WRITE_END (R440, R445): the image as read back is verified, the header check taken as passed. (DEDUCED, unsafe: notes/assumptions/143.md) -/
def execImageWriteEnd (dt : Nat) (path : Path) (err : Bool) (s : State) : Out := s.run dt fun s =>
  s.tosenRun path 0x0C04 0 false .any fun s _ =>
    let t := s.boot.updTarget
    let m := mreads s.ram (imageAt 0) (min 65536 (manLen (mreads s.ram (imageAt 0) 512)))
    let done := fun (s : State) => { s with ram := mzero s.ram (imageAt 0) (2 ^ 26), boot.updating := none }
    let fails := fun (r b : Nat) => ((.reply 0x02000142 [r, b], done (s.setSlot t {})) : Answer × State)
    if s.updateOf ≠ some path then s.deny 0x02000140
    else if err then (done (s.setSlot t {})).flashError
    else match s.manFail m, s.sigFail m, s.imageBad m with
      | 0, 0, none =>
        let q := s.nextSequence
        let s1 := s.setSlot t { magic := 0x53454C53, format := 0x10, state := 0xFFFFFF00, sequence := q, manifest := m }
        (done ((s1.program t 20 q).program t 16 0xFFFFFF00)).ok [t, q]
      | 0, 0, some b => fails 8 b
      | 0, r, _ => fails r 0
      | r, _, _ => fails r 0

/-- BOOT_ROLLBACK_COMMIT (R442). (DEDUCED, unsafe: notes/assumptions/145.md) -/
def execBootRollbackCommit (dt : Nat) (path : Path) (v allow : Nat) (s : State) : Out := s.runFuse dt fun s =>
  s.tosenRun path 0x0C06 2 (allow > 1) .any fun s _ =>
    let b := s.boot
    let o := s.slot (1 - b.bootedSlot)
    if v ≤ s.counter || b.sv < v || (b.trial && !b.markedValid) || b.fromHost then s.deny 0x02000145
    else if o.code = 3 && manSv o.manifest < v && allow ≠ 1 then s.deny 0x02000146
    else
      let s1 : State := { s with fuse.counter := s.fuse.counter ||| (2 ^ v - 1) }
      s1.ok [s1.counter]

/-- BOOT_KEY_PROGRAM (R443). -/
def execBootKeyProgram (dt : Nat) (path : Path) (slot : Nat) (hash : List Nat) (s : State) : Out := s.runFuse dt fun s =>
  s.tosenRun path 0x0C07 7 false .any fun s _ =>
    let k := s.keySlot slot
    let h := ofLe (hash.flatMap (fun f => le f 8))
    if slot > 3 then s.deny 0x03000141
    else if k.programmed ≠ 0 then s.deny 0x02000144
    else { s with fuse.keys := s.fuse.keys.set slot { k with hash := k.hash ||| h, programmed := 255 } }.ok []

/-- BOOT_KEY_REVOKE (R443). -/
def execBootKeyRevoke (dt : Nat) (path : Path) (slot : Nat) (s : State) : Out := s.runFuse dt fun s =>
  s.tosenRun path 0x0C08 1 false .any fun s _ =>
    if slot > 3 then s.deny 0x03000141
    else if !(List.range 4).any (fun i => i != slot && (s.keySlot i).live) then s.deny 0x02000143
    else { s with fuse.keys := s.fuse.keys.set slot { s.keySlot slot with revoked := 255 } }.ok []

end Sys2Proof.Machine
end

