-- ==== Sys2Proof/Machine/Parser.lean ====
section
/-! DEFINITION. The parser and classifier (R138-R146): the walk of a frame through a parse graph, the built-in checks, the parse vector
and the rules. -/
namespace Sys2Proof.Machine

/-! Fields of the records of R140. -/

def nb (r : Bytes) (i : Nat) : Nat := (r.getD i 0).toNat
/-- Extraction `j` of a node: source offset, length, destination. -/
def nodeExtract (r : Bytes) (j : Nat) : Nat × Nat × Nat := (nb r (14 + 4 * j), nb r (15 + 4 * j), nb r (16 + 4 * j))
def nodeFirst (r : Bytes) : Nat := ofLe (slice r 10 2)

/-- Whether a used node record holds only values in the ranges of R140. -/
def nodeOk (trans : Nat) (r : Bytes) : Bool :=
  nb r 0 ≤ 63 && nb r 1 ≤ 5 && nb r 4 ≤ 7 && [0, 1, 4, 8].contains (nb r 6) && nb r 9 ≤ 2 && nodeFirst r ≤ 511 && nb r 12 ≤ 32
    && nodeFirst r + nb r 12 ≤ trans
    && (List.range 4).all (fun j => let x := nodeExtract r j; x.1 ≤ 63 && x.2.1 ≤ 16 && (x.2.1 == 0 || x.2.2 + x.2.1 ≤ 88))

/-- Whether the reserved fields of a node record are zero. -/
def nodeRes (r : Bytes) : Bool := nb r 13 < 2 && nb r 30 == 0 && nb r 31 == 0 && (List.range 4).all (fun j => nb r (17 + 4 * j) == 0)

/-- The graph a buffer of R140 spells, or none where R141 refuses it. (DEDUCED, unsafe: notes/assumptions/49.md) -/
def graphOf (b : Bytes) : Option Graph :=
  let nn := nb b 1
  let nt := ofLe (slice b 2 2)
  if b.length < 16 || nb b 0 ≠ 1 || slice b 4 12 ≠ zeros 12 || nn > 64 || nt > 512 || b.length ≠ 16 + 32 * nn + 8 * nt then none
  else
    let nodes := (List.range nn).map (fun i => slice b (16 + 32 * i) 32)
    let trans := (List.range nt).map (fun i => slice b (16 + 32 * nn + 8 * i) 8)
    let good := nodes.all (fun r => nodeRes r && (nb r 0 == 0 || nodeOk nt r))
      && trans.all (fun t => slice t 5 3 == zeros 3 && (nb t 4 == 0xFF || nb (nodes.getD (nb t 4) []) 0 != 0))
    if good then some { loaded := true, nodes := nodes, trans := trans } else none

/-! The walk (R139, R143, R144). -/

/-- What parsing a frame gives: PFLAGS bits, the reason code, the headers met and the extraction area. -/
structure Parsed where
  flags : Nat := 0
  reason : Nat := 0
  layers : List (Nat × Nat) := []
  area : Bytes := zeros 88
  deriving DecidableEq, Repr

def Parsed.flag (p : Parsed) (i : Nat) : Parsed := { p with flags := setBit p.flags i }
/-- The frame is malformed, or goes to the slow path, for a reason. -/
def Parsed.malformed (p : Parsed) (r : Nat) : Parsed := { p.flag 2 with reason := r }
def Parsed.slow (p : Parsed) (r : Nat) : Parsed := { p.flag 3 with reason := r }

/-- The ones' complement sum of the 16-bit words of a header, which is 0xFFFF where its checksum is right. -/
def sum16 : Bytes → Nat
  | a :: b :: r =>
    let x := a.toNat * 256 + b.toNat + sum16 r
    if x > 65535 then x - 65535 else x
  | [a] => a.toNat * 256
  | [] => 0

/-- Why a built-in check fails: malformed or slow, with the reason. -/
inductive Verdict where
  | pass
  | malformed (r : Nat)
  | slow (r : Nat)
  deriving DecidableEq, Repr

/-- A built-in check of the header at offset `o` (R143, R144): `w` is the window cut at the frame's end, `n` the bytes before the FCS. A
byte beyond the window is never read; a check that can be made inside it comes first. (DEDUCED, unsafe: notes/assumptions/48.md) -/
def builtIn (c : Nat) (w : Bytes) (o n : Nat) : Verdict :=
  let h := w.drop o
  let has := fun k => k ≤ h.length
  let w16 := fun i => ofBe (slice h i 2)
  match c with
  | 1 =>
    let ihl := nb h 0 % 16
    let sum := has (4 * ihl) && sum16 (h.take (4 * ihl)) != 0xFFFF
    if has 1 && (nb h 0 / 16 != 4 || ihl < 5) then .malformed 3
    else if sum then .malformed 3
    else if has 4 && (w16 2 > n - o || w16 2 < 4 * ihl) then .malformed 5
    else if !has 1 || !has (4 * ihl) then .slow 3
    else if w16 6 % 0x4000 != 0 then .slow 1
    else .pass
  | 2 =>
    if has 1 && nb h 0 / 16 != 6 then .malformed 4
    else if has 6 && w16 4 + 40 > n - o then .malformed 5
    else if !has 6 then .slow 3 else .pass
  | 3 => .slow 1
  | 4 => if !has 13 then .slow 3 else if nb h 12 / 16 < 5 then .malformed 6 else .pass
  | 5 => if !has 6 then .slow 3 else if w16 4 < 8 || w16 4 > n - o then .malformed 6 else .pass
  | _ => .pass

/-- The extractions of a node at offset `o`, bytes outside the window reading zero. -/
def extract (w r : Bytes) (o : Nat) (area : Bytes) : Bytes :=
  (List.range 4).foldl (fun a j =>
    let x := nodeExtract r j
    a.take x.2.2 ++ slice w (o + x.1) x.2.1 ++ a.drop (x.2.2 + x.2.1)) area

/-- Where a node's next-header field leads: the first transition that matches. -/
def Graph.next (g : Graph) (r : Bytes) (field : Nat) : Option Nat :=
  (((g.trans.drop (nodeFirst r)).take (nb r 12)).find? (fun t => field &&& ofLe (slice t 2 2) == ofLe (slice t 0 2))).map (fun t => nb t 4)

/-- The walk from a node at window offset `o`. `fuel` is how many headers may still be met. (DEDUCED, unsafe: notes/assumptions/48.md) -/
def Graph.walk (g : Graph) (w : Bytes) (n : Nat) (p : Parsed) (node o : Nat) : Nat → Parsed
  | 0 => p.slow 4
  | fuel + 1 =>
    let r := g.nodes.getD node []
    let p := { p with layers := p.layers ++ [(nb r 0, o)] }
    let at_ := o + nb r 3
    if nb r 6 ≠ 0 && at_ ≥ n then p.malformed 1
    else if nb r 6 ≠ 0 && at_ ≥ 128 then
      match builtIn (nb r 1) w o n with
      | .malformed x => p.malformed x
      | _ => p.slow 3
    else
      let len := if nb r 6 = 0 then nb r 2 else (nb w at_ / 2 ^ nb r 4 &&& nb r 5) * nb r 6 + nb r 7
      let stop := o + len
      if stop > n then p.malformed 1
      else if nb r 6 ≠ 0 && len < nb r 2 then p.malformed 2
      else match builtIn (nb r 1) w o n with
        | .malformed x => p.malformed x
        | .slow x => p.slow x
        | .pass =>
          if stop > 128 && !(nb r 13).testBit 0 then p.slow 3
          else
            let p := if stop > 128 then p.flag 4 else p
            let p := { p with area := extract w r o p.area }
            let field := o + nb r 8
            if nb r 9 = 0 then p
            else if field + nb r 9 > 128 then p.slow 3
            else if field + nb r 9 > w.length then p.flag 0
            else match g.next r (ofBe (slice w field (nb r 9))) with
              | none => p.flag 0
              | some x =>
                if x = 0xFF then p
                else if stop ≥ 128 then p.slow 2
                else g.walk w n p x stop fuel

/-- A frame parsed (R138, R139): its bytes after any strip, without the FCS. Without a graph, or with node 0 unused, nothing matches.
(DEDUCED, unsafe: notes/assumptions/48.md) -/
def Graph.parse (g : Graph) (body : Bytes) : Parsed :=
  if nb (g.nodes.getD 0 []) 0 = 0 then ({} : Parsed).flag 0 else g.walk (body.take 128) body.length {} 0 0 12

/-- The parse vector (R142). -/
def Parsed.vector (p : Parsed) (port : Nat) (tag : Option (Nat × Nat)) (cls : Nat) : Bytes :=
  let f := if tag.isSome then setBit p.flags 1 else p.flags
  let t := tag.getD (0, 0)
  le port 1 ++ le p.layers.length 1 ++ le f 2 ++ be t.1 2 ++ be t.2 2 ++ le cls 2 ++ le p.reason 1 ++ zeros 5
    ++ slice (p.layers.flatMap (fun x => le x.1 1 ++ le x.2 1)) 0 24 ++ slice p.area 0 88

/-! The classifier (R146). -/

/-- Whether a rule matches a frame of a port: bytes 8 to 10 of the vector never count. -/
def Rule.hits (r : Rule) (port : Nat) (pv : Bytes) : Bool :=
  r.ports.testBit port && (List.range 128).all (fun i =>
    (8 ≤ i && i ≤ 10) || (pv.getD i 0) &&& (r.mask.getD i 0) == (r.value.getD i 0) &&& (r.mask.getD i 0))

/-- The rules of a domain, in index order. -/
def View.rulesOf (v : View) (d : Nat) : List Rule := (v.rules.filter (fun (x : Nat × Rule) => x.1 / 4096 == d)).map (·.2)

/-- The result of the lowest-indexed rule that matches. -/
def View.classify (v : View) (d port : Nat) (pv : Bytes) : Option Rule := (v.rulesOf d).find? (fun r => r.hits port pv)

end Sys2Proof.Machine
end

