-- ==== Sys2Proof/Machine/PipeOps.lean ====
section
/-! DEFINITION. The match tables and the pipelines' shared operations (R157-R176): the settings in force at a stamp, lookups, insertion,
learning, sweeps, the Spout's table, and the resolution of a frame. -/
namespace Sys2Proof.Machine

/-! What a frame sees (R141, R157, R175). -/

/-- The view in force at elapsed instant `t`. (DESIGN CHOICE, unsafe: notes/assumptions/52.md) -/
def viewAt : List (Nat × View) → Nat → View → View
  | [], _, v => v
  | (e, o) :: r, t, v => if t < e then viewAt r t o else v
/-- The model's own reading. (DESIGN CHOICE, safe: notes/assumptions/53.md) -/
def State.view (s : State) (t : Nat) : View := viewAt s.pl.past t s.pl.cur

/-- A change takes effect now: frames whose SFD is stamped from now on see the new view, earlier ones the old.
(DESIGN CHOICE, unsafe: notes/assumptions/52.md) -/
def State.setView (s : State) (f : View → View) : State :=
  { s with pl.past := (s.elapsed, s.pl.cur) :: s.pl.past, pl.cur := f s.pl.cur }

/-- The present view changed for every frame: hits, learns and counts. (DESIGN CHOICE, safe: notes/assumptions/53.md) -/
def State.inView (s : State) (f : View → View) : State := { s with pl.cur := f s.pl.cur }

/-- A table of the present view changed. -/
def State.onTable (s : State) (t : Nat) (f : MTable → MTable) : State :=
  match tget? s.pl.cur.tables t with
  | none => s
  | some x => s.inView (fun v => { v with tables := tset v.tables t (f x) })
def State.tblCount (s : State) (t i k : Nat) : State := s.onTable t (fun x => { x with counters := bumpBy x.counters i k })

/-- TABLE_EVENT (R178): subject, cause, key, ledger time. -/
def State.tableEvent (s : State) (d subject cause : Nat) (key : Bytes) : State :=
  s.event [d, 0] 0x0530 d ([subject, cause] ++ (List.range 4).map (fun i => ofLe (slice key (8 * i) 8)) ++ [s.ledgerNs])

/-! Shares (R146, R165, R174, R176). -/

def State.plQuota (s : State) (d : Nat) : PlQuota := tget s.pl.quotas d {}
def State.share (s : State) (d n : Nat) (o : Option Nat) : Nat := o.getD (if s.domOn d then n / s.domCount else 0)
def State.ruleQuota (s : State) (d : Nat) : Nat := s.share d 4096 (s.plQuota d).rules
def State.profileQuota (s : State) (d : Nat) : Nat := s.share d 1024 (s.plQuota d).profiles
def State.cacheShare (s : State) (d : Nat) : Nat := s.share d 65536 (s.plQuota d).cache
def State.missShare (s : State) (d : Nat) : Nat := s.share d 2048 (s.plQuota d).misses
def State.spoutShare (s : State) (d : Nat) : Nat := s.share d 65536 (s.plQuota d).spout

/-! Entries (R162-R164). -/

/-- A key as an entry holds it. -/
def padKey (k : Bytes) : Bytes := slice k 0 32
/-- The bucket of a key (R163). -/
def MTable.bucket (t : MTable) (key : Bytes) : Nat := crc32c t.seed (slice key 0 t.keyLen) % 2 ^ t.log2

/-- Where a key is present: whether in the overflow store, at which slot, and the entry. -/
def MTable.find (t : MTable) (key : Bytes) : Option (Bool × Nat × Entry) :=
  let k := padKey key
  let b := t.bucket key * 4
  match t.slots.find? (fun (x : Nat × Entry) => b ≤ x.1 && x.1 < b + 4 && x.2.key == k) with
  | some x => some (false, x.1, x.2)
  | none => (t.ovf.find? (fun (x : Nat × Entry) => x.2.key == k)).map (fun x => (true, x.1, x.2))

/-- An entry put in its place, or taken out. -/
def MTable.put (t : MTable) (ovf : Bool) (i : Nat) (e : Entry) : MTable :=
  if ovf then { t with ovf := tset t.ovf i e } else { t with slots := tset t.slots i e }
def MTable.take (t : MTable) (ovf : Bool) (i : Nat) : MTable :=
  let t1 := if ovf then { t with ovf := tdel t.ovf i } else { t with slots := tdel t.slots i }
  { t1 with ovfHigh := t1.ovfHigh && t1.ovf.length ≥ 12288 }

/-- Entries of a table. -/
def MTable.entries (t : MTable) : List Entry := (t.slots ++ t.ovf).map (·.2)

/-- The mark of a poisoned entry in the shallow-table store (R452). -/
def entryMark (t : Nat) (ovf : Bool) (i : Nat) : Nat × Nat := (2, t * 2 ^ 32 + (if ovf then 2 ^ 31 else 0) + i)

/-! Ageing (R171-R173). -/

/-- The earliest sweep point of a table not yet served. -/
def MTable.sweepDue (t : MTable) (now : Nat) : Option Nat :=
  if t.mult = 0 then none
  else
    let p := ceilMult t.swept (t.mult * grid 20)
    if p ≤ now then some p else none

/-- The entry of a key, where it is present, with `HIT` set. -/
def MTable.hitBy (t : MTable) (key : Bytes) : MTable := match t.find key with
  | some (o, i, e) => t.put o i { e with hit := true }
  | none => t

/-- Whether sweeps run: Factory, Priming and Service (R173). -/
def State.sweeps (s : State) : Bool :=
  match s.glb.mode with
  | .factory => true
  | .priming => true
  | .service => true
  | _ => false

/-- Whether an entry is removed at a sweep, and what it is after it. -/
def Entry.dies (e : Entry) : Bool := !e.fixed && !e.hit && e.stale
def Entry.aged (e : Entry) : Entry := if e.fixed then e else { e with hit := false, stale := !e.hit }

/-- The key of a stage or a learn: ranges of the parse vector (R165). -/
def rangesKey (pv : Bytes) (rs : List (Nat × Nat)) : Bytes := rs.flatMap (fun r => slice pv r.1 r.2)

/-- The profile of a frame: one never set takes a final result of drop. -/
def View.profileOf (v : View) (d i : Nat) : Profile := tget v.profiles (d * 4096 + i) {}

/-- The used stages of a profile, with their numbers. -/
def Profile.used (p : Profile) : List (Nat × Stage) := ((List.range p.stages.length).zip p.stages).filter (fun x => x.2.table != 0xFF)

/-- The stages of a frame in the pipelines that have still to be looked up. -/
def State.unlooked (s : State) (f : Frame) : List (Nat × Stage) :=
  if f.path ≠ 0 || f.phase ≥ 2 then []
  else ((s.view f.feed.at_).profileOf f.dom f.profile).used.filter (fun x => f.phase == 0 || f.misses.contains x.1)

/-- Keys under which frames stamped before sweep point `p`, and not yet looked up, will hit table `t` (R171).
(DEDUCED, unsafe: notes/assumptions/55.md) -/
def State.lateKeys (s : State) (t p : Nat) : List Bytes :=
  (s.pl.frames.filter (fun f => f.feed.stamp < p)).flatMap (fun f =>
    ((s.unlooked f).filter (fun x => x.2.table == t)).map (fun x => padKey (rangesKey f.pv x.2.key)))

/-- The sweep of a table at its earliest point due (R171): entries hit before it, or that a frame stamped before it has still to hit, are
cleared, idle ones made stale, stale ones removed and reported. (DEDUCED, unsafe: notes/assumptions/55.md) -/
def State.sweepStep (s : State) (t : Nat) : State :=
  match tget? s.pl.cur.tables t with
  | none => s
  | some x0 =>
    match x0.sweepDue s.now with
    | none => s
    | some p =>
      if !s.sweeps then s
      else
        let x := (s.lateKeys t p).foldl MTable.hitBy x0
        let s := s.inView (fun v => { v with tables := tset v.tables t x })
        let dead := x.entries.filter Entry.dies
        let buried := fun (o : Bool) (l : Table Entry) => (l.filter (fun y => y.2.dies)).map (fun y => (o, y.1, y.2))
        let keep := fun (l : Table Entry) => (l.filter (fun y => !y.2.dies)).map (fun y => (y.1, y.2.aged))
        let x1 := { x with slots := keep x.slots, ovf := keep x.ovf, swept := p + 1, counters := bumpBy x.counters 5 dead.length
                           grave := buried false x.slots ++ buried true x.ovf }
        let x2 := { x1 with ovfHigh := x1.ovfHigh && x1.ovf.length ≥ 12288 }
        let put := fun (v : View) => { v with tables := tset v.tables t x2 }
        let s1 := if dead.isEmpty then s.inView put else s.setView put
        let s2 := { s1 with pl.cache := s1.pl.cache.filter (fun c => !(c.2.1 == t && dead.any (fun e => e.key == c.2.2))) }
        if !x.notify then s2
        else
          let s3 := (dead.take 1024).foldl (fun s e => s.tableEvent x.dom t 3 e.key) s2
          if dead.length > 1024 then s3.tableEvent x.dom t 4 (le (dead.length - 1024) 8) else s3

/-- Every sweep point of a table that is due: after three no entry is left that a further one could change.
(DEDUCED, unsafe: notes/assumptions/55.md) -/
def State.sweepTable (s : State) (t : Nat) : State :=
  let s1 := ((s.sweepStep t).sweepStep t).sweepStep t
  if s1.sweeps then s1.onTable t (fun x => if (x.sweepDue s1.now).isSome then { x with swept := s1.now + 1 } else x) else s1

/-- Every table's due sweep: it acts before a change of the same instant (R24, R179). -/
def State.sweepAll (s : State) : State := (List.range 16).foldl State.sweepTable s

/-- An entry hit by a frame whose SFD was stamped at `st` (R164, R171): toward the last sweep where the stamp precedes it, else toward the
next. (DEDUCED, unsafe: notes/assumptions/55.md) -/
def Entry.struck (e : Entry) (swept st : Nat) : Entry := if st + 1 < swept then { e with stale := false } else { e with hit := true }

/-! Insertion (R168). -/

/-- What an insertion did: the table, whether the entry is in the overflow store and where, and a victim. -/
structure Inserted where
  table : MTable
  ovf : Bool
  place : Nat
  victim : Option Entry := none
  fresh : Bool := true
  deriving DecidableEq, Repr

/-- The lowest number below `n` that a table does not list from `b` on. -/
def lowestFree (l : Table Entry) (b n : Nat) : Option Nat := ((List.range n).map (fun i => b + i)).find? (fun i => (tget? l i).isNone)

/-- The overflow store's lowest free entry. -/
def MTable.ovfFree (t : MTable) : Option Nat := if t.ovf.length ≥ 16384 then none else lowestFree t.ovf 0 (t.ovf.length + 1)

/-- The victim among a full bucket's entries: by a random pick `rnd`, or the oldest. (DESIGN CHOICE, safe: notes/assumptions/57.md) -/
def MTable.victim (t : MTable) (b rnd : Nat) : Option (Nat × Entry) :=
  let vs := t.slots.filter (fun (x : Nat × Entry) => b ≤ x.1 && x.1 < b + 4 && !x.2.fixed)
  if t.evict = 1 then vs[rnd % vs.length]?
  else if t.evict = 2 then vs.foldl (fun (a : Option (Nat × Entry)) x => match a with
    | none => some x
    | some y => if x.2.inserted < y.2.inserted then some x else some y) none
  else none

/-- The procedure of R168; a refusal is its status. `rnd` is the random pick. -/
def MTable.insert (t : MTable) (e : Entry) (replace : Bool) (rnd : Nat) : Except Nat Inserted :=
  match t.find e.key with
  | some (o, i, x) =>
    if replace then .ok { table := t.put o i { x with result := e.result, fixed := e.fixed }, ovf := o, place := i, fresh := false }
    else .error 0x02000063
  | none =>
    let b := t.bucket e.key * 4
    match lowestFree t.slots b 4 with
    | some i => .ok { table := t.put false i e, ovf := false, place := i }
    | none =>
      match t.ovfFree with
      | some i => .ok { table := t.put true i e, ovf := true, place := i }
      | none =>
        match t.victim b rnd with
        | none => .error 0x02000062
        | some (i, v) => .ok { table := t.put false i e, ovf := false, place := i, victim := some v }

/-- An insertion that succeeded, made in table `t`: counted, its victim reported, a high overflow store reported. `instant` tells whether
frames stamped before now still see the old table. -/
def State.putInserted (s : State) (t : Nat) (r : Inserted) (instant : Bool) : State :=
  let high := r.ovf && r.table.ovf.length ≥ 15360 && !r.table.ovfHigh
  let c1 := if r.fresh then bump r.table.counters 2 else r.table.counters
  let c2 := if r.victim.isSome then bump c1 4 else c1
  let x := { r.table with counters := c2, ovfHigh := r.table.ovfHigh || high }
  let put := fun (v : View) => { v with tables := tset v.tables t x }
  -- an entry written whole is no longer poisoned (R451)
  let s0 : State := if r.fresh then { s with mem.marks := s.mem.marks.filter (fun y => y != entryMark t r.ovf r.place) } else s
  let s1 := if instant || r.victim.isNone then s0.inView put else s0.setView put
  let s2 := match r.victim with
    | some e => { s1 with pl.cache := s1.pl.cache.filter (fun c => !(c.2.1 == t && c.2.2 == e.key)) }.tableEvent x.dom t 1 e.key
    | none => s1
  if high then s2.tableEvent x.dom t 6 [] else s2

/-! Learning (R169, R170). -/

def State.learnPort (s : State) (p : Nat) : LearnPort := tget s.pl.learnPorts p {}
def State.setLearnPort (s : State) (p : Nat) (x : LearnPort) : State := { s with pl.learnPorts := tset s.pl.learnPorts p x }
/-- LEARNED_NOW of a port (R177). -/
def State.learnedNow (s : State) (p : Nat) : Nat :=
  (s.pl.cur.tables.map (fun (t : Nat × MTable) => (t.2.entries.filter (fun e => e.learned && e.srcPort == p)).length)).sum

/-- The result of a learn: the template with its queue moved by the port's number (R169). -/
def templateFor (tpl p : Nat) : Nat := tpl - bits tpl 17 3 * 8 + (bits tpl 17 3 + p) % 32768 * 8

/-- A learn asked for by a missed stage: put in line, or refused by a limit of the port. The flag says it was refused.
(DEDUCED, unsafe: notes/assumptions/54.md) -/
def State.askLearn (s : State) (l : Learn) : Bool × State :=
  let x := s.learnPort l.port
  let now := s.learnedNow l.port
  let x := if x.reached && now < x.max then { x with reached := false } else x
  if x.tokens = 0 || now + (s.pl.learns.filter (fun y => y.port == l.port)).length ≥ x.max then
    (true, s.setLearnPort l.port { x with refused := inc48 x.refused })
  else (false, { s.setLearnPort l.port { x with tokens := x.tokens - 1 } with pl.learns := s.pl.learns ++ [l] })

/-- The count of a port's learned entries has risen: reaching the limit is reported once (R170). -/
def State.learnReached (s : State) (p : Nat) : State :=
  let x := s.learnPort p
  if s.learnedNow p ≥ x.max && !x.reached then (s.setLearnPort p { x with reached := true }).tableEvent (s.portOwner p) p 5 [] else s

/-- A learn applied (R169): the entry inserted, moved or refreshed. (DEDUCED, unsafe: notes/assumptions/54.md) -/
def State.applyLearn (s0 : State) (l : Learn) : State :=
  let s := s0.sweepTable l.table
  match tget? s.pl.cur.tables l.table with
  | none => s
  | some t =>
    match t.find l.key with
    | some (o, i, e) =>
      if e.result = l.result then s.onTable l.table (fun t => t.put o i { e with hit := true })
      else
        ((s.onTable l.table (fun t => { t.put o i { e with result := l.result, srcPort := l.port } with counters := bump t.counters 7 })).learnReached l.port)
    | none =>
      if s.learnedNow l.port ≥ (s.learnPort l.port).max then
        s.setLearnPort l.port { s.learnPort l.port with refused := inc48 (s.learnPort l.port).refused }
      else
        let e : Entry := { key := padKey l.key, result := l.result, learned := true, srcPort := l.port, inserted := nsOf s.now / 2 ^ 20 % 2 ^ 48 }
        match t.insert e false (s.freeBits 32) with
        | .error _ => (s.tblCount l.table 3 1).tableEvent t.dom l.table 2 l.key
        | .ok r => (((s.used.putInserted l.table r false).tblCount l.table 6 1).learnReached l.port)

/-! Lookups (R164, R174). -/

/-- What a lookup gives: a hit's result, a miss, a bucket to come from HBM, or a poisoned entry. -/
inductive Look where
  | hit (result : Nat)
  | miss
  | wait
  | poison
  deriving DecidableEq, Repr

/-- A hit counted on the present table. An entry that the last sweep removed, hit by a frame stamped before that sweep whose receive event
had not ended by then, stands again and was not aged (R171, R172). (DEDUCED, unsafe: notes/assumptions/55.md) -/
def State.strike (s : State) (t : Nat) (key : Bytes) (st : Nat) : State :=
  s.onTable t (fun x =>
    let x1 := { x with counters := bump x.counters 1 }
    match x.find key with
    | some (o, i, e) => x1.put o i (e.struck x.swept st)
    | none =>
      match x.grave.find? (fun g => g.2.2.key == padKey key && st + 1 < x.swept && (tget? (if g.1 then x.ovf else x.slots) g.2.1).isNone) with
      | none => x1
      | some g =>
        let x2 := x1.put g.1 g.2.1 { g.2.2 with hit := false, stale := false }
        { x2 with grave := x.grave.erase g, counters := x2.counters.set 5 (add48 (nth x2.counters 5) (2 ^ 48 - 1)) })

/-- A line of the deep-table cache used, or put in: most recently used first, each domain within its share. -/
def State.cacheTouch (s : State) (d t : Nat) (key : Bytes) : State :=
  let c := (d, t, key) :: s.pl.cache.filter (fun x => x != (d, t, key))
  let own := c.filter (fun x => x.1 == d)
  { s with pl.cache := if own.length > s.cacheShare d then c.filter (fun x => !(own.drop (s.cacheShare d)).contains x) else c }

/-- An entry of an older view that a sweep before the frame's stamp has removed since (R171). -/
def State.gone (s : State) (x : MTable) (t : Nat) (e : Entry) (st : Nat) : Bool :=
  (match x.sweepDue s.now with
    | some p => p ≤ st && e.dies
    | none => false) && (match tget? s.pl.cur.tables t with
    | some y => (y.find e.key).isNone
    | none => false)

/-- The learns a frame may still ask for, as tables and keys (R169). -/
def State.mayLearn (s : State) (f : Frame) : List (Nat × Bytes) :=
  if f.path ≠ 0 || f.phase ≥ 2 then []
  else ((s.view f.feed.at_).profileOf f.dom f.profile).used.filterMap (fun x =>
    if f.phase == 0 || f.misses.contains x.1 || f.missed.contains x.1 then x.2.learn.map (fun l => (x.2.table, padKey (rangesKey f.pv l.1))) else none)

/-- A learn waits while a frame stamped before its own may still ask for one of the same table (R169). (DEDUCED, unsafe: notes/assumptions/54.md) -/
def State.learnHeld (s : State) (l : Learn) : Bool :=
  s.pl.frames.any (fun f => f.feed.at_ < l.at_ && (s.mayLearn f).any (fun x => x.1 == l.table))

/-- The asked learn stamped first among those that `ok` admits. -/
def State.firstLearn (s : State) (ok : Learn → Bool) : Option Learn :=
  (s.pl.learns.filter ok).foldl (fun (a : Option Learn) l => match a with
    | none => some l
    | some x => if l.at_ < x.at_ then some l else some x) none

/-- That learn applied, and all of them in stamp order (R169). -/
def State.learnOne (s : State) (ok : Learn → Bool) : State := match s.firstLearn ok with
  | none => s
  | some l => { s with pl.learns := s.pl.learns.erase l }.applyLearn l
def State.learnAll (s : State) (ok : Learn → Bool) : State := s.pl.learns.foldl (fun s _ => s.learnOne ok) s

/-- A table as a lookup of a frame finds it: swept up to the frame's stamp, with the learns of frames stamped 2^11 ns earlier applied
(R169, R171). (DEDUCED, unsafe: notes/assumptions/54.md) -/
def State.tableReady (s : State) (t : Nat) (f : Feed) : State :=
  let due := (tget? s.pl.cur.tables t).bind (fun x => x.sweepDue s.now)
  (if due.any (fun p => p ≤ f.stamp) then s.sweepTable t else s).learnAll (fun l => l.table == t && l.at_ + ns 2048 ≤ f.at_)

/-- A lookup of a frame stamped at `st` in its view (R164, R174). -/
def State.lookup (s : State) (v : View) (t : Nat) (key : Bytes) (st : Nat) : Look × State :=
  match tget? v.tables t with
  | none => (.miss, s)
  | some x =>
    let s1 := s.tblCount t 0 1
    -- a learned entry may be seen before 2^11 ns have passed (R169)
    let found := (x.find key).orElse (fun _ => ((tget? s.pl.cur.tables t).bind (fun y => y.find key)).filter (fun y => y.2.2.learned))
    match found with
    | none => if x.deep then (.wait, { s1 with pl.cacheMisses := inc48 s1.pl.cacheMisses }) else (.miss, s1)
    | some (o, i, e) =>
      let m := entryMark t o i
      let cached := s1.pl.cache.contains (x.dom, t, padKey key)
      let bad := s1.mem.marks.contains m
      if s.gone x t e st then (.miss, s1)
      else if x.deep && !o then
        if cached && !bad then (.hit e.result, ({ s1 with pl.cacheHits := inc48 s1.pl.cacheHits }.cacheTouch x.dom t (padKey key)).strike t key st)
        else
          let s2 := if bad then { s1 with
            mem.marks := s1.mem.marks.filter (fun y => y != m)
            pl.cache := s1.pl.cache.filter (fun y => y != (x.dom, t, padKey key)) }.onTable t (fun x => x.hitBy key) else s1
          (.wait, { s2 with pl.cacheMisses := inc48 s2.pl.cacheMisses })
      else if bad then
        (.poison, (({ s1 with mem.marks := s1.mem.marks.filter (fun y => y != m) }.onTable t (fun x => x.take o i)).tblCount t 8 1).memDom x.dom 1)
      else (.hit e.result, s1.strike t key st)

/-! Fields of a result word (R166). -/
def resDest (r : Nat) : Nat := r % 8
def resQueue (r : Nat) : Nat := bits r 17 3
def resMark (r : Nat) : Bool := r.testBit 18
def resMeter (r : Nat) : Nat := bits r 34 19

/-! Frames between the classifier and the traffic manager. -/

/-- A frame of the pipelines replaced, or taken out of them. It is known by its port and its feed. -/
def Frame.same (a b : Frame) : Bool := a.port == b.port && a.feed == b.feed
def State.putFrame (s : State) (f : Frame) : State := { s with pl.frames := s.pl.frames.map (fun x => if x.same f then f else x) }
def State.outFrame (s : State) (f : Frame) : State := { s with pl.frames := s.pl.frames.filter (fun x => !x.same f) }

/-- The frame dropped in the pipeline: its place in its port's reservation is free (R159, R184). -/
def State.dropFrame (s : State) (f : Frame) : State := (s.outFrame f).unhold f

/-- The frame given to its port's Sump queue, with a class of the device's own (R143, R144, R174). -/
def State.toSump (s : State) (f : Frame) (cls : Nat) : State :=
  s.putFrame { f with phase := 2, path := 2, cls := cls, misses := [], meter := 0xFFFF, queue := (tget (s.view f.feed.at_).ports f.port {}).sump }

/-- The results of a frame's used stages in order, up to the one that decides; the deciding one last (R167). -/
def decideOn (final : Nat) (found : Table Nat) : List (Nat × Stage) → List Nat
  | [] => [final]
  | (i, st) :: r =>
    let x := tget found i st.miss
    if resDest x ≠ 0 then [x] else x :: decideOn final found r

/-- A frame whose lookup met a poisoned bucket (R174): named where the classifier named it (R167), and given to the Sump queue. -/
def State.poisonSump (s : State) (f : Frame) : State :=
  let m := if f.notarise then s.ledgerMark f.feed 0 f.fcsBad f.cls else (s, 0)
  m.1.toSump { f with item := m.2 } 0xFFFC

/-- Every stage of a frame has its result: learns are asked for, and the frame is resolved, itemised where it is named, and dropped or
given its queue and meter (R167, R169, R170). -/
def State.resolve (s : State) (f : Frame) : State :=
  let v := s.view f.feed.at_
  let p := v.profileOf f.dom f.profile
  let asks := p.used.filterMap (fun x => if f.missed.contains x.1 then x.2.learn.map (fun l => (x.2.table, l)) else none)
  let r := asks.foldl (fun (a : Bool × State) x =>
    let l : Learn := { table := x.1, key := padKey (rangesKey f.pv x.2.1), result := templateFor x.2.2 f.port, port := f.port, at_ := f.feed.at_
                       stamp := f.feed.stamp }
    let y := a.2.askLearn l
    (a.1 || (y.1 && !(s.learnPort f.port).flood), y.2)) (false, s)
  let res := decideOn p.final f.found p.used
  let last := res.getLast?.getD 1
  let m := if f.notarise || res.any resMark then r.2.ledgerMark f.feed 0 f.fcsBad f.cls else (r.2, 0)
  if r.1 then m.1.dropFrame f
  else
    if resDest last = 2 then m.1.putFrame { f with phase := 2, item := m.2, queue := resQueue last, meter := resMeter last }
    else m.1.dropFrame f

/-- One stage of a frame looked up at dispatch. The flag tells of a poisoned entry. -/
def State.doStage (s : State) (f : Frame) (i : Nat) (st : Stage) : Bool × Frame × State :=
  let s := s.tableReady st.table f.feed
  let v := s.view f.feed.at_
  let key := padKey (rangesKey f.pv st.key)
  match s.lookup v st.table key f.feed.stamp with
  | (.hit r, s1) => (false, { f with found := tset f.found i r }, s1)
  | (.miss, s1) => (false, { f with found := tset f.found i st.miss, missed := f.missed ++ [i] }, s1)
  | (.wait, s1) => (false, { f with misses := f.misses ++ [i] }, s1)
  | (.poison, s1) => (true, f, s1)

/-- A frame given to a pipeline (R158, R167): its whole lookup set is performed. (DESIGN CHOICE, safe: notes/assumptions/57.md) -/
def State.dispatch (s : State) (f : Frame) : State :=
  let f := { f with pipe := s.pl.nextPipe }
  let s := { s with pl.nextPipe := (s.pl.nextPipe + 1) % 3 }
  if f.path = 1 then s.dropFrame f
  else if f.path = 2 then s.putFrame { f with phase := 2 }
  else
    let v := s.view f.feed.at_
    let r := (v.profileOf f.dom f.profile).used.foldl (fun (a : Bool × Frame × State) x =>
      let y := a.2.2.doStage a.2.1 x.1 x.2
      (a.1 || y.1, y.2)) (false, f, s)
    if r.1 then r.2.2.poisonSump r.2.1
    else if r.2.1.misses.isEmpty then r.2.2.resolve r.2.1
    else r.2.2.putFrame { r.2.1 with phase := 1 }

/-- Whether a frame needs a deep lookup (R174). -/
def State.needsDeep (s : State) (f : Frame) : Bool :=
  let v := s.view f.feed.at_
  f.path = 0 && (v.profileOf f.dom f.profile).used.any (fun x => match tget? v.tables x.2.table with
    | some t => t.deep
    | none => false)

/-- Miss slots a domain has in use in the pipeline that accepts next. -/
def State.missUsed (s : State) (d : Nat) : Nat :=
  (s.pl.frames.filter (fun f => f.phase == 1 && f.dom == d && f.pipe == s.pl.nextPipe)).length

/-- The frames a dispatch slot may take, oldest first: of each port only its first one waiting, and none that needs a miss slot its domain
has not got (R159, R174). -/
def State.ready (s : State) : List Frame :=
  let w := s.pl.frames.filter (fun f => f.phase == 0)
  w.filter (fun f => ((w.find? (fun x => x.port == f.port)).any (fun x => x.same f)) && !(s.needsDeep f && s.missUsed f.dom ≥ s.missShare f.dom))

/-! The Spout's table (R148, R149, R176). -/

/-- The bucket of a Spout key. -/
def View.spoutBucket (v : View) (key : Bytes) : Nat := crc32c v.spoutSeed (padKey key) % 16384

/-- Where a domain's entry for a key is. -/
def View.spoutFind (v : View) (d : Nat) (key : Bytes) : Option (Nat × SpoutEntry) :=
  let b := v.spoutBucket key * 4
  v.spout.find? (fun (x : Nat × SpoutEntry) => b ≤ x.1 && x.1 < b + 4 && x.2.dom == d && x.2.key == padKey key)

/-- The key end: the largest range end (R148). -/
def KeyProfile.keyEnd (k : KeyProfile) : Nat := k.ranges.foldl (fun a r => max a (r.1 + r.2)) 0

/-- The key a profile forms from a frame, or none where the frame ends before its key end (R148). -/
def KeyProfile.form (k : KeyProfile) (port : Nat) (b : Bytes) : Option Bytes :=
  if k.ranges.any (fun r => r.1 + r.2 > b.length) then none
  else
    let x := k.ranges.flatMap (fun r => slice b r.1 r.2)
    some (if k.withPort then slice x 0 31 ++ le port 1 else slice x 0 32)

/-- A Spout entry as its 64 bytes spell it (R149), and whether R149 accepts it. -/
def spoutOf (b : Bytes) : SpoutEntry :=
  { key := slice b 0 32, dom := nb b 32 % 16, action := nb b 33 % 4, mirror := (nb b 33).testBit 2, egress := ofLe (slice b 34 3), tc := nb b 37
    cls := ofLe (slice b 38 2) }
def popcount24 (m : Nat) : Nat := ((List.range 24).filter (fun p => m.testBit p)).length
def State.spoutOk (s : State) (b : Bytes) : Bool :=
  let e := spoutOf b
  let n := popcount24 e.egress
  nb b 32 / 16 == 8 && nb b 33 < 8 && e.tc < 8 && slice b 46 2 == zeros 2 && slice b 54 10 == zeros 10
    && (match e.action with
      | 0 => n == 0
      | 1 => n == 1
      | 2 => 2 ≤ n && n ≤ 8
      | _ => false)
    && (List.range 24).all (fun p => !e.egress.testBit p || (p < s.portCount && s.portOwner p == e.dom))

/-- Whether a port meets the first three conditions of R147, and whether it takes part under a view. -/
def State.spoutCapable (s : State) (p : Nat) : Bool := (s.pt p).lowLatency && !(s.ms p).on && (s.pt p).cfg.txInsert == 0
def State.spoutOn (s : State) (v : View) (p : Nat) : Bool := s.spoutCapable p && (tget v.ports p {}).spoutEn

/-! Changes that commit (R175). -/

/-- Whether a result word names only the domain's own queue and meter (R166). -/
def State.resultOk (s : State) (d r : Nat) : Bool :=
  (resDest r != 2 || s.queueDom (resQueue r) == some d) && (resMeter r == 0xFFFF || s.meterDom (resMeter r) == some d)

/-- Whether a stage names a table of the domain with a key, and a learn, of its length (R165, R178). -/
def State.stageOk (s : State) (d : Nat) (st : Stage) : Bool :=
  st.table == 0xFF ||
  match tget? s.pl.cur.tables st.table with
  | none => false
  | some t =>
    let keyOk := fun (rs : List (Nat × Nat)) => rs.length ≤ 4 && rs.all (fun r => r.1 + r.2 ≤ 128) && (rs.map (·.2)).sum == t.keyLen
    t.dom == d && keyOk st.key && (match st.learn with
      | none => true
      | some l => keyOk l.1 && (List.range 24).all (fun p => s.portOwner p != d || p ≥ s.portCount ||
          s.queueDom (resQueue l.2 + p) == some d))

/-- Whether the results a stage gives name only the domain's queue and meter (R166). -/
def State.stageResults (s : State) (d : Nat) (st : Stage) : Bool :=
  st.table == 0xFF || (s.resultOk d st.miss && (match st.learn with
    | none => true
    | some l => resMeter l.2 == 0xFFFF || s.meterDom (resMeter l.2) == some d))

/-- One operation applied to the present view; its status, or what its reply adds to the commit instant. (DEDUCED, unsafe: notes/assumptions/56.md) -/
def State.applyOp (s : State) (op : TblOp) : Except Nat (List Nat × State) :=
  match op with
  | .create t v random =>
    let used := ((s.pl.cur.tables.filter (fun (x : Nat × MTable) => x.2.deep == v.deep)).map (fun (x : Nat × MTable) => 4 * 2 ^ x.2.log2)).sum
    let cap := if v.deep then (if s.isB then 134217728 else 268435456) else 1048576
    if (tget? s.pl.cur.tables t).isSome || used + 4 * 2 ^ v.log2 > cap then .error 0x02000060
    else
      let seed := if random then s.freeBits 32 else v.seed
      let s1 := if random then s.used else s
      let s2 := s1.inView (fun w => { w with tables := tset w.tables t { v with seed := seed, swept := s.now + 1 } })
      if v.deep && !s2.poolsOk then .error 0x02000060 else .ok ([], s2)
  | .destroy t =>
    if s.pl.cur.profiles.any (fun (x : Nat × Profile) => x.2.stages.any (fun st => st.table == t)) then .error 0x02000061
    else
      let v := tget? s.pl.cur.tables t
      let wipe := match v with
        | some x => if x.deep then [(x.dom, 2 ^ 24, 2 ^ (x.log2 - 8))] else []
        | none => []
      .ok ([], { s with
        pl.cache := s.pl.cache.filter (fun c => c.2.1 != t), rm.zeroing := s.rm.zeroing ++ wipe
        mem.marks := s.mem.marks.filter (fun y => !((y.1 == 2 && y.2 / 2 ^ 32 == t) || (y.1 == 3 && y.2 / 2 ^ 26 == t))) }.inView (fun w => { w with tables := tdel w.tables t }))
  | .insert t key r fixed replace =>
    match tget? s.pl.cur.tables t with
    | none => .error 0x03000060
    | some x =>
        let e : Entry := { key := padKey (slice key 0 x.keyLen), result := r, fixed := fixed, inserted := nsOf s.now / 2 ^ 20 % 2 ^ 48 }
        match x.insert e replace (s.freeBits 32) with
        | .error st => .error st
        | .ok i => if !s.resultOk x.dom r then .error 0x02000064 else .ok ([b2n i.ovf, if i.ovf then i.place else i.place / 4, if i.ovf then 0 else i.place % 4], s.used.putInserted t i true)
  | .delete t key =>
    match tget? s.pl.cur.tables t with
    | none => .error 0x03000060
    | some x =>
      match x.find (slice key 0 x.keyLen) with
      | none => .error 0x02000065
      | some (o, i, e) =>
        .ok ([], { s with pl.cache := s.pl.cache.filter (fun c => !(c.2.1 == t && c.2.2 == e.key)) }.onTable t (fun x => x.take o i))
  | .profile d i p =>
    if !p.stages.all (s.stageOk d) then .error 0x03000061
    else if i ≥ s.profileQuota d then .error 0x02000066
    else if !s.resultOk d p.final || !p.stages.all (s.stageResults d) then .error 0x02000064
    else .ok ([], s.inView (fun w => { w with profiles := tset w.profiles (d * 4096 + i) p }))
  | .spoutIns e =>
    let v := s.pl.cur
    if (v.spoutFind e.dom e.key).isSome then .error 0x02000063
    else if (v.spout.filter (fun (x : Nat × SpoutEntry) => x.2.dom == e.dom)).length ≥ s.spoutShare e.dom then .error 0x02000062
    else match ((List.range 4).map (fun i => v.spoutBucket e.key * 4 + i)).find? (fun i => (tget? v.spout i).isNone) with
      | none => .error 0x02000062
      | some i => .ok ([], { s with mem.marks := s.mem.marks.filter (fun y => y != (7, i)) }.inView (fun w => { w with spout := tset w.spout i e }))
  | .spoutDel d key =>
    match s.pl.cur.spoutFind d key with
    | none => .error 0x02000065
    | some (i, _) => .ok ([], s.inView (fun w => { w with spout := tdel w.spout i }))

/-- Operations applied in order: the index and status of the first refused, or what the last one's reply adds. -/
def State.applyOps (s : State) (i : Nat) (last : List Nat) : List TblOp → Except (Nat × Nat) (List Nat × State)
  | [] => .ok (last, s)
  | op :: r =>
    match s.applyOp op with
    | .error st => .error (i, st)
    | .ok (x, s1) => s1.applyOps (i + 1) x r

end Sys2Proof.Machine
end

