-- ==== Sys2Proof/Machine/Receive.lean ====
section
/-! DEFINITION. The rows of the receive side (R75, R117-R124, R138-R154, R158-R160, R169, R174, R185): a receive event from the Wellhead
through the MAC, the Spout and the parser; the pipelines; admission; Spout replicas. -/
namespace Sys2Proof.Machine

/-- A port's counter of receive events and its last stamp (R75, R79). -/
def State.whRx (s : State) (p : Nat) (f : Feed) : State :=
  let x := s.pt p
  s.setPt p { x with rxEvents := inc48 x.rxEvents, lastRx := (f.stamp, f.quality), truncEvents := if f.trunc then inc48 x.truncEvents else x.truncEvents }

/-! MAC control frames and heartbeats. -/

/-- Timers loaded by a PAUSE (kind 1) or PFC (kind 2) frame that came in the port's mode; its queues are served again where one ends (R124).
(DEDUCED, unsafe: notes/assumptions/45.md) -/
def State.loadPause (s : State) (p kind en : Nat) (times : List Nat) : State :=
  let x := s.pt p
  if x.pfc.mode ≠ kind then s
  else
    let t := fun i => if nth times i = 0 then 0 else s.elapsed + s.quanta p (nth times i)
    let to_ := if kind = 1 then setNth x.pausedTo 0 (t 0)
      else (List.range 8).foldl (fun l i => if en.testBit i then setNth l i (t i) else l) x.pausedTo
    (s.setPt p { x with pausedTo := to_ }).syncSched p

/-- A MAC control frame: counted by its opcode, and acted on (R117, R124, R127). -/
def State.macControl (s : State) (p : Nat) (b : Bytes) : State :=
  let oc := ofBe (slice b 14 2)
  let w := fun i => ofBe (slice b (16 + 2 * i) 2)
  if oc = 1 then (s.mac p 6).loadPause p 1 1 [w 0]
  else if oc = 0x0101 then
    let s1 := (List.range 8).foldl (fun s i => if (w 0).testBit i then s.mac p (8 + i) else s) (s.mac p 7)
    s1.loadPause p 2 (w 0 % 256) ((List.range 8).map (fun i => w (i + 1)))
  else s.mac p 63

/-- Whether a frame is a heartbeat of this device's pair (R130). -/
def State.isHeartbeat (s : State) (p : Nat) (b : Bytes) : Bool :=
  s.ports.hb.port == some p && ofBe (slice b 12 2) == 0x88B5 && ofBe (slice b 14 2) == 0x4842 && nb b 16 == 1
    && ofBe (slice b 18 2) == s.ports.hb.pair

/-- The partner is heard in the interval of a stamp (R132). -/
def State.hear (s : State) (stamp : Nat) : State :=
  match s.ports.hb.checking with
  | some k => if stamp / ns 102400 ≥ k then { s with ports.hb.heard := (stamp / ns 102400 :: s.ports.hb.heard).eraseDups } else s
  | none => s

/-! The Spout (R147-R152). -/

/-- Bytes of an egress port's Spout reserve in use. -/
def State.spoutHeld (s : State) (e : Nat) : Nat := ((s.pl.spoutWait.filter (fun r => r.egress == e)).map (fun r => r.data.length)).sum

/-- A replica put on the wire; one too long for its port is discarded (R120). (DEDUCED, unsafe: notes/assumptions/50.md) -/
def State.startReplica (s : State) (r : SpoutRep) (aborted thru : Bool) : State :=
  if r.data.length > (s.pt r.egress).cfg.maxFrame then s.mac r.egress 57
  else s.startTx r.egress { data := r.data, kind := 2, aborted := aborted, thru := thru }

/-- Whether a replica has precedence on its port's line now (R152, R203): the line is free, its class is not paused, no heartbeat waits, no
replica hit earlier waits, and `len` bytes end before the hold of a release. (DEDUCED, unsafe: notes/assumptions/50.md) -/
def State.replicaFirst (s : State) (r : SpoutRep) (len : Nat) : Bool :=
  s.lineFree r.egress && !s.pausedOn r.egress r.tc && !(s.ports.hb.port == some r.egress && s.ports.hb.waiting.isSome)
    && !s.pl.spoutWait.any (fun x => x.egress == r.egress && x.at_ ≤ r.at_ && !s.pausedOn r.egress x.tc) && s.holdOk r.egress len

/-- A replica joins those that wait, in hit order. (DEDUCED, unsafe: notes/assumptions/50.md) -/
def hitOrder (r : SpoutRep) (l : List SpoutRep) : List SpoutRep := l.takeWhile (fun x => x.at_ ≤ r.at_) ++ r :: l.dropWhile (fun x => x.at_ ≤ r.at_)

/-- One replica of a hit (R151, R152): discarded, started while the frame was coming in - where its port's rate allows it, it has
precedence and a frame of MAX_FRAME fits before the hold - or left to wait for the line. (DEDUCED, unsafe: notes/assumptions/50.md) -/
def State.replica (s : State) (v : View) (r : SpoutRep) (bad cut : Bool) : State :=
  let e := r.egress
  if !s.spoutOn v e || !s.portUp e then s.prsCount e 3
  else if cut && modeRateMbps (s.pt e).mode ≤ modeRateMbps (s.pt r.ingress).mode && s.replicaFirst r (s.pt e).cfg.maxFrame then s.startReplica r bad true
  else if bad then s.prsCount e 3
  else if !s.replicaFirst r r.data.length && s.spoutRes e * 1024 < s.spoutHeld e + (s.pt e).cfg.maxFrame then s.prsCount e 3
  else { s with pl.spoutWait := hitOrder r s.pl.spoutWait }

/-- A hit of the Spout (R150): entry `i` acts on the frame. `wire` is the frame a replica carries; `cut` names the egress ports on which it has
begun; `hit` is the elapsed instant at which the key was complete. (DEDUCED, unsafe: notes/assumptions/50.md) -/
def State.spoutHit (s : State) (v : View) (p i : Nat) (e : SpoutEntry) (f : Feed) (wire : Bytes) (bad fcsBad : Bool) (cut hit : Nat) : State :=
  let s1 := (s.prsCount p 0).inView (fun w => match tget? w.spout i with
    | some x => if x.key == e.key && x.dom == e.dom then { w with spout := tset w.spout i { x with hits := inc48 x.hits, octets := add48 x.octets f.len } } else w
    | none => w)
  let s2 := if e.action = 0 then s1.prsCount p 2
    else (List.range 24).foldl (fun s q =>
      if !e.egress.testBit q then s
      else if q = p then s.prsCount p 3
      else s.replica v { ingress := p, egress := q, data := wire, tc := e.tc, fcsBad := bad, at_ := hit } bad (cut.testBit q)) s1
  if e.mirror then (s2.ledgerMark f 1 fcsBad e.cls).1 else s2

/-- SPOUT_REPLICA_START (R151, R152): the first replica of an egress port in hit order whose class is not paused, at a frame boundary where
nothing goes before it; all are discarded on a port that can no longer take part or is not `UP`. SPOUT_EN counts as it stood at the SFD of
the frame (R157). (DEDUCED, unsafe: notes/assumptions/50.md) -/
def execSpoutReplicaStart (dt port : Nat) (s : State) : Out := s.run dt fun s =>
  let mine := s.pl.spoutWait.filter (fun r => r.egress == port)
  if mine.isEmpty then s
  else if !s.portUp port || !s.spoutCapable port then
    mine.foldl (fun s r => s.prsCount r.egress 3) { s with pl.spoutWait := s.pl.spoutWait.filter (fun r => r.egress != port) }
  else match mine.find? (fun r => !s.pausedOn port r.tc) with
    | none => s
    | some r =>
      if !s.lineFree port || (s.ports.hb.port = some port && s.ports.hb.waiting.isSome) || !s.holdOk port r.data.length then s
      else { s with pl.spoutWait := s.pl.spoutWait.erase r }.startReplica r false false

/-! The receive event (R16, R75, R117-R121). -/

/-- What a log of replaced values, newest first, says of elapsed instant `t`; `now` is the value in force. -/
def asOf {α : Type} (now : α) (t : Nat) : List (Nat × α) → α
  | [] => now
  | (e, v) :: r => if t < e then asOf v t r else now

/-- The settings an event of a port is handled under: those in force when it began (R122). (DESIGN CHOICE, unsafe: notes/assumptions/41.md) -/
def PortSt.cfgFor (x : PortSt) (t : Nat) : PortCfg := asOf x.cfg t x.cfgLog

/-- The frame after the strip of R119, and the tag removed. -/
def PortCfg.strip (c : PortCfg) (b : Bytes) : Bytes × Option (Nat × Nat) :=
  let t := ofBe (slice b 12 2)
  if c.rxStrip && t = c.stripTpid then (b.take 12 ++ b.drop 16, some (t, ofBe (slice b 14 2))) else (b, none)

/-- The priority of a received frame (R181). -/
def State.rxPrio (s : State) (p : Nat) (b : Bytes) : Nat := if tagged b then nb b 14 / 32 else tget s.tm.defPrio p 0

/-- Free bytes of a port's ingress reservation at elapsed instant `t`, when the first byte of a frame arrives (R121, R184).
(DESIGN CHOICE, unsafe: notes/assumptions/41.md) -/
def State.ingFree (s : State) (p t : Nat) : Nat := s.ingRes p * 1024 - asOf (s.pt p).held.sum t (s.pt p).heldLog

/-- A frame the MAC passes on, parsed and classified (R138, R143-R146): it waits for dispatch. `miss` tells that the Spout looked it up. -/
def State.parseFrame (s : State) (v : View) (p : Nat) (f : Frame) (body : Bytes) (miss : Bool) : State :=
  let d := s.portOwner p
  let cfg := tget v.ports p {}
  let r0 := v.graph.parse body
  let r := if miss then r0.flag 5 else r0
  let s1 := (s.prsCount p 4)
  let add := fun (s : State) (f : Frame) => ({ s with pl.frames := s.pl.frames ++ [f] }).holdBytes p f.prio (fun n => n + f.cells * 256)
  if r.flags.testBit 2 then
    let s2 := { s1.prsCount p 5 with pl.malformed := bump s1.pl.malformed r.reason }
    add s2 { f with dom := d, cls := 0xFFFE, pv := r.vector p f.tag 0xFFFE, path := if cfg.malSump then 2 else 1, queue := cfg.sump }
  else if r.flags.testBit 3 then
    let s2 := { s1.prsCount p 6 with pl.slow := bump s1.pl.slow r.reason }
    add s2 { f with dom := d, cls := 0xFFFD, pv := r.vector p f.tag 0xFFFD, path := 2, queue := cfg.sump }
  else
    match v.classify d p (r.vector p f.tag 0) with
    | some x => add s1 { f with dom := d, cls := x.cls, profile := x.profile, notarise := x.notarise, pv := r.vector p f.tag x.cls }
    | none => add (s1.prsCount p 7) { f with dom := d, pv := r.vector p f.tag 0 }

/-- A frame the Spout has not taken goes on to the parser. (DEDUCED, unsafe: notes/assumptions/51.md) -/
def State.passOn (s : State) (p : Nat) (c : PortCfg) (fd : Feed) (b0 : Bytes) (st : Bytes × Option (Nat × Nat)) (b tail : Bytes) (v : View)
    (good on : Bool) : State :=
  let f : Frame := { data := if c.fcsStrip then b else b ++ tail, port := p, feed := fd, prio := s.rxPrio p b0
                     dei := tagged b0 && (nb b0 14).testBit 4, tag := st.2, fcsBad := !good }
  s.parseFrame v p f b on

/-- An event after its stamp and its feed: sorted (R117), verified, stripped, looked up in the Spout and parsed.
(DESIGN CHOICE, unsafe: notes/assumptions/41.md; DEDUCED, unsafe: notes/assumptions/50.md) -/
def State.sortFrame (s : State) (p : Nat) (fd : Feed) (data : Bytes) (trunc : Bool) (cut : Nat) : State :=
  let c := (s.pt p).cfgFor fd.at_
  let n := data.length
  let body := data.take (n - 4)
  let good := n ≥ 4 && data.drop (n - 4) == le (fcs body) 4
  let s := s.macBy p 30 n
  if (s.pt p).state = .held then s
  else if s.ingFree p fd.at_ < c.maxFrame then s.mac p 29
  else
    let len := 64 ≤ n && n ≤ c.maxFrame
    let passed := !trunc && len && (good || c.fcsRx)
    if passed && good && ofBe (slice data 12 2) = 0x8808 then s.macControl p data
    else if passed && good && s.isHeartbeat p data then (s.mac p 31).hear fd.stamp
    else
      let s1 := if trunc then s.mac p 28
        else if n < 64 then s.mac p (if good then 23 else 24)
        else if n > c.maxFrame then s.mac p (if good then 25 else 26)
        else if !good then s.mac p 27
        else s.macGood p 0 16 data
      let secured := (s1.ms p).on
      match (if secured && passed then s1.msVerify p body else (some body, s1)) with
      | (none, s2) => s2
      | (some b0, s2) =>
        let st := c.strip b0
        let b := st.1
        let tail := if st.2.isSome || secured then le (fcs (b ++ zeros (60 - b.length))) 4 else data.drop (n - 4)
        let wire := if st.2.isSome || secured then padFcs b else data
        let v := s2.view fd.at_
        let on := s2.spoutOn v p
        let key := (tget v.keyProfiles (tget v.ports p {}).keyProfile {}).form p (if st.2.isSome then b ++ tail else data)
        let found := if on then key.bind (fun k => v.spoutFind (s2.portOwner p) k) else none
        let poisoned := match found with
          | some x => s2.mem.marks.contains (7, x.1)
          | none => false
        match found with
        | some (i, e) =>
          if poisoned then
            let s3 := ({ s2 with mem.marks := s2.mem.marks.filter (fun m => m != (7, i)) }.inView (fun w => { w with spout := tdel w.spout i })).memDom e.dom 1
            if passed then s3.passOn p c fd b0 st b tail v good true else s3
          else s2.spoutHit v p i e fd wire (trunc || !good || !len) (!good) cut
            (fd.at_ + s2.byteTime p (tget v.keyProfiles (tget v.ports p {}).keyProfile {}).keyEnd)
        | none =>
          let s3 := if on then s2.prsCount p 1 else s2
          if passed then s3.passOn p c fd b0 st b tail v good on else s3

/-- A receive event that has ended (R75): stamped at its SFD, handed to the hashing lane, and sorted. `age` is the time since its SFD was
detected. No event exists while the port's calibration is not valid (R80). (DESIGN CHOICE, unsafe: notes/assumptions/41.md) -/
def State.receive (s : State) (p age : Nat) (data : Bytes) (trunc : Bool) (cut : Nat) : State :=
  if (s.pt p).calState ≠ 2 then s
  else
    let t := s.sfdAt (s.elapsed - age) (s.calRx p) 0
    let r := s.ledgerFeed p 0 (trunc || data.length ≥ 65535) t (min data.length 65535) data
    (r.1.whRx p r.2).sortFrame p r.2 data trunc cut

/-- What the PCS and the FEC of a port have counted (R127): codewords corrected and not, symbols corrected, invalid blocks.
(DESIGN CHOICE, unsafe: notes/assumptions/47.md) -/
def State.pcsSeen (s : State) (p : Nat) (pcs : List Nat) : State :=
  (List.range 4).foldl (fun s i => if nth pcs i = 0 then s else s.macBy p (59 + i) (nth pcs i)) s

/-- RECEIVE_EVENT (R75, R127).
(DESIGN CHOICE, unsafe: notes/assumptions/4.md; DEDUCED, safe: notes/assumptions/33.md; DESIGN CHOICE, unsafe: notes/assumptions/41.md; DESIGN CHOICE, unsafe: notes/assumptions/47.md) -/
def execReceiveEvent (dt port age : Nat) (data : Bytes) (trunc : Bool) (cut : Nat) (pcs : List Nat) (s : State) : Out := s.run dt fun s =>
  (s.pcsSeen port pcs).receive port age data trunc cut

/-- PAUSE_FRAME_RECEIVED (R124): a receive event that is a PAUSE or PFC frame. -/
def execPauseFrameReceived (dt port age : Nat) (data : Bytes) (s : State) : Out := s.run dt fun s =>
  if ofBe (slice data 12 2) = 0x8808 && [1, 0x0101].contains (ofBe (slice data 14 2)) then s.receive port age data false 0 else s

/-! The pipelines (R158, R169, R174, R189). -/

/-- Dispatch slots begun by elapsed instant `t`: 4.5 in each ns (R189). (DESIGN CHOICE, unsafe: notes/assumptions/176.md) -/
def slotsBegun (t : Nat) : Nat := t * 9 / (2 * grid 0)

/-- Whether the wheel shows `slot` now and no frame has used it (R189): it turns by one place with each slot. Where it stands at first the spec
leaves open. (DESIGN CHOICE, unsafe: notes/assumptions/176.md) -/
def State.slotTurns (s : State) (slot : Nat) : Bool :=
  match s.tm.slotAt with
  | none => slot < 1024
  | some (p, n) => n < slotsBegun s.elapsed && slot == (p + (slotsBegun s.elapsed - n)) % 1024

/-- The frame that takes a slot of the wheel (R189): the oldest of the domain it is reserved to, or else of any. -/
def State.slotTaker (s : State) (slot : Nat) : Option Frame :=
  let l := s.ready
  (l.find? (fun f => f.dom == s.tm.wheel.getD slot 16)).orElse (fun _ => l.head?)

/-- PIPELINE_DISPATCH (R189): a slot of the wheel. (DESIGN CHOICE, unsafe: notes/assumptions/176.md) -/
def execPipelineDispatch (dt slot : Nat) (s : State) : Out := s.run dt fun s =>
  match s.slotTaker slot with
  | none => s
  | some f => if s.slotTurns slot then { s with tm.slotAt := some (slot, slotsBegun s.elapsed) }.dispatch f else s

/-- DEEP_CACHE_FILL (R174): the bucket of a missed stage has come from HBM for the frame at place `pos` among the port's waiting ones; `poison`
tells that it is uncorrectable. -/
def execDeepCacheFill (dt port pos stage : Nat) (poison : Bool) (s : State) : Out := s.run dt fun s =>
  match (s.pl.frames.filter (fun f => f.port == port && f.phase == 1 && f.misses.contains stage))[pos]? with
  | none => s
  | some f =>
    let st := (((s.view f.feed.at_).profileOf f.dom f.profile).stages.getD stage {})
    let key := padKey (rangesKey f.pv st.key)
    let s := s.tableReady st.table f.feed
    let v := s.view f.feed.at_
    match tget? v.tables st.table with
    | none => s
    | some t =>
      let mark := (3, st.table * 2 ^ 26 + t.bucket key)
      let known := s.mem.marks.contains mark
      if poison || known then
        let b := t.bucket key * 4
        let phys := s.freeBits 38
        let s1 := (s.used.onTable st.table (fun x => (List.range 4).foldl (fun x i => x.take false (b + i)) x)).tblCount st.table 8 1
        let page := some (2 ^ 40 + st.table * 2 ^ 26 + t.bucket key / 512, phys / pageSize)
        let s2 := (s1.poisonSump f).memDom t.dom 1
        if known then { s2 with mem.marks := s2.mem.marks.filter (fun y => y != mark) }.stackCount1 (phys % s.stackCount) 3
        else s2.ueFound phys 0 t.dom 0 (phys % s.stackCount) (phys / 256 % 32) page []
      else
        let f1 := { f with misses := f.misses.erase stage }
        let r := match t.find key with
          | some (_, _, e) => ({ f1 with found := tset f.found stage e.result }, (s.cacheTouch t.dom st.table key).strike st.table key f.feed.stamp)
          | none => ({ f1 with found := tset f.found stage st.miss, missed := f.missed ++ [stage] }, s)
        if f1.misses.isEmpty then r.2.resolve r.1 else r.2.putFrame r.1

/-- LEARN_APPLY (R169): the learn whose frame was stamped first, of those that no earlier frame holds back.
(DEDUCED, unsafe: notes/assumptions/54.md) -/
def execLearnApply (dt : Nat) (s : State) : Out := s.run dt fun s =>
  s.learnOne (fun l => !s.learnHeld l)

/-- Frames of lower-numbered ports that are at the same meter now are metered first (R183): each port's oldest, once it is resolved. -/
def State.admitLower (s : State) (port meter : Nat) : Nat → State
  | 0 => s
  | n + 1 =>
    match ((List.range port).filterMap (fun p => s.pl.frames.find? (fun f => f.port == p))).find? (fun f => f.phase == 2 && f.meter == meter) with
    | none => s
    | some f => ((s.outFrame f).takeIn f).2.admitLower port meter n

/-- FRAME_ADMISSION (R159, R183, R185): the oldest frame of a port, once it is resolved. -/
def execFrameAdmission (dt port : Nat) (s : State) : Out := s.run dt fun s =>
  match s.pl.frames.find? (fun f => f.port == port) with
  | none => s
  | some f =>
    if f.phase = 2 then
      let s1 := if f.meter < 32768 then s.admitLower port f.meter s.pl.frames.length else s
      ((s1.outFrame f).takeIn f).2
    else s

end Sys2Proof.Machine
end

