-- ==== Sys2Proof/Machine/Tables.lean ====
section
/-! DEFINITION. The rows of group 0x05 (R141-R178): parse graphs, classifier rules, the Spout's settings, match tables, profiles, learning
limits, commits, refills and sweeps. -/
namespace Sys2Proof.Machine

/-! Parse graphs (R141). -/

/-- PARSE_GRAPH_LOAD (R140, R141): `buf` is what the buffer holds. -/
def execParseGraphLoad (dt : Nat) (path : Path) (addr len : Nat) (buf : Bytes) (s : State) : Out := s.run dt fun s =>
  s.tosenRun path 0x0501 2 false .any fun s _ =>
    if badAddr path addr then s.deny 0x03000F02
    else match graphOf (s.cmdRead path addr (min len 6160) buf) with
      | none => s.deny 0x03000050
      | some g =>
        if len > 6160 then s.deny 0x03000050
        else if !s.pl.swap.isEmpty then s.deny 0x01000050
        else { s with pl.inactive := g }.ok []

/-- PARSE_GRAPH_SWAP (R141): answered when the swap takes effect. (DEDUCED, unsafe: notes/assumptions/49.md) -/
def execParseGraphSwap (dt : Nat) (path : Path) (s : State) : Out := s.run dt fun s =>
  s.tosenRun path 0x0502 0 false .any fun s _ =>
    if !s.pl.inactive.loaded then s.deny 0x02000050
    else (.later, { s with pl.swap := s.pl.swap ++ [path] })

/-- PARSE_GRAPH_SWAP_EFFECT (R141): the inactive bank becomes active for frames stamped from now on. (DEDUCED, unsafe: notes/assumptions/49.md) -/
def execParseGraphSwapEffect (dt : Nat) (s : State) : Out := s.run dt fun s =>
  if s.pl.swap.isEmpty then s
  else
    let ps := s.pl.swap
    let s1 := { s.setView (fun v => { v with graph := s.pl.inactive }) with
      pl.swap := [], pl.inactive := s.pl.cur.graph, pl.bank := 1 - s.pl.bank }
    ps.foldl (fun s p => s.tosenLater p 0x0502 0 []) s1

/-! Classifier rules (R146, R156). -/

/-- CLASS_RULE_SET (R146): `buf` holds the value and the mask. -/
def execClassRuleSet (dt : Nat) (path : Path) (dom idx ports addr cls profile notarise : Nat) (buf : Bytes) (s : State) : Out := s.run dt fun s =>
  let wide := dom ≥ 16 || ports ≥ 2 ^ 24 || cls ≥ 65536 || profile ≥ 1024 || notarise ≥ 2
  s.tosenRun path 0x0503 7 wide (.owner dom) fun s _ =>
    if badAddr path addr then s.deny 0x03000F02
    else if cls ≥ 0xFF00 then s.deny 0x03000051
    else if idx ≥ s.ruleQuota dom then s.deny 0x02000051
    else if (List.range 24).any (fun p => ports.testBit p && s.portOwner p != dom) then s.deny 0x02000052
    else
      let b := s.cmdRead path addr 256 buf
      let r : Rule := { ports := ports, value := slice b 0 128, mask := slice b 128 128, cls := cls, profile := profile, notarise := notarise == 1 }
      (s.setView (fun v => { v with rules := tset v.rules (dom * 4096 + idx) r })).ok []

/-- CLASS_RULE_CLEAR (R156). -/
def execClassRuleClear (dt : Nat) (path : Path) (dom idx : Nat) (s : State) : Out := s.run dt fun s =>
  s.tosenRun path 0x0504 2 (dom ≥ 16) (.owner dom) fun s _ =>
    if idx ≥ 4096 then s.ok [] else (s.setView (fun v => { v with rules := tdel v.rules (dom * 4096 + idx) })).ok []

/-- CLASS_RULE_QUOTA (R146, R156). -/
def execClassRuleQuota (dt : Nat) (path : Path) (dom quota : Nat) (s : State) : Out := s.run dt fun s =>
  s.tosenRun path 0x0508 2 (dom ≥ 16) .any fun s _ =>
    let others := (((List.range 16).filter (fun d => d != dom)).map s.ruleQuota).sum
    if others + quota > 4096 || s.pl.cur.rules.any (fun (x : Nat × Rule) => x.1 / 4096 == dom && x.1 % 4096 ≥ quota) then s.deny 0x02000054
    else { s with pl.quotas := tset s.pl.quotas dom { s.plQuota dom with rules := some quota } }.ok []

/-! Ports and the Spout's settings (R147, R148, R155, R156). -/

/-- The first checks of the commands that name a port (R156). -/
def State.prsCheck (s : State) (p : Nat) : Nat := if p > 23 then 0x03000053 else if p ≥ s.portCount then 0x02000055 else 0

/-- PRS_PORT_CONFIG (R156). -/
def execPrsPortConfig (dt : Nat) (path : Path) (port profile malSump sump : Nat) (s : State) : Out := s.run dt fun s =>
  s.tosenRun path 0x0505 4 (profile ≥ 4 || malSump ≥ 2 || sump ≥ 32768) (dataPerm port) fun s _ =>
    if s.prsCheck port ≠ 0 then s.deny (s.prsCheck port)
    else if s.queueDom sump ≠ some (s.portOwner port) then s.deny 0x02000053
    else (s.setView (fun v =>
      let c : PrsPort := tget v.ports port {}
      { v with ports := tset v.ports port { c with keyProfile := profile, malSump := malSump == 1, sump := sump } })).ok []

/-- SPOUT_PROFILE_SET (R148, R156). -/
def execSpoutProfileSet (dt : Nat) (path : Path) (profile withPort : Nat) (ranges : List (Nat × Nat)) (s : State) : Out := s.run dt fun s =>
  s.tosenRun path 0x0506 (3 + 2 * ranges.length) (withPort ≥ 2) .any fun s _ =>
    let total := (ranges.map (·.2)).sum
    if profile ≥ 4 || ranges.length > 8 || ranges.any (fun r => r.2 < 1 || r.2 > 16 || r.1 + r.2 > 64) || total > (if withPort = 1 then 31 else 32) then
      s.deny 0x03000052
    else (s.setView (fun v => { v with keyProfiles := tset v.keyProfiles profile { withPort := withPort == 1, ranges := ranges } })).ok []

/-- PRS_PORT_CFG and PRS_STATUS (R155). -/
def State.prsPortCfg (s : State) (p : Nat) : Nat :=
  let c := tget s.pl.cur.ports p {}
  b2n c.spoutEn + 2 * c.keyProfile + 8 * b2n c.malSump + 16 * b2n (s.spoutCapable p) + 65536 * c.sump
def State.prsStatus (s : State) : Nat :=
  s.pl.bank + 2 * b2n (!s.pl.swap.isEmpty) + 256 * s.pl.cur.graph.nodes.length + 65536 * s.pl.cur.graph.trans.length

/-- PRS_STATUS (R155, R156). -/
def execPrsStatus (dt : Nat) (path : Path) (port : Nat) (s : State) : Out := s.run dt fun s =>
  s.tosenRun path 0x0507 1 false (dataPerm port) fun s d =>
    if s.prsCheck port ≠ 0 then s.deny (s.prsCheck port)
    else
      let own := s.prsPortCfg port :: tget s.pl.counters port [0, 0, 0, 0, 0, 0, 0, 0]
      s.ok (if d = 0 then own ++ [s.prsStatus] ++ s.pl.malformed.drop 1 ++ s.pl.slow.drop 1 else own)

/-- A write of SPOUT_EN of a port (R147, R155): PF0's register. -/
def State.spoutEnWrite (s : State) (port : Nat) (on : Bool) : State :=
  if !s.barOpen 0 || port ≥ s.portCount then s
  else s.setView (fun v =>
    let c : PrsPort := tget v.ports port {}
    { v with ports := tset v.ports port { c with spoutEn := on } })

/-- SPOUT_EN_WRITE (R147, R155). -/
def execSpoutEnWrite (dt port : Nat) (on : Bool) (s : State) : Out := s.run dt fun s => s.spoutEnWrite port on

/-! Tables (R161-R168, R178). -/

/-- Whose permission a table's command needs. -/
def State.tablePerm (s : State) (t : Nat) : Perm := match tget? s.pl.cur.tables t with
  | some x => .owner x.dom
  | none => .any

/-- A change accepted: checked against the present tables, then waiting for its commit instant (R175).
(DESIGN CHOICE, unsafe: notes/assumptions/52.md) -/
def State.tblLater (s : State) (path : Path) (opcode : Nat) (ops : List TblOp) : Answer × State :=
  match s.applyOps 0 [] ops with
  | .error (i, st) => if opcode = 0x0525 then (.reply st [i], s) else s.deny st
  | .ok _ => (.later, { s with pl.pend := s.pl.pend ++ [{ path := path, opcode := opcode, ops := ops, at_ := s.elapsed }] })

/-- The table and key that an operation inserts or deletes. -/
def State.opKey (s : State) (op : TblOp) : Option (Nat × Bytes) :=
  let key := fun (t : Nat) (k : Bytes) => (tget? s.pl.cur.tables t).map (fun x => (t, padKey (slice k 0 x.keyLen)))
  match op with
  | .insert t k _ _ _ => key t k
  | .delete t k => key t k
  | _ => none

/-- The asked learns that a change of their keys follows (R179), and those of the same tables before them in stamp order. -/
def State.settles (s : State) (ops : List TblOp) (l : Learn) : Bool :=
  let keys := ops.filterMap s.opKey
  s.pl.learns.any (fun x => keys.contains (x.table, x.key) && x.table == l.table && l.at_ ≤ x.at_)

/-- A change waits for the learn of a frame stamped before it, of a key it writes (R179). (DEDUCED, unsafe: notes/assumptions/54.md) -/
def State.commitWaits (s : State) (ops : List TblOp) : Bool :=
  let keys := ops.filterMap s.opKey
  s.pl.frames.any (fun f => (s.mayLearn f).any keys.contains) || s.pl.learns.any (fun l => s.settles ops l && s.learnHeld l)

/-- Those learns applied, before the change. -/
def State.settleFor (s : State) (ops : List TblOp) : State := s.learnAll (s.settles ops)

/-- Entries a command deletes at the very instant of a sweep are the command's, not the sweep's (R179). (DEDUCED, unsafe: notes/assumptions/55.md) -/
def State.spare (s : State) (ops : List TblOp) : State :=
  ops.foldl (fun s op => match op with
    | .delete t k => s.onTable t (fun x => if x.sweepDue s.now = some s.now then x.hitBy (slice k 0 x.keyLen) else x)
    | _ => s) s

/-- TABLE_COMMIT (R175): the oldest change commits at this instant; a sweep of the same instant has acted first (R24, R179).
(DESIGN CHOICE, unsafe: notes/assumptions/52.md) -/
def execTableCommit (dt : Nat) (s : State) : Out := s.run dt fun s =>
  match s.pl.pend with
  | [] => s
  | p :: rest =>
    if s.commitWaits p.ops then s else
    let s := { s with pl.pend := rest }.settleFor p.ops
    let s0 := (s.spare p.ops).sweepAll
    match s0.applyOps 0 [] p.ops with
    | .error (i, st) => s.sweepAll.tosenLater p.path p.opcode st (if p.opcode = 0x0525 then [i] else [])
    | .ok (more, s1) => { s1 with pl.past := (s0.elapsed, s0.pl.cur) :: s0.pl.past }.tosenLater p.path p.opcode 0
        (s1.ledgerNs :: if p.opcode = 0x0525 then [] else more)

/-- TABLE_CREATE (R161, R178); no seed: drawn. -/
def execTableCreate (dt : Nat) (path : Path) (table dom tier log2 keyLen : Nat) (seed : Option Nat) (evict mult notify : Nat) (s : State) : Out := s.run dt fun s =>
  s.tosenRun path 0x0520 9 (seed.any (fun x => x ≥ 2 ^ 32)) .any fun s _ =>
    let lo := if tier = 0 then 8 else 12
    let hi := if tier = 0 then 18 else 26
    if table > 15 || !s.domOn dom || tier > 1 || log2 < lo || log2 > hi || keyLen < 1 || keyLen > 32 || evict > 2 || mult > 65535 || notify > 1 then
      s.deny 0x03000060
    else s.tblLater path 0x0520 [.create table
      { dom := dom, deep := tier == 1, log2 := log2, keyLen := keyLen, seed := seed.getD 0, evict := evict, mult := mult, notify := notify == 1 } seed.isNone]

/-- TABLE_DESTROY (R178, R397). -/
def execTableDestroy (dt : Nat) (path : Path) (table : Nat) (s : State) : Out := s.run dt fun s =>
  s.tosenRun path 0x0521 1 false (s.tablePerm table) fun s _ =>
    if table > 15 then s.deny 0x03000060 else s.tblLater path 0x0521 [.destroy table]

/-- Whether a result word has bits no field gives a meaning (R166). (DEDUCED, unsafe: notes/assumptions/56.md) -/
def resultWide (r : Nat) : Bool := r ≥ 2 ^ 35 || resDest r > 2

/-- The key bytes of a command. -/
def State.cmdKey (s : State) (path : Path) (addr : Nat) (key : Bytes) : Bytes := s.cmdRead path addr 32 key

/-- TABLE_INSERT (R166, R168, R178). -/
def execTableInsert (dt : Nat) (path : Path) (table addr result fixed replace : Nat) (key : Bytes) (s : State) : Out := s.run dt fun s =>
  s.tosenRun path 0x0522 4 (resultWide result || fixed ≥ 2 || replace ≥ 2) (s.tablePerm table) fun s _ =>
    if badAddr path addr then s.deny 0x03000F02
    else s.tblLater path 0x0522 [.insert table (s.cmdKey path addr key) result (fixed == 1) (replace == 1)]

/-- TABLE_DELETE (R178). -/
def execTableDelete (dt : Nat) (path : Path) (table addr : Nat) (key : Bytes) (s : State) : Out := s.run dt fun s =>
  s.tosenRun path 0x0523 2 false (s.tablePerm table) fun s _ =>
    if badAddr path addr then s.deny 0x03000F02
    else s.tblLater path 0x0523 [.delete table (s.cmdKey path addr key)]

/-- An entry as its 48 bytes (R162). -/
def Entry.bytes (e : Entry) : Bytes :=
  padKey e.key ++ le e.result 8 ++ le (1 + 2 * b2n (e.hit) + 4 * b2n e.stale + 8 * b2n e.fixed + 16 * b2n e.learned) 1
    ++ le e.srcPort 1 ++ le e.inserted 6

/-- TABLE_READ (R162, R178). -/
def execTableRead (dt : Nat) (path : Path) (table addr : Nat) (key : Bytes) (s : State) : Out := s.run dt fun s =>
  s.tosenRun path 0x0524 2 false (s.tablePerm table) fun s _ =>
    if badAddr path addr then s.deny 0x03000F02
    else
      let s := s.sweepTable table
      match tget? s.pl.cur.tables table with
      | none => s.deny 0x03000060
      | some t =>
        match t.find (slice (s.cmdKey path addr key) 0 t.keyLen) with
        | none => s.deny 0x02000065
        | some (_, _, e) => s.ok ((List.range 6).map (fun i => ofLe (slice e.bytes (8 * i) 8)))

/-- A batch operation as a change, and the domain it needs the permission of. -/
def BatchOp.op : BatchOp → TblOp
  | .insert t k r f p => .insert t (padKey k) r f p
  | .delete t k => .delete t (padKey k)
  | .spoutInsert e => .spoutIns (spoutOf (slice e 0 64))
  | .spoutDelete d k => .spoutDel d (padKey k)
def State.batchPerm (s : State) : BatchOp → Perm
  | .insert t _ _ _ _ => s.tablePerm t
  | .delete t _ => s.tablePerm t
  | .spoutInsert e => .owner (spoutOf (slice e 0 64)).dom
  | .spoutDelete d _ => .owner d
def State.batchBad (s : State) (d : Nat) (o : BatchOp) : Nat :=
  if s.permFail 0x0525 d (s.batchPerm o) ≠ 0 then s.permFail 0x0525 d (s.batchPerm o)
  else match o with
    | .insert _ _ r _ _ => if resultWide r then 0x0300FF04 else 0
    | .spoutInsert e => if s.spoutOk (slice e 0 64) then 0 else 0x03000062
    | _ => 0

/-- The first batch operation refused before any is tried, with its status. -/
def State.batchFirst (s : State) (d i : Nat) : List BatchOp → Option (Nat × Nat)
  | [] => none
  | o :: r => if s.batchBad d o ≠ 0 then some (i, s.batchBad d o) else s.batchFirst d (i + 1) r

/-- TABLE_BATCH (R175): all operations at one instant, or none; `ops` are what the buffer spells. -/
def execTableBatch (dt : Nat) (path : Path) (addr count : Nat) (ops : List BatchOp) (s : State) : Out := s.run dt fun s =>
  s.tosenRun path 0x0525 2 (count < 1 || count > 256) .any fun s d =>
    if badAddr path addr then s.deny 0x03000F02
    else
      let l := ops.take count
      match s.applyOps 0 [] (l.map BatchOp.op), s.batchFirst d 0 l with
      | .error (i, st), some (j, u) => if i < j then (.reply st [i], s) else (.reply u [j], s)
      | .error (i, st), none => (.reply st [i], s)
      | .ok _, some (j, u) => (.reply u [j], s)
      | .ok _, none => s.tblLater path 0x0525 (l.map BatchOp.op)

/-! Profiles (R165, R169, R178). -/

/-- PROFILE_SET (R165, R178): four stages. (DEDUCED, unsafe: notes/assumptions/56.md) -/
def execProfileSet (dt : Nat) (path : Path) (idx : Nat) (stages : List Stage) (final : Nat) (s : State) : Out := s.run dt fun s =>
  let wide := resultWide final || stages.any (fun st => st.table != 0xFF && (resultWide st.miss || st.learn.any (fun l => resultWide l.2)))
  s.tosenRun path 0x0526 82 wide .any fun s d =>
    s.tblLater path 0x0526 [.profile d idx { stages := stages, final := final }]

/-! Learning limits (R170). -/

/-- LEARN_CONFIG (R170, R178): the bucket starts full. (DEDUCED, unsafe: notes/assumptions/54.md; DESIGN CHOICE, unsafe: notes/assumptions/174.md) -/
def execLearnConfig (dt : Nat) (path : Path) (port max rate burst flood : Nat) (s : State) : Out := s.run dt fun s =>
  s.tosenRun path 0x0527 5 (max > 1048576 || flood ≥ 2) (dataPerm port) fun s _ =>
    if s.prsCheck port ≠ 0 then s.deny (s.prsCheck port) else
    let x := s.learnPort port
    let tokens := if x.burst = 0 then burst else min x.tokens burst
    (s.setLearnPort port { x with max := max, rate := rate, burst := burst, flood := flood == 1, tokens := tokens }).ok []

/-- LEARN_REFILL (R170): at each grid point of 2^20 ns, once. -/
def execLearnRefill (dt : Nat) (s : State) : Out := s.run dt fun s =>
  if s.now % grid 20 ≠ 0 || s.pl.refilled = s.now + 1 then s
  else { s with pl.learnPorts := tmap s.pl.learnPorts (fun x => { x with tokens := min x.burst (x.tokens + x.rate) }), pl.refilled := s.now + 1 }

/-- AGEING_SWEEP (R171-R173). -/
def execAgeingSweep (dt table : Nat) (s : State) : Out := s.run dt fun s => s.sweepTable table

/-! The Spout's entries (R149, R176, R178). -/

/-- SPOUT_INSERT (R149, R178): `entry` is the 64 bytes at the address. -/
def execSpoutInsert (dt : Nat) (path : Path) (addr : Nat) (entry : Bytes) (s : State) : Out := s.run dt fun s =>
  let b := s.cmdRead path addr 64 entry
  s.tosenRun path 0x0528 1 false (.owner (spoutOf b).dom) fun s _ =>
    if badAddr path addr then s.deny 0x03000F02
    else if !s.spoutOk b then s.deny 0x03000062
    else s.tblLater path 0x0528 [.spoutIns (spoutOf b)]

/-- SPOUT_DELETE (R178). -/
def execSpoutDelete (dt : Nat) (path : Path) (dom addr : Nat) (key : Bytes) (s : State) : Out := s.run dt fun s =>
  s.tosenRun path 0x0529 2 (dom ≥ 16) (.owner dom) fun s _ =>
    if badAddr path addr then s.deny 0x03000F02
    else s.tblLater path 0x0529 [.spoutDel dom (s.cmdKey path addr key)]

/-- SPOUT_SEED_SET (R176, R178); no seed: drawn. -/
def execSpoutSeedSet (dt : Nat) (path : Path) (seed : Option Nat) (s : State) : Out := s.run dt fun s =>
  s.tosenRun path 0x052C 1 (seed.any (fun x => x ≥ 2 ^ 32)) .any fun s _ =>
    if !s.pl.cur.spout.isEmpty || s.pl.seedSet then s.deny 0x02000068
    else
      let v := seed.getD (s.freeBits 32)
      let s1 := if seed.isNone then s.used else s
      ({ s1 with pl.seedSet := true }.inView (fun w => { w with spoutSeed := v })).ok [v]

/-! Status and quotas (R174, R177, R178). -/

/-- TBL_STATUS, and the registers of a table's and a port's window (R177). -/
def State.tblStatus (s : State) : Nat := s.pl.cur.tables.length + 32 * b2n (s.pl.pend.any (fun p => p.opcode == 0x0525))
def MTable.cfgReg (t : MTable) : Nat :=
  1 + 2 * b2n t.deep + 4 * t.log2 + 128 * t.keyLen + 8192 * t.evict + 32768 * b2n t.notify + 65536 * t.dom
def State.tableWindow (s : State) (t : Nat) : List Nat :=
  match tget? s.pl.cur.tables t with
  | none => List.replicate 13 0
  | some x => [x.cfgReg, x.seed, x.mult, x.ovf.length] ++ x.counters
def State.learnState (s : State) (p : Nat) : Nat := s.learnedNow p + 2 ^ 21 * b2n (s.learnPort p).flood

/-- TABLE_STATUS (R177, R178), of a table or of a port. (DEDUCED, unsafe: notes/assumptions/56.md; DESIGN CHOICE, unsafe: notes/assumptions/174.md) -/
def execTableStatus (dt : Nat) (path : Path) (isPort : Bool) (num : Nat) (s : State) : Out := s.run dt fun s =>
  s.tosenRun path 0x052A 1 false (if isPort then dataPerm num else s.tablePerm num) fun s d =>
    let s := if isPort then s else s.sweepTable num
    let shares := [s.profileQuota d, s.cacheShare d, s.missShare d, s.spoutShare d]
    if isPort then (if s.prsCheck num ≠ 0 then s.deny (s.prsCheck num) else s.ok ([s.learnState num, (s.learnPort num).refused] ++ shares))
    else if num > 15 then s.deny 0x03000060
    else s.ok (s.tableWindow num ++ shares)

/-- TABLE_QUOTA (R165, R174, R176, R178). -/
def execTableQuota (dt : Nat) (path : Path) (dom profiles cache misses spout : Nat) (s : State) : Out := s.run dt fun s =>
  s.tosenRun path 0x052B 5 (dom ≥ 16) .any fun s _ =>
    let sum := fun (f : Nat → Nat) => (((List.range 16).filter (fun d => d != dom)).map f).sum
    let over_ := sum s.profileQuota + profiles > 1024 || sum s.cacheShare + cache > 65536 || sum s.missShare + misses > 2048
      || sum s.spoutShare + spout > 65536
    let used := s.pl.cur.profiles.any (fun (x : Nat × Profile) => x.1 / 4096 == dom && x.1 % 4096 ≥ profiles)
      || (s.pl.cache.filter (fun c => c.1 == dom)).length > cache
      || (List.range 3).any (fun p => (s.pl.frames.filter (fun f => f.phase == 1 && f.dom == dom && f.pipe == p)).length > misses)
      || (s.pl.cur.spout.filter (fun (x : Nat × SpoutEntry) => x.2.dom == dom)).length > spout
    if over_ || used then s.deny 0x02000067
    else { s with pl.quotas := tset s.pl.quotas dom { s.plQuota dom with
      profiles := some profiles, cache := some cache, misses := some misses, spout := some spout } }.ok []

end Sys2Proof.Machine
end

