-- ==== Sys2Proof/Machine/Ledger.lean ====
section
/-! DEFINITION. The rows of the Pethiale Ledger (R81-R106): closes of epochs and checkpoints, signatures, the open of chains, export, and
the commands of group 0x03. -/
namespace Sys2Proof.Machine

/-- The open chains. -/
def State.openChains (s : State) : List Nat := (s.led.chains.filter (fun (x : Nat × Chain) => x.2.isOpen)).map (·.1)

/-- Every open chain's epoch closed at the present grid point, once (R85). -/
def State.closeEpochs (s : State) : State :=
  s.openChains.foldl (fun s d => if (s.chain d).epoch.start = s.now then s else s.closeEpoch d s.now) s

/-- EPOCH_CLOSE (R85). -/
def execEpochClose (dt : Nat) (s : State) : Out := s.runLedger dt fun s => if s.now % grid 10 ≠ 0 then s else s.closeEpochs

/-- The signing backlog has reached 64: reported once for each time it does (R106). -/
def State.backlogCheck (s : State) (d : Nat) : State :=
  if s.backlog ≥ 64 && !s.led.backlogSent then { s with led.backlogSent := true }.ledgerEvent d 5 else s

/-- EPOCH_ROOT_FINAL (R85, R93, R94): the oldest closed epoch of a chain, with the checkpoint that closes with it. -/
def execEpochRootFinal (dt dom : Nat) (s : State) : Out := s.runLedger dt fun s => (s.rootFinal dom).backlogCheck dom

/-- CHECKPOINT_CLOSE (R94): at a point of 2^20 ns, after the epochs that end there (R24). -/
def execCheckpointClose (dt : Nat) (s : State) : Out := s.runLedger dt fun s =>
  if s.now % grid 20 ≠ 0 then s
  else
    let s1 := s.closeEpochs
    (s1.led.chains.map (·.1)).foldl (fun s d => s.dueCkpt d 0 s.now) s1

/-- The chain whose closed checkpoint is signed next: in order of close (R95). (DESIGN CHOICE, unsafe: notes/assumptions/40.md) -/
def State.nextToSign (s : State) : Option (Nat × Ckpt) :=
  (s.led.chains.filterMap (fun (x : Nat × Chain) => x.2.waiting.head?.map (fun c => (x.1, c)))).foldl (fun (a : Option (Nat × Ckpt)) c => match a with
    | none => some c
    | some x => if c.2.closedAt < x.2.closedAt then some c else some x) none

/-- Drain is complete once the final checkpoint of every chain is in the retention store (R39 step 7). -/
def State.drainCheck (s : State) : State :=
  if s.glb.mode = .drain && s.glb.drainStep == .closed && s.led.chains.all (fun (x : Nat × Chain) => !x.2.isOpen && x.2.closing.isEmpty && x.2.waiting.isEmpty)
  then { s with glb.drainDone := true } else s

/-- CHECKPOINT_SIGNED (R95, R98): the signature fills its slots, and the retention store takes the checkpoint in the same step. -/
def execCheckpointSigned (dt : Nat) (s : State) : Out := s.runLedger dt fun s =>
  match s.nextToSign with
  | none => s
  | some (d, k) =>
    let c := s.chain d
    let full := k.body ++ ecdsaSign (ledgerKey d) k.body
    let fill := fun (x : LSlot) =>
      if k.kept && x.chain == c.id && k.slot ≤ x.num && x.num < k.slot + 8 then { x with data := slice full (32 * (x.num - k.slot)) 32, ready := true } else x
    let s1 : State := { s.setChain d { c with waiting := c.waiting.drop 1, signedSeq := k.sequence, stream := c.stream.map fill } with
      led.retention := tset (if s.led.retainBad then [] else s.led.retention) d full, led.retainBad := false }
    (if s1.backlog < 64 then { s1 with led.backlogSent := false } else s1).drainCheck

/-- A chain opened for a domain at the present point (R99, R101).
(DEDUCED, unsafe: notes/assumptions/37.md; DESIGN CHOICE, unsafe: notes/assumptions/40.md) -/
def State.openChain (s : State) (d cause : Nat) : State :=
  let o := s.chain d
  let id := s.freeBits 64
  let pred := if s.led.retainBad then none else tget? s.led.retention d
  let p := match pred with
    | some b => (ofLe (slice b 16 8), ofLe (slice b 24 8), sha256 (b.take 160))
    | none => (0, 0, zeros 32)
  let init := sha256 ([0x05#8] ++ le d 1 ++ le id 8 ++ le p.1 8 ++ le p.2.1 8 ++ p.2.2)
  let q := if cause = 0 then some (409 / s.domCount) else o.quota
  let c : Chain := { o with isOpen := true, id := id, nextSeq := 0, closedSeq := 0, signedSeq := 0, value := init, prevHash := p.2.2
                            predUnknown := pred.isNone, period := { start := s.now }, epoch := { start := s.now, openedAt := s.elapsed }
                            certNo := s.led.issued, quota := q, sizeKib := o.sizeNextKib, written := 0, ckptLostNow := 0, gap := false, retainLow := false, sumStopped := false }
  let s1 := s.used.setChain d c
  let u := s1.mkDue d 2 s.now s.now
  let s2 := (s1.closeCkpt d u true (p.1, p.2.1)).special1 d 0x01 false false (le id 8 ++ le cause 1 ++ le s.glb.mode.code 1)
  let s3 := if cause = 1 then s2.special1 d 0x02 true false (le 4 1 ++ le s.glb.mode.code 1 ++ le s.glb.entryCause 1 ++ le 0 1) else s2
  s3.retention d

/-- CHAIN_OPEN (R99): at the first grid point after management firmware starts, or after `RESUME`; the transition to that mode is then complete.
(DEDUCED, unsafe: notes/assumptions/21.md) -/
def execChainOpen (dt : Nat) (s : State) : Out := s.run dt fun s =>
  match s.led.openDue with
  | none => s
  | some cause =>
    if s.now % grid 10 ≠ 0 then s
    else
      let s1 := { s with led.openDue := none, led.atOpen := if s.led.retainBad then [] else s.led.retention, led.issued := s.led.issued + 1, glb.inTransition := false }
      s1.doms.foldl (fun s d => s.openChain d cause) s1

/-! Export (R103). -/

/-- The ring that takes a domain's exports. -/
def State.exportRing (s : State) (d : Nat) : Option Nat :=
  (s.rings.rings.find? (fun (x : Nat × Ring) => fnOfKey x.1 == s.ledgerFn d && x.2.enable && x.2.engine == 6)).map (·.1)

/-- The leading ended descriptors of a ring without batch completions taken off, as a completion carries the consumer index (R254). -/
def State.retireDescs (s : State) (k : Nat) : Option (Nat × Nat) × State :=
  let r := s.ring k
  let n := endedPrefix r.fetched
  ((r.fetched.take n).getLast?.map (fun d => (k, (d.idx + 1) % 2 ^ 32)), s.setRing k { r with fetched := r.fetched.drop n })

/-- What an export reads of a slot: 32 zero bytes where it is poisoned (R452). -/
def State.slotData (s : State) (d : Nat) (x : LSlot) : Bytes := if s.mem.marks.contains (11, d * 2 ^ 64 + x.num) then zeros 32 else slice x.data 0 32

/-- Poisoned slots among those exported are reported and forgotten (R452, R453, R458). -/
def State.slotsPoisoned (s : State) (d : Nat) (l : List LSlot) : State :=
  (l.filter (fun x => s.mem.marks.contains (11, d * 2 ^ 64 + x.num))).foldl (fun (s : State) x =>
    ({ s with mem.marks := s.mem.marks.filter (fun m => m != (11, d * 2 ^ 64 + x.num)) }.memDom d 1).memEvent d 3 [x.chain, x.num]) s

/-- Slots that may be copied, up to the end of a checkpoint or a number. -/
def takeSlots : Nat → List LSlot → List LSlot
  | 0, _ => []
  | _, [] => []
  | n + 1, x :: r => if !x.ready then [] else if x.ends then [x] else x :: takeSlots n r

/-- EXPORT_COPY (R103): slots copied into the posted buffer of a domain's export ring, which completes when it is full or ends a checkpoint.
(DEDUCED, unsafe: notes/assumptions/36.md) -/
def execExportCopy (dt dom : Nat) (s : State) : Out := s.run dt fun s =>
  match s.exportRing dom with
  | none => s
  | some k =>
    let f := fnOfKey k
    match (s.ring k).fetched.find? (fun x => !x.ended) with
    | none => s
    | some b =>
      if s.mute f || (s.ring (rkey f (s.ring k).cq)).sumpFull then s
      else
        let c := s.chain dom
        let room := b.len / 32
        let copied := b.filled / 32
        let l := takeSlots (room - copied) (c.stream.drop (c.copied + copied))
        if l.isEmpty then s
        else
          let total := copied + l.length
          let s1 := (s.hostWr f (.hostWrite f (b.addr + 32 * copied) (l.flatMap (s.slotData dom)))).slotsPoisoned dom l
          let s1 := match (s1.ring k).chan with
            | some c => s1.chanCount c 1 (32 * l.length)
            | none => s1
          let ended := l.getLast?.any (fun x => x.ends)
          if total < room && !ended then
            s1.setRing k { s1.ring k with fetched := (s1.ring k).fetched.map (fun x => if x.idx == b.idx then { x with filled := 32 * total } else x) }
          else
            let all := (c.stream.drop c.copied).take total
            let first : LSlot := all.headD { chain := 0, num := 0, data := [] }
            let fl := b2n ended + 2 * b2n first.opening + 4 * b2n (l.getLast?.any (fun x => x.final))
            let data := le b.tag 4 ++ le 1 1 ++ le dom 1 ++ le fl 1 ++ le 0 1 ++ le first.chain 8 ++ le first.num 8 ++ le total 4 ++ le 0 4
            let s1 := match (s1.ring k).chan with
              | some ch => s1.chanCount ch 2 1
              | none => s1
            let s2 := s1.setChain dom { c with copied := c.copied + total }
            let r := (s2.setRing k ((s2.ring k).finish b.idx 0)).retireDescs k
            r.2.post (rkey f (r.2.ring k).cq) { data := data, src := r.1, frees := some (dom, total) }

/-! Quotas. -/

/-- LEDGER_QUOTA_APPLY (R89): at a grid point, after the epochs have closed. (DEDUCED, unsafe: notes/assumptions/37.md) -/
def execLedgerQuotaApply (dt : Nat) (s : State) : Out := s.runLedger dt fun s =>
  if s.now % grid 10 ≠ 0 then s
  else
    let s1 := s.closeEpochs
    (s1.led.chains.map (·.1)).foldl (fun s d =>
      match (s.chain d).quotaNext with
      | none => s
      | some q =>
        let o := s.itemQuota d
        if o = q then s.setChain d { s.chain d with quotaNext := none } else
        (s.setChain d { s.chain d with quota := some q, quotaNext := none }).special1 d 0x11 false false (le o 2 ++ le q 2)) s1

/-- Registers of a domain's window (R105). (DESIGN CHOICE, unsafe: notes/assumptions/170.md) -/
def State.ledgWindow (s : State) (d : Nat) : List Nat :=
  let c := s.chain d
  [c.id, c.closedSeq, c.signedSeq, s.itemQuota d + 512 * b2n c.isOpen + 1024 * b2n c.retainLow + 2048 * b2n c.sumStopped,
    if c.value.isEmpty then 0 else c.freeBytes / 1024] ++ c.counters

/-- LEDGER_STATUS (R105, R106). (DESIGN CHOICE, unsafe: notes/assumptions/170.md) -/
def execLedgerStatus (dt : Nat) (path : Path) (dom : Nat) (s : State) : Out := s.run dt fun s =>
  s.tosenRun path 0x0301 1 false (.owner dom) fun s _ =>
    if !s.domOn dom then s.deny 0x03000020 else s.ok (s.ledgWindow dom ++ [min s.backlog 255])

/-- LEDGER_SET_QUOTA (R89, R106). (DEDUCED, unsafe: notes/assumptions/37.md) -/
def execLedgerSetQuota (dt : Nat) (path : Path) (dom quota : Nat) (s : State) : Out := s.run dt fun s =>
  s.tosenRun path 0x0302 2 false .any fun s _ =>
    let others := ((s.doms.filter (fun d => d != dom)).map (fun d => (s.chain d).quotaNext.getD (s.itemQuota d))).sum
    if !s.domOn dom then s.deny 0x03000020
    else if quota > 409 then s.deny 0x03000021
    else if others + quota > 409 then s.deny 0x02000020
    else if quota = s.itemQuota dom && (s.chain dom).quotaNext.isNone then s.ok []
    else (s.setChain dom { s.chain dom with quotaNext := some quota }).ok []

/-- LEDGER_SET_CISTERN (R101, R106, R289): the size in MiB. (DEDUCED, unsafe: notes/assumptions/38.md) -/
def execLedgerSetCistern (dt : Nat) (path : Path) (dom size : Nat) (s : State) : Out := s.run dt fun s =>
  s.tosenRun path 0x0303 2 false .any fun s _ =>
    let s1 := s.setChain dom { s.chain dom with sizeNextKib := size * 1024 }
    let top := (s.memCeil dom).getD s.pagesTotal
    if !s.domOn dom then s.deny 0x03000020
    else if size < 64 || size * 16 > top || !s1.poolsOk then s.deny 0x03000022
    else s1.ok []

/-- LEDGER_CERT_GET (R96, R106). (DESIGN CHOICE, unsafe: notes/assumptions/170.md) -/
def execLedgerCertGet (dt : Nat) (path : Path) (dom which addr len : Nat) (s : State) : Out := s.run dt fun s =>
  s.tosenRun path 0x0304 4 (which > 2) (.owner dom) fun s _ =>
    let der := s.certificate which dom
    if badAddr path addr then s.deny 0x03000F02
    else if !s.domOn dom then s.deny 0x03000020
    else if len < der.length then s.deny 0x02000021
    else (s.cmdWrite path addr der).ok [der.length]

/-- LEDGER_RETAINED_GET (R98, R106). -/
def execLedgerRetainedGet (dt : Nat) (path : Path) (dom : Nat) (s : State) : Out := s.run dt fun s =>
  s.tosenRun path 0x0305 1 false (.owner dom) fun s _ =>
    if !s.domOn dom then s.deny 0x03000020
    else match tget? s.led.atOpen dom with
      | none => s.deny 0x02000022
      | some b => s.ok ((List.range 32).map (fun i => ofLe (slice b (8 * i) 8)))

end Sys2Proof.Machine
end

