-- ==== Sys2Proof/Machine/Mem.lean ====
section
/-! DEFINITION. The rows of memory and data integrity (R447-R461): scrubbing, and the commands of 0x0820 to 0x0825. -/
namespace Sys2Proof.Machine

/-- Where the scrubber's word lies in HBM (R452): 0 cistern space of a domain, at the byte address `sub`; 1 spill, with the frame `sub`; 2 the
backing of context `sub`; 3 deep tables, with the bucket `sub` (table × 2^26 + bucket); 4 the ledger cistern of a domain, slot `sub`; any
other: the reserved pages. -/
def hbmPageKey (kind dom sub page : Nat) : Nat :=
  if kind = 0 then dataPageKey dom (sub / pageSize) else 2 ^ 42 + kind * 2 ^ 38 + page

/-- A C2 correction by the scrubber (R456): the page is marked once the pass has found `RETIRE_C2` addresses of it.
(DEDUCED, unsafe: notes/assumptions/148.md) -/
def State.c2Found (s : State) (dom key addr stack pch mask : Nat) : State :=
  let page := addr / pageSize
  let l := tget s.mem.c2 page []
  let l1 := if l.contains addr then l else l ++ [addr]
  let s1 : State := { s with mem.c2 := tset s.mem.c2 page l1 }
  if l1.length ≥ s1.mem.cfg.retireC2 then s1.markPage dom (key, page) (recordFields (memRecord s1.now addr 0 2 dom 1 stack pch mask 1))
  else s1

/-- The mark of a poisoned word of an SRAM store (R452), where the store's entry `key` keeps it: a frame's cells (2^41 + p: the frame that port p is sending, which R120 ends), a line, an entry.
(DEDUCED, unsafe: notes/assumptions/147.md) -/
def State.sramPoison (s : State) (store key off : Nat) : State :=
  match store with
  | 1 =>
    let q := key / 65536
    let x := s.queue q
    let p := key - 2 ^ 41
    if key ≥ 2 ^ 41 then
      match (s.pt p).tx with
      | t :: rest => if t.kind < 3 && !t.aborted then (s.setPt p { s.pt p with tx := { t with aborted := true } :: rest }).memDom t.frame.dom 1 else s
      | [] => s
    else if key < 2 ^ 40 then s.setQueue q { x with frames := x.frames.zipIdx.map (fun f => if f.2 = key % 65536 then { f.1 with bad := true } else f.1) }
    else { s with slu.store := s.slu.store.zipIdx.map (fun r => if r.2 = key - 2 ^ 40 then { r.1 with frame := { r.1.frame with bad := true } } else r.1) }
  | 3 => { s with mem.poison := s.mem.poison ++ [localAt key off / 32] }
  | 5 => match s.ctx? (key / 4096) with
    | some x => s.setCtx (key / 4096) { x with parked := x.parked.zipIdx.map (fun f => if f.2 = key % 4096 then { f.1 with bad := true } else f.1) }
    | none => s
  | 8 => { s with mem.poison := s.mem.poison ++ [localAt key off / 32] }
  | n => if n = 2 || n = 4 || n = 7 then { s with mem.marks := s.mem.marks ++ [(n, key)] } else s

/-- A poisoned word of HBM, where its owner keeps it: a word of cistern space, a spilled frame, a context in the backing pool, a bucket of a
deep table, a ledger slot. (DESIGN CHOICE, unsafe: notes/assumptions/146.md; DEDUCED, unsafe: notes/assumptions/147.md) -/
def State.hbmPoison (s : State) (kind dom sub : Nat) : State :=
  match kind with
  | 0 => { s with mem.poison := s.mem.poison ++ [cisternAt dom sub / 32] }
  | 1 => s.sramPoison 1 sub 0
  | 2 => { s with mem.marks := s.mem.marks ++ [(4, sub)] }
  | 3 => { s with mem.marks := s.mem.marks ++ [(3, sub)] }
  | 4 => { s with mem.marks := s.mem.marks ++ [(11, dom * 2 ^ 64 + sub)] }
  | _ => s

/-- Whether a word of HBM is poisoned already. (DEDUCED, unsafe: notes/assumptions/147.md) -/
def State.hbmBad (s : State) (kind dom sub : Nat) : Bool :=
  match kind with
  | 0 => s.mem.poison.contains (cisternAt dom sub / 32)
  | 1 =>
    if sub < 2 ^ 40 then ((s.queue (sub / 65536)).frames[sub % 65536]?).any (fun f => f.bad)
    else (s.slu.store[sub - 2 ^ 40]?).any (fun r => r.frame.bad)
  | 2 => s.mem.marks.contains (4, sub)
  | 3 => s.mem.marks.contains (3, sub)
  | 4 => s.mem.marks.contains (11, dom * 2 ^ 64 + sub)
  | _ => false

/-- The scrubber's read of an HBM word whose symbols in `mask` are bad besides those already inverted (R449-R457). -/
def State.scrub (s : State) (addr stack pch mask kind dom sub : Nat) : State :=
  let at_ := cisternAt dom sub
  let w := at_ / 32
  let inverted := if kind = 0 then tget s.mem.bad w 0 else 0
  let m := mask ||| inverted
  let owner := if kind ≤ 4 then dom else 255
  let key := hbmPageKey kind dom sub (addr / pageSize)
  let s0 : State := if kind = 0 then { s with mem.bad := tdel s.mem.bad w } else s
  if s.hbmBad kind dom sub then s0.stackCount1 stack 3
  else if symbols m = 0 then s
  else if symbols m ≤ 2 then
    let s1 := s0.corrected addr 0 owner 1 stack pch m
    if symbols m = 2 then s1.c2Found owner key addr stack pch m else s1
  else
    let s1 := s0.hbmPoison kind dom sub
    s1.ueFound addr 0 owner 1 stack pch (some (key, addr / pageSize)) (if kind = 4 then [dom] else [])

/-- SCRUB_READ (R454). (DESIGN CHOICE, unsafe: notes/assumptions/146.md) -/
def execScrubRead (dt addr stack pch mask kind dom sub : Nat) (s : State) : Out := s.run dt fun s =>
  if stack ≥ s.stackCount then s else s.rollPass.scrub addr stack pch mask kind dom sub

/-- SRAM_SCRUB_READ (R455): byte `off` of a store; `dom` owns what is there, and `key` names it. -/
def execSramScrubRead (dt store off mask dom key : Nat) (s : State) : Out := s.run dt fun s =>
  let shared := store = 6 || store ≥ 8
  let owner := if shared then 255 else if store = 3 then (s.coreDom key).getD 16 else dom
  let word := localAt key off / 32
  let m := if store = 3 || store = 8 then mask ||| tget s.mem.bad word 0 else mask
  let s0 : State := if store = 3 || store = 8 then { s with mem.bad := tdel s.mem.bad word } else s
  if store = 0 || store > 9 || symbols m = 0 then s
  else if (store = 3 || store = 8) && s.mem.poison.contains word then s0
  else if symbols m ≤ 2 then s0.corrected off store owner 1 0 0 m
  else (s0.sramPoison store key off).ueFound off store owner 1 0xFF 0xFF none (if store = 6 then s.doms else [])

/-- UE_REPORT_PERIOD_END (R458): a domain's, 16 for the shared stores'. (DEDUCED, unsafe: notes/assumptions/149.md) -/
def execUeReportPeriodEnd (dt dom : Nat) (s : State) : Out := s.run dt fun s => s.uePeriodEnd dom

/-! Commands (R460). -/

/-- MEM_STATUS, MEM_SCRUB and MEM_RETIRED (R459). (DEDUCED, unsafe: notes/assumptions/150.md) -/
def State.memStatus (s : State) : Nat :=
  let r := s.rollPass
  r.stackCount + 8 + 256 * ((r.elapsed - r.mem.passAt) * 100 / grid r.mem.cfg.scrub) + 65536 * r.mem.passes
def State.memScrub (s : State) : Nat :=
  let c := s.rollPass.mem.cfg
  c.scrub + 256 * c.sram + 65536 * c.retireC2 + 2 ^ 20 * c.ceAlertK
/-- The model's own reading. (DEDUCED, unsafe: notes/assumptions/148.md) -/
def State.memRetired (s : State) : Nat := s.mem.retired.length
/-- The counters of a stack, and of a domain. -/
def State.stackCounters (s : State) (st : Nat) : List Nat := tget s.mem.stackErrs st [0, 0, 0, 0, 0]
def State.memDoms (s : State) (d : Nat) : List Nat := tget s.mem.doms d [0, 0]

/-- MEM_STATUS (R460). -/
def execMemStatus (dt : Nat) (path : Path) (dom : Nat) (s : State) : Out := s.run dt fun s =>
  s.tosenRun path 0x0820 1 (dom ≥ 16) (.owner dom) fun s d =>
    let own := [s.memStatus, s.memRetired] ++ s.memDoms dom
    s.ok (if d = 0 then own ++ (List.range s.stackCount).flatMap s.stackCounters ++ s.mem.sram ++ (List.range 16).flatMap s.memDoms else own)

/-- MEM_SCRUB_CONFIG (R454-R456): in force from the next pass. -/
def execMemScrubConfig (dt : Nat) (path : Path) (scrub sram retire alert : Nat) (s : State) : Out := s.run dt fun s =>
  s.tosenRun path 0x0821 4 false .any fun s _ =>
    if scrub < 32 || scrub > 40 || sram < 28 || sram > 36 || retire < 1 || retire > 15 || alert > 4095 then s.deny 0x03000820
    else { s.rollPass with mem.cfgNext := some { scrub := scrub, sram := sram, retireC2 := retire, ceAlertK := alert }, mem.sramNext := some sram }.ok []

/-- MEM_ERROR_LOG (R457): the records written to the buffer as far as it reaches; their numbers. (DEDUCED, unsafe: notes/assumptions/150.md) -/
def execMemErrorLog (dt : Nat) (path : Path) (addr len : Nat) (s : State) : Out := s.run dt fun s =>
  s.tosenRun path 0x0822 2 false .any fun s _ =>
    if badAddr path addr then s.deny 0x03000F02
    else (s.cmdWrite path addr (((s.mem.logC ++ s.mem.logU).flatten).take len)).ok [s.mem.logC.length, s.mem.logU.length]

/-- MEM_RETIRED_LIST (R456). -/
def execMemRetiredList (dt : Nat) (path : Path) (addr len : Nat) (s : State) : Out := s.run dt fun s =>
  s.tosenRun path 0x0823 2 false .any fun s _ =>
    let pages := s.mem.retired
    if badAddr path addr then s.deny 0x03000F02
    else if len < 8 * pages.length then s.deny 0x02000820
    else (s.cmdWrite path addr (pages.flatMap (fun p => le p 8))).ok [pages.length]

/-- Pages reserved for the device (R287). -/
def reservedPages : Nat := 98304

/-- MEM_RETIRE_PAGE (R456): which pages are allocated is the device's own placement, a free value where any are.
(DEDUCED, unsafe: notes/assumptions/148.md; DEDUCED, unsafe: notes/assumptions/150.md) -/
def execMemRetirePage (dt : Nat) (path : Path) (page : Nat) (s : State) : Out := s.run dt fun s =>
  s.tosenRun path 0x0824 1 (page ≥ 2098961 + reservedPages) .any fun s _ =>
    let given := (s.doms.map (fun d => (s.rmDom d).usedPages + (s.rmDom d).bufs.length)).sum + s.zeroingPages > 0
    let taken := given && s.freeBits 1 = 1
    let s1 := if given then s.used else s
    if s.glb.mode ≠ .priming || page < reservedPages || page ≥ s.pagesTotal + reservedPages || s.mem.marked.any (fun m => m.2 == page) || taken then
      s1.deny 0x02000821
    else { s1 with mem.retired := if s1.mem.retired.contains page then s1.mem.retired else s1.mem.retired ++ [page] }.ok []

/-- MEM_INJECT (R460). -/
def execMemInject (dt : Nat) (path : Path) (dom addr mask : Nat) (s : State) : Out := s.run dt fun s =>
  s.tosenRun path 0x0825 3 (dom ≥ 16 || mask ≥ 2 ^ 36) (.owner dom) fun s _ =>
    if mask = 0 || addr % 32 ≠ 0 || !(s.cisternOk dom addr 32 || s.itemOk dom addr 32) then s.deny 0x03000821
    else if s.glb.mode ≠ .factory && s.prov && (mapField s.fuse.map (0x288 + dom * 8) 8 61 58).testBit 2 then s.deny 0x02000822
    else
      let w := cisternAt dom addr / 32
      let m := (tget s.mem.bad w 0) ^^^ mask
      { s with mem.bad := if m = 0 then tdel s.mem.bad w else tset s.mem.bad w m }.ok []

end Sys2Proof.Machine
end

