-- ==== Sys2Proof/Machine/Modes.lean ====
section
/-! DEFINITION. The rows of the operating modes (R28-R44): the mode commands, the watchdog, Drain, the close of chains in Lockdown and a
function's readiness. -/
namespace Sys2Proof.Machine

/-- Units of the watchdog period: 2^20 ns (R28). -/
def wdogUnit : Nat := grid 20

/-! Readiness (R33). -/

/-- Every data port of a domain has received its port-map configuration, with lanes or without. (DESIGN CHOICE, safe: notes/assumptions/25.md) -/
def State.portsMapped (s : State) (d : Nat) : Bool :=
  (List.range s.portCount).all (fun p => s.portDom p != d || (s.pt p).given)

/-- FUNCTION_READY (R33): the conditions hold; the domain's firmware, resources and quotas are outside the block, and the row says that they are ready.
(DESIGN CHOICE, safe: notes/assumptions/25.md) -/
def execFunctionReady (dt fn : Nat) (s : State) : Out := s.run dt fun s =>
  let x := s.fn fn
  if !s.firmware || s.glb.mode = .lockdown || !s.fnExists fn || x.inReset || x.ready then s
  else if fn != 0 && !s.portsMapped (s.fnDom fn) then s
  else
    let s1 := s.putFn fn { x with ready := true }
    if fn = 0 then s1.markTrial else s1

/-! Commands of group 0x01 (R32). -/

/-- MODE_QUERY (R32). -/
def execModeQuery (dt : Nat) (path : Path) (s : State) : Out := s.run dt fun s =>
  s.tosenRun path 0x0101 0 false .any fun s _ => s.ok [s.glbMode, nsOf s.glb.modeEntered]

/-- ENTER_SERVICE (R34, R35). (DEDUCED, unsafe: notes/assumptions/20.md; DESIGN CHOICE, safe: notes/assumptions/22.md) -/
def execEnterService (dt : Nat) (path : Path) (accept : Nat) (s : State) : Out := s.run dt fun s =>
  s.tosenRun path 0x0102 1 (accept > 1) .any fun s _ =>
    if s.glb.inTransition then s.deny 0x01000001
    else if s.glb.mode ≠ .priming then s.deny 0x02000001
    else if !(s.fn 0).ready then s.deny 0x02000002
    else if !s.tb.qualified && accept ≠ 1 then s.deny 0x02000005
    else
      let s1 := s.changeMode .service 1 (b2n (!s.tb.qualified))
      { s1 with
        glb.armed := true, glb.fed := false, glb.wdogRunning := s.glb.wdogPeriod
        glb.wdogExpiry := s.elapsed + s.glb.wdogPeriod * wdogUnit }.ok []

/-- Entry into Drain (R39 steps 1 and 2): its cause and its limit in ns. -/
def State.enterDrain (s : State) (cause limit : Nat) : State :=
  let s := s.sweepAll
  let s1 : State := { s with
    glb.armed := false, glb.drainDone := false, glb.limitHit := false, glb.abandoned := 0
    glb.drainStep := .draining, glb.drainT0 := s.elapsed, glb.drainLimit := ns limit }
  (s1.changeMode .drain cause 0).setFailsafe false

/-- ENTER_DRAIN (R32, R39). (DEDUCED, unsafe: notes/assumptions/20.md; DESIGN CHOICE, safe: notes/assumptions/22.md) -/
def execEnterDrain (dt : Nat) (path : Path) (limit : Nat) (s : State) : Out := s.run dt fun s =>
  s.tosenRun path 0x0103 1 false .any fun s _ =>
    if limit > 2 ^ 34 then s.deny 0x03000001
    else if s.glb.inTransition then s.deny 0x01000001
    else if s.glb.mode ≠ .service || s.glb.wdogExpiry ≤ s.elapsed then s.deny 0x02000001
    else (s.enterDrain 1 (if limit = 0 then 2 ^ 27 else limit)).ok []

/-- A port restarted by `RESUME` (R115). (DEDUCED, unsafe: notes/assumptions/23.md) -/
def PortSt.restart (x : PortSt) : PortSt :=
  match x.state with
  | .held => { x with state := .training, stopped := false, localFault := true, remoteFault := false, anDone := false, calState := 0, tx := [] }
  | _ => x

/-- Units that Drain had stopped go on (R41, R173, R192). (DEDUCED, unsafe: notes/assumptions/23.md) -/
def State.resumeUnits (s : State) : State :=
  let s1 : State := { s with
    ports.ports := tmap s.ports.ports PortSt.restart
    pl.cur := { s.pl.cur with tables := tmap s.pl.cur.tables (fun t => { t with swept := s.now + 1 }) }
    tm.queues := tmap s.tm.queues (fun q => if q.cfg.sample then { q with hist := { q.hist with short := true } } else q)
    glb.drainStep := .none, led.openDue := some 1 }
  (s1.rings.rings.map (·.1)).foldl State.fetch s1

/-- RESUME (R32, R41): the transition ends when the new chains open.
(DEDUCED, unsafe: notes/assumptions/20.md; DEDUCED, unsafe: notes/assumptions/21.md; DEDUCED, unsafe: notes/assumptions/23.md) -/
def execResume (dt : Nat) (path : Path) (s : State) : Out := s.run dt fun s =>
  s.tosenRun path 0x0104 0 false .any fun s _ =>
    if s.glb.inTransition then s.deny 0x01000001
    else if s.glb.mode ≠ .drain then s.deny 0x02000001
    else if !s.glb.drainDone then s.deny 0x02000003
    else ({ s with glb.inTransition := true }.changeMode .priming 1 0).resumeUnits.ok []

/-- WDOG_CONFIG (R32). -/
def execWdogConfig (dt : Nat) (path : Path) (period : Nat) (s : State) : Out := s.run dt fun s =>
  s.tosenRun path 0x0105 1 false .any fun s _ =>
    if period = 0 || period > 65535 then s.deny 0x03000001 else { s with glb.wdogPeriod := period }.ok []

/-- READY_QUERY (R32). -/
def execReadyQuery (dt : Nat) (path : Path) (func : Nat) (s : State) : Out := s.run dt fun s =>
  s.tosenRun path 0x0106 1 (func ≥ 2 ^ 25) .any fun s _ =>
    if !s.fnExists (fnOf func) then s.deny 0x02000004 else s.ok [s.fnStatus (fnOf func)]

/-! The watchdog (R35). -/

/-- A feed of the watchdog with a key. -/
def State.feedWdog (s : State) (key : Nat) : State :=
  if s.glb.mode ≠ .service || s.glb.wdogExpiry ≤ s.elapsed then s
  else if key = 0x5A17 then
    { s with glb.fed := true, glb.wdogRunning := s.glb.wdogPeriod, glb.wdogExpiry := s.elapsed + s.glb.wdogPeriod * wdogUnit }.setFailsafe true
  else { s with glb.badFeeds := satInc s.glb.badFeeds 255 }

/-- WATCHDOG_FEED (R28, R35): the word written to `GLB_WDOG_FEED`. A feed that comes at the expiry instant or later changes nothing. -/
def execWatchdogFeed (dt value : Nat) (s : State) : Out := s.run dt fun s =>
  if s.barOpen 0 then s.feedWdog (value % 65536) else s

/-- WATCHDOG_EXPIRY (R35): from the expiry instant on. (DESIGN CHOICE, unsafe: notes/assumptions/3.md) -/
def execWatchdogExpiry (dt : Nat) (s : State) : Out := s.run dt fun s =>
  if s.glb.mode ≠ .service || s.elapsed < s.glb.wdogExpiry then s
  else { s with glb.expired := true }.enterDrain 3 (2 ^ 27)

/-! Drain (R39). -/

/-- A frame accepted before Drain began. -/
def State.early (s : State) (f : Frame) : Bool := f.port < 32 && f.feed.at_ ≤ s.glb.drainT0

/-- The new-work rings (R39 step 1). -/
def State.workRings (s : State) : List Nat :=
  (s.rings.rings.filter (fun (r : Nat × Ring) => r.2.enable && r.2.kind < 2 && r.2.newWork (s.isSend r.1))).map (·.1)

/-- Descriptors of a ring fetched and not ended. -/
def Ring.open_ (r : Ring) : List Desc := r.fetched.filter (fun d => !d.ended && !d.isEntry)

/-- Work items not ended: descriptors of the new-work rings. (DEDUCED, unsafe: notes/assumptions/24.md) -/
def State.workLeft (s : State) : Nat := ((s.workRings.map (fun k => (s.ring k).open_.length))).sum

/-- Whether all work accepted before Drain has completed (R39 step 3). (DEDUCED, unsafe: notes/assumptions/24.md) -/
def State.drainIdle (s : State) : Bool :=
  s.workLeft == 0 && s.rdma.qps.all (fun (q : Nat × Qp) => q.2.reqs.isEmpty) && s.stor.cmds.isEmpty
    && s.workRings.all (fun k => !(s.ring k).fetching)
    && !s.pl.frames.any s.early && !s.tm.queues.any (fun (q : Nat × Queue) => q.2.frames.any s.early)
    && !s.rdma.intake.any (fun (x : Nat × List Frame) => x.2.any s.early)

/-- ABANDONED, higher by `n` (R28). -/
def State.abandonBy (s : State) (n : Nat) : State := { s with glb.abandoned := min 65535 (s.glb.abandoned + n) }

/-- Items not yet delivered discarded and counted (R304). -/
def State.drainItems (s : State) : State :=
  (s.rm.flows.map (·.1)).foldl (fun (s : State) (k : Nat) =>
    let f := s.flow k
    if f.items.isEmpty then s
    else
      let s1 := (f.items.foldl (fun s i => s.dropBuf (flowDom k) i.buf) (s.setFlow k { f with items := [] })).abandonBy f.items.length
      s1.retireMarker k) s

/-- Whether a ring's frame is on the wire of a port: it completes (R115). -/
def State.onWire (s : State) (k first : Nat) : Bool :=
  s.ports.ports.any (fun (x : Nat × PortSt) => x.2.tx.take 1 |>.any (fun t => t.frame.desc == some (k, first)))

/-- Replicas of rings' frames that wait in queues end unsent; the frames themselves wait for step 6. -/
def State.drainReplicas (s : State) : State :=
  s.tm.queues.foldl (fun (s : State) (q : Nat × Queue) =>
    let fs := q.2.frames
    if fs.all (fun f => f.desc.isNone) then s
    else
      let s1 := fs.foldl (fun s f => s.txLost f q.2.cfg.port 1) s
      s1.setQueue q.1 { s1.queue q.1 with frames := (s1.queue q.1).frames.map (fun f => { f with desc := none }) }) s

/-- What is left of a ring's work ends with "drained" (R39 step 4, R283). -/
def State.drainRing (s : State) (k : Nat) : State :=
  let f := fnOfKey k
  let s0 := match (s.ring k).dma with
    | none => s
    | some j => ((s.hostWr f (.hostWrite f ((s.ring k).slotAddr j.idx + 20) (le j.moved 4))).setDma k none).dropDmaReads k
  let keep := ((s0.ring k).jobs.filter (fun j => s0.onWire k j.first))
  let live := fun (d : Desc) => keep.any (fun j => (d.idx + 2 ^ 32 - j.first) % 2 ^ 32 < j.count)
  let ends := if (s0.ring k).engine = 0 then [] else (s0.ring k).open_.filter (fun d => !live d)
  let s1 := ((s0.ring k).jobs.filter (fun j => !s0.onWire k j.first)).foldl (fun s j => s.jobEnd k j 1) (s0.setRing k { s0.ring k with runFailed := false })
  (ends.foldl (fun s d => s.descEnd k d.idx 1) s1).runs k

/-- Everything not complete at the limit ends (R39 step 4). (DEDUCED, unsafe: notes/assumptions/24.md) -/
def State.drainWork (s : State) : State :=
  let before := s.workLeft
  let s0 := s.drainReplicas
  let s1 := s0.stor.cmds.foldl (fun (s : State) (c : StCmd) => s.cmdEnd c 1) s0
  let s2 := s1.rdma.qps.foldl (fun (s : State) (q : Nat × Qp) => s.endAll q.1 1 1) s1
  let s3 := s2.workRings.foldl State.drainRing s2
  s3.abandonBy (before - s3.workLeft)

/-- The frames of a queue inside the block that were accepted before Drain end with it; a port's own queue waits for step 6 (R195). -/
def State.dropEarly (s : State) (q : Nat) : State :=
  let x := s.queue q
  let es := x.frames.filter s.early
  if x.cfg.kind = 1 || es.isEmpty then s
  else
    let s1 := es.foldl (fun s f => (s.queueDrop q (2 + f.colour) 2).frameLost f 32 1) (s.setQueue q { x with frames := x.frames.filter (fun f => !s.early f) })
    (s1.abandonBy es.length).sync q

/-- The received frames accepted before Drain that are still inside the block at the limit end: in the pipelines, in the queues of the
host and of cores, at a channel without a buffer, and before the RDMA engine (R39 step 4). -/
def State.drainFrames (s : State) : State :=
  let fs := s.pl.frames.filter s.early
  let s1 := (fs.foldl State.dropFrame s).abandonBy fs.length
  let s2 := (s1.tm.queues.map (·.1)).foldl State.dropEarly s1
  let ws := s2.dma.waits.filter (fun (w : Nat × RxWait) => s2.early w.2.frame)
  let n := (s2.rdma.intake.map (fun (x : Nat × List Frame) => (x.2.filter s2.early).length)).sum
  ({ s2 with dma.waits := s2.dma.waits.filter (fun (w : Nat × RxWait) => !s2.early w.2.frame)
             rdma.intake := tmap s2.rdma.intake (fun (l : List Frame) => l.filter (fun f => !s2.early f)) }.abandonBy (ws.length + n)).syncSched hostSched

/-- A data port at Drain step 5 (R115): it sends remote fault, and a frame already started completes. -/
def PortSt.hold (x : PortSt) : PortSt := { x with state := .held, stopped := false }

/-- Step 5 of a port. -/
def State.holdPort (s : State) (p : Nat) : State :=
  let x := s.pt p
  match x.state with
  | .disabled => s
  | .dormant => s
  | .held => s
  | _ =>
    let s1 := s.portLeaves p false (fun t => t)
    s1.setPt p (s1.pt p).hold

/-- t1 of Drain (R39 steps 4 and 5): what the Sluice stores and the items not delivered are discarded and counted, and the ports send remote fault.
(DEDUCED, unsafe: notes/assumptions/24.md) -/
def State.drainEnds (s : State) : State :=
  let n := s.slu.store.length
  let s1 := (s.slu.store.foldl (fun s r => s.discardReplica r 7 1) s).abandonBy n
  let s2 := s1.drainItems
  { (List.range 24).foldl State.holdPort s2 with glb.drainStep := .faulting, glb.drainT1 := s.elapsed }

/-- DRAIN_WORK_COMPLETE (R39): all work accepted before Drain has completed. -/
def execDrainWorkComplete (dt : Nat) (s : State) : Out := s.run dt fun s =>
  if s.glb.mode = .drain && s.glb.drainStep == .draining && s.drainIdle then s.drainEnds else s

/-- DRAIN_LIMIT_EXPIRY (R39): the limit L comes before the work completes. -/
def execDrainLimitExpiry (dt : Nat) (s : State) : Out := s.run dt fun s =>
  if s.glb.mode = .drain && s.glb.drainStep == .draining && s.glb.drainT0 + s.glb.drainLimit ≤ s.elapsed then
    { s.drainEnds.drainWork.drainFrames with glb.limitHit := true, glb.drainStep := .faulting, glb.drainT1 := s.elapsed }
  else s

/-- The frames queued for a `HELD` port discarded (R195). -/
def State.dropHeld (s : State) (q : Nat) : State :=
  let x := s.queue q
  if x.cfg.kind ≠ 1 || (s.pt x.cfg.port).state != .held || x.frames.isEmpty then s
  else
    let s1 := x.frames.foldl (fun s f => (s.queueDrop q (2 + f.colour) 2).frameLost f x.cfg.port 1) (s.setQueue q { x with frames := [] })
    (s1.abandonBy x.frames.length).sync q

/-- DRAIN_TX_STOP (R39 step 6, R192, R195). (DEDUCED, unsafe: notes/assumptions/24.md) -/
def execDrainTxStop (dt : Nat) (s : State) : Out := s.run dt fun s =>
  if s.glb.mode ≠ .drain || s.glb.drainStep != .faulting || s.elapsed < s.glb.drainT1 + grid 20 then s
  else
    let s1 := (s.tm.queues.map (·.1)).foldl State.dropHeld s
    let s2 : State := { s1 with ports.ports := tmap s1.ports.ports (fun x => if x.state = .held then { x with stopped := true } else x) }
    { s2.doms.foldl (fun s d => s.writeRecords d true (nsOf (s.now - (s.elapsed - (s.glb.drainT1 + grid 20))))) s2 with glb.drainStep := .silent }

/-- DRAIN_CHAIN_CLOSE (R39 step 7): the drain-end record, which closes the chain with a final checkpoint at the end of its epoch.
(DESIGN CHOICE, unsafe: notes/assumptions/182.md) -/
def execDrainChainClose (dt : Nat) (s : State) : Out := s.run dt fun s =>
  if s.glb.mode ≠ .drain || s.glb.drainStep != .silent then s
  else
    { s.specials 0x0E true true (le s.glb.abandoned 4 ++ le (b2n s.glb.limitHit) 1) with glb.drainStep := .closed }.drainCheck

/-- LOCKDOWN_CHAIN_CLOSE (R43 step 5): every chain still open that no final record has closed yet.
(DESIGN CHOICE, unsafe: notes/assumptions/182.md) -/
def execLockdownChainClose (dt : Nat) (s : State) : Out := s.run dt fun s =>
  if s.glb.mode ≠ .lockdown then s
  else
    { s with led.chains := tmap s.led.chains (fun c =>
        if c.epoch.final then c else c.special s.now s.quality 0x0F true true (le s.glb.entryCause 1)) }

end Sys2Proof.Machine
end

