-- ==== Sys2Proof/Machine/Pcie.lean ====
section
/-! DEFINITION. The rows of the PCIe host interface (R311-R334). -/
namespace Sys2Proof.Machine

/-! Reads (R324-R327). -/

/-- PCIE_READ_COMPLETION (R326): a completion for a tag with its status (0 successful, 2 UR, 3 CA), EP, its data, and whether it is the last for its
read. (DESIGN CHOICE, safe: notes/assumptions/87.md) -/
def execPcieReadCompletion (dt tag status : Nat) (ep last : Bool) (data : Bytes) (s : State) : Out := s.run dt fun s =>
  match s.pcie.reads.find? (fun (r : HRead) => r.tag == tag) with
  | some r => s.readReturn r status ep data
  | none => match tget? s.pcie.quarantine tag with
    | none => s.pcieCount 2
    | some q =>
      let s1 := s.pcieCount 1
      let first := match s1.pcie.lateAt with
        | none => true
        | some t => t + grid 20 ≤ s1.elapsed
      let s2 : State := { s1 with pcie.lateAt := some s1.elapsed, pcie.quarantine := if last then tdel s1.pcie.quarantine tag else s1.pcie.quarantine }
      (if first then s2.pcieEvent q.2 3 [] else s2).issueHeld

/-- COMPLETION_TIMEOUT (R325-R327): a read that has waited its timeout; its tag is quarantined. (DEDUCED, unsafe: notes/assumptions/107.md) -/
def execCompletionTimeout (dt tag : Nat) (s : State) : Out := s.run dt fun s =>
  match s.pcie.reads.find? (fun (r : HRead) => r.tag == tag) with
  | none => s
  | some r =>
    if s.elapsed < r.at_ + r.cto then s
    else
      let s1 : State := { s with
        pcie.reads := s.pcie.reads.filter (fun (x : HRead) => x.tag != tag)
        pcie.quarantine := tset s.pcie.quarantine tag (r.at_ + 2 * r.cto, r.fn) }
      let s2 := s1.pcieCount 0
      if r.dead then s2 else s2.readBad r 1

/-- TAG_QUARANTINE_END (R326). -/
def execTagQuarantineEnd (dt tag : Nat) (s : State) : Out := s.run dt fun s =>
  match tget? s.pcie.quarantine tag with
  | some q => if q.1 ≤ s.elapsed then { s with pcie.quarantine := tdel s.pcie.quarantine tag }.issueHeld else s
  | none => s

/-! Links (R315, R330, R331). -/

/-- PCIE_LINK_UP (R315): link A or B with its speed code, width and Flit Mode. -/
def execPcieLinkUp (dt : Nat) (b : Bool) (speed width : Nat) (flit : Bool) (s : State) : Out := s.run dt fun s =>
  if (b && !s.pcie.x8x8) || speed < 1 || speed > 6 || ! [1, 2, 4, 8, 16].contains width || (s.pcie.x8x8 && width > 8) then s
  else s.setLink b { speed := speed, width := width, flit := flit, active := width, up := true }

/-- The PFs of a link. -/
def State.linkPfs (s : State) (b : Bool) : List Nat := (List.range 8).filter (fun p => s.pfOn p && s.onB (p * 4096) == b)

/-- A function that exists no more: a VF whose PF has cleared VF Enable. -/
def State.fnGone (s : State) (f : Nat) : State :=
  let s1 := s.resetOne f
  let s2 := (s1.pfn f).resetPaths.foldl (fun (s : State) (p : Path) => s.tosenLater p 0x0941 0x02000004 []) s1
  { s2 with glb.fns := tdel s2.glb.fns f, pcie.fns := tdel s2.pcie.fns f }

/-- The configuration space of a PF and its VFs returns to default: its VFs are gone. -/
def State.cfgLost (s : State) (f : Nat) : State :=
  let s1 := (s.vfsOf f).foldl State.fnGone s
  s1.setPfn f { (s1.pfn f).configDefault with vfs := 0, winSize := none, vfWin := none }

/-- DL_DOWN (R331): every function of the link is reset at once. (DEDUCED, unsafe: notes/assumptions/106.md) -/
def execDlDown (dt : Nat) (b : Bool) (s : State) : Out := s.run dt fun s =>
  if (b && !s.pcie.x8x8) || !(if b then s.pcie.linkB else s.pcie.linkA).up then s
  else
    let fs := (s.linkPfs b).map (fun p => p * 4096)
    let s1 := fs.foldl (fun s f => (s.functionReset f).cfgLost f) (s.setLink b {})
    let e := [fnCode (if b then 4 * 4096 else 0), 1, s1.ledgerNs]
    let d := if b && s.pfOn 4 then s.fnDom (4 * 4096) else 0
    if s.firmware then ([d, 0].eraseDups.foldl (fun (s : State) x => (s.eventDom x 0x0930 d e).1) s1).eventSide true 0x0930 d e else s1

/-- ASPM_L1_ENTRY (R330): the link has carried nothing for `L1_IDLE`; not with a read out or DMA work pending. -/
def execAspmL1Entry (dt : Nat) (b : Bool) (s : State) : Out := s.run dt fun s =>
  let l := if b then s.pcie.linkB else s.pcie.linkA
  let out := s.pcie.reads.any (fun (r : HRead) => s.onB r.fn == b)
  let work := s.rings.rings.any (fun (r : Nat × Ring) => s.onB (fnOfKey r.1) == b && r.2.engine == 2 && (r.2.dma.isSome || r.2.fetched.any (fun d => !d.ended)))
  if !l.up || !l.aspm || l.lpm ≥ 2 || out || work then s else s.setLink b { l with lpm := 2 }

/-- L0P_WIDTH_REDUCE (R330). (DEDUCED, unsafe: notes/assumptions/106.md) -/
def execL0pWidthReduce (dt : Nat) (b : Bool) (s : State) : Out := s.run dt fun s =>
  let l := if b then s.pcie.linkB else s.pcie.linkA
  if !l.up || !l.flit || !l.l0p || !s.pcie.l0pAuto || s.pcie.l0pWidth ≥ l.active then s
  else s.setLink b { l with active := s.pcie.l0pWidth, lpm := 1 }

/-! Windows (R318-R322). -/

/-- Bytes of one slice of a function's window BAR (R316). -/
def State.sliceOf (s : State) (f : Nat) : Nat :=
  let x := s.pfn f
  let choice := if isVf f then (s.pfn (pfOf f * 4096)).vfWin else x.winSize
  min (choice.getD x.winMax) x.winMax / 64
def State.win (s : State) (f e : Nat) : Win := tget (s.pfn f).wins e {}
def State.setWin (s : State) (f e : Nat) (w : Win) : State := s.setPfn f { s.pfn f with wins := tset (s.pfn f).wins e w }

/-- A request to a window answered as an Unsupported Request (R322). (DEDUCED, unsafe: notes/assumptions/103.md) -/
def State.winUr (s : State) (f e : Nat) (write : Bool) : State :=
  let s1 := ((s.setWin f e { s.win f e with urs := ((s.win f e).urs + 1) % 65536 }).pcieCount 5)
  if write then s1 else s1.emit (.readData [] false false)

/-- A request that a window entry translates (R319, R322): `n` bytes at offset `o` of its slice. -/
def State.winAccess (s : State) (f e o n : Nat) (write ep : Bool) (data : Bytes) : State :=
  let w := s.win f e
  let d := s.fnDom f
  let a := w.target + o
  if !w.valid || o + n > w.pages * pageSize || o + n > s.sliceOf f || !(if write then w.wr else w.rd) || !s.cisternOk d a n then s.winUr f e write
  else
    let at_ := cisternAt d a
    if write then
      let s1 := s.store at_ data
      if ep then { s1 with mem.poison := s1.mem.poison ++ (wordsOf at_ n).filter (fun x => !s1.mem.poison.contains x) } else s1
    else match s.consume d at_ n with
      | (s1, some b) => s1.emit (.readData b true false)
      | (s1, none) => s1.emit (.readData (mreads s1.ram at_ n) true true)

/-- WINDOW_REQUEST (R318-R322): a read or write of `n` bytes at an offset of a function's window BAR; `ep` marks poisoned data.
(DEDUCED, unsafe: notes/assumptions/103.md; DEDUCED, unsafe: notes/assumptions/105.md) -/
def execWindowRequest (dt fn off n : Nat) (write ep : Bool) (data : Bytes) (s : State) : Out := s.run dt fun s =>
  let ur := if write then s else (s.pcieCount 5).emit (.readData [] false false)
  if !s.fnExists fn || !(s.linkOf fn).up then s
  else if s.glb.mode = .recovery || !(s.pfn fn).mse || (s.pfn fn).d3 || (s.glb.mode = .lockdown && fn ≠ 0) then ur
  else if !s.firmware || (s.fn fn).inReset then (if write then s else s.emit (.readData (zeros n) true false))
  else
    let e := off / s.sliceOf fn
    if e ≥ 64 then ur else s.winAccess fn e (off - e * s.sliceOf fn) n write ep data

/-- EXPANSION_ROM_READ (R323): served from 100 ms after the release of PERST_N. (DEDUCED, unsafe: notes/assumptions/104.md) -/
def execExpansionRomRead (dt off n : Nat) (s : State) : Out := s.run dt fun s =>
  if !s.pcie.linkA.up || s.glb.mode = .recovery || !(s.pfn 0).romEn || !(s.pfn 0).mse || (s.pfn 0).d3 || off + n > 2 ^ 22 then
    (s.pcieCount 5).emit (.readData [] false false)
  else if s.elapsed < s.pw.perstAt + ns 100000000 then s
  else if s.firmware && (s.fn 0).inReset then s.emit (.readData (zeros n) true false)
  else
    let rom := if s.firmware then s.pcie.rom else []
    s.emit (.readData ((List.range n).map (fun i => rom.getD (off + i) 255)) true false)

/-- A window write ignored (R321): counted and reported. -/
def State.winIgnored (s : State) (f : Nat) : State := (s.pcieCount 6).pcieEvent f 4 []

/-- Whether an entry may translate (R321). -/
def State.winGood (s : State) (f : Nat) (w : Win) : Bool :=
  w.target % pageSize == 0 && 1 ≤ w.pages && w.pages ≤ s.sliceOf f / pageSize && w.target + w.pages * pageSize ≤ 2 ^ 32

/-- A write of `WIN_CTRL` (R321): whether it took effect, and the state. -/
def State.winCtrl (s : State) (f e : Nat) (valid : Bool) (seq : Nat) (rd wr : Bool) (clear : Bool) : Bool × State :=
  let w := s.win f e
  let w1 := { w with valid := valid, seq := seq, rd := rd, wr := wr, ignored := w.ignored && !clear }
  if valid then (if s.winGood f w then (true, s.setWin f e w1) else (false, s.winIgnored f))
  else (true, s.setWin f e { w1 with drained := w.drained && !w.valid })

/-- A write of WIN_CTRL through PF0's PCIE block, of entry `e` of a PF's table (R320, R321). -/
def State.winCtrlWrite (s : State) (pf e value : Nat) : State :=
  if !s.barOpen 0 || !s.pfOn pf || e > 63 then s
  else (s.winCtrl (pf * 4096) e (value.testBit 0) (bits value 4 1) (value.testBit 5) (value.testBit 6) (value.testBit 9)).2

/-- WIN_CTRL_REG_WRITE (R320, R321). -/
def execWinCtrlRegWrite (dt pf e value : Nat) (s : State) : Out := s.run dt fun s => s.winCtrlWrite pf e value

/-- A write of an address word of an entry (R320, R321): word 0 `WIN_TGT_LO`, 1 `WIN_TGT_HI`, 2 `WIN_PAGES`. -/
def State.winWordWrite (s : State) (pf e word value : Nat) : State :=
  let f := pf * 4096
  if !s.barOpen 0 || !s.pfOn pf || e > 63 || word > 2 then s
  else
    let w := s.win f e
    if w.valid then (s.setWin f e { w with ignored := true }).winIgnored f
    else s.setWin f e (if word = 0 then { w with target := w.target / 2 ^ 32 * 2 ^ 32 + value / 65536 * 65536 }
      else if word = 1 then { w with target := w.target % 2 ^ 32 + value % 16 * 2 ^ 32 } else { w with pages := value % 32768 })

/-- WIN_ADDRESS_WRITE (R320, R321). -/
def execWinAddressWrite (dt pf e word value : Nat) (s : State) : Out := s.run dt fun s => s.winWordWrite pf e word value

/-- WIN_DRAINED (R321): the last request of an old mapping has ended; a command that waits is answered. -/
def execWinDrained (dt fn e : Nat) (s : State) : Out := s.run dt fun s =>
  let w := s.win fn e
  if w.drained then s
  else
    let s1 := s.setWin fn e { w with drained := true, waiting := [] }
    w.waiting.foldl (fun (s : State) (p : Path) => s.tosenLater p 0x0904 0 []) s1

/-! Configuration space (R315, R325, R329). -/

/-- PM_STATE_WRITE (R329): D3hot, or D0. -/
def execPmStateWrite (dt fn : Nat) (d3 : Bool) (s : State) : Out := s.run dt fun s =>
  if !s.cfgOpen fn || (s.pfn fn).d3 = d3 then s
  else (s.setPfn fn { s.pfn fn with d3 := d3, d3At := if d3 then s.elapsed else (s.pfn fn).d3At }).unwait fn

/-- D3HOT_WORK_TIMEOUT (R329). -/
def execD3hotWorkTimeout (dt fn : Nat) (s : State) : Out := s.run dt fun s =>
  if (s.pfn fn).d3 && (s.pfn fn).d3At + ns 10000000 ≤ s.elapsed then s.d3Ends fn else s

/-- BUS_MASTER_ENABLE_WRITE (R329). -/
def execBusMasterEnableWrite (dt fn : Nat) (on : Bool) (s : State) : Out := s.run dt fun s =>
  if !s.cfgOpen fn then s else ((s.setPfn fn { s.pfn fn with bme := on }).unwait fn).syncSched hostSched

/-- TotalVFs of a PF (R314). (DEDUCED, unsafe: notes/assumptions/102.md) -/
def State.totalVfsOf (s : State) (p : Nat) : Nat := tget s.pcie.totalVfs p (if p ≠ 0 && s.pfOn p then 292 else 0)

/-- VF_ENABLE_WRITE (R314, R315): VF Enable with NumVFs, and VF Memory Space Enable, of PF1-PF7. -/
def execVfEnableWrite (dt pf num : Nat) (on mse : Bool) (s : State) : Out := s.run dt fun s =>
  let f := pf * 4096
  if pf = 0 || pf > 7 || !s.cfgOpen f then s
  else
    let x := s.pfn f
    let s1 := if !on then { (s.vfsOf f).foldl State.fnGone s with pcie.fns := tset ((s.vfsOf f).foldl State.fnGone s).pcie.fns f { x with vfs := 0 } }
      else if x.vfs = 0 && 1 ≤ num && num ≤ s.totalVfsOf pf then s.setPfn f { x with vfs := num, vfAt := s.elapsed } else s
    (s1.vfsOf f).foldl (fun (s : State) (v : Nat) => s.setPfn v { s.pfn v with mse := mse }) s1

/-- CTO_VALUE_WRITE (R325): other encodings keep the previous value. -/
def execCtoValueWrite (dt fn value : Nat) (s : State) : Out := s.run dt fun s =>
  if !s.cfgOpen fn || value > 2 then s else s.setPfn fn { s.pfn fn with ctoVal := value }

/-! Registers and commands (R332, R333). -/

/-- PCIE_LINK_A and PCIE_LINK_B. -/
def Link.reg (l : Link) (x8 : Bool) : Nat :=
  l.speed + 8 * l.width + 256 * b2n l.flit + 512 * l.active + 16384 * l.lpm + 65536 * b2n l.up + 131072 * b2n x8
def State.linkRegs (s : State) : List Nat := [s.pcie.linkA.reg s.pcie.x8x8, if s.pcie.x8x8 then s.pcie.linkB.reg true else 0]
/-- PCIE_FROZEN and PCIE_TAGS. -/
def State.frozenReg (s : State) : Nat :=
  ((List.range 8).map (fun p => if (s.pfn (p * 4096)).frozen then 2 ^ p else 0)).sum
    + 65536 * (s.pcie.fns.filter (fun (x : Nat × PFn) => isVf x.1 && x.2.frozen)).length
def State.tagsReg (s : State) : Nat := s.pcie.reads.length + s.pcie.quarantine.length + 65536 * s.pcie.quarantine.length

/-- The words of a window entry (R320). -/
def Win.word (w : Win) (i : Nat) : Nat := match i with
  | 0 => w.target % 2 ^ 32
  | 1 => w.target / 2 ^ 32
  | 2 => w.pages
  | _ => b2n w.valid + 2 * w.seq + 32 * b2n w.rd + 64 * b2n w.wr + 256 * b2n w.drained + 512 * b2n w.ignored + 65536 * w.urs

/-- PCIE_STATUS (R333). -/
def execPcieStatus (dt : Nat) (path : Path) (func : Nat) (s : State) : Out := s.run dt fun s =>
  s.tosenRun path 0x0901 1 (func ≥ 2 ^ 25) (s.funcPerm func) fun s d =>
    let f := fnOf func
    let x := s.pfn f
    if !s.fnExists f then s.deny 0x02000004
    else s.ok ([x.freezeReg, x.ctoUs, if x.d3 then 3 else 0] ++ (if d = 0 then s.linkRegs ++ [s.frozenReg, s.tagsReg] ++ s.pcie.counters else []))

/-- PCIE_CTO_SET (R325). -/
def execPcieCtoSet (dt : Nat) (path : Path) (func us : Nat) (s : State) : Out := s.run dt fun s =>
  s.tosenRun path 0x0902 2 (func ≥ 2 ^ 25) (s.funcPerm func) fun s _ =>
    let f := fnOf func
    if us < 50 || us > 64000 then s.deny 0x030000F0
    else if !s.fnExists f then s.deny 0x02000004
    else (s.setPfn f { s.pfn f with ctoUs := us }).ok []

/-- WIN_WRITE (R321, R333). (DEDUCED, unsafe: notes/assumptions/103.md) -/
def execWinWrite (dt : Nat) (path : Path) (func e target pages : Nat) (s : State) : Out := s.run dt fun s =>
  s.tosenRun path 0x0903 4 (func ≥ 2 ^ 25 || target ≥ 2 ^ 36 || pages ≥ 2 ^ 15) (s.funcPerm func) fun s _ =>
    let f := fnOf func
    if e > 63 then s.deny 0x030000F1
    else if !s.fnExists f then s.deny 0x02000004
    else if (s.win f e).valid then ((s.setWin f e { s.win f e with ignored := true }).winIgnored f).deny 0x020000F0
    else (s.setWin f e { s.win f e with target := target / 65536 * 65536, pages := pages }).ok []

/-- WIN_CTRL (R321, R333). -/
def execWinCtrl (dt : Nat) (path : Path) (func e valid seq rd wr : Nat) (s : State) : Out := s.run dt fun s =>
  s.tosenRun path 0x0904 6 (func ≥ 2 ^ 25 || valid > 1 || seq > 15 || rd > 1 || wr > 1) (s.funcPerm func) fun s _ =>
    let f := fnOf func
    if e > 63 then s.deny 0x030000F1
    else if !s.fnExists f then s.deny 0x02000004
    else match s.winCtrl f e (valid == 1) seq (rd == 1) (wr == 1) false with
      | (false, s1) => s1.deny 0x020000F1
      | (true, s1) =>
        if valid = 1 || (s1.win f e).drained then s1.ok [] else (.later, s1.setWin f e { s1.win f e with waiting := (s1.win f e).waiting ++ [path] })

/-- WIN_READ (R333): the 16 bytes as two fields. -/
def execWinRead (dt : Nat) (path : Path) (func e : Nat) (s : State) : Out := s.run dt fun s =>
  s.tosenRun path 0x0905 2 (func ≥ 2 ^ 25) (s.funcPerm func) fun s _ =>
    let w := s.win (fnOf func) e
    if e > 63 then s.deny 0x030000F1
    else if !s.fnExists (fnOf func) then s.deny 0x02000004
    else s.ok [w.word 0 + 2 ^ 32 * w.word 1, w.word 2 + 2 ^ 32 * w.word 3]

/-- The fused window ceiling of a domain (R388); none where no map is in force. -/
def State.winCeil (s : State) (d : Nat) : Nat := if s.prov then 2 ^ 22 * 2 ^ (s.domField d 57 54) else 2 ^ 36

/-- PCIE_WIN_MAX (R316). -/
def execPcieWinMax (dt : Nat) (path : Path) (func size : Nat) (s : State) : Out := s.run dt fun s =>
  s.tosenRun path 0x0906 2 (func ≥ 2 ^ 25) .any fun s _ =>
    let f := fnOf func
    if !((List.range 15).any (fun n => size == 2 ^ (22 + n))) then s.deny 0x030000F2
    else if !s.fnExists f then s.deny 0x02000004
    else if size > s.winCeil (s.fnDom f) then s.deny 0x020000F2
    else (s.setPfn f { s.pfn f with winMaxNext := size }).ok []

/-- The LTR messages of the links that are up (R330). -/
def State.sendLtr (s : State) : State :=
  let s1 := if s.pcie.linkA.up then s.emit (.ltr false s.pcie.ltr.1 s.pcie.ltr.2) else s
  if s1.pcie.linkB.up then s1.emit (.ltr true s1.pcie.ltr.1 s1.pcie.ltr.2) else s1

/-- PCIE_POWER_CONFIG (R330). -/
def execPciePowerConfig (dt : Nat) (path : Path) (idle auto width snoop nosnoop : Nat) (s : State) : Out := s.run dt fun s =>
  s.tosenRun path 0x0907 5 false .any fun s _ =>
    if idle ≥ 2 ^ 32 || auto > 1 || ! [1, 2, 4, 8].contains width || snoop ≥ 65536 || nosnoop ≥ 65536 then s.deny 0x030000F3
    else ({ s with pcie.l1Idle := idle, pcie.l0pAuto := auto == 1, pcie.l0pWidth := width, pcie.ltr := (snoop, nosnoop) }.sendLtr).ok []

/-- SRIOV_LIMIT (R314): TotalVFs of PF1-PF7, from the next device reset. (DEDUCED, unsafe: notes/assumptions/102.md) -/
def execSriovLimit (dt : Nat) (path : Path) (total : List Nat) (s : State) : Out := s.run dt fun s =>
  s.tosenRun path 0x0908 7 false .any fun s _ =>
    if total.sum > 2048 then s.deny 0x020000F3
    else { s with pcie.totalNext := (List.range 7).map (fun i => (i + 1, nth total i)) }.ok []

end Sys2Proof.Machine
end

