-- ==== Sys2Proof/Machine/Security.lean ====
section
/-! DEFINITION. The commands of group 0x0B (R374-R384): MACsec and IPsec settings, the key quota, and what an accepted change does at
its instant c. -/
namespace Sys2Proof.Machine

/-- Key slots a domain uses (R380, R381). -/
def State.keysUsed (s : State) (d : Nat) : Nat :=
  ((s.sec.ports.filter (fun (x : Nat × MsPort) => s.portOwner x.1 == d)).map (fun (x : Nat × MsPort) =>
    (x.2.scs.map (fun (c : Nat × MsSc) => c.2.sas.length)).sum)).sum
    + (s.sec.esp.filter (fun (x : Nat × EspSa) => x.2.dom == d)).length
/-- Key slots of the accepted changes of a domain that have not committed. -/
def State.keysPending (s : State) (d : Nat) : Nat :=
  (s.sec.pend.filter (fun x => match x.op with
    | .sa p _ _ _ _ => s.portOwner p == d
    | .esp _ v => v.dom == d
    | _ => false)).length
def State.keyQuota (s : State) (d : Nat) : Nat := tget s.sec.quota d (if s.domOn d then 16384 / s.domCount else 0)
def State.keyFull (s : State) (d : Nat) : Bool := s.keysUsed d + s.keysPending d ≥ s.keyQuota d

/-- A change accepted: it commits at its instant c (R383). -/
def State.secLater (s : State) (path : Path) (opcode : Nat) (op : SecOp) (reply : List Nat) : Answer × State :=
  (.later, { s with sec.pend := s.sec.pend ++ [{ path := path, opcode := opcode, op := op, reply := reply }] })

/-- MACSEC_PORT_CONFIG (R374, R375, R383). (DESIGN CHOICE, unsafe: notes/assumptions/124.md) -/
def execMacsecPortConfig (dt : Nat) (path : Path) (port on suite validate window sci offset : Nat) (bypass : List Nat) (s : State) : Out :=
  s.run dt fun s =>
  s.tosenRun path 0x0B01 (8 + bypass.length) (window ≥ 2 ^ 32 || bypass.any (fun t => t ≥ 65536)) (dataPerm port) fun s _ =>
    if port ≥ 24 || on > 1 || suite > 1 || validate > 2 || sci > 1 || !(offset == 0 || offset == 30 || offset == 50) || bypass.length > 4 then s.deny 0x03000120
    else if port ≥ s.portCount then s.deny absentPort
    else s.secLater path 0x0B01 (.port port { on := on == 1, xpn := suite == 1, validate := validate, window := window, withSci := sci == 1
                                              offset := offset, bypass := bypass }) []

/-- MACSEC_SA_SET (R376, R380, R381). `sc` is 0 for the transmit channel, 1 to 4 for the receive channels 0 to 3.
(DESIGN CHOICE, unsafe: notes/assumptions/124.md) -/
def execMacsecSaSet (dt : Nat) (path : Path) (port sc sci an key ssci salt pn : Nat) (s : State) : Out := s.run dt fun s =>
  s.tosenRun path 0x0B02 12 (port ≥ 24 || sc > 4 || an > 3 || ssci ≥ 2 ^ 32) (dataPerm port) fun s _ =>
    let old := tget? (tget (s.ms port).scs sc {}).sas an
    if port ≥ s.portCount then s.deny absentPort
    else if old.isNone && s.keyFull (s.portOwner port) then s.deny 0x02000120
    else s.secLater path 0x0B02 (.sa port sc sci an { key := key, ssci := ssci, salt := salt, pn := pn }) []

/-- MACSEC_TX_AN (R376). -/
def execMacsecTxAn (dt : Nat) (path : Path) (port an : Nat) (s : State) : Out := s.run dt fun s =>
  s.tosenRun path 0x0B03 2 (port ≥ 24 || an > 3) (dataPerm port) fun s _ =>
    if port ≥ s.portCount then s.deny absentPort
    else if (tget? (tget (s.ms port).scs 0 {}).sas an).isNone then s.deny 0x02000121
    else s.secLater path 0x0B03 (.txAn port an) []

/-- `MS_PORT_STATE` (R382). -/
def MsPort.reg (m : MsPort) : Nat := b2n m.on + 2 * m.validate + 8 * b2n m.xpn + 16 * m.txAn + 64 * b2n m.exhausted

/-- MACSEC_STATUS (R382, R383). -/
def execMacsecStatus (dt : Nat) (path : Path) (port : Nat) (s : State) : Out := s.run dt fun s =>
  s.tosenRun path 0x0B04 1 (port ≥ 24) (dataPerm port) fun s _ =>
    if port ≥ s.portCount then s.deny absentPort else s.ok ((s.ms port).reg :: (s.ms port).counters)

/-- The lowest handle no association has and no accepted change takes. (DESIGN CHOICE, unsafe: notes/assumptions/124.md) -/
def State.freeHandle (s : State) : Nat :=
  ((List.range 16384).find? (fun h => (tget? s.sec.esp h).isNone && !s.sec.pend.any (fun x => match x.op with
    | .esp k _ => k == h
    | _ => false))).getD 16384

/-- IPSEC_SA_SET (R377, R378, R383): the template as its length and its bytes. (DESIGN CHOICE, unsafe: notes/assumptions/124.md) -/
def execIpsecSaSet (dt : Nat) (path : Path) (dir spi src dst key salt esn seq tlen : Nat) (template : Bytes) (sport dport : Nat)
    (s : State) : Out := s.run dt fun s =>
  s.tosenRun path 0x0B10 (16 + ceilDiv tlen 8) (spi ≥ 2 ^ 32 || salt ≥ 2 ^ 32 || sport ≥ 65536 || dport ≥ 65536) .any fun s d =>
    if dir > 1 || esn > 1 || tlen > 64 || (esn = 0 && seq ≥ 2 ^ 32) then s.deny 0x03000121
    else if s.keyFull d || s.freeHandle = 16384 then s.deny 0x02000120
    else
      let v : EspSa := { dom := d, outbound := dir == 0, spi := spi, src := src, dst := dst, key := key, salt := salt, esn := esn == 1, seq := seq
                         template := template.take tlen, natt := if sport = 0 && dport = 0 then none else some (sport, dport) }
      s.secLater path 0x0B10 (.esp s.freeHandle v) [s.freeHandle]

/-- Whose permission a command on an association needs. -/
def State.espPerm (s : State) (h : Nat) : Perm := match tget? s.sec.esp h with
  | some a => .owner a.dom
  | none => .any

/-- IPSEC_SA_DELETE (R383, R384): of a handle that holds none, success. (DESIGN CHOICE, unsafe: notes/assumptions/124.md) -/
def execIpsecSaDelete (dt : Nat) (path : Path) (handle : Nat) (s : State) : Out := s.run dt fun s =>
  s.tosenRun path 0x0B11 1 (handle ≥ 16384) (s.espPerm handle) fun s _ => s.secLater path 0x0B11 (.espDel handle) []

/-- IPSEC_QUEUE_BIND (R378): `sa` is an outbound handle, or 0xFFFF for `ESP_IN`. -/
def execIpsecQueueBind (dt : Nat) (path : Path) (queue sa : Nat) (s : State) : Out := s.run dt fun s =>
  s.tosenRun path 0x0B12 2 (queue ≥ 32768 || sa ≥ 65536) (s.queuePerm queue) fun s _ =>
    let good := match tget? s.sec.esp sa with
      | some a => a.outbound && s.queueDom queue == some a.dom
      | none => sa == 0xFFFF
    if (s.queueDom queue).isNone || !good then s.deny 0x02000122
    else s.secLater path 0x0B12 (.bind queue sa) []

/-- A number of 128 bits as two fields, low half first. -/
def halves (n : Nat) : List Nat := [n % 2 ^ 64, n / 2 ^ 64]

/-- IPSEC_SA_READ (R383): fields and sequence state, never key or salt. (DESIGN CHOICE, unsafe: notes/assumptions/124.md) -/
def execIpsecSaRead (dt : Nat) (path : Path) (handle : Nat) (s : State) : Out := s.run dt fun s =>
  s.tosenRun path 0x0B13 1 (handle ≥ 16384) (s.espPerm handle) fun s _ =>
    match tget? s.sec.esp handle with
    | none => s.ok []
    | some a =>
      let n := a.natt.getD (0, 0)
      s.ok ([b2n (!a.outbound), a.spi] ++ halves a.src ++ halves a.dst ++ [b2n a.esn, a.seq] ++ (List.range 16).map (fun i => bits a.window (64 * i + 63) (64 * i))
        ++ [a.template.length] ++ (List.range 8).map (fun i => ofLe (slice a.template (8 * i) 8)) ++ [n.1, n.2])

/-- SEC_KEY_QUOTA (R380): slots of the 16 domains. -/
def execSecKeyQuota (dt : Nat) (path : Path) (slots : List Nat) (s : State) : Out := s.run dt fun s =>
  s.tosenRun path 0x0B20 16 false .any fun s _ =>
    let over_ := (List.range 16).any (fun d => s.prov && nth slots d > s.domField d 36 22)
    if slots.sum > 16384 || over_ then s.deny 0x02000123
    else s.secLater path 0x0B20 (.quota slots) []

/-- Whether the transmitting association of a port has PN room. -/
def MsPort.room (m : MsPort) : Bool := match tget? (tget m.scs 0 {}).sas m.txAn with
  | some a => a.pn < pnTop m.xpn
  | none => false

/-- The effect of a security change at its instant c (R374-R378, R383). -/
def State.applySec (s : State) (op : SecOp) : State :=
  match op with
  | .port p v =>
    let m := s.ms p
    s.setMs p { v with txAn := m.txAn, exhausted := m.exhausted, scs := m.scs, counters := m.counters }
  | .sa p sc sci an v =>
    let m := s.ms p
    let c := tget m.scs sc {}
    let m1 := { m with scs := tset m.scs sc { c with sci := sci, sas := tset c.sas an v } }
    s.setMs p { m1 with exhausted := m1.exhausted && !m1.room }
  | .txAn p an =>
    let m1 := { s.ms p with txAn := an }
    s.setMs p { m1 with exhausted := m1.exhausted && !m1.room }
  | .esp h v => { s with sec.esp := tset s.sec.esp h v }
  | .espDel h => { s with sec.esp := tdel s.sec.esp h }
  | .bind q sa => s.setQueue q { s.queue q with sa := some sa }
  | .quota l => { s with sec.quota := (List.range 16).map (fun d => (d, nth l d)) }
  | _ => s

end Sys2Proof.Machine
end

