-- ==== Sys2Proof/Machine/RegView.lean ====
section
/-! DEFINITION. The register map (R12-R22): what each offset of a control BAR reads as, block by block. -/
namespace Sys2Proof.Machine

/-- Counter registers of 64 bits: `n` of them from an offset on. -/
def counterAt (o base n : Nat) (l : List Nat) : Option Nat :=
  if base ≤ o && o < base + 8 * n && (o - base) % 8 = 0 then some (nth l ((o - base) / 8)) else none

/-- The first of some alternatives. -/
def firstSome {α : Type} : List (Option α) → Option α
  | [] => none
  | some x :: _ => some x
  | none :: r => firstSome r

/-- Half `h` (0 lower) of a 64-bit value. -/
def half (v h : Nat) : Nat := if h = 0 then v % 2 ^ 32 else v / 2 ^ 32 % 2 ^ 32

/-! Blocks of 32-bit registers, and of 64-bit registers whose lower half latches the upper (R12). `o` is the offset in the block. -/

/-- The vectors of a function (R317). -/
def fnVectors (f : Nat) : Nat := if isVf f then 64 else 2048

/-- GLB (R4, R28, R317, R499). -/
def State.glbReg (s : State) (f o : Nat) : Nat :=
  let g := s.glb
  let x := s.pfn f
  if o = 0x00 then s.glbId
  else if o = 0x04 then s.glbMode
  else if o = 0x08 then s.fnStatus f
  else if o = 0x40 then x.freezeReg
  else if o = 0x44 then x.ctoUs
  else if 0x4000 ≤ o && o < 0x4000 + fnVectors f / 8 then
    ((List.range 32).map (fun i => if x.pba.contains ((o - 0x4000) * 8 + i) then 2 ^ i else 0)).sum
  else if 0x8000 ≤ o && o < 0x8000 + fnVectors f * 16 then
    tget x.msix ((o - 0x8000) / 4) (if (o - 0x8000) / 4 % 4 = 3 then 1 else 0)
  else if f ≠ 0 then 0
  else if o = 0x20 then g.wdogPeriod
  else if o = 0x28 then b2n g.armed + 2 * b2n g.fed + 4 * b2n g.expired + 256 * g.badFeeds
  else if o = 0x30 then b2n g.drainDone + 2 * b2n g.limitHit + 65536 * g.abandoned
  else if o = 0x50 then s.pw.tj + 256 * s.pw.tjMax + 65536 * b2n s.pw.therm + 131072 * b2n s.pw.tripSeen
  else if o = 0x54 then s.pw.cause + 8 * b2n s.pw.closed
  else 0

/-- The calibration region as one number (R70, R79, R386): the factory part of lane 0 on receive and on transmit, of lane 1 and so on, 31 bits
each, then the PPS_IN input delay. (DESIGN CHOICE, unsafe: notes/assumptions/19.md) -/
def State.calibBits (s : State) : Nat :=
  ((List.range 48).map (fun i => s.factoryCal (i / 2) (i % 2) % 2 ^ 31 * 2 ^ (31 * i))).sum + s.factoryCal 24 0 % 2 ^ 48 * 2 ^ 1488

/-- A byte of the fuse block (R386, R387, R427-R429); the unique secret reads as zero. (DESIGN CHOICE, unsafe: notes/assumptions/19.md) -/
def State.fuseByte (s : State) (i : Nat) : Byte :=
  let f := s.fuse
  if i < 0x20 then
    (le f.serial 8 ++ le f.prodDate 4 ++ le f.orderCode 1 ++ le 0 1 ++ le f.subsysVendor 2 ++ le f.subsysId 2 ++ be f.mpMac 6 ++ zeros 8).getD i 0
  else if i < 0x40 then 0
  else if i < 0x140 then
    let k := s.keySlot ((i - 0x40) / 64)
    (le k.hash 48 ++ le k.programmed 1 ++ le k.revoked 1).getD ((i - 0x40) % 64) 0
  else if i < 0x1C0 then (le f.counter 128).getD (i - 0x140) 0
  else if i < 0x280 then BitVec.ofNat 8 (s.calibBits / 256 ^ (i - 0x1C0))
  else if i < 0x3D0 then f.map.getD (i - 0x280) 0
  else if i < 0x3D4 then (le f.mapCrc 4).getD (i - 0x3D0) 0
  else if i < 0x400 then 0
  else f.repair.getD (i - 0x400) 0

/-- FUSE (R386, R402). -/
def State.fuseReg (s : State) (o : Nat) : Nat :=
  if o < 0x800 then ofLe ((List.range 4).map (fun i => s.fuseByte (o + i)))
  else if o = 0x1000 then s.isoStatus (fun _ => true) else 0

/-- TB (R46), but for the latched reading of device time. -/
def State.tbReg (s : State) (o : Nat) : Nat :=
  let t := s.tb
  if o = 0x10 then s.tbStatus
  else if o = 0x14 then twos 32 t.phaseErr
  else if o = 0x18 then twos 32 s.freqReg
  else if o = 0x1C then s.ageS
  else if o = 0x20 then s.tbUtc
  else if o = 0x28 then half t.leapNs 0
  else if o = 0x2C then half t.leapNs 1
  else if o = 0x30 then t.ppsDelay % 2 ^ 32
  else if o = 0x38 then t.refLosses + 256 * t.steps + 65536 * t.strays + 16777216 * t.todMismatch
  else 0

/-- A Wellhead (R79), at its stride. -/
def State.whReg (s : State) (p o : Nat) : Nat :=
  let x := s.pt p
  if p ≥ s.portCount then 0
  else if o = 0x00 then x.calState + 4 * (if modeLanes x.mode = 0 then 0x3F else p) + 256 * x.fec
  else if o = 0x08 then s.calRx p
  else if o = 0x0C then s.calTx p
  else if o = 0x10 then (if x.calState = 2 then x.linkRx % 2 ^ 32 else 0)
  else if o = 0x14 then (if x.calState = 2 then x.linkTx % 2 ^ 32 else 0)
  else if o = 0x20 then x.calRuns + 65536 * x.slips
  else 0
def State.whReg64 (s : State) (p o : Nat) : Option Nat :=
  let x := s.pt p
  if p ≥ s.portCount then none
  else if o = 0x28 then some x.rxEvents
  else if o = 0x30 then some x.txEvents
  else if o = 0x38 then some x.truncEvents
  else if o = 0x40 then some (nsOf x.lastRx.1)
  else if o = 0x50 then some (nsOf x.lastTx.1)
  else none
/-- The companion fields that a read of `*_LO` latches beside the upper half: fraction and quality byte. -/
def State.whFq (s : State) (p o : Nat) : Nat :=
  let x := s.pt p
  if o = 0x40 then fracOf x.lastRx.1 + 65536 * x.lastRx.2 else if o = 0x50 then fracOf x.lastTx.1 + 65536 * x.lastTx.2 else 0

/-- LEDG (R105). -/
def State.ledgReg (s : State) (o : Nat) : Nat :=
  let d := (o - 0x100) / 0x80
  let w := (o - 0x100) % 0x80
  if o = 0 then
    b2n (s.led.chains.any (fun (x : Nat × Chain) => x.2.isOpen)) + 2 * b2n (s.glb.mode == .factory) + 4 * b2n s.led.retainValid
      + 256 * min s.backlog 255 + 65536 * 409
  else if o < 0x100 || d > 15 || !s.domOn d then 0
  else if w = 0x18 then nth (s.ledgWindow d) 3
  else if w = 0x1C then nth (s.ledgWindow d) 4
  else 0
def State.ledgReg64 (s : State) (o : Nat) : Option Nat :=
  let d := (o - 0x100) / 0x80
  let w := (o - 0x100) % 0x80
  if o < 0x100 || d > 15 || !s.domOn d then none
  else firstSome [counterAt w 0 3 (s.ledgWindow d), counterAt w 0x20 6 ((s.ledgWindow d).drop 5)]

/-- MAC of a port, or of MP, 24 (R126). -/
def State.macReg (s : State) (p o : Nat) : Nat :=
  let x := s.pt p
  if p > 24 || (p < 24 && p ≥ s.portCount) then 0
  else if o = 0x00 then s.macStatus p
  else if o = 0x04 then s.macLanes p
  else if o = 0x08 then s.macLinks p
  else if o = 0x10 then half x.half 0
  else if o = 0x14 then half x.half 1
  else if o = 0x18 then half x.halfMask 0
  else if o = 0x1C then half x.halfMask 1
  else 0
def State.macReg64 (s : State) (p o : Nat) : Option Nat :=
  if p > 24 || (p < 24 && p ≥ s.portCount) then none else counterAt o 0x100 64 (s.pt p).counters

/-- PRS (R155). -/
def State.prsReg (s : State) (o : Nat) : Nat :=
  let p := (o - 0x1000) / 0x80
  if o = 0 then s.prsStatus
  else if 0x1000 ≤ o && p < s.portCount && (o - 0x1000) % 0x80 = 0 then s.prsPortCfg p
  else 0
def State.prsReg64 (s : State) (o : Nat) : Option Nat :=
  let p := (o - 0x1000) / 0x80
  if o < 0x1000 then firstSome [counterAt o 0x108 6 (s.pl.malformed.drop 1), counterAt o 0x188 4 (s.pl.slow.drop 1)]
  else if p < s.portCount then counterAt ((o - 0x1000) % 0x80) 0x40 8 (tget s.pl.counters p [0, 0, 0, 0, 0, 0, 0, 0])
  else none

/-- TBL (R177). -/
def State.tblReg (s : State) (o : Nat) : Nat :=
  let t := (o - 0x100) / 0x80
  let w := (o - 0x100) % 0x80
  let p := (o - 0x1000) / 0x40
  if o = 0 then s.tblStatus
  else if o = 0xC10 then s.pl.cur.spoutSeed
  else if 0x100 ≤ o && t < 16 then (if w < 0x10 then nth ((s.sweepTable t).tableWindow t) (w / 4) else 0)
  else if 0x1000 ≤ o && p < s.portCount && (o - 0x1000) % 0x40 = 0 then s.learnState p
  else 0
def State.tblReg64 (s : State) (o : Nat) : Option Nat :=
  let t := (o - 0x100) / 0x80
  let p := (o - 0x1000) / 0x40
  if o = 0xC00 then some s.pl.cacheHits
  else if o = 0xC08 then some s.pl.cacheMisses
  else if 0x100 ≤ o && t < 16 then counterAt ((o - 0x100) % 0x80) 0x20 9 (((s.sweepTable t).tableWindow t).drop 4)
  else if 0x1000 ≤ o && p < s.portCount && (o - 0x1000) % 0x40 = 8 then some (s.learnPort p).refused
  else none

/-- Whether the units of the frame path work: firmware runs, and Lockdown has not stopped them. (DEDUCED, unsafe: notes/assumptions/18.md) -/
def State.pathRuns (s : State) : Bool := s.firmware && s.glb.mode != .lockdown

/-- TM (R193). (DEDUCED, unsafe: notes/assumptions/18.md) -/
def State.tmReg (s : State) (o : Nat) : Nat :=
  let d := (o - 0x100) / 0x40
  let w := (o - 0x100) % 0x40
  let p := (o - 0x1000) / 0x40
  let v := (o - 0x1000) % 0x40
  if o = 0 then b2n s.pathRuns + 2 * b2n ((List.range 16).any (fun d => s.spillUsed d > 0))
  else if o = 4 then s.sharedKib
  else if o = 8 then ceilDiv (((List.range 16).map s.cellsUsed).sum) 4
  else if 0x100 ≤ o && d < 16 then (if w < 0x10 then nth (s.tmWindow d) (w / 4) else 0)
  else if o < 0x1000 || p ≥ s.portCount then 0
  else if v = 0 then s.ingRes p + 65536 * s.spoutRes p
  else if v = 4 then tget s.tm.defPrio p 0
  else if 8 ≤ v && v < 0x28 then nth (s.pt p).held ((v - 8) / 4)
  else 0

/-- SLU (R207). (DEDUCED, unsafe: notes/assumptions/18.md) -/
def State.sluReg (s : State) (o : Nat) : Nat :=
  let d := (o - 0x100) / 0x10
  let p := (o - 0x1000) / 0x80
  let w := (o - 0x1000) % 0x80
  if o = 0 then b2n s.pathRuns + 65536 * s.slu.store.length
  else if 0x100 ≤ o && d < 16 then (if o % 0x10 = 0 then s.sluDom d else 0)
  else if o < 0x1000 || p ≥ s.portCount then 0
  else if w = 0 then (s.sluPort p).comp / 65536
  else if w = 4 then (s.sluPort p).comp % 65536
  else if w = 8 then s.sluPhase p
  else 0
/-- The 64-bit registers of the block (R207). -/
def State.sluReg64 (s : State) (o : Nat) : Option Nat :=
  let p := (o - 0x1000) / 0x80
  let w := (o - 0x1000) % 0x80
  if o < 0x1000 || p ≥ s.portCount then none
  else if w = 0x10 then some (s.nextMarker p)
  else counterAt w 0x40 8 (s.sluPort p).counters

/-- The window of a core that is there. -/
def State.pmpCore (s : State) (o : Nat) : Option Nat :=
  let c := (o - 0x1000) / 0x80
  if o < 0x1000 then none else if c < s.coreCount || (96 ≤ c && c < 100) then some c else none
/-- PMP (R234). -/
def State.pmpReg (s : State) (o : Nat) : Nat :=
  if o = 0 then s.pmpSummary
  else match s.pmpCore o with
    | none => 0
    | some c => if (o - 0x1000) % 0x80 = 0 then s.pmpCoreState c else if (o - 0x1000) % 0x80 = 4 then s.pmpThreads c else 0
def State.pmpReg64 (s : State) (o : Nat) : Option Nat :=
  match s.pmpCore o with
  | none => none
  | some c => firstSome [counterAt ((o - 0x1000) % 0x80) 8 3 ((s.coreWindow c).drop 2), counterAt ((o - 0x1000) % 0x80) 0x40 8 (s.core c).counters]

/-- DMA (R284). -/
def State.dmaReg (s : State) (o : Nat) : Nat :=
  let c := (o - 0x100) / 0x40
  if o = 0 then s.inFlight
  else if o < 0x100 || c > 63 then 0
  else if (o - 0x100) % 0x40 = 0 then s.chanCfgReg c
  else if (o - 0x100) % 0x40 = 4 then s.chanState c
  else 0
def State.dmaReg64 (s : State) (o : Nat) : Option Nat :=
  let c := (o - 0x100) / 0x40
  if o < 0x100 || c > 63 then none else counterAt ((o - 0x100) % 0x40) 0x10 5 (tget s.dma.chans c {}).counters

/-- RING_CFG, RING_IRQ and RING_STATE of a ring (R271). -/
def Ring.cfgReg (r : Ring) : Nat := b2n r.enable + 2 * r.kind + 8 * r.log2 + 256 * r.engine + 4096 * b2n r.rcEvery + 65536 * r.cq
def Ring.irqReg (r : Ring) : Nat := r.vector + 65536 * r.mod
def Ring.stateReg (r : Ring) : Nat :=
  r.dev % 65536 + 65536 * r.sump.length + 2 ^ 23 * b2n r.fullStop + 2 ^ 24 * b2n r.sumpFull + 2 ^ 25 * b2n r.cfgRefused
/-- RING of a function (R271). -/
def State.ringReg (s : State) (f o : Nat) : Nat :=
  let x := s.ringFn f
  let r := s.ring (rkey f ((o - 0x8000) / 0x20))
  let w := (o - 0x8000) % 0x20
  let h := x.haltEntry + 2 ^ 32 * x.haltRing + 2 ^ 42 * x.haltReason + 2 ^ 46 * x.haltSub
  if o = 0 then 0x14
  else if o = 4 then x.offer
  else if o = 8 then x.agreed + 256 * b2n x.noCommon
  else if o = 0xC then s.fnLimit f
  else if o = 0x10 then half h 0
  else if o = 0x14 then half h 1
  else if o < 0x8000 then 0
  else if w = 0 then half r.base 0
  else if w = 4 then half r.base 1
  else if w = 8 then half r.idxAddr 0
  else if w = 0xC then half r.idxAddr 1
  else if w = 0x10 then r.cfgReg
  else if w = 0x14 then r.irqReg
  else if w = 0x18 then r.stateReg
  else 0

/-- PCIE (R332). -/
def State.pcieReg (s : State) (o : Nat) : Nat :=
  let p := (o - 0x8000) / 0x400
  if o = 0 then nth s.linkRegs 0
  else if o = 4 then nth s.linkRegs 1
  else if o = 0x10 then s.frozenReg
  else if o = 0x14 then s.tagsReg
  else if 0x8000 ≤ o && p < 8 then (s.win (p * 4096) ((o - 0x8000) % 0x400 / 0x10)).word ((o - 0x8000) % 0x10 / 4)
  else 0

/-- RDMA (R365). -/
def State.rdmaReg (s : State) (o : Nat) : Nat :=
  let d := (o - 0x100) / 0x40
  let w := (o - 0x100) % 0x40
  if o = 0 then s.rdma.qps.length
  else if o = 4 then s.rdma.quietLog
  else if o = 8 then s.rdma.mrs.length
  else if 0x100 ≤ o && d < 16 && w < 0x18 then nth (s.rdmaWindow d) (w / 4)
  else 0

/-- SEC (R382). -/
def State.secReg (s : State) (o : Nat) : Nat :=
  let p := (o - 0x1000) / 0x80
  if o = 0 then ((List.range 16).map s.keysUsed).sum + 2 ^ 15 + 65536 * s.sec.esp.length
  else if 0x1000 ≤ o && p < s.portCount && (o - 0x1000) % 0x80 = 0 then (s.ms p).reg
  else 0
def State.secReg64 (s : State) (o : Nat) : Option Nat :=
  let p := (o - 0x1000) / 0x80
  if o < 0x1000 then counterAt o 0x800 5 s.sec.counters
  else if p < s.portCount then counterAt ((o - 0x1000) % 0x80) 0x40 7 (s.ms p).counters
  else none

/-- MEM (R459). -/
def State.memReg (s : State) (o : Nat) : Nat :=
  if o = 0 then s.memStatus else if o = 4 then s.memScrub else if o = 0x10 then s.memRetired else 0
def State.memReg64 (s : State) (o : Nat) : Option Nat :=
  let st := (o - 0x100) / 0x40
  let d := (o - 0x800) / 0x10
  if o = 8 then some s.mem.lastUe
  else if 0x100 ≤ o && o < 0x200 then (if st < s.stackCount then counterAt ((o - 0x100) % 0x40) 0 5 (s.stackCounters st) else none)
  else if 0x800 ≤ o && d < 16 then counterAt ((o - 0x800) % 0x10) 0 2 (s.memDoms d)
  else counterAt o 0x200 4 s.mem.sram

/-- BOOT (R444). -/
def State.bootReg (s : State) (o : Nat) : Nat := if o % 4 = 0 && o ≤ 0x10 then nth s.bootRegs (o / 4) else 0
def State.bootReg64 (s : State) (o : Nat) : Option Nat := counterAt o 0x18 2 (s.bootRegs.drop 5)

/-- DBG (R476). -/
def State.dbgReg (s : State) (o : Nat) : Nat :=
  if o = 0 then s.dbgStatus
  else if o = 4 then half s.dbgRights 0
  else if o = 8 then half s.dbgRights 1
  else if o = 0xC then 0x1246056F
  else 0

/-- RM (R308). -/
def State.rmReg (s : State) (o : Nat) : Nat :=
  let d := (o - 0x1000) / 0x100
  let w := (o - 0x1000) % 0x100
  if o = 0 then s.pagesTotal
  else if o = 4 then s.freePages
  else if 0x1000 ≤ o && d < 16 && w < 0x20 then nth (s.rmWindow d) (w / 4)
  else 0
def State.rmReg64 (s : State) (o : Nat) : Option Nat :=
  let d := (o - 0x1000) / 0x100
  if o < 0x1000 || d > 15 then none else counterAt ((o - 0x1000) % 0x100) 0x40 12 ((s.rmWindow d).drop 8)

/-! The whole map (R20-R22). -/

/-- A 64-bit register, at the offset of its lower half, that latches its upper half. -/
def State.reg64 (s : State) (f off : Nat) : Option Nat :=
  let o := off % 65536
  let b := off / 65536
  if b = 0xE then counterAt o 0x100 5 (s.ringFn f).counters
  else if f ≠ 0 then none
  else match b with
    | 0x3 => s.whReg64 (o / 0x400) (o % 0x400)
    | 0x4 => s.ledgReg64 o
    | 0x5 => s.macReg64 ((off - 0x50000) / 0x1000) (off % 0x1000)
    | 0x6 => s.macReg64 ((off - 0x50000) / 0x1000) (off % 0x1000)
    | 0x8 => s.prsReg64 o
    | 0x9 => s.tblReg64 o
    | 0xA => counterAt o 0xC00 8 s.tm.counters
    | 0xB => s.sluReg64 o
    | 0xC => s.pmpReg64 o
    | 0xD => s.dmaReg64 o
    | 0xF => counterAt o 0x100 8 s.pcie.counters
    | 0x10 => counterAt o 0x800 16 s.rdma.counters
    | 0x11 => s.secReg64 o
    | 0x12 => s.memReg64 o
    | 0x13 => s.bootReg64 o
    | 0x14 => counterAt o 0x100 6 s.dbg.counters
    | 0x15 => s.rmReg64 o
    | _ => none

/-- Every other 32-bit word: zero where nothing is implemented. -/
def State.reg32 (s : State) (f off : Nat) : Nat :=
  let o := off % 65536
  let b := off / 65536
  if b = 0 then s.glbReg f o
  else if b = 0xE then s.ringReg f o
  else if f ≠ 0 then 0
  else match b with
    | 0x1 => s.fuseReg o
    | 0x2 => s.tbReg o
    | 0x3 => s.whReg (o / 0x400) (o % 0x400)
    | 0x4 => s.ledgReg o
    | 0x5 => s.macReg ((off - 0x50000) / 0x1000) (off % 0x1000)
    | 0x6 => s.macReg ((off - 0x50000) / 0x1000) (off % 0x1000)
    | 0x8 => s.prsReg o
    | 0x9 => s.tblReg o
    | 0xA => s.tmReg o
    | 0xB => s.sluReg o
    | 0xC => s.pmpReg o
    | 0xD => s.dmaReg o
    | 0xF => s.pcieReg o
    | 0x10 => s.rdmaReg o
    | 0x11 => s.secReg o
    | 0x12 => s.memReg o
    | 0x13 => s.bootReg o
    | 0x14 => s.dbgReg o
    | 0x15 => s.rmReg o
    | _ => 0

/-- The registers of the recovery function (R438); REC_STATUS shows the reason of a BEGIN refused on this path.
(DEDUCED, unsafe: notes/assumptions/17.md) -/
def State.recReg (s : State) (off : Nat) : Nat :=
  let b := s.boot
  if off = 0 then s.glbId
  else if off = 4 then s.glbMode
  else if off = 0x100 then 0x10
  else if off = 0x104 then b.recOffer
  else if off = 0x108 then b.recAgreed
  else if off = 0x114 then b.recLen
  else if off = 0x118 then b.recOffset
  else if off = 0x11C then s.recStatus (if b.recRefused then 14 else b.recFail)
  else if off = 0x120 then b.slotA.lastFail + 16 * b.slotA.failBlock
  else if off = 0x124 then b.slotB.lastFail + 16 * b.slotB.failBlock
  else if off = 0x128 then b.cycle % 65536
  else 0

/-- Where a function keeps what a read has latched of one of its registers (R12, R47). (DEDUCED, unsafe: notes/assumptions/16.md) -/
def latchKey (f off : Nat) : Nat := f * 2 ^ 24 + off

/-- A read of one aligned word of a function's control BAR: its value, and what it latches (R12, R47, R79).
(DEDUCED, unsafe: notes/assumptions/16.md) -/
def State.readWord (s : State) (f off : Nat) : Nat × State :=
  let old := tget s.tb.latch f (0, 0, 0)
  if off = 0x20000 then
    (nsOf s.now % 2 ^ 32, { s with tb.latch := tset s.tb.latch f (nsOf s.now / 2 ^ 32, fracOf s.now, s.quality) })
  else if off = 0x20004 then (old.1, s)
  else if off = 0x20008 then (old.2.1 + 65536 * old.2.2, s)
  else match s.reg64 f off with
    | some v =>
      let fq := if off / 65536 = 3 then s.whFq (off % 65536 / 0x400) (off % 0x400) else 0
      (v % 2 ^ 32, { s with tb.latch64 := tset s.tb.latch64 (latchKey f off) (v / 2 ^ 32 % 2 ^ 32 + 2 ^ 32 * fq) })
    | none =>
      if off / 65536 = 3 && f = 0 && (off % 0x400 = 0x48 || off % 0x400 = 0x58) then (tget s.tb.latch64 (latchKey f (off - 8)) 0 / 2 ^ 32, s)
      else if off ≥ 4 && (s.reg64 f (off - 4)).isSome then (tget s.tb.latch64 (latchKey f (off - 4)) 0 % 2 ^ 32, s)
      else (s.reg32 f off, s)

/-- A word as the phase and the function's state let it be read (R31, R318, R438). (DEDUCED, unsafe: notes/assumptions/17.md) -/
def State.readPhase (s : State) (f off : Nat) : Nat × State :=
  if s.glb.mode = .recovery then (s.recReg off, s)
  else if s.glb.mode = .boot && f = 0 then
    (if off = 0 || off = 4 || off = 8 || off / 65536 = 0x13 then s.readWord f off else (0, s))
  else if s.glb.mode = .boot || (s.fn f).inReset then (if off = 0 || off = 8 then s.readWord f off else (0, s))
  else s.readWord f off

/-- A function's Device ID and class code (R313). -/
def State.deviceId (s : State) (f : Nat) : Nat :=
  if isVf f then 0x2469 else if pfOf f ≠ 0 then 0x2468 else if s.glb.mode = .recovery then 0x246F else 0x2460
def State.classCode (s : State) (f : Nat) : Nat :=
  if s.glb.mode = .recovery then 0xFF0000
  else if pfOf f = 0 then 0x0B4000
  else match mapField s.fuse.live (0x308 + pfOf f) 1 5 4 with
    | 0 => 0x020000
    | 1 => 0x010802
    | _ => 0x120000

/-- A word of a function's configuration space that R313 gives, at its place in the PCI header; what the others read is not in the spec.
(PRESUMED, unsafe: notes/assumptions/180.md) -/
def State.cfgWord (s : State) (f o : Nat) : Option Nat :=
  if o = 0 then some (0x1D5F + 65536 * s.deviceId f)
  else if o = 8 then some (0x10 + 256 * s.classCode f)
  else if o = 0x2C then some (s.fuse.subsysVendor + 65536 * s.fuse.subsysId) else none

/-- A read of a function's configuration space (R313, R315). (PRESUMED, unsafe: notes/assumptions/180.md) -/
def State.cfgRead (s : State) (f off n : Nat) : State :=
  if !s.cfgOpen f || n > 4 then s
  else match s.cfgWord f (off / 4 * 4) with
    | some v => s.emit (.value f (2 ^ 32 + off) (v / 2 ^ (8 * (off % 4)) % 2 ^ (8 * n)))
    | none => s.used.emit (.value f (2 ^ 32 + off) (s.freeBits (8 * n)))

/-- Bytes of a function's control BAR (R20, R22, R438). -/
def State.barSize (s : State) (f : Nat) : Nat := if f = 0 && s.glb.mode != .recovery then 2 ^ 21 else 2 ^ 20

/-- A read of `n` bytes at an offset, `n` 1, 2, 4 or 8 and naturally aligned (R12). (DESIGN CHOICE, safe: notes/assumptions/15.md) -/
def State.readBytes (s : State) (f off n : Nat) : Nat × State :=
  let a := off / 4 * 4
  let lo := s.readPhase f a
  if n = 8 then
    let hi := lo.2.readPhase f (a + 4)
    (lo.1 + 2 ^ 32 * hi.1, hi.2)
  else (lo.1 / 2 ^ (8 * (off - a)) % 2 ^ (8 * n), lo.2)

end Sys2Proof.Machine
end

