-- ==== Sys2Proof/Machine/Registers.lean ====
section
/-! DEFINITION. Reads and writes of registers (R12-R15, R47, R318, R467): the rows for registers without a row of their own. -/
namespace Sys2Proof.Machine

/-- A function's control BAR is asked (R315, R318): the link is up and the function presented; in Recovery only function 0.
(DEDUCED, unsafe: notes/assumptions/17.md) -/
def State.asked (s : State) (f : Nat) : Bool := (s.linkOf f).up && s.fnExists f && (s.glb.mode != .recovery || f == 0)

/-- A read of a control BAR by the host (R12, R318): answered with UR while Memory Space Enable is 0, in D3hot, in Lockdown on a
function other than PF0, and where it is larger than 8 bytes. -/
def State.barRead (s : State) (f off n : Nat) : State :=
  if !s.asked f then s
  else if !(s.pfn f).mse || (s.pfn f).d3 || (s.glb.mode = .lockdown && f ≠ 0) || n > 8 then (s.pcieCount 5).emit (.readData [] false false)
  else
    let r := s.readBytes f (off % s.barSize f) n
    r.2.emit (.value f off r.1)

/-- TB_NOW_LO_READ (R46, R47): the low count, with the rest latched for the reading function. -/
def execTbNowLoRead (dt fn : Nat) (s : State) : Out := s.run dt fun s => s.barRead fn 0x20000 4

/-- LATCHING_LO_READ (R12): the lower half of a 64-bit register is read and latches the upper half and its companion fields. From 2^32 on the
row's offset is that of configuration space, whose reads have no row of their own.
(DESIGN CHOICE, safe: notes/assumptions/15.md; PRESUMED, unsafe: notes/assumptions/180.md) -/
def execLatchingLoRead (dt fn off n : Nat) (s : State) : Out := s.run dt fun s =>
  if off ≥ 2 ^ 32 then s.cfgRead fn (off - 2 ^ 32) n else s.barRead fn off n

/-- CSR_READ (R467, R468): PF0's control BAR, or in Recovery the recovery function's. (DESIGN CHOICE, unsafe: notes/assumptions/152.md) -/
def execCsrRead (dt seq : Nat) (crc : Bool) (f : List Nat) (s : State) : Out := s.run dt fun s =>
  s.wlRun 0x04 seq crc f true (f.length == 1 && nth f 0 % 4 == 0) fun s =>
    if !s.debugOpen 0 0 then s.wlNoRight
    else if nth f 0 ≥ s.barSize 0 then (2, [3], s)
    else
      let r := s.readPhase 0 (nth f 0)
      (0, [r.1], r.2)

/-! Writes (R13, R15). -/

/-- A W1C register: the bits written as 1 are cleared. -/
def w1c (old v : Nat) : Nat := old - (old &&& v)

/-- The word of half `h` put into a 64-bit value. -/
def putHalf (old h v : Nat) : Nat := if h = 0 then old / 2 ^ 32 * 2 ^ 32 + v else old % 2 ^ 32 + v * 2 ^ 32

/-- A write of a word of GLB (R28, R317, R499). -/
def State.writeGlb (s : State) (f o v : Nat) : State :=
  if 0x8000 ≤ o && o < 0x8000 + fnVectors f * 16 then
    let x := s.pfn f
    let i := (o - 0x8000) / 4
    (s.setPfn f { x with msix := tset x.msix i (if i % 4 = 3 then v % 2 else v) }).sendPending f
  else if f ≠ 0 then s
  else if o = 0x20 then (if v % 65536 = 0 then s else { s with glb.wdogPeriod := v % 65536 })
  else if o = 0x24 then s.feedWdog (v % 65536)
  else if o = 0x28 then { s with glb.expired := s.glb.expired && !v.testBit 2 }
  else if o = 0x50 then { s with pw.tripSeen := s.pw.tripSeen && !v.testBit 17 }
  else s

/-- A write of a word of a MAC (R126). -/
def State.writeMac (s : State) (p o v : Nat) : State :=
  let x := s.pt p
  if p > 24 || (p < 24 && p ≥ s.portCount) then s
  else if o = 0x10 then s.setPt p { x with half := w1c x.half v }
  else if o = 0x14 then s.setPt p { x with half := w1c x.half (v * 2 ^ 32) }
  else if o = 0x18 then s.setPt p { x with halfMask := putHalf x.halfMask 0 v }
  else if o = 0x1C then s.setPt p { x with halfMask := putHalf x.halfMask 1 v }
  else s

/-- A write of a word of RING (R271): the fields of a ring take writes only while it is not enabled. -/
def State.writeRing (s : State) (f o v : Nat) : State :=
  let n := (o - 0x8000) / 0x20
  let k := rkey f n
  let r := s.ring k
  let w := (o - 0x8000) % 0x20
  if o = 4 then s.ringOfferWrite f v
  else if o < 0x8000 then s
  else if w = 0x10 then s.ringCfgWrite f n v
  else if r.enable then s
  else if w = 0 then s.setRing k { r with base := putHalf r.base 0 (v / 4096 * 4096) }
  else if w = 4 then s.setRing k { r with base := putHalf r.base 1 v }
  else if w = 8 then s.setRing k { r with idxAddr := putHalf r.idxAddr 0 (v / 8 * 8) }
  else if w = 0xC then s.setRing k { r with idxAddr := putHalf r.idxAddr 1 v }
  else if w = 0x14 then s.setRing k { r with vector := bits v 10 0, mod := bits v 26 16 }
  else s

/-- A write of a word of PCIE (R332): the window tables of the PFs. -/
def State.writePcie (s : State) (o v : Nat) : State :=
  let p := (o - 0x8000) / 0x400
  let e := (o - 0x8000) % 0x400 / 0x10
  let w := (o - 0x8000) % 0x10 / 4
  if o < 0x8000 || p > 7 then s else if w = 3 then s.winCtrlWrite p e v else s.winWordWrite p e w v

/-- A write of a word of the recovery function (R438); `REC_CMD` and the data window have rows of their own. -/
def State.writeRec (s : State) (off v : Nat) : State :=
  if off = 0x104 then { s with boot.recOffer := v % 4096, boot.recAgreed := recAgree v }
  else if off = 0x114 then { s with boot.recLen := v }
  else if off = 0x118 then { s with boot.recOffset := v }
  else s

/-- A write of one aligned word of a function's control BAR. -/
def State.writeWord (s : State) (f off v : Nat) : State :=
  let o := off % 65536
  match off / 65536 with
  | 0x0 => s.writeGlb f o v
  | 0xE => s.writeRing f o v
  | b =>
    if f ≠ 0 then s
    else if b = 0x5 || b = 0x6 then s.writeMac ((off - 0x50000) / 0x1000) (off % 0x1000) v
    else if b = 0x8 then (if 0x1000 ≤ o && (o - 0x1000) % 0x80 = 0 then s.spoutEnWrite ((o - 0x1000) / 0x80) (v.testBit 0) else s)
    else if b = 0xF then s.writePcie o v
    else s

/-- A write of a control BAR by the host (R12, R318): discarded where it is narrower than a word or larger than 8 bytes.
(DESIGN CHOICE, safe: notes/assumptions/15.md) -/
def State.barWrite (s : State) (f off n v : Nat) : State :=
  if n ≠ 4 && n ≠ 8 then s
  else if s.glb.mode = .recovery then (if f = 0 && s.recOpen then s.writeRec (off % 2 ^ 20) (v % 2 ^ 32) else s)
  else if !s.barOpen f then s
  else
    let s1 := s.writeWord f (off % s.barSize f) (v % 2 ^ 32)
    if n = 8 then s1.writeWord f (off % s.barSize f + 4) (v / 2 ^ 32 % 2 ^ 32) else s1

/-- A write of a field of configuration space that has no row of its own, as the model numbers them: 0 Memory Space Enable, 1 Expansion
ROM Enable, 2 window BAR size as a power of two of 4 MiB, 3 that of the VFs, 4 ASPM L1 Enable, 5 L0p Enable, 6 MSI-X Enable, 7 MSI-X
Function Mask, 8 10-Bit Tag Requester Enable (R316, R317, R323, R324, R330). (DESIGN CHOICE, unsafe: notes/assumptions/100.md) -/
def State.cfgWrite (s : State) (f field v : Nat) : State :=
  let x := s.pfn f
  let on := v.testBit 0
  let l := s.linkOf f
  if !s.cfgOpen f then s
  else if field = 0 then s.setPfn f { x with mse := on }
  else if field = 1 then (if f = 0 then s.setPfn f { x with romEn := on } else s)
  else if field = 2 then (if !isVf f && v ≤ 14 && 2 ^ (22 + v) ≤ x.winMax then s.setPfn f { x with winSize := some (2 ^ (22 + v)) } else s)
  else if field = 3 then (if !isVf f && v ≤ 14 && 2 ^ (22 + v) ≤ x.winMax then s.setPfn f { x with vfWin := some (2 ^ (22 + v)) } else s)
  else if field = 4 then s.setLink (s.onB f) { l with aspm := on }
  else if field = 5 then s.setLink (s.onB f) { l with l0p := on }
  else if field = 6 then (s.setPfn f { x with msixOn := on }).sendPending f
  else if field = 7 then (s.setPfn f { x with msixMask := on }).sendPending f
  else if field = 8 then s.setPfn f { x with tag10 := on }
  else s

/-- REGISTER_WRITE (R13, R15). (DESIGN CHOICE, safe: notes/assumptions/15.md) -/
def execRegisterWrite (dt space fn off n value : Nat) (s : State) : Out := s.runFree dt fun s =>
  if space = 0 then s.barWrite fn off n value else s.cfgWrite fn off value

end Sys2Proof.Machine
end

