-- ==== Sys2Proof/Machine/Storage.lean ====
section
/-! DEFINITION. The storage commands of group 0x0A and the start of a Flush (R371-R373), and the instant c of a storage or security change
(R383). -/
namespace Sys2Proof.Machine

/-- STORAGE_FLUSH_START (R373): every Flush that may start does. (DEDUCED, unsafe: notes/assumptions/119.md) -/
def execStorageFlushStart (dt : Nat) (s : State) : Out := s.run dt fun s =>
  if !s.rdmaOn then s
  else (s.stor.cmds.filter s.flushReady).foldl (fun (s : State) (c : StCmd) =>
    let c1 := { c with won := true }
    let s1 := s.setCmd c1
    let st := s1.cmdCheck c1
    let s2 := if st ≠ 0 then s1.cmdEnd c1 st
      else match s1.ns? c1.ns with
        | some n => (s1.postCmd c1 n).settle
        | none => s1
    s2.cmdNext 64) s

/-- Whether a function is a storage function (R313, R368): the `PROFILE` of its PF is 1. -/
def State.isStorage (s : State) (f : Nat) : Bool := pfOf f != 0 && mapField s.fuse.live (0x308 + pfOf f) 1 5 4 == 1

/-- The number of an attribute of R343 at place `i` of a target's list (R371). -/
def targetAttrs (l : List Nat) : List (Nat × Nat) := (0, nth l 0) :: (List.range 20).map (fun i => (i + 2, nth l (i + 3)))

/-- A target as its 25 values name it: port, queue, receive queue, the attributes of R343 from `DEST_QPN` on, key and base address.
(DESIGN CHOICE, unsafe: notes/assumptions/118.md) -/
def targetOf (l : List Nat) : NsTarget :=
  { queue := nth l 1, rxQueue := nth l 2, attr := (targetAttrs l).foldl (fun x a => x.put a.1 a.2) {}, rkey := nth l 23, va := nth l 24 }

/-- A value of a target outside its range. -/
def targetBad (l : List Nat) : Bool :=
  l.length != 25 || (targetAttrs l).any (fun a => attrBad a.1 a.2) || nth l 1 ≥ 32768 || nth l 2 ≥ 32768 || nth l 23 ≥ 2 ^ 32 || nth l 24 ≥ 2 ^ 64

/-- A target whose port or queues are not the domain's. -/
def State.targetForeign (s : State) (d : Nat) (l : List Nat) : Bool :=
  nth l 0 ≥ s.portCount || !s.portIn (nth l 0) d || s.queueDom (nth l 1) != some d || (s.queue (nth l 1)).cfg.kind != 1
    || s.queueDom (nth l 2) != some d || (s.queue (nth l 2)).cfg.kind != 2

/-- Keys of the namespaces created and to be created by accepted commands. -/
def State.nsTaken (s : State) : List Nat := s.stor.nss.map (fun (x : Nat × Ns) => x.1) ++ s.sec.pend.filterMap (fun x => match x.op with
  | .nsCreate k _ => some k
  | _ => none)

/-- NS_CREATE (R368, R371, R383). -/
def execNsCreate (dt : Nat) (path : Path) (func id blk cap : Nat) (targets : List (List Nat)) (s : State) : Out := s.run dt fun s =>
  s.tosenRun path 0x0A40 (5 + 26 * targets.length) (func ≥ 2 ^ 25) (s.funcPerm func) fun s _ =>
    let f := fnOf func
    let d := s.fnDom f
    if !s.isStorage f || id < 1 || id > 64 || !(blk == 512 || blk == 4096) || cap > 2 ^ 40 || targets.isEmpty || targets.length > 3 || targets.any targetBad
    then s.deny 0x03000110
    else if s.nsTaken.contains (nsKey f id) || s.nsTaken.length ≥ 1024 then s.deny 0x02000111
    else if targets.any (s.targetForeign d) then s.deny 0x02000112
    else s.secLater path 0x0A40 (.nsCreate (nsKey f id) { blk := blk, cap := cap, targets := targets.map targetOf }) []

/-- NS_TARGET_SET (R372, R383). (DESIGN CHOICE, unsafe: notes/assumptions/118.md) -/
def execNsTargetSet (dt : Nat) (path : Path) (func id target : Nat) (attrs : List Nat) (s : State) : Out := s.run dt fun s =>
  s.tosenRun path 0x0A41 29 (func ≥ 2 ^ 25) (s.funcPerm func) fun s _ =>
    let f := fnOf func
    let k := nsKey f id
    match (s.ns? k).bind (fun n => n.targets[target]?) with
    | none => s.deny 0x03000110
    | some t =>
      if id < 1 || id > 64 || targetBad attrs then s.deny 0x03000110
      else if t.online then s.deny 0x02000113
      else if s.targetForeign (s.fnDom f) attrs then s.deny 0x02000112
      else s.secLater path 0x0A41 (.nsTarget k target (targetOf attrs)) []

/-- NS_DELETE (R372, R383): of an ID that has none, success. -/
def execNsDelete (dt : Nat) (path : Path) (func id : Nat) (s : State) : Out := s.run dt fun s =>
  s.tosenRun path 0x0A42 2 (func ≥ 2 ^ 25 || id ≥ 256) (s.funcPerm func) fun s _ =>
    if id < 1 || id > 64 then s.deny 0x03000110 else s.secLater path 0x0A42 (.nsDelete (nsKey (fnOf func) id)) []

/-- NS_STATUS (R383): the state, and of each target whether it is online, its queue pair, requests and failures; 0xFF of an ID that has none.
(DESIGN CHOICE, unsafe: notes/assumptions/118.md) -/
def execNsStatus (dt : Nat) (path : Path) (func id : Nat) (s : State) : Out := s.run dt fun s =>
  s.tosenRun path 0x0A43 2 (func ≥ 2 ^ 25 || id ≥ 256) (s.funcPerm func) fun s _ =>
    if id < 1 || id > 64 then s.deny 0x03000110
    else match s.ns? (nsKey (fnOf func) id) with
      | none => s.ok [0xFF]
      | some n => s.ok (n.state :: n.targets.flatMap (fun t => [b2n t.online, t.qp, t.requests, t.failures]))

/-- A storage queue pair created for a target and brought to `RTS` (R371), where the domain's range has a number. -/
def State.targetUp (s : State) (key i : Nat) (t : NsTarget) : Option (NsTarget × State) :=
  let f := nsFn key
  match s.newQpn (s.fnDom f) with
  | .error _ => none
  | .ok n =>
    let q : Qp := { fn := f, dom := s.fnDom f, storage := some (key, i), queue := t.queue, attr := t.attr }
    some ({ t with online := true, qp := n }, s.newQp n q.start)

/-- The targets of a new namespace, one after another; none where a number is lacking. -/
def State.targetsUp (s : State) (key : Nat) : Nat → List NsTarget → Option (List NsTarget × State)
  | _, [] => some ([], s)
  | i, t :: r => match s.targetUp key i t with
    | none => none
    | some (t1, s1) => match s1.targetsUp key (i + 1) r with
      | none => none
      | some (l, s2) => some (t1 :: l, s2)

/-- A namespace created (R372): `READY` once every queue pair has reached `RTS`; the status of its reply.
(DESIGN CHOICE, unsafe: notes/assumptions/118.md) -/
def State.nsUp (s : State) (key : Nat) (v : Ns) : Nat × State :=
  if (s.ns? key).isSome then (0x02000111, s)
  else match s.targetsUp key 0 v.targets with
    | none => (0x02000111, s)
    | some (l, s1) => (0, (s1.setNs key { v with state := 1, targets := l }).storEvent key 1 0)

/-- A target restored (R372): its queue pair keeps its number and starts afresh with the new attributes. -/
def State.nsRestore (s : State) (key i : Nat) (v : NsTarget) : Nat × State :=
  match s.ns? key with
  | none => (0x03000110, s)
  | some n => match n.targets[i]? with
    | none => (0x03000110, s)
    | some t =>
      if t.online then (0x02000113, s)
      else
        let s1 := s.haltQp t.qp .reset 0x21
        match s1.qp? t.qp with
        | none => (0x03000110, s)
        | some q =>
          let s2 := s1.setQp t.qp { q with queue := v.queue, attr := v.attr }.start
          let l := n.targets.set i { v with online := true, qp := t.qp, requests := t.requests, failures := t.failures }
          let all := l.all (fun x => x.online)
          let s3 := s2.setNs key { n with state := if all then 1 else n.state, targets := l }
          (0, if all || n.state = 2 then s3.storEvent key 1 i else s3)

/-- SECURITY_CHANGE_COMMIT (R383): the oldest change accepted takes effect, and its command is answered. -/
def execSecurityChangeCommit (dt : Nat) (s : State) : Out := s.run dt fun s =>
  match s.sec.pend with
  | [] => s
  | p :: rest =>
    let s0 : State := { s with sec.pend := rest }
    let r := match p.op with
      | .nsCreate k v => s0.nsUp k v
      | .nsTarget k i v => s0.nsRestore k i v
      | .nsDelete k => (0, s0.dropNs k)
      | op => (0, s0.applySec op)
    r.2.tosenLater p.path p.opcode r.1 (if r.1 = 0 then p.reply else [])

end Sys2Proof.Machine
end

