-- ==== Sys2Proof/Machine/Dispatch.lean ====
section
/-! DEFINITION. One arm per command of the opcode table, each a direct call of its meaning. -/
namespace Sys2Proof.Machine

/-- What a command does to everything but the queue. -/
def exec (i : Instr) (s : State) : Host.Outcome State Fault Refusal :=
  match i with
  | .pwrGoodFall dt => Sys2Proof.Machine.execPwrGoodFall dt s
  | .pwrGoodRise dt => Sys2Proof.Machine.execPwrGoodRise dt s
  | .perstNAssert dt low => Sys2Proof.Machine.execPerstNAssert dt low s
  | .perstNRelease dt => Sys2Proof.Machine.execPerstNRelease dt s
  | .resetNAssert dt low => Sys2Proof.Machine.execResetNAssert dt low s
  | .resetNRelease dt => Sys2Proof.Machine.execResetNRelease dt s
  | .vddAuxUp dt => Sys2Proof.Machine.execVddAuxUp dt s
  | .vddAuxLoss dt => Sys2Proof.Machine.execVddAuxLoss dt s
  | .refCoreLoss dt => Sys2Proof.Machine.execRefCoreLoss dt s
  | .resetCloseTimeout dt => Sys2Proof.Machine.execResetCloseTimeout dt s
  | .thermAssert dt tj => Sys2Proof.Machine.execThermAssert dt tj s
  | .thermRelease dt tj => Sys2Proof.Machine.execThermRelease dt tj s
  | .thermalCritical dt tj => Sys2Proof.Machine.execThermalCritical dt tj s
  | .thermalTrip dt tj => Sys2Proof.Machine.execThermalTrip dt tj s
  | .i2cWrite dt data => Sys2Proof.Machine.execI2cWrite dt data s
  | .bootRomStart dt flash => Sys2Proof.Machine.execBootRomStart dt flash s
  | .bootBlockLanded dt status data => Sys2Proof.Machine.execBootBlockLanded dt status data s
  | .recoveryWindowEnd dt flash => Sys2Proof.Machine.execRecoveryWindowEnd dt flash s
  | .recVerOfferWrite dt value => Sys2Proof.Machine.execRecVerOfferWrite dt value s
  | .recBegin dt mp len => Sys2Proof.Machine.execRecBegin dt mp len s
  | .recChunk dt mp off n data => Sys2Proof.Machine.execRecChunk dt mp off n data s
  | .recFinish dt mp persist => Sys2Proof.Machine.execRecFinish dt mp persist s
  | .recFlashWriteDone dt good => Sys2Proof.Machine.execRecFlashWriteDone dt good s
  | .recAbort dt mp => Sys2Proof.Machine.execRecAbort dt mp s
  | .recStatusRequest dt mac ver => Sys2Proof.Machine.execRecStatusRequest dt mac ver s
  | .recDataWindowWrite dt off data early => Sys2Proof.Machine.execRecDataWindowWrite dt off data early s
  | .recTransferTimeout dt => Sys2Proof.Machine.execRecTransferTimeout dt s
  | .modeQuery dt path => Sys2Proof.Machine.execModeQuery dt path s
  | .enterService dt path accept => Sys2Proof.Machine.execEnterService dt path accept s
  | .enterDrain dt path limit => Sys2Proof.Machine.execEnterDrain dt path limit s
  | .resume dt path => Sys2Proof.Machine.execResume dt path s
  | .wdogConfig dt path period => Sys2Proof.Machine.execWdogConfig dt path period s
  | .readyQuery dt path func => Sys2Proof.Machine.execReadyQuery dt path func s
  | .watchdogFeed dt value => Sys2Proof.Machine.execWatchdogFeed dt value s
  | .watchdogExpiry dt => Sys2Proof.Machine.execWatchdogExpiry dt s
  | .drainWorkComplete dt => Sys2Proof.Machine.execDrainWorkComplete dt s
  | .drainLimitExpiry dt => Sys2Proof.Machine.execDrainLimitExpiry dt s
  | .drainTxStop dt => Sys2Proof.Machine.execDrainTxStop dt s
  | .drainChainClose dt => Sys2Proof.Machine.execDrainChainClose dt s
  | .lockdownChainClose dt => Sys2Proof.Machine.execLockdownChainClose dt s
  | .functionReady dt fn => Sys2Proof.Machine.execFunctionReady dt fn s
  | .tbNowLoRead dt fn => Sys2Proof.Machine.execTbNowLoRead dt fn s
  | .latchingLoRead dt fn off n => Sys2Proof.Machine.execLatchingLoRead dt fn off n s
  | .registerWrite dt space fn off n value => Sys2Proof.Machine.execRegisterWrite dt space fn off n value s
  | .ppsInEdge dt => Sys2Proof.Machine.execPpsInEdge dt s
  | .ref10mInLoss dt => Sys2Proof.Machine.execRef10mInLoss dt s
  | .synceLockLoss dt port lane => Sys2Proof.Machine.execSynceLockLoss dt port lane s
  | .todInMessage dt data => Sys2Proof.Machine.execTodInMessage dt data s
  | .ptpSyncReceived dt port domain seq twoStep origin rx => Sys2Proof.Machine.execPtpSyncReceived dt port domain seq twoStep origin rx s
  | .ptpFollowUpReceived dt port domain seq origin => Sys2Proof.Machine.execPtpFollowUpReceived dt port domain seq origin s
  | .ptpDelayReqReceived dt port domain seq rx => Sys2Proof.Machine.execPtpDelayReqReceived dt port domain seq rx s
  | .ptpDelayRespReceived dt port domain seq t4 => Sys2Proof.Machine.execPtpDelayRespReceived dt port domain seq t4 s
  | .ptpPdelayReqReceived dt port domain seq rx => Sys2Proof.Machine.execPtpPdelayReqReceived dt port domain seq rx s
  | .ptpPdelayRespReceived dt port domain seq t2 t3 rx => Sys2Proof.Machine.execPtpPdelayRespReceived dt port domain seq t2 t3 rx s
  | .ptpAnnounceReceived dt port domain grandmaster => Sys2Proof.Machine.execPtpAnnounceReceived dt port domain grandmaster s
  | .ptpManagementReceived dt port => Sys2Proof.Machine.execPtpManagementReceived dt port s
  | .ptpReceiptTimeout dt => Sys2Proof.Machine.execPtpReceiptTimeout dt s
  | .ptpSyncTransmit dt port origin => Sys2Proof.Machine.execPtpSyncTransmit dt port origin s
  | .ptpDelayReqTransmit dt origin => Sys2Proof.Machine.execPtpDelayReqTransmit dt origin s
  | .ptpPdelayReqTransmit dt port origin => Sys2Proof.Machine.execPtpPdelayReqTransmit dt port origin s
  | .esmcPduReceived dt port level => Sys2Proof.Machine.execEsmcPduReceived dt port level s
  | .evaluationSecondEnd dt phase drift ref10m synce => Sys2Proof.Machine.execEvaluationSecondEnd dt phase drift ref10m synce s
  | .holdoverClassChange dt => Sys2Proof.Machine.execHoldoverClassChange dt s
  | .timeQuery dt path => Sys2Proof.Machine.execTimeQuery dt path s
  | .timeRefSelect dt path code label tai ptp synce => Sys2Proof.Machine.execTimeRefSelect dt path code label tai ptp synce s
  | .timeSetPpsDelay dt path delay => Sys2Proof.Machine.execTimeSetPpsDelay dt path delay s
  | .timeStep dt path kind value frac => Sys2Proof.Machine.execTimeStep dt path kind value frac s
  | .timeSetUtc dt path offset => Sys2Proof.Machine.execTimeSetUtc dt path offset s
  | .timeLeapAnnounce dt path dir at_ => Sys2Proof.Machine.execTimeLeapAnnounce dt path dir at_ s
  | .timeOutputConfig dt path advance width ref10m tod lane0 div0 lane1 div1 => Sys2Proof.Machine.execTimeOutputConfig dt path advance width ref10m tod lane0 div0 lane1 div1 s
  | .timePtpConfig dt path profile domain transport receiver transmitters sync delay pdelay announce timeout asym => Sys2Proof.Machine.execTimePtpConfig dt path profile domain transport receiver transmitters sync delay pdelay announce timeout asym s
  | .timeRefRelease dt path => Sys2Proof.Machine.execTimeRefRelease dt path s
  | .timeSetApply dt => Sys2Proof.Machine.execTimeSetApply dt s
  | .timeStepApply dt => Sys2Proof.Machine.execTimeStepApply dt s
  | .utcOffsetApply dt => Sys2Proof.Machine.execUtcOffsetApply dt s
  | .leapApply dt => Sys2Proof.Machine.execLeapApply dt s
  | .ppsOutEdge dt => Sys2Proof.Machine.execPpsOutEdge dt s
  | .ppsPulseEnd dt => Sys2Proof.Machine.execPpsPulseEnd dt s
  | .todOutMessage dt => Sys2Proof.Machine.execTodOutMessage dt s
  | .receiveEvent dt port age data trunc cut pcs => Sys2Proof.Machine.execReceiveEvent dt port age data trunc cut pcs s
  | .pauseFrameReceived dt port age data => Sys2Proof.Machine.execPauseFrameReceived dt port age data s
  | .pauseTimerExpiry dt port prio => Sys2Proof.Machine.execPauseTimerExpiry dt port prio s
  | .pfcRefresh dt port => Sys2Proof.Machine.execPfcRefresh dt port s
  | .pipelineDispatch dt slot => Sys2Proof.Machine.execPipelineDispatch dt slot s
  | .deepCacheFill dt port pos stage poison => Sys2Proof.Machine.execDeepCacheFill dt port pos stage poison s
  | .learnApply dt => Sys2Proof.Machine.execLearnApply dt s
  | .frameAdmission dt port => Sys2Proof.Machine.execFrameAdmission dt port s
  | .frameTransmitStart dt port => Sys2Proof.Machine.execFrameTransmitStart dt port s
  | .txFrameComplete dt port age => Sys2Proof.Machine.execTxFrameComplete dt port age s
  | .hostDelivery dt => Sys2Proof.Machine.execHostDelivery dt s
  | .bucketRefill dt => Sys2Proof.Machine.execBucketRefill dt s
  | .meterChangeApply dt => Sys2Proof.Machine.execMeterChangeApply dt s
  | .queueSample dt => Sys2Proof.Machine.execQueueSample dt s
  | .samplePeriodEnd dt => Sys2Proof.Machine.execSamplePeriodEnd dt s
  | .queueCommit dt => Sys2Proof.Machine.execQueueCommit dt s
  | .txFrameReadComplete dt tag data => Sys2Proof.Machine.execTxFrameReadComplete dt tag data s
  | .sluiceHoldPoint dt port => Sys2Proof.Machine.execSluiceHoldPoint dt port s
  | .sluiceRelease dt port shift => Sys2Proof.Machine.execSluiceRelease dt port shift s
  | .sluicePhaseStep dt port => Sys2Proof.Machine.execSluicePhaseStep dt port s
  | .spoutReplicaStart dt port => Sys2Proof.Machine.execSpoutReplicaStart dt port s
  | .heartbeatSend dt => Sys2Proof.Machine.execHeartbeatSend dt s
  | .heartbeatIntervalSettle dt => Sys2Proof.Machine.execHeartbeatIntervalSettle dt s
  | .epochClose dt => Sys2Proof.Machine.execEpochClose dt s
  | .epochRootFinal dt dom => Sys2Proof.Machine.execEpochRootFinal dt dom s
  | .checkpointClose dt => Sys2Proof.Machine.execCheckpointClose dt s
  | .checkpointSigned dt => Sys2Proof.Machine.execCheckpointSigned dt s
  | .chainOpen dt => Sys2Proof.Machine.execChainOpen dt s
  | .exportCopy dt dom => Sys2Proof.Machine.execExportCopy dt dom s
  | .ledgerQuotaApply dt => Sys2Proof.Machine.execLedgerQuotaApply dt s
  | .ledgerStatus dt path dom => Sys2Proof.Machine.execLedgerStatus dt path dom s
  | .ledgerSetQuota dt path dom quota => Sys2Proof.Machine.execLedgerSetQuota dt path dom quota s
  | .ledgerSetCistern dt path dom size => Sys2Proof.Machine.execLedgerSetCistern dt path dom size s
  | .ledgerCertGet dt path dom which addr len => Sys2Proof.Machine.execLedgerCertGet dt path dom which addr len s
  | .ledgerRetainedGet dt path dom => Sys2Proof.Machine.execLedgerRetainedGet dt path dom s
  | .pcsAlignLock dt port => Sys2Proof.Machine.execPcsAlignLock dt port s
  | .wellheadCalComplete dt port linkRx linkTx => Sys2Proof.Machine.execWellheadCalComplete dt port linkRx linkTx s
  | .pcsLockLoss dt port => Sys2Proof.Machine.execPcsLockLoss dt port s
  | .alignmentSlip dt port => Sys2Proof.Machine.execAlignmentSlip dt port s
  | .remoteFaultReceived dt port => Sys2Proof.Machine.execRemoteFaultReceived dt port s
  | .faultClear dt port => Sys2Proof.Machine.execFaultClear dt port s
  | .localFaultDetected dt port => Sys2Proof.Machine.execLocalFaultDetected dt port s
  | .autonegComplete dt port => Sys2Proof.Machine.execAutonegComplete dt port s
  | .autonegNoCommonMode dt port => Sys2Proof.Machine.execAutonegNoCommonMode dt port s
  | .wakePatternDetected dt port => Sys2Proof.Machine.execWakePatternDetected dt port s
  | .laneTestEnd dt lane errors compared => Sys2Proof.Machine.execLaneTestEnd dt lane errors compared s
  | .mdioPoll dt up speed full deferred => Sys2Proof.Machine.execMdioPoll dt up speed full deferred s
  | .mpCollision dt jam => Sys2Proof.Machine.execMpCollision dt jam s
  | .mpBackoffExpiry dt carrier => Sys2Proof.Machine.execMpBackoffExpiry dt carrier s
  | .portMapSet dt path modes fecs => Sys2Proof.Machine.execPortMapSet dt path modes fecs s
  | .portConfig dt path port mac maxFrame append strip rxMode rxStrip stripTpid txInsert insertTpid tci autoneg => Sys2Proof.Machine.execPortConfig dt path port mac maxFrame append strip rxMode rxStrip stripTpid txInsert insertTpid tci autoneg s
  | .portStatus dt path port => Sys2Proof.Machine.execPortStatus dt path port s
  | .portPfcConfig dt path port mode enable xoff xon quanta => Sys2Proof.Machine.execPortPfcConfig dt path port mode enable xoff xon quanta s
  | .portDormant dt path port => Sys2Proof.Machine.execPortDormant dt path port s
  | .portWake dt path port => Sys2Proof.Machine.execPortWake dt path port s
  | .portHeartbeatConfig dt path port dst pair => Sys2Proof.Machine.execPortHeartbeatConfig dt path port dst pair s
  | .portMpConfig dt path follow speed duplex => Sys2Proof.Machine.execPortMpConfig dt path follow speed duplex s
  | .portLaneTest dt path lane rate pattern loopback duration => Sys2Proof.Machine.execPortLaneTest dt path lane rate pattern loopback duration s
  | .parseGraphLoad dt path addr len buf => Sys2Proof.Machine.execParseGraphLoad dt path addr len buf s
  | .parseGraphSwap dt path => Sys2Proof.Machine.execParseGraphSwap dt path s
  | .parseGraphSwapEffect dt => Sys2Proof.Machine.execParseGraphSwapEffect dt s
  | .classRuleSet dt path dom idx ports addr cls profile notarise buf => Sys2Proof.Machine.execClassRuleSet dt path dom idx ports addr cls profile notarise buf s
  | .classRuleClear dt path dom idx => Sys2Proof.Machine.execClassRuleClear dt path dom idx s
  | .prsPortConfig dt path port profile malSump sump => Sys2Proof.Machine.execPrsPortConfig dt path port profile malSump sump s
  | .spoutProfileSet dt path profile withPort ranges => Sys2Proof.Machine.execSpoutProfileSet dt path profile withPort ranges s
  | .prsStatus dt path port => Sys2Proof.Machine.execPrsStatus dt path port s
  | .classRuleQuota dt path dom quota => Sys2Proof.Machine.execClassRuleQuota dt path dom quota s
  | .spoutEnWrite dt port on => Sys2Proof.Machine.execSpoutEnWrite dt port on s
  | .tableCreate dt path table dom tier log2 keyLen seed evict mult notify => Sys2Proof.Machine.execTableCreate dt path table dom tier log2 keyLen seed evict mult notify s
  | .tableDestroy dt path table => Sys2Proof.Machine.execTableDestroy dt path table s
  | .tableInsert dt path table addr result fixed replace key => Sys2Proof.Machine.execTableInsert dt path table addr result fixed replace key s
  | .tableDelete dt path table addr key => Sys2Proof.Machine.execTableDelete dt path table addr key s
  | .tableRead dt path table addr key => Sys2Proof.Machine.execTableRead dt path table addr key s
  | .tableBatch dt path addr count ops => Sys2Proof.Machine.execTableBatch dt path addr count ops s
  | .tableCommit dt => Sys2Proof.Machine.execTableCommit dt s
  | .profileSet dt path idx stages final => Sys2Proof.Machine.execProfileSet dt path idx stages final s
  | .learnConfig dt path port max rate burst flood => Sys2Proof.Machine.execLearnConfig dt path port max rate burst flood s
  | .spoutInsert dt path addr entry => Sys2Proof.Machine.execSpoutInsert dt path addr entry s
  | .spoutDelete dt path dom addr key => Sys2Proof.Machine.execSpoutDelete dt path dom addr key s
  | .tableStatus dt path isPort num => Sys2Proof.Machine.execTableStatus dt path isPort num s
  | .tableQuota dt path dom profiles cache misses spout => Sys2Proof.Machine.execTableQuota dt path dom profiles cache misses spout s
  | .spoutSeedSet dt path seed => Sys2Proof.Machine.execSpoutSeedSet dt path seed s
  | .learnRefill dt => Sys2Proof.Machine.execLearnRefill dt s
  | .ageingSweep dt table => Sys2Proof.Machine.execAgeingSweep dt table s
  | .tmMeterSet dt path meter cir pir cbs pbs aware lenAdjust yellow red => Sys2Proof.Machine.execTmMeterSet dt path meter cir pir cbs pbs aware lenAdjust yellow red s
  | .tmMeterRead dt path meter => Sys2Proof.Machine.execTmMeterRead dt path meter s
  | .tmQueueSet dt path queue kind dest ring tc quantum limG limY limR spill sample => Sys2Proof.Machine.execTmQueueSet dt path queue kind dest ring tc quantum limG limY limR spill sample s
  | .tmQueueRead dt path queue => Sys2Proof.Machine.execTmQueueRead dt path queue s
  | .tmShaperSet dt path queue mode cir pir cbs pbs => Sys2Proof.Machine.execTmShaperSet dt path queue mode cir pir cbs pbs s
  | .tmSchedSet dt path sched lenAdjust quanta => Sys2Proof.Machine.execTmSchedSet dt path sched lenAdjust quanta s
  | .tmBufferSet dt path ing spout prio share spill => Sys2Proof.Machine.execTmBufferSet dt path ing spout prio share spill s
  | .tmSlotsSet dt path slots => Sys2Proof.Machine.execTmSlotsSet dt path slots s
  | .tmQuota dt path queues meters sampled => Sys2Proof.Machine.execTmQuota dt path queues meters sampled s
  | .tmSampleConfig dt path mult => Sys2Proof.Machine.execTmSampleConfig dt path mult s
  | .tmStatus dt path dom => Sys2Proof.Machine.execTmStatus dt path dom s
  | .sluiceCompSet dt path port whole frac => Sys2Proof.Machine.execSluiceCompSet dt path port whole frac s
  | .sluiceCompCommit dt => Sys2Proof.Machine.execSluiceCompCommit dt s
  | .sluiceStatus dt path port => Sys2Proof.Machine.execSluiceStatus dt path port s
  | .sluiceQuota dt path shares => Sys2Proof.Machine.execSluiceQuota dt path shares s
  | .generalInstruction dt core thr word g => Sys2Proof.Machine.execGeneralInstruction dt core thr word g s
  | .cisternLoadReturn dt core thr => Sys2Proof.Machine.execCisternLoadReturn dt core thr s
  | .tnow dt core thr word => Sys2Proof.Machine.execTnow dt core thr word s
  | .tnowq dt core thr word => Sys2Proof.Machine.execTnowq dt core thr word s
  | .dlset dt core thr word => Sys2Proof.Machine.execDlset dt core thr word s
  | .dlclr dt core thr word => Sys2Proof.Machine.execDlclr dt core thr word s
  | .wfe dt core thr word => Sys2Proof.Machine.execWfe dt core thr word s
  | .sig dt core thr word => Sys2Proof.Machine.execSig dt core thr word s
  | .crr dt core thr word => Sys2Proof.Machine.execCrr dt core thr word s
  | .crw dt core thr word => Sys2Proof.Machine.execCrw dt core thr word s
  | .tspawn dt core thr word => Sys2Proof.Machine.execTspawn dt core thr word s
  | .texit dt core thr word => Sys2Proof.Machine.execTexit dt core thr word s
  | .tret dt core thr word => Sys2Proof.Machine.execTret dt core thr word s
  | .fenceD dt core thr word => Sys2Proof.Machine.execFenceD dt core thr word s
  | .rpost dt core thr word => Sys2Proof.Machine.execRpost dt core thr word s
  | .trap dt core thr word => Sys2Proof.Machine.execTrap dt core thr word s
  | .cbegin dt core thr word => Sys2Proof.Machine.execCbegin dt core thr word s
  | .cbeginT dt core thr word => Sys2Proof.Machine.execCbeginT dt core thr word s
  | .cput dt core thr word => Sys2Proof.Machine.execCput dt core thr word s
  | .ccommit dt core thr word => Sys2Proof.Machine.execCcommit dt core thr word s
  | .ccommitR dt core thr word => Sys2Proof.Machine.execCcommitR dt core thr word s
  | .cabort dt core thr word => Sys2Proof.Machine.execCabort dt core thr word s
  | .crecv dt core thr word => Sys2Proof.Machine.execCrecv dt core thr word s
  | .crecvT dt core thr word => Sys2Proof.Machine.execCrecvT dt core thr word s
  | .cfree dt core thr word => Sys2Proof.Machine.execCfree dt core thr word s
  | .esub dt core thr word => Sys2Proof.Machine.execEsub dt core thr word s
  | .eunsub dt core thr word => Sys2Proof.Machine.execEunsub dt core thr word s
  | .eget dt core thr word => Sys2Proof.Machine.execEget dt core thr word s
  | .edone dt core thr word => Sys2Proof.Machine.execEdone dt core thr word s
  | .itake dt core thr word => Sys2Proof.Machine.execItake dt core thr word s
  | .iretire dt core thr word => Sys2Proof.Machine.execIretire dt core thr word s
  | .ipost dt core thr word => Sys2Proof.Machine.execIpost dt core thr word s
  | .pgalloc dt core thr word => Sys2Proof.Machine.execPgalloc dt core thr word s
  | .pgfree dt core thr word => Sys2Proof.Machine.execPgfree dt core thr word s
  | .deadlineFire dt core thr => Sys2Proof.Machine.execDeadlineFire dt core thr s
  | .dryWellFault dt core => Sys2Proof.Machine.execDryWellFault dt core s
  | .overseerRestart dt core => Sys2Proof.Machine.execOverseerRestart dt core s
  | .coreLoad dt path core addr len off data => Sys2Proof.Machine.execCoreLoad dt path core addr len off data s
  | .coreStart dt path core mask addr data => Sys2Proof.Machine.execCoreStart dt path core mask addr data s
  | .coreStop dt path core => Sys2Proof.Machine.execCoreStop dt path core s
  | .coreRestart dt path core clear => Sys2Proof.Machine.execCoreRestart dt path core clear s
  | .coreUrgent dt path core thr => Sys2Proof.Machine.execCoreUrgent dt path core thr s
  | .coreStatus dt path core => Sys2Proof.Machine.execCoreStatus dt path core s
  | .chanCreate dt path chan core thr off cap senders => Sys2Proof.Machine.execChanCreate dt path chan core thr off cap senders s
  | .chanDestroy dt path chan => Sys2Proof.Machine.execChanDestroy dt path chan s
  | .chanAbandon dt path chan => Sys2Proof.Machine.execChanAbandon dt path chan s
  | .chanStatus dt path chan => Sys2Proof.Machine.execChanStatus dt path chan s
  | .chanQuota dt path ranges => Sys2Proof.Machine.execChanQuota dt path ranges s
  | .chanSlotHoldTimeout dt => Sys2Proof.Machine.execChanSlotHoldTimeout dt s
  | .handoverHeldTimeout dt => Sys2Proof.Machine.execHandoverHeldTimeout dt s
  | .doorbellWrite dt fn ring width value => Sys2Proof.Machine.execDoorbellWrite dt fn ring width value s
  | .indexReadReturn dt fn ring value => Sys2Proof.Machine.execIndexReadReturn dt fn ring value s
  | .descriptorFetch dt fn ring data => Sys2Proof.Machine.execDescriptorFetch dt fn ring data s
  | .ringEnableWrite dt fn ring value => Sys2Proof.Machine.execRingEnableWrite dt fn ring value s
  | .ringVerOfferWrite dt fn value => Sys2Proof.Machine.execRingVerOfferWrite dt fn value s
  | .interruptModerationEnd dt => Sys2Proof.Machine.execInterruptModerationEnd dt s
  | .ringQuota dt path rings cqs => Sys2Proof.Machine.execRingQuota dt path rings cqs s
  | .fnReset dt path func => Sys2Proof.Machine.execFnReset dt path func s
  | .flr dt fn => Sys2Proof.Machine.execFlr dt fn s
  | .fnResetComplete dt fn => Sys2Proof.Machine.execFnResetComplete dt fn s
  | .dmaDescriptorStart dt fn ring => Sys2Proof.Machine.execDmaDescriptorStart dt fn ring s
  | .pcieReadCompletion dt tag status ep last data => Sys2Proof.Machine.execPcieReadCompletion dt tag status ep last data s
  | .flushReadComplete dt fn ring => Sys2Proof.Machine.execFlushReadComplete dt fn ring s
  | .completionTimeout dt tag => Sys2Proof.Machine.execCompletionTimeout dt tag s
  | .tagQuarantineEnd dt tag => Sys2Proof.Machine.execTagQuarantineEnd dt tag s
  | .dmaChannelSet dt path chan dom role weight => Sys2Proof.Machine.execDmaChannelSet dt path chan dom role weight s
  | .dmaStatus dt path chan => Sys2Proof.Machine.execDmaStatus dt path chan s
  | .contextFetchComplete dt key good => Sys2Proof.Machine.execContextFetchComplete dt key good s
  | .contextWritebackComplete dt key good => Sys2Proof.Machine.execContextWritebackComplete dt key good s
  | .pageZeroed dt => Sys2Proof.Machine.execPageZeroed dt s
  | .sumpItemCreate dt dom => Sys2Proof.Machine.execSumpItemCreate dt dom s
  | .itemDelivery dt core thr => Sys2Proof.Machine.execItemDelivery dt core thr s
  | .rebalance dt => Sys2Proof.Machine.execRebalance dt s
  | .cisternQuota dt path dom data item ctx => Sys2Proof.Machine.execCisternQuota dt path dom data item ctx s
  | .cisternStatus dt path dom => Sys2Proof.Machine.execCisternStatus dt path dom s
  | .ctxShare dt path shares => Sys2Proof.Machine.execCtxShare dt path shares s
  | .ctxBackingSet dt path type addr entries => Sys2Proof.Machine.execCtxBackingSet dt path type addr entries s
  | .ctxPin dt path type ctx pin => Sys2Proof.Machine.execCtxPin dt path type ctx pin s
  | .impClassSet dt path cls inflight depth reissue moving high low => Sys2Proof.Machine.execImpClassSet dt path cls inflight depth reissue moving high low s
  | .impQueueSet dt path q cls f k ranges => Sys2Proof.Machine.execImpQueueSet dt path q cls f k ranges s
  | .impMigrate dt path flow core thr => Sys2Proof.Machine.execImpMigrate dt path flow core thr s
  | .impFlowStatus dt path flow => Sys2Proof.Machine.execImpFlowStatus dt path flow s
  | .impQuota dt path quotas => Sys2Proof.Machine.execImpQuota dt path quotas s
  | .pcieLinkUp dt b speed width flit => Sys2Proof.Machine.execPcieLinkUp dt b speed width flit s
  | .dlDown dt b => Sys2Proof.Machine.execDlDown dt b s
  | .windowRequest dt fn off n write ep data => Sys2Proof.Machine.execWindowRequest dt fn off n write ep data s
  | .expansionRomRead dt off n => Sys2Proof.Machine.execExpansionRomRead dt off n s
  | .winCtrlRegWrite dt pf e value => Sys2Proof.Machine.execWinCtrlRegWrite dt pf e value s
  | .winAddressWrite dt pf e word value => Sys2Proof.Machine.execWinAddressWrite dt pf e word value s
  | .winDrained dt fn e => Sys2Proof.Machine.execWinDrained dt fn e s
  | .pmStateWrite dt fn d3 => Sys2Proof.Machine.execPmStateWrite dt fn d3 s
  | .d3hotWorkTimeout dt fn => Sys2Proof.Machine.execD3hotWorkTimeout dt fn s
  | .busMasterEnableWrite dt fn on => Sys2Proof.Machine.execBusMasterEnableWrite dt fn on s
  | .vfEnableWrite dt pf num on mse => Sys2Proof.Machine.execVfEnableWrite dt pf num on mse s
  | .ctoValueWrite dt fn value => Sys2Proof.Machine.execCtoValueWrite dt fn value s
  | .aspmL1Entry dt b => Sys2Proof.Machine.execAspmL1Entry dt b s
  | .l0pWidthReduce dt b => Sys2Proof.Machine.execL0pWidthReduce dt b s
  | .pcieStatus dt path func => Sys2Proof.Machine.execPcieStatus dt path func s
  | .pcieCtoSet dt path func us => Sys2Proof.Machine.execPcieCtoSet dt path func us s
  | .winWrite dt path func e target pages => Sys2Proof.Machine.execWinWrite dt path func e target pages s
  | .winCtrl dt path func e valid seq rd wr => Sys2Proof.Machine.execWinCtrl dt path func e valid seq rd wr s
  | .winRead dt path func e => Sys2Proof.Machine.execWinRead dt path func e s
  | .pcieWinMax dt path func size => Sys2Proof.Machine.execPcieWinMax dt path func size s
  | .pciePowerConfig dt path idle auto width snoop nosnoop => Sys2Proof.Machine.execPciePowerConfig dt path idle auto width snoop nosnoop s
  | .sriovLimit dt path total => Sys2Proof.Machine.execSriovLimit dt path total s
  | .rdmaRequestPacket dt fn => Sys2Proof.Machine.execRdmaRequestPacket dt fn s
  | .rdmaAckReceived dt fn => Sys2Proof.Machine.execRdmaAckReceived dt fn s
  | .rdmaNakReceived dt fn => Sys2Proof.Machine.execRdmaNakReceived dt fn s
  | .rdmaRnrNakReceived dt fn => Sys2Proof.Machine.execRdmaRnrNakReceived dt fn s
  | .rdmaReadResponse dt fn => Sys2Proof.Machine.execRdmaReadResponse dt fn s
  | .cnpReceived dt fn => Sys2Proof.Machine.execCnpReceived dt fn s
  | .ackTimerExpiry dt qp => Sys2Proof.Machine.execAckTimerExpiry dt qp s
  | .rnrTimerExpiry dt qp => Sys2Proof.Machine.execRnrTimerExpiry dt qp s
  | .responderAckTimer dt qp => Sys2Proof.Machine.execResponderAckTimer dt qp s
  | .ccRateIncrease dt => Sys2Proof.Machine.execCcRateIncrease dt s
  | .rdmaPacedEnqueue dt qp => Sys2Proof.Machine.execRdmaPacedEnqueue dt qp s
  | .qpnQuietEnd dt => Sys2Proof.Machine.execQpnQuietEnd dt s
  | .mrDrainComplete dt region => Sys2Proof.Machine.execMrDrainComplete dt region s
  | .rdmaFnConfig dt path func ring => Sys2Proof.Machine.execRdmaFnConfig dt path func ring s
  | .rdmaGidSet dt path port index addr dom => Sys2Proof.Machine.execRdmaGidSet dt path port index addr dom s
  | .qpCreate dt path func send recv queue => Sys2Proof.Machine.execQpCreate dt path func send recv queue s
  | .qpModify dt path qp to_ attrs => Sys2Proof.Machine.execQpModify dt path qp to_ attrs s
  | .qpQuery dt path qp => Sys2Proof.Machine.execQpQuery dt path qp s
  | .qpDestroy dt path qp => Sys2Proof.Machine.execQpDestroy dt path qp s
  | .mrRegister dt path func pd space addr len va rights => Sys2Proof.Machine.execMrRegister dt path func pd space addr len va rights s
  | .mrDeregister dt path key => Sys2Proof.Machine.execMrDeregister dt path key s
  | .mrQuery dt path key => Sys2Proof.Machine.execMrQuery dt path key s
  | .rdmaQuota dt path quotas => Sys2Proof.Machine.execRdmaQuota dt path quotas s
  | .rdmaCcSet dt path dom en dec ai min => Sys2Proof.Machine.execRdmaCcSet dt path dom en dec ai min s
  | .rdmaQpnQuiet dt path exponent => Sys2Proof.Machine.execRdmaQpnQuiet dt path exponent s
  | .rdmaStatus dt path dom => Sys2Proof.Machine.execRdmaStatus dt path dom s
  | .storageFlushStart dt => Sys2Proof.Machine.execStorageFlushStart dt s
  | .nsCreate dt path func id blk cap targets => Sys2Proof.Machine.execNsCreate dt path func id blk cap targets s
  | .nsTargetSet dt path func id target attrs => Sys2Proof.Machine.execNsTargetSet dt path func id target attrs s
  | .nsDelete dt path func id => Sys2Proof.Machine.execNsDelete dt path func id s
  | .nsStatus dt path func id => Sys2Proof.Machine.execNsStatus dt path func id s
  | .macsecPortConfig dt path port on suite validate window sci offset exempt => Sys2Proof.Machine.execMacsecPortConfig dt path port on suite validate window sci offset exempt s
  | .macsecSaSet dt path port sc sci an key ssci salt pn => Sys2Proof.Machine.execMacsecSaSet dt path port sc sci an key ssci salt pn s
  | .macsecTxAn dt path port an => Sys2Proof.Machine.execMacsecTxAn dt path port an s
  | .macsecStatus dt path port => Sys2Proof.Machine.execMacsecStatus dt path port s
  | .ipsecSaSet dt path dir spi src dst key salt esn seq tlen template sport dport => Sys2Proof.Machine.execIpsecSaSet dt path dir spi src dst key salt esn seq tlen template sport dport s
  | .ipsecSaDelete dt path handle => Sys2Proof.Machine.execIpsecSaDelete dt path handle s
  | .ipsecQueueBind dt path queue sa => Sys2Proof.Machine.execIpsecQueueBind dt path queue sa s
  | .ipsecSaRead dt path handle => Sys2Proof.Machine.execIpsecSaRead dt path handle s
  | .secKeyQuota dt path slots => Sys2Proof.Machine.execSecKeyQuota dt path slots s
  | .mapCrcCheck dt => Sys2Proof.Machine.execMapCrcCheck dt s
  | .provStage dt path addr len buf => Sys2Proof.Machine.execProvStage dt path addr len buf s
  | .provCheck dt path => Sys2Proof.Machine.execProvCheck dt path s
  | .provBurn dt path crc => Sys2Proof.Machine.execProvBurn dt path crc s
  | .provBurnComplete dt => Sys2Proof.Machine.execProvBurnComplete dt s
  | .provDebugClose dt path dom rights => Sys2Proof.Machine.execProvDebugClose dt path dom rights s
  | .provIsoLock dt path => Sys2Proof.Machine.execProvIsoLock dt path s
  | .domainQuery dt path dom => Sys2Proof.Machine.execDomainQuery dt path dom s
  | .domainPortStats dt path port => Sys2Proof.Machine.execDomainPortStats dt path port s
  | .tosenSegmentReceived dt frame => Sys2Proof.Machine.execTosenSegmentReceived dt frame s
  | .mpReassemblyTimeout dt => Sys2Proof.Machine.execMpReassemblyTimeout dt s
  | .mpSessionIdleTimeout dt => Sys2Proof.Machine.execMpSessionIdleTimeout dt s
  | .sessionOpen dt path major lo hi flags area client => Sys2Proof.Machine.execSessionOpen dt path major lo hi flags area client s
  | .sessionClose dt path => Sys2Proof.Machine.execSessionClose dt path s
  | .sessionPing dt path => Sys2Proof.Machine.execSessionPing dt path s
  | .stageWrite dt path off len data => Sys2Proof.Machine.execStageWrite dt path off len data s
  | .stageRead dt path off len => Sys2Proof.Machine.execStageRead dt path off len s
  | .sessionStatus dt path => Sys2Proof.Machine.execSessionStatus dt path s
  | .sessionMpAllow dt path count macs => Sys2Proof.Machine.execSessionMpAllow dt path count macs s
  | .bootStatus dt path => Sys2Proof.Machine.execBootStatus dt path s
  | .imageWriteBegin dt path len err => Sys2Proof.Machine.execImageWriteBegin dt path len err s
  | .imageWrite dt path addr off len buf err => Sys2Proof.Machine.execImageWrite dt path addr off len buf err s
  | .imageWriteEnd dt path err => Sys2Proof.Machine.execImageWriteEnd dt path err s
  | .bootRestart dt path => Sys2Proof.Machine.execBootRestart dt path s
  | .bootRollbackCommit dt path v allow => Sys2Proof.Machine.execBootRollbackCommit dt path v allow s
  | .bootKeyProgram dt path slot hash => Sys2Proof.Machine.execBootKeyProgram dt path slot hash s
  | .bootKeyRevoke dt path slot => Sys2Proof.Machine.execBootKeyRevoke dt path slot s
  | .scrubRead dt addr stack pch mask kind dom sub => Sys2Proof.Machine.execScrubRead dt addr stack pch mask kind dom sub s
  | .sramScrubRead dt store off mask dom key => Sys2Proof.Machine.execSramScrubRead dt store off mask dom key s
  | .ueReportPeriodEnd dt dom => Sys2Proof.Machine.execUeReportPeriodEnd dt dom s
  | .memStatus dt path dom => Sys2Proof.Machine.execMemStatus dt path dom s
  | .memScrubConfig dt path scrub sram retire alert => Sys2Proof.Machine.execMemScrubConfig dt path scrub sram retire alert s
  | .memErrorLog dt path addr len => Sys2Proof.Machine.execMemErrorLog dt path addr len s
  | .memRetiredList dt path addr len => Sys2Proof.Machine.execMemRetiredList dt path addr len s
  | .memRetirePage dt path page => Sys2Proof.Machine.execMemRetirePage dt path page s
  | .memInject dt path dom addr mask => Sys2Proof.Machine.execMemInject dt path dom addr mask s
  | .lineReset dt => Sys2Proof.Machine.execLineReset dt s
  | .wlHeaderCrcFail dt => Sys2Proof.Machine.execWlHeaderCrcFail dt s
  | .wlSessionIdleTimeout dt => Sys2Proof.Machine.execWlSessionIdleTimeout dt s
  | .wlProbeDisconnect dt => Sys2Proof.Machine.execWlProbeDisconnect dt s
  | .connect dt seq crc f => Sys2Proof.Machine.execConnect dt seq crc f s
  | .disconnect dt seq crc f => Sys2Proof.Machine.execDisconnect dt seq crc f s
  | .wlStatus dt seq crc f => Sys2Proof.Machine.execWlStatus dt seq crc f s
  | .csrRead dt seq crc f => Sys2Proof.Machine.execCsrRead dt seq crc f s
  | .wlHalt dt seq crc f => Sys2Proof.Machine.execWlHalt dt seq crc f s
  | .wlResume dt seq crc f => Sys2Proof.Machine.execWlResume dt seq crc f s
  | .wlStep dt seq crc f => Sys2Proof.Machine.execWlStep dt seq crc f s
  | .bpSet dt seq crc f => Sys2Proof.Machine.execBpSet dt seq crc f s
  | .bpClear dt seq crc f => Sys2Proof.Machine.execBpClear dt seq crc f s
  | .regRead dt seq crc f => Sys2Proof.Machine.execRegRead dt seq crc f s
  | .regWrite dt seq crc f => Sys2Proof.Machine.execRegWrite dt seq crc f s
  | .wlMemRead dt seq crc f => Sys2Proof.Machine.execWlMemRead dt seq crc f s
  | .wlMemWrite dt seq crc f => Sys2Proof.Machine.execWlMemWrite dt seq crc f s
  | .wlChanAbandon dt seq crc f => Sys2Proof.Machine.execWlChanAbandon dt seq crc f s
  | .wlTosen dt seq crc data => Sys2Proof.Machine.execWlTosen dt seq crc data s
  | .poll dt seq crc f => Sys2Proof.Machine.execPoll dt seq crc f s
  | .debugStatus dt path dom => Sys2Proof.Machine.execDebugStatus dt path dom s
  | .debugSessionEnd dt path => Sys2Proof.Machine.execDebugSessionEnd dt path s
  | .tapReset dt => Sys2Proof.Machine.execTapReset dt s
  | .extest dt capture shift => Sys2Proof.Machine.execExtest dt capture shift s
  | .idcode dt => Sys2Proof.Machine.execIdcode dt s
  | .samplePreload dt capture shift => Sys2Proof.Machine.execSamplePreload dt capture shift s
  | .clamp dt => Sys2Proof.Machine.execClamp dt s
  | .highz dt => Sys2Proof.Machine.execHighz dt s
  | .extestPulse dt capture shift idle => Sys2Proof.Machine.execExtestPulse dt capture shift idle s
  | .extestTrain dt capture shift idle => Sys2Proof.Machine.execExtestTrain dt capture shift idle s
  | .bypass dt => Sys2Proof.Machine.execBypass dt s
  | .refCoreReturn dt => Sys2Proof.Machine.execRefCoreReturn dt s
  | .oscHoldPresenceChange dt present => Sys2Proof.Machine.execOscHoldPresenceChange dt present s
  | .cisternWriteStored dt core unit sub idx => Sys2Proof.Machine.execCisternWriteStored dt core unit sub idx s
  | .bootSignatureVerified dt => Sys2Proof.Machine.execBootSignatureVerified dt s
  | .securityChangeCommit dt => Sys2Proof.Machine.execSecurityChangeCommit dt s

end Sys2Proof.Machine
end

