-- ==== Sys2Proof/Safety.lean ====
section
/-! DEFINITION. The terms claims are stated in: what a command completes with, what a Tosen request must satisfy to be executed and how it
is answered, and the frame of a command - what events, replies and reports may touch, and that nothing else changes. -/
namespace Sys2Proof.Machine

/-- The command answers a next state, and that state satisfies `P`. -/
def Completes (i : Instr) (s : State) (P : State → Prop) : Prop := ∃ t, exec i s = .next t ∧ P t

/-- The block works, and nothing that earlier commands began is still to leave it with this one: no change of flow control, no frame of the
management port, no freed slot of a ledger cistern, and no report of a period that is over. -/
structure State.Settled (u : State) : Prop where
  alive : u.dead = false
  flow : u.ports.pfcDue = []
  mp : u.ports.mp.tx = []
  freed : (u.led.chains.all (fun e => !e.2.freed)) = true
  reports : (u.slu.events.all (fun e => e.2.period == u.now / grid 20)) = true

/-- A table with what `f` erases from each entry erased, and entries that are then the default left out. -/
def tnorm {α : Type} [DecidableEq α] (d : α) (f : α → α) (t : Table α) : Table α := (tmap t f).filter (fun e => !decide (e.2 = d))

/-- What an event may change in a session: the events it holds. -/
def Session.quiet (x : Session) : Session := { x with held := [], lostNow := 0 }
/-- What a reply changes besides: its queue and its kept replies. -/
def Session.still (x : Session) : Session := { x with queue := [], running := none, began := 0, cache := [], held := [], lostNow := 0 }
/-- What a completion may change in a ring: its indices and sump, the moderation period, and the descriptors it covers. -/
def Ring.still (r : Ring) : Ring :=
  { r with dev := 0, done := 0, fullStop := false, sumpFull := false, sump := [], late := [], sumpTold := false, fetched := [], modEnd := 0, modHeld := false, posters := [] }
/-- Counters of the MAC, with their half-range bits. -/
def PortSt.still (x : PortSt) : PortSt := { x with counters := [], half := 0 }
/-- Writes held for the host and vectors pending. -/
def PFn.still (x : PFn) : PFn := { x with outbox := [], pba := [] }

/-- The queue of the Windlass probe, what is halted, the progress of steps, the last response, and the counters. -/
def Dbg.still (d : Dbg) : Dbg :=
  { d with queue := [], lost := 0, halted := [], steps := [], stepped := [], stepWait := none, last := none, counters := [], evPeriod := [] }

/-- The state without what leaves the block and what events and reports write on their way out: the emissions, the bytes of the stores
(`Events` says which of those may change), completion rings, events that sessions hold, threads that a record wakes, MAC counters of
frames sent, frames that half-duplex MP has still to send, the queue of the Windlass probe and the progress of steps, link power states with their widths, and the log of past quality bytes. -/
def State.quiet (s : State) : State :=
  { s with
    out := [], ram := [], mem.poison := [], mem.bad := []
    tosen.sessions := s.tosen.sessions.map Session.quiet, tosen.evLost := []
    rings.rings := tnorm {} Ring.still s.rings.rings
    rings.fns := tnorm {} (fun x => { x with counters := [0, 0, 0, 0, 0] }) s.rings.fns
    cores.cores := tnorm {} (fun c => { c with threads := [] }) s.cores.cores
    ports.ports := tnorm ({} : PortSt).still PortSt.still s.ports.ports
    ports.halfDue := [], ports.mp.tx := [], ports.mp.begun := 0
    pcie.fns := tnorm {} PFn.still s.pcie.fns
    pcie.linkA.lpm := 0, pcie.linkA.active := 0, pcie.linkB.lpm := 0, pcie.linkB.active := 0
    slu.events := [], tb.quals := []
    dbg := s.dbg.still }
/-- The same, without the sessions' queues and kept replies, which a reply writes. -/
def State.still (s : State) : State := { s.quiet with tosen.sessions := s.tosen.sessions.map Session.still }

/-- A byte of a place where an event record for a thread's subscription may be written (R246, R247). -/
def State.subByte (s : State) (a : Nat) : Prop :=
  ∃ c t h u, tget? (s.thr c t).subs h = some u ∧ ∃ n, (n < 16 ∨ n = u.next) ∧
    localAt c (u.region + n * 32) ≤ a ∧ a < localAt c (u.region + n * 32) + 32

/-- `t` is `u` but for what events and reports change on their way out. -/
structure Events (u t : State) : Prop where
  quiet : t.quiet = u.quiet
  bytes : ∀ a, ¬ u.subByte a → mread t.ram a = mread u.ram a
  places : ∀ a, t.subByte a → u.subByte a

/-- `t` is `u` but for what events, replies and reports change on their way out. -/
structure Agree (u t : State) : Prop where
  still : t.still = u.still
  bytes : ∀ a, ¬ u.subByte a → mread t.ram a = mread u.ram a
  places : ∀ a, t.subByte a → u.subByte a

/-- A Tosen request that is executed (R419, R422): the block works, the session `x` of path `p` has `q` at the head of its queue and none
executing, its replies find room, `q` names opcode `op`, and the checks of R422 steps 3 to 8 pass for `n` fields and permission `perm`. Behind `q` waits none,
or one whose opcode is defined. -/
structure Issued (u : State) (p : Path) (x : Session) (q : TReq) (op n : Nat) (perm : Perm) : Prop where
  settled : u.Settled
  runs : u.firmware = true
  session : u.session? p = some x
  idle : x.running = none
  head : x.queue.head? = some q
  behind : (x.queue.tail.head?.all (fun r => opDefined r.opcode)) = true
  names : q.opcode = op
  passes : u.checks x q n false perm = 0
  room : u.replyRoom p = true

/-- The request `q` of path `p` has been answered, and the session is free for its next one: the reply is the newest of those kept for
repetition (R418, R419), with an instant at which its execution began. -/
def State.Answered (t : State) (p : Path) (q : TReq) (status : Nat) (fields : List Nat) : Prop :=
  ∃ y began, t.session? p = some y ∧ y.running = none ∧
    y.cache.head? = some { seq := q.seq, began := began, opcode := q.opcode, status := status, fields := fields }

/-- The request `q` of path `p`, of opcode `op`, is being executed and waits for its reply (R419). Behind it waits none, or one whose opcode is
defined. -/
structure Awaits (u : State) (p : Path) (x : Session) (q : TReq) (op : Nat) : Prop where
  session : u.session? p = some x
  busy : x.running = some q
  behind : (x.queue.head?.all (fun r => opDefined r.opcode)) = true
  names : q.opcode = op

/-- The request `q` of path `p` is being executed: its reply comes with a later command (R419). -/
def State.Executing (t : State) (p : Path) (q : TReq) : Prop := ∃ y, t.session? p = some y ∧ y.running = some q

/-- The block works, and no report of an earlier command or period and no debug step is under way: what a command does is seen alone. -/
structure State.Plain (u : State) : Prop where
  settled : u.Settled
  slu : u.slu.events = []
  half : u.ports.halfDue = []
  steps : u.dbg.steps = []
  wait : u.dbg.stepWait = none

/-- Thread `t` of core `c` is `x`, and issues the instruction of word `w` that it may fetch (R213, R214, R216, R219): it is ready on a running
core, the word stands at its pc, the arbiter gives it the present slot, it awaits no load, holds no poisoned register, and no breakpoint is
set nor any memory error known. -/
structure Fetches (u : State) (c t w : Nat) (x : Thread) : Prop where
  plain : u.Plain
  runs : u.firmware = true
  running : (u.core c).state = .running
  thread : u.thr c t = x
  ready : x.state = .ready
  loads : x.loads = []
  sound : x.bad = []
  bps : u.dbg.bps = []
  code : x.priv = true ∨ (x.ucodeBase ≤ x.pc ∧ x.pc + 4 ≤ x.ucodeLimit)
  inside : x.pc + 4 ≤ 2 ^ 18
  word : ofLe (mreads u.ram (localAt c x.pc) 4) = w
  turn : (u.core c).issue = none ∧ (u.core c).grant ((u.core c).slot % 32) = some t
  clean : u.mem.poison = [] ∧ u.mem.bad = []

/-- The block with the present slot of core `c` given to thread `t` for an instruction of form `f` (R213, R214). -/
def State.given (u : State) (c t : Nat) (f : Form) : State := u.setCore c ((u.core c).gives t (u.thr c t).pc f)

/-- A thread past the instruction it issues. -/
def Thread.past (x : Thread) : Thread := { x with pc := x.pc + 4, skip := none }

/-- The instruction of thread `t` has retired with the thread as `y` (R221, R234). -/
def State.retired (u : State) (c t : Nat) (y : Thread) : State := (u.setThr c t { y with retired := y.retired + 1 }).coreCount1 c 0

/-- The thread as trap entry leaves it (R228). -/
def Thread.trapped (x : Thread) (cause val tpc : Nat) : Thread :=
  { x with tpc := tpc, tcause := cause, tval := val, pp := x.priv, priv := true, tactive := true, pc := x.tvec }

/-- Core `c` has stopped on a fault of thread `t` (R230, R231). -/
def State.Faulted (s : State) (c t cls pc val : Nat) : Prop :=
  (s.core c).state = .stopped ∧ (s.core c).faultClass = cls ∧ (s.core c).faultTid = t ∧ (s.core c).faultPc = pc ∧ (s.core c).faultVal = val

/-- An RDMA packet that a queue pair takes (R336): it is the only one in the intake of function `fn`, is of row class `cls` with the bytes
`b` behind its IP and UDP headers, passes every check, carries no CE mark, and is addressed to queue pair `n`, which is `q`, works, is in no quiet
period, and whose context is in the cache with none parked for it. -/
structure Arrives (u : State) (fn cls n : Nat) (f : Frame) (b : Bytes) (q : Qp) : Prop where
  plain : u.Plain
  works : u.glb.mode ≠ .lockdown
  heard : u.mute fn = false
  frame : tget u.rdma.intake fn [] = [f]
  form : pktClass f = cls
  packet : ∃ dip ecn, roceOf f.data = some (dip, ecn, b, true) ∧ ecn ≠ 3 ∧ u.gidOk f.port dip q.dom = true
  names : n < 2 ^ 20 ∧ bthQpn b = 2 ^ 20 + n
  pair : u.qp? n = some q
  own : q.fn = fn
  live : q.state = .rts
  loud : (u.rdma.qpFree.all (fun x => x.num != n)) = true
  cached : (u.ctxNeed (ctxKey 1 q.dom n)).1 = true ∧ ((u.ctx? (ctxKey 1 q.dom n)).all (fun x => x.parked.isEmpty)) = true

/-- The packet has been taken and counted. -/
def State.taken (u : State) (fn : Nat) : State := { u with rdma.intake := tset u.rdma.intake fn [] }.rdmaCount 0

/-- What follows a packet in the same instant: the host scheduler sees the intake's room, and storage requests that have ended are settled. -/
def State.received (v : State) : State := (v.syncSched hostSched).settle

/-- A new Windlass request with a valid header and a good payload (R463-R466): the line is listened to, a session is open, firmware runs, and
`seq` is not that of the response kept. -/
structure Probes (u : State) (seq : Nat) : Prop where
  plain : u.Plain
  runs : u.firmware = true
  listens : u.dbg.deaf = false
  open_ : u.dbg.connected = true
  fresh : ∀ r, u.dbg.last = some r → r.seq ≠ seq

/-- The request has been heard and counted. -/
def State.probed (u : State) : State := { u with dbg.heard := u.elapsed }.dbgCount 0

/-- Nothing but the command's own effect shows: a reset or a reset close is on, or no report is under way. -/
def State.Calm (u : State) : Prop := u.dead = true ∨ u.Plain

/-- What device reset leaves of the block (R488): every register at its reset value, and of the rest only the commands waiting, the elapsed
time, the free values drawn, what has left the block, the fuses, the flash, the retention store, the TAP, what the map set for the links,
and the pins with the always-on region. -/
def State.atReset (s : State) : State :=
  { pending := s.pending, elapsed := s.elapsed, fresh := s.fresh, out := s.out, fuse := s.fuse
    boot := { slotA := s.boot.slotA, slotB := s.boot.slotB }, led := { retention := s.led.retention }, dbg := { tap := s.dbg.tap }
    pcie := { x8x8 := s.pcie.x8x8, totalVfs := s.pcie.totalVfs }, pw := s.pw }

/-- While device reset is on, nothing but that is held. -/
def State.ResetClean (s : State) : Prop := s.pw.inReset = true → s = s.atReset

/-- Device reset has begun from `u`, recorded with `cause` and `closed` (R487, R488, R495, R499): of the block is left only what `State.atReset` says; the
pins and the always-on region stay as they are; the fuses are latched, a burn stops where it stands; every output takes its reset column. -/
structure ResetFrom (u t : State) (cause : Nat) (closed : Bool) : Prop where
  clean : t = t.atReset
  pins : t.pw = { u.pw with inReset := true, resetBegan := u.elapsed, closing := false, bootDue := false, cause := cause, closed := closed }
  kept : t.pending = u.pending ∧ t.elapsed = u.elapsed ∧ t.led.retention = u.led.retention ∧ t.dbg.tap = u.dbg.tap
  flash : t.boot.slotA = { u.boot.slotA with lastFail := 0, failBlock := 0 } ∧ t.boot.slotB = { u.boot.slotB with lastFail := 0, failBlock := 0 }
  fuses : t.fuse = { u.fuse with
    map := t.fuse.map, live := t.fuse.map, mapCrc := t.fuse.mapCrc, staged := [], burning := none, mapOk := false, floorMet := false } ∧
    (u.fuse.burning = none → t.fuse.map = u.fuse.map ∧ t.fuse.mapCrc = u.fuse.mapCrc)
  links : t.pcie.x8x8 = mapX8X8 t.fuse.map ∧ t.pcie.totalVfs = u.pcie.totalNext
  outputs : .pin .ref10mOut false ∈ t.out ∧ (u.glb.failsafe = true → .pin .failsafeN false ∈ t.out) ∧
    (u.tb.rec0 = true → .pin .recClk0 false ∈ t.out) ∧ (u.tb.rec1 = true → .pin .recClk1 false ∈ t.out) ∧ (u.tb.ppsHigh = true → .pin .ppsOut false ∈ t.out)

/-- A reset close has begun in `t` from `u` by a pin, and will be recorded with `cause` (R487, R489, R495): every open chain takes the reset-close
record; sessions, links and frames on the wire are gone, every output takes its reset column, and the rest is as it was. -/
structure CloseFrom (u t : State) (pin cause : Nat) : Prop where
  chains : t.led.chains = tmap u.led.chains (fun c => c.special u.now u.quality 0x13 true true (le pin 1))
  pins : t.pw = { u.pw with closing := true, closePin := pin, closeCause := cause, closeBegan := u.elapsed }
  silent : t.ports.ports = tmap u.ports.ports (fun x => { x with tx := [] })
  outputs : .pin .ref10mOut false ∈ t.out ∧ (u.glb.failsafe = true → .pin .failsafeN false ∈ t.out) ∧
    (u.tb.rec0 = true → .pin .recClk0 false ∈ t.out) ∧ (u.tb.rec1 = true → .pin .recClk1 false ∈ t.out) ∧ (u.tb.ppsHigh = true → .pin .ppsOut false ∈ t.out)
  rest : t = { u with
    led.chains := t.led.chains, pw := t.pw, ports.ports := t.ports.ports, out := t.out, glb.failsafe := false
    tb.rec0 := false, tb.rec1 := false, tb.ppsHigh := false, pcie.linkA := {}, pcie.linkB := {}, tosen.sessions := [] }

/-- The rows of pins, rails, temperature, the I2C target and the TAP, which act in reset too (R478, R485, R487, R497, R498).
(DEDUCED, unsafe: notes/assumptions/13.md) -/
def pinRow : Instr → Bool
  | .pwrGoodFall _ => true
  | .pwrGoodRise _ => true
  | .perstNAssert _ _ => true
  | .perstNRelease _ => true
  | .resetNAssert _ _ => true
  | .resetNRelease _ => true
  | .vddAuxUp _ => true
  | .vddAuxLoss _ => true
  | .refCoreLoss _ => true
  | .refCoreReturn _ => true
  | .resetCloseTimeout _ => true
  | .thermAssert _ _ => true
  | .thermRelease _ _ => true
  | .thermalCritical _ _ => true
  | .thermalTrip _ _ => true
  | .i2cWrite _ _ => true
  | .tapReset _ => true
  | .extest _ _ _ => true
  | .idcode _ => true
  | .samplePreload _ _ _ => true
  | .clamp _ => true
  | .highz _ => true
  | .extestPulse _ _ _ _ => true
  | .extestTrain _ _ _ _ => true
  | .bypass _ => true
  | _ => false

/-- The rows of the Ledger that act in a reset close (R100, R489). (DEDUCED, unsafe: notes/assumptions/13.md) -/
def ledgerRow : Instr → Bool
  | .epochClose _ => true
  | .epochRootFinal _ _ => true
  | .checkpointClose _ => true
  | .checkpointSigned _ => true
  | .ledgerQuotaApply _ => true
  | _ => false

/-- The rows of the boot ROM, the recovery function, image and provisioning commands, and register writes, which may write the fuses, what
was latched from them, or the reset and thermal flags. -/
def fuseRow : Instr → Bool
  | .bootRomStart .. => true
  | .bootBlockLanded .. => true
  | .bootSignatureVerified .. => true
  | .recoveryWindowEnd .. => true
  | .recVerOfferWrite .. => true
  | .recBegin .. => true
  | .recChunk .. => true
  | .recFinish .. => true
  | .recFlashWriteDone .. => true
  | .recAbort .. => true
  | .recStatusRequest .. => true
  | .recDataWindowWrite .. => true
  | .recTransferTimeout .. => true
  | .bootRollbackCommit .. => true
  | .bootKeyProgram .. => true
  | .bootKeyRevoke .. => true
  | .bootRestart .. => true
  | .mapCrcCheck .. => true
  | .provStage .. => true
  | .provBurn .. => true
  | .provBurnComplete .. => true
  | .provDebugClose .. => true
  | .provIsoLock .. => true
  | .registerWrite .. => true
  | _ => false

/-- The rows that write device time: the time commands' steps (R45, R59). -/
def timeRow : Instr → Bool
  | .timeSetApply .. => true
  | .timeStepApply .. => true
  | _ => false

end Sys2Proof.Machine
end

