-- ==== Sys2Proof/Certificates/Slice0/Obligations.lean ====
section
/-! DEFINITION. The statements for the provers, family by family. -/
open Sys2Proof Sys2Proof.Machine

/-- The command at the front of the queue is carried out with the queue's rest waiting; on an empty queue the block idles (the model's choice,
notes/assumptions/1.md). -/
def Obligations.StepRunsTheFrontCommand : Prop :=
  (∀ (c : Instr) (r : List Instr) (s : State), s.pending = c :: r → step s = exec c { s with pending := r }) ∧
  (∀ s : State, s.pending = [] → step s = .next s)

/-- R28, R45, R88, R217, R379, R420, R488, R499: the state right after device reset. Device time is 0 and no chain, session, frame, ring or
thread exists; every counter and every byte of the stores is 0; FAILSAFE_N is low; MODE reads that of the boot phase; the retention store
is empty and no checkpoint was closed. Where the spec gives no value, the one read here is the model's (notes/assumptions/9.md). The state is
one that both invariants speak of (`StoresStayCanonical`, `DeviceResetHoldsTheBlock`), and so is the one in which device reset is on with
the registers at these values, but not with device time counted on. Conventions of the model that it rests on: notes/assumptions/6, 36, 165. -/
def Obligations.ResetValues : Prop :=
  let s := State.reset
  s.pending = [] ∧ s.now = 0 ∧ s.ram = [] ∧ s.glb.mode = .boot ∧ s.glb.failsafe = false ∧ s.glb.armed = false ∧ s.glb.drainDone = false ∧
  s.tosen.sessions = [] ∧ s.led.chains = [] ∧ s.led.retention = [] ∧ s.rings.rings = [] ∧ s.cores.cores = [] ∧ s.ports.ports = [] ∧
  s.tb.servo = .freeRun ∧ s.tb.qualified = false ∧ s.pw.inReset = false ∧ s.pw.bootDue = true ∧ s.pw.cause = 0 ∧ s.pw.closed = false ∧
  s.pw.tjMax = 0x80 ∧ s.dbg.connected = false ∧ s.dbg.counters = [0, 0, 0, 0, 0, 0] ∧
  (∀ a, mread s.ram a = 0) ∧ (∀ k, (s.ring k).enable = false) ∧ (∀ p, (s.pt p).state = .disabled) ∧ (∀ c, (s.core c).state = .empty) ∧
  Memory.wf s.ram = true ∧ s.ResetClean ∧ { s with pw.inReset := true }.ResetClean ∧ ¬ { s with pw.inReset := true, now := 1 }.ResetClean

/-- Every command completes: whatever the state, it answers a next state, the commands behind it still wait in their order, and the time that
it names has passed. No command stops the block, and none is lost. -/
def Obligations.EveryCommandCompletes : Prop := ∀ (i : Instr) (s : State), ∃ t, exec i s = .next t ∧
  t.pending = s.pending ∧ t.elapsed = s.elapsed + i.time

/-- R488, R489: while device reset is on, every step keeps every register at its reset value: the block holds only the fuses, the flash, the
always-on region, what stands outside it and the model's own counts. The premise names what that is, and holds at reset. -/
def Obligations.DeviceResetHoldsTheBlock : Prop := ∀ (s t : State), s.ResetClean → step s = .next t → t.ResetClean

/-- The block's stores keep their canonical form at every step: the listed addresses rise and no cell holds the 0 that an unlisted address
reads as, so that equal stores are equal data (R217, R289, R416: SRAM, an allocated page and a staging area read zero until written). Conventions of
the model that it rests on: notes/assumptions/6. -/
def Obligations.StoresStayCanonical : Prop := ∀ (s t : State), Memory.wf s.ram = true → step s = .next t → Memory.wf t.ram = true

/-- R488, R489: in device reset and in a reset close, every command but those of the pins, the rails, temperature, the I2C target and the TAP
lets time pass and nothing else, and in device reset those of the Ledger too. -/
def Obligations.ResetStopsEveryCommand : Prop := ∀ (i : Instr) (s : State), pinRow i = false →
  ((s.elapse i.time).pw.inReset = true → exec i s = .next (s.elapse i.time)) ∧
  ((s.elapse i.time).dead = true → ledgerRow i = false → exec i s = .next (s.elapse i.time))

/-- R45, R98, R385, R395, R499: commands of the running device, whatever they do, change neither the fuses nor the retention store, nor a pin,
the reset state or a thermal flag, and device time moves by the time that has passed alone. Excepted are the rows of pins, the Ledger's
closes, the boot ROM, recovery, images and provisioning, register writes, and the two rows that write device time. Conventions of the model that it
rests on: notes/assumptions/36. -/
def Obligations.CommandsKeepFusesAndTime : Prop := ∀ (i : Instr) (s : State), pinRow i = false → ledgerRow i = false → fuseRow i = false →
  ∃ t, exec i s = .next t ∧ t.pw = (s.elapse i.time).pw ∧ t.fuse = s.fuse ∧ t.led.retention = s.led.retention ∧
    (timeRow i = false → t.now = (s.elapse i.time).now)

/-- R32: MODE_QUERY answers GLB_MODE and the ledger time of entry, READY_QUERY the function's GLB_FN_STATUS, WDOG_CONFIG takes a period of
1 to 65,535 units; nothing else of the block changes but what the reply itself writes on its way out.
R41, R32: RESUME in Drain with `DRAIN_DONE` set returns the device to Priming on cause 0x01, with new chains to open at the next grid point
and the servo as it was; outside Drain, or before `DRAIN_DONE`, it is refused. Conventions of the model that it rests on: notes/assumptions/20, 21,
23. -/
def Obligations.ModeQueriesAndResume : Prop :=
  (∀ (s : State) (dt : Nat) (p : Path) (x : Session) (q : TReq),
  (Issued (s.elapse dt) p x q 0x0101 0 .any → Completes (.modeQuery dt p) s fun t => Agree (s.elapse dt) t ∧
    t.Answered p q 0 [(s.elapse dt).glbMode, nsOf s.glb.modeEntered]) ∧
  (∀ func, Issued (s.elapse dt) p x q 0x0106 1 .any → func < 2 ^ 25 → (s.elapse dt).fnExists (fnOf func) = true →
    Completes (.readyQuery dt p func) s fun t => Agree (s.elapse dt) t ∧ t.Answered p q 0 [(s.elapse dt).fnStatus (fnOf func)]) ∧
  (∀ func, Issued (s.elapse dt) p x q 0x0106 1 .any → func < 2 ^ 25 → (s.elapse dt).fnExists (fnOf func) = false →
    Completes (.readyQuery dt p func) s fun t => Agree (s.elapse dt) t ∧ t.Answered p q 0x02000004 []) ∧
  (∀ period, Issued (s.elapse dt) p x q 0x0105 1 .any → 0 < period → period ≤ 65535 → Completes (.wdogConfig dt p period) s fun t =>
    Agree { s.elapse dt with glb.wdogPeriod := period } t ∧ t.Answered p q 0 []) ∧
  (∀ period, Issued (s.elapse dt) p x q 0x0105 1 .any → period = 0 ∨ 65535 < period → Completes (.wdogConfig dt p period) s fun t =>
    Agree (s.elapse dt) t ∧ t.Answered p q 0x03000001 [])) ∧
  (∀ (s : State) (dt : Nat) (p : Path) (x : Session) (q : TReq),
  Issued (s.elapse dt) p x q 0x0104 0 .any → s.glb.inTransition = false →
  (s.glb.mode ≠ .drain → Completes (.resume dt p) s fun t => Agree (s.elapse dt) t ∧ t.Answered p q 0x02000001 []) ∧
  (s.glb.mode = .drain → s.glb.drainDone = false → Completes (.resume dt p) s fun t =>
    Agree (s.elapse dt) t ∧ t.Answered p q 0x02000003 []) ∧
  (s.glb.mode = .drain → s.glb.drainDone = true → Completes (.resume dt p) s fun t =>
    t.Answered p q 0 [] ∧ t.glb.mode = .priming ∧ t.glb.entryCause = 1 ∧ t.glb.inTransition = true ∧
    t.glb.modeEntered = (s.elapse dt).now ∧ t.led.openDue = some 1 ∧ t.tb.servo = s.tb.servo ∧ t.tb.history = s.tb.history))

/-- R34, R35: ENTER_SERVICE is refused with the first failing code of its list, and otherwise enters Service with the watchdog armed, `FED`
clear and its period counted from the entry; FAILSAFE_N stays as it is. Conventions of the model that it rests on: notes/assumptions/20, 22. -/
def Obligations.EnterServiceConditions : Prop := ∀ (s : State) (dt : Nat) (p : Path) (x : Session) (q : TReq) (accept : Nat),
  Issued (s.elapse dt) p x q 0x0102 1 .any → accept ≤ 1 → s.glb.inTransition = false →
  (s.glb.mode ≠ .priming → Completes (.enterService dt p accept) s fun t => Agree (s.elapse dt) t ∧ t.Answered p q 0x02000001 []) ∧
  (s.glb.mode = .priming → (s.fn 0).ready = false → Completes (.enterService dt p accept) s fun t =>
    Agree (s.elapse dt) t ∧ t.Answered p q 0x02000002 []) ∧
  (s.glb.mode = .priming → (s.fn 0).ready = true → s.tb.qualified = false → accept = 0 → Completes (.enterService dt p accept) s fun t =>
    Agree (s.elapse dt) t ∧ t.Answered p q 0x02000005 []) ∧
  (s.glb.mode = .priming → (s.fn 0).ready = true → s.tb.qualified = true ∨ accept = 1 → Completes (.enterService dt p accept) s fun t =>
    t.Answered p q 0 [] ∧
    Agree { (s.elapse dt).specials 0x02 true false (le 2 1 ++ le 3 1 ++ le 1 1 ++ le (b2n (!s.tb.qualified)) 1) with
      glb := { s.glb with
        mode := .service, entryCause := 1, modeEntered := (s.elapse dt).now, armed := true, fed := false, wdogRunning := s.glb.wdogPeriod
        wdogExpiry := (s.elapse dt).elapsed + s.glb.wdogPeriod * (2 ^ 20 * 65536) } } t)

/-- R39 steps 1 and 2: ENTER_DRAIN in Service before the watchdog's expiry enters Drain on cause 0x01 with the limit given, 2^27 ns for 0, the
drain's registers cleared and FAILSAFE_N asserted, the tables' due ageing sweeps made first; over 2^34 ns, or outside Service, it is refused. The mode-change record is written.
Conventions of the model that it rests on: notes/assumptions/20, 22. -/
def Obligations.EnterDrainBeginsDrain : Prop := ∀ (s : State) (dt : Nat) (p : Path) (x : Session) (q : TReq) (limit : Nat),
  Issued (s.elapse dt) p x q 0x0103 1 .any →
  (2 ^ 34 < limit → Completes (.enterDrain dt p limit) s fun t => Agree (s.elapse dt) t ∧ t.Answered p q 0x03000001 []) ∧
  (limit ≤ 2 ^ 34 → s.glb.inTransition = true → Completes (.enterDrain dt p limit) s fun t =>
    Agree (s.elapse dt) t ∧ t.Answered p q 0x01000001 []) ∧
  (limit ≤ 2 ^ 34 → s.glb.inTransition = false → s.glb.mode ≠ .service → Completes (.enterDrain dt p limit) s fun t =>
    Agree (s.elapse dt) t ∧ t.Answered p q 0x02000001 []) ∧
  (limit ≤ 2 ^ 34 → s.glb.inTransition = false → s.glb.mode = .service → (s.elapse dt).elapsed < s.glb.wdogExpiry →
    Completes (.enterDrain dt p limit) s fun t => t.Answered p q 0 [] ∧
    Agree { (s.elapse dt).sweepAll.specials 0x02 true false (le 3 1 ++ le 4 1 ++ le 1 1 ++ le 0 1) with
      glb := { s.glb with
        mode := .drain, entryCause := 1, modeEntered := (s.elapse dt).now, armed := false, drainDone := false, limitHit := false, abandoned := 0
        drainStep := .draining, drainT0 := (s.elapse dt).elapsed, drainLimit := (if limit = 0 then 2 ^ 27 else limit) * 65536
        failsafe := false } } t)

/-- R35: in Service, a valid feed before the expiry instant sets `FED`, restarts the period and deasserts FAILSAFE_N; a wrong key counts in
`BAD_FEEDS`, which holds at 255; in any other mode, or from the expiry instant on, a feed changes nothing.
R29, R35, R39: at the expiry instant or later the watchdog expires in Service: `EXPIRED` is set, FAILSAFE_N asserted, and Drain entered on
cause 0x03 after the tables' due ageing sweeps, with a limit of 2^27 ns; before it, nothing happens. Conventions of the model that it rests on:
notes/assumptions/105. -/
def Obligations.WatchdogFeedAndExpiry : Prop :=
  (∀ (s : State) (dt value : Nat),
  (s.elapse dt).Settled → (s.elapse dt).barOpen 0 = true →
  (s.glb.mode = .service → (s.elapse dt).elapsed < s.glb.wdogExpiry → value % 65536 = 0x5A17 → Completes (.watchdogFeed dt value) s fun t =>
    Agree { s.elapse dt with
      glb := { s.glb with
        fed := true, wdogRunning := s.glb.wdogPeriod, failsafe := true
        wdogExpiry := (s.elapse dt).elapsed + s.glb.wdogPeriod * (2 ^ 20 * 65536) } } t) ∧
  (s.glb.mode = .service → (s.elapse dt).elapsed < s.glb.wdogExpiry → value % 65536 ≠ 0x5A17 → Completes (.watchdogFeed dt value) s fun t =>
    Agree { s.elapse dt with glb.badFeeds := if s.glb.badFeeds < 255 then s.glb.badFeeds + 1 else 255 } t) ∧
  (s.glb.mode ≠ .service ∨ s.glb.wdogExpiry ≤ (s.elapse dt).elapsed → Completes (.watchdogFeed dt value) s fun t => Agree (s.elapse dt) t)) ∧
  (∀ (s : State) (dt : Nat), (s.elapse dt).Settled → s.glb.mode = .service →
  (s.glb.wdogExpiry ≤ (s.elapse dt).elapsed → Completes (.watchdogExpiry dt) s fun t =>
    Agree { (s.elapse dt).sweepAll.specials 0x02 true false (le 3 1 ++ le 4 1 ++ le 3 1 ++ le 0 1) with
      glb := { s.glb with
        mode := .drain, entryCause := 3, modeEntered := (s.elapse dt).now, expired := true, armed := false, drainDone := false
        limitHit := false, abandoned := 0, drainStep := .draining, drainT0 := (s.elapse dt).elapsed, drainLimit := 2 ^ 27 * 65536
        failsafe := false } } t) ∧
  ((s.elapse dt).elapsed < s.glb.wdogExpiry → Completes (.watchdogExpiry dt) s fun t => Agree (s.elapse dt) t))

/-- R39 steps 4 to 7: once the accepted work is done, or at the limit, what the Sluice stores and the items not yet delivered are discarded and
counted in ABANDONED, the data ports that are not DISABLED or DORMANT are HELD, and at the limit what work is left ends with it; 2^20 ns later the
queues of the HELD ports are emptied and the ports send no more; the drain-end record then closes every open chain, DRAIN_DONE once all of them
are signed. Before its condition each of these changes nothing. R43 step 5: in Lockdown the lockdown record closes every chain that no
final record has closed. R33: a function whose conditions hold becomes ready. Conventions of the model that it rests on: notes/assumptions/24, 25,
84, 182. -/
def Obligations.DrainStepsAndReadiness : Prop := ∀ (s : State) (dt : Nat), (s.elapse dt).Settled →
  let u := s.elapse dt
  let ended := fun (t : State) => t.glb.drainStep = .faulting ∧ t.glb.drainT1 = u.elapsed ∧ t.slu.store = [] ∧ (∀ k, (t.flow k).items = []) ∧
    ∀ p, p < 24 → (t.pt p).state = match (s.pt p).state with
      | .disabled => .disabled
      | .dormant => .dormant
      | _ => .held
  let signed := s.led.chains.all (fun c => !c.2.isOpen && c.2.closing.isEmpty && c.2.waiting.isEmpty)
  (s.glb.mode = .drain → s.glb.drainStep = .draining → u.drainIdle = true → Completes (.drainWorkComplete dt) s fun t => ended t ∧
    t.glb.limitHit = s.glb.limitHit ∧
    ((∀ k, (s.flow k).items = []) → t.glb.abandoned = min 65535 (s.glb.abandoned + s.slu.store.length))) ∧
  (s.glb.mode ≠ .drain ∨ s.glb.drainStep ≠ .draining ∨ u.drainIdle = false → Completes (.drainWorkComplete dt) s fun t => Agree u t) ∧
  (s.glb.mode = .drain → s.glb.drainStep = .draining → s.glb.drainT0 + s.glb.drainLimit ≤ u.elapsed →
    Completes (.drainLimitExpiry dt) s fun t => ended t ∧ t.glb.limitHit = true ∧ t.stor.cmds = [] ∧
      (∀ f ∈ t.pl.frames, t.early f = false) ∧ (∀ w ∈ t.dma.waits, t.early w.2.frame = false) ∧
      ∀ x ∈ t.rdma.intake, ∀ f ∈ x.2, t.early f = false) ∧
  (s.glb.mode ≠ .drain ∨ s.glb.drainStep ≠ .draining ∨ u.elapsed < s.glb.drainT0 + s.glb.drainLimit →
    Completes (.drainLimitExpiry dt) s fun t => Agree u t) ∧
  (s.glb.mode = .drain → s.glb.drainStep = .faulting → s.glb.drainT1 + 2 ^ 20 * 65536 ≤ u.elapsed →
    Completes (.drainTxStop dt) s fun t => t.glb.drainStep = .silent ∧ (∀ p, (t.pt p).state = (s.pt p).state) ∧
      (∀ p, (s.pt p).state = .held → (t.pt p).stopped = true) ∧
      ∀ q, (s.queue q).cfg.kind = 1 → (s.pt (s.queue q).cfg.port).state = .held → (t.queue q).frames = []) ∧
  (s.glb.mode ≠ .drain ∨ s.glb.drainStep ≠ .faulting ∨ u.elapsed < s.glb.drainT1 + 2 ^ 20 * 65536 → Completes (.drainTxStop dt) s fun t => Agree u t) ∧
  (s.glb.mode = .drain → s.glb.drainStep = .silent → Completes (.drainChainClose dt) s fun t =>
    Agree { u.specials 0x0E true true (le s.glb.abandoned 4 ++ le (b2n s.glb.limitHit) 1) with
      glb := { s.glb with drainStep := .closed, drainDone := s.glb.drainDone || signed } } t) ∧
  (s.glb.mode = .lockdown → Completes (.lockdownChainClose dt) s fun t =>
    Agree { u with
      led.chains := tmap s.led.chains (fun c =>
        if c.epoch.final then c else c.special u.now s.quality 0x0F true true (le s.glb.entryCause 1)) } t) ∧
  (∀ fn, u.firmware = true → s.glb.mode ≠ .lockdown → u.fnExists fn = true → (s.fn fn).inReset = false →
    (fn = 0 → Completes (.functionReady dt fn) s fun t => (t.fn 0).ready = true) ∧
    (fn ≠ 0 → u.portsMapped (u.fnDom fn) = true → (s.fn fn).ready = false → Completes (.functionReady dt fn) s fun t =>
      Agree (u.setFn fn { s.fn fn with ready := true }) t) ∧
    (fn ≠ 0 → u.portsMapped (u.fnDom fn) = false ∨ (s.fn fn).ready = true → Completes (.functionReady dt fn) s fun t => Agree u t))

/-- R46, R49, R51, R52, R54: what the inputs of the timebase do. After the first time set an edge of PPS_IN within 1,000 ns of a whole second
plus the cable delay is present and any other is counted as stray; before it an edge 1 s ± 100 µs after the reference edge is present, and may
be the one a pending time set names, an earlier one is stray and a later one stray but the new reference edge. REF10M_IN and a SyncE lock are lost at once,
and with it a selected reference that uses it. A TOD_IN message that is not whole is discarded, and a label that disagrees with device time is
counted. An ESMC PDU on a port that is up goes to firmware. Conventions of the model that it rests on: notes/assumptions/27, 32. -/
def Obligations.TimeInputs : Prop := ∀ (s : State) (dt : Nat), (s.elapse dt).Settled →
  let u := s.elapse dt
  (s.tb.set = none → s.tb.freeEpoch = false → inWindow u.now s.tb.delayUsed = true → Completes (.ppsInEdge dt) s fun t =>
    Agree { u with tb.ppsSeen := true, tb.ppsEdge := some u.elapsed, tb.todFresh := false } t) ∧
  (s.tb.freeEpoch = false → inWindow u.now s.tb.delayUsed = false → Completes (.ppsInEdge dt) s fun t =>
    Agree { u with tb.strays := satInc s.tb.strays 255 } t) ∧
  (s.tb.freeEpoch = true → s.tb.ppsEdge = none → Completes (.ppsInEdge dt) s fun t =>
    Agree { u with tb.ppsEdge := some u.elapsed, tb.todFresh := false } t) ∧
  (∀ e, s.tb.freeEpoch = true → s.tb.ppsEdge = some e → u.elapsed - e + ns 100000 < second → Completes (.ppsInEdge dt) s fun t =>
    Agree { u with tb.strays := satInc s.tb.strays 255 } t) ∧
  (∀ e, s.tb.freeEpoch = true → s.tb.ppsEdge = some e → second + ns 100000 < u.elapsed - e → Completes (.ppsInEdge dt) s fun t =>
    Agree { u with tb.strays := satInc s.tb.strays 255, tb.ppsEdge := some u.elapsed } t) ∧
  (∀ e w, s.tb.freeEpoch = true → s.tb.ppsEdge = some e → second ≤ u.elapsed - e + ns 100000 → u.elapsed - e ≤ second + ns 100000 →
    s.tb.set = some w → w.edge = none → w.src = 1 → w.notBefore ≤ u.elapsed → Completes (.ppsInEdge dt) s fun t =>
      Agree { u with
        tb.ppsSeen := true, tb.ppsEdge := some u.elapsed, tb.todFresh := false
        tb.set := some { w with edge := some (u.now, w.second * second + s.tb.ppsDelay) } } t) ∧
  (s.tb.ref ≠ 2 → Completes (.ref10mInLoss dt) s fun t => Agree { u with tb.ref10mOk := 0 } t) ∧
  (s.tb.ref = 2 → s.tb.refLost = false → s.tb.servo = .locked → Completes (.ref10mInLoss dt) s fun t =>
    let lost := { u with tb.ref10mOk := 0, tb.refLost := true, tb.refLosses := satInc s.tb.refLosses 255 }.specials 0x07 true false (le 2 1 ++ le 2 1)
    Agree ({ lost with
      tb.servo := .holdover, tb.qualified := false, tb.qualSeconds := 0, tb.held := 2, tb.holdAt := u.elapsed, tb.outOfCapture := false
      tb.history := 0, tb.slew := 0, tb.holdClass := if 600 ≤ s.tb.history ∧ s.tb.oscHold = true then 0 else 3
      }.specials 0x0C false false (le 3 1 ++ le 4 1 ++ le (twos 32 s.tb.phaseErr) 4)) t) ∧
  (∀ port lane, s.tb.syncePort ≠ port ∨ s.tb.ref ≠ 5 → Completes (.synceLockLoss dt port lane) s fun t =>
    Agree { u with
      tb.cdrLost := s.tb.cdrLost ++ [lane], tb.synceOk := if s.tb.syncePort = port then 0 else s.tb.synceOk
      tb.rec0 := s.tb.rec0 && s.tb.out.lane0 != lane, tb.rec1 := s.tb.rec1 && s.tb.out.lane1 != lane } t) ∧
  (∀ lane, s.tb.ref = 5 → s.tb.refLost = false → s.tb.servo = .locked → Completes (.synceLockLoss dt s.tb.syncePort lane) s fun t =>
    t.tb.servo = .holdover ∧ t.tb.refLost = true ∧ t.tb.qualified = false ∧
    Agree ({ u with
      tb.cdrLost := s.tb.cdrLost ++ [lane], tb.synceOk := 0
      tb.rec0 := s.tb.rec0 && s.tb.out.lane0 != lane, tb.rec1 := s.tb.rec1 && s.tb.out.lane1 != lane }.refLoss 8) t) ∧
  (∀ data, data.length ≠ 20 ∨ ofLe (slice data 18 2) ≠ crc16 (slice data 2 16) → Completes (.todInMessage dt data) s fun t => Agree u t) ∧
  (∀ data, data.length = 20 → slice data 0 4 = [0xC3#8, 0x5E#8, 0x01#8, 0x14#8] → ofLe (slice data 18 2) = crc16 (slice data 2 16) →
    (s.tb.freeEpoch = true ∨ (u.now - s.tb.ppsDelay) / second = ofLe (slice data 4 8) → Completes (.todInMessage dt data) s fun t =>
      Agree { u with tb.todLabel := some (ofLe (slice data 4 8), u.elapsed), tb.todFresh := true } t) ∧
    (s.tb.freeEpoch = false → (u.now - s.tb.ppsDelay) / second ≠ ofLe (slice data 4 8) → Completes (.todInMessage dt data) s fun t =>
      Agree { u with
        tb.todLabel := some (ofLe (slice data 4 8), u.elapsed), tb.todFresh := true, tb.todMismatch := satInc s.tb.todMismatch 255 } t)) ∧
  (∀ port level, s.portUp port = true → Completes (.esmcPduReceived dt port level) s fun t =>
    Agree { u with tb.esmc := tset s.tb.esmc port level } t ∧ .ptp port 0x100 0 [level] ∈ t.out) ∧
  (∀ port level, s.portUp port = false → Completes (.esmcPduReceived dt port level) s fun t => Agree u t) ∧
  (∀ present, Completes (.oscHoldPresenceChange dt present) s fun t => Agree { u with tb.oscHold := present } t)

/-- R49, R50: PTP messages act on the time-receiver port and domain alone, and on a port that is up; a Sync gives the offset, and the target of a time set
that PTP is to make, a Delay_Resp or Pdelay_Resp the path delay, a time transmitter answers requests with its receive stamp, Announces are recorded and
never acted on, management messages are discarded and counted, and no Sync for the receipt time-out is a loss. A Sync or a request is sent with the next
sequence number, on a port that is up alone. Conventions of the model that it rests on: notes/assumptions/30, 62, 167. -/
def Obligations.PtpMessages : Prop := ∀ (s : State) (dt : Nat), (s.elapse dt).Settled →
  let u := s.elapse dt
  let rcv := s.tb.ptp.receiver
  let dom := s.tb.ptp.domain
  let heard := fun (origin rx : Nat) => { u with
    tb.ptps.last := some (origin, rx), tb.ptps.sync := none, tb.ptps.heard := u.elapsed, tb.ptps.lost := false
    tb.ptps.offset := (rx : Int) - origin - s.tb.ptps.delay.getD 0 - tget s.tb.ptp.asymmetry rcv 0 }
  let sends := fun (v t : State) (port type seq : Nat) (vals : List Nat) => Agree (v.ptpSend port type seq vals) t ∧
    .ptp port type seq vals ∈ t.out ∧ ∃ f ∈ (t.pt port).tx, f.kind = 5 ∧ f.ptp = some (type, seq)
  (∀ port domain seq two origin rx, s.portUp port = false ∨ port ≠ rcv ∨ domain ≠ dom →
    Completes (.ptpSyncReceived dt port domain seq two origin rx) s fun t => Agree u t) ∧
  (∀ port domain seq origin, s.portUp port = false ∨ port ≠ rcv ∨ domain ≠ dom →
    Completes (.ptpFollowUpReceived dt port domain seq origin) s fun t => Agree u t) ∧
  (∀ seq origin rx, s.portUp rcv = true → Completes (.ptpSyncReceived dt rcv dom seq true origin rx) s fun t =>
    Agree { u with tb.ptps.sync := some (seq, rx) } t) ∧
  (∀ seq origin rx, s.portUp rcv = true → s.tb.set = none → Completes (.ptpSyncReceived dt rcv dom seq false origin rx) s fun t =>
    Agree (heard origin rx) t) ∧
  (∀ seq origin rx w d, s.portUp rcv = true → s.tb.set = some w → w.src = 2 → w.edge = none → s.tb.ptps.delay = some d →
    Completes (.ptpSyncReceived dt rcv dom seq false origin rx) s fun t =>
      Agree { heard origin rx with tb.set := some { w with edge := some (u.now, ((u.now : Int) - (heard origin rx).tb.ptps.offset).toNat) } } t) ∧
  (∀ seq origin rx, s.portUp rcv = true → s.tb.set = none → s.tb.ptps.sync = some (seq, rx) →
    Completes (.ptpFollowUpReceived dt rcv dom seq origin) s fun t => Agree (heard origin rx) t) ∧
  (∀ port seq rx, u.firmware = true → s.portUp port = true → s.tb.ptp.profile ≠ 1 → port ∈ s.tb.ptp.transmitters →
    Completes (.ptpDelayReqReceived dt port dom seq rx) s fun t => sends u t port 0x9 seq [rx]) ∧
  (∀ seq tx t1 t2 t4, s.portUp rcv = true → s.tb.ptps.req = some (seq, tx) → s.tb.ptps.last = some (t1, t2) →
    Completes (.ptpDelayRespReceived dt rcv dom seq t4) s fun t =>
      Agree { u with tb.ptps.req := none, tb.ptps.delay := some ((((t2 : Int) - t1) + ((t4 : Int) - tx)) / 2) } t) ∧
  (∀ port seq rx, u.firmware = true → s.portUp port = true → s.tb.ptp.profile = 1 → port = rcv ∨ port ∈ s.tb.ptp.transmitters →
    Completes (.ptpPdelayReqReceived dt port dom seq rx) s fun t => sends u t port 0x3 seq [rx]) ∧
  (∀ seq tx t2 t3 rx, s.portUp rcv = true → s.tb.ptp.profile = 1 → s.tb.ptps.req = some (seq, tx) →
    Completes (.ptpPdelayRespReceived dt rcv dom seq t2 t3 rx) s fun t =>
      Agree { u with tb.ptps.req := none, tb.ptps.delay := some ((((rx : Int) - tx) - ((t3 : Int) - t2)) / 2) } t) ∧
  (∀ port domain gm, s.portUp port = true → Completes (.ptpAnnounceReceived dt port domain gm) s fun t =>
    Agree { u with tb.ptps.announces := tset s.tb.ptps.announces port gm } t) ∧
  (∀ port, s.portUp port = true → Completes (.ptpManagementReceived dt port) s fun t =>
    Agree { u with tb.ptps.mgmtDropped := inc48 s.tb.ptps.mgmtDropped } t) ∧
  (∀ port domain gm, s.portUp port = false → Completes (.ptpAnnounceReceived dt port domain gm) s (fun t => Agree u t) ∧
    Completes (.ptpManagementReceived dt port) s (fun t => Agree u t)) ∧
  (s.tb.ptps.lost = false → s.tb.ptps.heard + ns (s.tb.ptp.receiptTimeout * s.tb.ptp.announceNs) ≤ u.elapsed → s.tb.ref ≠ 4 → s.tb.ref ≠ 5 →
    Completes (.ptpReceiptTimeout dt) s fun t => Agree { u with tb.ptps.lost := true, tb.ptpOk := 0 } t) ∧
  (s.tb.ptps.lost = true ∨ u.elapsed < s.tb.ptps.heard + ns (s.tb.ptp.receiptTimeout * s.tb.ptp.announceNs) →
    Completes (.ptpReceiptTimeout dt) s fun t => Agree u t) ∧
  (∀ port origin, u.firmware = true → s.portUp port = true → port ∈ s.tb.ptp.transmitters → Completes (.ptpSyncTransmit dt port origin) s fun t =>
    sends { u with tb.ptps.seqSync := tset s.tb.ptps.seqSync port ((tget s.tb.ptps.seqSync port 0 + 1) % 65536) } t port 0x0
      (tget s.tb.ptps.seqSync port 0) [origin]) ∧
  (∀ origin, u.firmware = true → s.portUp rcv = true → s.tb.ptp.profile ≠ 1 → rcv < 24 → s.tb.ref = 4 ∨ s.tb.ref = 5 →
    Completes (.ptpDelayReqTransmit dt origin) s fun t =>
      sends { u with tb.ptps.seqReq := (s.tb.ptps.seqReq + 1) % 65536 } t rcv 0x1 s.tb.ptps.seqReq [origin]) ∧
  (∀ port origin, u.firmware = true → s.portUp port = true → s.tb.ptp.profile = 1 → port = rcv ∨ port ∈ s.tb.ptp.transmitters →
    Completes (.ptpPdelayReqTransmit dt port origin) s fun t =>
      sends { u with tb.ptps.seqPreq := tset s.tb.ptps.seqPreq port ((tget s.tb.ptps.seqPreq port 0 + 1) % 65536) } t port 0x2
        (tget s.tb.ptps.seqPreq port 0) [origin]) ∧
  (∀ port origin, u.firmware = false ∨ s.portUp port = false → Completes (.ptpSyncTransmit dt port origin) s (fun t => Agree u t) ∧
    Completes (.ptpPdelayReqTransmit dt port origin) s (fun t => Agree u t) ∧
    (port = rcv → Completes (.ptpDelayReqTransmit dt origin) s fun t => Agree u t))

/-- R55, R56, R57: the servo at the end of an evaluation second with its reference present: in FREQ_ACQ a cut second is passed over, and after a whole one the
frequency is corrected by the drift, with PHASE_ACQ once less than 2 ppb is left; PHASE_ACQ to LOCKED within both lock limits with QUAL_SECONDS 1; in
LOCKED one more, with QUALIFIED at 16 and the history of qualified seconds counted to 600; unchanged between the limits when qualified; back to PHASE_ACQ
beyond a loss-of-lock limit; and the classes of holdover by its age. The phase slew is toward zero, by at most 200 ns in the second, and none beyond the
capture range; references 3 and 4 give the frequency by the same drift. Each change of state or class has its record. Conventions of the model that
it rests on: notes/assumptions/29. -/
def Obligations.ServoSeconds : Prop := ∀ (s : State) (dt : Nat) (phase drift : Int) (r y : Bool), (s.elapse dt).Settled →
  let u := s.elapse dt
  let seen : Tb := { s.tb.evalPresence r y with phaseErr := satPhase phase }
  let err := le (twos 32 (satPhase phase)) 4
  let live := u.now % second = 0 ∧ s.tb.outNext = none ∧ (4 ≤ s.tb.ref ∨ (2 ≤ s.tb.ref ∧ s.tb.ppsSeen = true))
  let both := phase.natAbs ≤ 256 ∧ drift.natAbs ≤ 131072
  let steered := fun (t : State) => (s.tb.ref = 3 ∨ s.tb.ref = 4 → t.tb.freqAdj = clampAdj (s.tb.freqAdj - drift)) ∧
    t.tb.freqAdj = clampAdj t.tb.freqAdj ∧ t.tb.slew.natAbs ≤ 200 * 65536 ∧ (0 ≤ phase → t.tb.slew ≤ 0) ∧ (phase ≤ 0 → 0 ≤ t.tb.slew) ∧
    (256000 < phase.natAbs → t.tb.slew = 0)
  let steer := fun (t : State) => { u with tb := { seen with freqAdj := t.tb.freqAdj, slew := t.tb.slew }, fresh := t.fresh }
  let adj := clampAdj (s.tb.freqAdj - drift)
  (live → s.tb.servo = .freqAcq → s.tb.acqPart = true → Completes (.evaluationSecondEnd dt phase drift r y) s fun t =>
    Agree { u with tb := { seen with acqPart := false } } t) ∧
  (live → s.tb.servo = .freqAcq → s.tb.acqPart = false → (drift - (s.tb.freqAdj - adj)).natAbs ≤ 131072 →
    Completes (.evaluationSecondEnd dt phase drift r y) s fun t =>
      Agree ({ u with tb := { seen with freqAdj := adj, servo := .phaseAcq } }.specials 0x0C false false (le 1 1 ++ le 2 1 ++ err)) t) ∧
  (live → s.tb.servo = .freqAcq → s.tb.acqPart = false → 131072 < (drift - (s.tb.freqAdj - adj)).natAbs →
    Completes (.evaluationSecondEnd dt phase drift r y) s fun t => Agree { u with tb := { seen with freqAdj := adj } } t) ∧
  (live → s.tb.servo = .phaseAcq → both → Completes (.evaluationSecondEnd dt phase drift r y) s fun t => steered t ∧
    Agree ({ steer t with tb.servo := .locked, tb.qualSeconds := 1, tb.outOfCapture := false }.specials 0x0C false false
      (le 2 1 ++ le 3 1 ++ err)) t) ∧
  (live → s.tb.servo = .phaseAcq → phase.natAbs ≤ 256000 → ¬ both → Completes (.evaluationSecondEnd dt phase drift r y) s fun t => steered t ∧
    Agree { steer t with tb.outOfCapture := false } t) ∧
  (live → s.tb.servo = .phaseAcq → 256000 < phase.natAbs → Completes (.evaluationSecondEnd dt phase drift r y) s fun t => steered t ∧
    Agree { steer t with tb.outOfCapture := true } t) ∧
  (live → s.tb.servo = .locked → both → Completes (.evaluationSecondEnd dt phase drift r y) s fun t => steered t ∧
    Agree { steer t with
      tb.qualSeconds := min (s.tb.qualSeconds + 1) 16, tb.qualified := s.tb.qualified || decide (16 ≤ s.tb.qualSeconds + 1)
      tb.history := if s.tb.qualified then min (s.tb.history + 1) 600 else 0 } t) ∧
  (live → s.tb.servo = .locked → ¬ both → phase.natAbs ≤ 512 → drift.natAbs ≤ 262144 → Completes (.evaluationSecondEnd dt phase drift r y) s fun t =>
    steered t ∧
    Agree { steer t with
      tb.history := if s.tb.qualified then min (s.tb.history + 1) 600 else s.tb.history
      tb.qualSeconds := if s.tb.qualified then s.tb.qualSeconds else 0 } t) ∧
  (live → s.tb.servo = .locked → 512 < phase.natAbs ∨ 262144 < drift.natAbs → Completes (.evaluationSecondEnd dt phase drift r y) s fun t =>
    steered t ∧
    Agree ({ steer t with tb.servo := .phaseAcq, tb.qualSeconds := 0, tb.qualified := false, tb.history := 0 }.specials 0x0C false false
      (le 3 1 ++ le 2 1 ++ err)) t) ∧
  (u.now % second = 0 → s.tb.outNext = none → 2 ≤ s.tb.ref → s.tb.servo = .holdover → s.tb.refLost = true → s.tb.released = false →
    (s.tb.evalPresence r y).presentFor2 s.tb.ref = true → Completes (.evaluationSecondEnd dt phase drift r y) s fun t =>
      let back := { u with tb := { s.tb.evalPresence r y with refLost := false, delayUsed := s.tb.ppsDelay } }.specials 0x08 true false (le s.tb.ref 1)
      Agree ({ back with tb.servo := .phaseAcq }.specials 0x0C false false (le 4 1 ++ le 2 1 ++ le (twos 32 s.tb.phaseErr) 4)) t) ∧
  (u.now % second ≠ 0 → Completes (.evaluationSecondEnd dt phase drift r y) s fun t => Agree u t) ∧
  (s.tb.servo = .holdover → s.tb.holdClass < 3 → classOfAge u.ageS ≠ s.tb.holdClass → Completes (.holdoverClassChange dt) s fun t =>
    Agree ({ u with tb.holdClass := if u.ageS < 1000 then 0 else if u.ageS < 7200 then 1 else 2 }.specials 0x0D false false
      (le s.tb.holdClass 1 ++ le (if u.ageS < 1000 then 0 else if u.ageS < 7200 then 1 else 2) 1 ++ le u.ageS 4)) t) ∧
  (s.tb.servo ≠ .holdover ∨ s.tb.holdClass = 3 ∨ classOfAge u.ageS = s.tb.holdClass → Completes (.holdoverClassChange dt) s fun t => Agree u t)

/-- R53, R54, R56, R59, R61, R62, R66: the commands of group 0x02 that are no configuration of outputs or PTP: what each answers, refuses, sets and
records. Conventions of the model that it rests on: notes/assumptions/28, 29, 32, 167, 168. -/
def Obligations.TimeCommands : Prop := ∀ (s : State) (dt : Nat) (p : Path) (x : Session) (q : TReq),
  let u := s.elapse dt
  let denied := fun (code : Nat) (t : State) => Agree u t ∧ t.Answered p q code []
  (Issued u p x q 0x0201 0 .any → Completes (.timeQuery dt p) s fun t => Agree u t ∧
    t.Answered p q 0 [nsOf u.now, fracOf u.now, u.quality, u.tbStatus, twos 64 s.tb.phaseErr,
      twos 64 (clampAdj (s.tb.freqAdj + s.tb.slew)), u.ageS, s.tbUtc, s.tb.leapNs]) ∧
  (∀ code label tai ptp synce, Issued u p x q 0x0202 5 .any →
    let named := code < 2 ∨ 5 < code ∨ 1 < label ∨ (4 ≤ code ∧ 23 < ptp) ∨ (code = 5 ∧ 23 < synce)
    let unfit := (4 ≤ code ∧ u.refPortBad ptp = true) ∨ (code = 5 ∧ u.refPortBad synce = true)
    let gone := s.tb.presentFor2 code = false ∨ (4 ≤ code ∧ ptp ≠ s.tb.ptp.receiver)
    let blank := label = 0 ∧ s.tb.todLabel.all (fun l => l.2 + 2 * second < u.elapsed) = true
    (named → Completes (.timeRefSelect dt p code label tai ptp synce) s (denied 0x03000010)) ∧
    (¬ named → unfit → Completes (.timeRefSelect dt p code label tai ptp synce) s (denied 0x02000011)) ∧
    (¬ named → ¬ unfit → gone → Completes (.timeRefSelect dt p code label tai ptp synce) s (denied 0x02000010)) ∧
    (¬ named → ¬ unfit → ¬ gone → blank → Completes (.timeRefSelect dt p code label tai ptp synce) s (denied 0x02000013)) ∧
    (¬ named → ¬ unfit → ¬ gone → ¬ blank → s.tb.stepping = true →
      Completes (.timeRefSelect dt p code label tai ptp synce) s (denied 0x01000010)) ∧
    (¬ named → ¬ unfit → ¬ gone → ¬ blank → s.tb.stepping = false → Completes (.timeRefSelect dt p code label tai ptp synce) s fun t =>
      let v := { u with
        tb.ref := code, tb.labelSrc := label, tb.ptpPort := if 4 ≤ code then ptp else s.tb.ptpPort
        tb.syncePort := if code = 5 then synce else s.tb.syncePort, tb.servo := .freqAcq, tb.freqAdj := clampAdj (s.tb.freqAdj + s.tb.slew)
        tb.slew := 0, tb.delayUsed := s.tb.ppsDelay, tb.refLost := false, tb.released := false, tb.qualified := false, tb.qualSeconds := 0
        tb.history := 0, tb.outOfCapture := false, tb.acqPart := decide (u.now % second ≠ 0)
        tb.set := if s.tb.freeEpoch then some { src := if 4 ≤ code then 2 else label, second := tai, notBefore := u.elapsed + ns (2 ^ 27) } else none
        }.specials 0x05 true false (le code 1 ++ le label 1 ++ le ptp 1 ++ le synce 1)
      t.Answered p q 0 [] ∧ Agree (if s.tb.servo = .freqAcq then v
        else v.specials 0x0C false false (le s.tb.servo.code 1 ++ le 1 1 ++ le (twos 32 s.tb.phaseErr) 4)) t)) ∧
  (∀ delay, Issued u p x q 0x0203 1 .any →
    (s.tb.stepping = true → Completes (.timeSetPpsDelay dt p delay) s (denied 0x01000010)) ∧
    (s.tb.stepping = false → delay % 2 ^ 32 = s.tb.ppsDelay → Completes (.timeSetPpsDelay dt p delay) s (denied 0)) ∧
    (s.tb.stepping = false → delay % 2 ^ 32 ≠ s.tb.ppsDelay → Completes (.timeSetPpsDelay dt p delay) s fun t => t.Answered p q 0 [] ∧
      Agree ({ u with
        tb.ppsDelay := delay % 2 ^ 32, tb.delayUsed := if s.tb.servo = Servo.holdover then s.tb.delayUsed else delay % 2 ^ 32
        tb.qualified := false, tb.qualSeconds := 0, tb.history := 0 }.specials 0x09 true false (le (delay % 2 ^ 32) 4)) t)) ∧
  (∀ (kind : Nat) (value : Int) (frac : Nat), Issued u p x q 0x0204 3 .any →
    let g := stepPoint u.now
    let tgt : Int := if kind = 0 then (g : Int) + value * 65536 + frac else value * 65536 + frac
    let bad := 1 < kind ∨ 65536 ≤ frac ∨ tgt = g ∨ tgt < 0 ∨ 2 ^ 80 ≤ tgt
    (bad → Completes (.timeStep dt p kind value frac) s (denied 0x03000011)) ∧
    (¬ bad → s.tb.stepping = true → Completes (.timeStep dt p kind value frac) s (denied 0x01000010)) ∧
    (¬ bad → s.tb.stepping = false → Completes (.timeStep dt p kind value frac) s fun t =>
      Agree { u with tb.step := some { g := g, target := tgt.toNat, kind := kind } } t ∧
      t.Answered p q 0 [nsOf g, nsOf tgt.toNat, fracOf tgt.toNat])) ∧
  (∀ off, Issued u p x q 0x0205 1 .any →
    (off < -32768 ∨ 32767 < off → Completes (.timeSetUtc dt p off) s (denied 0x03000015)) ∧
    (-32768 ≤ off → off ≤ 32767 → off ≠ s.tb.utcOffset ∨ s.tb.leapState ≠ 0 → Completes (.timeSetUtc dt p off) s fun t => t.Answered p q 0 [] ∧
      Agree { u with tb.utcNext := some off, tb.utcAt := u.elapsed } t) ∧
    (-32768 ≤ off → off ≤ 32767 → off = s.tb.utcOffset → s.tb.leapState = 0 → Completes (.timeSetUtc dt p off) s (denied 0))) ∧
  (∀ dir at_, Issued u p x q 0x0206 2 .any →
    let bad := at_ % 1000000000 ≠ 0 ∨ ns at_ < u.now + ns (2 ^ 30)
    (dir = 0 → s.tb.leapNs = 0 → Completes (.timeLeapAnnounce dt p dir at_) s (denied 0)) ∧
    (dir = 0 → s.tb.leapNs ≠ 0 → Completes (.timeLeapAnnounce dt p dir at_) s fun t => t.Answered p q 0 [] ∧
      Agree ({ u with tb.leapNs := 0, tb.leapDir := 0, tb.leapState := 0 }.specials 0x0B false false (le 0 1 ++ le s.tb.leapNs 8)) t) ∧
    (dir ≠ 0 → (dir ≠ 1 ∧ dir ≠ -1) ∨ bad → Completes (.timeLeapAnnounce dt p dir at_) s (denied 0x03000012)) ∧
    (dir = 1 ∨ dir = -1 → ¬ bad → s.tb.leapNs ≠ 0 → Completes (.timeLeapAnnounce dt p dir at_) s (denied 0x02000012)) ∧
    (dir = 1 ∨ dir = -1 → ¬ bad → s.tb.leapNs = 0 → s.tb.leapState = 3 → Completes (.timeLeapAnnounce dt p dir at_) s (denied 0x02000014)) ∧
    (dir = 1 ∨ dir = -1 → ¬ bad → s.tb.leapNs = 0 → s.tb.leapState ≠ 3 → Completes (.timeLeapAnnounce dt p dir at_) s fun t =>
      t.Answered p q 0 [] ∧ Agree ({ u with tb.leapNs := at_, tb.leapDir := dir, tb.leapState := if dir = 1 then 1 else 2 }.specials 0x0B false false
        (le (twos 8 dir) 1 ++ le at_ 8)) t)) ∧
  (Issued u p x q 0x0209 0 .any → s.tb.ref < 2 ∨ s.tb.released = true → Completes (.timeRefRelease dt p) s (denied 0)) ∧
  (Issued u p x q 0x0209 0 .any → 2 ≤ s.tb.ref → s.tb.released = false → Completes (.timeRefRelease dt p) s fun t =>
    let v := { u with tb.set := none, tb.released := true }.specials 0x06 true false (le s.tb.ref 1)
    t.Answered p q 0 [] ∧ t.tb.servo = .holdover ∧ t.tb.released = true ∧ t.tb.set = none ∧
    Agree (if s.tb.servo = .holdover then v else v.holdoverEntry) t)

/-- R50, R63, R66: TIME_OUTPUT_CONFIG and TIME_PTP_CONFIG refuse what is out of range or absent; else the outputs change at the next whole second, and the
PTP settings at once. PPS_OUT rises when the count reaches N × 10^9 − advance, TOD_OUT labels the edge with N 10 ms after it.
R54, R59, R60, R61: a step or time set moves the count to its target at its grid point, clears the free-run epoch and counts in STEPS, a
step in FREE_RUN making the reference code 1 and one in LOCKED leading to PHASE_ACQ; UTC_OFFSET changes at the grid point after
TIME_SET_UTC and at t_L; nothing happens before its instant. Conventions of the model that it rests on: notes/assumptions/26, 30, 31, 32, 62, 63,
174. -/
def Obligations.TimeOutputsAndApplies : Prop :=
  (∀ (s : State) (dt : Nat) (p : Path) (x : Session) (q : TReq),
  let u := s.elapse dt
  let denied := fun (code : Nat) (t : State) => Agree u t ∧ t.Answered p q code []
  (∀ a w r d l0 d0 l1 d1, Issued u p x q 0x0207 8 .any →
    let bad := 2 ^ 32 ≤ a ∨ w < 1 ∨ 500 < w ∨ 1 < r ∨ 1 < d ∨ (l0 ≠ 0xFF ∧ 24 ≤ l0) ∨ (l1 ≠ 0xFF ∧ 24 ≤ l1) ∨ 1 < d0 ∨ 1 < d1
    let absent := (l0 ≠ 0xFF ∧ u.portCount ≤ l0) ∨ (l1 ≠ 0xFF ∧ u.portCount ≤ l1)
    (bad → Completes (.timeOutputConfig dt p a w r d l0 d0 l1 d1) s (denied 0x03000013)) ∧
    (¬ bad → absent → Completes (.timeOutputConfig dt p a w r d l0 d0 l1 d1) s (denied 0x02000011)) ∧
    (¬ bad → ¬ absent → Completes (.timeOutputConfig dt p a w r d l0 d0 l1 d1) s fun t => t.Answered p q 0 [] ∧
      Agree { u with
        tb.outAt := nextMult u.now second
        tb.outNext := some { advance := a, width := w, ref10m := decide (r = 1), tod := decide (d = 1)
                             lane0 := min l0 32, div0 := d0, lane1 := min l1 32, div1 := d1 } } t)) ∧
  (∀ prof dom tr rcv txs sy de pd an tm asym, Issued u p x q 0x0208 34 .any →
    let tx := (List.range 64).filter (fun n => txs.testBit n)
    let bad := 2 < prof ∨ 255 < dom ∨ 2 < tr ∨ (23 < rcv ∧ rcv ≠ 0xFF) ∨ 8 < tx.length ∨ (∃ n ∈ tx, 23 < n) ∨ sy < 1 ∨ 128 < sy ∨ de < 1 ∨ 128 < de ∨
      pd < 1 ∨ 128 < pd ∨ an = 0 ∨ tm = 0
    let absent := (rcv ≤ 23 ∧ u.portCount ≤ rcv) ∨ ∃ n ∈ tx, u.portCount ≤ n
    (bad → Completes (.timePtpConfig dt p prof dom tr rcv txs sy de pd an tm asym) s (denied 0x03000014)) ∧
    (¬ bad → absent → Completes (.timePtpConfig dt p prof dom tr rcv txs sy de pd an tm asym) s (denied 0x02000011)) ∧
    (¬ bad → ¬ absent → Completes (.timePtpConfig dt p prof dom tr rcv txs sy de pd an tm asym) s fun t => t.Answered p q 0 [] ∧
      Agree { u with
        tb.ptp := { profile := prof, domain := dom, transport := tr, receiver := min rcv 32, transmitters := tx, syncRate := sy, delayRate := de
                    pdelayRate := pd, announceNs := an, receiptTimeout := tm, grandmaster := s.tb.ptp.grandmaster
                    asymmetry := (List.range 24).map (fun n => (n, asym.getD n 0)) }
        tb.ptps := { s.tb.ptps with sync := none, req := none, delay := none } } t))) ∧
  (∀ (s : State) (dt : Nat), (s.elapse dt).Settled →
  let u := s.elapse dt
  let v := u.installOut
  (v.outputsRun = true → (v.now + v.tb.out.advance) % second = 0 → Completes (.ppsOutEdge dt) s fun t => .pin .ppsOut true ∈ t.out ∧
    Agree { v with
      tb.ppsHigh := true, tb.ppsFellAt := u.elapsed + ns (v.tb.out.width * 1000000), tb.lastSecond := (u.now + v.tb.out.advance) / second
      tb.todDue := if v.tb.out.tod then some (u.elapsed + ns 10000000, (u.now + v.tb.out.advance) / second) else none } t) ∧
  (v.outputsRun = false ∨ (v.now + v.tb.out.advance) % second ≠ 0 → Completes (.ppsOutEdge dt) s fun t => Agree v t) ∧
  (∀ o, s.tb.outNext = some o → (u.now < s.tb.outAt → v = u) ∧ (s.tb.outAt ≤ u.now → v.tb.out = o ∧ v.tb.outNext = none ∧
    v.tb.rec0 = (u.outputsRun && u.laneLocked o.lane0) ∧ v.tb.rec1 = (u.outputsRun && u.laneLocked o.lane1))) ∧
  (s.tb.ppsHigh = true → s.tb.ppsFellAt ≤ u.elapsed → Completes (.ppsPulseEnd dt) s fun t =>
    .pin .ppsOut false ∈ t.out ∧ Agree { u with tb.ppsHigh := false } t) ∧
  (s.tb.ppsHigh = false ∨ u.elapsed < s.tb.ppsFellAt → Completes (.ppsPulseEnd dt) s fun t => Agree u t) ∧
  (∀ e n, s.outputsRun = true → s.tb.todDue = some (e, n) → e ≤ u.elapsed → Completes (.todOutMessage dt) s fun t =>
    Agree { u with tb.todDue := none, tb.todSeq := (s.tb.todSeq + 1) % 65536 } t ∧
    .tod (todMessage n s.tb.utcOffset s.tb.leapState (u.qualityAt (e - ns 10000000)) s.tb.todSeq) ∈ t.out) ∧
  (∀ e n, s.tb.todDue = some (e, n) → u.elapsed < e → Completes (.todOutMessage dt) s fun t => Agree u t) ∧
  (∀ w, s.tb.step = some w → u.now = w.g → Completes (.timeStepApply dt) s fun t =>
    let j := { u with tb.step := none }.stepTo 0x04 w.target (le (nsOf w.target) 8 ++ le (fracOf w.target) 2 ++ le w.kind 1)
    t.now = w.target ∧ t.elapsed = u.elapsed ∧ t.tb.freeEpoch = false ∧ t.tb.step = none ∧ t.tb.steps = satInc s.tb.steps 255 ∧
    (s.tb.servo = .freeRun → t.tb.servo = .freeRun ∧ t.tb.ref = 1 ∧ Agree { j with tb.ref := 1 } t) ∧
    (s.tb.servo = .holdover → t.tb.servo = .holdover ∧ t.tb.holdClass = 3 ∧ Agree (j.setClass 3) t) ∧
    (s.tb.servo ≠ .freeRun → s.tb.servo ≠ .holdover → t.tb.servo = .phaseAcq ∧ t.tb.qualified = false ∧ t.tb.qualSeconds = 0 ∧
      Agree ({ j with tb.qualified := false, tb.qualSeconds := 0, tb.history := 0 }.setServo .phaseAcq) t)) ∧
  (∀ w, s.tb.step = some w → u.now ≠ w.g → Completes (.timeStepApply dt) s fun t => Agree u t) ∧
  (∀ w e, s.tb.set = some w → w.edge = some e → u.now % grid 10 = 0 → e.1 < u.now → Completes (.timeSetApply dt) s fun t =>
    let g := (e.2 + (u.now - e.1)) % 2 ^ 80
    t.now = g ∧ t.tb.freeEpoch = false ∧ t.tb.set = none ∧ t.tb.servo = s.tb.servo ∧ t.tb.steps = satInc s.tb.steps 255 ∧
    Agree ({ u with tb.set := none }.stepTo 0x03 g (le (nsOf g) 8 ++ le (fracOf g) 2 ++ le s.tb.ref 1)) t) ∧
  (∀ w, s.tb.set = some w → w.edge = none → Completes (.timeSetApply dt) s fun t => Agree u t) ∧
  (∀ o, s.tb.utcNext = some o → u.now % grid 10 = 0 → s.tb.utcAt < u.elapsed → Completes (.utcOffsetApply dt) s fun t =>
    let v := { u with tb.utcOffset := o, tb.utcNext := none, tb.leapState := if s.tb.leapState = 3 then 0 else s.tb.leapState }
    Agree (if s.tb.utcOffset ≠ o ∨ s.tb.leapState = 3 then
      v.specials 0x0A true false (le (twos 16 s.tb.utcOffset) 2 ++ le (twos 16 o) 2 ++ le 0 1) else v) t) ∧
  (s.tb.utcNext = none ∨ u.now % grid 10 ≠ 0 ∨ u.elapsed ≤ s.tb.utcAt → Completes (.utcOffsetApply dt) s fun t => Agree u t) ∧
  (s.tb.leapNs ≠ 0 → ns s.tb.leapNs ≤ u.now → Completes (.leapApply dt) s fun t =>
    Agree ({ u with tb.utcOffset := s.tb.utcOffset + s.tb.leapDir, tb.leapState := 0, tb.leapNs := 0, tb.leapDir := 0 }.specials 0x0A true false
      (le (twos 16 s.tb.utcOffset) 2 ++ le (twos 16 (s.tb.utcOffset + s.tb.leapDir)) 2 ++ le 1 1)) t) ∧
  (s.tb.leapNs = 0 ∨ u.now < ns s.tb.leapNs → Completes (.leapApply dt) s fun t => Agree u t))

/-- R89, R96, R98, R101, R105, R106: the commands of group 0x03 - the domain's window and the signing backlog; a quota of at most 409 that keeps the
sum at 409, applied later; the cistern's size for the next open; the certificate written and its length; the retained checkpoint; and a domain that is not
enabled refused. Conventions of the model that it rests on: notes/assumptions/37, 38, 40, 170. -/
def Obligations.LedgerCommands : Prop := ∀ (s : State) (dt : Nat) (p : Path) (x : Session) (q : TReq) (dom : Nat),
  (Issued (s.elapse dt) p x q 0x0301 1 (.owner dom) → s.domOn dom = true → Completes (.ledgerStatus dt p dom) s fun t =>
    Agree (s.elapse dt) t ∧ t.Answered p q 0 (s.ledgWindow dom ++ [min s.backlog 255])) ∧
  (Issued (s.elapse dt) p x q 0x0301 1 (.owner dom) → s.domOn dom = false → Completes (.ledgerStatus dt p dom) s fun t =>
    Agree (s.elapse dt) t ∧ t.Answered p q 0x03000020 []) ∧
  (∀ quota, Issued (s.elapse dt) p x q 0x0302 2 .any → s.domOn dom = true → 409 < quota → Completes (.ledgerSetQuota dt p dom quota) s fun t =>
    Agree (s.elapse dt) t ∧ t.Answered p q 0x03000021 []) ∧
  (∀ quota, Issued (s.elapse dt) p x q 0x0302 2 .any → s.domOn dom = true → quota ≤ 409 →
    let others := ((s.doms.filter (fun d => d != dom)).map (fun d => (s.chain d).quotaNext.getD (s.itemQuota d))).sum
    (409 < others + quota → Completes (.ledgerSetQuota dt p dom quota) s fun t => Agree (s.elapse dt) t ∧ t.Answered p q 0x02000020 []) ∧
    (others + quota ≤ 409 → quota ≠ s.itemQuota dom → Completes (.ledgerSetQuota dt p dom quota) s fun t => t.Answered p q 0 [] ∧
      Agree { s.elapse dt with led.chains := tset s.led.chains dom { s.chain dom with quotaNext := some quota } } t) ∧
    (others + quota ≤ 409 → quota = s.itemQuota dom → (s.chain dom).quotaNext = none → Completes (.ledgerSetQuota dt p dom quota) s fun t =>
      t.Answered p q 0 [] ∧ Agree (s.elapse dt) t)) ∧
  (∀ size, Issued (s.elapse dt) p x q 0x0303 2 .any → s.domOn dom = true →
    let s1 : State := { s.elapse dt with led.chains := tset s.led.chains dom { s.chain dom with sizeNextKib := size * 1024 } }
    (size < 64 ∨ (s.memCeil dom).getD s.pagesTotal < size * 16 → Completes (.ledgerSetCistern dt p dom size) s fun t =>
      Agree (s.elapse dt) t ∧ t.Answered p q 0x03000022 []) ∧
    (64 ≤ size → size * 16 ≤ (s.memCeil dom).getD s.pagesTotal → s1.poolsOk = true → Completes (.ledgerSetCistern dt p dom size) s fun t =>
      Agree s1 t ∧ t.Answered p q 0 [])) ∧
  (∀ which addr len, Issued (s.elapse dt) p x q 0x0304 4 (.owner dom) → which ≤ 2 → addr < 2 ^ 63 →
    let cert := if which = 2 then ledgerCert s.fuse.serial s.fuse.prodDate dom (s.chain dom).certNo else Config.issuedCert which
    (s.domOn dom = false → Completes (.ledgerCertGet dt p dom which addr len) s fun t => Agree (s.elapse dt) t ∧ t.Answered p q 0x03000020 []) ∧
    (s.domOn dom = true → Completes (.ledgerCertGet dt p dom which addr len) s fun t => Agree (s.elapse dt) t ∧
      t.Answered p q (if len < cert.length then 0x02000021 else 0) (if len < cert.length then [] else [cert.length]) ∧
      ∀ fn rid, p = .ring fn rid → cert.length ≤ len → (s.elapse dt).mute fn = false → (s.elapse dt).waits fn = false → .hostWrite fn addr cert ∈ t.out)) ∧
  (s.domOn dom = false →
    (∀ quota, Issued (s.elapse dt) p x q 0x0302 2 .any → Completes (.ledgerSetQuota dt p dom quota) s fun t =>
      Agree (s.elapse dt) t ∧ t.Answered p q 0x03000020 []) ∧
    (∀ size, Issued (s.elapse dt) p x q 0x0303 2 .any → Completes (.ledgerSetCistern dt p dom size) s fun t =>
      Agree (s.elapse dt) t ∧ t.Answered p q 0x03000020 []) ∧
    (Issued (s.elapse dt) p x q 0x0305 1 (.owner dom) → Completes (.ledgerRetainedGet dt p dom) s fun t =>
      Agree (s.elapse dt) t ∧ t.Answered p q 0x03000020 [])) ∧
  (Issued (s.elapse dt) p x q 0x0305 1 (.owner dom) → s.domOn dom = true → tget? s.led.atOpen dom = none →
    Completes (.ledgerRetainedGet dt p dom) s fun t => Agree (s.elapse dt) t ∧ t.Answered p q 0x02000022 []) ∧
  (∀ b, Issued (s.elapse dt) p x q 0x0305 1 (.owner dom) → s.domOn dom = true → tget? s.led.atOpen dom = some b →
    Completes (.ledgerRetainedGet dt p dom) s fun t =>
      Agree (s.elapse dt) t ∧ t.Answered p q 0 ((List.range 32).map (fun i => ofLe (slice b (8 * i) 8))))

/-- R84, R85, R86, R92, R94: at a grid point each open chain's epoch closes, with a checkpoint due where it holds an immediate or final record;
the root of the oldest closed epoch, once every frame stamped in it has its decision, extends the chain value by SHA-256 over 0x04, the value before and
the root, the root being the empty root for an empty epoch.
R95, R98, R99, R103: the checkpoint that closed first is signed first, and the retention store takes it in the same step; each enabled domain's
chain opens at the grid point with C_init from its predecessor; an export completes a buffer that is full or ends a checkpoint, and its slots are freed once that completion has been written.
Conventions of the model that it rests on: notes/assumptions/21, 35, 36, 37, 40. -/
def Obligations.EpochsRootsAndSigning : Prop :=
  (∀ (s : State) (dt d : Nat), (s.elapse dt).Settled →
  let c := s.chain d
  let now := (s.elapse dt).now
  let undecided := fun (e : Epoch) => s.pl.frames.any (fun (f : Frame) =>
    f.port < 24 && s.portDom f.port == d && f.phase < 2 && e.openedAt ≤ f.feed.at_ && f.feed.at_ < e.closedAt)
  (now % grid 10 ≠ 0 → Completes (.epochClose dt) s fun t => Agree (s.elapse dt) t) ∧
  (now % grid 10 = 0 → c.isOpen = true → c.epoch.start ≠ now → Completes (.epochClose dt) s fun t =>
    Agree { s.elapse dt with led.chains := t.led.chains } t ∧
    (t.chain d).epoch = { start := now, openedAt := (s.elapse dt).elapsed } ∧ (t.chain d).isOpen = !c.epoch.final ∧
    (t.chain d).value = c.value ∧
    ∃ due, (t.chain d).closing = c.closing ++
      [({ c.epoch with closedAt := (s.elapse dt).elapsed, stop := now, quality := s.quality, mask := s.epochMask d c.epoch
                       quota := some (s.itemQuota d) }, due)] ∧
      due.map Due.kind = (if c.epoch.final = true then some 3 else if c.epoch.immediate = true then some 1 else none)) ∧
  (now % grid 10 = 0 → c.isOpen = false → Completes (.epochClose dt) s fun t => t.chain d = c) ∧
  (∀ e due rest, c.closing = (e, due) :: rest → undecided e = true → s.backlog < 64 → Completes (.epochRootFinal dt d) s fun t =>
    Agree (s.elapse dt) t) ∧
  (∀ e rest, c.closing = (e, none) :: rest → e.closedAt < (s.elapse dt).elapsed → undecided e = false → Completes (.epochRootFinal dt d) s fun t =>
    Agree { s.elapse dt with led.chains := t.led.chains, led.backlogSent := t.led.backlogSent } t ∧
    (∀ d', d' ≠ d → t.chain d' = s.chain d') ∧ (t.chain d).closing = rest ∧ (t.chain d).nextSeq = c.nextSeq ∧
    (t.chain d).stream = (c.finalRoot d e).stream ∧ (t.chain d).period = (c.finalRoot d e).period ∧ (t.chain d).waiting = c.waiting ∧
    (t.chain d).value = sha256 ([0x04#8] ++ c.value ++
      (if e.empty = true then sha256 ([0x07#8] ++ le d 1 ++ le (nsOf e.start) 8 ++ le (fracOf e.start) 2)
       else sha256 ([0x03#8] ++ le d 1 ++ e.summary ++ e.frameRoot ++ e.acc)))) ∧
  (∀ e u rest, c.closing = (e, some u) :: rest → e.closedAt < (s.elapse dt).elapsed → undecided e = false → s.glb.mode ≠ .factory → Completes (.epochRootFinal dt d) s fun t =>
    (t.chain d).value = sha256 ([0x04#8] ++ c.value ++ e.root d) ∧ (t.chain d).closing = rest ∧ (t.chain d).closedSeq = c.nextSeq ∧
    (t.chain d).nextSeq = c.nextSeq + 1 ∧ (t.chain d).period = { start := u.nextStart } ∧
    ∃ k, (t.chain d).waiting = c.waiting ++ [k] ∧ k.sequence = c.nextSeq ∧ (t.chain d).prevHash = sha256 k.body ∧
      slice k.body 96 32 = (t.chain d).value ∧ slice k.body 128 32 = slice c.prevHash 0 32) ∧
  (c.closing = [] → s.backlog < 64 → Completes (.epochRootFinal dt d) s fun t => Agree (s.elapse dt) t) ∧
  (now % grid 20 ≠ 0 → Completes (.checkpointClose dt) s fun t => Agree (s.elapse dt) t) ∧
  (now % grid 20 = 0 → c.isOpen = true → c.epoch.start ≠ now → Completes (.checkpointClose dt) s fun t =>
    Agree { s.elapse dt with led.chains := t.led.chains } t ∧
    ∃ e u, (t.chain d).closing.getLast? = some (e, some u) ∧ u.stop = now ∧ u.nextStart = now ∧
      u.kind = (if c.epoch.final = true then 3 else if c.epoch.immediate = true then 1 else 0)) ∧
  (now % grid 10 = 0 → c.isOpen = false → Completes (.ledgerQuotaApply dt) s fun t =>
    Agree { s.elapse dt with led.chains := t.led.chains } t ∧ (t.chain d).isOpen = false) ∧
  (now % grid 10 ≠ 0 → Completes (.ledgerQuotaApply dt) s fun t => Agree (s.elapse dt) t) ∧
  (∀ v, now % grid 10 = 0 → c.isOpen = true → c.epoch.final = false → c.quotaNext = some v → v ≠ s.itemQuota d →
    Completes (.ledgerQuotaApply dt) s fun t =>
      Agree { s.elapse dt with led.chains := t.led.chains } t ∧ (t.chain d).quota = some v ∧ (t.chain d).quotaNext = none ∧
      (t.chain d).epoch.start = now ∧ (t.chain d).epoch.specials = (if c.epoch.start = now then c.epoch.specials else 0) + 1)) ∧
  (∀ (s : State) (dt d : Nat), (s.elapse dt).Settled →
  (∀ k, s.nextToSign = some (d, k) → Completes (.checkpointSigned dt) s fun t =>
    let full := k.body ++ ecdsaSign (ledgerKey d) k.body
    let fill := fun (y : LSlot) => if k.kept && y.chain == (s.chain d).id && k.slot ≤ y.num && y.num < k.slot + 8 then
      { y with data := slice full (32 * (y.num - k.slot)) 32, ready := true } else y
    let signed := t.led.chains.all (fun c => !c.2.isOpen && c.2.closing.isEmpty && c.2.waiting.isEmpty)
    (s.glb.mode = .drain → s.glb.drainStep = .closed → signed = true → t.glb.drainDone = true) ∧
    (s.glb.mode ≠ .drain ∨ s.glb.drainStep ≠ .closed ∨ signed = false → t.glb.drainDone = s.glb.drainDone) ∧
    Agree { s.elapse dt with
      led.chains := tset s.led.chains d { s.chain d with
        waiting := (s.chain d).waiting.drop 1, signedSeq := k.sequence, stream := (s.chain d).stream.map fill }
      led.retention := tset (if s.led.retainBad then [] else s.led.retention) d full, led.retainBad := false
      led.backlogSent := t.led.backlogSent, glb.drainDone := t.glb.drainDone } t) ∧
  (s.nextToSign = none → Completes (.checkpointSigned dt) s fun t => Agree (s.elapse dt) t) ∧
  (s.led.openDue = none → Completes (.chainOpen dt) s fun t => Agree (s.elapse dt) t) ∧
  (∀ cause, s.led.openDue = some cause → (s.elapse dt).now % grid 10 ≠ 0 → Completes (.chainOpen dt) s fun t => Agree (s.elapse dt) t) ∧
  (∀ cause, s.led.openDue = some cause → (s.elapse dt).now % grid 10 = 0 → s.domOn d = true → Completes (.chainOpen dt) s fun t =>
    let kept := if s.led.retainBad then [] else s.led.retention
    Agree { s.elapse dt with led := t.led, glb.inTransition := false, fresh := t.fresh } t ∧ t.led.retention = s.led.retention ∧
    t.led.openDue = none ∧ t.led.atOpen = kept ∧ t.glb.inTransition = false ∧ (t.chain d).isOpen = true ∧
    (t.chain d).epoch.start = (s.elapse dt).now ∧ (if cause = 1 then 2 else 1) ≤ (t.chain d).epoch.specials ∧ (t.chain d).nextSeq = 1 ∧
    (t.chain d).predUnknown = (tget? kept d).isNone ∧ (t.chain d).sizeKib = (s.chain d).sizeNextKib ∧
    (cause = 0 → t.itemQuota d = 409 / s.domCount) ∧
    (tget? kept d = none → (t.chain d).value =
      sha256 ([0x05#8] ++ le d 1 ++ le (t.chain d).id 8 ++ le 0 8 ++ le 0 8 ++ zeros 32)) ∧
    (∀ b, tget? kept d = some b → (t.chain d).value = sha256 ([0x05#8] ++ le d 1 ++ le (t.chain d).id 8 ++
      le (ofLe (slice b 16 8)) 8 ++ le (ofLe (slice b 24 8)) 8 ++ sha256 (b.take 160)))) ∧
  (s.exportRing d = none → Completes (.exportCopy dt d) s fun t => Agree (s.elapse dt) t) ∧
  (∀ k b x rest, s.slu.events = [] → (s.elapse dt).exportRing d = some k → (s.ring k).fetched.find? (fun y => !y.ended) = some b →
    (s.elapse dt).mute (fnOfKey k) = false → b.filled = 0 → (s.chain d).copied = 0 → (s.chain d).stream = x :: rest → x.ready = true → x.ends = true →
    1 ≤ b.len / 32 → s.mem.marks = [] → (s.chain d).sumStopped = false → (s.chain d).retainLow = false → 2 ^ 20 ≤ (s.chain d).freeBytes →
    let cq := s.ring (rkey (fnOfKey k) (s.ring k).cq)
    (cq.enable = true → cq.sump = [] → cq.sumpFull = false → cq.full = false → Completes (.exportCopy dt d) s fun t => (t.chain d).stream = rest ∧
      (t.chain d).copied = 0 ∧ Agree { s.elapse dt with led.chains := t.led.chains, dma.chans := t.dma.chans } t) ∧
    (cq.enable = true → cq.sumpFull = false → cq.sump.length < 64 → cq.full = true → Completes (.exportCopy dt d) s fun t =>
      (t.chain d).stream = x :: rest ∧ (t.chain d).copied = 1 ∧ Agree { s.elapse dt with led.chains := t.led.chains, dma.chans := t.dma.chans } t)))

/-- R63, R70, R71, R114, R115, R126, R128, R198: the states of a data port - alignment lock to CALIBRATING, once auto-negotiation is done where it runs, a
calibration to UP counting LINK_UPS with the release phase set, a lost lock or a slip back to TRAINING counting LINK_DOWNS from UP and FAULT, remote fault to
FAULT and 128 clean columns back to UP, and a wake pattern once a dormancy. A HELD port keeps its state. A port that leaves UP keeps of its frames the one in
progress alone. Conventions of the model that it rests on: notes/assumptions/31, 42, 67. -/
def Obligations.LinkStates : Prop := ∀ (s : State) (dt p : Nat), (s.elapse dt).Settled →
  let x := s.pt p
  let u := s.elapse dt
  let ph := phaseFor (startsPer32 x.mode) (s.sluPort p).comp
  let aimed := { s.sluPort p with phase := ph, goal := ph, left := 0, settled := true }
  let down := u.portLeaves p true (fun f => if f.thru then u.cutTx p f else f)
  let fault := u.portLeaves p false (fun f => f)
  let lost := { x with localFault := true, anDone := false }
  let alone := fun (t : State) => (t.pt p).tx.length ≤ 1 ∧ (∀ r ∈ t.slu.store, x.state = .up → r.port ≠ p) ∧
    ∀ k, k < 24 → k ≠ p → (t.pt k).state = (s.pt k).state
  (x.state = .training → x.cfg.autoneg = false ∨ x.anDone = true → Completes (.pcsAlignLock dt p) s fun t =>
    Agree ((u.setPt p { x with state := .calibrating, calState := 1, localFault := false }).recClkOn p) t) ∧
  (x.state = .training → x.cfg.autoneg = true → x.anDone = false → Completes (.pcsAlignLock dt p) s fun t => Agree u t) ∧
  (x.state = .held → x.calState ≠ 2 → Completes (.pcsAlignLock dt p) s fun t =>
    Agree ((u.setPt p { x with calState := 1, localFault := false }).recClkOn p) t) ∧
  (x.state = .calibrating → ∀ rx tx, Completes (.wellheadCalComplete dt p rx tx) s fun t =>
    Agree (((u.setPt p { x with
      calState := 2, linkRx := rx, linkTx := tx, calRuns := satInc x.calRuns 65535, state := .up, linkUps := satInc x.linkUps 65535
      }).setPhase p aimed).hbCheck) t) ∧
  (x.state = .held → x.calState = 1 → ∀ rx tx, Completes (.wellheadCalComplete dt p rx tx) s fun t =>
    Agree ((u.setPt p { x with calState := 2, linkRx := rx, linkTx := tx, calRuns := satInc x.calRuns 65535 }).setPhase p aimed) t) ∧
  (x.state ≠ .calibrating → x.state ≠ .held → ∀ rx tx, Completes (.wellheadCalComplete dt p rx tx) s fun t => Agree u t) ∧
  (x.state = .calibrating → Completes (.pcsLockLoss dt p) s fun t =>
    Agree ((u.setPt p { lost with state := .training, calState := 0 }).recClksOff p) t) ∧
  (x.state = .up ∨ x.state = .fault → Completes (.pcsLockLoss dt p) s fun t => alone t ∧
    Agree (down.setPt p { lost with state := .training, calState := 0, linkDowns := satInc x.linkDowns 65535, tx := (down.pt p).tx }) t) ∧
  (x.state = .disabled ∨ x.state = .dormant → Completes (.pcsLockLoss dt p) s fun t => Agree u t) ∧
  (x.state = .up ∨ x.state = .fault → x.calState = 2 → Completes (.alignmentSlip dt p) s fun t => alone t ∧
    Agree (down.setPt p { lost with
      state := .training, calState := 1, slips := satInc x.slips 65535, linkDowns := satInc x.linkDowns 65535, tx := (down.pt p).tx }) t) ∧
  (x.calState ≠ 2 → Completes (.alignmentSlip dt p) s fun t => Agree u t) ∧
  (x.state = .up → Completes (.remoteFaultReceived dt p) s fun t => alone t ∧
    Agree (fault.setPt p { fault.pt p with state := .fault, remoteFault := true }) t) ∧
  (x.state = .training ∨ x.state = .calibrating ∨ x.state = .fault ∨ x.state = .held → Completes (.remoteFaultReceived dt p) s fun t =>
    Agree (u.setPt p { x with remoteFault := true }) t) ∧
  (x.state = .fault → Completes (.faultClear dt p) s fun t =>
    Agree ((u.setPt p { x with state := .up, remoteFault := false, localFault := false }).hbCheck) t) ∧
  (x.state ≠ .disabled → x.state ≠ .dormant → Completes (.localFaultDetected dt p) s fun t => Agree (u.setPt p { x with localFault := true }) t) ∧
  (x.state = .training → x.cfg.autoneg = true → Completes (.autonegComplete dt p) s fun t => Agree (u.setPt p { x with anDone := true }) t) ∧
  (x.state ≠ .training ∨ x.cfg.autoneg = false → Completes (.autonegComplete dt p) s fun t => Agree u t) ∧
  (Completes (.autonegNoCommonMode dt p) s fun t => Agree u t) ∧
  (x.state = .dormant → x.wakeSeen = false → Completes (.wakePatternDetected dt p) s fun t => Agree (u.setPt p { x with wakeSeen := true }) t) ∧
  (x.state ≠ .dormant ∨ x.wakeSeen = true → Completes (.wakePatternDetected dt p) s fun t => Agree u t)

/-- R109, R111, R112, R117-R119, R122, R123, R128, R130, R133, R136, R137: the commands of group 0x04 - what each refuses, sets and answers. A port that a
map changes ends its frame in progress truncated, drops the rest and starts anew; the others run on. A lane test's reply comes with its end.
Conventions of the model that it rests on: notes/assumptions/29, 43, 44, 45, 60, 172, 173. -/
def Obligations.PortCommands : Prop := ∀ (s : State) (dt : Nat) (p : Path) (x : Session) (q : TReq) (port : Nat),
  let u := s.elapse dt
  let y := s.pt port
  let denied := fun (code : Nat) (t : State) => Agree u t ∧ t.Answered p q code []
  (∀ modes fecs, Issued u p x q 0x0401 48 .any → modes.all (fun m => decide (m < 16)) = true → fecs.all (fun f => decide (f < 4)) = true →
    (mapShape modes fecs = false → Completes (.portMapSet dt p modes fecs) s (denied 0x03000040)) ∧
    (mapShape modes fecs = true → s.mapLanes modes = false → Completes (.portMapSet dt p modes fecs) s (denied 0x02000041)) ∧
    (mapShape modes fecs = true → s.mapLanes modes = true → s.mapRecords modes = false →
      Completes (.portMapSet dt p modes fecs) s (denied 0x02000040)) ∧
    (mapShape modes fecs = true → s.mapLanes modes = true → s.mapRecords modes = true → Completes (.portMapSet dt p modes fecs) s fun t =>
      t.Answered p q 0 [] ∧
      Agree { u with ports := t.ports, led := t.led, slu := t.slu, tm := t.tm, tb := t.tb, pl := t.pl, mem := t.mem } t ∧
      ∀ k, k < 24 → (t.pt k).mode = nth modes k ∧ (t.pt k).fec = nth fecs k ∧ (k < u.portCount → (t.pt k).given = true) ∧
        (nth modes k = (s.pt k).mode → nth fecs k = (s.pt k).fec →
          (t.pt k).state = (s.pt k).state ∧ (t.pt k).calState = (s.pt k).calState ∧ (t.pt k).tx = (s.pt k).tx) ∧
        (nth modes k ≠ (s.pt k).mode ∨ nth fecs k ≠ (s.pt k).fec →
          (t.pt k).state = (if nth modes k = 0 then .disabled else .training) ∧ (t.pt k).calState = 0 ∧ (t.pt k).tx.length ≤ 1 ∧
          (∀ f ∈ (t.pt k).tx, f.cut = true) ∧ (t.pt k).pausedTo = List.replicate 8 0 ∧ (t.pt k).cfg = (s.pt k).cfg))) ∧
  (∀ mac mf ap st rm rs sp ti ip tci an, Issued u p x q 0x0402 12 (dataPerm port) → mac < 2 ^ 48 → sp < 65536 → ip < 65536 → tci < 65536 → port < 24 →
    let bad := mf < 1522 ∨ 9728 < mf ∨ 1 < ap ∨ 1 < st ∨ 1 < rm ∨ 1 < rs ∨ 2 < ti ∨ 1 < an ∨ (sp ≠ 0x8100 ∧ sp ≠ 0x88A8) ∨ (ip ≠ 0x8100 ∧ ip ≠ 0x88A8)
    (bad → Completes (.portConfig dt p port mac mf ap st rm rs sp ti ip tci an) s (denied 0x03000041)) ∧
    (¬ bad → port < u.portCount → Completes (.portConfig dt p port mac mf ap st rm rs sp ti ip tci an) s fun t => t.Answered p q 0 [] ∧
      Agree (u.setPt port { y with
        cfg := { mac := mac, maxFrame := mf, fcsAppend := ap == 1, fcsStrip := st == 1, fcsRx := rm == 1, rxStrip := rs == 1
                 stripTpid := sp, txInsert := ti, insertTpid := ip, tci := tci, autoneg := an == 1 }
        cfgLog := (u.elapsed, y.cfg) :: y.cfgLog }) t)) ∧
  (Issued u p x q 0x0403 1 (portPerm port) →
    (23 < port → port ≠ 0xFF → Completes (.portStatus dt p port) s (denied 0x03000045)) ∧
    (port < 24 → u.portCount ≤ port → Completes (.portStatus dt p port) s (denied 0x02000041)) ∧
    (port < 24 → port < u.portCount → Completes (.portStatus dt p port) s fun t => Agree u t ∧
      (s.slu.events = [] → t.Answered p q 0 ([u.macStatus port, u.macLanes port, u.macLinks port] ++ (List.range 64).map (fun i => nth y.counters i)))) ∧
    (port = 0xFF → Completes (.portStatus dt p port) s fun t => Agree u t ∧
      (s.slu.events = [] → t.Answered p q 0 ([u.macStatus 24, u.macLanes 24, u.macLinks 24] ++
        (List.range 64).map (fun i => nth (s.pt 24).counters i))))) ∧
  (∀ mode en xoff xon qu, Issued u p x q 0x0404 20 (dataPerm port) → en < 256 → qu < 65536 → port < 24 →
    let c : PfcCfg := { mode := mode, enable := en, xoff := xoff.take 8, xon := xon.take 8, quanta := qu }
    let bad := 2 < mode ∨ (List.range 8).any (fun i => c.tracked i && !(nth xon i < nth xoff i && nth xoff i ≤ tget s.tm.ingRes port 256)) = true
    (bad → Completes (.portPfcConfig dt p port mode en xoff xon qu) s (denied 0x03000042)) ∧
    (¬ bad → port < u.portCount → Completes (.portPfcConfig dt p port mode en xoff xon qu) s fun t => t.Answered p q 0 [] ∧ (t.pt port).pfc = c ∧
      (t.pt port).held = u.heldBytes port mode ∧ (t.pt port).pausedTo = (if mode = y.pfc.mode then y.pausedTo else List.replicate 8 0) ∧
      (t.pt port).state = y.state ∧ (∀ k, k < 24 → k ≠ port → t.pt k = s.pt k) ∧
      Agree { u with ports.ports := t.ports.ports, tm := t.tm } t)) ∧
  (Issued u p x q 0x0405 1 (dataPerm port) → port < 24 → port < u.portCount →
    (y.state = .disabled ∨ y.state = .held → Completes (.portDormant dt p port) s (denied 0x02000042)) ∧
    (y.state = .dormant → Completes (.portDormant dt p port) s (denied 0)) ∧
    (y.state = .training ∨ y.state = .calibrating ∨ y.state = .up ∨ y.state = .fault → Completes (.portDormant dt p port) s fun t =>
      let v := u.portLeaves port true (u.cutTx port)
      t.Answered p q 0 [] ∧ (t.pt port).state = .dormant ∧ (t.pt port).tx.length ≤ 1 ∧ (∀ f ∈ (t.pt port).tx, f.cut = true) ∧
      Agree (v.setPt port { v.pt port with
        state := .dormant, wakeSeen := false, calState := 0, anDone := false, localFault := false, remoteFault := false }) t)) ∧
  (Issued u p x q 0x0406 1 (dataPerm port) → port < 24 → port < u.portCount →
    (y.state ≠ .dormant → Completes (.portWake dt p port) s (denied 0x02000043)) ∧
    (y.state = .dormant → Completes (.portWake dt p port) s fun t => t.Answered p q 0 [] ∧
      Agree (u.setPt port { y with state := .training, wakeSeen := false }) t)) ∧
  (∀ dst pair, Issued u p x q 0x0407 3 .any → dst < 2 ^ 48 → pair < 65536 →
    (port ≠ 0xFF → 23 < port → Completes (.portHeartbeatConfig dt p port dst pair) s (denied 0x03000045)) ∧
    (port < 24 → u.portCount ≤ port → Completes (.portHeartbeatConfig dt p port dst pair) s (denied 0x02000041)) ∧
    (port = 0xFF ∨ (port < 24 ∧ port < u.portCount) → Completes (.portHeartbeatConfig dt p port dst pair) s fun t => t.Answered p q 0 [] ∧
      Agree ({ u with
        ports.hb := { port := if port = 0xFF then none else some port, dst := dst, pair := pair, served := s.ports.hb.served } }.hbCheck) t)) ∧
  (∀ follow speed duplex, Issued u p x q 0x0408 3 .any →
    let bad := 1 < follow ∨ 1 < duplex ∨ (speed ≠ 10 ∧ speed ≠ 100 ∧ speed ≠ 1000) ∨ (speed = 1000 ∧ duplex = 0)
    (follow ≠ 1 → bad → Completes (.portMpConfig dt p follow speed duplex) s (denied 0x03000043)) ∧
    (follow = 1 → Completes (.portMpConfig dt p follow speed duplex) s fun t => t.Answered p q 0 [] ∧
      Agree { u with ports.mp := { s.ports.mp with fixed := none } } t) ∧
    (follow = 0 → ¬ bad → Completes (.portMpConfig dt p follow speed duplex) s fun t => t.Answered p q 0 [] ∧
      Agree { u with ports.mp := { s.ports.mp with fixed := some (speed, duplex = 1), speed := speed, half := duplex = 0 } } t)) ∧
  (∀ rate pat loop dur, Issued u p x q 0x0409 5 .any → port < 24 →
    let bad := 1 < loop ∨ rate < 125 ∨ 11250 < rate ∨ 6 < pat ∨ (pat = 6 ∧ rate ≤ 2800)
    (bad → Completes (.portLaneTest dt p port rate pat loop dur) s (denied 0x03000044)) ∧
    (¬ bad → port < u.portCount → (s.pt (s.lanePort port)).state ≠ .disabled →
      Completes (.portLaneTest dt p port rate pat loop dur) s (denied 0x02000044)) ∧
    (¬ bad → port < u.portCount → (s.pt (s.lanePort port)).state = .disabled → Completes (.portLaneTest dt p port rate pat loop dur) s fun t =>
      t.Executing p q ∧ Agree { u with ports.laneTests := s.ports.laneTests ++
        [{ lane := port, rate := rate, pattern := pat, loop := loop, ends := u.elapsed + dur * grid 20, path := p }] } t))

/-- R123, R124, R130-R134, R137: a lane test's counts go into its reply; MP follows the PHY; a pause timer ends; a priority still asserted has its frame
repeated; a heartbeat goes out at its grid point and its interval is settled, four unheard being a loss. In half duplex a collision on MP is jammed, and
draws a back-off or, late or at the sixteenth attempt, ends the frame; after the back-off the frame is tried again unless carrier is sensed.
Conventions of the model that it rests on: notes/assumptions/44, 45, 46, 47, 65, 173. -/
def Obligations.PortEvents : Prop :=
  (∀ (s : State) (dt : Nat), (s.elapse dt).Settled →
  let u := s.elapse dt
  let m := s.ports.mp
  let h := s.ports.hb
  (∀ l e c lt x q, s.ports.laneTests.find? (fun y => y.lane == l && y.ends ≤ u.elapsed) = some lt → Awaits u lt.path x q 0x0409 →
    Completes (.laneTestEnd dt l e c) s fun t =>
      Agree { u with ports.laneTests := s.ports.laneTests.erase lt } t ∧ t.Answered lt.path q 0 [e, c]) ∧
  (∀ l e c, s.ports.laneTests.find? (fun y => y.lane == l && y.ends ≤ u.elapsed) = none → Completes (.laneTestEnd dt l e c) s fun t => Agree u t) ∧
  (∀ k sp full, m.fixed = none → m.up = false → sp ≠ 1000 ∨ full = true → Completes (.mdioPoll dt true sp full k) s fun t => Agree { u with
    ports.ports := tset s.ports.ports 24 { s.pt 24 with linkUps := satInc (s.pt 24).linkUps 65535 }
    ports.mp := { m with up := true, speed := sp, half := !full, refused := false } } t) ∧
  (∀ k, m.fixed = none → m.up = false → Completes (.mdioPoll dt true 1000 false k) s fun t => Agree { u with
    ports.ports := tset s.ports.ports 24 (s.pt 24), ports.mp := { m with up := false, speed := 1000, half := true, refused := true, backoff := none } } t) ∧
  (∀ k sp full, m.fixed = none → m.up = true → Completes (.mdioPoll dt false sp full k) s fun t => Agree { u.endSessions Session.onMp with
    tosen.partials := [], ports.ports := tset s.ports.ports 24 { s.pt 24 with linkDowns := satInc (s.pt 24).linkDowns 65535 }
    ports.mp := { m with up := false, speed := sp, half := !full, refused := false, backoff := none } } t) ∧
  (∀ p i, nth (s.pt p).pausedTo i ≠ 0 → nth (s.pt p).pausedTo i ≤ u.elapsed → Completes (.pauseTimerExpiry dt p i) s fun t =>
    (t.pt p).pausedTo = setNth (s.pt p).pausedTo i 0 ∧
    Agree ((u.setPt p { s.pt p with pausedTo := setNth (s.pt p).pausedTo i 0 }).syncSched p) t) ∧
  (∀ p i, nth (s.pt p).pausedTo i = 0 ∨ u.elapsed < nth (s.pt p).pausedTo i → Completes (.pauseTimerExpiry dt p i) s fun t => Agree u t) ∧
  (∀ p, let y := s.pt p
    let due := (List.range 8).filter (fun i => y.asserted.testBit i && nth y.refreshAt i ≤ u.elapsed && nth y.held i > nth y.pfc.xon i * 1024)
    (y.state ≠ .up ∨ due = [] → Completes (.pfcRefresh dt p) s fun t => Agree u t) ∧
    (y.state = .up → due ≠ [] → y.tx = [] → Completes (.pfcRefresh dt p) s fun t =>
      (t.pt p).refreshAt = due.foldl (fun r i => setNth r i (u.elapsed + s.quanta p y.pfc.quanta / 2)) y.refreshAt ∧
      (∃ f, (t.pt p).tx = [f] ∧ f.kind = 4 ∧ f.data = (u.pfcFrame p (due.foldl (fun e i => e + 2 ^ i) 0)
        ((List.range 8).map (fun i => if due.contains i then y.pfc.quanta else 0))).data) ∧
      Agree { u with ports.ports := t.ports.ports } t)) ∧
  (∀ p, h.port = some p → s.portUp p = true → s.glb.mode.heartbeats = true → h.waiting = none →
    (u.now % ns 102400 = 0 → h.served ≠ nsOf u.now + 1 → Completes (.heartbeatSend dt) s fun t =>
      t.ports.hb.served = nsOf u.now + 1 ∧ Agree { u with ports.hb := t.ports.hb, ports.ports := t.ports.ports } t ∧
      (u.lineFree p = false ∨ u.holdOk p 64 = false → t.ports.hb.seq = h.seq ∧ t.ports.hb.waiting = some (nsOf u.now, s.quality)) ∧
      (u.lineFree p = true → u.holdOk p 64 = true → t.ports.hb.seq = (h.seq + 1) % 2 ^ 64 ∧
        .frame p (u.heartbeat p (nsOf u.now) s.quality) ∈ t.out ∧ t.ports.hb.waiting = none)) ∧
    (u.now % ns 102400 ≠ 0 ∨ h.served = nsOf u.now + 1 → Completes (.heartbeatSend dt) s fun t => Agree u t)) ∧
  (h.port = none ∨ s.glb.mode.heartbeats = false → Completes (.heartbeatSend dt) s fun t => Agree u t) ∧
  (∀ p k, h.port = some p → h.checking = some k →
    (u.now < (k + 1) * ns 102400 → Completes (.heartbeatIntervalSettle dt) s fun t => Agree u t) ∧
    ((k + 1) * ns 102400 ≤ u.now → k ∈ h.heard → Completes (.heartbeatIntervalSettle dt) s fun t => Agree { u with ports.hb := { h with
      checking := some (k + 1), heard := h.heard.filter (fun i => decide (i > k)), heardLast := true, missed := 0, lost := false } } t) ∧
    ((k + 1) * ns 102400 ≤ u.now → k ∉ h.heard → Completes (.heartbeatIntervalSettle dt) s fun t => Agree { u with ports.hb := { h with
      checking := some (k + 1), heard := h.heard.filter (fun i => decide (i > k)), heardLast := false, missed := h.missed + 1
      lost := h.lost || decide (h.missed = 3) } } t))) ∧
  (∀ (s : State) (dt jam mac : Nat) (b : Bytes) (rest : List (Nat × Bytes)),
  let u := s.elapse dt
  let m := s.ports.mp
  let bit := mpBit m.speed
  u.dead = false → s.ports.pfcDue = [] → (s.led.chains.all (fun e => !e.2.freed)) = true → m.up = true → m.half = true → m.tx = (mac, b) :: rest →
  (m.backoff = none → m.begun ≤ u.elapsed → u.elapsed < m.begun + bit * 8 * ((u.mpBytes mac b).length + 8) →
    (u.elapsed ≤ m.begun + 512 * bit → m.attempts < 15 → Completes (.mpCollision dt jam) s fun t =>
      .mac 24 1 [jam] ∈ t.out ∧ t.ports.mp.tx = m.tx ∧ t.ports.mp.attempts = m.attempts + 1 ∧
      (∃ r, r < 2 ^ min (m.attempts + 1) 10 ∧ t.ports.mp.backoff = some (u.elapsed + 32 * bit + r * (512 * bit))) ∧
      Agree { u with ports.mp := t.ports.mp, fresh := t.fresh } t) ∧
    (m.begun + 512 * bit < u.elapsed ∨ 15 ≤ m.attempts → Completes (.mpCollision dt jam) s fun t =>
      .mac 24 1 [jam] ∈ t.out ∧ t.ports.mp = { m with attempts := 0, tx := rest, begun := u.elapsed + 128 * bit } ∧
      Agree { u with ports.mp := t.ports.mp } t)) ∧
  (∀ e, m.backoff = some e →
    (e ≤ u.elapsed → Completes (.mpBackoffExpiry dt false) s fun t => t.ports.mp = { m with backoff := none, begun := u.elapsed } ∧
      Agree { u with ports.mp := t.ports.mp } t) ∧
    (u.elapsed < e → Completes (.mpBackoffExpiry dt false) s fun t => t.ports.mp = m ∧ Agree u t) ∧
    (Completes (.mpBackoffExpiry dt true) s fun t => t.ports.mp = m ∧ Agree u t)))

/-- R17, R75, R79, R80, R117, R119, R121, R124, R138, R143, R144, R146: a receive event exists only while the port's calibration is valid; it is then
counted and stamped, and its leaf enters the open epoch of its chain among those of its port, whatever becomes of the frame. A HELD port, and one whose
reservation had no room for the largest frame when the first byte came, take nothing more from it. A truncated event goes no further on a port
outside the Spout, a good one to the parser, which gives it its class and path, on the port's pipelines; a PAUSE or PFC frame of the port's mode loads the timers.
R151, R152, R158, R159, R167, R174, R183, R189: a slot of the wheel takes the oldest frame that may go; one bound for the Sump queue is resolved at once,
one to be dropped leaves, and one whose profile has no stage takes its final result; a bucket from HBM gives a waiting stage its result, the last one
resolves the frame, and a poisoned one sends it to the Sump queue, or, in a table of TD0, leads to Lockdown; a port's frames are admitted in order, once resolved; a Spout replica takes the idle
line of its port, and is discarded on a port that cannot take part. Conventions of the model that it rests on: notes/assumptions/33, 34, 41, 47, 48,
50, 53, 54, 55, 57, 58, 65, 175, 176. -/
def Obligations.ReceiveAndPipelines : Prop :=
  (∀ (s : State) (dt p age cut : Nat) (data : Bytes) (trunc : Bool) (pcs : List Nat), (s.elapse dt).Settled →
  let u := s.elapse dt
  let x := s.pt p
  let c := s.chain (s.portDom p)
  let t0 := u.sfdAt (u.elapsed - age) (s.calRx p) 0
  let cfg := x.cfgFor t0
  let stamp := u.stampAt t0
  let tr := trunc || decide (65535 ≤ data.length)
  let fed := u.ledgerFeed p 0 tr t0 (min data.length 65535) data
  let body := data.take (data.length - 4)
  let whole := 64 ≤ data.length ∧ data.length ≤ cfg.maxFrame ∧ data.drop (data.length - 4) = le (fcs body) 4
  (x.calState ≠ 2 → Completes (.receiveEvent dt p age data trunc cut pcs) s fun t => Agree u t) ∧
  (x.calState = 2 → Completes (.receiveEvent dt p age data trunc cut pcs) s fun t =>
    (t.pt p).rxEvents = inc48 x.rxEvents ∧ (t.pt p).lastRx = (stamp, u.qualityAt t0) ∧
    (t.pt p).truncEvents = (if tr = true then inc48 x.truncEvents else x.truncEvents) ∧
    (c.isCurrent t0 = true → tget (t.chain (s.portDom p)).epoch.ports p [] = putLeaf (tget c.epoch.ports p [])
      (stamp, 0, leaf stamp (u.qualityAt t0) (p % 32 + 64 * b2n tr) (min data.length 65535) data)) ∧
    Agree { u with ports := t.ports, led := t.led, pl := t.pl, tm := t.tm, sec := t.sec, mem := t.mem, fresh := t.fresh } t) ∧
  (x.calState = 2 → x.state = .held ∨ u.ingFree p t0 < cfg.maxFrame → Completes (.receiveEvent dt p age data trunc cut pcs) s fun t =>
    Agree (fed.1.whRx p fed.2) t) ∧
  (x.calState = 2 → trunc = true → s.spoutCapable p = false → Completes (.receiveEvent dt p age data trunc cut pcs) s fun t =>
    t.pl.frames = s.pl.frames) ∧
  (x.calState = 2 → trunc = false → x.state ≠ .held → s.spoutCapable p = false → (s.ms p).on = false → cfg.rxStrip = false → cfg.fcsStrip = true →
    cfg.maxFrame ≤ u.ingFree p t0 → whole → ofBe (slice data 12 2) ≠ 0x8808 → s.ports.hb.port ≠ some p →
    Completes (.receiveEvent dt p age data false cut pcs) s fun t =>
      let r := (u.view t0).graph.parse body
      let port : PrsPort := tget (u.view t0).ports p {}
      ∃ f, t.pl.frames = s.pl.frames ++ [f] ∧ f.port = p ∧ f.data = body ∧ f.feed.stamp = stamp ∧ f.feed.len = data.length ∧ f.phase = 0 ∧
        f.dom = s.portOwner p ∧
        (r.flags.testBit 2 = true → f.cls = 0xFFFE ∧ f.queue = port.sump ∧ f.path = (if port.malSump then 2 else 1)) ∧
        (r.flags.testBit 2 = false → r.flags.testBit 3 = true → f.cls = 0xFFFD ∧ f.queue = port.sump ∧ f.path = 2) ∧
        (r.flags.testBit 2 = false → r.flags.testBit 3 = false → f.path = 0 ∧
          ∀ y, (u.view t0).classify (s.portOwner p) p (r.vector p none 0) = some y →
            f.cls = y.cls ∧ f.profile = y.profile ∧ f.notarise = y.notarise ∧ f.pv = r.vector p none y.cls)) ∧
  (ofBe (slice data 12 2) ≠ 0x8808 → Completes (.pauseFrameReceived dt p age data) s fun t => Agree u t) ∧
  (x.calState = 2 → x.state ≠ .held → cfg.maxFrame ≤ u.ingFree p t0 → whole → ofBe (slice data 12 2) = 0x8808 →
    (ofBe (slice data 14 2) = 1 → x.pfc.mode = 1 → Completes (.pauseFrameReceived dt p age data) s fun t =>
      (t.pt p).pausedTo = setNth x.pausedTo 0
        (if ofBe (slice data 16 2) = 0 then 0 else u.elapsed + s.quanta p (ofBe (slice data 16 2))) ∧
      Agree { fed.1 with ports.ports := t.ports.ports, tm := t.tm } t) ∧
    (ofBe (slice data 14 2) = 0x0101 → x.pfc.mode = 2 → Completes (.pauseFrameReceived dt p age data) s fun t =>
      (t.pt p).pausedTo = (List.range 8).foldl (fun l i => if (ofBe (slice data 16 2) % 256).testBit i then
        setNth l i (if ofBe (slice data (18 + 2 * i) 2) = 0 then 0 else u.elapsed + s.quanta p (ofBe (slice data (18 + 2 * i) 2))) else l) x.pausedTo ∧
      Agree { fed.1 with ports.ports := t.ports.ports, tm := t.tm } t))) ∧
  (∀ (s : State) (dt : Nat), (s.elapse dt).Settled →
  let u := s.elapse dt
  (∀ slot, u.slotTaker slot = none ∨ u.slotTurns slot = false → Completes (.pipelineDispatch dt slot) s fun t => Agree u t) ∧
  (∀ slot f, u.slotTaker slot = some f → u.slotTurns slot = true →
    let v := { u with tm.slotAt := some (slot, slotsBegun u.elapsed) }
    let pl := { s.pl with nextPipe := (s.pl.nextPipe + 1) % 3 }
    Completes (.pipelineDispatch dt slot) s (fun t => Agree (v.dispatch f).pfcFlush t) ∧
    (f.path = 2 → Completes (.pipelineDispatch dt slot) s fun t =>
      Agree ({ v with pl := pl }.putFrame { f with pipe := s.pl.nextPipe, phase := 2 }) t) ∧
    (f.path = 1 → Completes (.pipelineDispatch dt slot) s fun t =>
      t.pl = { pl with frames := s.pl.frames.filter (fun y => !y.same f) }) ∧
    (f.path = 0 → f.notarise = false → ((u.view f.feed.at_).profileOf f.dom f.profile).used = [] →
      let fin := ((u.view f.feed.at_).profileOf f.dom f.profile).final
      Completes (.pipelineDispatch dt slot) s fun t =>
        (resDest fin ≠ 2 → t.pl = { pl with frames := s.pl.frames.filter (fun y => !y.same f) }) ∧
        (resDest fin = 2 → t.pl = { pl with frames := s.pl.frames.map (fun y => if y.same f then
          { f with pipe := s.pl.nextPipe, phase := 2, item := if resMark fin then y.item else 0, queue := resQueue fin, meter := resMeter fin } else y) } ∨
          resMark fin = true))) ∧
  (∀ p pos st b, s.pl.frames.any (fun f => f.port == p && f.phase == 1 && f.misses.contains st) = false →
    Completes (.deepCacheFill dt p pos st b) s fun t => Agree u t) ∧
  (∀ f pos st x e o i, (s.pl.frames.filter (fun y => y.port == f.port && y.phase == 1 && y.misses.contains st))[pos]? = some f → s.mem.marks = [] →
    let sg := ((u.view f.feed.at_).profileOf f.dom f.profile).stages.getD st {}
    let key := padKey (rangesKey f.pv sg.key)
    let w := u.tableReady sg.table f.feed
    tget? (w.view f.feed.at_).tables sg.table = some x →
    (x.find key = some (o, i, e) → Completes (.deepCacheFill dt f.port pos st false) s fun t =>
      let g := { f with misses := f.misses.erase st, found := tset f.found st e.result }
      let w1 := (w.cacheTouch x.dom sg.table key).strike sg.table key f.feed.stamp
      Agree (if g.misses = [] then (w1.resolve g).pfcFlush else w1.putFrame g) t) ∧
    (x.find key = none → Completes (.deepCacheFill dt f.port pos st false) s fun t =>
      let g := { f with misses := f.misses.erase st, found := tset f.found st sg.miss, missed := f.missed ++ [st] }
      Agree (if g.misses = [] then (w.resolve g).pfcFlush else w.putFrame g) t) ∧
    (x.dom = 0 → s.glb.mode ≠ .lockdown → Completes (.deepCacheFill dt f.port pos st true) s fun t =>
      t.glb.mode = .lockdown ∧ t.glb.entryCause = 0x11) ∧
    (x.dom ≠ 0 → x.dom < 16 → s.glb.mode ≠ .factory → Completes (.deepCacheFill dt f.port pos st true) s fun t =>
      ∃ g ∈ t.pl.frames, g.port = f.port ∧ g.feed = f.feed ∧ g.phase = 2 ∧ g.path = 2 ∧ g.cls = 0xFFFC ∧ g.misses = [] ∧
        g.queue = (tget (w.view f.feed.at_).ports f.port {} : PrsPort).sump)) ∧
  (∀ p, (s.pl.frames.find? (fun f => f.port == p)).any (fun f => f.phase == 2) = false → Completes (.frameAdmission dt p) s fun t => Agree u t) ∧
  (∀ p f, s.pl.frames.find? (fun f => f.port == p) = some f → f.phase = 2 →
    let v := if f.meter < 32768 then u.admitLower p f.meter s.pl.frames.length else u
    Completes (.frameAdmission dt p) s fun t => Agree ((v.outFrame f).takeIn f).2.pfcFlush t ∧
      (32768 ≤ f.meter → t.pl.frames = s.pl.frames.filter (fun y => !y.same f))) ∧
  (∀ p, s.pl.spoutWait.any (fun r => r.egress == p) = false → Completes (.spoutReplicaStart dt p) s fun t => Agree u t) ∧
  (∀ p, s.pl.spoutWait.any (fun r => r.egress == p) = true → s.portUp p = false ∨ s.spoutCapable p = false → Completes (.spoutReplicaStart dt p) s fun t =>
    t.pl.spoutWait = s.pl.spoutWait.filter (fun r => r.egress != p) ∧
    Agree { u with pl.spoutWait := t.pl.spoutWait, pl.counters := t.pl.counters } t) ∧
  (∀ p r, (s.pl.spoutWait.filter (fun y => y.egress == p)).find? (fun y => !u.pausedOn p y.tc) = some r → s.portUp p = true → s.spoutCapable p = true →
    (u.lineFree p = false ∨ (s.ports.hb.port = some p ∧ s.ports.hb.waiting ≠ none) ∨ u.holdOk p r.data.length = false →
      Completes (.spoutReplicaStart dt p) s fun t => Agree u t) ∧
    (u.lineFree p = true → s.ports.hb.waiting = none → u.holdOk p r.data.length = true → r.egress = p → r.data.length ≤ (s.pt p).cfg.maxFrame →
      Completes (.spoutReplicaStart dt p) s fun t => t.pl = { s.pl with spoutWait := s.pl.spoutWait.erase r } ∧ .frame p r.data ∈ t.out ∧
        (t.pt p).tx.map (fun y => (y.data, y.kind, y.thru)) = [(r.data, 2, false)] ∧
        Agree { u with pl.spoutWait := s.pl.spoutWait.erase r, ports.ports := t.ports.ports } t)))

/-- R140, R141, R146, R147, R148, R155, R156: the commands that load and swap parse graphs and set classifier rules, port settings, key profiles
and quotas; a change is seen by frames stamped from then on. Conventions of the model that it rests on: notes/assumptions/44, 49, 52, 105. -/
def Obligations.ParserSettings : Prop := ∀ (s : State) (dt : Nat) (p : Path) (x : Session) (q : TReq),
  let u := s.elapse dt
  (∀ addr len buf, Issued u p x q 0x0501 2 .any → addr < 2 ^ 63 → graphOf (slice buf 0 (min len 6160)) = none →
    Completes (.parseGraphLoad dt p addr len buf) s fun t => Agree u t ∧ t.Answered p q 0x03000050 []) ∧
  (∀ addr len buf g, Issued u p x q 0x0501 2 .any → addr < 2 ^ 63 → graphOf (slice buf 0 (min len 6160)) = some g → len ≤ 6160 →
    (s.pl.swap = [] → Completes (.parseGraphLoad dt p addr len buf) s fun t => Agree { u with pl.inactive := g } t ∧ t.Answered p q 0 []) ∧
    (s.pl.swap ≠ [] → Completes (.parseGraphLoad dt p addr len buf) s fun t => Agree u t ∧ t.Answered p q 0x01000050 [])) ∧
  (Issued u p x q 0x0502 0 .any → s.pl.inactive.loaded = false → Completes (.parseGraphSwap dt p) s fun t =>
    Agree u t ∧ t.Answered p q 0x02000050 []) ∧
  (Issued u p x q 0x0502 0 .any → s.pl.inactive.loaded = true → Completes (.parseGraphSwap dt p) s fun t =>
    Agree { u with pl.swap := s.pl.swap ++ [p] } t ∧ t.Executing p q) ∧
  (u.Settled → s.pl.swap = [p] → Awaits u p x q 0x0502 → Completes (.parseGraphSwapEffect dt) s fun t => t.Answered p q 0 [] ∧
    Agree { u.setView (fun v => { v with graph := s.pl.inactive }) with
      pl.swap := [], pl.inactive := s.pl.cur.graph, pl.bank := 1 - s.pl.bank } t) ∧
  (∀ dom idx ports addr cls prof n buf, Issued u p x q 0x0503 7 (.owner dom) → dom < 16 → ports < 2 ^ 24 → prof < 1024 → n < 2 → addr < 2 ^ 63 →
    (0xFF00 ≤ cls → cls < 65536 → Completes (.classRuleSet dt p dom idx ports addr cls prof n buf) s fun t =>
      Agree u t ∧ t.Answered p q 0x03000051 []) ∧
    (cls < 0xFF00 → s.ruleQuota dom ≤ idx → Completes (.classRuleSet dt p dom idx ports addr cls prof n buf) s fun t =>
      Agree u t ∧ t.Answered p q 0x02000051 []) ∧
    (cls < 0xFF00 → idx < s.ruleQuota dom → (∀ k, k < 24 → ports.testBit k = true → s.portOwner k = dom) →
      Completes (.classRuleSet dt p dom idx ports addr cls prof n buf) s fun t => t.Answered p q 0 [] ∧
        Agree (u.setView (fun v => { v with
          rules := tset v.rules (dom * 4096 + idx) { ports := ports, value := slice buf 0 128, mask := slice buf 128 128, cls := cls, profile := prof, notarise := n == 1 } })) t)) ∧
  (∀ dom idx, Issued u p x q 0x0504 2 (.owner dom) → dom < 16 → idx < 4096 → Completes (.classRuleClear dt p dom idx) s fun t =>
    t.Answered p q 0 [] ∧ Agree (u.setView (fun v => { v with rules := tdel v.rules (dom * 4096 + idx) })) t) ∧
  (∀ dom quota, Issued u p x q 0x0508 2 .any → dom < 16 → s.pl.cur.rules = [] →
    let others := (((List.range 16).filter (fun d => d != dom)).map s.ruleQuota).sum
    (4096 < others + quota → Completes (.classRuleQuota dt p dom quota) s fun t => Agree u t ∧ t.Answered p q 0x02000054 []) ∧
    (others + quota ≤ 4096 → Completes (.classRuleQuota dt p dom quota) s fun t => t.Answered p q 0 [] ∧
      Agree { u with pl.quotas := tset s.pl.quotas dom { s.plQuota dom with rules := some quota } } t)) ∧
  (∀ port prof mal sump, Issued u p x q 0x0505 4 (dataPerm port) → prof < 4 → mal < 2 → sump < 32768 →
    (23 < port → Completes (.prsPortConfig dt p port prof mal sump) s fun t => Agree u t ∧ t.Answered p q 0x03000053 []) ∧
    (port < 24 → port < s.portCount → s.queueDom sump ≠ some (s.portOwner port) → Completes (.prsPortConfig dt p port prof mal sump) s fun t =>
      Agree u t ∧ t.Answered p q 0x02000053 []) ∧
    (port < 24 → port < s.portCount → s.queueDom sump = some (s.portOwner port) → Completes (.prsPortConfig dt p port prof mal sump) s fun t =>
      t.Answered p q 0 [] ∧ Agree (u.setView (fun v => { v with
        ports := tset v.ports port { (tget v.ports port {} : PrsPort) with keyProfile := prof, malSump := mal == 1, sump := sump } })) t)) ∧
  (∀ prof w ranges, Issued u p x q 0x0506 (3 + 2 * ranges.length) .any → w < 2 → prof < 4 → ranges.length ≤ 8 →
    ranges.all (fun r => decide (1 ≤ r.2 ∧ r.2 ≤ 16 ∧ r.1 + r.2 ≤ 64)) = true →
    ((if w = 1 then 31 else 32) < (ranges.map (·.2)).sum → Completes (.spoutProfileSet dt p prof w ranges) s fun t =>
      Agree u t ∧ t.Answered p q 0x03000052 []) ∧
    ((ranges.map (·.2)).sum ≤ (if w = 1 then 31 else 32) → Completes (.spoutProfileSet dt p prof w ranges) s fun t => t.Answered p q 0 [] ∧
      Agree (u.setView (fun v => { v with keyProfiles := tset v.keyProfiles prof { withPort := w == 1, ranges := ranges } })) t)) ∧
  (∀ port, Issued u p x q 0x0507 1 (dataPerm port) → port < 24 → port < s.portCount → s.slu.events = [] → Completes (.prsStatus dt p port) s fun t =>
    Agree u t ∧ t.Answered p q 0 (
      let own := u.prsPortCfg port :: tget s.pl.counters port [0, 0, 0, 0, 0, 0, 0, 0]
      if x.dom = 0 then own ++ [u.prsStatus] ++ s.pl.malformed.drop 1 ++ s.pl.slow.drop 1 else own)) ∧
  (∀ port on, u.Settled → u.barOpen 0 = true → port < s.portCount → Completes (.spoutEnWrite dt port on) s fun t =>
    Agree (u.setView (fun v => { v with ports := tset v.ports port { (tget v.ports port {} : PrsPort) with spoutEn := on } })) t)

/-- R161, R163, R165, R166, R168, R175, R176, R178: the changes of tables, profiles and Spout entries - what each refuses at acceptance, in the order of the
model's checks, and else that it waits for its commit instant; a batch is accepted whole or names its first refused operation. At the commit the change is
made for frames stamped from then on, earlier ones keep the view before it, and the reply states the instant; a change that became impossible is
refused there, and one that a pending learn must precede waits. Conventions of the model that it rests on: notes/assumptions/38, 52, 53, 54, 56, 57,
92, 94, 131. -/
def Obligations.TableChanges : Prop := ∀ (s : State) (dt : Nat) (p : Path) (x : Session) (q : TReq),
  let u := s.elapse dt
  let denied := fun (code : Nat) (t : State) => Agree u t ∧ t.Answered p q code []
  let waits := fun (op : Nat) (ops : List TblOp) (t : State) =>
    t.Executing p q ∧ Agree { u with pl.pend := s.pl.pend ++ [{ path := p, opcode := op, ops := ops, at_ := u.elapsed }] } t
  (∀ k dom tier b len seed e m n, Issued u p x q 0x0520 9 .any → seed.all (fun v => decide (v < 2 ^ 32)) = true →
    let bad := 15 < k ∨ s.domOn dom = false ∨ 1 < tier ∨ b < (if tier = 0 then 8 else 12) ∨ (if tier = 0 then 18 else 26) < b ∨ len < 1 ∨ 32 < len ∨
      2 < e ∨ 65535 < m ∨ 1 < n
    let y : MTable := { dom := dom, deep := tier == 1, log2 := b, keyLen := len, seed := seed.getD 0, evict := e, mult := m, notify := n == 1 }
    let used := ((s.pl.cur.tables.filter (fun z => z.2.deep == y.deep)).map (fun z => 4 * 2 ^ z.2.log2)).sum
    let total := if tier = 1 then (if s.isB then 134217728 else 268435456) else 1048576
    (bad → Completes (.tableCreate dt p k dom tier b len seed e m n) s (denied 0x03000060)) ∧
    (¬ bad → (tget? s.pl.cur.tables k).isSome = true ∨ total < used + 4 * 2 ^ b → Completes (.tableCreate dt p k dom tier b len seed e m n) s
      (denied 0x02000060)) ∧
    (¬ bad → tget? s.pl.cur.tables k = none → used + 4 * 2 ^ b ≤ total →
      (tier = 1 → ({ u with pl.cur.tables := tset s.pl.cur.tables k y }).poolsOk = true) →
      Completes (.tableCreate dt p k dom tier b len seed e m n) s (waits 0x0520 [.create k y seed.isNone]))) ∧
  (∀ k, Issued u p x q 0x0521 1 (s.tablePerm k) →
    let named := s.pl.cur.profiles.any (fun y => y.2.stages.any (fun st => st.table == k))
    (15 < k → Completes (.tableDestroy dt p k) s (denied 0x03000060)) ∧
    (k ≤ 15 → named = true → Completes (.tableDestroy dt p k) s (denied 0x02000061)) ∧
    (k ≤ 15 → named = false → Completes (.tableDestroy dt p k) s (waits 0x0521 [.destroy k]))) ∧
  (∀ k addr r fx rep key, Issued u p x q 0x0522 4 (s.tablePerm k) → resultWide r = false → fx < 2 → rep < 2 →
    (badAddr p addr = true → Completes (.tableInsert dt p k addr r fx rep key) s (denied 0x03000F02)) ∧
    (badAddr p addr = false → tget? s.pl.cur.tables k = none → Completes (.tableInsert dt p k addr r fx rep key) s (denied 0x03000060)) ∧
    (∀ y, badAddr p addr = false → tget? s.pl.cur.tables k = some y →
      let b := slice (u.cmdRead p addr 32 key) 0 y.keyLen
      let at_ := y.bucket (padKey b) * 4
      let here := (y.find (padKey b)).isSome
      let room := (lowestFree y.slots at_ 4).isSome || y.ovfFree.isSome || (y.victim at_ (u.freeBits 32)).isSome
      (here = true → rep = 0 → Completes (.tableInsert dt p k addr r fx rep key) s (denied 0x02000063)) ∧
      (here = false → lowestFree y.slots at_ 4 = none → y.ovfFree = none → y.evict = 0 → Completes (.tableInsert dt p k addr r fx rep key) s
        (denied 0x02000062)) ∧
      ((here = true ∧ rep = 1) ∨ (here = false ∧ room = true) → s.resultOk y.dom r = false →
        Completes (.tableInsert dt p k addr r fx rep key) s (denied 0x02000064)) ∧
      ((here = true ∧ rep = 1) ∨ (here = false ∧ room = true) → s.resultOk y.dom r = true → Completes (.tableInsert dt p k addr r fx rep key) s
        (waits 0x0522 [.insert k (u.cmdRead p addr 32 key) r (fx == 1) (rep == 1)])))) ∧
  (∀ k addr key, Issued u p x q 0x0523 2 (s.tablePerm k) →
    (badAddr p addr = true → Completes (.tableDelete dt p k addr key) s (denied 0x03000F02)) ∧
    (badAddr p addr = false → tget? s.pl.cur.tables k = none → Completes (.tableDelete dt p k addr key) s (denied 0x03000060)) ∧
    (∀ y, badAddr p addr = false → tget? s.pl.cur.tables k = some y →
      (y.find (slice (u.cmdRead p addr 32 key) 0 y.keyLen) = none → Completes (.tableDelete dt p k addr key) s (denied 0x02000065)) ∧
      ((y.find (slice (u.cmdRead p addr 32 key) 0 y.keyLen)).isSome = true → Completes (.tableDelete dt p k addr key) s
        (waits 0x0523 [.delete k (u.cmdRead p addr 32 key)])))) ∧
  (∀ k addr key, Issued u p x q 0x0524 2 (s.tablePerm k) →
    (badAddr p addr = true → Completes (.tableRead dt p k addr key) s (denied 0x03000F02)) ∧
    (badAddr p addr = false → tget? s.pl.cur.tables k = none → Completes (.tableRead dt p k addr key) s (denied 0x03000060)) ∧
    (∀ y, badAddr p addr = false → tget? s.pl.cur.tables k = some y → y.mult = 0 ∨ s.sweeps = false →
      (y.find (slice (u.cmdRead p addr 32 key) 0 y.keyLen) = none → Completes (.tableRead dt p k addr key) s (denied 0x02000065)) ∧
      (∀ o i e, y.find (slice (u.cmdRead p addr 32 key) 0 y.keyLen) = some (o, i, e) → Completes (.tableRead dt p k addr key) s fun t =>
        Agree u t ∧ t.Answered p q 0 ((List.range 6).map (fun i => ofLe (slice e.bytes (8 * i) 8)))))) ∧
  (∀ addr n l, Issued u p x q 0x0525 2 .any → 1 ≤ n → n ≤ 256 →
    let ops := (l.take n).map BatchOp.op
    (badAddr p addr = true → Completes (.tableBatch dt p addr n l) s (denied 0x03000F02)) ∧
    (∀ i st, badAddr p addr = false → u.applyOps 0 [] ops = .error (i, st) → u.batchFirst x.dom 0 (l.take n) = none →
      Completes (.tableBatch dt p addr n l) s fun t => Agree u t ∧ t.Answered p q st [i]) ∧
    (∀ i st j v, badAddr p addr = false → u.applyOps 0 [] ops = .error (i, st) → u.batchFirst x.dom 0 (l.take n) = some (j, v) → v ≠ 0 →
      Completes (.tableBatch dt p addr n l) s fun t => Agree u t ∧ if i < j then t.Answered p q st [i] else t.Answered p q v [j]) ∧
    (∀ j v, badAddr p addr = false → (u.applyOps 0 [] ops).isOk = true → u.batchFirst x.dom 0 (l.take n) = some (j, v) → v ≠ 0 →
      Completes (.tableBatch dt p addr n l) s fun t => Agree u t ∧ t.Answered p q v [j]) ∧
    (badAddr p addr = false → (u.applyOps 0 [] ops).isOk = true → u.batchFirst x.dom 0 (l.take n) = none →
      Completes (.tableBatch dt p addr n l) s (waits 0x0525 ops))) ∧
  (∀ i sts final, Issued u p x q 0x0526 82 .any → resultWide final = false →
    sts.all (fun st => st.table == 0xFF || !(resultWide st.miss || st.learn.any (fun l => resultWide l.2))) = true →
    (sts.all (s.stageOk x.dom) = false → Completes (.profileSet dt p i sts final) s (denied 0x03000061)) ∧
    (sts.all (s.stageOk x.dom) = true → s.profileQuota x.dom ≤ i → Completes (.profileSet dt p i sts final) s (denied 0x02000066)) ∧
    (sts.all (s.stageOk x.dom) = true → i < s.profileQuota x.dom → s.resultOk x.dom final = false ∨ sts.all (s.stageResults x.dom) = false →
      Completes (.profileSet dt p i sts final) s (denied 0x02000064)) ∧
    (sts.all (s.stageOk x.dom) = true → i < s.profileQuota x.dom → s.resultOk x.dom final = true → sts.all (s.stageResults x.dom) = true →
      Completes (.profileSet dt p i sts final) s (waits 0x0526 [.profile x.dom i { stages := sts, final := final }]))) ∧
  (∀ addr b, Issued u p x q 0x0528 1 (.owner (spoutOf (u.cmdRead p addr 64 b)).dom) →
    let e := spoutOf (u.cmdRead p addr 64 b)
    let slot := ((List.range 4).map (fun i => s.pl.cur.spoutBucket e.key * 4 + i)).find? (fun i => (tget? s.pl.cur.spout i).isNone)
    let own := (s.pl.cur.spout.filter (fun z => z.2.dom == e.dom)).length
    (badAddr p addr = true → Completes (.spoutInsert dt p addr b) s (denied 0x03000F02)) ∧
    (badAddr p addr = false → s.spoutOk (u.cmdRead p addr 64 b) = false → Completes (.spoutInsert dt p addr b) s (denied 0x03000062)) ∧
    (badAddr p addr = false → s.spoutOk (u.cmdRead p addr 64 b) = true → (s.pl.cur.spoutFind e.dom e.key).isSome = true →
      Completes (.spoutInsert dt p addr b) s (denied 0x02000063)) ∧
    (badAddr p addr = false → s.spoutOk (u.cmdRead p addr 64 b) = true → s.pl.cur.spoutFind e.dom e.key = none →
      (s.spoutShare e.dom ≤ own ∨ slot = none → Completes (.spoutInsert dt p addr b) s (denied 0x02000062)) ∧
      (own < s.spoutShare e.dom → slot.isSome = true → Completes (.spoutInsert dt p addr b) s (waits 0x0528 [.spoutIns e])))) ∧
  (∀ dom addr key, Issued u p x q 0x0529 2 (.owner dom) → dom < 16 →
    (badAddr p addr = true → Completes (.spoutDelete dt p dom addr key) s (denied 0x03000F02)) ∧
    (badAddr p addr = false → s.pl.cur.spoutFind dom (u.cmdRead p addr 32 key) = none → Completes (.spoutDelete dt p dom addr key) s
      (denied 0x02000065)) ∧
    (badAddr p addr = false → (s.pl.cur.spoutFind dom (u.cmdRead p addr 32 key)).isSome = true → Completes (.spoutDelete dt p dom addr key) s
      (waits 0x0529 [.spoutDel dom (u.cmdRead p addr 32 key)]))) ∧
  (u.Settled → s.pl.pend = [] → Completes (.tableCommit dt) s fun t => Agree u t) ∧
  (∀ pd rest, u.Settled → s.pl.pend = pd :: rest → u.commitWaits pd.ops = true → Completes (.tableCommit dt) s fun t => Agree u t) ∧
  (∀ pd rest, u.Settled → s.pl.pend = pd :: rest → pd.path = p → Awaits u p x q pd.opcode → s.pl.cur.tables.all (fun y => y.2.mult == 0) = true →
    s.pl.learns = [] → u.commitWaits pd.ops = false →
    let v := { u with pl.pend := rest }
    (∀ i st, v.applyOps 0 [] pd.ops = .error (i, st) → Completes (.tableCommit dt) s fun t =>
      Agree v t ∧ t.Answered p q st (if pd.opcode = 0x0525 then [i] else [])) ∧
    (∀ more s1, s.slu.events = [] → v.applyOps 0 [] pd.ops = .ok (more, s1) → Completes (.tableCommit dt) s fun t =>
      Agree { s1 with pl.past := (u.elapsed, s.pl.cur) :: s.pl.past } t ∧ t.view u.elapsed = t.pl.cur ∧
      (∀ a, a < u.elapsed → t.view a = u.view a) ∧ t.Answered p q 0 (u.ledgerNs :: if pd.opcode = 0x0525 then [] else more)) ∧
    (∀ k y, pd.ops = [.create k y false] → tget? s.pl.cur.tables k = none → s.pl.cur.tables = [] → y.deep = false → y.log2 ≤ 18 →
      Completes (.tableCommit dt) s fun t => tget? t.pl.cur.tables k = some { y with swept := u.now + 1 }) ∧
    (∀ k key r fx rep y i, pd.ops = [.insert k key r fx rep] → tget? s.pl.cur.tables k = some y →
      y.find (padKey (slice key 0 y.keyLen)) = none → lowestFree y.slots (y.bucket (padKey (slice key 0 y.keyLen)) * 4) 4 = some i →
      s.resultOk y.dom r = true → Completes (.tableCommit dt) s fun t => tget? t.pl.cur.tables k = some { y with
        slots := tset y.slots i { key := padKey (slice key 0 y.keyLen), result := r, fixed := fx, hit := true, stale := false, learned := false, srcPort := 0x1F
                                  inserted := nsOf u.now / 2 ^ 20 % 2 ^ 48 }
        counters := bump y.counters 2 }) ∧
    (∀ k key r fx y o i e, pd.ops = [.insert k key r fx true] → tget? s.pl.cur.tables k = some y →
      y.find (padKey (slice key 0 y.keyLen)) = some (o, i, e) → s.resultOk y.dom r = true → o = false → Completes (.tableCommit dt) s fun t =>
        tget? t.pl.cur.tables k = some { y with slots := tset y.slots i { e with result := r, fixed := fx } }) ∧
    (∀ k key y o i e, pd.ops = [.delete k key] → tget? s.pl.cur.tables k = some y → y.find (slice key 0 y.keyLen) = some (o, i, e) →
      Completes (.tableCommit dt) s fun t => tget? t.pl.cur.tables k = some (y.take o i)))

/-- R162, R165, R169-R174, R176-R179: learning limits, quotas, the Spout's seed and status; a learn that no earlier frame holds back inserts its key as a learned
entry, moves one that is present with another result, refreshes one with the same, and is refused by its port's limit; the learning buckets refill once at a 2^20 ns point; a
sweep at its point clears, makes stale and removes by HIT and STALE, and does nothing where sweeps do not run. Conventions of the model that it
rests on: notes/assumptions/44, 54, 55, 56, 174. -/
def Obligations.LearningAndAgeing : Prop := ∀ (s : State) (dt : Nat) (p : Path) (x : Session) (q : TReq),
  let u := s.elapse dt
  let denied := fun (code : Nat) (t : State) => Agree u t ∧ t.Answered p q code []
  let shares := [s.profileQuota x.dom, s.cacheShare x.dom, s.missShare x.dom, s.spoutShare x.dom]
  (∀ port mx rate burst fl, Issued u p x q 0x0527 5 (dataPerm port) → mx ≤ 1048576 → fl < 2 →
    (23 < port → Completes (.learnConfig dt p port mx rate burst fl) s (denied 0x03000053)) ∧
    (port < 24 → s.portCount ≤ port → Completes (.learnConfig dt p port mx rate burst fl) s (denied 0x02000055)) ∧
    (port < 24 → port < s.portCount → Completes (.learnConfig dt p port mx rate burst fl) s fun t => t.Answered p q 0 [] ∧
      Agree { u with pl.learnPorts := tset s.pl.learnPorts port { s.learnPort port with
        max := mx, rate := rate, burst := burst, flood := fl == 1
        tokens := if (s.learnPort port).burst = 0 then burst else min (s.learnPort port).tokens burst } } t)) ∧
  (∀ num, Issued u p x q 0x052A 1 (s.tablePerm num) →
    (15 < num → tget? s.pl.cur.tables num = none → Completes (.tableStatus dt p false num) s (denied 0x03000060)) ∧
    (num ≤ 15 → tget? s.pl.cur.tables num = none → Completes (.tableStatus dt p false num) s fun t => Agree u t ∧
      t.Answered p q 0 (List.replicate 13 0 ++ shares)) ∧
    (∀ y, num ≤ 15 → tget? s.pl.cur.tables num = some y → y.mult = 0 ∨ s.sweeps = false → Completes (.tableStatus dt p false num) s fun t =>
      Agree u t ∧ t.Answered p q 0 ([y.cfgReg, y.seed, y.mult, y.ovf.length] ++ y.counters ++ shares))) ∧
  (∀ port, Issued u p x q 0x052A 1 (dataPerm port) →
    (23 < port → Completes (.tableStatus dt p true port) s (denied 0x03000053)) ∧
    (port < 24 → s.portCount ≤ port → Completes (.tableStatus dt p true port) s (denied 0x02000055)) ∧
    (port < 24 → port < s.portCount → Completes (.tableStatus dt p true port) s fun t => Agree u t ∧
      t.Answered p q 0 ([s.learnedNow port + 2 ^ 21 * b2n (s.learnPort port).flood, (s.learnPort port).refused] ++ shares))) ∧
  (∀ dom a b c d, Issued u p x q 0x052B 5 .any → dom < 16 →
    let sum := fun (f : Nat → Nat) => (((List.range 16).filter (fun d => d != dom)).map f).sum
    let bad := 1024 < sum s.profileQuota + a ∨ 65536 < sum s.cacheShare + b ∨ 2048 < sum s.missShare + c ∨ 65536 < sum s.spoutShare + d ∨
      s.pl.cur.profiles.any (fun y => y.1 / 4096 == dom && decide (a ≤ y.1 % 4096)) = true ∨
      b < (s.pl.cache.filter (fun y => y.1 == dom)).length ∨
      (List.range 3).any (fun i => decide (c < (s.pl.frames.filter (fun f => f.phase == 1 && f.dom == dom && f.pipe == i)).length)) = true ∨
      d < (s.pl.cur.spout.filter (fun y => y.2.dom == dom)).length
    (bad → Completes (.tableQuota dt p dom a b c d) s (denied 0x02000067)) ∧
    (¬ bad → Completes (.tableQuota dt p dom a b c d) s fun t =>
        t.Answered p q 0 [] ∧ Agree { u with pl.quotas := tset s.pl.quotas dom { s.plQuota dom with
          profiles := some a, cache := some b, misses := some c, spout := some d } } t)) ∧
  (∀ seed, Issued u p x q 0x052C 1 .any → seed.all (fun v => decide (v < 2 ^ 32)) = true →
    (s.pl.cur.spout ≠ [] ∨ s.pl.seedSet = true → Completes (.spoutSeedSet dt p seed) s (denied 0x02000068)) ∧
    (∀ v, s.pl.cur.spout = [] → s.pl.seedSet = false → seed = some v → Completes (.spoutSeedSet dt p seed) s fun t => t.Answered p q 0 [v] ∧
      Agree { u with pl.seedSet := true, pl.cur.spoutSeed := v } t) ∧
    (s.pl.cur.spout = [] → s.pl.seedSet = false → seed = none → Completes (.spoutSeedSet dt p seed) s fun t =>
      t.Answered p q 0 [t.pl.cur.spoutSeed] ∧ t.pl.cur.spoutSeed < 2 ^ 32 ∧
      Agree { u.used with pl.seedSet := true, pl.cur.spoutSeed := t.pl.cur.spoutSeed } t)) ∧
  (u.Settled → u.now % grid 20 = 0 → s.pl.refilled ≠ u.now + 1 → Completes (.learnRefill dt) s fun t =>
    Agree { u with
      pl.learnPorts := tmap s.pl.learnPorts (fun y => { y with tokens := min y.burst (y.tokens + y.rate) }), pl.refilled := u.now + 1 } t) ∧
  (u.Settled → u.now % grid 20 ≠ 0 ∨ s.pl.refilled = u.now + 1 → Completes (.learnRefill dt) s fun t => Agree u t) ∧
  (u.Settled → s.pl.learns.all u.learnHeld = true → Completes (.learnApply dt) s fun t => Agree u t) ∧
  (∀ l k, u.Settled → s.pl.learns = [l] → u.learnHeld l = false → tget? s.pl.cur.tables l.table = some k → k.mult = 0 ∨ s.sweeps = false →
    let v := { u with pl.learns := [] }
    let made := fun (z : MTable) => ({ v with pl.cur.tables := tset s.pl.cur.tables l.table z }).learnReached l.port
    (∀ o i e, k.find l.key = some (o, i, e) → e.result = l.result → Completes (.learnApply dt) s fun t =>
      Agree { v with pl.cur.tables := tset s.pl.cur.tables l.table (k.put o i { e with hit := true }) } t) ∧
    (∀ o i e, k.find l.key = some (o, i, e) → e.result ≠ l.result → Completes (.learnApply dt) s fun t =>
      Agree (made { k.put o i { e with result := l.result, srcPort := l.port } with counters := bump k.counters 7 }) t) ∧
    (k.find l.key = none → (s.learnPort l.port).max ≤ s.learnedNow l.port → Completes (.learnApply dt) s fun t =>
      Agree { v with pl.learnPorts := tset s.pl.learnPorts l.port { s.learnPort l.port with refused := inc48 (s.learnPort l.port).refused } } t) ∧
    (∀ i, k.find l.key = none → s.learnedNow l.port < (s.learnPort l.port).max → lowestFree k.slots (k.bucket (padKey l.key) * 4) 4 = some i →
      s.mem.marks = [] → Completes (.learnApply dt) s fun t =>
        Agree { (made { k with
          slots := tset k.slots i { key := padKey l.key, result := l.result, hit := true, stale := false, fixed := false, learned := true, srcPort := l.port
                                    inserted := nsOf u.now / 2 ^ 20 % 2 ^ 48 }
          counters := bumpBy (bump k.counters 2) 6 1 }) with fresh := u.used.fresh } t)) ∧
  (∀ k, u.Settled → s.sweeps = false → Completes (.ageingSweep dt k) s fun t => Agree u t) ∧
  (∀ k y, u.Settled → tget? s.pl.cur.tables k = some y → y.sweepDue u.now = none → Completes (.ageingSweep dt k) s fun t => Agree u t) ∧
  (∀ k y pt, u.Settled → s.sweeps = true → tget? s.pl.cur.tables k = some y → y.sweepDue u.now = some pt → u.now < pt + y.mult * grid 20 →
    let hit := (u.lateKeys k pt).foldl MTable.hitBy y
    let gone := hit.entries.filter (fun e => !e.fixed && !e.hit && e.stale)
    let after := fun (e : Entry) => if e.fixed then e else { e with hit := false, stale := !e.hit }
    Completes (.ageingSweep dt k) s fun t => (y.notify = false → Agree { u with pl := t.pl } t) ∧
      (∀ j, j ≠ k → tget? t.pl.cur.tables j = tget? s.pl.cur.tables j) ∧ t.pl.frames = s.pl.frames ∧ t.pl.learns = s.pl.learns ∧
      ∃ z, tget? t.pl.cur.tables k = some z ∧ z.swept = pt + 1 ∧
      z.slots = (hit.slots.filter (fun e => !(!e.2.fixed && !e.2.hit && e.2.stale))).map (fun e => (e.1, after e.2)) ∧
      z.ovf = (hit.ovf.filter (fun e => !(!e.2.fixed && !e.2.hit && e.2.stale))).map (fun e => (e.1, after e.2)) ∧
      z.counters = bumpBy y.counters 5 gone.length ∧ z.keyLen = y.keyLen ∧ z.dom = y.dom ∧ z.seed = y.seed)

/-- R123, R180, R182-R184, R186-R190, R193, R194: the commands of the traffic manager - what each refuses, in the order of the model's checks, and what it sets
or answers. A meter or shaper change waits for its grid point, which the reply states; a queue change waits for its commit, where one that would
move a queue holding frames is refused and any other keeps the frames; the wheel of dispatch slots gives no domain more than its reserved ones; a buffer
change is made as one. Conventions of the model that it rests on: notes/assumptions/29, 38, 58, 59, 60, 62, 175. -/
def Obligations.TrafficManagerCommandsAndBuffer : Prop :=
  (∀ (s : State) (dt : Nat) (p : Path) (x : Session) (q : TReq),
  let u := s.elapse dt
  let denied := fun (code : Nat) (t : State) => Agree u t ∧ t.Answered p q code []
  (∀ m r ya yd ra la, Issued u p x q 0x0601 9 (u.meterPerm m) →
    let c : MeterCfg := { rates := r, aware := ya == 1, lenAdjust := la, yellowDrop := yd == 1, redAdmit := ra == 1 }
    let bad := r.pir < r.cir ∨ r.cbs < 64 ∨ r.pbs < r.cbs ∨ 16 * 2 ^ 20 < r.pbs ∨ 1 < ya ∨ la < -32 ∨ 63 < la ∨ 1 < yd ∨ 1 < ra
    (bad → Completes (.tmMeterSet dt p m r.cir r.pir r.cbs r.pbs ya la yd ra) s (denied 0x03000070)) ∧
    (¬ bad → u.meterDom m = none → Completes (.tmMeterSet dt p m r.cir r.pir r.cbs r.pbs ya la yd ra) s (denied 0x02000070)) ∧
    (¬ bad → (u.meterDom m).isSome = true → Completes (.tmMeterSet dt p m r.cir r.pir r.cbs r.pbs ya la yd ra) s fun t =>
      t.Answered p q 0 [nsOf (ceilMult (u.now + ns 4) (grid 10))] ∧
      Agree { u with tm.meters := tset s.tm.meters m { s.meter m with next := (s.meter m).next ++ [(ceilMult (u.now + ns 4) (grid 10), c)] } } t)) ∧
  (∀ m, Issued u p x q 0x0602 1 (u.meterPerm m) →
    (u.meterDom m = none → Completes (.tmMeterRead dt p m) s (denied 0x02000070)) ∧
    ((u.meterDom m).isSome = true → Completes (.tmMeterRead dt p m) s fun t =>
      let y := s.meter m
      Agree u t ∧ t.Answered p q 0 ([y.cfg.rates.cir, y.cfg.rates.pir, y.cfg.rates.cbs, y.cfg.rates.pbs, b2n y.cfg.aware, twos 64 y.cfg.lenAdjust,
        b2n y.cfg.yellowDrop, b2n y.cfg.redAdmit, y.tc, y.tp] ++ y.counters))) ∧
  (∀ n kind dest ring tc qu g y r sp sa, Issued u p x q 0x0603 11 (u.queuePerm n) →
    let bad := 3 < kind ∨ 7 < tc ∨ qu < 64 ∨ 2 ^ 20 < qu ∨ r < 1 ∨ y < r ∨ g < y ∨ 2 ^ 20 < g ∨ 1 < sp ∨ 1 < sa ∨ (kind = 1 ∧ 23 < dest) ∨
      (kind = 2 ∧ 1023 < ring)
    let c : QCfg := { kind := kind, port := if kind = 1 then dest else 0, fn := if kind = 2 then fnOf dest else 0, ring := if kind = 2 then ring else 0
                      tc := tc, quantum := qu, limG := g, limY := y, limR := r, spill := sp == 1, sample := sa == 1 }
    let moves := 0 < (s.queue n).depth ∧ ¬ (c.kind = (s.queue n).cfg.kind ∧ c.port = (s.queue n).cfg.port ∧ c.fn = (s.queue n).cfg.fn ∧
      c.ring = (s.queue n).cfg.ring)
    (bad → Completes (.tmQueueSet dt p n kind dest ring tc qu g y r sp sa) s (denied 0x03000071)) ∧
    (¬ bad → u.queueDom n = none → Completes (.tmQueueSet dt p n kind dest ring tc qu g y r sp sa) s (denied 0x02000071)) ∧
    (∀ d, ¬ bad → u.queueDom n = some d →
      let mine := (kind = 1 → u.portIn dest d = true ∧ dest < s.portCount) ∧ (kind = 2 → u.fnExists (fnOf dest) = true ∧ u.fnDom (fnOf dest) = d)
      let full := sa = 1 ∧ (s.queue n).cfg.sample = false ∧ u.sampleQuota d ≤ u.sampledCount d
      (¬ mine → Completes (.tmQueueSet dt p n kind dest ring tc qu g y r sp sa) s (denied 0x02000071)) ∧
      (mine → full → Completes (.tmQueueSet dt p n kind dest ring tc qu g y r sp sa) s (denied 0x02000072)) ∧
      (mine → ¬ full → moves → Completes (.tmQueueSet dt p n kind dest ring tc qu g y r sp sa) s (denied 0x02000073)) ∧
      (mine → ¬ full → ¬ moves → Completes (.tmQueueSet dt p n kind dest ring tc qu g y r sp sa) s fun t => t.Executing p q ∧
        Agree { u with tm.pend := s.tm.pend ++ [{ path := p, queue := n, dom := d, cfg := c }] } t))) ∧
  (u.Settled → s.tm.pend = [] → Completes (.queueCommit dt) s fun t => Agree u t) ∧
  (∀ pd rest, u.Settled → s.tm.pend = pd :: rest → pd.path = p → Awaits u p x q 0x0603 →
    let y := s.queue pd.queue
    let stays := pd.cfg.kind = y.cfg.kind ∧ pd.cfg.port = y.cfg.port ∧ pd.cfg.fn = y.cfg.fn ∧ pd.cfg.ring = y.cfg.ring
    let v := { u with tm.pend := rest }
    (0 < y.depth → ¬ stays → Completes (.queueCommit dt) s fun t => Agree v t ∧ t.Answered p q 0x02000073 []) ∧
    (y.depth = 0 ∨ stays → Completes (.queueCommit dt) s fun t =>
      Agree { v with tm := t.tm, dma.queueChan := t.dma.queueChan } t ∧ t.tm.pend = rest ∧ t.tm.meters = s.tm.meters ∧
      (s.slu.events = [] → t.Answered p q 0 [u.ledgerNs]) ∧ (∀ k, k ≠ pd.queue → t.queue k = s.queue k) ∧
      (t.queue pd.queue).cfg = pd.cfg ∧ (t.queue pd.queue).frames = y.frames ∧ (t.queue pd.queue).counters = y.counters ∧
      (t.queue pd.queue).sh = y.sh ∧ (t.queue pd.queue).shMode = y.shMode ∧ (t.queue pd.queue).stored = y.stored ∧
      (t.queue pd.queue).deficit = (if y.frames.isEmpty then 0 else y.deficit)) ∧
    (stays → (y.cfg.kind = 2 → y.cfg.ring ≠ 0x3FF → (tget? s.dma.queueChan pd.queue).isSome = true) → Completes (.queueCommit dt) s fun t =>
      Agree (({ v with dma.queueChan := s.dma.queueChan }.setQueue pd.queue { y with
        cfg := pd.cfg, deficit := if y.frames.isEmpty then 0 else y.deficit
        hist := if pd.cfg.sample && !y.cfg.sample then { short := true } else y.hist }).sync pd.queue) { t with dma.queueChan := s.dma.queueChan })) ∧
  (∀ n, Issued u p x q 0x0604 1 (u.queuePerm n) →
    (u.queueDom n = none → Completes (.tmQueueRead dt p n) s (denied 0x02000071)) ∧
    ((u.queueDom n).isSome = true → Completes (.tmQueueRead dt p n) s fun t =>
      let y := s.queue n
      Agree u t ∧ t.Answered p q 0 ([y.cfg.kind, if y.cfg.kind = 2 then fnCode y.cfg.fn else y.cfg.port, y.cfg.ring, y.cfg.tc, y.cfg.quantum, y.cfg.limG,
        y.cfg.limY, y.cfg.limR, b2n y.cfg.spill, b2n y.cfg.sample, y.depth * 256, y.deficit,
        if y.shMode = 0 then 1 else if y.sc > 0 then 0 else if y.sp > 0 then 1 else 2, twos 64 y.sc, twos 64 y.sp] ++ y.counters))) ∧
  (∀ n mode r, Issued u p x q 0x0605 6 (u.queuePerm n) →
    let bad := 1 < mode ∨ (mode = 1 ∧ (r.pir < r.cir ∨ r.cbs < 64 ∨ r.pbs < r.cbs ∨ 16 * 2 ^ 20 < r.pbs))
    (bad → Completes (.tmShaperSet dt p n mode r.cir r.pir r.cbs r.pbs) s (denied 0x03000070)) ∧
    (¬ bad → u.queueDom n = none → Completes (.tmShaperSet dt p n mode r.cir r.pir r.cbs r.pbs) s (denied 0x02000071)) ∧
    (¬ bad → (u.queueDom n).isSome = true → Completes (.tmShaperSet dt p n mode r.cir r.pir r.cbs r.pbs) s fun t =>
      t.Answered p q 0 [nsOf (ceilMult (u.now + ns 4) (grid 10))] ∧ Agree { u with
        tm.queues := tset s.tm.queues n { s.queue n with shNext := (s.queue n).shNext ++ [(ceilMult (u.now + ns 4) (grid 10), mode, r)] } } t)) ∧
  (∀ n la qs, Issued u p x q 0x0606 18 .any →
    let bad := (23 < n ∧ n ≠ 0xFE) ∨ 63 < la ∨ qs.any (fun v => decide (v < 1536 ∨ 2 ^ 20 < v)) = true
    (bad → Completes (.tmSchedSet dt p n la qs) s (denied 0x03000072)) ∧
    (¬ bad → n ≠ 0xFE → s.portCount ≤ n → Completes (.tmSchedSet dt p n la qs) s (denied 0x02000071)) ∧
    (¬ bad → n = 0xFE ∨ n < s.portCount → Completes (.tmSchedSet dt p n la qs) s fun t =>
      t.Answered p q 0 [] ∧ Agree { u with tm.scheds := tset s.tm.scheds n { s.sched n with
        lenAdjust := some la, quanta := (List.range 16).map (fun d => (d, nth qs d)) } } t)) ∧
  (∀ ls, Issued u p x q 0x0608 16 .any → ls.length = 16 →
    (1024 < ls.sum → Completes (.tmSlotsSet dt p ls) s (denied 0x02000075)) ∧
    (ls.sum ≤ 1024 → Completes (.tmSlotsSet dt p ls) s fun t => t.Answered p q 0 [] ∧ Agree { u with tm.doms := t.tm.doms, tm.wheel := t.tm.wheel } t ∧
      t.tm.wheel.length = 1024 ∧ (∀ d, d < 16 → (t.tm.wheel.filter (fun w => w == d)).length ≤ nth ls d) ∧
      ∀ d, t.tmDom d = if d < 16 then { s.tmDom d with slots := nth ls d } else s.tmDom d)) ∧
  (∀ qr mr sm, Issued u p x q 0x0609 80 .any →
    let used := s.tm.queues.filter (fun y => y.2.cfg.kind != 0 || decide (0 < y.2.depth))
    let set := s.tm.meters.filter (fun y => y.2.set_ || !y.2.next.isEmpty)
    let left := fun (rs : List (Nat × Nat)) (k : Nat) (o : Option Nat) => o.any (fun d => !inRange (rs.getD d (0, 0)) k)
    let bad := rangesOk 32768 qr = false ∨ rangesOk 32768 mr = false ∨ used.any (fun y => left qr y.1 (u.queueDom y.1)) = true ∨
      set.any (fun y => left mr y.1 (u.meterDom y.1)) = true
    (bad → Completes (.tmQuota dt p qr mr sm) s (denied 0x02000076)) ∧
    (¬ bad → Completes (.tmQuota dt p qr mr sm) s fun t =>
      t.Answered p q 0 [] ∧ Agree { u with tm.doms := t.tm.doms } t ∧ ∀ d, t.tmDom d = if d < 16 then { s.tmDom d with
        queues := some (qr.getD d (0, 0)), meters := some (mr.getD d (0, 0)), sampled := some (nth sm d) } else s.tmDom d)) ∧
  (∀ n, Issued u p x q 0x060A 1 .any →
    (n < 1 ∨ 1024 < n → Completes (.tmSampleConfig dt p n) s (denied 0x03000074)) ∧
    (1 ≤ n → n ≤ 1024 → Completes (.tmSampleConfig dt p n) s fun t => t.Answered p q 0 [] ∧
      Agree { u with tm.doms := tset s.tm.doms x.dom { s.tmDom x.dom with periodNext := some n } } t)) ∧
  (∀ d, Issued u p x q 0x060B 1 (.owner d) →
    (s.domOn d = false → Completes (.tmStatus dt p d) s fun t => Agree u t ∧ t.Answered p q 0 ([0, 0, 0, 0] ++ s.tm.counters)) ∧
    (s.domOn d = true → Completes (.tmStatus dt p d) s fun t => Agree u t ∧ t.Answered p q 0 ([s.shareKib d, ceilDiv (s.cellsUsed d) 4,
      (s.tmDom d).spillMib + 65536 * ceilDiv (s.spillUsed d) 4096, (s.tmDom d).slots + 65536 * (s.tmDom d).periodMult] ++ s.tm.counters)))) ∧
  (∀ (s : State) (dt : Nat) (p : Path) (x : Session) (q : TReq) (ing spout prio share spill : List Nat),
  let u := s.elapse dt
  let denied := fun (code : Nat) (t : State) => Agree u t ∧ t.Answered p q code []
  let t1 := { u with
    tm.ingRes := (List.range 24).map (fun p => (p, nth ing p)), tm.spoutRes := (List.range 24).map (fun p => (p, nth spout p))
    tm.defPrio := (List.range 24).map (fun p => (p, nth prio p))
    tm.doms := (List.range 16).map (fun d => (d, { s.tmDom d with shareKib := some (nth share d), spillMib := nth spill d })) }
  let lanes := fun n => decide (0 < modeLanes (s.pt n).mode)
  let wrong := (List.range 24).any (fun n =>
    !((nth ing n % 16 == 0 && decide (16 ≤ nth ing n) && decide (nth ing n ≤ 4096)) || (nth ing n == 0 && !lanes n)) || nth spout n % 16 != 0 ||
    decide (256 < nth spout n) || (decide (0 < nth spout n) && !(s.pt n).lowLatency) || decide (7 < nth prio n))
  let ceiling := (List.range 16).any (fun d => (s.bufCeil d).any (fun c => decide (c < nth share d)))
  let below := (List.range 24).any (fun n => lanes n && (List.range 8).any (fun i => (s.pt n).pfc.tracked i && decide (nth ing n < nth (s.pt n).pfc.xoff i)))
  let full := (List.range 24).any (fun n => (decide (nth ing n < s.ingRes n) && decide (nth ing n * 1024 < (u.heldBytes n 0).sum)) ||
      (decide (nth spout n < s.spoutRes n) && decide (nth spout n * 1024 < ((s.pl.spoutWait.filter (fun r => r.egress == n)).map (fun r => r.data.length)).sum))) ||
    (List.range 16).any (fun d => (decide (nth share d < s.shareKib d) && decide (nth share d * 4 < s.cellsUsed d)) ||
      (decide (nth spill d < (s.tmDom d).spillMib) && decide (nth spill d * 4096 < s.spillUsed d)))
  let too := t1.sharedKib < share.sum ∨ ceiling = true ∨ below = true ∨ t1.poolsOk = false
  Issued u p x q 0x0607 104 .any → share.all (fun v => decide (v < 2 ^ 17)) = true → spill.all (fun v => decide (v < 2 ^ 16)) = true →
  (wrong = true → Completes (.tmBufferSet dt p ing spout prio share spill) s (denied 0x03000073)) ∧
  (wrong = false → too → Completes (.tmBufferSet dt p ing spout prio share spill) s (denied 0x02000074)) ∧
  (wrong = false → ¬ too → full = true → Completes (.tmBufferSet dt p ing spout prio share spill) s (denied 0x01000070)) ∧
  (wrong = false → ¬ too → full = false → Completes (.tmBufferSet dt p ing spout prio share spill) s fun t =>
    t.Answered p q 0 [] ∧ Agree (t1.released u) t))

/-- R24, R182, R183, R188, R190-R192: at a 2^10 ns point the changes due there are installed and every bucket is refilled, once, after the sample of the
point; at a 2^12 ns point every sampled queue is sampled, once; at a 2^20 ns point the report periods that end are reported, once: a record goes to
the buffer posted for it, which then completes, and one with no buffer to go to is counted and leaves a gap. Conventions of the model that it rests
on: notes/assumptions/63. -/
def Obligations.BucketsAndSamples : Prop := ∀ (s : State) (dt : Nat),
  let u := s.elapse dt
  u.Settled →
  (u.now % grid 10 = 0 → s.tm.refilled ≠ u.now + 1 → s.glb.mode ≠ .lockdown → Completes (.bucketRefill dt) s fun t =>
    t.tm.meters = tmap (tmap s.tm.meters (fun m => m.install u.now)) Meter.refill ∧
    Agree { u with tm.meters := t.tm.meters, tm.queues := t.tm.queues, tm.scheds := t.tm.scheds, tm.refilled := u.now + 1, tm.sampled := u.sampleDue.tm.sampled } t ∧
    (∀ k m, tget? s.tm.meters k = some m → m.next = [] → m.set_ = true → t.meter k = { m with
      tc := min (m.cfg.rates.cbs * 256) (m.tc + (2 * m.cfg.rates.cir * 32768 + 1000000) / 2000000)
      tp := min (m.cfg.rates.pbs * 256) (m.tp + (2 * m.cfg.rates.pir * 32768 + 1000000) / 2000000) }) ∧
    (∀ k y, tget? s.tm.queues k = some y → y.shNext = [] → y.shMode = 1 → (t.queue k).frames = y.frames ∧ (t.queue k).cfg = y.cfg ∧
      (t.queue k).sc = min (y.sh.cbs * 256 : Int) (y.sc + ((2 * y.sh.cir * 32768 + 1000000) / 2000000 : Nat)) ∧
      (t.queue k).sp = min (y.sh.pbs * 256 : Int) (y.sp + ((2 * y.sh.pir * 32768 + 1000000) / 2000000 : Nat))) ∧
    (s.tm.queues.all (fun y => y.2.frames.isEmpty) = true → t.tm.queues = tmap (tmap u.sampleDue.tm.queues (fun y => y.install u.now)) Queue.refill)) ∧
  (u.now % grid 10 ≠ 0 ∨ s.tm.refilled = u.now + 1 ∨ s.glb.mode = .lockdown → Completes (.bucketRefill dt) s fun t => Agree u t) ∧
  (u.now % grid 10 = 0 → s.glb.mode ≠ .lockdown → Completes (.meterChangeApply dt) s fun t =>
    t.tm.meters = tmap s.tm.meters (fun m => m.install u.now) ∧
    Agree { u with tm.meters := t.tm.meters, tm.queues := t.tm.queues, tm.scheds := t.tm.scheds, tm.sampled := u.sampleDue.tm.sampled } t ∧
    (∀ k m c, tget? s.tm.meters k = some m → m.next = [(u.now, c)] → t.meter k = { m with
      set_ := true, cfg := c, next := []
      tc := if m.set_ then min m.tc (c.rates.cbs * 256) else c.rates.cbs * 256, tp := if m.set_ then min m.tp (c.rates.pbs * 256) else c.rates.pbs * 256 }) ∧
    (∀ k y md r, tget? s.tm.queues k = some y → y.shNext = [(u.now, md, r)] → (t.queue k).shMode = md ∧ (t.queue k).sh = r ∧ (t.queue k).shNext = [] ∧
      (t.queue k).frames = y.frames ∧ (t.queue k).sc = (if y.shMode = 1 then min y.sc (r.cbs * 256) else (r.cbs * 256 : Int)))) ∧
  (u.now % grid 10 ≠ 0 ∨ s.glb.mode = .lockdown → Completes (.meterChangeApply dt) s fun t => Agree u t) ∧
  (u.now % grid 12 = 0 → s.tm.sampled ≠ u.now + 1 → u.sampling = true → Completes (.queueSample dt) s fun t =>
    Agree { u with tm.queues := tmapK s.tm.queues u.sampleQueue, tm.sampled := u.now + 1 } t ∧
    (∀ k y, tget? s.tm.queues k = some y → y.cfg.sample = true → (t.queue k).hist.samples = y.hist.samples + 1 ∧ (t.queue k).frames = y.frames ∧
      (∀ f r, y.frames = f :: r → (t.queue k).hist.obs = y.hist.obs + 1 ∧ (t.queue k).hist.maxDepth = max y.hist.maxDepth (y.depth * 256) ∧
        (t.queue k).hist.maxDelay =
          max y.hist.maxDelay (min (if f.port < 24 then nsOf (u.now - f.feed.stamp) else nsOf (u.elapsed - f.admitted)) 0xFFFFFFFF)))) ∧
  (u.now % grid 12 ≠ 0 ∨ s.tm.sampled = u.now + 1 ∨ u.sampling = false → Completes (.queueSample dt) s fun t => Agree u t) ∧
  (u.now % grid 20 ≠ 0 ∨ u.sampling = false ∨ s.tm.ended = u.now + 1 → Completes (.samplePeriodEnd dt) s fun t => Agree u t) ∧
  (∀ k y d, u.now % grid 20 = 0 → u.sampling = true → s.tm.ended ≠ u.now + 1 → s.tm.sampled = u.now + 1 → s.doms = [d] → s.tm.queues = [(k, y)] →
    y.cfg.sample = true → u.queueDom k = some d → s.slu.events = [] →
    let after := { u with tm.ended := u.now + 1, tm.queues := [(k, { y with hist := { gap := true } })], tm.counters := bump s.tm.counters 7 }
    (∀ m, u.sampleRing d = none → (s.tmDom d).periodNext = some m → u.now % (m * grid 20) = 0 → Completes (.samplePeriodEnd dt) s fun t =>
      Agree { after with tm.doms := tset s.tm.doms d { s.tmDom d with periodMult := m, periodNext := none } } t) ∧
    (u.sampleRing d = none → (s.tmDom d).periodNext = none → u.now % ((s.tmDom d).periodMult * grid 20) = 0 → Completes (.samplePeriodEnd dt) s fun t =>
      Agree after t) ∧
    ((s.tmDom d).periodNext = none → u.now % ((s.tmDom d).periodMult * grid 20) ≠ 0 → Completes (.samplePeriodEnd dt) s fun t =>
      Agree { u with tm.ended := u.now + 1 } t) ∧
    (∀ ring ds r, u.sampleRing d = some ring → u.mute (fnOfKey ring) = false → u.waits (fnOfKey ring) = false → (u.ring ring).sumpFull = false →
      (u.ring ring).fetched = ds :: r → ds.ended = false → tget s.tm.filled d 0 = 0 → 256 ≤ ds.len → (s.tmDom d).periodNext = none →
      u.now % ((s.tmDom d).periodMult * grid 20) = 0 → Completes (.samplePeriodEnd dt) s fun t =>
        .hostWrite (fnOfKey ring) ds.addr (sampleRecord k d u.ledgerNs u.quality y.hist false) ∈ t.out ∧ (t.queue k).hist = {} ∧
        t.tm.counters = bump s.tm.counters 6 ∧ tget t.tm.filled d 0 = 0 ∧ (t.queue k).frames = y.frames ∧
        (t.ring ring).fetched.all (fun z => z.idx != ds.idx || z.ended) = true))

/-- R26, R75, R77, R79, R127, R186, R187, R197, R202, R203, R260, R261, R337: nothing starts on a line that is not free, while a Spout replica or a heartbeat is
due, or where it would run into a held interval; else the frame that the port's scheduler picks - of the domain at the head and the queue at the head of
its committed list, or of its excess list where that is empty, both deficits covering it - goes on the wire as its MAC makes it, at the next start instant. A frame that has ended is
counted, fed to the Ledger with its stamp, itemised where it is marked and completed at its ring, and the next one waiting begins. A frame of a host-delivery queue goes to
its function's intake or, with its stamp block and receive record, to the posted buffer of its ring; a frame read from a host ring is admitted to its queue
once its bytes are there. Conventions of the model that it rests on: notes/assumptions/33, 34, 62, 65, 79, 84, 85, 136, 175. -/
def Obligations.FramesLeaveTheirQueues : Prop := ∀ (s : State) (dt port : Nat),
  let u := s.elapse dt
  let y := s.pt port
  u.Settled → s.slu.events = [] →
  (u.lineFree port = false ∨ u.spoutDue port = true ∨ (s.ports.hb.port = some port ∧ s.ports.hb.waiting ≠ none) ∨ s.glb.mode = .lockdown ∨
    u.pickDom port 65536 = none → Completes (.frameTransmitStart dt port) s fun t => Agree u t) ∧
  (∀ qn d s1 f rest, u.lineFree port = true → u.spoutDue port = false → s.ports.hb.port ≠ some port → s.glb.mode ≠ .lockdown →
    u.pickDom port 65536 = some (qn, d, s1) → (s1.queue qn).frames = f :: rest →
    let v := s1.sendHead port d qn
    let v := if f.heldIn then v.unhold f else v
    ((s1.sched port).doms.head? = some d ∧
      ((s1.sched port).list (if (s1.sched port).list (2 * d) = [] then 2 * d + 1 else 2 * d)).head? = some qn ∧
      s1.schedLen (s1.queue qn).cfg f ≤ (s1.queue qn).deficit ∧ s1.schedLen (s1.queue qn).cfg f ≤ tget (s1.sched port).domDeficit d 0) ∧
    (f.bad = true → Completes (.frameTransmitStart dt port) s fun t => Agree (((v.memDom f.dom 1).txLost f port 2).pfcFlush) t) ∧
    (f.bad = false → (v.macFrame port f.data f.tci).1 = none → Completes (.frameTransmitStart dt port) s fun t =>
      Agree ((v.macFrame port f.data f.tci).2.txLost f port 2).pfcFlush t) ∧
    (∀ b w, f.bad = false → v.macFrame port f.data f.tci = (some b, w) →
      (u.holdOk port b.length = true → Completes (.frameTransmitStart dt port) s fun t =>
        Agree (w.startTx port { data := b, kind := 0, frame := f, queue := qn }).pfcFlush t ∧
        (f.heldIn = false → (w.pt port).tx = [] → .frame port b ∈ t.out ∧ (t.pt port).tx.map (fun z => (z.data, z.start)) = [(b, w.startAt port)] ∧
          (t.pt port).busyTo = w.elapsed + (w.startAt port - w.now) + w.byteTime port (b.length + 20))) ∧
      (u.holdOk port b.length = false → Completes (.frameTransmitStart dt port) s fun t => Agree u t) ∧
      (∀ r, s.slu.store = [r] → r.port = port → r.late = false → r.target ≤ u.startAt port + u.byteTime port (y.cfg.maxFrame + 20) →
        r.start < u.startAt port + u.byteTime port (b.length + 20) → Completes (.frameTransmitStart dt port) s fun t => Agree u t))) ∧
  (∀ age, y.tx = [] → Completes (.txFrameComplete dt port age) s fun t => Agree u t) ∧
  (∀ age f rest, y.tx = f :: rest → f.ptp = none →
    let v := u.setPt port { y with tx := rest }
    let v := if f.aborted then v.mac port 55 else if f.cut then v else if f.kind = 3 then v.mac port 58 else v.macSent port f.data
    let t0 := v.sfdAt (u.elapsed - age) 0 f.cal
    let r := v.ledgerFeed port 1 f.cut t0 f.data.length f.data
    let w := r.1.whTx port r.2
    let on := fun (w : State) => if rest = [] ∨ w.portUp port = false then w else w.beginTx port
    (f.frame.port < 32 → f.frame.desc = none → Completes (.txFrameComplete dt port age) s fun t => Agree (on w) t ∧
      (t.pt port).txEvents = inc48 y.txEvents ∧ (rest = [] → (t.pt port).tx = []) ∧ (t.pt port).lastTx = (v.stampAt t0, v.qualityAt t0)) ∧
    (∀ k first, 32 ≤ f.frame.port → f.frame.wantMark = true ∨ f.frame.notarise = true → f.frame.desc = some (k, first) →
      Completes (.txFrameComplete dt port age) s fun t =>
        let m := w.ledgerMark r.2 0 false ((f.egress port).getD f.frame.cls)
        Agree (on (m.1.txEnd k first port (some (r.2.stamp, r.2.quality)) m.2 f.data.length 0)) t)) ∧
  (s.glb.mode = .lockdown → Completes (.hostDelivery dt) s fun t => Agree u t) ∧
  (s.dma.waits = [] → (u.syncSched hostSched).pickDom hostSched 65536 = none → Completes (.hostDelivery dt) s fun t => Agree u t) ∧
  (∀ c w, s.glb.mode ≠ .lockdown → s.dma.waits = [(c, w)] → u.hasBuffer w.ring = true → u.mute (fnOfKey w.ring) = false → Completes (.hostDelivery dt) s fun t =>
    Agree (({ u with dma.waits := [] }.placeRx c w (w.data.length + 1)).syncSched hostSched) t) ∧
  (∀ qn d s1 f rest, s.dma.waits = [] → s.glb.mode ≠ .lockdown → (u.syncSched hostSched).pickDom hostSched 65536 = some (qn, d, s1) →
    (s1.queue qn).frames = f :: rest →
    let v := s1.sendHead hostSched d qn
    let v := if f.heldIn then v.unhold f else v
    let fn := (s1.queue qn).cfg.fn
    let k := rkey fn (s1.queue qn).cfg.ring
    (f.bad = true → Completes (.hostDelivery dt) s fun t => Agree ((v.memDom f.dom 1).syncSched hostSched).pfcFlush t) ∧
    (f.bad = false → (s1.queue qn).cfg.ring = 0x3FF → Completes (.hostDelivery dt) s fun t =>
      Agree ({ v with rdma.intake := tset v.rdma.intake fn (tget v.rdma.intake fn [] ++ [f]) }.syncSched hostSched).pfcFlush t) ∧
    (∀ c ds, f.bad = false → (s1.queue qn).cfg.ring ≠ 0x3FF → (s1.queue qn).sa = none → tget? v.dma.queueChan qn = some c → v.sumpStops k = false →
      (v.ring k).fetched.find? (fun z => !z.ended) = some ds → v.mute (fnOfKey k) = false → v.waits (fnOfKey k) = false →
      f.block.length + f.data.length ≤ ds.len → f.heldIn = false → Completes (.hostDelivery dt) s fun t =>
        .hostWrite (fnOfKey k) ds.addr (f.block ++ f.data) ∈ t.out ∧
        .hostWrite (fnOfKey k) ((v.ring k).slotAddr ds.idx) (rxRecord f qn (f.block.length + f.data.length) ds.tag true true) ∈ t.out ∧
        (t.queue qn).frames = rest ∧ t.dma.waits = [])) ∧
  (∀ tag data, s.pcie.reads.find? (fun r => r.tag == tag && r.what == 2) = none → Completes (.txFrameReadComplete dt tag data) s fun t => Agree u t) ∧
  (∀ tag data r, s.pcie.reads.find? (fun r => r.tag == tag && r.what == 2) = some r →
    let gone := s.pcie.reads.filter (fun z => z.tag != tag)
    (r.got.length + data.length < r.len → Completes (.txFrameReadComplete dt tag data) s fun t =>
      Agree { u with pcie.reads := s.pcie.reads.map (fun y => if y.tag = tag then { y with got := r.got ++ data } else y) } t) ∧
    (r.len ≤ r.got.length + data.length → r.dead = true → s.pcie.held = [] → Completes (.txFrameReadComplete dt tag data) s fun t =>
      Agree { u with pcie.reads := gone } t) ∧
    (∀ j, r.len ≤ r.got.length + data.length → r.dead = false → s.pcie.held = [] → (s.ring r.ring).jobs = [j] → j.first = r.sub →
      j.data = [] → j.admitted = false → (s.ring r.ring).chan = none →
      let b := (r.got ++ data).take r.len
      (j.count = 2 → Completes (.txFrameReadComplete dt tag data) s fun t =>
        Agree { u with pcie.reads := gone
                       rings.rings := tset s.rings.rings r.ring { s.ring r.ring with jobs := [{ j with
                         data := tset [] ((j.first + 2 ^ 32 - j.first) % 2 ^ 32) b, read := false }] } } t) ∧
      (∀ ds, j.count = 1 → j.release = false → (s.ring r.ring).fetched = [ds] → ds.idx = j.first →
        let z := s.queue ds.queue
        z.sa = none → u.queueDead ds.queue = false → z.depth + cells b.length ≤ z.cfg.limG →
        s.cellsUsed ((u.queueDom ds.queue).getD (u.fnDom (fnOfKey r.ring))) + cells b.length ≤ s.shareKib ((u.queueDom ds.queue).getD (u.fnDom (fnOfKey r.ring))) * 4 →
        u.sumpStops r.ring = false → Completes (.txFrameReadComplete dt tag data) s fun t =>
          ∃ f, (t.queue ds.queue).frames = z.frames ++ [f] ∧ f.data = b ∧ f.desc = some (r.ring, j.first) ∧ f.port = 32 ∧
            f.wantMark = ds.flags.testBit 1 ∧ f.tci = (if ds.flags.testBit 3 then some ds.tci else none) ∧ f.meter = 0xFFFF ∧
            (t.queue ds.queue).counters = bump z.counters 0 ∧ t.pcie.reads = gone)))

/-- R68, R196-R199, R202-R209: of a port's stored releases the first in precedence that is due acts. On a port that is not up it is discarded; on a line that is not free
it is late, and sent late or discarded as it asks, with the counts; one under a marker group moves past it, which makes later ones that it would overlap late; and
any other starts. A change of the correction commits at once, and on a calibrated port the phase moves by the shorter way in steps of 2^-6 ns, the transmit
correction with it. Conventions of the model that it rests on: notes/assumptions/36, 44, 65, 66, 67. -/
def Obligations.SluiceReleases : Prop := ∀ (s : State) (dt : Nat) (p : Path) (x : Session) (q : TReq) (port : Nat),
  let u := s.elapse dt
  let n := startsPer32 (s.pt port).mode
  let denied := fun (code : Nat) (t : State) => Agree u t ∧ t.Answered p q code []
  (u.Settled → Completes (.sluiceHoldPoint dt port) s fun t => Agree u t) ∧
  (∀ shift, u.Settled → s.slu.events = [] → s.glb.mode = .lockdown ∨ u.dueReplica port = none → Completes (.sluiceRelease dt port shift) s fun t =>
    Agree u t) ∧
  (∀ shift r, u.Settled → s.slu.events = [] → s.glb.mode ≠ .lockdown → u.dueReplica port = some r →
    let free := u.lineFree port && !u.pausedOn port (s.queue r.queue).cfg.tc
    (u.portUp port = false → Completes (.sluiceRelease dt port shift) s fun t => Agree (u.discardReplica r 7 2) t ∧
      (t.sluPort r.port).counters = bump (s.sluPort r.port).counters 7) ∧
    (u.portUp port = true → r.late = true → r.lateSend = false → Completes (.sluiceRelease dt port shift) s fun t => Agree (u.discardReplica r 2 2) t ∧
      (t.sluPort r.port).counters = bump (s.sluPort r.port).counters 2) ∧
    (u.portUp port = true → r.late = true → r.lateSend = true → Completes (.sluiceRelease dt port shift) s fun t =>
      Agree ((u.releaseReplica r).sluCount port 1) t) ∧
    (u.portUp port = true → r.late = false → free = false → r.lateSend = false → Completes (.sluiceRelease dt port shift) s fun t =>
      Agree (u.discardReplica r 2 2) t ∧ (t.sluPort r.port).counters = bump (s.sluPort r.port).counters 2) ∧
    (u.portUp port = true → r.late = false → free = false → r.lateSend = true → Completes (.sluiceRelease dt port shift) s fun t =>
      Agree { u with slu.store := s.slu.store.map (fun y => if y = r then { r with late := true } else y) } t) ∧
    (u.portUp port = true → r.late = false → free = true → r.shifted = true → Completes (.sluiceRelease dt port shift) s fun t =>
      Agree (u.releaseReplica r) t)) ∧
  (∀ r, u.Settled → s.slu.events = [] → s.glb.mode ≠ .lockdown → u.dueReplica port = some r → u.portUp port = true → r.late = false → r.shifted = false →
    u.lineFree port = true → u.pausedOn port (s.queue r.queue).cfg.tc = false →
    let shift := u.pastGroup r.port r.start - r.start
    Completes (.sluiceRelease dt port shift) s (fun t =>
      (shift = 0 → Agree (u.releaseReplica r) t) ∧
      (0 < shift → Agree ({ u with slu.store := s.slu.store.map (fun y => if y = r then { r with start := r.start + shift, shifted := true }
        else if y.port = r.port ∧ y.late = false ∧ r.before y = true ∧ y.start < r.start + u.byteTime r.port (r.frame.data.length + 24)
          then { y with late := true } else y) }.sluCount port 5) t)) ∧
    Completes (.sluiceRelease dt port (shift + 1)) s (fun t => Agree u t)) ∧
  (u.Settled → (s.sluPort port).left = 0 ∨ u.elapsed < (s.sluPort port).stepAt ∨ n = 0 → Completes (.sluicePhaseStep dt port) s fun t => Agree u t) ∧
  (u.Settled → 1 < (s.sluPort port).left → (s.sluPort port).stepAt ≤ u.elapsed → n ≠ 0 → Completes (.sluicePhaseStep dt port) s fun t =>
    let y := s.sluPort port
    Agree ((u.setPt port { s.pt port with linkTx := ((s.pt port).linkTx + (if y.up then 1024 else 2 ^ 32 - 1024)) % 2 ^ 32 }).setPhase port { y with
      left := y.left - 1, stepAt := y.stepAt + grid 14
      phase := if y.up then modQ n (y.phase + 1) else if y.phase = 0 then 2048 / n - 1 else y.phase - 1 }) t) ∧
  (u.Settled → (s.sluPort port).left = 1 → (s.sluPort port).stepAt ≤ u.elapsed → n ≠ 0 → Completes (.sluicePhaseStep dt port) s fun t =>
    let y := s.sluPort port
    Agree ((u.setPt port { s.pt port with linkTx := ((s.pt port).linkTx + (if y.up then 1024 else 2 ^ 32 - 1024)) % 2 ^ 32 }).setPhase port { y with
      phase := y.goal, left := 0, settled := true }) t) ∧
  (∀ w f, Issued u p x q 0x0620 3 (dataPerm port) →
    (23 < port ∨ 2 ^ 20 ≤ w ∨ 65536 ≤ f → Completes (.sluiceCompSet dt p port w f) s (denied 0x03000080)) ∧
    (port ≤ 23 → s.portCount ≤ port → w < 2 ^ 20 → f < 65536 → Completes (.sluiceCompSet dt p port w f) s (denied 0x02000081)) ∧
    (port ≤ 23 → port < s.portCount → w < 2 ^ 20 → f < 65536 → Completes (.sluiceCompSet dt p port w f) s fun t => t.Executing p q ∧
      Agree { u with slu.pend := s.slu.pend ++ [(p, port, w * 65536 + f)] } t)) ∧
  (u.Settled → s.slu.pend = [] → Completes (.sluiceCompCommit dt) s fun t => Agree u t) ∧
  (∀ c rest, u.Settled → s.slu.pend = (p, port, c) :: rest → Awaits u p x q 0x0620 →
    let y := { s.sluPort port with comp := c, goal := phaseFor n c }
    let far := (y.goal * n + 2048 * n - y.phase * n) % 2048
    let v := { u with slu.pend := rest }
    ((s.pt port).calState ≠ 2 ∨ n = 0 → Completes (.sluiceCompCommit dt) s fun t => t.Answered p q 0 [u.ledgerNs] ∧
      Agree (v.setPhase port { y with phase := phaseFor n c }) t) ∧
    ((s.pt port).calState = 2 → n ≠ 0 → far = 0 → Completes (.sluiceCompCommit dt) s fun t => t.Answered p q 0 [u.ledgerNs] ∧
      Agree (v.setPhase port { y with phase := phaseFor n c, left := 0, settled := true }) t) ∧
    ((s.pt port).calState = 2 → n ≠ 0 → far ≠ 0 → Completes (.sluiceCompCommit dt) s fun t => t.Answered p q 0 [u.ledgerNs] ∧
      Agree (v.setPhase port { y with left := ceilDiv (min far (2048 - far)) n, up := far ≤ 1024, settled := false, stepAt := u.elapsed + grid 14 }) t)) ∧
  (Issued u p x q 0x0621 1 (dataPerm port) →
    (23 < port → Completes (.sluiceStatus dt p port) s (denied 0x03000081)) ∧
    (port ≤ 23 → s.portCount ≤ port → Completes (.sluiceStatus dt p port) s (denied 0x02000081)) ∧
    (port ≤ 23 → port < s.portCount → s.slu.events = [] → Completes (.sluiceStatus dt p port) s fun t =>
      let y := s.sluPort port
      let d := s.portOwner port
      Agree u t ∧ t.Answered p q 0 ([y.comp / 65536, y.comp % 65536, y.phase + 1024 * b2n y.settled + 65536 * (if n = 0 then 0 else 3200 / n),
        u.nextMarker port] ++ y.counters ++ [s.sluShare d + 65536 * (s.slu.store.filter (fun r => r.dom == d)).length]))) ∧
  (∀ ls, Issued u p x q 0x0622 16 .any →
    let bad := 16384 < ls.sum ∨ (List.range 16).any (fun d => decide (nth ls d < (s.slu.store.filter (fun r => r.dom == d)).length)) = true
    (bad → Completes (.sluiceQuota dt p ls) s (denied 0x02000080)) ∧
    (¬ bad → Completes (.sluiceQuota dt p ls) s fun t => t.Answered p q 0 [] ∧
      Agree { u with slu.shares := (List.range 16).map (fun d => (d, nth ls d)) } t))

/-- R212, R213, R214, R216-R220, R223, R230: what a general instruction of a thread that has the slot leaves, every other part of the block as it was: its
destination, w0 aside, or the bytes it stores, and its pc; a cistern load goes out and a cistern store is posted; a misaligned access or target, an access outside the map and an
encoding that is not listed stop the core, with what the fault records; U outside its code or data traps. A slot goes to the urgent thread while it is READY,
but at its floor position to another that is, and else round robin; a thread without the slot issues nothing, and a second instruction shares it where the two may pair.
R220-R224, R226, R228, R229: the instructions on a thread's time, control registers and traps, every other part of the block as it was. `tnow` reads within 1 ns of device
time; a form that U may not use traps with cause 2, and a trap in a trap stops the core. Conventions of the model that it rests on:
notes/assumptions/6, 69, 70, 71, 72, 177. -/
def Obligations.InstructionsAndTraps : Prop :=
  (∀ (s : State) (dt c h w : Nat) (x : Thread),
  let u := s.elapse dt
  let ram := s.ram
  let does := fun (g : GInstr) (y : Thread) => Completes (.generalInstruction dt c h w g) s fun t => t = (u.given c h (gForm g)).retired c h y
  let keeps := fun (g : GInstr) (r : Memory) (y : Thread) => Completes (.generalInstruction dt c h w g) s fun t =>
    t = ({ u.given c h (gForm g) with ram := r }).retired c h y
  let faults := fun (g : GInstr) (cls val : Nat) => Completes (.generalInstruction dt c h w g) s fun t =>
    let v := ((u.given c h (gForm g)).coreCount1 c 5).setThr c h { x with skip := none }
    t.Faulted c h cls x.pc val ∧ Agree (v.setCore c { ((v.core c).stop u.now u.elapsed cls h x.pc val) with lost := [] }) t
  let may := fun (a n : Nat) => a + n ≤ 2 ^ 18 ∧ a % n = 0 ∧ (x.priv = true ∨ (x.udataBase ≤ a ∧ a + n ≤ x.udataLimit))
  let paged := fun (a n : Nat) => 2 ^ 32 ≤ a ∧ a + n ≤ 2 ^ 33 ∧ a % n = 0 ∧ u.cisternOk (u.cdom c) (a - 2 ^ 32) n = true
  Fetches u c h w x → bits w 6 0 ≠ 0x5B →
  (∀ op d a b, does (.alu op d a b) (x.past.setReg d (Config.alu op (x.reg a) (x.reg b)).toNat)) ∧
  (∀ n d a off, n ∈ [1, 2, 4, 8] → may (plusOff (x.reg a) off) n →
    does (.load n d a off) (x.past.setReg d (loadValue n (ofLe (mreads ram (localAt c (plusOff (x.reg a) off)) n))))) ∧
  (∀ n a b off, n ∈ [1, 2, 4, 8] → may (plusOff (x.reg a) off) n →
    keeps (.store n a b off) (mwrites ram (localAt c (plusOff (x.reg a) off)) (le (x.reg b) n)) x.past) ∧
  (∀ n d a off, n ∈ [1, 2, 4, 8] → paged (plusOff (x.reg a) off) n →
    let v := loadValue n (ofLe (mreads ram (cisternAt (u.cdom c) (plusOff (x.reg a) off - 2 ^ 32)) n))
    does (.load n d a off) { x.past with loads := [(d, plusOff (x.reg a) off, v, false)] }) ∧
  (∀ n a b off, n ∈ [1, 2, 4, 8] → paged (plusOff (x.reg a) off) n →
    keeps (.store n a b off) (mwrites ram (cisternAt (u.cdom c) (plusOff (x.reg a) off - 2 ^ 32)) (le (x.reg b) n)) { x.past with stores := x.stores + 1 }) ∧
  (∀ a b off, does (.branch a b false off) x.past) ∧
  (∀ a b off, plusOff x.pc off % 4 = 0 → does (.branch a b true off) { x.past with pc := plusOff x.pc off }) ∧
  (∀ d a, x.reg a % 4 = 0 → does (.jump d a) { x.past.setReg d (x.pc + 4) with pc := x.reg a }) ∧
  (∀ d a b n, may (x.reg a) 8 →
    let old := ofLe (mreads ram (localAt c (x.reg a)) 8)
    (old = x.reg b → keeps (.cas d a b n) (mwrites ram (localAt c (x.reg a)) (le (x.reg n) 8)) (x.past.setReg d old)) ∧
    (old ≠ x.reg b → does (.cas d a b n) (x.past.setReg d old)) ∧
    keeps (.fadd d a b) (mwrites ram (localAt c (x.reg a)) (le ((old + x.reg b) % 2 ^ 64) 8)) (x.past.setReg d old)) ∧
  (c < 96 → s.cores.chans = [] → s.rm.flows = [] →
    faults .illegal 1 w ∧
    (∀ a b off, plusOff x.pc off % 4 ≠ 0 → faults (.branch a b true off) 3 (plusOff x.pc off)) ∧
    (∀ d a, x.reg a % 4 ≠ 0 → faults (.jump d a) 3 (x.reg a)) ∧
    (∀ n r a off, n ∈ [2, 4, 8] → x.priv = true → plusOff (x.reg a) off % n ≠ 0 →
      faults (.load n r a off) 3 (plusOff (x.reg a) off) ∧ faults (.store n a r off) 3 (plusOff (x.reg a) off)) ∧
    (∀ n r a off, n ∈ [1, 2, 4, 8] → x.priv = true → plusOff (x.reg a) off % n = 0 → 2 ^ 18 ≤ plusOff (x.reg a) off → plusOff (x.reg a) off < 2 ^ 32 →
      faults (.load n r a off) 2 (plusOff (x.reg a) off) ∧ faults (.store n a r off) 2 (plusOff (x.reg a) off))) ∧
  (x.priv = false → ∀ n r a off, n ∈ [1, 2, 4, 8] → plusOff (x.reg a) off < 2 ^ 32 →
    plusOff (x.reg a) off < x.udataBase ∨ x.udataLimit < plusOff (x.reg a) off + n →
    let traps := fun (g : GInstr) => Completes (.generalInstruction dt c h w g) s fun t =>
      t = ((u.given c h (gForm g)).setThr c h (x.past.trapped 4 (plusOff (x.reg a) off) x.pc)).coreCount1 c 4
    (x.tactive = false → traps (.load n r a off) ∧ traps (.store n a r off)) ∧
    (x.tactive = true → c < 96 → s.cores.chans = [] → s.rm.flows = [] → faults (.load n r a off) 7 4 ∧ faults (.store n a r off) 7 4))) ∧
  (∀ (s : State) (dt c h w : Nat) (x : Thread) (g : GInstr),
  let u := s.elapse dt
  let row := fun (P : State → Prop) => Completes (.generalInstruction dt c h w g) s P
  u.Plain → u.firmware = true → (u.core c).state = .running → u.thr c h = x → x.loads = [] →
  (listedWord w = true → bits w 6 0 = 0x5B → row fun t => t = u) ∧
  (x.state ≠ .ready → row fun t => t = u) ∧
  ((u.core c).issue = none → (u.core c).grant ((u.core c).slot % 32) ≠ some h → row fun t => t = u) ∧
  (bits w 6 0 ≠ 0x5B → x.state = .ready → u.dbg.bps = [] → (u.core c).issue = none → (u.core c).grant ((u.core c).slot % 32) = some h → x.priv = false →
    x.tactive = false → x.pc < x.ucodeBase ∨ x.ucodeLimit < x.pc + 4 → row fun t =>
      t = ((u.given c h (gForm g)).setThr c h (x.trapped 3 x.pc x.pc)).coreCount1 c 4) ∧
  (∀ i op d a b, g = .alu op d a b → bits w 6 0 ≠ 0x5B → x.state = .ready → x.bad = [] → u.dbg.bps = [] → x.priv = true → x.pc + 4 ≤ 2 ^ 18 →
    ofLe (mreads u.ram (localAt c x.pc) 4) = w → u.mem.poison = [] → u.mem.bad = [] → (u.core c).issue = some i → i.thr = h → i.next = x.pc →
    i.last = false → i.dst = 0 ∨ (i.dst ≠ a ∧ i.dst ≠ b) → row fun t =>
      t = (u.setCore c { u.core c with issue := some { i with last := true }, counters := bump (u.core c).counters 1 }).retired c h
        (x.past.setReg d (Config.alu op (x.reg a) (x.reg b)).toNat))) ∧
  (∀ (y : Core) (p : Nat), p < 32 →
    let on := fun (k : Nat) => (tget y.threads k {}).state = .ready
    let e := y.urgent / 2 % 8
    (y.urgent % 2 = 1 → on e → p % 4 = 0 → on (p / 4) → y.grant p = some (p / 4)) ∧
    (y.urgent % 2 = 1 → on e → p % 4 ≠ 0 ∨ ¬ on (p / 4) → y.grant p = some e) ∧
    (∀ i, i < 8 → y.urgent % 2 = 0 ∨ ¬ on e → on ((y.rr + 1 + i) % 8) → (∀ j, j < i → ¬ on ((y.rr + 1 + j) % 8)) → y.grant p = some ((y.rr + 1 + i) % 8)) ∧
    (∀ el, y.state = .running → y.issue = none → y.slot < y.cycle el → (∀ k, k < 8 → ¬ on k) →
      (y.settle el).counters = bumpBy y.counters 2 (y.cycle el - y.slot))) ∧
  (∀ (s : State) (dt c h w : Nat) (x : Thread),
  let u := s.elapse dt
  let o := u.given c h { dev := true }
  let d := wRd w
  let v := x.reg (wRs1 w)
  let n := wImm w
  let does := fun (i : Instr) (y : Thread) => Completes i s fun t => t = o.retired c h y
  let traps := fun (i : Instr) => Completes i s fun t => t = (o.setThr c h (x.past.trapped 2 w x.pc)).coreCount1 c 4
  let faults := fun (i : Instr) (cls val : Nat) => Completes i s fun t =>
    let v := (o.coreCount1 c 5).setThr c h { x with skip := none }
    t.Faulted c h cls x.pc val ∧ Agree (v.setCore c { ((v.core c).stop u.now u.elapsed cls h x.pc val) with lost := [] }) t
  let cr := [h + 256 * c + 65536 * u.cdom c, b2n x.priv + 2 * b2n x.pp + 4 * b2n x.tactive + 8 * b2n ((u.core c).urgent == 1 + 2 * h), x.tvec, x.tpc,
    x.tcause, x.tval, x.deadline, x.pend, (u.core c).urgent, x.ucodeBase, x.ucodeLimit, x.udataBase, x.udataLimit,
    (u.elapsed - (u.core c).startedAt) / 32768 % 2 ^ 64, x.retired % 2 ^ 64, x.scratch]
  Fetches u c h w x →
  (wordD w 0 0 = true → Completes (.tnow dt c h w) s fun t => ∃ k m, k ≤ 131072 ∧ m = twos 80 ((u.now : Int) + k - 65536) ∧
    t = ({ o with fresh := u.fresh + 1 }).retired c h ({ x.past with latched := fracOf m + 65536 * u.quality }.setReg d (nsOf m))) ∧
  (wordD w 0 1 = true → does (.tnowq dt c h w) (x.past.setReg d x.latched)) ∧
  (wordD w 0 2 = true → nsOf u.now < v → does (.dlset dt c h w) { x.past with deadline := v, dlValid := true }) ∧
  (wordD w 0 2 = true → v ≤ nsOf u.now → x.blocked = none → does (.dlset dt c h w) { x.past with deadline := v, dlValid := false, pend := setBit x.pend 0 }) ∧
  (wordD w 0 3 = true → does (.dlclr dt c h w) { x.past with dlValid := false }) ∧
  (wordC w 1 = true → n ≤ 15 →
    (x.priv = true ∨ n ∈ [0, 1, 6, 7, 8, 13, 14] → does (.crr dt c h w) (x.past.setReg d (nth cr n))) ∧
    (x.priv = false → x.tactive = false → n ∉ [0, 1, 6, 7, 8, 13, 14] → traps (.crr dt c h w))) ∧
  (wordC w 2 = true → n ∈ [0, 4, 5, 7, 13, 14] → x.priv = true → does (.crw dt c h w) x.past) ∧
  (wordC w 2 = true → x.priv = true →
    (n = 1 → does (.crw dt c h w) { x.past with priv := v.testBit 0, pp := v.testBit 1 }) ∧
    (n = 2 → does (.crw dt c h w) { x.past with tvec := v / 4 * 4 }) ∧
    (n = 3 → does (.crw dt c h w) { x.past with tpc := v }) ∧
    (n = 9 → does (.crw dt c h w) { x.past with ucodeBase := v }) ∧
    (n = 10 → does (.crw dt c h w) { x.past with ucodeLimit := v }) ∧
    (n = 11 → does (.crw dt c h w) { x.past with udataBase := v }) ∧
    (n = 12 → does (.crw dt c h w) { x.past with udataLimit := v }) ∧
    (n = 15 → does (.crw dt c h w) { x.past with scratch := v }) ∧
    (n = 8 → Completes (.crw dt c h w) s fun t => t = (o.setCore c { o.core c with urgent := v % 16 }).retired c h x.past)) ∧
  (wordC w 2 = true → n = 6 → does (.crw dt c h w) { x.past with deadline := v }) ∧
  (wordC w 2 = true → n ≤ 15 → n ≠ 6 → x.priv = false → x.tactive = false → traps (.crw dt c h w)) ∧
  (wordD w 3 2 = true → x.priv = true → x.tpc % 4 = 0 → does (.tret dt c h w) { x.past with priv := x.pp, tactive := false, pc := x.tpc }) ∧
  (x.priv = false → x.tactive = false → (wordD w 3 2 = true → traps (.tret dt c h w)) ∧ (wordD w 3 0 = true → traps (.tspawn dt c h w))) ∧
  (wordC w 7 = true → x.tactive = false → Completes (.trap dt c h w) s fun t =>
    t = (o.coreCount1 c 4).retired c h (x.past.trapped 1 n (x.pc + 4)) ∧ (t.core c).state = .running ∧
    (t.thr c h).tpc = x.pc + 4 ∧ (t.thr c h).tcause = 1 ∧ (t.thr c h).tval = n ∧ (t.thr c h).pp = x.priv ∧ (t.thr c h).priv = true ∧
    (t.thr c h).tactive = true ∧ (t.thr c h).pc = x.tvec) ∧
  (c < 96 → s.cores.chans = [] → s.rm.flows = [] →
    (15 < n → (wordC w 1 = true → faults (.crr dt c h w) 1 w) ∧ (wordC w 2 = true → faults (.crw dt c h w) 1 w)) ∧
    (wordD w 3 2 = true → x.priv = true → x.tpc % 4 ≠ 0 → faults (.tret dt c h w) 3 x.tpc) ∧
    (x.tactive = true → (wordC w 7 = true → faults (.trap dt c h w) 7 1) ∧ (wordD w 3 2 = true → x.priv = false → faults (.tret dt c h w) 7 2) ∧
      (wordC w 1 = true → n ∈ [2, 3, 4, 5, 9, 10, 11, 12, 15] → x.priv = false → faults (.crr dt c h w) 7 2))) ∧
  (listedWord w = false → bits w 6 0 = 0x5B → c < 96 → s.cores.chans = [] → s.rm.flows = [] → ∀ g, faults (.generalInstruction dt c h w g) 1 w))

/-- R220, R223, R225, R227, R236, R257, R273: the instructions by which a thread waits, signals, starts another, ends, orders its stores and posts to a
ring, every other part of the block as it was. `rpost` of a ring that is not the domain's stops the core; Lockdown, and Drain for new work, refuse it with 2; a full ring, and one of a
function that is reset, halted or frozen, with 1, nothing posted. Conventions of the model that it rests on: notes/assumptions/6, 71, 74. -/
def Obligations.ThreadsAndRingPosts : Prop := ∀ (s : State) (dt c h w : Nat) (x : Thread),
  let u := s.elapse dt
  let o := u.given c h { dev := true }
  let d := wRd w
  let v := x.reg (wRs1 w)
  let a := x.reg (wRs2 w)
  let does := fun (i : Instr) (y : Thread) => Completes i s fun t => t = o.retired c h y
  let alone := c < 96 ∧ s.cores.chans = [] ∧ s.rm.flows = []
  let faults := fun (i : Instr) (cls val : Nat) => Completes i s fun t =>
    let v := (o.coreCount1 c 5).setThr c h { x with skip := none }
    t.Faulted c h cls x.pc val ∧ Agree (v.setCore c { ((v.core c).stop u.now u.elapsed cls h x.pc val) with lost := [] }) t
  let ended := { x.past with
    state := .inactive, deadline := 0, dlValid := false, pend := 0, blocked := none, subs := [], item := none, abandoned := [], slot := none }
  Fetches u c h w x →
  (wordD w 0 4 = true →
    (v < 64 → x.pend &&& v ≠ 0 → does (.wfe dt c h w) ({ x.past with pend := x.pend - (x.pend &&& v) }.setReg d (x.pend &&& v))) ∧
    (v < 64 → x.pend &&& v = 0 → Completes (.wfe dt c h w) s fun t =>
      t = (o.coreCount1 c 3).retired c h { x.past with state := .waiting, blocked := some (.wfe v d) }) ∧
    (alone → 64 ≤ v → faults (.wfe dt c h w) 1 w)) ∧
  (wordD w 0 5 = true →
    (v % 8 ≠ h → (u.thr c (v % 8)).live = false → does (.sig dt c h w) x.past) ∧
    (v % 8 ≠ h → (u.thr c (v % 8)).live = true → Completes (.sig dt c h w) s fun t =>
      t = (o.setThr c (v % 8) { u.thr c (v % 8) with pend := setBit (u.thr c (v % 8)).pend 5 }.tryWfe).retired c h x.past) ∧
    (v % 8 = h → x.blocked = none → does (.sig dt c h w) { x.past with pend := setBit x.pend 5 })) ∧
  (wordD w 3 0 = true → x.priv = true → v % 8 ≠ h →
    ((u.thr c (v % 8)).live = true → does (.tspawn dt c h w) (x.past.setReg d 1)) ∧
    ((u.thr c (v % 8)).live = false → a % 4 = 0 → Completes (.tspawn dt c h w) s fun t =>
      t = (o.setThr c (v % 8) { state := .ready, regs := if v = 0 then [] else [(1, v)], pc := a }).retired c h (x.past.setReg d 0)) ∧
    ((u.thr c (v % 8)).live = false → a % 4 ≠ 0 → alone → faults (.tspawn dt c h w) 5 w)) ∧
  (wordD w 3 1 = true → x.slot = none → s.cores.chans = [] → s.rm.flows = [] →
    ((u.core c).threads.any (fun y => y.1 != h && y.2.live) = true → Completes (.texit dt c h w) s fun t => t = o.retired c h ended) ∧
    ((u.core c).threads = [(h, x)] → Completes (.texit dt c h w) s fun t => t.thr c h = { ended with retired := x.retired + 1 } ∧
      let e := o.setThr c h ended
      Agree (((e.setCore c { e.core c with state := .loaded, stoppedAt := u.elapsed, lost := [] })).coreCount1 c 0) t)) ∧
  (wordD w 3 3 = true →
    (x.stores = 0 → does (.fenceD dt c h w) x.past) ∧
    (0 < x.stores → does (.fenceD dt c h w) { x.past with state := .stalled, blocked := some .fence })) ∧
  (wordD w 5 0 = true →
    (alone → postRing v = none → faults (.rpost dt c h w) 5 w) ∧
    (∀ k, postRing v = some k →
      let mine := u.fnExists (fnOfKey k) = true ∧ u.fnDom (fnOfKey k) = u.cdom c ∧
        ((s.fn (fnOfKey k)).inReset = true ∨ ((u.ring k).enable = true ∧ (u.ring k).kind = 1)) ∧ a % 32 = 0 ∧ a + 32 ≤ 2 ^ 18
      let barred := s.glb.mode = .lockdown ∨ (s.glb.mode = .drain ∧ (u.ring k).newWork (u.isSend k) = true)
      let no := (s.fn (fnOfKey k)).inReset = true ∨ (s.fn (fnOfKey k)).halted = true ∨ (s.pfn (fnOfKey k)).frozen = true ∨ (u.ring k).enable = false ∨
        (u.ring k).entries ≤ ((u.ring k).pi + 2 ^ 32 - (u.ring k).done) % 2 ^ 32
      (alone → ¬ mine → faults (.rpost dt c h w) 5 w) ∧
      (mine → barred → Completes (.rpost dt c h w) s fun t => t = (o.ringCount (fnOfKey k) 1).retired c h (x.past.setReg d 2)) ∧
      (mine → ¬ barred → no → does (.rpost dt c h w) (x.past.setReg d 1)) ∧
      (mine → ¬ barred → ¬ no → x.item = none → Completes (.rpost dt c h w) s fun t =>
        let e := (o.setThr c h ({ x.past with posts := x.posts + 1, blocked := none }.setReg d 0))
        Agree ((e.corePost k (mreads s.ram (localAt c a) 32) (tkey c h)).coreCount1 c 0) t ∧
        t.thr c h = { { x.past with posts := x.posts + 1, blocked := none }.setReg d 0 with retired := x.retired + 1 } ∧
        (u.mute (fnOfKey k) = false → u.waits (fnOfKey k) = false →
          .hostWrite (fnOfKey k) ((u.ring k).slotAddr (u.ring k).pi) (mreads s.ram (localAt c a) 32) ∈ t.out))))

/-- R212, R218, R226, R232, R233: a deadline that device time has reached fires once; the oldest load out returns to its register, and a thread that awaited it, or a ninth
load, goes on; a core none of whose threads can be woken stops, the lowest of them recorded; an overseer that has stopped starts again while another runs.
R210, R211, R215, R220, R221, R231, R234-R236: the commands of the cores. One that names a core of no domain, or that the core's state does not
allow, is refused; the others load, start, stop and restart it, designate its urgent thread, or read its window. Conventions of the model that it
rests on: notes/assumptions/6, 69, 75, 84, 131, 179. -/
def Obligations.CoresInTimeAndCommands : Prop :=
  (∀ (s : State) (dt c h : Nat),
  let u := s.elapse dt
  let x := u.thr c h
  u.Plain →
  ((u.core c).state = .running → x.live = true → x.dlValid = true → x.deadline ≤ nsOf u.now → Completes (.deadlineFire dt c h) s fun t =>
    t = u.setThr c h { x with dlValid := false, pend := setBit x.pend 0 }.tryWfe) ∧
  (x.dlValid = false ∨ nsOf u.now < x.deadline ∨ (u.core c).state ≠ .running → Completes (.deadlineFire dt c h) s fun t => t = u) ∧
  (x.loads = [] → Completes (.cisternLoadReturn dt c h) s fun t => t = u) ∧
  (∀ d a v bad more, x.loads = (d, a, v, bad) :: more →
    let y := { x with loads := more }.setReg d v
    let y := if bad = true ∧ d ≠ 0 then { y with bad := tset y.bad d a } else y
    (x.blocked = none → Completes (.cisternLoadReturn dt c h) s fun t => t = u.setThr c h y) ∧
    (∀ rs, x.blocked = some (.await rs) →
      (more.any (fun l => rs.contains l.1) = true → Completes (.cisternLoadReturn dt c h) s fun t => t = u.setThr c h y) ∧
      (more.any (fun l => rs.contains l.1) = false → Completes (.cisternLoadReturn dt c h) s fun t => t = u.setThr c h y.resume)) ∧
    (∀ n r b, x.blocked = some (.load n r b) → x.state = .stalled → u.mem.bad = [] → u.mem.poison = [] → more.length < 8 →
      Completes (.cisternLoadReturn dt c h) s fun t => t = u.setThr c h { y with
        state := .ready, blocked := none, loads := more ++ [(r, b, loadValue n (ofLe (mreads s.ram (u.placeOf c b) n)), false)] })) ∧
  (u.dryWell c = false → Completes (.dryWellFault dt c) s fun t => t = u) ∧
  (c < 96 → s.cores.chans = [] → s.rm.flows = [] → u.dryWell c = true → Completes (.dryWellFault dt c) s fun t =>
    let ids := ((u.core c).threads.filter (fun y => y.2.live)).map (fun y => y.1)
    let k := ids.headD 0
    let val := (ids.map (fun i => 2 ^ i)).sum
    let v := (u.coreCount1 c 6).coreCount1 c 5
    t.Faulted c k 6 (u.thr c k).pc val ∧ Agree (v.setCore c { ((v.core c).stop u.now u.elapsed 6 k (u.thr c k).pc val) with lost := [] }) t) ∧
  (c < 96 ∨ (u.core c).state ≠ .stopped ∨ [96, 97, 98, 99].any (fun o => (u.core o).state == .running) = false →
    Completes (.overseerRestart dt c) s fun t => t = u) ∧
  (96 ≤ c → c < 100 → (u.core c).state = .stopped → [96, 97, 98, 99].any (fun o => (u.core o).state == .running) = true →
    Completes (.overseerRestart dt c) s fun t => t.thr c 0 = newThread 0 0 ∧ Agree (u.setCore c { u.core c with
      state := .running, urgent := 0, startedAt := u.elapsed, rr := 7, slot := 0, issue := none, lost := [], counters := bump (u.core c).counters 7 }) t)) ∧
  (∀ (s : State) (dt : Nat) (p : Path) (x : Session) (q : TReq) (c : Nat),
  let u := s.elapse dt
  let y := u.core c
  let perm := u.corePerm c
  let denied := fun (code : Nat) (t : State) => Agree u t ∧ t.Answered p q code []
  c < 100 →
  (∀ addr len off data, Issued u p x q 0x0701 4 perm →
    let bad := 2 ^ 18 < off + len ∨ off % 8 ≠ 0
    (badAddr p addr = true → Completes (.coreLoad dt p c addr len off data) s (denied 0x03000F02)) ∧
    (badAddr p addr = false → bad → Completes (.coreLoad dt p c addr len off data) s (denied 0x03000090)) ∧
    (badAddr p addr = false → ¬ bad → u.coreAbsent c = true → Completes (.coreLoad dt p c addr len off data) s (denied 0x02000092)) ∧
    (badAddr p addr = false → ¬ bad → u.coreAbsent c = false → y.state = .running → Completes (.coreLoad dt p c addr len off data) s (denied 0x02000090)) ∧
    (badAddr p addr = false → ¬ bad → u.coreAbsent c = false → y.state ≠ .running → s.mem.bad = [] →
      Completes (.coreLoad dt p c addr len off data) s fun t => t.Answered p q 0 [] ∧
        Agree ((u.ramWrite (localAt c off) (u.cmdRead p addr len data)).setCore c
          { y with state := if y.state = .stopped then .stopped else .loaded, cleared := false }) t)) ∧
  (∀ mask addr data, Issued u p x q 0x0702 3 perm → mask < 256 →
    let b := u.cmdRead p addr 128 data
    let named := (List.range 8).filter (fun h => mask.testBit h)
    let bad := mask = 0 ∨ named.any (fun h => ofLe (slice b (16 * h) 8) % 4 != 0) = true
    (badAddr p addr = true → Completes (.coreStart dt p c mask addr data) s (denied 0x03000F02)) ∧
    (badAddr p addr = false → bad → Completes (.coreStart dt p c mask addr data) s (denied 0x03000091)) ∧
    (badAddr p addr = false → ¬ bad → u.coreAbsent c = true → Completes (.coreStart dt p c mask addr data) s (denied 0x02000092)) ∧
    (badAddr p addr = false → ¬ bad → u.coreAbsent c = false → y.state ≠ .loaded → Completes (.coreStart dt p c mask addr data) s (denied 0x02000091)) ∧
    (badAddr p addr = false → ¬ bad → u.coreAbsent c = false → y.state = .loaded → Completes (.coreStart dt p c mask addr data) s fun t =>
      t.Answered p q 0 [] ∧ Agree (u.setCore c { y with state := .running, startedAt := u.elapsed, rr := 7, slot := 0, issue := none }) t ∧
      ((∀ f r, p ≠ .ring f r) → u.Plain → ∀ h, h < 8 → mask.testBit h = true →
        t.thr c h = newThread (ofLe (slice b (16 * h) 8)) (ofLe (slice b (16 * h + 8) 8))))) ∧
  (Issued u p x q 0x0703 1 perm →
    (u.coreAbsent c = true → Completes (.coreStop dt p c) s (denied 0x02000092)) ∧
    (u.coreAbsent c = false → y.state ≠ .running → u.faultStopping c = false → Completes (.coreStop dt p c) s (denied 0x02000093)) ∧
    (u.coreAbsent c = false → y.state ≠ .running → u.faultStopping c = true → Completes (.coreStop dt p c) s fun t =>
      Agree { u with fresh := u.fresh + 1 } t ∧ (t.Answered p q 0 [] ∨ t.Answered p q 0x02000093 [])) ∧
    (u.coreAbsent c = false → y.state = .running → s.cores.chans = [] → s.rm.flows = [] → s.dbg.steps = [] → Completes (.coreStop dt p c) s fun t =>
      t.Answered p q 0 [] ∧ Agree (u.setCore c { (y.stop u.now u.elapsed 0xE 0 0 0) with lost := [] }) t)) ∧
  (∀ clear, Issued u p x q 0x0704 2 perm → clear < 2 →
    let kept := { y with
      cleared := clear == 1, threads := [], urgent := 0, startedAt := 0, stoppedAt := 0, lost := [], counters := bump y.counters 7 }
    (u.coreAbsent c = true → Completes (.coreRestart dt p c clear) s (denied 0x02000092)) ∧
    (u.coreAbsent c = false → y.state ≠ .stopped → Completes (.coreRestart dt p c clear) s (denied 0x02000094)) ∧
    (u.coreAbsent c = false → y.state = .stopped → clear = 0 → Completes (.coreRestart dt p c clear) s fun t => t.Answered p q 0 [] ∧
      Agree (u.setCore c { kept with state := .loaded }) t ∧ ∀ k, (t.thr c k).state = .inactive) ∧
    (u.coreAbsent c = false → y.state = .stopped → clear = 1 → Completes (.coreRestart dt p c clear) s fun t => t.Answered p q 0 [] ∧
      Agree ((u.zero (localAt c 0) (2 ^ 18)).setCore c { kept with state := .empty }) t ∧ ∀ k, (t.thr c k).state = .inactive)) ∧
  (∀ h, Issued u p x q 0x0705 2 perm → h < 8 ∨ h = 0xFF →
    (u.coreAbsent c = true → Completes (.coreUrgent dt p c h) s (denied 0x02000092)) ∧
    (u.coreAbsent c = false → Completes (.coreUrgent dt p c h) s fun t => t.Answered p q 0 [] ∧
      Agree (u.setCore c { y with urgent := if h = 0xFF then 0 else 1 + 2 * h }) t)) ∧
  (Issued u p x q 0x0706 1 perm →
    (u.coreAbsent c = true → Completes (.coreStatus dt p c) s (denied 0x02000092)) ∧
    (u.coreAbsent c = false → Completes (.coreStatus dt p c) s fun t => Agree u t ∧ t.Answered p q 0
      ([u.pmpCoreState c, u.pmpThreads c, y.faultPc, y.faultVal, nsOf y.faultTime] ++ y.counters ++ (if x.dom = 0 then [u.pmpSummary] else [])))))

/-- R237-R245: the channel instructions, every other part of the block as it was. A send slot is taken with its position, or waited for, or not
taken, its thread registered once; words are staged in it; a commit writes the message behind its header and wakes no one that did not ask; an abort gives it back. The
receiver takes messages in order and frees their places. On a broken channel, and on one that has been destroyed, a result is status 4; a thread that is no end of the channel, or that
uses a slot it does not hold or messages it has not taken, stops its core.
R246, R247, R291: a thread subscribes, up to four times and its core sixteen, with a handle or status 1; it ends a subscription, reads the
oldest record it has not read, or learns that there is none, and frees the oldest it has read. Conventions of the model that it rests on:
notes/assumptions/6, 34, 36, 76, 77, 78, 136, 177. -/
def Obligations.ChannelsAndSubscriptions : Prop :=
  (∀ (s : State) (dt c h w : Nat) (x : Thread),
  let u := s.elapse dt
  let o := u.given c h { dev := true }
  let d := wRd w
  let n := x.reg (wRs1 w)
  let does := fun (i : Instr) (y : Thread) => Completes i s fun t => t = o.retired c h y
  let leaves := fun (i : Instr) (z : Channel) (y : Thread) => Completes i s fun t => t = (o.setChan n z).retired c h y
  let v := (o.coreCount1 c 5).setThr c h { x with skip := none }
  let ended := v.setCore c { ((v.core c).stop u.now u.elapsed 5 h x.pc w) with lost := [] }
  let faults := fun (i : Instr) (r : State) => Completes i s fun t => t.Faulted c h 5 x.pc w ∧ Agree r t
  let alone := c < 96 ∧ s.rm.flows = [] ∧ s.cores.chans.all (fun y => y.2.recv.1 != c && y.2.tries.isEmpty) = true ∧
    (u.core c).threads.all (fun y => y.2.slot.isNone) = true
  let one := fun (y : Channel) => c < 96 ∧ s.rm.flows = [] ∧ s.cores.chans = [(n, y)] ∧ y.tries = [] ∧ (u.core c).threads = [(h, x)]
  let found := (u.chan? n).or (tget? s.cores.gone n)
  let sends := fun (y : Channel) => found = some y ∧ y.dom = u.cdom c ∧ y.senders.contains (c, h) = true
  let takes := fun (y : Channel) => found = some y ∧ y.dom = u.cdom c ∧ y.recv = (c, h)
  let free := fun (y : Channel) => y.senders.all (fun e => match (u.thr e.1 e.2).blocked with
    | some (.cbegin _ _) => false
    | _ => true) = true
  let is := fun (f7 : Nat) => wordD w 4 f7 = true
  Fetches u c h w x →
  (∀ y, sends y → y.broken = true →
    (is 0 → x.slot = none → does (.cbegin dt c h w) (x.past.setReg d (2 ^ 63 + 4))) ∧ (is 1 → x.slot = none → does (.cbeginT dt c h w) (x.past.setReg d (2 ^ 63 + 4))) ∧
    (is 2 → does (.cput dt c h w) x.past) ∧ (is 3 → does (.ccommit dt c h w) (x.past.setReg d (2 ^ 63 + 4))) ∧
    (is 4 → x.stores = 0 ∨ x.slot ≠ some n → does (.ccommitR dt c h w) (x.past.setReg d (2 ^ 63 + 4))) ∧ (is 5 → x.slot ≠ some n → does (.cabort dt c h w) x.past)) ∧
  (∀ y, sends y → y.broken = false → x.slot = none → y.holder = none → u.chanUsed n y < y.cap →
    let z := { y with holder := some (c, h), since := u.now, told := false, staged := [] }
    let x1 := { x.past with slot := some n, abandoned := x.abandoned.filter (fun a => a != n) }
    (is 0 → leaves (.cbegin dt c h w) z (x1.setReg d 0)) ∧ (is 1 → leaves (.cbeginT dt c h w) z (x1.setReg d 0))) ∧
  (∀ y, sends y → y.broken = false → x.slot = none → y.holder.isSome = true ∨ y.cap ≤ u.chanUsed n y →
    (is 0 → does (.cbegin dt c h w) { x.past with state := .waiting, blocked := some (.cbegin n d) }) ∧
    (is 1 → y.tries.contains (c, h, true) = false → leaves (.cbeginT dt c h w) { y with tries := y.tries ++ [(c, h, true)] } (x.past.setReg d (2 ^ 63 + 1))) ∧
    (is 1 → y.tries.contains (c, h, true) = true → does (.cbeginT dt c h w) (x.past.setReg d (2 ^ 63 + 1)))) ∧
  (∀ y, sends y → y.broken = false → x.abandoned.contains n = true →
    let x1 := { x.past with abandoned := x.abandoned.filter (fun a => a != n) }.setReg d (2 ^ 63 + 3)
    (is 2 → does (.cput dt c h w) x.past) ∧ (is 3 → does (.ccommit dt c h w) x1) ∧
    (is 4 → x.stores = 0 ∨ x.slot ≠ some n → does (.ccommitR dt c h w) x1) ∧ (is 5 → x.slot ≠ some n → does (.cabort dt c h w) x.past)) ∧
  (∀ y, sends y → y.broken = false → x.abandoned.contains n = false → x.slot = some n → y.holder = some (c, h) →
    (is 2 → y.staged.length < 8 → leaves (.cput dt c h w) { y with staged := y.staged ++ [x.reg (wRs2 w)] } x.past) ∧
    (is 4 → 0 < x.stores → y.staged ≠ [] → does (.ccommitR dt c h w) { x.past with state := .stalled, blocked := some (.commit n d) }) ∧
    (y.tries = [] → free y →
      (is 5 → leaves (.cabort dt c h w) { y with holder := none, staged := [] } { x.past with slot := none }) ∧
      (y.staged ≠ [] → x.item = none → (u.thr y.recv.1 y.recv.2).blocked = none →
        let k := y.next
        let z := { y with holder := none, staged := [], ready := y.ready ++ [k], next := (k + 1) % y.cap, seq := (y.seq + 1) % 2 ^ 32
                          counters := bump y.counters 0 }
        let m := mwrites s.ram (localAt y.recv.1 (y.off + 72 * k))
          (le (y.staged.length + 16 * h + 128 * c + 2 ^ 32 * y.seq) 8 ++ y.staged.flatMap (fun v => le v 8))
        let sent := fun (i : Instr) => Completes i s fun t =>
          t = (({ o with ram := m }).setChan n z).retired c h ({ x.past with slot := none, blocked := none }.setReg d 0)
        (is 3 → sent (.ccommit dt c h w)) ∧ (is 4 → x.stores = 0 → sent (.ccommitR dt c h w)))) ∧
    (∀ c2 h2 d2, is 5 → y.tries = [] → y.senders = [(c, h), (c2, h2)] → c2 ≠ c → (u.thr c2 h2).state = .waiting →
      (u.thr c2 h2).blocked = some (.cbegin n d2) → y.ready.length + y.taken.length + u.chanHeld n < y.cap → Completes (.cabort dt c h w) s fun t =>
        let b := u.thr c2 h2
        let o2 := o.setChan n { y with holder := some (c2, h2), since := u.now, told := false, staged := [] }
        t = (o2.setThr c2 h2 ({ b with slot := some n, abandoned := b.abandoned.filter (fun a => a != n) }.setReg d2 0).resume).retired c h
          { x.past with slot := none }) ∧
    (∀ c2 h2, is 5 → y.tries = [(c2, h2, true)] → free y → c2 ≠ c → (u.core c2).state = .running → (u.thr c2 h2).live = true → (u.thr c2 h2).blocked = none →
      Completes (.cabort dt c h w) s fun t =>
        t = ((o.setChan n { y with holder := none, staged := [], tries := [] }).setThr c2 h2
          { u.thr c2 h2 with pend := setBit (u.thr c2 h2).pend (y.source c2 h2) }).retired c h { x.past with slot := none }) ∧
    (∀ c2 h2 d2, is 3 → y.tries = [] → free y → y.staged ≠ [] → x.item = none → y.recv = (c2, h2) → c2 ≠ c → (u.thr c2 h2).state = .waiting →
      (u.thr c2 h2).blocked = some (.crecv n d2) → y.ready = [] → Completes (.ccommit dt c h w) s fun t =>
        t.chan? n = some { y with holder := none, staged := [], taken := y.taken ++ [y.next], next := (y.next + 1) % y.cap, seq := (y.seq + 1) % 2 ^ 32
                                  counters := bump y.counters 0 } ∧
        t.thr c2 h2 = ((u.thr c2 h2).setReg d2 (y.off + 72 * y.next)).resume ∧ t.rm = u.rm) ∧
    (one y → y.recv.1 ≠ c → (u.thr y.recv.1 y.recv.2).blocked = none → free y →
      let lost := (ended.dropSlot n false)
      (is 0 → faults (.cbegin dt c h w) lost) ∧ (is 1 → faults (.cbeginT dt c h w) lost) ∧ (is 2 → 8 ≤ y.staged.length → faults (.cput dt c h w) lost) ∧
      (y.staged = [] → (is 3 → faults (.ccommit dt c h w) lost) ∧ (is 4 → faults (.ccommitR dt c h w) lost)))) ∧
  (∀ y, sends y → y.broken = false → x.abandoned.contains n = false → x.slot = none → alone →
    (is 2 → faults (.cput dt c h w) ended) ∧ (is 3 → faults (.ccommit dt c h w) ended) ∧ (is 4 → faults (.ccommitR dt c h w) ended)) ∧
  (∀ y, sends y → x.slot ≠ some n → is 5 → does (.cabort dt c h w) x.past) ∧
  (∀ y, takes y → y.broken = true → (is 8 → does (.crecv dt c h w) (x.past.setReg d (2 ^ 63 + 4))) ∧
    (is 9 → does (.crecvT dt c h w) (x.past.setReg d (2 ^ 63 + 4))) ∧ (is 0xA → does (.cfree dt c h w) x.past)) ∧
  (∀ y, takes y → y.broken = false →
    (∀ k more, y.ready = k :: more →
      let z := { y with ready := more, taken := y.taken ++ [k] }
      (is 8 → leaves (.crecv dt c h w) z (x.past.setReg d (y.off + 72 * k))) ∧ (is 9 → leaves (.crecvT dt c h w) z (x.past.setReg d (y.off + 72 * k)))) ∧
    (y.ready = [] →
      (is 8 → does (.crecv dt c h w) { x.past with state := .waiting, blocked := some (.crecv n d) }) ∧
      (is 9 → y.tries.contains (c, h, false) = false → leaves (.crecvT dt c h w) { y with tries := y.tries ++ [(c, h, false)] } (x.past.setReg d (2 ^ 63 + 1))) ∧
      (is 9 → y.tries.contains (c, h, false) = true → does (.crecvT dt c h w) (x.past.setReg d (2 ^ 63 + 1)))) ∧
    (∀ k more, y.taken = k :: more → y.tries = [] → free y → is 0xA →
      leaves (.cfree dt c h w) { y with taken := more } x.past) ∧
    (y.taken = [] → one y → x.slot = none → y.holder = none → is 0xA → faults (.cfree dt c h w) (ended.breakChan n))) ∧
  (alone → (∀ y, found = some y → y.dom = u.cdom c → ¬ y.senders.contains (c, h)) →
    (is 0 → faults (.cbegin dt c h w) ended) ∧ (is 1 → faults (.cbeginT dt c h w) ended) ∧ (is 2 → faults (.cput dt c h w) ended) ∧
    (is 3 → faults (.ccommit dt c h w) ended) ∧ (is 4 → faults (.ccommitR dt c h w) ended) ∧ (is 5 → faults (.cabort dt c h w) ended)) ∧
  (alone → (∀ y, found = some y → y.dom = u.cdom c → y.recv ≠ (c, h)) →
    (is 8 → faults (.crecv dt c h w) ended) ∧ (is 9 → faults (.crecvT dt c h w) ended) ∧ (is 0xA → faults (.cfree dt c h w) ended))) ∧
  (∀ (s : State) (dt c h w : Nat) (x : Thread),
  let u := s.elapse dt
  let o := u.given c h { dev := true }
  let d := wRd w
  let v := x.reg (wRs1 w)
  let a := x.reg (wRs2 w)
  let does := fun (i : Instr) (y : Thread) => Completes i s fun t => t = o.retired c h y
  let faults := fun (i : Instr) => Completes i s fun t =>
    let v := (o.coreCount1 c 5).setThr c h { x with skip := none }
    t.Faulted c h 5 x.pc w ∧ Agree (v.setCore c { ((v.core c).stop u.now u.elapsed 5 h x.pc w) with lost := [] }) t
  let alone := c < 96 ∧ s.rm.flows = [] ∧ s.cores.chans = []
  let is := fun (f7 : Nat) => wordD w 4 f7 = true
  let right := (v % 256 = 2 ∨ (v % 256 = 1 ∧ bits v 15 8 ≠ 0)) ∧ a % 32 = 0 ∧ a + 512 ≤ 2 ^ 18
  let held := ((u.core c).threads.map (fun y => y.2.subs.length)).sum
  Fetches u c h w x →
  (is 0x10 →
    (∀ k, right → x.subs.length < 4 → held < 16 → (tget? x.subs k).isNone = true → k < 4 → (∀ j, j < k → (tget? x.subs j).isSome = true) →
      v % 256 = 2 ∨ s.rm.flows = [] → does (.esub dt c h w) ({ x.past with
        subs := tset x.subs k { kind := v % 256, mask := bits v 15 8, opcode := bits v 31 16, subject := bits v 47 32, region := a } }.setReg d k)) ∧
    (right → 4 ≤ x.subs.length ∨ 16 ≤ held → does (.esub dt c h w) (x.past.setReg d (2 ^ 63 + 1))) ∧
    (¬ right → alone → faults (.esub dt c h w))) ∧
  (∀ y, tget? x.subs v = some y → y.kind = 2 →
    (is 0x11 → does (.eunsub dt c h w) { x.past with subs := tdel x.subs v }) ∧
    (is 0x12 → y.unread = [] → does (.eget dt c h w) (x.past.setReg d (2 ^ 63 + 1))) ∧
    (∀ k more, is 0x12 → y.unread = k :: more → does (.eget dt c h w)
      ({ x.past with subs := tset x.subs v { y with unread := more, read := y.read ++ [k] } }.setReg d (y.region + 32 * k))) ∧
    (is 0x13 → does (.edone dt c h w) { x.past with subs := tset x.subs v { y with read := y.read.drop 1 } })) ∧
  (∀ y, tget? x.subs v = some y → y.kind = 1 →
    (is 0x11 → s.rm.flows = [] → (∀ p, p ∈ u.threads → (u.thr p.1 p.2).state ≠ .stalled) → does (.eunsub dt c h w) { x.past with subs := tdel x.subs v }) ∧
    (alone → (is 0x12 → faults (.eget dt c h w)) ∧ (is 0x13 → faults (.edone dt c h w)))) ∧
  (tget? x.subs v = none → alone → (is 0x11 → faults (.eunsub dt c h w)) ∧ (is 0x12 → faults (.eget dt c h w)) ∧ (is 0x13 → faults (.edone dt c h w))))

/-- R237, R242-R245, R248, R250: channels are made within their domain's range and on its own cores, each store apart; destroyed, freed of a holder, read
and divided by command, each refusal with its code. A channel that breaks gives every thread blocked on it status 4 and counts what was not taken; an abandon leaves the holder to learn of it.
A hold or a hand-over that lasts too long is reported once, and nothing before. Conventions of the model that it rests on: notes/assumptions/76. -/
def Obligations.ChannelCommands : Prop := ∀ (s : State) (dt : Nat) (p : Path) (x : Session) (q : TReq) (n : Nat),
  let u := s.elapse dt
  let denied := fun (code : Nat) (t : State) => Agree u t ∧ t.Answered p q code []
  let still := fun (y : Channel) => u.Plain ∧ y.tries = [] ∧ y.senders.all (fun e => match (u.thr e.1 e.2).blocked with
    | some (.cbegin _ _) => false
    | _ => true) = true
  (∀ core thr off cap es, Issued u p x q 0x0740 (6 + 2 * es.length) (u.chanPerm n) →
    let row := Instr.chanCreate dt p n core thr off cap es
    let all := (core, thr) :: es
    let bad := cap = 0 ∨ 64 < cap ∨ es = [] ∨ 8 < es.length ∨ off % 8 ≠ 0 ∨ 2 ^ 18 < off + 72 * cap ∨ (∃ e ∈ all, 100 ≤ e.1 ∨ 8 ≤ e.2)
    let own := fun (d : Nat) => ∀ e ∈ all, e.1 < 96 ∧ u.coreAbsent e.1 = false ∧ u.coreDom e.1 = some d
    let apart := ∀ y ∈ s.cores.chans, y.2.recv.1 ≠ core ∨ off + 72 * cap ≤ y.2.off ∨ y.2.off + 72 * y.2.cap ≤ off
    (bad → Completes row s (denied 0x030000A0)) ∧
    (¬ bad → u.chanOwner n = none ∨ (u.chan? n).isSome = true → Completes row s (denied 0x020000A0)) ∧
    (∀ d, ¬ bad → u.chanOwner n = some d → u.chan? n = none →
      (¬ own d → Completes row s (denied 0x020000A1)) ∧
      (own d → ¬ apart → Completes row s (denied 0x020000A4)) ∧
      (own d → apart → Completes row s fun t => t.Answered p q 0 [] ∧
        Agree { u.setChan n { dom := d, recv := (core, thr), senders := es, cap := cap, off := off } with cores.gone := tdel s.cores.gone n } t))) ∧
  (Issued u p x q 0x0741 1 (u.chanPerm n) →
    (u.chan? n = none → Completes (.chanDestroy dt p n) s fun t => Agree u t ∧ t.Answered p q 0 []) ∧
    (∀ y, u.chan? n = some y → y.broken = true → Completes (.chanDestroy dt p n) s fun t =>
      t.Answered p q 0 [] ∧ Agree { u with cores.chans := tdel s.cores.chans n, cores.gone := tset s.cores.gone n y } t) ∧
    (∀ y, u.chan? n = some y → y.broken = false → y.holder = none → y.tries = [] → u.Plain →
      let z := { y with ready := [], broken := true, counters := bumpBy y.counters 2 y.ready.length }
      let v := { u with cores.chans := tdel s.cores.chans n, cores.gone := tset s.cores.gone n z }
      ((y.recv :: y.senders).all (fun e => (u.thr e.1 e.2).blocked.isNone) = true → Completes (.chanDestroy dt p n) s fun t => t.Answered p q 0 [] ∧ Agree v t) ∧
      (∀ c h d, y.recv = (c, h) → (u.thr c h).state = .waiting → (u.thr c h).blocked = some (.crecv n d) →
        y.senders.all (fun e => (u.thr e.1 e.2).blocked.isNone) = true → Completes (.chanDestroy dt p n) s fun t =>
          t.Answered p q 0 [] ∧ Agree (v.setThr c h ((u.thr c h).setReg d (2 ^ 63 + 4)).resume) t) ∧
      (∀ c h d, y.senders = [(c, h)] → (u.thr c h).state = .waiting → (u.thr c h).blocked = some (.cbegin n d) →
        (u.thr y.recv.1 y.recv.2).blocked = none → y.ready = [] → Completes (.chanDestroy dt p n) s fun t =>
          t.Answered p q 0 [] ∧ Agree (v.setThr c h ((u.thr c h).setReg d (2 ^ 63 + 4)).resume) t))) ∧
  (Issued u p x q 0x0742 1 (u.chanPerm n) →
    (u.chan? n = none → Completes (.chanAbandon dt p n) s (denied 0x020000A2)) ∧
    (∀ y, u.chan? n = some y → y.holder = none → Completes (.chanAbandon dt p n) s (denied 0x020000A2)) ∧
    (∀ y c h, u.chan? n = some y → y.holder = some (c, h) → still y →
      let z := { y with holder := none, staged := [], counters := bump y.counters 1 }
      let a := u.thr c h
      let learns := { a with slot := none, abandoned := a.abandoned ++ [n] }
      Completes (.chanAbandon dt p n) s fun t => t.Answered p q 0 [] ∧ Agree ((u.setChan n z).setThr c h (match a.blocked with
        | some (.result m d) => if m = n then ({ a with slot := none }.setReg d (2 ^ 63 + 3)).resume else learns
        | _ => learns)) t)) ∧
  (Issued u p x q 0x0743 1 (u.chanPerm n) →
    (∀ y, u.chan? n = some y → y.holder = none → Completes (.chanStatus dt p n) s fun t => Agree u t ∧
      t.Answered p q 0 ([y.recv.1, y.recv.2, y.senders.length] ++ y.senders.flatMap (fun e => [e.1, e.2]) ++
        [y.ready.length, y.taken.length, u.chanHeld n, 0xFF, 0, 0, b2n y.broken] ++ y.counters)) ∧
    (∀ y c h, u.chan? n = some y → y.holder = some (c, h) → Completes (.chanStatus dt p n) s fun t => Agree u t ∧
      t.Answered p q 0 ([y.recv.1, y.recv.2, y.senders.length] ++ y.senders.flatMap (fun e => [e.1, e.2]) ++
        [y.ready.length, y.taken.length, 1 + u.chanHeld n, c, h, nsOf (u.now - y.since), b2n y.broken] ++ y.counters))) ∧
  (∀ ls, Issued u p x q 0x0744 32 .any →
    let keeps := ∀ y ∈ s.cores.chans, inRange (ls.getD y.2.dom (0, 0)) y.1 = true
    (rangesOk 4096 ls = false ∨ ¬ keeps → Completes (.chanQuota dt p ls) s (denied 0x020000A3)) ∧
    (rangesOk 4096 ls = true → keeps → Completes (.chanQuota dt p ls) s fun t => t.Answered p q 0 [] ∧
      Agree { u with cores.ranges := ls.zipIdx.map (fun r => (r.2, r.1))
                     cores.gone := s.cores.gone.filter (fun y => inRange (ls.getD y.2.dom (0, 0)) y.1) } t)) ∧
  (u.Settled →
    let late := fun (y : Channel) => y.holder.isSome = true ∧ y.told = false ∧ y.since + ns 1000000 ≤ u.now
    ((∀ y ∈ s.cores.chans, ¬ late y.2) → Completes (.chanSlotHoldTimeout dt) s fun t => Agree u t) ∧
    (∀ y, u.chan? n = some y → late y → (∀ z ∈ s.cores.chans, z.1 = n ∨ ¬ late z.2) → (s.cores.chans.map (fun z => z.1)).Nodup →
      Completes (.chanSlotHoldTimeout dt) s fun t => Agree (u.setChan n { y with told := true }) t)) ∧
  (u.Settled →
    let late := fun (f : Flow) => f.hand.isSome = true ∧ f.told = false ∧ f.markedAt + grid 20 ≤ u.now
    ((∀ f ∈ s.rm.flows, ¬ late f.2) → Completes (.handoverHeldTimeout dt) s fun t => Agree u t) ∧
    (∀ f, tget? s.rm.flows n = some f → late f → (∀ z ∈ s.rm.flows, z.1 = n ∨ ¬ late z.2) → (s.rm.flows.map (fun z => z.1)).Nodup →
      Completes (.handoverHeldTimeout dt) s fun t => Agree (u.setFlow n { f with told := true }) t))

/-- R256, R270, R271: a doorbell of another value, or of a ring that is not enabled or of a halted function, is counted in `DB_BAD`, one that Drain stops in
`DB_IGNORED`; any other has the ring's index read, or once more after a read that is out. An offer agrees the highest common minor. A write of `ENABLE` 1 with no version agreed,
a size out of range, a quota reached, or a completion ring that is none of the function's is refused; one whose configuration is valid enables the ring, empty; an enabled ring stays as it is.
R253, R256, R260, R261, R266-R268: an index that comes back is the ring's, or, where it lies more than the ring's size ahead, halts the function with
reason 8 - or, of TD0, leads to Lockdown. One of a completion ring has the sump written, its entries first. A receive buffer that passes its checks joins the fetched ones; the first check that
fails gives the reason, and halts the function. A frame of which slots are missing waits. Conventions of the model that it rests on:
notes/assumptions/80, 83, 84, 87, 90, 99, 105, 106, 111, 136, 165. -/
def Obligations.RingsAndDoorbells : Prop :=
  (∀ (s : State) (dt fn n : Nat),
  let u := s.elapse dt
  let k := rkey fn n
  let r := u.ring k
  u.Plain →
  (∀ w v, u.barOpen fn = false ∨ (w ≠ 4 ∧ w ≠ 8) → Completes (.doorbellWrite dt fn n w v) s fun t => t = u) ∧
  (∀ w v, u.barOpen fn = true → w = 4 ∨ w = 8 →
    let bad := v ≠ n ∨ r.enable = false ∨ ((s.fn fn).halted = true ∧ (r.kind < 2 ∨ r.sump = [])) ∨ (s.pfn fn).frozen = true
    let stopped := s.glb.mode = .drain ∧ r.kind < 2 ∧ (r.engine ∈ [0, 2, 4] ∨ (r.engine = 3 ∧ u.isSend k = true))
    let read : HRead := { tag := u.freeTag, fn := fn, what := 0, ring := k, addr := (if 2 ≤ r.kind then r.idxAddr + 4 else r.idxAddr), len := 4 }
    let o := u.setRing k { r with reading := true }
    (bad → Completes (.doorbellWrite dt fn n w v) s fun t => t = u.ringCount fn 0) ∧
    (¬ bad → stopped → Completes (.doorbellWrite dt fn n w v) s fun t => t = u.ringCount fn 1) ∧
    (¬ bad → ¬ stopped → r.reading = true → Completes (.doorbellWrite dt fn n w v) s fun t => t = u.setRing k { r with again := true }) ∧
    (¬ bad → ¬ stopped → r.reading = false → u.mute fn = false → fnOfKey k = fn →
      (u.waits fn = false → u.tagFree fn = true → Completes (.doorbellWrite dt fn n w v) s fun t =>
        t = ({ o with pcie.reads := u.pcie.reads ++ [{ read with at_ := u.elapsed, cto := (u.pfn fn).timeout }] }.linkBusy fn).emit
          (.hostRead fn read.addr 4 0)) ∧
      (u.waits fn = true ∨ u.tagFree fn = false → Completes (.doorbellWrite dt fn n w v) s fun t =>
        t = { o with pcie.held := u.pcie.held ++ [{ read with tag := 0 }] }))) ∧
  (∀ v, u.barOpen fn = false ∨ 0 < u.ringsOn (fun m _ => fnOfKey m == fn) → Completes (.ringVerOfferWrite dt fn v) s fun t => t = u) ∧
  (∀ v, u.barOpen fn = true → u.ringsOn (fun m _ => fnOfKey m == fn) = 0 → Completes (.ringVerOfferWrite dt fn v) s fun t =>
    let good := bits v 3 0 = 1 ∧ bits v 7 4 ≤ bits v 11 8 ∧ bits v 7 4 ≤ 4
    (good → t = u.setRingFn fn { u.ringFn fn with offer := v % 4096, agreed := 16 + min (bits v 11 8) 4, noCommon := false }) ∧
    (¬ good → t = u.setRingFn fn { u.ringFn fn with offer := v % 4096, agreed := 0, noCommon := true })) ∧
  (∀ v, u.barOpen fn = false ∨ r.enable = true → Completes (.ringEnableWrite dt fn n v) s fun t => t = u) ∧
  (∀ v, u.barOpen fn = true → r.enable = false →
    let z := { r with kind := bits v 2 1, rcEvery := v.testBit 12, cq := bits v 25 16
                      log2 := if 4 ≤ bits v 7 3 ∧ bits v 7 3 ≤ 16 then bits v 7 3 else r.log2, engine := if bits v 11 8 ≤ 7 then bits v 11 8 else r.engine }
    let d := u.fnDom (fnOfKey k)
    let on := fun (p : Nat → Ring → Bool) => u.ringsOn (fun m x => u.fnDom (fnOfKey m) == d && p m x)
    let q := u.ring (rkey (fnOfKey k) z.cq)
    let none_ := (u.ringFn (fnOfKey k)).agreed = 0 ∨ z.log2 < 4 ∨ 16 < z.log2 ∨ (u.ringQuota d).1 ≤ on (fun _ _ => true) ∨
      1024 ≤ u.ringsOn (fun m _ => fnOfKey m == fnOfKey k) ∨
      (2 ≤ z.kind ∧ ((if isVf (fnOfKey k) = true then 64 else 2048) ≤ z.vector ∨ (u.ringQuota d).2 ≤ on (fun _ x => decide (2 ≤ x.kind)))) ∨
      (z.kind < 2 ∧ (q.enable = false ∨ q.kind ≠ (if z.engine = 5 ∨ z.engine = 6 then 3 else 2) ∨ ((engineRole z.engine).any (fun o => (u.attach d o).isNone)) = true ∨
        (z.engine ∈ [6, 7] ∧ fnOfKey k ≠ u.firstPf d)))
    (v.testBit 0 = false → Completes (.ringEnableWrite dt fn n v) s fun t => t = u.setRing k z) ∧
    (v.testBit 0 = true → none_ → Completes (.ringEnableWrite dt fn n v) s fun t => t = u.setRing k { z with cfgRefused := true }) ∧
    (v.testBit 0 = true → ¬ none_ → z.engine ≠ 4 ∨ 2 ≤ z.kind → Completes (.ringEnableWrite dt fn n v) s fun t => t = u.setRing k
      { base := r.base, idxAddr := r.idxAddr, enable := true, kind := z.kind, log2 := z.log2, engine := z.engine, rcEvery := z.rcEvery, cq := z.cq
        vector := r.vector, mod := r.mod, chan := if 2 ≤ z.kind ∨ z.engine = 1 then none else (engineRole z.engine).bind (fun o => u.attach d o) }) ∧
    (v.testBit 0 = true → z.engine = 4 → z.kind < 2 →
      (u.ringValid k z = false → Completes (.ringEnableWrite dt fn n v) s fun t => t = u.setRing k { z with cfgRefused := true }) ∧
      (u.ringValid k z = true → Completes (.ringEnableWrite dt fn n v) s fun t => t = (u.setRing k
        { base := r.base, idxAddr := r.idxAddr, enable := true, kind := z.kind, log2 := z.log2, engine := 4, rcEvery := z.rcEvery, cq := z.cq
          vector := r.vector, mod := r.mod }).ctxNew (ctxKey 3 d k))))) ∧
  (∀ (s : State) (dt fn n : Nat),
  let u := s.elapse dt
  let k := rkey fn n
  let r := u.ring k
  u.Plain →
  (∀ v, u.pcie.reads.find? (fun x => x.what == 0 && x.ring == k && !x.dead) = none → Completes (.indexReadReturn dt fn n v) s fun t => t = u) ∧
  (∀ b, u.pcie.reads.find? (fun x => x.what == 1 && x.ring == k && !x.dead) = none → Completes (.descriptorFetch dt fn n b) s fun t => t = u) ∧
  (∀ v h, v < 2 ^ 32 → u.pcie.reads = [h] → h.what = 0 → h.ring = k → h.dead = false → h.len = 4 → h.got = [] → u.pcie.held = [] → fnOfKey k = fn →
    let o := { u with pcie.reads := [] }
    (r.kind < 2 → (v + 2 ^ 32 - r.done) % 2 ^ 32 ≤ r.entries → r.again = false → Completes (.indexReadReturn dt fn n v) s fun t =>
      t = (o.setRing k { r with reading := false, host := v }).fetch k) ∧
    (r.kind < 2 → (v + 2 ^ 32 - r.done) % 2 ^ 32 ≤ r.entries → r.again = true → r.enable = true → u.mute fn = false → Completes (.indexReadReturn dt fn n v) s fun t =>
      t = ((o.setRing k { r with reading := false, again := false, host := v }).fetch k).readIndex k) ∧
    (r.kind < 2 → r.again = false → r.entries < (v + 2 ^ 32 - r.done) % 2 ^ 32 → u.fnDom fn ≠ 0 → (s.fn fn).halted = false →
      Completes (.indexReadReturn dt fn n v) s fun t =>
        let m := (o.setRing k { r with reading := false }).ringCount fn 4
        Agree ((m.setRingFn fn { m.ringFn fn with haltEntry := v, haltRing := k % 1024, haltReason := 8, haltSub := 0 }).setFn fn { s.fn fn with halted := true }) t) ∧
    (r.kind < 2 → r.again = false → r.entries < (v + 2 ^ 32 - r.done) % 2 ^ 32 → u.fnDom fn = 0 → s.glb.mode ≠ .lockdown →
      Completes (.indexReadReturn dt fn n v) s fun t => t.glb.mode = .lockdown ∧ t.glb.entryCause = 0x10) ∧
    (r.kind ≥ 2 → r.again = false → u.feeders k = [] → s.tosen.sessions = [] →
      let y := { r with reading := false, host := v }
      (r.sump = [] → Completes (.indexReadReturn dt fn n v) s fun t =>
        t = o.setRing k { y with fullStop := false, sumpFull := false, sumpTold := false }) ∧
      (∀ e more, r.sump = e :: more → r.entries ≤ (r.dev + 2 ^ 32 - v) % 2 ^ 32 → Completes (.indexReadReturn dt fn n v) s fun t => t = o.setRing k y) ∧
      (∀ e, r.sump = [e] → r.late = [] → (r.dev + 2 ^ 32 - v) % 2 ^ 32 < r.entries → e.src = none → r.mod = 0 → Completes (.indexReadReturn dt fn n v) s fun t =>
        t = (o.setRing k { y with sump := [], sumpFull := false, fullStop := false, sumpTold := false }).writeComp k e))) ∧
  (∀ b h, b.length = 32 → u.pcie.reads = [h] → h.what = 1 → h.ring = k → h.dead = false → h.len = 32 → h.got = [] → u.pcie.held = [] →
    r.kind < 2 → r.peek = [] → r.host = (r.dev + 1) % 2 ^ 32 → fnOfKey k = fn → u.mute fn = false → (s.fn fn).halted = false → s.glb.mode ≠ .lockdown →
    let o := { u with pcie.reads := [] }
    let y := { r with fetching := false }
    let halts := fun (reason : Nat) => Completes (.descriptorFetch dt fn n b) s fun t =>
      let m := (o.setRing k y).ringCount fn 4
      Agree ((m.setRingFn fn { m.ringFn fn with haltEntry := r.dev % 2 ^ 32, haltRing := k % 1024, haltReason := reason, haltSub := 0 }).setFn fn
        { s.fn fn with halted := true }) t
    let d := fun (i l : Nat) => ofLe (slice b i l)
    let full := (u.ring (rkey fn r.cq)).sumpFull
    (full = true → Completes (.descriptorFetch dt fn n b) s fun t => t = o.setRing k { y with peek := [b] }) ∧
    (full = false → r.engine = 0 → d 24 1 = 1 → (d 25 1).testBit 5 = true → Completes (.descriptorFetch dt fn n b) s fun t => t = o.setRing k { y with peek := [b] }) ∧
    (full = false → r.engine = 1 →
      let c1 := d 24 1 ≠ 2
      let c2 := 1 < d 25 1 ∨ d 8 8 ≠ 0 ∨ d 26 2 ≠ 0 ∨ d 30 1 ≠ 0
      let c3 := d 20 4 < 256 ∨ 65536 < d 20 4 ∨ d 20 4 % 64 ≠ 0
      let c4 := d 0 8 = 0 ∨ d 0 8 % 64 ≠ 0
      (u.fnDom fn ≠ 0 → (c1 → halts 1) ∧ (¬ c1 → c2 → halts 2) ∧ (¬ c1 → ¬ c2 → c3 → halts 3) ∧ (¬ c1 → ¬ c2 → ¬ c3 → c4 → halts 4)) ∧
      (u.fnDom fn = 0 → c1 ∨ c2 ∨ c3 ∨ c4 → Completes (.descriptorFetch dt fn n b) s fun t => t.glb.mode = .lockdown ∧ t.glb.entryCause = 0x10) ∧
      (¬ c1 → ¬ c2 → ¬ c3 → ¬ c4 → s.tm.queues = [] → s.tm.scheds = [] → Completes (.descriptorFetch dt fn n b) s fun t =>
        t = o.setRing k { y with fetched := r.fetched ++ [descOf (r.dev % 2 ^ 32) b], dev := (r.dev + 1) % 2 ^ 32 }))))

/-- R252, R265, R269, R272: quotas within the device's counts, and no less than what is enabled, are taken, others refused; a moderated vector held past its
period is signalled, and none before; a function reset begins by command or by FLR, with `IN_RESET` 1, the function's rings gone and its counters kept, and ends with `IN_RESET` 0 and its commands
answered. Conventions of the model that it rests on: notes/assumptions/80, 100, 106, 165, 181. -/
def Obligations.QuotasModerationAndReset : Prop := ∀ (s : State) (dt : Nat) (p : Path) (x : Session) (q : TReq),
  let u := s.elapse dt
  let denied := fun (code : Nat) (t : State) => Agree u t ∧ t.Answered p q code []
  let bare := fun (f : Nat) => u.vfsOf f = [] ∧ (u.pfn f).wins = [] ∧ s.tm.queues = [] ∧ s.tm.scheds = [] ∧ s.rdma.qps = [] ∧ s.rdma.mrs = [] ∧ s.rdma.intake = [] ∧
    s.rdma.eventRings = [] ∧ s.stor.nss = [] ∧ s.stor.cmds = [] ∧ s.dma.waits = [] ∧ s.slu.store = [] ∧ s.pcie.reads = [] ∧ s.pcie.held = [] ∧ s.tb.latch = [] ∧
    s.led.chains = [] ∧ s.ports.ports = [] ∧ s.rings.rings.all (fun y => fnOfKey y.1 != f || (y.2.posters.isEmpty && y.2.engine != 4)) = true
  let reset := fun (v : State) (f : Nat) => ({ v.setFn f { inReset := true } with
    rings.rings := s.rings.rings.filter (fun y => fnOfKey y.1 != f), rings.fns := tset s.rings.fns f { counters := (u.ringFn f).counters } }).setPfn f
    { u.pfn f with frozen := false, cause := 0, what := 0, ring := 0, wins := [], winMax := (u.pfn f).winMaxNext, resetAt := u.elapsed, outbox := [], msix := [], pba := [] }
  (∀ rs cs, Issued u p x q 0x0940 32 .any →
    let bad := 65536 < rs.sum ∨ 2048 < cs.sum ∨ (∃ d ∈ List.range 16, nth rs d < u.ringsOn (fun m _ => u.fnDom (fnOfKey m) == d) ∨
      nth cs d < u.ringsOn (fun m r => u.fnDom (fnOfKey m) == d && decide (r.kind ≥ 2)))
    (bad → Completes (.ringQuota dt p rs cs) s (denied 0x020000B0)) ∧
    (¬ bad → Completes (.ringQuota dt p rs cs) s fun t => t.Answered p q 0 [] ∧
      Agree { u with rings.quota := (List.range 16).map (fun d => (d, (nth rs d, nth cs d))) } t)) ∧
  (∀ v, Issued u p x q 0x0941 1 (if v.testBit 24 then .owner (u.fnDom (v % 256 * 4096)) else .owner 0) → v < 2 ^ 25 →
    let f := fnOf v
    (u.fnExists f = false → Completes (.fnReset dt p v) s (denied 0x02000004)) ∧
    (u.fnExists f = true → (s.fn f).inReset = true → u.vfsOf f = [] → Completes (.fnReset dt p v) s fun t => t.Executing p q ∧
      Agree (u.setPfn f { u.pfn f with resetPaths := (u.pfn f).resetPaths ++ [p] }) t) ∧
    (u.fnExists f = true → (s.fn f).inReset = false → bare f → s.tosen.opens = [] → (∀ r, p ≠ .ring f r) → s.tosen.sessions = [x] → x.path = p → u.Plain →
      Completes (.fnReset dt p v) s fun t => t.Executing p q ∧
        Agree ((reset u f).setPfn f { (reset u f).pfn f with resetPaths := (u.pfn f).resetPaths ++ [p] }) t)) ∧
  (∀ f, u.Plain → s.firmware = false ∨ u.cfgOpen f = false → s.glb.mode ≠ .recovery → Completes (.flr dt f) s fun t => t = u) ∧
  (∀ f, u.Plain → s.firmware = true → s.glb.mode ≠ .recovery → u.cfgOpen f = true → bare f → (s.fn f).inReset = false → s.tosen.sessions = [] → s.tosen.opens = [] →
    Completes (.flr dt f) s fun t => Agree ((reset u f).setPfn f { (reset u f).pfn f with
      bme := false, mse := false, d3 := false, ctoVal := 0, romEn := false, msixOn := false, msixMask := false, tag10 := false }) t) ∧
  (u.Plain → s.glb.mode = .recovery → u.cfgOpen 0 = true → Completes (.flr dt 0) s fun t =>
    t = (u.recReset.setPfn 0 { u.pfn 0 with
      bme := false, mse := false, d3 := false, ctoVal := 0, romEn := false, msixOn := false, msixMask := false, tag10 := false })) ∧
  (∀ f, u.Plain → (s.fn f).inReset = false → Completes (.fnResetComplete dt f) s fun t => t = u) ∧
  (∀ f, u.Plain → (s.fn f).inReset = true → (f = 0 → s.boot.trial = false) → (u.pfn f).resetPaths = [] → Completes (.fnResetComplete dt f) s fun t =>
    Agree ((u.setFn f { ready := f == 0 && s.firmware }).setPfn f { u.pfn f with resetPaths := [] }) t) ∧
  (∀ f, u.Settled → (s.fn f).inReset = true → (f = 0 → s.boot.trial = false) → (u.pfn f).resetPaths = [p] → Awaits u p x q 0x0941 → Completes (.fnResetComplete dt f) s fun t =>
    t.Answered p q 0 [] ∧ Agree ((u.setFn f { ready := f == 0 && s.firmware }).setPfn f { u.pfn f with resetPaths := [] }) t) ∧
  (u.Plain → s.rings.rings.all (fun y => !y.2.modHeld || u.now < y.2.modEnd) = true → Completes (.interruptModerationEnd dt) s fun t => t = u) ∧
  (∀ k r, u.Plain → s.rings.rings = [(k, r)] → r.modHeld = true → r.modEnd ≤ u.now → r.mod ≠ 0 → u.mute (fnOfKey k) = false →
    let o := u.setRing k { r with modHeld := false, modEnd := nextMult u.now (r.mod * grid 10) }
    let f := u.pfn (fnOfKey k)
    (f.masked r.vector = true → Completes (.interruptModerationEnd dt) s fun t =>
      t = o.setPfn (fnOfKey k) { f with pba := r.vector :: f.pba.filter (fun y => y != r.vector) }) ∧
    (f.masked r.vector = false → u.waits (fnOfKey k) = false → Completes (.interruptModerationEnd dt) s fun t =>
      t = ((o.linkBusy (fnOfKey k)).linkFull (fnOfKey k) 0).emit (.irq (fnOfKey k) r.vector)))

/-- R266, R274, R277, R279-R281, R283, R285, R286: a local-to-local descriptor copies its bytes and nothing else, where it overlaps itself into unspecified ones, and its completion waits for the
acknowledgement; a host source is read; an access to an unmapped page, to a core that is not there, or of poisoned data ends the descriptor with its status and count, and the rest of its run with 0x13.
A list at no address halts its function with reason 9 and sub-code 1; flush reads and stored writes count down what a run
waits for, and the last lets it complete; a channel is set while nothing is attached to it, and read. Conventions of the model that it rests on:
notes/assumptions/6, 88, 89, 155. -/
def Obligations.DmaChannels : Prop := ∀ (s : State) (dt : Nat),
  let u := s.elapse dt
  (∀ fn n, u.Plain →
    let k := rkey fn n
    let r := u.ring k
    let row := Instr.dmaDescriptorStart dt fn n
    ((u.ring (rkey fn r.cq)).sumpFull = true ∨ s.glb.mode = .lockdown ∨ s.firmware = false ∨ u.dmaOn k = false ∨
      r.fetched.all (fun d => d.started || d.ended) = true ∨ r.engine ≠ 2 ∨ r.dma.isSome = true → Completes row s fun t => t = u) ∧
    (∀ d, s.firmware = true → s.glb.mode ≠ .lockdown → (u.ring (rkey fn r.cq)).sumpFull = false → r.dma = none → r.engine = 2 → u.dmaOn k = true → fnOfKey k = fn →
      r.fetched = [d] → d.started = false → d.ended = false → d.isEntry = false → d.rcSet = true →
      let sound := s.mem.poison = [] ∧ s.mem.bad = []
      let src := localAt (localCore d.addr) (localOff d.addr)
      let dst := localAt (localCore d.aux) (localOff d.aux)
      let there := u.localBad d.addr = false ∧ u.localBad d.aux = false
      let apart := d.addr + d.len ≤ d.aux ∨ d.aux + d.len ≤ d.addr
      let moved := { r with fetched := [{ d with started := true, ended := true, acks := d.acks + 1, dstatus := 0 }] }
      let o := u.setRing k { r with fetched := [{ d with started := true }], runFailed := false }
      let failsFrom := fun (o : State) (st : Nat) => Completes row s fun t =>
        t = ((o.hostWr fn (.hostWrite fn (r.slotAddr d.idx + 20) (le 0 4))).descEnd k d.idx st).runs k
      let fails := failsFrom o
      (d.type = 0x1A → 0 < d.len → sound → there → apart →
        (r.chan = none → Completes row s fun t => t = ({ u with ram := mwrites s.ram dst (mreads s.ram src d.len) }).setRing k moved) ∧
        (∀ c, r.chan = some c → Completes row s fun t =>
          t = (((({ u with ram := mwrites s.ram dst (mreads s.ram src d.len) }).setRing k moved).chanCount c 0 d.len).chanCount c 1 d.len).chanCount c 2 1)) ∧
      (d.type = 0x1A → 0 < d.len → sound → there → ¬ apart → r.chan = none → Completes row s fun t =>
        t = ({ u with ram := t.ram, fresh := u.fresh + d.len }).setRing k moved ∧ (∀ a, a < dst ∨ dst + d.len ≤ a → mread t.ram a = mread s.ram a) ∧
        ∀ i, i < d.len → d.aux + i < d.addr ∨ d.addr + d.len ≤ d.aux + i → mread t.ram (dst + i) = mread s.ram (src + i)) ∧
      (d.type % 4 = 0 → d.type / 4 % 4 < 3 → d.type / 16 = 1 → Completes row s fun t =>
        let piece := fun (space a : Nat) => ({ space := space, addr := a, len := d.len } : Piece)
        t = (u.setRing k { r with fetched := [{ d with started := true }], dma := some { idx := d.idx, phase := 2, src := [piece 0 d.addr], dst := [piece (d.type / 4 % 4) d.aux], todo := [], len := d.len } }).hread fn 3 k d.addr d.len d.idx) ∧
      (r.chan = none → u.mute fn = false →
        (d.type ∈ [0x11, 0x15, 0x19] → u.cisternOk (u.fnDom fn) d.addr (min d.len (pageSize - d.addr % pageSize)) = false → fails 0x11) ∧
        (d.type ∈ [0x12, 0x16, 0x1A] → u.localBad d.addr = true → fails 0x12) ∧
        (d.type = 0x1A → 0 < d.len → u.localBad d.addr = false → s.mem.bad = [] → s.mem.poison.any (fun w => src < 32 * w + 32 && 32 * w < src + d.len) = true → failsFrom (o.memDom (u.fnDom fn) 1) 0x04) ∧
        (d.type = 0x1A → 0 < d.len → sound → apart → u.localBad d.addr = false → u.localBad d.aux = true → fails 0x12)) ∧
      (d.type = 0x1F → d.addr = 0 ∨ d.addr % 16 ≠ 0 ∨ d.aux = 0 ∨ d.aux % 16 ≠ 0 →
        (u.fnDom fn ≠ 0 → (s.fn fn).halted = false → Completes row s fun t =>
          let m := (u.setRing k { r with fetched := [], peek := [] }).ringCount fn 4
          Agree ((m.setRingFn fn { m.ringFn fn with haltEntry := d.idx, haltRing := k % 1024, haltReason := 9, haltSub := 1 }).setFn fn { s.fn fn with halted := true }) t) ∧
        (u.fnDom fn = 0 → Completes row s fun t => t.glb.mode = .lockdown ∧ t.glb.entryCause = 0x10)) ∧
      (d.type = 0x1F → d.addr ≠ 0 → d.addr % 16 = 0 → d.aux ≠ 0 → d.aux % 16 = 0 → Completes row s fun t =>
        t = (u.setRing k { r with fetched := [{ d with started := true }], dma := some { idx := d.idx, phase := 0, len := d.len } }).hread fn 4 k d.addr 16 d.idx)) ∧
    (∀ d e, s.firmware = true → s.glb.mode ≠ .lockdown → (u.ring (rkey fn r.cq)).sumpFull = false → r.dma = none → r.engine = 2 → u.dmaOn k = true → fnOfKey k = fn →
      r.fetched = [d, e] → d.started = false → d.ended = false → d.isEntry = false → d.rcSet = false → e.rcSet = true → e.isEntry = false → d.idx ≠ e.idx → r.chan = none →
      u.mute fn = false → d.type = 0x1A → u.localBad d.addr = true → Completes row s fun t =>
        let o := u.setRing k { r with fetched := [{ d with started := true }, e], runFailed := false }
        t = (((o.hostWr fn (.hostWrite fn (r.slotAddr d.idx + 20) (le 0 4))).descEnd k d.idx 0x12).descEnd k e.idx 0x13).runs k) ∧
    (u.pcie.reads.find? (fun x => x.what == 5 && x.ring == k && !x.dead) = none → Completes (.flushReadComplete dt fn n) s fun t => t = u) ∧
    (∀ h m, u.pcie.reads = [h] → h.what = 5 → h.ring = k → h.dead = false → h.len = 0 → u.pcie.held = [] →
      (r.flushing = m + 2 → Completes (.flushReadComplete dt fn n) s fun t =>
        t = ({ u with pcie.reads := [] }).setRing k { r with flushing := m + 1, flushed := false }) ∧
      (∀ d, r.flushing = 1 → r.fetched = [d] → d.rcSet = true → d.ended = true → d.acks = 0 → r.host = r.dev → r.peek = [] → Completes (.flushReadComplete dt fn n) s fun t =>
        t = (({ u with pcie.reads := [] }).setRing k { r with flushing := 0, flushed := false, fetched := [] }).post (rkey (fnOfKey k) r.cq) (runComp k [d]))) ∧
    (∀ i, firstRun r.fetched = none → Completes (.cisternWriteStored dt false fn n i) s fun t =>
      t = u.setRing k (r.onDesc i (fun d => { d with acks := d.acks - 1 }))) ∧
    (∀ d, r.fetched = [d] → d.rcSet = true → d.isEntry = false → d.ended = true → r.flushing = 0 → r.host = r.dev → r.peek = [] → d.wrote = none → d.here = [] →
      (1 < d.acks → Completes (.cisternWriteStored dt false fn n d.idx) s fun t => t = u.setRing k { r with fetched := [{ d with acks := d.acks - 1 }] }) ∧
      (d.acks = 1 → Completes (.cisternWriteStored dt false fn n d.idx) s fun t =>
        t = (u.setRing k { r with fetched := [], flushed := false }).post (rkey (fnOfKey k) r.cq) (runComp k [{ d with acks := 0 }])))) ∧
  (∀ c h i, u.Plain →
    let x := u.thr c h
    (x.stores = 0 → Completes (.cisternWriteStored dt true c h i) s fun t => t = u) ∧
    (1 < x.stores ∨ (x.stores = 1 ∧ x.blocked = none) → Completes (.cisternWriteStored dt true c h i) s fun t => t = u.setThr c h { x with stores := x.stores - 1 }) ∧
    (x.stores = 1 → x.blocked = some .fence → x.state = .stalled → Completes (.cisternWriteStored dt true c h i) s fun t =>
      t = u.setThr c h { x with stores := 0, state := .ready, blocked := none }) ∧
    (∀ n d, x.stores = 1 → x.blocked = some (.commit n d) → x.state = .stalled → Completes (.cisternWriteStored dt true c h i) s fun t =>
      t = ((u.setThr c h { x with stores := 0, state := .ready, blocked := none }).commit c h 0 (x.pc - 4) d n).stepTick c h)) ∧
  (∀ p x q ch dom role wt, Issued u p x q 0x0960 4 .any → ch < 64 → dom < 16 → role < 4 →
    (wt < 1 ∨ 15 < wt → Completes (.dmaChannelSet dt p ch dom role wt) s fun t => Agree u t ∧ t.Answered p q 0x030000C0 []) ∧
    (1 ≤ wt → wt ≤ 15 → 0 < u.attached ch → Completes (.dmaChannelSet dt p ch dom role wt) s fun t => Agree u t ∧ t.Answered p q 0x020000C0 []) ∧
    (1 ≤ wt → wt ≤ 15 → u.attached ch = 0 → Completes (.dmaChannelSet dt p ch dom role wt) s fun t => t.Answered p q 0 [] ∧
      Agree { u with dma.chans := tset s.dma.chans ch { tget s.dma.chans ch {} with cfg := some (dom, role, wt) } } t)) ∧
  (∀ p x q ch, Issued u p x q 0x0961 1 (.owner (u.chanCfg ch).1) → ch < 64 → Completes (.dmaStatus dt p ch) s fun t =>
    Agree u t ∧ t.Answered p q 0 ([u.chanCfgReg ch, u.chanState ch] ++ (tget s.dma.chans ch {}).counters ++ (if x.dom = 0 then [u.inFlight] else [])))

/-- R248, R289, R291, R292, R298-R303: what a thread takes, retires, posts and allocates, every other part of the block as it was, and what the Impeller makes of it: items enter a flow in
order with their numbers, or are turned away while it is full; they are delivered with a record while their class and the region have room, taken one at a time and retired with their buffer, and the last before a marker completes the
move. Pages come from the lowest free range of their region, read zero, and are zeroed again once freed; a load moves from a full placement to an empty one.
Conventions of the model that it rests on: notes/assumptions/6, 92, 94, 98, 111, 123, 136, 148. -/
def Obligations.WorkItemsAndPages : Prop := ∀ (s : State) (dt c h w : Nat),
  let u := s.elapse dt
  let r := wRd w
  (∀ x, Fetches u c h w x →
    let o := u.given c h { dev := true }
    let v := x.reg (wRs1 w)
    let a := x.reg (wRs2 w)
    let d := u.cdom c
    let quiet := u.threads.all (fun p => (u.thr p.1 p.2).state != .stalled) = true
    let does := fun (i : Instr) (y : Thread) => Completes i s fun t => t = o.retired c h y
    let leaves := fun (i : Instr) (o2 : State) (y : Thread) => Completes i s fun t => t = o2.retired c h y
    let faults := fun (i : Instr) => Completes i s fun t =>
      let v := (o.coreCount1 c 5).setThr c h { x with skip := none }
      t.Faulted c h 5 x.pc w ∧ Agree (v.setCore c { ((v.core c).stop u.now u.elapsed 5 h x.pc w) with lost := [] }) t
    let is := fun (f7 : Nat) => wordD w 6 f7 = true
    (is 0 → ∀ y, tget? x.subs v = some y → y.kind = 1 → x.item = none →
      (y.unread = [] → does (.itake dt c h w) (x.past.setReg r (2 ^ 63 + 1))) ∧
      (∀ k more fk f i, y.unread = k :: more → s.rm.flows = [(fk, f)] → f.out = [i] → i.at_ = some (c, h, v, k) →
        leaves (.itake dt c h w) (o.setFlow fk { f with out := [{ i with taken := true }] }) ({ x.past with
          subs := tset x.subs v { y with unread := more, read := y.read ++ [k] }, item := some (fk, i.seq, v, k) }.setReg r (y.region + 32 * k)))) ∧
    (is 1 → ∀ fk f i y k m, x.item = some (fk, i.seq, m, k) → s.rm.flows = [(fk, f)] → f.out = [i] → i.taken = true →
      i.at_ = some (c, h, m, k) → tget? x.subs m = some y → quiet →
      let z := { x.past with item := none, subs := tset x.subs m { y with read := y.read.filter (fun n => n != k) } }
      (f.hand = none → i.buf = none ∨ s.tosen.sessions = [] → leaves (.iretire dt c h w) ((o.setFlow fk { f with out := [] }).dropBuf (flowDom fk) i.buf) z) ∧
      (f.hand.isSome = true → f.items.any (fun j => j.before) = false → f.held = [] → f.due = [] → i.buf = none → Completes (.iretire dt c h w) s fun t =>
        Agree (((o.setFlow fk { f with out := [], hand := none, told := false }).rmCount (flowDom fk) 8 1).retired c h z) t)) ∧
    (is 2 → ∀ f, v < u.flowRange d → s.rm.flows = [(flowKey d v, f)] →
      let g := { f with items := f.items ++ [{ seq := f.nextSeq, word := a }], nextSeq := (f.nextSeq + 1) % 2 ^ 32 }
      let cl := u.fclass d f.cls
      (cl.depth ≤ f.depth → does (.ipost dt c h w) (x.past.setReg r (2 ^ 63 + 1))) ∧
      (f.depth < cl.depth → f.place.isSome = true → leaves (.ipost dt c h w) (o.setFlow (flowKey d v) g) (x.past.setReg r 0)) ∧
      (∀ p, f.depth < cl.depth → f.place = none → flowDom (flowKey d v) = d → u.threads.filter (u.eligible d f.cls) = [p] →
        leaves (.ipost dt c h w) ((o.setFlow (flowKey d v) { g with place := some p }).setFclass d f.cls { cl with told := false }) (x.past.setReg r 0)) ∧
      (f.depth < cl.depth → f.place = none → flowDom (flowKey d v) = d → u.threads.filter (u.eligible d f.cls) = [] → Completes (.ipost dt c h w) s fun t =>
        Agree (((o.setFlow (flowKey d v) g).setFclass d f.cls { cl with told := true }).retired c h (x.past.setReg r 0)) t)) ∧
    (is 8 → x.priv = true → 0 < v % 2048 → v % 2048 ≤ 1024 → s.tosen.sessions = [] →
      let n := v % 2048
      let y := u.rmDom d
      let gives := fun (p : Nat) (l : List (Nat × Nat)) => leaves (.pgalloc dt c h w)
        (((o.setRmDom d { y with mapped := l }).zero (cisternAt d (p * 65536)) (n * 65536)).dataLevel d) (x.past.setReg r (p * 65536))
      (y.dataPages < y.usedPages + n ∨ u.freePages < n → leaves (.pgalloc dt c h w) (o.pageEvent d 0 4 0) (x.past.setReg r (2 ^ 63 + 5))) ∧
      (y.mapped = [] → n ≤ y.dataPages → n ≤ u.freePages → let p := if v.testBit 31 = true then 0x10000 else 0
        gives p [(p, n)]) ∧
      (∀ m k, y.mapped = [(m, k)] → k + n ≤ y.dataPages → n ≤ u.freePages → 0 < k →
        let low := if v.testBit 31 = true then 0x10000 else 0
        let top := if v.testBit 31 = true then 0x100000 else 0xF000
        (m + k ≤ low → gives low [(m, k), (low, n)]) ∧
        (low < m → low + n ≤ min m top → gives low [(low, n), (m, k)]) ∧
        (m < low + n → low ≤ m → m + k + n ≤ top → gives (m + k) [(m, k), (m + k, n)]) ∧
        (m < low + n → low ≤ m → top < m + k + n → does (.pgalloc dt c h w) (x.past.setReg r (2 ^ 63 + 6))))) ∧
    (is 9 → x.priv = true → v % 65536 = 0 →
      let p := v / 65536
      let y := u.rmDom d
      (a = 0 → does (.pgfree dt c h w) x.past) ∧
      (∀ m k, y.mapped = [(m, k)] → 0 < a → m ≤ p → p + a ≤ m + k → a ≤ 0x100000 → s.tosen.sessions = [] → leaves (.pgfree dt c h w)
        (({ o.setRmDom d { y with mapped := (if m < p then [(m, p - m)] else []) ++ (if p + a < m + k then [(p + a, m + k - (p + a))] else []) } with
          rm.zeroing := s.rm.zeroing ++ [(d, p, a)] }).dataLevel d) x.past)) ∧
    (x.priv = false → x.tactive = false →
      let traps := fun (i : Instr) => Completes i s fun t => t = (o.setThr c h (x.past.trapped 2 w x.pc)).coreCount1 c 4
      (is 8 → traps (.pgalloc dt c h w)) ∧ (is 9 → traps (.pgfree dt c h w))) ∧
    (c < 96 → s.cores.chans = [] → s.rm.flows = [] →
      (is 0 → x.item.isSome = true ∨ tget? x.subs v = none ∨ (tget? x.subs v).any (fun y => y.kind != 1) = true → faults (.itake dt c h w)) ∧
      (is 1 → x.item = none → faults (.iretire dt c h w)) ∧
      (is 2 → u.flowRange d ≤ v → faults (.ipost dt c h w)) ∧
      (is 8 → x.priv = true → v % 2048 = 0 ∨ 1024 < v % 2048 → faults (.pgalloc dt c h w)) ∧
      (is 9 → x.priv = true → v % 65536 ≠ 0 ∨ 0x100000 < a ∨ (0 < a ∧ (u.rmDom d).mapped = []) → faults (.pgfree dt c h w)))) ∧
  (u.Plain →
    (u.impOn = false ∨ u.sumpTurn c = none → Completes (.sumpItemCreate dt c) s fun t => t = u) ∧
    (∀ qn f more, u.impOn = true → u.sumpTurn c = some qn → (u.queue qn).frames = f :: more →
      (u.freeBuf c = none → Completes (.sumpItemCreate dt c) s fun t => t = u.pageEvent c 0 5 1) ∧
      (∀ b cfg, u.freeBuf c = some b → tget? s.rm.sumps qn = some cfg →
        let n := cfg.base + crc32c 0xFFFFFFFF (cfg.ranges.flatMap (fun e => slice (f.data.take 128) e.1 e.2)) % 2 ^ cfg.log2
        let k := flowKey c n
        let popped := (u.sumpPop qn f).setRmDom c { u.rmDom c with rr := qn }
        let e := if (u.queue qn).sa = some 0xFFFF then popped.espIn c f.data else (some f.data, popped)
        (f.bad = true → Completes (.sumpItemCreate dt c) s fun t => t = popped.memDom c 1) ∧
        (f.bad = false → e.2.flowRoom c n = false → Completes (.sumpItemCreate dt c) s fun t => t = e.2.flowFull k) ∧
        (f.bad = false → e.1 = none → e.2.flowRoom c n = true → Completes (.sumpItemCreate dt c) s fun t => t = e.2) ∧
        (∀ bytes, e.1 = some bytes → f.bad = false → e.2.flowRoom c n = true → (u.flow k).place.isSome = true → (tget? s.rm.flows k).isSome = true →
          Completes (.sumpItemCreate dt c) s fun t =>
            let g := u.flow k
            t = (((e.2.setRmDom c { e.2.rmDom c with bufs := (e.2.rmDom c).bufs ++ [b] }).itemLevel c).store (cisternAt c (itemBase + 16384 * b)) (f.block ++ bytes)).setFlow k
              { g with nextSeq := (g.nextSeq + 1) % 2 ^ 32, items := g.items ++ [{ seq := g.nextSeq, buf := some b, len := (f.block ++ bytes).length, word := nsOf f.feed.stamp, queue := qn }] }))) ∧
    (∀ k, (u.flow k).fullPeriod ≠ some (u.now / grid 20) → (tget? s.rm.flows k).isSome = true →
      Agree ((u.rmCount (flowDom k) 11 1).setFlow k { u.flow k with fullPeriod := some (u.now / grid 20) }) (u.flowFull k)) ∧
    (∀ k, (u.flow k).fullPeriod = some (u.now / grid 20) → u.flowFull k = u.rmCount (flowDom k) 11 1) ∧
    (s.rm.flows.all (fun f => f.2.held.isEmpty && f.2.due.isEmpty) = true →
      let x := u.thr c h
      (u.impOn = false ∨ (u.core c).state ≠ .running ∨ x.live = false ∨ x.state = .halted ∨ u.turnFor c h = none → Completes (.itemDelivery dt c h) s fun t => t = u) ∧
      (∀ k f, s.rm.flows = [(k, f)] → u.impOn = true → (u.core c).state = .running → x.live = true → x.state ≠ .halted → f.place = some (c, h) → f.hand = none →
        let cl := u.fclass (flowDom k) f.cls
        let out := (f.out.filter (fun i => i.onThr c h)).length
        (cl.inflight ≤ out ∨ f.items = [] ∨ (∀ y ∈ x.subs, y.2.kind ≠ 1 ∨ y.2.mask.testBit f.cls = false ∨ 16 ≤ y.2.unread.length + y.2.read.length) →
          Completes (.itemDelivery dt c h) s fun t => t = u) ∧
        (∀ i more n y, out < cl.inflight → f.items = i :: more → i ∉ more → x.subs = [(n, y)] → y.kind = 1 → y.mask.testBit f.cls = true →
          y.unread.length + y.read.length < 16 →
          let rec_ := le (flowNum k + 2 ^ 20 * f.cls) 4 ++ le i.seq 4 ++ le ((i.buf.map (fun b => itemBase + b * 16384)).getD 0) 8 ++ le i.len 2 ++
            le (b2n i.reissued + 2 * b2n i.buf.isNone + 4 * b2n f.migrated) 1 ++ le 0 1 ++ le i.queue 2 ++ le 0 2 ++ le i.word 8
          let put := fun (v : State) => ((({ (v.store (localAt c (y.region + 32 * y.next)) rec_).setFlow k
            { f with items := more, out := f.out ++ [{ i with at_ := some (c, h, n, y.next) }], served := v.rm.clock + 1, migrated := false } with
              rm.clock := v.rm.clock + 1 }).rmCount (flowDom k) 7 1).setThr c h
              { x with subs := [(n, { y with unread := y.unread ++ [y.next], next := (y.next + 1) % 16 })] }).wake c h 4
          let key := ctxKey 2 (flowDom k) (flowNum k)
          (u.ctx? key = none → Completes (.itemDelivery dt c h) s fun t => t = put u) ∧
          (∀ z, u.ctx? key = some z → z.place = 0 → z.failed = false → s.mem.marks = [] → Completes (.itemDelivery dt c h) s fun t =>
            t = put ((u.ctxUse key).rmCount (ctxDom key) 0 1)) ∧
          (∀ z, u.ctx? key = some z → z.place ≠ 0 → Completes (.itemDelivery dt c h) s fun t => t = u.ctxFetch key)))) ∧
    (u.impOn = false ∨ u.now / grid 20 ≤ s.rm.rebalanced → Completes (.rebalance dt) s fun t => t = u) ∧
    (u.impOn = true → s.rm.rebalanced < u.now / grid 20 →
      let o := { u with rm.rebalanced := u.now / grid 20 }
      (s.rm.classes.all (fun e => !e.2.rebalance) = true → Completes (.rebalance dt) s fun t => t = o) ∧
      (∀ cl p q k f, s.rm.classes = [(0, cl)] → cl.rebalance = true → u.domOn 0 = true → u.threads.filter (u.eligible 0 0) = [p, q] → p ≠ q → s.rm.flows = [(k, f)] →
        flowDom k = 0 → f.cls = 0 → f.place = some p → f.hand = none → f.due = [] → f.items ≠ [] → 0 < cl.high →
        (cl.high ≤ f.items.length → Completes (.rebalance dt) s fun t => t = o.setFlow k { f with
          hand := some p, markedAt := u.now, told := false, place := some q, migrated := true
          items := f.items.map (fun i => { i with before := true }), out := f.out.map (fun i => { i with before := true }) }) ∧
        (f.items.length < cl.high → Completes (.rebalance dt) s fun t => t = o))) ∧
    (s.rm.zeroing = [] → Completes (.pageZeroed dt) s fun t => t = u) ∧
    (∀ d p n more, s.rm.zeroing = (d, p, n) :: more →
      let o := { u with rm.zeroing := if n ≤ 1 then more else (d, p + 1, n - 1) :: more }
      (s.mem.marked = [] ∨ 2 ^ 20 ≤ p → Completes (.pageZeroed dt) s fun t => t = o) ∧
      (∀ y, s.mem.marked = [(dataPageKey d p, y)] → p < 2 ^ 20 → Completes (.pageZeroed dt) s fun t =>
        t = { o with mem.marked := [], mem.retired := s.mem.retired ++ [y] })))

/-- R288, R289, R293, R294, R300, R303, R305, R306, R309, R310: the commands of the Impeller, the pools and the pager: each refusal with its code, in the order of the reply column, and what each
sets, every other part of the block as it was. Conventions of the model that it rests on: notes/assumptions/95, 97, 111. -/
def Obligations.ManagerCommands : Prop := ∀ (s : State) (dt : Nat) (p : Path) (x : Session) (q : TReq),
  let u := s.elapse dt
  let denied := fun (code : Nat) (t : State) => Agree u t ∧ t.Answered p q code []
  (∀ cls n d re rb hi lo, Issued u p x q 0x0720 7 .any →
    let fits := cls < 8 ∧ 1 ≤ n ∧ n ≤ 16 ∧ 1 ≤ d ∧ d ≤ 4096 ∧ re < 2 ∧ rb < 2 ∧ hi ≤ 65535 ∧ 1 ≤ lo ∧ lo < hi
    (¬ fits → Completes (.impClassSet dt p cls n d re rb hi lo) s (denied 0x030000E0)) ∧
    (fits → Completes (.impClassSet dt p cls n d re rb hi lo) s fun t => t.Answered p q 0 [] ∧
      Agree (u.setFclass x.dom cls { u.fclass x.dom cls with
        inflight := n, depth := d, refuse := re == 1, rebalance := rb == 1, high := hi, low := lo }) t)) ∧
  (∀ n cls f k rs, Issued u p x q 0x0721 (5 + 2 * rs.length) (u.queuePerm n) →
    let fits := cls < 8 ∧ k ≤ 12 ∧ rs.length ≤ 4 ∧ (∀ e ∈ rs, e.1 + e.2 ≤ 128) ∧ f + 2 ^ k ≤ u.flowRange ((u.queueDom n).getD 0)
    (¬ fits → Completes (.impQueueSet dt p n cls f k rs) s (denied 0x030000E1)) ∧
    (fits → u.queueDom n = none ∨ (u.queue n).cfg.kind ≠ 3 → Completes (.impQueueSet dt p n cls f k rs) s (denied 0x020000E0)) ∧
    (fits → (u.queueDom n).isSome = true → (u.queue n).cfg.kind = 3 → Completes (.impQueueSet dt p n cls f k rs) s fun t => t.Answered p q 0 [] ∧
      Agree { u with rm.sumps := tset s.rm.sumps n { cls := cls, base := f, log2 := k, ranges := rs } } t)) ∧
  (∀ n c h, Issued u p x q 0x0722 3 (flowPerm n) → n < 2 ^ 24 →
    let row := Instr.impMigrate dt p n c h
    let k := cmdFlow x.dom n
    let f := u.flow k
    let may := u.coreDom c = some (flowDom k) ∧ h < 8 ∧ (u.core c).state = .running ∧ (u.thr c h).live = true ∧ (u.thr c h).covers f.cls = true
    let moved := { f with place := some (c, h), migrated := true }
    (¬ may → Completes row s (denied 0x020000E1)) ∧
    (may → f.hand.isSome = true ∨ f.due ≠ [] → Completes row s (denied 0x010000E0)) ∧
    (may → f.hand = none → f.due = [] → tget? s.rm.flows k = none ∨ f.place = some (c, h) → Completes row s fun t => Agree u t ∧ t.Answered p q 0 []) ∧
    (may → f.hand = none → f.due = [] → (tget? s.rm.flows k).isSome = true → f.place ≠ some (c, h) →
      (f.items ≠ [] ∨ f.out ≠ [] → Completes row s fun t => t.Answered p q 0 [] ∧ Agree (u.setFlow k { moved with
        hand := some (f.place.getD (c, h)), markedAt := u.now, told := false
        items := f.items.map (fun i => { i with before := true }), out := f.out.map (fun i => { i with before := true }) }) t) ∧
      (f.items = [] → f.out = [] → f.held = [] → s.rm.flows.length = 1 → Completes row s fun t => t.Answered p q 0 [] ∧
        Agree ((u.setFlow k { moved with markedAt := u.now, told := false }).rmCount (flowDom k) 8 1) t))) ∧
  (∀ n, Issued u p x q 0x0723 1 (flowPerm n) → n < 2 ^ 24 → Completes (.impFlowStatus dt p n) s fun t => Agree u t ∧
    let f := u.flow (cmdFlow x.dom n)
    let a := f.place.getD (0xFF, 0xFF)
    let b := f.hand.getD (0xFF, 0xFF)
    t.Answered p q 0 [a.1, a.2, f.cls, f.items.length, f.out.length, f.held.length + f.due.length, b2n f.hand.isSome, b.1, b.2, f.nextSeq]) ∧
  (∀ ls, Issued u p x q 0x0724 32 .any →
    let on := ls.zipIdx.filter (fun e => u.domOn e.2)
    let bad := 1048576 < (on.map (fun e => e.1.1)).sum ∨ 8192 < (on.map (fun e => e.1.2)).sum ∨
      (∃ f ∈ s.rm.flows, ∀ e ∈ on, e.2 ≠ flowDom f.1 ∨ e.1.1 ≤ flowNum f.1)
    (bad → Completes (.impQuota dt p ls) s (denied 0x020000E2)) ∧
    (¬ bad → Completes (.impQuota dt p ls) s fun t =>
      t.Answered p q 0 [] ∧ Agree { u with rm.doms := t.rm.doms } t ∧ (∀ d, u.domOn d = false → t.rmDom d = u.rmDom d) ∧
      ∀ a b d, ls[d]? = some (a, b) → u.domOn d = true → t.rmDom d = { u.rmDom d with flows := some a, handover := some b })) ∧
  (∀ d a b c, Issued u p x q 0x0801 4 .any → d < 16 →
    let fits := u.domOn d = true ∧ a ≤ (u.memCeil d).getD u.pagesTotal ∧ b ≤ 256 ∧ c < 2 ^ 22
    let y := u.rmDom d
    let t1 := u.setRmDom d { y with dataPages := a, itemMib := b, ctxPages := c }
    let room := (∀ e ∈ u.doms, (∀ m, u.memCeil e = some m → t1.poolPages e ≤ m)) ∧ (u.doms.map t1.poolPages).sum + s.mem.retired.length ≤ u.pagesTotal
    let inUse := a < y.usedPages ∨ (∃ n ∈ y.bufs, b * 64 ≤ n) ∨ c * 256 < u.backUsed d
    (¬ fits → Completes (.cisternQuota dt p d a b c) s (denied 0x030000D0)) ∧
    (fits → ¬ room → Completes (.cisternQuota dt p d a b c) s (denied 0x020000D0)) ∧
    (fits → room → inUse → Completes (.cisternQuota dt p d a b c) s (denied 0x010000D0)) ∧
    (fits → room → ¬ inUse → y.itemMib ≤ b → y.ctxPages ≤ c → Completes (.cisternQuota dt p d a b c) s fun t =>
      t.Answered p q 0 [] ∧ Agree (((t1.dataLevel d).itemLevel d).backRise d) t) ∧
    (fits → room → ¬ inUse → b ≤ y.itemMib → c ≤ y.ctxPages → b < y.itemMib ∨ c < y.ctxPages → d ∈ u.doms → u.doms.Nodup → Completes (.cisternQuota dt p d a b c) s fun t =>
      t.Answered p q 0 [] ∧ Agree (((({ t1 with
        rm.zeroing := s.rm.zeroing ++ [(d, 2 ^ 24, (y.itemMib - b) * 16 + (y.ctxPages - c))] } : State).dataLevel d).itemLevel d).backRise d) t)) ∧
  (∀ d, Issued u p x q 0x0802 1 (.owner d) → d < 16 → Completes (.cisternStatus dt p d) s fun t => Agree u t ∧
    t.Answered p q 0 ((if u.domOn d = true then let y := u.rmDom d
      [y.dataPages, y.usedPages, y.itemMib + 4096 * (y.itemMib * 64 - y.bufs.length), y.ctxPages, u.qpLines d + 65536 * u.otherLines d,
        u.missPkts d + 16384 * u.missKib d, u.flowRange d, u.handShare d + 65536 * u.heldOf d] ++ y.counters else List.replicate 20 0) ++
      (if x.dom = 0 then [u.pagesTotal, u.freePages] else []))) ∧
  (∀ ls, Issued u p x q 0x0803 64 .any →
    let on := ls.zipIdx.filter (fun e => u.domOn e.2)
    let sum := fun i => (on.map (fun e => nth e.1 i)).sum
    let bad := 16384 < sum 0 ∨ 49152 < sum 1 ∨ 4096 < sum 2 ∨ 8192 < sum 3 ∨ (∃ e ∈ on, nth e.1 0 < u.pinned e.2 1 * 4 ∨ nth e.1 1 < u.pinned e.2 2 * 4)
    (bad → Completes (.ctxShare dt p ls) s (denied 0x020000D1)) ∧
    (¬ bad → s.rm.ctxs = [] → Completes (.ctxShare dt p ls) s fun t => t.Answered p q 0 [] ∧ Agree { u with rm.doms := t.rm.doms } t ∧
      (∀ d, u.domOn d = false → t.rmDom d = u.rmDom d) ∧
      ∀ d l, ls[d]? = some l → u.domOn d = true → t.rmDom d = { u.rmDom d with
        qpLines := some (nth l 0), otherLines := some (nth l 1), missPkts := some (nth l 2), missKib := some (nth l 3), episodes := (t.rmDom d).episodes })) ∧
  (∀ ty addr n, Issued u p x q 0x0804 3 .any → 1 ≤ ty → ty ≤ 3 →
    let row := Instr.ctxBackingSet dt p ty addr n
    (badAddr p addr = true ∨ 2 ^ 63 ≤ addr → Completes row s (denied 0x03000F02)) ∧
    (badAddr p addr = false → addr < 2 ^ 63 →
      (addr % 4096 ≠ 0 ∨ n = 0 → Completes row s (denied 0x030000D1)) ∧
      (addr % 4096 = 0 → n ≠ 0 → (∃ e ∈ s.rm.ctxs, ctxDom e.1 = x.dom ∧ ctxType e.1 = ty) → Completes row s (denied 0x020000D2)) ∧
      (addr % 4096 = 0 → n ≠ 0 → (∀ e ∈ s.rm.ctxs, ctxDom e.1 ≠ x.dom ∨ ctxType e.1 ≠ ty) → Completes row s fun t => t.Answered p q 0 [] ∧
        Agree (u.setRmDom x.dom { u.rmDom x.dom with homes := tset (u.rmDom x.dom).homes ty (addr, n) }) t))) ∧
  (∀ ty n pin, Issued u p x q 0x0805 3 .any → ty ≤ 3 → n < 2 ^ 26 → pin < 2 →
    let k := ctxKey ty x.dom n
    let overfull := pin = 1 ∧ (u.ctx? k).any (fun y => y.pinned) = false ∧ u.lines x.dom ty < (((u.ctxsOf x.dom ty).filter (fun e => e.2.pinned)).length + 1) * 4
    (overfull → Completes (.ctxPin dt p ty n pin) s (denied 0x020000D3)) ∧
    (¬ overfull → u.ctx? k = none → Completes (.ctxPin dt p ty n pin) s (denied 0x020000D4)) ∧
    (∀ y, ¬ overfull → u.ctx? k = some y →
      (pin = 0 → Completes (.ctxPin dt p ty n pin) s fun t => t.Answered p q 0 [] ∧ Agree (u.setCtx k { y with pinned := false }) t) ∧
      (pin = 1 → y.place = 0 → Completes (.ctxPin dt p ty n pin) s fun t => t.Answered p q 0 [] ∧ Agree (u.setCtx k { y with pinned := true }) t) ∧
      (pin = 1 → y.place ≠ 0 → Completes (.ctxPin dt p ty n pin) s fun t => t.Executing p q ∧
        Agree ((u.setCtx k { y with pinned := true, waiting := some p }).ctxFetch k) t)))

/-- R324-R328: a completion for no read is counted and changes nothing else; one for a quarantined tag is late, frees it when it is the last, and is reported where none was late for
2^20 ns. Of an index read, the data that comes is gathered, and when all has come it is the ring's index; UR, CA and poison freeze its function with the cause, as does a timeout of the index
or of a descriptor read: its work ends, and the rest stays. A read that is not wanted any more ends with its tag. A tag that timed out stays quarantined for twice the timeout.
Conventions of the model that it rests on: notes/assumptions/87, 107, 165. -/
def Obligations.HostReadsEnd : Prop := ∀ (s : State) (dt tag : Nat),
  let u := s.elapse dt
  u.Plain →
  let frozen := fun (v : State) (f cause what ring : Nat) => ({ v with
    rings.rings := tmapK s.rings.rings (fun k r => if fnOfKey k = f then r.dropWork else r)
    stor.cmds := s.stor.cmds.filter (fun c => fnOfKey c.key != f)
    rdma.qps := tmap s.rdma.qps (fun q => if q.fn ≠ f then q else
      { q with reqs := [], timer := none, rnrAt := none, sendPsn := q.nextPsn, ackPsn := q.nextPsn, msg := none, resps := [], ackAt := none, unacked := 0 }) }.setPfn f
    { u.pfn f with frozen := true, cause := cause, what := what, ring := ring, outbox := [] }).pcieCount 7
  (∀ st ep last b, u.pcie.reads.find? (fun r => r.tag == tag) = none →
    (tget? u.pcie.quarantine tag = none → Completes (.pcieReadCompletion dt tag st ep last b) s fun t => t = u.pcieCount 2) ∧
    (∀ x, tget? u.pcie.quarantine tag = some x → u.pcie.held = [] →
      let z := { u.pcieCount 1 with pcie.lateAt := some u.elapsed, pcie.quarantine := if last then tdel u.pcie.quarantine tag else u.pcie.quarantine }
      (∀ a, u.pcie.lateAt = some a → u.elapsed < a + grid 20 → Completes (.pcieReadCompletion dt tag st ep last b) s fun t => t = z) ∧
      (u.pcie.lateAt = none ∨ (∃ a ∈ u.pcie.lateAt, a + grid 20 ≤ u.elapsed) → Completes (.pcieReadCompletion dt tag st ep last b) s fun t =>
        Agree z t ∧ (s.tosen.sessions = [] → t = z.pcieEvent x.2 3 [])))) ∧
  (∀ r, u.pcie.reads = [r] → r.tag = tag → u.pcie.held = [] →
    let o := { u with pcie.reads := [] }
    (∀ st ep last b, st ≠ 0 → r.dead = true → Completes (.pcieReadCompletion dt tag st ep last b) s fun t => t = o.pcieCount 3) ∧
    (∀ last b, r.dead = true → r.got.length + b.length < r.len → Completes (.pcieReadCompletion dt tag 0 false last b) s fun t =>
      t = { u with pcie.reads := [{ r with got := r.got ++ b }] }) ∧
    (∀ last b, r.dead = true → r.got.length + b.length = r.len → Completes (.pcieReadCompletion dt tag 0 false last b) s fun t => t = o) ∧
    (∀ st ep last b, st ≠ 0 → r.dead = false → r.what < 2 → (u.pfn r.fn).frozen = false → Completes (.pcieReadCompletion dt tag st ep last b) s
      (Agree (frozen (o.pcieCount 3) r.fn st (r.what + 1) (r.ring % 1024)))) ∧
    (∀ st ep last b, st ≠ 0 → r.dead = false → r.what < 2 → (u.pfn r.fn).frozen = true → Completes (.pcieReadCompletion dt tag st ep last b) s fun t => t = o.pcieCount 3) ∧
    (∀ last b, r.dead = false → r.what < 2 → r.got.length + b.length < r.len → Completes (.pcieReadCompletion dt tag 0 false last b) s fun t =>
      t = { u with pcie.reads := [{ r with got := r.got ++ b }] }) ∧
    (∀ last b, r.dead = false → r.what = 0 → r.len = 4 → r.got.length + b.length = 4 → (u.ring r.ring).kind < 2 →
      (ofLe (r.got ++ b) + 2 ^ 32 - (u.ring r.ring).done) % 2 ^ 32 ≤ (u.ring r.ring).entries → (u.ring r.ring).again = false →
      Completes (.pcieReadCompletion dt tag 0 false last b) s fun t =>
        t = (o.setRing r.ring { u.ring r.ring with reading := false, host := ofLe (r.got ++ b) }).fetch r.ring) ∧
    (∀ last b, r.dead = false → r.what < 2 → (u.pfn r.fn).frozen = false → r.got.length + b.length < r.len → Completes (.pcieReadCompletion dt tag 0 true last b) s
      (Agree (frozen ({ u with pcie.reads := [{ r with got := r.got ++ b, dead := true }] }.pcieCount 4) r.fn 4 (r.what + 1) (r.ring % 1024)))) ∧
    (∀ last b, r.dead = false → r.what < 2 → (u.pfn r.fn).frozen = false → r.got.length + b.length = r.len → Completes (.pcieReadCompletion dt tag 0 true last b) s
      (Agree (frozen (o.pcieCount 4) r.fn 4 (r.what + 1) (r.ring % 1024)))) ∧
    (u.elapsed < r.at_ + r.cto → Completes (.completionTimeout dt tag) s fun t => t = u) ∧
    (r.at_ + r.cto ≤ u.elapsed →
      let w := { u with pcie.reads := [], pcie.quarantine := tset u.pcie.quarantine tag (r.at_ + 2 * r.cto, r.fn) }.pcieCount 0
      (r.dead = true → Completes (.completionTimeout dt tag) s fun t => t = w) ∧
      (r.dead = false → r.what < 2 → (u.pfn r.fn).frozen = false → Completes (.completionTimeout dt tag) s
        (Agree (frozen w r.fn 1 (r.what + 1) (r.ring % 1024)))))) ∧
  (u.pcie.reads.find? (fun r => r.tag == tag) = none → Completes (.completionTimeout dt tag) s fun t => t = u) ∧
  (tget? u.pcie.quarantine tag = none → Completes (.tagQuarantineEnd dt tag) s fun t => t = u) ∧
  (∀ x, tget? u.pcie.quarantine tag = some x →
    (u.elapsed < x.1 → Completes (.tagQuarantineEnd dt tag) s fun t => t = u) ∧
    (x.1 ≤ u.elapsed → u.pcie.held = [] → Completes (.tagQuarantineEnd dt tag) s fun t =>
      t = { u with pcie.quarantine := tdel u.pcie.quarantine tag }))

/-- R314, R315, R325, R329-R331, R333: links come up, link B only where the fuse splits the lanes; they go down with their functions reset and their configuration space at its default; they enter L1 or a reduced width only where that is
enabled and nothing is out; power states, Bus Master Enable, VF Enable and the timeout value are taken from configuration space where it
answers, and what waited for them goes out; work left in D3hot ends; the VFs of a PF that clears VF Enable are gone; the limits of power management and of the VFs are commands of TD0.
Conventions of the model that it rests on: notes/assumptions/102, 106, 165. -/
def Obligations.LinksAndConfiguration : Prop := ∀ (s : State) (dt : Nat) (b : Bool),
  let u := s.elapse dt
  let l := if b then u.pcie.linkB else u.pcie.linkA
  let there := b = false ∨ u.pcie.x8x8 = true
  let bare := fun (f : Nat) => u.vfsOf f = [] ∧ (u.pfn f).wins = [] ∧ s.tm.queues = [] ∧ s.tm.scheds = [] ∧ s.rdma.qps = [] ∧ s.rdma.mrs = [] ∧ s.rdma.intake = [] ∧
    s.rdma.eventRings = [] ∧ s.stor.nss = [] ∧ s.stor.cmds = [] ∧ s.dma.waits = [] ∧ s.slu.store = [] ∧ s.pcie.reads = [] ∧ s.pcie.held = [] ∧ s.tb.latch = [] ∧
    s.led.chains = [] ∧ s.ports.ports = [] ∧ (s.fn f).inReset = false ∧ s.tosen.sessions = [] ∧ s.tosen.opens = [] ∧ s.glb.mode ≠ .recovery ∧
    s.rings.rings.all (fun y => fnOfKey y.1 != f || (y.2.posters.isEmpty && y.2.engine != 4)) = true
  let reset := fun (v : State) (f : Nat) => ({ v.setFn f { inReset := true } with
    rings.rings := s.rings.rings.filter (fun y => fnOfKey y.1 != f), rings.fns := tset s.rings.fns f { counters := (u.ringFn f).counters } }).setPfn f
    { u.pfn f with frozen := false, cause := 0, what := 0, ring := 0, wins := [], winMax := (u.pfn f).winMaxNext, resetAt := u.elapsed, outbox := [], msix := [], pba := [] }
  let busyDma := s.rings.rings.any (fun r => u.onB (fnOfKey r.1) == b && r.2.engine == 2 && (r.2.dma.isSome || r.2.fetched.any (fun d => !d.ended)))
  let reading := u.pcie.reads.any (fun r => u.onB r.fn == b)
  (u.Plain →
    (∀ sp w fl, 1 ≤ sp → sp ≤ 6 →
      (there → w ∈ [1, 2, 4, 8] ∨ (w = 16 ∧ u.pcie.x8x8 = false) → Completes (.pcieLinkUp dt b sp w fl) s fun t =>
        t = u.setLink b { speed := sp, width := w, flit := fl, active := w, up := true }) ∧
      (¬ there ∨ w ∉ [1, 2, 4, 8, 16] ∨ (8 < w ∧ u.pcie.x8x8 = true) → Completes (.pcieLinkUp dt b sp w fl) s fun t => t = u)) ∧
    (l.up = false ∨ ¬ there → Completes (.dlDown dt b) s fun t => t = u) ∧
    (there → l.up = true → u.linkPfs b = [] → s.firmware = false → Completes (.dlDown dt b) s fun t => t = u.setLink b {}) ∧
    (∀ n, there → l.up = true → u.linkPfs b = [n] → bare (n * 4096) → Completes (.dlDown dt b) s fun t =>
      let f := n * 4096
      let o := reset (u.setLink b {}) f
      Agree (o.setPfn f { o.pfn f with bme := false, mse := false, d3 := false, ctoVal := 0, romEn := false, msixOn := false, msixMask := false, tag10 := false
                                       vfs := 0, winSize := none, vfWin := none }) t) ∧
    (l.up = false ∨ l.aspm = false ∨ 2 ≤ l.lpm ∨ reading = true ∨ busyDma = true → Completes (.aspmL1Entry dt b) s fun t => t = u) ∧
    (l.up = true → l.aspm = true → l.lpm < 2 → reading = false → busyDma = false → Completes (.aspmL1Entry dt b) s fun t =>
      t = u.setLink b { l with lpm := 2 }) ∧
    (l.up = false ∨ l.flit = false ∨ l.l0p = false ∨ u.pcie.l0pAuto = false ∨ l.active ≤ u.pcie.l0pWidth → Completes (.l0pWidthReduce dt b) s fun t => t = u) ∧
    (l.up = true → l.flit = true → l.l0p = true → u.pcie.l0pAuto = true → u.pcie.l0pWidth < l.active → Completes (.l0pWidthReduce dt b) s fun t =>
      t = u.setLink b { l with active := u.pcie.l0pWidth, lpm := 1 }) ∧
    (∀ f d, u.cfgOpen f = false ∨ (u.pfn f).d3 = d → Completes (.pmStateWrite dt f d) s fun t => t = u) ∧
    (∀ f, u.cfgOpen f = true → u.pcie.held = [] →
      ((u.pfn f).d3 = false → (u.pfn f).outbox = [] → Completes (.pmStateWrite dt f true) s fun t =>
        t = u.setPfn f { u.pfn f with d3 := true, d3At := u.elapsed }) ∧
      ((u.pfn f).d3 = true → (u.pfn f).bme = true → u.mute f = false → Completes (.pmStateWrite dt f false) s fun t =>
        t = (u.setPfn f { u.pfn f with d3 := false, outbox := [] }).emits (u.pfn f).outbox) ∧
      ((u.pfn f).d3 = true → (u.pfn f).bme = false → Completes (.pmStateWrite dt f false) s fun t => t = u.setPfn f { u.pfn f with d3 := false })) ∧
    (∀ f, (u.pfn f).d3 = false ∨ u.elapsed < (u.pfn f).d3At + ns 10000000 → Completes (.d3hotWorkTimeout dt f) s fun t => t = u) ∧
    (∀ f, (u.pfn f).d3 = true → (u.pfn f).d3At + ns 10000000 ≤ u.elapsed → u.ctxsVia f = [] → Completes (.d3hotWorkTimeout dt f) s fun t =>
      t = { u with
        rings.rings := tmapK s.rings.rings (fun k r => if fnOfKey k = f then r.dropWork else r)
        pcie.reads := s.pcie.reads.map (fun r => if r.fn = f then { r with dead := true } else r), pcie.held := s.pcie.held.filter (fun r => r.fn != f)
        stor.cmds := s.stor.cmds.filter (fun c => fnOfKey c.key != f)
        rdma.qps := tmap s.rdma.qps (fun q => if q.fn ≠ f then q else
          { q with reqs := [], timer := none, rnrAt := none, sendPsn := q.nextPsn, ackPsn := q.nextPsn, msg := none, resps := [], ackAt := none, unacked := 0 }) }) ∧
    (∀ f on, u.cfgOpen f = false → Completes (.busMasterEnableWrite dt f on) s fun t => t = u) ∧
    (∀ f on, u.cfgOpen f = true → u.pcie.held = [] → s.tm.queues = [] →
      ((u.pfn f).outbox = [] ∨ on = false → Completes (.busMasterEnableWrite dt f on) s fun t => t = u.setPfn f { u.pfn f with bme := on }) ∧
      (on = true → (u.pfn f).d3 = false → u.mute f = false → Completes (.busMasterEnableWrite dt f on) s fun t =>
        t = (u.setPfn f { u.pfn f with bme := true, outbox := [] }).emits (u.pfn f).outbox)) ∧
    (∀ f r, u.cfgOpen f = true → (u.pfn f).d3 = false → u.mute f = false → (u.pfn f).outbox = [] → s.tm.queues = [] → u.pcie.held = [r] → r.fn = f →
      Completes (.busMasterEnableWrite dt f true) s fun t => t = ({ u.setPfn f { u.pfn f with bme := true } with pcie.held := [] }).issue r) ∧
    (∀ pf n on m, pf = 0 ∨ 7 < pf ∨ u.cfgOpen (pf * 4096) = false → Completes (.vfEnableWrite dt pf n on m) s fun t => t = u) ∧
    (∀ pf n m, 0 < pf → pf ≤ 7 → u.cfgOpen (pf * 4096) = true →
      let f := pf * 4096
      let spaces := fun (v : State) (n : Nat) => (List.range n).foldl (fun (v : State) i => v.setPfn (f + 1 + i) { v.pfn (f + 1 + i) with mse := m }) v
      ((u.pfn f).vfs = 0 → 1 ≤ n → n ≤ u.totalVfsOf pf → Completes (.vfEnableWrite dt pf n true m) s fun t =>
        t = spaces (u.setPfn f { u.pfn f with vfs := n, vfAt := u.elapsed }) n) ∧
      ((u.pfn f).vfs ≠ 0 ∨ n = 0 ∨ u.totalVfsOf pf < n → Completes (.vfEnableWrite dt pf n true m) s fun t => t = spaces u (u.pfn f).vfs) ∧
      ((u.pfn f).vfs = 0 → Completes (.vfEnableWrite dt pf n false m) s fun t => t = u.setPfn f { u.pfn f with vfs := 0 }) ∧
      ((u.pfn f).vfs = 1 → bare (f + 1) → (u.pfn (f + 1)).resetPaths = [] → Completes (.vfEnableWrite dt pf n false m) s fun t =>
        let o := reset u (f + 1)
        Agree ({ o with glb.fns := tdel o.glb.fns (f + 1), pcie.fns := tset (tdel o.pcie.fns (f + 1)) f { u.pfn f with vfs := 0 } }) t)) ∧
    (∀ f v, u.cfgOpen f = false ∨ 2 < v → Completes (.ctoValueWrite dt f v) s fun t => t = u) ∧
    (∀ f v, u.cfgOpen f = true → v ≤ 2 → Completes (.ctoValueWrite dt f v) s fun t => t = u.setPfn f { u.pfn f with ctoVal := v })) ∧
  (∀ p x q i a w sn ns_, Issued u p x q 0x0907 5 .any →
    let fits := i < 2 ^ 32 ∧ a ≤ 1 ∧ w ∈ [1, 2, 4, 8] ∧ sn < 65536 ∧ ns_ < 65536
    (¬ fits → Completes (.pciePowerConfig dt p i a w sn ns_) s fun t => Agree u t ∧ t.Answered p q 0x030000F3 []) ∧
    (fits → Completes (.pciePowerConfig dt p i a w sn ns_) s fun t => t.Answered p q 0 [] ∧ (l.up = true → .ltr b sn ns_ ∈ t.out) ∧
      Agree { u with pcie.l1Idle := i, pcie.l0pAuto := a == 1, pcie.l0pWidth := w, pcie.ltr := (sn, ns_) } t)) ∧
  (∀ p x q ls, Issued u p x q 0x0908 7 .any →
    (2048 < ls.sum → Completes (.sriovLimit dt p ls) s fun t => Agree u t ∧ t.Answered p q 0x020000F3 []) ∧
    (ls.sum ≤ 2048 → Completes (.sriovLimit dt p ls) s fun t => t.Answered p q 0 [] ∧
      Agree { u with pcie.totalNext := (List.range 7).map (fun i => (i + 1, nth ls i)) } t))

/-- R316, R318-R323, R325, R333: a request that its window entry translates reads or writes the cistern there and nothing else, poison read as poison and written as poison; any other is
answered with UR and counted. A function that is in D3hot, has Memory Space Enable 0 or is stopped by Lockdown answers UR; one in reset reads zeros. The ROM reads as its image, and as 0xFF without firmware.
An entry's words are written only while it does not translate; it translates only within the window rules; its
old mapping drains, and the commands that wait for that are answered. Each command answers its refusals in order. Conventions of the model that it
rests on: notes/assumptions/6, 103, 104, 105. -/
def Obligations.WindowsAndRom : Prop := ∀ (s : State) (dt : Nat),
  let u := s.elapse dt
  (u.Plain →
    (∀ f off n wr ep b, u.fnExists f = false ∨ (u.linkOf f).up = false → Completes (.windowRequest dt f off n wr ep b) s fun t => t = u) ∧
    (∀ f off n ep b, u.fnExists f = true → (u.linkOf f).up = true →
      let shut := s.glb.mode = .recovery ∨ (u.pfn f).mse = false ∨ (u.pfn f).d3 = true ∨ (s.glb.mode = .lockdown ∧ f ≠ 0)
      (shut → Completes (.windowRequest dt f off n false ep b) s fun t => t = (u.pcieCount 5).emit (.readData [] false false)) ∧
      (shut → Completes (.windowRequest dt f off n true ep b) s fun t => t = u) ∧
      (¬ shut → s.firmware = false ∨ (s.fn f).inReset = true →
        Completes (.windowRequest dt f off n false ep b) s (fun t => t = u.emit (.readData (zeros n) true false)) ∧
        Completes (.windowRequest dt f off n true ep b) s fun t => t = u)) ∧
    (∀ f e o n b, u.fnExists f = true → (u.linkOf f).up = true → s.glb.mode ≠ .recovery → ¬ (s.glb.mode = .lockdown ∧ f ≠ 0) → (u.pfn f).mse = true → (u.pfn f).d3 = false →
      s.firmware = true → (s.fn f).inReset = false → e < 64 → o < u.sliceOf f → 0 < n → s.mem.bad = [] →
      let w := u.win f e
      let at_ := cisternAt (u.fnDom f) (w.target + o)
      let off := e * u.sliceOf f + o
      let ok := w.valid = true ∧ o + n ≤ w.pages * pageSize ∧ o + n ≤ u.sliceOf f ∧ u.cisternOk (u.fnDom f) (w.target + o) n = true
      let count := (u.setWin f e { w with urs := (w.urs + 1) % 65536 }).pcieCount 5
      (ok → w.rd = true → u.poisoned at_ n = false → Completes (.windowRequest dt f off n false false []) s fun t => t = u.emit (.readData (mreads s.ram at_ n) true false)) ∧
      (ok → w.rd = true → u.poisoned at_ n = true → Completes (.windowRequest dt f off n false false []) s fun t =>
        t = (u.consume (u.fnDom f) at_ n).1.emit (.readData (mreads s.ram at_ n) true true)) ∧
      (ok → w.wr = true → s.mem.poison = [] → b.length = n →
        Completes (.windowRequest dt f off n true false b) s (fun t => t = { u with ram := mwrites s.ram at_ b }) ∧
        Completes (.windowRequest dt f off n true true b) s fun t => t = { u with ram := mwrites s.ram at_ b, mem.poison := wordsOf at_ n }) ∧
      (¬ ok ∨ w.rd = false → Completes (.windowRequest dt f off n false false []) s fun t => t = count.emit (.readData [] false false)) ∧
      (¬ ok ∨ w.wr = false → ∀ ep, Completes (.windowRequest dt f off n true ep b) s fun t => t = count)) ∧
    (∀ off n, u.pcie.linkA.up = false ∨ s.glb.mode = .recovery ∨ (u.pfn 0).romEn = false ∨ (u.pfn 0).mse = false ∨ (u.pfn 0).d3 = true ∨ 2 ^ 22 < off + n →
      Completes (.expansionRomRead dt off n) s fun t => t = (u.pcieCount 5).emit (.readData [] false false)) ∧
    (∀ off n, u.pcie.linkA.up = true → s.glb.mode ≠ .recovery → (u.pfn 0).romEn = true → (u.pfn 0).mse = true → (u.pfn 0).d3 = false → off + n ≤ 2 ^ 22 →
      (u.elapsed < s.pw.perstAt + ns 100000000 → Completes (.expansionRomRead dt off n) s fun t => t = u) ∧
      (s.pw.perstAt + ns 100000000 ≤ u.elapsed → s.firmware = true → (s.fn 0).inReset = true → Completes (.expansionRomRead dt off n) s fun t =>
        t = u.emit (.readData (zeros n) true false)) ∧
      (s.pw.perstAt + ns 100000000 ≤ u.elapsed → s.firmware = true → (s.fn 0).inReset = false → Completes (.expansionRomRead dt off n) s fun t =>
        t = u.emit (.readData ((List.range n).map (fun i => s.pcie.rom.getD (off + i) 255)) true false)) ∧
      (s.pw.perstAt + ns 100000000 ≤ u.elapsed → s.firmware = false → Completes (.expansionRomRead dt off n) s fun t =>
        t = u.emit (.readData (List.replicate n 255) true false))) ∧
    (∀ pf e w v, u.barOpen 0 = false ∨ u.pfOn pf = false ∨ 63 < e →
      Completes (.winCtrlRegWrite dt pf e v) s (fun t => t = u) ∧ Completes (.winAddressWrite dt pf e w v) s fun t => t = u) ∧
    (∀ pf e v, u.barOpen 0 = true → u.pfOn pf = true → e ≤ 63 →
      let f := pf * 4096
      let w := u.win f e
      let w1 := { w with seq := bits v 4 1, rd := v.testBit 5, wr := v.testBit 6, ignored := w.ignored && !v.testBit 9 }
      let good := w.target % pageSize = 0 ∧ 1 ≤ w.pages ∧ w.pages ≤ u.sliceOf f / pageSize ∧ w.target + w.pages * pageSize ≤ 2 ^ 32
      (v.testBit 0 = false → Completes (.winCtrlRegWrite dt pf e v) s fun t =>
        t = u.setWin f e { w1 with valid := false, drained := w.drained && !w.valid }) ∧
      (v.testBit 0 = true → good → Completes (.winCtrlRegWrite dt pf e v) s fun t => t = u.setWin f e { w1 with valid := true }) ∧
      (v.testBit 0 = true → ¬ good → Completes (.winCtrlRegWrite dt pf e v) s (Agree (u.pcieCount 6))) ∧
      (∀ n, w.valid = true → n ≤ 2 → Completes (.winAddressWrite dt pf e n v) s (Agree ((u.setWin f e { w with ignored := true }).pcieCount 6))) ∧
      (w.valid = false → v < 2 ^ 32 →
        Completes (.winAddressWrite dt pf e 0 v) s (fun t => t = u.setWin f e { w with target := w.target / 2 ^ 32 * 2 ^ 32 + v / 65536 * 65536 }) ∧
        Completes (.winAddressWrite dt pf e 1 v) s (fun t => t = u.setWin f e { w with target := w.target % 2 ^ 32 + v % 16 * 2 ^ 32 }) ∧
        Completes (.winAddressWrite dt pf e 2 v) s fun t => t = u.setWin f e { w with pages := v % 32768 })) ∧
    (∀ f e, (u.win f e).drained = true → Completes (.winDrained dt f e) s fun t => t = u) ∧
    (∀ f e, (u.win f e).drained = false → (u.win f e).waiting = [] → Completes (.winDrained dt f e) s fun t =>
      t = u.setWin f e { u.win f e with drained := true })) ∧
  (∀ p x q f e, u.Settled → Awaits u p x q 0x0904 → (u.win f e).drained = false → (u.win f e).waiting = [p] → Completes (.winDrained dt f e) s fun t =>
    t.Answered p q 0 [] ∧ Agree (u.setWin f e { u.win f e with drained := true, waiting := [] }) t) ∧
  (∀ p x q v e, v < 2 ^ 25 →
    let f := fnOf v
    let w := u.win f e
    let denied := fun (code : Nat) (t : State) => Agree u t ∧ t.Answered p q code []
    let first := fun (row : Instr) => (63 < e → Completes row s (denied 0x030000F1)) ∧ (e ≤ 63 → u.fnExists f = false → Completes row s (denied 0x02000004))
    (∀ tg pg, Issued u p x q 0x0903 4 (u.funcPerm v) → tg < 2 ^ 36 → pg < 2 ^ 15 →
      first (.winWrite dt p v e tg pg) ∧
      (e ≤ 63 → u.fnExists f = true → w.valid = false → Completes (.winWrite dt p v e tg pg) s fun t => t.Answered p q 0 [] ∧
        Agree (u.setWin f e { w with target := tg / 65536 * 65536, pages := pg }) t) ∧
      (e ≤ 63 → u.fnExists f = true → w.valid = true → Completes (.winWrite dt p v e tg pg) s fun t => t.Answered p q 0x020000F0 [] ∧
        Agree ((u.setWin f e { w with ignored := true }).pcieCount 6) t)) ∧
    (∀ on sq rd wr, Issued u p x q 0x0904 6 (u.funcPerm v) → on ≤ 1 → sq ≤ 15 → rd ≤ 1 → wr ≤ 1 →
      let w1 := { w with seq := sq, rd := rd == 1, wr := wr == 1 }
      first (.winCtrl dt p v e on sq rd wr) ∧
      (e ≤ 63 → u.fnExists f = true →
        (on = 1 → u.winGood f w = true → Completes (.winCtrl dt p v e on sq rd wr) s fun t => t.Answered p q 0 [] ∧ Agree (u.setWin f e { w1 with valid := true }) t) ∧
        (on = 1 → u.winGood f w = false → Completes (.winCtrl dt p v e on sq rd wr) s fun t => t.Answered p q 0x020000F1 [] ∧ Agree (u.pcieCount 6) t) ∧
        (on = 0 → w.valid = false → w.drained = true → Completes (.winCtrl dt p v e on sq rd wr) s fun t => t.Answered p q 0 [] ∧
          Agree (u.setWin f e { w1 with valid := false }) t) ∧
        (on = 0 → w.valid = true ∨ w.drained = false → Completes (.winCtrl dt p v e on sq rd wr) s fun t => t.Executing p q ∧
          Agree (u.setWin f e { w1 with valid := false, drained := false, waiting := w.waiting ++ [p] }) t))) ∧
    (Issued u p x q 0x0905 2 (u.funcPerm v) →
      first (.winRead dt p v e) ∧
      (e ≤ 63 → u.fnExists f = true → Completes (.winRead dt p v e) s fun t => Agree u t ∧
        t.Answered p q 0 [w.word 0 + 2 ^ 32 * w.word 1, w.word 2 + 2 ^ 32 * w.word 3])) ∧
    (∀ us, Issued u p x q 0x0902 2 (u.funcPerm v) →
      (us < 50 ∨ 64000 < us → Completes (.pcieCtoSet dt p v us) s (denied 0x030000F0)) ∧
      (50 ≤ us → us ≤ 64000 → u.fnExists f = false → Completes (.pcieCtoSet dt p v us) s (denied 0x02000004)) ∧
      (50 ≤ us → us ≤ 64000 → u.fnExists f = true → Completes (.pcieCtoSet dt p v us) s fun t => t.Answered p q 0 [] ∧ Agree (u.setPfn f { u.pfn f with ctoUs := us }) t)) ∧
    (∀ z, Issued u p x q 0x0906 2 .any →
      let sized := ∃ k ∈ List.range 15, z = 2 ^ (22 + k)
      (¬ sized → Completes (.pcieWinMax dt p v z) s (denied 0x030000F2)) ∧
      (sized → u.fnExists f = false → Completes (.pcieWinMax dt p v z) s (denied 0x02000004)) ∧
      (sized → u.fnExists f = true → u.winCeil (u.fnDom f) < z → Completes (.pcieWinMax dt p v z) s (denied 0x020000F2)) ∧
      (sized → u.fnExists f = true → z ≤ u.winCeil (u.fnDom f) → Completes (.pcieWinMax dt p v z) s fun t => t.Answered p q 0 [] ∧
        Agree (u.setPfn f { u.pfn f with winMaxNext := z }) t)) ∧
    (Issued u p x q 0x0901 1 (u.funcPerm v) →
      (u.fnExists f = false → Completes (.pcieStatus dt p v) s (denied 0x02000004)) ∧
      (u.fnExists f = true → Completes (.pcieStatus dt p v) s fun t => Agree u t ∧
        t.Answered p q 0 ([(u.pfn f).freezeReg, (u.pfn f).ctoUs, if (u.pfn f).d3 then 3 else 0] ++
          (if x.dom = 0 then u.linkRegs ++ [u.frozenReg, u.tagsReg] ++ u.pcie.counters else [])))))

/-- R336, R346, R348-R356, R359, R367: a packet that fails its checks is dropped and counted by its cause, one of a queue pair that does not work by that pair. A request in sequence is executed: a SEND takes a buffer
and is placed once it is whole, one too long or without a buffer is refused; a WRITE and an ATOMIC WRITE place their data, a READ answers it, an atomic changes and answers it, in a region that R359 lets it use; one that it
does not is counted, reported and answered with the syndrome of the first check that fails. A gap draws one NAK, and a duplicate its answer again. An ACK acknowledges, a sequence NAK goes back and any
other ends the oldest request with the queue pair in `ERROR`; an RNR NAK has its sender wait, or with none left ends it; a response is placed, and a bad one ends its request; a CNP slows the sender.
Conventions of the model that it rests on: notes/assumptions/6, 36, 84, 108, 165, 177. -/
def Obligations.RdmaPackets : Prop := ∀ (s : State) (dt fn : Nat),
  let u := s.elapse dt
  let rows : List (Nat × Instr) := [(0, .rdmaRequestPacket dt fn), (1, .rdmaAckReceived dt fn), (2, .rdmaNakReceived dt fn),
    (3, .rdmaRnrNakReceived dt fn), (4, .rdmaReadResponse dt fn), (5, .cnpReceived dt fn)]
  (∀ r ∈ rows, u.Plain →
    (u.glb.mode = .lockdown ∨ u.mute fn = true ∨ tget u.rdma.intake fn [] = [] → Completes r.2 s fun t => t = u.settle) ∧
    (∀ f more, tget u.rdma.intake fn [] = f :: more → pktClass f ≠ r.1 → Completes r.2 s fun t => t = u.settle) ∧
    (∀ f, u.glb.mode ≠ .lockdown → u.mute fn = false → tget u.rdma.intake fn [] = [f] → pktClass f = r.1 →
      let drops := fun (i : Nat) => Completes r.2 s fun t => t = ((u.taken fn).rdmaCount i).received
      (roceOf f.data = none → drops 3) ∧
      (∀ dip ecn b, roceOf f.data = some (dip, ecn, b, false) → drops 2) ∧
      (∀ dip ecn b, roceOf f.data = some (dip, ecn, b, true) →
        let n := bthQpn b % 2 ^ 20
        let quiet := u.rdma.qpFree.any (fun x => x.num == n && !x.free && u.elapsed < x.ends) = true
        (quiet → bthQpn b / 2 ^ 20 = 1 → drops 4) ∧
        (¬ quiet ∨ bthQpn b / 2 ^ 20 ≠ 1 → u.qp? n = none → drops 3) ∧
        (∀ q, ¬ quiet ∨ bthQpn b / 2 ^ 20 ≠ 1 → u.qp? n = some q → bthQpn b / 2 ^ 20 ≠ 1 ∨ q.fn ≠ fn ∨ u.gidOk f.port dip q.dom = false → drops 3) ∧
        (∀ q, ¬ quiet → u.qp? n = some q → bthQpn b / 2 ^ 20 = 1 → q.fn = fn → u.gidOk f.port dip q.dom = true → u.ctx? (ctxKey 1 q.dom n) = none →
          q.state ∈ [.reset, .init, .error] → r.1 ≠ 5 → Completes r.2 s fun t => t = ((u.taken fn).setQp n (q.bump 0)).received)))) ∧
  (∀ n f b q,
    let v := ((u.taken fn).ctxNeed (ctxKey 1 q.dom n)).2
    let psn := bthPsn b
    let op := bthOp b
    let nak := fun (x : State) (syn p : Nat) => (x.sendNak n syn p).received
    (Arrives u fn 0 n f b q →
      let row := Instr.rdmaRequestPacket dt fn
      (0 < psnDiff psn q.expPsn → psnDiff psn q.expPsn < 2 ^ 23 →
        (q.nakked = true → Completes row s fun t => t = v.received) ∧
        (q.nakked = false → Completes row s fun t => t = nak ((v.setQp n { q with nakked := true }).rdmaCount 5) 0x60 q.expPsn)) ∧
      (2 ^ 23 ≤ psnDiff psn q.expPsn →
        (op ≤ 0x0B → Completes row s fun t => t = (v.sendAck n).received) ∧
        (∀ a, op = 0x13 ∨ op = 0x14 → q.atomics.find? (fun x => x.1 == psn) = some a → Completes row s fun t =>
          t = ((v.setQp n { q with resps := q.resps ++ [{ kind := 2, psn := psn, msn := q.msn, data := be a.2 8 }] }).drainAll n).received)) ∧
      (psn = q.expPsn → psn < 2 ^ 24 → q.msg = none →
        (op ∈ [1, 2, 3, 7, 8, 9] → Completes row s fun t => t = nak v 0x61 psn) ∧
        (op ∈ [0, 4] → v.recvBuf q = none → Completes row s fun t => t = (((v.rdmaCount 9).sendNak n (0x20 + q.attr.minRnr) psn).rdmaEvent q.fn n 7 0 0 0).received) ∧
        (∀ d, op ∈ [0, 4] → v.recvBuf q = some d →
          let body := bodyAfter b 12
          let w := v.setRing q.recvRing ((v.ring q.recvRing).onDesc d.idx (fun y => { y with started := true }))
          (body.length ≤ d.len → op = 0 → Completes row s fun t =>
            t = ((w.setQp n { q with msg := some { op := 0, buf := some d.idx, data := body, got := body.length } }).executed n 1 false (bthAck b)).received) ∧
          (body.length ≤ d.len → op = 0 → bthAck b = false → q.unacked < 15 → Completes row s fun t =>
            t = (w.setQp n { q with
              msg := some { op := 0, buf := some d.idx, data := body, got := body.length }
              expPsn := (q.expPsn + 1) % 2 ^ 24, nakked := false, unacked := q.unacked + 1
              ackAt := some (q.ackAt.getD (u.elapsed + ns 4096)) }).received) ∧
          (body.length ≤ d.len → op = 4 → d.type < 0x30 ∨ body = [] ∨ u.cisternOk q.dom d.addr body.length = true → Completes row s fun t =>
            t = (((w.setQp n q).recvEnd n q d f body none (bthSe b) false).executed n 1 true (bthAck b)).received) ∧
          (d.len < body.length → Completes row s fun t => t = nak (((w.setQp n q).descEnd q.recvRing d.idx 0x27).runs q.recvRing) 0x61 psn)) ∧
        (op ∈ [0x0A, 0x0C, 0x13, 0x14, 0x1D] →
          let va := ofBe (slice b 12 8)
          let key := ofBe (slice b 20 4)
          let atomic := op ∈ [0x13, 0x14, 0x1D]
          let len := if atomic then 8 else ofBe (slice b 24 4)
          let right := if op = 0x0C then 0 else if op = 0x13 ∨ op = 0x14 then 2 else 1
          let refused := fun (x : State) (syn cause : Nat) => Completes row s fun t => t = nak ((x.rdmaCount 11).rdmaEvent q.fn n cause syn key va) syn psn
          (v.mr? key = none → refused v 0x62 2) ∧
          (∀ m, v.mr? key = some m →
            (m.key ≠ key → refused (v.rdmaCount 12) 0x62 2) ∧
            (m.key = key → m.closing.isSome = true → refused { v with rdma.mrs := tset s.rdma.mrs (key / 256) { m with refused := m.refused + 1 } } 0x62 1) ∧
            (m.key = key → m.closing = none →
              m.fn ≠ q.fn ∨ m.pd ≠ q.attr.pd ∨ m.rights.testBit right = false ∨ va < m.va ∨ m.va + m.len < va + len ∨ (atomic ∧ va % 8 ≠ 0) → refused v 0x62 3) ∧
            (m.key = key → m.closing = none → m.fn = q.fn → m.pd = q.attr.pd → m.rights.testBit right = true → m.va ≤ va → va + len ≤ m.va + m.len → (atomic → va % 8 = 0) →
              let at_ := cisternAt q.dom (m.addr + (va - m.va))
              let there := v.cisternOk q.dom (m.addr + (va - m.va)) len
              let next := (q.msn + 1) % 2 ^ 24
              let moved := { q with msn := next, nakked := false, unacked := 0, ackAt := none }
              let packets := max 1 (ceilDiv len q.attr.mtu)
              (op = 0x13 ∨ op = 0x14 → m.space = 0 → Completes row s fun t => t = nak (v.rdmaCount 11) 0x61 psn) ∧
              (m.space = 1 → 0 < len → there = false → op ≠ 0x0A ∨ (bodyAfter b 28).length = len → Completes row s fun t => t = nak v 0x63 psn) ∧
              (m.space = 1 → there = true → s.mem.poison = [] → s.mem.bad = [] →
                (op = 0x0A → (bodyAfter b 28).length = len → Completes row s fun t =>
                  t = (({ v with ram := mwrites s.ram at_ (bodyAfter b 28) }.setQp n q).executed n 1 true (bthAck b)).received) ∧
                (op = 0x1D → (slice b 28 8).length = 8 → Completes row s fun t => t = ({ v with ram := mwrites s.ram at_ (slice b 28 8) }.executed n 1 true (bthAck b)).received) ∧
                (op = 0x0C → Completes row s fun t =>
                  t = ((v.setQp n { moved with
                    expPsn := (q.expPsn + packets) % 2 ^ 24
                    resps := q.resps ++ [{ kind := 1, psn := psn, msn := next, data := mreads s.ram at_ len }] }).drainAll n).received) ∧
                (op = 0x13 ∨ op = 0x14 →
                  let old := ofLe (mreads s.ram at_ 8)
                  let swap := ofBe (slice b 24 8)
                  let new := if op = 0x13 then (if old = ofBe (slice b 32 8) then swap else old) else (old + swap) % 2 ^ 64
                  Completes row s fun t => t = (({ v with ram := mwrites s.ram at_ (le new 8) }.setQp n { moved with
                    expPsn := (q.expPsn + 1) % 2 ^ 24, atomics := ((q.atomics ++ [(psn, old)]).reverse.take q.attr.maxDest).reverse
                    resps := q.resps ++ [({ kind := 2, psn := psn, msn := next, data := be old 8 } : RResp)] }).drainAll n).received)) ∧
              (op = 0x0C → m.space = 0 → 0 < len → Completes row s fun t =>
                t = (({ v with rdma.serial := u.rdma.serial + 1 }.setQp n { moved with
                  expPsn := (q.expPsn + packets) % 2 ^ 24
                  resps := q.resps ++ [({ kind := 1, psn := psn, msn := next, waits := some u.rdma.serial, need := len, region := some (key / 256) } : RResp)] }).hread
                    m.fn 7 n (m.addr + (va - m.va)) len u.rdma.serial).received)))))) ∧
    (Arrives u fn 1 n f b q →
      let row := Instr.rdmaAckReceived dt fn
      (q.awaits psn = false → Completes row s fun t => t = v.received) ∧
      (∀ r, q.reqs = [r] → r.op < 4 → r.first = some q.ackPsn → q.ackPsn < 2 ^ 24 → q.sendPsn = q.nextPsn → psn = q.ackPsn →
        (r.psns = 2 → q.nextPsn = (q.ackPsn + 2) % 2 ^ 24 → Completes row s fun t =>
          t = (v.setQp n { q with
            ackPsn := (q.ackPsn + 1) % 2 ^ 24, retries := q.attr.retry, rnrs := q.attr.rnrRetry
            timer := if q.attr.timeout = 0 then none else some (u.elapsed + ns (2 ^ (12 + q.attr.timeout))) }).received) ∧
        (∀ k i, r.psns = 1 → q.nextPsn = (q.ackPsn + 1) % 2 ^ 24 → r.owner = .ring k i → Completes row s fun t =>
          t = ((((v.setQp n { q with reqs := [], ackPsn := q.nextPsn, retries := q.attr.retry, rnrs := q.attr.rnrRetry, timer := none }).descEnd k i 0).runs k).pumpQp n).received))) ∧
    (let error := fun (x : State) (st k i : Nat) => (((x.setQp n { q with
        state := .error, reqs := [], timer := none, rnrAt := none, sendPsn := q.nextPsn, ackPsn := q.nextPsn, resps := [], ackAt := none, unacked := 0 }).descEnd k i st).runs
        k).rdmaEvent q.fn n 4 0 0 0
    (Arrives u fn 2 n f b q →
      let row := Instr.rdmaNakReceived dt fn
      let code := (b.getD 12 0).toNat % 32
      (code = 0 → psnDiff q.nextPsn q.ackPsn < psnDiff psn q.ackPsn → Completes row s fun t => t = (v.rdmaCount 6).received) ∧
      (∀ k, code = 0 → psn = q.ackPsn → q.ackPsn < 2 ^ 24 → q.backAt ≠ some u.elapsed → u.timerFires q.timer = false → q.retries = k + 1 → Completes row s fun t =>
        t = ((((v.rdmaCount 6).setQp n { q with
          retries := k, sendPsn := psn
          timer := if q.attr.timeout = 0 then none else some (u.elapsed + ns (2 ^ (12 + q.attr.timeout))) }).rdmaCount 7).pumpQp n).received) ∧
      (code = 0 → psn = q.ackPsn → q.ackPsn < 2 ^ 24 → q.backAt = some u.elapsed → Completes row s fun t => t = (v.rdmaCount 6).received) ∧
      (code ≠ 0 → q.awaits psn = false → Completes row s fun t => t = v.received) ∧
      (∀ r k i, code ≠ 0 → psn = q.ackPsn → q.ackPsn < 2 ^ 24 → q.awaits psn = true → q.msg = none → q.reqs = [r] → r.owner = .ring k i → Completes row s fun t =>
        t = (error v (if code = 1 then 0x23 else if code = 2 then 0x22 else if code = 3 then 0x24 else 0x28) k i).received)) ∧
    (Arrives u fn 3 n f b q →
      let row := Instr.rdmaRnrNakReceived dt fn
      (q.awaits psn = false → Completes row s fun t => t = (v.rdmaCount 10).received) ∧
      (psn = q.ackPsn → q.ackPsn < 2 ^ 24 → q.awaits psn = true → q.attr.rnrRetry = 7 ∨ 0 < q.rnrs → Completes row s fun t =>
        t = ((v.rdmaCount 10).setQp n { q with
          rnrs := if q.attr.rnrRetry = 7 then q.rnrs else q.rnrs - 1, sendPsn := psn, timer := none
          rnrAt := some (u.elapsed + ns (rnrTime ((b.getD 12 0).toNat % 32) * 10000)) }).received) ∧
      (∀ r k i, psn = q.ackPsn → q.ackPsn < 2 ^ 24 → q.awaits psn = true → q.attr.rnrRetry ≠ 7 → q.rnrs = 0 → q.msg = none → q.reqs = [r] → r.owner = .ring k i → Completes row s fun t =>
        t = (error (v.rdmaCount 10) 0x26 k i).received)) ∧
    (Arrives u fn 4 n f b q → ∀ r, q.reqs = [r] → r.op = 4 → r.answered = false → r.got = 0 → r.first = some q.ackPsn →
      q.ackPsn < 2 ^ 24 → psn = q.ackPsn → q.sendPsn = q.nextPsn → 0 < q.attr.mtu →
      let row := Instr.rdmaReadResponse dt fn
      let body := bodyAfter b 16
      (∀ c i, r.owner = .stor c i → r.psns = 2 → q.nextPsn = (q.ackPsn + 2) % 2 ^ 24 → op = 0x0D → body.length = q.attr.mtu → q.attr.mtu ≤ r.len → Completes row s fun t =>
        t = (v.setQp n { q with reqs := [{ r with data := r.data ++ body, got := q.attr.mtu }] }).received) ∧
      (∀ k i, r.owner = .ring k i → r.psns = 1 → q.nextPsn = (q.ackPsn + 1) % 2 ^ 24 → op = 0x10 → body.length = r.len → 0 < r.len → r.len ≤ q.attr.mtu → r.space = 1 →
        u.cisternOk q.dom r.addr r.len = true → s.mem.poison = [] → s.mem.bad = [] → Completes row s fun t =>
        t = (((({ v with ram := mwrites s.ram (cisternAt q.dom r.addr) body }.setQp n { q with
          reqs := [], ackPsn := q.nextPsn, retries := q.attr.retry, rnrs := q.attr.rnrRetry, timer := none }).descEnd k i 0).runs k).pumpQp n).received) ∧
      (∀ k i, r.owner = .ring k i → r.psns = 1 → q.msg = none → op = 0x12 ∨ (op = 0x10 ∧ r.len ≤ q.attr.mtu ∧ body.length ≠ r.len) → Completes row s fun t =>
        t = (error v 0x28 k i).received))) ∧
    (Arrives u fn 5 n f b q →
      ((u.ccOf q.dom).en = false → Completes (.cnpReceived dt fn) s fun t => t = (v.rdmaCount 14).received) ∧
      ((u.ccOf q.dom).en = true → Completes (.cnpReceived dt fn) s fun t =>
        let rate := q.rate.getD (u.portKbps q.attr.port)
        t = ((v.rdmaCount 14).setQp n { q with
          rate := some (max ((u.ccOf q.dom).min * 1000) (rate - rate / 2 ^ (u.ccOf q.dom).dec)), slowed := true }).received)))

/-- R342, R352-R354, R356, R358, R360, R363: what is due with time, and nothing before. An ACK timer goes back once more, or with no retry left ends the oldest request with the queue pair; an RNR wait ends; an acknowledgement that is due
stands behind the answers before it; a paced packet goes out at its time; at a grid point rates rise and new settings are taken; a number
becomes free once its quiet period has ended, and a closing region goes once nothing uses it and its last host write has been asked for, with the refusals counted.
Conventions of the model that it rests on: notes/assumptions/36, 115, 177. -/
def Obligations.RdmaTimes : Prop := ∀ (s : State) (dt n : Nat),
  let u := s.elapse dt
  (u.Plain →
    (u.qp? n = none → ∀ i ∈ [Instr.ackTimerExpiry dt n, .rnrTimerExpiry dt n, .responderAckTimer dt n, .rdmaPacedEnqueue dt n],
      Completes i s fun t => t = u) ∧
    (u.rdmaOn = false → ∀ i ∈ [Instr.ackTimerExpiry dt n, .rnrTimerExpiry dt n, .responderAckTimer dt n, .rdmaPacedEnqueue dt n, .ccRateIncrease dt],
      Completes i s fun t => t = u) ∧
    (∀ q, u.qp? n = some q →
      (u.timerFires q.timer = false ∨ q.state ∉ [.rts, .sqd] → Completes (.ackTimerExpiry dt n) s fun t => t = u) ∧
      (u.timerFires q.rnrAt = false → Completes (.rnrTimerExpiry dt n) s fun t => t = u) ∧
      (q.unacked = 0 ∨ q.ackAt = none ∨ (∃ a ∈ q.ackAt, u.elapsed < a) → Completes (.responderAckTimer dt n) s fun t => t = u) ∧
      ((u.ccOf q.dom).en = false ∨ u.elapsed < q.nextAt → Completes (.rdmaPacedEnqueue dt n) s fun t => t = u) ∧
      (u.rdmaOn = true →
        (q.state ∈ [.rts, .sqd] → u.timerFires q.timer = true →
          (∀ k, q.retries = k + 1 → Completes (.ackTimerExpiry dt n) s fun t =>
            t = ((((u.rdmaCount 8).setQp n { q with
              backAt := some u.elapsed, retries := k, sendPsn := q.ackPsn
              timer := if q.attr.timeout = 0 then none else some (u.elapsed + ns (2 ^ (12 + q.attr.timeout))) }).rdmaCount 7).pumpQp n).settle) ∧
          (∀ r k i, q.retries = 0 → q.msg = none → q.reqs = [r] → r.owner = .ring k i → Completes (.ackTimerExpiry dt n) s fun t =>
            t = (((((u.rdmaCount 8).setQp n { q with
              backAt := some u.elapsed, state := .error, reqs := [], timer := none, rnrAt := none, sendPsn := q.nextPsn, ackPsn := q.nextPsn, resps := [], ackAt := none
              unacked := 0 }).descEnd k i 0x25).runs k).rdmaEvent q.fn n 4 0 0 0).settle)) ∧
        (u.timerFires q.rnrAt = true → Completes (.rnrTimerExpiry dt n) s fun t =>
          t = (((u.setQp n { q with rnrAt := none }).rdmaCount 7).pumpQp n).settle) ∧
        (∀ at_, q.ackAt = some at_ → at_ ≤ u.elapsed → 0 < q.unacked → Completes (.responderAckTimer dt n) s fun t =>
          t = (u.setQp n { q with
            unacked := 0, ackAt := none
            resps := q.resps ++ [{ kind := 0, psn := (q.expPsn + 2 ^ 24 - 1) % 2 ^ 24, msn := q.msn, syndrome := 0x1F }] }).drainAll n) ∧
        ((u.ccOf q.dom).en = true → q.nextAt ≤ u.elapsed →
          (q.state ∉ [.rts, .sqd] ∨ u.mute q.fn = true → Completes (.rdmaPacedEnqueue dt n) s fun t => t = u.settle) ∧
          (∀ at_ r, q.rate = some at_ → 0 < at_ → q.state = .rts → q.rnrAt = none → q.reqs = [r] → r.op < 4 → r.psns = 1 →
            r.first = some q.sendPsn → q.ackPsn = q.sendPsn → q.sendPsn < 2 ^ 24 → q.nextPsn = (q.sendPsn + 1) % 2 ^ 24 → u.mute q.fn = false →
            (u.ctxNeed (ctxKey 1 q.dom n)).1 = true →
            Completes (.rdmaPacedEnqueue dt n) s fun t => t = ((u.ctxNeed (ctxKey 1 q.dom n)).2.sendAt n 0 r).settle ∧ ∃ y, t.qp? n = some y ∧ y.sendPsn = q.nextPsn ∧ u.elapsed < y.nextAt)))) ∧
    (u.now / grid 16 ≤ s.rdma.ccGrid → Completes (.ccRateIncrease dt) s fun t => t = u) ∧
    (u.rdmaOn = true → s.rdma.ccGrid < u.now / grid 16 → s.rdma.ccPend = [] → Completes (.ccRateIncrease dt) s fun t =>
      t = { u with
        rdma.ccGrid := u.now / grid 16
        rdma.qps := tmap s.rdma.qps (fun q => if q.slowed = true ∨ q.rate = none then { q with slowed := false } else
          let up := q.rate.getD 0 + (u.ccOf q.dom).ai * 1000
          { q with rate := if up ≥ u.portKbps q.attr.port then none else some up }) }) ∧
    (Completes (.qpnQuietEnd dt) s fun t =>
      t = { u with rdma.qpFree := s.rdma.qpFree.map (fun x => { x with free := x.free || decide (x.ends ≤ u.elapsed) }) }) ∧
    ((tget? s.rdma.mrs n).all (fun m => m.closing.isNone || m.asking) = true ∨ u.mrBusy n = true → Completes (.mrDrainComplete dt n) s fun t => t = u) ∧
    (∀ m a, tget? s.rdma.mrs n = some m → m.closing.isSome = true → u.mrBusy n = false → m.asking = false → m.wrote = some a → Completes (.mrDrainComplete dt n) s fun t =>
      t = { u with rdma.mrs := tset s.rdma.mrs n { m with asking := true } }.hread m.fn 11 0 a 0 n)) ∧
  (∀ p x q c, u.Settled → s.rdma.ccPend = [(p, c)] → u.rdmaOn = true → s.rdma.ccGrid < u.now / grid 16 → s.rdma.qps.all (fun y => y.2.rate == none && !y.2.slowed) = true →
    Awaits u p x q 0x0A0B → Completes (.ccRateIncrease dt) s fun t => t.Answered p q 0 [] ∧
      Agree { u with rdma.ccGrid := u.now / grid 16, rdma.ccPend := [], rdma.cc := tset s.rdma.cc c.1 c.2 } t) ∧
  (∀ p x q m, u.Settled → tget? s.rdma.mrs n = some m → m.closing = some p → u.mrBusy n = false → m.asking = false → m.wrote = none → Awaits u p x q 0x0A08 →
    Completes (.mrDrainComplete dt n) s fun t => t.Answered p q 0 [m.refused] ∧
      Agree { u with rdma.mrs := tdel s.rdma.mrs n, rdma.mrFree := s.rdma.mrFree ++ [n], rdma.mrKeys := tset s.rdma.mrKeys n (m.key % 256) } t)

/-- R340-R343, R357-R360, R363, R365, R366: queue pairs are created, changed along R342 alone, read and destroyed by command, with a quiet period
for the number; regions are registered with a key one above the index's last, queried, and closed in two phases; event rings, addresses,
quotas, congestion settings and the quiet period are set within their bounds; each command answers its refusals in order, and changes nothing else. R295-R297: a context that has come back is resident, one whose
fetch or write-back fails has failed. Conventions of the model that it rests on: notes/assumptions/36, 92, 94, 111, 112, 113, 165, 177. -/
def Obligations.RdmaCommands : Prop := ∀ (s : State) (dt : Nat) (p : Path) (x : Session) (q : TReq),
  let u := s.elapse dt
  let denied := fun (code : Nat) (t : State) => Agree u t ∧ t.Answered p q code []
  (∀ f n, Issued u p x q 0x0A01 2 (u.funcPerm f) → f < 2 ^ 25 → n < 1024 →
    let k := rkey (fnOf f) n
    ((u.ring k).enable = false ∨ (u.ring k).kind ≠ 3 → Completes (.rdmaFnConfig dt p f n) s (denied 0x02000100)) ∧
    ((u.ring k).enable = true → (u.ring k).kind = 3 → Completes (.rdmaFnConfig dt p f n) s fun t => t.Answered p q 0 [] ∧
      Agree { u with rdma.eventRings := tset s.rdma.eventRings (fnOf f) k } t)) ∧
  (∀ port i a d, Issued u p x q 0x0A02 5 (.port port) → port < 24 → d < 16 →
    (15 < i → Completes (.rdmaGidSet dt p port i a d) s (denied 0x03000100)) ∧
    (i ≤ 15 → u.portCount ≤ port → Completes (.rdmaGidSet dt p port i a d) s (denied 0x02000041)) ∧
    (i ≤ 15 → port < u.portCount → Completes (.rdmaGidSet dt p port i a d) s fun t => t.Answered p q 0 [] ∧
      Agree { u with rdma.gids := tset s.rdma.gids (port * 16 + i) (a, d) } t)) ∧
  (∀ fc a b n, Issued u p x q 0x0A03 4 (u.funcPerm fc) → fc < 2 ^ 25 → a < 1024 → b < 1024 → n < 32768 →
    let f := fnOf fc
    let d := u.fnDom f
    let row := Instr.qpCreate dt p fc a b n
    let role := fun (k : Nat) (send : Bool) => (u.ring k).enable = true ∧ (u.ring k).engine = 3 ∧ (u.ring k).kind < 2 ∧
      (s.rdma.qps.all fun y => y.2.storage.isSome || (if send then y.2.recvRing else y.2.sendRing) != k) = true
    let rings := a ≠ b ∧ role (rkey f a) true ∧ role (rkey f b) false
    let queue := u.queueDom n = some d ∧ (u.queue n).cfg.kind = 1
    (¬ rings → Completes row s (denied 0x02000101)) ∧
    (rings → ¬ queue → Completes row s (denied 0x02000102)) ∧
    (rings → queue →
      ((u.qpRangeOf d).2 ≤ (s.rdma.qps.filter (fun y => inRange (u.qpRangeOf d) y.1)).length ∨ u.ctxRoom 1 d = false → Completes row s (denied 0x02000103)) ∧
      (u.newQpn d = .error 0x01000100 → Completes row s (denied 0x01000100)) ∧
      (∀ r, u.newQpn d = .ok r → Completes row s fun t => t.Answered p q 0 [r] ∧
        Agree (({ u with rdma.qpFree := s.rdma.qpFree.filter (fun y => y.num != r) }.setQp r
          { fn := f, dom := d, sendRing := rkey f a, recvRing := rkey f b, queue := n }).ctxNew (ctxKey 1 d r)) t) ∧
      (∀ r m, u.qpRangeOf d = (r, m + 1) → s.rdma.qps = [] → s.rdma.qpFree = [] → s.rm.ctxs = [] → u.ctxRoom 1 d = true → 0 < u.lines d 1 → d < 16 → r < 2 ^ 20 →
        Completes row s fun t => t.Answered p q 0 [r] ∧
          t.qp? r = some { fn := f, dom := d, sendRing := rkey f a, recvRing := rkey f b, queue := n } ∧
          t.ctx? (ctxKey 1 d r) = some { used := s.rm.clock }))) ∧
  (∀ n to_ attrs, Issued u p x q 0x0A04 (3 + 2 * attrs.length + (attrs.filter (fun a => a.1 == 4)).length) (u.qpPerm n) → n < 2 ^ 20 → to_ ≤ 5 →
    let row := Instr.qpModify dt p n to_ attrs
    (u.qp? n = none → Completes row s (denied 0x02000104)) ∧
    (∀ y, u.qp? n = some y →
      let unfit := attrs.any (fun a => !(attrsFor y.state to_).contains a.1 || attrBad a.1 a.2) = true ∨
        (attrsNeeded y.state to_).any (fun a => !attrs.any (fun b => b.1 == a)) = true ∨
        (to_ = 1 ∧ attrs.any (fun a => a.1 == 0 && decide (a.2 < 24) && (decide (u.portCount ≤ a.2) || u.portIn a.2 y.dom)) = false)
      let gone := to_ = 1 ∧ attrs.any (fun a => a.1 == 0 && decide (u.portCount ≤ a.2)) = true
      let moves := to_ = 0 ∨ to_ = 5 ∨ (to_ = 1 ∧ y.state = .reset) ∨ (to_ = 2 ∧ y.state = .init) ∨ (to_ = 3 ∧ y.state ∈ [.rtr, .sqd]) ∨ (to_ = 4 ∧ y.state = .rts)
      (unfit → Completes row s (denied 0x03000101)) ∧
      (¬ unfit → y.storage.isSome = true → Completes row s (denied 0x02000110)) ∧
      (¬ unfit → y.storage = none → ¬ moves ∨ gone → Completes row s (denied 0x02000104)) ∧
      (¬ unfit → y.storage = none → ¬ gone → u.stor.ended = [] →
        (∀ port pd, to_ = 1 → y.state = .reset → attrs = [(0, port), (1, pd)] → Completes row s fun t => t.Answered p q 0 [] ∧
          Agree (u.setQp n { y with state := .init, attr := { y.attr with port := port, pd := pd, timeout := 14, retry := 7, rnrRetry := 7, maxRd := 16 } }) t) ∧
        (to_ = 2 → y.state = .init → Completes row s fun t => t.Answered p q 0 [] ∧
          let base : QpAttr := { port := y.attr.port, pd := y.attr.pd, txPsn := y.attr.txPsn, timeout := y.attr.timeout, retry := y.attr.retry, rnrRetry := y.attr.rnrRetry, maxRd := y.attr.maxRd }
          let z := (attrs.filter (fun a => a.1 == 10) ++ attrs.filter (fun a => a.1 != 10)).foldl (fun x a => x.put a.1 a.2) base
          Agree (u.setQp n { y with state := .rtr, attr := z, expPsn := z.rxPsn }) t) ∧
        (∀ psn, to_ = 3 → y.state = .rtr → attrs = [(17, psn)] → y.reqs = [] → Completes row s fun t => t.Answered p q 0 [] ∧
          Agree (u.setQp n { y with
            state := .rts, attr := { y.attr with txPsn := psn, timeout := 14, retry := 7, rnrRetry := 7, maxRd := 16 }, nextPsn := psn, sendPsn := psn, ackPsn := psn
            retries := 7, rnrs := 7, drained := false }) t) ∧
        (to_ = 3 → y.state = .sqd → y.reqs = [] → y.sendPsn = y.nextPsn → Completes row s fun t => t.Answered p q 0 [] ∧
          Agree (u.setQp n { y with state := .rts, drained := false }) t) ∧
        (to_ = 4 → y.state = .rts → y.reqs.any (fun r => r.first.isSome) = true → Completes row s fun t => t.Answered p q 0 [] ∧
          Agree (u.setQp n { y with state := .sqd, drained := false }) t) ∧
        (to_ = 4 → y.state = .rts → y.reqs.any (fun r => r.first.isSome) = false → Completes row s fun t => t.Answered p q 0 [] ∧
          Agree ((u.setQp n { y with state := .sqd, drained := true }).rdmaEvent y.fn n 6 0 0 0) t) ∧
        (to_ = 0 → y.reqs = [] → y.msg = none → Completes row s fun t => t.Answered p q 0 [] ∧
          Agree (u.setQp n { y with
            state := .reset, nextPsn := 0, sendPsn := 0, ackPsn := 0, expPsn := 0, msn := 0, nakked := false, unacked := 0, ackAt := none
            resps := [], wrote := none, atomics := [], rate := none, drained := false, timer := none, rnrAt := none }) t) ∧
        (∀ rs, to_ = 0 ∨ to_ = 5 → y.reqs = rs → y.msg = none → rs.all (fun r => match r.owner with | .ring _ _ => true | _ => false) = true → Completes row s fun t => t.Answered p q 0 [] ∧
          ∃ z, t.qp? n = some z ∧ z.state = (if to_ = 0 then .reset else .error) ∧ z.attr = y.attr ∧ z.reqs = [] ∧ z.resps = []) ∧
        (to_ = 5 → y.reqs = [] → y.msg = none → Completes row s fun t => t.Answered p q 0 [] ∧
          Agree (u.setQp n { y with
            state := .error, sendPsn := y.nextPsn, ackPsn := y.nextPsn, timer := none, rnrAt := none, resps := [], ackAt := none, unacked := 0 }) t)))) ∧
  (∀ n, Issued u p x q 0x0A05 1 (u.qpPerm n) → n < 2 ^ 20 →
    (u.qp? n = none → Completes (.qpQuery dt p n) s fun t => Agree u t ∧ t.Answered p q 0 [0xFF]) ∧
    (∀ y, u.qp? n = some y → Completes (.qpQuery dt p n) s fun t => Agree u t ∧ let a := y.attr
      t.Answered p q 0 ([y.state.code, a.port, a.pd, a.dqpn, a.dmac, a.dip / 2 ^ 64, a.dip % 2 ^ 64, a.gid, a.sport, a.dscp, a.hop, a.label, if a.vlan = none then 0 else 1, a.vlan.getD 0,
        if a.ecn then 1 else 0, a.rxPsn, a.mtu, a.maxDest, a.minRnr, a.txPsn, a.timeout, a.retry, a.rnrRetry, a.maxRd,
        y.expPsn, y.nextPsn, y.sendPsn, y.ackPsn, y.retries, y.rnrs, y.rate.getD (u.portKbps a.port)] ++ y.counters))) ∧
  (∀ n, Issued u p x q 0x0A06 1 (u.qpPerm n) → n < 2 ^ 20 →
    (u.qp? n = none → u.stor.ended = [] → Completes (.qpDestroy dt p n) s fun t => Agree u t ∧ t.Answered p q 0 []) ∧
    (∀ y, u.qp? n = some y → y.storage.isSome = true → Completes (.qpDestroy dt p n) s (denied 0x02000110)) ∧
    (∀ y, u.qp? n = some y → y.storage = none → y.reqs = [] → y.msg = none → u.stor.ended = [] → Completes (.qpDestroy dt p n) s fun t =>
      t.Answered p q 0 [] ∧ Agree ({ u with
        rdma.qps := tdel s.rdma.qps n
        rdma.qpFree := s.rdma.qpFree ++ [({ num := n, ends := u.elapsed + ns (2 ^ s.rdma.quietLog), free := false } : QpFree)] }.ctxGone (ctxKey 1 y.dom n)) t) ∧
    (∀ y r k i, u.qp? n = some y → y.storage = none → y.reqs = [r] → r.owner = .ring k i → y.msg = none → u.stor.ended = [] → Completes (.qpDestroy dt p n) s fun t =>
      t.Answered p q 0 [] ∧ t.qp? n = none)) ∧
  (∀ fc pd sp a l va rt, Issued u p x q 0x0A07 7 (u.funcPerm fc) → fc < 2 ^ 25 → pd < 65536 → rt < 32 →
    let f := fnOf fc
    let row := Instr.mrRegister dt p fc pd sp a l va rt
    let form := 0 < l ∧ l ≤ 2 ^ 40 ∧ (sp = 0 ∨ (sp = 1 ∧ rt.testBit 4 = false ∧ a + l ≤ 2 ^ 36))
    let room := u.mrUsed (u.fnDom f) < u.mrQuotaOf (u.fnDom f) ∧ (s.rdma.mrNext < 1048576 ∨ s.rdma.mrFree ≠ [])
    let made := fun (i key : Nat) (v : State) =>
      { v with rdma.mrs := tset s.rdma.mrs i { fn := f, pd := pd, space := sp, addr := a, len := l, va := va, rights := rt, key := key } }
    (¬ form → Completes row s (denied 0x03000102)) ∧
    (form → ¬ room → Completes row s (denied 0x02000105)) ∧
    (form → room → 2 ^ 64 < a + l → Completes row s (denied 0x02000106)) ∧
    (form → room → a + l ≤ 2 ^ 64 →
      (∀ prev, s.rdma.mrNext < 1048576 → tget? s.rdma.mrKeys s.rdma.mrNext = some prev → Completes row s fun t =>
        let key := s.rdma.mrNext * 256 + (prev + 1) % 256
        t.Answered p q 0 [key] ∧ Agree (made s.rdma.mrNext key { u with rdma.mrNext := s.rdma.mrNext + 1 }) t) ∧
      (s.rdma.mrNext < 1048576 → tget? s.rdma.mrKeys s.rdma.mrNext = none → Completes row s fun t => ∃ byte, byte < 256 ∧
        t.Answered p q 0 [s.rdma.mrNext * 256 + byte] ∧ Agree (made s.rdma.mrNext (s.rdma.mrNext * 256 + byte) { u.used with rdma.mrNext := s.rdma.mrNext + 1 }) t) ∧
      (∀ i more prev, 1048576 ≤ s.rdma.mrNext → s.rdma.mrFree = i :: more → tget? s.rdma.mrKeys i = some prev → Completes row s fun t =>
        let key := i * 256 + (prev + 1) % 256
        t.Answered p q 0 [key] ∧ Agree (made i key { u with rdma.mrFree := more }) t))) ∧
  (∀ key, key < 2 ^ 32 →
    let known := (u.mr? key).any (fun m => m.key == key) = true
    (Issued u p x q 0x0A08 1 (u.keyPerm key) →
      (¬ known → Completes (.mrDeregister dt p key) s (denied 0x02000107)) ∧
      (∀ m, u.mr? key = some m → m.key = key → m.closing.isSome = true → Completes (.mrDeregister dt p key) s (denied 0x01000101)) ∧
      (∀ m, u.mr? key = some m → m.key = key → m.closing = none → Completes (.mrDeregister dt p key) s fun t => t.Executing p q ∧
        Agree { u with rdma.mrs := tset s.rdma.mrs (key / 256) { m with closing := some p, refused := 0 } } t)) ∧
    (Issued u p x q 0x0A09 1 (u.keyPerm key) →
      (¬ known → Completes (.mrQuery dt p key) s fun t => Agree u t ∧ t.Answered p q 0 [0, 0, 0, 0, 0, 0, 0, 2]) ∧
      (∀ m, u.mr? key = some m → m.key = key → Completes (.mrQuery dt p key) s fun t => Agree u t ∧
        t.Answered p q 0 [fnCode m.fn, m.pd, m.space, m.addr, m.len, m.va, m.rights, if m.closing = none then 0 else 1]))) ∧
  (∀ qs : List (Nat × Nat × Nat), Issued u p x q 0x0A0A 48 .any →
    let on := qs.zipIdx.filter (fun r => u.domOn r.2)
    let bad := rangesOk 1048576 (on.map (fun r => (r.1.1, r.1.2.1))) = false ∨ 1048576 < (on.map (fun r => r.1.2.1)).sum ∨ 1048576 < (on.map (fun r => r.1.2.2)).sum ∨
      s.rdma.qps.any (fun y => !on.any (fun r => r.2 == y.2.dom && decide (r.1.1 ≤ y.1) && decide (y.1 < r.1.1 + r.1.2.1))) = true ∨ on.any (fun r => decide (r.1.2.2 < u.mrUsed r.2)) = true
    (bad → Completes (.rdmaQuota dt p qs) s (denied 0x02000108)) ∧
    (¬ bad → Completes (.rdmaQuota dt p qs) s fun t => t.Answered p q 0 [] ∧
        Agree { u with rdma.qpRange := qs.zipIdx.map (fun r => (r.2, (r.1.1, r.1.2.1))), rdma.mrQuota := qs.zipIdx.map (fun r => (r.2, r.1.2.2)) } t)) ∧
  (∀ d en de ai mn, Issued u p x q 0x0A0B 5 (.owner d) → d < 16 →
    let fits := en ≤ 1 ∧ 1 ≤ de ∧ de ≤ 4 ∧ 1 ≤ ai ∧ ai ≤ 10000 ∧ 10 ≤ mn ∧ mn ≤ 100000
    (¬ fits → Completes (.rdmaCcSet dt p d en de ai mn) s (denied 0x03000103)) ∧
    (fits → Completes (.rdmaCcSet dt p d en de ai mn) s fun t => t.Executing p q ∧
      Agree { u with rdma.ccPend := s.rdma.ccPend ++ [(p, d, { en := en == 1, dec := de, ai := ai, min := mn })] } t)) ∧
  (∀ e, Issued u p x q 0x0A0C 1 .any →
    (e < 20 ∨ 30 < e → Completes (.rdmaQpnQuiet dt p e) s (denied 0x03000104)) ∧
    (20 ≤ e → e ≤ 30 → Completes (.rdmaQpnQuiet dt p e) s fun t => t.Answered p q 0 [] ∧ Agree { u with rdma.quietLog := e } t)) ∧
  (∀ d, Issued u p x q 0x0A0D 1 (.owner d) → d < 16 → Completes (.rdmaStatus dt p d) s fun t => Agree u t ∧
    let r := u.qpRangeOf d
    t.Answered p q 0 ((if u.domOn d then [r.2, r.1, (s.rdma.qps.filter (fun y => y.2.dom == d)).length, u.mrQuotaOf d, u.mrUsed d, (if (u.ccOf d).en then 1 else 0) + 2 * (u.ccOf d).dec]
      else [0, 0, 0, 0, 0, 0]) ++ [tget s.rdma.ceRcvd d 0] ++ (if x.dom = 0 then [s.rdma.qps.length, s.rdma.quietLog, s.rdma.mrs.length] ++ s.rdma.counters else []))) ∧
  (u.Plain → ∀ k good c, u.ctx? k = some c →
    (u.rdmaOn = false ∨ c.fetching = false ∨ c.writing = true → Completes (.contextFetchComplete dt k good) s fun t => t = u) ∧
    (u.rdmaOn = false ∨ c.writing = false → Completes (.contextWritebackComplete dt k good) s fun t => t = u) ∧
    (u.rdmaOn = true → c.fetching = true → c.writing = false → c.place ≠ 1 → s.mem.marks.contains (4, k) = false → u.pcie.reads.all (fun r => r.what != 6 || r.sub != k || r.dead) = true →
      Completes (.contextFetchComplete dt k good) s fun t => t = u) ∧
    (u.rdmaOn = true → s.tosen.sessions = [] → u.stor.ended = [] → ctxType k = 2 → s.rm.ctxs = [(k, c)] → s.mem.marks = [] → c.parked = [] → c.waiting = none →
      let back := fun (v : State) => { v with rm.clock := s.rm.clock + 1 }.setCtx k { c with place := 0, copy := c.place, changed := false, fetching := false, used := s.rm.clock }
      (c.fetching = true → c.writing = false → c.place = 1 →
        (0 < u.lines (ctxDom k) 2 → Completes (.contextFetchComplete dt k true) s fun t => t = (back u).missLevel (ctxDom k)) ∧
        Completes (.contextFetchComplete dt k false) s fun t =>
          t = (((u.setCtx k { c with failed := true, fetching := false, writing := false }).rmCount (ctxDom k) 6 0).pageEvent (ctxDom k) 2 1 (ctxNum k)).settle) ∧
      (∀ r, c.fetching = true → c.writing = false → c.place = 2 → u.pcie.reads = [r] → r.what = 6 → r.sub = k → r.dead = false → u.pcie.held = [] → 0 < u.lines (ctxDom k) 2 →
        Completes (.contextFetchComplete dt k true) s fun t => t = (back { u with pcie.reads := [] }).missLevel (ctxDom k)) ∧
      (c.writing = true → c.fetching = false → Completes (.contextWritebackComplete dt k true) s fun t => t = u.setCtx k { c with writing := false }) ∧
      (c.writing = true → c.fetching = true → Completes (.contextWritebackComplete dt k true) s fun t => t = (u.setCtx k { c with writing := false, fetching := false }).ctxFetch k) ∧
      (c.writing = true → Completes (.contextWritebackComplete dt k false) s fun t =>
        t = (((u.setCtx k { c with failed := true, fetching := false, writing := false, place := 0 }).rmCount (ctxDom k) 6 0).pageEvent (ctxDom k) 2 2 (ctxNum k)).settle)))

/-- R374-R384: each command of group 0x0B answers its refusals in order, or is accepted and waits; the oldest change accepted commits at its instant, alone, and its command is
answered. An association takes a key slot of its quota; a port whose PN was exhausted sends again once its transmitting association has room. The status commands answer without keys.
Conventions of the model that it rests on: notes/assumptions/44, 124. -/
def Obligations.SecurityCommands : Prop := ∀ (s : State) (dt : Nat) (p : Path) (x : Session) (q : TReq),
  let u := s.elapse dt
  let waits := fun (i : Instr) (c : SecPend) => Completes i s fun t => t.Executing p q ∧ Agree { u with sec.pend := s.sec.pend ++ [c] } t
  let refused := fun (i : Instr) (code : Nat) => Completes i s fun t => Agree u t ∧ t.Answered p q code []
  (∀ po on su v w si o (ex : List Nat), Issued u p x q 0x0B01 (8 + ex.length) (dataPerm po) → w < 2 ^ 32 → ex.all (fun t => t < 65536) = true →
    let fits := po < 24 ∧ on ≤ 1 ∧ su ≤ 1 ∧ v ≤ 2 ∧ si ≤ 1 ∧ o ∈ [0, 30, 50] ∧ ex.length ≤ 4
    let row := Instr.macsecPortConfig dt p po on su v w si o ex
    (¬ fits → refused row 0x03000120) ∧
    (fits → u.portCount ≤ po → refused row 0x02000041) ∧
    (let m : MsPort := { on := on == 1, xpn := su == 1, validate := v, window := w, withSci := si == 1, offset := o, bypass := ex }
    fits → po < u.portCount → waits row { path := p, opcode := 0x0B01, reply := [], op := .port po m })) ∧
  (∀ po sc si an k ss sa pn, Issued u p x q 0x0B02 12 (dataPerm po) → po < 24 → sc ≤ 4 → an ≤ 3 → ss < 2 ^ 32 →
    let old := tget? (tget (u.ms po).scs sc {}).sas an
    let full := u.keyQuota (u.portOwner po) ≤ u.keysUsed (u.portOwner po) + u.keysPending (u.portOwner po)
    let row := Instr.macsecSaSet dt p po sc si an k ss sa pn
    (u.portCount ≤ po → refused row 0x02000041) ∧
    (po < u.portCount → old = none → full → refused row 0x02000120) ∧
    (po < u.portCount → old.isSome = true ∨ ¬ full → waits row
      { path := p, opcode := 0x0B02, reply := [], op := .sa po sc si an { key := k, ssci := ss, salt := sa, pn := pn } })) ∧
  (∀ po an, Issued u p x q 0x0B03 2 (dataPerm po) → po < 24 → an ≤ 3 →
    let old := tget? (tget (u.ms po).scs 0 {}).sas an
    (u.portCount ≤ po → refused (.macsecTxAn dt p po an) 0x02000041) ∧
    (po < u.portCount → old = none → refused (.macsecTxAn dt p po an) 0x02000121) ∧
    (po < u.portCount → old.isSome = true → waits (.macsecTxAn dt p po an) { path := p, opcode := 0x0B03, reply := [], op := .txAn po an })) ∧
  (∀ po, Issued u p x q 0x0B04 1 (dataPerm po) → po < 24 →
    (u.portCount ≤ po → refused (.macsecStatus dt p po) 0x02000041) ∧
    (po < u.portCount → Completes (.macsecStatus dt p po) s fun t =>
      let m := u.ms po
      Agree u t ∧ t.Answered p q 0 ((b2n m.on + 2 * m.validate + 8 * b2n m.xpn + 16 * m.txAn + 64 * b2n m.exhausted) :: m.counters))) ∧
  (∀ di sp sr ds k sa es se tl te a b, Issued u p x q 0x0B10 (16 + ceilDiv tl 8) .any → sp < 2 ^ 32 → sa < 2 ^ 32 → a < 65536 → b < 65536 →
    let i : Instr := .ipsecSaSet dt p di sp sr ds k sa es se tl te a b
    let fits := di ≤ 1 ∧ es ≤ 1 ∧ tl ≤ 64 ∧ (es = 1 ∨ se < 2 ^ 32)
    let full := u.keyQuota x.dom ≤ u.keysUsed x.dom + u.keysPending x.dom ∨ u.freeHandle = 16384
    (¬ fits → refused i 0x03000121) ∧
    (fits → full → refused i 0x02000120) ∧
    (fits → ¬ full →
      let v : EspSa := { dom := x.dom, outbound := di == 0, spi := sp, src := sr, dst := ds, key := k, salt := sa, esn := es == 1, seq := se
                         template := te.take tl, natt := if a = 0 && b = 0 then none else some (a, b) }
      waits i { path := p, opcode := 0x0B10, reply := [u.freeHandle], op := .esp u.freeHandle v })) ∧
  (∀ h, Issued u p x q 0x0B11 1 (u.espPerm h) → h < 16384 →
    waits (.ipsecSaDelete dt p h) { path := p, opcode := 0x0B11, reply := [], op := .espDel h }) ∧
  (∀ n h, Issued u p x q 0x0B12 2 (u.queuePerm n) → n < 32768 → h < 65536 →
    let good := (h = 0xFFFF ∧ tget? s.sec.esp h = none) ∨ ∃ a, tget? s.sec.esp h = some a ∧ a.outbound = true ∧ u.queueDom n = some a.dom
    (u.queueDom n = none ∨ ¬ good → refused (.ipsecQueueBind dt p n h) 0x02000122) ∧
    (u.queueDom n ≠ none → good → waits (.ipsecQueueBind dt p n h) { path := p, opcode := 0x0B12, reply := [], op := .bind n h })) ∧
  (∀ h, Issued u p x q 0x0B13 1 (u.espPerm h) → h < 16384 →
    (tget? s.sec.esp h = none → Completes (.ipsecSaRead dt p h) s fun t => Agree u t ∧ t.Answered p q 0 []) ∧
    (∀ a, tget? s.sec.esp h = some a → Completes (.ipsecSaRead dt p h) s fun t => Agree u t ∧
      let ports := a.natt.getD (0, 0)
      t.Answered p q 0 ([if a.outbound then 0 else 1, a.spi, a.src % 2 ^ 64, a.src / 2 ^ 64, a.dst % 2 ^ 64, a.dst / 2 ^ 64, if a.esn then 1 else 0, a.seq] ++
        (List.range 16).map (fun i => bits a.window (64 * i + 63) (64 * i)) ++
        [a.template.length] ++ (List.range 8).map (fun i => ofLe (slice a.template (8 * i) 8)) ++ [ports.1, ports.2]))) ∧
  (∀ l, Issued u p x q 0x0B20 16 .any →
    let bad := 16384 < l.sum ∨ (u.prov = true ∧ ∃ d ∈ List.range 16, u.domField d 36 22 < nth l d)
    (bad → refused (.secKeyQuota dt p l) 0x02000123) ∧
    (¬ bad → waits (.secKeyQuota dt p l) { path := p, opcode := 0x0B20, reply := [], op := .quota l })) ∧
  (u.Plain → s.sec.pend = [] → Completes (.securityChangeCommit dt) s fun t => t = u) ∧
  (∀ op code reply more, u.Settled → s.sec.pend = { path := p, opcode := code, op := op, reply := reply } :: more → Awaits u p x q code →
    let done := fun (v : State) => Completes (.securityChangeCommit dt) s fun t => t.Answered p q 0 reply ∧ Agree { v with sec.pend := more } t
    let room := fun (m : MsPort) => match tget? (tget m.scs 0 {}).sas m.txAn with
      | some a => decide (a.pn < if m.xpn then 2 ^ 64 else 2 ^ 32)
      | none => false
    (∀ po v, op = .port po v → done (u.setMs po { v with txAn := (u.ms po).txAn, exhausted := (u.ms po).exhausted, scs := (u.ms po).scs, counters := (u.ms po).counters })) ∧
    (∀ po sc si an v, op = .sa po sc si an v →
      let c := tget (u.ms po).scs sc {}
      let m := { u.ms po with scs := tset (u.ms po).scs sc { c with sci := si, sas := tset c.sas an v } }
      done (u.setMs po { m with exhausted := m.exhausted && !room m })) ∧
    (∀ po an, op = .txAn po an →
      let m := { u.ms po with txAn := an }
      done (u.setMs po { m with exhausted := m.exhausted && !room m })) ∧
    (∀ h v, op = .esp h v → done { u with sec.esp := tset s.sec.esp h v }) ∧
    (∀ h, op = .espDel h → done { u with sec.esp := tdel s.sec.esp h }) ∧
    (∀ n h, op = .bind n h → done (u.setQueue n { u.queue n with sa := some h })) ∧
    (∀ l, op = .quota l → done { u with sec.quota := (List.range 16).map (fun d => (d, nth l d)) }))

/-- R368, R370-R373, R383: namespaces are created, restored, deleted and read by command within their limits, each refusal in its order; a new namespace has a queue pair of each target in `RTS` and is `READY`, a restored
target starts afresh, and a deleted namespace takes its commands and queue pairs with it. A Flush starts once the writes before it have issued theirs: it is posted to every online
target, or ends with 0x40 or 0x41 where the namespace or the blocks are not there. Conventions of the model that it rests on: notes/assumptions/36,
113, 118, 119, 177. -/
def Obligations.StorageCommands : Prop := ∀ (s : State) (dt : Nat) (p : Path) (x : Session) (q : TReq) (fc id : Nat),
  let u := s.elapse dt
  let k := nsKey (fnOf fc) id
  let waits := fun (i : Instr) (c : SecPend) => Completes i s fun t => t.Executing p q ∧ Agree { u with sec.pend := s.sec.pend ++ [c] } t
  let refused := fun (i : Instr) (code : Nat) => Completes i s fun t => Agree u t ∧ t.Answered p q code []
  let named := 1 ≤ id ∧ id ≤ 64
  (fc < 2 ^ 25 →
    (∀ b c ts, Issued u p x q 0x0A40 (5 + 26 * ts.length) (u.funcPerm fc) →
      let i : Instr := .nsCreate dt p fc id b c ts
      let fits := u.isStorage (fnOf fc) = true ∧ named ∧ (b = 512 ∨ b = 4096) ∧ c ≤ 2 ^ 40 ∧ 1 ≤ ts.length ∧ ts.length ≤ 3 ∧ ts.any targetBad = false
      (¬ fits → refused i 0x03000110) ∧
      (fits → u.nsTaken.contains k = true ∨ 1024 ≤ u.nsTaken.length → refused i 0x02000111) ∧
      (fits → u.nsTaken.contains k = false → u.nsTaken.length < 1024 →
        (ts.any (u.targetForeign (u.fnDom (fnOf fc))) = true → refused i 0x02000112) ∧
        (ts.any (u.targetForeign (u.fnDom (fnOf fc))) = false → waits i { path := p, opcode := 0x0A40, reply := []
                                                                          op := .nsCreate k { blk := b, cap := c, targets := ts.map targetOf } }))) ∧
    (∀ j a, Issued u p x q 0x0A41 29 (u.funcPerm fc) →
      let row := Instr.nsTargetSet dt p fc id j a
      ((u.ns? k).bind (fun n => n.targets[j]?) = none ∨ ¬ named ∨ targetBad a = true → refused row 0x03000110) ∧
      (∀ n g, named → targetBad a = false → u.ns? k = some n → n.targets[j]? = some g →
        (g.online = true → refused row 0x02000113) ∧
        (g.online = false → u.targetForeign (u.fnDom (fnOf fc)) a = true → refused row 0x02000112) ∧
        (g.online = false → u.targetForeign (u.fnDom (fnOf fc)) a = false → waits row
          { path := p, opcode := 0x0A41, reply := [], op := .nsTarget k j (targetOf a) }))) ∧
    (id < 256 → Issued u p x q 0x0A42 2 (u.funcPerm fc) →
      (¬ named → refused (.nsDelete dt p fc id) 0x03000110) ∧
      (named → waits (.nsDelete dt p fc id) { path := p, opcode := 0x0A42, reply := [], op := .nsDelete k })) ∧
    (id < 256 → Issued u p x q 0x0A43 2 (u.funcPerm fc) →
      (¬ named → refused (.nsStatus dt p fc id) 0x03000110) ∧
      (named → u.ns? k = none → Completes (.nsStatus dt p fc id) s fun t => Agree u t ∧ t.Answered p q 0 [0xFF]) ∧
      (∀ n, named → u.ns? k = some n → Completes (.nsStatus dt p fc id) s fun t => Agree u t ∧
        t.Answered p q 0 (n.state :: n.targets.flatMap (fun g => [b2n g.online, g.qp, g.requests, g.failures]))))) ∧
  (u.Plain →
    (u.rdmaOn = false ∨ s.stor.cmds.filter u.flushReady = [] → Completes (.storageFlushStart dt) s fun t => t = u) ∧
    (∀ c, u.rdmaOn = true → s.stor.cmds = [c] → c.op = 0 → c.started = false → c.left = [] →
      let ended := fun (st : Nat) => Completes (.storageFlushStart dt) s fun t => t = ({ u with stor.cmds := [] }.descEnd c.key c.idx st).runs c.key
      (u.ns? c.ns = none → ended 0x40) ∧
      (∀ n, u.ns? c.ns = some n →
        (n.state = 0 → ended 0x40) ∧
        (n.state ≠ 0 → n.cap < c.va + c.len → ended 0x41) ∧
        (∀ g y, n.state ≠ 0 → c.va + c.len ≤ n.cap → n.targets = [g] → g.online = true → u.qp? g.qp = some y → y.state ≠ .error → Completes (.storageFlushStart dt) s fun t =>
          t = (((State.setQp { u with stor.cmds := [{ c with won := true, started := true, left := [(0, (1, 0))], data := [] }] } g.qp { y with
            reqs := y.reqs ++ [{ owner := .stor c.id 0, op := 7, va := g.va, rkey := g.rkey, flushType := 6 }] }).pumpQp g.qp).settle).cmdNext 64)))) ∧
  (∀ op code more, u.Settled → s.sec.pend = { path := p, opcode := code, op := op, reply := [] } :: more → Awaits u p x q code →
    let w := { u with sec.pend := more }
    let row := Instr.securityChangeCommit dt
    (∀ v, op = .nsCreate k v →
      ((u.ns? k).isSome = true → Completes row s fun t => t.Answered p q 0x02000111 [] ∧ Agree w t) ∧
      (∀ g n, u.ns? k = none → v.targets = [g] → w.newQpn (u.fnDom (nsFn k)) = .ok n → Completes row s fun t => t.Answered p q 0 [] ∧
        Agree ((w.newQp n { fn := nsFn k, dom := u.fnDom (nsFn k), storage := some (k, 0), queue := g.queue, attr := g.attr, state := .rts, expPsn := g.attr.rxPsn
                            nextPsn := g.attr.txPsn, sendPsn := g.attr.txPsn, ackPsn := g.attr.txPsn, retries := g.attr.retry, rnrs := g.attr.rnrRetry, drained := false }).setNs
          k { v with state := 1, targets := [{ g with online := true, qp := n }] }) t) ∧
      (∀ g e, u.ns? k = none → v.targets = [g] → w.newQpn (u.fnDom (nsFn k)) = .error e → Completes row s fun t => t.Answered p q 0x02000111 [] ∧ Agree w t)) ∧
    (∀ n j v g y, op = .nsTarget k j v → u.ns? k = some n → n.targets[j]? = some g →
      (g.online = true → Completes row s fun t => t.Answered p q 0x02000113 [] ∧ Agree w t) ∧
      (g.online = false → u.qp? g.qp = some y → y.reqs = [] → y.msg = none → Completes row s fun t => t.Answered p q 0 [] ∧
        let l := n.targets.set j { v with online := true, qp := g.qp, requests := g.requests, failures := g.failures }
        Agree ((w.setQp g.qp { y with
          queue := v.queue, attr := v.attr, state := .rts, expPsn := v.attr.rxPsn, nextPsn := v.attr.txPsn, sendPsn := v.attr.txPsn, ackPsn := v.attr.txPsn
          retries := v.attr.retry, rnrs := v.attr.rnrRetry, msn := 0, nakked := false, unacked := 0, ackAt := none, resps := [], wrote := none, atomics := []
          rate := none, drained := false, timer := none, rnrAt := none }).setNs k { n with state := if l.all (fun z => z.online) then 1 else n.state, targets := l }) t)) ∧
    (op = .nsDelete k → s.stor.ended = [] →
      (u.ns? k = none → Completes row s fun t => t.Answered p q 0 [] ∧ Agree w t) ∧
      (∀ n, u.ns? k = some n → n.targets = [] → s.stor.cmds.all (fun c => c.ns != k) = true → Completes row s fun t =>
        t.Answered p q 0 [] ∧ Agree { w with stor.nss := tdel s.stor.nss k } t) ∧
      (∀ n g y, u.ns? k = some n → n.targets = [g] → s.stor.cmds.all (fun c => c.ns != k) = true → u.qp? g.qp = some y → y.reqs = [] → y.msg = none → Completes row s fun t =>
        t.Answered p q 0 [] ∧ Agree ({ w with
          stor.nss := tdel s.stor.nss k, rdma.qps := tdel s.rdma.qps g.qp
          rdma.qpFree := s.rdma.qpFree ++ [({ num := g.qp, ends := u.elapsed + ns (2 ^ s.rdma.quietLog), free := false } : QpFree)] }.ctxGone (ctxKey 1 y.dom g.qp)) t) ∧
      (∀ n c, u.ns? k = some n → n.targets = [] → s.stor.cmds = [c] → c.ns = k → Completes row s fun t => t.Answered p q 0 [] ∧
        Agree ((({ w with stor.cmds := [], stor.nss := tdel s.stor.nss k }).descEnd c.key c.idx 0x40).runs c.key) t)))

/-- R391-R398, R402, R403: a map is staged, checked by the rules of R391 and burned in Factory alone; once burned it only loses rights, and a debug right
that closes frees the domain's halted threads; a map that fails its check is Lockdown. A map that passes R391 has TD0 and PF0, a PF for each domain, ports shared with
TD0 and another enabled domain alone, and sums within the device. Conventions of the model that it rests on: notes/assumptions/6, 125, 126, 127,
128. -/
def Obligations.ProvisioningCommands : Prop := ∀ (s : State) (dt : Nat) (p : Path) (x : Session) (q : TReq),
  let u := s.elapse dt
  let refused := fun (i : Instr) (code : Nat) => Completes i s fun t => Agree u t ∧ t.Answered p q code []
  (∀ a n b, Issued u p x q 0x0E01 2 .any →
    (badAddr p a = true → refused (.provStage dt p a n b) 0x03000F02) ∧
    (badAddr p a = false → n ≠ 336 → refused (.provStage dt p a n b) 0x03000130) ∧
    (badAddr p a = false → n = 336 → s.glb.mode ≠ .factory → refused (.provStage dt p a n b) 0x02000130) ∧
    (badAddr p a = false → n = 336 → s.glb.mode = .factory → Completes (.provStage dt p a n b) s fun t => t.Answered p q 0 [] ∧
      Agree { u with fuse.staged := if a < 2 ^ 63 then slice b 0 336 else mreads u.ram (stageAt x.number a) 336 } t)) ∧
  (Issued u p x q 0x0E02 0 .any →
    (s.glb.mode ≠ .factory → refused (.provCheck dt p) 0x02000130) ∧
    (∀ r, s.glb.mode = .factory → u.mapFails s.fuse.staged = some r → Completes (.provCheck dt p) s fun t => Agree u t ∧ t.Answered p q 0x02000132 [r]) ∧
    (s.glb.mode = .factory → u.mapFails s.fuse.staged = none → Completes (.provCheck dt p) s fun t =>
      Agree u t ∧ t.Answered p q 0 [mapCrcOf s.fuse.staged])) ∧
  (∀ crc, Issued u p x q 0x0E03 1 .any → crc < 2 ^ 32 →
    (crc ≠ mapCrcOf s.fuse.staged → refused (.provBurn dt p crc) 0x03000131) ∧
    (crc = mapCrcOf s.fuse.staged → s.glb.mode ≠ .factory → refused (.provBurn dt p crc) 0x02000130) ∧
    (crc = mapCrcOf s.fuse.staged → s.glb.mode = .factory →
      (∀ r, u.mapFails s.fuse.staged = some r → Completes (.provBurn dt p crc) s fun t => Agree u t ∧ t.Answered p q 0x02000132 [r]) ∧
      (u.mapFails s.fuse.staged = none → s.fuse.burning.isSome = true ∨ u.burnBlocked s.fuse.staged = true → refused (.provBurn dt p crc) 0x02000131) ∧
      (u.mapFails s.fuse.staged = none → s.fuse.burning = none → u.burnBlocked s.fuse.staged = false → Completes (.provBurn dt p crc) s fun t =>
        t.Executing p q ∧ Agree { u with fuse.burning := some (p, s.fuse.staged) } t))) ∧
  (u.Plain → s.fuse.burning = none → Completes (.provBurnComplete dt) s fun t => t = u) ∧
  (∀ m, u.Settled → s.fuse.burning = some (p, m) → Awaits u p x q 0x0E03 → Completes (.provBurnComplete dt) s fun t =>
    t.Answered p q 0 [] ∧ Agree { u with fuse.burning := none, fuse.map := bothBurned s.fuse.map (burned s.fuse.map m), fuse.mapCrc := s.fuse.mapCrc ||| mapCrcOf m } t) ∧
  (∀ d r, Issued u p x q 0x0E04 2 .any → d ≤ 15 → r ≤ 15 →
    let lost := fun i => r.testBit i && u.debugOpen d i
    let v := u.burnByte (15 + d * 8) (BitVec.ofNat 8 (r * 4))
    (u.prov = false ∨ (∀ i < 4, lost i = false) → Completes (.provDebugClose dt p d r) s fun t => t.Answered p q 0 [] ∧ Agree v t) ∧
    (u.prov = true → (∃ i < 4, lost i = true) → d ≠ 0 ∨ lost 2 = false → Completes (.provDebugClose dt p d r) s fun t => t.Answered p q 0 [] ∧
      let mine := fun c => v.coreDom c == some d
      Agree (({ v with dbg.steps := tmapK u.dbg.steps (fun k w => if mine (k / 8) then (w.1, 0) else w), dbg.bps := u.dbg.bps.filter (fun b => !mine (b.1 / 8)) } : State).wlResumeAll mine) t) ∧
    (u.prov = true → d = 0 → lost 2 = true → Completes (.provDebugClose dt p d r) s fun t =>
      (p ≠ .windlass → t.Answered p q 0 []) ∧ Agree (v.rightsClosed d lost) t)) ∧
  (Issued u p x q 0x0E05 0 .any →
    (u.lockFuse = false → refused (.provIsoLock dt p) 0x02000133) ∧
    (u.lockFuse = true → Completes (.provIsoLock dt p) s fun t => t.Answered p q 0 [] ∧ Agree (u.burnByte 0 2#8) t)) ∧
  (∀ d, Issued u p x q 0x0E06 1 (.owner d) → d ≤ 15 → Completes (.domainQuery dt p d) s fun t => Agree u t ∧
    let m := s.fuse.map
    let listed := fun (ns : List Nat) (r : Nat → Nat) => ns.length :: ns.map (fun n => r n + 2 ^ 32 * n)
    t.Answered p q 0 (mapDomRec m d 63 0 ::
      (listed ((List.range 8).filter (fun n => mapPf m n 6 6 == 1 && mapPf m n 3 0 == d)) (fun n => mapPf m n 7 0) ++
        listed ((List.range u.portCount).filter (fun n => mapPort m n 3 0 == d || (mapPort m n 21 6).testBit d)) (fun n => mapPort m n 31 0) ++
        listed ((List.range u.coreCount).filter (fun n => mapCore m n 4 4 == 1 && mapCore m n 3 0 == d)) (fun n => mapCore m n 7 0) ++
        [u.isoStatus (fun e => x.dom == 0 || e == x.dom)]))) ∧
  (∀ po, Issued u p x q 0x0E07 1 .any →
    (u.portCount ≤ po ∨ u.portShared po = false ∨ (u.portMask po).testBit x.dom = false → refused (.domainPortStats dt p po) 0x02000134) ∧
    (po < u.portCount → u.portShared po = true → (u.portMask po).testBit x.dom = true → Completes (.domainPortStats dt p po) s fun t => Agree u t ∧
      let own := u.tm.queues.filter (fun y => y.2.cfg.kind == 1 && y.2.cfg.port == po && u.queueDom y.1 == some x.dom)
      let count := fun i => (own.map (fun y => nth y.2.counters i)).sum % 2 ^ 48
      t.Answered p q 0 ((u.pt po).counters ++ [count 7, count 8, (count 1 + count 2 + count 3 + count 4 + count 5 + count 6) % 2 ^ 48]))) ∧
  (u.Plain →
    (u.firmware = false ∨ u.now % grid 30 ≠ 0 ∨ u.lockFuse = false → Completes (.mapCrcCheck dt) s fun t => t = u) ∧
    (u.firmware = true → u.now % grid 30 = 0 → u.lockFuse = true →
      (u.mapGood = true → Completes (.mapCrcCheck dt) s fun t => t = { u with fuse.mapOk := true }) ∧
      (u.mapGood = false → u.glb.mode ≠ .lockdown → Completes (.mapCrcCheck dt) s fun t =>
        t.glb.mode = .lockdown ∧ Agree (({ u with fuse.mapOk := false } : State).lockdown 0x14) t))) ∧
  (∀ d, u.guarantee d = true ↔ (s.glb.mode = .priming ∨ s.glb.mode = .service ∨ s.glb.mode = .drain) ∧ u.isoLock = true ∧ s.fuse.mapOk = true ∧
    s.fuse.floorMet = true ∧ u.domOn d = true ∧ mapDomRec s.fuse.map d 61 58 = 0xF) ∧
  (∀ m, u.mapFails m = none → mapOn m 0 = true ∧ mapPf m 0 6 6 = 1 ∧ mapPf m 0 3 0 = 0 ∧
    (∀ d < 16, mapOn m d = true ↔ mapDomRec m d 62 62 = 1) ∧
    (∀ d < 16, mapOn m d = true → ∃ n < 8, mapPf m n 6 6 = 1 ∧ mapPf m n 3 0 = d) ∧
    (∀ n < 24, mapPort m n 4 4 = 0 → mapPort m n 21 6 = 0) ∧
    (∀ n < 24, mapPort m n 4 4 ≠ 0 → mapPort m n 3 0 = 0 ∧ (mapPort m n 21 6).testBit 0 = true ∧ mapPort m n 21 6 ≠ 1 ∧
      ∀ d < 16, (mapPort m n 21 6).testBit d = true → mapOn m d = true) ∧
    (∀ n < u.portCount, mapOn m (mapPort m n 3 0) = true) ∧ (∀ n < 96, mapCore m n 4 4 = 0 → mapCore m n 3 0 = 0) ∧
    ((List.range 16).map (fun d => mapDomRec m d 21 0)).sum ≤ u.pagesTotal ∧ ((List.range 16).map (fun d => mapDomRec m d 36 22)).sum ≤ 16384 ∧
    ((List.range 16).map (fun d => mapDomRec m d 53 37)).sum ≤ 98304 ∧ ∀ d < 16, mapDomRec m d 57 54 ≠ 15)

/-- R413, R414, R417-R420: a frame on MP that is not a good one for the service changes nothing but the MAC's counts; one of an address that is not allowed
is counted; segments in order are put together, and a partial packet broken off is discarded and counted. A packet that has come whole meets the checks of the session, the
generation and the sequence: it opens, is queued, is answered at once, is answered again, or is discarded. A partial packet is
discarded, and a session ends, when it has waited too long. Conventions of the model that it rests on: notes/assumptions/129, 133. -/
def Obligations.TosenArrives : Prop := ∀ (s : State) (dt : Nat) (frame : Bytes),
  let u := s.elapse dt
  let src := ofBe (slice frame 6 6)
  let n := ofBe (slice frame 20 2)
  let idx := ofBe (slice frame 18 2)
  let fl := ofLe (slice frame 17 1)
  let d := slice frame 22 n
  let row : Instr := .tosenSegmentReceived dt frame
  let good := 64 ≤ frame.length ∧ frame.length ≤ (u.pt 24).cfg.maxFrame ∧ frame.drop (frame.length - 4) = le (fcs (frame.take (frame.length - 4))) 4
  let service := good ∧ s.firmware = true ∧ ofBe (slice frame 0 6) = s.fuse.mpMac ∧ ofBe (slice frame 12 2) = 0x88B5 ∧ ofBe (slice frame 14 2) = 0x5453 ∧
    ofLe (slice frame 16 1) = 1
  let heard := s.glb.mode = .factory ∨ s.tosen.allow.contains src = true
  let form := fl ≤ 3 ∧ 8 ≤ n ∧ n ≤ 1488 ∧ (fl.testBit 1 = true ∨ n = 1488) ∧ 26 + n ≤ frame.length
  let others := s.tosen.partials.filter (fun x => x.mac != src)
  (u.Plain → s.ports.mp.up = false → Completes row s fun t => t = u) ∧
  (u.Settled → s.ports.mp.up = true →
    (¬ service → Completes row s fun t => Agree u t) ∧
    (service → ¬ heard → Completes row s fun t => Agree { u with tosen.mpRefused := inc48 s.tosen.mpRefused } t) ∧
    (service → heard → ¬ form → Completes row s fun t => Agree u t) ∧
    (service → heard → form → s.tosen.partials.find? (fun x => x.mac == src) = none →
      (fl % 2 = 0 ∨ idx ≠ 0 → Completes row s fun t => Agree u t) ∧
      (fl = 1 → idx = 0 → Completes row s fun t =>
        Agree { u with tosen.partials := others ++ [{ mac := src, nextIdx := 1, data := d, at_ := u.elapsed }] } t) ∧
      (let r := reqOf d n
      let p := Path.mp src
      let answered := fun (v dom gen st : Nat) (dup : Nat) (op : Nat) (fields : List Nat) (t : State) =>
        s.ports.mp.half = false → u.tosen.sessions.all (fun y => !y.events) = true →
        t.out = ((mpSegments ((16 + 8 * fields.length) / 1488 + 1) 0 (16 + 8 * fields.length)
          (tosenPacket v (1 + 4 * dup) op r.seq gen dom st fields)).map (fun b => Emission.mpFrame src b)).reverse ++ u.out
      u.Plain → fl = 3 → idx = 0 →
      (r.opcode = 1 → r.seq = 1 → genOf d = 0 → Completes row s fun t => t.session? p = none ∧ t.tosen.opens = s.tosen.opens ++ [(p, r)]) ∧
      (u.session? p = none → r.opcode ≠ 1 → Completes row s fun t => Agree u t ∧ answered r.ver 0 0 0x0300FF05 0 r.opcode [] t) ∧
      (∀ x, u.session? p = some x →
        let keeps := fun (t : State) (y : Session) => t.session? p = some y ∧ Agree (u.onSession p (fun _ => y)) t
        let now : Session := { x with heard := u.elapsed }
        let waiting := x.queue.length + if x.running.isSome then 1 else 0
        let own := genOf d = x.gen ∧ r.seq ≠ 0 ∧ r.opcode ≠ 1
        let ahead := seqAhead x.want r.seq
        (¬ own → ¬ (r.opcode = 1 ∧ r.seq = 1 ∧ genOf d = 0) → Completes row s fun t => keeps t { now with stale := inc48 x.stale }) ∧
        (own → ahead = 0 → 16 ≤ waiting → Completes row s fun t => keeps t now ∧ answered x.ver x.dom x.gen 0x0100FF01 0 r.opcode [] t) ∧
        (own → ahead = 0 → waiting < 16 → x.running.isSome = true ∨ ((x.queue ++ [r]).head?.all (fun y => opDefined y.opcode)) = true →
          Completes row s fun t => keeps t { now with want := nextSeq x.want, queue := x.queue ++ [r] }) ∧
        (own → ahead = 0 → waiting = 0 → opDefined r.opcode = false → r.len = r.carried → r.flags = 0 → r.status = 0 → r.ver = x.ver → r.dom = x.dom →
          Completes row s fun t => t.Answered p r 0x0300FF02 [] ∧ answered x.ver x.dom x.gen 0x0300FF02 0 r.opcode [] t) ∧
        (own → 0 < ahead → ahead ≤ 15 → Completes row s fun t => keeps t now ∧ answered x.ver x.dom x.gen 0x0100FF03 0 r.opcode [x.want] t) ∧
        (∀ c, own → 2 ^ 32 - 17 ≤ ahead → x.cache.find? (fun c => c.seq == r.seq) = some c → Completes row s fun t =>
          keeps t now ∧ answered x.ver x.dom x.gen c.status 1 c.opcode c.fields t) ∧
        (own → 2 ^ 32 - 17 ≤ ahead → x.cache.find? (fun c => c.seq == r.seq) = none →
          let held := (x.queue.any (fun y => y.seq == r.seq) || x.running.any (fun y => y.seq == r.seq)) = true
          (held → Completes row s fun t => keeps t now ∧ (u.tosen.sessions.all (fun y => !y.events) = true → t.out = u.out)) ∧
          (¬ held → Completes row s fun t => keeps t { now with stale := inc48 x.stale } ∧ (u.tosen.sessions.all (fun y => !y.events) = true → t.out = u.out))) ∧
        (own → 15 < ahead → ahead < 2 ^ 32 - 17 → Completes row s fun t => keeps t { now with stale := inc48 x.stale } ∧ (u.tosen.sessions.all (fun y => !y.events) = true → t.out = u.out))))) ∧
    (∀ o, service → heard → form → s.tosen.partials.find? (fun x => x.mac == src) = some o →
      let cut : State := { u with tosen.partials := others, tosen.segDiscards := inc48 s.tosen.segDiscards }
      let whole := o.data ++ d
      (u.elapsed < o.at_ + grid 27 →
        (fl = 0 → idx = o.nextIdx → Completes row s fun t =>
          Agree { u with tosen.partials := others ++ [{ mac := src, nextIdx := idx + 1, data := whole, at_ := u.elapsed }] } t) ∧
        (fl = 2 → idx = o.nextIdx → Completes row s fun t =>
          Agree (({ u with tosen.partials := others } : State).tosenArrive (.mp src) (reqOf whole whole.length) (genOf whole)) t) ∧
        (fl % 2 = 0 → idx ≠ o.nextIdx → Completes row s fun t => Agree cut t) ∧
        (fl % 2 = 1 → idx ≠ 0 → Completes row s fun t => Agree cut t)) ∧
      (o.at_ + grid 27 ≤ u.elapsed → fl % 2 = 0 ∨ idx ≠ 0 → Completes row s fun t => Agree cut t) ∧
      (fl = 1 → idx = 0 → Completes row s fun t =>
        Agree { cut with tosen.partials := others ++ [{ mac := src, nextIdx := 1, data := d, at_ := u.elapsed }] } t) ∧
      (fl = 3 → idx = 0 → Completes row s fun t => Agree (cut.tosenArrive (.mp src) (reqOf d n) (genOf d)) t))) ∧
  (u.Plain → Completes (.mpReassemblyTimeout dt) s fun t =>
    let late := fun (o : Partial) => o.at_ + grid 27 ≤ u.elapsed
    t = { u with tosen.partials := s.tosen.partials.filter (fun o => !decide (late o))
                 tosen.segDiscards := (s.tosen.segDiscards + (s.tosen.partials.filter (fun o => decide (late o))).length) % 2 ^ 48 }) ∧
  (u.Plain → Completes (.mpSessionIdleTimeout dt) s fun t =>
    t = { u with tosen.sessions := u.tosen.sessions.filter (fun x => !(x.onMp && decide (x.heard + grid 34 ≤ u.elapsed))) })

/-- R397, R405, R407, R415-R424: a session opens with the version and the generation that are agreed, where the checks of R421 to R424 pass, and closes with its
reply; its status, the time and the mode are told, its staging area is written and read, and the addresses MP allows are set. Every request meets the checks of R422
in their order when its execution begins: header, version, domain, opcode's version, fields, permission, isolation lock and mode. Conventions of the
model that it rests on: notes/assumptions/6, 65, 84, 124, 127, 129, 130, 135. -/
def Obligations.SessionCommands : Prop := ∀ (s : State) (dt : Nat) (p : Path) (x : Session) (q : TReq),
  let u := s.elapse dt
  let refused := fun (i : Instr) (code : Nat) => Completes i s fun t => Agree u t ∧ t.Answered p q code []
  (∀ a b c f e i,
    let row : Instr := .sessionOpen dt p a b c f e i
    let opened : State := { u with tosen.opens := s.tosen.opens.erase (p, q) }
    (u.Plain → s.tosen.opens.find? (fun y => y.1 == p) = none → Completes row s fun t => t = u) ∧
    (u.Settled → s.tosen.opens.find? (fun y => y.1 == p) = some (p, q) →
      (u.carries p = false → Completes row s fun t => Agree opened t) ∧
      (∀ st, u.carries p = true → u.openCheck p q a b c f e = .error st → Completes row s fun t => Agree opened t) ∧
      (∀ v, u.carries p = true → u.session? p = none → u.openCheck p q a b c f e = .ok v → Completes row s fun t =>
        t.Answered p q 0 [v, u.nextGen p, s.tosen.nextNumber, 16, 0x23, if pathOnRing p then 0 else 2 ^ 20] ∧
        Agree { opened with
          tosen.sessions := u.tosen.sessions ++ [{ path := p, dom := u.pathDom p, gen := u.nextGen p, ver := v, events := decide (f = 1), area := e
                                                   client := i, number := s.tosen.nextNumber, heard := u.elapsed }]
          tosen.nextNumber := s.tosen.nextNumber + 1, tosen.gens := (p, u.nextGen p) :: s.tosen.gens.filter (fun g => g.1 != p) } t)) ∧
    (let onRing := pathOnRing p = true
    let dom := u.pathDom p
    let header := q.len = q.carried ∧ q.flags = 0 ∧ q.status = 0
    let offer := header ∧ q.ver = 16 * a ∧ (a = 2 → q.dom = dom) ∧ q.len = 64 ∧ a < 16 ∧ b < 16 ∧ c < 16 ∧ f ≤ 1
    let top := if a = 2 then 3 else 6
    let agreed := offer ∧ (a = 1 ∨ a = 2) ∧ b ≤ c ∧ b ≤ top
    let area := f = 1 ∧ (a = 1 ∨ (onRing ∧ (e = 0 ∨ e % 256 ≠ 0)))
    let role := f = 1 ∧ onRing ∧ (u.tosen.sessions.any (fun y => y.dom == dom && y.events && pathOnRing y.path)) = true
    (¬ header → u.openCheck p q a b c f e = .error 0x0300FF01) ∧
    (offer → a ≠ 1 → a ≠ 2 → u.openCheck p q a b c f e = .error 0x0500FF01) ∧
    (offer → a = 1 ∨ a = 2 → c < b ∨ top < b → u.openCheck p q a b c f e = .error 0x0500FF02) ∧
    (agreed → p = .windlass → u.debugOpen 0 2 = false → u.openCheck p q a b c f e = .error 0x0400FF04) ∧
    (agreed → p ≠ .windlass → e < 2 ^ 63 → area → u.openCheck p q a b c f e = .error 0x03000F01) ∧
    (agreed → p ≠ .windlass → e < 2 ^ 63 → ¬ area → role → u.openCheck p q a b c f e = .error 0x02000F01) ∧
    (agreed → p ≠ .windlass → e < 2 ^ 63 → ¬ area → ¬ role → u.sessionLimit p = true → u.openCheck p q a b c f e = .error 0x0200FF02) ∧
    (agreed → p ≠ .windlass → e < 2 ^ 63 → ¬ area → ¬ role → u.sessionLimit p = false →
      u.openCheck p q a b c f e = .ok (16 * a + if c < top then c else top)))) ∧
  (u.nextGen p = (match s.tosen.gens.find? (fun y => y.1 == p) with
    | some g => if 255 ≤ g.2 then 1 else g.2 + 1
    | none => 1)) ∧
  (Issued u p x q 0x0002 0 .any → Completes (.sessionClose dt p) s fun t => t.session? p = none ∧
    Agree { u with tosen.sessions := u.tosen.sessions.filter (fun y => !(y.path == p)) } t) ∧
  (Issued u p x q 0x0003 0 .any → Completes (.sessionPing dt p) s fun t => Agree u t ∧ t.Answered p q 0 [nsOf u.now, u.quality, u.glbMode]) ∧
  (∀ off n,
    let fits := 1 ≤ n ∧ n ≤ 65496 ∧ off + n ≤ 2 ^ 20
    (∀ b, Issued u p x q 0x0004 (2 + (n + 7) / 8) .any →
      (¬ fits → refused (.stageWrite dt p off n b) 0x03000F02) ∧
      (fits → pathOnRing p = true → refused (.stageWrite dt p off n b) 0x02000F02) ∧
      (fits → pathOnRing p = false → Completes (.stageWrite dt p off n b) s fun t => t.Answered p q 0 [] ∧
        Agree (u.ramWrite (stageAt x.number off) (slice b 0 n)) t)) ∧
    (Issued u p x q 0x0005 2 .any →
      (¬ fits → refused (.stageRead dt p off n) 0x03000F02) ∧
      (fits → pathOnRing p = true → refused (.stageRead dt p off n) 0x02000F02) ∧
      (fits → pathOnRing p = false → Completes (.stageRead dt p off n) s fun t => Agree u t ∧
        t.Answered p q 0 (fieldsOf (mreads u.ram (stageAt x.number off) n))))) ∧
  (Issued u p x q 0x0006 0 .any →
    let own := [pathField p, x.gen, x.want, x.ver, x.stale, s.tosen.segDiscards, tget u.tosen.evLost x.dom 0]
    (x.dom ≠ 0 → Completes (.sessionStatus dt p) s fun t => Agree u t ∧ t.Answered p q 0 own) ∧
    (x.dom = 0 → Completes (.sessionStatus dt p) s fun t => Agree u t ∧ t.Answered p q 0 (own ++ (u.tosen.sessions.length ::
      u.tosen.sessions.flatMap (fun y => [pathField y.path, y.dom, y.gen, y.client, y.ver])) ++ [s.tosen.mpRefused]))) ∧
  (∀ n (macs : List Nat), Issued u p x q 0x0007 (1 + n) .any → macs.all (fun m => m < 2 ^ 48) = true →
    (8 < n → refused (.sessionMpAllow dt p n macs) 0x03000F03) ∧
    (n ≤ 8 →
      let leaves := fun m => s.tosen.allow.contains m && !(macs.take n).contains m
      Completes (.sessionMpAllow dt p n macs) s fun t => Agree { u with
          tosen.allow := macs.take n
          tosen.sessions := u.tosen.sessions.filter (fun y => !(match y.path with | .mp m => leaves m | _ => false)) } t ∧
        ((∀ m, p = .mp m → leaves m = false) → t.Answered p q 0 []))) ∧
  (let due := fun op => u.Settled ∧ u.firmware = true ∧ u.session? p = some x ∧ x.running = none ∧ x.queue = [q] ∧ q.opcode = op ∧ u.replyRoom p = true
  let failed := fun (i : Instr) (code : Nat) => Completes i s fun t => Agree u t ∧ ∃ y, t.session? p = some y ∧ y.running = none ∧ y.queue = [] ∧
    y.cache.head? = some { seq := q.seq, began := 0, opcode := q.opcode, status := code, fields := [] }
  let header := q.len = q.carried ∧ q.flags = 0 ∧ q.status = 0
  let agreed := header ∧ q.ver = x.ver ∧ x.ver / 16 = 2 ∧ q.dom = x.dom
  (∀ d, due 0x0E06 →
    let row : Instr := .domainQuery dt p d
    let formed := agreed ∧ q.len = 24 ∧ d ≤ 15
    (¬ header → failed row 0x0300FF01) ∧
    (header → q.ver ≠ x.ver → failed row 0x0500FF04) ∧
    (header → q.ver = x.ver → x.ver / 16 = 2 → q.dom ≠ x.dom → failed row 0x0400FF03) ∧
    (header → q.ver = x.ver → x.ver / 16 = 1 → failed row 0x0500FF03) ∧
    (agreed → q.len ≠ 24 → failed row 0x0300FF03) ∧
    (agreed → q.len = 24 → 15 < d → failed row 0x0300FF04) ∧
    (formed → x.dom ≠ 0 → d ≠ x.dom → failed row 0x0400FF01) ∧
    (formed → x.dom = 0 ∨ d = x.dom → s.glb.mode = .drain → failed row 0x0200FF01)) ∧
  (due 0x0621 → agreed → x.ver = 0x20 → ∀ po, failed (.sluiceStatus dt p po) 0x0500FF03) ∧
  (∀ h d, due 0x0B11 → agreed → q.len = 24 → h < 16384 → u.espPerm h = .owner d → x.dom = 0 → d ≠ 0 → u.isoLock = true →
    failed (.ipsecSaDelete dt p h) 0x0400FF02) ∧
  (due 0x0E05 → agreed → q.len = 16 →
    (x.dom ≠ 0 → failed (.provIsoLock dt p) 0x0400FF01) ∧
    (x.dom = 0 → s.glb.mode = .lockdown → failed (.provIsoLock dt p) 0x0200FF01)))

/-- R428, R431-R434, R436: the boot ROM tries the candidate slots in order: the first whose header and manifest pass is read, a block that hashes to its
entry lands in the load buffer, a signature or security version that fails ends the attempt, and an image that passes starts, a trial only after its
`TRIAL` word has been programmed. With no candidate left, Recovery is entered with cause 2 and its window. Conventions of the model that it rests
on: notes/assumptions/6, 21, 70, 79, 136, 137, 138, 139, 144, 169. -/
def Obligations.BootRomTriesSlots : Prop := ∀ (s : State) (dt : Nat),
  let u := s.elapse dt
  let into := fun (c : State) => ({ c with
    glb.mode := .recovery, glb.entryCause := 2, glb.modeEntered := u.now, pcie.linkA := {}, pcie.linkB := {}, pcie.fns := []
    boot.trying := none, boot.rest := [], boot.window := true, boot.windowEnd := u.elapsed + grid 33 } : State)
  let ends := fun (c : State) => (if s.glb.mode = .recovery then
    { c with boot.trying := none, boot.rest := [], boot.window := true, boot.windowEnd := u.elapsed + grid 33 } else into c : State)
  let tries := fun (c : State) (i : Nat) (rest : List Nat) => ({ c with
    boot.trying := some i, boot.rest := rest, boot.blocks := 0, boot.sigOk := false, boot.bad := none } : State)
  let failed := fun (c : State) (i r n : Nat) => ({ c.setSlot i { c.slot i with lastFail := r, failBlock := n } with
    boot.trying := none, boot.anyFailed := true } : State)
  let starts := fun (c : State) (m : Bytes) (t : State) =>
    Agree ((if (c.slot c.boot.bootedSlot).code = 3 then (c.startImage m (bufAt 0)).supersede else c.startImage m (bufAt 0)) : State) t ∧
    t.glb.mode = (if u.prov = false then .factory else if u.mapGood = true then .priming else .lockdown) ∧
    t.boot.release = manRelease m ∧ t.boot.sv = manSv m ∧ t.boot.signer = 2 ^ manKey m ∧ t.boot.attempts = s.boot.cycle ∧ t.boot.trying = none ∧
    t.boot.fromHost = false ∧ t.fuse.floorMet = decide (mapField s.fuse.map 0x280 8 35 20 ≤ manRelease m)
  let booted := fun (c : State) (i : Nat) (t : State) =>
    let pend := (u.slot i).code = 1
    let c1 := if pend then c.setSlot i { c.slot i with trial := 0 } else c
    starts { c1 with boot.bootedSlot := i, boot.fromHost := false, boot.trial := decide pend, boot.fallback := s.boot.anyFailed } (u.slot i).manifest t ∧
    t.boot.bootedSlot = i ∧ t.boot.trial = decide pend ∧ t.boot.fallback = s.boot.anyFailed ∧ (pend → .flash i 24 0 ∈ t.out ∧ (t.slot i).trial = 0)
  let cycle := fun (i : Instr) (c : State) =>
    (c.candidates = [] → Completes i s fun t => t = ends c) ∧
    (∀ a rest, c.candidates = a :: rest → c.slotCheck a = 0 → Completes i s fun t => t = tries c a rest) ∧
    (∀ a b rest, c.candidates = a :: b :: rest → c.slotCheck a ≠ 0 →
      let f := failed c a (c.slotCheck a) 0
      f.slotCheck b = 0 → Completes i s fun t => t = tries f b rest) ∧
    (∀ a, c.candidates = [a] → c.slotCheck a ≠ 0 → Completes i s fun t => t = ends (failed c a (c.slotCheck a) 0))
  let flashed := fun (l : List Bytes) => ({ u with boot.anyFailed := false
                                                   boot.slotA := if l = [] then s.boot.slotA else s.boot.slotA.read (l.getD 0 []) (l.getD 1 [])
                                                   boot.slotB := if l = [] then s.boot.slotB else s.boot.slotB.read (l.getD 2 []) (l.getD 3 []) } : State)
  (∀ i, i ∈ u.candidates ↔ i ≤ 1 ∧ ((u.slot i).code = 3 ∨ (u.slot i).code = 4 ∨
    ((u.slot i).code = 1 ∧ ∀ j ≤ 1, (u.slot j).code = 3 → (u.slot j).sequence < (u.slot i).sequence))) ∧
  u.candidates.Pairwise (fun i j => (u.slot i).code < (u.slot j).code ∨ ((u.slot i).code = (u.slot j).code ∧
    ((u.slot j).sequence < (u.slot i).sequence ∨ ((u.slot i).sequence = (u.slot j).sequence ∧ i < j)))) ∧
  (∀ i,
    let y := u.slot i
    let m := y.manifest
    let k := u.keySlot (manKey m)
    let header := y.magic = 0x53454C53 ∧ y.format / 16 = 1
    let whole := 512 + 48 * manBlocks m ≤ m.length
    let well := ofLe (slice m 0 4) = 0x4D414E49 ∧ ofLe (slice m 4 1) / 16 = 1 ∧ ofLe (slice m 0x0C 2) = 0x2460 ∧ 1 ≤ manBlocks m ∧ manBlocks m ≤ 1022 ∧
      ofLe (slice m 0x0E 1) ≤ s.fuse.stepping ∧ ((manSections m).filter (fun z => z.1 == 1)).length = 1 ∧
      ((manSections m).filter (fun z => z.1 == 2)).length ≤ 1 ∧
      (∀ z ∈ manSections m, z.2.1 % 8 = 0 ∧ z.2.1 + z.2.2 ≤ manBlocks m * 65536) ∧
      (manSections m).Pairwise (fun a b => a.2.1 + a.2.2 ≤ b.2.1 ∨ b.2.1 + b.2.2 ≤ a.2.1)
    (¬ header → u.slotCheck i = 1) ∧ (header → ¬ whole → u.slotCheck i = 9) ∧ (header → whole → ¬ well → u.slotCheck i = 2) ∧
    (header → whole → well → readsSet k.programmed = false → u.slotCheck i = 3) ∧
    (header → whole → well → readsSet k.programmed = true → readsSet k.revoked = true → u.slotCheck i = 4) ∧
    (header → whole → well → k.live = true → ofLe (sha384 (manPub m)) ≠ k.hash → u.slotCheck i = 5) ∧
    (header → whole → well → k.live = true → ofLe (sha384 (manPub m)) = k.hash → u.slotCheck i = 0)) ∧
  (u.Plain →
    (∀ l,
      (s.pw.bootDue = false ∨ s.glb.mode ≠ .boot → Completes (.bootRomStart dt l) s fun t => t = u) ∧
      (s.pw.bootDue = true → s.glb.mode = .boot → cycle (.bootRomStart dt l) { flashed l with pw.bootDue := false }) ∧
      (s.glb.mode ≠ .recovery ∨ s.boot.window = false ∨ u.elapsed < s.boot.windowEnd ∨ u.recActive = true →
        Completes (.recoveryWindowEnd dt l) s fun t => t = u) ∧
      (s.glb.mode = .recovery → s.boot.window = true → s.boot.windowEnd ≤ u.elapsed → u.recActive = false →
        cycle (.recoveryWindowEnd dt l) { flashed l with boot.window := false, boot.cycle := s.boot.cycle + 1 })) ∧
    (∀ st b, s.boot.trying = none → Completes (.bootBlockLanded dt st b) s fun t => t = u) ∧
    (∀ i st b, s.boot.trying = some i →
      let m := (u.slot i).manifest
      let n := s.boot.blocks
      let d := slice b 0 65536
      let landed : State := { u.ramWrite (bufAt (65536 * n)) d with boot.blocks := n + 1 }
      (s.boot.bad.isSome = true ∨ manBlocks m ≤ n → Completes (.bootBlockLanded dt st b) s fun t => t = u) ∧
      (s.boot.bad = none → n < manBlocks m →
        (s.boot.sigOk = false →
          (st = 1 → Completes (.bootBlockLanded dt st b) s fun t => t = { u with boot.bad := some (9, n) }) ∧
          (st = 2 → Completes (.bootBlockLanded dt st b) s fun t => t = { u with boot.bad := some (10, n) }) ∧
          (st = 0 → Completes (.bootBlockLanded dt st b) s fun t => t = if sha384 d = manHash m n then landed else { u with boot.bad := some (8, n) })) ∧
        (s.boot.sigOk = true → s.boot.rest = [] → s.glb.mode = .boot →
          (st = 1 → Completes (.bootBlockLanded dt st b) s fun t => t = into (failed { u with boot.bad := some (9, n) } i 9 n)) ∧
          (st = 2 → Completes (.bootBlockLanded dt st b) s fun t => t = into (failed { u with boot.bad := some (10, n) } i 10 n))) ∧
        (s.boot.sigOk = true → st = 0 → i ≤ 1 → Completes (.bootBlockLanded dt st b) s fun t =>
          (sha384 d = manHash m n → n + 1 < manBlocks m → t = landed) ∧ (sha384 d = manHash m n → n + 1 = manBlocks m → booted landed i t) ∧
          (sha384 d ≠ manHash m n → s.boot.rest = [] → s.glb.mode = .boot → t = into (failed { u with boot.bad := some (8, n) } i 8 n))))) ∧
    (∀ i, s.boot.trying = some i → i ≤ 1 →
      let r := u.sigFail (u.slot i).manifest
      let passed : State := { u with boot.sigOk := true }
      (s.boot.sigOk = true → Completes (.bootSignatureVerified dt) s fun t => t = u) ∧
      (s.boot.sigOk = false → s.boot.bad = none →
        Completes (.bootSignatureVerified dt) s fun t =>
          (r ≠ 0 → s.boot.rest = [] → s.glb.mode = .boot → t = into (failed u i r 0)) ∧
          (r = 0 → s.boot.blocks < manBlocks (u.slot i).manifest → t = passed) ∧
          (r = 0 → manBlocks (u.slot i).manifest ≤ s.boot.blocks → booted passed i t)) ∧
      (∀ w, s.boot.sigOk = false → s.boot.bad = some w → s.boot.rest = [] → s.glb.mode = .boot → Completes (.bootSignatureVerified dt) s fun t =>
        t = if r ≠ 0 then into (failed u i r 0) else into (failed passed i w.1 w.2))) ∧
    (s.boot.trying = none →
      let waits := s.glb.mode = .recovery ∧ s.boot.recManOk = true ∧ s.boot.recSigOk = false ∧ (s.boot.recState = 1 ∨ s.boot.recState = 2)
      let r := u.sigFail u.recManifest
      let h : State := ({ u with boot.recSigOk := true } : State).recHash 1022
      (¬ waits → Completes (.bootSignatureVerified dt) s fun t => t = u) ∧
      (waits → s.boot.recBad = none → s.boot.recFinish = none → s.boot.recAccepted < 131072 → Completes (.bootSignatureVerified dt) s fun t =>
        t = if r = 0 then { u with boot.recSigOk := true } else { u with boot.recState := 5, boot.recFail := r, boot.recBusy := false, boot.recFinish := none }) ∧
      (waits → s.boot.recFinish = none → Completes (.bootSignatureVerified dt) s fun t =>
        (r ≠ 0 → t = { u with boot.recState := 5, boot.recFail := r, boot.recBusy := false, boot.recFinish := none }) ∧
        (r = 0 → h.boot.recBad = none → t = h) ∧
        (∀ w, r = 0 → h.boot.recBad = some w → t = { h with boot.recState := 5, boot.recFail := w.1, boot.recBusy := false, boot.recFinish := none }))))

/-- R437-R440: a transfer in Recovery, over PCIe or MP, begins where its length is in range, takes its chunks in order, is checked as `try_slot` checks a slot,
waits for its checks at FINISH, then starts or is written to a slot, and is aborted by its own path; a path that is not served changes nothing; the window is written,
and a write while BUSY fails the transfer; it times out; MP is always answered. Conventions of the model that it rests on: notes/assumptions/79,
137, 138, 139, 141, 142, 144, 169. -/
def Obligations.RecoveryTransfers : Prop := ∀ (s : State) (dt : Nat),
  let u := s.elapse dt
  u.Plain →
  let fails := fun (y : State) (r : Nat) => ({ y with boot.recState := 5, boot.recFail := r, boot.recBusy := false, boot.recFinish := none } : State)
  let late := s.glb.mode = .recovery ∧ s.boot.recState = 1 ∧ s.boot.recHeard + grid 34 ≤ u.elapsed
  let v := if late then fails u 13 else u
  let starts := fun (y : State) (m : Bytes) (t : State) => Agree (y.startImage m (recAt 65536)) t ∧
    t.glb.mode = (if u.prov = false then .factory else if u.mapGood = true then .priming else .lockdown) ∧
    t.boot.release = manRelease m ∧ t.boot.sv = manSv m ∧ t.boot.signer = 2 ^ manKey m ∧ t.boot.recState = 0 ∧ t.boot.window = false
  (u.recOpen = false →
    (∀ o, Completes (.recVerOfferWrite dt o) s fun t => t = u) ∧ (∀ o b e, Completes (.recDataWindowWrite dt o b e) s fun t => t = u)) ∧
  (u.recOpen = true →
    (∀ o, Completes (.recVerOfferWrite dt o) s fun t =>
      t = { u with boot.recOffer := o % 4096, boot.recAgreed := if o % 16 = 1 ∧ o / 16 % 16 = 0 then 0x10 else 0 }) ∧
    (∀ o b e, e = true ∨ s.boot.recBusy = true → Completes (.recDataWindowWrite dt o b e) s fun t => t = if u.recActive = true then fails u 15 else u) ∧
    (∀ o b, s.boot.recBusy = false → o + b.length ≤ 524288 → o < 524288 → Completes (.recDataWindowWrite dt o b false) s fun t =>
      t = u.ramWrite (recWinAt o) b)) ∧
  (∀ mp : Option (Nat × Nat),
    let o := if mp = none then 0 else 1
    let b : State := if mp = none then { v with boot.recRefused := false } else v
    let heard := s.glb.mode = .recovery ∧ (mp = none → u.recOpen = true ∧ s.boot.recAgreed ≠ 0) ∧ (∀ m, mp = some m → s.ports.mp.up = true ∧ m.2 / 16 = 1)
    let serves := heard ∧ s.boot.window = true ∧ v.boot.recBusy = false
    let replies := fun (op : Nat) (y : State) (r : Nat) (t : State) => ∀ m, mp = some m → s.ports.mp.half = false →
      .mpFrame m.1 (be 0x88B5 2 ++ be 0x5245 2 ++ le 0x10 1 ++ le (op + 128) 1 ++ le 0 2 ++ be (y.recStatus r) 4 ++ be 0 2) ∈ t.out
    let becomes := fun (i : Instr) (op : Nat) (y : State) (r : Nat) => Completes i s fun t =>
      (mp = none → t = { y with boot.recRefused := decide (r ≠ 0) }) ∧ (mp ≠ none → Agree y t) ∧ replies op y (if r = 0 then y.boot.recFail else r) t
    let ignored := fun (i : Instr) (op : Nat) =>
      (s.glb.mode ≠ .recovery → Completes i s fun t => t = u) ∧
      (s.glb.mode = .recovery → mp = none → ¬ serves → Completes i s fun t => t = v) ∧
      (s.glb.mode = .recovery → mp ≠ none → s.ports.mp.up = false → Completes i s fun t => t = v) ∧
      (∀ m, s.glb.mode = .recovery → mp = some m → s.ports.mp.up = true → ¬ serves → Completes i s fun t => Agree v t ∧
        replies op v (if m.2 / 16 = 1 then v.boot.recFail else 12) t)
    let active := 1 ≤ v.boot.recState ∧ v.boot.recState ≤ 4
    (∀ n,
      let len := if mp = none then s.boot.recLen else n
      let fits := len % 65536 = 0 ∧ 131072 ≤ len ∧ len ≤ 67043328
      let y : State := { b with
        ram := mzero s.ram (recAt 0) (2 ^ 90)
        boot := { b.boot with
          recState := 1, recFail := 0, recBlocks := 0, recOwner := o, recTotal := len, recAccepted := 0, recHeard := u.elapsed
          recManOk := false, recSigOk := false, recBad := none, recFinish := none } }
      ignored (.recBegin dt mp n) 1 ∧
      (serves → active → s.boot.recOwner ≠ o → becomes (.recBegin dt mp n) 1 b 14) ∧
      (serves → ¬ active ∨ s.boot.recOwner = o → becomes (.recBegin dt mp n) 1 (if fits then y else fails y 12) 0)) ∧
    (∀ off n data,
      let at_ := if mp = none then s.boot.recOffset else off
      let k := if mp = none then s.boot.recLen else n
      let d := slice (if mp = none then mreads s.ram (recWinAt 0) k else data) 0 k
      let mine := v.boot.recState = 1 ∧ s.boot.recOwner = o
      let fits := 8 ≤ k ∧ k ≤ (if mp = none then 524288 else 1488) ∧ k % 8 = 0
      let y : State := { b with boot.recAccepted := at_ + k, boot.recHeard := u.elapsed }.ramWrite (recAt at_) d
      let m := y.recManifest
      let row : Instr := .recChunk dt mp off n data
      ignored row 2 ∧
      (serves → ¬ mine → becomes row 2 b 0) ∧
      (serves → mine → ¬ fits → becomes row 2 (fails b 12) 0) ∧
      (serves → mine → fits → at_ ≠ s.boot.recAccepted → becomes row 2 (fails b 11) 0) ∧
      (serves → mine → fits → at_ = s.boot.recAccepted → s.boot.recTotal < at_ + k → becomes row 2 (fails b 12) 0) ∧
      (serves → mine → fits → at_ = s.boot.recAccepted → at_ + k ≤ s.boot.recTotal →
        (at_ + k < 512 → s.boot.recManOk = false → s.boot.recSigOk = false → becomes row 2 y 0) ∧
        (512 ≤ at_ + k → min 65536 (manLen m) ≤ at_ + k → s.boot.recManOk = false →
          (u.manFail m ≠ 0 → becomes row 2 (fails y (u.manFail m)) 0) ∧
          (u.manFail m = 0 → (manBlocks m + 1) * 65536 ≠ s.boot.recTotal → becomes row 2 (fails y 12) 0) ∧
          (u.manFail m = 0 → (manBlocks m + 1) * 65536 = s.boot.recTotal → at_ + k < 131072 → s.boot.recSigOk = false →
            becomes row 2 { y with boot.recManOk := true } 0)) ∧
        (s.boot.recManOk = true → s.boot.recSigOk = false → becomes row 2 (y.recHash 1022) 0 ∧
          ∀ j, s.boot.recBlocks ≤ j → j < (y.recHash 1022).boot.recBlocks → j < manBlocks m ∧ 65536 * (j + 2) ≤ at_ + k ∧
            sha384 (mreads y.ram (recAt (65536 * (j + 1))) 65536) = manHash m j))) ∧
    (∀ f,
      let mine := v.boot.recState = 1 ∧ s.boot.recOwner = o ∧ s.boot.recTotal ≤ s.boot.recAccepted
      let good := s.boot.recSigOk = true ∧ s.boot.recBad = none
      let done : State := { b with boot.recHeard := u.elapsed, boot.recFinish := some f, boot.recBusy := true }
      ignored (.recFinish dt mp f) 3 ∧
      (serves → ¬ mine → becomes (.recFinish dt mp f) 3 b 0) ∧
      (serves → mine → ¬ good → becomes (.recFinish dt mp f) 3 { done with boot.recState := 2 } 0) ∧
      (serves → mine → good → f = false → Completes (.recFinish dt mp f) s fun t =>
        starts { done with boot.recState := 4, boot.fromHost := true, boot.trial := false, boot.fallback := false, boot.bootedSlot := 0 } u.recManifest t ∧
        t.boot.fromHost = true ∧ t.boot.trial = false ∧ replies 3 { done with boot.recState := 4 } v.boot.recFail t) ∧
      (serves → mine → good → f = true → Completes (.recFinish dt mp f) s fun t =>
        Agree { done.setSlot u.recSlot {} with boot.recState := 3, boot.recTarget := u.recSlot } t ∧
        (t.slot u.recSlot).state = 0xFFFFFFFF ∧ .flash u.recSlot 16 0 ∈ t.out ∧ replies 3 { done with boot.recState := 3 } v.boot.recFail t)) ∧
    (ignored (.recAbort dt mp) 4 ∧
      (serves → ¬ (active ∧ s.boot.recOwner = o) → becomes (.recAbort dt mp) 4 b 0) ∧
      (serves → active ∧ s.boot.recOwner = o → becomes (.recAbort dt mp) 4
        { b with boot.recState := 0, boot.recAccepted := 0, boot.recBlocks := 0, boot.recFinish := none } 0))) ∧
  u.recSlot = (if u.candidates.head? = some 1 then 0 else 1) ∧
  (∀ g,
    let i := s.boot.recTarget
    let m := u.recManifest
    (s.boot.recState ≠ 3 ∨ s.boot.recBusy = false → Completes (.recFlashWriteDone dt g) s fun t => t = u) ∧
    (s.boot.recState = 3 → s.boot.recBusy = true → i ≤ 1 → Completes (.recFlashWriteDone dt g) s fun t =>
      let y := u.setSlot i (if g = true then { magic := 0x53454C53, format := 0x10, state := 0xFFFFFF00, sequence := u.nextSequence, trial := 0, manifest := m }
        else { u.slot i with state := 0 })
      starts { y with boot.bootedSlot := i, boot.fromHost := false, boot.trial := g, boot.fallback := false } m t ∧
      t.boot.bootedSlot = i ∧ t.boot.trial = g ∧ t.boot.fromHost = false ∧ (t.slot i).state = (if g = true then 0xFFFFFF00 else 0))) ∧
  Completes (.recTransferTimeout dt) s (fun t => t = v) ∧
  (∀ mac ver,
    (s.glb.mode ≠ .recovery ∨ s.ports.mp.up = false → Completes (.recStatusRequest dt mac ver) s fun t => t = u) ∧
    (s.glb.mode = .recovery → s.ports.mp.up = true → Completes (.recStatusRequest dt mac ver) s fun t => Agree u t ∧ (s.ports.mp.half = false →
      .mpFrame mac (be 0x88B5 2 ++ be 0x5245 2 ++ le 0x10 1 ++ le 133 1 ++ le 0 2 ++ be (u.recStatus (if ver / 16 = 1 then s.boot.recFail else 12)) 4 ++ be 0 2) ∈ t.out)))

/-- R440-R445: the BOOT registers are answered; an image is written to the slot that did not boot, from its start on and in order, and becomes
`PENDING` with the next sequence only if its manifest, signature and blocks pass; a flash error ends the command; the counter, the key slots and their revocation only advance, and within
their conditions. Conventions of the model that it rests on: notes/assumptions/6, 36, 137, 139, 143, 145. -/
def Obligations.BootCommands : Prop := ∀ (s : State) (dt : Nat) (p : Path) (x : Session) (q : TReq),
  let u := s.elapse dt
  let b := s.boot
  let refused := fun (i : Instr) (code : Nat) => Completes i s fun t => Agree u t ∧ t.Answered p q code []
  (Issued u p x q 0x0C01 0 .any → Completes (.bootStatus dt p) s fun t => Agree u t ∧
    t.Answered p q 0 [u.bootStatus, u.bootSv, u.bootKeys, b.attempts, b.loadUs, b.slotA.reg, b.slotB.reg]) ∧
  (∀ n, Issued u p x q 0x0C02 1 .any →
    let fits := n % 65536 = 0 ∧ 131072 ≤ n ∧ n ≤ 67043328
    let i := 1 - b.bootedSlot
    let free := u.updateOf = none ∨ u.updateOf = some p
    (∀ e, ¬ fits → refused (.imageWriteBegin dt p n e) 0x03000140) ∧
    (∀ o e, fits → u.updateOf = some o → o ≠ p → refused (.imageWriteBegin dt p n e) 0x01000140) ∧
    (fits → free → Completes (.imageWriteBegin dt p n false) s fun t => t.Answered p q 0 [i] ∧ .flash i 16 0 ∈ t.out ∧
      Agree { u.setSlot i {} with
        ram := mzero u.ram (imageAt 0) (2 ^ 26)
        boot.updating := some (p, x.gen), boot.updTarget := i, boot.updLen := n, boot.updDone := 0 } t) ∧
    (fits → free → Completes (.imageWriteBegin dt p n true) s fun t => t.Answered p q 0x02000142 [9, 0] ∧
      Agree ({ u.setSlot i { u.slot i with state := 0 } with boot.updating := none } : State) t)) ∧
  (∀ a o n d, Issued u p x q 0x0C03 3 .any →
    let fits := 8 ≤ n ∧ n ≤ 1048576 ∧ n % 8 = 0 ∧ (u.updateOf = some p → o + n ≤ b.updLen)
    (∀ e, badAddr p a = true → refused (.imageWrite dt p a o n d e) 0x03000F02) ∧
    (∀ e, badAddr p a = false → ¬ fits → refused (.imageWrite dt p a o n d e) 0x03000140) ∧
    (∀ e, badAddr p a = false → fits → u.updateOf ≠ some p ∨ o ≠ b.updDone → refused (.imageWrite dt p a o n d e) 0x02000140) ∧
    (badAddr p a = false → fits → u.updateOf = some p → o = b.updDone → Completes (.imageWrite dt p a o n d false) s fun t =>
      t.Answered p q 0 [] ∧
      Agree { u.ramWrite (imageAt o) (if a < 2 ^ 63 then slice d 0 n else mreads u.ram (stageAt x.number a) n) with boot.updDone := o + n } t) ∧
    (badAddr p a = false → fits → u.updateOf = some p → o = b.updDone → Completes (.imageWrite dt p a o n d true) s fun t =>
      Agree u t ∧ t.Answered p q 0x02000142 [9, 0])) ∧
  (Issued u p x q 0x0C04 0 .any →
    let m := mreads u.ram (imageAt 0) (min 65536 (manLen (mreads u.ram (imageAt 0) 512)))
    let left := fun (y : Slot) => ({ u.setSlot b.updTarget y with ram := mzero u.ram (imageAt 0) (2 ^ 26), boot.updating := none } : State)
    (∀ e, u.updateOf ≠ some p → refused (.imageWriteEnd dt p e) 0x02000140) ∧
    (u.updateOf = some p → Completes (.imageWriteEnd dt p false) s fun t =>
      let fails := fun r n => t.Answered p q 0x02000142 [r, n] ∧ Agree (left {}) t
      (u.manFail m ≠ 0 → fails (u.manFail m) 0) ∧
      (u.manFail m = 0 → u.sigFail m ≠ 0 → fails (u.sigFail m) 0) ∧
      (∀ n, u.manFail m = 0 → u.sigFail m = 0 → u.imageBad m = some n → fails 8 n) ∧
      (u.manFail m = 0 → u.sigFail m = 0 → u.imageBad m = none → t.Answered p q 0 [b.updTarget, u.nextSequence] ∧
        Agree (left { magic := 0x53454C53, format := 0x10, state := 0xFFFFFF00, sequence := u.nextSequence, manifest := m }) t)) ∧
    (u.updateOf = some p → Completes (.imageWriteEnd dt p true) s fun t => t.Answered p q 0x02000142 [9, 0] ∧ Agree (left {}) t)) ∧
  (∀ v al, Issued u p x q 0x0C06 2 .any → al ≤ 1 →
    let other := u.slot (1 - b.bootedSlot)
    let open_ := u.counter < v ∧ v ≤ b.sv ∧ (b.trial = false ∨ b.markedValid = true) ∧ b.fromHost = false
    (¬ open_ → refused (.bootRollbackCommit dt p v al) 0x02000145) ∧
    (open_ → other.code = 3 → manSv other.manifest < v → al = 0 → refused (.bootRollbackCommit dt p v al) 0x02000146) ∧
    (open_ → (other.code ≠ 3 ∨ v ≤ manSv other.manifest ∨ al = 1) → Completes (.bootRollbackCommit dt p v al) s fun t =>
      t.Answered p q 0 [t.counter] ∧ (v ≤ 1024 → v ≤ t.counter) ∧ Agree { u with fuse.counter := s.fuse.counter ||| (2 ^ v - 1) } t)) ∧
  (∀ k h, Issued u p x q 0x0C07 7 .any →
    (3 < k → refused (.bootKeyProgram dt p k h) 0x03000141) ∧
    (k ≤ 3 → (u.keySlot k).programmed ≠ 0 → refused (.bootKeyProgram dt p k h) 0x02000144) ∧
    (k ≤ 3 → (u.keySlot k).programmed = 0 → Completes (.bootKeyProgram dt p k h) s fun t => t.Answered p q 0 [] ∧
      Agree { u with fuse.keys := s.fuse.keys.set k { u.keySlot k with hash := (u.keySlot k).hash ||| ofLe (h.flatMap (fun f => le f 8)), programmed := 255 } } t)) ∧
  (∀ k, Issued u p x q 0x0C08 1 .any →
    (3 < k → refused (.bootKeyRevoke dt p k) 0x03000141) ∧
    (k ≤ 3 → (∀ i < 4, i ≠ k → (u.keySlot i).live = false) → refused (.bootKeyRevoke dt p k) 0x02000143) ∧
    (k ≤ 3 → (∃ i < 4, i ≠ k ∧ (u.keySlot i).live = true) → Completes (.bootKeyRevoke dt p k) s fun t => t.Answered p q 0 [] ∧
      Agree { u with fuse.keys := s.fuse.keys.set k { u.keySlot k with revoked := 255 } } t))

/-- R449-R460: a word the scrubber reads with one or two bad symbols is corrected, logged and counted, and a page with too many of two is retired; one with three or more is
poisoned where its owner keeps it, logged, counted and reported, its page retired, and in TD0's or shared state that is Lockdown; a word poisoned already is only counted; in Lockdown it is
logged and counted alone. The period's count is cleared at its end. The commands read the counters, the log and the retirement list, and set the pace, a page's retirement and inverted
symbols within their bounds. Conventions of the model that it rests on: notes/assumptions/6, 146, 147, 148, 149, 150. -/
def Obligations.MemoryIntegrity : Prop := ∀ (s : State) (dt : Nat) (p : Path) (x : Session) (q : TReq),
  let u := s.elapse dt
  let refused := fun (i : Instr) (code : Nat) => Completes i s fun t => Agree u t ∧ t.Answered p q code []
  let period := u.now / grid 20
  let logC := fun (r : Bytes) => (s.mem.logC ++ [r]).drop (s.mem.logC.length + 1 - 192)
  let logU := fun (r : Bytes) => (s.mem.logU ++ [r]).drop (s.mem.logU.length + 1 - 64)
  let name := fun (d : Nat) => if d < 16 then d else 255
  let found := fun (v : State) (d : Nat) =>
    let e := v.uePeriodEnd (if d < 16 then d else 16)
    ({ e with mem.uePeriod := tset e.mem.uePeriod (if d < 16 then d else 16) (period, (tget e.mem.uePeriod (if d < 16 then d else 16) (period, 0)).2 + 1) } : State)
  (u.Plain → ∀ a st c m k d n,
    let w := u.rollPass
    let row : Instr := .scrubRead dt a st c m k d n
    let word := cisternAt d n / 32
    let bad := if k = 0 then m ||| tget s.mem.bad word 0 else m
    let v : State := if k = 0 then { w with mem.bad := tdel s.mem.bad word } else w
    let owner := if k ≤ 4 then d else 255
    let page := a / 65536
    let count := fun (i : Nat) => tset s.mem.stackErrs st (bump (bump (u.stackCounters st) i) 4)
    let hour := u.now / grid 30
    let alerts := if (tget s.mem.cePeriod st (hour, 0)).1 = hour then (tget s.mem.cePeriod st (hour, 0)).2 + 1 else 1
    let fixed : State := { v with
      mem.logC := logC (memRecord u.now a 0 (symbols bad) (name owner) 1 st c bad 1)
      mem.stackErrs := count (symbols bad - 1), mem.cePeriod := tset s.mem.cePeriod st (hour, alerts) }
    let record := fun act => memRecord u.now a 0 3 (name owner) 1 st c 0 act
    let logged := fun act => ({ (v.hbmPoison k d n).stackCount1 st 2 with mem.logU := logU (record act), mem.lastUe := a } : State)
    let counted := fun act => if owner < 16 then (logged act).memDom owner 0 else logged act
    (u.stackCount ≤ st → Completes row s fun t => t = u) ∧
    (st < u.stackCount → u.hbmBad k d n = true → Completes row s fun t => t = v.stackCount1 st 3) ∧
    (st < u.stackCount → u.hbmBad k d n = false → symbols bad = 0 → Completes row s fun t => t = w) ∧
    (st < u.stackCount → u.hbmBad k d n = false → symbols bad = 1 → Completes row s fun t => Agree fixed t) ∧
    (st < u.stackCount → u.hbmBad k d n = false → symbols bad = 2 →
      let seen := tget w.mem.c2 page []
      let now := if seen.contains a then seen else seen ++ [a]
      let y : State := { fixed with mem.c2 := tset w.mem.c2 page now }
      (now.length < w.mem.cfg.retireC2 → Completes row s fun t => Agree y t) ∧
      (w.mem.cfg.retireC2 ≤ now.length → Completes row s fun t => Agree (y.markPage owner (hbmPageKey k owner n page, page) []) t ∧
        (t.mem.retired.contains page || t.mem.marked.contains (hbmPageKey k owner n page, page)) = true)) ∧
    (st < u.stackCount → u.hbmBad k d n = false → 3 ≤ symbols bad →
      (s.glb.mode = .lockdown → Completes row s fun t => t = counted 4) ∧
      (s.glb.mode ≠ .lockdown → k ≤ 4 → 0 < d → d ≤ 16 → s.glb.mode ≠ .factory → Completes row s fun t => t.glb.mode = s.glb.mode ∧
        Agree ((found (counted 3) d).markPage d (hbmPageKey k d n page, page) []) t ∧
        (k = 0 → t.mem.poison.contains word = true) ∧ (2 ≤ k → t.mem.marks.length = s.mem.marks.length + 1) ∧
        (t.mem.retired.contains page || t.mem.marked.contains (hbmPageKey k d n page, page)) = true) ∧
      (s.glb.mode ≠ .lockdown → 4 < k ∨ d = 0 ∨ 16 < d ∨ s.glb.mode = .factory → Completes row s fun t => t.glb.mode = .lockdown ∧
        t.glb.entryCause = 0x11 ∧ t.mem.logU = logU (record 4) ∧ t.mem.lastUe = a ∧ t.stackCounters st = bump (u.stackCounters st) 2))) ∧
  (u.Plain → ∀ st o m d k,
    let row : Instr := .sramScrubRead dt st o m d k
    let here := st = 3 ∨ st = 8
    let word := localAt k o / 32
    let bad := if here then m ||| tget s.mem.bad word 0 else m
    let v : State := if here then { u with mem.bad := tdel s.mem.bad word } else u
    let shared := st = 6 ∨ 8 ≤ st
    let owner := if shared then 255 else if st = 3 then (u.coreDom k).getD 16 else d
    let record := fun act => memRecord u.now o st 3 (name owner) 1 0xFF 0xFF 0 act
    let logged := fun act => ({ (v.sramPoison st k o).sramCount 1 with mem.logU := logU (record act), mem.lastUe := o } : State)
    let counted := fun act => if owner < 16 then (logged act).memDom owner 0 else logged act
    let reads := 1 ≤ st ∧ st ≤ 9 ∧ ¬ (here ∧ s.mem.poison.contains word = true)
    (st = 0 ∨ 9 < st ∨ symbols bad = 0 → Completes row s fun t => t = u) ∧
    (here → s.mem.poison.contains word = true → 1 ≤ symbols bad → Completes row s fun t => t = v) ∧
    (reads → 1 ≤ symbols bad → symbols bad ≤ 2 → Completes row s fun t =>
      t = { v.sramCount 0 with mem.logC := logC (memRecord u.now o st (symbols bad) (name owner) 1 0xFF 0xFF bad 1) }) ∧
    (reads → 3 ≤ symbols bad → s.glb.mode = .lockdown → Completes row s fun t => t = counted 4) ∧
    (reads → 3 ≤ symbols bad → s.glb.mode ≠ .lockdown → 0 < owner → owner ≤ 16 → s.glb.mode ≠ .factory → Completes row s fun t =>
      t.glb.mode = s.glb.mode ∧ Agree (found (counted 2) owner) t ∧ (st = 3 → t.mem.poison.contains word = true)) ∧
    (reads → 3 ≤ symbols bad → s.glb.mode ≠ .lockdown → owner = 0 ∨ 16 < owner ∨ s.glb.mode = .factory → Completes row s fun t =>
      t.glb.mode = .lockdown ∧ t.glb.entryCause = 0x11 ∧ t.mem.logU = logU (record 4) ∧ t.mem.lastUe = o)) ∧
  (u.Plain → ∀ d,
    ((∀ e, tget? s.mem.uePeriod d = some e → period ≤ e.1) → Completes (.ueReportPeriodEnd dt d) s fun t => t = u) ∧
    (∀ e, tget? s.mem.uePeriod d = some e → e.1 < period →
      (e.2 ≤ 64 ∨ s.glb.mode = .lockdown → Completes (.ueReportPeriodEnd dt d) s fun t => t = { u with mem.uePeriod := tdel s.mem.uePeriod d }) ∧
      (64 < e.2 → s.glb.mode ≠ .lockdown → Completes (.ueReportPeriodEnd dt d) s fun t => Agree { u with mem.uePeriod := tdel s.mem.uePeriod d } t))) ∧
  (∀ d, Issued u p x q 0x0820 1 (.owner d) → d < 16 → Completes (.memStatus dt p d) s fun t => Agree u t ∧
    t.Answered p q 0 ([u.memStatus, s.mem.retired.length] ++ u.memDoms d ++ if x.dom = 0 then
      (List.range u.stackCount).flatMap u.stackCounters ++ s.mem.sram ++ (List.range 16).flatMap u.memDoms else [])) ∧
  (∀ a b c e, Issued u p x q 0x0821 4 .any →
    let fits := 32 ≤ a ∧ a ≤ 40 ∧ 28 ≤ b ∧ b ≤ 36 ∧ 1 ≤ c ∧ c ≤ 15 ∧ e ≤ 4095
    (¬ fits → refused (.memScrubConfig dt p a b c e) 0x03000820) ∧
    (fits → Completes (.memScrubConfig dt p a b c e) s fun t => t.Answered p q 0 [] ∧
      Agree { u.rollPass with mem.cfgNext := some { scrub := a, sram := b, retireC2 := c, ceAlertK := e }, mem.sramNext := some b } t)) ∧
  (∀ v : State,
    let age := v.elapsed - v.mem.sramAt
    let old := v.elapsed - v.mem.passAt
    (age < grid v.mem.cfg.sram → old < grid v.mem.cfg.scrub → v.rollPass = v) ∧
    (∀ c, age < grid v.mem.cfg.sram → grid v.mem.cfg.scrub ≤ old → v.mem.cfgNext = some c → old < grid v.mem.cfg.scrub + grid c.scrub →
      v.rollPass = { v with mem.cfg := { c with sram := v.mem.cfg.sram }, mem.cfgNext := none, mem.passAt := v.mem.passAt + grid v.mem.cfg.scrub
                            mem.passes := min 65535 (v.mem.passes + 1), mem.c2 := [] }) ∧
    (∀ b, grid v.mem.cfg.sram ≤ age → age < grid v.mem.cfg.sram + grid b → old < grid v.mem.cfg.scrub → v.mem.sramNext = some b →
      v.rollPass = { v with mem.cfg.sram := b, mem.sramNext := none, mem.sramAt := v.mem.sramAt + grid v.mem.cfg.sram })) ∧
  (∀ a n,
    let log := (s.mem.logC ++ s.mem.logU).flatten
    (Issued u p x q 0x0822 2 .any →
      (badAddr p a = true → refused (.memErrorLog dt p a n) 0x03000F02) ∧
      (badAddr p a = false → Completes (.memErrorLog dt p a n) s fun t => t.Answered p q 0 [s.mem.logC.length, s.mem.logU.length] ∧
        Agree (u.cmdWrite p a (log.take n)) t)) ∧
    (Issued u p x q 0x0823 2 .any →
      (badAddr p a = true → refused (.memRetiredList dt p a n) 0x03000F02) ∧
      (badAddr p a = false → n < 8 * s.mem.retired.length → refused (.memRetiredList dt p a n) 0x02000820) ∧
      (badAddr p a = false → 8 * s.mem.retired.length ≤ n → Completes (.memRetiredList dt p a n) s fun t => t.Answered p q 0 [s.mem.retired.length] ∧
        Agree (u.cmdWrite p a (s.mem.retired.flatMap (fun n => le n 8))) t))) ∧
  (∀ n, Issued u p x q 0x0824 1 .any → n < 2098961 + 98304 →
    let given := 0 < (u.doms.map (fun d => (u.rmDom d).usedPages + (u.rmDom d).bufs.length)).sum + u.zeroingPages
    let v := if given then u.used else u
    let may := s.glb.mode = .priming ∧ 98304 ≤ n ∧ n < u.pagesTotal + 98304 ∧ s.mem.marked.any (fun m => m.2 == n) = false
    let done := fun (t : State) => t.Answered p q 0 [] ∧
      Agree { v with mem.retired := if s.mem.retired.contains n then s.mem.retired else s.mem.retired ++ [n] } t
    let turned := fun (t : State) => t.Answered p q 0x02000821 [] ∧ Agree v t
    (¬ may → Completes (.memRetirePage dt p n) s turned) ∧
    (may → ¬ given → Completes (.memRetirePage dt p n) s done) ∧
    (may → given → Completes (.memRetirePage dt p n) s fun t => done t ∨ turned t)) ∧
  (∀ d a m, Issued u p x q 0x0825 3 (.owner d) → d < 16 → m < 2 ^ 36 →
    let names := 0 < m ∧ a % 32 = 0 ∧ (u.cisternOk d a 32 = true ∨ u.itemOk d a 32 = true)
    let word := cisternAt d a / 32
    let left := tget s.mem.bad word 0 ^^^ m
    (¬ names → refused (.memInject dt p d a m) 0x03000821) ∧
    (names → s.glb.mode ≠ .factory → u.debugOpen d 2 = false → refused (.memInject dt p d a m) 0x02000822) ∧
    (names → s.glb.mode = .factory ∨ u.debugOpen d 2 = true → Completes (.memInject dt p d a m) s fun t => t.Answered p q 0 [] ∧
      Agree { u with mem.bad := if left = 0 then tdel s.mem.bad word else tset s.mem.bad word left } t))

/-- R462-R468: the line is ignored from a bad header to a line reset; a request whose sequence repeats is answered with the kept response; a bad payload CRC, a wrong form and a mode that does not
serve the request are each refused; without a session only CONNECT is served, which ends an open session and opens one where 1.0 is offered; a session ends on DISCONNECT, on silence and by
command, and with it its breakpoints, halts and Tosen session. The reason of a class 0x03 refusal is a free value. Conventions of the model that it
rests on: notes/assumptions/151, 152, 153, 154, 155, 156, 157, 158. -/
def Obligations.WindlassSession : Prop := ∀ (s : State) (dt seq : Nat) (c : Bool) (f : List Nat) (b : Bytes),
  let u := s.elapse dt
  let v := u.probed
  let rows : List (Nat × Instr) := [(0x02, .disconnect dt seq c f), (0x03, .wlStatus dt seq c f), (0x04, .csrRead dt seq c f), (0x10, .wlHalt dt seq c f),
    (0x11, .wlResume dt seq c f), (0x12, .wlStep dt seq c f), (0x13, .bpSet dt seq c f), (0x14, .bpClear dt seq c f), (0x15, .regRead dt seq c f),
    (0x16, .regWrite dt seq c f), (0x17, .wlMemRead dt seq c f), (0x18, .wlMemWrite dt seq c f), (0x19, .wlChanAbandon dt seq c f), (0x20, .wlTosen dt seq c b),
    (0x21, .poll dt seq c f)]
  let closed := fun (w : State) => ({ w with
    tosen.sessions := u.tosen.sessions.filter (fun x => !(x.path == .windlass)), tosen.opens := s.tosen.opens.filter (fun x => x.1 != .windlass)
    dbg := { w.dbg with connected := false, agreed := 0, bps := [], queue := [], lost := 0 } } : State).debugAll 2
  let ended := fun (t : State) => t.dbg.connected = false ∧ t.dbg.agreed = 0 ∧ t.dbg.bps = [] ∧ t.session? .windlass = none ∧
    ∀ k w, s.dbg.halted = [(k, w)] → (u.thr (k / 8) (k % 8)).state = .halted → (u.thr (k / 8) (k % 8)).blocked = none → (u.core (k / 8)).state = .running → k % 8 < 8 →
      t.dbg.halted = []
  u.Plain →
  Completes (.lineReset dt) s (fun t => t = { u with dbg.deaf := false }) ∧
  (s.dbg.deaf = true → Completes (.wlHeaderCrcFail dt) s fun t => t = u) ∧
  (s.dbg.deaf = false → Completes (.wlHeaderCrcFail dt) s fun t => t = { u with dbg.deaf := true }.dbgCount 1) ∧
  (s.dbg.deaf = true → Completes (.connect dt seq c f) s (fun t => t = u) ∧ ∀ r ∈ rows, Completes r.2 s fun t => t = u) ∧
  (s.dbg.deaf = false →
    (∀ k, s.dbg.last = some k → k.seq = seq → Completes (.connect dt seq c f) s (fun t => t = v.emit (.windlass (k.type + 0x80) seq k.cls k.fields)) ∧
      ∀ r ∈ rows, Completes r.2 s fun t => t = v.emit (.windlass (k.type + 0x80) seq k.cls k.fields)) ∧
    ((∀ k, s.dbg.last = some k → k.seq ≠ seq) →
      (c = false → f ≠ [] → b ≠ [] →
        Completes (.connect dt seq c f) s (fun t => ∃ why, 1 ≤ why ∧ why ≤ 6 ∧ t = (v.dbgCount 2).used.wlRespond 0x01 seq 3 [why]) ∧
        ∀ r ∈ rows, Completes r.2 s fun t => ∃ why, 1 ≤ why ∧ why ≤ 6 ∧ t = (v.dbgCount 2).used.wlRespond r.1 seq 3 [why]) ∧
      (c = true → s.dbg.connected = false → ∀ r ∈ rows, Completes r.2 s fun t => t = v.wlRespond r.1 seq 3 [2]) ∧
      (c = true → s.dbg.connected = true → s.firmware = false → f.head? ≠ some 0xFF → ∀ r ∈ rows, r.1 ≠ 0x02 → r.1 ≠ 0x04 →
        Completes r.2 s fun t => t = v.wlRespond r.1 seq 2 [4]) ∧
      (c = true → s.dbg.connected = true → s.firmware = true → f.length = 7 → nth f 3 = 0 → b.length = 8 → ∀ r ∈ rows,
        Completes r.2 s fun t => ∃ why, 1 ≤ why ∧ why ≤ 6 ∧ t = v.used.wlRespond r.1 seq 3 [why]) ∧
      (c = true → f.length ≠ 3 → Completes (.connect dt seq c f) s fun t => ∃ why, 1 ≤ why ∧ why ≤ 6 ∧ t = v.used.wlRespond 0x01 seq 3 [why]) ∧
      (∀ a y z, c = true → f = [a, y, z] →
        (a ≠ 1 ∨ y ≠ 0 → Completes (.connect dt seq c f) s fun t => t = v.wlRespond 0x01 seq 5 []) ∧
        (a = 1 → y = 0 → s.dbg.connected = false → s.tosen.sessions = [] → Completes (.connect dt seq c f) s fun t =>
          t = ({ v with dbg.connected := true, dbg.agreed := 0x10 }.debugAll 1).wlRespond 0x01 seq 0 [0x10, u.glbId, s.fuse.serial, u.glbMode, u.dbgRights]) ∧
        (a = 1 → y = 0 → s.dbg.connected = true → s.dbg.halted = [] → s.tosen.sessions = [] → Completes (.connect dt seq c f) s fun t =>
          t = ({ closed v with dbg.connected := true, dbg.agreed := 0x10 }.debugAll 1).wlRespond 0x01 seq 0 [0x10, u.glbId, s.fuse.serial, u.glbMode, u.dbgRights])) ∧
      (c = true → f = [] → s.dbg.connected = true →
        Completes (.disconnect dt seq c f) s ended ∧
        (s.dbg.halted = [] → s.tosen.sessions = [] → Completes (.disconnect dt seq c f) s fun t => t = (closed v).wlRespond 0x02 seq 0 [])))) ∧
  (s.dbg.connected = false ∨ u.elapsed < s.dbg.heard + grid 30 → Completes (.wlSessionIdleTimeout dt) s fun t => t = u) ∧
  (s.dbg.connected = true → s.dbg.heard + grid 30 ≤ u.elapsed →
    Completes (.wlSessionIdleTimeout dt) s ended ∧ (s.dbg.halted = [] → s.tosen.sessions = [] → Completes (.wlSessionIdleTimeout dt) s fun t => t = closed u)) ∧
  Completes (.wlProbeDisconnect dt) s (fun t => t = { u with
    tosen.sessions := u.tosen.sessions.filter (fun x => !(x.path == .windlass)), tosen.opens := s.tosen.opens.filter (fun x => x.1 != .windlass) })

/-- R467-R472, R476, R477: threads halt, resume and step where their state allows it; breakpoints are set and cleared; registers and memory are read and
written with the rights of their domain, poisoned bytes withheld; a channel's message is abandoned; Tosen packets go in and come out. A request that lacks a right is of class 0x04, its reason a
free value. Conventions of the model that it rests on: notes/assumptions/6, 17, 36, 70, 71, 84, 129, 151, 152, 154, 155, 156, 157, 158. -/
def Obligations.WindlassRequests : Prop := ∀ (s : State) (dt seq : Nat), Probes (s.elapse dt) seq →
  let u := s.elapse dt
  let v := u.probed
  let answers := fun (i : Instr) (type cls : Nat) (fs : List Nat) => Completes i s fun t => t = v.wlRespond type seq cls fs
  let barred := fun (i : Instr) (type : Nat) => Completes i s fun t => ∃ why, 1 ≤ why ∧ why ≤ 6 ∧ t = v.used.wlRespond type seq 4 [why]
  let ill := fun (i : Instr) (type : Nat) => Completes i s fun t => ∃ why, 1 ≤ why ∧ why ≤ 6 ∧ t = v.used.wlRespond type seq 3 [why]
  answers (.wlStatus dt seq true [0xFF]) 0x03 0 [u.glbMode, u.dbgStatus] ∧
  (∀ a,
    (a % 4 ≠ 0 → ill (.csrRead dt seq true [a]) 0x04) ∧
    (a % 4 = 0 → u.debugOpen 0 0 = false → barred (.csrRead dt seq true [a]) 0x04) ∧
    (a % 4 = 0 → u.debugOpen 0 0 = true → u.barSize 0 ≤ a → answers (.csrRead dt seq true [a]) 0x04 2 [3]) ∧
    (a % 4 = 0 → u.debugOpen 0 0 = true → a < u.barSize 0 → Completes (.csrRead dt seq true [a]) s fun t =>
      t = (v.readPhase 0 a).2.wlRespond 0x04 seq 0 [(v.readPhase 0 a).1])) ∧
  (∀ c d, u.wlCore c = none → c ≠ 0xFF → d < 256 →
    answers (.wlStatus dt seq true [c]) 0x03 2 [1] ∧ answers (.wlHalt dt seq true [c, d]) 0x10 2 [1] ∧ answers (.wlResume dt seq true [c, d]) 0x11 2 [1] ∧
    answers (.wlStep dt seq true [c, d, 1]) 0x12 2 [1] ∧ answers (.bpSet dt seq true [c, 0, 1, d, 0, 4]) 0x13 2 [1] ∧ answers (.bpClear dt seq true [c, 0]) 0x14 2 [1] ∧
    answers (.regRead dt seq true [c, d, 0]) 0x15 2 [1] ∧ answers (.regWrite dt seq true [c, d, 0, 0]) 0x16 2 [1] ∧
    answers (.wlMemRead dt seq true [0, c, d, 8]) 0x17 2 [1] ∧ answers (.wlMemWrite dt seq true [0, c, d, 8, 0]) 0x18 2 [1]) ∧
  (∀ c d h, u.wlCore c = some d → h < 8 →
    let x := u.thr c h
    let on := (u.core c).state = .running
    (u.debugOpen d 0 = false → barred (.wlStatus dt seq true [c]) 0x03 ∧ barred (.regRead dt seq true [c, h, 0]) 0x15 ∧ barred (.regWrite dt seq true [c, h, 1, 0]) 0x16 ∧
      barred (.wlMemRead dt seq true [0, c, 0, 8]) 0x17) ∧
    (u.debugOpen d 2 = false → barred (.regWrite dt seq true [c, h, 1, 0]) 0x16 ∧ barred (.wlMemWrite dt seq true [0, c, 0, 8, 0]) 0x18) ∧
    (u.debugOpen d 1 = false → barred (.wlHalt dt seq true [c, 2 ^ h]) 0x10 ∧ barred (.wlResume dt seq true [c, 2 ^ h]) 0x11 ∧
      barred (.wlStep dt seq true [c, h, 1]) 0x12 ∧ barred (.bpSet dt seq true [c, h, 1, 1, 0, 4]) 0x13 ∧ barred (.bpClear dt seq true [c, h]) 0x14) ∧
    (u.debugOpen d 0 = true → answers (.wlStatus dt seq true [c]) 0x03 0 [u.glbMode, u.dbgStatus, u.pmpCoreState c, u.pmpThreads c, u.haltCauses c]) ∧
    (u.debugOpen d 1 = true →
      (∀ m, m < 256 →
        (¬ on ∨ (∃ i < 8, m.testBit i = true ∧ (u.thr c i).live = false) → answers (.wlHalt dt seq true [c, m]) 0x10 2 [2]) ∧
        (on → (∀ i < 8, m.testBit i = true → (u.thr c i).live = true) → s.tosen.sessions = [] → Completes (.wlHalt dt seq true [c, m]) s fun t =>
          t = ((threadsOf m).foldl (fun (y : State) i => y.haltThr c i 1 0) v).wlRespond 0x10 seq 0 [m]) ∧
        (¬ on ∨ (∃ i < 8, m.testBit i = true ∧ (u.thr c i).state ≠ .halted) → answers (.wlResume dt seq true [c, m]) 0x11 2 [2]) ∧
        (on → (∀ i < 8, m.testBit i = true → (u.thr c i).state = .halted) → s.tosen.sessions = [] → Completes (.wlResume dt seq true [c, m]) s fun t =>
          t = ((threadsOf m).foldl (fun (y : State) i => y.wlResume c i) v).wlRespond 0x11 seq 0 [])) ∧
      (on → x.live = true → x.state ≠ .halted → s.tosen.sessions = [] → x.subs = [] → Completes (.wlHalt dt seq true [c, 2 ^ h]) s fun t =>
        (t.thr c h).state = .halted ∧ (t.thr c h).under = x.state ∧ tget? t.dbg.halted (tkey c h) = some (1, 0)) ∧
      (on → x.state = .halted → x.blocked = none → s.tosen.sessions = [] → Completes (.wlResume dt seq true [c, 2 ^ h]) s fun t =>
        t = (({ v.setThr c h { x with state := x.under, woke := false } with dbg.halted := tdel s.dbg.halted (tkey c h) }).debugEvent c h 4).wlRespond
          0x11 seq 0 []) ∧
      (∀ n,
        let steps : State := { v with
          dbg.halted := tdel s.dbg.halted (tkey c h), dbg.steps := [(tkey c h, (n, n))], dbg.stepped := tset s.dbg.stepped (tkey c h) 0 }
        (n = 0 ∨ 65535 < n → ill (.wlStep dt seq true [c, h, n]) 0x12) ∧
        (1 ≤ n → n ≤ 65535 →
          (answers (.wlStep dt seq true [c, 8 + h, n]) 0x12 2 [1]) ∧
          (¬ on ∨ x.state ≠ .halted → answers (.wlStep dt seq true [c, h, n]) 0x12 2 [2]) ∧
          (on → x.state = .halted → x.under = .ready → x.blocked = none → Completes (.wlStep dt seq true [c, h, n]) s fun t =>
            t = { steps.setThr c h { x with state := .ready, woke := false } with dbg.stepWait := some (seq, tkey c h) }) ∧
          (∀ m r, on → x.state = .halted → x.under = .waiting → x.blocked = some (.wfe m r) → x.pend &&& m = 0 → Completes (.wlStep dt seq true [c, h, n]) s fun t =>
            t = (steps.setThr c h { x with state := .waiting, woke := false }).wlRespond 0x12 seq 1 [5]))) ∧
      (∀ k m a n,
        let fits := (k = 1 ∧ n = 4 ∧ a % 4 = 0) ∨ (2 ≤ k ∧ k ≤ 4 ∧ n ∈ [1, 2, 4, 8, 16, 32, 64, 128, 256, 512, 1024, 2048, 4096] ∧ a % n = 0)
        (¬ (fits ∧ m < 256) → ill (.bpSet dt seq true [c, h, k, m, a, n]) 0x13) ∧
        (fits → m < 256 → Completes (.bpSet dt seq true [c, h, k, m, a, n]) s fun t =>
          t = { v with dbg.bps := tset s.dbg.bps (tkey c h) { kind := k, mask := m, addr := a, len := n } }.wlRespond 0x13 seq 0 [])) ∧
      Completes (.bpClear dt seq true [c, h]) s (fun t => t = { v with dbg.bps := tdel s.dbg.bps (tkey c h) }.wlRespond 0x14 seq 0 [])) ∧
    (∀ r, u.debugOpen d 0 = true →
      let named := r ≤ 32 ∨ (0x1000 ≤ r ∧ r ≤ 0x100F)
      let still := x.state = .halted ∨ (u.core c).state = .stopped
      (¬ named → answers (.regRead dt seq true [c, h, r]) 0x15 2 [1]) ∧
      (named → ¬ still → answers (.regRead dt seq true [c, h, r]) 0x15 2 [2]) ∧
      (r < 32 → still → answers (.regRead dt seq true [c, h, r]) 0x15 0 [u.reg c h r]) ∧
      (r = 32 → still → answers (.regRead dt seq true [c, h, r]) 0x15 0 [x.pc]) ∧
      (0x1000 ≤ r → r ≤ 0x100F → still → answers (.regRead dt seq true [c, h, r]) 0x15 0 [u.crValue c h (r - 0x1000)])) ∧
    (∀ r w, u.debugOpen d 0 = true → u.debugOpen d 2 = true →
      let named := r ≤ 32 ∨ (0x1000 ≤ r ∧ r ≤ 0x100F)
      let free := x.state = .halted ∧ (u.core c).state ≠ .stopped
      let fixed := r ∈ [0, 0x1000, 0x1004, 0x1005, 0x1007, 0x100D, 0x100E] ∨ (r = 32 ∧ w % 4 ≠ 0)
      let row : Instr := .regWrite dt seq true [c, h, r, w]
      (¬ named → answers row 0x16 2 [1]) ∧
      (named → ¬ free ∨ fixed → answers row 0x16 2 [2]) ∧
      (0 < r → r < 32 → free → s.tosen.sessions = [] → Completes row s fun t => t = ((v.setThr c h (x.setReg r w)).debugEvent c h 6).wlRespond 0x16 seq 0 []) ∧
      (r = 32 → w % 4 = 0 → free → s.tosen.sessions = [] → Completes row s fun t => t = ((v.setThr c h { x with pc := w, skip := none }).debugEvent c h 6).wlRespond 0x16 seq 0 []) ∧
      (0x1000 ≤ r → r ≤ 0x100F → free → ¬ fixed → s.tosen.sessions = [] → Completes row s fun t =>
        t = ((v.crWrite c h (r - 0x1000) w).debugEvent c h 6).wlRespond 0x16 seq 0 [])) ∧
    (∀ a n, 8 ≤ n → n ≤ 4096 → n % 8 = 0 →
      (u.debugOpen d 0 = true → a % 8 ≠ 0 ∨ 2 ^ 18 < a + n → answers (.wlMemRead dt seq true [0, c, a, n]) 0x17 2 [3]) ∧
      (u.debugOpen d 0 = true → a % 8 = 0 → a + n ≤ 2 ^ 18 → s.mem.bad = [] →
        (u.poisoned (localAt c a) n = true → Completes (.wlMemRead dt seq true [0, c, a, n]) s fun t => t = (v.memDom d 1).wlRespond 0x17 seq 2 [3]) ∧
        (u.poisoned (localAt c a) n = false → answers (.wlMemRead dt seq true [0, c, a, n]) 0x17 0 (fieldsOf (mreads s.ram (localAt c a) n)))) ∧
      (∀ ws : List Nat, ws.length = n / 8 → u.debugOpen d 0 = true → u.debugOpen d 2 = true →
        (a % 8 ≠ 0 ∨ 2 ^ 18 < a + n → answers (.wlMemWrite dt seq true ([0, c, a, n] ++ ws)) 0x18 2 [3]) ∧
        (a % 8 = 0 → a + n ≤ 2 ^ 18 → s.mem.bad = [] → s.tosen.sessions = [] → Completes (.wlMemWrite dt seq true ([0, c, a, n] ++ ws)) s fun t =>
          t = ((v.ramWrite (localAt c a) (ws.flatMap (fun w => le w 8))).debugEvent c 0 6).wlRespond 0x18 seq 0 [])))) ∧
  (∀ d a n, 8 ≤ n → n ≤ 4096 → n % 8 = 0 →
    let reads := u.cisternOk d a n = true ∨ u.itemOk d a n = true
    (15 < d ∨ u.domOn d = false → answers (.wlMemRead dt seq true [1, d, a, n]) 0x17 2 [1]) ∧
    (d ≤ 15 → u.domOn d = true → u.debugOpen d 3 = false ∨ u.debugOpen d 0 = false → barred (.wlMemRead dt seq true [1, d, a, n]) 0x17) ∧
    (d ≤ 15 → u.domOn d = true → u.debugOpen d 3 = true → u.debugOpen d 0 = true →
      (¬ reads → answers (.wlMemRead dt seq true [1, d, a, n]) 0x17 2 [3]) ∧
      (reads → s.mem.bad = [] → s.mem.poison = [] → answers (.wlMemRead dt seq true [1, d, a, n]) 0x17 0 (fieldsOf (mreads s.ram (cisternAt d a) n))) ∧
      (∀ ws : List Nat, ws.length = n / 8 → u.debugOpen d 2 = true →
        (u.cisternOk d a n = false → answers (.wlMemWrite dt seq true ([1, d, a, n] ++ ws)) 0x18 2 [3]) ∧
        (u.cisternOk d a n = true → s.mem.bad = [] → s.tosen.sessions = [] → Completes (.wlMemWrite dt seq true ([1, d, a, n] ++ ws)) s fun t =>
          t = ((v.ramWrite (cisternAt d a) (ws.flatMap (fun w => le w 8))).debugEventFor d 0xFF 0 6 (256 + d)).wlRespond 0x18 seq 0 [])))) ∧
  (∀ n,
    (u.chan? n = none → answers (.wlChanAbandon dt seq true [n]) 0x19 2 [1]) ∧
    (∀ h, u.chan? n = some h →
      (u.debugOpen h.dom 2 = false → barred (.wlChanAbandon dt seq true [n]) 0x19) ∧
      (u.debugOpen h.dom 2 = true → h.holder = none → answers (.wlChanAbandon dt seq true [n]) 0x19 2 [2]) ∧
      (u.debugOpen h.dom 2 = true → h.holder.isSome = true → s.tosen.sessions = [] → Completes (.wlChanAbandon dt seq true [n]) s fun t =>
        t = (v.abandon n true).wlRespond 0x19 seq 0 []))) ∧
  (∀ b, 16 ≤ b.length → b.length % 8 = 0 →
    (u.debugOpen 0 2 = false → barred (.wlTosen dt seq true b) 0x20 ∧ barred (.poll dt seq true []) 0x21) ∧
    (u.debugOpen 0 2 = true → 64 ≤ s.dbg.queue.length → answers (.wlTosen dt seq true b) 0x20 1 [6]) ∧
    (u.debugOpen 0 2 = true → s.dbg.queue.length < 64 → Completes (.wlTosen dt seq true b) s fun t =>
      t = (v.tosenArrive .windlass (reqOf b b.length) (genOf b)).wlRespond 0x20 seq 0 [])) ∧
  (u.debugOpen 0 2 = true →
    (s.dbg.queue = [] → answers (.poll dt seq true []) 0x21 0 []) ∧
    (∀ k more, s.dbg.queue = k :: more → Completes (.poll dt seq true []) s fun t =>
      t = { v with dbg.queue := more }.wlRespond 0x21 seq 0 (fieldsOf (if 0 < k.2 then k.1.set 1 (k.1.getD 1 0 ||| 16) else k.1)))) ∧
  (∀ p x q,
    (∀ d, Issued u p x q 0x0D01 1 (.owner d) → d < 16 →
      let mine := (s.dbg.halted.filter (fun e => u.coreDom (e.1 / 8) == some d)).length
      Completes (.debugStatus dt p d) s fun t => Agree u t ∧ t.Answered p q 0 ([u.dbgRights / 16 ^ d % 16, 1, mine] ++
        if x.dom = 0 then [u.dbgStatus, u.dbgRights % 2 ^ 32, u.dbgRights / 2 ^ 32, 0x1246056F] ++ u.dbg.counters else [])) ∧
    (Issued u p x q 0x0D02 0 .any → Completes (.debugSessionEnd dt p) s fun t =>
      t.dbg.connected = false ∧ t.dbg.agreed = 0 ∧ t.dbg.bps = [] ∧ t.session? .windlass = none ∧ (p ≠ .windlass → t.Answered p q 0 []) ∧
      (s.dbg.halted = [] → Agree { u with
        tosen.sessions := u.tosen.sessions.filter (fun x => !(x.path == .windlass)), tosen.opens := s.tosen.opens.filter (fun x => x.1 != .windlass)
        dbg := { s.dbg with connected := false, agreed := 0, bps := [], queue := [], lost := 0 } } t)))

/-- R485-R489, R504, R445: the pins and rails. PWR_GOOD, REF_CORE and VDD_AUX begin device reset at once, during a reset close too; PERST_N and
RESET_N at their minimum widths, and BOOT_RESTART behind its reply, run a reset close first in Priming, Service and Drain while PWR_GOOD is high and a
chain is still to close, and begin device reset at once otherwise; a shorter pulse does nothing, and one of RESET_N between its limits either. A reset
close that runs out of time ends without its checkpoint. BOOT_RESTART is refused in Drain and Lockdown and to other domains. A change that has happened
already does nothing. Conventions of the model that it rests on: notes/assumptions/36, 130, 161, 162, 164. -/
def Obligations.PinsAndRails : Prop := ∀ (s : State) (dt : Nat), (s.elapse dt).Calm →
  let u := s.elapse dt
  let p := u.pw
  let with_ := fun (q : Power) => ({ u with pw := q } : State)
  let drained : Bool := decide (s.glb.mode = .drain) && s.glb.drainDone
  (p.pwrGood = true → p.inReset = false → Completes (.pwrGoodFall dt) s fun t =>
    ResetFrom (with_ { p with pwrGood := false, tripPwrLow := true, tripCycled := false }) t 1 false) ∧
  (p.pwrGood = true → p.inReset = true → Completes (.pwrGoodFall dt) s fun t => t = with_ { p with pwrGood := false, tripPwrLow := true, tripCycled := false }) ∧
  (p.pwrGood = false → Completes (.pwrGoodFall dt) s fun t => t = u) ∧
  (p.pwrGood = false → p.tripHeld = false → Completes (.pwrGoodRise dt) s fun t => t = with_ { p with pwrGood := true, tripCycled := p.tripPwrLow }) ∧
  (p.pwrGood = false → p.tripHeld = true → p.tripHot = false → p.tripPwrLow = true → Completes (.pwrGoodRise dt) s fun t =>
    t = with_ { p with pwrGood := true, tripCycled := true, tripHeld := false }) ∧
  (p.pwrGood = false → p.tripHeld = true → p.tripHot = true ∨ p.tripPwrLow = false → Completes (.pwrGoodRise dt) s fun t =>
    t = with_ { p with pwrGood := true, tripCycled := p.tripPwrLow }) ∧
  (p.pwrGood = true → Completes (.pwrGoodRise dt) s fun t => t = u) ∧
  (∀ low, low < 100000 ∨ p.perst = false → Completes (.perstNAssert dt low) s fun t => t = u) ∧
  (∀ low, 100000 ≤ low → p.perst = true →
    (u.dead = true → Completes (.perstNAssert dt low) s fun t => t = with_ { p with perst := false }) ∧
    (u.dead = false → s.glb.mode.closes = false ∨ p.pwrGood = false → Completes (.perstNAssert dt low) s fun t =>
      ResetFrom (with_ { p with perst := false }) t 2 false) ∧
    (u.dead = false → s.glb.mode.closes = true → p.pwrGood = true → s.chainsClosed = true → Completes (.perstNAssert dt low) s fun t =>
      ResetFrom (with_ { p with perst := false }) t 2 drained) ∧
    (u.dead = false → s.glb.mode.closes = true → p.pwrGood = true → s.chainsClosed = false → Completes (.perstNAssert dt low) s fun t =>
      CloseFrom (with_ { p with perst := false }) t 0 2)) ∧
  Completes (.perstNRelease dt) s (fun t => t = with_ { p with perst := true, perstAt := if p.perst = true then p.perstAt else u.elapsed }) ∧
  (∀ low, low < 100 ∨ p.resetN = false → Completes (.resetNAssert dt low) s fun t => t = u) ∧
  (∀ low, 1000 ≤ low → p.resetN = true →
    (u.dead = true → Completes (.resetNAssert dt low) s fun t => t = with_ { p with resetN := false }) ∧
    (u.dead = false → s.glb.mode.closes = false ∨ p.pwrGood = false → Completes (.resetNAssert dt low) s fun t =>
      ResetFrom (with_ { p with resetN := false }) t 3 false) ∧
    (u.dead = false → s.glb.mode.closes = true → p.pwrGood = true → s.chainsClosed = true → Completes (.resetNAssert dt low) s fun t =>
      ResetFrom (with_ { p with resetN := false }) t 3 drained) ∧
    (u.dead = false → s.glb.mode.closes = true → p.pwrGood = true → s.chainsClosed = false → Completes (.resetNAssert dt low) s fun t =>
      CloseFrom (with_ { p with resetN := false }) t 1 3)) ∧
  (∀ low, 100 ≤ low → low < 1000 → p.resetN = true →
    (u.dead = true → Completes (.resetNAssert dt low) s fun t => t = u.used ∨ t = { u.used with pw := { p with resetN := false } }) ∧
    (u.dead = false → s.glb.mode.closes = false ∨ p.pwrGood = false → Completes (.resetNAssert dt low) s fun t =>
      t = u.used ∨ ResetFrom { u.used with pw := { p with resetN := false } } t 3 false) ∧
    (u.dead = false → s.glb.mode.closes = true → p.pwrGood = true → s.chainsClosed = true → Completes (.resetNAssert dt low) s fun t =>
      t = u.used ∨ ResetFrom { u.used with pw := { p with resetN := false } } t 3 drained) ∧
    (u.dead = false → s.glb.mode.closes = true → p.pwrGood = true → s.chainsClosed = false → Completes (.resetNAssert dt low) s fun t =>
      t = u.used ∨ CloseFrom { u.used with pw := { p with resetN := false } } t 1 3)) ∧
  Completes (.resetNRelease dt) s (fun t => t = { u with pw := { p with resetN := true }, dbg.tap.inverted := false }) ∧
  (p.vddAux = false → Completes (.vddAuxUp dt) s fun t => t = with_ { p with
    vddAux := true, resetBegan := u.elapsed, cause := 0, closed := false, tjMax := 0x80, tripSeen := false, therm := false
    tripHeld := false, tripHot := false, tripPwrLow := false, tripCycled := false, i2cPtr := 0 }) ∧
  (p.vddAux = true → Completes (.vddAuxUp dt) s fun t => t = u) ∧
  (p.vddAux = true → p.inReset = false → Completes (.vddAuxLoss dt) s fun t =>
    ResetFrom { u with pw := { p with vddAux := false, therm := false }, led.retention := [], dbg.tap := {} } t 0 false ∧
    (p.therm = true → .pin .thermN true ∈ t.out)) ∧
  (p.vddAux = true → p.inReset = true → Completes (.vddAuxLoss dt) s fun t => t = { u with
    pw := { p with vddAux := false, therm := false }, led.retention := [], dbg.tap := {}
    out := if p.therm = true then .pin .thermN true :: u.out else u.out }) ∧
  (p.vddAux = false → Completes (.vddAuxLoss dt) s fun t => t = u) ∧
  (p.refCore = true → p.inReset = false → Completes (.refCoreLoss dt) s fun t => ResetFrom (with_ { p with refCore := false }) t 5 false) ∧
  (p.refCore = true → p.inReset = true → Completes (.refCoreLoss dt) s fun t => t = with_ { p with refCore := false }) ∧
  (p.refCore = false → Completes (.refCoreLoss dt) s fun t => t = u) ∧
  Completes (.refCoreReturn dt) s (fun t => t = with_ { p with refCore := true }) ∧
  (p.closing = true → p.inReset = false → p.closeBegan + 2 ^ 21 * 65536 ≤ u.elapsed → Completes (.resetCloseTimeout dt) s fun t =>
    ResetFrom u t p.closeCause false) ∧
  (p.closing = false ∨ u.elapsed < p.closeBegan + 2 ^ 21 * 65536 → Completes (.resetCloseTimeout dt) s fun t => t = u) ∧
  (∀ w, u.dead = true → Completes (.bootRestart dt w) s fun t => t = u) ∧
  (∀ w x q, Issued u w x q 0x0C05 0 .any →
    let v := (u.onSession w fun y => { y with queue := x.queue.tail, running := some q, began := u.now }).tosenLater w 0x0C05 0 []
    v.Answered w q 0 [] ∧ Agree u v ∧
    (s.glb.mode.closes = true → p.pwrGood = true → s.chainsClosed = false → Completes (.bootRestart dt w) s fun t =>
      CloseFrom v t 1 4 ∧ ∀ e ∈ v.out, e ∈ t.out) ∧
    (s.glb.mode.closes = true → p.pwrGood = true → s.chainsClosed = true → Completes (.bootRestart dt w) s fun t =>
      ResetFrom v t 4 drained ∧ ∀ e ∈ v.out, e ∈ t.out) ∧
    (s.glb.mode.closes = false ∨ p.pwrGood = false → Completes (.bootRestart dt w) s fun t => ResetFrom v t 4 false ∧ ∀ e ∈ v.out, e ∈ t.out))

/-- R497-R499: a reading moves TJ and the highest TJ seen; at 100 °C THERM_N is asserted and below 95 °C released; 110 °C enters Lockdown on
cause 0x12 from Factory, Priming, Service and Drain alone; 120 °C sets TRIP_SEEN and begins a device reset that is held. An I2C write sets the
pointer and every further byte is not acknowledged. R478, R479: each boundary-scan instruction captures and shifts its register; those that
take the pins act as BYPASS while RESET_N is high. Without VDD_AUX none of it works. Conventions of the model that it rests on:
notes/assumptions/159, 165, 166. -/
def Obligations.TemperatureAndScan : Prop := ∀ (s : State) (dt : Nat), (s.elapse dt).Calm →
  let u := s.elapse dt
  let scanned := fun (i : Instr) (tap : Tap) (captured : Nat) => Completes i s fun t =>
    t = { u with dbg.tap := tap, out := .tap tap.ir captured :: .tap 256 1 :: u.out }
  let hot := fun (tj : Nat) => ({ u with
    pw.tj := tj % 256, pw.tjMax := (if tjOf s.pw.tjMax < tjOf tj then tj % 256 else s.pw.tjMax), pw.therm := true
    out := if s.pw.therm = true then u.out else .pin .thermN false :: u.out } : State)
  let cool := fun (tj : Nat) (held : Bool) => ({ u with
    pw := { u.pw with tj := tj % 256, tjMax := (if tjOf s.pw.tjMax < tjOf tj then tj % 256 else s.pw.tjMax), therm := false, tripHot := false, tripHeld := held }
    out := if s.pw.therm = true then .pin .thermN true :: u.out else u.out } : State)
  (s.pw.vddAux = true →
  (∀ tj, 100 ≤ tjOf tj → Completes (.thermAssert dt tj) s fun t => t = hot tj) ∧
  (∀ tj, tjOf tj < 100 → Completes (.thermAssert dt tj) s fun t => t = u) ∧
  (∀ tj, tjOf tj < 95 → Completes (.thermRelease dt tj) s fun t => t = cool tj (s.pw.tripHeld && !s.pw.tripCycled)) ∧
  (∀ tj, 95 ≤ tjOf tj → Completes (.thermRelease dt tj) s fun t => t = u) ∧
  (∀ tj, 110 ≤ tjOf tj → u.dead = true ∨ s.glb.mode = .boot ∨ s.glb.mode = .recovery ∨ s.glb.mode = .lockdown →
    Completes (.thermalCritical dt tj) s fun t => t = hot tj) ∧
  (∀ tj, 110 ≤ tjOf tj → u.dead = false → s.glb.mode = .factory ∨ s.glb.mode = .priming ∨ s.glb.mode = .service ∨ s.glb.mode = .drain →
    Completes (.thermalCritical dt tj) s fun t => t.glb.mode = .lockdown ∧ t.glb.entryCause = 0x12 ∧ t.glb.modeEntered = u.now ∧
      t.glb.failsafe = false ∧ t.pw = (hot tj).pw ∧ t.fuse = u.fuse) ∧
  (∀ tj, tjOf tj < 110 → Completes (.thermalCritical dt tj) s fun t => t = u) ∧
  (∀ tj, 120 ≤ tjOf tj → u.pw.inReset = false → Completes (.thermalTrip dt tj) s fun t =>
    ResetFrom { hot tj with pw := { (hot tj).pw with tripSeen := true, tripHeld := true, tripHot := true, tripPwrLow := !s.pw.pwrGood, tripCycled := false } } t 6 false ∧
    t.pw.released = false) ∧
  (∀ tj, 120 ≤ tjOf tj → u.pw.inReset = true → Completes (.thermalTrip dt tj) s fun t =>
    t = { hot tj with pw := { (hot tj).pw with tripSeen := true, tripHeld := true, tripHot := true, tripPwrLow := !s.pw.pwrGood, tripCycled := false } }) ∧
  (∀ tj, tjOf tj < 120 → Completes (.thermalTrip dt tj) s fun t => t = u) ∧
  Completes (.i2cWrite dt []) s (fun t => t = u) ∧
  (∀ b r, Completes (.i2cWrite dt (b :: r)) s fun t =>
    t = { u with pw.i2cPtr := b.toNat, out := r.map (fun _ => Emission.i2cNak) ++ u.out }) ∧
  Completes (.tapReset dt) s (fun t => t = { u with dbg.tap.ir := 1, dbg.tap.inverted := false }) ∧
  scanned (.idcode dt) { s.dbg.tap with ir := 1, inverted := false } 0x1246056F ∧
  scanned (.bypass dt) { s.dbg.tap with ir := 0xFF, inverted := false } 0 ∧
  scanned (.clamp dt) { s.dbg.tap with ir := 4, inverted := false } 0 ∧
  scanned (.highz dt) { s.dbg.tap with ir := 5, inverted := false } 0 ∧
  (∀ c h, scanned (.samplePreload dt c h) { ir := 2, boundary := c, latched := h } c) ∧
  (∀ c h n, s.pw.resetN = false →
    scanned (.extest dt c h) { ir := 0, boundary := c, latched := h } c ∧
    scanned (.extestPulse dt c h n) { ir := 6, boundary := c, latched := h, inverted := decide (0 < n) } c ∧
    scanned (.extestTrain dt c h n) { ir := 7, boundary := c, latched := h, inverted := decide (n % 2 = 1) } c) ∧
  (∀ c h n, s.pw.resetN = true →
    scanned (.extest dt c h) { s.dbg.tap with ir := 0, inverted := false } 0 ∧
    scanned (.extestPulse dt c h n) { s.dbg.tap with ir := 6, inverted := false } 0 ∧
    scanned (.extestTrain dt c h n) { s.dbg.tap with ir := 7, inverted := false } 0)) ∧
  (s.pw.vddAux = false → ∀ i ∈ ([.thermAssert dt 100, .thermRelease dt 94, .thermalCritical dt 110, .thermalTrip dt 120, .i2cWrite dt [5], .tapReset dt, .idcode dt,
      .bypass dt, .clamp dt, .highz dt, .samplePreload dt 1 2, .extest dt 1 2, .extestPulse dt 1 2 3, .extestTrain dt 1 2 3] : List Instr),
    Completes i s fun t => t = u)

/-- R12, R13, R46, R47, R313, R318: a read of the low half of a 64-bit register returns it and latches the high half, which the next word's read returns;
of device time it latches the count's high half, the fraction and the quality byte for the function that reads. A function whose window is
closed answers no data, one in reset or in the boot phase zero but for GLB_ID; a read beyond 8 bytes is refused. Configuration space holds the
identifiers of R313. A write smaller than a word is discarded; a field of the register map or of configuration space takes its value, and
a write-1-to-clear bit is cleared by a 1 alone. Conventions of the model that it rests on: notes/assumptions/15, 16, 17, 105, 111, 180. -/
def Obligations.RegisterAccess : Prop := ∀ (s : State) (dt fn : Nat), (s.elapse dt).Plain →
  let u := s.elapse dt
  let shown := (s.pfn fn).mse = true ∧ (s.pfn fn).d3 = false ∧ (s.glb.mode = .lockdown → fn = 0)
  let open_ := shown ∧ s.glb.mode ≠ .boot ∧ s.glb.mode ≠ .recovery ∧ (s.fn fn).inReset = false
  let set := fun (off v : Nat) (t' : State) => Completes (.registerWrite dt 0 fn off 4 v) s fun t => t = t'
  let cfg := fun (f v : Nat) (t' : State) => Completes (.registerWrite dt 1 fn f 4 v) s fun t => t = t'
  let l := s.linkOf fn
  let r := fun (n : Nat) => s.ring (rkey fn n)
  (u.asked fn = false → Completes (.tbNowLoRead dt fn) s (fun t => t = u) ∧ ∀ off n, off < 2 ^ 21 → Completes (.latchingLoRead dt fn off n) s fun t => t = u) ∧
  (u.asked fn = true →
  (open_ → Completes (.tbNowLoRead dt fn) s fun t =>
    t = { u with
      tb.latch := tset s.tb.latch fn (nsOf u.now / 2 ^ 32, fracOf u.now, u.quality)
      out := .value fn 0x20000 (nsOf u.now % 2 ^ 32) :: u.out } ∧
    ∀ g, g ≠ fn → tget t.tb.latch g (0, 0, 0) = tget s.tb.latch g (0, 0, 0)) ∧
  ((s.pfn fn).mse = false ∨ (s.pfn fn).d3 = true ∨ (s.glb.mode = .lockdown ∧ fn ≠ 0) →
    Completes (.tbNowLoRead dt fn) s (fun t => t = (u.pcieCount 5).emit (.readData [] false false)) ∧
    ∀ off n, off < 2 ^ 21 → Completes (.latchingLoRead dt fn off n) s fun t => t = (u.pcieCount 5).emit (.readData [] false false)) ∧
  (∀ off, off < 2 ^ 21 → Completes (.latchingLoRead dt fn off 16) s fun t => t = (u.pcieCount 5).emit (.readData [] false false)) ∧
  (open_ → ∀ off v, off < 2 ^ 20 → off % 8 = 0 → off / 65536 ≠ 2 → off / 65536 ≠ 3 → u.reg64 fn off = some v →
    Completes (.latchingLoRead dt fn off 4) s (fun t => t = { u with
      tb.latch64 := tset s.tb.latch64 (latchKey fn off) (v / 2 ^ 32 % 2 ^ 32), out := .value fn off (v % 2 ^ 32) :: u.out }) ∧
    (u.reg64 fn (off + 4) = none → Completes (.latchingLoRead dt fn (off + 4) 4) s fun t => t = { u with
      out := .value fn (off + 4) (tget s.tb.latch64 (latchKey fn off) 0 % 2 ^ 32) :: u.out })) ∧
  (open_ → Completes (.latchingLoRead dt fn 0x20004 4) s fun t =>
    t = { u with out := .value fn 0x20004 (tget s.tb.latch fn (0, 0, 0)).1 :: u.out }) ∧
  (open_ → Completes (.latchingLoRead dt fn 0x20008 4) s fun t =>
    t = { u with out := .value fn 0x20008 ((tget s.tb.latch fn (0, 0, 0)).2.1 + 65536 * (tget s.tb.latch fn (0, 0, 0)).2.2) :: u.out }) ∧
  (shown → s.glb.mode ≠ .recovery → s.glb.mode = .boot ∨ (s.fn fn).inReset = true →
    Completes (.tbNowLoRead dt fn) s (fun t => t = u.emit (.value fn 0x20000 0)) ∧
    Completes (.latchingLoRead dt fn 0x0 4) s fun t => t = u.emit (.value fn 0 (u.reg32 fn 0))) ∧
  (shown → s.glb.mode = .recovery → ∀ off, off < 2 ^ 20 → off % 4 = 0 → Completes (.latchingLoRead dt fn off 4) s fun t =>
    t = u.emit (.value fn off (u.recReg off % 2 ^ 32)))) ∧
  (∀ off n, u.cfgOpen fn = false ∨ 4 < n → Completes (.latchingLoRead dt fn (2 ^ 32 + off) n) s fun t => t = u) ∧
  (u.cfgOpen fn = true →
    Completes (.latchingLoRead dt fn (2 ^ 32) 2) s (fun t => t = u.emit (.value fn (2 ^ 32) 0x1D5F)) ∧
    Completes (.latchingLoRead dt fn (2 ^ 32 + 2) 2) s (fun t => t = u.emit (.value fn (2 ^ 32 + 2)
      (if isVf fn = true then 0x2469 else if pfOf fn ≠ 0 then 0x2468 else if s.glb.mode = .recovery then 0x246F else 0x2460))) ∧
    Completes (.latchingLoRead dt fn (2 ^ 32 + 8) 1) s (fun t => t = u.emit (.value fn (2 ^ 32 + 8) 0x10)) ∧
    (∀ code, (pfOf fn = 0 ∧ s.glb.mode = .recovery ∧ code = 0xFF0000) ∨ (pfOf fn = 0 ∧ s.glb.mode ≠ .recovery ∧ code = 0x0B4000) ∨
        (pfOf fn ≠ 0 ∧ mapField s.fuse.live (0x308 + pfOf fn) 1 5 4 = 0 ∧ code = 0x020000) ∨
        (pfOf fn ≠ 0 ∧ mapField s.fuse.live (0x308 + pfOf fn) 1 5 4 = 1 ∧ code = 0x010802) ∨
        (pfOf fn ≠ 0 ∧ mapField s.fuse.live (0x308 + pfOf fn) 1 5 4 = 2 ∧ code = 0x120000) →
      Completes (.latchingLoRead dt fn (2 ^ 32 + 8) 4) s fun t => t = u.emit (.value fn (2 ^ 32 + 8) (0x10 + 256 * code))) ∧
    Completes (.latchingLoRead dt fn (2 ^ 32 + 0x10) 4) s (fun t => t = u.used.emit (.value fn (2 ^ 32 + 0x10) (u.freeBits 32))) ∧
    (∀ v, cfg 0 v (u.setPfn fn { s.pfn fn with mse := v.testBit 0 }) ∧ (fn = 0 → cfg 1 v (u.setPfn fn { s.pfn fn with romEn := v.testBit 0 })) ∧
      (isVf fn = false → v ≤ 14 → 2 ^ (22 + v) ≤ (s.pfn fn).winMax → cfg 2 v (u.setPfn fn { s.pfn fn with winSize := some (2 ^ (22 + v)) }) ∧
        cfg 3 v (u.setPfn fn { s.pfn fn with vfWin := some (2 ^ (22 + v)) })) ∧
      ((s.pfn fn).winMax < 2 ^ (22 + v) → cfg 2 v u ∧ cfg 3 v u) ∧
      cfg 4 v (u.setLink (s.onB fn) { l with aspm := v.testBit 0 }) ∧ cfg 5 v (u.setLink (s.onB fn) { l with l0p := v.testBit 0 }) ∧
      ((s.pfn fn).pba = [] → cfg 6 v (u.setPfn fn { s.pfn fn with msixOn := v.testBit 0 }) ∧ cfg 7 v (u.setPfn fn { s.pfn fn with msixMask := v.testBit 0 })) ∧
      cfg 8 v (u.setPfn fn { s.pfn fn with tag10 := v.testBit 0 }))) ∧
  (u.cfgOpen fn = false → ∀ f v, cfg f v u) ∧
  (s.glb.mode ≠ .recovery → u.barOpen fn = false → ∀ off n v, Completes (.registerWrite dt 0 fn off n v) s fun t => t = u) ∧
  (∀ off n v, n ≠ 4 → n ≠ 8 → Completes (.registerWrite dt 0 fn off n v) s fun t => t = u) ∧
  (s.glb.mode = .recovery → fn = 0 → u.recOpen = true → ∀ v, v < 2 ^ 32 →
    set 0x104 v { u with boot.recOffer := v % 4096, boot.recAgreed := recAgree v } ∧ set 0x114 v { u with boot.recLen := v } ∧
    set 0x118 v { u with boot.recOffset := v } ∧ set 0x10C v u) ∧
  (s.glb.mode ≠ .recovery → u.barOpen fn = true →
    (fn = 0 →
      (∀ v, 0 < v → v < 65536 → set 0x20 v { u with glb.wdogPeriod := v }) ∧ set 0x20 0 u ∧
      set 0x28 4 { u with glb.expired := false } ∧ set 0x28 0 u ∧ set 0x50 (2 ^ 17) { u with pw.tripSeen := false } ∧ set 0x50 0 u ∧
      (∀ p v, p < 25 → p < s.portCount ∨ p = 24 → v < 2 ^ 32 →
        set (0x50000 + 0x1000 * p + 0x10) v (u.setPt p { s.pt p with half := w1c (s.pt p).half v }) ∧
        set (0x50000 + 0x1000 * p + 0x18) v (u.setPt p { s.pt p with halfMask := (s.pt p).halfMask / 2 ^ 32 * 2 ^ 32 + v }) ∧
        set (0x50000 + 0x1000 * p + 0x1C) v (u.setPt p { s.pt p with halfMask := (s.pt p).halfMask % 2 ^ 32 + v * 2 ^ 32 }))) ∧
    (∀ n v, n < 1024 → v < 2 ^ 32 → (r n).enable = false →
      set (0xE8000 + 32 * n) v (u.setRing (rkey fn n) { r n with base := (r n).base / 2 ^ 32 * 2 ^ 32 + v / 4096 * 4096 }) ∧
      set (0xE8000 + 32 * n + 4) v (u.setRing (rkey fn n) { r n with base := (r n).base % 2 ^ 32 + v * 2 ^ 32 }) ∧
      set (0xE8000 + 32 * n + 8) v (u.setRing (rkey fn n) { r n with idxAddr := (r n).idxAddr / 2 ^ 32 * 2 ^ 32 + v / 8 * 8 }) ∧
      set (0xE8000 + 32 * n + 0xC) v (u.setRing (rkey fn n) { r n with idxAddr := (r n).idxAddr % 2 ^ 32 + v * 2 ^ 32 }) ∧
      set (0xE8000 + 32 * n + 0x14) v (u.setRing (rkey fn n) { r n with vector := v % 2 ^ 11, mod := v / 2 ^ 16 % 2 ^ 11 })) ∧
    (∀ n v, n < 1024 → (r n).enable = true → set (0xE8000 + 32 * n) v u ∧ set (0xE8000 + 32 * n + 4) v u ∧ set (0xE8000 + 32 * n + 8) v u ∧
      set (0xE8000 + 32 * n + 0xC) v u ∧ set (0xE8000 + 32 * n + 0x14) v u))
end

