-- ==== Sys2Proof/Laws/Memory.lean ====
section
/-! SUPPORT. Laws of the block's stores: a read after a write, and that every operation keeps the canonical form. -/
namespace Sys2Proof.Machine

theorem mread_mput (m : Memory) (a c : Nat) (b : Byte) : mread (mput m a b) c = if c = a then b else mread m c := by
  induction m with
  | nil => simp [mput, mread, eq_comm]
  | cons e r ih =>
    obtain ⟨k, v⟩ := e
    unfold mput
    split
    · simp only [mread, eq_comm]
    · split
      · next h =>
        subst h
        by_cases hc : c = a
        · simp [mread, hc]
        · simp [mread, hc, Ne.symm hc]
      · next h1 h2 =>
        simp only [mread, ih]
        by_cases hk : k = c
        · have : c ≠ a := fun h => h2 (by rw [← h, hk])
          simp [hk, this]
        · simp [hk]

theorem mread_mclear (m : Memory) (a c : Nat) : mread (mclear m a) c = if c = a then Memory.dflt else mread m c := by
  induction m with
  | nil => simp [mclear, mread]
  | cons e r ih =>
    obtain ⟨k, v⟩ := e
    unfold mclear
    split
    · next h =>
      subst h
      rw [ih]
      by_cases hc : c = k <;> simp [mread, hc, eq_comm]
    · next h =>
      simp only [mread, ih]
      by_cases hk : k = c
      · have : c ≠ a := fun x => h (hk.trans x)
        simp [hk, this]
      · simp [hk]

/-- A byte read after a byte is written: that byte at its address, every other address as before. -/
theorem mread_mwrite (m : Memory) (a c : Nat) (b : Byte) : mread (mwrite m a b) c = if c = a then b else mread m c := by
  unfold mwrite
  split
  · next h => rw [mread_mclear, h]
  · exact mread_mput m a c b

/-- A byte outside the bytes written reads as before. -/
theorem mread_mwrites_outside (b : Bytes) (m : Memory) (a c : Nat) (h : c < a ∨ a + b.length ≤ c) :
    mread (mwrites m a b) c = mread m c := by
  induction b generalizing m a with
  | nil => rfl
  | cons x r ih =>
    simp only [List.length_cons] at h
    unfold mwrites
    rw [ih _ _ (by omega), mread_mwrite]
    simp only [show c ≠ a by omega, if_false]

theorem Memory.wf_cons {k : Nat} {v : Byte} {r : Memory} :
    Memory.wf ((k, v) :: r) = true ↔ v ≠ 0 ∧ Memory.wf r = true ∧ ∀ e ∈ r.head?, k < e.1 := by
  cases r with
  | nil => simp [Memory.wf]
  | cons e t => obtain ⟨k', v'⟩ := e; simp [Memory.wf, and_assoc, and_comm, and_left_comm]

theorem Memory.head_filter (p : Host.Cell → Bool) (k : Nat) (r : Memory) (hr : Memory.wf r = true) (hk : ∀ e ∈ r.head?, k < e.1) :
    ∀ e ∈ (r.filter p).head?, k < e.1 := by
  induction r with
  | nil => simp
  | cons e t ih =>
    obtain ⟨k', v'⟩ := e
    have hw := Memory.wf_cons.mp hr
    have hk' : k < k' := by simpa using hk
    intro x hx
    rw [List.filter_cons] at hx
    split at hx
    · simp only [List.head?_cons, Option.mem_some_iff] at hx
      exact hx ▸ hk'
    · exact ih hw.2.1 (fun y hy => by have := hw.2.2 y hy; omega) x hx

/-- Cells dropped leave the canonical form. -/
theorem Memory.wf_filter (p : Host.Cell → Bool) (m : Memory) (h : Memory.wf m = true) : Memory.wf (m.filter p) = true := by
  induction m with
  | nil => rfl
  | cons e t ih =>
    obtain ⟨k, v⟩ := e
    have hw := Memory.wf_cons.mp h
    rw [List.filter_cons]
    split
    · exact Memory.wf_cons.mpr ⟨hw.1, ih hw.2.1, Memory.head_filter p k t hw.2.1 hw.2.2⟩
    · exact ih hw.2.1

theorem mclear_eq_filter (m : Memory) (a : Nat) : mclear m a = m.filter (fun e => !decide (e.1 = a)) := by
  induction m with
  | nil => rfl
  | cons e r ih =>
    obtain ⟨k, v⟩ := e
    unfold mclear
    by_cases h : k = a <;> simp [h, ih]

theorem mput_head (m : Memory) (a : Nat) (b : Byte) (k : Nat) (hk : k < a) (hm : ∀ e ∈ m.head?, k < e.1) :
    ∀ e ∈ (mput m a b).head?, k < e.1 := by
  cases m with
  | nil => simpa [mput] using hk
  | cons e r =>
    obtain ⟨k', v'⟩ := e
    have : k < k' := by simpa using hm
    unfold mput
    split
    · simpa using hk
    · split <;> simpa

theorem Memory.wf_mput (m : Memory) (a : Nat) (b : Byte) (hb : b ≠ 0) (h : Memory.wf m = true) : Memory.wf (mput m a b) = true := by
  induction m with
  | nil => simpa [mput, Memory.wf] using hb
  | cons e r ih =>
    obtain ⟨k, v⟩ := e
    have hw := Memory.wf_cons.mp h
    unfold mput
    split
    · next hak => exact Memory.wf_cons.mpr ⟨hb, h, by simpa using hak⟩
    · split
      · next hak => exact Memory.wf_cons.mpr ⟨hb, hw.2.1, by rw [hak]; exact hw.2.2⟩
      · exact Memory.wf_cons.mpr ⟨hw.1, ih hw.2.1, mput_head r a b k (by omega) hw.2.2⟩

/-- A byte written keeps the canonical form. -/
theorem Memory.wf_mwrite (m : Memory) (a : Nat) (b : Byte) (h : Memory.wf m = true) : Memory.wf (mwrite m a b) = true := by
  unfold mwrite
  split
  · rw [mclear_eq_filter]; exact Memory.wf_filter _ m h
  · next hb => exact Memory.wf_mput m a b hb h

/-- Bytes written keep the canonical form. -/
theorem Memory.wf_mwrites (b : Bytes) (m : Memory) (a : Nat) (h : Memory.wf m = true) : Memory.wf (mwrites m a b) = true := by
  induction b generalizing m a with
  | nil => exact h
  | cons x r ih => exact ih _ _ (Memory.wf_mwrite m a x h)

/-- Zeroing keeps the canonical form. -/
theorem Memory.wf_mzero (m : Memory) (a n : Nat) (h : Memory.wf m = true) : Memory.wf (mzero m a n) = true := Memory.wf_filter _ m h

theorem Memory.wf_reset : Memory.wf State.reset.ram = true := rfl

end Sys2Proof.Machine
end

