-- ==== Sys2Proof/Laws/Table.lean ====
section
/-! SUPPORT. Laws of sparse tables. -/
namespace Sys2Proof.Machine

@[simp] theorem tget?_tset_same {α : Type} (t : Table α) (k : Nat) (v : α) : tget? (tset t k v) k = some v := by
  induction t with
  | nil => simp [tset, tget?]
  | cons e r ih =>
    obtain ⟨k', v'⟩ := e
    unfold tset
    split
    · simp [tget?]
    · split
      · simp [tget?]
      · next h _ => simp [tget?, h, ih]

@[simp] theorem tget_tset_same {α : Type} (t : Table α) (k : Nat) (v d : α) : tget (tset t k v) k d = v := by simp [tget]

theorem tget?_tset_other {α : Type} (t : Table α) (k j : Nat) (v : α) (h : j ≠ k) : tget? (tset t k v) j = tget? t j := by
  induction t with
  | nil => simp [tset, tget?, Ne.symm h]
  | cons e r ih =>
    obtain ⟨k', v'⟩ := e
    unfold tset
    split
    · next hk => subst hk; simp [tget?, Ne.symm h]
    · split
      · simp [tget?, Ne.symm h]
      · simp [tget?, ih]

theorem tget_tset_other {α : Type} (t : Table α) (k j : Nat) (v d : α) (h : j ≠ k) : tget (tset t k v) j d = tget t j d := by
  simp [tget, tget?_tset_other t k j v h]

theorem tget?_tmap {α : Type} (t : Table α) (k : Nat) (f : α → α) : tget? (tmap t f) k = (tget? t k).map f := by
  induction t with
  | nil => simp [tmap, tget?]
  | cons e r ih =>
    obtain ⟨k', v'⟩ := e
    simp only [tmap, List.map_cons, tget?] at ih ⊢
    split
    · simp
    · exact ih

/-- Erased and with default entries left out, a table does not show an update that `f` erases. -/
theorem tnorm_tset {α : Type} [DecidableEq α] (t : Table α) (k : Nat) (v d d0 : α) (f : α → α) (hd : f d0 = d)
    (h : f v = f (tget t k d0)) : tnorm d f (tset t k v) = tnorm d f t := by
  unfold tget at h
  induction t with
  | nil =>
    simp only [tget?, Option.getD_none] at h
    simp [tset, tnorm, tmap, h, hd]
  | cons e r ih =>
    obtain ⟨k', v'⟩ := e
    unfold tset
    by_cases hk : k' = k
    · simp [tget?, hk] at h
      simp [hk, tnorm, tmap, h]
    · simp only [tget?, hk, if_false] at h
      simp only [hk, if_false]
      split
      · next hn =>
        simp only [Bool.and_eq_true, decide_eq_true_eq, Option.isNone_iff_eq_none] at hn
        rw [hn.2] at h
        simp only [Option.getD_none] at h
        simp [tnorm, tmap, h, hd]
      · have hi := ih h
        simp only [tnorm, tmap, List.map_cons, List.filter_cons] at hi ⊢
        rw [hi]

end Sys2Proof.Machine
end

