-- ==== Sys2Proof/Laws/Agree.lean ====
section
/-! SUPPORT. What emissions, writes to the host, completions, events, replies and reports leave alone: `Events` and `Agree`, law by law. -/
namespace Sys2Proof.Machine

theorem Events.refl (s : State) : Events s s := ⟨rfl, fun _ _ => rfl, fun _ h => h⟩

theorem Events.trans {s t u : State} (h : Events s t) (k : Events t u) : Events s u :=
  ⟨k.quiet.trans h.quiet, fun a ha => (k.bytes a (fun x => ha (h.places a x))).trans (h.bytes a ha),
   fun a ha => h.places a (k.places a ha)⟩

/-- The cores and the stores are as before. -/
theorem Events.of {s t : State} (h : t.quiet = s.quiet) (hr : t.ram = s.ram) (hc : t.cores.cores = s.cores.cores) : Events s t := by
  refine ⟨h, fun a _ => by rw [hr], fun a ha => ?_⟩
  simpa only [State.subByte, State.thr, State.core, hc] using ha

theorem Events.fold {α : Type} (f : State → α → State) (h : ∀ s x, Events s (f s x)) (l : List α) (s : State) : Events s (l.foldl f s) := by
  induction l generalizing s with
  | nil => exact Events.refl s
  | cons x r ih => exact (h s x).trans (ih (f s x))

theorem Events.ite {s t u : State} {p : Prop} [Decidable p] (ht : Events s t) (hu : Events s u) : Events s (if p then t else u) := by
  split <;> assumption

theorem events_emit (s : State) (e : Emission) : Events s (s.emit e) := Events.of rfl rfl rfl
theorem events_emits (s : State) (e : List Emission) : Events s (s.emits e) := Events.of rfl rfl rfl

theorem events_setRing (s : State) (k : Nat) (r : Ring) (h : r.still = (s.ring k).still) : Events s (s.setRing k r) := by
  refine Events.of ?_ rfl rfl
  have e := tnorm_tset s.rings.rings k r ({} : Ring) {} Ring.still rfl h
  simp only [State.quiet, State.setRing, e]

theorem events_setRingFn (s : State) (k : Nat) (c : List Nat) : Events s (s.setRingFn k { s.ringFn k with counters := c }) := by
  refine Events.of ?_ rfl rfl
  have e := tnorm_tset s.rings.fns k { s.ringFn k with counters := c } ({} : RingFn) {} (fun x => { x with counters := [0, 0, 0, 0, 0] }) rfl rfl
  simp only [State.quiet, State.setRingFn, e]

theorem events_setPfn (s : State) (k : Nat) (x : PFn) (h : x.still = (s.pfn k).still) : Events s (s.setPfn k x) := by
  refine Events.of ?_ rfl rfl
  have e := tnorm_tset s.pcie.fns k x ({} : PFn) {} PFn.still rfl h
  simp only [State.quiet, State.setPfn, e]

theorem events_setPt (s : State) (k : Nat) (x : PortSt) (h : x.still = (s.pt k).still) : Events s (s.setPt k x) := by
  refine Events.of ?_ rfl rfl
  have e := tnorm_tset s.ports.ports k x ({} : PortSt).still {} PortSt.still rfl h
  simp only [State.quiet, State.setPt, e]

theorem events_linkBusy (s : State) (f : Nat) : Events s (s.linkBusy f) := by
  unfold State.linkBusy State.setLink State.linkOf
  cases s.onB f
  · simp only [Bool.false_eq_true, if_false]
    split <;> exact Events.of rfl rfl rfl
  · simp only [if_true]
    split <;> exact Events.of rfl rfl rfl

theorem events_linkFull (s : State) (f n : Nat) : Events s (s.linkFull f n) := by
  unfold State.linkFull State.setLink State.linkOf
  cases s.onB f
  · simp only [Bool.false_eq_true, if_false]
    split <;> exact Events.of rfl rfl rfl
  · simp only [if_true]
    split <;> exact Events.of rfl rfl rfl

theorem events_hostWr (s : State) (f : Nat) (e : Emission) : Events s (s.hostWr f e) := by
  unfold State.hostWr
  split
  · exact Events.refl s
  · split
    · exact events_setPfn s f _ rfl
    · exact ((events_linkBusy s f).trans (events_linkFull _ f _)).trans (events_emit _ e)

theorem events_ringCount (s : State) (f i : Nat) : Events s (s.ringCount f i) := events_setRingFn s f _

theorem events_sendVector (s : State) (f v : Nat) : Events s (s.sendVector f v) := by
  unfold State.sendVector
  simp only
  split
  · exact Events.refl s
  · split
    · exact events_setPfn s f _ rfl
    · exact events_hostWr s f _

theorem events_signal (s : State) (k : Nat) : Events s (s.signal k) := by
  unfold State.signal
  simp only
  split
  · exact events_sendVector s _ _
  · split
    · exact events_setRing s k _ (by simp only [Ring.still])
    · refine (events_setRing s k _ ?_).trans (events_sendVector _ _ _)
      simp only [Ring.still]

/-! Threads. -/

/-- Subscriptions keep their places: each one after stands for one before, in the same region. -/
def SubsKept (s t : State) : Prop := ∀ c h n u', tget? (t.thr c h).subs n = some u' →
  ∃ u, tget? (s.thr c h).subs n = some u ∧ u'.region = u.region ∧ (u'.next = u.next ∨ u'.next < 16)

theorem SubsKept.places {s t : State} (k : SubsKept s t) (a : Nat) (h : t.subByte a) : s.subByte a := by
  obtain ⟨c, x, n, u', hu, m, hm, h1, h2⟩ := h
  obtain ⟨u, e, hr, hn⟩ := k c x n u' hu
  refine ⟨c, x, n, u, e, m, ?_, hr ▸ h1, hr ▸ h2⟩
  rcases hm with hm | hm
  · exact Or.inl hm
  · rcases hn with hn | hn
    · exact Or.inr (hm.trans hn)
    · exact Or.inl (hm ▸ hn)

theorem thr_setThr (s : State) (c t c' t' : Nat) (x : Thread) :
    (s.setThr c t x).thr c' t' = if c' = c ∧ t' = t then x else s.thr c' t' := by
  unfold State.thr State.setThr State.setCore State.core
  by_cases hc : c' = c
  · subst hc
    simp only [tget_tset_same, true_and]
    by_cases ht : t' = t
    · subst ht; simp
    · rw [tget_tset_other _ _ _ _ _ ht]; simp [ht]
  · simp only [hc, false_and, if_false]
    rw [tget_tset_other _ _ _ _ _ hc]

theorem quiet_setThr (s : State) (c t : Nat) (x : Thread) : (s.setThr c t x).quiet = s.quiet := by
  have e := tnorm_tset s.cores.cores c { s.core c with threads := tset (s.core c).threads t x } ({} : Core) {} (fun c => { c with threads := [] }) rfl rfl
  simp only [State.quiet, State.setThr, State.setCore, e]

/-- A thread written with its subscriptions as they were. -/
theorem events_setThr (s : State) (c t : Nat) (x : Thread) (h : x.subs = (s.thr c t).subs) : Events s (s.setThr c t x) := by
  refine ⟨quiet_setThr s c t x, fun a _ => rfl, SubsKept.places (fun c' t' n u hu => ⟨u, ?_, rfl, Or.inl rfl⟩)⟩
  rw [thr_setThr] at hu
  split at hu
  · next e => rw [e.1, e.2, ← h]; exact hu
  · exact hu

theorem subs_setReg (x : Thread) (r v : Nat) : (x.setReg r v).subs = x.subs := by unfold Thread.setReg; split <;> rfl
theorem subs_resume (x : Thread) : x.resume.subs = x.subs := by unfold Thread.resume; split <;> rfl
theorem subs_tryWfe (x : Thread) : x.tryWfe.subs = x.subs := by
  unfold Thread.tryWfe
  split
  · simp only
    split
    · rfl
    · rw [subs_resume, subs_setReg]
  · rfl

theorem events_wake (s : State) (c t src : Nat) : Events s (s.wake c t src) := by
  unfold State.wake
  simp only
  split
  · exact events_setThr s c t _ (by rw [subs_tryWfe])
  · exact Events.refl s

theorem events_ramWrite_sub (s : State) (a : Nat) (b : Bytes) (h : ∀ j, a ≤ j → j < a + b.length → s.subByte j) :
    Events s (s.ramWrite a b) := by
  refine ⟨rfl, fun j hj => ?_, fun _ h => h⟩
  refine mread_mwrites_outside b s.ram a j ?_
  refine Classical.byContradiction fun hn => hj (h j ?_ ?_) <;> omega

theorem events_subRecord (s : State) (c t h : Nat) (mk : Nat → Bytes) (hm : ∀ n, (mk n).length = 32) :
    Events s (s.subRecord c t h mk) := by
  unfold State.subRecord
  simp only
  split
  · exact Events.refl s
  · next u hu =>
    split
    · refine ⟨quiet_setThr s c t _, fun a _ => rfl, SubsKept.places (fun c' t' n u' hu' => ?_)⟩
      rw [thr_setThr] at hu'
      split at hu'
      · next e =>
        obtain ⟨rfl, rfl⟩ := e
        by_cases hn : n = h
        · subst hn
          rw [tget?_tset_same] at hu'
          obtain rfl := Option.some.inj hu'
          exact ⟨u, hu, rfl, Or.inl rfl⟩
        · rw [tget?_tset_other _ _ _ _ hn] at hu'
          exact ⟨u', hu', rfl, Or.inl rfl⟩
      · exact ⟨u', hu', rfl, Or.inl rfl⟩
    · refine Events.trans (events_ramWrite_sub s _ (mk u.lost) (fun j h1 h2 => ⟨c, t, h, u, hu, u.next, Or.inr rfl, h1, by rw [hm] at h2; exact h2⟩)) ?_
      refine Events.trans ⟨quiet_setThr _ c t _, fun a _ => rfl, SubsKept.places (fun c' t' n u' hu' => ?_)⟩ (events_wake _ c t 4)
      rw [thr_setThr] at hu'
      split at hu'
      · next e =>
        obtain ⟨rfl, rfl⟩ := e
        by_cases hn : n = h
        · subst hn
          rw [tget?_tset_same] at hu'
          obtain rfl := Option.some.inj hu'
          exact ⟨u, hu, rfl, Or.inr (Nat.mod_lt _ (by decide))⟩
        · rw [tget?_tset_other _ _ _ _ hn] at hu'
          exact ⟨u', hu', rfl, Or.inl rfl⟩
      · exact ⟨u', hu', rfl, Or.inl rfl⟩

theorem length_le (n w : Nat) : (le n w).length = w := by
  induction w generalizing n with
  | zero => rfl
  | succ w ih => simp [le, ih]

theorem length_slice (b : Bytes) (o w : Nat) : (slice b o w).length = w := by
  simp only [slice, zeros, List.length_append, List.length_take, List.length_drop, List.length_replicate]
  omega

theorem events_subEvent (s : State) (d op : Nat) (fs : List Nat) : Events s (s.subEvent d op fs) := by
  unfold State.subEvent
  exact Events.fold _ (fun s x => events_subRecord s _ _ _ _ (fun n => by simp [length_le, length_slice])) _ s

theorem events_wakePosters (s : State) (k : Nat) : Events s (s.wakePosters k) := by
  unfold State.wakePosters
  simp only
  refine Events.trans (events_setRing s k _ ?_) (Events.fold _ (fun s p => ?_) _ _)
  · simp only [Ring.still]
  · refine Events.trans (events_setThr s _ _ _ ?_) (events_wake _ _ _ _)
    rfl

/-! Completions and events. -/

theorem hostWr_rings (s : State) (f : Nat) (e : Emission) : (s.hostWr f e).rings = s.rings := by
  have h1 : (s.linkBusy f).rings = s.rings := by
    unfold State.linkBusy State.setLink
    simp only
    repeat' split
    all_goals rfl
  have h2 : ∀ (t : State) (n : Nat), (t.linkFull f n).rings = t.rings := fun t n => by
    unfold State.linkFull State.setLink
    simp only
    repeat' split
    all_goals rfl
  unfold State.hostWr
  split
  · rfl
  · split
    · rfl
    · exact (h2 _ _).trans h1

/-- A completion that frees no slot of a ledger cistern. -/
theorem events_writeComp (s : State) (k : Nat) (c : Comp) (hc : c.frees = none) : Events s (s.writeComp k c) := by
  unfold State.writeComp
  simp only [hc, State.freeSlots]
  refine Events.trans ?_ (events_signal _ k)
  have h1 : Events s (if c.packet.isEmpty then s else s.hostWr (fnOfKey k) (.hostWrite (fnOfKey k) (c.area + (s.ring k).dev % (s.ring k).entries * 256) c.packet)) :=
    Events.ite (Events.refl s) (events_hostWr _ _ _)
  have e1 : (if c.packet.isEmpty then s else s.hostWr (fnOfKey k) (.hostWrite (fnOfKey k) (c.area + (s.ring k).dev % (s.ring k).entries * 256) c.packet)).rings = s.rings := by
    split
    · rfl
    · exact hostWr_rings _ _ _
  generalize (if c.packet.isEmpty then s else s.hostWr (fnOfKey k) (.hostWrite (fnOfKey k) (c.area + (s.ring k).dev % (s.ring k).entries * 256) c.packet)) = s1 at h1 e1 ⊢
  have h2 : ∀ e, Events s ((s1.hostWr (fnOfKey k) e).setRing k { s.ring k with dev := ((s.ring k).dev + 1) % 2 ^ 32 }) := fun e => by
    refine (h1.trans (events_hostWr _ _ _)).trans (events_setRing _ _ _ ?_)
    simp only [State.ring, hostWr_rings, e1, Ring.still]
  split
  · exact (h2 _).trans (events_hostWr _ _ _)
  · refine Events.trans ?_ (events_wakePosters _ _)
    refine Events.trans ?_ (events_hostWr _ _ _)
    refine ((h2 _).trans (events_hostWr _ _ _)).trans (events_setRing _ _ _ ?_)
    simp only [Ring.still]

theorem events_postCore (s : State) (k : Nat) (c : Comp) (hc : c.frees = none) : Events s (s.postCore k c).1 := by
  unfold State.postCore
  simp only
  split
  · exact Events.refl s
  · split
    · exact events_writeComp s k c hc
    · split
      · exact events_setRing s k _ (by simp only [Ring.still])
      · refine Events.ite ?_ (Events.trans ?_ (events_ringCount _ _ _)) <;> exact events_setRing s k _ (by simp only [Ring.still])

theorem map_onFirst (p : Path) (f : Session → Session) (h : ∀ y, (f y).quiet = y.quiet) (l : List Session) :
    (onFirst p f l).map Session.quiet = l.map Session.quiet := by
  induction l with
  | nil => rfl
  | cons y r ih => unfold onFirst; split <;> simp [h, ih]

theorem events_onSession (s : State) (p : Path) (f : Session → Session) (h : ∀ y, (f y).quiet = y.quiet) :
    Events s (s.onSession p f) := by
  refine Events.of ?_ rfl rfl
  have e := map_onFirst p f h s.tosen.sessions
  simp only [State.quiet, State.onSession, e]

theorem events_halfDue (s : State) (l : List (Nat × Nat)) : Events s { s with ports.halfDue := l } := Events.of rfl rfl rfl

theorem events_macBy (s : State) (p i k : Nat) : Events s (s.macBy p i k) := by
  unfold State.macBy
  simp only
  split
  · exact Events.trans (events_setPt s p _ (by simp only [PortSt.still])) (events_halfDue _ _)
  · exact events_setPt s p _ (by simp only [PortSt.still])

theorem events_macSent (s : State) (p : Nat) (b : Bytes) : Events s (s.macSent p b) := by
  have hm : ∀ (s : State) (i : Nat), Events s (s.mac p i) := fun s i => events_macBy s p i 1
  have hg : Events s (s.macGood p 32 48 b) := by
    unfold State.macGood
    simp only
    have h4 := (((hm s 32).trans (events_macBy _ p 33 b.length)).trans
      (hm _ (32 + if b.take 6 = List.replicate 6 0xFF#8 then 4 else if (b.headD 0).toNat % 2 = 1 then 3 else 2))).trans (hm _ (48 + sizeBin b.length))
    split
    · exact h4.trans (hm _ _)
    · exact h4
  unfold State.macSent
  simp only
  split
  · exact hg.trans (hm _ _)
  · split
    · refine (hg.trans (hm _ 39)).trans (Events.fold _ (fun s i => ?_) _ _)
      split
      · exact hm s _
      · exact Events.refl s
    · exact hg

theorem events_mpTx (s : State) (mac : Nat) (b : Bytes) : Events s (s.mpTx mac b) := by
  unfold State.mpTx
  simp only
  split
  · exact Events.of rfl rfl rfl
  · exact (events_macSent s 24 _).trans (events_emit _ _)

theorem events_mpSend (s : State) (mac : Nat) (p : Bytes) : Events s (s.mpSend mac p) :=
  Events.fold _ (fun s b => events_mpTx s mac b) _ s

theorem events_windlassQueue (s : State) (p : Bytes) : Events s (s.windlassQueue p) := by
  unfold State.windlassQueue
  split <;> exact Events.of rfl rfl rfl

theorem events_eventRing (s : State) (x : Session) (fn rid op dom : Nat) (fs : List Nat) : Events s (s.eventRing x fn rid op dom fs).1 := by
  unfold State.eventRing
  simp only
  split
  · split
    · exact events_onSession s _ _ (fun y => by simp only [Session.quiet])
    · exact events_onSession s _ _ (fun y => by simp only [Session.quiet])
  · refine Events.trans (events_onSession s _ _ ?_) (events_postCore _ _ _ rfl)
    intro y
    simp only [Session.quiet]

theorem events_eventDom (s : State) (d op dom : Nat) (fs : List Nat) : Events s (s.eventDom d op dom fs).1 := by
  unfold State.eventDom
  simp only
  split
  · split
    · exact (Events.ite (Events.refl s) (events_subEvent s d op fs)).trans (events_eventRing _ _ _ _ _ _ _)
    · exact Events.refl s
  · exact Events.trans (t := { s with tosen.evLost := tupd s.tosen.evLost d 0 inc48 }) (Events.of rfl rfl rfl) (events_subEvent _ d op fs)

theorem events_eventSide (s : State) (all : Bool) (op dom : Nat) (fs : List Nat) : Events s (s.eventSide all op dom fs) := by
  unfold State.eventSide
  refine Events.fold _ (fun s x => ?_) _ s
  simp only
  split
  · exact Events.ite (events_mpSend _ _ _) (Events.refl _)
  · exact Events.ite (events_windlassQueue _ _) (Events.refl _)
  · exact Events.refl _

theorem events_event0 (s : State) (ds : List Nat) (op dom : Nat) (fs : List Nat) : Events s (s.event0 ds op dom fs).1 := by
  unfold State.event0
  simp only
  have h : ∀ (l : List Nat) (a : State × List (Nat × Nat)), Events a.1 (l.foldl (fun (a : State × List (Nat × Nat)) d =>
      let x := a.1.eventDom d op dom fs
      (x.1, a.2 ++ x.2)) a).1 := by
    intro l
    induction l with
    | nil => exact fun a => Events.refl a.1
    | cons d r ih => exact fun a => (events_eventDom a.1 d op dom fs).trans (ih ((a.1.eventDom d op dom fs).1, a.2 ++ (a.1.eventDom d op dom fs).2))
  split
  · exact (h ds.eraseDups (s, [])).trans (events_eventSide _ _ _ _ _)
  · exact h ds.eraseDups (s, [])

theorem events_ringEventBy (send : State → List Nat → Nat → Nat → List Nat → State)
    (h : ∀ s a b c d, Events s (send s a b c d)) (s : State) (k cause : Nat) : Events s (State.ringEventBy send s k cause) := h _ _ _ _ _

theorem events_event1 (s : State) (ds : List Nat) (op dom : Nat) (fs : List Nat) : Events s (s.event1 ds op dom fs) := by
  unfold State.event1
  exact (events_event0 s ds op dom fs).trans
    (Events.fold _ (fun s x => events_ringEventBy _ (fun s a b c d => events_event0 s a b c d) s _ _) _ _)

/-- An event leaves the block without touching any unit but those it leaves by. -/
theorem events_event (s : State) (ds : List Nat) (op dom : Nat) (fs : List Nat) : Events s (s.event ds op dom fs) := by
  unfold State.event
  exact (events_event0 s ds op dom fs).trans
    (Events.fold _ (fun s x => events_ringEventBy _ (fun s a b c d => events_event1 s a b c d) s _ _) _ _)

theorem events_post (s : State) (k : Nat) (c : Comp) (hc : c.frees = none) : Events s (s.post k c) := by
  unfold State.post
  exact (events_postCore s k c hc).trans
    (Events.fold _ (fun s x => events_ringEventBy _ (fun s a b c d => events_event1 s a b c d) s _ _) _ _)

/-! Replies. -/

theorem events_sendReply (s : State) (x : Session) (q : TReq) (gen st dup began : Nat) (fs : List Nat) :
    Events s (s.sendReply x q gen st dup began fs) := by
  unfold State.sendReply
  simp only
  split
  · exact events_mpSend _ _ _
  · exact events_windlassQueue _ _
  · refine Events.trans (events_hostWr s _ _) (Events.trans (events_setRing _ _ _ ?_) (events_post _ _ _ rfl))
    simp only [Ring.still, Ring.finish]

/-! What every command ends with. -/

theorem events_portEvent (s : State) (p c : Nat) (m : List Nat) : Events s (s.portEvent p c m) := events_event _ _ _ _ _

theorem events_flushHalf (s : State) : Events s s.flushHalf := by
  unfold State.flushHalf
  exact (events_halfDue s []).trans (Events.fold _ (fun s _ => events_portEvent s _ _ _) _ _)

theorem events_sluEvents (s : State) (l : Table SluEv) : Events s { s with slu.events := l } := Events.of rfl rfl rfl

theorem events_sluFlush (s : State) : Events s s.sluFlush := by
  unfold State.sluFlush
  exact (events_sluEvents s _).trans (Events.fold _ (fun s _ => events_event s _ _ _ _) _ _)

theorem events_noteQuality (s : State) (q : Nat) : Events s (s.noteQuality q) := by
  unfold State.noteQuality
  exact Events.ite (Events.refl s) (Events.of rfl rfl rfl)

theorem events_dbg (s : State) (d : Dbg) (h : d.still = s.dbg.still) : Events s { s with dbg := d } :=
  Events.of (by simp only [State.quiet, h]) rfl rfl

theorem events_dbgCount (s : State) (i : Nat) : Events s (s.dbgCount i) := Events.of rfl rfl rfl

theorem events_debugEvent (s : State) (c t cause : Nat) : Events s (s.debugEvent c t cause) := by
  unfold State.debugEvent State.debugEventFor
  simp only
  split
  · exact events_dbg s _ (by simp only [Dbg.still])
  · refine Events.trans (events_dbg s _ ?_) (events_event _ _ _ _ _)
    simp only [Dbg.still]

theorem events_haltThr (s : State) (c t cause slot : Nat) : Events s (s.haltThr c t cause slot) := by
  unfold State.haltThr
  simp only
  refine Events.ite (Events.refl s) (Events.trans ?_ (events_debugEvent _ _ _ _))
  refine Events.trans (Events.trans (events_setThr s c t _ ?_) (events_dbgCount _ _)) (events_dbg _ _ ?_)
  · rfl
  · simp only [Dbg.still]

theorem events_stepTick (s : State) (c t : Nat) : Events s (s.stepTick c t) := by
  unfold State.stepTick
  split
  · exact Events.refl s
  · simp only
    split
    · exact events_dbg s _ (by simp only [Dbg.still])
    · split
      · refine Events.trans (events_dbg s _ ?_) (events_haltThr _ _ _ _ _)
        simp only [Dbg.still]
      · exact events_dbg s _ (by simp only [Dbg.still])

theorem events_wlRespond (s : State) (ty sq cl : Nat) (fs : List Nat) : Events s (s.wlRespond ty sq cl fs) := by
  unfold State.wlRespond
  simp only
  refine Events.trans ?_ (events_emit _ _)
  split
  · refine Events.trans (events_dbgCount s 3) (events_dbg _ _ ?_)
    simp only [Dbg.still]
  · exact events_dbg s _ (by simp only [Dbg.still])

theorem events_wlStepped (s : State) : Events s s.wlStepped := by
  unfold State.wlStepped
  split
  · exact Events.refl _
  · simp only
    split
    · refine Events.trans (events_dbg s _ ?_) (events_wlRespond _ _ _ _ _)
      simp only [Dbg.still]
    · split
      · refine Events.trans (events_dbg s _ ?_) (events_wlRespond _ _ _ _ _)
        simp only [Dbg.still]
      · exact Events.refl _

theorem events_stepFlush (s : State) : Events s s.stepFlush := by
  unfold State.stepFlush
  refine Events.trans (Events.fold _ (fun s e => ?_) _ s) (events_wlStepped _)
  simp only
  split
  · refine Events.trans (events_setThr s _ _ _ ?_) (events_stepTick _ _ _)
    rfl
  · exact Events.refl s

/-- What every command ends with: reports, and what was in force is kept for later stamps. -/
theorem events_finish (s : State) (q : Nat) : Events s ((s.flushHalf).stepFlush.noteQuality q) :=
  ((events_flushHalf s).trans (events_stepFlush _)).trans (events_noteQuality _ _)

/-- No slot of a ledger cistern was freed: the Ledger has nothing to do. -/
theorem ledFlush_none (s : State) (h : (s.led.chains.all (fun e => !e.2.freed)) = true) : s.ledFlush = s := by
  have e : s.led.chains.filter (fun (x : Nat × Chain) => x.2.freed) = [] := by
    rw [List.filter_eq_nil_iff]
    intro x hx hf
    have := List.all_eq_true.mp h x hx
    rw [hf] at this
    cases this
  simp only [State.ledFlush, e, List.foldl_nil]

/-- No change of flow control is to be sent. -/
theorem pfcFlush_none (s : State) (h : s.ports.pfcDue = []) : s.pfcFlush = s := by
  simp only [State.pfcFlush, h, List.foldl_nil]
  rw [← h]

/-- No frame waits for its time on half-duplex MP. -/
theorem mpFlush_none (s : State) (h : s.ports.mp.tx = []) : s.mpFlush = s := by
  simp only [State.mpFlush, h, List.length_nil, State.mpEnds]

/-- No report is due. -/
theorem sluFlush_none (s : State) (h : (s.slu.events.all (fun e => e.2.period == s.now / grid 20)) = true) : s.sluFlush = s := by
  have e : s.slu.events.filter (fun (x : Nat × SluEv) => x.2.period != s.now / grid 20) = [] := by
    rw [List.filter_eq_nil_iff]
    intro x hx
    simp [beq_iff_eq.mp (List.all_eq_true.mp h x hx)]
  have k : s.slu.events.filter (fun (x : Nat × SluEv) => x.2.period == s.now / grid 20) = s.slu.events :=
    List.filter_eq_self.mpr (fun x hx => List.all_eq_true.mp h x hx)
  simp only [State.sluFlush, e, List.foldl_nil, k]

/-- Nothing of an earlier command leaves the block with this one. -/
theorem settled_flush {s : State} (h : s.Settled) : s.mpFlush.sluFlush = s := by
  rw [mpFlush_none s h.mp, sluFlush_none s h.reports]

/-! Replies. -/

/-- Events are no more than replies may change. -/
theorem Events.agree {s t : State} (h : Events s t) : Agree s t := by
  refine ⟨?_, h.bytes, h.places⟩
  have e : t.tosen.sessions.map Session.still = s.tosen.sessions.map Session.still := by
    have := congrArg (fun x => x.tosen.sessions.map Session.still) h.quiet
    simpa only [State.quiet, List.map_map, show Session.still ∘ Session.quiet = Session.still from rfl] using this
  simp only [State.still, h.quiet, e]

theorem Agree.refl (s : State) : Agree s s := ⟨rfl, fun _ _ => rfl, fun _ h => h⟩

theorem Agree.trans {s t u : State} (h : Agree s t) (k : Agree t u) : Agree s u :=
  ⟨k.still.trans h.still, fun a ha => (k.bytes a (fun x => ha (h.places a x))).trans (h.bytes a ha),
   fun a ha => h.places a (k.places a ha)⟩

theorem agree_onSession (s : State) (p : Path) (f : Session → Session) (h : ∀ y, (f y).still = y.still) :
    Agree s (s.onSession p f) := by
  refine ⟨?_, fun _ _ => rfl, fun _ h => h⟩
  have e : (onFirst p f s.tosen.sessions).map Session.still = s.tosen.sessions.map Session.still := by
    generalize s.tosen.sessions = l
    induction l with
    | nil => rfl
    | cons y r ih => unfold onFirst; split <;> simp [h, ih]
  simp only [State.still, State.quiet, State.onSession, e]

theorem agree_reply1 (s : State) (x : Session) (q : TReq) (st began : Nat) (fs : List Nat) : Agree s (s.reply1 x q st began fs) := by
  unfold State.reply1
  refine (events_sendReply s x q _ _ _ _ _).agree.trans (agree_onSession _ _ _ ?_)
  intro y
  simp only [Session.still]

theorem agree_skipUndefined (n : Nat) (s : State) (p : Path) : Agree s (s.skipUndefined p n) := by
  induction n generalizing s with
  | zero => exact Agree.refl s
  | succ n ih =>
    unfold State.skipUndefined
    split
    · exact Agree.refl s
    · split
      · split
        · exact Agree.refl s
        · refine Agree.trans (Agree.trans (agree_onSession s p _ ?_) (agree_reply1 _ _ _ _ _ _)) (ih _)
          intro y
          simp only [Session.still]
      · exact Agree.refl s

/-- A reply leaves the block without touching any unit but those it leaves by. -/
theorem agree_answer (s : State) (x : Session) (q : TReq) (st began : Nat) (fs : List Nat) : Agree s (s.answer x q st began fs) :=
  (agree_reply1 s x q st began fs).trans (agree_skipUndefined _ _ _)

/-- An update that the erased parts do not see keeps states that agree in agreement. -/
theorem Agree.map {s t : State} (h : Agree s t) (g : State → State) (hg : ∀ x, (g x).still = g x.still) (hr : ∀ x, (g x).ram = x.ram)
    (hc : ∀ x, (g x).cores.cores = x.cores.cores) : Agree (g s) (g t) := by
  have hp : ∀ x a, (g x).subByte a ↔ x.subByte a := fun x a => by simp only [State.subByte, State.thr, State.core, hc]
  refine ⟨?_, fun a ha => ?_, fun a ha => ?_⟩
  · rw [hg, hg, h.still]
  · rw [hr, hr]
    exact h.bytes a (fun x => ha ((hp s a).mpr x))
  · exact (hp s a).mpr (h.places a ((hp t a).mp ha))

end Sys2Proof.Machine
end

