-- ==== Sys2Proof/Laws/State.lean ====
section
/-! SUPPORT. What each named update of the state leaves alone, field by field, and what it is read back as. -/
namespace Sys2Proof.Machine
variable (s : State)

/-- A table entry written twice holds the second value. -/
theorem tset_tset {α : Type} (t : Table α) (k : Nat) (v w : α) : tset (tset t k v) k w = tset t k w := by
  induction t with
  | nil => simp [tset]
  | cons e r ih =>
    obtain ⟨k', v'⟩ := e
    by_cases h : k' = k
    · simp [tset, h]
    · by_cases g : k < k' && (tget? r k).isNone
      · simp [tset, h, g]
      · simp [tset, h, g, ih]

/-! `State.emit`. -/

@[simp] theorem emit_pending (e : Emission) : (s.emit e).pending = s.pending := rfl
@[simp] theorem emit_now (e : Emission) : (s.emit e).now = s.now := rfl
@[simp] theorem emit_elapsed (e : Emission) : (s.emit e).elapsed = s.elapsed := rfl
@[simp] theorem emit_fresh (e : Emission) : (s.emit e).fresh = s.fresh := rfl
@[simp] theorem emit_ram (e : Emission) : (s.emit e).ram = s.ram := rfl
@[simp] theorem emit_glb (e : Emission) : (s.emit e).glb = s.glb := rfl
@[simp] theorem emit_pw (e : Emission) : (s.emit e).pw = s.pw := rfl
@[simp] theorem emit_tb (e : Emission) : (s.emit e).tb = s.tb := rfl
@[simp] theorem emit_led (e : Emission) : (s.emit e).led = s.led := rfl
@[simp] theorem emit_rings (e : Emission) : (s.emit e).rings = s.rings := rfl
@[simp] theorem emit_fuse (e : Emission) : (s.emit e).fuse = s.fuse := rfl
@[simp] theorem emit_tosen (e : Emission) : (s.emit e).tosen = s.tosen := rfl
@[simp] theorem emit_boot (e : Emission) : (s.emit e).boot = s.boot := rfl
@[simp] theorem emit_dbg (e : Emission) : (s.emit e).dbg = s.dbg := rfl
@[simp] theorem emit_ports (e : Emission) : (s.emit e).ports = s.ports := rfl
@[simp] theorem emit_pl (e : Emission) : (s.emit e).pl = s.pl := rfl
@[simp] theorem emit_tm (e : Emission) : (s.emit e).tm = s.tm := rfl
@[simp] theorem emit_slu (e : Emission) : (s.emit e).slu = s.slu := rfl
@[simp] theorem emit_dma (e : Emission) : (s.emit e).dma = s.dma := rfl
@[simp] theorem emit_pcie (e : Emission) : (s.emit e).pcie = s.pcie := rfl
@[simp] theorem emit_cores (e : Emission) : (s.emit e).cores = s.cores := rfl
@[simp] theorem emit_rm (e : Emission) : (s.emit e).rm = s.rm := rfl
@[simp] theorem emit_mem (e : Emission) : (s.emit e).mem = s.mem := rfl
@[simp] theorem emit_rdma (e : Emission) : (s.emit e).rdma = s.rdma := rfl
@[simp] theorem emit_stor (e : Emission) : (s.emit e).stor = s.stor := rfl
@[simp] theorem emit_sec (e : Emission) : (s.emit e).sec = s.sec := rfl

/-! `State.emits`. -/

@[simp] theorem emits_pending (e : List Emission) : (s.emits e).pending = s.pending := rfl
@[simp] theorem emits_now (e : List Emission) : (s.emits e).now = s.now := rfl
@[simp] theorem emits_elapsed (e : List Emission) : (s.emits e).elapsed = s.elapsed := rfl
@[simp] theorem emits_fresh (e : List Emission) : (s.emits e).fresh = s.fresh := rfl
@[simp] theorem emits_ram (e : List Emission) : (s.emits e).ram = s.ram := rfl
@[simp] theorem emits_glb (e : List Emission) : (s.emits e).glb = s.glb := rfl
@[simp] theorem emits_pw (e : List Emission) : (s.emits e).pw = s.pw := rfl
@[simp] theorem emits_tb (e : List Emission) : (s.emits e).tb = s.tb := rfl
@[simp] theorem emits_led (e : List Emission) : (s.emits e).led = s.led := rfl
@[simp] theorem emits_rings (e : List Emission) : (s.emits e).rings = s.rings := rfl
@[simp] theorem emits_fuse (e : List Emission) : (s.emits e).fuse = s.fuse := rfl
@[simp] theorem emits_tosen (e : List Emission) : (s.emits e).tosen = s.tosen := rfl
@[simp] theorem emits_boot (e : List Emission) : (s.emits e).boot = s.boot := rfl
@[simp] theorem emits_dbg (e : List Emission) : (s.emits e).dbg = s.dbg := rfl
@[simp] theorem emits_ports (e : List Emission) : (s.emits e).ports = s.ports := rfl
@[simp] theorem emits_pl (e : List Emission) : (s.emits e).pl = s.pl := rfl
@[simp] theorem emits_tm (e : List Emission) : (s.emits e).tm = s.tm := rfl
@[simp] theorem emits_slu (e : List Emission) : (s.emits e).slu = s.slu := rfl
@[simp] theorem emits_dma (e : List Emission) : (s.emits e).dma = s.dma := rfl
@[simp] theorem emits_pcie (e : List Emission) : (s.emits e).pcie = s.pcie := rfl
@[simp] theorem emits_cores (e : List Emission) : (s.emits e).cores = s.cores := rfl
@[simp] theorem emits_rm (e : List Emission) : (s.emits e).rm = s.rm := rfl
@[simp] theorem emits_mem (e : List Emission) : (s.emits e).mem = s.mem := rfl
@[simp] theorem emits_rdma (e : List Emission) : (s.emits e).rdma = s.rdma := rfl
@[simp] theorem emits_stor (e : List Emission) : (s.emits e).stor = s.stor := rfl
@[simp] theorem emits_sec (e : List Emission) : (s.emits e).sec = s.sec := rfl

/-! `State.elapse`. -/

@[simp] theorem slots_pending : s.slots.pending = s.pending := rfl
@[simp] theorem slots_now : s.slots.now = s.now := rfl
@[simp] theorem slots_elapsed : s.slots.elapsed = s.elapsed := rfl
@[simp] theorem slots_fresh : s.slots.fresh = s.fresh := rfl
@[simp] theorem slots_out : s.slots.out = s.out := rfl
@[simp] theorem slots_ram : s.slots.ram = s.ram := rfl
@[simp] theorem slots_glb : s.slots.glb = s.glb := rfl
@[simp] theorem slots_pw : s.slots.pw = s.pw := rfl
@[simp] theorem slots_tb : s.slots.tb = s.tb := rfl
@[simp] theorem slots_led : s.slots.led = s.led := rfl
@[simp] theorem slots_rings : s.slots.rings = s.rings := rfl
@[simp] theorem slots_fuse : s.slots.fuse = s.fuse := rfl
@[simp] theorem slots_tosen : s.slots.tosen = s.tosen := rfl
@[simp] theorem slots_boot : s.slots.boot = s.boot := rfl
@[simp] theorem slots_dbg : s.slots.dbg = s.dbg := rfl
@[simp] theorem slots_ports : s.slots.ports = s.ports := rfl
@[simp] theorem slots_pl : s.slots.pl = s.pl := rfl
@[simp] theorem slots_tm : s.slots.tm = s.tm := rfl
@[simp] theorem slots_slu : s.slots.slu = s.slu := rfl
@[simp] theorem slots_dma : s.slots.dma = s.dma := rfl
@[simp] theorem slots_pcie : s.slots.pcie = s.pcie := rfl
@[simp] theorem slots_rm : s.slots.rm = s.rm := rfl
@[simp] theorem slots_mem : s.slots.mem = s.mem := rfl
@[simp] theorem slots_rdma : s.slots.rdma = s.rdma := rfl
@[simp] theorem slots_stor : s.slots.stor = s.stor := rfl
@[simp] theorem slots_sec : s.slots.sec = s.sec := rfl
@[simp] theorem elapse_pending (dt : Nat) : (s.elapse dt).pending = s.pending := by simp only [State.elapse, slots_pending]; (repeat' split) <;> rfl
@[simp] theorem elapse_fresh (dt : Nat) : (s.elapse dt).fresh = s.fresh := by simp only [State.elapse, slots_fresh]; (repeat' split) <;> rfl
@[simp] theorem elapse_out (dt : Nat) : (s.elapse dt).out = s.out := by simp only [State.elapse, slots_out]; (repeat' split) <;> rfl
@[simp] theorem elapse_ram (dt : Nat) : (s.elapse dt).ram = s.ram := by simp only [State.elapse, slots_ram]; (repeat' split) <;> rfl
@[simp] theorem elapse_glb (dt : Nat) : (s.elapse dt).glb = s.glb := by simp only [State.elapse, slots_glb]; (repeat' split) <;> rfl
@[simp] theorem elapse_tb (dt : Nat) : (s.elapse dt).tb = s.tb := by simp only [State.elapse, slots_tb]; (repeat' split) <;> rfl
@[simp] theorem elapse_led (dt : Nat) : (s.elapse dt).led = s.led := by simp only [State.elapse, slots_led]; (repeat' split) <;> rfl
@[simp] theorem elapse_rings (dt : Nat) : (s.elapse dt).rings = s.rings := by simp only [State.elapse, slots_rings]; (repeat' split) <;> rfl
@[simp] theorem elapse_fuse (dt : Nat) : (s.elapse dt).fuse = s.fuse := by simp only [State.elapse, slots_fuse]; (repeat' split) <;> rfl
@[simp] theorem elapse_tosen (dt : Nat) : (s.elapse dt).tosen = s.tosen := by simp only [State.elapse, slots_tosen]; (repeat' split) <;> rfl
@[simp] theorem elapse_boot (dt : Nat) : (s.elapse dt).boot = s.boot := by simp only [State.elapse, slots_boot]; (repeat' split) <;> rfl
@[simp] theorem elapse_dbg (dt : Nat) : (s.elapse dt).dbg = s.dbg := by simp only [State.elapse, slots_dbg]; (repeat' split) <;> rfl
@[simp] theorem elapse_ports (dt : Nat) : (s.elapse dt).ports = s.ports := by simp only [State.elapse, slots_ports]; (repeat' split) <;> rfl
@[simp] theorem elapse_pl (dt : Nat) : (s.elapse dt).pl = s.pl := by simp only [State.elapse, slots_pl]; (repeat' split) <;> rfl
@[simp] theorem elapse_tm (dt : Nat) : (s.elapse dt).tm = s.tm := by simp only [State.elapse, slots_tm]; (repeat' split) <;> rfl
@[simp] theorem elapse_slu (dt : Nat) : (s.elapse dt).slu = s.slu := by simp only [State.elapse, slots_slu]; (repeat' split) <;> rfl
@[simp] theorem elapse_dma (dt : Nat) : (s.elapse dt).dma = s.dma := by simp only [State.elapse, slots_dma]; (repeat' split) <;> rfl
@[simp] theorem elapse_pcie (dt : Nat) : (s.elapse dt).pcie = s.pcie := by simp only [State.elapse, slots_pcie]; (repeat' split) <;> rfl
@[simp] theorem elapse_rm (dt : Nat) : (s.elapse dt).rm = s.rm := by simp only [State.elapse, slots_rm]; (repeat' split) <;> rfl
@[simp] theorem elapse_mem (dt : Nat) : (s.elapse dt).mem = s.mem := by simp only [State.elapse, slots_mem]; (repeat' split) <;> rfl
@[simp] theorem elapse_rdma (dt : Nat) : (s.elapse dt).rdma = s.rdma := by simp only [State.elapse, slots_rdma]; (repeat' split) <;> rfl
@[simp] theorem elapse_stor (dt : Nat) : (s.elapse dt).stor = s.stor := by simp only [State.elapse, slots_stor]; (repeat' split) <;> rfl
@[simp] theorem elapse_sec (dt : Nat) : (s.elapse dt).sec = s.sec := by simp only [State.elapse, slots_sec]; (repeat' split) <;> rfl
@[simp] theorem elapse_elapsed (dt : Nat) : (s.elapse dt).elapsed = s.elapsed + dt := by simp only [State.elapse, slots_elapsed]; (repeat' split) <;> rfl

/-! `State.ramWrite`. -/

@[simp] theorem ramWrite_pending (a : Nat) (b : Bytes) : (s.ramWrite a b).pending = s.pending := rfl
@[simp] theorem ramWrite_now (a : Nat) (b : Bytes) : (s.ramWrite a b).now = s.now := rfl
@[simp] theorem ramWrite_elapsed (a : Nat) (b : Bytes) : (s.ramWrite a b).elapsed = s.elapsed := rfl
@[simp] theorem ramWrite_fresh (a : Nat) (b : Bytes) : (s.ramWrite a b).fresh = s.fresh := rfl
@[simp] theorem ramWrite_out (a : Nat) (b : Bytes) : (s.ramWrite a b).out = s.out := rfl
@[simp] theorem ramWrite_glb (a : Nat) (b : Bytes) : (s.ramWrite a b).glb = s.glb := rfl
@[simp] theorem ramWrite_pw (a : Nat) (b : Bytes) : (s.ramWrite a b).pw = s.pw := rfl
@[simp] theorem ramWrite_tb (a : Nat) (b : Bytes) : (s.ramWrite a b).tb = s.tb := rfl
@[simp] theorem ramWrite_led (a : Nat) (b : Bytes) : (s.ramWrite a b).led = s.led := rfl
@[simp] theorem ramWrite_rings (a : Nat) (b : Bytes) : (s.ramWrite a b).rings = s.rings := rfl
@[simp] theorem ramWrite_fuse (a : Nat) (b : Bytes) : (s.ramWrite a b).fuse = s.fuse := rfl
@[simp] theorem ramWrite_tosen (a : Nat) (b : Bytes) : (s.ramWrite a b).tosen = s.tosen := rfl
@[simp] theorem ramWrite_boot (a : Nat) (b : Bytes) : (s.ramWrite a b).boot = s.boot := rfl
@[simp] theorem ramWrite_dbg (a : Nat) (b : Bytes) : (s.ramWrite a b).dbg = s.dbg := rfl
@[simp] theorem ramWrite_ports (a : Nat) (b : Bytes) : (s.ramWrite a b).ports = s.ports := rfl
@[simp] theorem ramWrite_pl (a : Nat) (b : Bytes) : (s.ramWrite a b).pl = s.pl := rfl
@[simp] theorem ramWrite_tm (a : Nat) (b : Bytes) : (s.ramWrite a b).tm = s.tm := rfl
@[simp] theorem ramWrite_slu (a : Nat) (b : Bytes) : (s.ramWrite a b).slu = s.slu := rfl
@[simp] theorem ramWrite_dma (a : Nat) (b : Bytes) : (s.ramWrite a b).dma = s.dma := rfl
@[simp] theorem ramWrite_pcie (a : Nat) (b : Bytes) : (s.ramWrite a b).pcie = s.pcie := rfl
@[simp] theorem ramWrite_cores (a : Nat) (b : Bytes) : (s.ramWrite a b).cores = s.cores := rfl
@[simp] theorem ramWrite_rm (a : Nat) (b : Bytes) : (s.ramWrite a b).rm = s.rm := rfl
@[simp] theorem ramWrite_rdma (a : Nat) (b : Bytes) : (s.ramWrite a b).rdma = s.rdma := rfl
@[simp] theorem ramWrite_stor (a : Nat) (b : Bytes) : (s.ramWrite a b).stor = s.stor := rfl
@[simp] theorem ramWrite_sec (a : Nat) (b : Bytes) : (s.ramWrite a b).sec = s.sec := rfl

/-! `State.setFn`. -/

@[simp] theorem setFn_pending (f : Nat) (x : FnStatus) : (s.setFn f x).pending = s.pending := rfl
@[simp] theorem setFn_now (f : Nat) (x : FnStatus) : (s.setFn f x).now = s.now := rfl
@[simp] theorem setFn_elapsed (f : Nat) (x : FnStatus) : (s.setFn f x).elapsed = s.elapsed := rfl
@[simp] theorem setFn_fresh (f : Nat) (x : FnStatus) : (s.setFn f x).fresh = s.fresh := rfl
@[simp] theorem setFn_out (f : Nat) (x : FnStatus) : (s.setFn f x).out = s.out := rfl
@[simp] theorem setFn_ram (f : Nat) (x : FnStatus) : (s.setFn f x).ram = s.ram := rfl
@[simp] theorem setFn_pw (f : Nat) (x : FnStatus) : (s.setFn f x).pw = s.pw := rfl
@[simp] theorem setFn_tb (f : Nat) (x : FnStatus) : (s.setFn f x).tb = s.tb := rfl
@[simp] theorem setFn_led (f : Nat) (x : FnStatus) : (s.setFn f x).led = s.led := rfl
@[simp] theorem setFn_rings (f : Nat) (x : FnStatus) : (s.setFn f x).rings = s.rings := rfl
@[simp] theorem setFn_fuse (f : Nat) (x : FnStatus) : (s.setFn f x).fuse = s.fuse := rfl
@[simp] theorem setFn_tosen (f : Nat) (x : FnStatus) : (s.setFn f x).tosen = s.tosen := rfl
@[simp] theorem setFn_boot (f : Nat) (x : FnStatus) : (s.setFn f x).boot = s.boot := rfl
@[simp] theorem setFn_dbg (f : Nat) (x : FnStatus) : (s.setFn f x).dbg = s.dbg := rfl
@[simp] theorem setFn_ports (f : Nat) (x : FnStatus) : (s.setFn f x).ports = s.ports := rfl
@[simp] theorem setFn_pl (f : Nat) (x : FnStatus) : (s.setFn f x).pl = s.pl := rfl
@[simp] theorem setFn_tm (f : Nat) (x : FnStatus) : (s.setFn f x).tm = s.tm := rfl
@[simp] theorem setFn_slu (f : Nat) (x : FnStatus) : (s.setFn f x).slu = s.slu := rfl
@[simp] theorem setFn_dma (f : Nat) (x : FnStatus) : (s.setFn f x).dma = s.dma := rfl
@[simp] theorem setFn_pcie (f : Nat) (x : FnStatus) : (s.setFn f x).pcie = s.pcie := rfl
@[simp] theorem setFn_cores (f : Nat) (x : FnStatus) : (s.setFn f x).cores = s.cores := rfl
@[simp] theorem setFn_rm (f : Nat) (x : FnStatus) : (s.setFn f x).rm = s.rm := rfl
@[simp] theorem setFn_mem (f : Nat) (x : FnStatus) : (s.setFn f x).mem = s.mem := rfl
@[simp] theorem setFn_rdma (f : Nat) (x : FnStatus) : (s.setFn f x).rdma = s.rdma := rfl
@[simp] theorem setFn_stor (f : Nat) (x : FnStatus) : (s.setFn f x).stor = s.stor := rfl
@[simp] theorem setFn_sec (f : Nat) (x : FnStatus) : (s.setFn f x).sec = s.sec := rfl
@[simp] theorem setFn_fn_same (k : Nat) (x : FnStatus) : (s.setFn k x).fn k = x := tget_tset_same ..
theorem setFn_fn_other (k j : Nat) (x : FnStatus) (h : j ≠ k) : (s.setFn k x).fn j = s.fn j := tget_tset_other _ k j x _ h
@[simp] theorem setFn_twice (k : Nat) (x y : FnStatus) : (s.setFn k x).setFn k y = s.setFn k y := by simp [State.setFn, tset_tset]

/-! `State.setChain`. -/

@[simp] theorem setChain_pending (d : Nat) (x : Chain) : (s.setChain d x).pending = s.pending := rfl
@[simp] theorem setChain_now (d : Nat) (x : Chain) : (s.setChain d x).now = s.now := rfl
@[simp] theorem setChain_elapsed (d : Nat) (x : Chain) : (s.setChain d x).elapsed = s.elapsed := rfl
@[simp] theorem setChain_fresh (d : Nat) (x : Chain) : (s.setChain d x).fresh = s.fresh := rfl
@[simp] theorem setChain_out (d : Nat) (x : Chain) : (s.setChain d x).out = s.out := rfl
@[simp] theorem setChain_ram (d : Nat) (x : Chain) : (s.setChain d x).ram = s.ram := rfl
@[simp] theorem setChain_glb (d : Nat) (x : Chain) : (s.setChain d x).glb = s.glb := rfl
@[simp] theorem setChain_pw (d : Nat) (x : Chain) : (s.setChain d x).pw = s.pw := rfl
@[simp] theorem setChain_tb (d : Nat) (x : Chain) : (s.setChain d x).tb = s.tb := rfl
@[simp] theorem setChain_rings (d : Nat) (x : Chain) : (s.setChain d x).rings = s.rings := rfl
@[simp] theorem setChain_fuse (d : Nat) (x : Chain) : (s.setChain d x).fuse = s.fuse := rfl
@[simp] theorem setChain_tosen (d : Nat) (x : Chain) : (s.setChain d x).tosen = s.tosen := rfl
@[simp] theorem setChain_boot (d : Nat) (x : Chain) : (s.setChain d x).boot = s.boot := rfl
@[simp] theorem setChain_dbg (d : Nat) (x : Chain) : (s.setChain d x).dbg = s.dbg := rfl
@[simp] theorem setChain_ports (d : Nat) (x : Chain) : (s.setChain d x).ports = s.ports := rfl
@[simp] theorem setChain_pl (d : Nat) (x : Chain) : (s.setChain d x).pl = s.pl := rfl
@[simp] theorem setChain_tm (d : Nat) (x : Chain) : (s.setChain d x).tm = s.tm := rfl
@[simp] theorem setChain_slu (d : Nat) (x : Chain) : (s.setChain d x).slu = s.slu := rfl
@[simp] theorem setChain_dma (d : Nat) (x : Chain) : (s.setChain d x).dma = s.dma := rfl
@[simp] theorem setChain_pcie (d : Nat) (x : Chain) : (s.setChain d x).pcie = s.pcie := rfl
@[simp] theorem setChain_cores (d : Nat) (x : Chain) : (s.setChain d x).cores = s.cores := rfl
@[simp] theorem setChain_rm (d : Nat) (x : Chain) : (s.setChain d x).rm = s.rm := rfl
@[simp] theorem setChain_mem (d : Nat) (x : Chain) : (s.setChain d x).mem = s.mem := rfl
@[simp] theorem setChain_rdma (d : Nat) (x : Chain) : (s.setChain d x).rdma = s.rdma := rfl
@[simp] theorem setChain_stor (d : Nat) (x : Chain) : (s.setChain d x).stor = s.stor := rfl
@[simp] theorem setChain_sec (d : Nat) (x : Chain) : (s.setChain d x).sec = s.sec := rfl
@[simp] theorem setChain_chain_same (k : Nat) (x : Chain) : (s.setChain k x).chain k = x := tget_tset_same ..
theorem setChain_chain_other (k j : Nat) (x : Chain) (h : j ≠ k) : (s.setChain k x).chain j = s.chain j := tget_tset_other _ k j x _ h
@[simp] theorem setChain_twice (k : Nat) (x y : Chain) : (s.setChain k x).setChain k y = s.setChain k y := by simp [State.setChain, tset_tset]

/-! `State.setPt`. -/

@[simp] theorem setPt_pending (p : Nat) (x : PortSt) : (s.setPt p x).pending = s.pending := rfl
@[simp] theorem setPt_now (p : Nat) (x : PortSt) : (s.setPt p x).now = s.now := rfl
@[simp] theorem setPt_elapsed (p : Nat) (x : PortSt) : (s.setPt p x).elapsed = s.elapsed := rfl
@[simp] theorem setPt_fresh (p : Nat) (x : PortSt) : (s.setPt p x).fresh = s.fresh := rfl
@[simp] theorem setPt_out (p : Nat) (x : PortSt) : (s.setPt p x).out = s.out := rfl
@[simp] theorem setPt_ram (p : Nat) (x : PortSt) : (s.setPt p x).ram = s.ram := rfl
@[simp] theorem setPt_glb (p : Nat) (x : PortSt) : (s.setPt p x).glb = s.glb := rfl
@[simp] theorem setPt_pw (p : Nat) (x : PortSt) : (s.setPt p x).pw = s.pw := rfl
@[simp] theorem setPt_tb (p : Nat) (x : PortSt) : (s.setPt p x).tb = s.tb := rfl
@[simp] theorem setPt_led (p : Nat) (x : PortSt) : (s.setPt p x).led = s.led := rfl
@[simp] theorem setPt_rings (p : Nat) (x : PortSt) : (s.setPt p x).rings = s.rings := rfl
@[simp] theorem setPt_fuse (p : Nat) (x : PortSt) : (s.setPt p x).fuse = s.fuse := rfl
@[simp] theorem setPt_tosen (p : Nat) (x : PortSt) : (s.setPt p x).tosen = s.tosen := rfl
@[simp] theorem setPt_boot (p : Nat) (x : PortSt) : (s.setPt p x).boot = s.boot := rfl
@[simp] theorem setPt_dbg (p : Nat) (x : PortSt) : (s.setPt p x).dbg = s.dbg := rfl
@[simp] theorem setPt_pl (p : Nat) (x : PortSt) : (s.setPt p x).pl = s.pl := rfl
@[simp] theorem setPt_tm (p : Nat) (x : PortSt) : (s.setPt p x).tm = s.tm := rfl
@[simp] theorem setPt_slu (p : Nat) (x : PortSt) : (s.setPt p x).slu = s.slu := rfl
@[simp] theorem setPt_dma (p : Nat) (x : PortSt) : (s.setPt p x).dma = s.dma := rfl
@[simp] theorem setPt_pcie (p : Nat) (x : PortSt) : (s.setPt p x).pcie = s.pcie := rfl
@[simp] theorem setPt_cores (p : Nat) (x : PortSt) : (s.setPt p x).cores = s.cores := rfl
@[simp] theorem setPt_rm (p : Nat) (x : PortSt) : (s.setPt p x).rm = s.rm := rfl
@[simp] theorem setPt_mem (p : Nat) (x : PortSt) : (s.setPt p x).mem = s.mem := rfl
@[simp] theorem setPt_rdma (p : Nat) (x : PortSt) : (s.setPt p x).rdma = s.rdma := rfl
@[simp] theorem setPt_stor (p : Nat) (x : PortSt) : (s.setPt p x).stor = s.stor := rfl
@[simp] theorem setPt_sec (p : Nat) (x : PortSt) : (s.setPt p x).sec = s.sec := rfl
@[simp] theorem setPt_pt_same (k : Nat) (x : PortSt) : (s.setPt k x).pt k = x := tget_tset_same ..
theorem setPt_pt_other (k j : Nat) (x : PortSt) (h : j ≠ k) : (s.setPt k x).pt j = s.pt j := tget_tset_other _ k j x _ h
@[simp] theorem setPt_twice (k : Nat) (x y : PortSt) : (s.setPt k x).setPt k y = s.setPt k y := by simp [State.setPt, tset_tset]

/-! `State.setRing`. -/

@[simp] theorem setRing_pending (k : Nat) (x : Ring) : (s.setRing k x).pending = s.pending := rfl
@[simp] theorem setRing_now (k : Nat) (x : Ring) : (s.setRing k x).now = s.now := rfl
@[simp] theorem setRing_elapsed (k : Nat) (x : Ring) : (s.setRing k x).elapsed = s.elapsed := rfl
@[simp] theorem setRing_fresh (k : Nat) (x : Ring) : (s.setRing k x).fresh = s.fresh := rfl
@[simp] theorem setRing_out (k : Nat) (x : Ring) : (s.setRing k x).out = s.out := rfl
@[simp] theorem setRing_ram (k : Nat) (x : Ring) : (s.setRing k x).ram = s.ram := rfl
@[simp] theorem setRing_glb (k : Nat) (x : Ring) : (s.setRing k x).glb = s.glb := rfl
@[simp] theorem setRing_pw (k : Nat) (x : Ring) : (s.setRing k x).pw = s.pw := rfl
@[simp] theorem setRing_tb (k : Nat) (x : Ring) : (s.setRing k x).tb = s.tb := rfl
@[simp] theorem setRing_led (k : Nat) (x : Ring) : (s.setRing k x).led = s.led := rfl
@[simp] theorem setRing_fuse (k : Nat) (x : Ring) : (s.setRing k x).fuse = s.fuse := rfl
@[simp] theorem setRing_tosen (k : Nat) (x : Ring) : (s.setRing k x).tosen = s.tosen := rfl
@[simp] theorem setRing_boot (k : Nat) (x : Ring) : (s.setRing k x).boot = s.boot := rfl
@[simp] theorem setRing_dbg (k : Nat) (x : Ring) : (s.setRing k x).dbg = s.dbg := rfl
@[simp] theorem setRing_ports (k : Nat) (x : Ring) : (s.setRing k x).ports = s.ports := rfl
@[simp] theorem setRing_pl (k : Nat) (x : Ring) : (s.setRing k x).pl = s.pl := rfl
@[simp] theorem setRing_tm (k : Nat) (x : Ring) : (s.setRing k x).tm = s.tm := rfl
@[simp] theorem setRing_slu (k : Nat) (x : Ring) : (s.setRing k x).slu = s.slu := rfl
@[simp] theorem setRing_dma (k : Nat) (x : Ring) : (s.setRing k x).dma = s.dma := rfl
@[simp] theorem setRing_pcie (k : Nat) (x : Ring) : (s.setRing k x).pcie = s.pcie := rfl
@[simp] theorem setRing_cores (k : Nat) (x : Ring) : (s.setRing k x).cores = s.cores := rfl
@[simp] theorem setRing_rm (k : Nat) (x : Ring) : (s.setRing k x).rm = s.rm := rfl
@[simp] theorem setRing_mem (k : Nat) (x : Ring) : (s.setRing k x).mem = s.mem := rfl
@[simp] theorem setRing_rdma (k : Nat) (x : Ring) : (s.setRing k x).rdma = s.rdma := rfl
@[simp] theorem setRing_stor (k : Nat) (x : Ring) : (s.setRing k x).stor = s.stor := rfl
@[simp] theorem setRing_sec (k : Nat) (x : Ring) : (s.setRing k x).sec = s.sec := rfl
@[simp] theorem setRing_ring_same (k : Nat) (x : Ring) : (s.setRing k x).ring k = x := tget_tset_same ..
theorem setRing_ring_other (k j : Nat) (x : Ring) (h : j ≠ k) : (s.setRing k x).ring j = s.ring j := tget_tset_other _ k j x _ h
@[simp] theorem setRing_twice (k : Nat) (x y : Ring) : (s.setRing k x).setRing k y = s.setRing k y := by simp [State.setRing, tset_tset]

/-! `State.setRingFn`. -/

@[simp] theorem setRingFn_pending (f : Nat) (x : RingFn) : (s.setRingFn f x).pending = s.pending := rfl
@[simp] theorem setRingFn_now (f : Nat) (x : RingFn) : (s.setRingFn f x).now = s.now := rfl
@[simp] theorem setRingFn_elapsed (f : Nat) (x : RingFn) : (s.setRingFn f x).elapsed = s.elapsed := rfl
@[simp] theorem setRingFn_fresh (f : Nat) (x : RingFn) : (s.setRingFn f x).fresh = s.fresh := rfl
@[simp] theorem setRingFn_out (f : Nat) (x : RingFn) : (s.setRingFn f x).out = s.out := rfl
@[simp] theorem setRingFn_ram (f : Nat) (x : RingFn) : (s.setRingFn f x).ram = s.ram := rfl
@[simp] theorem setRingFn_glb (f : Nat) (x : RingFn) : (s.setRingFn f x).glb = s.glb := rfl
@[simp] theorem setRingFn_pw (f : Nat) (x : RingFn) : (s.setRingFn f x).pw = s.pw := rfl
@[simp] theorem setRingFn_tb (f : Nat) (x : RingFn) : (s.setRingFn f x).tb = s.tb := rfl
@[simp] theorem setRingFn_led (f : Nat) (x : RingFn) : (s.setRingFn f x).led = s.led := rfl
@[simp] theorem setRingFn_fuse (f : Nat) (x : RingFn) : (s.setRingFn f x).fuse = s.fuse := rfl
@[simp] theorem setRingFn_tosen (f : Nat) (x : RingFn) : (s.setRingFn f x).tosen = s.tosen := rfl
@[simp] theorem setRingFn_boot (f : Nat) (x : RingFn) : (s.setRingFn f x).boot = s.boot := rfl
@[simp] theorem setRingFn_dbg (f : Nat) (x : RingFn) : (s.setRingFn f x).dbg = s.dbg := rfl
@[simp] theorem setRingFn_ports (f : Nat) (x : RingFn) : (s.setRingFn f x).ports = s.ports := rfl
@[simp] theorem setRingFn_pl (f : Nat) (x : RingFn) : (s.setRingFn f x).pl = s.pl := rfl
@[simp] theorem setRingFn_tm (f : Nat) (x : RingFn) : (s.setRingFn f x).tm = s.tm := rfl
@[simp] theorem setRingFn_slu (f : Nat) (x : RingFn) : (s.setRingFn f x).slu = s.slu := rfl
@[simp] theorem setRingFn_dma (f : Nat) (x : RingFn) : (s.setRingFn f x).dma = s.dma := rfl
@[simp] theorem setRingFn_pcie (f : Nat) (x : RingFn) : (s.setRingFn f x).pcie = s.pcie := rfl
@[simp] theorem setRingFn_cores (f : Nat) (x : RingFn) : (s.setRingFn f x).cores = s.cores := rfl
@[simp] theorem setRingFn_rm (f : Nat) (x : RingFn) : (s.setRingFn f x).rm = s.rm := rfl
@[simp] theorem setRingFn_mem (f : Nat) (x : RingFn) : (s.setRingFn f x).mem = s.mem := rfl
@[simp] theorem setRingFn_rdma (f : Nat) (x : RingFn) : (s.setRingFn f x).rdma = s.rdma := rfl
@[simp] theorem setRingFn_stor (f : Nat) (x : RingFn) : (s.setRingFn f x).stor = s.stor := rfl
@[simp] theorem setRingFn_sec (f : Nat) (x : RingFn) : (s.setRingFn f x).sec = s.sec := rfl
@[simp] theorem setRingFn_ringFn_same (k : Nat) (x : RingFn) : (s.setRingFn k x).ringFn k = x := tget_tset_same ..
theorem setRingFn_ringFn_other (k j : Nat) (x : RingFn) (h : j ≠ k) : (s.setRingFn k x).ringFn j = s.ringFn j := tget_tset_other _ k j x _ h
@[simp] theorem setRingFn_twice (k : Nat) (x y : RingFn) : (s.setRingFn k x).setRingFn k y = s.setRingFn k y := by simp [State.setRingFn, tset_tset]

/-! `State.setCore`. -/

@[simp] theorem setCore_pending (c : Nat) (x : Core) : (s.setCore c x).pending = s.pending := rfl
@[simp] theorem setCore_now (c : Nat) (x : Core) : (s.setCore c x).now = s.now := rfl
@[simp] theorem setCore_elapsed (c : Nat) (x : Core) : (s.setCore c x).elapsed = s.elapsed := rfl
@[simp] theorem setCore_fresh (c : Nat) (x : Core) : (s.setCore c x).fresh = s.fresh := rfl
@[simp] theorem setCore_out (c : Nat) (x : Core) : (s.setCore c x).out = s.out := rfl
@[simp] theorem setCore_ram (c : Nat) (x : Core) : (s.setCore c x).ram = s.ram := rfl
@[simp] theorem setCore_glb (c : Nat) (x : Core) : (s.setCore c x).glb = s.glb := rfl
@[simp] theorem setCore_pw (c : Nat) (x : Core) : (s.setCore c x).pw = s.pw := rfl
@[simp] theorem setCore_tb (c : Nat) (x : Core) : (s.setCore c x).tb = s.tb := rfl
@[simp] theorem setCore_led (c : Nat) (x : Core) : (s.setCore c x).led = s.led := rfl
@[simp] theorem setCore_rings (c : Nat) (x : Core) : (s.setCore c x).rings = s.rings := rfl
@[simp] theorem setCore_fuse (c : Nat) (x : Core) : (s.setCore c x).fuse = s.fuse := rfl
@[simp] theorem setCore_tosen (c : Nat) (x : Core) : (s.setCore c x).tosen = s.tosen := rfl
@[simp] theorem setCore_boot (c : Nat) (x : Core) : (s.setCore c x).boot = s.boot := rfl
@[simp] theorem setCore_dbg (c : Nat) (x : Core) : (s.setCore c x).dbg = s.dbg := rfl
@[simp] theorem setCore_ports (c : Nat) (x : Core) : (s.setCore c x).ports = s.ports := rfl
@[simp] theorem setCore_pl (c : Nat) (x : Core) : (s.setCore c x).pl = s.pl := rfl
@[simp] theorem setCore_tm (c : Nat) (x : Core) : (s.setCore c x).tm = s.tm := rfl
@[simp] theorem setCore_slu (c : Nat) (x : Core) : (s.setCore c x).slu = s.slu := rfl
@[simp] theorem setCore_dma (c : Nat) (x : Core) : (s.setCore c x).dma = s.dma := rfl
@[simp] theorem setCore_pcie (c : Nat) (x : Core) : (s.setCore c x).pcie = s.pcie := rfl
@[simp] theorem setCore_rm (c : Nat) (x : Core) : (s.setCore c x).rm = s.rm := rfl
@[simp] theorem setCore_mem (c : Nat) (x : Core) : (s.setCore c x).mem = s.mem := rfl
@[simp] theorem setCore_rdma (c : Nat) (x : Core) : (s.setCore c x).rdma = s.rdma := rfl
@[simp] theorem setCore_stor (c : Nat) (x : Core) : (s.setCore c x).stor = s.stor := rfl
@[simp] theorem setCore_sec (c : Nat) (x : Core) : (s.setCore c x).sec = s.sec := rfl
@[simp] theorem setCore_core_same (k : Nat) (x : Core) : (s.setCore k x).core k = x := tget_tset_same ..
theorem setCore_core_other (k j : Nat) (x : Core) (h : j ≠ k) : (s.setCore k x).core j = s.core j := tget_tset_other _ k j x _ h
@[simp] theorem setCore_twice (k : Nat) (x y : Core) : (s.setCore k x).setCore k y = s.setCore k y := by simp [State.setCore, tset_tset]

/-! `State.setThr`. -/

@[simp] theorem setThr_pending (c t : Nat) (x : Thread) : (s.setThr c t x).pending = s.pending := rfl
@[simp] theorem setThr_now (c t : Nat) (x : Thread) : (s.setThr c t x).now = s.now := rfl
@[simp] theorem setThr_elapsed (c t : Nat) (x : Thread) : (s.setThr c t x).elapsed = s.elapsed := rfl
@[simp] theorem setThr_fresh (c t : Nat) (x : Thread) : (s.setThr c t x).fresh = s.fresh := rfl
@[simp] theorem setThr_out (c t : Nat) (x : Thread) : (s.setThr c t x).out = s.out := rfl
@[simp] theorem setThr_ram (c t : Nat) (x : Thread) : (s.setThr c t x).ram = s.ram := rfl
@[simp] theorem setThr_glb (c t : Nat) (x : Thread) : (s.setThr c t x).glb = s.glb := rfl
@[simp] theorem setThr_pw (c t : Nat) (x : Thread) : (s.setThr c t x).pw = s.pw := rfl
@[simp] theorem setThr_tb (c t : Nat) (x : Thread) : (s.setThr c t x).tb = s.tb := rfl
@[simp] theorem setThr_led (c t : Nat) (x : Thread) : (s.setThr c t x).led = s.led := rfl
@[simp] theorem setThr_rings (c t : Nat) (x : Thread) : (s.setThr c t x).rings = s.rings := rfl
@[simp] theorem setThr_fuse (c t : Nat) (x : Thread) : (s.setThr c t x).fuse = s.fuse := rfl
@[simp] theorem setThr_tosen (c t : Nat) (x : Thread) : (s.setThr c t x).tosen = s.tosen := rfl
@[simp] theorem setThr_boot (c t : Nat) (x : Thread) : (s.setThr c t x).boot = s.boot := rfl
@[simp] theorem setThr_dbg (c t : Nat) (x : Thread) : (s.setThr c t x).dbg = s.dbg := rfl
@[simp] theorem setThr_ports (c t : Nat) (x : Thread) : (s.setThr c t x).ports = s.ports := rfl
@[simp] theorem setThr_pl (c t : Nat) (x : Thread) : (s.setThr c t x).pl = s.pl := rfl
@[simp] theorem setThr_tm (c t : Nat) (x : Thread) : (s.setThr c t x).tm = s.tm := rfl
@[simp] theorem setThr_slu (c t : Nat) (x : Thread) : (s.setThr c t x).slu = s.slu := rfl
@[simp] theorem setThr_dma (c t : Nat) (x : Thread) : (s.setThr c t x).dma = s.dma := rfl
@[simp] theorem setThr_pcie (c t : Nat) (x : Thread) : (s.setThr c t x).pcie = s.pcie := rfl
@[simp] theorem setThr_rm (c t : Nat) (x : Thread) : (s.setThr c t x).rm = s.rm := rfl
@[simp] theorem setThr_mem (c t : Nat) (x : Thread) : (s.setThr c t x).mem = s.mem := rfl
@[simp] theorem setThr_rdma (c t : Nat) (x : Thread) : (s.setThr c t x).rdma = s.rdma := rfl
@[simp] theorem setThr_stor (c t : Nat) (x : Thread) : (s.setThr c t x).stor = s.stor := rfl
@[simp] theorem setThr_sec (c t : Nat) (x : Thread) : (s.setThr c t x).sec = s.sec := rfl

/-! `State.setChan`. -/

@[simp] theorem setChan_pending (n : Nat) (x : Channel) : (s.setChan n x).pending = s.pending := rfl
@[simp] theorem setChan_now (n : Nat) (x : Channel) : (s.setChan n x).now = s.now := rfl
@[simp] theorem setChan_elapsed (n : Nat) (x : Channel) : (s.setChan n x).elapsed = s.elapsed := rfl
@[simp] theorem setChan_fresh (n : Nat) (x : Channel) : (s.setChan n x).fresh = s.fresh := rfl
@[simp] theorem setChan_out (n : Nat) (x : Channel) : (s.setChan n x).out = s.out := rfl
@[simp] theorem setChan_ram (n : Nat) (x : Channel) : (s.setChan n x).ram = s.ram := rfl
@[simp] theorem setChan_glb (n : Nat) (x : Channel) : (s.setChan n x).glb = s.glb := rfl
@[simp] theorem setChan_pw (n : Nat) (x : Channel) : (s.setChan n x).pw = s.pw := rfl
@[simp] theorem setChan_tb (n : Nat) (x : Channel) : (s.setChan n x).tb = s.tb := rfl
@[simp] theorem setChan_led (n : Nat) (x : Channel) : (s.setChan n x).led = s.led := rfl
@[simp] theorem setChan_rings (n : Nat) (x : Channel) : (s.setChan n x).rings = s.rings := rfl
@[simp] theorem setChan_fuse (n : Nat) (x : Channel) : (s.setChan n x).fuse = s.fuse := rfl
@[simp] theorem setChan_tosen (n : Nat) (x : Channel) : (s.setChan n x).tosen = s.tosen := rfl
@[simp] theorem setChan_boot (n : Nat) (x : Channel) : (s.setChan n x).boot = s.boot := rfl
@[simp] theorem setChan_dbg (n : Nat) (x : Channel) : (s.setChan n x).dbg = s.dbg := rfl
@[simp] theorem setChan_ports (n : Nat) (x : Channel) : (s.setChan n x).ports = s.ports := rfl
@[simp] theorem setChan_pl (n : Nat) (x : Channel) : (s.setChan n x).pl = s.pl := rfl
@[simp] theorem setChan_tm (n : Nat) (x : Channel) : (s.setChan n x).tm = s.tm := rfl
@[simp] theorem setChan_slu (n : Nat) (x : Channel) : (s.setChan n x).slu = s.slu := rfl
@[simp] theorem setChan_dma (n : Nat) (x : Channel) : (s.setChan n x).dma = s.dma := rfl
@[simp] theorem setChan_pcie (n : Nat) (x : Channel) : (s.setChan n x).pcie = s.pcie := rfl
@[simp] theorem setChan_rm (n : Nat) (x : Channel) : (s.setChan n x).rm = s.rm := rfl
@[simp] theorem setChan_mem (n : Nat) (x : Channel) : (s.setChan n x).mem = s.mem := rfl
@[simp] theorem setChan_rdma (n : Nat) (x : Channel) : (s.setChan n x).rdma = s.rdma := rfl
@[simp] theorem setChan_stor (n : Nat) (x : Channel) : (s.setChan n x).stor = s.stor := rfl
@[simp] theorem setChan_sec (n : Nat) (x : Channel) : (s.setChan n x).sec = s.sec := rfl

/-! `State.setPfn`. -/

@[simp] theorem setPfn_pending (f : Nat) (x : PFn) : (s.setPfn f x).pending = s.pending := rfl
@[simp] theorem setPfn_now (f : Nat) (x : PFn) : (s.setPfn f x).now = s.now := rfl
@[simp] theorem setPfn_elapsed (f : Nat) (x : PFn) : (s.setPfn f x).elapsed = s.elapsed := rfl
@[simp] theorem setPfn_fresh (f : Nat) (x : PFn) : (s.setPfn f x).fresh = s.fresh := rfl
@[simp] theorem setPfn_out (f : Nat) (x : PFn) : (s.setPfn f x).out = s.out := rfl
@[simp] theorem setPfn_ram (f : Nat) (x : PFn) : (s.setPfn f x).ram = s.ram := rfl
@[simp] theorem setPfn_glb (f : Nat) (x : PFn) : (s.setPfn f x).glb = s.glb := rfl
@[simp] theorem setPfn_pw (f : Nat) (x : PFn) : (s.setPfn f x).pw = s.pw := rfl
@[simp] theorem setPfn_tb (f : Nat) (x : PFn) : (s.setPfn f x).tb = s.tb := rfl
@[simp] theorem setPfn_led (f : Nat) (x : PFn) : (s.setPfn f x).led = s.led := rfl
@[simp] theorem setPfn_rings (f : Nat) (x : PFn) : (s.setPfn f x).rings = s.rings := rfl
@[simp] theorem setPfn_fuse (f : Nat) (x : PFn) : (s.setPfn f x).fuse = s.fuse := rfl
@[simp] theorem setPfn_tosen (f : Nat) (x : PFn) : (s.setPfn f x).tosen = s.tosen := rfl
@[simp] theorem setPfn_boot (f : Nat) (x : PFn) : (s.setPfn f x).boot = s.boot := rfl
@[simp] theorem setPfn_dbg (f : Nat) (x : PFn) : (s.setPfn f x).dbg = s.dbg := rfl
@[simp] theorem setPfn_ports (f : Nat) (x : PFn) : (s.setPfn f x).ports = s.ports := rfl
@[simp] theorem setPfn_pl (f : Nat) (x : PFn) : (s.setPfn f x).pl = s.pl := rfl
@[simp] theorem setPfn_tm (f : Nat) (x : PFn) : (s.setPfn f x).tm = s.tm := rfl
@[simp] theorem setPfn_slu (f : Nat) (x : PFn) : (s.setPfn f x).slu = s.slu := rfl
@[simp] theorem setPfn_dma (f : Nat) (x : PFn) : (s.setPfn f x).dma = s.dma := rfl
@[simp] theorem setPfn_cores (f : Nat) (x : PFn) : (s.setPfn f x).cores = s.cores := rfl
@[simp] theorem setPfn_rm (f : Nat) (x : PFn) : (s.setPfn f x).rm = s.rm := rfl
@[simp] theorem setPfn_mem (f : Nat) (x : PFn) : (s.setPfn f x).mem = s.mem := rfl
@[simp] theorem setPfn_rdma (f : Nat) (x : PFn) : (s.setPfn f x).rdma = s.rdma := rfl
@[simp] theorem setPfn_stor (f : Nat) (x : PFn) : (s.setPfn f x).stor = s.stor := rfl
@[simp] theorem setPfn_sec (f : Nat) (x : PFn) : (s.setPfn f x).sec = s.sec := rfl
@[simp] theorem setPfn_pfn_same (k : Nat) (x : PFn) : (s.setPfn k x).pfn k = x := tget_tset_same ..
theorem setPfn_pfn_other (k j : Nat) (x : PFn) (h : j ≠ k) : (s.setPfn k x).pfn j = s.pfn j := tget_tset_other _ k j x _ h
@[simp] theorem setPfn_twice (k : Nat) (x y : PFn) : (s.setPfn k x).setPfn k y = s.setPfn k y := by simp [State.setPfn, tset_tset]

/-! `State.setWin`. -/

@[simp] theorem setWin_pending (f e : Nat) (x : Win) : (s.setWin f e x).pending = s.pending := rfl
@[simp] theorem setWin_now (f e : Nat) (x : Win) : (s.setWin f e x).now = s.now := rfl
@[simp] theorem setWin_elapsed (f e : Nat) (x : Win) : (s.setWin f e x).elapsed = s.elapsed := rfl
@[simp] theorem setWin_fresh (f e : Nat) (x : Win) : (s.setWin f e x).fresh = s.fresh := rfl
@[simp] theorem setWin_out (f e : Nat) (x : Win) : (s.setWin f e x).out = s.out := rfl
@[simp] theorem setWin_ram (f e : Nat) (x : Win) : (s.setWin f e x).ram = s.ram := rfl
@[simp] theorem setWin_glb (f e : Nat) (x : Win) : (s.setWin f e x).glb = s.glb := rfl
@[simp] theorem setWin_pw (f e : Nat) (x : Win) : (s.setWin f e x).pw = s.pw := rfl
@[simp] theorem setWin_tb (f e : Nat) (x : Win) : (s.setWin f e x).tb = s.tb := rfl
@[simp] theorem setWin_led (f e : Nat) (x : Win) : (s.setWin f e x).led = s.led := rfl
@[simp] theorem setWin_rings (f e : Nat) (x : Win) : (s.setWin f e x).rings = s.rings := rfl
@[simp] theorem setWin_fuse (f e : Nat) (x : Win) : (s.setWin f e x).fuse = s.fuse := rfl
@[simp] theorem setWin_tosen (f e : Nat) (x : Win) : (s.setWin f e x).tosen = s.tosen := rfl
@[simp] theorem setWin_boot (f e : Nat) (x : Win) : (s.setWin f e x).boot = s.boot := rfl
@[simp] theorem setWin_dbg (f e : Nat) (x : Win) : (s.setWin f e x).dbg = s.dbg := rfl
@[simp] theorem setWin_ports (f e : Nat) (x : Win) : (s.setWin f e x).ports = s.ports := rfl
@[simp] theorem setWin_pl (f e : Nat) (x : Win) : (s.setWin f e x).pl = s.pl := rfl
@[simp] theorem setWin_tm (f e : Nat) (x : Win) : (s.setWin f e x).tm = s.tm := rfl
@[simp] theorem setWin_slu (f e : Nat) (x : Win) : (s.setWin f e x).slu = s.slu := rfl
@[simp] theorem setWin_dma (f e : Nat) (x : Win) : (s.setWin f e x).dma = s.dma := rfl
@[simp] theorem setWin_cores (f e : Nat) (x : Win) : (s.setWin f e x).cores = s.cores := rfl
@[simp] theorem setWin_rm (f e : Nat) (x : Win) : (s.setWin f e x).rm = s.rm := rfl
@[simp] theorem setWin_mem (f e : Nat) (x : Win) : (s.setWin f e x).mem = s.mem := rfl
@[simp] theorem setWin_rdma (f e : Nat) (x : Win) : (s.setWin f e x).rdma = s.rdma := rfl
@[simp] theorem setWin_stor (f e : Nat) (x : Win) : (s.setWin f e x).stor = s.stor := rfl
@[simp] theorem setWin_sec (f e : Nat) (x : Win) : (s.setWin f e x).sec = s.sec := rfl

/-! `State.setRmDom`. -/

@[simp] theorem setRmDom_pending (d : Nat) (x : RmDom) : (s.setRmDom d x).pending = s.pending := rfl
@[simp] theorem setRmDom_now (d : Nat) (x : RmDom) : (s.setRmDom d x).now = s.now := rfl
@[simp] theorem setRmDom_elapsed (d : Nat) (x : RmDom) : (s.setRmDom d x).elapsed = s.elapsed := rfl
@[simp] theorem setRmDom_fresh (d : Nat) (x : RmDom) : (s.setRmDom d x).fresh = s.fresh := rfl
@[simp] theorem setRmDom_out (d : Nat) (x : RmDom) : (s.setRmDom d x).out = s.out := rfl
@[simp] theorem setRmDom_ram (d : Nat) (x : RmDom) : (s.setRmDom d x).ram = s.ram := rfl
@[simp] theorem setRmDom_glb (d : Nat) (x : RmDom) : (s.setRmDom d x).glb = s.glb := rfl
@[simp] theorem setRmDom_pw (d : Nat) (x : RmDom) : (s.setRmDom d x).pw = s.pw := rfl
@[simp] theorem setRmDom_tb (d : Nat) (x : RmDom) : (s.setRmDom d x).tb = s.tb := rfl
@[simp] theorem setRmDom_led (d : Nat) (x : RmDom) : (s.setRmDom d x).led = s.led := rfl
@[simp] theorem setRmDom_rings (d : Nat) (x : RmDom) : (s.setRmDom d x).rings = s.rings := rfl
@[simp] theorem setRmDom_fuse (d : Nat) (x : RmDom) : (s.setRmDom d x).fuse = s.fuse := rfl
@[simp] theorem setRmDom_tosen (d : Nat) (x : RmDom) : (s.setRmDom d x).tosen = s.tosen := rfl
@[simp] theorem setRmDom_boot (d : Nat) (x : RmDom) : (s.setRmDom d x).boot = s.boot := rfl
@[simp] theorem setRmDom_dbg (d : Nat) (x : RmDom) : (s.setRmDom d x).dbg = s.dbg := rfl
@[simp] theorem setRmDom_ports (d : Nat) (x : RmDom) : (s.setRmDom d x).ports = s.ports := rfl
@[simp] theorem setRmDom_pl (d : Nat) (x : RmDom) : (s.setRmDom d x).pl = s.pl := rfl
@[simp] theorem setRmDom_tm (d : Nat) (x : RmDom) : (s.setRmDom d x).tm = s.tm := rfl
@[simp] theorem setRmDom_slu (d : Nat) (x : RmDom) : (s.setRmDom d x).slu = s.slu := rfl
@[simp] theorem setRmDom_dma (d : Nat) (x : RmDom) : (s.setRmDom d x).dma = s.dma := rfl
@[simp] theorem setRmDom_pcie (d : Nat) (x : RmDom) : (s.setRmDom d x).pcie = s.pcie := rfl
@[simp] theorem setRmDom_cores (d : Nat) (x : RmDom) : (s.setRmDom d x).cores = s.cores := rfl
@[simp] theorem setRmDom_mem (d : Nat) (x : RmDom) : (s.setRmDom d x).mem = s.mem := rfl
@[simp] theorem setRmDom_rdma (d : Nat) (x : RmDom) : (s.setRmDom d x).rdma = s.rdma := rfl
@[simp] theorem setRmDom_stor (d : Nat) (x : RmDom) : (s.setRmDom d x).stor = s.stor := rfl
@[simp] theorem setRmDom_sec (d : Nat) (x : RmDom) : (s.setRmDom d x).sec = s.sec := rfl
@[simp] theorem setRmDom_rmDom_same (k : Nat) (x : RmDom) : (s.setRmDom k x).rmDom k = x := tget_tset_same ..
theorem setRmDom_rmDom_other (k j : Nat) (x : RmDom) (h : j ≠ k) : (s.setRmDom k x).rmDom j = s.rmDom j := tget_tset_other _ k j x _ h
@[simp] theorem setRmDom_twice (k : Nat) (x y : RmDom) : (s.setRmDom k x).setRmDom k y = s.setRmDom k y := by simp [State.setRmDom, tset_tset]

/-! `State.setCtx`. -/

@[simp] theorem setCtx_pending (k : Nat) (x : Ctx) : (s.setCtx k x).pending = s.pending := rfl
@[simp] theorem setCtx_now (k : Nat) (x : Ctx) : (s.setCtx k x).now = s.now := rfl
@[simp] theorem setCtx_elapsed (k : Nat) (x : Ctx) : (s.setCtx k x).elapsed = s.elapsed := rfl
@[simp] theorem setCtx_fresh (k : Nat) (x : Ctx) : (s.setCtx k x).fresh = s.fresh := rfl
@[simp] theorem setCtx_out (k : Nat) (x : Ctx) : (s.setCtx k x).out = s.out := rfl
@[simp] theorem setCtx_ram (k : Nat) (x : Ctx) : (s.setCtx k x).ram = s.ram := rfl
@[simp] theorem setCtx_glb (k : Nat) (x : Ctx) : (s.setCtx k x).glb = s.glb := rfl
@[simp] theorem setCtx_pw (k : Nat) (x : Ctx) : (s.setCtx k x).pw = s.pw := rfl
@[simp] theorem setCtx_tb (k : Nat) (x : Ctx) : (s.setCtx k x).tb = s.tb := rfl
@[simp] theorem setCtx_led (k : Nat) (x : Ctx) : (s.setCtx k x).led = s.led := rfl
@[simp] theorem setCtx_rings (k : Nat) (x : Ctx) : (s.setCtx k x).rings = s.rings := rfl
@[simp] theorem setCtx_fuse (k : Nat) (x : Ctx) : (s.setCtx k x).fuse = s.fuse := rfl
@[simp] theorem setCtx_tosen (k : Nat) (x : Ctx) : (s.setCtx k x).tosen = s.tosen := rfl
@[simp] theorem setCtx_boot (k : Nat) (x : Ctx) : (s.setCtx k x).boot = s.boot := rfl
@[simp] theorem setCtx_dbg (k : Nat) (x : Ctx) : (s.setCtx k x).dbg = s.dbg := rfl
@[simp] theorem setCtx_ports (k : Nat) (x : Ctx) : (s.setCtx k x).ports = s.ports := rfl
@[simp] theorem setCtx_pl (k : Nat) (x : Ctx) : (s.setCtx k x).pl = s.pl := rfl
@[simp] theorem setCtx_tm (k : Nat) (x : Ctx) : (s.setCtx k x).tm = s.tm := rfl
@[simp] theorem setCtx_slu (k : Nat) (x : Ctx) : (s.setCtx k x).slu = s.slu := rfl
@[simp] theorem setCtx_dma (k : Nat) (x : Ctx) : (s.setCtx k x).dma = s.dma := rfl
@[simp] theorem setCtx_pcie (k : Nat) (x : Ctx) : (s.setCtx k x).pcie = s.pcie := rfl
@[simp] theorem setCtx_cores (k : Nat) (x : Ctx) : (s.setCtx k x).cores = s.cores := rfl
@[simp] theorem setCtx_mem (k : Nat) (x : Ctx) : (s.setCtx k x).mem = s.mem := rfl
@[simp] theorem setCtx_rdma (k : Nat) (x : Ctx) : (s.setCtx k x).rdma = s.rdma := rfl
@[simp] theorem setCtx_stor (k : Nat) (x : Ctx) : (s.setCtx k x).stor = s.stor := rfl
@[simp] theorem setCtx_sec (k : Nat) (x : Ctx) : (s.setCtx k x).sec = s.sec := rfl
@[simp] theorem setCtx_ctx_same (k : Nat) (x : Ctx) : (s.setCtx k x).ctx? k = some x := tget?_tset_same ..
theorem setCtx_ctx_other (k j : Nat) (x : Ctx) (h : j ≠ k) : (s.setCtx k x).ctx? j = s.ctx? j := tget?_tset_other _ k j x h
@[simp] theorem setCtx_twice (k : Nat) (x y : Ctx) : (s.setCtx k x).setCtx k y = s.setCtx k y := by simp [State.setCtx, tset_tset]

/-! `State.setFlow`. -/

@[simp] theorem setFlow_pending (k : Nat) (x : Flow) : (s.setFlow k x).pending = s.pending := rfl
@[simp] theorem setFlow_now (k : Nat) (x : Flow) : (s.setFlow k x).now = s.now := rfl
@[simp] theorem setFlow_elapsed (k : Nat) (x : Flow) : (s.setFlow k x).elapsed = s.elapsed := rfl
@[simp] theorem setFlow_fresh (k : Nat) (x : Flow) : (s.setFlow k x).fresh = s.fresh := rfl
@[simp] theorem setFlow_out (k : Nat) (x : Flow) : (s.setFlow k x).out = s.out := rfl
@[simp] theorem setFlow_ram (k : Nat) (x : Flow) : (s.setFlow k x).ram = s.ram := rfl
@[simp] theorem setFlow_glb (k : Nat) (x : Flow) : (s.setFlow k x).glb = s.glb := rfl
@[simp] theorem setFlow_pw (k : Nat) (x : Flow) : (s.setFlow k x).pw = s.pw := rfl
@[simp] theorem setFlow_tb (k : Nat) (x : Flow) : (s.setFlow k x).tb = s.tb := rfl
@[simp] theorem setFlow_led (k : Nat) (x : Flow) : (s.setFlow k x).led = s.led := rfl
@[simp] theorem setFlow_rings (k : Nat) (x : Flow) : (s.setFlow k x).rings = s.rings := rfl
@[simp] theorem setFlow_fuse (k : Nat) (x : Flow) : (s.setFlow k x).fuse = s.fuse := rfl
@[simp] theorem setFlow_tosen (k : Nat) (x : Flow) : (s.setFlow k x).tosen = s.tosen := rfl
@[simp] theorem setFlow_boot (k : Nat) (x : Flow) : (s.setFlow k x).boot = s.boot := rfl
@[simp] theorem setFlow_dbg (k : Nat) (x : Flow) : (s.setFlow k x).dbg = s.dbg := rfl
@[simp] theorem setFlow_ports (k : Nat) (x : Flow) : (s.setFlow k x).ports = s.ports := rfl
@[simp] theorem setFlow_pl (k : Nat) (x : Flow) : (s.setFlow k x).pl = s.pl := rfl
@[simp] theorem setFlow_tm (k : Nat) (x : Flow) : (s.setFlow k x).tm = s.tm := rfl
@[simp] theorem setFlow_slu (k : Nat) (x : Flow) : (s.setFlow k x).slu = s.slu := rfl
@[simp] theorem setFlow_dma (k : Nat) (x : Flow) : (s.setFlow k x).dma = s.dma := rfl
@[simp] theorem setFlow_pcie (k : Nat) (x : Flow) : (s.setFlow k x).pcie = s.pcie := rfl
@[simp] theorem setFlow_cores (k : Nat) (x : Flow) : (s.setFlow k x).cores = s.cores := rfl
@[simp] theorem setFlow_mem (k : Nat) (x : Flow) : (s.setFlow k x).mem = s.mem := rfl
@[simp] theorem setFlow_rdma (k : Nat) (x : Flow) : (s.setFlow k x).rdma = s.rdma := rfl
@[simp] theorem setFlow_stor (k : Nat) (x : Flow) : (s.setFlow k x).stor = s.stor := rfl
@[simp] theorem setFlow_sec (k : Nat) (x : Flow) : (s.setFlow k x).sec = s.sec := rfl
@[simp] theorem setFlow_flow_same (k : Nat) (x : Flow) : (s.setFlow k x).flow k = x := tget_tset_same ..
theorem setFlow_flow_other (k j : Nat) (x : Flow) (h : j ≠ k) : (s.setFlow k x).flow j = s.flow j := tget_tset_other _ k j x _ h
@[simp] theorem setFlow_twice (k : Nat) (x y : Flow) : (s.setFlow k x).setFlow k y = s.setFlow k y := by simp [State.setFlow, tset_tset]

/-! `State.setFclass`. -/

@[simp] theorem setFclass_pending (d c : Nat) (x : FClass) : (s.setFclass d c x).pending = s.pending := rfl
@[simp] theorem setFclass_now (d c : Nat) (x : FClass) : (s.setFclass d c x).now = s.now := rfl
@[simp] theorem setFclass_elapsed (d c : Nat) (x : FClass) : (s.setFclass d c x).elapsed = s.elapsed := rfl
@[simp] theorem setFclass_fresh (d c : Nat) (x : FClass) : (s.setFclass d c x).fresh = s.fresh := rfl
@[simp] theorem setFclass_out (d c : Nat) (x : FClass) : (s.setFclass d c x).out = s.out := rfl
@[simp] theorem setFclass_ram (d c : Nat) (x : FClass) : (s.setFclass d c x).ram = s.ram := rfl
@[simp] theorem setFclass_glb (d c : Nat) (x : FClass) : (s.setFclass d c x).glb = s.glb := rfl
@[simp] theorem setFclass_pw (d c : Nat) (x : FClass) : (s.setFclass d c x).pw = s.pw := rfl
@[simp] theorem setFclass_tb (d c : Nat) (x : FClass) : (s.setFclass d c x).tb = s.tb := rfl
@[simp] theorem setFclass_led (d c : Nat) (x : FClass) : (s.setFclass d c x).led = s.led := rfl
@[simp] theorem setFclass_rings (d c : Nat) (x : FClass) : (s.setFclass d c x).rings = s.rings := rfl
@[simp] theorem setFclass_fuse (d c : Nat) (x : FClass) : (s.setFclass d c x).fuse = s.fuse := rfl
@[simp] theorem setFclass_tosen (d c : Nat) (x : FClass) : (s.setFclass d c x).tosen = s.tosen := rfl
@[simp] theorem setFclass_boot (d c : Nat) (x : FClass) : (s.setFclass d c x).boot = s.boot := rfl
@[simp] theorem setFclass_dbg (d c : Nat) (x : FClass) : (s.setFclass d c x).dbg = s.dbg := rfl
@[simp] theorem setFclass_ports (d c : Nat) (x : FClass) : (s.setFclass d c x).ports = s.ports := rfl
@[simp] theorem setFclass_pl (d c : Nat) (x : FClass) : (s.setFclass d c x).pl = s.pl := rfl
@[simp] theorem setFclass_tm (d c : Nat) (x : FClass) : (s.setFclass d c x).tm = s.tm := rfl
@[simp] theorem setFclass_slu (d c : Nat) (x : FClass) : (s.setFclass d c x).slu = s.slu := rfl
@[simp] theorem setFclass_dma (d c : Nat) (x : FClass) : (s.setFclass d c x).dma = s.dma := rfl
@[simp] theorem setFclass_pcie (d c : Nat) (x : FClass) : (s.setFclass d c x).pcie = s.pcie := rfl
@[simp] theorem setFclass_cores (d c : Nat) (x : FClass) : (s.setFclass d c x).cores = s.cores := rfl
@[simp] theorem setFclass_mem (d c : Nat) (x : FClass) : (s.setFclass d c x).mem = s.mem := rfl
@[simp] theorem setFclass_rdma (d c : Nat) (x : FClass) : (s.setFclass d c x).rdma = s.rdma := rfl
@[simp] theorem setFclass_stor (d c : Nat) (x : FClass) : (s.setFclass d c x).stor = s.stor := rfl
@[simp] theorem setFclass_sec (d c : Nat) (x : FClass) : (s.setFclass d c x).sec = s.sec := rfl

/-! `State.setDma`. -/

@[simp] theorem setDma_pending (k : Nat) (x : Option DmaJob) : (s.setDma k x).pending = s.pending := rfl
@[simp] theorem setDma_now (k : Nat) (x : Option DmaJob) : (s.setDma k x).now = s.now := rfl
@[simp] theorem setDma_elapsed (k : Nat) (x : Option DmaJob) : (s.setDma k x).elapsed = s.elapsed := rfl
@[simp] theorem setDma_fresh (k : Nat) (x : Option DmaJob) : (s.setDma k x).fresh = s.fresh := rfl
@[simp] theorem setDma_out (k : Nat) (x : Option DmaJob) : (s.setDma k x).out = s.out := rfl
@[simp] theorem setDma_ram (k : Nat) (x : Option DmaJob) : (s.setDma k x).ram = s.ram := rfl
@[simp] theorem setDma_glb (k : Nat) (x : Option DmaJob) : (s.setDma k x).glb = s.glb := rfl
@[simp] theorem setDma_pw (k : Nat) (x : Option DmaJob) : (s.setDma k x).pw = s.pw := rfl
@[simp] theorem setDma_tb (k : Nat) (x : Option DmaJob) : (s.setDma k x).tb = s.tb := rfl
@[simp] theorem setDma_led (k : Nat) (x : Option DmaJob) : (s.setDma k x).led = s.led := rfl
@[simp] theorem setDma_fuse (k : Nat) (x : Option DmaJob) : (s.setDma k x).fuse = s.fuse := rfl
@[simp] theorem setDma_tosen (k : Nat) (x : Option DmaJob) : (s.setDma k x).tosen = s.tosen := rfl
@[simp] theorem setDma_boot (k : Nat) (x : Option DmaJob) : (s.setDma k x).boot = s.boot := rfl
@[simp] theorem setDma_dbg (k : Nat) (x : Option DmaJob) : (s.setDma k x).dbg = s.dbg := rfl
@[simp] theorem setDma_ports (k : Nat) (x : Option DmaJob) : (s.setDma k x).ports = s.ports := rfl
@[simp] theorem setDma_pl (k : Nat) (x : Option DmaJob) : (s.setDma k x).pl = s.pl := rfl
@[simp] theorem setDma_tm (k : Nat) (x : Option DmaJob) : (s.setDma k x).tm = s.tm := rfl
@[simp] theorem setDma_slu (k : Nat) (x : Option DmaJob) : (s.setDma k x).slu = s.slu := rfl
@[simp] theorem setDma_dma (k : Nat) (x : Option DmaJob) : (s.setDma k x).dma = s.dma := rfl
@[simp] theorem setDma_pcie (k : Nat) (x : Option DmaJob) : (s.setDma k x).pcie = s.pcie := rfl
@[simp] theorem setDma_cores (k : Nat) (x : Option DmaJob) : (s.setDma k x).cores = s.cores := rfl
@[simp] theorem setDma_rm (k : Nat) (x : Option DmaJob) : (s.setDma k x).rm = s.rm := rfl
@[simp] theorem setDma_mem (k : Nat) (x : Option DmaJob) : (s.setDma k x).mem = s.mem := rfl
@[simp] theorem setDma_rdma (k : Nat) (x : Option DmaJob) : (s.setDma k x).rdma = s.rdma := rfl
@[simp] theorem setDma_stor (k : Nat) (x : Option DmaJob) : (s.setDma k x).stor = s.stor := rfl
@[simp] theorem setDma_sec (k : Nat) (x : Option DmaJob) : (s.setDma k x).sec = s.sec := rfl

/-! `State.setLearnPort`. -/

@[simp] theorem setLearnPort_pending (p : Nat) (x : LearnPort) : (s.setLearnPort p x).pending = s.pending := rfl
@[simp] theorem setLearnPort_now (p : Nat) (x : LearnPort) : (s.setLearnPort p x).now = s.now := rfl
@[simp] theorem setLearnPort_elapsed (p : Nat) (x : LearnPort) : (s.setLearnPort p x).elapsed = s.elapsed := rfl
@[simp] theorem setLearnPort_fresh (p : Nat) (x : LearnPort) : (s.setLearnPort p x).fresh = s.fresh := rfl
@[simp] theorem setLearnPort_out (p : Nat) (x : LearnPort) : (s.setLearnPort p x).out = s.out := rfl
@[simp] theorem setLearnPort_ram (p : Nat) (x : LearnPort) : (s.setLearnPort p x).ram = s.ram := rfl
@[simp] theorem setLearnPort_glb (p : Nat) (x : LearnPort) : (s.setLearnPort p x).glb = s.glb := rfl
@[simp] theorem setLearnPort_pw (p : Nat) (x : LearnPort) : (s.setLearnPort p x).pw = s.pw := rfl
@[simp] theorem setLearnPort_tb (p : Nat) (x : LearnPort) : (s.setLearnPort p x).tb = s.tb := rfl
@[simp] theorem setLearnPort_led (p : Nat) (x : LearnPort) : (s.setLearnPort p x).led = s.led := rfl
@[simp] theorem setLearnPort_rings (p : Nat) (x : LearnPort) : (s.setLearnPort p x).rings = s.rings := rfl
@[simp] theorem setLearnPort_fuse (p : Nat) (x : LearnPort) : (s.setLearnPort p x).fuse = s.fuse := rfl
@[simp] theorem setLearnPort_tosen (p : Nat) (x : LearnPort) : (s.setLearnPort p x).tosen = s.tosen := rfl
@[simp] theorem setLearnPort_boot (p : Nat) (x : LearnPort) : (s.setLearnPort p x).boot = s.boot := rfl
@[simp] theorem setLearnPort_dbg (p : Nat) (x : LearnPort) : (s.setLearnPort p x).dbg = s.dbg := rfl
@[simp] theorem setLearnPort_ports (p : Nat) (x : LearnPort) : (s.setLearnPort p x).ports = s.ports := rfl
@[simp] theorem setLearnPort_tm (p : Nat) (x : LearnPort) : (s.setLearnPort p x).tm = s.tm := rfl
@[simp] theorem setLearnPort_slu (p : Nat) (x : LearnPort) : (s.setLearnPort p x).slu = s.slu := rfl
@[simp] theorem setLearnPort_dma (p : Nat) (x : LearnPort) : (s.setLearnPort p x).dma = s.dma := rfl
@[simp] theorem setLearnPort_pcie (p : Nat) (x : LearnPort) : (s.setLearnPort p x).pcie = s.pcie := rfl
@[simp] theorem setLearnPort_cores (p : Nat) (x : LearnPort) : (s.setLearnPort p x).cores = s.cores := rfl
@[simp] theorem setLearnPort_rm (p : Nat) (x : LearnPort) : (s.setLearnPort p x).rm = s.rm := rfl
@[simp] theorem setLearnPort_mem (p : Nat) (x : LearnPort) : (s.setLearnPort p x).mem = s.mem := rfl
@[simp] theorem setLearnPort_rdma (p : Nat) (x : LearnPort) : (s.setLearnPort p x).rdma = s.rdma := rfl
@[simp] theorem setLearnPort_stor (p : Nat) (x : LearnPort) : (s.setLearnPort p x).stor = s.stor := rfl
@[simp] theorem setLearnPort_sec (p : Nat) (x : LearnPort) : (s.setLearnPort p x).sec = s.sec := rfl
@[simp] theorem setLearnPort_learnPort_same (k : Nat) (x : LearnPort) : (s.setLearnPort k x).learnPort k = x := tget_tset_same ..
theorem setLearnPort_learnPort_other (k j : Nat) (x : LearnPort) (h : j ≠ k) : (s.setLearnPort k x).learnPort j = s.learnPort j := tget_tset_other _ k j x _ h
@[simp] theorem setLearnPort_twice (k : Nat) (x y : LearnPort) : (s.setLearnPort k x).setLearnPort k y = s.setLearnPort k y := by simp [State.setLearnPort, tset_tset]

/-! `State.setQp`. -/

@[simp] theorem setQp_pending (n : Nat) (x : Qp) : (s.setQp n x).pending = s.pending := rfl
@[simp] theorem setQp_now (n : Nat) (x : Qp) : (s.setQp n x).now = s.now := rfl
@[simp] theorem setQp_elapsed (n : Nat) (x : Qp) : (s.setQp n x).elapsed = s.elapsed := rfl
@[simp] theorem setQp_fresh (n : Nat) (x : Qp) : (s.setQp n x).fresh = s.fresh := rfl
@[simp] theorem setQp_out (n : Nat) (x : Qp) : (s.setQp n x).out = s.out := rfl
@[simp] theorem setQp_ram (n : Nat) (x : Qp) : (s.setQp n x).ram = s.ram := rfl
@[simp] theorem setQp_glb (n : Nat) (x : Qp) : (s.setQp n x).glb = s.glb := rfl
@[simp] theorem setQp_pw (n : Nat) (x : Qp) : (s.setQp n x).pw = s.pw := rfl
@[simp] theorem setQp_tb (n : Nat) (x : Qp) : (s.setQp n x).tb = s.tb := rfl
@[simp] theorem setQp_led (n : Nat) (x : Qp) : (s.setQp n x).led = s.led := rfl
@[simp] theorem setQp_rings (n : Nat) (x : Qp) : (s.setQp n x).rings = s.rings := rfl
@[simp] theorem setQp_fuse (n : Nat) (x : Qp) : (s.setQp n x).fuse = s.fuse := rfl
@[simp] theorem setQp_tosen (n : Nat) (x : Qp) : (s.setQp n x).tosen = s.tosen := rfl
@[simp] theorem setQp_boot (n : Nat) (x : Qp) : (s.setQp n x).boot = s.boot := rfl
@[simp] theorem setQp_dbg (n : Nat) (x : Qp) : (s.setQp n x).dbg = s.dbg := rfl
@[simp] theorem setQp_ports (n : Nat) (x : Qp) : (s.setQp n x).ports = s.ports := rfl
@[simp] theorem setQp_pl (n : Nat) (x : Qp) : (s.setQp n x).pl = s.pl := rfl
@[simp] theorem setQp_tm (n : Nat) (x : Qp) : (s.setQp n x).tm = s.tm := rfl
@[simp] theorem setQp_slu (n : Nat) (x : Qp) : (s.setQp n x).slu = s.slu := rfl
@[simp] theorem setQp_dma (n : Nat) (x : Qp) : (s.setQp n x).dma = s.dma := rfl
@[simp] theorem setQp_pcie (n : Nat) (x : Qp) : (s.setQp n x).pcie = s.pcie := rfl
@[simp] theorem setQp_cores (n : Nat) (x : Qp) : (s.setQp n x).cores = s.cores := rfl
@[simp] theorem setQp_rm (n : Nat) (x : Qp) : (s.setQp n x).rm = s.rm := rfl
@[simp] theorem setQp_mem (n : Nat) (x : Qp) : (s.setQp n x).mem = s.mem := rfl
@[simp] theorem setQp_stor (n : Nat) (x : Qp) : (s.setQp n x).stor = s.stor := rfl
@[simp] theorem setQp_sec (n : Nat) (x : Qp) : (s.setQp n x).sec = s.sec := rfl
@[simp] theorem setQp_qp_same (k : Nat) (x : Qp) : (s.setQp k x).qp? k = some x := tget?_tset_same ..
theorem setQp_qp_other (k j : Nat) (x : Qp) (h : j ≠ k) : (s.setQp k x).qp? j = s.qp? j := tget?_tset_other _ k j x h
@[simp] theorem setQp_twice (k : Nat) (x y : Qp) : (s.setQp k x).setQp k y = s.setQp k y := by simp [State.setQp, tset_tset]

/-! `State.setMs`. -/

@[simp] theorem setMs_pending (p : Nat) (x : MsPort) : (s.setMs p x).pending = s.pending := rfl
@[simp] theorem setMs_now (p : Nat) (x : MsPort) : (s.setMs p x).now = s.now := rfl
@[simp] theorem setMs_elapsed (p : Nat) (x : MsPort) : (s.setMs p x).elapsed = s.elapsed := rfl
@[simp] theorem setMs_fresh (p : Nat) (x : MsPort) : (s.setMs p x).fresh = s.fresh := rfl
@[simp] theorem setMs_out (p : Nat) (x : MsPort) : (s.setMs p x).out = s.out := rfl
@[simp] theorem setMs_ram (p : Nat) (x : MsPort) : (s.setMs p x).ram = s.ram := rfl
@[simp] theorem setMs_glb (p : Nat) (x : MsPort) : (s.setMs p x).glb = s.glb := rfl
@[simp] theorem setMs_pw (p : Nat) (x : MsPort) : (s.setMs p x).pw = s.pw := rfl
@[simp] theorem setMs_tb (p : Nat) (x : MsPort) : (s.setMs p x).tb = s.tb := rfl
@[simp] theorem setMs_led (p : Nat) (x : MsPort) : (s.setMs p x).led = s.led := rfl
@[simp] theorem setMs_rings (p : Nat) (x : MsPort) : (s.setMs p x).rings = s.rings := rfl
@[simp] theorem setMs_fuse (p : Nat) (x : MsPort) : (s.setMs p x).fuse = s.fuse := rfl
@[simp] theorem setMs_tosen (p : Nat) (x : MsPort) : (s.setMs p x).tosen = s.tosen := rfl
@[simp] theorem setMs_boot (p : Nat) (x : MsPort) : (s.setMs p x).boot = s.boot := rfl
@[simp] theorem setMs_dbg (p : Nat) (x : MsPort) : (s.setMs p x).dbg = s.dbg := rfl
@[simp] theorem setMs_ports (p : Nat) (x : MsPort) : (s.setMs p x).ports = s.ports := rfl
@[simp] theorem setMs_pl (p : Nat) (x : MsPort) : (s.setMs p x).pl = s.pl := rfl
@[simp] theorem setMs_tm (p : Nat) (x : MsPort) : (s.setMs p x).tm = s.tm := rfl
@[simp] theorem setMs_slu (p : Nat) (x : MsPort) : (s.setMs p x).slu = s.slu := rfl
@[simp] theorem setMs_dma (p : Nat) (x : MsPort) : (s.setMs p x).dma = s.dma := rfl
@[simp] theorem setMs_pcie (p : Nat) (x : MsPort) : (s.setMs p x).pcie = s.pcie := rfl
@[simp] theorem setMs_cores (p : Nat) (x : MsPort) : (s.setMs p x).cores = s.cores := rfl
@[simp] theorem setMs_rm (p : Nat) (x : MsPort) : (s.setMs p x).rm = s.rm := rfl
@[simp] theorem setMs_mem (p : Nat) (x : MsPort) : (s.setMs p x).mem = s.mem := rfl
@[simp] theorem setMs_rdma (p : Nat) (x : MsPort) : (s.setMs p x).rdma = s.rdma := rfl
@[simp] theorem setMs_stor (p : Nat) (x : MsPort) : (s.setMs p x).stor = s.stor := rfl
@[simp] theorem setMs_ms_same (k : Nat) (x : MsPort) : (s.setMs k x).ms k = x := tget_tset_same ..
theorem setMs_ms_other (k j : Nat) (x : MsPort) (h : j ≠ k) : (s.setMs k x).ms j = s.ms j := tget_tset_other _ k j x _ h
@[simp] theorem setMs_twice (k : Nat) (x y : MsPort) : (s.setMs k x).setMs k y = s.setMs k y := by simp [State.setMs, tset_tset]

/-! `State.setSluPort`. -/

@[simp] theorem setSluPort_pending (p : Nat) (x : SluPort) : (s.setSluPort p x).pending = s.pending := rfl
@[simp] theorem setSluPort_now (p : Nat) (x : SluPort) : (s.setSluPort p x).now = s.now := rfl
@[simp] theorem setSluPort_elapsed (p : Nat) (x : SluPort) : (s.setSluPort p x).elapsed = s.elapsed := rfl
@[simp] theorem setSluPort_fresh (p : Nat) (x : SluPort) : (s.setSluPort p x).fresh = s.fresh := rfl
@[simp] theorem setSluPort_out (p : Nat) (x : SluPort) : (s.setSluPort p x).out = s.out := rfl
@[simp] theorem setSluPort_ram (p : Nat) (x : SluPort) : (s.setSluPort p x).ram = s.ram := rfl
@[simp] theorem setSluPort_glb (p : Nat) (x : SluPort) : (s.setSluPort p x).glb = s.glb := rfl
@[simp] theorem setSluPort_pw (p : Nat) (x : SluPort) : (s.setSluPort p x).pw = s.pw := rfl
@[simp] theorem setSluPort_tb (p : Nat) (x : SluPort) : (s.setSluPort p x).tb = s.tb := rfl
@[simp] theorem setSluPort_led (p : Nat) (x : SluPort) : (s.setSluPort p x).led = s.led := rfl
@[simp] theorem setSluPort_rings (p : Nat) (x : SluPort) : (s.setSluPort p x).rings = s.rings := rfl
@[simp] theorem setSluPort_fuse (p : Nat) (x : SluPort) : (s.setSluPort p x).fuse = s.fuse := rfl
@[simp] theorem setSluPort_tosen (p : Nat) (x : SluPort) : (s.setSluPort p x).tosen = s.tosen := rfl
@[simp] theorem setSluPort_boot (p : Nat) (x : SluPort) : (s.setSluPort p x).boot = s.boot := rfl
@[simp] theorem setSluPort_dbg (p : Nat) (x : SluPort) : (s.setSluPort p x).dbg = s.dbg := rfl
@[simp] theorem setSluPort_ports (p : Nat) (x : SluPort) : (s.setSluPort p x).ports = s.ports := rfl
@[simp] theorem setSluPort_pl (p : Nat) (x : SluPort) : (s.setSluPort p x).pl = s.pl := rfl
@[simp] theorem setSluPort_tm (p : Nat) (x : SluPort) : (s.setSluPort p x).tm = s.tm := rfl
@[simp] theorem setSluPort_dma (p : Nat) (x : SluPort) : (s.setSluPort p x).dma = s.dma := rfl
@[simp] theorem setSluPort_pcie (p : Nat) (x : SluPort) : (s.setSluPort p x).pcie = s.pcie := rfl
@[simp] theorem setSluPort_cores (p : Nat) (x : SluPort) : (s.setSluPort p x).cores = s.cores := rfl
@[simp] theorem setSluPort_rm (p : Nat) (x : SluPort) : (s.setSluPort p x).rm = s.rm := rfl
@[simp] theorem setSluPort_mem (p : Nat) (x : SluPort) : (s.setSluPort p x).mem = s.mem := rfl
@[simp] theorem setSluPort_rdma (p : Nat) (x : SluPort) : (s.setSluPort p x).rdma = s.rdma := rfl
@[simp] theorem setSluPort_stor (p : Nat) (x : SluPort) : (s.setSluPort p x).stor = s.stor := rfl
@[simp] theorem setSluPort_sec (p : Nat) (x : SluPort) : (s.setSluPort p x).sec = s.sec := rfl
@[simp] theorem setSluPort_sluPort_same (k : Nat) (x : SluPort) : (s.setSluPort k x).sluPort k = x := tget_tset_same ..
theorem setSluPort_sluPort_other (k j : Nat) (x : SluPort) (h : j ≠ k) : (s.setSluPort k x).sluPort j = s.sluPort j := tget_tset_other _ k j x _ h
@[simp] theorem setSluPort_twice (k : Nat) (x y : SluPort) : (s.setSluPort k x).setSluPort k y = s.setSluPort k y := by simp [State.setSluPort, tset_tset]

/-! `State.setNs`. -/

@[simp] theorem setNs_pending (k : Nat) (x : Ns) : (s.setNs k x).pending = s.pending := rfl
@[simp] theorem setNs_now (k : Nat) (x : Ns) : (s.setNs k x).now = s.now := rfl
@[simp] theorem setNs_elapsed (k : Nat) (x : Ns) : (s.setNs k x).elapsed = s.elapsed := rfl
@[simp] theorem setNs_fresh (k : Nat) (x : Ns) : (s.setNs k x).fresh = s.fresh := rfl
@[simp] theorem setNs_out (k : Nat) (x : Ns) : (s.setNs k x).out = s.out := rfl
@[simp] theorem setNs_ram (k : Nat) (x : Ns) : (s.setNs k x).ram = s.ram := rfl
@[simp] theorem setNs_glb (k : Nat) (x : Ns) : (s.setNs k x).glb = s.glb := rfl
@[simp] theorem setNs_pw (k : Nat) (x : Ns) : (s.setNs k x).pw = s.pw := rfl
@[simp] theorem setNs_tb (k : Nat) (x : Ns) : (s.setNs k x).tb = s.tb := rfl
@[simp] theorem setNs_led (k : Nat) (x : Ns) : (s.setNs k x).led = s.led := rfl
@[simp] theorem setNs_rings (k : Nat) (x : Ns) : (s.setNs k x).rings = s.rings := rfl
@[simp] theorem setNs_fuse (k : Nat) (x : Ns) : (s.setNs k x).fuse = s.fuse := rfl
@[simp] theorem setNs_tosen (k : Nat) (x : Ns) : (s.setNs k x).tosen = s.tosen := rfl
@[simp] theorem setNs_boot (k : Nat) (x : Ns) : (s.setNs k x).boot = s.boot := rfl
@[simp] theorem setNs_dbg (k : Nat) (x : Ns) : (s.setNs k x).dbg = s.dbg := rfl
@[simp] theorem setNs_ports (k : Nat) (x : Ns) : (s.setNs k x).ports = s.ports := rfl
@[simp] theorem setNs_pl (k : Nat) (x : Ns) : (s.setNs k x).pl = s.pl := rfl
@[simp] theorem setNs_tm (k : Nat) (x : Ns) : (s.setNs k x).tm = s.tm := rfl
@[simp] theorem setNs_slu (k : Nat) (x : Ns) : (s.setNs k x).slu = s.slu := rfl
@[simp] theorem setNs_dma (k : Nat) (x : Ns) : (s.setNs k x).dma = s.dma := rfl
@[simp] theorem setNs_pcie (k : Nat) (x : Ns) : (s.setNs k x).pcie = s.pcie := rfl
@[simp] theorem setNs_cores (k : Nat) (x : Ns) : (s.setNs k x).cores = s.cores := rfl
@[simp] theorem setNs_rm (k : Nat) (x : Ns) : (s.setNs k x).rm = s.rm := rfl
@[simp] theorem setNs_mem (k : Nat) (x : Ns) : (s.setNs k x).mem = s.mem := rfl
@[simp] theorem setNs_rdma (k : Nat) (x : Ns) : (s.setNs k x).rdma = s.rdma := rfl
@[simp] theorem setNs_sec (k : Nat) (x : Ns) : (s.setNs k x).sec = s.sec := rfl
@[simp] theorem setNs_ns_same (k : Nat) (x : Ns) : (s.setNs k x).ns? k = some x := tget?_tset_same ..
theorem setNs_ns_other (k j : Nat) (x : Ns) (h : j ≠ k) : (s.setNs k x).ns? j = s.ns? j := tget?_tset_other _ k j x h
@[simp] theorem setNs_twice (k : Nat) (x y : Ns) : (s.setNs k x).setNs k y = s.setNs k y := by simp [State.setNs, tset_tset]

/-! `State.setQueue`. -/

@[simp] theorem setQueue_pending (q : Nat) (x : Queue) : (s.setQueue q x).pending = s.pending := rfl
@[simp] theorem setQueue_now (q : Nat) (x : Queue) : (s.setQueue q x).now = s.now := rfl
@[simp] theorem setQueue_elapsed (q : Nat) (x : Queue) : (s.setQueue q x).elapsed = s.elapsed := rfl
@[simp] theorem setQueue_fresh (q : Nat) (x : Queue) : (s.setQueue q x).fresh = s.fresh := rfl
@[simp] theorem setQueue_out (q : Nat) (x : Queue) : (s.setQueue q x).out = s.out := rfl
@[simp] theorem setQueue_ram (q : Nat) (x : Queue) : (s.setQueue q x).ram = s.ram := rfl
@[simp] theorem setQueue_glb (q : Nat) (x : Queue) : (s.setQueue q x).glb = s.glb := rfl
@[simp] theorem setQueue_pw (q : Nat) (x : Queue) : (s.setQueue q x).pw = s.pw := rfl
@[simp] theorem setQueue_tb (q : Nat) (x : Queue) : (s.setQueue q x).tb = s.tb := rfl
@[simp] theorem setQueue_led (q : Nat) (x : Queue) : (s.setQueue q x).led = s.led := rfl
@[simp] theorem setQueue_rings (q : Nat) (x : Queue) : (s.setQueue q x).rings = s.rings := rfl
@[simp] theorem setQueue_fuse (q : Nat) (x : Queue) : (s.setQueue q x).fuse = s.fuse := rfl
@[simp] theorem setQueue_tosen (q : Nat) (x : Queue) : (s.setQueue q x).tosen = s.tosen := rfl
@[simp] theorem setQueue_boot (q : Nat) (x : Queue) : (s.setQueue q x).boot = s.boot := rfl
@[simp] theorem setQueue_dbg (q : Nat) (x : Queue) : (s.setQueue q x).dbg = s.dbg := rfl
@[simp] theorem setQueue_ports (q : Nat) (x : Queue) : (s.setQueue q x).ports = s.ports := rfl
@[simp] theorem setQueue_pl (q : Nat) (x : Queue) : (s.setQueue q x).pl = s.pl := rfl
@[simp] theorem setQueue_slu (q : Nat) (x : Queue) : (s.setQueue q x).slu = s.slu := rfl
@[simp] theorem setQueue_dma (q : Nat) (x : Queue) : (s.setQueue q x).dma = s.dma := rfl
@[simp] theorem setQueue_pcie (q : Nat) (x : Queue) : (s.setQueue q x).pcie = s.pcie := rfl
@[simp] theorem setQueue_cores (q : Nat) (x : Queue) : (s.setQueue q x).cores = s.cores := rfl
@[simp] theorem setQueue_rm (q : Nat) (x : Queue) : (s.setQueue q x).rm = s.rm := rfl
@[simp] theorem setQueue_mem (q : Nat) (x : Queue) : (s.setQueue q x).mem = s.mem := rfl
@[simp] theorem setQueue_rdma (q : Nat) (x : Queue) : (s.setQueue q x).rdma = s.rdma := rfl
@[simp] theorem setQueue_stor (q : Nat) (x : Queue) : (s.setQueue q x).stor = s.stor := rfl
@[simp] theorem setQueue_sec (q : Nat) (x : Queue) : (s.setQueue q x).sec = s.sec := rfl
@[simp] theorem setQueue_queue_same (k : Nat) (x : Queue) : (s.setQueue k x).queue k = x := tget_tset_same ..
theorem setQueue_queue_other (k j : Nat) (x : Queue) (h : j ≠ k) : (s.setQueue k x).queue j = s.queue j := tget_tset_other _ k j x _ h
@[simp] theorem setQueue_twice (k : Nat) (x y : Queue) : (s.setQueue k x).setQueue k y = s.setQueue k y := by simp [State.setQueue, tset_tset]

/-! `State.setMeter`. -/

@[simp] theorem setMeter_pending (m : Nat) (x : Meter) : (s.setMeter m x).pending = s.pending := rfl
@[simp] theorem setMeter_now (m : Nat) (x : Meter) : (s.setMeter m x).now = s.now := rfl
@[simp] theorem setMeter_elapsed (m : Nat) (x : Meter) : (s.setMeter m x).elapsed = s.elapsed := rfl
@[simp] theorem setMeter_fresh (m : Nat) (x : Meter) : (s.setMeter m x).fresh = s.fresh := rfl
@[simp] theorem setMeter_out (m : Nat) (x : Meter) : (s.setMeter m x).out = s.out := rfl
@[simp] theorem setMeter_ram (m : Nat) (x : Meter) : (s.setMeter m x).ram = s.ram := rfl
@[simp] theorem setMeter_glb (m : Nat) (x : Meter) : (s.setMeter m x).glb = s.glb := rfl
@[simp] theorem setMeter_pw (m : Nat) (x : Meter) : (s.setMeter m x).pw = s.pw := rfl
@[simp] theorem setMeter_tb (m : Nat) (x : Meter) : (s.setMeter m x).tb = s.tb := rfl
@[simp] theorem setMeter_led (m : Nat) (x : Meter) : (s.setMeter m x).led = s.led := rfl
@[simp] theorem setMeter_rings (m : Nat) (x : Meter) : (s.setMeter m x).rings = s.rings := rfl
@[simp] theorem setMeter_fuse (m : Nat) (x : Meter) : (s.setMeter m x).fuse = s.fuse := rfl
@[simp] theorem setMeter_tosen (m : Nat) (x : Meter) : (s.setMeter m x).tosen = s.tosen := rfl
@[simp] theorem setMeter_boot (m : Nat) (x : Meter) : (s.setMeter m x).boot = s.boot := rfl
@[simp] theorem setMeter_dbg (m : Nat) (x : Meter) : (s.setMeter m x).dbg = s.dbg := rfl
@[simp] theorem setMeter_ports (m : Nat) (x : Meter) : (s.setMeter m x).ports = s.ports := rfl
@[simp] theorem setMeter_pl (m : Nat) (x : Meter) : (s.setMeter m x).pl = s.pl := rfl
@[simp] theorem setMeter_slu (m : Nat) (x : Meter) : (s.setMeter m x).slu = s.slu := rfl
@[simp] theorem setMeter_dma (m : Nat) (x : Meter) : (s.setMeter m x).dma = s.dma := rfl
@[simp] theorem setMeter_pcie (m : Nat) (x : Meter) : (s.setMeter m x).pcie = s.pcie := rfl
@[simp] theorem setMeter_cores (m : Nat) (x : Meter) : (s.setMeter m x).cores = s.cores := rfl
@[simp] theorem setMeter_rm (m : Nat) (x : Meter) : (s.setMeter m x).rm = s.rm := rfl
@[simp] theorem setMeter_mem (m : Nat) (x : Meter) : (s.setMeter m x).mem = s.mem := rfl
@[simp] theorem setMeter_rdma (m : Nat) (x : Meter) : (s.setMeter m x).rdma = s.rdma := rfl
@[simp] theorem setMeter_stor (m : Nat) (x : Meter) : (s.setMeter m x).stor = s.stor := rfl
@[simp] theorem setMeter_sec (m : Nat) (x : Meter) : (s.setMeter m x).sec = s.sec := rfl
@[simp] theorem setMeter_meter_same (k : Nat) (x : Meter) : (s.setMeter k x).meter k = x := tget_tset_same ..
theorem setMeter_meter_other (k j : Nat) (x : Meter) (h : j ≠ k) : (s.setMeter k x).meter j = s.meter j := tget_tset_other _ k j x _ h
@[simp] theorem setMeter_twice (k : Nat) (x y : Meter) : (s.setMeter k x).setMeter k y = s.setMeter k y := by simp [State.setMeter, tset_tset]

/-! `State.setTmDom`. -/

@[simp] theorem setTmDom_pending (d : Nat) (x : TmDom) : (s.setTmDom d x).pending = s.pending := rfl
@[simp] theorem setTmDom_now (d : Nat) (x : TmDom) : (s.setTmDom d x).now = s.now := rfl
@[simp] theorem setTmDom_elapsed (d : Nat) (x : TmDom) : (s.setTmDom d x).elapsed = s.elapsed := rfl
@[simp] theorem setTmDom_fresh (d : Nat) (x : TmDom) : (s.setTmDom d x).fresh = s.fresh := rfl
@[simp] theorem setTmDom_out (d : Nat) (x : TmDom) : (s.setTmDom d x).out = s.out := rfl
@[simp] theorem setTmDom_ram (d : Nat) (x : TmDom) : (s.setTmDom d x).ram = s.ram := rfl
@[simp] theorem setTmDom_glb (d : Nat) (x : TmDom) : (s.setTmDom d x).glb = s.glb := rfl
@[simp] theorem setTmDom_pw (d : Nat) (x : TmDom) : (s.setTmDom d x).pw = s.pw := rfl
@[simp] theorem setTmDom_tb (d : Nat) (x : TmDom) : (s.setTmDom d x).tb = s.tb := rfl
@[simp] theorem setTmDom_led (d : Nat) (x : TmDom) : (s.setTmDom d x).led = s.led := rfl
@[simp] theorem setTmDom_rings (d : Nat) (x : TmDom) : (s.setTmDom d x).rings = s.rings := rfl
@[simp] theorem setTmDom_fuse (d : Nat) (x : TmDom) : (s.setTmDom d x).fuse = s.fuse := rfl
@[simp] theorem setTmDom_tosen (d : Nat) (x : TmDom) : (s.setTmDom d x).tosen = s.tosen := rfl
@[simp] theorem setTmDom_boot (d : Nat) (x : TmDom) : (s.setTmDom d x).boot = s.boot := rfl
@[simp] theorem setTmDom_dbg (d : Nat) (x : TmDom) : (s.setTmDom d x).dbg = s.dbg := rfl
@[simp] theorem setTmDom_ports (d : Nat) (x : TmDom) : (s.setTmDom d x).ports = s.ports := rfl
@[simp] theorem setTmDom_pl (d : Nat) (x : TmDom) : (s.setTmDom d x).pl = s.pl := rfl
@[simp] theorem setTmDom_slu (d : Nat) (x : TmDom) : (s.setTmDom d x).slu = s.slu := rfl
@[simp] theorem setTmDom_dma (d : Nat) (x : TmDom) : (s.setTmDom d x).dma = s.dma := rfl
@[simp] theorem setTmDom_pcie (d : Nat) (x : TmDom) : (s.setTmDom d x).pcie = s.pcie := rfl
@[simp] theorem setTmDom_cores (d : Nat) (x : TmDom) : (s.setTmDom d x).cores = s.cores := rfl
@[simp] theorem setTmDom_rm (d : Nat) (x : TmDom) : (s.setTmDom d x).rm = s.rm := rfl
@[simp] theorem setTmDom_mem (d : Nat) (x : TmDom) : (s.setTmDom d x).mem = s.mem := rfl
@[simp] theorem setTmDom_rdma (d : Nat) (x : TmDom) : (s.setTmDom d x).rdma = s.rdma := rfl
@[simp] theorem setTmDom_stor (d : Nat) (x : TmDom) : (s.setTmDom d x).stor = s.stor := rfl
@[simp] theorem setTmDom_sec (d : Nat) (x : TmDom) : (s.setTmDom d x).sec = s.sec := rfl
@[simp] theorem setTmDom_tmDom_same (k : Nat) (x : TmDom) : (s.setTmDom k x).tmDom k = x := tget_tset_same ..
theorem setTmDom_tmDom_other (k j : Nat) (x : TmDom) (h : j ≠ k) : (s.setTmDom k x).tmDom j = s.tmDom j := tget_tset_other _ k j x _ h
@[simp] theorem setTmDom_twice (k : Nat) (x y : TmDom) : (s.setTmDom k x).setTmDom k y = s.setTmDom k y := by simp [State.setTmDom, tset_tset]

/-! `State.setSched`. -/

@[simp] theorem setSched_pending (n : Nat) (x : Sched) : (s.setSched n x).pending = s.pending := rfl
@[simp] theorem setSched_now (n : Nat) (x : Sched) : (s.setSched n x).now = s.now := rfl
@[simp] theorem setSched_elapsed (n : Nat) (x : Sched) : (s.setSched n x).elapsed = s.elapsed := rfl
@[simp] theorem setSched_fresh (n : Nat) (x : Sched) : (s.setSched n x).fresh = s.fresh := rfl
@[simp] theorem setSched_out (n : Nat) (x : Sched) : (s.setSched n x).out = s.out := rfl
@[simp] theorem setSched_ram (n : Nat) (x : Sched) : (s.setSched n x).ram = s.ram := rfl
@[simp] theorem setSched_glb (n : Nat) (x : Sched) : (s.setSched n x).glb = s.glb := rfl
@[simp] theorem setSched_pw (n : Nat) (x : Sched) : (s.setSched n x).pw = s.pw := rfl
@[simp] theorem setSched_tb (n : Nat) (x : Sched) : (s.setSched n x).tb = s.tb := rfl
@[simp] theorem setSched_led (n : Nat) (x : Sched) : (s.setSched n x).led = s.led := rfl
@[simp] theorem setSched_rings (n : Nat) (x : Sched) : (s.setSched n x).rings = s.rings := rfl
@[simp] theorem setSched_fuse (n : Nat) (x : Sched) : (s.setSched n x).fuse = s.fuse := rfl
@[simp] theorem setSched_tosen (n : Nat) (x : Sched) : (s.setSched n x).tosen = s.tosen := rfl
@[simp] theorem setSched_boot (n : Nat) (x : Sched) : (s.setSched n x).boot = s.boot := rfl
@[simp] theorem setSched_dbg (n : Nat) (x : Sched) : (s.setSched n x).dbg = s.dbg := rfl
@[simp] theorem setSched_ports (n : Nat) (x : Sched) : (s.setSched n x).ports = s.ports := rfl
@[simp] theorem setSched_pl (n : Nat) (x : Sched) : (s.setSched n x).pl = s.pl := rfl
@[simp] theorem setSched_slu (n : Nat) (x : Sched) : (s.setSched n x).slu = s.slu := rfl
@[simp] theorem setSched_dma (n : Nat) (x : Sched) : (s.setSched n x).dma = s.dma := rfl
@[simp] theorem setSched_pcie (n : Nat) (x : Sched) : (s.setSched n x).pcie = s.pcie := rfl
@[simp] theorem setSched_cores (n : Nat) (x : Sched) : (s.setSched n x).cores = s.cores := rfl
@[simp] theorem setSched_rm (n : Nat) (x : Sched) : (s.setSched n x).rm = s.rm := rfl
@[simp] theorem setSched_mem (n : Nat) (x : Sched) : (s.setSched n x).mem = s.mem := rfl
@[simp] theorem setSched_rdma (n : Nat) (x : Sched) : (s.setSched n x).rdma = s.rdma := rfl
@[simp] theorem setSched_stor (n : Nat) (x : Sched) : (s.setSched n x).stor = s.stor := rfl
@[simp] theorem setSched_sec (n : Nat) (x : Sched) : (s.setSched n x).sec = s.sec := rfl
@[simp] theorem setSched_sched_same (k : Nat) (x : Sched) : (s.setSched k x).sched k = x := tget_tset_same ..
theorem setSched_sched_other (k j : Nat) (x : Sched) (h : j ≠ k) : (s.setSched k x).sched j = s.sched j := tget_tset_other _ k j x _ h
@[simp] theorem setSched_twice (k : Nat) (x y : Sched) : (s.setSched k x).setSched k y = s.setSched k y := by simp [State.setSched, tset_tset]

/-! `State.onSession`. -/

@[simp] theorem onSession_pending (p : Path) (f : Session → Session) : (s.onSession p f).pending = s.pending := rfl
@[simp] theorem onSession_now (p : Path) (f : Session → Session) : (s.onSession p f).now = s.now := rfl
@[simp] theorem onSession_elapsed (p : Path) (f : Session → Session) : (s.onSession p f).elapsed = s.elapsed := rfl
@[simp] theorem onSession_fresh (p : Path) (f : Session → Session) : (s.onSession p f).fresh = s.fresh := rfl
@[simp] theorem onSession_out (p : Path) (f : Session → Session) : (s.onSession p f).out = s.out := rfl
@[simp] theorem onSession_ram (p : Path) (f : Session → Session) : (s.onSession p f).ram = s.ram := rfl
@[simp] theorem onSession_glb (p : Path) (f : Session → Session) : (s.onSession p f).glb = s.glb := rfl
@[simp] theorem onSession_pw (p : Path) (f : Session → Session) : (s.onSession p f).pw = s.pw := rfl
@[simp] theorem onSession_tb (p : Path) (f : Session → Session) : (s.onSession p f).tb = s.tb := rfl
@[simp] theorem onSession_led (p : Path) (f : Session → Session) : (s.onSession p f).led = s.led := rfl
@[simp] theorem onSession_rings (p : Path) (f : Session → Session) : (s.onSession p f).rings = s.rings := rfl
@[simp] theorem onSession_fuse (p : Path) (f : Session → Session) : (s.onSession p f).fuse = s.fuse := rfl
@[simp] theorem onSession_boot (p : Path) (f : Session → Session) : (s.onSession p f).boot = s.boot := rfl
@[simp] theorem onSession_dbg (p : Path) (f : Session → Session) : (s.onSession p f).dbg = s.dbg := rfl
@[simp] theorem onSession_ports (p : Path) (f : Session → Session) : (s.onSession p f).ports = s.ports := rfl
@[simp] theorem onSession_pl (p : Path) (f : Session → Session) : (s.onSession p f).pl = s.pl := rfl
@[simp] theorem onSession_tm (p : Path) (f : Session → Session) : (s.onSession p f).tm = s.tm := rfl
@[simp] theorem onSession_slu (p : Path) (f : Session → Session) : (s.onSession p f).slu = s.slu := rfl
@[simp] theorem onSession_dma (p : Path) (f : Session → Session) : (s.onSession p f).dma = s.dma := rfl
@[simp] theorem onSession_pcie (p : Path) (f : Session → Session) : (s.onSession p f).pcie = s.pcie := rfl
@[simp] theorem onSession_cores (p : Path) (f : Session → Session) : (s.onSession p f).cores = s.cores := rfl
@[simp] theorem onSession_rm (p : Path) (f : Session → Session) : (s.onSession p f).rm = s.rm := rfl
@[simp] theorem onSession_mem (p : Path) (f : Session → Session) : (s.onSession p f).mem = s.mem := rfl
@[simp] theorem onSession_rdma (p : Path) (f : Session → Session) : (s.onSession p f).rdma = s.rdma := rfl
@[simp] theorem onSession_stor (p : Path) (f : Session → Session) : (s.onSession p f).stor = s.stor := rfl
@[simp] theorem onSession_sec (p : Path) (f : Session → Session) : (s.onSession p f).sec = s.sec := rfl

end Sys2Proof.Machine
end

