-- ==== Sys2Proof/Laws/Tosen.lean ====
section
/-! SUPPORT. How a Tosen command is executed and answered: one law for the commands whose reply ends them, one for those that reply
later. A command's own law is then its body, on any state that agrees with the one it is given. -/
namespace Sys2Proof.Machine

/-! The units that events and replies do not touch. -/

theorem Events.ports {s t : State} (h : Events s t) : { t.ports with ports := [], mp := {}, halfDue := [] } = { s.ports with ports := [], mp := {}, halfDue := [] } := by
  have := congrArg (fun x : State => { x.ports with ports := [], mp := {}, halfDue := [] }) h.quiet
  exact this
theorem Agree.ports {s t : State} (h : Agree s t) : { t.ports with ports := [], mp := {}, halfDue := [] } = { s.ports with ports := [], mp := {}, halfDue := [] } := by
  have := congrArg (fun x : State => { x.ports with ports := [], mp := {}, halfDue := [] }) h.still
  exact this
theorem Agree.pfcDue {s t : State} (h : Agree s t) : t.ports.pfcDue = s.ports.pfcDue := by
  have := congrArg (fun x : State => x.ports.pfcDue) h.still
  exact this
theorem Events.pending {s t : State} (h : Events s t) : t.pending = s.pending := by
  have := congrArg State.pending h.quiet
  exact this
theorem Events.now {s t : State} (h : Events s t) : t.now = s.now := by
  have := congrArg State.now h.quiet
  exact this
theorem Events.elapsed {s t : State} (h : Events s t) : t.elapsed = s.elapsed := by
  have := congrArg State.elapsed h.quiet
  exact this
theorem Events.fresh {s t : State} (h : Events s t) : t.fresh = s.fresh := by
  have := congrArg State.fresh h.quiet
  exact this
theorem Events.glb {s t : State} (h : Events s t) : t.glb = s.glb := by
  have := congrArg State.glb h.quiet
  exact this
theorem Events.pw {s t : State} (h : Events s t) : t.pw = s.pw := by
  have := congrArg State.pw h.quiet
  exact this
theorem Events.led {s t : State} (h : Events s t) : t.led = s.led := by
  have := congrArg State.led h.quiet
  exact this
theorem Events.fuse {s t : State} (h : Events s t) : t.fuse = s.fuse := by
  have := congrArg State.fuse h.quiet
  exact this
theorem Events.boot {s t : State} (h : Events s t) : t.boot = s.boot := by
  have := congrArg State.boot h.quiet
  exact this
theorem Events.pl {s t : State} (h : Events s t) : t.pl = s.pl := by
  have := congrArg State.pl h.quiet
  exact this
theorem Events.tm {s t : State} (h : Events s t) : t.tm = s.tm := by
  have := congrArg State.tm h.quiet
  exact this
theorem Events.dma {s t : State} (h : Events s t) : t.dma = s.dma := by
  have := congrArg State.dma h.quiet
  exact this
theorem Events.rm {s t : State} (h : Events s t) : t.rm = s.rm := by
  have := congrArg State.rm h.quiet
  exact this
theorem Events.rdma {s t : State} (h : Events s t) : t.rdma = s.rdma := by
  have := congrArg State.rdma h.quiet
  exact this
theorem Events.stor {s t : State} (h : Events s t) : t.stor = s.stor := by
  have := congrArg State.stor h.quiet
  exact this
theorem Events.sec {s t : State} (h : Events s t) : t.sec = s.sec := by
  have := congrArg State.sec h.quiet
  exact this
theorem Agree.pending {s t : State} (h : Agree s t) : t.pending = s.pending := by
  have := congrArg State.pending h.still
  exact this
theorem Agree.now {s t : State} (h : Agree s t) : t.now = s.now := by
  have := congrArg State.now h.still
  exact this
theorem Agree.elapsed {s t : State} (h : Agree s t) : t.elapsed = s.elapsed := by
  have := congrArg State.elapsed h.still
  exact this
theorem Agree.fresh {s t : State} (h : Agree s t) : t.fresh = s.fresh := by
  have := congrArg State.fresh h.still
  exact this
theorem Agree.glb {s t : State} (h : Agree s t) : t.glb = s.glb := by
  have := congrArg State.glb h.still
  exact this
theorem Agree.pw {s t : State} (h : Agree s t) : t.pw = s.pw := by
  have := congrArg State.pw h.still
  exact this
theorem Agree.led {s t : State} (h : Agree s t) : t.led = s.led := by
  have := congrArg State.led h.still
  exact this
theorem Agree.fuse {s t : State} (h : Agree s t) : t.fuse = s.fuse := by
  have := congrArg State.fuse h.still
  exact this
theorem Agree.boot {s t : State} (h : Agree s t) : t.boot = s.boot := by
  have := congrArg State.boot h.still
  exact this
theorem Agree.pl {s t : State} (h : Agree s t) : t.pl = s.pl := by
  have := congrArg State.pl h.still
  exact this
theorem Agree.tm {s t : State} (h : Agree s t) : t.tm = s.tm := by
  have := congrArg State.tm h.still
  exact this
theorem Agree.dma {s t : State} (h : Agree s t) : t.dma = s.dma := by
  have := congrArg State.dma h.still
  exact this
theorem Agree.rm {s t : State} (h : Agree s t) : t.rm = s.rm := by
  have := congrArg State.rm h.still
  exact this
theorem Agree.rdma {s t : State} (h : Agree s t) : t.rdma = s.rdma := by
  have := congrArg State.rdma h.still
  exact this
theorem Agree.stor {s t : State} (h : Agree s t) : t.stor = s.stor := by
  have := congrArg State.stor h.still
  exact this
theorem Agree.sec {s t : State} (h : Agree s t) : t.sec = s.sec := by
  have := congrArg State.sec h.still
  exact this

theorem Events.tb {s t : State} (h : Events s t) : { t.tb with quals := [] } = { s.tb with quals := [] } := by
  have := congrArg State.tb h.quiet
  exact this
theorem Agree.tb {s t : State} (h : Agree s t) : { t.tb with quals := [] } = { s.tb with quals := [] } := by
  have := congrArg State.tb h.still
  exact this
theorem Agree.qualified {s t : State} (h : Agree s t) : t.tb.qualified = s.tb.qualified := by have := congrArg Tb.qualified h.tb; exact this
theorem Agree.quality {s t : State} (h : Agree s t) : t.quality = s.quality := by
  have e : ∀ x : State, x.quality = State.quality { x with tb.quals := [] } := fun _ => rfl
  rw [e t, e s]
  have := congrArg (fun b : Tb => State.quality { s with tb := b }) h.tb
  exact this

/-! Sessions through events and replies. -/

theorem quiet_path {x y : Session} (h : y.quiet = x.quiet) : y.path = x.path := by have := congrArg Session.path h; exact this
theorem quiet_dom {x y : Session} (h : y.quiet = x.quiet) : y.dom = x.dom := by have := congrArg Session.dom h; exact this
theorem quiet_ver {x y : Session} (h : y.quiet = x.quiet) : y.ver = x.ver := by have := congrArg Session.ver h; exact this
theorem quiet_queue {x y : Session} (h : y.quiet = x.quiet) : y.queue = x.queue := by have := congrArg Session.queue h; exact this
theorem quiet_running {x y : Session} (h : y.quiet = x.quiet) : y.running = x.running := by have := congrArg Session.running h; exact this
theorem quiet_cache {x y : Session} (h : y.quiet = x.quiet) : y.cache = x.cache := by have := congrArg Session.cache h; exact this

theorem find_quiet (p : Path) (l m : List Session) (h : m.map Session.quiet = l.map Session.quiet) (x : Session)
    (hx : l.find? (fun y => y.path == p) = some x) : ∃ y, m.find? (fun y => y.path == p) = some y ∧ y.quiet = x.quiet := by
  induction l generalizing m with
  | nil => simp at hx
  | cons a r ih =>
    cases m with
    | nil => simp at h
    | cons b m =>
      simp only [List.map_cons, List.cons.injEq] at h
      have hp : b.path = a.path := quiet_path h.1
      by_cases ha : a.path = p
      · rw [List.find?_cons_of_pos (by simpa using ha)] at hx
        obtain rfl := Option.some.inj hx
        exact ⟨b, by rw [List.find?_cons_of_pos (by simpa [hp] using ha)], h.1⟩
      · rw [List.find?_cons_of_neg (by simpa using ha)] at hx
        rw [List.find?_cons_of_neg (by simpa [hp] using ha)]
        exact ih m h.2 hx

/-- Events keep a path's session, but for the events it holds. -/
theorem Events.session {s t : State} (h : Events s t) {p : Path} {x : Session} (hx : s.session? p = some x) :
    ∃ y, t.session? p = some y ∧ y.quiet = x.quiet := by
  have e := congrArg (fun z : State => z.tosen.sessions) h.quiet
  exact find_quiet p _ _ e x hx

theorem session_onSession (s : State) (p : Path) (f : Session → Session) (h : ∀ y, (f y).path = y.path) :
    (s.onSession p f).session? p = (s.session? p).map f := by
  unfold State.session? State.onSession
  simp only
  generalize s.tosen.sessions = l
  induction l with
  | nil => rfl
  | cons y r ih =>
    unfold onFirst
    by_cases hy : y.path = p
    · have hf : (f y).path = p := (h y).trans hy
      simp [hy, hf]
    · simp [hy, ih]

/-- The state in which a command's own part acts: its request is being executed. -/
def State.begun (v : State) (p : Path) (q : TReq) (rest : List TReq) : State :=
  v.onSession p (fun y => { y with queue := rest, running := some q, began := v.now })

theorem agree_begun (v : State) (p : Path) (q : TReq) (rest : List TReq) : Agree v (v.begun p q rest) :=
  agree_onSession v p _ (fun y => by simp only [Session.still])

theorem events_checks {u v : State} (h : Events u v) {x y : Session} (hy : y.quiet = x.quiet) (q : TReq) (n : Nat) (w : Bool)
    (perm : Perm) : v.checks y q n w perm = u.checks x q n w perm := by
  have hg : v.glb = u.glb := h.glb
  have hf : v.fuse = u.fuse := h.fuse
  have hd : y.dom = x.dom := quiet_dom hy
  have hv : y.ver = x.ver := quiet_ver hy
  have hp : v.permFail q.opcode x.dom perm = u.permFail q.opcode x.dom perm := by
    have h1 : v.isoLock = u.isoLock := by unfold State.isoLock; rw [hf]
    have h2 : ∀ p, v.portShared p = u.portShared p := fun p => by unfold State.portShared State.prov; rw [hf]
    have h3 : ∀ p, v.portDom p = u.portDom p := fun p => by unfold State.portDom State.prov; rw [hf]
    unfold State.permFail
    rw [h1]
    cases perm <;> simp only [h2, h3]
  simp only [State.checks, hv, hp, hg, hd]

theorem skipUndefined_stop (s : State) (p : Path) (n : Nat) (y : Session) (hy : s.session? p = some y)
    (hq : (y.queue.head?.all (fun r => opDefined r.opcode)) = true) : s.skipUndefined p n = s := by
  cases n with
  | zero => rfl
  | succ n =>
    unfold State.skipUndefined
    simp only [hy]
    split
    · next q rest _ h =>
      rw [h] at hq
      simp only [List.head?_cons, Option.all_some] at hq
      simp only [hq, if_true]
    · rfl

/-- A request answered while it executes: the session is free, and the reply is kept. -/
theorem answer_answered (s : State) (p : Path) (y : Session) (q : TReq) (st t0 : Nat) (fs : List Nat) (hy : s.session? p = some y)
    (hp : y.path = p) (hq : (y.queue.head?.all (fun r => opDefined r.opcode)) = true) :
    Agree s (s.answer y q st t0 fs) ∧ (s.answer y q st t0 fs).Answered p q st fs := by
  refine ⟨agree_answer s y q st t0 fs, ?_⟩
  subst hp
  obtain ⟨z, hz, hzy⟩ := (events_sendReply s y q y.gen st 0 t0 fs).session hy
  have hz' : (s.reply1 y q st t0 fs).session? y.path =
      some { z with running := none, cache := ({ seq := q.seq, began := t0, opcode := q.opcode, status := st, fields := fs } :: z.cache).take 16 } := by
    unfold State.reply1
    simp only
    refine (session_onSession _ _ _ ?_).trans ?_
    · exact fun _ => rfl
    · rw [hz]; rfl
  have hzq : z.queue = y.queue := quiet_queue hzy
  unfold State.answer
  rw [skipUndefined_stop _ _ _ _ hz' (by simp only [hzq]; exact hq)]
  exact ⟨_, t0, hz', rfl, rfl⟩

theorem find_path {s : State} {p : Path} {y : Session} (h : s.session? p = some y) : y.path = p := by
  have := List.find?_some h
  simpa using this

theorem head_tail {l : List TReq} {q : TReq} (h : l.head? = some q) : l = q :: l.tail := by
  cases l with
  | nil => simp at h
  | cons a r => simp only [List.head?_cons, Option.some.injEq] at h; simp [h]

/-- A command whose own part answers it: the state it leaves, and its reply. -/
theorem tosenRun_replies {u : State} {p : Path} {x : Session} {q : TReq} {op n : Nat} {perm : Perm} (h : Issued u p x q op n perm)
    {body : State → Nat → Answer × State} {st : Nat} {fs : List Nat} {s' : State}
    (hb : body (u.begun p q x.queue.tail) x.dom = (.reply st fs, s'))
    (hs : ∀ y, (u.begun p q x.queue.tail).session? p = some y → ∃ z, s'.session? p = some z ∧ z.quiet = y.quiet) :
    Agree s' (u.tosenRun p op n false perm body) ∧ (u.tosenRun p op n false perm body).Answered p q st fs := by
  have hbegun : (u.begun p q x.queue.tail).session? p = some { x with queue := x.queue.tail, running := some q, began := u.now } := by
    have := session_onSession u p (fun y => { y with queue := x.queue.tail, running := some q, began := u.now }) (fun _ => rfl)
    rw [h.session] at this
    exact this
  obtain ⟨z, hses, hz⟩ := hs _ hbegun
  have e : u.tosenRun p op n false perm body = s'.answer z q st (if st = 0 then u.now else 0) fs := by
    unfold State.tosenRun
    have hq := head_tail h.head
    generalize x.queue.tail = rest at hq hb
    simp only [h.runs, Bool.not_true, Bool.false_eq_true, if_false, h.session, h.idle, hq, h.names, h.room, ne_eq,
      not_true_eq_false, Bool.or_self, decide_false, h.passes]
    unfold State.begun at hb
    simp only [hb, hses]
  have hzq : z.queue = x.queue.tail := quiet_queue hz
  rw [e]
  exact answer_answered s' p z q st _ fs hses (find_path hses) (by rw [hzq]; exact h.behind)

/-- A command that replies later: the state it leaves, and its request being executed. -/
theorem tosenRun_later {u : State} {p : Path} {x : Session} {q : TReq} {op n : Nat} {perm : Perm} (h : Issued u p x q op n perm)
    {body : State → Nat → Answer × State} {s' : State}
    (hb : body (u.begun p q x.queue.tail) x.dom = (.later, s')) : u.tosenRun p op n false perm body = s' := by
  unfold State.tosenRun
  unfold State.begun at hb
  have hq := head_tail h.head
  generalize x.queue.tail = rest at hq hb
  simp only [h.runs, Bool.not_true, Bool.false_eq_true, if_false, h.session, h.idle, hq, h.names, h.room, ne_eq,
    not_true_eq_false, Bool.or_self, decide_false, h.passes, hb]

/-- What a command leaves for the end of its step, when it frees no slot of a cistern and asks for no change of flow control. -/
theorem run_settled (s : State) (dt : Nat) (f : State → State) (h : (s.elapse dt).Settled)
    (hd : (f (s.elapse dt)).ports.pfcDue = []) (hc : ((f (s.elapse dt)).led.chains.all (fun e => !e.2.freed)) = true) :
    s.run dt f = .next (State.keepAll (s.elapse dt) ((f (s.elapse dt)).flushHalf.stepFlush.noteQuality (s.elapse dt).quality)) := by
  unfold State.run State.runWith
  simp only [h.alive, Bool.false_eq_true, if_false, settled_flush h, ledFlush_none _ hc, pfcFlush_none _ hd]

/-- The whole of a command whose reply ends it: time passes, its own part acts as `eff`, its reply goes out, and nothing else
changes. `body` is what the command's row gives `tosenRun`, `w` what the state is to be, and `hf` unfolds the row. -/
theorem run_replies {s : State} {dt : Nat} {p : Path} {x : Session} {q : TReq} {op n : Nat} {perm : Perm}
    (h : Issued (s.elapse dt) p x q op n perm) (st : Nat) (fs : List Nat) (w : State) (perms : State → Perm)
    (body : State → State → Nat → Answer × State) (eff : State → State) {o : Out}
    (hf : o = s.run dt (fun s => s.tosenRun p op n false (perms s) (body s)))
    (hperm : perms (s.elapse dt) = perm)
    (hb : ∀ b, Agree (s.elapse dt) b → body (s.elapse dt) b x.dom = (.reply st fs, eff b))
    (he : ∀ b, Agree (s.elapse dt) b → Agree w (eff b))
    (hs : ∀ b y, Agree (s.elapse dt) b → b.session? p = some y → ∃ z, (eff b).session? p = some z ∧ z.quiet = y.quiet)
    (hw : State.keepAll (s.elapse dt) w = w) (hd : w.ports.pfcDue = []) (hc : (w.led.chains.all (fun e => !e.2.freed)) = true) :
    ∃ t, o = .next t ∧ Agree w t ∧ t.Answered p q st fs := by
  have ha := agree_begun (s.elapse dt) p q x.queue.tail
  have hr := tosenRun_replies h (hb _ ha) (fun y hy => hs _ y ha hy)
  have hw' := he _ ha
  generalize eff ((s.elapse dt).begun p q x.queue.tail) = s' at hr hw'
  have hk := hw'.trans hr.1
  refine ⟨_, by rw [hf]; exact run_settled s dt _ h.settled (by simp only [hperm, hk.pfcDue, hd]) (by simp only [hperm, hk.led]; exact hc), ?_⟩
  simp only [hperm]
  generalize (s.elapse dt).tosenRun p op n false perm (body (s.elapse dt)) = r at hr hk
  have hfin := events_finish r (s.elapse dt).quality
  generalize (r.flushHalf.stepFlush.noteQuality (s.elapse dt).quality) = r' at hfin
  have ha : Agree w r' := hk.trans hfin.agree
  have hk : (State.keepAll (s.elapse dt) r').still = State.keepAll (s.elapse dt) r'.still := rfl
  have hkw : State.keepAll (s.elapse dt) w.still = (State.keepAll (s.elapse dt) w).still := rfl
  refine ⟨⟨?_, ha.bytes, ha.places⟩, ?_⟩
  · rw [hk, ha.still, hkw, hw]
  · obtain ⟨y, began, hy, hrun, hc⟩ := hr.2
    obtain ⟨z, hz, hzy⟩ := hfin.session hy
    exact ⟨z, began, hz, (quiet_running hzy).trans hrun, by rw [quiet_cache hzy]; exact hc⟩

/-- The whole of any other command of the units: time passes, it acts, and what it leaves changes no further than its reports do. -/
theorem run_acts (s : State) (dt : Nat) (f : State → State) (h : (s.elapse dt).Settled)
    (hd : (f (s.elapse dt)).ports.pfcDue = []) (hc : ((f (s.elapse dt)).led.chains.all (fun e => !e.2.freed)) = true) :
    ∃ t, s.run dt f = .next t ∧ Events (State.keepAll (s.elapse dt) (f (s.elapse dt))) t := by
  refine ⟨_, run_settled s dt f h hd hc, ?_⟩
  have hfin := events_finish (f (s.elapse dt)) (s.elapse dt).quality
  generalize ((f (s.elapse dt)).flushHalf.stepFlush.noteQuality (s.elapse dt).quality) = r at hfin
  generalize f (s.elapse dt) = v at hfin
  have hk : ∀ x, (State.keepAll (s.elapse dt) x).quiet = State.keepAll (s.elapse dt) x.quiet := fun _ => rfl
  exact ⟨by rw [hk, hk, hfin.quiet], hfin.bytes, hfin.places⟩

end Sys2Proof.Machine
end

