-- ==== Sys2Proof/Tests/Builders.lean ====
section
/-! SUPPORT. Small states that the tests and the witnesses start from, and the conditions of `Safety` as checks that evaluate. -/
namespace Sys2Proof.Tests
open Sys2Proof.Machine
set_option Elab.async false
set_option maxRecDepth 4000

/-- Firmware runs in a mode, with every fuse blank: every resource is TD0's. -/
def inMode (m : Mode) : State := { State.reset with glb.mode := m, pw.bootDue := false }
/-- The device of order code B: P16 to P23, half the cores and two stacks are absent. -/
def bDev (m : Mode) : State := { inMode m with fuse.orderCode := 0x0B }
/-- A request with `n` fields. -/
def req (op n : Nat) : TReq := { seq := 2, opcode := op, ver := 0x23, len := 16 + 8 * n, carried := 16 + 8 * n }
/-- A session of TD0 on the management port with that request waiting. -/
def sess (op n : Nat) : Session := { path := .mp 1, dom := 0, gen := 1, ver := 0x23, queue := [req op n] }
/-- The same with the request executing. -/
def busy (op n : Nat) : Session := { sess op n with queue := [], running := some (req op n) }
/-- The same of TD1. -/
def req1 (op n : Nat) : TReq := { req op n with dom := 1 }
def sess1 (op n : Nat) : Session := { sess op n with dom := 1, queue := [req1 op n] }
def ask (s : State) (op n : Nat) : State := { s with tosen.sessions := [sess op n] }
def wait (s : State) (op n : Nat) : State := { s with tosen.sessions := [busy op n] }
/-- The same with the host's link up and PF0 open. -/
def linked (m : Mode) : State :=
  { inMode m with pcie.linkA := { up := true, speed := 6, width := 16, active := 16 }, pcie.fns := [(0, { mse := true, bme := true })] }
def ready0 (m : Mode) : State := { linked m with glb.fns := [(0, { ready := true })] }
/-- A map of two domains: TD1 has PF1, P1 and core 1, and TD0 the rest; each with ceilings of pages, keys, buffers and windows. -/
def map2 : Bytes :=
  let r := le (2 ^ 62 + 4 * 2 ^ 54 + 1024 * 2 ^ 37 + 16 * 2 ^ 22 + 1000) 8
  le 0x31 8 ++ r ++ r ++ le 0 112 ++ le 0x4140 8 ++ le 0 4 ++ le 1 4 ++ le 0 88 ++ le 0x1110 2 ++ le 0 94
/-- The map is burned and in force. -/
def mapped (m : Mode) : State :=
  { linked m with
    fuse.map := map2, fuse.live := map2
    pcie.fns := [(0, { mse := true, bme := true }), (4096, { mse := true, bme := true })] }
/-- A TOD_IN message that labels second `n`. -/
def tod (n : Nat) : Bytes := let b := [0xC3#8, 0x5E#8, 0x01#8, 0x14#8] ++ le n 8 ++ le 0 6; b ++ le (crc16 (slice b 2 16)) 2
/-- Port 5 is the PTP receiver and port 6 a transmitter. -/
def ptp (profile : Nat) : State :=
  { linked .service with tb.ptp := { profile := profile, receiver := 5, transmitters := [6] }, ports.ports := [(5, { state := .up, mode := 1 }), (6, { state := .up, mode := 1 })] }
/-- The servo steers to PTP. -/
def servo (v : Servo) : State := { linked .service with tb.servo := v, tb.ref := 4 }
/-- TD0's chain is open, with a cistern. -/
def ledger (m : Mode) : State :=
  { linked m with led.chains := [(0, { isOpen := true, sizeKib := 65536, sizeNextKib := 65536, epoch := { immediate := true } })] }
/-- The open epoch has been closed and not yet rooted. -/
def closed : State := { ledger .service with led.chains := [(0, { (ledger .service).chain 0 with closing := [({ closedAt := 0 }, none)] })] }
def dueNow : State := { ledger .service with led.chains := [(0, { (ledger .service).chain 0 with closing := [({ closedAt := 0 }, some { kind := 0, stop := 5, nextStart := 5, quality := 0, mode := 2, utc := 0, leap := 3, leapNs := 0, ringVer := 0, quota := 409 })] })] }
/-- A slot that ends a checkpoint waits in TD0's cistern, with a buffer posted for it and its completion ring as given. -/
def exports (cq : Ring) : State :=
  { ledger .service with
    led.chains := [(0, { (ledger .service).chain 0 with stream := [{ chain := 0, num := 0, data := zeros 32, ends := true }] })]
    rings.rings := [(rkey 0 3, cq), (rkey 0 4, { enable := true, kind := 0, engine := 6, cq := 3, fetched := [{ idx := 0, len := 64 }] })] }
/-- Port 0 is as given. -/
def port0 (x : PortSt) : State := { linked .service with ports.ports := [(0, x)] }
/-- The same with the Ledger's chain open. -/
def rxOn (x : PortSt) : State := { ledger .service with ports.ports := [(0, x)] }
/-- A minimum frame of an EtherType, with its FCS; its fields behind are 0x0001. -/
def eth (t : Nat) : Bytes := let b := zeros 12 ++ be t 2 ++ be 1 2 ++ be 1 2 ++ zeros 42; b ++ le (fcs b) 4
/-- A frame that waits for two stages of a deep table that holds its key. -/
def waitsDeep : State :=
  { port0 { state := .up } with
    pl.frames := [{ port := 0, phase := 1, misses := [0, 1] }]
    pl.cur := { profiles := [(0, { stages := [{ table := 5, key := [(0, 1)] }, { table := 5, key := [(0, 1)] }] })]
                tables := [(5, { dom := 0, deep := true, log2 := 8, ovf := [(0, { key := zeros 32, result := 5 })] })] } }
/-- The same of one stage, whose key is in no entry. -/
def waitsNone : State :=
  { port0 { state := .up } with
    pl.frames := [{ port := 0, phase := 1, misses := [0] }]
    pl.cur := { profiles := [(0, { stages := [{ table := 5, key := [(0, 1)], miss := 0x1A }] })]
                tables := [(5, { dom := 0, deep := true, log2 := 8 })] } }
/-- A PFC frame that pauses priority 1. -/
def pfcIn : Bytes := let b := zeros 12 ++ be 0x8808 2 ++ be 0x0101 2 ++ be 2 2 ++ be 0 2 ++ be 7 2 ++ zeros 40; b ++ le (fcs b) 4
/-- Table 5 holds the key 01 02 03 04, with result 1. -/
def tab0 : MTable := { dom := 0, log2 := 8, keyLen := 4, ovf := [(0, { key := slice [1, 2, 3, 4] 0 32, result := 1 })] }
def tab : State := { linked .service with pl.cur.tables := [(5, tab0)] }
/-- The same with a bucket and the overflow store full, and nothing evicted. -/
def tabF : MTable := { tab0 with ovf := (List.range 16384).map (fun i => (i, { key := [], result := 1 })), slots := (List.range 4).map (fun i => (4 * tab0.bucket (padKey [9]) + i, { key := [], result := 1 })) }
def tabFull : State := { linked .service with pl.cur.tables := [(5, tabF)] }
/-- The same table with the key 09 in its bucket. -/
def tab9 : MTable := { tab0 with slots := [(4 * tab0.bucket (padKey [9]), { key := padKey [9], result := 7 })] }
/-- A change of table 5 waits for its commit; a learn of it by port 2; and an earlier frame that may still ask for one. -/
def commits (op : Nat) (o : TblOp) : State := { tab with pl.pend := [{ path := .mp 1, opcode := op, ops := [o], at_ := 0 }], pl.cur.profiles := [(0, { stages := [{ table := 5, key := [(0, 4)], learn := some ([(0, 4)], 1) }] })] }
def learn2 (key : Bytes) (r : Nat) : Learn := { table := 5, key := key, result := r, port := 2, at_ := 1, stamp := 1 }
def learner : Frame := { port := 0, pv := [1, 2, 3, 4] }
/-- A Spout entry of TD0: key 0, one copy to P0. -/
def spoutB : Bytes := zeros 32 ++ [0x80, 1, 1, 0, 0] ++ zeros 27
def tabSpout : State := { tab with pl.cur.spout := [(4 * Nat.mod (crc32c 0xFFFFFFFF (zeros 32)) 16384, spoutOf spoutB)] }
/-- Queue 9 of port 0 holds a frame that its scheduler may send. -/
def txq : State :=
  { port0 { state := .up, mode := 1 } with
    tm.queues := [(9, { cfg := { kind := 1, port := 0 }, frames := [{ data := zeros 60, dom := 0 }] })]
    tm.scheds := [(0, { doms := [0], lists := [(1, [9])] })] }
/-- The same queue at the host's scheduler, for the RDMA engine. -/
def hostq : State :=
  { port0 { state := .up, mode := 1 } with
    tm.queues := [(9, { cfg := { kind := 2, ring := 0x3FF }, frames := [{ data := zeros 60, dom := 0 }] })]
    tm.scheds := [(hostSched, { doms := [0], lists := [(1, [9])] })] }
/-- A read of a frame to transmit is out. -/
def txr : State :=
  { linked .service with
    pcie.reads := [{ tag := 7, fn := 0, what := 2, ring := rkey 0 4, sub := 5, addr := 0, len := 20, got := zeros 9 }]
    rings.rings := [(rkey 0 4, { enable := true, jobs := [{ first := 5, count := 2 }] })] }
/-- The same read of a frame of one descriptor, for queue 9. -/
def txr1 : State :=
  { txr with
    tm.queues := [(9, { cfg := { kind := 1, port := 0 } })]
    rings.rings := [(rkey 0 4, { enable := true, jobs := [{ first := 5, count := 1 }], fetched := [{ idx := 5, queue := 9, flags := 2 }] })] }
/-- The host's scheduler serves queue 9 for ring 3 of PF0, which has a buffer. -/
def hostr : State :=
  { ready0 .service with
    dma.queueChan := [(9, 1)]
    rings.rings := [(rkey 0 3, { enable := true, kind := 1, log2 := 4, fetched := [{ idx := 0, addr := 4096, len := 76 }] })]
    tm.queues := [(9, { cfg := { kind := 2, ring := 3 }, frames := [{ data := zeros 60, dom := 0 }] })]
    tm.scheds := [(hostSched, { doms := [0], lists := [(1, [9])] })] }
/-- What the scheduler of a port picks of these. -/
def picks (s : State) (n : Nat) : State := match s.pickDom n 65536 with | some x => x.2.2 | none => {}
/-- The frame of queue 9 would run into a held release. -/
def held0 : Replica := { port := 0, target := 5, start := 4, tag := 0, frame := {}, queue := 9, cls := 0, notarise := false, lateSend := false, dom := 0 }
def txqHeld : State := { txq with slu.store := [held0] }
/-- A replica of port 0 whose instant has come. -/
def rep0 : Replica := { port := 0, target := 9, start := 9, tag := 4, frame := { data := zeros 60 }, queue := 9, cls := 0, notarise := false, lateSend := false, dom := 0 }
def slq (v : PState) (x : PortSt) : State :=
  { port0 { x with state := v } with slu.store := [rep0], tm.queues := [(9, { cfg := { kind := 1, port := 0 } })] }
/-- A thread that may issue, privileged, at pc 16. -/
def thrWith (x : Thread) : Thread :=
  { x with pc := 16, state := (if x.state = .inactive then .ready else x.state), regs := (if x.regs = [] then [(5, 9), (6, 256), (7, 3)] else x.regs) }
def thr1 : Thread := thrWith {}
/-- The same in U, with bounds for its code and none for its data. -/
def thrU (x : Thread) : Thread := { thrWith x with priv := false, ucodeBase := 16, ucodeLimit := 20, udataBase := 512, tvec := 64 }
/-- Thread 2 of core 1 runs. -/
def runs (x : Thread) : State := { linked .service with cores.cores := [(1, { state := .running, threads := [(2, x)] })] }
def run1 (x : Thread) : State := runs (thrWith x)
def run1U (x : Thread) : State := runs (thrU x)
def run2 (x : Thread) : State := { run1 x with cores.cores := [(1, { state := .running, threads := [(0, { state := .waiting, blocked := some (.wfe 32 5) }), (2, thrWith x)] })] }
def runLast (x : Thread) : State := { run1 x with cores.cores := [(1, { state := .running, threads := [(2, thrWith x), (0, { state := .ready })] })] }
/-- The same with ring 3 of PF0. -/
def post1 (r : Ring) : State := { run1 {} with rings.rings := [(rkey 0 3, { r with enable := true })] }
/-- The word of a device-facing instruction: destination 5, two sources, format D; or an immediate, format C. -/
def dW (f3 f7 rs1 rs2 : Nat) : Nat := 0x5B + 5 * 128 + f3 * 2 ^ 12 + rs1 * 2 ^ 15 + rs2 * 2 ^ 20 + f7 * 2 ^ 25
def cW (f3 imm rs1 : Nat) : Nat := 0x5B + 5 * 128 + f3 * 2 ^ 12 + rs1 * 2 ^ 15 + imm * 2 ^ 20
/-- The same state with a word at pc 16 of core 1. -/
def word (w : Nat) (s : State) : State := { s with ram := mwrites s.ram (localAt 1 16) (le w 4) }
/-- TD0 has a cistern page for it. -/
def paged1 (x : Thread) : State := { run1 x with rm.doms := [(0, { dataPages := 8, mapped := [(0, 1)] })] }
/-- A word with destination 5 and sources 7 and 6: of `thr1`, the values 3 and 256. -/
def w576 : Nat := 5 * 128 + 7 * 2 ^ 15 + 6 * 2 ^ 20
/-- Channel 3 from thread 2 of core 1 to thread 0 of core 5, and the other way. -/
def chS : Channel := { dom := 0, recv := (5, 0), senders := [(1, 2)], cap := 2, off := 64 }
def chR : Channel := { chS with recv := (1, 2), senders := [(5, 0)] }
def ch (x : Thread) (y : Channel) : State := { run1 x with cores.chans := [(3, y)] }
/-- A host read of ring 3 of PF0 that is out: what for, and its length. -/
def hr (what len : Nat) : HRead := { tag := 7, fn := 0, what := what, ring := rkey 0 3, addr := 0, len := len }
def idx (r : Ring) (what len : Nat) : State := { linked .service with rings.rings := [(rkey 0 3, { r with enable := true })], pcie.reads := [hr what len] }
/-- A receive buffer descriptor of 2048 bytes. -/
def rxDesc : Bytes := le 0x10000 8 ++ le 0 8 ++ le 9 4 ++ le 2048 4 ++ le 2 1 ++ zeros 7
/-- Ring 3 of PF0, a DMA ring with these descriptors. -/
def dr (ds : List Desc) : Ring := { enable := true, engine := 2, log2 := 4, fetched := ds }
def dring (r : Ring) : State := { run1 {} with rings.rings := [(rkey 0 3, r)] }
/-- Flow 0 of TD0 as given, and thread 2 of core 1 with subscription 3 to its class. -/
def wsub : Sub := { kind := 1, mask := 1, region := 1024 }
def flow0 (x : Thread) (f : Flow) : State := { run1 x with rm.flows := [(0, f)] }
def it0 : Item := { seq := 0, at_ := some (1, 2, 3, 0) }
/-- TD0 has pages. -/
def pages (x : Thread) (m : List (Nat × Nat)) : State := { run1 x with rm.doms := [(0, { dataPages := 8, mapped := m })] }
def ctxs (k : Nat) (x : Ctx) : State := { linked .service with rm.ctxs := [(k, x)] }
/-- Entry 0 of PF0's window table. -/
def winS (w : Win) : State :=
  { linked .service with pcie.fns := [(0, { mse := true, bme := true, wins := [(0, w)] })], rm.doms := [(0, { dataPages := 8, mapped := [(0, 1)] })] }
/-- The address of PF0 on port 5, and queue pair 9 of it, which works. -/
def gid0 : Nat := 0xFFFF0A000001
def qp9 : Qp := { fn := 0, dom := 0, sendRing := rkey 0 4, recvRing := rkey 0 3, queue := 9, state := .rts, attr := { port := 5, dip := gid0 } }
/-- A packet to queue pair 9 with this body. -/
def rb (op psn : Nat) (more : Bytes) : Bytes := bth op false 0 (2 ^ 20 + 9) false psn ++ more
def rpkt (b : Bytes) : Frame := { data := State.reset.roceFrame qp9 b, port := 5 }
def rnet (f : List Frame) (q : Qp) : State := { linked .service with rdma.gids := [(80, (gid0, 0))], rdma.qps := [(9, q)], rdma.intake := [(0, f)] }
/-- The same with a receive buffer in ring 3; with a region at index 9 of TD0's first page. -/
def rbuf (d : Desc) (f : List Frame) (q : Qp) : State := { rnet f q with rings.rings := [(rkey 0 3, { enable := true, fetched := [d] })] }
def rreg (m : Mr) (f : List Frame) (q : Qp) : State := { rnet f q with rdma.mrs := [(9, m)], rm.doms := [(0, { dataPages := 8, mapped := [(0, 1)] })] }
/-- A region of a cistern with every right; what follows the BTH of an access to it. -/
def mrc : Mr := { fn := 0, pd := 0, space := 1, addr := 128, len := 64, va := 256, rights := 15, key := 9 * 256 + 5 }
def reach (va len : Nat) : Bytes := be va 8 ++ be (9 * 256 + 5) 4 ++ be len 4
def rreq (op psns : Nat) : RReq := { owner := .stor 0 0, op := op, first := some 0, psns := psns, len := 4096 }
/-- The region at index 9, with key byte 5. -/
def mr0 : Mr := { fn := 0, pd := 1, space := 0, addr := 0, len := 64, va := 0, rights := 1, key := 9 * 256 + 5 }
/-- Rings 3 and 4 of PF0 may be the send and receive rings of a queue pair. -/
def rqr : State := { linked .service with rings.rings := [(3, { enable := true, engine := 3 }), (4, { enable := true, kind := 1, engine := 3 })] }
/-- An outbound IPsec association at handle 7, with queue 9. -/
def esp7 : EspSa := { dom := 0, outbound := true, spi := 5, src := 1, dst := 2, key := 3, salt := 4, esn := false, seq := 1 }
def sec0 : State := { linked .service with sec.esp := [(7, esp7)], tm.queues := [(9, { cfg := { kind := 1 } })] }
/-- MACsec on port 5, with a transmit association of AN 1. -/
def ms5 : MsPort := { on := true, scs := [(0, { sas := [(1, { key := 1, ssci := 2, salt := 3, pn := 4 })] })] }
def msec : State := { linked .service with sec.ports := [(5, ms5)] }
/-- A change of a command waits. -/
def chg (op : Nat) (o : SecOp) : SecPend := { path := .mp 1, opcode := op, op := o }
def pend (op : Nat) (o : SecOp) : State := { sec0 with sec.ports := [(5, ms5)], sec.pend := [chg op o] }
/-- PF1 presents a storage function to TD1; queues of TD1 of both kinds. -/
def stor1 : State :=
  let m := map2.set 0x89 0x51
  { mapped .service with fuse.map := m, fuse.live := m, tm.queues := [(16390, { cfg := { kind := 1 } }), (16391, { cfg := { kind := 2 } })] }
/-- A target on P1: its 25 values. -/
def tgt : List Nat := [1, 16390, 16391, 7, 1, 2, 0, 0, 0, 64, 0, 0, 0, 0, 0, 4096, 16, 1, 0, 14, 7, 7, 16, 9, 4096]
def ns1 : Ns := { blk := 512, cap := 4096, state := 1, targets := [{ targetOf tgt with online := true, qp := 9 }] }
def flush0 : StCmd := { id := 0, key := rkey 4096 3, idx := 0, ns := nsKey 4096 1, op := 0, fua := false, va := 0, len := 0 }
/-- A map of TD0 alone, with PF0. -/
def map1 : Bytes := le 0x11 8 ++ le (2 ^ 62) 8 ++ zeros 120 ++ [0x40]
/-- A map is staged in Factory. -/
def stagedS (m : Bytes) : State := { inMode .factory with fuse.staged := m }
/-- Management port up, its address 5, in Factory. -/
def mpUp (m : Mode) : State := { linked m with ports.mp := { up := true, speed := 1000 }, fuse.mpMac := 5 }
/-- A frame on MP from address 1 with segment flags, index and data. -/
def seg (fl idx : Nat) (d : Bytes) : Bytes :=
  padFcs (be 5 6 ++ be 1 6 ++ be 0x88B5 2 ++ be 0x5453 2 ++ le 1 1 ++ le fl 1 ++ be idx 2 ++ be d.length 2 ++ d)
/-- A request of an opcode, sequence and generation, of TD0; a session of address 1 that expects sequence 2; a partial packet of its. -/
def pk (op seq gen : Nat) : Bytes := tosenPacket 0x23 0 op seq gen 0 0 []
def se1 : Session := { path := .mp 1, dom := 0, gen := 1, ver := 0x23, want := 20 }
def mps (x : Session) : State := { mpUp .factory with tosen.sessions := [x] }
def part1 : Partial := { mac := 1, nextIdx := 1, data := zeros 16, at_ := 0 }
def mpp : State := { mpUp .factory with tosen.partials := [part1] }
/-- A packet of opcode 3, sequence 2, generation 1. -/
def pkt : Bytes := tosenPacket 0x23 0 3 2 1 0 0 []
/-- A manifest of one block with an empty public key, release 7 and security version 2. -/
def man1 : Bytes :=
  le 0x4D414E49 4 ++ le 0x10 1 ++ le 0 1 ++ le 7 2 ++ le 2 2 ++ le 1 2 ++ le 0x2460 2 ++ le 0 2 ++ le 1 4 ++ le 0 4 ++ le 8 4 ++ zeros 532
/-- The key of that manifest is in slot 0. -/
def key1 : KeySlot := { hash := ofLe (sha384 []), programmed := 255 }
def slotS (x : Slot) : Slot := { x with magic := 0x53454C53, format := 0x10, sequence := 1, manifest := man1 }
/-- The boot ROM, with the image in slot B superseded. -/
def romS (b : Boot) : State := { State.reset with fuse.keys := [key1, {}, {}, {}], boot := { b with slotB := slotS { state := 0xFF000000 } } }
def tryB (b : Boot) : State := { romS { b with trying := some 1 } with pw.bootDue := false }
/-- Recovery, its window open and a version agreed. -/
def recS (b : Boot) : State := { linked .recovery with boot := { b with window := true, recAgreed := 0x10 } }
/-- The bytes of a transfer have all come but the last 8, and are those of the manifest. -/
def recM (b : Boot) : State := { recS { b with recState := 1 } with fuse.keys := [key1, {}, {}, {}], ram := mwrites [] (recAt 0) man1 }
/-- A management port up in Recovery. -/
def recMp : State := { recS {} with ports.mp := { up := true, speed := 1000 } }
/-- An image update of the session waits in slot B. -/
def upd (b : Boot) : State := { linked .service with fuse.keys := [key1, {}, {}, {}], boot := { b with updating := some (.mp 1, 1), updLen := 131072, updTarget := 1, markedValid := true } }
/-- A Windlass session is open, and thread 2 of core 1 is as given. -/
def prb (x : Thread) (d : Dbg) : State := { run1 x with dbg := { d with connected := true } }
/-- The pins and rails as given, in Service. -/
def pw (x : Power) : State := { linked .service with pw := { x with bootDue := false } }
/-- Ring 3 of PF1, a receive ring whose one descriptor is being read. -/
def rx4096 (e : Nat) : State :=
  let r : Ring := { enable := true, engine := e, log2 := 4, host := 1 }
  { mapped .service with rings.rings := [(rkey 4096 3, r)], pcie.reads := [{ hr 1 32 with fn := 4096, ring := rkey 4096 3 }] }
/-- The map with PF1 a storage function. -/
def tenant (m : Mode) : State := { mapped m with fuse.map := map2.set 137 0x51#8, fuse.live := map2.set 137 0x51#8 }

/-! The conditions of `Safety`, as checks that evaluate. -/

def settledB (u : State) : Bool := !u.dead && u.ports.pfcDue == [] && u.ports.mp.tx == [] && u.led.chains.all (fun e => !e.2.freed)
    && u.slu.events.all (fun e => e.2.period == u.now / grid 20)
theorem settled_of {u : State} (h : settledB u = true) : u.Settled := by
  simp only [settledB, Bool.and_eq_true, beq_iff_eq, Bool.not_eq_true'] at h
  exact ⟨h.1.1.1.1, h.1.1.1.2, h.1.1.2, h.1.2, h.2⟩
def plainB (u : State) : Bool := settledB u && u.slu.events == [] && u.ports.halfDue == [] && u.dbg.steps == [] && u.dbg.stepWait == none
theorem plain_of {u : State} (h : plainB u = true) : u.Plain := by
  simp only [plainB, Bool.and_eq_true, beq_iff_eq] at h
  exact ⟨settled_of h.1.1.1.1, h.1.1.1.2, h.1.1.2, h.1.2, h.2⟩
def issuedB (u : State) (p : Path) (x : Session) (q : TReq) (op n : Nat) (perm : Perm) : Bool :=
  settledB u && u.firmware && decide (u.session? p = some x) && x.running == none && x.queue.head? == some q
    && x.queue.tail.head?.all (fun r => opDefined r.opcode) && q.opcode == op && u.checks x q n false perm == 0 && u.replyRoom p
theorem issued_of {u : State} {p : Path} {x : Session} {q : TReq} {op n : Nat} {perm : Perm} (h : issuedB u p x q op n perm = true) :
    Issued u p x q op n perm := by
  simp only [issuedB, Bool.and_eq_true, beq_iff_eq, decide_eq_true_eq] at h
  obtain ⟨⟨⟨⟨⟨⟨⟨⟨a, b⟩, c⟩, d⟩, e⟩, f⟩, g⟩, k⟩, l⟩ := h
  exact ⟨settled_of a, b, c, d, e, f, g, k, l⟩
def awaitsB (u : State) (p : Path) (x : Session) (q : TReq) (op : Nat) : Bool :=
  decide (u.session? p = some x) && x.running == some q && x.queue.head?.all (fun r => opDefined r.opcode) && q.opcode == op
theorem awaits_of {u : State} {p : Path} {x : Session} {q : TReq} {op : Nat} (h : awaitsB u p x q op = true) : Awaits u p x q op := by
  simp only [awaitsB, Bool.and_eq_true, beq_iff_eq, decide_eq_true_eq] at h
  exact ⟨h.1.1.1, h.1.1.2, h.1.2, h.2⟩
def fetchesB (u : State) (c t w : Nat) (x : Thread) : Bool :=
  plainB u && u.firmware && decide ((u.core c).state = .running) && decide (u.thr c t = x) && decide (x.state = .ready) && decide (x.loads = [])
    && decide (x.bad = []) && decide (u.dbg.bps = []) && decide (x.priv = true ∨ (x.ucodeBase ≤ x.pc ∧ x.pc + 4 ≤ x.ucodeLimit))
    && decide (x.pc + 4 ≤ 2 ^ 18) && decide (ofLe (mreads u.ram (localAt c x.pc) 4) = w)
    && decide ((u.core c).issue = none ∧ (u.core c).grant ((u.core c).slot % 32) = some t) && decide (u.mem.poison = [] ∧ u.mem.bad = [])
theorem fetches_of {u : State} {c t w : Nat} {x : Thread} (h : fetchesB u c t w x = true) : Fetches u c t w x := by
  simp only [fetchesB, Bool.and_eq_true, decide_eq_true_eq] at h
  obtain ⟨⟨⟨⟨⟨⟨⟨⟨⟨⟨⟨⟨a, b⟩, c⟩, d⟩, e⟩, f⟩, g⟩, k⟩, l⟩, m⟩, n⟩, o⟩, p⟩ := h
  exact ⟨plain_of a, b, c, d, e, f, g, k, l, m, n, o, p⟩
def probesB (u : State) (seq : Nat) : Bool :=
  plainB u && u.firmware && !u.dbg.deaf && u.dbg.connected && u.dbg.last.all (fun r => r.seq != seq)
theorem probes_of {u : State} {seq : Nat} (h : probesB u seq = true) : Probes u seq := by
  simp only [probesB, Bool.and_eq_true, Bool.not_eq_true'] at h
  obtain ⟨⟨⟨⟨a, b⟩, c⟩, d⟩, e⟩ := h
  exact ⟨plain_of a, b, c, d, fun r hr => by simpa [hr] using e⟩
def arrivesB (u : State) (fn cls n : Nat) (f : Frame) (b : Bytes) (q : Qp) : Bool :=
  plainB u && decide (u.glb.mode ≠ .lockdown) && !u.mute fn && decide (tget u.rdma.intake fn [] = [f]) && pktClass f == cls
    && (match roceOf f.data with
      | some (dip, ecn, d, true) => d == b && ecn != 3 && u.gidOk f.port dip q.dom
      | _ => false)
    && decide (n < 2 ^ 20 ∧ bthQpn b = 2 ^ 20 + n) && decide (u.qp? n = some q) && q.fn == fn && decide (q.state = .rts)
    && u.rdma.qpFree.all (fun x => x.num != n) && (u.ctxNeed (ctxKey 1 q.dom n)).1 && (u.ctx? (ctxKey 1 q.dom n)).all (fun x => x.parked.isEmpty)
theorem arrives_of {u : State} {fn cls n : Nat} {f : Frame} {b : Bytes} {q : Qp} (h : arrivesB u fn cls n f b q = true) :
    Arrives u fn cls n f b q := by
  simp only [arrivesB, Bool.and_eq_true, beq_iff_eq, decide_eq_true_eq, Bool.not_eq_true'] at h
  obtain ⟨⟨⟨⟨⟨⟨⟨⟨⟨⟨⟨⟨a, b1⟩, c⟩, d⟩, e⟩, g⟩, k⟩, l⟩, m⟩, o⟩, p⟩, r⟩, v⟩ := h
  refine ⟨plain_of a, b1, c, d, e, ?_, k, l, m, o, p, r, v⟩
  split at g
  · next dip ecn y hr =>
      simp only [Bool.and_eq_true, beq_iff_eq, bne_iff_ne, ne_eq] at g
      exact ⟨dip, ecn, by rw [hr, g.1.1], g.1.2, g.2⟩
  · cases g
theorem crc_lt (m : Bytes) : mapCrcOf m < 2 ^ 32 := BitVec.isLt _
theorem map_good {u : State} (h : u.fuse.mapCrc = mapCrcOf u.fuse.map) : u.mapGood = true := by simp [State.mapGood, h]
theorem map_bad {u : State} (h : mapCrcOf u.fuse.map ≠ u.fuse.mapCrc) : u.mapGood = false := by simp [State.mapGood, h]
/-- No fuse stands in the way of a burn where none is set. -/
theorem burn_free {u : State} {m : Bytes} (a : u.fuse.map = []) (h : u.fuse.mapCrc = 0) : u.burnBlocked m = false := by
  have b : u.lockFuse = false := by simp only [State.lockFuse, a]; decide
  simp [State.burnBlocked, a, b, h]
theorem be_length (n w : Nat) : (be n w).length = w := by simp [be, length_le]
/-- The length of a segment whose data reaches past the minimum frame. -/
theorem seg_length {fl idx : Nat} {d : Bytes} (h : 38 ≤ d.length) : (seg fl idx d).length = 26 + d.length := by
  simp [seg, padFcs, be_length, length_le, zeros]; omega
/-- Such a segment is a whole frame with a good FCS where its length is allowed, and its data fits in. -/
theorem seg_whole {fl idx n m : Nat} (h : 38 ≤ n) (k : 26 + n ≤ m) :
    64 ≤ (seg fl idx (zeros n)).length ∧ (seg fl idx (zeros n)).length ≤ m ∧
    (seg fl idx (zeros n)).drop ((seg fl idx (zeros n)).length - 4) =
      le (fcs ((seg fl idx (zeros n)).take ((seg fl idx (zeros n)).length - 4))) 4 := by
  have e : (zeros n).length = n := by simp [zeros]
  have l : (seg fl idx (zeros n)).length = 26 + n := by rw [seg_length (by omega), e]
  refine ⟨by omega, by omega, ?_⟩
  generalize hc : (be 5 6 ++ be 1 6 ++ be 0x88B5 2 ++ be 0x5453 2 ++ le 1 1 ++ le fl 1 ++ be idx 2 ++ be (zeros n).length 2 ++ zeros n) = b at *
  have s : seg fl idx (zeros n) = (b ++ zeros (60 - b.length)) ++ le (fcs (b ++ zeros (60 - b.length))) 4 := by rw [← hc]; rfl
  have k : (b ++ zeros (60 - b.length)).length = 22 + n := by
    have := l; rw [s] at this; simp [length_le] at this; simp; omega
  rw [l, s]
  simp [show 26 + n - 4 = (b ++ zeros (60 - b.length)).length by omega, -List.append_assoc]
theorem seg_room {fl idx n m : Nat} (h : 38 ≤ n) (k : m = n) : 26 + m ≤ (seg fl idx (zeros n)).length := by
  have e : (zeros n).length = n := by simp [zeros]
  rw [seg_length (by omega)]; omega

end Sys2Proof.Tests
end

