-- ==== Sys2Proof/Tests/Slice0.lean ====
section
/-! SUPPORT. The operand checks, values that the spec works out, and witnesses for the statements about the block as a whole. -/
namespace Sys2Proof.Tests
open Sys2Proof.Machine
set_option Elab.async false
set_option maxRecDepth 4000

/-! The premises of the statements about the block as a whole. -/

theorem witness_StepRunsTheFrontCommand : (∃ (c : Instr) (r : List Instr) (s : State), s.pending = c :: r) ∧ (∃ s : State, s.pending = []) :=
  ⟨⟨.pwrGoodFall 3, [.pwrGoodRise 0], { State.reset with pending := [.pwrGoodFall 3, .pwrGoodRise 0] }, rfl⟩, ⟨State.reset, rfl⟩⟩
/-- A command that is no pin's, of a domain that has no chain, while device reset is on. -/
theorem witness_DeviceResetHoldsTheBlock : ∃ s t : State, s.ResetClean ∧ s.pw.inReset = true ∧ step s = .next t :=
  ⟨{ State.reset with pw.inReset := true }, _, fun _ => rfl, rfl, rfl⟩
theorem witness_StoresStayCanonical : ∃ s t : State, s.ram ≠ [] ∧ Memory.wf s.ram = true ∧ step s = .next t :=
  ⟨{ State.reset with ram := mwrites [] (localAt 1 8) [7, 0, 9] }, _, by decide +kernel, by decide +kernel, rfl⟩
theorem witness_ResetStopsEveryCommand :
    (∃ (i : Instr) (s : State), pinRow i = false ∧ (s.elapse i.time).pw.inReset = true) ∧
    (∃ (i : Instr) (s : State), pinRow i = false ∧ (s.elapse i.time).dead = true ∧ ledgerRow i = false) :=
  ⟨⟨.bucketRefill 3, { State.reset with pw.inReset := true }, rfl, rfl⟩, ⟨.bucketRefill 3, { State.reset with pw.closing := true }, rfl, rfl, rfl⟩⟩
theorem witness_CommandsKeepFusesAndTime :
    ∃ i : Instr, pinRow i = false ∧ ledgerRow i = false ∧ fuseRow i = false ∧ timeRow i = false := ⟨.bucketRefill 3, rfl, rfl, rfl, rfl⟩
/-- Of majors 2.0 to 2.3 offered to the device, 2.3 is agreed (R412). -/
theorem witness_SessionCommands_version : agreeTosen 2 0 3 = .ok 0x23 := by rfl

/-! The operand checks of `WellFormed`: for each, commands that it refuses, and commands at the end of the range that pass. -/

theorem test_wf_ports : ([.txFrameComplete 0 24 0, .synceLockLoss 0 3 24, .deepCacheFill 0 3 0 4 false, .pauseTimerExpiry 0 3 8,
    .esmcPduReceived 0 3 16, .ptpManagementReceived 0 24, .receiveEvent 0 3 0 [] false (2 ^ 24) [], .receiveEvent 0 3 0 [] false 0 [2 ^ 48], .sluiceRelease 0 3 838862] : List Instr).all
      (fun i => !i.wellFormed) = true := by decide +kernel
theorem test_wf_ports_pass : ([.txFrameComplete 0 23 0, .deepCacheFill 0 23 0 3 false, .pauseTimerExpiry 0 23 7,
    .receiveEvent 0 23 0 [] false (2 ^ 24 - 1) [1, 0, 2, 0], .sluiceRelease 0 23 838861] : List Instr).all Instr.wellFormed = true := by decide +kernel
theorem test_wf_domains_cores : ([.epochRootFinal 0 16, .pipelineDispatch 0 1024, .ueReportPeriodEnd 0 17, .ageingSweep 0 16, .dryWellFault 0 100,
    .itemDelivery 0 100 0, .itemDelivery 0 0 8, .ackTimerExpiry 0 (2 ^ 20), .cisternWriteStored 0 true 100 0 0] : List Instr).all
      (fun i => !i.wellFormed) = true := by decide +kernel
theorem test_wf_domains_cores_pass : ([.epochRootFinal 0 15, .pipelineDispatch 0 16, .ueReportPeriodEnd 0 16, .dryWellFault 0 99,
    .itemDelivery 0 99 7, .ackTimerExpiry 0 (2 ^ 20 - 1), .cisternWriteStored 0 true 99 7 0] : List Instr).all Instr.wellFormed = true := by decide +kernel
theorem test_wf_functions_rings : ([.winDrained 0 32768 0, .winDrained 0 0 64, .descriptorFetch 0 0 1024 [], .doorbellWrite 0 0 3 9 0,
    .ringEnableWrite 0 0 3 (2 ^ 32), .pcieReadCompletion 0 16384 0 false true [], .pcieReadCompletion 0 0 1 false true [],
    .completionTimeout 0 16384, .latchingLoRead 0 0 (2 ^ 21) 4, .latchingLoRead 0 0 0x100 3, .latchingLoRead 0 0 0x102 4,
    .registerWrite 0 2 0 0x100 4 0, .winCtrlRegWrite 0 8 0 0, .winAddressWrite 0 0 0 3 0, .vfEnableWrite 0 0 65536 true true,
    .windowRequest 0 0 (2 ^ 36) 4 false false [], .windowRequest 0 0 0 4097 false false [], .windowRequest 0 0 0 2 true false [1],
    .expansionRomRead 0 (2 ^ 22) 1] : List Instr).all (fun i => !i.wellFormed) = true := by decide +kernel
theorem test_wf_functions_rings_pass : ([.winDrained 0 32767 63, .descriptorFetch 0 0 1023 [], .doorbellWrite 0 0 3 8 0,
    .ringEnableWrite 0 0 3 (2 ^ 32 - 1), .pcieReadCompletion 0 16383 3 false true [], .latchingLoRead 0 0 0x104 4, .registerWrite 0 1 0 0x100 4 0,
    .winCtrlRegWrite 0 7 63 0, .windowRequest 0 0 0 2 true false [1, 2], .expansionRomRead 0 (2 ^ 22 - 1) 1] : List Instr).all
      Instr.wellFormed = true := by decide +kernel
theorem test_wf_fields : ([.prsStatus 0 (.mp 1) (2 ^ 64), .timeSetUtc 0 (.mp 1) (2 ^ 63), .timeSetUtc 0 (.mp 1) (-2 ^ 63 - 1),
    .classRuleClear 0 (.mp 1) 0 (2 ^ 64), .spoutSeedSet 0 (.mp 1) (some (2 ^ 64)), .tmSlotsSet 0 (.mp 1) [0],
    .tmSlotsSet 0 (.mp 1) (List.replicate 16 (2 ^ 64)), .ctxShare 0 (.mp 1) [[0]], .sriovLimit 0 (.mp 1) [0], .portMapSet 0 (.mp 1) [] [],
    .tmBufferSet 0 (.mp 1) [] [] [] [] [], .timePtpConfig 0 (.mp 1) 0 0 0 0 0 0 0 0 0 0 [],
    .coreStart 0 (.mp 1) 0 0 0 (zeros 129)] : List Instr).all (fun i => !i.wellFormed) = true := by decide +kernel
theorem test_wf_fields_pass : ([.prsStatus 0 (.mp 1) (2 ^ 64 - 1), .timeSetUtc 0 (.mp 1) (-2 ^ 63), .tmSlotsSet 0 (.mp 1) (List.replicate 16 1),
    .ctxShare 0 (.mp 1) (List.replicate 16 [0, 0, 0, 0]), .sriovLimit 0 (.mp 1) [0, 0, 0, 0, 0, 0, 0],
    .coreStart 0 (.mp 1) 0 0 0 (zeros 128)] : List Instr).all Instr.wellFormed = true := by decide +kernel
theorem test_wf_outside : ([.thermAssert 0 256, .mdioPoll 0 true 11 true 0, .bootBlockLanded 0 3 [], .recVerOfferWrite 0 (2 ^ 32),
    .recStatusRequest 0 (2 ^ 48) 0x10, .recDataWindowWrite 0 524288 [1] false, .scrubRead 0 (2 ^ 38) 0 0 0 0 0 0, .scrubRead 0 0 4 0 0 0 0 0,
    .scrubRead 0 0 0 32 0 0 0 0, .scrubRead 0 0 0 0 (2 ^ 36) 0 0 0, .scrubRead 0 0 0 0 0 6 0 0, .sramScrubRead 0 0 0 0 0 0, .extest 0 (2 ^ 612) 0,
    .connect 0 256 true [], .poll 0 0 true [2 ^ 64]] : List Instr).all (fun i => !i.wellFormed) = true := by decide +kernel
theorem test_wf_outside_pass : ([.thermAssert 0 255, .mdioPoll 0 true 1000 true 0, .bootBlockLanded 0 2 [], .recDataWindowWrite 0 524287 [1] false,
    .scrubRead 0 (2 ^ 38 - 1) 3 31 (2 ^ 36 - 1) 5 15 0, .sramScrubRead 0 9 0 0 0 0, .connect 0 255 true []] : List Instr).all
      Instr.wellFormed = true := by decide +kernel
/-- Instruction words (R223): opcode 0x5B in bits 6 to 0, funct3 in bits 14 to 12, funct7 in bits 31 to 25. -/
theorem test_wf_instructions : ([.tnow 0 0 0 0x000002DB, .tnowq 0 0 0 0x020002DB, .cbegin 0 0 0 0x0000405B, .trap 0 0 0 0x0000705B] : List Instr).all
      Instr.wellFormed = true := by decide +kernel
theorem test_wf_instructions_refused : ([.tnow 0 0 0 0x020002DB, .tnowq 0 0 0 0x000002DB, .cbegin 0 0 0 0x0000505B, .trap 0 0 0 0x00007033,
    .tnow 0 100 0 0x000002DB, .tnow 0 0 8 0x000002DB, .trap 0 0 0 (2 ^ 32 + 0x705B), .generalInstruction 0 0 0 0 (.alu 0 32 0 0),
    .generalInstruction 0 0 0 0 (.load 3 0 0 0), .generalInstruction 0 0 0 0 (.store 8 0 32 0), .generalInstruction 0 0 0 0 (.jump 0 32),
    .generalInstruction 0 0 0 0 (.cas 0 0 0 32), .generalInstruction 0 0 0 0 (.fadd 32 0 0)] : List Instr).all
      (fun i => !i.wellFormed) = true := by decide +kernel

/-! Values that the spec works out, and a few single steps. -/

/-- The check value of CRC-32C (R110 names the polynomial family by it). -/
theorem test_crc32c : crc32c 0xFFFFFFFF (("123456789".toUTF8.toList.map (fun x => BitVec.ofNat 8 x.toNat))) = 0xE3069283 := by decide +kernel
theorem test_sha384_abc : ofBe ((sha384 [0x61, 0x62, 0x63]).take 8) = 0xCB00753F45A35E8B := by decide +kernel
theorem test_sha256_abc : ofBe ((sha256 [0x61, 0x62, 0x63]).take 8) = 0xBA7816BF8F01CFEA := by decide +kernel

/-- The three-domain gateway of 19_isolation.md: TD2's record and P16's, each in its place of the map. -/
def gateway : Bytes := le 0x31 8 ++ zeros 16 ++ [0x00, 0x00, 0x04, 0x00, 0x01, 0x00, 0x88, 0x7D] ++ zeros 176 ++ le 0x0950 4 ++ zeros 124
def gatewayS : State := { inMode .service with fuse.live := gateway }
theorem test_map_domain : gatewayS.domField 2 21 0 = 262144 ∧ gatewayS.domField 2 36 22 = 1024 ∧ gatewayS.bufCeil 2 = some 16384 ∧
    gatewayS.domField 2 57 54 = 6 ∧ gatewayS.domField 2 61 58 = 0xF ∧ gatewayS.domField 2 62 62 = 1 := by decide +kernel
theorem test_map_port : gatewayS.portDom 16 = 0 ∧ gatewayS.portShared 16 = true ∧ gatewayS.portMask 16 = 0x25 := by decide +kernel

/-- One release on 20 ports (10_sluice.md): compensations and phases of P0, P5, P11 and P19, and the start instants that they give. -/
theorem test_sluice_starts : ([(0x566666, 41), (0x834000, 38), (0xFA0000, 56), (0x19CB852, 46)] : List (Nat × Nat)).map
    (fun x => startInstant 25 x.2 ((2 ^ 20 + 512) * 65536 - x.1)) =
  [(41, 332), (38, 297), (56, 204), (46, 77)].map (fun x => 2 ^ 20 * 65536 + x.1 * 1024 + x.2 * 2097152 / 25) := by decide +kernel

/-- Parsing the order (07_parser_and_spout.md): the graph, the frame of 142 bytes and what they give. -/
def node (kind check len lenAt shift mask scale nextAt width first count flags : Nat) (ext : Bytes) : Bytes :=
  slice ([kind, check, len, lenAt, shift, mask, scale, 0, nextAt, width].map (fun x => BitVec.ofNat 8 x) ++ le first 2 ++ le count 1 ++ le flags 1 ++ ext) 0 32
def trans (value target : Nat) : Bytes := le value 2 ++ le 0xFFFF 2 ++ le target 1 ++ zeros 3
def orderGraph : Graph :=
  { loaded := true
    nodes := [node 1 0 14 0 0 0 0 12 2 0 1 0 [], node 2 0 4 0 0 0 0 2 2 1 1 0 [], node 4 2 40 0 0 0 0 6 1 2 1 0 [],
              node 6 4 20 12 4 0x0F 4 2 2 3 1 0 [], node 0x20 0 48 0 0 0 0 0 0 0 0 1 ([2, 1, 0, 0, 4, 4, 4, 0])]
    trans := [trans 0x8100 1, trans 0x86DD 2, trans 6 3, trans 0x1234 4] }
def orderFrame : Bytes :=
  zeros 12 ++ be 0x8100 2 ++ zeros 2 ++ be 0x86DD 2 ++ [0x60] ++ zeros 3 ++ be 80 2 ++ [6] ++ zeros 33 ++ zeros 2 ++ be 0x1234 2 ++ zeros 8 ++ [0x80]
    ++ zeros 19 ++ zeros 2 ++ [0x44] ++ zeros 1 ++ [0x00, 0x00, 0x10, 0x06] ++ zeros 40
theorem test_parse_layers : slice ((orderGraph.parse orderFrame).vector 3 none 0) 16 10 = [0x01, 0x00, 0x02, 0x0E, 0x04, 0x12, 0x06, 0x3A, 0x20, 0x5A] := by
  decide +kernel
theorem test_parse_fields : let v := (orderGraph.parse orderFrame).vector 3 none 0
    nb v 1 = 5 ∧ nb v 40 = 0x44 ∧ slice v 44 4 = [0x00, 0x00, 0x10, 0x06] ∧ (orderGraph.parse orderFrame).flags = 16 := by decide +kernel

/-- The grid points after the order's stamp (01_architecture.md). -/
theorem test_grids : ([10, 12, 20] : List Nat).map (fun k => nextGrid k (0x17A35C2140D6B9E5 * 65536 + 0x4000) / 65536) =
    [0x17A35C2140D6BC00, 0x17A35C2140D6C000, 0x17A35C2140E00000] := by decide +kernel


end Sys2Proof.Tests
end

