-- ==== Sys2Proof/Tests/WitnessesA.lean ====
section
/-! SUPPORT. Concrete states and operands that meet the premises of each clause of the statements, from 02_modes_and_bring_up.md on; each theorem is named after its statement. -/
namespace Sys2Proof.Tests
open Sys2Proof.Machine
set_option Elab.async false
set_option maxRecDepth 4000

set_option Elab.async false
set_option maxRecDepth 4000
/-- The premises of `Obligations.ModeQueriesAndResume`, clause by clause, are met. -/
theorem witness_ModeQueriesAndResume :
  (∃ (s : State) (dt : Nat) (p : Path) (x : Session) (q : TReq),
    Issued (s.elapse dt) p x q 257 0 Perm.any) ∧
  (∃ (s : State) (dt : Nat) (p : Path) (x : Session) (q : TReq) (func : Nat),
    Issued (s.elapse dt) p x q 262 1 Perm.any ∧ (func < 2 ^ 25) ∧ ((s.elapse dt).fnExists (fnOf func) = true)) ∧
  (∃ (s : State) (dt : Nat) (p : Path) (x : Session) (q : TReq) (func : Nat),
    Issued (s.elapse dt) p x q 262 1 Perm.any ∧ (func < 2 ^ 25) ∧ ((s.elapse dt).fnExists (fnOf func) = false)) ∧
  (∃ (s : State) (dt : Nat) (p : Path) (x : Session) (q : TReq) (period : Nat),
    Issued (s.elapse dt) p x q 261 1 Perm.any ∧ 0 < period ∧ period ≤ 65535) ∧
  (∃ (s : State) (dt : Nat) (p : Path) (x : Session) (q : TReq) (period : Nat),
    Issued (s.elapse dt) p x q 261 1 Perm.any ∧ (period = 0 ∨ 65535 < period)) ∧
  (∃ (s : State) (dt : Nat) (p : Path) (x : Session) (q : TReq),
    Issued (s.elapse dt) p x q 260 0 Perm.any ∧ s.glb.inTransition = false ∧ s.glb.mode ≠ Mode.drain) ∧
  (∃ (s : State) (dt : Nat) (p : Path) (x : Session) (q : TReq),
    Issued (s.elapse dt) p x q 260 0 Perm.any ∧ s.glb.inTransition = false ∧ s.glb.mode = Mode.drain ∧ s.glb.drainDone = false) ∧
  (∃ (s : State) (dt : Nat) (p : Path) (x : Session) (q : TReq),
    Issued (s.elapse dt) p x q 260 0 Perm.any ∧ s.glb.inTransition = false ∧ s.glb.mode = Mode.drain ∧ s.glb.drainDone = true) :=
  ⟨⟨(ask (inMode .service) 0x0101 0), 3, (.mp 1), (sess 0x0101 0), (req 0x0101 0),
      issued_of (by decide +kernel)⟩,
    ⟨(ask (inMode .service) 0x0106 1), 3, (.mp 1), (sess 0x0106 1), (req 0x0106 1), 0,
      issued_of (by decide +kernel), by decide +kernel⟩,
    ⟨(ask (inMode .service) 0x0106 1), 3, (.mp 1), (sess 0x0106 1), (req 0x0106 1), 1,
      issued_of (by decide +kernel), by decide +kernel⟩,
    ⟨(ask (inMode .service) 0x0105 1), 3, (.mp 1), (sess 0x0105 1), (req 0x0105 1), 65535,
      issued_of (by decide +kernel), by decide +kernel⟩,
    ⟨(ask (inMode .service) 0x0105 1), 3, (.mp 1), (sess 0x0105 1), (req 0x0105 1), 65536,
      issued_of (by decide +kernel), by decide +kernel⟩,
    ⟨(ask (inMode .service) 0x0104 0), 3, (.mp 1), (sess 0x0104 0), (req 0x0104 0),
      issued_of (by decide +kernel), by decide +kernel⟩,
    ⟨(ask (inMode .drain) 0x0104 0), 3, (.mp 1), (sess 0x0104 0), (req 0x0104 0),
      issued_of (by decide +kernel), by decide +kernel⟩,
    ⟨(ask { inMode .drain with glb.drainDone := true } 0x0104 0), 3, (.mp 1), (sess 0x0104 0), (req 0x0104 0),
      issued_of (by decide +kernel), by decide +kernel⟩⟩

/-- The premises of `Obligations.EnterServiceConditions`, clause by clause, are met. -/
theorem witness_EnterServiceConditions :
  (∃ (s : State) (dt : Nat) (p : Path) (x : Session) (q : TReq) (accept : Nat),
    Issued (s.elapse dt) p x q 258 1 Perm.any ∧ accept ≤ 1 ∧ s.glb.inTransition = false ∧ s.glb.mode ≠ Mode.priming) ∧
  (∃ (s : State) (dt : Nat) (p : Path) (x : Session) (q : TReq) (accept : Nat),
    Issued (s.elapse dt) p x q 258 1 Perm.any ∧ accept ≤ 1 ∧ s.glb.inTransition = false ∧ s.glb.mode = Mode.priming ∧ (s.fn 0).ready = false) ∧
  (∃ (s : State) (dt : Nat) (p : Path) (x : Session) (q : TReq) (accept : Nat),
    Issued (s.elapse dt) p x q 258 1 Perm.any ∧ accept ≤ 1 ∧ s.glb.inTransition = false ∧ s.glb.mode = Mode.priming ∧ (s.fn 0).ready = true ∧ s.tb.qualified = false ∧ accept = 0) ∧
  (∃ (s : State) (dt : Nat) (p : Path) (x : Session) (q : TReq) (accept : Nat),
    Issued (s.elapse dt) p x q 258 1 Perm.any ∧ accept ≤ 1 ∧ s.glb.inTransition = false ∧ s.glb.mode = Mode.priming ∧ (s.fn 0).ready = true ∧ (s.tb.qualified = true ∨ accept = 1)) :=
  ⟨⟨(ask (inMode .service) 0x0102 1), 3, (.mp 1), (sess 0x0102 1), (req 0x0102 1), 1,
      issued_of (by decide +kernel), by decide +kernel⟩,
    ⟨(ask (inMode .priming) 0x0102 1), 3, (.mp 1), (sess 0x0102 1), (req 0x0102 1), 1,
      issued_of (by decide +kernel), by decide +kernel⟩,
    ⟨(ask (ready0 .priming) 0x0102 1), 3, (.mp 1), (sess 0x0102 1), (req 0x0102 1), 0,
      issued_of (by decide +kernel), by decide +kernel⟩,
    ⟨(ask (ready0 .priming) 0x0102 1), 3, (.mp 1), (sess 0x0102 1), (req 0x0102 1), 1,
      issued_of (by decide +kernel), by decide +kernel⟩⟩

/-- The premises of `Obligations.EnterDrainBeginsDrain`, clause by clause, are met. -/
theorem witness_EnterDrainBeginsDrain :
  (∃ (s : State) (dt : Nat) (p : Path) (x : Session) (q : TReq) (limit : Nat),
    Issued (s.elapse dt) p x q 259 1 Perm.any ∧ 2 ^ 34 < limit) ∧
  (∃ (s : State) (dt : Nat) (p : Path) (x : Session) (q : TReq) (limit : Nat),
    Issued (s.elapse dt) p x q 259 1 Perm.any ∧ limit ≤ 2 ^ 34 ∧ s.glb.inTransition = true) ∧
  (∃ (s : State) (dt : Nat) (p : Path) (x : Session) (q : TReq) (limit : Nat),
    Issued (s.elapse dt) p x q 259 1 Perm.any ∧ limit ≤ 2 ^ 34 ∧ s.glb.inTransition = false ∧ s.glb.mode ≠ Mode.service) ∧
  (∃ (s : State) (dt : Nat) (p : Path) (x : Session) (q : TReq) (limit : Nat),
    Issued (s.elapse dt) p x q 259 1 Perm.any ∧ limit ≤ 2 ^ 34 ∧ s.glb.inTransition = false ∧ s.glb.mode = Mode.service ∧ (s.elapse dt).elapsed < s.glb.wdogExpiry) :=
  ⟨⟨(ask (inMode .service) 0x0103 1), 3, (.mp 1), (sess 0x0103 1), (req 0x0103 1), (2^34+1),
      issued_of (by decide +kernel), by decide +kernel⟩,
    ⟨(ask { inMode .service with glb.inTransition := true } 0x0103 1), 3, (.mp 1), (sess 0x0103 1), (req 0x0103 1), (2^34),
      issued_of (by decide +kernel), by decide +kernel⟩,
    ⟨(ask (inMode .priming) 0x0103 1), 3, (.mp 1), (sess 0x0103 1), (req 0x0103 1), 5,
      issued_of (by decide +kernel), by decide +kernel⟩,
    ⟨(ask { inMode .service with glb.wdogExpiry := 100, led.chains := [(0, { isOpen := true })] } 0x0103 1), 3, (.mp 1), (sess 0x0103 1), (req 0x0103 1), 0,
      issued_of (by decide +kernel), by decide +kernel⟩⟩

/-- The premises of `Obligations.WatchdogFeedAndExpiry`, clause by clause, are met. -/
theorem witness_WatchdogFeedAndExpiry :
  (∃ (s : State) (dt : Nat) (value : Nat),
    (s.elapse dt).Settled ∧ (s.elapse dt).barOpen 0 = true ∧ s.glb.mode = Mode.service ∧ (s.elapse dt).elapsed < s.glb.wdogExpiry ∧ value % 65536 = 23063) ∧
  (∃ (s : State) (dt : Nat) (value : Nat),
    (s.elapse dt).Settled ∧ (s.elapse dt).barOpen 0 = true ∧ s.glb.mode = Mode.service ∧ (s.elapse dt).elapsed < s.glb.wdogExpiry ∧ value % 65536 ≠ 23063) ∧
  (∃ (s : State) (dt : Nat),
    (s.elapse dt).Settled ∧ (s.elapse dt).barOpen 0 = true ∧ (s.glb.mode ≠ Mode.service ∨ s.glb.wdogExpiry ≤ (s.elapse dt).elapsed)) ∧
  (∃ (s : State) (dt : Nat),
    (s.elapse dt).Settled ∧ s.glb.mode = Mode.service ∧ s.glb.wdogExpiry ≤ (s.elapse dt).elapsed) :=
  ⟨⟨{ linked .service with glb.wdogExpiry := 100 }, 3, 0x5A17,
      settled_of (by decide +kernel), by decide +kernel⟩,
    ⟨{ linked .service with glb.wdogExpiry := 4, glb.badFeeds := 255 }, 3, 0x5A18,
      settled_of (by decide +kernel), by decide +kernel⟩,
    ⟨{ linked .service with glb.wdogExpiry := 3, glb.badFeeds := 255 }, 3,
      settled_of (by decide +kernel), by decide +kernel⟩,
    ⟨{ linked .service with glb.wdogExpiry := 3, glb.badFeeds := 255 }, 3,
      settled_of (by decide +kernel), by decide +kernel⟩⟩

/-- The premises of `Obligations.DrainStepsAndReadiness`, clause by clause, are met. -/
theorem witness_DrainStepsAndReadiness :
  (∃ (s : State) (dt : Nat),
    (s.elapse dt).Settled ∧ s.glb.mode = Mode.drain ∧ s.glb.drainStep = DrainStep.draining ∧ (s.elapse dt).drainIdle = true) ∧
  (∃ (s : State) (dt : Nat),
    (s.elapse dt).Settled ∧ (s.glb.mode ≠ Mode.drain ∨ s.glb.drainStep ≠ DrainStep.draining ∨ (s.elapse dt).drainIdle = false)) ∧
  (∃ (s : State) (dt : Nat),
    (s.elapse dt).Settled ∧ s.glb.mode = Mode.drain ∧ s.glb.drainStep = DrainStep.draining ∧ s.glb.drainT0 + s.glb.drainLimit ≤ (s.elapse dt).elapsed) ∧
  (∃ (s : State) (dt : Nat),
    (s.elapse dt).Settled ∧ (s.glb.mode ≠ Mode.drain ∨ s.glb.drainStep ≠ DrainStep.draining ∨ (s.elapse dt).elapsed < s.glb.drainT0 + s.glb.drainLimit)) ∧
  (∃ (s : State) (dt : Nat),
    (s.elapse dt).Settled ∧ s.glb.mode = Mode.drain ∧ s.glb.drainStep = DrainStep.faulting ∧ s.glb.drainT1 + 2 ^ 20 * 65536 ≤ (s.elapse dt).elapsed) ∧
  (∃ (s : State) (dt : Nat),
    (s.elapse dt).Settled ∧ (s.glb.mode ≠ Mode.drain ∨ s.glb.drainStep ≠ DrainStep.faulting ∨ (s.elapse dt).elapsed < s.glb.drainT1 + 2 ^ 20 * 65536)) ∧
  (∃ (s : State) (dt : Nat),
    (s.elapse dt).Settled ∧ s.glb.mode = Mode.drain ∧ s.glb.drainStep = DrainStep.silent) ∧
  (∃ (s : State) (dt : Nat),
    (s.elapse dt).Settled ∧ s.glb.mode = Mode.lockdown) ∧
  (∃ (s : State) (dt : Nat) (fn : Nat),
    (s.elapse dt).Settled ∧ (s.elapse dt).firmware = true ∧ s.glb.mode ≠ Mode.lockdown ∧ (s.elapse dt).fnExists fn = true ∧ (s.fn fn).inReset = false ∧ fn = 0) ∧
  (∃ (s : State) (dt : Nat) (fn : Nat),
    (s.elapse dt).Settled ∧ (s.elapse dt).firmware = true ∧ s.glb.mode ≠ Mode.lockdown ∧ (s.elapse dt).fnExists fn = true ∧ (s.fn fn).inReset = false ∧ fn ≠ 0 ∧ (s.elapse dt).portsMapped ((s.elapse dt).fnDom fn) = true ∧ (s.fn fn).ready = false) ∧
  (∃ (s : State) (dt : Nat) (fn : Nat),
    (s.elapse dt).Settled ∧ (s.elapse dt).firmware = true ∧ s.glb.mode ≠ Mode.lockdown ∧ (s.elapse dt).fnExists fn = true ∧ (s.fn fn).inReset = false ∧ fn ≠ 0 ∧ ((s.elapse dt).portsMapped ((s.elapse dt).fnDom fn) = false ∨ (s.fn fn).ready = true)) :=
  ⟨⟨{ linked .drain with glb.drainStep := .draining, slu.store := [rep0], ports.ports := [(0, { state := .up }), (1, { state := .dormant })] }, 3,
      settled_of (by decide +kernel), by decide +kernel⟩,
    ⟨{ linked .drain with glb.drainStep := .faulting }, 3,
      settled_of (by decide +kernel), by decide +kernel⟩,
    ⟨{ linked .drain with glb.drainStep := .draining, slu.store := [rep0], pl.frames := [{ port := 0 }], dma.waits := [(0, { ring := 0, queue := 0, frame := { port := 1 }, data := [], first := true })], rm.flows := [(0, { items := [it0] })] }, 3,
      settled_of (by decide +kernel), by decide +kernel⟩,
    ⟨{ linked .drain with glb.drainStep := .draining, glb.drainLimit := 4 }, 3,
      settled_of (by decide +kernel), by decide +kernel⟩,
    ⟨{ linked .drain with glb.drainStep := .faulting, ports.ports := [(0, { state := .held })], tm.queues := [(9, { cfg := { kind := 1, port := 0 }, frames := [{ data := zeros 60, dom := 0 }] })] }, (2^20*65536),
      settled_of (by decide +kernel), by decide +kernel⟩,
    ⟨{ linked .drain with glb.drainStep := .faulting }, (2^20*65536-1),
      settled_of (by decide +kernel), by decide +kernel⟩,
    ⟨{ linked .drain with glb.drainStep := .silent, led.chains := [(0, { isOpen := true })] }, 3,
      settled_of (by decide +kernel), by decide +kernel⟩,
    ⟨{ linked .lockdown with led.chains := [(0, { isOpen := true })] }, 3,
      settled_of (by decide +kernel), by decide +kernel⟩,
    ⟨(linked .priming), 3, 0,
      settled_of (by decide +kernel), by decide +kernel⟩,
    ⟨{ mapped .priming with ports.ports := [(1, { mode := 1, given := true })] }, 3, 4096,
      settled_of (by decide +kernel), by decide +kernel⟩,
    ⟨{ mapped .priming with ports.ports := [(1, { mode := 1 })] }, 3, 4096,
      settled_of (by decide +kernel), by decide +kernel⟩⟩

set_option Elab.async false
set_option maxRecDepth 4000
/-- The premises of `Obligations.TimeInputs`, clause by clause, are met. -/
theorem witness_TimeInputs :
  (∃ (s : State) (dt : Nat),
    (s.elapse dt).Settled ∧ s.tb.set = none ∧ s.tb.freeEpoch = false ∧ inWindow (s.elapse dt).now s.tb.delayUsed = true) ∧
  (∃ (s : State) (dt : Nat),
    (s.elapse dt).Settled ∧ s.tb.freeEpoch = false ∧ inWindow (s.elapse dt).now s.tb.delayUsed = false) ∧
  (∃ (s : State) (dt : Nat),
    (s.elapse dt).Settled ∧ s.tb.freeEpoch = true ∧ s.tb.ppsEdge = none) ∧
  (∃ (s : State) (dt : Nat) (e : Nat),
    (s.elapse dt).Settled ∧ s.tb.freeEpoch = true ∧ s.tb.ppsEdge = some e ∧ (s.elapse dt).elapsed - e + ns 100000 < second) ∧
  (∃ (s : State) (dt : Nat) (e : Nat),
    (s.elapse dt).Settled ∧ s.tb.freeEpoch = true ∧ s.tb.ppsEdge = some e ∧ second + ns 100000 < (s.elapse dt).elapsed - e) ∧
  (∃ (s : State) (dt : Nat) (e : Nat) (w : TimeSet),
    (s.elapse dt).Settled ∧ s.tb.freeEpoch = true ∧ s.tb.ppsEdge = some e ∧ second ≤ (s.elapse dt).elapsed - e + ns 100000 ∧ (s.elapse dt).elapsed - e ≤ second + ns 100000 ∧ s.tb.set = some w ∧ w.edge = none ∧ w.src = 1 ∧ w.notBefore ≤ (s.elapse dt).elapsed) ∧
  (∃ (s : State) (dt : Nat),
    (s.elapse dt).Settled ∧ s.tb.ref ≠ 2) ∧
  (∃ (s : State) (dt : Nat),
    (s.elapse dt).Settled ∧ s.tb.ref = 2 ∧ s.tb.refLost = false ∧ s.tb.servo = Servo.locked) ∧
  (∃ (s : State) (dt : Nat) (port : Nat),
    (s.elapse dt).Settled ∧ (s.tb.syncePort ≠ port ∨ s.tb.ref ≠ 5)) ∧
  (∃ (s : State) (dt : Nat),
    (s.elapse dt).Settled ∧ s.tb.ref = 5 ∧ s.tb.refLost = false ∧ s.tb.servo = Servo.locked) ∧
  (∃ (s : State) (dt : Nat) (data : Bytes),
    (s.elapse dt).Settled ∧ (List.length data ≠ 20 ∨ ofLe (slice data 18 2) ≠ crc16 (slice data 2 16))) ∧
  (∃ (s : State) (dt : Nat) (data : Bytes),
    (s.elapse dt).Settled ∧ List.length data = 20 ∧ slice data 0 4 = [195#8, 94#8, 1#8, 20#8] ∧ ofLe (slice data 18 2) = crc16 (slice data 2 16) ∧ (s.tb.freeEpoch = true ∨ ((s.elapse dt).now - s.tb.ppsDelay) / second = ofLe (slice data 4 8))) ∧
  (∃ (s : State) (dt : Nat) (data : Bytes),
    (s.elapse dt).Settled ∧ List.length data = 20 ∧ slice data 0 4 = [195#8, 94#8, 1#8, 20#8] ∧ ofLe (slice data 18 2) = crc16 (slice data 2 16) ∧ s.tb.freeEpoch = false ∧ ((s.elapse dt).now - s.tb.ppsDelay) / second ≠ ofLe (slice data 4 8)) ∧
  (∃ (s : State) (dt : Nat) (port : Nat),
    (s.elapse dt).Settled ∧ s.portUp port = true) ∧
  (∃ (s : State) (dt : Nat) (port : Nat),
    (s.elapse dt).Settled ∧ s.portUp port = false) :=
  ⟨⟨{ inMode .service with tb.freeEpoch := false }, (ns 1000),
      settled_of (by decide +kernel), by decide +kernel⟩,
    ⟨{ inMode .service with tb.freeEpoch := false, tb.strays := 255 }, (ns 1000 + 1),
      settled_of (by decide +kernel), by decide +kernel⟩,
    ⟨(inMode .service), 3,
      settled_of (by decide +kernel), by decide +kernel⟩,
    ⟨{ inMode .service with tb.ppsEdge := some 0 }, (second - ns 100000 - 1), 0,
      settled_of (by decide +kernel), by decide +kernel⟩,
    ⟨{ inMode .service with tb.ppsEdge := some 0 }, (second + ns 100000 + 1), 0,
      settled_of (by decide +kernel), by decide +kernel⟩,
    ⟨{ inMode .service with tb.ppsEdge := some 0, tb.set := some { src := 1, second := 9 } }, (second - ns 100000), 0, { src := 1, second := 9 },
      settled_of (by decide +kernel), by decide +kernel⟩,
    ⟨{ inMode .service with tb.ref := 3, tb.ref10mOk := 2 }, 3,
      settled_of (by decide +kernel), by decide +kernel⟩,
    ⟨{ inMode .service with tb.ref := 2, tb.servo := .locked, tb.history := 600, tb.oscHold := true, led.chains := [(0, { isOpen := true })] }, 3,
      settled_of (by decide +kernel), by decide +kernel⟩,
    ⟨{ inMode .service with tb.syncePort := 5, tb.rec0 := true, tb.out.lane0 := 4 }, 3, 4,
      settled_of (by decide +kernel), by decide +kernel⟩,
    ⟨{ inMode .service with tb.ref := 5, tb.servo := .locked, tb.syncePort := 5, tb.rec0 := true, tb.out.lane0 := 5 }, 3,
      settled_of (by decide +kernel), by decide +kernel⟩,
    ⟨(inMode .service), 3, [],
      settled_of (by decide +kernel), by decide +kernel⟩,
    ⟨(inMode .service), 3, (tod 7),
      settled_of (by decide +kernel), by decide +kernel⟩,
    ⟨{ inMode .service with tb.freeEpoch := false }, 3, (tod 7),
      settled_of (by decide +kernel), by decide +kernel⟩,
    ⟨{ ptp 0 with tb.esmc := [(5, 4)] }, 3, 5,
      settled_of (by decide +kernel), by decide +kernel⟩,
    ⟨(inMode .service), 3, 1,
      settled_of (by decide +kernel), by decide +kernel⟩⟩

/-- The premises of `Obligations.PtpMessages`, clause by clause, are met. -/
theorem witness_PtpMessages :
  (∃ (s : State) (dt : Nat) (port : Nat) (domain : Nat),
    (s.elapse dt).Settled ∧ (s.portUp port = false ∨ port ≠ s.tb.ptp.receiver ∨ domain ≠ s.tb.ptp.domain)) ∧
  (∃ (s : State) (dt : Nat) (w : TimeSet) (d : Int),
    (s.elapse dt).Settled ∧ s.portUp s.tb.ptp.receiver = true ∧ s.tb.set = some w ∧ w.src = 2 ∧ w.edge = none ∧ s.tb.ptps.delay = some d) ∧
  (∃ (s : State) (dt : Nat) (seq : Nat) (rx : Nat),
    (s.elapse dt).Settled ∧ s.portUp s.tb.ptp.receiver = true ∧ s.tb.set = none ∧ s.tb.ptps.sync = some (seq, rx)) ∧
  (∃ (s : State) (dt : Nat) (port : Nat),
    (s.elapse dt).Settled ∧ (s.elapse dt).firmware = true ∧ s.portUp port = true ∧ s.tb.ptp.profile ≠ 1 ∧ port ∈ s.tb.ptp.transmitters) ∧
  (∃ (s : State) (dt : Nat) (seq : Nat) (tx : Nat) (t1 : Nat) (t2 : Nat),
    (s.elapse dt).Settled ∧ s.portUp s.tb.ptp.receiver = true ∧ s.tb.ptps.req = some (seq, tx) ∧ s.tb.ptps.last = some (t1, t2)) ∧
  (∃ (s : State) (dt : Nat) (port : Nat),
    (s.elapse dt).Settled ∧ (s.elapse dt).firmware = true ∧ s.portUp port = true ∧ s.tb.ptp.profile = 1 ∧ (port = s.tb.ptp.receiver ∨ port ∈ s.tb.ptp.transmitters)) ∧
  (∃ (s : State) (dt : Nat) (seq : Nat) (tx : Nat),
    (s.elapse dt).Settled ∧ s.portUp s.tb.ptp.receiver = true ∧ s.tb.ptp.profile = 1 ∧ s.tb.ptps.req = some (seq, tx)) ∧
  (∃ (s : State) (dt : Nat) (port : Nat),
    (s.elapse dt).Settled ∧ s.portUp port = false) ∧
  (∃ (s : State) (dt : Nat),
    (s.elapse dt).Settled ∧ s.tb.ptps.lost = false ∧ s.tb.ptps.heard + ns (s.tb.ptp.receiptTimeout * s.tb.ptp.announceNs) ≤ (s.elapse dt).elapsed ∧ s.tb.ref ≠ 4 ∧ s.tb.ref ≠ 5) ∧
  (∃ (s : State) (dt : Nat),
    (s.elapse dt).Settled ∧ (s.tb.ptps.lost = true ∨ (s.elapse dt).elapsed < s.tb.ptps.heard + ns (s.tb.ptp.receiptTimeout * s.tb.ptp.announceNs))) ∧
  (∃ (s : State) (dt : Nat),
    (s.elapse dt).Settled ∧ (s.elapse dt).firmware = true ∧ s.portUp s.tb.ptp.receiver = true ∧ s.tb.ptp.profile ≠ 1 ∧ s.tb.ptp.receiver < 24 ∧ (s.tb.ref = 4 ∨ s.tb.ref = 5)) ∧
  (∃ (s : State) (dt : Nat) (port : Nat),
    (s.elapse dt).Settled ∧ ((s.elapse dt).firmware = false ∨ s.portUp port = false) ∧ port = s.tb.ptp.receiver) :=
  ⟨⟨(ptp 0), 3, 4, 0,
      settled_of (by decide +kernel), by decide +kernel⟩,
    ⟨{ ptp 0 with tb.ptps.delay := some 4, tb.set := some { src := 2, second := 9 } }, 3, { src := 2, second := 9 }, 4,
      settled_of (by decide +kernel), by decide +kernel⟩,
    ⟨{ ptp 0 with tb.ptps.sync := some (1, 9) }, 3, 1, 9,
      settled_of (by decide +kernel), by decide +kernel⟩,
    ⟨(ptp 0), 3, 6,
      settled_of (by decide +kernel), by decide +kernel⟩,
    ⟨{ ptp 0 with tb.ptps.req := some (1, 9), tb.ptps.last := some (7, 8) }, 3, 1, 9, 7, 8,
      settled_of (by decide +kernel), by decide +kernel⟩,
    ⟨(ptp 1), 3, 5,
      settled_of (by decide +kernel), by decide +kernel⟩,
    ⟨{ ptp 1 with tb.ptps.req := some (1, 9) }, 3, 1, 9,
      settled_of (by decide +kernel), by decide +kernel⟩,
    ⟨(ptp 1), 3, 4,
      settled_of (by decide +kernel), by decide +kernel⟩,
    ⟨{ ptp 1 with tb.ptps.lost := false }, (ns 3000000000),
      settled_of (by decide +kernel), by decide +kernel⟩,
    ⟨{ ptp 1 with tb.ptps.lost := false }, (ns 3000000000 - 1),
      settled_of (by decide +kernel), by decide +kernel⟩,
    ⟨{ ptp 0 with tb.ref := 4 }, 3,
      settled_of (by decide +kernel), by decide +kernel⟩,
    ⟨{ ptp 0 with tb.ptp.receiver := 4 }, 3, 4,
      settled_of (by decide +kernel), by decide +kernel⟩⟩

/-- The premises of `Obligations.ServoSeconds`, clause by clause, are met. -/
theorem witness_ServoSeconds :
  (∃ (s : State) (dt : Nat),
    (s.elapse dt).Settled ∧ ((s.elapse dt).now % second = 0 ∧ s.tb.outNext = none ∧ (4 ≤ s.tb.ref ∨ 2 ≤ s.tb.ref ∧ s.tb.ppsSeen = true)) ∧ s.tb.servo = Servo.freqAcq ∧ s.tb.acqPart = true) ∧
  (∃ (s : State) (dt : Nat) (drift : Int),
    (s.elapse dt).Settled ∧ ((s.elapse dt).now % second = 0 ∧ s.tb.outNext = none ∧ (4 ≤ s.tb.ref ∨ 2 ≤ s.tb.ref ∧ s.tb.ppsSeen = true)) ∧ s.tb.servo = Servo.freqAcq ∧ s.tb.acqPart = false ∧ (drift - (s.tb.freqAdj - clampAdj (s.tb.freqAdj - drift))).natAbs ≤ 131072) ∧
  (∃ (s : State) (dt : Nat) (drift : Int),
    (s.elapse dt).Settled ∧ ((s.elapse dt).now % second = 0 ∧ s.tb.outNext = none ∧ (4 ≤ s.tb.ref ∨ 2 ≤ s.tb.ref ∧ s.tb.ppsSeen = true)) ∧ s.tb.servo = Servo.freqAcq ∧ s.tb.acqPart = false ∧ 131072 < (drift - (s.tb.freqAdj - clampAdj (s.tb.freqAdj - drift))).natAbs) ∧
  (∃ (s : State) (dt : Nat) (phase : Int) (drift : Int),
    (s.elapse dt).Settled ∧ ((s.elapse dt).now % second = 0 ∧ s.tb.outNext = none ∧ (4 ≤ s.tb.ref ∨ 2 ≤ s.tb.ref ∧ s.tb.ppsSeen = true)) ∧ s.tb.servo = Servo.phaseAcq ∧ (phase.natAbs ≤ 256 ∧ drift.natAbs ≤ 131072)) ∧
  (∃ (s : State) (dt : Nat) (phase : Int) (drift : Int),
    (s.elapse dt).Settled ∧ ((s.elapse dt).now % second = 0 ∧ s.tb.outNext = none ∧ (4 ≤ s.tb.ref ∨ 2 ≤ s.tb.ref ∧ s.tb.ppsSeen = true)) ∧ s.tb.servo = Servo.phaseAcq ∧ phase.natAbs ≤ 256000 ∧ (¬(phase.natAbs ≤ 256 ∧ drift.natAbs ≤ 131072))) ∧
  (∃ (s : State) (dt : Nat) (phase : Int),
    (s.elapse dt).Settled ∧ ((s.elapse dt).now % second = 0 ∧ s.tb.outNext = none ∧ (4 ≤ s.tb.ref ∨ 2 ≤ s.tb.ref ∧ s.tb.ppsSeen = true)) ∧ s.tb.servo = Servo.phaseAcq ∧ 256000 < phase.natAbs) ∧
  (∃ (s : State) (dt : Nat) (phase : Int) (drift : Int),
    (s.elapse dt).Settled ∧ ((s.elapse dt).now % second = 0 ∧ s.tb.outNext = none ∧ (4 ≤ s.tb.ref ∨ 2 ≤ s.tb.ref ∧ s.tb.ppsSeen = true)) ∧ s.tb.servo = Servo.locked ∧ (phase.natAbs ≤ 256 ∧ drift.natAbs ≤ 131072)) ∧
  (∃ (s : State) (dt : Nat) (phase : Int) (drift : Int),
    (s.elapse dt).Settled ∧ ((s.elapse dt).now % second = 0 ∧ s.tb.outNext = none ∧ (4 ≤ s.tb.ref ∨ 2 ≤ s.tb.ref ∧ s.tb.ppsSeen = true)) ∧ s.tb.servo = Servo.locked ∧ (¬(phase.natAbs ≤ 256 ∧ drift.natAbs ≤ 131072)) ∧ phase.natAbs ≤ 512 ∧ drift.natAbs ≤ 262144) ∧
  (∃ (s : State) (dt : Nat) (phase : Int) (drift : Int),
    (s.elapse dt).Settled ∧ ((s.elapse dt).now % second = 0 ∧ s.tb.outNext = none ∧ (4 ≤ s.tb.ref ∨ 2 ≤ s.tb.ref ∧ s.tb.ppsSeen = true)) ∧ s.tb.servo = Servo.locked ∧ (512 < phase.natAbs ∨ 262144 < drift.natAbs)) ∧
  (∃ (s : State) (dt : Nat) (r : Bool) (y : Bool),
    (s.elapse dt).Settled ∧ (s.elapse dt).now % second = 0 ∧ s.tb.outNext = none ∧ 2 ≤ s.tb.ref ∧ s.tb.servo = Servo.holdover ∧ s.tb.refLost = true ∧ s.tb.released = false ∧ (s.tb.evalPresence r y).presentFor2 s.tb.ref = true) ∧
  (∃ (s : State) (dt : Nat),
    (s.elapse dt).Settled ∧ (s.elapse dt).now % second ≠ 0) ∧
  (∃ (s : State) (dt : Nat),
    (s.elapse dt).Settled ∧ s.tb.servo = Servo.holdover ∧ s.tb.holdClass < 3 ∧ classOfAge (s.elapse dt).ageS ≠ s.tb.holdClass) ∧
  (∃ (s : State) (dt : Nat),
    (s.elapse dt).Settled ∧ (s.tb.servo ≠ Servo.holdover ∨ s.tb.holdClass = 3 ∨ classOfAge (s.elapse dt).ageS = s.tb.holdClass)) :=
  ⟨⟨{ servo .freqAcq with tb.acqPart := true }, second,
      settled_of (by decide +kernel), by decide +kernel⟩,
    ⟨(servo .freqAcq), second, (-131072),
      settled_of (by decide +kernel), by decide +kernel⟩,
    ⟨(servo .freqAcq), second, (40000 * 65536),
      settled_of (by decide +kernel), by decide +kernel⟩,
    ⟨(servo .phaseAcq), second, 256, (-131072),
      settled_of (by decide +kernel), by decide +kernel⟩,
    ⟨(servo .phaseAcq), second, 257, (-131072),
      settled_of (by decide +kernel), by decide +kernel⟩,
    ⟨(servo .phaseAcq), second, 256001,
      settled_of (by decide +kernel), by decide +kernel⟩,
    ⟨{ servo .locked with tb.qualSeconds := 15 }, second, (-256), (131072),
      settled_of (by decide +kernel), by decide +kernel⟩,
    ⟨{ servo .locked with tb.qualSeconds := 16, tb.qualified := true }, second, (-512), (262144),
      settled_of (by decide +kernel), by decide +kernel⟩,
    ⟨{ servo .locked with tb.qualSeconds := 16, tb.qualified := true }, second, (-513), (262144),
      settled_of (by decide +kernel), by decide +kernel⟩,
    ⟨{ servo .holdover with tb.refLost := true, tb.ptpOk := 1, tb.ptps.lost := false }, second, true, true,
      settled_of (by decide +kernel), by decide +kernel⟩,
    ⟨{ servo .locked with tb.qualSeconds := 16, tb.qualified := true }, (second - 1),
      settled_of (by decide +kernel), by decide +kernel⟩,
    ⟨{ servo .holdover with tb.holdClass := 0 }, (1000 * second),
      settled_of (by decide +kernel), by decide +kernel⟩,
    ⟨{ servo .holdover with tb.holdClass := 0 }, (1000 * second - 1),
      settled_of (by decide +kernel), by decide +kernel⟩⟩

/-- The premises of `Obligations.TimeCommands`, clause by clause, are met. -/
theorem witness_TimeCommands :
  (∃ (s : State) (dt : Nat) (p : Path) (x : Session) (q : TReq),
    Issued (s.elapse dt) p x q 513 0 Perm.any) ∧
  (∃ (s : State) (dt : Nat) (p : Path) (x : Session) (q : TReq) (code : Nat) (label : Nat) (ptp : Nat) (synce : Nat),
    Issued (s.elapse dt) p x q 514 5 Perm.any ∧ (code < 2 ∨ 5 < code ∨ 1 < label ∨ 4 ≤ code ∧ 23 < ptp ∨ code = 5 ∧ 23 < synce)) ∧
  (∃ (s : State) (dt : Nat) (p : Path) (x : Session) (q : TReq) (code : Nat) (label : Nat) (ptp : Nat) (synce : Nat),
    Issued (s.elapse dt) p x q 514 5 Perm.any ∧ (¬(code < 2 ∨ 5 < code ∨ 1 < label ∨ 4 ≤ code ∧ 23 < ptp ∨ code = 5 ∧ 23 < synce)) ∧ (4 ≤ code ∧ (s.elapse dt).refPortBad ptp = true ∨ code = 5 ∧ (s.elapse dt).refPortBad synce = true)) ∧
  (∃ (s : State) (dt : Nat) (p : Path) (x : Session) (q : TReq) (code : Nat) (label : Nat) (ptp : Nat) (synce : Nat),
    Issued (s.elapse dt) p x q 514 5 Perm.any ∧ (¬(code < 2 ∨ 5 < code ∨ 1 < label ∨ 4 ≤ code ∧ 23 < ptp ∨ code = 5 ∧ 23 < synce)) ∧ (¬(4 ≤ code ∧ (s.elapse dt).refPortBad ptp = true ∨ code = 5 ∧ (s.elapse dt).refPortBad synce = true)) ∧ (s.tb.presentFor2 code = false ∨ 4 ≤ code ∧ ptp ≠ s.tb.ptp.receiver)) ∧
  (∃ (s : State) (dt : Nat) (p : Path) (x : Session) (q : TReq) (code : Nat) (label : Nat) (ptp : Nat) (synce : Nat),
    Issued (s.elapse dt) p x q 514 5 Perm.any ∧ (¬(code < 2 ∨ 5 < code ∨ 1 < label ∨ 4 ≤ code ∧ 23 < ptp ∨ code = 5 ∧ 23 < synce)) ∧ (¬(4 ≤ code ∧ (s.elapse dt).refPortBad ptp = true ∨ code = 5 ∧ (s.elapse dt).refPortBad synce = true)) ∧ (¬(s.tb.presentFor2 code = false ∨ 4 ≤ code ∧ ptp ≠ s.tb.ptp.receiver)) ∧ (label = 0 ∧ Option.all (fun l => decide (l.snd + 2 * second < (s.elapse dt).elapsed)) s.tb.todLabel = true)) ∧
  (∃ (s : State) (dt : Nat) (p : Path) (x : Session) (q : TReq) (code : Nat) (label : Nat) (ptp : Nat) (synce : Nat),
    Issued (s.elapse dt) p x q 514 5 Perm.any ∧ (¬(code < 2 ∨ 5 < code ∨ 1 < label ∨ 4 ≤ code ∧ 23 < ptp ∨ code = 5 ∧ 23 < synce)) ∧ (¬(4 ≤ code ∧ (s.elapse dt).refPortBad ptp = true ∨ code = 5 ∧ (s.elapse dt).refPortBad synce = true)) ∧ (¬(s.tb.presentFor2 code = false ∨ 4 ≤ code ∧ ptp ≠ s.tb.ptp.receiver)) ∧ (¬(label = 0 ∧ Option.all (fun l => decide (l.snd + 2 * second < (s.elapse dt).elapsed)) s.tb.todLabel = true)) ∧ s.tb.stepping = true) ∧
  (∃ (s : State) (dt : Nat) (p : Path) (x : Session) (q : TReq) (code : Nat) (label : Nat) (ptp : Nat) (synce : Nat),
    Issued (s.elapse dt) p x q 514 5 Perm.any ∧ (¬(code < 2 ∨ 5 < code ∨ 1 < label ∨ 4 ≤ code ∧ 23 < ptp ∨ code = 5 ∧ 23 < synce)) ∧ (¬(4 ≤ code ∧ (s.elapse dt).refPortBad ptp = true ∨ code = 5 ∧ (s.elapse dt).refPortBad synce = true)) ∧ (¬(s.tb.presentFor2 code = false ∨ 4 ≤ code ∧ ptp ≠ s.tb.ptp.receiver)) ∧ (¬(label = 0 ∧ Option.all (fun l => decide (l.snd + 2 * second < (s.elapse dt).elapsed)) s.tb.todLabel = true)) ∧ s.tb.stepping = false) ∧
  (∃ (s : State) (dt : Nat) (p : Path) (x : Session) (q : TReq),
    Issued (s.elapse dt) p x q 515 1 Perm.any ∧ s.tb.stepping = true) ∧
  (∃ (s : State) (dt : Nat) (p : Path) (x : Session) (q : TReq) (delay : Nat),
    Issued (s.elapse dt) p x q 515 1 Perm.any ∧ s.tb.stepping = false ∧ delay % 2 ^ 32 = s.tb.ppsDelay) ∧
  (∃ (s : State) (dt : Nat) (p : Path) (x : Session) (q : TReq) (delay : Nat),
    Issued (s.elapse dt) p x q 515 1 Perm.any ∧ s.tb.stepping = false ∧ delay % 2 ^ 32 ≠ s.tb.ppsDelay) ∧
  (∃ (s : State) (dt : Nat) (p : Path) (x : Session) (q : TReq) (kind : Nat) (value : Int) (frac : Nat),
    Issued (s.elapse dt) p x q 516 3 Perm.any ∧ (1 < kind ∨ 65536 ≤ frac ∨ (if kind = 0 then ↑(stepPoint (s.elapse dt).now) + value * 65536 + ↑frac else value * 65536 + ↑frac) = ↑(stepPoint (s.elapse dt).now) ∨ (if kind = 0 then ↑(stepPoint (s.elapse dt).now) + value * 65536 + ↑frac else value * 65536 + ↑frac) < 0 ∨ 2 ^ 80 ≤ if kind = 0 then ↑(stepPoint (s.elapse dt).now) + value * 65536 + ↑frac else value * 65536 + ↑frac)) ∧
  (∃ (s : State) (dt : Nat) (p : Path) (x : Session) (q : TReq) (kind : Nat) (value : Int) (frac : Nat),
    Issued (s.elapse dt) p x q 516 3 Perm.any ∧ (¬(1 < kind ∨ 65536 ≤ frac ∨ (if kind = 0 then ↑(stepPoint (s.elapse dt).now) + value * 65536 + ↑frac else value * 65536 + ↑frac) = ↑(stepPoint (s.elapse dt).now) ∨ (if kind = 0 then ↑(stepPoint (s.elapse dt).now) + value * 65536 + ↑frac else value * 65536 + ↑frac) < 0 ∨ 2 ^ 80 ≤ if kind = 0 then ↑(stepPoint (s.elapse dt).now) + value * 65536 + ↑frac else value * 65536 + ↑frac)) ∧ s.tb.stepping = true) ∧
  (∃ (s : State) (dt : Nat) (p : Path) (x : Session) (q : TReq) (kind : Nat) (value : Int) (frac : Nat),
    Issued (s.elapse dt) p x q 516 3 Perm.any ∧ (¬(1 < kind ∨ 65536 ≤ frac ∨ (if kind = 0 then ↑(stepPoint (s.elapse dt).now) + value * 65536 + ↑frac else value * 65536 + ↑frac) = ↑(stepPoint (s.elapse dt).now) ∨ (if kind = 0 then ↑(stepPoint (s.elapse dt).now) + value * 65536 + ↑frac else value * 65536 + ↑frac) < 0 ∨ 2 ^ 80 ≤ if kind = 0 then ↑(stepPoint (s.elapse dt).now) + value * 65536 + ↑frac else value * 65536 + ↑frac)) ∧ s.tb.stepping = false) ∧
  (∃ (s : State) (dt : Nat) (p : Path) (x : Session) (q : TReq) (off : Int),
    Issued (s.elapse dt) p x q 517 1 Perm.any ∧ (off < -32768 ∨ 32767 < off)) ∧
  (∃ (s : State) (dt : Nat) (p : Path) (x : Session) (q : TReq) (off : Int),
    Issued (s.elapse dt) p x q 517 1 Perm.any ∧ -32768 ≤ off ∧ off ≤ 32767 ∧ (off ≠ s.tb.utcOffset ∨ s.tb.leapState ≠ 0)) ∧
  (∃ (s : State) (dt : Nat) (p : Path) (x : Session) (q : TReq) (off : Int),
    Issued (s.elapse dt) p x q 517 1 Perm.any ∧ -32768 ≤ off ∧ off ≤ 32767 ∧ off = s.tb.utcOffset ∧ s.tb.leapState = 0) ∧
  (∃ (s : State) (dt : Nat) (p : Path) (x : Session) (q : TReq) (dir : Int),
    Issued (s.elapse dt) p x q 518 2 Perm.any ∧ dir = 0 ∧ s.tb.leapNs = 0) ∧
  (∃ (s : State) (dt : Nat) (p : Path) (x : Session) (q : TReq) (dir : Int),
    Issued (s.elapse dt) p x q 518 2 Perm.any ∧ dir = 0 ∧ s.tb.leapNs ≠ 0) ∧
  (∃ (s : State) (dt : Nat) (p : Path) (x : Session) (q : TReq) (dir : Int) (at_ : Nat),
    Issued (s.elapse dt) p x q 518 2 Perm.any ∧ dir ≠ 0 ∧ (dir ≠ 1 ∧ dir ≠ -1 ∨ at_ % 1000000000 ≠ 0 ∨ ns at_ < (s.elapse dt).now + ns (2 ^ 30))) ∧
  (∃ (s : State) (dt : Nat) (p : Path) (x : Session) (q : TReq) (dir : Int) (at_ : Nat),
    Issued (s.elapse dt) p x q 518 2 Perm.any ∧ (dir = 1 ∨ dir = -1) ∧ (¬(at_ % 1000000000 ≠ 0 ∨ ns at_ < (s.elapse dt).now + ns (2 ^ 30))) ∧ s.tb.leapNs ≠ 0) ∧
  (∃ (s : State) (dt : Nat) (p : Path) (x : Session) (q : TReq) (dir : Int) (at_ : Nat),
    Issued (s.elapse dt) p x q 518 2 Perm.any ∧ (dir = 1 ∨ dir = -1) ∧ (¬(at_ % 1000000000 ≠ 0 ∨ ns at_ < (s.elapse dt).now + ns (2 ^ 30))) ∧ s.tb.leapNs = 0 ∧ s.tb.leapState = 3) ∧
  (∃ (s : State) (dt : Nat) (p : Path) (x : Session) (q : TReq) (dir : Int) (at_ : Nat),
    Issued (s.elapse dt) p x q 518 2 Perm.any ∧ (dir = 1 ∨ dir = -1) ∧ (¬(at_ % 1000000000 ≠ 0 ∨ ns at_ < (s.elapse dt).now + ns (2 ^ 30))) ∧ s.tb.leapNs = 0 ∧ s.tb.leapState ≠ 3) ∧
  (∃ (s : State) (dt : Nat) (p : Path) (x : Session) (q : TReq),
    Issued (s.elapse dt) p x q 521 0 Perm.any ∧ (s.tb.ref < 2 ∨ s.tb.released = true)) ∧
  (∃ (s : State) (dt : Nat) (p : Path) (x : Session) (q : TReq),
    Issued (s.elapse dt) p x q 521 0 Perm.any ∧ 2 ≤ s.tb.ref ∧ s.tb.released = false) :=
  ⟨⟨(ask (servo .holdover) 0x0201 0), 3, (.mp 1), (sess 0x0201 0), (req 0x0201 0),
      issued_of (by decide +kernel)⟩,
    ⟨(ask (servo .holdover) 0x0202 5), 3, (.mp 1), (sess 0x0202 5), (req 0x0202 5), 6, 1, 0, 0,
      issued_of (by decide +kernel), by decide +kernel⟩,
    ⟨(ask (servo .holdover) 0x0202 5), 3, (.mp 1), (sess 0x0202 5), (req 0x0202 5), 4, 1, 5, 0,
      issued_of (by decide +kernel), by decide +kernel⟩,
    ⟨(ask (servo .holdover) 0x0202 5), 3, (.mp 1), (sess 0x0202 5), (req 0x0202 5), 2, 1, 0, 0,
      issued_of (by decide +kernel), by decide +kernel⟩,
    ⟨(ask { servo .holdover with tb.ppsOk := 2, tb.ref10mOk := 2 } 0x0202 5), 3, (.mp 1), (sess 0x0202 5), (req 0x0202 5), 2, 0, 0, 0,
      issued_of (by decide +kernel), by decide +kernel⟩,
    ⟨(ask { servo .holdover with tb.ppsOk := 2, tb.ref10mOk := 2, tb.step := some { g := 0, target := 5, kind := 0 } } 0x0202 5), 3, (.mp 1), (sess 0x0202 5), (req 0x0202 5), 2, 1, 0, 0,
      issued_of (by decide +kernel), by decide +kernel⟩,
    ⟨(ask { servo .holdover with tb.ppsOk := 2, tb.ref10mOk := 2, tb.slew := 3 } 0x0202 5), 3, (.mp 1), (sess 0x0202 5), (req 0x0202 5), 2, 1, 0, 0,
      issued_of (by decide +kernel), by decide +kernel⟩,
    ⟨(ask { servo .holdover with tb.step := some { g := 0, target := 5, kind := 0 } } 0x0203 1), 3, (.mp 1), (sess 0x0203 1), (req 0x0203 1),
      issued_of (by decide +kernel), by decide +kernel⟩,
    ⟨(ask (servo .locked) 0x0203 1), 3, (.mp 1), (sess 0x0203 1), (req 0x0203 1), (2^32),
      issued_of (by decide +kernel), by decide +kernel⟩,
    ⟨(ask (servo .holdover) 0x0203 1), 3, (.mp 1), (sess 0x0203 1), (req 0x0203 1), (2^32 + 7),
      issued_of (by decide +kernel), by decide +kernel⟩,
    ⟨(ask (servo .locked) 0x0204 3), 3, (.mp 1), (sess 0x0204 3), (req 0x0204 3), 2, 0, 0,
      issued_of (by decide +kernel), by decide +kernel⟩,
    ⟨(ask { servo .holdover with tb.step := some { g := 0, target := 5, kind := 0 } } 0x0204 3), 3, (.mp 1), (sess 0x0204 3), (req 0x0204 3), 0, (-1), 65535,
      issued_of (by decide +kernel), by decide +kernel⟩,
    ⟨(ask (servo .locked) 0x0204 3), 3, (.mp 1), (sess 0x0204 3), (req 0x0204 3), 0, (-1), 65535,
      issued_of (by decide +kernel), by decide +kernel⟩,
    ⟨(ask (servo .locked) 0x0205 1), 3, (.mp 1), (sess 0x0205 1), (req 0x0205 1), (32768),
      issued_of (by decide +kernel), by decide +kernel⟩,
    ⟨(ask (servo .locked) 0x0205 1), 3, (.mp 1), (sess 0x0205 1), (req 0x0205 1), (-32768),
      issued_of (by decide +kernel), by decide +kernel⟩,
    ⟨(ask { servo .locked with tb.leapState := 0 } 0x0205 1), 3, (.mp 1), (sess 0x0205 1), (req 0x0205 1), 0,
      issued_of (by decide +kernel), by decide +kernel⟩,
    ⟨(ask { servo .locked with tb.leapState := 0 } 0x0206 2), 3, (.mp 1), (sess 0x0206 2), (req 0x0206 2), 0,
      issued_of (by decide +kernel), by decide +kernel⟩,
    ⟨(ask { servo .locked with tb.leapState := 1, tb.leapNs := 9 } 0x0206 2), 3, (.mp 1), (sess 0x0206 2), (req 0x0206 2), 0,
      issued_of (by decide +kernel), by decide +kernel⟩,
    ⟨(ask { servo .locked with tb.leapState := 0 } 0x0206 2), 3, (.mp 1), (sess 0x0206 2), (req 0x0206 2), 1, 7,
      issued_of (by decide +kernel), by decide +kernel⟩,
    ⟨(ask { servo .locked with tb.leapState := 1, tb.leapNs := 9 } 0x0206 2), 3, (.mp 1), (sess 0x0206 2), (req 0x0206 2), 1, 2000000000,
      issued_of (by decide +kernel), by decide +kernel⟩,
    ⟨(ask (servo .locked) 0x0206 2), 3, (.mp 1), (sess 0x0206 2), (req 0x0206 2), (-1), 2000000000,
      issued_of (by decide +kernel), by decide +kernel⟩,
    ⟨(ask { servo .locked with tb.leapState := 0 } 0x0206 2), 3, (.mp 1), (sess 0x0206 2), (req 0x0206 2), (-1), 2000000000,
      issued_of (by decide +kernel), by decide +kernel⟩,
    ⟨(ask { servo .locked with tb.ref := 1 } 0x0209 0), 3, (.mp 1), (sess 0x0209 0), (req 0x0209 0),
      issued_of (by decide +kernel), by decide +kernel⟩,
    ⟨(ask { servo .locked with tb.ref := 4, tb.set := some { src := 1, second := 4 } } 0x0209 0), 3, (.mp 1), (sess 0x0209 0), (req 0x0209 0),
      issued_of (by decide +kernel), by decide +kernel⟩⟩

/-- The premises of `Obligations.TimeOutputsAndApplies`, clause by clause, are met. -/
theorem witness_TimeOutputsAndApplies :
  (∃ (s : State) (dt : Nat) (p : Path) (x : Session) (q : TReq) (a : Nat) (w : Nat) (r : Nat) (d : Nat) (l0 : Nat) (d0 : Nat) (l1 : Nat) (d1 : Nat),
    Issued (s.elapse dt) p x q 519 8 Perm.any ∧ (2 ^ 32 ≤ a ∨ w < 1 ∨ 500 < w ∨ 1 < r ∨ 1 < d ∨ l0 ≠ 255 ∧ 24 ≤ l0 ∨ l1 ≠ 255 ∧ 24 ≤ l1 ∨ 1 < d0 ∨ 1 < d1)) ∧
  (∃ (s : State) (dt : Nat) (p : Path) (x : Session) (q : TReq) (a : Nat) (w : Nat) (r : Nat) (d : Nat) (l0 : Nat) (d0 : Nat) (l1 : Nat) (d1 : Nat),
    Issued (s.elapse dt) p x q 519 8 Perm.any ∧ (¬(2 ^ 32 ≤ a ∨ w < 1 ∨ 500 < w ∨ 1 < r ∨ 1 < d ∨ l0 ≠ 255 ∧ 24 ≤ l0 ∨ l1 ≠ 255 ∧ 24 ≤ l1 ∨ 1 < d0 ∨ 1 < d1)) ∧ (l0 ≠ 255 ∧ (s.elapse dt).portCount ≤ l0 ∨ l1 ≠ 255 ∧ (s.elapse dt).portCount ≤ l1)) ∧
  (∃ (s : State) (dt : Nat) (p : Path) (x : Session) (q : TReq) (a : Nat) (w : Nat) (r : Nat) (d : Nat) (l0 : Nat) (d0 : Nat) (l1 : Nat) (d1 : Nat),
    Issued (s.elapse dt) p x q 519 8 Perm.any ∧ (¬(2 ^ 32 ≤ a ∨ w < 1 ∨ 500 < w ∨ 1 < r ∨ 1 < d ∨ l0 ≠ 255 ∧ 24 ≤ l0 ∨ l1 ≠ 255 ∧ 24 ≤ l1 ∨ 1 < d0 ∨ 1 < d1)) ∧ (¬(l0 ≠ 255 ∧ (s.elapse dt).portCount ≤ l0 ∨ l1 ≠ 255 ∧ (s.elapse dt).portCount ≤ l1))) ∧
  (∃ (s : State) (dt : Nat) (p : Path) (x : Session) (q : TReq) (prof : Nat) (dom : Nat) (tr : Nat) (rcv : Nat) (txs : Nat) (sy : Nat) (de : Nat) (pd : Nat) (an : Nat) (tm : Nat),
    Issued (s.elapse dt) p x q 520 34 Perm.any ∧ (2 < prof ∨ 255 < dom ∨ 2 < tr ∨ 23 < rcv ∧ rcv ≠ 255 ∨ 8 < (List.filter (fun n => txs.testBit n) (List.range 64)).length ∨ (∃ n, n ∈ List.filter (fun n => txs.testBit n) (List.range 64) ∧ 23 < n) ∨ sy < 1 ∨ 128 < sy ∨ de < 1 ∨ 128 < de ∨ pd < 1 ∨ 128 < pd ∨ an = 0 ∨ tm = 0)) ∧
  (∃ (s : State) (dt : Nat) (p : Path) (x : Session) (q : TReq) (prof : Nat) (dom : Nat) (tr : Nat) (rcv : Nat) (txs : Nat) (sy : Nat) (de : Nat) (pd : Nat) (an : Nat) (tm : Nat),
    Issued (s.elapse dt) p x q 520 34 Perm.any ∧ (¬(2 < prof ∨ 255 < dom ∨ 2 < tr ∨ 23 < rcv ∧ rcv ≠ 255 ∨ 8 < (List.filter (fun n => txs.testBit n) (List.range 64)).length ∨ (∃ n, n ∈ List.filter (fun n => txs.testBit n) (List.range 64) ∧ 23 < n) ∨ sy < 1 ∨ 128 < sy ∨ de < 1 ∨ 128 < de ∨ pd < 1 ∨ 128 < pd ∨ an = 0 ∨ tm = 0)) ∧ (rcv ≤ 23 ∧ (s.elapse dt).portCount ≤ rcv ∨ ∃ n, n ∈ List.filter (fun n => txs.testBit n) (List.range 64) ∧ (s.elapse dt).portCount ≤ n)) ∧
  (∃ (s : State) (dt : Nat) (p : Path) (x : Session) (q : TReq) (prof : Nat) (dom : Nat) (tr : Nat) (rcv : Nat) (txs : Nat) (sy : Nat) (de : Nat) (pd : Nat) (an : Nat) (tm : Nat),
    Issued (s.elapse dt) p x q 520 34 Perm.any ∧ (¬(2 < prof ∨ 255 < dom ∨ 2 < tr ∨ 23 < rcv ∧ rcv ≠ 255 ∨ 8 < (List.filter (fun n => txs.testBit n) (List.range 64)).length ∨ (∃ n, n ∈ List.filter (fun n => txs.testBit n) (List.range 64) ∧ 23 < n) ∨ sy < 1 ∨ 128 < sy ∨ de < 1 ∨ 128 < de ∨ pd < 1 ∨ 128 < pd ∨ an = 0 ∨ tm = 0)) ∧ (¬(rcv ≤ 23 ∧ (s.elapse dt).portCount ≤ rcv ∨ ∃ n, n ∈ List.filter (fun n => txs.testBit n) (List.range 64) ∧ (s.elapse dt).portCount ≤ n))) ∧
  (∃ (s : State) (dt : Nat),
    (s.elapse dt).Settled ∧ (s.elapse dt).installOut.outputsRun = true ∧ ((s.elapse dt).installOut.now + (s.elapse dt).installOut.tb.out.advance) % second = 0) ∧
  (∃ (s : State) (dt : Nat),
    (s.elapse dt).Settled ∧ ((s.elapse dt).installOut.outputsRun = false ∨ ((s.elapse dt).installOut.now + (s.elapse dt).installOut.tb.out.advance) % second ≠ 0)) ∧
  (∃ (s : State) (dt : Nat) (o : OutCfg),
    (s.elapse dt).Settled ∧ s.tb.outNext = some o ∧ (s.elapse dt).now < s.tb.outAt) ∧
  (∃ (s : State) (dt : Nat) (o : OutCfg),
    (s.elapse dt).Settled ∧ s.tb.outNext = some o ∧ s.tb.outAt ≤ (s.elapse dt).now) ∧
  (∃ (s : State) (dt : Nat),
    (s.elapse dt).Settled ∧ s.tb.ppsHigh = true ∧ s.tb.ppsFellAt ≤ (s.elapse dt).elapsed) ∧
  (∃ (s : State) (dt : Nat),
    (s.elapse dt).Settled ∧ (s.tb.ppsHigh = false ∨ (s.elapse dt).elapsed < s.tb.ppsFellAt)) ∧
  (∃ (s : State) (dt : Nat) (e : Nat) (n : Nat),
    (s.elapse dt).Settled ∧ s.outputsRun = true ∧ s.tb.todDue = some (e, n) ∧ e ≤ (s.elapse dt).elapsed) ∧
  (∃ (s : State) (dt : Nat) (e : Nat) (n : Nat),
    (s.elapse dt).Settled ∧ s.tb.todDue = some (e, n) ∧ (s.elapse dt).elapsed < e) ∧
  (∃ (s : State) (dt : Nat) (w : StepReq),
    (s.elapse dt).Settled ∧ s.tb.step = some w ∧ (s.elapse dt).now = w.g) ∧
  (∃ (s : State) (dt : Nat) (w : StepReq),
    (s.elapse dt).Settled ∧ s.tb.step = some w ∧ (s.elapse dt).now ≠ w.g) ∧
  (∃ (s : State) (dt : Nat) (w : TimeSet) (e : Nat × Nat),
    (s.elapse dt).Settled ∧ s.tb.set = some w ∧ w.edge = some e ∧ (s.elapse dt).now % grid 10 = 0 ∧ e.fst < (s.elapse dt).now) ∧
  (∃ (s : State) (dt : Nat) (w : TimeSet),
    (s.elapse dt).Settled ∧ s.tb.set = some w ∧ w.edge = none) ∧
  (∃ (s : State) (dt : Nat) (o : Int),
    (s.elapse dt).Settled ∧ s.tb.utcNext = some o ∧ (s.elapse dt).now % grid 10 = 0 ∧ s.tb.utcAt < (s.elapse dt).elapsed) ∧
  (∃ (s : State) (dt : Nat),
    (s.elapse dt).Settled ∧ (s.tb.utcNext = none ∨ (s.elapse dt).now % grid 10 ≠ 0 ∨ (s.elapse dt).elapsed ≤ s.tb.utcAt)) ∧
  (∃ (s : State) (dt : Nat),
    (s.elapse dt).Settled ∧ s.tb.leapNs ≠ 0 ∧ ns s.tb.leapNs ≤ (s.elapse dt).now) ∧
  (∃ (s : State) (dt : Nat),
    (s.elapse dt).Settled ∧ (s.tb.leapNs = 0 ∨ (s.elapse dt).now < ns s.tb.leapNs)) :=
  ⟨⟨(ask (inMode .service) 0x0207 8), 3, (.mp 1), (sess 0x0207 8), (req 0x0207 8), 0, 501, 0, 0, 0, 0, 0, 0,
      issued_of (by decide +kernel), by decide +kernel⟩,
    ⟨(ask (bDev .service) 0x0207 8), 3, (.mp 1), (sess 0x0207 8), (req 0x0207 8), 7, 500, 1, 0, 0xFF, 1, 16, 0,
      issued_of (by decide +kernel), by decide +kernel⟩,
    ⟨(ask (inMode .service) 0x0207 8), 3, (.mp 1), (sess 0x0207 8), (req 0x0207 8), 7, 500, 1, 0, 0xFF, 1, 23, 0,
      issued_of (by decide +kernel), by decide +kernel⟩,
    ⟨(ask (inMode .service) 0x0208 34), 3, (.mp 1), (sess 0x0208 34), (req 0x0208 34), 3, 255, 2, 23, 0, 1, 128, 5, 7, 3,
      issued_of (by decide +kernel), by decide +kernel⟩,
    ⟨(ask (bDev .service) 0x0208 34), 3, (.mp 1), (sess 0x0208 34), (req 0x0208 34), 2, 255, 2, 23, (2^23), 1, 128, 5, 7, 3,
      issued_of (by decide +kernel), by decide +kernel⟩,
    ⟨(ask (inMode .service) 0x0208 34), 3, (.mp 1), (sess 0x0208 34), (req 0x0208 34), 2, 255, 2, 23, (2^23), 1, 128, 5, 7, 3,
      issued_of (by decide +kernel), by decide +kernel⟩,
    ⟨{ inMode .service with tb.out.advance := 5 }, (second - 5),
      settled_of (by decide +kernel), by decide +kernel⟩,
    ⟨{ inMode .service with tb.out.advance := 5 }, (second - 6),
      settled_of (by decide +kernel), by decide +kernel⟩,
    ⟨{ inMode .service with tb.outNext := some {}, tb.outAt := 4 }, 3, {},
      settled_of (by decide +kernel), by decide +kernel⟩,
    ⟨{ inMode .service with tb.outNext := some { width := 9 }, tb.outAt := 3 }, 3, { width := 9 },
      settled_of (by decide +kernel), by decide +kernel⟩,
    ⟨{ inMode .service with tb.ppsHigh := true, tb.ppsFellAt := 6 }, 6,
      settled_of (by decide +kernel), by decide +kernel⟩,
    ⟨{ inMode .service with tb.ppsHigh := true, tb.ppsFellAt := 6 }, 5,
      settled_of (by decide +kernel), by decide +kernel⟩,
    ⟨{ inMode .service with tb.todDue := some (6 + ns 10000000, 3) }, (6 + ns 10000000), (6 + ns 10000000), 3,
      settled_of (by decide +kernel), by decide +kernel⟩,
    ⟨{ inMode .service with tb.todDue := some (6 + ns 10000000, 3) }, (5 + ns 10000000), (6 + ns 10000000), 3,
      settled_of (by decide +kernel), by decide +kernel⟩,
    ⟨{ servo .locked with tb.step := some { g := grid 10, target := 50, kind := 0 }, led.chains := [(0, { isOpen := true })] }, (grid 10), { g := grid 10, target := 50, kind := 0 },
      settled_of (by decide +kernel), by decide +kernel⟩,
    ⟨{ servo .locked with tb.step := some { g := grid 10, target := 50, kind := 0 }, led.chains := [(0, { isOpen := true })] }, (grid 10 + 1), { g := grid 10, target := 50, kind := 0 },
      settled_of (by decide +kernel), by decide +kernel⟩,
    ⟨{ servo .freqAcq with tb.set := some { src := 1, second := 7, edge := some (100, 2 ^ 40) }, led.chains := [(0, { isOpen := true })] }, (grid 10), { src := 1, second := 7, edge := some (100, 2 ^ 40) }, (100, 2^40),
      settled_of (by decide +kernel), by decide +kernel⟩,
    ⟨{ servo .freqAcq with tb.set := some { src := 1, second := 7 }, led.chains := [(0, { isOpen := true })] }, (grid 10), { src := 1, second := 7 },
      settled_of (by decide +kernel), by decide +kernel⟩,
    ⟨{ servo .freqAcq with tb.utcNext := some 38, tb.utcAt := 5 }, (grid 10), 38,
      settled_of (by decide +kernel), by decide +kernel⟩,
    ⟨{ servo .freqAcq with tb.utcNext := some 38, tb.utcAt := 5 }, (grid 10 + 1),
      settled_of (by decide +kernel), by decide +kernel⟩,
    ⟨{ servo .freqAcq with tb.leapNs := 10, tb.leapDir := -1 }, (ns 10),
      settled_of (by decide +kernel), by decide +kernel⟩,
    ⟨{ servo .freqAcq with tb.leapNs := 10, tb.leapDir := -1 }, (ns 10 - 1),
      settled_of (by decide +kernel), by decide +kernel⟩⟩

set_option Elab.async false
set_option maxRecDepth 4000
/-- The premises of `Obligations.LedgerCommands`, clause by clause, are met. -/
theorem witness_LedgerCommands :
  (∃ (s : State) (dt : Nat) (p : Path) (x : Session) (q : TReq) (dom : Nat),
    Issued (s.elapse dt) p x q 769 1 (Perm.owner dom) ∧ s.domOn dom = true) ∧
  (∃ (s : State) (dt : Nat) (p : Path) (x : Session) (q : TReq) (dom : Nat),
    Issued (s.elapse dt) p x q 769 1 (Perm.owner dom) ∧ s.domOn dom = false) ∧
  (∃ (s : State) (dt : Nat) (p : Path) (x : Session) (q : TReq) (dom : Nat) (quota : Nat),
    Issued (s.elapse dt) p x q 770 2 Perm.any ∧ s.domOn dom = true ∧ 409 < quota) ∧
  (∃ (s : State) (dt : Nat) (p : Path) (x : Session) (q : TReq) (dom : Nat) (quota : Nat),
    Issued (s.elapse dt) p x q 770 2 Perm.any ∧ s.domOn dom = true ∧ quota ≤ 409 ∧ (409 < (List.map (fun d => (s.chain d).quotaNext.getD (s.itemQuota d)) (List.filter (fun d => d != dom) s.doms)).sum + quota)) ∧
  (∃ (s : State) (dt : Nat) (p : Path) (x : Session) (q : TReq) (dom : Nat) (quota : Nat),
    Issued (s.elapse dt) p x q 770 2 Perm.any ∧ s.domOn dom = true ∧ quota ≤ 409 ∧ ((List.map (fun d => (s.chain d).quotaNext.getD (s.itemQuota d)) (List.filter (fun d => d != dom) s.doms)).sum + quota ≤ 409) ∧ quota ≠ s.itemQuota dom) ∧
  (∃ (s : State) (dt : Nat) (p : Path) (x : Session) (q : TReq) (dom : Nat) (quota : Nat),
    Issued (s.elapse dt) p x q 770 2 Perm.any ∧ s.domOn dom = true ∧ quota ≤ 409 ∧ ((List.map (fun d => (s.chain d).quotaNext.getD (s.itemQuota d)) (List.filter (fun d => d != dom) s.doms)).sum + quota ≤ 409) ∧ quota = s.itemQuota dom ∧ (s.chain dom).quotaNext = none) ∧
  (∃ (s : State) (dt : Nat) (p : Path) (x : Session) (q : TReq) (dom : Nat) (size : Nat),
    Issued (s.elapse dt) p x q 771 2 Perm.any ∧ s.domOn dom = true ∧ (size < 64 ∨ (s.memCeil dom).getD s.pagesTotal < size * 16)) ∧
  (∃ (s : State) (dt : Nat) (p : Path) (x : Session) (q : TReq) (dom : Nat) (size : Nat),
    Issued (s.elapse dt) p x q 771 2 Perm.any ∧ s.domOn dom = true ∧ 64 ≤ size ∧ size * 16 ≤ (s.memCeil dom).getD s.pagesTotal ∧ ({ s.elapse dt with led.chains := tset s.led.chains dom { s.chain dom with sizeNextKib := size * 1024 } } : State).poolsOk = true) ∧
  (∃ (s : State) (dt : Nat) (p : Path) (x : Session) (q : TReq) (dom : Nat) (which : Nat) (addr : Nat),
    Issued (s.elapse dt) p x q 772 4 (Perm.owner dom) ∧ which ≤ 2 ∧ addr < 2 ^ 63 ∧ s.domOn dom = false) ∧
  (∃ (s : State) (dt : Nat) (p : Path) (x : Session) (q : TReq) (dom : Nat) (which : Nat) (addr : Nat),
    Issued (s.elapse dt) p x q 772 4 (Perm.owner dom) ∧ which ≤ 2 ∧ addr < 2 ^ 63 ∧ s.domOn dom = true) ∧
  (∃ (s : State) (dt : Nat) (p : Path) (x : Session) (q : TReq) (dom : Nat),
    s.domOn dom = false ∧ Issued (s.elapse dt) p x q 770 2 Perm.any) ∧
  (∃ (s : State) (dt : Nat) (p : Path) (x : Session) (q : TReq) (dom : Nat),
    s.domOn dom = false ∧ Issued (s.elapse dt) p x q 771 2 Perm.any) ∧
  (∃ (s : State) (dt : Nat) (p : Path) (x : Session) (q : TReq) (dom : Nat),
    s.domOn dom = false ∧ Issued (s.elapse dt) p x q 773 1 (Perm.owner dom)) ∧
  (∃ (s : State) (dt : Nat) (p : Path) (x : Session) (q : TReq) (dom : Nat),
    Issued (s.elapse dt) p x q 773 1 (Perm.owner dom) ∧ s.domOn dom = true ∧ tget? s.led.atOpen dom = none) ∧
  (∃ (s : State) (dt : Nat) (p : Path) (x : Session) (q : TReq) (dom : Nat) (b : Bytes),
    Issued (s.elapse dt) p x q 773 1 (Perm.owner dom) ∧ s.domOn dom = true ∧ tget? s.led.atOpen dom = some b) :=
  ⟨⟨(ask (mapped .service) 0x0301 1), 3, (.mp 1), (sess 0x0301 1), (req 0x0301 1), 1,
      issued_of (by decide +kernel), by decide +kernel⟩,
    ⟨(ask (mapped .service) 0x0301 1), 3, (.mp 1), (sess 0x0301 1), (req 0x0301 1), 2,
      issued_of (by decide +kernel), by decide +kernel⟩,
    ⟨(ask (mapped .service) 0x0302 2), 3, (.mp 1), (sess 0x0302 2), (req 0x0302 2), 1, 410,
      issued_of (by decide +kernel), by decide +kernel⟩,
    ⟨(ask { mapped .service with led.chains := [(0, { quota := some 300 })] } 0x0302 2), 3, (.mp 1), (sess 0x0302 2), (req 0x0302 2), 1, 110,
      issued_of (by decide +kernel), by decide +kernel⟩,
    ⟨(ask { mapped .service with led.chains := [(0, { quota := some 300 })] } 0x0302 2), 3, (.mp 1), (sess 0x0302 2), (req 0x0302 2), 1, 109,
      issued_of (by decide +kernel), by decide +kernel⟩,
    ⟨(ask { mapped .service with led.chains := [(0, { quota := some 300 }), (1, { quota := some 109 })] } 0x0302 2), 3, (.mp 1), (sess 0x0302 2), (req 0x0302 2), 1, 109,
      issued_of (by decide +kernel), by decide +kernel⟩,
    ⟨(ask (mapped .service) 0x0303 2), 3, (.mp 1), (sess 0x0303 2), (req 0x0303 2), 1, 63,
      issued_of (by decide +kernel), by decide +kernel⟩,
    ⟨(ask (linked .service) 0x0303 2), 3, (.mp 1), (sess 0x0303 2), (req 0x0303 2), 0, 64,
      issued_of (by decide +kernel), by decide +kernel⟩,
    ⟨(ask (mapped .service) 0x0304 4), 3, (.mp 1), (sess 0x0304 4), (req 0x0304 4), 2, 2, (2 ^ 62),
      issued_of (by decide +kernel), by decide +kernel⟩,
    ⟨(ask (mapped .service) 0x0304 4), 3, (.mp 1), (sess 0x0304 4), (req 0x0304 4), 1, 1, (2 ^ 62),
      issued_of (by decide +kernel), by decide +kernel⟩,
    ⟨(ask (mapped .service) 0x0302 2), 3, (.mp 1), (sess 0x0302 2), (req 0x0302 2), 2,
      by decide +kernel, issued_of (by decide +kernel)⟩,
    ⟨(ask (mapped .service) 0x0303 2), 3, (.mp 1), (sess 0x0303 2), (req 0x0303 2), 2,
      by decide +kernel, issued_of (by decide +kernel)⟩,
    ⟨(ask (mapped .service) 0x0305 1), 3, (.mp 1), (sess 0x0305 1), (req 0x0305 1), 2,
      by decide +kernel, issued_of (by decide +kernel)⟩,
    ⟨(ask (mapped .service) 0x0305 1), 3, (.mp 1), (sess 0x0305 1), (req 0x0305 1), 1,
      issued_of (by decide +kernel), by decide +kernel⟩,
    ⟨(ask { mapped .service with led.atOpen := [(1, zeros 256)] } 0x0305 1), 3, (.mp 1), (sess 0x0305 1), (req 0x0305 1), 1, (zeros 256),
      issued_of (by decide +kernel), by decide +kernel⟩⟩

/-- The premises of `Obligations.EpochsRootsAndSigning`, clause by clause, are met. -/
theorem witness_EpochsRootsAndSigning :
  (∃ (s : State) (dt : Nat) (d : Nat),
    (s.elapse dt).Settled ∧ (s.elapse dt).now % grid 10 = 0 ∧ (s.chain d).isOpen = true ∧ (s.chain d).epoch.start ≠ (s.elapse dt).now) ∧
  (∃ (s : State) (dt : Nat) (d : Nat),
    (s.elapse dt).Settled ∧ (s.elapse dt).now % grid 10 = 0 ∧ (s.chain d).isOpen = false) ∧
  (∃ (s : State) (dt : Nat) (d : Nat) (e : Epoch) (due : Option Due) (rest : List (Epoch × Option Due)),
    (s.elapse dt).Settled ∧ (s.chain d).closing = (e, due) :: rest ∧ ((fun e => s.pl.frames.any fun f => decide (f.port < 24) && s.portDom f.port == d && decide (f.phase < 2) && decide (e.openedAt ≤ f.feed.at_) && decide (f.feed.at_ < e.closedAt)) e = true) ∧ s.backlog < 64) ∧
  (∃ (s : State) (dt : Nat) (d : Nat) (e : Epoch) (rest : List (Epoch × Option Due)),
    (s.elapse dt).Settled ∧ (s.chain d).closing = (e, none) :: rest ∧ e.closedAt < (s.elapse dt).elapsed ∧ ((fun e => s.pl.frames.any fun f => decide (f.port < 24) && s.portDom f.port == d && decide (f.phase < 2) && decide (e.openedAt ≤ f.feed.at_) && decide (f.feed.at_ < e.closedAt)) e = false)) ∧
  (∃ (s : State) (dt : Nat) (d : Nat) (e : Epoch) (u : Due) (rest : List (Epoch × Option Due)),
    (s.elapse dt).Settled ∧ (s.chain d).closing = (e, some u) :: rest ∧ e.closedAt < (s.elapse dt).elapsed ∧ ((fun e => s.pl.frames.any fun f => decide (f.port < 24) && s.portDom f.port == d && decide (f.phase < 2) && decide (e.openedAt ≤ f.feed.at_) && decide (f.feed.at_ < e.closedAt)) e = false) ∧ s.glb.mode ≠ Mode.factory) ∧
  (∃ (s : State) (dt : Nat) (d : Nat),
    (s.elapse dt).Settled ∧ (s.chain d).closing = [] ∧ s.backlog < 64) ∧
  (∃ (s : State) (dt : Nat),
    (s.elapse dt).Settled ∧ (s.elapse dt).now % grid 20 ≠ 0) ∧
  (∃ (s : State) (dt : Nat) (d : Nat),
    (s.elapse dt).Settled ∧ (s.elapse dt).now % grid 20 = 0 ∧ (s.chain d).isOpen = true ∧ (s.chain d).epoch.start ≠ (s.elapse dt).now) ∧
  (∃ (s : State) (dt : Nat) (d : Nat) (v : Nat),
    (s.elapse dt).Settled ∧ (s.elapse dt).now % grid 10 = 0 ∧ (s.chain d).isOpen = true ∧ (s.chain d).epoch.final = false ∧ (s.chain d).quotaNext = some v ∧ v ≠ s.itemQuota d) ∧
  (∃ (s : State) (dt : Nat) (d : Nat) (k : Ckpt),
    (s.elapse dt).Settled ∧ s.nextToSign = some (d, k)) ∧
  (∃ (s : State) (dt : Nat),
    (s.elapse dt).Settled ∧ s.nextToSign = none) ∧
  (∃ (s : State) (dt : Nat),
    (s.elapse dt).Settled ∧ s.led.openDue = none) ∧
  (∃ (s : State) (dt : Nat) (cause : Nat),
    (s.elapse dt).Settled ∧ s.led.openDue = some cause ∧ (s.elapse dt).now % grid 10 ≠ 0) ∧
  (∃ (s : State) (dt : Nat) (d : Nat) (cause : Nat),
    (s.elapse dt).Settled ∧ s.led.openDue = some cause ∧ (s.elapse dt).now % grid 10 = 0 ∧ s.domOn d = true) ∧
  (∃ (s : State) (dt : Nat) (d : Nat),
    (s.elapse dt).Settled ∧ s.exportRing d = none) ∧
  (∃ (s : State) (dt : Nat) (d : Nat) (k : Nat) (b : Desc) (x : LSlot) (rest : List LSlot),
    (s.elapse dt).Settled ∧ s.slu.events = [] ∧ (s.elapse dt).exportRing d = some k ∧ (List.find? (fun y => !y.ended) (s.ring k).fetched = some b) ∧ (s.elapse dt).mute (fnOfKey k) = false ∧ b.filled = 0 ∧ (s.chain d).copied = 0 ∧ (s.chain d).stream = x :: rest ∧ x.ready = true ∧ x.ends = true ∧ 1 ≤ b.len / 32 ∧ s.mem.marks = [] ∧ (s.chain d).sumStopped = false ∧ (s.chain d).retainLow = false ∧ 2 ^ 20 ≤ (s.chain d).freeBytes ∧ (s.ring (rkey (fnOfKey k) (s.ring k).cq)).enable = true ∧ (s.ring (rkey (fnOfKey k) (s.ring k).cq)).sump = [] ∧ (s.ring (rkey (fnOfKey k) (s.ring k).cq)).sumpFull = false ∧ (s.ring (rkey (fnOfKey k) (s.ring k).cq)).full = false) ∧
  (∃ (s : State) (dt : Nat) (d : Nat) (k : Nat) (b : Desc) (x : LSlot) (rest : List LSlot),
    (s.elapse dt).Settled ∧ s.slu.events = [] ∧ (s.elapse dt).exportRing d = some k ∧ (List.find? (fun y => !y.ended) (s.ring k).fetched = some b) ∧ (s.elapse dt).mute (fnOfKey k) = false ∧ b.filled = 0 ∧ (s.chain d).copied = 0 ∧ (s.chain d).stream = x :: rest ∧ x.ready = true ∧ x.ends = true ∧ 1 ≤ b.len / 32 ∧ s.mem.marks = [] ∧ (s.chain d).sumStopped = false ∧ (s.chain d).retainLow = false ∧ 2 ^ 20 ≤ (s.chain d).freeBytes ∧ (s.ring (rkey (fnOfKey k) (s.ring k).cq)).enable = true ∧ (s.ring (rkey (fnOfKey k) (s.ring k).cq)).sumpFull = false ∧ (s.ring (rkey (fnOfKey k) (s.ring k).cq)).sump.length < 64 ∧ (s.ring (rkey (fnOfKey k) (s.ring k).cq)).full = true) :=
  ⟨⟨(ledger .service), (grid 10), 0,
      settled_of (by decide +kernel), by decide +kernel⟩,
    ⟨(ledger .service), (grid 10), 1,
      settled_of (by decide +kernel), by decide +kernel⟩,
    ⟨{ closed with pl.frames := [{ port := 0, feed := { port := 0, dir := 0, trunc := false, at_ := 0, stamp := 0, quality := 0, len := 64, leaf := zeros 32 } }], led.chains := [(0, { (ledger .service).chain 0 with closing := [({ closedAt := 1 }, none)] })] }, 3, 0, { closedAt := 1 }, none, [],
      settled_of (by decide +kernel), by decide +kernel⟩,
    ⟨closed, 3, 0, { closedAt := 0 }, [],
      settled_of (by decide +kernel), by decide +kernel⟩,
    ⟨dueNow, 3, 0, { closedAt := 0 }, { kind := 0, stop := 5, nextStart := 5, quality := 0, mode := 2, utc := 0, leap := 3, leapNs := 0, ringVer := 0, quota := 409 }, [],
      settled_of (by decide +kernel), by decide +kernel⟩,
    ⟨(ledger .service), 3, 0,
      settled_of (by decide +kernel), by decide +kernel⟩,
    ⟨(ledger .service), (grid 20 - 1),
      settled_of (by decide +kernel), by decide +kernel⟩,
    ⟨(ledger .service), (grid 20), 0,
      settled_of (by decide +kernel), by decide +kernel⟩,
    ⟨{ ledger .service with led.chains := [(0, { (ledger .service).chain 0 with quotaNext := some 5 })] }, (grid 10), 0, 5,
      settled_of (by decide +kernel), by decide +kernel⟩,
    ⟨{ ledger .service with led.chains := [(0, { (ledger .service).chain 0 with waiting := [{ body := zeros 160, slot := 0, kept := true, kind := 0, sequence := 4, closedAt := 0 }], stream := [{ chain := 0, num := 0, data := zeros 32 }] }), (1, {})] }, 3, 0, { body := zeros 160, slot := 0, kept := true, kind := 0, sequence := 4, closedAt := 0 },
      settled_of (by decide +kernel), by decide +kernel⟩,
    ⟨(ledger .service), 3,
      settled_of (by decide +kernel), by decide +kernel⟩,
    ⟨(ledger .service), (grid 10),
      settled_of (by decide +kernel), by decide +kernel⟩,
    ⟨{ linked .priming with led.openDue := some 1 }, 3, 1,
      settled_of (by decide +kernel), by decide +kernel⟩,
    ⟨{ linked .priming with led.openDue := some 1, led.retention := [(0, zeros 256)] }, (grid 10), 0, 1,
      settled_of (by decide +kernel), by decide +kernel⟩,
    ⟨(ledger .service), (grid 10), 0,
      settled_of (by decide +kernel), by decide +kernel⟩,
    ⟨(exports { enable := true, kind := 2, log2 := 3 }), (grid 10), 0, (rkey 0 4), { idx := 0, len := 64 }, { chain := 0, num := 0, data := zeros 32, ends := true }, [],
      settled_of (by decide +kernel), by decide +kernel⟩,
    ⟨(exports { enable := true, kind := 2, log2 := 3, dev := 8 }), (grid 10), 0, (rkey 0 4), { idx := 0, len := 64 }, { chain := 0, num := 0, data := zeros 32, ends := true }, [],
      settled_of (by decide +kernel), by decide +kernel⟩⟩

set_option Elab.async false
set_option maxRecDepth 4000
/-- The premises of `Obligations.LinkStates`, clause by clause, are met. -/
theorem witness_LinkStates :
  (∃ (s : State) (dt : Nat) (p : Nat),
    (s.elapse dt).Settled ∧ (s.pt p).state = PState.training ∧ ((s.pt p).cfg.autoneg = false ∨ (s.pt p).anDone = true)) ∧
  (∃ (s : State) (dt : Nat) (p : Nat),
    (s.elapse dt).Settled ∧ (s.pt p).state = PState.training ∧ (s.pt p).cfg.autoneg = true ∧ (s.pt p).anDone = false) ∧
  (∃ (s : State) (dt : Nat) (p : Nat),
    (s.elapse dt).Settled ∧ (s.pt p).state = PState.held ∧ (s.pt p).calState ≠ 2) ∧
  (∃ (s : State) (dt : Nat) (p : Nat),
    (s.elapse dt).Settled ∧ (s.pt p).state = PState.calibrating) ∧
  (∃ (s : State) (dt : Nat) (p : Nat),
    (s.elapse dt).Settled ∧ (s.pt p).state = PState.held ∧ (s.pt p).calState = 1) ∧
  (∃ (s : State) (dt : Nat) (p : Nat),
    (s.elapse dt).Settled ∧ (s.pt p).state ≠ PState.calibrating ∧ (s.pt p).state ≠ PState.held) ∧
  (∃ (s : State) (dt : Nat) (p : Nat),
    (s.elapse dt).Settled ∧ ((s.pt p).state = PState.disabled ∨ (s.pt p).state = PState.dormant)) ∧
  (∃ (s : State) (dt : Nat) (p : Nat),
    (s.elapse dt).Settled ∧ ((s.pt p).state = PState.up ∨ (s.pt p).state = PState.fault) ∧ (s.pt p).calState = 2) ∧
  (∃ (s : State) (dt : Nat) (p : Nat),
    (s.elapse dt).Settled ∧ (s.pt p).state = PState.up) ∧
  (∃ (s : State) (dt : Nat) (p : Nat),
    (s.elapse dt).Settled ∧ ((s.pt p).state = PState.training ∨ (s.pt p).state = PState.calibrating ∨ (s.pt p).state = PState.fault ∨ (s.pt p).state = PState.held)) ∧
  (∃ (s : State) (dt : Nat) (p : Nat),
    (s.elapse dt).Settled ∧ (s.pt p).state = PState.fault) ∧
  (∃ (s : State) (dt : Nat) (p : Nat),
    (s.elapse dt).Settled ∧ (s.pt p).state ≠ PState.disabled ∧ (s.pt p).state ≠ PState.dormant) ∧
  (∃ (s : State) (dt : Nat) (p : Nat),
    (s.elapse dt).Settled ∧ ((s.pt p).state ≠ PState.training ∨ (s.pt p).cfg.autoneg = false)) ∧
  (∃ (s : State) (dt : Nat) (p : Nat),
    (s.elapse dt).Settled ∧ (s.pt p).state = PState.dormant ∧ (s.pt p).wakeSeen = false) ∧
  (∃ (s : State) (dt : Nat) (p : Nat),
    (s.elapse dt).Settled ∧ ((s.pt p).state ≠ PState.dormant ∨ (s.pt p).wakeSeen = true)) :=
  ⟨⟨(port0 { state := .training, cfg := { autoneg := true }, anDone := true }), 3, 0,
      settled_of (by decide +kernel), by decide +kernel⟩,
    ⟨(port0 { state := .training, cfg := { autoneg := true } }), 3, 0,
      settled_of (by decide +kernel), by decide +kernel⟩,
    ⟨(port0 { state := .held }), 3, 0,
      settled_of (by decide +kernel), by decide +kernel⟩,
    ⟨(port0 { state := .calibrating, mode := 1 }), 3, 0,
      settled_of (by decide +kernel), by decide +kernel⟩,
    ⟨(port0 { state := .held, mode := 1, calState := 1 }), 3, 0,
      settled_of (by decide +kernel), by decide +kernel⟩,
    ⟨(port0 { state := .up }), 3, 0,
      settled_of (by decide +kernel), by decide +kernel⟩,
    ⟨(port0 { state := .dormant }), 3, 0,
      settled_of (by decide +kernel), by decide +kernel⟩,
    ⟨(port0 { state := .up, linkDowns := 65535, calState := 2 }), 3, 0,
      settled_of (by decide +kernel), by decide +kernel⟩,
    ⟨(port0 { state := .up, calState := 2 }), 3, 0,
      settled_of (by decide +kernel), by decide +kernel⟩,
    ⟨(port0 { state := .held }), 3, 0,
      settled_of (by decide +kernel), by decide +kernel⟩,
    ⟨(port0 { state := .fault, calState := 2, remoteFault := true }), 3, 0,
      settled_of (by decide +kernel), by decide +kernel⟩,
    ⟨(port0 { state := .training }), 3, 0,
      settled_of (by decide +kernel), by decide +kernel⟩,
    ⟨(port0 { state := .training }), 3, 0,
      settled_of (by decide +kernel), by decide +kernel⟩,
    ⟨(port0 { state := .dormant }), 3, 0,
      settled_of (by decide +kernel), by decide +kernel⟩,
    ⟨(port0 { state := .dormant, wakeSeen := true }), 3, 0,
      settled_of (by decide +kernel), by decide +kernel⟩⟩

/-- The premises of `Obligations.PortCommands`, clause by clause, are met. -/
theorem witness_PortCommands :
  (∃ (s : State) (dt : Nat) (p : Path) (x : Session) (q : TReq) (modes : List Nat) (fecs : List Nat),
    Issued (s.elapse dt) p x q 1025 48 Perm.any ∧ ((modes.all fun m => decide (m < 16)) = true) ∧ ((fecs.all fun f => decide (f < 4)) = true) ∧ mapShape modes fecs = false) ∧
  (∃ (s : State) (dt : Nat) (p : Path) (x : Session) (q : TReq) (modes : List Nat) (fecs : List Nat),
    Issued (s.elapse dt) p x q 1025 48 Perm.any ∧ ((modes.all fun m => decide (m < 16)) = true) ∧ ((fecs.all fun f => decide (f < 4)) = true) ∧ mapShape modes fecs = true ∧ s.mapLanes modes = false) ∧
  (∃ (s : State) (dt : Nat) (p : Path) (x : Session) (q : TReq) (modes : List Nat) (fecs : List Nat),
    Issued (s.elapse dt) p x q 1025 48 Perm.any ∧ ((modes.all fun m => decide (m < 16)) = true) ∧ ((fecs.all fun f => decide (f < 4)) = true) ∧ mapShape modes fecs = true ∧ s.mapLanes modes = true ∧ s.mapRecords modes = false) ∧
  (∃ (s : State) (dt : Nat) (p : Path) (x : Session) (q : TReq) (modes : List Nat) (fecs : List Nat),
    Issued (s.elapse dt) p x q 1025 48 Perm.any ∧ ((modes.all fun m => decide (m < 16)) = true) ∧ ((fecs.all fun f => decide (f < 4)) = true) ∧ mapShape modes fecs = true ∧ s.mapLanes modes = true ∧ s.mapRecords modes = true) ∧
  (∃ (s : State) (dt : Nat) (p : Path) (x : Session) (q : TReq) (port : Nat) (mac : Nat) (mf : Nat) (ap : Nat) (st : Nat) (rm : Nat) (rs : Nat) (sp : Nat) (ti : Nat) (ip : Nat) (tci : Nat) (an : Nat),
    Issued (s.elapse dt) p x q 1026 12 (dataPerm port) ∧ mac < 2 ^ 48 ∧ sp < 65536 ∧ ip < 65536 ∧ tci < 65536 ∧ port < 24 ∧ (mf < 1522 ∨ 9728 < mf ∨ 1 < ap ∨ 1 < st ∨ 1 < rm ∨ 1 < rs ∨ 2 < ti ∨ 1 < an ∨ sp ≠ 33024 ∧ sp ≠ 34984 ∨ ip ≠ 33024 ∧ ip ≠ 34984)) ∧
  (∃ (s : State) (dt : Nat) (p : Path) (x : Session) (q : TReq) (port : Nat) (mac : Nat) (mf : Nat) (ap : Nat) (st : Nat) (rm : Nat) (rs : Nat) (sp : Nat) (ti : Nat) (ip : Nat) (tci : Nat) (an : Nat),
    Issued (s.elapse dt) p x q 1026 12 (dataPerm port) ∧ mac < 2 ^ 48 ∧ sp < 65536 ∧ ip < 65536 ∧ tci < 65536 ∧ port < 24 ∧ (¬(mf < 1522 ∨ 9728 < mf ∨ 1 < ap ∨ 1 < st ∨ 1 < rm ∨ 1 < rs ∨ 2 < ti ∨ 1 < an ∨ sp ≠ 33024 ∧ sp ≠ 34984 ∨ ip ≠ 33024 ∧ ip ≠ 34984)) ∧ port < (s.elapse dt).portCount) ∧
  (∃ (s : State) (dt : Nat) (p : Path) (x : Session) (q : TReq) (port : Nat),
    Issued (s.elapse dt) p x q 1027 1 (portPerm port) ∧ 23 < port ∧ port ≠ 255) ∧
  (∃ (s : State) (dt : Nat) (p : Path) (x : Session) (q : TReq) (port : Nat),
    Issued (s.elapse dt) p x q 1027 1 (portPerm port) ∧ port < 24 ∧ (s.elapse dt).portCount ≤ port) ∧
  (∃ (s : State) (dt : Nat) (p : Path) (x : Session) (q : TReq) (port : Nat),
    Issued (s.elapse dt) p x q 1027 1 (portPerm port) ∧ port < 24 ∧ port < (s.elapse dt).portCount) ∧
  (∃ (s : State) (dt : Nat) (p : Path) (x : Session) (q : TReq) (port : Nat),
    Issued (s.elapse dt) p x q 1027 1 (portPerm port) ∧ port = 255) ∧
  (∃ (s : State) (dt : Nat) (p : Path) (x : Session) (q : TReq) (port : Nat) (mode : Nat) (en : Nat) (xoff : List Nat) (xon : List Nat) (qu : Nat),
    Issued (s.elapse dt) p x q 1028 20 (dataPerm port) ∧ en < 256 ∧ qu < 65536 ∧ port < 24 ∧ (2 < mode ∨ ((List.range 8).any fun i => ({ mode := mode, enable := en, xoff := List.take 8 xoff, xon := List.take 8 xon, quanta := qu } : PfcCfg).tracked i && !(decide (nth xon i < nth xoff i) && decide (nth xoff i ≤ tget s.tm.ingRes port 256))) = true)) ∧
  (∃ (s : State) (dt : Nat) (p : Path) (x : Session) (q : TReq) (port : Nat) (mode : Nat) (en : Nat) (xoff : List Nat) (xon : List Nat) (qu : Nat),
    Issued (s.elapse dt) p x q 1028 20 (dataPerm port) ∧ en < 256 ∧ qu < 65536 ∧ port < 24 ∧ (¬(2 < mode ∨ ((List.range 8).any fun i => ({ mode := mode, enable := en, xoff := List.take 8 xoff, xon := List.take 8 xon, quanta := qu } : PfcCfg).tracked i && !(decide (nth xon i < nth xoff i) && decide (nth xoff i ≤ tget s.tm.ingRes port 256))) = true)) ∧ port < (s.elapse dt).portCount) ∧
  (∃ (s : State) (dt : Nat) (p : Path) (x : Session) (q : TReq) (port : Nat),
    Issued (s.elapse dt) p x q 1029 1 (dataPerm port) ∧ port < 24 ∧ port < (s.elapse dt).portCount ∧ ((s.pt port).state = PState.disabled ∨ (s.pt port).state = PState.held)) ∧
  (∃ (s : State) (dt : Nat) (p : Path) (x : Session) (q : TReq) (port : Nat),
    Issued (s.elapse dt) p x q 1029 1 (dataPerm port) ∧ port < 24 ∧ port < (s.elapse dt).portCount ∧ (s.pt port).state = PState.dormant) ∧
  (∃ (s : State) (dt : Nat) (p : Path) (x : Session) (q : TReq) (port : Nat),
    Issued (s.elapse dt) p x q 1029 1 (dataPerm port) ∧ port < 24 ∧ port < (s.elapse dt).portCount ∧ ((s.pt port).state = PState.training ∨ (s.pt port).state = PState.calibrating ∨ (s.pt port).state = PState.up ∨ (s.pt port).state = PState.fault)) ∧
  (∃ (s : State) (dt : Nat) (p : Path) (x : Session) (q : TReq) (port : Nat),
    Issued (s.elapse dt) p x q 1030 1 (dataPerm port) ∧ port < 24 ∧ port < (s.elapse dt).portCount ∧ (s.pt port).state ≠ PState.dormant) ∧
  (∃ (s : State) (dt : Nat) (p : Path) (x : Session) (q : TReq) (port : Nat),
    Issued (s.elapse dt) p x q 1030 1 (dataPerm port) ∧ port < 24 ∧ port < (s.elapse dt).portCount ∧ (s.pt port).state = PState.dormant) ∧
  (∃ (s : State) (dt : Nat) (p : Path) (x : Session) (q : TReq) (port : Nat) (dst : Nat) (pair : Nat),
    Issued (s.elapse dt) p x q 1031 3 Perm.any ∧ dst < 2 ^ 48 ∧ pair < 65536 ∧ port ≠ 255 ∧ 23 < port) ∧
  (∃ (s : State) (dt : Nat) (p : Path) (x : Session) (q : TReq) (port : Nat) (dst : Nat) (pair : Nat),
    Issued (s.elapse dt) p x q 1031 3 Perm.any ∧ dst < 2 ^ 48 ∧ pair < 65536 ∧ port < 24 ∧ (s.elapse dt).portCount ≤ port) ∧
  (∃ (s : State) (dt : Nat) (p : Path) (x : Session) (q : TReq) (port : Nat) (dst : Nat) (pair : Nat),
    Issued (s.elapse dt) p x q 1031 3 Perm.any ∧ dst < 2 ^ 48 ∧ pair < 65536 ∧ (port = 255 ∨ port < 24 ∧ port < (s.elapse dt).portCount)) ∧
  (∃ (s : State) (dt : Nat) (p : Path) (x : Session) (q : TReq) (follow : Nat) (speed : Nat) (duplex : Nat),
    Issued (s.elapse dt) p x q 1032 3 Perm.any ∧ follow ≠ 1 ∧ (1 < follow ∨ 1 < duplex ∨ speed ≠ 10 ∧ speed ≠ 100 ∧ speed ≠ 1000 ∨ speed = 1000 ∧ duplex = 0)) ∧
  (∃ (s : State) (dt : Nat) (p : Path) (x : Session) (q : TReq) (follow : Nat),
    Issued (s.elapse dt) p x q 1032 3 Perm.any ∧ follow = 1) ∧
  (∃ (s : State) (dt : Nat) (p : Path) (x : Session) (q : TReq) (follow : Nat) (speed : Nat) (duplex : Nat),
    Issued (s.elapse dt) p x q 1032 3 Perm.any ∧ follow = 0 ∧ (¬(1 < follow ∨ 1 < duplex ∨ speed ≠ 10 ∧ speed ≠ 100 ∧ speed ≠ 1000 ∨ speed = 1000 ∧ duplex = 0))) ∧
  (∃ (s : State) (dt : Nat) (p : Path) (x : Session) (q : TReq) (port : Nat) (rate : Nat) (pat : Nat) (loop : Nat),
    Issued (s.elapse dt) p x q 1033 5 Perm.any ∧ port < 24 ∧ (1 < loop ∨ rate < 125 ∨ 11250 < rate ∨ 6 < pat ∨ pat = 6 ∧ rate ≤ 2800)) ∧
  (∃ (s : State) (dt : Nat) (p : Path) (x : Session) (q : TReq) (port : Nat) (rate : Nat) (pat : Nat) (loop : Nat),
    Issued (s.elapse dt) p x q 1033 5 Perm.any ∧ port < 24 ∧ (¬(1 < loop ∨ rate < 125 ∨ 11250 < rate ∨ 6 < pat ∨ pat = 6 ∧ rate ≤ 2800)) ∧ port < (s.elapse dt).portCount ∧ (s.pt (s.lanePort port)).state ≠ PState.disabled) ∧
  (∃ (s : State) (dt : Nat) (p : Path) (x : Session) (q : TReq) (port : Nat) (rate : Nat) (pat : Nat) (loop : Nat),
    Issued (s.elapse dt) p x q 1033 5 Perm.any ∧ port < 24 ∧ (¬(1 < loop ∨ rate < 125 ∨ 11250 < rate ∨ 6 < pat ∨ pat = 6 ∧ rate ≤ 2800)) ∧ port < (s.elapse dt).portCount ∧ (s.pt (s.lanePort port)).state = PState.disabled) :=
  ⟨⟨(ask (port0 { state := .up }) 0x0401 48), 3, (.mp 1), (sess 0x0401 48), (req 0x0401 48), (List.replicate 24 4), (List.replicate 24 2),
      issued_of (by decide +kernel), by decide +kernel⟩,
    ⟨(ask { port0 { state := .up } with fuse.orderCode := 0x0B } 0x0401 48), 3, (.mp 1), (sess 0x0401 48), (req 0x0401 48), (List.replicate 24 1), (List.replicate 24 0),
      issued_of (by decide +kernel), by decide +kernel⟩,
    ⟨(ask { mapped .service with ports.ports := [(0, { state := .up })] } 0x0401 48), 3, (.mp 1), (sess 0x0401 48), (req 0x0401 48), ([8] ++ List.replicate 23 0), ([2] ++ List.replicate 23 0),
      issued_of (by decide +kernel), by decide +kernel⟩,
    ⟨(ask (port0 { state := .up }) 0x0401 48), 3, (.mp 1), (sess 0x0401 48), (req 0x0401 48), ([8] ++ List.replicate 23 0), ([2] ++ List.replicate 23 0),
      issued_of (by decide +kernel), by decide +kernel⟩,
    ⟨(ask (port0 { state := .up }) 0x0402 12), 3, (.mp 1), (sess 0x0402 12), (req 0x0402 12), 0, 1, 9729, 0, 0, 0, 0, 0x8100, 0, 0x88A8, 0, 0,
      issued_of (by decide +kernel), by decide +kernel⟩,
    ⟨(ask (port0 { state := .up }) 0x0402 12), 3, (.mp 1), (sess 0x0402 12), (req 0x0402 12), 0, 1, 9728, 1, 1, 1, 1, 0x8100, 2, 0x88A8, 65535, 1,
      issued_of (by decide +kernel), by decide +kernel⟩,
    ⟨(ask (port0 { state := .up }) 0x0403 1), 3, (.mp 1), (sess 0x0403 1), (req 0x0403 1), 24,
      issued_of (by decide +kernel), by decide +kernel⟩,
    ⟨(ask (bDev .service) 0x0403 1), 3, (.mp 1), (sess 0x0403 1), (req 0x0403 1), 16,
      issued_of (by decide +kernel), by decide +kernel⟩,
    ⟨(ask (port0 { state := .up }) 0x0403 1), 3, (.mp 1), (sess 0x0403 1), (req 0x0403 1), 0,
      issued_of (by decide +kernel), by decide +kernel⟩,
    ⟨(ask (port0 { state := .up }) 0x0403 1), 3, (.mp 1), (sess 0x0403 1), (req 0x0403 1), 0xFF,
      issued_of (by decide +kernel), by decide +kernel⟩,
    ⟨(ask (port0 { state := .up }) 0x0404 20), 3, (.mp 1), (sess 0x0404 20), (req 0x0404 20), 0, 3, 255, [], [], 65535,
      issued_of (by decide +kernel), by decide +kernel⟩,
    ⟨(ask (port0 { state := .up }) 0x0404 20), 3, (.mp 1), (sess 0x0404 20), (req 0x0404 20), 0, 2, 255, [2,2,3,4,5,6,7,8], [1,1,1,1,1,1,1,1], 65535,
      issued_of (by decide +kernel), by decide +kernel⟩,
    ⟨(ask (port0 { state := .held }) 0x0405 1), 3, (.mp 1), (sess 0x0405 1), (req 0x0405 1), 0,
      issued_of (by decide +kernel), by decide +kernel⟩,
    ⟨(ask (port0 { state := .dormant }) 0x0405 1), 3, (.mp 1), (sess 0x0405 1), (req 0x0405 1), 0,
      issued_of (by decide +kernel), by decide +kernel⟩,
    ⟨(ask (port0 { state := .up, mode := 1, tx := [{ data := zeros 64, kind := 1 }, { data := zeros 64, kind := 2 }] }) 0x0405 1), 3, (.mp 1), (sess 0x0405 1), (req 0x0405 1), 0,
      issued_of (by decide +kernel), by decide +kernel⟩,
    ⟨(ask (port0 { state := .training }) 0x0406 1), 3, (.mp 1), (sess 0x0406 1), (req 0x0406 1), 0,
      issued_of (by decide +kernel), by decide +kernel⟩,
    ⟨(ask (port0 { state := .dormant, wakeSeen := true }) 0x0406 1), 3, (.mp 1), (sess 0x0406 1), (req 0x0406 1), 0,
      issued_of (by decide +kernel), by decide +kernel⟩,
    ⟨(ask (port0 { state := .up }) 0x0407 3), 3, (.mp 1), (sess 0x0407 3), (req 0x0407 3), 24, (2^48-1), 65535,
      issued_of (by decide +kernel), by decide +kernel⟩,
    ⟨(ask (bDev .service) 0x0407 3), 3, (.mp 1), (sess 0x0407 3), (req 0x0407 3), 16, (2^48-1), 65535,
      issued_of (by decide +kernel), by decide +kernel⟩,
    ⟨(ask (port0 { state := .up }) 0x0407 3), 3, (.mp 1), (sess 0x0407 3), (req 0x0407 3), 0, (2^48-1), 65535,
      issued_of (by decide +kernel), by decide +kernel⟩,
    ⟨(ask (port0 { state := .up }) 0x0408 3), 3, (.mp 1), (sess 0x0408 3), (req 0x0408 3), 0, 1000, 0,
      issued_of (by decide +kernel), by decide +kernel⟩,
    ⟨(ask (port0 { state := .up }) 0x0408 3), 3, (.mp 1), (sess 0x0408 3), (req 0x0408 3), 1,
      issued_of (by decide +kernel), by decide +kernel⟩,
    ⟨(ask (port0 { state := .up }) 0x0408 3), 3, (.mp 1), (sess 0x0408 3), (req 0x0408 3), 0, 100, 0,
      issued_of (by decide +kernel), by decide +kernel⟩,
    ⟨(ask (port0 { state := .disabled }) 0x0409 5), 3, (.mp 1), (sess 0x0409 5), (req 0x0409 5), 0, 125, 5, 2,
      issued_of (by decide +kernel), by decide +kernel⟩,
    ⟨(ask (port0 { state := .up }) 0x0409 5), 3, (.mp 1), (sess 0x0409 5), (req 0x0409 5), 0, 11250, 5, 1,
      issued_of (by decide +kernel), by decide +kernel⟩,
    ⟨(ask (port0 { state := .disabled }) 0x0409 5), 3, (.mp 1), (sess 0x0409 5), (req 0x0409 5), 0, 11250, 6, 1,
      issued_of (by decide +kernel), by decide +kernel⟩⟩

/-- The premises of `Obligations.PortEvents`, clause by clause, are met. -/
theorem witness_PortEvents :
  (∃ (s : State) (dt : Nat) (l : Nat) (lt : LaneTest) (x : Session) (q : TReq),
    (s.elapse dt).Settled ∧ (List.find? (fun y => y.lane == l && decide (y.ends ≤ (s.elapse dt).elapsed)) s.ports.laneTests = some lt) ∧ Awaits (s.elapse dt) lt.path x q 1033) ∧
  (∃ (s : State) (dt : Nat) (l : Nat),
    (s.elapse dt).Settled ∧ (List.find? (fun y => y.lane == l && decide (y.ends ≤ (s.elapse dt).elapsed)) s.ports.laneTests = none)) ∧
  (∃ (s : State) (dt : Nat) (sp : Nat) (full : Bool),
    (s.elapse dt).Settled ∧ s.ports.mp.fixed = none ∧ s.ports.mp.up = false ∧ (sp ≠ 1000 ∨ full = true)) ∧
  (∃ (s : State) (dt : Nat),
    (s.elapse dt).Settled ∧ s.ports.mp.fixed = none ∧ s.ports.mp.up = true) ∧
  (∃ (s : State) (dt : Nat) (p : Nat) (i : Nat),
    (s.elapse dt).Settled ∧ nth (s.pt p).pausedTo i ≠ 0 ∧ nth (s.pt p).pausedTo i ≤ (s.elapse dt).elapsed) ∧
  (∃ (s : State) (dt : Nat) (p : Nat) (i : Nat),
    (s.elapse dt).Settled ∧ (nth (s.pt p).pausedTo i = 0 ∨ (s.elapse dt).elapsed < nth (s.pt p).pausedTo i)) ∧
  (∃ (s : State) (dt : Nat) (p : Nat),
    (s.elapse dt).Settled ∧ ((s.pt p).state ≠ PState.up ∨ List.filter (fun i => (s.pt p).asserted.testBit i && decide (nth (s.pt p).refreshAt i ≤ (s.elapse dt).elapsed) && decide (nth (s.pt p).held i > nth (s.pt p).pfc.xon i * 1024)) (List.range 8) = [])) ∧
  (∃ (s : State) (dt : Nat) (p : Nat),
    (s.elapse dt).Settled ∧ (s.pt p).state = PState.up ∧ (List.filter (fun i => (s.pt p).asserted.testBit i && decide (nth (s.pt p).refreshAt i ≤ (s.elapse dt).elapsed) && decide (nth (s.pt p).held i > nth (s.pt p).pfc.xon i * 1024)) (List.range 8) ≠ []) ∧ (s.pt p).tx = []) ∧
  (∃ (s : State) (dt : Nat) (p : Nat),
    (s.elapse dt).Settled ∧ s.ports.hb.port = some p ∧ s.portUp p = true ∧ s.glb.mode.heartbeats = true ∧ s.ports.hb.waiting = none ∧ (s.elapse dt).now % ns 102400 = 0 ∧ s.ports.hb.served ≠ nsOf (s.elapse dt).now + 1) ∧
  (∃ (s : State) (dt : Nat) (p : Nat),
    (s.elapse dt).Settled ∧ s.ports.hb.port = some p ∧ s.portUp p = true ∧ s.glb.mode.heartbeats = true ∧ s.ports.hb.waiting = none ∧ ((s.elapse dt).now % ns 102400 ≠ 0 ∨ s.ports.hb.served = nsOf (s.elapse dt).now + 1)) ∧
  (∃ (s : State) (dt : Nat),
    (s.elapse dt).Settled ∧ (s.ports.hb.port = none ∨ s.glb.mode.heartbeats = false)) ∧
  (∃ (s : State) (dt : Nat) (p : Nat) (k : Nat),
    (s.elapse dt).Settled ∧ s.ports.hb.port = some p ∧ s.ports.hb.checking = some k ∧ (s.elapse dt).now < (k + 1) * ns 102400) ∧
  (∃ (s : State) (dt : Nat) (p : Nat) (k : Nat),
    (s.elapse dt).Settled ∧ s.ports.hb.port = some p ∧ s.ports.hb.checking = some k ∧ (k + 1) * ns 102400 ≤ (s.elapse dt).now ∧ k ∈ s.ports.hb.heard) ∧
  (∃ (s : State) (dt : Nat) (p : Nat) (k : Nat),
    (s.elapse dt).Settled ∧ s.ports.hb.port = some p ∧ s.ports.hb.checking = some k ∧ (k + 1) * ns 102400 ≤ (s.elapse dt).now ∧ ¬k ∈ s.ports.hb.heard) ∧
  (∃ (s : State) (dt : Nat) (mac : Nat) (b : Bytes) (rest : List (Nat × Bytes)),
    (s.elapse dt).dead = false ∧ s.ports.pfcDue = [] ∧ ((List.all s.led.chains fun e => !e.snd.freed) = true) ∧ s.ports.mp.up = true ∧ s.ports.mp.half = true ∧ s.ports.mp.tx = (mac, b) :: rest ∧ s.ports.mp.backoff = none ∧ s.ports.mp.begun ≤ (s.elapse dt).elapsed ∧ (s.elapse dt).elapsed < s.ports.mp.begun + mpBit s.ports.mp.speed * 8 * (List.length ((s.elapse dt).mpBytes mac b) + 8) ∧ (s.elapse dt).elapsed ≤ s.ports.mp.begun + 512 * mpBit s.ports.mp.speed ∧ s.ports.mp.attempts < 15) ∧
  (∃ (s : State) (dt : Nat) (mac : Nat) (b : Bytes) (rest : List (Nat × Bytes)),
    (s.elapse dt).dead = false ∧ s.ports.pfcDue = [] ∧ ((List.all s.led.chains fun e => !e.snd.freed) = true) ∧ s.ports.mp.up = true ∧ s.ports.mp.half = true ∧ s.ports.mp.tx = (mac, b) :: rest ∧ s.ports.mp.backoff = none ∧ s.ports.mp.begun ≤ (s.elapse dt).elapsed ∧ (s.elapse dt).elapsed < s.ports.mp.begun + mpBit s.ports.mp.speed * 8 * (List.length ((s.elapse dt).mpBytes mac b) + 8) ∧ (s.ports.mp.begun + 512 * mpBit s.ports.mp.speed < (s.elapse dt).elapsed ∨ 15 ≤ s.ports.mp.attempts)) ∧
  (∃ (s : State) (dt : Nat) (mac : Nat) (b : Bytes) (rest : List (Nat × Bytes)) (e : Nat),
    (s.elapse dt).dead = false ∧ s.ports.pfcDue = [] ∧ ((List.all s.led.chains fun e => !e.snd.freed) = true) ∧ s.ports.mp.up = true ∧ s.ports.mp.half = true ∧ s.ports.mp.tx = (mac, b) :: rest ∧ s.ports.mp.backoff = some e ∧ e ≤ (s.elapse dt).elapsed) ∧
  (∃ (s : State) (dt : Nat) (mac : Nat) (b : Bytes) (rest : List (Nat × Bytes)) (e : Nat),
    (s.elapse dt).dead = false ∧ s.ports.pfcDue = [] ∧ ((List.all s.led.chains fun e => !e.snd.freed) = true) ∧ s.ports.mp.up = true ∧ s.ports.mp.half = true ∧ s.ports.mp.tx = (mac, b) :: rest ∧ s.ports.mp.backoff = some e ∧ (s.elapse dt).elapsed < e) :=
  ⟨⟨(wait { inMode .service with ports.laneTests := [{ lane := 2, rate := 125, pattern := 0, loop := 0, ends := 5, path := .mp 1 }] } 0x0409 5), 5, 2, { lane := 2, rate := 125, pattern := 0, loop := 0, ends := 5, path := .mp 1 }, (busy 0x0409 5), (req 0x0409 5),
      settled_of (by decide +kernel), by decide +kernel, awaits_of (by decide +kernel)⟩,
    ⟨(wait { inMode .service with ports.laneTests := [{ lane := 2, rate := 125, pattern := 0, loop := 0, ends := 5, path := .mp 1 }] } 0x0409 5), 4, 2,
      settled_of (by decide +kernel), by decide +kernel⟩,
    ⟨(inMode .service), 3, 100, false,
      settled_of (by decide +kernel), by decide +kernel⟩,
    ⟨{ ask (inMode .service) 0x0403 1 with ports.mp := { up := true, speed := 100 } }, 3,
      settled_of (by decide +kernel), by decide +kernel⟩,
    ⟨(port0 { state := .up, pausedTo := [0,3,0,0,0,0,0,0] }), 3, 0, 1,
      settled_of (by decide +kernel), by decide +kernel⟩,
    ⟨(port0 { state := .up, pausedTo := [0,3,0,0,0,0,0,0] }), 2, 0, 1,
      settled_of (by decide +kernel), by decide +kernel⟩,
    ⟨(port0 { state := .held }), 3, 0,
      settled_of (by decide +kernel), by decide +kernel⟩,
    ⟨(port0 { state := .up, mode := 1, asserted := 1, refreshAt := [3,0,0,0,0,0,0,0], held := [2049,0,0,0,0,0,0,0], pfc := { mode := 2, enable := 1, xoff := [2,0,0,0,0,0,0,0], xon := [2,0,0,0,0,0,0,0] } }), 3, 0,
      settled_of (by decide +kernel), by decide +kernel⟩,
    ⟨{ port0 { state := .up, mode := 1 } with ports.hb.port := some 0 }, (ns 102400), 0,
      settled_of (by decide +kernel), by decide +kernel⟩,
    ⟨{ port0 { state := .up, mode := 1 } with ports.hb.port := some 0 }, (ns 102400 + 1), 0,
      settled_of (by decide +kernel), by decide +kernel⟩,
    ⟨(port0 { state := .up, mode := 1 }), (ns 102400),
      settled_of (by decide +kernel), by decide +kernel⟩,
    ⟨{ port0 { state := .up, mode := 1 } with ports.hb := { port := some 0, checking := some 1, heard := [1, 2], missed := 3 } }, (2 * ns 102400 - 1), 0, 1,
      settled_of (by decide +kernel), by decide +kernel⟩,
    ⟨{ port0 { state := .up, mode := 1 } with ports.hb := { port := some 0, checking := some 1, heard := [1, 2], missed := 3 } }, (2 * ns 102400), 0, 1,
      settled_of (by decide +kernel), by decide +kernel⟩,
    ⟨{ port0 { state := .up, mode := 1 } with ports.hb := { port := some 0, checking := some 1, heard := [2], missed := 3 } }, (2 * ns 102400), 0, 1,
      settled_of (by decide +kernel), by decide +kernel⟩,
    ⟨{ inMode .service with ports.mp := { up := true, half := true, speed := 10, attempts := 14, tx := [(5, zeros 64)] } }, 3, 5, (zeros 64), [],
      by decide +kernel⟩,
    ⟨{ inMode .service with ports.mp := { up := true, half := true, speed := 10, attempts := 15, tx := [(5, zeros 64)] } }, 3, 5, (zeros 64), [],
      by decide +kernel⟩,
    ⟨{ inMode .service with ports.mp := { up := true, half := true, speed := 10, attempts := 15, backoff := some 3, tx := [(5, zeros 64)] } }, 3, 5, (zeros 64), [], 3,
      by decide +kernel⟩,
    ⟨{ inMode .service with ports.mp := { up := true, half := true, speed := 10, attempts := 15, backoff := some 3, tx := [(5, zeros 64)] } }, 2, 5, (zeros 64), [], 3,
      by decide +kernel⟩⟩

set_option Elab.async false
set_option maxRecDepth 4000
/-- The premises of `Obligations.ReceiveAndPipelines`, clause by clause, are met. -/
theorem witness_ReceiveAndPipelines :
  (∃ (s : State) (dt : Nat) (p : Nat),
    (s.elapse dt).Settled ∧ (s.pt p).calState ≠ 2) ∧
  (∃ (s : State) (dt : Nat) (p : Nat) (age : Nat),
    (s.elapse dt).Settled ∧ (s.pt p).calState = 2 ∧ ((s.pt p).state = PState.held ∨ (s.elapse dt).ingFree p ((s.elapse dt).sfdAt ((s.elapse dt).elapsed - age) (s.calRx p) 0) < ((s.pt p).cfgFor ((s.elapse dt).sfdAt ((s.elapse dt).elapsed - age) (s.calRx p) 0)).maxFrame)) ∧
  (∃ (s : State) (dt : Nat) (p : Nat) (trunc : Bool),
    (s.elapse dt).Settled ∧ (s.pt p).calState = 2 ∧ trunc = true ∧ s.spoutCapable p = false) ∧
  (∃ (s : State) (dt : Nat) (p : Nat) (age : Nat) (data : Bytes) (trunc : Bool),
    (s.elapse dt).Settled ∧ (s.pt p).calState = 2 ∧ trunc = false ∧ (s.pt p).state ≠ PState.held ∧ s.spoutCapable p = false ∧ (s.ms p).on = false ∧ ((s.pt p).cfgFor ((s.elapse dt).sfdAt ((s.elapse dt).elapsed - age) (s.calRx p) 0)).rxStrip = false ∧ ((s.pt p).cfgFor ((s.elapse dt).sfdAt ((s.elapse dt).elapsed - age) (s.calRx p) 0)).fcsStrip = true ∧ ((s.pt p).cfgFor ((s.elapse dt).sfdAt ((s.elapse dt).elapsed - age) (s.calRx p) 0)).maxFrame ≤ (s.elapse dt).ingFree p ((s.elapse dt).sfdAt ((s.elapse dt).elapsed - age) (s.calRx p) 0) ∧ (64 ≤ List.length data ∧ List.length data ≤ ((s.pt p).cfgFor ((s.elapse dt).sfdAt ((s.elapse dt).elapsed - age) (s.calRx p) 0)).maxFrame ∧ List.drop (List.length data - 4) data = le (fcs (List.take (List.length data - 4) data)) 4) ∧ ofBe (slice data 12 2) ≠ 34824 ∧ s.ports.hb.port ≠ some p) ∧
  (∃ (s : State) (dt : Nat) (p : Nat) (age : Nat) (data : Bytes),
    (s.elapse dt).Settled ∧ (s.pt p).calState = 2 ∧ (s.pt p).state ≠ PState.held ∧ ((s.pt p).cfgFor ((s.elapse dt).sfdAt ((s.elapse dt).elapsed - age) (s.calRx p) 0)).maxFrame ≤ (s.elapse dt).ingFree p ((s.elapse dt).sfdAt ((s.elapse dt).elapsed - age) (s.calRx p) 0) ∧ (64 ≤ List.length data ∧ List.length data ≤ ((s.pt p).cfgFor ((s.elapse dt).sfdAt ((s.elapse dt).elapsed - age) (s.calRx p) 0)).maxFrame ∧ List.drop (List.length data - 4) data = le (fcs (List.take (List.length data - 4) data)) 4) ∧ ofBe (slice data 12 2) = 34824 ∧ ofBe (slice data 14 2) = 1 ∧ (s.pt p).pfc.mode = 1) ∧
  (∃ (s : State) (dt : Nat) (p : Nat) (age : Nat) (data : Bytes),
    (s.elapse dt).Settled ∧ (s.pt p).calState = 2 ∧ (s.pt p).state ≠ PState.held ∧ ((s.pt p).cfgFor ((s.elapse dt).sfdAt ((s.elapse dt).elapsed - age) (s.calRx p) 0)).maxFrame ≤ (s.elapse dt).ingFree p ((s.elapse dt).sfdAt ((s.elapse dt).elapsed - age) (s.calRx p) 0) ∧ (64 ≤ List.length data ∧ List.length data ≤ ((s.pt p).cfgFor ((s.elapse dt).sfdAt ((s.elapse dt).elapsed - age) (s.calRx p) 0)).maxFrame ∧ List.drop (List.length data - 4) data = le (fcs (List.take (List.length data - 4) data)) 4) ∧ ofBe (slice data 12 2) = 34824 ∧ ofBe (slice data 14 2) = 257 ∧ (s.pt p).pfc.mode = 2) ∧
  (∃ (s : State) (dt : Nat) (slot : Nat),
    (s.elapse dt).Settled ∧ ((s.elapse dt).slotTaker slot = none ∨ (s.elapse dt).slotTurns slot = false)) ∧
  (∃ (s : State) (dt : Nat) (slot : Nat) (f : Frame),
    (s.elapse dt).Settled ∧ (s.elapse dt).slotTaker slot = some f ∧ (s.elapse dt).slotTurns slot = true ∧ f.path = 2) ∧
  (∃ (s : State) (dt : Nat) (slot : Nat) (f : Frame),
    (s.elapse dt).Settled ∧ (s.elapse dt).slotTaker slot = some f ∧ (s.elapse dt).slotTurns slot = true ∧ f.path = 1) ∧
  (∃ (s : State) (dt : Nat) (slot : Nat) (f : Frame),
    (s.elapse dt).Settled ∧ (s.elapse dt).slotTaker slot = some f ∧ (s.elapse dt).slotTurns slot = true ∧ f.path = 0 ∧ f.notarise = false ∧ (((s.elapse dt).view f.feed.at_).profileOf f.dom f.profile).used = []) ∧
  (∃ (s : State) (dt : Nat) (p : Nat) (st : Nat),
    (s.elapse dt).Settled ∧ ((s.pl.frames.any fun f => f.port == p && f.phase == 1 && f.misses.contains st) = false)) ∧
  (∃ (s : State) (dt : Nat) (f : Frame) (pos : Nat) (st : Nat) (x : MTable) (e : Entry) (o : Bool) (i : Nat),
    (s.elapse dt).Settled ∧ ((List.filter (fun y => y.port == f.port && y.phase == 1 && y.misses.contains st) s.pl.frames)[pos]? = some f) ∧ s.mem.marks = [] ∧ tget? (((s.elapse dt).tableReady ((((s.elapse dt).view f.feed.at_).profileOf f.dom f.profile).stages.getD st { }).table f.feed).view f.feed.at_).tables ((((s.elapse dt).view f.feed.at_).profileOf f.dom f.profile).stages.getD st { }).table = some x ∧ x.find (padKey (rangesKey f.pv ((((s.elapse dt).view f.feed.at_).profileOf f.dom f.profile).stages.getD st { }).key)) = some (o, i, e)) ∧
  (∃ (s : State) (dt : Nat) (f : Frame) (pos : Nat) (st : Nat) (x : MTable),
    (s.elapse dt).Settled ∧ ((List.filter (fun y => y.port == f.port && y.phase == 1 && y.misses.contains st) s.pl.frames)[pos]? = some f) ∧ s.mem.marks = [] ∧ tget? (((s.elapse dt).tableReady ((((s.elapse dt).view f.feed.at_).profileOf f.dom f.profile).stages.getD st { }).table f.feed).view f.feed.at_).tables ((((s.elapse dt).view f.feed.at_).profileOf f.dom f.profile).stages.getD st { }).table = some x ∧ x.find (padKey (rangesKey f.pv ((((s.elapse dt).view f.feed.at_).profileOf f.dom f.profile).stages.getD st { }).key)) = none) ∧
  (∃ (s : State) (dt : Nat) (f : Frame) (pos : Nat) (st : Nat) (x : MTable),
    (s.elapse dt).Settled ∧ ((List.filter (fun y => y.port == f.port && y.phase == 1 && y.misses.contains st) s.pl.frames)[pos]? = some f) ∧ s.mem.marks = [] ∧ tget? (((s.elapse dt).tableReady ((((s.elapse dt).view f.feed.at_).profileOf f.dom f.profile).stages.getD st { }).table f.feed).view f.feed.at_).tables ((((s.elapse dt).view f.feed.at_).profileOf f.dom f.profile).stages.getD st { }).table = some x ∧ x.dom = 0 ∧ s.glb.mode ≠ Mode.lockdown) ∧
  (∃ (s : State) (dt : Nat) (f : Frame) (pos : Nat) (st : Nat) (x : MTable),
    (s.elapse dt).Settled ∧ ((List.filter (fun y => y.port == f.port && y.phase == 1 && y.misses.contains st) s.pl.frames)[pos]? = some f) ∧ s.mem.marks = [] ∧ tget? (((s.elapse dt).tableReady ((((s.elapse dt).view f.feed.at_).profileOf f.dom f.profile).stages.getD st { }).table f.feed).view f.feed.at_).tables ((((s.elapse dt).view f.feed.at_).profileOf f.dom f.profile).stages.getD st { }).table = some x ∧ x.dom ≠ 0 ∧ x.dom < 16 ∧ s.glb.mode ≠ Mode.factory) ∧
  (∃ (s : State) (dt : Nat) (p : Nat),
    (s.elapse dt).Settled ∧ (Option.any (fun f => f.phase == 2) (List.find? (fun f => f.port == p) s.pl.frames) = false)) ∧
  (∃ (s : State) (dt : Nat) (p : Nat) (f : Frame),
    (s.elapse dt).Settled ∧ (List.find? (fun f => f.port == p) s.pl.frames = some f) ∧ f.phase = 2) ∧
  (∃ (s : State) (dt : Nat) (p : Nat),
    (s.elapse dt).Settled ∧ ((s.pl.spoutWait.any fun r => r.egress == p) = false)) ∧
  (∃ (s : State) (dt : Nat) (p : Nat),
    (s.elapse dt).Settled ∧ ((s.pl.spoutWait.any fun r => r.egress == p) = true) ∧ (s.portUp p = false ∨ s.spoutCapable p = false)) ∧
  (∃ (s : State) (dt : Nat) (p : Nat) (r : SpoutRep),
    (s.elapse dt).Settled ∧ (List.find? (fun y => !(s.elapse dt).pausedOn p y.tc) (List.filter (fun y => y.egress == p) s.pl.spoutWait) = some r) ∧ s.portUp p = true ∧ s.spoutCapable p = true ∧ ((s.elapse dt).lineFree p = false ∨ s.ports.hb.port = some p ∧ s.ports.hb.waiting ≠ none ∨ (s.elapse dt).holdOk p (List.length r.data) = false)) ∧
  (∃ (s : State) (dt : Nat) (p : Nat) (r : SpoutRep),
    (s.elapse dt).Settled ∧ (List.find? (fun y => !(s.elapse dt).pausedOn p y.tc) (List.filter (fun y => y.egress == p) s.pl.spoutWait) = some r) ∧ s.portUp p = true ∧ s.spoutCapable p = true ∧ (s.elapse dt).lineFree p = true ∧ s.ports.hb.waiting = none ∧ (s.elapse dt).holdOk p (List.length r.data) = true ∧ r.egress = p ∧ List.length r.data ≤ (s.pt p).cfg.maxFrame) :=
  ⟨⟨(rxOn { state := .up, calState := 1 }), 3, 0,
      settled_of (by decide +kernel), by decide +kernel⟩,
    ⟨(rxOn { state := .held, calState := 2 }), (ns 100), 0, (ns 2),
      settled_of (by decide +kernel), by decide +kernel⟩,
    ⟨(rxOn { state := .up, calState := 2 }), (ns 100), 0, true,
      settled_of (by decide +kernel), by decide +kernel⟩,
    ⟨(rxOn { state := .up, calState := 2, mode := 1, cfg := { fcsStrip := true } }), (ns 100), 0, (ns 2), (eth 0x0800), false,
      settled_of (by decide +kernel), by decide +kernel⟩,
    ⟨(rxOn { state := .up, calState := 2, mode := 1, pfc := { mode := 1 } }), (ns 100), 0, (ns 2), (eth 0x8808),
      settled_of (by decide +kernel), by decide +kernel⟩,
    ⟨(rxOn { state := .up, calState := 2, mode := 1, pfc := { mode := 2 } }), (ns 100), 0, (ns 2), pfcIn,
      settled_of (by decide +kernel), by decide +kernel⟩,
    ⟨(port0 { state := .up }), 3, 0,
      settled_of (by decide +kernel), by decide +kernel⟩,
    ⟨{ port0 { state := .up } with pl.frames := [{ port := 0, path := 2 }], pl.nextPipe := 2 }, 3, 0, { port := 0, path := 2 },
      settled_of (by decide +kernel), by decide +kernel⟩,
    ⟨{ port0 { state := .up } with pl.frames := [{ port := 0, path := 1 }], pl.nextPipe := 2 }, 3, 0, { port := 0, path := 1 },
      settled_of (by decide +kernel), by decide +kernel⟩,
    ⟨{ port0 { state := .up } with pl.frames := [{ port := 0 }], pl.nextPipe := 2, pl.cur.profiles := [(0, { final := 0x12 })] }, 3, 0, { port := 0 },
      settled_of (by decide +kernel), by decide +kernel⟩,
    ⟨{ port0 { state := .up } with pl.frames := [{ port := 0, phase := 2 }], pl.nextPipe := 2 }, 3, 0, 0,
      settled_of (by decide +kernel), by decide +kernel⟩,
    ⟨waitsDeep, 3, { port := 0, phase := 1, misses := [0, 1] }, 0, 0, { dom := 0, deep := true, log2 := 8, ovf := [(0, { key := zeros 32, result := 5 })] }, { key := zeros 32, result := 5 }, true, 0,
      settled_of (by decide +kernel), by decide +kernel⟩,
    ⟨waitsNone, 3, { port := 0, phase := 1, misses := [0] }, 0, 0, { dom := 0, deep := true, log2 := 8 },
      settled_of (by decide +kernel), by decide +kernel⟩,
    ⟨waitsDeep, 3, { port := 0, phase := 1, misses := [0, 1] }, 0, 1, { dom := 0, deep := true, log2 := 8, ovf := [(0, { key := zeros 32, result := 5 })] },
      settled_of (by decide +kernel), by decide +kernel⟩,
    ⟨{ waitsDeep with pl.cur.tables := [(5, { dom := 1, deep := true, log2 := 8 })] }, 3, { port := 0, phase := 1, misses := [0, 1] }, 0, 1, { dom := 1, deep := true, log2 := 8 },
      settled_of (by decide +kernel), by decide +kernel⟩,
    ⟨{ port0 { state := .up } with pl.frames := [{ port := 0, phase := 1 }], pl.nextPipe := 2 }, 3, 0,
      settled_of (by decide +kernel), by decide +kernel⟩,
    ⟨{ port0 { state := .up } with pl.frames := [{ port := 0, phase := 2 }, { port := 1, phase := 2 }], pl.nextPipe := 2 }, 3, 0, { port := 0, phase := 2 },
      settled_of (by decide +kernel), by decide +kernel⟩,
    ⟨{ port0 { state := .up } with pl.spoutWait := [{ ingress := 2, egress := 1, data := zeros 64, tc := 0, fcsBad := false, at_ := 0 }] }, 3, 0,
      settled_of (by decide +kernel), by decide +kernel⟩,
    ⟨{ port0 { state := .up } with pl.spoutWait := [{ ingress := 2, egress := 0, data := zeros 64, tc := 0, fcsBad := false, at_ := 0 }] }, 3, 0,
      settled_of (by decide +kernel), by decide +kernel⟩,
    ⟨{ port0 { state := .up, mode := 3, busyTo := 9 } with pl.spoutWait := [{ ingress := 2, egress := 0, data := zeros 64, tc := 0, fcsBad := false, at_ := 0 }], pl.cur.ports := [(0, { spoutEn := true })] }, 3, 0, { ingress := 2, egress := 0, data := zeros 64, tc := 0, fcsBad := false, at_ := 0 },
      settled_of (by decide +kernel), by decide +kernel⟩,
    ⟨{ port0 { state := .up, mode := 3 } with pl.spoutWait := [{ ingress := 2, egress := 0, data := zeros 64, tc := 0, fcsBad := false, at_ := 0 }], pl.cur.ports := [(0, { spoutEn := true })] }, 3, 0, { ingress := 2, egress := 0, data := zeros 64, tc := 0, fcsBad := false, at_ := 0 },
      settled_of (by decide +kernel), by decide +kernel⟩⟩

/-- The premises of `Obligations.ParserSettings`, clause by clause, are met. -/
theorem witness_ParserSettings :
  (∃ (s : State) (dt : Nat) (p : Path) (x : Session) (q : TReq) (addr : Nat) (len : Nat) (buf : Bytes),
    Issued (s.elapse dt) p x q 1281 2 Perm.any ∧ addr < 2 ^ 63 ∧ graphOf (slice buf 0 (min len 6160)) = none) ∧
  (∃ (s : State) (dt : Nat) (p : Path) (x : Session) (q : TReq) (addr : Nat) (len : Nat) (buf : Bytes) (g : Graph),
    Issued (s.elapse dt) p x q 1281 2 Perm.any ∧ addr < 2 ^ 63 ∧ graphOf (slice buf 0 (min len 6160)) = some g ∧ len ≤ 6160 ∧ s.pl.swap = []) ∧
  (∃ (s : State) (dt : Nat) (p : Path) (x : Session) (q : TReq) (addr : Nat) (len : Nat) (buf : Bytes) (g : Graph),
    Issued (s.elapse dt) p x q 1281 2 Perm.any ∧ addr < 2 ^ 63 ∧ graphOf (slice buf 0 (min len 6160)) = some g ∧ len ≤ 6160 ∧ s.pl.swap ≠ []) ∧
  (∃ (s : State) (dt : Nat) (p : Path) (x : Session) (q : TReq),
    Issued (s.elapse dt) p x q 1282 0 Perm.any ∧ s.pl.inactive.loaded = false) ∧
  (∃ (s : State) (dt : Nat) (p : Path) (x : Session) (q : TReq),
    Issued (s.elapse dt) p x q 1282 0 Perm.any ∧ s.pl.inactive.loaded = true) ∧
  (∃ (s : State) (dt : Nat) (p : Path) (x : Session) (q : TReq),
    (s.elapse dt).Settled ∧ s.pl.swap = [p] ∧ Awaits (s.elapse dt) p x q 1282) ∧
  (∃ (s : State) (dt : Nat) (p : Path) (x : Session) (q : TReq) (dom : Nat) (ports : Nat) (addr : Nat) (cls : Nat) (prof : Nat) (n : Nat),
    Issued (s.elapse dt) p x q 1283 7 (Perm.owner dom) ∧ dom < 16 ∧ ports < 2 ^ 24 ∧ prof < 1024 ∧ n < 2 ∧ addr < 2 ^ 63 ∧ 65280 ≤ cls ∧ cls < 65536) ∧
  (∃ (s : State) (dt : Nat) (p : Path) (x : Session) (q : TReq) (dom : Nat) (idx : Nat) (ports : Nat) (addr : Nat) (cls : Nat) (prof : Nat) (n : Nat),
    Issued (s.elapse dt) p x q 1283 7 (Perm.owner dom) ∧ dom < 16 ∧ ports < 2 ^ 24 ∧ prof < 1024 ∧ n < 2 ∧ addr < 2 ^ 63 ∧ cls < 65280 ∧ s.ruleQuota dom ≤ idx) ∧
  (∃ (s : State) (dt : Nat) (p : Path) (x : Session) (q : TReq) (dom : Nat) (idx : Nat) (ports : Nat) (addr : Nat) (cls : Nat) (prof : Nat) (n : Nat),
    Issued (s.elapse dt) p x q 1283 7 (Perm.owner dom) ∧ dom < 16 ∧ ports < 2 ^ 24 ∧ prof < 1024 ∧ n < 2 ∧ addr < 2 ^ 63 ∧ cls < 65280 ∧ idx < s.ruleQuota dom ∧ (∀ (k : Nat), k < 24 → ports.testBit k = true → s.portOwner k = dom)) ∧
  (∃ (s : State) (dt : Nat) (p : Path) (x : Session) (q : TReq) (dom : Nat) (idx : Nat),
    Issued (s.elapse dt) p x q 1284 2 (Perm.owner dom) ∧ dom < 16 ∧ idx < 4096) ∧
  (∃ (s : State) (dt : Nat) (p : Path) (x : Session) (q : TReq) (dom : Nat) (quota : Nat),
    Issued (s.elapse dt) p x q 1288 2 Perm.any ∧ dom < 16 ∧ s.pl.cur.rules = [] ∧ (4096 < (List.map s.ruleQuota (List.filter (fun d => d != dom) (List.range 16))).sum + quota)) ∧
  (∃ (s : State) (dt : Nat) (p : Path) (x : Session) (q : TReq) (dom : Nat) (quota : Nat),
    Issued (s.elapse dt) p x q 1288 2 Perm.any ∧ dom < 16 ∧ s.pl.cur.rules = [] ∧ ((List.map s.ruleQuota (List.filter (fun d => d != dom) (List.range 16))).sum + quota ≤ 4096)) ∧
  (∃ (s : State) (dt : Nat) (p : Path) (x : Session) (q : TReq) (port : Nat) (prof : Nat) (mal : Nat) (sump : Nat),
    Issued (s.elapse dt) p x q 1285 4 (dataPerm port) ∧ prof < 4 ∧ mal < 2 ∧ sump < 32768 ∧ 23 < port) ∧
  (∃ (s : State) (dt : Nat) (p : Path) (x : Session) (q : TReq) (port : Nat) (prof : Nat) (mal : Nat) (sump : Nat),
    Issued (s.elapse dt) p x q 1285 4 (dataPerm port) ∧ prof < 4 ∧ mal < 2 ∧ sump < 32768 ∧ port < 24 ∧ port < s.portCount ∧ s.queueDom sump ≠ some (s.portOwner port)) ∧
  (∃ (s : State) (dt : Nat) (p : Path) (x : Session) (q : TReq) (port : Nat) (prof : Nat) (mal : Nat) (sump : Nat),
    Issued (s.elapse dt) p x q 1285 4 (dataPerm port) ∧ prof < 4 ∧ mal < 2 ∧ sump < 32768 ∧ port < 24 ∧ port < s.portCount ∧ s.queueDom sump = some (s.portOwner port)) ∧
  (∃ (s : State) (dt : Nat) (p : Path) (x : Session) (q : TReq) (prof : Nat) (w : Nat) (ranges : List (Nat × Nat)),
    Issued (s.elapse dt) p x q 1286 (3 + 2 * ranges.length) Perm.any ∧ w < 2 ∧ prof < 4 ∧ ranges.length ≤ 8 ∧ ((ranges.all fun r => decide (1 ≤ r.snd ∧ r.snd ≤ 16 ∧ r.fst + r.snd ≤ 64)) = true) ∧ ((if w = 1 then 31 else 32) < (List.map (fun x => x.snd) ranges).sum)) ∧
  (∃ (s : State) (dt : Nat) (p : Path) (x : Session) (q : TReq) (prof : Nat) (w : Nat) (ranges : List (Nat × Nat)),
    Issued (s.elapse dt) p x q 1286 (3 + 2 * ranges.length) Perm.any ∧ w < 2 ∧ prof < 4 ∧ ranges.length ≤ 8 ∧ ((ranges.all fun r => decide (1 ≤ r.snd ∧ r.snd ≤ 16 ∧ r.fst + r.snd ≤ 64)) = true) ∧ ((List.map (fun x => x.snd) ranges).sum ≤ if w = 1 then 31 else 32)) ∧
  (∃ (s : State) (dt : Nat) (p : Path) (x : Session) (q : TReq) (port : Nat),
    Issued (s.elapse dt) p x q 1287 1 (dataPerm port) ∧ port < 24 ∧ port < s.portCount ∧ s.slu.events = []) ∧
  (∃ (s : State) (dt : Nat) (port : Nat),
    (s.elapse dt).Settled ∧ (s.elapse dt).barOpen 0 = true ∧ port < s.portCount) :=
  ⟨⟨(ask (linked .service) 0x0501 2), 3, (.mp 1), (sess 0x0501 2), (req 0x0501 2), 0x1000, 6161, (zeros 16),
      issued_of (by decide +kernel), by decide +kernel⟩,
    ⟨(ask (linked .service) 0x0501 2), 3, (.mp 1), (sess 0x0501 2), (req 0x0501 2), 0x1000, 16, (le 1 16), { loaded := true },
      issued_of (by decide +kernel), by decide +kernel⟩,
    ⟨(ask { linked .service with pl.swap := [.mp 2] } 0x0501 2), 3, (.mp 1), (sess 0x0501 2), (req 0x0501 2), 0x1000, 16, (le 1 16), { loaded := true },
      issued_of (by decide +kernel), by decide +kernel⟩,
    ⟨(ask (linked .service) 0x0502 0), 3, (.mp 1), (sess 0x0502 0), (req 0x0502 0),
      issued_of (by decide +kernel), by decide +kernel⟩,
    ⟨(ask { linked .service with pl.inactive.loaded := true } 0x0502 0), 3, (.mp 1), (sess 0x0502 0), (req 0x0502 0),
      issued_of (by decide +kernel), by decide +kernel⟩,
    ⟨(wait { linked .service with pl.inactive.loaded := true, pl.swap := [.mp 1] } 0x0502 0), 3, (.mp 1), (busy 0x0502 0), (req 0x0502 0),
      settled_of (by decide +kernel), by decide +kernel, awaits_of (by decide +kernel)⟩,
    ⟨(ask (linked .service) 0x0503 7), 3, (.mp 1), (sess 0x0503 7), (req 0x0503 7), 0, 1, 0, 0xFF00, 0, 0,
      issued_of (by decide +kernel), by decide +kernel⟩,
    ⟨(ask (linked .service) 0x0503 7), 3, (.mp 1), (sess 0x0503 7), (req 0x0503 7), 0, 4096, 1, 0, 0xFEFF, 0, 0,
      issued_of (by decide +kernel), by decide +kernel⟩,
    ⟨(ask (linked .service) 0x0503 7), 3, (.mp 1), (sess 0x0503 7), (req 0x0503 7), 0, 4095, (2^24-1), 0, 0xFEFF, 1023, 1,
      issued_of (by decide +kernel), by decide +kernel⟩,
    ⟨(ask (linked .service) 0x0504 2), 3, (.mp 1), (sess 0x0504 2), (req 0x0504 2), 0, 4095,
      issued_of (by decide +kernel), by decide +kernel⟩,
    ⟨(ask (mapped .service) 0x0508 2), 3, (.mp 1), (sess 0x0508 2), (req 0x0508 2), 1, 2049,
      issued_of (by decide +kernel), by decide +kernel⟩,
    ⟨(ask (mapped .service) 0x0508 2), 3, (.mp 1), (sess 0x0508 2), (req 0x0508 2), 1, 2048,
      issued_of (by decide +kernel), by decide +kernel⟩,
    ⟨(ask (mapped .service) 0x0505 4), 3, (.mp 1), (sess 0x0505 4), (req 0x0505 4), 24, 3, 1, 32767,
      issued_of (by decide +kernel), by decide +kernel⟩,
    ⟨(ask (mapped .service) 0x0505 4), 3, (.mp 1), (sess 0x0505 4), (req 0x0505 4), 0, 3, 1, 32767,
      issued_of (by decide +kernel), by decide +kernel⟩,
    ⟨(ask (linked .service) 0x0505 4), 3, (.mp 1), (sess 0x0505 4), (req 0x0505 4), 0, 3, 1, 0,
      issued_of (by decide +kernel), by decide +kernel⟩,
    ⟨(ask (linked .service) 0x0506 7), 3, (.mp 1), (sess 0x0506 7), (req 0x0506 7), 3, 1, [(0,16),(48,16)],
      issued_of (by decide +kernel), by decide +kernel⟩,
    ⟨(ask (linked .service) 0x0506 7), 3, (.mp 1), (sess 0x0506 7), (req 0x0506 7), 3, 0, [(0,16),(48,16)],
      issued_of (by decide +kernel), by decide +kernel⟩,
    ⟨(ask (linked .service) 0x0507 1), 3, (.mp 1), (sess 0x0507 1), (req 0x0507 1), 0,
      issued_of (by decide +kernel), by decide +kernel⟩,
    ⟨(linked .service), 3, 0,
      settled_of (by decide +kernel), by decide +kernel⟩⟩

set_option Elab.async false
set_option maxRecDepth 4000
/-- The premises of `Obligations.TableChanges`, clause by clause, are met. -/
theorem witness_TableChanges :
  (∃ (s : State) (dt : Nat) (p : Path) (x : Session) (q : TReq) (k : Nat) (dom : Nat) (tier : Nat) (b : Nat) (len : Nat) (seed : Option Nat) (e : Nat) (m : Nat) (n : Nat),
    Issued (s.elapse dt) p x q 1312 9 Perm.any ∧ (Option.all (fun v => decide (v < 2 ^ 32)) seed = true) ∧ (15 < k ∨ s.domOn dom = false ∨ 1 < tier ∨ (b < if tier = 0 then 8 else 12) ∨ (if tier = 0 then 18 else 26) < b ∨ len < 1 ∨ 32 < len ∨ 2 < e ∨ 65535 < m ∨ 1 < n)) ∧
  (∃ (s : State) (dt : Nat) (p : Path) (x : Session) (q : TReq) (k : Nat) (dom : Nat) (tier : Nat) (b : Nat) (len : Nat) (seed : Option Nat) (e : Nat) (m : Nat) (n : Nat),
    Issued (s.elapse dt) p x q 1312 9 Perm.any ∧ (Option.all (fun v => decide (v < 2 ^ 32)) seed = true) ∧ (¬(15 < k ∨ s.domOn dom = false ∨ 1 < tier ∨ (b < if tier = 0 then 8 else 12) ∨ (if tier = 0 then 18 else 26) < b ∨ len < 1 ∨ 32 < len ∨ 2 < e ∨ 65535 < m ∨ 1 < n)) ∧ ((tget? s.pl.cur.tables k).isSome = true ∨ (if tier = 1 then if s.isB = true then 134217728 else 268435456 else 1048576) < (List.map (fun z => 4 * 2 ^ z.snd.log2) (List.filter (fun z => z.snd.deep == ({ dom := dom, deep := tier == 1, log2 := b, keyLen := len, seed := seed.getD 0, evict := e, mult := m, notify := n == 1 } : MTable).deep) s.pl.cur.tables)).sum + 4 * 2 ^ b)) ∧
  (∃ (s : State) (dt : Nat) (p : Path) (x : Session) (q : TReq) (k : Nat) (dom : Nat) (tier : Nat) (b : Nat) (len : Nat) (seed : Option Nat) (e : Nat) (m : Nat) (n : Nat),
    Issued (s.elapse dt) p x q 1312 9 Perm.any ∧ (Option.all (fun v => decide (v < 2 ^ 32)) seed = true) ∧ (¬(15 < k ∨ s.domOn dom = false ∨ 1 < tier ∨ (b < if tier = 0 then 8 else 12) ∨ (if tier = 0 then 18 else 26) < b ∨ len < 1 ∨ 32 < len ∨ 2 < e ∨ 65535 < m ∨ 1 < n)) ∧ tget? s.pl.cur.tables k = none ∧ ((List.map (fun z => 4 * 2 ^ z.snd.log2) (List.filter (fun z => z.snd.deep == ({ dom := dom, deep := tier == 1, log2 := b, keyLen := len, seed := seed.getD 0, evict := e, mult := m, notify := n == 1 } : MTable).deep) s.pl.cur.tables)).sum + 4 * 2 ^ b ≤ if tier = 1 then if s.isB = true then 134217728 else 268435456 else 1048576) ∧ (tier = 1 → ({ s.elapse dt with pl := ({ (s.elapse dt).pl with cur := ({ (s.elapse dt).pl.cur with tables := tset s.pl.cur.tables k ({ dom := dom, deep := tier == 1, log2 := b, keyLen := len, seed := seed.getD 0, evict := e, mult := m, notify := n == 1 } : MTable) } : View) } : Pl) } : State).poolsOk = true)) ∧
  (∃ (s : State) (dt : Nat) (p : Path) (x : Session) (q : TReq) (k : Nat),
    Issued (s.elapse dt) p x q 1313 1 (s.tablePerm k) ∧ 15 < k) ∧
  (∃ (s : State) (dt : Nat) (p : Path) (x : Session) (q : TReq) (k : Nat),
    Issued (s.elapse dt) p x q 1313 1 (s.tablePerm k) ∧ k ≤ 15 ∧ ((List.any s.pl.cur.profiles fun y => y.snd.stages.any fun st => st.table == k) = true)) ∧
  (∃ (s : State) (dt : Nat) (p : Path) (x : Session) (q : TReq) (k : Nat),
    Issued (s.elapse dt) p x q 1313 1 (s.tablePerm k) ∧ k ≤ 15 ∧ ((List.any s.pl.cur.profiles fun y => y.snd.stages.any fun st => st.table == k) = false)) ∧
  (∃ (s : State) (dt : Nat) (p : Path) (x : Session) (q : TReq) (k : Nat) (addr : Nat) (r : Nat) (fx : Nat) (rep : Nat),
    Issued (s.elapse dt) p x q 1314 4 (s.tablePerm k) ∧ resultWide r = false ∧ fx < 2 ∧ rep < 2 ∧ badAddr p addr = true) ∧
  (∃ (s : State) (dt : Nat) (p : Path) (x : Session) (q : TReq) (k : Nat) (addr : Nat) (r : Nat) (fx : Nat) (rep : Nat),
    Issued (s.elapse dt) p x q 1314 4 (s.tablePerm k) ∧ resultWide r = false ∧ fx < 2 ∧ rep < 2 ∧ badAddr p addr = false ∧ tget? s.pl.cur.tables k = none) ∧
  (∃ (s : State) (dt : Nat) (p : Path) (x : Session) (q : TReq) (k : Nat) (addr : Nat) (r : Nat) (fx : Nat) (rep : Nat) (key : Bytes) (y : MTable),
    Issued (s.elapse dt) p x q 1314 4 (s.tablePerm k) ∧ resultWide r = false ∧ fx < 2 ∧ rep < 2 ∧ badAddr p addr = false ∧ tget? s.pl.cur.tables k = some y ∧ (y.find (padKey (slice ((s.elapse dt).cmdRead p addr 32 key) 0 y.keyLen))).isSome = true ∧ rep = 0) ∧
  (∃ (s : State) (dt : Nat) (p : Path) (x : Session) (q : TReq) (k : Nat) (addr : Nat) (r : Nat) (fx : Nat) (rep : Nat) (key : Bytes) (y : MTable),
    Issued (s.elapse dt) p x q 1314 4 (s.tablePerm k) ∧ resultWide r = false ∧ fx < 2 ∧ rep < 2 ∧ badAddr p addr = false ∧ tget? s.pl.cur.tables k = some y ∧ (y.find (padKey (slice ((s.elapse dt).cmdRead p addr 32 key) 0 y.keyLen))).isSome = false ∧ lowestFree y.slots (y.bucket (padKey (slice ((s.elapse dt).cmdRead p addr 32 key) 0 y.keyLen)) * 4) 4 = none ∧ y.ovfFree = none ∧ y.evict = 0) ∧
  (∃ (s : State) (dt : Nat) (p : Path) (x : Session) (q : TReq) (k : Nat) (addr : Nat) (r : Nat) (fx : Nat) (rep : Nat) (key : Bytes) (y : MTable),
    Issued (s.elapse dt) p x q 1314 4 (s.tablePerm k) ∧ resultWide r = false ∧ fx < 2 ∧ rep < 2 ∧ badAddr p addr = false ∧ tget? s.pl.cur.tables k = some y ∧ ((y.find (padKey (slice ((s.elapse dt).cmdRead p addr 32 key) 0 y.keyLen))).isSome = true ∧ rep = 1 ∨ (y.find (padKey (slice ((s.elapse dt).cmdRead p addr 32 key) 0 y.keyLen))).isSome = false ∧ ((lowestFree y.slots (y.bucket (padKey (slice ((s.elapse dt).cmdRead p addr 32 key) 0 y.keyLen)) * 4) 4).isSome || y.ovfFree.isSome || (y.victim (y.bucket (padKey (slice ((s.elapse dt).cmdRead p addr 32 key) 0 y.keyLen)) * 4) ((s.elapse dt).freeBits 32)).isSome) = true) ∧ s.resultOk y.dom r = false) ∧
  (∃ (s : State) (dt : Nat) (p : Path) (x : Session) (q : TReq) (k : Nat) (addr : Nat) (r : Nat) (fx : Nat) (rep : Nat) (key : Bytes) (y : MTable),
    Issued (s.elapse dt) p x q 1314 4 (s.tablePerm k) ∧ resultWide r = false ∧ fx < 2 ∧ rep < 2 ∧ badAddr p addr = false ∧ tget? s.pl.cur.tables k = some y ∧ ((y.find (padKey (slice ((s.elapse dt).cmdRead p addr 32 key) 0 y.keyLen))).isSome = true ∧ rep = 1 ∨ (y.find (padKey (slice ((s.elapse dt).cmdRead p addr 32 key) 0 y.keyLen))).isSome = false ∧ ((lowestFree y.slots (y.bucket (padKey (slice ((s.elapse dt).cmdRead p addr 32 key) 0 y.keyLen)) * 4) 4).isSome || y.ovfFree.isSome || (y.victim (y.bucket (padKey (slice ((s.elapse dt).cmdRead p addr 32 key) 0 y.keyLen)) * 4) ((s.elapse dt).freeBits 32)).isSome) = true) ∧ s.resultOk y.dom r = true) ∧
  (∃ (s : State) (dt : Nat) (p : Path) (x : Session) (q : TReq) (k : Nat) (addr : Nat),
    Issued (s.elapse dt) p x q 1315 2 (s.tablePerm k) ∧ badAddr p addr = true) ∧
  (∃ (s : State) (dt : Nat) (p : Path) (x : Session) (q : TReq) (k : Nat) (addr : Nat),
    Issued (s.elapse dt) p x q 1315 2 (s.tablePerm k) ∧ badAddr p addr = false ∧ tget? s.pl.cur.tables k = none) ∧
  (∃ (s : State) (dt : Nat) (p : Path) (x : Session) (q : TReq) (k : Nat) (addr : Nat) (key : Bytes) (y : MTable),
    Issued (s.elapse dt) p x q 1315 2 (s.tablePerm k) ∧ badAddr p addr = false ∧ tget? s.pl.cur.tables k = some y ∧ y.find (slice ((s.elapse dt).cmdRead p addr 32 key) 0 y.keyLen) = none) ∧
  (∃ (s : State) (dt : Nat) (p : Path) (x : Session) (q : TReq) (k : Nat) (addr : Nat) (key : Bytes) (y : MTable),
    Issued (s.elapse dt) p x q 1315 2 (s.tablePerm k) ∧ badAddr p addr = false ∧ tget? s.pl.cur.tables k = some y ∧ (y.find (slice ((s.elapse dt).cmdRead p addr 32 key) 0 y.keyLen)).isSome = true) ∧
  (∃ (s : State) (dt : Nat) (p : Path) (x : Session) (q : TReq) (k : Nat) (addr : Nat),
    Issued (s.elapse dt) p x q 1316 2 (s.tablePerm k) ∧ badAddr p addr = true) ∧
  (∃ (s : State) (dt : Nat) (p : Path) (x : Session) (q : TReq) (k : Nat) (addr : Nat),
    Issued (s.elapse dt) p x q 1316 2 (s.tablePerm k) ∧ badAddr p addr = false ∧ tget? s.pl.cur.tables k = none) ∧
  (∃ (s : State) (dt : Nat) (p : Path) (x : Session) (q : TReq) (k : Nat) (addr : Nat) (key : Bytes) (y : MTable),
    Issued (s.elapse dt) p x q 1316 2 (s.tablePerm k) ∧ badAddr p addr = false ∧ tget? s.pl.cur.tables k = some y ∧ (y.mult = 0 ∨ s.sweeps = false) ∧ y.find (slice ((s.elapse dt).cmdRead p addr 32 key) 0 y.keyLen) = none) ∧
  (∃ (s : State) (dt : Nat) (p : Path) (x : Session) (q : TReq) (k : Nat) (addr : Nat) (key : Bytes) (y : MTable) (o : Bool) (i : Nat) (e : Entry),
    Issued (s.elapse dt) p x q 1316 2 (s.tablePerm k) ∧ badAddr p addr = false ∧ tget? s.pl.cur.tables k = some y ∧ (y.mult = 0 ∨ s.sweeps = false) ∧ y.find (slice ((s.elapse dt).cmdRead p addr 32 key) 0 y.keyLen) = some (o, i, e)) ∧
  (∃ (s : State) (dt : Nat) (p : Path) (x : Session) (q : TReq) (addr : Nat) (n : Nat),
    Issued (s.elapse dt) p x q 1317 2 Perm.any ∧ 1 ≤ n ∧ n ≤ 256 ∧ badAddr p addr = true) ∧
  (∃ (s : State) (dt : Nat) (p : Path) (x : Session) (q : TReq) (addr : Nat) (n : Nat) (l : List BatchOp) (i : Nat) (st : Nat),
    Issued (s.elapse dt) p x q 1317 2 Perm.any ∧ 1 ≤ n ∧ n ≤ 256 ∧ badAddr p addr = false ∧ (s.elapse dt).applyOps 0 [] (List.map BatchOp.op (List.take n l)) = Except.error (i, st) ∧ (s.elapse dt).batchFirst x.dom 0 (List.take n l) = none) ∧
  (∃ (s : State) (dt : Nat) (p : Path) (x : Session) (q : TReq) (addr : Nat) (n : Nat) (l : List BatchOp) (i : Nat) (st : Nat) (j : Nat) (v : Nat),
    Issued (s.elapse dt) p x q 1317 2 Perm.any ∧ 1 ≤ n ∧ n ≤ 256 ∧ badAddr p addr = false ∧ (s.elapse dt).applyOps 0 [] (List.map BatchOp.op (List.take n l)) = Except.error (i, st) ∧ (s.elapse dt).batchFirst x.dom 0 (List.take n l) = some (j, v) ∧ v ≠ 0) ∧
  (∃ (s : State) (dt : Nat) (p : Path) (x : Session) (q : TReq) (addr : Nat) (n : Nat) (l : List BatchOp) (j : Nat) (v : Nat),
    Issued (s.elapse dt) p x q 1317 2 Perm.any ∧ 1 ≤ n ∧ n ≤ 256 ∧ badAddr p addr = false ∧ ((s.elapse dt).applyOps 0 [] (List.map BatchOp.op (List.take n l))).isOk = true ∧ (s.elapse dt).batchFirst x.dom 0 (List.take n l) = some (j, v) ∧ v ≠ 0) ∧
  (∃ (s : State) (dt : Nat) (p : Path) (x : Session) (q : TReq) (addr : Nat) (n : Nat) (l : List BatchOp),
    Issued (s.elapse dt) p x q 1317 2 Perm.any ∧ 1 ≤ n ∧ n ≤ 256 ∧ badAddr p addr = false ∧ ((s.elapse dt).applyOps 0 [] (List.map BatchOp.op (List.take n l))).isOk = true ∧ (s.elapse dt).batchFirst x.dom 0 (List.take n l) = none) ∧
  (∃ (s : State) (dt : Nat) (p : Path) (x : Session) (q : TReq) (sts : List Stage) (final : Nat),
    Issued (s.elapse dt) p x q 1318 82 Perm.any ∧ resultWide final = false ∧ ((sts.all fun st => st.table == 255 || !(resultWide st.miss || Option.any (fun l => resultWide l.snd) st.learn)) = true) ∧ sts.all (s.stageOk x.dom) = false) ∧
  (∃ (s : State) (dt : Nat) (p : Path) (x : Session) (q : TReq) (i : Nat) (sts : List Stage) (final : Nat),
    Issued (s.elapse dt) p x q 1318 82 Perm.any ∧ resultWide final = false ∧ ((sts.all fun st => st.table == 255 || !(resultWide st.miss || Option.any (fun l => resultWide l.snd) st.learn)) = true) ∧ sts.all (s.stageOk x.dom) = true ∧ s.profileQuota x.dom ≤ i) ∧
  (∃ (s : State) (dt : Nat) (p : Path) (x : Session) (q : TReq) (i : Nat) (sts : List Stage) (final : Nat),
    Issued (s.elapse dt) p x q 1318 82 Perm.any ∧ resultWide final = false ∧ ((sts.all fun st => st.table == 255 || !(resultWide st.miss || Option.any (fun l => resultWide l.snd) st.learn)) = true) ∧ sts.all (s.stageOk x.dom) = true ∧ i < s.profileQuota x.dom ∧ (s.resultOk x.dom final = false ∨ sts.all (s.stageResults x.dom) = false)) ∧
  (∃ (s : State) (dt : Nat) (p : Path) (x : Session) (q : TReq) (i : Nat) (sts : List Stage) (final : Nat),
    Issued (s.elapse dt) p x q 1318 82 Perm.any ∧ resultWide final = false ∧ ((sts.all fun st => st.table == 255 || !(resultWide st.miss || Option.any (fun l => resultWide l.snd) st.learn)) = true) ∧ sts.all (s.stageOk x.dom) = true ∧ i < s.profileQuota x.dom ∧ s.resultOk x.dom final = true ∧ sts.all (s.stageResults x.dom) = true) ∧
  (∃ (s : State) (dt : Nat) (p : Path) (x : Session) (q : TReq) (addr : Nat) (b : Bytes),
    Issued (s.elapse dt) p x q 1320 1 (Perm.owner (spoutOf ((s.elapse dt).cmdRead p addr 64 b)).dom) ∧ badAddr p addr = true) ∧
  (∃ (s : State) (dt : Nat) (p : Path) (x : Session) (q : TReq) (addr : Nat) (b : Bytes),
    Issued (s.elapse dt) p x q 1320 1 (Perm.owner (spoutOf ((s.elapse dt).cmdRead p addr 64 b)).dom) ∧ badAddr p addr = false ∧ s.spoutOk ((s.elapse dt).cmdRead p addr 64 b) = false) ∧
  (∃ (s : State) (dt : Nat) (p : Path) (x : Session) (q : TReq) (addr : Nat) (b : Bytes),
    Issued (s.elapse dt) p x q 1320 1 (Perm.owner (spoutOf ((s.elapse dt).cmdRead p addr 64 b)).dom) ∧ badAddr p addr = false ∧ s.spoutOk ((s.elapse dt).cmdRead p addr 64 b) = true ∧ (s.pl.cur.spoutFind (spoutOf ((s.elapse dt).cmdRead p addr 64 b)).dom (spoutOf ((s.elapse dt).cmdRead p addr 64 b)).key).isSome = true) ∧
  (∃ (s : State) (dt : Nat) (p : Path) (x : Session) (q : TReq) (addr : Nat) (b : Bytes),
    Issued (s.elapse dt) p x q 1320 1 (Perm.owner (spoutOf ((s.elapse dt).cmdRead p addr 64 b)).dom) ∧ badAddr p addr = false ∧ s.spoutOk ((s.elapse dt).cmdRead p addr 64 b) = true ∧ s.pl.cur.spoutFind (spoutOf ((s.elapse dt).cmdRead p addr 64 b)).dom (spoutOf ((s.elapse dt).cmdRead p addr 64 b)).key = none ∧ (s.spoutShare (spoutOf ((s.elapse dt).cmdRead p addr 64 b)).dom ≤ (List.filter (fun z => z.snd.dom == (spoutOf ((s.elapse dt).cmdRead p addr 64 b)).dom) s.pl.cur.spout).length ∨ List.find? (fun i => (tget? s.pl.cur.spout i).isNone) (List.map (fun i => s.pl.cur.spoutBucket (spoutOf ((s.elapse dt).cmdRead p addr 64 b)).key * 4 + i) (List.range 4)) = none)) ∧
  (∃ (s : State) (dt : Nat) (p : Path) (x : Session) (q : TReq) (addr : Nat) (b : Bytes),
    Issued (s.elapse dt) p x q 1320 1 (Perm.owner (spoutOf ((s.elapse dt).cmdRead p addr 64 b)).dom) ∧ badAddr p addr = false ∧ s.spoutOk ((s.elapse dt).cmdRead p addr 64 b) = true ∧ s.pl.cur.spoutFind (spoutOf ((s.elapse dt).cmdRead p addr 64 b)).dom (spoutOf ((s.elapse dt).cmdRead p addr 64 b)).key = none ∧ ((List.filter (fun z => z.snd.dom == (spoutOf ((s.elapse dt).cmdRead p addr 64 b)).dom) s.pl.cur.spout).length < s.spoutShare (spoutOf ((s.elapse dt).cmdRead p addr 64 b)).dom) ∧ ((List.find? (fun i => (tget? s.pl.cur.spout i).isNone) (List.map (fun i => s.pl.cur.spoutBucket (spoutOf ((s.elapse dt).cmdRead p addr 64 b)).key * 4 + i) (List.range 4))).isSome = true)) ∧
  (∃ (s : State) (dt : Nat) (p : Path) (x : Session) (q : TReq) (dom : Nat) (addr : Nat),
    Issued (s.elapse dt) p x q 1321 2 (Perm.owner dom) ∧ dom < 16 ∧ badAddr p addr = true) ∧
  (∃ (s : State) (dt : Nat) (p : Path) (x : Session) (q : TReq) (dom : Nat) (addr : Nat) (key : Bytes),
    Issued (s.elapse dt) p x q 1321 2 (Perm.owner dom) ∧ dom < 16 ∧ badAddr p addr = false ∧ s.pl.cur.spoutFind dom ((s.elapse dt).cmdRead p addr 32 key) = none) ∧
  (∃ (s : State) (dt : Nat) (p : Path) (x : Session) (q : TReq) (dom : Nat) (addr : Nat) (key : Bytes),
    Issued (s.elapse dt) p x q 1321 2 (Perm.owner dom) ∧ dom < 16 ∧ badAddr p addr = false ∧ (s.pl.cur.spoutFind dom ((s.elapse dt).cmdRead p addr 32 key)).isSome = true) ∧
  (∃ (s : State) (dt : Nat),
    (s.elapse dt).Settled ∧ s.pl.pend = []) ∧
  (∃ (s : State) (dt : Nat) (pd : TblPend) (rest : List TblPend),
    (s.elapse dt).Settled ∧ s.pl.pend = pd :: rest ∧ (s.elapse dt).commitWaits pd.ops = true) ∧
  (∃ (s : State) (dt : Nat) (p : Path) (x : Session) (q : TReq) (pd : TblPend) (rest : List TblPend) (i : Nat) (st : Nat),
    (s.elapse dt).Settled ∧ s.pl.pend = pd :: rest ∧ pd.path = p ∧ Awaits (s.elapse dt) p x q pd.opcode ∧ ((List.all s.pl.cur.tables fun y => y.snd.mult == 0) = true) ∧ s.pl.learns = [] ∧ (s.elapse dt).commitWaits pd.ops = false ∧ ({ s.elapse dt with pl := ({ (s.elapse dt).pl with pend := rest } : Pl) } : State).applyOps 0 [] pd.ops = Except.error (i, st)) ∧
  (∃ (s : State) (dt : Nat) (p : Path) (x : Session) (q : TReq) (pd : TblPend) (rest : List TblPend) (more : List Nat) (s1 : State),
    (s.elapse dt).Settled ∧ s.pl.pend = pd :: rest ∧ pd.path = p ∧ Awaits (s.elapse dt) p x q pd.opcode ∧ ((List.all s.pl.cur.tables fun y => y.snd.mult == 0) = true) ∧ s.pl.learns = [] ∧ (s.elapse dt).commitWaits pd.ops = false ∧ s.slu.events = [] ∧ ({ s.elapse dt with pl := ({ (s.elapse dt).pl with pend := rest } : Pl) } : State).applyOps 0 [] pd.ops = Except.ok (more, s1)) ∧
  (∃ (s : State) (dt : Nat) (p : Path) (x : Session) (q : TReq) (pd : TblPend) (rest : List TblPend) (k : Nat) (y : MTable),
    (s.elapse dt).Settled ∧ s.pl.pend = pd :: rest ∧ pd.path = p ∧ Awaits (s.elapse dt) p x q pd.opcode ∧ ((List.all s.pl.cur.tables fun y => y.snd.mult == 0) = true) ∧ s.pl.learns = [] ∧ (s.elapse dt).commitWaits pd.ops = false ∧ pd.ops = [TblOp.create k y false] ∧ tget? s.pl.cur.tables k = none ∧ s.pl.cur.tables = [] ∧ y.deep = false ∧ y.log2 ≤ 18) ∧
  (∃ (s : State) (dt : Nat) (p : Path) (x : Session) (q : TReq) (pd : TblPend) (rest : List TblPend) (k : Nat) (key : Bytes) (r : Nat) (fx : Bool) (rep : Bool) (y : MTable) (i : Nat),
    (s.elapse dt).Settled ∧ s.pl.pend = pd :: rest ∧ pd.path = p ∧ Awaits (s.elapse dt) p x q pd.opcode ∧ ((List.all s.pl.cur.tables fun y => y.snd.mult == 0) = true) ∧ s.pl.learns = [] ∧ (s.elapse dt).commitWaits pd.ops = false ∧ pd.ops = [TblOp.insert k key r fx rep] ∧ tget? s.pl.cur.tables k = some y ∧ y.find (padKey (slice key 0 y.keyLen)) = none ∧ lowestFree y.slots (y.bucket (padKey (slice key 0 y.keyLen)) * 4) 4 = some i ∧ s.resultOk y.dom r = true) ∧
  (∃ (s : State) (dt : Nat) (p : Path) (x : Session) (q : TReq) (pd : TblPend) (rest : List TblPend) (k : Nat) (key : Bytes) (r : Nat) (fx : Bool) (y : MTable) (o : Bool) (i : Nat) (e : Entry),
    (s.elapse dt).Settled ∧ s.pl.pend = pd :: rest ∧ pd.path = p ∧ Awaits (s.elapse dt) p x q pd.opcode ∧ ((List.all s.pl.cur.tables fun y => y.snd.mult == 0) = true) ∧ s.pl.learns = [] ∧ (s.elapse dt).commitWaits pd.ops = false ∧ pd.ops = [TblOp.insert k key r fx true] ∧ tget? s.pl.cur.tables k = some y ∧ y.find (padKey (slice key 0 y.keyLen)) = some (o, i, e) ∧ s.resultOk y.dom r = true ∧ o = false) ∧
  (∃ (s : State) (dt : Nat) (p : Path) (x : Session) (q : TReq) (pd : TblPend) (rest : List TblPend) (k : Nat) (key : Bytes) (y : MTable) (o : Bool) (i : Nat) (e : Entry),
    (s.elapse dt).Settled ∧ s.pl.pend = pd :: rest ∧ pd.path = p ∧ Awaits (s.elapse dt) p x q pd.opcode ∧ ((List.all s.pl.cur.tables fun y => y.snd.mult == 0) = true) ∧ s.pl.learns = [] ∧ (s.elapse dt).commitWaits pd.ops = false ∧ pd.ops = [TblOp.delete k key] ∧ tget? s.pl.cur.tables k = some y ∧ y.find (slice key 0 y.keyLen) = some (o, i, e)) :=
  ⟨⟨(ask (linked .service) 0x0520 9), 3, (.mp 1), (sess 0x0520 9), (req 0x0520 9), 15, 0, 1, 11, 32, none, 0, 0, 0,
      issued_of (by decide +kernel), by decide +kernel⟩,
    ⟨(ask tab 0x0520 9), 3, (.mp 1), (sess 0x0520 9), (req 0x0520 9), 5, 0, 0, 18, 32, (some 7), 2, 65535, 1,
      issued_of (by decide +kernel), by decide +kernel⟩,
    ⟨(ask (linked .service) 0x0520 9), 3, (.mp 1), (sess 0x0520 9), (req 0x0520 9), 15, 0, 0, 8, 1, (some 7), 2, 65535, 1,
      issued_of (by decide +kernel), by decide +kernel⟩,
    ⟨(ask tab 0x0521 1), 3, (.mp 1), (sess 0x0521 1), (req 0x0521 1), 16,
      issued_of (by decide +kernel), by decide +kernel⟩,
    ⟨(ask { tab with pl.cur.profiles := [(0, { stages := [{ table := 5 }] })] } 0x0521 1), 3, (.mp 1), (sess 0x0521 1), (req 0x0521 1), 5,
      issued_of (by decide +kernel), by decide +kernel⟩,
    ⟨(ask tab 0x0521 1), 3, (.mp 1), (sess 0x0521 1), (req 0x0521 1), 5,
      issued_of (by decide +kernel), by decide +kernel⟩,
    ⟨(ask tab 0x0522 4), 3, (.mp 1), (sess 0x0522 4), (req 0x0522 4), 5, (2 ^ 63 + 2 ^ 20), (1 + 0xFFFF * 2 ^ 19), 0, 0,
      issued_of (by decide +kernel), by decide +kernel⟩,
    ⟨(ask tab 0x0522 4), 3, (.mp 1), (sess 0x0522 4), (req 0x0522 4), 6, 0, (1 + 0xFFFF * 2 ^ 19), 0, 0,
      issued_of (by decide +kernel), by decide +kernel⟩,
    ⟨(ask tab 0x0522 4), 3, (.mp 1), (sess 0x0522 4), (req 0x0522 4), 5, 0, (1 + 0xFFFF * 2 ^ 19), 0, 0, [1,2,3,4], tab0,
      issued_of (by decide +kernel), by decide +kernel, by decide +kernel, by decide +kernel, by decide +kernel, rfl, by decide +kernel⟩,
    ⟨(ask tabFull 0x0522 4), 3, (.mp 1), (sess 0x0522 4), (req 0x0522 4), 5, 0, (1 + 0xFFFF * 2 ^ 19), 0, 0, [9], tabF,
      issued_of (by decide +kernel), by decide +kernel, by decide +kernel, by decide +kernel, by decide +kernel, rfl, by decide +kernel⟩,
    ⟨(ask { mapped .service with pl.cur.tables := [(5, tab0)] } 0x0522 4), 3, (.mp 1), (sess 0x0522 4), (req 0x0522 4), 5, 0, (2 + 8 * 32767 + 0xFFFF * 2 ^ 19), 0, 0, [9], tab0,
      issued_of (by decide +kernel), by decide +kernel, by decide +kernel, by decide +kernel, by decide +kernel, rfl, by decide +kernel⟩,
    ⟨(ask tab 0x0522 4), 3, (.mp 1), (sess 0x0522 4), (req 0x0522 4), 5, 0, (1 + 0xFFFF * 2 ^ 19), 0, 0, [9], tab0,
      issued_of (by decide +kernel), by decide +kernel, by decide +kernel, by decide +kernel, by decide +kernel, rfl, by decide +kernel⟩,
    ⟨(ask tab 0x0523 2), 3, (.mp 1), (sess 0x0523 2), (req 0x0523 2), 5, (2 ^ 63 + 2 ^ 20),
      issued_of (by decide +kernel), by decide +kernel⟩,
    ⟨(ask tab 0x0523 2), 3, (.mp 1), (sess 0x0523 2), (req 0x0523 2), 6, 0,
      issued_of (by decide +kernel), by decide +kernel⟩,
    ⟨(ask tab 0x0523 2), 3, (.mp 1), (sess 0x0523 2), (req 0x0523 2), 5, 0, [9], tab0,
      issued_of (by decide +kernel), by decide +kernel, rfl, by decide +kernel⟩,
    ⟨(ask tab 0x0523 2), 3, (.mp 1), (sess 0x0523 2), (req 0x0523 2), 5, 0, [1,2,3,4,5], tab0,
      issued_of (by decide +kernel), by decide +kernel, rfl, by decide +kernel⟩,
    ⟨(ask tab 0x0524 2), 3, (.mp 1), (sess 0x0524 2), (req 0x0524 2), 5, (2 ^ 63 + 2 ^ 20),
      issued_of (by decide +kernel), by decide +kernel⟩,
    ⟨(ask tab 0x0524 2), 3, (.mp 1), (sess 0x0524 2), (req 0x0524 2), 6, 0,
      issued_of (by decide +kernel), by decide +kernel⟩,
    ⟨(ask tab 0x0524 2), 3, (.mp 1), (sess 0x0524 2), (req 0x0524 2), 5, 0, [9], tab0,
      issued_of (by decide +kernel), by decide +kernel, rfl, by decide +kernel⟩,
    ⟨(ask tab 0x0524 2), 3, (.mp 1), (sess 0x0524 2), (req 0x0524 2), 5, 0, [1,2,3,4,5], tab0, true, 0, { key := slice [1,2,3,4] 0 32, result := 1 },
      issued_of (by decide +kernel), by decide +kernel, rfl, by decide +kernel⟩,
    ⟨(ask tab 0x0525 2), 3, (.mp 1), (sess 0x0525 2), (req 0x0525 2), (2 ^ 63 + 2 ^ 20), 1,
      issued_of (by decide +kernel), by decide +kernel⟩,
    ⟨(ask tab 0x0525 2), 3, (.mp 1), (sess 0x0525 2), (req 0x0525 2), 0, 256, [.delete 5 [1,2,3,4], .delete 5 [9]], 1, 0x02000065,
      issued_of (by decide +kernel), by decide +kernel, by decide +kernel, by decide +kernel, rfl, by decide +kernel⟩,
    ⟨(ask tab 0x0525 2), 3, (.mp 1), (sess 0x0525 2), (req 0x0525 2), 0, 256, [.delete 5 [9], .spoutInsert (zeros 64)], 0, 0x02000065, 1, 0x03000062,
      issued_of (by decide +kernel), by decide +kernel, by decide +kernel, by decide +kernel, rfl, by decide +kernel⟩,
    ⟨(ask tab 0x0525 2), 3, (.mp 1), (sess 0x0525 2), (req 0x0525 2), 0, 2, [.insert 5 [9] (2 ^ 35 + 1 + 0xFFFF * 2 ^ 19) false false], 0, 0x0300FF04,
      issued_of (by decide +kernel), by decide +kernel, by decide +kernel, by decide +kernel, rfl, by decide +kernel⟩,
    ⟨(ask tab 0x0525 2), 3, (.mp 1), (sess 0x0525 2), (req 0x0525 2), 0, 1, [.delete 5 [1,2,3,4], .delete 5 [9]],
      issued_of (by decide +kernel), by decide +kernel, by decide +kernel, by decide +kernel, rfl, by decide +kernel⟩,
    ⟨(ask tab 0x0526 82), 3, (.mp 1), (sess 0x0526 82), (req 0x0526 82), [{ table := 5, key := [(0,3)], miss := 1 + 0xFFFF * 2 ^ 19 }], (1 + 0xFFFF * 2 ^ 19),
      issued_of (by decide +kernel), by decide +kernel⟩,
    ⟨(ask tab 0x0526 82), 3, (.mp 1), (sess 0x0526 82), (req 0x0526 82), 1024, [], (1 + 0xFFFF * 2 ^ 19),
      issued_of (by decide +kernel), by decide +kernel⟩,
    ⟨(ask { mapped .service with pl.cur.tables := [(5, tab0)] } 0x0526 82), 3, (.mp 1), (sess 0x0526 82), (req 0x0526 82), 0, [], (2 + 8 * 32767 + 0xFFFF * 2 ^ 19),
      issued_of (by decide +kernel), by decide +kernel⟩,
    ⟨(ask tab 0x0526 82), 3, (.mp 1), (sess 0x0526 82), (req 0x0526 82), 1023, [{ table := 5, key := [(124,4)], miss := 1 + 0xFFFF * 2 ^ 19 }], (1 + 0xFFFF * 2 ^ 19),
      issued_of (by decide +kernel), by decide +kernel⟩,
    ⟨(ask tab 0x0528 1), 3, (.mp 1), (sess 0x0528 1), (req 0x0528 1), (2 ^ 63 + 2 ^ 20), spoutB,
      issued_of (by decide +kernel), by decide +kernel⟩,
    ⟨(ask tab 0x0528 1), 3, (.mp 1), (sess 0x0528 1), (req 0x0528 1), 0, (zeros 64),
      issued_of (by decide +kernel), by decide +kernel⟩,
    ⟨(ask tabSpout 0x0528 1), 3, (.mp 1), (sess 0x0528 1), (req 0x0528 1), 0, spoutB,
      issued_of (by decide +kernel), by decide +kernel⟩,
    ⟨(ask { tab with pl.quotas := [(0, { spout := some 0 })] } 0x0528 1), 3, (.mp 1), (sess 0x0528 1), (req 0x0528 1), 0, spoutB,
      issued_of (by decide +kernel), by decide +kernel⟩,
    ⟨(ask tab 0x0528 1), 3, (.mp 1), (sess 0x0528 1), (req 0x0528 1), 0, spoutB,
      issued_of (by decide +kernel), by decide +kernel⟩,
    ⟨(ask tab 0x0529 2), 3, (.mp 1), (sess 0x0529 2), (req 0x0529 2), 0, (2 ^ 63 + 2 ^ 20),
      issued_of (by decide +kernel), by decide +kernel⟩,
    ⟨(ask tab 0x0529 2), 3, (.mp 1), (sess 0x0529 2), (req 0x0529 2), 0, 0, (zeros 32),
      issued_of (by decide +kernel), by decide +kernel⟩,
    ⟨(ask tabSpout 0x0529 2), 3, (.mp 1), (sess 0x0529 2), (req 0x0529 2), 0, 0, (zeros 32),
      issued_of (by decide +kernel), by decide +kernel⟩,
    ⟨tab, 3,
      settled_of (by decide +kernel), by decide +kernel⟩,
    ⟨{ (commits 0x0523 (.delete 5 [1,2,3,4])) with pl.frames := [learner] }, 3, { path := .mp 1, opcode := 0x0523, ops := [.delete 5 [1,2,3,4]], at_ := 0 }, [],
      settled_of (by decide +kernel), by decide +kernel⟩,
    ⟨(wait (commits 0x0523 (.delete 5 [9])) 0x0523 2), 3, (.mp 1), (busy 0x0523 2), (req 0x0523 2), { path := .mp 1, opcode := 0x0523, ops := [.delete 5 [9]], at_ := 0 }, [], 0, 0x02000065,
      settled_of (by decide +kernel), by decide +kernel, by decide +kernel, awaits_of (by decide +kernel), by decide +kernel, by decide +kernel, by decide +kernel, rfl⟩,
    ⟨(wait (commits 0x0523 (.delete 5 [1,2,3,4])) 0x0523 2), 3, (.mp 1), (busy 0x0523 2), (req 0x0523 2), { path := .mp 1, opcode := 0x0523, ops := [.delete 5 [1,2,3,4]], at_ := 0 }, [], [], ({ ((commits 0x0523 (.delete 5 [1,2,3,4])).elapse 3) with tosen.sessions := [busy 0x0523 2], pl.pend := [], pl.cur.tables := [(5, { tab0 with ovf := [] })] }),
      settled_of (by decide +kernel), by decide +kernel, by decide +kernel, awaits_of (by decide +kernel), by decide +kernel, by decide +kernel, by decide +kernel, by decide +kernel, rfl⟩,
    ⟨(wait { commits 0x0520 (.create 7 tab0 false) with pl.cur.tables := [] } 0x0520 9), 3, (.mp 1), (busy 0x0520 9), (req 0x0520 9), { path := .mp 1, opcode := 0x0520, ops := [.create 7 tab0 false], at_ := 0 }, [], 7, tab0,
      settled_of (by decide +kernel), by decide +kernel, by decide +kernel, awaits_of (by decide +kernel), by decide +kernel⟩,
    ⟨(wait (commits 0x0522 (.insert 5 [9] (1 + 0xFFFF * 2 ^ 19) true false)) 0x0522 4), 3, (.mp 1), (busy 0x0522 4), (req 0x0522 4), { path := .mp 1, opcode := 0x0522, ops := [.insert 5 [9] (1 + 0xFFFF * 2 ^ 19) true false], at_ := 0 }, [], 5, [9], (1 + 0xFFFF * 2 ^ 19), true, false, tab0, (4 * tab0.bucket (padKey [9])),
      settled_of (by decide +kernel), by decide +kernel, by decide +kernel, awaits_of (by decide +kernel), by decide +kernel, by decide +kernel, by decide +kernel, by decide +kernel, rfl, by decide +kernel⟩,
    ⟨(wait { commits 0x0522 (.insert 5 [9] (1 + 0xFFFF * 2 ^ 19) true true) with pl.cur.tables := [(5, tab9)] } 0x0522 4), 3, (.mp 1), (busy 0x0522 4), (req 0x0522 4), { path := .mp 1, opcode := 0x0522, ops := [.insert 5 [9] (1 + 0xFFFF * 2 ^ 19) true true], at_ := 0 }, [], 5, [9], (1 + 0xFFFF * 2 ^ 19), true, tab9, false, (4 * tab0.bucket (padKey [9])), { key := padKey [9], result := 7 },
      settled_of (by decide +kernel), by decide +kernel, by decide +kernel, awaits_of (by decide +kernel), by decide +kernel, by decide +kernel, by decide +kernel, by decide +kernel, rfl, by decide +kernel⟩,
    ⟨(wait (commits 0x0523 (.delete 5 [1,2,3,4])) 0x0523 2), 3, (.mp 1), (busy 0x0523 2), (req 0x0523 2), { path := .mp 1, opcode := 0x0523, ops := [.delete 5 [1,2,3,4]], at_ := 0 }, [], 5, [1,2,3,4], tab0, true, 0, { key := slice [1,2,3,4] 0 32, result := 1 },
      settled_of (by decide +kernel), by decide +kernel, by decide +kernel, awaits_of (by decide +kernel), by decide +kernel, by decide +kernel, by decide +kernel, by decide +kernel, rfl, by decide +kernel⟩⟩

/-- The premises of `Obligations.LearningAndAgeing`, clause by clause, are met. -/
theorem witness_LearningAndAgeing :
  (∃ (s : State) (dt : Nat) (p : Path) (x : Session) (q : TReq) (port : Nat) (mx : Nat) (fl : Nat),
    Issued (s.elapse dt) p x q 1319 5 (dataPerm port) ∧ mx ≤ 1048576 ∧ fl < 2 ∧ 23 < port) ∧
  (∃ (s : State) (dt : Nat) (p : Path) (x : Session) (q : TReq) (port : Nat) (mx : Nat) (fl : Nat),
    Issued (s.elapse dt) p x q 1319 5 (dataPerm port) ∧ mx ≤ 1048576 ∧ fl < 2 ∧ port < 24 ∧ s.portCount ≤ port) ∧
  (∃ (s : State) (dt : Nat) (p : Path) (x : Session) (q : TReq) (port : Nat) (mx : Nat) (fl : Nat),
    Issued (s.elapse dt) p x q 1319 5 (dataPerm port) ∧ mx ≤ 1048576 ∧ fl < 2 ∧ port < 24 ∧ port < s.portCount) ∧
  (∃ (s : State) (dt : Nat) (p : Path) (x : Session) (q : TReq) (num : Nat),
    Issued (s.elapse dt) p x q 1322 1 (s.tablePerm num) ∧ 15 < num ∧ tget? s.pl.cur.tables num = none) ∧
  (∃ (s : State) (dt : Nat) (p : Path) (x : Session) (q : TReq) (num : Nat),
    Issued (s.elapse dt) p x q 1322 1 (s.tablePerm num) ∧ num ≤ 15 ∧ tget? s.pl.cur.tables num = none) ∧
  (∃ (s : State) (dt : Nat) (p : Path) (x : Session) (q : TReq) (num : Nat) (y : MTable),
    Issued (s.elapse dt) p x q 1322 1 (s.tablePerm num) ∧ num ≤ 15 ∧ tget? s.pl.cur.tables num = some y ∧ (y.mult = 0 ∨ s.sweeps = false)) ∧
  (∃ (s : State) (dt : Nat) (p : Path) (x : Session) (q : TReq) (port : Nat),
    Issued (s.elapse dt) p x q 1322 1 (dataPerm port) ∧ 23 < port) ∧
  (∃ (s : State) (dt : Nat) (p : Path) (x : Session) (q : TReq) (port : Nat),
    Issued (s.elapse dt) p x q 1322 1 (dataPerm port) ∧ port < 24 ∧ s.portCount ≤ port) ∧
  (∃ (s : State) (dt : Nat) (p : Path) (x : Session) (q : TReq) (port : Nat),
    Issued (s.elapse dt) p x q 1322 1 (dataPerm port) ∧ port < 24 ∧ port < s.portCount) ∧
  (∃ (s : State) (dt : Nat) (p : Path) (x : Session) (q : TReq) (dom : Nat) (a : Nat) (b : Nat) (c : Nat) (d : Nat),
    Issued (s.elapse dt) p x q 1323 5 Perm.any ∧ dom < 16 ∧ (1024 < (fun f => (List.map f (List.filter (fun d => d != dom) (List.range 16))).sum) s.profileQuota + a ∨ 65536 < (fun f => (List.map f (List.filter (fun d => d != dom) (List.range 16))).sum) s.cacheShare + b ∨ 2048 < (fun f => (List.map f (List.filter (fun d => d != dom) (List.range 16))).sum) s.missShare + c ∨ 65536 < (fun f => (List.map f (List.filter (fun d => d != dom) (List.range 16))).sum) s.spoutShare + d ∨ (List.any s.pl.cur.profiles fun y => y.fst / 4096 == dom && decide (a ≤ y.fst % 4096)) = true ∨ b < (List.filter (fun y => y.fst == dom) s.pl.cache).length ∨ ((List.range 3).any fun i => decide (c < (List.filter (fun f => f.phase == 1 && f.dom == dom && f.pipe == i) s.pl.frames).length)) = true ∨ d < (List.filter (fun y => y.snd.dom == dom) s.pl.cur.spout).length)) ∧
  (∃ (s : State) (dt : Nat) (p : Path) (x : Session) (q : TReq) (dom : Nat) (a : Nat) (b : Nat) (c : Nat) (d : Nat),
    Issued (s.elapse dt) p x q 1323 5 Perm.any ∧ dom < 16 ∧ (¬(1024 < (fun f => (List.map f (List.filter (fun d => d != dom) (List.range 16))).sum) s.profileQuota + a ∨ 65536 < (fun f => (List.map f (List.filter (fun d => d != dom) (List.range 16))).sum) s.cacheShare + b ∨ 2048 < (fun f => (List.map f (List.filter (fun d => d != dom) (List.range 16))).sum) s.missShare + c ∨ 65536 < (fun f => (List.map f (List.filter (fun d => d != dom) (List.range 16))).sum) s.spoutShare + d ∨ (List.any s.pl.cur.profiles fun y => y.fst / 4096 == dom && decide (a ≤ y.fst % 4096)) = true ∨ b < (List.filter (fun y => y.fst == dom) s.pl.cache).length ∨ ((List.range 3).any fun i => decide (c < (List.filter (fun f => f.phase == 1 && f.dom == dom && f.pipe == i) s.pl.frames).length)) = true ∨ d < (List.filter (fun y => y.snd.dom == dom) s.pl.cur.spout).length))) ∧
  (∃ (s : State) (dt : Nat) (p : Path) (x : Session) (q : TReq) (seed : Option Nat),
    Issued (s.elapse dt) p x q 1324 1 Perm.any ∧ (Option.all (fun v => decide (v < 2 ^ 32)) seed = true) ∧ (s.pl.cur.spout ≠ [] ∨ s.pl.seedSet = true)) ∧
  (∃ (s : State) (dt : Nat) (p : Path) (x : Session) (q : TReq) (seed : Option Nat) (v : Nat),
    Issued (s.elapse dt) p x q 1324 1 Perm.any ∧ (Option.all (fun v => decide (v < 2 ^ 32)) seed = true) ∧ s.pl.cur.spout = [] ∧ s.pl.seedSet = false ∧ seed = some v) ∧
  (∃ (s : State) (dt : Nat) (p : Path) (x : Session) (q : TReq) (seed : Option Nat),
    Issued (s.elapse dt) p x q 1324 1 Perm.any ∧ (Option.all (fun v => decide (v < 2 ^ 32)) seed = true) ∧ s.pl.cur.spout = [] ∧ s.pl.seedSet = false ∧ seed = none) ∧
  (∃ (s : State) (dt : Nat),
    (s.elapse dt).Settled ∧ (s.elapse dt).now % grid 20 = 0 ∧ s.pl.refilled ≠ (s.elapse dt).now + 1) ∧
  (∃ (s : State) (dt : Nat),
    (s.elapse dt).Settled ∧ ((s.elapse dt).now % grid 20 ≠ 0 ∨ s.pl.refilled = (s.elapse dt).now + 1)) ∧
  (∃ (s : State) (dt : Nat),
    (s.elapse dt).Settled ∧ s.pl.learns.all (s.elapse dt).learnHeld = true) ∧
  (∃ (s : State) (dt : Nat) (l : Learn) (k : MTable) (o : Bool) (i : Nat) (e : Entry),
    (s.elapse dt).Settled ∧ s.pl.learns = [l] ∧ (s.elapse dt).learnHeld l = false ∧ tget? s.pl.cur.tables l.table = some k ∧ (k.mult = 0 ∨ s.sweeps = false) ∧ k.find l.key = some (o, i, e) ∧ e.result = l.result) ∧
  (∃ (s : State) (dt : Nat) (l : Learn) (k : MTable) (o : Bool) (i : Nat) (e : Entry),
    (s.elapse dt).Settled ∧ s.pl.learns = [l] ∧ (s.elapse dt).learnHeld l = false ∧ tget? s.pl.cur.tables l.table = some k ∧ (k.mult = 0 ∨ s.sweeps = false) ∧ k.find l.key = some (o, i, e) ∧ e.result ≠ l.result) ∧
  (∃ (s : State) (dt : Nat) (l : Learn) (k : MTable),
    (s.elapse dt).Settled ∧ s.pl.learns = [l] ∧ (s.elapse dt).learnHeld l = false ∧ tget? s.pl.cur.tables l.table = some k ∧ (k.mult = 0 ∨ s.sweeps = false) ∧ k.find l.key = none ∧ (s.learnPort l.port).max ≤ s.learnedNow l.port) ∧
  (∃ (s : State) (dt : Nat) (l : Learn) (k : MTable) (i : Nat),
    (s.elapse dt).Settled ∧ s.pl.learns = [l] ∧ (s.elapse dt).learnHeld l = false ∧ tget? s.pl.cur.tables l.table = some k ∧ (k.mult = 0 ∨ s.sweeps = false) ∧ k.find l.key = none ∧ s.learnedNow l.port < (s.learnPort l.port).max ∧ lowestFree k.slots (k.bucket (padKey l.key) * 4) 4 = some i ∧ s.mem.marks = []) ∧
  (∃ (s : State) (dt : Nat),
    (s.elapse dt).Settled ∧ s.sweeps = false) ∧
  (∃ (s : State) (dt : Nat) (k : Nat) (y : MTable),
    (s.elapse dt).Settled ∧ tget? s.pl.cur.tables k = some y ∧ y.sweepDue (s.elapse dt).now = none) ∧
  (∃ (s : State) (dt : Nat) (k : Nat) (y : MTable) (pt : Nat),
    (s.elapse dt).Settled ∧ s.sweeps = true ∧ tget? s.pl.cur.tables k = some y ∧ y.sweepDue (s.elapse dt).now = some pt ∧ (s.elapse dt).now < pt + y.mult * grid 20) :=
  ⟨⟨(ask tab 0x0527 5), 3, (.mp 1), (sess 0x0527 5), (req 0x0527 5), 24, 1048576, 1,
      issued_of (by decide +kernel), by decide +kernel⟩,
    ⟨(ask (bDev .service) 0x0527 5), 3, (.mp 1), (sess 0x0527 5), (req 0x0527 5), 16, 1048576, 1,
      issued_of (by decide +kernel), by decide +kernel⟩,
    ⟨(ask tab 0x0527 5), 3, (.mp 1), (sess 0x0527 5), (req 0x0527 5), 0, 1048576, 1,
      issued_of (by decide +kernel), by decide +kernel⟩,
    ⟨(ask tab 0x052A 1), 3, (.mp 1), (sess 0x052A 1), (req 0x052A 1), 16,
      issued_of (by decide +kernel), by decide +kernel⟩,
    ⟨(ask tab 0x052A 1), 3, (.mp 1), (sess 0x052A 1), (req 0x052A 1), 15,
      issued_of (by decide +kernel), by decide +kernel⟩,
    ⟨(ask tab 0x052A 1), 3, (.mp 1), (sess 0x052A 1), (req 0x052A 1), 5, tab0,
      issued_of (by decide +kernel), by decide +kernel, rfl, by decide +kernel⟩,
    ⟨(ask tab 0x052A 1), 3, (.mp 1), (sess 0x052A 1), (req 0x052A 1), 24,
      issued_of (by decide +kernel), by decide +kernel⟩,
    ⟨(ask (bDev .service) 0x052A 1), 3, (.mp 1), (sess 0x052A 1), (req 0x052A 1), 16,
      issued_of (by decide +kernel), by decide +kernel⟩,
    ⟨(ask tab 0x052A 1), 3, (.mp 1), (sess 0x052A 1), (req 0x052A 1), 23,
      issued_of (by decide +kernel), by decide +kernel⟩,
    ⟨(ask (mapped .service) 0x052B 5), 3, (.mp 1), (sess 0x052B 5), (req 0x052B 5), 1, 513, 0, 0, 0,
      issued_of (by decide +kernel), by decide +kernel⟩,
    ⟨(ask (mapped .service) 0x052B 5), 3, (.mp 1), (sess 0x052B 5), (req 0x052B 5), 1, 512, 1, 1, 1,
      issued_of (by decide +kernel), by decide +kernel⟩,
    ⟨(ask { tab with pl.seedSet := true } 0x052C 1), 3, (.mp 1), (sess 0x052C 1), (req 0x052C 1), (some 5),
      issued_of (by decide +kernel), by decide +kernel⟩,
    ⟨(ask tab 0x052C 1), 3, (.mp 1), (sess 0x052C 1), (req 0x052C 1), (some (2^32-1)), (2^32-1),
      issued_of (by decide +kernel), by decide +kernel⟩,
    ⟨(ask tab 0x052C 1), 3, (.mp 1), (sess 0x052C 1), (req 0x052C 1), none,
      issued_of (by decide +kernel), by decide +kernel⟩,
    ⟨{ tab with pl.learnPorts := [(2, { burst := 9, rate := 5, tokens := 6 })] }, (grid 20),
      settled_of (by decide +kernel), by decide +kernel⟩,
    ⟨{ tab with pl.learnPorts := [(2, { burst := 9, rate := 5, tokens := 6 })] }, (grid 20 - 1),
      settled_of (by decide +kernel), by decide +kernel⟩,
    ⟨{ commits 0x0520 (.destroy 5) with pl.learns := [learn2 [9] 9], pl.frames := [learner] }, (grid 20 - 1),
      settled_of (by decide +kernel), by decide +kernel⟩,
    ⟨{ tab with pl.learns := [learn2 [1,2,3,4] 1] }, (grid 20 - 1), (learn2 [1,2,3,4] 1), tab0, true, 0, { key := slice [1,2,3,4] 0 32, result := 1 },
      settled_of (by decide +kernel), by decide +kernel⟩,
    ⟨{ tab with pl.learns := [learn2 [1,2,3,4] 9] }, (grid 20 - 1), (learn2 [1,2,3,4] 9), tab0, true, 0, { key := slice [1,2,3,4] 0 32, result := 1 },
      settled_of (by decide +kernel), by decide +kernel⟩,
    ⟨{ tab with pl.learns := [learn2 [9] 9], pl.learnPorts := [(2, { max := 0 })] }, (grid 20 - 1), (learn2 [9] 9), tab0,
      settled_of (by decide +kernel), by decide +kernel⟩,
    ⟨{ tab with pl.learns := [learn2 [9] 9], pl.learnPorts := [(2, { max := 1 })] }, (grid 20 - 1), (learn2 [9] 9), tab0, (4 * tab0.bucket (padKey [9])),
      settled_of (by decide +kernel), by decide +kernel⟩,
    ⟨{ tab with glb.mode := .lockdown }, (grid 20),
      settled_of (by decide +kernel), by decide +kernel⟩,
    ⟨{ tab with pl.cur.tables := [(5, { tab0 with mult := 1, swept := 1 })] }, (grid 20 - 1), 5, { tab0 with mult := 1, swept := 1 },
      settled_of (by decide +kernel), rfl, by decide +kernel⟩,
    ⟨{ tab with pl.cur.tables := [(5, { tab0 with mult := 1, swept := 1 })] }, (grid 20), 5, { tab0 with mult := 1, swept := 1 }, (grid 20),
      settled_of (by decide +kernel), by decide +kernel, rfl, by decide +kernel⟩⟩

end Sys2Proof.Tests
end

