-- ==== Sys2Proof/Tests/WitnessesB.lean ====
section
/-! SUPPORT. Concrete states and operands that meet the premises of each clause of the statements, from 02_modes_and_bring_up.md on; each theorem is named after its statement. -/
namespace Sys2Proof.Tests
open Sys2Proof.Machine
set_option Elab.async false
set_option maxRecDepth 4000

set_option Elab.async false
set_option maxRecDepth 4000
/-- The premises of `Obligations.TrafficManagerCommandsAndBuffer`, clause by clause, are met. -/
theorem witness_TrafficManagerCommandsAndBuffer :
  (∃ (s : State) (dt : Nat) (p : Path) (x : Session) (q : TReq) (m : Nat) (r : Rates) (ya : Nat) (yd : Nat) (ra : Nat) (la : Int),
    Issued (s.elapse dt) p x q 1537 9 ((s.elapse dt).meterPerm m) ∧ (r.pir < r.cir ∨ r.cbs < 64 ∨ r.pbs < r.cbs ∨ 16 * 2 ^ 20 < r.pbs ∨ 1 < ya ∨ la < -32 ∨ 63 < la ∨ 1 < yd ∨ 1 < ra)) ∧
  (∃ (s : State) (dt : Nat) (p : Path) (x : Session) (q : TReq) (m : Nat) (r : Rates) (ya : Nat) (yd : Nat) (ra : Nat) (la : Int),
    Issued (s.elapse dt) p x q 1537 9 ((s.elapse dt).meterPerm m) ∧ (¬(r.pir < r.cir ∨ r.cbs < 64 ∨ r.pbs < r.cbs ∨ 16 * 2 ^ 20 < r.pbs ∨ 1 < ya ∨ la < -32 ∨ 63 < la ∨ 1 < yd ∨ 1 < ra)) ∧ (s.elapse dt).meterDom m = none) ∧
  (∃ (s : State) (dt : Nat) (p : Path) (x : Session) (q : TReq) (m : Nat) (r : Rates) (ya : Nat) (yd : Nat) (ra : Nat) (la : Int),
    Issued (s.elapse dt) p x q 1537 9 ((s.elapse dt).meterPerm m) ∧ (¬(r.pir < r.cir ∨ r.cbs < 64 ∨ r.pbs < r.cbs ∨ 16 * 2 ^ 20 < r.pbs ∨ 1 < ya ∨ la < -32 ∨ 63 < la ∨ 1 < yd ∨ 1 < ra)) ∧ ((s.elapse dt).meterDom m).isSome = true) ∧
  (∃ (s : State) (dt : Nat) (p : Path) (x : Session) (q : TReq) (m : Nat),
    Issued (s.elapse dt) p x q 1538 1 ((s.elapse dt).meterPerm m) ∧ (s.elapse dt).meterDom m = none) ∧
  (∃ (s : State) (dt : Nat) (p : Path) (x : Session) (q : TReq) (m : Nat),
    Issued (s.elapse dt) p x q 1538 1 ((s.elapse dt).meterPerm m) ∧ ((s.elapse dt).meterDom m).isSome = true) ∧
  (∃ (s : State) (dt : Nat) (p : Path) (x : Session) (q : TReq) (n : Nat) (kind : Nat) (dest : Nat) (ring : Nat) (tc : Nat) (qu : Nat) (g : Nat) (y : Nat) (r : Nat) (sp : Nat) (sa : Nat),
    Issued (s.elapse dt) p x q 1539 11 ((s.elapse dt).queuePerm n) ∧ (3 < kind ∨ 7 < tc ∨ qu < 64 ∨ 2 ^ 20 < qu ∨ r < 1 ∨ y < r ∨ g < y ∨ 2 ^ 20 < g ∨ 1 < sp ∨ 1 < sa ∨ kind = 1 ∧ 23 < dest ∨ kind = 2 ∧ 1023 < ring)) ∧
  (∃ (s : State) (dt : Nat) (p : Path) (x : Session) (q : TReq) (n : Nat) (kind : Nat) (dest : Nat) (ring : Nat) (tc : Nat) (qu : Nat) (g : Nat) (y : Nat) (r : Nat) (sp : Nat) (sa : Nat),
    Issued (s.elapse dt) p x q 1539 11 ((s.elapse dt).queuePerm n) ∧ (¬(3 < kind ∨ 7 < tc ∨ qu < 64 ∨ 2 ^ 20 < qu ∨ r < 1 ∨ y < r ∨ g < y ∨ 2 ^ 20 < g ∨ 1 < sp ∨ 1 < sa ∨ kind = 1 ∧ 23 < dest ∨ kind = 2 ∧ 1023 < ring)) ∧ (s.elapse dt).queueDom n = none) ∧
  (∃ (s : State) (dt : Nat) (p : Path) (x : Session) (q : TReq) (n : Nat) (kind : Nat) (dest : Nat) (ring : Nat) (tc : Nat) (qu : Nat) (g : Nat) (y : Nat) (r : Nat) (sp : Nat) (sa : Nat) (d : Nat),
    Issued (s.elapse dt) p x q 1539 11 ((s.elapse dt).queuePerm n) ∧ (¬(3 < kind ∨ 7 < tc ∨ qu < 64 ∨ 2 ^ 20 < qu ∨ r < 1 ∨ y < r ∨ g < y ∨ 2 ^ 20 < g ∨ 1 < sp ∨ 1 < sa ∨ kind = 1 ∧ 23 < dest ∨ kind = 2 ∧ 1023 < ring)) ∧ (s.elapse dt).queueDom n = some d ∧ (¬((kind = 1 → (s.elapse dt).portIn dest d = true ∧ dest < s.portCount) ∧ (kind = 2 → (s.elapse dt).fnExists (fnOf dest) = true ∧ (s.elapse dt).fnDom (fnOf dest) = d)))) ∧
  (∃ (s : State) (dt : Nat) (p : Path) (x : Session) (q : TReq) (n : Nat) (kind : Nat) (dest : Nat) (ring : Nat) (tc : Nat) (qu : Nat) (g : Nat) (y : Nat) (r : Nat) (sp : Nat) (sa : Nat) (d : Nat),
    Issued (s.elapse dt) p x q 1539 11 ((s.elapse dt).queuePerm n) ∧ (¬(3 < kind ∨ 7 < tc ∨ qu < 64 ∨ 2 ^ 20 < qu ∨ r < 1 ∨ y < r ∨ g < y ∨ 2 ^ 20 < g ∨ 1 < sp ∨ 1 < sa ∨ kind = 1 ∧ 23 < dest ∨ kind = 2 ∧ 1023 < ring)) ∧ (s.elapse dt).queueDom n = some d ∧ ((kind = 1 → (s.elapse dt).portIn dest d = true ∧ dest < s.portCount) ∧ (kind = 2 → (s.elapse dt).fnExists (fnOf dest) = true ∧ (s.elapse dt).fnDom (fnOf dest) = d)) ∧ (sa = 1 ∧ (s.queue n).cfg.sample = false ∧ (s.elapse dt).sampleQuota d ≤ (s.elapse dt).sampledCount d)) ∧
  (∃ (s : State) (dt : Nat) (p : Path) (x : Session) (q : TReq) (n : Nat) (kind : Nat) (dest : Nat) (ring : Nat) (tc : Nat) (qu : Nat) (g : Nat) (y : Nat) (r : Nat) (sp : Nat) (sa : Nat) (d : Nat),
    Issued (s.elapse dt) p x q 1539 11 ((s.elapse dt).queuePerm n) ∧ (¬(3 < kind ∨ 7 < tc ∨ qu < 64 ∨ 2 ^ 20 < qu ∨ r < 1 ∨ y < r ∨ g < y ∨ 2 ^ 20 < g ∨ 1 < sp ∨ 1 < sa ∨ kind = 1 ∧ 23 < dest ∨ kind = 2 ∧ 1023 < ring)) ∧ (s.elapse dt).queueDom n = some d ∧ ((kind = 1 → (s.elapse dt).portIn dest d = true ∧ dest < s.portCount) ∧ (kind = 2 → (s.elapse dt).fnExists (fnOf dest) = true ∧ (s.elapse dt).fnDom (fnOf dest) = d)) ∧ (¬(sa = 1 ∧ (s.queue n).cfg.sample = false ∧ (s.elapse dt).sampleQuota d ≤ (s.elapse dt).sampledCount d)) ∧ (0 < (s.queue n).depth ∧ ¬(({ kind := kind, port := if kind = 1 then dest else 0, fn := if kind = 2 then fnOf dest else 0, ring := if kind = 2 then ring else 0, tc := tc, quantum := qu, limG := g, limY := y, limR := r, spill := sp == 1, sample := sa == 1 } : QCfg).kind = (s.queue n).cfg.kind ∧ ({ kind := kind, port := if kind = 1 then dest else 0, fn := if kind = 2 then fnOf dest else 0, ring := if kind = 2 then ring else 0, tc := tc, quantum := qu, limG := g, limY := y, limR := r, spill := sp == 1, sample := sa == 1 } : QCfg).port = (s.queue n).cfg.port ∧ ({ kind := kind, port := if kind = 1 then dest else 0, fn := if kind = 2 then fnOf dest else 0, ring := if kind = 2 then ring else 0, tc := tc, quantum := qu, limG := g, limY := y, limR := r, spill := sp == 1, sample := sa == 1 } : QCfg).fn = (s.queue n).cfg.fn ∧ ({ kind := kind, port := if kind = 1 then dest else 0, fn := if kind = 2 then fnOf dest else 0, ring := if kind = 2 then ring else 0, tc := tc, quantum := qu, limG := g, limY := y, limR := r, spill := sp == 1, sample := sa == 1 } : QCfg).ring = (s.queue n).cfg.ring))) ∧
  (∃ (s : State) (dt : Nat) (p : Path) (x : Session) (q : TReq) (n : Nat) (kind : Nat) (dest : Nat) (ring : Nat) (tc : Nat) (qu : Nat) (g : Nat) (y : Nat) (r : Nat) (sp : Nat) (sa : Nat) (d : Nat),
    Issued (s.elapse dt) p x q 1539 11 ((s.elapse dt).queuePerm n) ∧ (¬(3 < kind ∨ 7 < tc ∨ qu < 64 ∨ 2 ^ 20 < qu ∨ r < 1 ∨ y < r ∨ g < y ∨ 2 ^ 20 < g ∨ 1 < sp ∨ 1 < sa ∨ kind = 1 ∧ 23 < dest ∨ kind = 2 ∧ 1023 < ring)) ∧ (s.elapse dt).queueDom n = some d ∧ ((kind = 1 → (s.elapse dt).portIn dest d = true ∧ dest < s.portCount) ∧ (kind = 2 → (s.elapse dt).fnExists (fnOf dest) = true ∧ (s.elapse dt).fnDom (fnOf dest) = d)) ∧ (¬(sa = 1 ∧ (s.queue n).cfg.sample = false ∧ (s.elapse dt).sampleQuota d ≤ (s.elapse dt).sampledCount d)) ∧ (¬(0 < (s.queue n).depth ∧ ¬(({ kind := kind, port := if kind = 1 then dest else 0, fn := if kind = 2 then fnOf dest else 0, ring := if kind = 2 then ring else 0, tc := tc, quantum := qu, limG := g, limY := y, limR := r, spill := sp == 1, sample := sa == 1 } : QCfg).kind = (s.queue n).cfg.kind ∧ ({ kind := kind, port := if kind = 1 then dest else 0, fn := if kind = 2 then fnOf dest else 0, ring := if kind = 2 then ring else 0, tc := tc, quantum := qu, limG := g, limY := y, limR := r, spill := sp == 1, sample := sa == 1 } : QCfg).port = (s.queue n).cfg.port ∧ ({ kind := kind, port := if kind = 1 then dest else 0, fn := if kind = 2 then fnOf dest else 0, ring := if kind = 2 then ring else 0, tc := tc, quantum := qu, limG := g, limY := y, limR := r, spill := sp == 1, sample := sa == 1 } : QCfg).fn = (s.queue n).cfg.fn ∧ ({ kind := kind, port := if kind = 1 then dest else 0, fn := if kind = 2 then fnOf dest else 0, ring := if kind = 2 then ring else 0, tc := tc, quantum := qu, limG := g, limY := y, limR := r, spill := sp == 1, sample := sa == 1 } : QCfg).ring = (s.queue n).cfg.ring)))) ∧
  (∃ (s : State) (dt : Nat),
    (s.elapse dt).Settled ∧ s.tm.pend = []) ∧
  (∃ (s : State) (dt : Nat) (p : Path) (x : Session) (q : TReq) (pd : QPend) (rest : List QPend),
    (s.elapse dt).Settled ∧ s.tm.pend = pd :: rest ∧ pd.path = p ∧ Awaits (s.elapse dt) p x q 1539 ∧ 0 < (s.queue pd.queue).depth ∧ (¬(pd.cfg.kind = (s.queue pd.queue).cfg.kind ∧ pd.cfg.port = (s.queue pd.queue).cfg.port ∧ pd.cfg.fn = (s.queue pd.queue).cfg.fn ∧ pd.cfg.ring = (s.queue pd.queue).cfg.ring))) ∧
  (∃ (s : State) (dt : Nat) (p : Path) (x : Session) (q : TReq) (pd : QPend) (rest : List QPend),
    (s.elapse dt).Settled ∧ s.tm.pend = pd :: rest ∧ pd.path = p ∧ Awaits (s.elapse dt) p x q 1539 ∧ ((s.queue pd.queue).depth = 0 ∨ pd.cfg.kind = (s.queue pd.queue).cfg.kind ∧ pd.cfg.port = (s.queue pd.queue).cfg.port ∧ pd.cfg.fn = (s.queue pd.queue).cfg.fn ∧ pd.cfg.ring = (s.queue pd.queue).cfg.ring)) ∧
  (∃ (s : State) (dt : Nat) (p : Path) (x : Session) (q : TReq) (pd : QPend) (rest : List QPend),
    (s.elapse dt).Settled ∧ s.tm.pend = pd :: rest ∧ pd.path = p ∧ Awaits (s.elapse dt) p x q 1539 ∧ (pd.cfg.kind = (s.queue pd.queue).cfg.kind ∧ pd.cfg.port = (s.queue pd.queue).cfg.port ∧ pd.cfg.fn = (s.queue pd.queue).cfg.fn ∧ pd.cfg.ring = (s.queue pd.queue).cfg.ring) ∧ ((s.queue pd.queue).cfg.kind = 2 → (s.queue pd.queue).cfg.ring ≠ 1023 → (tget? s.dma.queueChan pd.queue).isSome = true)) ∧
  (∃ (s : State) (dt : Nat) (p : Path) (x : Session) (q : TReq) (n : Nat),
    Issued (s.elapse dt) p x q 1540 1 ((s.elapse dt).queuePerm n) ∧ (s.elapse dt).queueDom n = none) ∧
  (∃ (s : State) (dt : Nat) (p : Path) (x : Session) (q : TReq) (n : Nat),
    Issued (s.elapse dt) p x q 1540 1 ((s.elapse dt).queuePerm n) ∧ ((s.elapse dt).queueDom n).isSome = true) ∧
  (∃ (s : State) (dt : Nat) (p : Path) (x : Session) (q : TReq) (n : Nat) (mode : Nat) (r : Rates),
    Issued (s.elapse dt) p x q 1541 6 ((s.elapse dt).queuePerm n) ∧ (1 < mode ∨ mode = 1 ∧ (r.pir < r.cir ∨ r.cbs < 64 ∨ r.pbs < r.cbs ∨ 16 * 2 ^ 20 < r.pbs))) ∧
  (∃ (s : State) (dt : Nat) (p : Path) (x : Session) (q : TReq) (n : Nat) (mode : Nat) (r : Rates),
    Issued (s.elapse dt) p x q 1541 6 ((s.elapse dt).queuePerm n) ∧ (¬(1 < mode ∨ mode = 1 ∧ (r.pir < r.cir ∨ r.cbs < 64 ∨ r.pbs < r.cbs ∨ 16 * 2 ^ 20 < r.pbs))) ∧ (s.elapse dt).queueDom n = none) ∧
  (∃ (s : State) (dt : Nat) (p : Path) (x : Session) (q : TReq) (n : Nat) (mode : Nat) (r : Rates),
    Issued (s.elapse dt) p x q 1541 6 ((s.elapse dt).queuePerm n) ∧ (¬(1 < mode ∨ mode = 1 ∧ (r.pir < r.cir ∨ r.cbs < 64 ∨ r.pbs < r.cbs ∨ 16 * 2 ^ 20 < r.pbs))) ∧ ((s.elapse dt).queueDom n).isSome = true) ∧
  (∃ (s : State) (dt : Nat) (p : Path) (x : Session) (q : TReq) (n : Nat) (la : Nat) (qs : List Nat),
    Issued (s.elapse dt) p x q 1542 18 Perm.any ∧ (23 < n ∧ n ≠ 254 ∨ 63 < la ∨ (qs.any fun v => decide (v < 1536 ∨ 2 ^ 20 < v)) = true)) ∧
  (∃ (s : State) (dt : Nat) (p : Path) (x : Session) (q : TReq) (n : Nat) (la : Nat) (qs : List Nat),
    Issued (s.elapse dt) p x q 1542 18 Perm.any ∧ (¬(23 < n ∧ n ≠ 254 ∨ 63 < la ∨ (qs.any fun v => decide (v < 1536 ∨ 2 ^ 20 < v)) = true)) ∧ n ≠ 254 ∧ s.portCount ≤ n) ∧
  (∃ (s : State) (dt : Nat) (p : Path) (x : Session) (q : TReq) (n : Nat) (la : Nat) (qs : List Nat),
    Issued (s.elapse dt) p x q 1542 18 Perm.any ∧ (¬(23 < n ∧ n ≠ 254 ∨ 63 < la ∨ (qs.any fun v => decide (v < 1536 ∨ 2 ^ 20 < v)) = true)) ∧ (n = 254 ∨ n < s.portCount)) ∧
  (∃ (s : State) (dt : Nat) (p : Path) (x : Session) (q : TReq) (ls : List Nat),
    Issued (s.elapse dt) p x q 1544 16 Perm.any ∧ ls.length = 16 ∧ 1024 < ls.sum) ∧
  (∃ (s : State) (dt : Nat) (p : Path) (x : Session) (q : TReq) (ls : List Nat),
    Issued (s.elapse dt) p x q 1544 16 Perm.any ∧ ls.length = 16 ∧ ls.sum ≤ 1024) ∧
  (∃ (s : State) (dt : Nat) (p : Path) (x : Session) (q : TReq) (qr : List (Nat × Nat)) (mr : List (Nat × Nat)),
    Issued (s.elapse dt) p x q 1545 80 Perm.any ∧ (rangesOk 32768 qr = false ∨ rangesOk 32768 mr = false ∨ ((List.filter (fun y => y.snd.cfg.kind != 0 || decide (0 < y.snd.depth)) s.tm.queues).any fun y => (fun rs k o => Option.any (fun d => !inRange (rs.getD d (0, 0)) k) o) qr y.fst ((s.elapse dt).queueDom y.fst)) = true ∨ ((List.filter (fun y => y.snd.set_ || !y.snd.next.isEmpty) s.tm.meters).any fun y => (fun rs k o => Option.any (fun d => !inRange (rs.getD d (0, 0)) k) o) mr y.fst ((s.elapse dt).meterDom y.fst)) = true)) ∧
  (∃ (s : State) (dt : Nat) (p : Path) (x : Session) (q : TReq) (qr : List (Nat × Nat)) (mr : List (Nat × Nat)),
    Issued (s.elapse dt) p x q 1545 80 Perm.any ∧ (¬(rangesOk 32768 qr = false ∨ rangesOk 32768 mr = false ∨ ((List.filter (fun y => y.snd.cfg.kind != 0 || decide (0 < y.snd.depth)) s.tm.queues).any fun y => (fun rs k o => Option.any (fun d => !inRange (rs.getD d (0, 0)) k) o) qr y.fst ((s.elapse dt).queueDom y.fst)) = true ∨ ((List.filter (fun y => y.snd.set_ || !y.snd.next.isEmpty) s.tm.meters).any fun y => (fun rs k o => Option.any (fun d => !inRange (rs.getD d (0, 0)) k) o) mr y.fst ((s.elapse dt).meterDom y.fst)) = true))) ∧
  (∃ (s : State) (dt : Nat) (p : Path) (x : Session) (q : TReq) (n : Nat),
    Issued (s.elapse dt) p x q 1546 1 Perm.any ∧ (n < 1 ∨ 1024 < n)) ∧
  (∃ (s : State) (dt : Nat) (p : Path) (x : Session) (q : TReq) (n : Nat),
    Issued (s.elapse dt) p x q 1546 1 Perm.any ∧ 1 ≤ n ∧ n ≤ 1024) ∧
  (∃ (s : State) (dt : Nat) (p : Path) (x : Session) (q : TReq) (d : Nat),
    Issued (s.elapse dt) p x q 1547 1 (Perm.owner d) ∧ s.domOn d = false) ∧
  (∃ (s : State) (dt : Nat) (p : Path) (x : Session) (q : TReq) (d : Nat),
    Issued (s.elapse dt) p x q 1547 1 (Perm.owner d) ∧ s.domOn d = true) ∧
  (∃ (s : State) (dt : Nat) (p : Path) (x : Session) (q : TReq) (ing : List Nat) (spout : List Nat) (prio : List Nat) (share : List Nat) (spill : List Nat),
    Issued (s.elapse dt) p x q 1543 104 Perm.any ∧ ((share.all fun v => decide (v < 2 ^ 17)) = true) ∧ ((spill.all fun v => decide (v < 2 ^ 16)) = true) ∧ (((List.range 24).any fun n => !(nth ing n % 16 == 0 && decide (16 ≤ nth ing n) && decide (nth ing n ≤ 4096) || nth ing n == 0 && !(fun n => decide (0 < modeLanes (s.pt n).mode)) n) || nth spout n % 16 != 0 || decide (256 < nth spout n) || decide (0 < nth spout n) && !(s.pt n).lowLatency || decide (7 < nth prio n)) = true)) ∧
  (∃ (s : State) (dt : Nat) (p : Path) (x : Session) (q : TReq) (ing : List Nat) (spout : List Nat) (prio : List Nat) (share : List Nat) (spill : List Nat),
    Issued (s.elapse dt) p x q 1543 104 Perm.any ∧ ((share.all fun v => decide (v < 2 ^ 17)) = true) ∧ ((spill.all fun v => decide (v < 2 ^ 16)) = true) ∧ (((List.range 24).any fun n => !(nth ing n % 16 == 0 && decide (16 ≤ nth ing n) && decide (nth ing n ≤ 4096) || nth ing n == 0 && !(fun n => decide (0 < modeLanes (s.pt n).mode)) n) || nth spout n % 16 != 0 || decide (256 < nth spout n) || decide (0 < nth spout n) && !(s.pt n).lowLatency || decide (7 < nth prio n)) = false) ∧ (({ s.elapse dt with tm := ({ (s.elapse dt).tm with doms := List.map (fun d => (d, ({ s.tmDom d with shareKib := some (nth share d), spillMib := nth spill d } : TmDom))) (List.range 16), ingRes := List.map (fun p => (p, nth ing p)) (List.range 24), spoutRes := List.map (fun p => (p, nth spout p)) (List.range 24), defPrio := List.map (fun p => (p, nth prio p)) (List.range 24) } : Tm) } : State).sharedKib < share.sum ∨ ((List.range 16).any fun d => Option.any (fun c => decide (c < nth share d)) (s.bufCeil d)) = true ∨ ((List.range 24).any fun n => (fun n => decide (0 < modeLanes (s.pt n).mode)) n && (List.range 8).any fun i => (s.pt n).pfc.tracked i && decide (nth ing n < nth (s.pt n).pfc.xoff i)) = true ∨ ({ s.elapse dt with tm := ({ (s.elapse dt).tm with doms := List.map (fun d => (d, ({ s.tmDom d with shareKib := some (nth share d), spillMib := nth spill d } : TmDom))) (List.range 16), ingRes := List.map (fun p => (p, nth ing p)) (List.range 24), spoutRes := List.map (fun p => (p, nth spout p)) (List.range 24), defPrio := List.map (fun p => (p, nth prio p)) (List.range 24) } : Tm) } : State).poolsOk = false)) ∧
  (∃ (s : State) (dt : Nat) (p : Path) (x : Session) (q : TReq) (ing : List Nat) (spout : List Nat) (prio : List Nat) (share : List Nat) (spill : List Nat),
    Issued (s.elapse dt) p x q 1543 104 Perm.any ∧ ((share.all fun v => decide (v < 2 ^ 17)) = true) ∧ ((spill.all fun v => decide (v < 2 ^ 16)) = true) ∧ (((List.range 24).any fun n => !(nth ing n % 16 == 0 && decide (16 ≤ nth ing n) && decide (nth ing n ≤ 4096) || nth ing n == 0 && !(fun n => decide (0 < modeLanes (s.pt n).mode)) n) || nth spout n % 16 != 0 || decide (256 < nth spout n) || decide (0 < nth spout n) && !(s.pt n).lowLatency || decide (7 < nth prio n)) = false) ∧ (¬(({ s.elapse dt with tm := ({ (s.elapse dt).tm with doms := List.map (fun d => (d, ({ s.tmDom d with shareKib := some (nth share d), spillMib := nth spill d } : TmDom))) (List.range 16), ingRes := List.map (fun p => (p, nth ing p)) (List.range 24), spoutRes := List.map (fun p => (p, nth spout p)) (List.range 24), defPrio := List.map (fun p => (p, nth prio p)) (List.range 24) } : Tm) } : State).sharedKib < share.sum ∨ ((List.range 16).any fun d => Option.any (fun c => decide (c < nth share d)) (s.bufCeil d)) = true ∨ ((List.range 24).any fun n => (fun n => decide (0 < modeLanes (s.pt n).mode)) n && (List.range 8).any fun i => (s.pt n).pfc.tracked i && decide (nth ing n < nth (s.pt n).pfc.xoff i)) = true ∨ ({ s.elapse dt with tm := ({ (s.elapse dt).tm with doms := List.map (fun d => (d, ({ s.tmDom d with shareKib := some (nth share d), spillMib := nth spill d } : TmDom))) (List.range 16), ingRes := List.map (fun p => (p, nth ing p)) (List.range 24), spoutRes := List.map (fun p => (p, nth spout p)) (List.range 24), defPrio := List.map (fun p => (p, nth prio p)) (List.range 24) } : Tm) } : State).poolsOk = false)) ∧ ((((List.range 24).any fun n => decide (nth ing n < s.ingRes n) && decide (nth ing n * 1024 < ((s.elapse dt).heldBytes n 0).sum) || decide (nth spout n < s.spoutRes n) && decide (nth spout n * 1024 < (List.map (fun r => List.length r.data) (List.filter (fun r => r.egress == n) s.pl.spoutWait)).sum)) || (List.range 16).any fun d => decide (nth share d < s.shareKib d) && decide (nth share d * 4 < s.cellsUsed d) || decide (nth spill d < (s.tmDom d).spillMib) && decide (nth spill d * 4096 < s.spillUsed d)) = true)) ∧
  (∃ (s : State) (dt : Nat) (p : Path) (x : Session) (q : TReq) (ing : List Nat) (spout : List Nat) (prio : List Nat) (share : List Nat) (spill : List Nat),
    Issued (s.elapse dt) p x q 1543 104 Perm.any ∧ ((share.all fun v => decide (v < 2 ^ 17)) = true) ∧ ((spill.all fun v => decide (v < 2 ^ 16)) = true) ∧ (((List.range 24).any fun n => !(nth ing n % 16 == 0 && decide (16 ≤ nth ing n) && decide (nth ing n ≤ 4096) || nth ing n == 0 && !(fun n => decide (0 < modeLanes (s.pt n).mode)) n) || nth spout n % 16 != 0 || decide (256 < nth spout n) || decide (0 < nth spout n) && !(s.pt n).lowLatency || decide (7 < nth prio n)) = false) ∧ (¬(({ s.elapse dt with tm := ({ (s.elapse dt).tm with doms := List.map (fun d => (d, ({ s.tmDom d with shareKib := some (nth share d), spillMib := nth spill d } : TmDom))) (List.range 16), ingRes := List.map (fun p => (p, nth ing p)) (List.range 24), spoutRes := List.map (fun p => (p, nth spout p)) (List.range 24), defPrio := List.map (fun p => (p, nth prio p)) (List.range 24) } : Tm) } : State).sharedKib < share.sum ∨ ((List.range 16).any fun d => Option.any (fun c => decide (c < nth share d)) (s.bufCeil d)) = true ∨ ((List.range 24).any fun n => (fun n => decide (0 < modeLanes (s.pt n).mode)) n && (List.range 8).any fun i => (s.pt n).pfc.tracked i && decide (nth ing n < nth (s.pt n).pfc.xoff i)) = true ∨ ({ s.elapse dt with tm := ({ (s.elapse dt).tm with doms := List.map (fun d => (d, ({ s.tmDom d with shareKib := some (nth share d), spillMib := nth spill d } : TmDom))) (List.range 16), ingRes := List.map (fun p => (p, nth ing p)) (List.range 24), spoutRes := List.map (fun p => (p, nth spout p)) (List.range 24), defPrio := List.map (fun p => (p, nth prio p)) (List.range 24) } : Tm) } : State).poolsOk = false)) ∧ ((((List.range 24).any fun n => decide (nth ing n < s.ingRes n) && decide (nth ing n * 1024 < ((s.elapse dt).heldBytes n 0).sum) || decide (nth spout n < s.spoutRes n) && decide (nth spout n * 1024 < (List.map (fun r => List.length r.data) (List.filter (fun r => r.egress == n) s.pl.spoutWait)).sum)) || (List.range 16).any fun d => decide (nth share d < s.shareKib d) && decide (nth share d * 4 < s.cellsUsed d) || decide (nth spill d < (s.tmDom d).spillMib) && decide (nth spill d * 4096 < s.spillUsed d)) = false)) :=
  ⟨⟨(ask (linked .service) 0x0601 9), 3, (.mp 1), (sess 0x0601 9), (req 0x0601 9), 0, { cir := 5, pir := 4, cbs := 64, pbs := 64 }, 0, 0, 0, 0,
      issued_of (by decide +kernel), by decide +kernel⟩,
    ⟨(ask (linked .service) 0x0601 9), 3, (.mp 1), (sess 0x0601 9), (req 0x0601 9), 32768, { cir := 5, pir := 5, cbs := 64, pbs := 64 }, 1, 1, 1, (-32),
      issued_of (by decide +kernel), by decide +kernel⟩,
    ⟨(ask (linked .service) 0x0601 9), 3, (.mp 1), (sess 0x0601 9), (req 0x0601 9), 32767, { cir := 5, pir := 5, cbs := 64, pbs := 2^24 }, 1, 1, 1, (63),
      issued_of (by decide +kernel), by decide +kernel⟩,
    ⟨(ask (linked .service) 0x0602 1), 3, (.mp 1), (sess 0x0602 1), (req 0x0602 1), 32768,
      issued_of (by decide +kernel), by decide +kernel⟩,
    ⟨(ask (linked .service) 0x0602 1), 3, (.mp 1), (sess 0x0602 1), (req 0x0602 1), 32767,
      issued_of (by decide +kernel), by decide +kernel⟩,
    ⟨(ask (linked .service) 0x0603 11), 3, (.mp 1), (sess 0x0603 11), (req 0x0603 11), 32767, 1, 24, 0, 7, 64, (2^20), (2^20), 1, 1, 1,
      issued_of (by decide +kernel), by decide +kernel⟩,
    ⟨(ask (linked .service) 0x0603 11), 3, (.mp 1), (sess 0x0603 11), (req 0x0603 11), 32768, 0, 0, 0, 7, 64, (2^20), (2^20), 1, 1, 1,
      issued_of (by decide +kernel), by decide +kernel⟩,
    ⟨(ask (bDev .service) 0x0603 11), 3, (.mp 1), (sess 0x0603 11), (req 0x0603 11), 32767, 1, 16, 0, 7, 64, (2^20), (2^20), 1, 1, 1, 0,
      issued_of (by decide +kernel), by decide +kernel⟩,
    ⟨(ask { linked .service with tm.doms := [(0, { sampled := some 0 })] } 0x0603 11), 3, (.mp 1), (sess 0x0603 11), (req 0x0603 11), 32767, 1, 23, 0, 7, 64, (2^20), (2^20), 1, 1, 1, 0,
      issued_of (by decide +kernel), by decide +kernel⟩,
    ⟨(ask txq 0x0603 11), 3, (.mp 1), (sess 0x0603 11), (req 0x0603 11), 9, 1, 1, 0, 7, 64, (2^20), (2^20), 1, 1, 0, 0,
      issued_of (by decide +kernel), by decide +kernel⟩,
    ⟨(ask txq 0x0603 11), 3, (.mp 1), (sess 0x0603 11), (req 0x0603 11), 9, 1, 0, 0, 7, (2^20), (2^20), (2^20), 1, 1, 0, 0,
      issued_of (by decide +kernel), by decide +kernel⟩,
    ⟨(linked .service), 3,
      settled_of (by decide +kernel), by decide +kernel⟩,
    ⟨(wait { txq with tm.pend := [{ path := .mp 1, queue := 9, cfg := { kind := 1, port := 2 }, dom := 0 }] } 0x0603 11), 3, (.mp 1), (busy 0x0603 11), (req 0x0603 11), { path := .mp 1, queue := 9, cfg := { kind := 1, port := 2 }, dom := 0 }, [],
      settled_of (by decide +kernel), by decide +kernel, by decide +kernel, awaits_of (by decide +kernel), by decide +kernel⟩,
    ⟨(wait { txq with tm.pend := [{ path := .mp 1, queue := 8, cfg := { kind := 1, port := 2 }, dom := 0 }] } 0x0603 11), 3, (.mp 1), (busy 0x0603 11), (req 0x0603 11), { path := .mp 1, queue := 8, cfg := { kind := 1, port := 2 }, dom := 0 }, [],
      settled_of (by decide +kernel), by decide +kernel, by decide +kernel, awaits_of (by decide +kernel), by decide +kernel⟩,
    ⟨(wait { txq with tm.pend := [{ path := .mp 1, queue := 9, cfg := { kind := 1, port := 0, quantum := 64 }, dom := 0 }] } 0x0603 11), 3, (.mp 1), (busy 0x0603 11), (req 0x0603 11), { path := .mp 1, queue := 9, cfg := { kind := 1, port := 0, quantum := 64 }, dom := 0 }, [],
      settled_of (by decide +kernel), by decide +kernel, by decide +kernel, awaits_of (by decide +kernel), by decide +kernel⟩,
    ⟨(ask (linked .service) 0x0604 1), 3, (.mp 1), (sess 0x0604 1), (req 0x0604 1), 32768,
      issued_of (by decide +kernel), by decide +kernel⟩,
    ⟨(ask txq 0x0604 1), 3, (.mp 1), (sess 0x0604 1), (req 0x0604 1), 9,
      issued_of (by decide +kernel), by decide +kernel⟩,
    ⟨(ask txq 0x0605 6), 3, (.mp 1), (sess 0x0605 6), (req 0x0605 6), 9, 1, { cir := 5, pir := 4, cbs := 64, pbs := 64 },
      issued_of (by decide +kernel), by decide +kernel⟩,
    ⟨(ask txq 0x0605 6), 3, (.mp 1), (sess 0x0605 6), (req 0x0605 6), 32768, 0, { cir := 5, pir := 4, cbs := 64, pbs := 64 },
      issued_of (by decide +kernel), by decide +kernel⟩,
    ⟨(ask txq 0x0605 6), 3, (.mp 1), (sess 0x0605 6), (req 0x0605 6), 9, 1, { cir := 5, pir := 5, cbs := 64, pbs := 64 },
      issued_of (by decide +kernel), by decide +kernel⟩,
    ⟨(ask (linked .service) 0x0606 18), 3, (.mp 1), (sess 0x0606 18), (req 0x0606 18), 24, 0, (List.replicate 16 1536),
      issued_of (by decide +kernel), by decide +kernel⟩,
    ⟨(ask (bDev .service) 0x0606 18), 3, (.mp 1), (sess 0x0606 18), (req 0x0606 18), 16, 63, (List.replicate 16 1536),
      issued_of (by decide +kernel), by decide +kernel⟩,
    ⟨(ask (linked .service) 0x0606 18), 3, (.mp 1), (sess 0x0606 18), (req 0x0606 18), 23, 63, (List.replicate 16 1536),
      issued_of (by decide +kernel), by decide +kernel⟩,
    ⟨(ask (linked .service) 0x0608 16), 3, (.mp 1), (sess 0x0608 16), (req 0x0608 16), (List.replicate 16 65),
      issued_of (by decide +kernel), by decide +kernel⟩,
    ⟨(ask (linked .service) 0x0608 16), 3, (.mp 1), (sess 0x0608 16), (req 0x0608 16), (List.replicate 16 64),
      issued_of (by decide +kernel), by decide +kernel⟩,
    ⟨(ask (linked .service) 0x0609 80), 3, (.mp 1), (sess 0x0609 80), (req 0x0609 80), ([(0,32769)] ++ List.replicate 15 (0,0)), (List.replicate 16 (0,0)),
      issued_of (by decide +kernel), by decide +kernel⟩,
    ⟨(ask txq 0x0609 80), 3, (.mp 1), (sess 0x0609 80), (req 0x0609 80), ([(9,32759)] ++ List.replicate 15 (0,0)), (List.replicate 16 (0,0)),
      issued_of (by decide +kernel), by decide +kernel⟩,
    ⟨(ask (linked .service) 0x060A 1), 3, (.mp 1), (sess 0x060A 1), (req 0x060A 1), 1025,
      issued_of (by decide +kernel), by decide +kernel⟩,
    ⟨(ask (linked .service) 0x060A 1), 3, (.mp 1), (sess 0x060A 1), (req 0x060A 1), 1024,
      issued_of (by decide +kernel), by decide +kernel⟩,
    ⟨(ask (mapped .service) 0x060B 1), 3, (.mp 1), (sess 0x060B 1), (req 0x060B 1), 2,
      issued_of (by decide +kernel), by decide +kernel⟩,
    ⟨(ask (linked .service) 0x060B 1), 3, (.mp 1), (sess 0x060B 1), (req 0x060B 1), 0,
      issued_of (by decide +kernel), by decide +kernel⟩,
    ⟨(ask (linked .service) 0x0607 104), 3, (.mp 1), (sess 0x0607 104), (req 0x0607 104), (List.replicate 24 256), (List.replicate 24 0), (List.replicate 24 8), (List.replicate 16 0), (List.replicate 16 0),
      issued_of (by decide +kernel), by decide +kernel⟩,
    ⟨(ask (linked .service) 0x0607 104), 3, (.mp 1), (sess 0x0607 104), (req 0x0607 104), (List.replicate 24 256), (List.replicate 24 0), (List.replicate 24 7), (List.replicate 16 98304), (List.replicate 16 0),
      issued_of (by decide +kernel), by decide +kernel⟩,
    ⟨(ask txq 0x0607 104), 3, (.mp 1), (sess 0x0607 104), (req 0x0607 104), (List.replicate 24 256), (List.replicate 24 0), (List.replicate 24 7), (List.replicate 16 0), (List.replicate 16 0),
      issued_of (by decide +kernel), by decide +kernel⟩,
    ⟨(ask (linked .service) 0x0607 104), 3, (.mp 1), (sess 0x0607 104), (req 0x0607 104), (List.replicate 24 256), (List.replicate 24 0), (List.replicate 24 7), ([98304] ++ List.replicate 15 0), (List.replicate 16 0),
      issued_of (by decide +kernel), by decide +kernel⟩⟩

/-- The premises of `Obligations.BucketsAndSamples`, clause by clause, are met. -/
theorem witness_BucketsAndSamples :
  (∃ (s : State) (dt : Nat),
    (s.elapse dt).Settled ∧ (s.elapse dt).now % grid 10 = 0 ∧ s.tm.refilled ≠ (s.elapse dt).now + 1 ∧ s.glb.mode ≠ Mode.lockdown) ∧
  (∃ (s : State) (dt : Nat),
    (s.elapse dt).Settled ∧ ((s.elapse dt).now % grid 10 ≠ 0 ∨ s.tm.refilled = (s.elapse dt).now + 1 ∨ s.glb.mode = Mode.lockdown)) ∧
  (∃ (s : State) (dt : Nat),
    (s.elapse dt).Settled ∧ ((s.elapse dt).now % grid 10 ≠ 0 ∨ s.glb.mode = Mode.lockdown)) ∧
  (∃ (s : State) (dt : Nat),
    (s.elapse dt).Settled ∧ (s.elapse dt).now % grid 12 = 0 ∧ s.tm.sampled ≠ (s.elapse dt).now + 1 ∧ (s.elapse dt).sampling = true) ∧
  (∃ (s : State) (dt : Nat),
    (s.elapse dt).Settled ∧ ((s.elapse dt).now % grid 12 ≠ 0 ∨ s.tm.sampled = (s.elapse dt).now + 1 ∨ (s.elapse dt).sampling = false)) ∧
  (∃ (s : State) (dt : Nat),
    (s.elapse dt).Settled ∧ ((s.elapse dt).now % grid 20 ≠ 0 ∨ (s.elapse dt).sampling = false ∨ s.tm.ended = (s.elapse dt).now + 1)) ∧
  (∃ (s : State) (dt : Nat) (k : Nat) (y : Queue) (d : Nat) (m : Nat),
    (s.elapse dt).Settled ∧ (s.elapse dt).now % grid 20 = 0 ∧ (s.elapse dt).sampling = true ∧ s.tm.ended ≠ (s.elapse dt).now + 1 ∧ s.tm.sampled = (s.elapse dt).now + 1 ∧ s.doms = [d] ∧ s.tm.queues = [(k, y)] ∧ y.cfg.sample = true ∧ (s.elapse dt).queueDom k = some d ∧ s.slu.events = [] ∧ (s.elapse dt).sampleRing d = none ∧ (s.tmDom d).periodNext = some m ∧ (s.elapse dt).now % (m * grid 20) = 0) ∧
  (∃ (s : State) (dt : Nat) (k : Nat) (y : Queue) (d : Nat),
    (s.elapse dt).Settled ∧ (s.elapse dt).now % grid 20 = 0 ∧ (s.elapse dt).sampling = true ∧ s.tm.ended ≠ (s.elapse dt).now + 1 ∧ s.tm.sampled = (s.elapse dt).now + 1 ∧ s.doms = [d] ∧ s.tm.queues = [(k, y)] ∧ y.cfg.sample = true ∧ (s.elapse dt).queueDom k = some d ∧ s.slu.events = [] ∧ (s.elapse dt).sampleRing d = none ∧ (s.tmDom d).periodNext = none ∧ (s.elapse dt).now % ((s.tmDom d).periodMult * grid 20) = 0) ∧
  (∃ (s : State) (dt : Nat) (k : Nat) (y : Queue) (d : Nat),
    (s.elapse dt).Settled ∧ (s.elapse dt).now % grid 20 = 0 ∧ (s.elapse dt).sampling = true ∧ s.tm.ended ≠ (s.elapse dt).now + 1 ∧ s.tm.sampled = (s.elapse dt).now + 1 ∧ s.doms = [d] ∧ s.tm.queues = [(k, y)] ∧ y.cfg.sample = true ∧ (s.elapse dt).queueDom k = some d ∧ s.slu.events = [] ∧ (s.tmDom d).periodNext = none ∧ (s.elapse dt).now % ((s.tmDom d).periodMult * grid 20) ≠ 0) ∧
  (∃ (s : State) (dt : Nat) (k : Nat) (y : Queue) (d : Nat) (ring : Nat) (ds : Desc) (r : List Desc),
    (s.elapse dt).Settled ∧ (s.elapse dt).now % grid 20 = 0 ∧ (s.elapse dt).sampling = true ∧ s.tm.ended ≠ (s.elapse dt).now + 1 ∧ s.tm.sampled = (s.elapse dt).now + 1 ∧ s.doms = [d] ∧ s.tm.queues = [(k, y)] ∧ y.cfg.sample = true ∧ (s.elapse dt).queueDom k = some d ∧ s.slu.events = [] ∧ (s.elapse dt).sampleRing d = some ring ∧ (s.elapse dt).mute (fnOfKey ring) = false ∧ (s.elapse dt).waits (fnOfKey ring) = false ∧ ((s.elapse dt).ring ring).sumpFull = false ∧ ((s.elapse dt).ring ring).fetched = ds :: r ∧ ds.ended = false ∧ tget s.tm.filled d 0 = 0 ∧ 256 ≤ ds.len ∧ (s.tmDom d).periodNext = none ∧ (s.elapse dt).now % ((s.tmDom d).periodMult * grid 20) = 0) :=
  ⟨⟨{ linked .service with tm.meters := [(3, { next := [(grid 10, { rates := { cir := 1000, pir := 2000, cbs := 64, pbs := 128 } })] }), (4, { set_ := true, cfg := { rates := { cir := 1000, pir := 2000, cbs := 64, pbs := 128 } } })], tm.queues := [(1, { shMode := 1, sh := { cir := 1000, pir := 2000 } })] }, (grid 10),
      settled_of (by decide +kernel), by decide +kernel⟩,
    ⟨{ linked .service with tm.refilled := grid 10 + 1 }, (grid 10),
      settled_of (by decide +kernel), by decide +kernel⟩,
    ⟨{ linked .service with tm.meters := [(3, { next := [(grid 10, { rates := { cir := 1000, pir := 2000, cbs := 64, pbs := 128 } })] })], tm.queues := [(1, {})] }, (grid 10 - 1),
      settled_of (by decide +kernel), by decide +kernel⟩,
    ⟨{ linked .service with tm.queues := [(1, { cfg := { sample := true }, frames := [{ data := zeros 300 }] })] }, (grid 12),
      settled_of (by decide +kernel), by decide +kernel⟩,
    ⟨{ linked .service with tm.queues := [(1, { cfg := { sample := true } })] }, (grid 12 - 1),
      settled_of (by decide +kernel), by decide +kernel⟩,
    ⟨{ linked .service with tm.queues := [(1, { cfg := { sample := true } })] }, (grid 20 - 1),
      settled_of (by decide +kernel), by decide +kernel⟩,
    ⟨{ linked .service with tm.queues := [(1, { cfg := { sample := true } })], tm.sampled := grid 20 + 1, tm.doms := [(0, { periodNext := some 1 })] }, (grid 20), 1, { cfg := { sample := true } }, 0, 1,
      settled_of (by decide +kernel), by decide +kernel⟩,
    ⟨{ linked .service with tm.queues := [(1, { cfg := { sample := true } })], tm.sampled := grid 20 + 1 }, (grid 20), 1, { cfg := { sample := true } }, 0,
      settled_of (by decide +kernel), by decide +kernel⟩,
    ⟨{ linked .service with tm.queues := [(1, { cfg := { sample := true } })], tm.sampled := grid 20 + 1, tm.doms := [(0, { periodMult := 2 })] }, (grid 20), 1, { cfg := { sample := true } }, 0,
      settled_of (by decide +kernel), by decide +kernel⟩,
    ⟨{ linked .service with tm.queues := [(1, { cfg := { sample := true } })], tm.sampled := grid 20 + 1, rings.rings := [(rkey 0 4, { enable := true, kind := 0, engine := 7, cq := 3, fetched := [{ idx := 0, addr := 64, len := 256 }] })] }, (grid 20), 1, { cfg := { sample := true } }, 0, (rkey 0 4), { idx := 0, addr := 64, len := 256 }, [],
      settled_of (by decide +kernel), by decide +kernel⟩⟩

set_option Elab.async false
set_option maxRecDepth 4000
/-- The premises of `Obligations.FramesLeaveTheirQueues`, clause by clause, are met. -/
theorem witness_FramesLeaveTheirQueues :
  (∃ (s : State) (dt : Nat) (port : Nat),
    (s.elapse dt).Settled ∧ s.slu.events = [] ∧ ((s.elapse dt).lineFree port = false ∨ (s.elapse dt).spoutDue port = true ∨ s.ports.hb.port = some port ∧ s.ports.hb.waiting ≠ none ∨ s.glb.mode = Mode.lockdown ∨ (s.elapse dt).pickDom port 65536 = none)) ∧
  (∃ (s : State) (dt : Nat) (port : Nat) (qn : Nat) (d : Nat) (s1 : State) (f : Frame) (rest : List Frame),
    (s.elapse dt).Settled ∧ s.slu.events = [] ∧ (s.elapse dt).lineFree port = true ∧ (s.elapse dt).spoutDue port = false ∧ s.ports.hb.port ≠ some port ∧ s.glb.mode ≠ Mode.lockdown ∧ (s.elapse dt).pickDom port 65536 = some (qn, d, s1) ∧ (s1.queue qn).frames = f :: rest ∧ f.bad = true) ∧
  (∃ (s : State) (dt : Nat) (port : Nat) (qn : Nat) (d : Nat) (s1 : State) (f : Frame) (rest : List Frame),
    (s.elapse dt).Settled ∧ s.slu.events = [] ∧ (s.elapse dt).lineFree port = true ∧ (s.elapse dt).spoutDue port = false ∧ s.ports.hb.port ≠ some port ∧ s.glb.mode ≠ Mode.lockdown ∧ (s.elapse dt).pickDom port 65536 = some (qn, d, s1) ∧ (s1.queue qn).frames = f :: rest ∧ f.bad = false ∧ ((if f.heldIn = true then (s1.sendHead port d qn).unhold f else s1.sendHead port d qn).macFrame port f.data f.tci).fst = none) ∧
  (∃ (s : State) (dt : Nat) (port : Nat) (qn : Nat) (d : Nat) (s1 : State) (f : Frame) (rest : List Frame) (b : Bytes) (w : State),
    (s.elapse dt).Settled ∧ s.slu.events = [] ∧ (s.elapse dt).lineFree port = true ∧ (s.elapse dt).spoutDue port = false ∧ s.ports.hb.port ≠ some port ∧ s.glb.mode ≠ Mode.lockdown ∧ (s.elapse dt).pickDom port 65536 = some (qn, d, s1) ∧ (s1.queue qn).frames = f :: rest ∧ f.bad = false ∧ (if f.heldIn = true then (s1.sendHead port d qn).unhold f else s1.sendHead port d qn).macFrame port f.data f.tci = (some b, w) ∧ (s.elapse dt).holdOk port (List.length b) = true) ∧
  (∃ (s : State) (dt : Nat) (port : Nat) (qn : Nat) (d : Nat) (s1 : State) (f : Frame) (rest : List Frame) (b : Bytes) (w : State),
    (s.elapse dt).Settled ∧ s.slu.events = [] ∧ (s.elapse dt).lineFree port = true ∧ (s.elapse dt).spoutDue port = false ∧ s.ports.hb.port ≠ some port ∧ s.glb.mode ≠ Mode.lockdown ∧ (s.elapse dt).pickDom port 65536 = some (qn, d, s1) ∧ (s1.queue qn).frames = f :: rest ∧ f.bad = false ∧ (if f.heldIn = true then (s1.sendHead port d qn).unhold f else s1.sendHead port d qn).macFrame port f.data f.tci = (some b, w) ∧ (s.elapse dt).holdOk port (List.length b) = false) ∧
  (∃ (s : State) (dt : Nat) (port : Nat) (qn : Nat) (d : Nat) (s1 : State) (f : Frame) (rest : List Frame) (b : Bytes) (w : State) (r : Replica),
    (s.elapse dt).Settled ∧ s.slu.events = [] ∧ (s.elapse dt).lineFree port = true ∧ (s.elapse dt).spoutDue port = false ∧ s.ports.hb.port ≠ some port ∧ s.glb.mode ≠ Mode.lockdown ∧ (s.elapse dt).pickDom port 65536 = some (qn, d, s1) ∧ (s1.queue qn).frames = f :: rest ∧ f.bad = false ∧ (if f.heldIn = true then (s1.sendHead port d qn).unhold f else s1.sendHead port d qn).macFrame port f.data f.tci = (some b, w) ∧ s.slu.store = [r] ∧ r.port = port ∧ r.late = false ∧ r.target ≤ (s.elapse dt).startAt port + (s.elapse dt).byteTime port ((s.pt port).cfg.maxFrame + 20) ∧ r.start < (s.elapse dt).startAt port + (s.elapse dt).byteTime port (List.length b + 20)) ∧
  (∃ (s : State) (dt : Nat) (port : Nat),
    (s.elapse dt).Settled ∧ s.slu.events = [] ∧ (s.pt port).tx = []) ∧
  (∃ (s : State) (dt : Nat) (port : Nat) (f : TxFrame) (rest : List TxFrame),
    (s.elapse dt).Settled ∧ s.slu.events = [] ∧ (s.pt port).tx = f :: rest ∧ f.ptp = none ∧ f.frame.port < 32 ∧ f.frame.desc = none) ∧
  (∃ (s : State) (dt : Nat) (port : Nat) (f : TxFrame) (rest : List TxFrame) (k : Nat) (first : Nat),
    (s.elapse dt).Settled ∧ s.slu.events = [] ∧ (s.pt port).tx = f :: rest ∧ f.ptp = none ∧ 32 ≤ f.frame.port ∧ (f.frame.wantMark = true ∨ f.frame.notarise = true) ∧ f.frame.desc = some (k, first)) ∧
  (∃ (s : State) (dt : Nat),
    (s.elapse dt).Settled ∧ s.slu.events = [] ∧ s.glb.mode = Mode.lockdown) ∧
  (∃ (s : State) (dt : Nat),
    (s.elapse dt).Settled ∧ s.slu.events = [] ∧ s.dma.waits = [] ∧ ((s.elapse dt).syncSched hostSched).pickDom hostSched 65536 = none) ∧
  (∃ (s : State) (dt : Nat) (c : Nat) (w : RxWait),
    (s.elapse dt).Settled ∧ s.slu.events = [] ∧ s.glb.mode ≠ Mode.lockdown ∧ s.dma.waits = [(c, w)] ∧ (s.elapse dt).hasBuffer w.ring = true ∧ (s.elapse dt).mute (fnOfKey w.ring) = false) ∧
  (∃ (s : State) (dt : Nat) (qn : Nat) (d : Nat) (s1 : State) (f : Frame) (rest : List Frame),
    (s.elapse dt).Settled ∧ s.slu.events = [] ∧ s.dma.waits = [] ∧ s.glb.mode ≠ Mode.lockdown ∧ ((s.elapse dt).syncSched hostSched).pickDom hostSched 65536 = some (qn, d, s1) ∧ (s1.queue qn).frames = f :: rest ∧ f.bad = true) ∧
  (∃ (s : State) (dt : Nat) (qn : Nat) (d : Nat) (s1 : State) (f : Frame) (rest : List Frame),
    (s.elapse dt).Settled ∧ s.slu.events = [] ∧ s.dma.waits = [] ∧ s.glb.mode ≠ Mode.lockdown ∧ ((s.elapse dt).syncSched hostSched).pickDom hostSched 65536 = some (qn, d, s1) ∧ (s1.queue qn).frames = f :: rest ∧ f.bad = false ∧ (s1.queue qn).cfg.ring = 1023) ∧
  (∃ (s : State) (dt : Nat) (qn : Nat) (d : Nat) (s1 : State) (f : Frame) (rest : List Frame) (c : Nat) (ds : Desc),
    (s.elapse dt).Settled ∧ s.slu.events = [] ∧ s.dma.waits = [] ∧ s.glb.mode ≠ Mode.lockdown ∧ ((s.elapse dt).syncSched hostSched).pickDom hostSched 65536 = some (qn, d, s1) ∧ (s1.queue qn).frames = f :: rest ∧ f.bad = false ∧ (s1.queue qn).cfg.ring ≠ 1023 ∧ (s1.queue qn).sa = none ∧ tget? (if f.heldIn = true then (s1.sendHead hostSched d qn).unhold f else s1.sendHead hostSched d qn).dma.queueChan qn = some c ∧ (if f.heldIn = true then (s1.sendHead hostSched d qn).unhold f else s1.sendHead hostSched d qn).sumpStops (rkey (s1.queue qn).cfg.fn (s1.queue qn).cfg.ring) = false ∧ (List.find? (fun z => !z.ended) ((if f.heldIn = true then (s1.sendHead hostSched d qn).unhold f else s1.sendHead hostSched d qn).ring (rkey (s1.queue qn).cfg.fn (s1.queue qn).cfg.ring)).fetched = some ds) ∧ (if f.heldIn = true then (s1.sendHead hostSched d qn).unhold f else s1.sendHead hostSched d qn).mute (fnOfKey (rkey (s1.queue qn).cfg.fn (s1.queue qn).cfg.ring)) = false ∧ (if f.heldIn = true then (s1.sendHead hostSched d qn).unhold f else s1.sendHead hostSched d qn).waits (fnOfKey (rkey (s1.queue qn).cfg.fn (s1.queue qn).cfg.ring)) = false ∧ List.length f.block + List.length f.data ≤ ds.len ∧ f.heldIn = false) ∧
  (∃ (s : State) (dt : Nat) (tag : Nat),
    (s.elapse dt).Settled ∧ s.slu.events = [] ∧ (List.find? (fun r => r.tag == tag && r.what == 2) s.pcie.reads = none)) ∧
  (∃ (s : State) (dt : Nat) (tag : Nat) (data : Bytes) (r : HRead),
    (s.elapse dt).Settled ∧ s.slu.events = [] ∧ (List.find? (fun r => r.tag == tag && r.what == 2) s.pcie.reads = some r) ∧ List.length r.got + List.length data < r.len) ∧
  (∃ (s : State) (dt : Nat) (tag : Nat) (data : Bytes) (r : HRead),
    (s.elapse dt).Settled ∧ s.slu.events = [] ∧ (List.find? (fun r => r.tag == tag && r.what == 2) s.pcie.reads = some r) ∧ r.len ≤ List.length r.got + List.length data ∧ r.dead = true ∧ s.pcie.held = []) ∧
  (∃ (s : State) (dt : Nat) (tag : Nat) (data : Bytes) (r : HRead) (j : TxJob),
    (s.elapse dt).Settled ∧ s.slu.events = [] ∧ (List.find? (fun r => r.tag == tag && r.what == 2) s.pcie.reads = some r) ∧ r.len ≤ List.length r.got + List.length data ∧ r.dead = false ∧ s.pcie.held = [] ∧ (s.ring r.ring).jobs = [j] ∧ j.first = r.sub ∧ j.data = [] ∧ j.admitted = false ∧ (s.ring r.ring).chan = none ∧ j.count = 2) ∧
  (∃ (s : State) (dt : Nat) (tag : Nat) (data : Bytes) (r : HRead) (j : TxJob) (ds : Desc),
    (s.elapse dt).Settled ∧ s.slu.events = [] ∧ (List.find? (fun r => r.tag == tag && r.what == 2) s.pcie.reads = some r) ∧ r.len ≤ List.length r.got + List.length data ∧ r.dead = false ∧ s.pcie.held = [] ∧ (s.ring r.ring).jobs = [j] ∧ j.first = r.sub ∧ j.data = [] ∧ j.admitted = false ∧ (s.ring r.ring).chan = none ∧ j.count = 1 ∧ j.release = false ∧ (s.ring r.ring).fetched = [ds] ∧ ds.idx = j.first ∧ (s.queue ds.queue).sa = none ∧ (s.elapse dt).queueDead ds.queue = false ∧ (s.queue ds.queue).depth + cells (List.take r.len (r.got ++ data)).length ≤ (s.queue ds.queue).cfg.limG ∧ s.cellsUsed (((s.elapse dt).queueDom ds.queue).getD ((s.elapse dt).fnDom (fnOfKey r.ring))) + cells (List.take r.len (r.got ++ data)).length ≤ s.shareKib (((s.elapse dt).queueDom ds.queue).getD ((s.elapse dt).fnDom (fnOfKey r.ring))) * 4 ∧ (s.elapse dt).sumpStops r.ring = false) :=
  ⟨⟨(port0 { state := .held }), 3, 0,
      settled_of (by decide +kernel), by decide +kernel⟩,
    ⟨{ txq with tm.queues := [(9, { cfg := { kind := 1, port := 0 }, frames := [{ data := zeros 60, dom := 0, bad := true }] })] }, 3, 0, 9, 0, (picks ({ txq with tm.queues := [(9, { cfg := { kind := 1, port := 0 }, frames := [{ data := zeros 60, dom := 0, bad := true }] })] }.elapse 3) 0), { data := zeros 60, dom := 0, bad := true }, [],
      settled_of (by decide +kernel), by decide +kernel⟩,
    ⟨{ txq with ports.ports := [(0, { state := .up, mode := 1, cfg := { maxFrame := 60 } })] }, 3, 0, 9, 0, (picks ({ txq with ports.ports := [(0, { state := .up, mode := 1, cfg := { maxFrame := 60 } })] }.elapse 3) 0), { data := zeros 60, dom := 0 }, [],
      settled_of (by decide +kernel), by decide +kernel⟩,
    ⟨txq, 3, 0, 9, 0, (picks (txq.elapse 3) 0), { data := zeros 60, dom := 0 }, [], (zeros 60 ++ le (fcs (zeros 60)) 4), (((picks (txq.elapse 3) 0).sendHead 0 0 9).macFrame 0 (zeros 60) none).2,
      settled_of (by decide +kernel), by decide +kernel⟩,
    ⟨txqHeld, 3, 0, 9, 0, (picks (txqHeld.elapse 3) 0), { data := zeros 60, dom := 0 }, [], (zeros 60 ++ le (fcs (zeros 60)) 4), (((picks (txqHeld.elapse 3) 0).sendHead 0 0 9).macFrame 0 (zeros 60) none).2,
      settled_of (by decide +kernel), by decide +kernel⟩,
    ⟨txqHeld, 3, 0, 9, 0, (picks (txqHeld.elapse 3) 0), { data := zeros 60, dom := 0 }, [], (zeros 60 ++ le (fcs (zeros 60)) 4), (((picks (txqHeld.elapse 3) 0).sendHead 0 0 9).macFrame 0 (zeros 60) none).2, held0,
      settled_of (by decide +kernel), by decide +kernel⟩,
    ⟨(port0 { state := .up }), 3, 0,
      settled_of (by decide +kernel), by decide +kernel⟩,
    ⟨(rxOn { state := .up, mode := 1, tx := [{ data := eth 0x0800, frame := { port := 2 } }, { data := eth 0x0801, frame := { port := 2 } }] }), (ns 9), 0, { data := eth 0x0800, frame := { port := 2 } }, [{ data := eth 0x0801, frame := { port := 2 } }],
      settled_of (by decide +kernel), by decide +kernel⟩,
    ⟨{ rxOn { state := .up, mode := 1, tx := [{ data := eth 0x0800, frame := { port := 32, wantMark := true, desc := some (rkey 0 4, 5) } }] } with rings.rings := [(rkey 0 4, { enable := true, jobs := [{ first := 5, count := 1, admitted := true }], fetched := [{ idx := 5, queue := 9, flags := 2 }] })] }, (ns 9), 0, { data := eth 0x0800, frame := { port := 32, wantMark := true, desc := some (rkey 0 4, 5) } }, [], (rkey 0 4), 5,
      settled_of (by decide +kernel), by decide +kernel⟩,
    ⟨{ hostq with glb.mode := .lockdown }, 3,
      settled_of (by decide +kernel), by decide +kernel⟩,
    ⟨(port0 { state := .up }), 3,
      settled_of (by decide +kernel), by decide +kernel⟩,
    ⟨{ hostr with dma.waits := [(1, { ring := rkey 0 3, queue := 9, frame := {}, data := zeros 9, first := false })] }, 3, 1, { ring := rkey 0 3, queue := 9, frame := {}, data := zeros 9, first := false },
      settled_of (by decide +kernel), by decide +kernel⟩,
    ⟨{ hostq with tm.queues := [(9, { cfg := { kind := 2, ring := 0x3FF }, frames := [{ data := zeros 60, dom := 0, bad := true }] })] }, 3, 9, 0, (picks (({ hostq with tm.queues := [(9, { cfg := { kind := 2, ring := 0x3FF }, frames := [{ data := zeros 60, dom := 0, bad := true }] })] }.elapse 3).syncSched hostSched) hostSched), { data := zeros 60, dom := 0, bad := true }, [],
      settled_of (by decide +kernel), by decide +kernel⟩,
    ⟨hostq, 3, 9, 0, (picks ((hostq.elapse 3).syncSched hostSched) hostSched), { data := zeros 60, dom := 0 }, [],
      settled_of (by decide +kernel), by decide +kernel⟩,
    ⟨hostr, 3, 9, 0, (picks ((hostr.elapse 3).syncSched hostSched) hostSched), { data := zeros 60, dom := 0 }, [], 1, { idx := 0, addr := 4096, len := 76 },
      settled_of (by decide +kernel), by decide +kernel⟩,
    ⟨(port0 { state := .up }), 3, 7,
      settled_of (by decide +kernel), by decide +kernel⟩,
    ⟨txr, 3, 7, (zeros 10), { tag := 7, fn := 0, what := 2, ring := rkey 0 4, sub := 5, addr := 0, len := 20, got := zeros 9 },
      settled_of (by decide +kernel), by decide +kernel⟩,
    ⟨{ txr with pcie.reads := [{ tag := 7, fn := 0, what := 2, ring := rkey 0 4, sub := 5, addr := 0, len := 20, got := zeros 9, dead := true }] }, 3, 7, (zeros 11), { tag := 7, fn := 0, what := 2, ring := rkey 0 4, sub := 5, addr := 0, len := 20, got := zeros 9, dead := true },
      settled_of (by decide +kernel), by decide +kernel⟩,
    ⟨txr, 3, 7, (zeros 11), { tag := 7, fn := 0, what := 2, ring := rkey 0 4, sub := 5, addr := 0, len := 20, got := zeros 9 }, { first := 5, count := 2 },
      settled_of (by decide +kernel), by decide +kernel⟩,
    ⟨txr1, 3, 7, (zeros 11), { tag := 7, fn := 0, what := 2, ring := rkey 0 4, sub := 5, addr := 0, len := 20, got := zeros 9 }, { first := 5, count := 1 }, { idx := 5, queue := 9, flags := 2 },
      settled_of (by decide +kernel), by decide +kernel⟩⟩

/-- The premises of `Obligations.SluiceReleases`, clause by clause, are met. -/
theorem witness_SluiceReleases :
  (∃ (s : State) (dt : Nat) (port : Nat),
    (s.elapse dt).Settled ∧ s.slu.events = [] ∧ (s.glb.mode = Mode.lockdown ∨ (s.elapse dt).dueReplica port = none)) ∧
  (∃ (s : State) (dt : Nat) (port : Nat) (r : Replica),
    (s.elapse dt).Settled ∧ s.slu.events = [] ∧ s.glb.mode ≠ Mode.lockdown ∧ (s.elapse dt).dueReplica port = some r ∧ (s.elapse dt).portUp port = false) ∧
  (∃ (s : State) (dt : Nat) (port : Nat) (r : Replica),
    (s.elapse dt).Settled ∧ s.slu.events = [] ∧ s.glb.mode ≠ Mode.lockdown ∧ (s.elapse dt).dueReplica port = some r ∧ (s.elapse dt).portUp port = true ∧ r.late = true ∧ r.lateSend = false) ∧
  (∃ (s : State) (dt : Nat) (port : Nat) (r : Replica),
    (s.elapse dt).Settled ∧ s.slu.events = [] ∧ s.glb.mode ≠ Mode.lockdown ∧ (s.elapse dt).dueReplica port = some r ∧ (s.elapse dt).portUp port = true ∧ r.late = true ∧ r.lateSend = true) ∧
  (∃ (s : State) (dt : Nat) (port : Nat) (r : Replica),
    (s.elapse dt).Settled ∧ s.slu.events = [] ∧ s.glb.mode ≠ Mode.lockdown ∧ (s.elapse dt).dueReplica port = some r ∧ (s.elapse dt).portUp port = true ∧ r.late = false ∧ ((s.elapse dt).lineFree port && !(s.elapse dt).pausedOn port (s.queue r.queue).cfg.tc) = false ∧ r.lateSend = false) ∧
  (∃ (s : State) (dt : Nat) (port : Nat) (r : Replica),
    (s.elapse dt).Settled ∧ s.slu.events = [] ∧ s.glb.mode ≠ Mode.lockdown ∧ (s.elapse dt).dueReplica port = some r ∧ (s.elapse dt).portUp port = true ∧ r.late = false ∧ ((s.elapse dt).lineFree port && !(s.elapse dt).pausedOn port (s.queue r.queue).cfg.tc) = false ∧ r.lateSend = true) ∧
  (∃ (s : State) (dt : Nat) (port : Nat) (r : Replica),
    (s.elapse dt).Settled ∧ s.slu.events = [] ∧ s.glb.mode ≠ Mode.lockdown ∧ (s.elapse dt).dueReplica port = some r ∧ (s.elapse dt).portUp port = true ∧ r.late = false ∧ ((s.elapse dt).lineFree port && !(s.elapse dt).pausedOn port (s.queue r.queue).cfg.tc) = true ∧ r.shifted = true) ∧
  (∃ (s : State) (dt : Nat) (port : Nat) (r : Replica),
    (s.elapse dt).Settled ∧ s.slu.events = [] ∧ s.glb.mode ≠ Mode.lockdown ∧ (s.elapse dt).dueReplica port = some r ∧ (s.elapse dt).portUp port = true ∧ r.late = false ∧ r.shifted = false ∧ (s.elapse dt).lineFree port = true ∧ (s.elapse dt).pausedOn port (s.queue r.queue).cfg.tc = false) ∧
  (∃ (s : State) (dt : Nat) (port : Nat),
    (s.elapse dt).Settled ∧ ((s.sluPort port).left = 0 ∨ (s.elapse dt).elapsed < (s.sluPort port).stepAt ∨ startsPer32 (s.pt port).mode = 0)) ∧
  (∃ (s : State) (dt : Nat) (port : Nat),
    (s.elapse dt).Settled ∧ 1 < (s.sluPort port).left ∧ (s.sluPort port).stepAt ≤ (s.elapse dt).elapsed ∧ startsPer32 (s.pt port).mode ≠ 0) ∧
  (∃ (s : State) (dt : Nat) (port : Nat),
    (s.elapse dt).Settled ∧ (s.sluPort port).left = 1 ∧ (s.sluPort port).stepAt ≤ (s.elapse dt).elapsed ∧ startsPer32 (s.pt port).mode ≠ 0) ∧
  (∃ (s : State) (dt : Nat) (p : Path) (x : Session) (q : TReq) (port : Nat) (w : Nat) (f : Nat),
    Issued (s.elapse dt) p x q 1568 3 (dataPerm port) ∧ (23 < port ∨ 2 ^ 20 ≤ w ∨ 65536 ≤ f)) ∧
  (∃ (s : State) (dt : Nat) (p : Path) (x : Session) (q : TReq) (port : Nat) (w : Nat) (f : Nat),
    Issued (s.elapse dt) p x q 1568 3 (dataPerm port) ∧ port ≤ 23 ∧ s.portCount ≤ port ∧ w < 2 ^ 20 ∧ f < 65536) ∧
  (∃ (s : State) (dt : Nat) (p : Path) (x : Session) (q : TReq) (port : Nat) (w : Nat) (f : Nat),
    Issued (s.elapse dt) p x q 1568 3 (dataPerm port) ∧ port ≤ 23 ∧ port < s.portCount ∧ w < 2 ^ 20 ∧ f < 65536) ∧
  (∃ (s : State) (dt : Nat),
    (s.elapse dt).Settled ∧ s.slu.pend = []) ∧
  (∃ (s : State) (dt : Nat) (p : Path) (x : Session) (q : TReq) (port : Nat) (c : Nat) (rest : List (Path × Nat × Nat)),
    (s.elapse dt).Settled ∧ s.slu.pend = (p, port, c) :: rest ∧ Awaits (s.elapse dt) p x q 1568 ∧ ((s.pt port).calState ≠ 2 ∨ startsPer32 (s.pt port).mode = 0)) ∧
  (∃ (s : State) (dt : Nat) (p : Path) (x : Session) (q : TReq) (port : Nat) (c : Nat) (rest : List (Path × Nat × Nat)),
    (s.elapse dt).Settled ∧ s.slu.pend = (p, port, c) :: rest ∧ Awaits (s.elapse dt) p x q 1568 ∧ (s.pt port).calState = 2 ∧ startsPer32 (s.pt port).mode ≠ 0 ∧ (({ s.sluPort port with comp := c, goal := phaseFor (startsPer32 (s.pt port).mode) c } : SluPort).goal * startsPer32 (s.pt port).mode + 2048 * startsPer32 (s.pt port).mode - ({ s.sluPort port with comp := c, goal := phaseFor (startsPer32 (s.pt port).mode) c } : SluPort).phase * startsPer32 (s.pt port).mode) % 2048 = 0) ∧
  (∃ (s : State) (dt : Nat) (p : Path) (x : Session) (q : TReq) (port : Nat) (c : Nat) (rest : List (Path × Nat × Nat)),
    (s.elapse dt).Settled ∧ s.slu.pend = (p, port, c) :: rest ∧ Awaits (s.elapse dt) p x q 1568 ∧ (s.pt port).calState = 2 ∧ startsPer32 (s.pt port).mode ≠ 0 ∧ (({ s.sluPort port with comp := c, goal := phaseFor (startsPer32 (s.pt port).mode) c } : SluPort).goal * startsPer32 (s.pt port).mode + 2048 * startsPer32 (s.pt port).mode - ({ s.sluPort port with comp := c, goal := phaseFor (startsPer32 (s.pt port).mode) c } : SluPort).phase * startsPer32 (s.pt port).mode) % 2048 ≠ 0) ∧
  (∃ (s : State) (dt : Nat) (p : Path) (x : Session) (q : TReq) (port : Nat),
    Issued (s.elapse dt) p x q 1569 1 (dataPerm port) ∧ 23 < port) ∧
  (∃ (s : State) (dt : Nat) (p : Path) (x : Session) (q : TReq) (port : Nat),
    Issued (s.elapse dt) p x q 1569 1 (dataPerm port) ∧ port ≤ 23 ∧ s.portCount ≤ port) ∧
  (∃ (s : State) (dt : Nat) (p : Path) (x : Session) (q : TReq) (port : Nat),
    Issued (s.elapse dt) p x q 1569 1 (dataPerm port) ∧ port ≤ 23 ∧ port < s.portCount ∧ s.slu.events = []) ∧
  (∃ (s : State) (dt : Nat) (p : Path) (x : Session) (q : TReq) (ls : List Nat),
    Issued (s.elapse dt) p x q 1570 16 Perm.any ∧ (16384 < ls.sum ∨ ((List.range 16).any fun d => decide (nth ls d < (List.filter (fun r => r.dom == d) s.slu.store).length)) = true)) ∧
  (∃ (s : State) (dt : Nat) (p : Path) (x : Session) (q : TReq) (ls : List Nat),
    Issued (s.elapse dt) p x q 1570 16 Perm.any ∧ (¬(16384 < ls.sum ∨ ((List.range 16).any fun d => decide (nth ls d < (List.filter (fun r => r.dom == d) s.slu.store).length)) = true))) :=
  ⟨⟨(port0 { state := .up, mode := 1 }), 3, 0,
      settled_of (by decide +kernel), by decide +kernel⟩,
    ⟨(slq .held { }), 9, 0, rep0,
      settled_of (by decide +kernel), by decide +kernel⟩,
    ⟨{ slq .up { } with slu.store := [{ rep0 with late := true }] }, 9, 0, { rep0 with late := true },
      settled_of (by decide +kernel), by decide +kernel⟩,
    ⟨{ slq .up { } with slu.store := [{ rep0 with late := true, lateSend := true }] }, 9, 0, { rep0 with late := true, lateSend := true },
      settled_of (by decide +kernel), by decide +kernel⟩,
    ⟨(slq .up { busyTo := 10 }), 9, 0, rep0,
      settled_of (by decide +kernel), by decide +kernel⟩,
    ⟨{ slq .up { busyTo := 10 } with slu.store := [{ rep0 with lateSend := true }] }, 9, 0, { rep0 with lateSend := true },
      settled_of (by decide +kernel), by decide +kernel⟩,
    ⟨{ slq .up { } with slu.store := [{ rep0 with shifted := true }] }, 9, 0, { rep0 with shifted := true },
      settled_of (by decide +kernel), by decide +kernel⟩,
    ⟨(slq .up { }), 9, 0, rep0,
      settled_of (by decide +kernel), by decide +kernel⟩,
    ⟨(slq .up { }), 9, 0,
      settled_of (by decide +kernel), by decide +kernel⟩,
    ⟨{ slq .up { mode := 1, linkTx := 0 } with slu.ports := [(0, { left := 2, up := false, phase := 0, stepAt := 9 })] }, 9, 0,
      settled_of (by decide +kernel), by decide +kernel⟩,
    ⟨{ slq .up { mode := 1, linkTx := 0 } with slu.ports := [(0, { left := 1, up := false, phase := 5, goal := 4, stepAt := 9 })] }, 9, 0,
      settled_of (by decide +kernel), by decide +kernel⟩,
    ⟨(ask (slq .up { mode := 1 }) 0x0620 3), 3, (.mp 1), (sess 0x0620 3), (req 0x0620 3), 0, (2^20), 0,
      issued_of (by decide +kernel), by decide +kernel⟩,
    ⟨(ask (bDev .service) 0x0620 3), 3, (.mp 1), (sess 0x0620 3), (req 0x0620 3), 23, (2^20-1), 65535,
      issued_of (by decide +kernel), by decide +kernel⟩,
    ⟨(ask (slq .up { mode := 1 }) 0x0620 3), 3, (.mp 1), (sess 0x0620 3), (req 0x0620 3), 0, (2^20-1), 65535,
      issued_of (by decide +kernel), by decide +kernel⟩,
    ⟨(slq .up { mode := 1 }), 9,
      settled_of (by decide +kernel), by decide +kernel⟩,
    ⟨(wait { slq .up { mode := 1 } with slu.pend := [(.mp 1, 0, 70000)] } 0x0620 3), 3, (.mp 1), (busy 0x0620 3), (req 0x0620 3), 0, 70000, [],
      settled_of (by decide +kernel), by decide +kernel, awaits_of (by decide +kernel), by decide +kernel⟩,
    ⟨(wait { slq .up { mode := 1, calState := 2 } with slu.pend := [(.mp 1, 0, 0), (.mp 2, 1, 7)] } 0x0620 3), 3, (.mp 1), (busy 0x0620 3), (req 0x0620 3), 0, 0, [(.mp 2, 1, 7)],
      settled_of (by decide +kernel), by decide +kernel, awaits_of (by decide +kernel), by decide +kernel⟩,
    ⟨(wait { slq .up { mode := 1, calState := 2 } with slu.pend := [(.mp 1, 0, 70000)] } 0x0620 3), 3, (.mp 1), (busy 0x0620 3), (req 0x0620 3), 0, 70000, [],
      settled_of (by decide +kernel), by decide +kernel, awaits_of (by decide +kernel), by decide +kernel⟩,
    ⟨(ask (slq .disabled { mode := 0 }) 0x0621 1), 3, (.mp 1), (sess 0x0621 1), (req 0x0621 1), 24,
      issued_of (by decide +kernel), by decide +kernel⟩,
    ⟨(ask (bDev .service) 0x0621 1), 3, (.mp 1), (sess 0x0621 1), (req 0x0621 1), 16,
      issued_of (by decide +kernel), by decide +kernel⟩,
    ⟨(ask (slq .disabled { mode := 0 }) 0x0621 1), 3, (.mp 1), (sess 0x0621 1), (req 0x0621 1), 0,
      issued_of (by decide +kernel), by decide +kernel⟩,
    ⟨(ask (slq .disabled { mode := 0 }) 0x0622 16), 3, (.mp 1), (sess 0x0622 16), (req 0x0622 16), (List.replicate 16 0),
      issued_of (by decide +kernel), by decide +kernel⟩,
    ⟨(ask (slq .disabled { mode := 0 }) 0x0622 16), 3, (.mp 1), (sess 0x0622 16), (req 0x0622 16), (List.replicate 16 1024),
      issued_of (by decide +kernel), by decide +kernel⟩⟩

set_option Elab.async false
set_option maxRecDepth 4000
/-- The premises of `Obligations.InstructionsAndTraps`, clause by clause, are met. -/
theorem witness_InstructionsAndTraps :
  (∃ (s : State) (dt : Nat) (c : Nat) (h : Nat) (w : Nat) (x : Thread) (n : Nat) (a : Nat) (off : Int),
    Fetches (s.elapse dt) c h w x ∧ bits w 6 0 ≠ 91 ∧ n ∈ [1, 2, 4, 8] ∧ ((fun a n => a + n ≤ 2 ^ 18 ∧ a % n = 0 ∧ (x.priv = true ∨ x.udataBase ≤ a ∧ a + n ≤ x.udataLimit)) (plusOff (x.reg a) off) n)) ∧
  (∃ (s : State) (dt : Nat) (c : Nat) (h : Nat) (w : Nat) (x : Thread) (n : Nat) (a : Nat) (off : Int),
    Fetches (s.elapse dt) c h w x ∧ bits w 6 0 ≠ 91 ∧ n ∈ [1, 2, 4, 8] ∧ ((fun a n => 2 ^ 32 ≤ a ∧ a + n ≤ 2 ^ 33 ∧ a % n = 0 ∧ (s.elapse dt).cisternOk ((s.elapse dt).cdom c) (a - 2 ^ 32) n = true) (plusOff (x.reg a) off) n)) ∧
  (∃ (s : State) (dt : Nat) (c : Nat) (h : Nat) (w : Nat) (x : Thread) (off : Int),
    Fetches (s.elapse dt) c h w x ∧ bits w 6 0 ≠ 91 ∧ plusOff x.pc off % 4 = 0) ∧
  (∃ (s : State) (dt : Nat) (c : Nat) (h : Nat) (w : Nat) (x : Thread) (a : Nat),
    Fetches (s.elapse dt) c h w x ∧ bits w 6 0 ≠ 91 ∧ x.reg a % 4 = 0) ∧
  (∃ (s : State) (dt : Nat) (c : Nat) (h : Nat) (w : Nat) (x : Thread) (a : Nat) (b : Nat) (n : Nat),
    Fetches (s.elapse dt) c h w x ∧ bits w 6 0 ≠ 91 ∧ ((fun a n => a + n ≤ 2 ^ 18 ∧ a % n = 0 ∧ (x.priv = true ∨ x.udataBase ≤ a ∧ a + n ≤ x.udataLimit)) (x.reg a) 8) ∧ ofLe (mreads s.ram (localAt c (x.reg a)) 8) = x.reg b) ∧
  (∃ (s : State) (dt : Nat) (c : Nat) (h : Nat) (w : Nat) (x : Thread) (a : Nat) (b : Nat) (n : Nat),
    Fetches (s.elapse dt) c h w x ∧ bits w 6 0 ≠ 91 ∧ ((fun a n => a + n ≤ 2 ^ 18 ∧ a % n = 0 ∧ (x.priv = true ∨ x.udataBase ≤ a ∧ a + n ≤ x.udataLimit)) (x.reg a) 8) ∧ ofLe (mreads s.ram (localAt c (x.reg a)) 8) ≠ x.reg b) ∧
  (∃ (s : State) (dt : Nat) (c : Nat) (h : Nat) (w : Nat) (x : Thread) (off : Int),
    Fetches (s.elapse dt) c h w x ∧ bits w 6 0 ≠ 91 ∧ c < 96 ∧ s.cores.chans = [] ∧ s.rm.flows = [] ∧ plusOff x.pc off % 4 ≠ 0) ∧
  (∃ (s : State) (dt : Nat) (c : Nat) (h : Nat) (w : Nat) (x : Thread) (a : Nat),
    Fetches (s.elapse dt) c h w x ∧ bits w 6 0 ≠ 91 ∧ c < 96 ∧ s.cores.chans = [] ∧ s.rm.flows = [] ∧ x.reg a % 4 ≠ 0) ∧
  (∃ (s : State) (dt : Nat) (c : Nat) (h : Nat) (w : Nat) (x : Thread) (n : Nat) (a : Nat) (off : Int),
    Fetches (s.elapse dt) c h w x ∧ bits w 6 0 ≠ 91 ∧ c < 96 ∧ s.cores.chans = [] ∧ s.rm.flows = [] ∧ n ∈ [2, 4, 8] ∧ x.priv = true ∧ plusOff (x.reg a) off % n ≠ 0) ∧
  (∃ (s : State) (dt : Nat) (c : Nat) (h : Nat) (w : Nat) (x : Thread) (n : Nat) (a : Nat) (off : Int),
    Fetches (s.elapse dt) c h w x ∧ bits w 6 0 ≠ 91 ∧ c < 96 ∧ s.cores.chans = [] ∧ s.rm.flows = [] ∧ n ∈ [1, 2, 4, 8] ∧ x.priv = true ∧ plusOff (x.reg a) off % n = 0 ∧ 2 ^ 18 ≤ plusOff (x.reg a) off ∧ plusOff (x.reg a) off < 2 ^ 32) ∧
  (∃ (s : State) (dt : Nat) (c : Nat) (h : Nat) (w : Nat) (x : Thread) (n : Nat) (a : Nat) (off : Int),
    Fetches (s.elapse dt) c h w x ∧ bits w 6 0 ≠ 91 ∧ x.priv = false ∧ n ∈ [1, 2, 4, 8] ∧ plusOff (x.reg a) off < 2 ^ 32 ∧ (plusOff (x.reg a) off < x.udataBase ∨ x.udataLimit < plusOff (x.reg a) off + n) ∧ x.tactive = false) ∧
  (∃ (s : State) (dt : Nat) (c : Nat) (h : Nat) (w : Nat) (x : Thread) (n : Nat) (a : Nat) (off : Int),
    Fetches (s.elapse dt) c h w x ∧ bits w 6 0 ≠ 91 ∧ x.priv = false ∧ n ∈ [1, 2, 4, 8] ∧ plusOff (x.reg a) off < 2 ^ 32 ∧ (plusOff (x.reg a) off < x.udataBase ∨ x.udataLimit < plusOff (x.reg a) off + n) ∧ x.tactive = true ∧ c < 96 ∧ s.cores.chans = [] ∧ s.rm.flows = []) ∧
  (∃ (s : State) (dt : Nat) (c : Nat) (h : Nat) (w : Nat) (x : Thread),
    (s.elapse dt).Plain ∧ (s.elapse dt).firmware = true ∧ ((s.elapse dt).core c).state = CState.running ∧ (s.elapse dt).thr c h = x ∧ x.loads = [] ∧ listedWord w = true ∧ bits w 6 0 = 91) ∧
  (∃ (s : State) (dt : Nat) (c : Nat) (h : Nat) (x : Thread),
    (s.elapse dt).Plain ∧ (s.elapse dt).firmware = true ∧ ((s.elapse dt).core c).state = CState.running ∧ (s.elapse dt).thr c h = x ∧ x.loads = [] ∧ x.state ≠ TState.ready) ∧
  (∃ (s : State) (dt : Nat) (c : Nat) (h : Nat) (x : Thread),
    (s.elapse dt).Plain ∧ (s.elapse dt).firmware = true ∧ ((s.elapse dt).core c).state = CState.running ∧ (s.elapse dt).thr c h = x ∧ x.loads = [] ∧ ((s.elapse dt).core c).issue = none ∧ ((s.elapse dt).core c).grant (((s.elapse dt).core c).slot % 32) ≠ some h) ∧
  (∃ (s : State) (dt : Nat) (c : Nat) (h : Nat) (w : Nat) (x : Thread),
    (s.elapse dt).Plain ∧ (s.elapse dt).firmware = true ∧ ((s.elapse dt).core c).state = CState.running ∧ (s.elapse dt).thr c h = x ∧ x.loads = [] ∧ bits w 6 0 ≠ 91 ∧ x.state = TState.ready ∧ (s.elapse dt).dbg.bps = [] ∧ ((s.elapse dt).core c).issue = none ∧ ((s.elapse dt).core c).grant (((s.elapse dt).core c).slot % 32) = some h ∧ x.priv = false ∧ x.tactive = false ∧ (x.pc < x.ucodeBase ∨ x.ucodeLimit < x.pc + 4)) ∧
  (∃ (s : State) (dt : Nat) (c : Nat) (h : Nat) (w : Nat) (x : Thread) (g : GInstr) (i : Issue) (op : Nat) (d : Nat) (a : Nat) (b : Nat),
    (s.elapse dt).Plain ∧ (s.elapse dt).firmware = true ∧ ((s.elapse dt).core c).state = CState.running ∧ (s.elapse dt).thr c h = x ∧ x.loads = [] ∧ g = GInstr.alu op d a b ∧ bits w 6 0 ≠ 91 ∧ x.state = TState.ready ∧ x.bad = [] ∧ (s.elapse dt).dbg.bps = [] ∧ x.priv = true ∧ x.pc + 4 ≤ 2 ^ 18 ∧ ofLe (mreads (s.elapse dt).ram (localAt c x.pc) 4) = w ∧ (s.elapse dt).mem.poison = [] ∧ (s.elapse dt).mem.bad = [] ∧ ((s.elapse dt).core c).issue = some i ∧ i.thr = h ∧ i.next = x.pc ∧ i.last = false ∧ (i.dst = 0 ∨ i.dst ≠ a ∧ i.dst ≠ b)) ∧
  (∃ (y : Core) (p : Nat),
    p < 32 ∧ y.urgent % 2 = 1 ∧ ((fun k => (tget y.threads k { }).state = TState.ready) (y.urgent / 2 % 8)) ∧ p % 4 = 0 ∧ ((fun k => (tget y.threads k { }).state = TState.ready) (p / 4))) ∧
  (∃ (y : Core) (p : Nat),
    p < 32 ∧ y.urgent % 2 = 1 ∧ ((fun k => (tget y.threads k { }).state = TState.ready) (y.urgent / 2 % 8)) ∧ (p % 4 ≠ 0 ∨ ¬(fun k => (tget y.threads k { }).state = TState.ready) (p / 4))) ∧
  (∃ (y : Core) (p : Nat) (i : Nat),
    p < 32 ∧ i < 8 ∧ (y.urgent % 2 = 0 ∨ ¬(fun k => (tget y.threads k { }).state = TState.ready) (y.urgent / 2 % 8)) ∧ ((fun k => (tget y.threads k { }).state = TState.ready) ((y.rr + 1 + i) % 8)) ∧ (∀ (j : Nat), j < i → ¬(fun k => (tget y.threads k { }).state = TState.ready) ((y.rr + 1 + j) % 8))) ∧
  (∃ (y : Core) (p : Nat) (el : Nat),
    p < 32 ∧ y.state = CState.running ∧ y.issue = none ∧ y.slot < y.cycle el ∧ (∀ (k : Nat), k < 8 → ¬(fun k => (tget y.threads k { }).state = TState.ready) k)) ∧
  (∃ (s : State) (dt : Nat) (c : Nat) (h : Nat) (w : Nat) (x : Thread),
    Fetches (s.elapse dt) c h w x ∧ wordD w 0 0 = true) ∧
  (∃ (s : State) (dt : Nat) (c : Nat) (h : Nat) (w : Nat) (x : Thread),
    Fetches (s.elapse dt) c h w x ∧ wordD w 0 1 = true) ∧
  (∃ (s : State) (dt : Nat) (c : Nat) (h : Nat) (w : Nat) (x : Thread),
    Fetches (s.elapse dt) c h w x ∧ wordD w 0 2 = true ∧ nsOf (s.elapse dt).now < x.reg (wRs1 w)) ∧
  (∃ (s : State) (dt : Nat) (c : Nat) (h : Nat) (w : Nat) (x : Thread),
    Fetches (s.elapse dt) c h w x ∧ wordD w 0 2 = true ∧ x.reg (wRs1 w) ≤ nsOf (s.elapse dt).now ∧ x.blocked = none) ∧
  (∃ (s : State) (dt : Nat) (c : Nat) (h : Nat) (w : Nat) (x : Thread),
    Fetches (s.elapse dt) c h w x ∧ wordD w 0 3 = true) ∧
  (∃ (s : State) (dt : Nat) (c : Nat) (h : Nat) (w : Nat) (x : Thread),
    Fetches (s.elapse dt) c h w x ∧ wordC w 1 = true ∧ wImm w ≤ 15 ∧ (x.priv = true ∨ wImm w ∈ [0, 1, 6, 7, 8, 13, 14])) ∧
  (∃ (s : State) (dt : Nat) (c : Nat) (h : Nat) (w : Nat) (x : Thread),
    Fetches (s.elapse dt) c h w x ∧ wordC w 1 = true ∧ wImm w ≤ 15 ∧ x.priv = false ∧ x.tactive = false ∧ ¬wImm w ∈ [0, 1, 6, 7, 8, 13, 14]) ∧
  (∃ (s : State) (dt : Nat) (c : Nat) (h : Nat) (w : Nat) (x : Thread),
    Fetches (s.elapse dt) c h w x ∧ wordC w 2 = true ∧ wImm w ∈ [0, 4, 5, 7, 13, 14] ∧ x.priv = true) ∧
  (∃ (s : State) (dt : Nat) (c : Nat) (h : Nat) (w : Nat) (x : Thread),
    Fetches (s.elapse dt) c h w x ∧ wordC w 2 = true ∧ x.priv = true ∧ wImm w = 1) ∧
  (∃ (s : State) (dt : Nat) (c : Nat) (h : Nat) (w : Nat) (x : Thread),
    Fetches (s.elapse dt) c h w x ∧ wordC w 2 = true ∧ x.priv = true ∧ wImm w = 2) ∧
  (∃ (s : State) (dt : Nat) (c : Nat) (h : Nat) (w : Nat) (x : Thread),
    Fetches (s.elapse dt) c h w x ∧ wordC w 2 = true ∧ x.priv = true ∧ wImm w = 3) ∧
  (∃ (s : State) (dt : Nat) (c : Nat) (h : Nat) (w : Nat) (x : Thread),
    Fetches (s.elapse dt) c h w x ∧ wordC w 2 = true ∧ x.priv = true ∧ wImm w = 9) ∧
  (∃ (s : State) (dt : Nat) (c : Nat) (h : Nat) (w : Nat) (x : Thread),
    Fetches (s.elapse dt) c h w x ∧ wordC w 2 = true ∧ x.priv = true ∧ wImm w = 10) ∧
  (∃ (s : State) (dt : Nat) (c : Nat) (h : Nat) (w : Nat) (x : Thread),
    Fetches (s.elapse dt) c h w x ∧ wordC w 2 = true ∧ x.priv = true ∧ wImm w = 11) ∧
  (∃ (s : State) (dt : Nat) (c : Nat) (h : Nat) (w : Nat) (x : Thread),
    Fetches (s.elapse dt) c h w x ∧ wordC w 2 = true ∧ x.priv = true ∧ wImm w = 12) ∧
  (∃ (s : State) (dt : Nat) (c : Nat) (h : Nat) (w : Nat) (x : Thread),
    Fetches (s.elapse dt) c h w x ∧ wordC w 2 = true ∧ x.priv = true ∧ wImm w = 15) ∧
  (∃ (s : State) (dt : Nat) (c : Nat) (h : Nat) (w : Nat) (x : Thread),
    Fetches (s.elapse dt) c h w x ∧ wordC w 2 = true ∧ x.priv = true ∧ wImm w = 8) ∧
  (∃ (s : State) (dt : Nat) (c : Nat) (h : Nat) (w : Nat) (x : Thread),
    Fetches (s.elapse dt) c h w x ∧ wordC w 2 = true ∧ wImm w = 6) ∧
  (∃ (s : State) (dt : Nat) (c : Nat) (h : Nat) (w : Nat) (x : Thread),
    Fetches (s.elapse dt) c h w x ∧ wordC w 2 = true ∧ wImm w ≤ 15 ∧ wImm w ≠ 6 ∧ x.priv = false ∧ x.tactive = false) ∧
  (∃ (s : State) (dt : Nat) (c : Nat) (h : Nat) (w : Nat) (x : Thread),
    Fetches (s.elapse dt) c h w x ∧ wordD w 3 2 = true ∧ x.priv = true ∧ x.tpc % 4 = 0) ∧
  (∃ (s : State) (dt : Nat) (c : Nat) (h : Nat) (w : Nat) (x : Thread),
    Fetches (s.elapse dt) c h w x ∧ x.priv = false ∧ x.tactive = false ∧ wordD w 3 2 = true) ∧
  (∃ (s : State) (dt : Nat) (c : Nat) (h : Nat) (w : Nat) (x : Thread),
    Fetches (s.elapse dt) c h w x ∧ x.priv = false ∧ x.tactive = false ∧ wordD w 3 0 = true) ∧
  (∃ (s : State) (dt : Nat) (c : Nat) (h : Nat) (w : Nat) (x : Thread),
    Fetches (s.elapse dt) c h w x ∧ wordC w 7 = true ∧ x.tactive = false) ∧
  (∃ (s : State) (dt : Nat) (c : Nat) (h : Nat) (w : Nat) (x : Thread),
    Fetches (s.elapse dt) c h w x ∧ c < 96 ∧ s.cores.chans = [] ∧ s.rm.flows = [] ∧ 15 < wImm w ∧ wordC w 1 = true) ∧
  (∃ (s : State) (dt : Nat) (c : Nat) (h : Nat) (w : Nat) (x : Thread),
    Fetches (s.elapse dt) c h w x ∧ c < 96 ∧ s.cores.chans = [] ∧ s.rm.flows = [] ∧ 15 < wImm w ∧ wordC w 2 = true) ∧
  (∃ (s : State) (dt : Nat) (c : Nat) (h : Nat) (w : Nat) (x : Thread),
    Fetches (s.elapse dt) c h w x ∧ c < 96 ∧ s.cores.chans = [] ∧ s.rm.flows = [] ∧ wordD w 3 2 = true ∧ x.priv = true ∧ x.tpc % 4 ≠ 0) ∧
  (∃ (s : State) (dt : Nat) (c : Nat) (h : Nat) (w : Nat) (x : Thread),
    Fetches (s.elapse dt) c h w x ∧ c < 96 ∧ s.cores.chans = [] ∧ s.rm.flows = [] ∧ x.tactive = true ∧ wordC w 7 = true) ∧
  (∃ (s : State) (dt : Nat) (c : Nat) (h : Nat) (w : Nat) (x : Thread),
    Fetches (s.elapse dt) c h w x ∧ c < 96 ∧ s.cores.chans = [] ∧ s.rm.flows = [] ∧ x.tactive = true ∧ wordD w 3 2 = true ∧ x.priv = false) ∧
  (∃ (s : State) (dt : Nat) (c : Nat) (h : Nat) (w : Nat) (x : Thread),
    Fetches (s.elapse dt) c h w x ∧ c < 96 ∧ s.cores.chans = [] ∧ s.rm.flows = [] ∧ x.tactive = true ∧ wordC w 1 = true ∧ wImm w ∈ [2, 3, 4, 5, 9, 10, 11, 12, 15] ∧ x.priv = false) ∧
  (∃ (s : State) (dt : Nat) (c : Nat) (h : Nat) (w : Nat) (x : Thread),
    Fetches (s.elapse dt) c h w x ∧ listedWord w = false ∧ bits w 6 0 = 91 ∧ c < 96 ∧ s.cores.chans = [] ∧ s.rm.flows = []) :=
  ⟨⟨(run1 {}), 3, 1, 2, 0, thr1, 8, 6, (2^18 - 8 - 256),
      fetches_of (by decide +kernel), by decide +kernel⟩,
    ⟨(paged1 { regs := [(6, 2 ^ 32)] }), 3, 1, 2, 0, { thr1 with regs := [(6, 2 ^ 32)] }, 8, 6, 8,
      fetches_of (by decide +kernel), by decide +kernel⟩,
    ⟨(run1 {}), 3, 1, 2, 0, thr1, (-16),
      fetches_of (by decide +kernel), by decide +kernel⟩,
    ⟨(run1 {}), 3, 1, 2, 0, thr1, 6,
      fetches_of (by decide +kernel), by decide +kernel⟩,
    ⟨(run1 { regs := [(5, 0), (6, 256), (7, 9)] }), 3, 1, 2, 0, { thr1 with regs := [(5, 0), (6, 256), (7, 9)] }, 6, 5, 7,
      fetches_of (by decide +kernel), by decide +kernel⟩,
    ⟨(run1 {}), 3, 1, 2, 0, thr1, 6, 5, 7,
      fetches_of (by decide +kernel), by decide +kernel⟩,
    ⟨(run1 {}), 3, 1, 2, 0, thr1, 2,
      fetches_of (by decide +kernel), by decide +kernel⟩,
    ⟨(run1 {}), 3, 1, 2, 0, thr1, 7,
      fetches_of (by decide +kernel), by decide +kernel⟩,
    ⟨(run1 {}), 3, 1, 2, 0, thr1, 8, 6, 4,
      fetches_of (by decide +kernel), by decide +kernel⟩,
    ⟨(run1 {}), 3, 1, 2, 0, thr1, 8, 6, (2^18 - 256),
      fetches_of (by decide +kernel), by decide +kernel⟩,
    ⟨(run1U {}), 3, 1, 2, 0, (thrU {}), 8, 6, 0,
      fetches_of (by decide +kernel), by decide +kernel⟩,
    ⟨(run1U { tactive := true }), 3, 1, 2, 0, (thrU { tactive := true }), 8, 6, 0,
      fetches_of (by decide +kernel), by decide +kernel⟩,
    ⟨(run1 {}), 3, 1, 2, (dW 0 0 0 0), thr1,
      plain_of (by decide +kernel), by decide +kernel⟩,
    ⟨(runs { state := .waiting, blocked := some (.wfe 1 5) }), 3, 1, 2, { state := .waiting, blocked := some (.wfe 1 5) },
      plain_of (by decide +kernel), by decide +kernel⟩,
    ⟨{ run1 {} with cores.cores := [(1, { state := .running, rr := 2, threads := [(2, thr1), (5, { state := .ready })] })] }, 0, 1, 2, thr1,
      plain_of (by decide +kernel), by decide +kernel⟩,
    ⟨(runs { thrU {} with ucodeLimit := 16 }), 3, 1, 2, 0, { thrU {} with ucodeLimit := 16 },
      plain_of (by decide +kernel), by decide +kernel⟩,
    ⟨{ run1 {} with cores.cores := [(1, { state := .running, threads := [(2, thr1)], issue := some { thr := 2, next := 16, dst := 8, mem := false, last := false } })] }, 0, 1, 2, 0, thr1, (.alu 4 5 6 7), { thr := 2, next := 16, dst := 8, mem := false, last := false }, 4, 5, 6, 7,
      plain_of (by decide +kernel), by decide +kernel⟩,
    ⟨{ urgent := 5, threads := [(2, { state := .ready }), (7, { state := .ready })] }, 28,
      by decide +kernel⟩,
    ⟨{ urgent := 5, threads := [(2, { state := .ready }), (7, { state := .ready })] }, 31,
      by decide +kernel⟩,
    ⟨{ urgent := 3, rr := 7, threads := [(2, { state := .ready }), (7, { state := .ready })] }, 31, 2,
      by decide +kernel⟩,
    ⟨{ state := .running, slot := 3 }, 31, (6 * 32768),
      by decide +kernel⟩,
    ⟨(word (dW 0 0 0 0) (run1 {})), (ns 256), 1, 2, (dW 0 0 0 0), (thrWith {}),
      fetches_of (by decide +kernel), by decide +kernel⟩,
    ⟨(word (dW 0 1 0 0) (run1 {})), (ns 256), 1, 2, (dW 0 1 0 0), (thrWith {}),
      fetches_of (by decide +kernel), by decide +kernel⟩,
    ⟨(word (dW 0 2 6 0) (run1 {})), 3, 1, 2, (dW 0 2 6 0), (thrWith {}),
      fetches_of (by decide +kernel), by decide +kernel⟩,
    ⟨(word (dW 0 2 6 0) (run1 {})), (ns 256), 1, 2, (dW 0 2 6 0), (thrWith {}),
      fetches_of (by decide +kernel), by decide +kernel⟩,
    ⟨(word (dW 0 3 0 0) (run1 {})), (ns 256), 1, 2, (dW 0 3 0 0), (thrWith {}),
      fetches_of (by decide +kernel), by decide +kernel⟩,
    ⟨(word (cW 1 15 0) (run1 {})), (ns 256), 1, 2, (cW 1 15 0), (thrWith {}),
      fetches_of (by decide +kernel), by decide +kernel⟩,
    ⟨(word (cW 1 2 0) (run1U {})), (ns 256), 1, 2, (cW 1 2 0), (thrU {}),
      fetches_of (by decide +kernel), by decide +kernel⟩,
    ⟨(word (cW 2 14 6) (run1 {})), (ns 256), 1, 2, (cW 2 14 6), (thrWith {}),
      fetches_of (by decide +kernel), by decide +kernel⟩,
    ⟨(word (cW 2 1 6) (run1 {})), (ns 256), 1, 2, (cW 2 1 6), (thrWith {}),
      fetches_of (by decide +kernel), by decide +kernel⟩,
    ⟨(word (cW 2 2 6) (run1 {})), (ns 256), 1, 2, (cW 2 2 6), (thrWith {}),
      fetches_of (by decide +kernel), by decide +kernel⟩,
    ⟨(word (cW 2 3 6) (run1 {})), (ns 256), 1, 2, (cW 2 3 6), (thrWith {}),
      fetches_of (by decide +kernel), by decide +kernel⟩,
    ⟨(word (cW 2 9 6) (run1 {})), (ns 256), 1, 2, (cW 2 9 6), (thrWith {}),
      fetches_of (by decide +kernel), by decide +kernel⟩,
    ⟨(word (cW 2 10 6) (run1 {})), (ns 256), 1, 2, (cW 2 10 6), (thrWith {}),
      fetches_of (by decide +kernel), by decide +kernel⟩,
    ⟨(word (cW 2 11 6) (run1 {})), (ns 256), 1, 2, (cW 2 11 6), (thrWith {}),
      fetches_of (by decide +kernel), by decide +kernel⟩,
    ⟨(word (cW 2 12 6) (run1 {})), (ns 256), 1, 2, (cW 2 12 6), (thrWith {}),
      fetches_of (by decide +kernel), by decide +kernel⟩,
    ⟨(word (cW 2 15 6) (run1 {})), (ns 256), 1, 2, (cW 2 15 6), (thrWith {}),
      fetches_of (by decide +kernel), by decide +kernel⟩,
    ⟨(word (cW 2 8 6) (run1 {})), (ns 256), 1, 2, (cW 2 8 6), (thrWith {}),
      fetches_of (by decide +kernel), by decide +kernel⟩,
    ⟨(word (cW 2 6 6) (run1U {})), (ns 256), 1, 2, (cW 2 6 6), (thrU {}),
      fetches_of (by decide +kernel), by decide +kernel⟩,
    ⟨(word (cW 2 15 6) (run1U {})), (ns 256), 1, 2, (cW 2 15 6), (thrU {}),
      fetches_of (by decide +kernel), by decide +kernel⟩,
    ⟨(word (dW 3 2 0 0) (run1 { tpc := 8, tactive := true })), (ns 256), 1, 2, (dW 3 2 0 0), (thrWith { tpc := 8, tactive := true }),
      fetches_of (by decide +kernel), by decide +kernel⟩,
    ⟨(word (dW 3 2 0 0) (run1U {})), (ns 256), 1, 2, (dW 3 2 0 0), (thrU {}),
      fetches_of (by decide +kernel), by decide +kernel⟩,
    ⟨(word (dW 3 0 6 6) (run1U {})), (ns 256), 1, 2, (dW 3 0 6 6), (thrU {}),
      fetches_of (by decide +kernel), by decide +kernel⟩,
    ⟨(word (cW 7 4095 0) (run1U {})), (ns 256), 1, 2, (cW 7 4095 0), (thrU {}),
      fetches_of (by decide +kernel), by decide +kernel⟩,
    ⟨(word (cW 1 16 0) (run1 {})), (ns 256), 1, 2, (cW 1 16 0), (thrWith {}),
      fetches_of (by decide +kernel), by decide +kernel⟩,
    ⟨(word (cW 2 4095 0) (run1 {})), (ns 256), 1, 2, (cW 2 4095 0), (thrWith {}),
      fetches_of (by decide +kernel), by decide +kernel⟩,
    ⟨(word (dW 3 2 0 0) (run1 { tpc := 6 })), (ns 256), 1, 2, (dW 3 2 0 0), (thrWith { tpc := 6 }),
      fetches_of (by decide +kernel), by decide +kernel⟩,
    ⟨(word (cW 7 9 0) (run1 { tactive := true })), (ns 256), 1, 2, (cW 7 9 0), (thrWith { tactive := true }),
      fetches_of (by decide +kernel), by decide +kernel⟩,
    ⟨(word (dW 3 2 0 0) (run1U { tactive := true })), (ns 256), 1, 2, (dW 3 2 0 0), (thrU { tactive := true }),
      fetches_of (by decide +kernel), by decide +kernel⟩,
    ⟨(word (cW 1 2 0) (run1U { tactive := true })), (ns 256), 1, 2, (cW 1 2 0), (thrU { tactive := true }),
      fetches_of (by decide +kernel), by decide +kernel⟩,
    ⟨(word (dW 0 6 0 0) (run1 {})), (ns 256), 1, 2, (dW 0 6 0 0), (thrWith {}),
      fetches_of (by decide +kernel), by decide +kernel⟩⟩

/-- The premises of `Obligations.ThreadsAndRingPosts`, clause by clause, are met. -/
theorem witness_ThreadsAndRingPosts :
  (∃ (s : State) (dt : Nat) (c : Nat) (h : Nat) (w : Nat) (x : Thread),
    Fetches (s.elapse dt) c h w x ∧ wordD w 0 4 = true ∧ x.reg (wRs1 w) < 64 ∧ x.pend &&& x.reg (wRs1 w) ≠ 0) ∧
  (∃ (s : State) (dt : Nat) (c : Nat) (h : Nat) (w : Nat) (x : Thread),
    Fetches (s.elapse dt) c h w x ∧ wordD w 0 4 = true ∧ x.reg (wRs1 w) < 64 ∧ x.pend &&& x.reg (wRs1 w) = 0) ∧
  (∃ (s : State) (dt : Nat) (c : Nat) (h : Nat) (w : Nat) (x : Thread),
    Fetches (s.elapse dt) c h w x ∧ wordD w 0 4 = true ∧ (c < 96 ∧ s.cores.chans = [] ∧ s.rm.flows = []) ∧ 64 ≤ x.reg (wRs1 w)) ∧
  (∃ (s : State) (dt : Nat) (c : Nat) (h : Nat) (w : Nat) (x : Thread),
    Fetches (s.elapse dt) c h w x ∧ wordD w 0 5 = true ∧ x.reg (wRs1 w) % 8 ≠ h ∧ ((s.elapse dt).thr c (x.reg (wRs1 w) % 8)).live = false) ∧
  (∃ (s : State) (dt : Nat) (c : Nat) (h : Nat) (w : Nat) (x : Thread),
    Fetches (s.elapse dt) c h w x ∧ wordD w 0 5 = true ∧ x.reg (wRs1 w) % 8 ≠ h ∧ ((s.elapse dt).thr c (x.reg (wRs1 w) % 8)).live = true) ∧
  (∃ (s : State) (dt : Nat) (c : Nat) (h : Nat) (w : Nat) (x : Thread),
    Fetches (s.elapse dt) c h w x ∧ wordD w 0 5 = true ∧ x.reg (wRs1 w) % 8 = h ∧ x.blocked = none) ∧
  (∃ (s : State) (dt : Nat) (c : Nat) (h : Nat) (w : Nat) (x : Thread),
    Fetches (s.elapse dt) c h w x ∧ wordD w 3 0 = true ∧ x.priv = true ∧ x.reg (wRs1 w) % 8 ≠ h ∧ ((s.elapse dt).thr c (x.reg (wRs1 w) % 8)).live = true) ∧
  (∃ (s : State) (dt : Nat) (c : Nat) (h : Nat) (w : Nat) (x : Thread),
    Fetches (s.elapse dt) c h w x ∧ wordD w 3 0 = true ∧ x.priv = true ∧ x.reg (wRs1 w) % 8 ≠ h ∧ ((s.elapse dt).thr c (x.reg (wRs1 w) % 8)).live = false ∧ x.reg (wRs2 w) % 4 = 0) ∧
  (∃ (s : State) (dt : Nat) (c : Nat) (h : Nat) (w : Nat) (x : Thread),
    Fetches (s.elapse dt) c h w x ∧ wordD w 3 0 = true ∧ x.priv = true ∧ x.reg (wRs1 w) % 8 ≠ h ∧ ((s.elapse dt).thr c (x.reg (wRs1 w) % 8)).live = false ∧ x.reg (wRs2 w) % 4 ≠ 0 ∧ (c < 96 ∧ s.cores.chans = [] ∧ s.rm.flows = [])) ∧
  (∃ (s : State) (dt : Nat) (c : Nat) (h : Nat) (w : Nat) (x : Thread),
    Fetches (s.elapse dt) c h w x ∧ wordD w 3 1 = true ∧ x.slot = none ∧ s.cores.chans = [] ∧ s.rm.flows = [] ∧ ((List.any ((s.elapse dt).core c).threads fun y => y.fst != h && y.snd.live) = true)) ∧
  (∃ (s : State) (dt : Nat) (c : Nat) (h : Nat) (w : Nat) (x : Thread),
    Fetches (s.elapse dt) c h w x ∧ wordD w 3 1 = true ∧ x.slot = none ∧ s.cores.chans = [] ∧ s.rm.flows = [] ∧ ((s.elapse dt).core c).threads = [(h, x)]) ∧
  (∃ (s : State) (dt : Nat) (c : Nat) (h : Nat) (w : Nat) (x : Thread),
    Fetches (s.elapse dt) c h w x ∧ wordD w 3 3 = true ∧ x.stores = 0) ∧
  (∃ (s : State) (dt : Nat) (c : Nat) (h : Nat) (w : Nat) (x : Thread),
    Fetches (s.elapse dt) c h w x ∧ wordD w 3 3 = true ∧ 0 < x.stores) ∧
  (∃ (s : State) (dt : Nat) (c : Nat) (h : Nat) (w : Nat) (x : Thread),
    Fetches (s.elapse dt) c h w x ∧ wordD w 5 0 = true ∧ (c < 96 ∧ s.cores.chans = [] ∧ s.rm.flows = []) ∧ postRing (x.reg (wRs1 w)) = none) ∧
  (∃ (s : State) (dt : Nat) (c : Nat) (h : Nat) (w : Nat) (x : Thread) (k : Nat),
    Fetches (s.elapse dt) c h w x ∧ wordD w 5 0 = true ∧ postRing (x.reg (wRs1 w)) = some k ∧ (c < 96 ∧ s.cores.chans = [] ∧ s.rm.flows = []) ∧ (¬((s.elapse dt).fnExists (fnOfKey k) = true ∧ (s.elapse dt).fnDom (fnOfKey k) = (s.elapse dt).cdom c ∧ ((s.fn (fnOfKey k)).inReset = true ∨ ((s.elapse dt).ring k).enable = true ∧ ((s.elapse dt).ring k).kind = 1) ∧ x.reg (wRs2 w) % 32 = 0 ∧ x.reg (wRs2 w) + 32 ≤ 2 ^ 18))) ∧
  (∃ (s : State) (dt : Nat) (c : Nat) (h : Nat) (w : Nat) (x : Thread) (k : Nat),
    Fetches (s.elapse dt) c h w x ∧ wordD w 5 0 = true ∧ postRing (x.reg (wRs1 w)) = some k ∧ ((s.elapse dt).fnExists (fnOfKey k) = true ∧ (s.elapse dt).fnDom (fnOfKey k) = (s.elapse dt).cdom c ∧ ((s.fn (fnOfKey k)).inReset = true ∨ ((s.elapse dt).ring k).enable = true ∧ ((s.elapse dt).ring k).kind = 1) ∧ x.reg (wRs2 w) % 32 = 0 ∧ x.reg (wRs2 w) + 32 ≤ 2 ^ 18) ∧ (s.glb.mode = Mode.lockdown ∨ s.glb.mode = Mode.drain ∧ ((s.elapse dt).ring k).newWork ((s.elapse dt).isSend k) = true)) ∧
  (∃ (s : State) (dt : Nat) (c : Nat) (h : Nat) (w : Nat) (x : Thread) (k : Nat),
    Fetches (s.elapse dt) c h w x ∧ wordD w 5 0 = true ∧ postRing (x.reg (wRs1 w)) = some k ∧ ((s.elapse dt).fnExists (fnOfKey k) = true ∧ (s.elapse dt).fnDom (fnOfKey k) = (s.elapse dt).cdom c ∧ ((s.fn (fnOfKey k)).inReset = true ∨ ((s.elapse dt).ring k).enable = true ∧ ((s.elapse dt).ring k).kind = 1) ∧ x.reg (wRs2 w) % 32 = 0 ∧ x.reg (wRs2 w) + 32 ≤ 2 ^ 18) ∧ (¬(s.glb.mode = Mode.lockdown ∨ s.glb.mode = Mode.drain ∧ ((s.elapse dt).ring k).newWork ((s.elapse dt).isSend k) = true)) ∧ ((s.fn (fnOfKey k)).inReset = true ∨ (s.fn (fnOfKey k)).halted = true ∨ (s.pfn (fnOfKey k)).frozen = true ∨ ((s.elapse dt).ring k).enable = false ∨ ((s.elapse dt).ring k).entries ≤ (((s.elapse dt).ring k).pi + 2 ^ 32 - ((s.elapse dt).ring k).done) % 2 ^ 32)) ∧
  (∃ (s : State) (dt : Nat) (c : Nat) (h : Nat) (w : Nat) (x : Thread) (k : Nat),
    Fetches (s.elapse dt) c h w x ∧ wordD w 5 0 = true ∧ postRing (x.reg (wRs1 w)) = some k ∧ ((s.elapse dt).fnExists (fnOfKey k) = true ∧ (s.elapse dt).fnDom (fnOfKey k) = (s.elapse dt).cdom c ∧ ((s.fn (fnOfKey k)).inReset = true ∨ ((s.elapse dt).ring k).enable = true ∧ ((s.elapse dt).ring k).kind = 1) ∧ x.reg (wRs2 w) % 32 = 0 ∧ x.reg (wRs2 w) + 32 ≤ 2 ^ 18) ∧ (¬(s.glb.mode = Mode.lockdown ∨ s.glb.mode = Mode.drain ∧ ((s.elapse dt).ring k).newWork ((s.elapse dt).isSend k) = true)) ∧ (¬((s.fn (fnOfKey k)).inReset = true ∨ (s.fn (fnOfKey k)).halted = true ∨ (s.pfn (fnOfKey k)).frozen = true ∨ ((s.elapse dt).ring k).enable = false ∨ ((s.elapse dt).ring k).entries ≤ (((s.elapse dt).ring k).pi + 2 ^ 32 - ((s.elapse dt).ring k).done) % 2 ^ 32)) ∧ x.item = none) :=
  ⟨⟨(word (dW 0 4 7 0) (run1 { pend := 33 })), 3, 1, 2, (dW 0 4 7 0), (thrWith { pend := 33 }),
      fetches_of (by decide +kernel), by decide +kernel⟩,
    ⟨(word (dW 0 4 7 0) (run1 { pend := 32 })), 3, 1, 2, (dW 0 4 7 0), (thrWith { pend := 32 }),
      fetches_of (by decide +kernel), by decide +kernel⟩,
    ⟨(word (dW 0 4 6 0) (run1 { pend := 32 })), 3, 1, 2, (dW 0 4 6 0), (thrWith { pend := 32 }),
      fetches_of (by decide +kernel), by decide +kernel⟩,
    ⟨(word (dW 0 5 6 0) (run1 {})), 3, 1, 2, (dW 0 5 6 0), (thrWith {}),
      fetches_of (by decide +kernel), by decide +kernel⟩,
    ⟨(word (dW 0 5 6 0) (run2 {})), 3, 1, 2, (dW 0 5 6 0), thr1,
      fetches_of (by decide +kernel), by decide +kernel⟩,
    ⟨(word (dW 0 5 6 0) (run1 { regs := [(6, 2)] })), 3, 1, 2, (dW 0 5 6 0), (thrWith { regs := [(6, 2)] }),
      fetches_of (by decide +kernel), by decide +kernel⟩,
    ⟨(word (dW 3 0 6 6) (run2 {})), 3, 1, 2, (dW 3 0 6 6), thr1,
      fetches_of (by decide +kernel), by decide +kernel⟩,
    ⟨(word (dW 3 0 6 6) (run1 {})), 3, 1, 2, (dW 3 0 6 6), (thrWith {}),
      fetches_of (by decide +kernel), by decide +kernel⟩,
    ⟨(word (dW 3 0 6 7) (run1 {})), 3, 1, 2, (dW 3 0 6 7), (thrWith {}),
      fetches_of (by decide +kernel), by decide +kernel⟩,
    ⟨{ word (dW 3 1 6 6) (run1 {}) with cores.cores := [(1, { state := .running, rr := 1, threads := [(2, thr1), (0, { state := .ready })] })] }, 3, 1, 2, (dW 3 1 6 6), thr1,
      fetches_of (by decide +kernel), by decide +kernel⟩,
    ⟨(word (dW 3 1 6 6) (run1 {})), 3, 1, 2, (dW 3 1 6 6), (thrWith {}),
      fetches_of (by decide +kernel), by decide +kernel⟩,
    ⟨(word (dW 3 3 6 6) (run1 {})), 3, 1, 2, (dW 3 3 6 6), (thrWith {}),
      fetches_of (by decide +kernel), by decide +kernel⟩,
    ⟨(word (dW 3 3 6 6) (run1 { stores := 1 })), 3, 1, 2, (dW 3 3 6 6), (thrWith { stores := 1 }),
      fetches_of (by decide +kernel), by decide +kernel⟩,
    ⟨(word (dW 5 0 7 6) (run1 { regs := [(6, 256), (7, 2 ^ 25)] })), 3, 1, 2, (dW 5 0 7 6), (thrWith { regs := [(6, 256), (7, 2 ^ 25)] }),
      fetches_of (by decide +kernel), by decide +kernel⟩,
    ⟨(word (dW 5 0 7 6) (post1 {})), 3, 1, 2, (dW 5 0 7 6), thr1, (rkey 0 3),
      fetches_of (by decide +kernel), by decide +kernel⟩,
    ⟨{ word (dW 5 0 7 6) (post1 { kind := 1 }) with glb.mode := .lockdown }, 3, 1, 2, (dW 5 0 7 6), thr1, (rkey 0 3),
      fetches_of (by decide +kernel), by decide +kernel⟩,
    ⟨(word (dW 5 0 7 6) (post1 { kind := 1, log2 := 4, engine := 1, pi := 16 })), 3, 1, 2, (dW 5 0 7 6), thr1, (rkey 0 3),
      fetches_of (by decide +kernel), by decide +kernel⟩,
    ⟨{ word (dW 5 0 7 6) (post1 { kind := 1 }) with glb.fns := [(0, { ready := true })] }, 3, 1, 2, (dW 5 0 7 6), thr1, (rkey 0 3),
      fetches_of (by decide +kernel), by decide +kernel⟩⟩

/-- The premises of `Obligations.CoresInTimeAndCommands`, clause by clause, are met. -/
theorem witness_CoresInTimeAndCommands :
  (∃ (s : State) (dt : Nat) (c : Nat) (h : Nat),
    (s.elapse dt).Plain ∧ ((s.elapse dt).core c).state = CState.running ∧ ((s.elapse dt).thr c h).live = true ∧ ((s.elapse dt).thr c h).dlValid = true ∧ ((s.elapse dt).thr c h).deadline ≤ nsOf (s.elapse dt).now) ∧
  (∃ (s : State) (dt : Nat) (c : Nat) (h : Nat),
    (s.elapse dt).Plain ∧ (((s.elapse dt).thr c h).dlValid = false ∨ nsOf (s.elapse dt).now < ((s.elapse dt).thr c h).deadline ∨ ((s.elapse dt).core c).state ≠ CState.running)) ∧
  (∃ (s : State) (dt : Nat) (c : Nat) (h : Nat),
    (s.elapse dt).Plain ∧ ((s.elapse dt).thr c h).loads = []) ∧
  (∃ (s : State) (dt : Nat) (c : Nat) (h : Nat) (d : Nat) (a : Nat) (v : Nat) (bad : Bool) (more : List (Nat × Nat × Nat × Bool)),
    (s.elapse dt).Plain ∧ ((s.elapse dt).thr c h).loads = (d, a, v, bad) :: more ∧ ((s.elapse dt).thr c h).blocked = none) ∧
  (∃ (s : State) (dt : Nat) (c : Nat) (h : Nat) (d : Nat) (a : Nat) (v : Nat) (bad : Bool) (more : List (Nat × Nat × Nat × Bool)) (rs : List Nat),
    (s.elapse dt).Plain ∧ ((s.elapse dt).thr c h).loads = (d, a, v, bad) :: more ∧ ((s.elapse dt).thr c h).blocked = some (Blocked.await rs) ∧ ((more.any fun l => rs.contains l.fst) = true)) ∧
  (∃ (s : State) (dt : Nat) (c : Nat) (h : Nat) (d : Nat) (a : Nat) (v : Nat) (bad : Bool) (more : List (Nat × Nat × Nat × Bool)) (rs : List Nat),
    (s.elapse dt).Plain ∧ ((s.elapse dt).thr c h).loads = (d, a, v, bad) :: more ∧ ((s.elapse dt).thr c h).blocked = some (Blocked.await rs) ∧ ((more.any fun l => rs.contains l.fst) = false)) ∧
  (∃ (s : State) (dt : Nat) (c : Nat) (h : Nat) (d : Nat) (a : Nat) (v : Nat) (bad : Bool) (more : List (Nat × Nat × Nat × Bool)) (n : Nat) (r : Nat) (b : Nat),
    (s.elapse dt).Plain ∧ ((s.elapse dt).thr c h).loads = (d, a, v, bad) :: more ∧ ((s.elapse dt).thr c h).blocked = some (Blocked.load n r b) ∧ ((s.elapse dt).thr c h).state = TState.stalled ∧ (s.elapse dt).mem.bad = [] ∧ (s.elapse dt).mem.poison = [] ∧ more.length < 8) ∧
  (∃ (s : State) (dt : Nat) (c : Nat),
    (s.elapse dt).Plain ∧ (s.elapse dt).dryWell c = false) ∧
  (∃ (s : State) (dt : Nat) (c : Nat),
    (s.elapse dt).Plain ∧ c < 96 ∧ s.cores.chans = [] ∧ s.rm.flows = [] ∧ (s.elapse dt).dryWell c = true) ∧
  (∃ (s : State) (dt : Nat) (c : Nat),
    (s.elapse dt).Plain ∧ (c < 96 ∨ ((s.elapse dt).core c).state ≠ CState.stopped ∨ ([96, 97, 98, 99].any fun o => ((s.elapse dt).core o).state == CState.running) = false)) ∧
  (∃ (s : State) (dt : Nat) (c : Nat),
    (s.elapse dt).Plain ∧ 96 ≤ c ∧ c < 100 ∧ ((s.elapse dt).core c).state = CState.stopped ∧ (([96, 97, 98, 99].any fun o => ((s.elapse dt).core o).state == CState.running) = true)) ∧
  (∃ (s : State) (dt : Nat) (p : Path) (x : Session) (q : TReq) (c : Nat) (addr : Nat),
    c < 100 ∧ Issued (s.elapse dt) p x q 1793 4 ((s.elapse dt).corePerm c) ∧ badAddr p addr = true) ∧
  (∃ (s : State) (dt : Nat) (p : Path) (x : Session) (q : TReq) (c : Nat) (addr : Nat) (len : Nat) (off : Nat),
    c < 100 ∧ Issued (s.elapse dt) p x q 1793 4 ((s.elapse dt).corePerm c) ∧ badAddr p addr = false ∧ (2 ^ 18 < off + len ∨ off % 8 ≠ 0)) ∧
  (∃ (s : State) (dt : Nat) (p : Path) (x : Session) (q : TReq) (c : Nat) (addr : Nat) (len : Nat) (off : Nat),
    c < 100 ∧ Issued (s.elapse dt) p x q 1793 4 ((s.elapse dt).corePerm c) ∧ badAddr p addr = false ∧ (¬(2 ^ 18 < off + len ∨ off % 8 ≠ 0)) ∧ (s.elapse dt).coreAbsent c = true) ∧
  (∃ (s : State) (dt : Nat) (p : Path) (x : Session) (q : TReq) (c : Nat) (addr : Nat) (len : Nat) (off : Nat),
    c < 100 ∧ Issued (s.elapse dt) p x q 1793 4 ((s.elapse dt).corePerm c) ∧ badAddr p addr = false ∧ (¬(2 ^ 18 < off + len ∨ off % 8 ≠ 0)) ∧ (s.elapse dt).coreAbsent c = false ∧ ((s.elapse dt).core c).state = CState.running) ∧
  (∃ (s : State) (dt : Nat) (p : Path) (x : Session) (q : TReq) (c : Nat) (addr : Nat) (len : Nat) (off : Nat),
    c < 100 ∧ Issued (s.elapse dt) p x q 1793 4 ((s.elapse dt).corePerm c) ∧ badAddr p addr = false ∧ (¬(2 ^ 18 < off + len ∨ off % 8 ≠ 0)) ∧ (s.elapse dt).coreAbsent c = false ∧ ((s.elapse dt).core c).state ≠ CState.running ∧ s.mem.bad = []) ∧
  (∃ (s : State) (dt : Nat) (p : Path) (x : Session) (q : TReq) (c : Nat) (mask : Nat) (addr : Nat),
    c < 100 ∧ Issued (s.elapse dt) p x q 1794 3 ((s.elapse dt).corePerm c) ∧ mask < 256 ∧ badAddr p addr = true) ∧
  (∃ (s : State) (dt : Nat) (p : Path) (x : Session) (q : TReq) (c : Nat) (mask : Nat) (addr : Nat) (data : Bytes),
    c < 100 ∧ Issued (s.elapse dt) p x q 1794 3 ((s.elapse dt).corePerm c) ∧ mask < 256 ∧ badAddr p addr = false ∧ (mask = 0 ∨ ((List.filter (fun h => mask.testBit h) (List.range 8)).any fun h => ofLe (slice ((s.elapse dt).cmdRead p addr 128 data) (16 * h) 8) % 4 != 0) = true)) ∧
  (∃ (s : State) (dt : Nat) (p : Path) (x : Session) (q : TReq) (c : Nat) (mask : Nat) (addr : Nat) (data : Bytes),
    c < 100 ∧ Issued (s.elapse dt) p x q 1794 3 ((s.elapse dt).corePerm c) ∧ mask < 256 ∧ badAddr p addr = false ∧ (¬(mask = 0 ∨ ((List.filter (fun h => mask.testBit h) (List.range 8)).any fun h => ofLe (slice ((s.elapse dt).cmdRead p addr 128 data) (16 * h) 8) % 4 != 0) = true)) ∧ (s.elapse dt).coreAbsent c = true) ∧
  (∃ (s : State) (dt : Nat) (p : Path) (x : Session) (q : TReq) (c : Nat) (mask : Nat) (addr : Nat) (data : Bytes),
    c < 100 ∧ Issued (s.elapse dt) p x q 1794 3 ((s.elapse dt).corePerm c) ∧ mask < 256 ∧ badAddr p addr = false ∧ (¬(mask = 0 ∨ ((List.filter (fun h => mask.testBit h) (List.range 8)).any fun h => ofLe (slice ((s.elapse dt).cmdRead p addr 128 data) (16 * h) 8) % 4 != 0) = true)) ∧ (s.elapse dt).coreAbsent c = false ∧ ((s.elapse dt).core c).state ≠ CState.loaded) ∧
  (∃ (s : State) (dt : Nat) (p : Path) (x : Session) (q : TReq) (c : Nat) (mask : Nat) (addr : Nat) (data : Bytes),
    c < 100 ∧ Issued (s.elapse dt) p x q 1794 3 ((s.elapse dt).corePerm c) ∧ mask < 256 ∧ badAddr p addr = false ∧ (¬(mask = 0 ∨ ((List.filter (fun h => mask.testBit h) (List.range 8)).any fun h => ofLe (slice ((s.elapse dt).cmdRead p addr 128 data) (16 * h) 8) % 4 != 0) = true)) ∧ (s.elapse dt).coreAbsent c = false ∧ ((s.elapse dt).core c).state = CState.loaded) ∧
  (∃ (s : State) (dt : Nat) (p : Path) (x : Session) (q : TReq) (c : Nat),
    c < 100 ∧ Issued (s.elapse dt) p x q 1795 1 ((s.elapse dt).corePerm c) ∧ (s.elapse dt).coreAbsent c = true) ∧
  (∃ (s : State) (dt : Nat) (p : Path) (x : Session) (q : TReq) (c : Nat),
    c < 100 ∧ Issued (s.elapse dt) p x q 1795 1 ((s.elapse dt).corePerm c) ∧ (s.elapse dt).coreAbsent c = false ∧ ((s.elapse dt).core c).state ≠ CState.running ∧ (s.elapse dt).faultStopping c = false) ∧
  (∃ (s : State) (dt : Nat) (p : Path) (x : Session) (q : TReq) (c : Nat),
    c < 100 ∧ Issued (s.elapse dt) p x q 1795 1 ((s.elapse dt).corePerm c) ∧ (s.elapse dt).coreAbsent c = false ∧ ((s.elapse dt).core c).state ≠ CState.running ∧ (s.elapse dt).faultStopping c = true) ∧
  (∃ (s : State) (dt : Nat) (p : Path) (x : Session) (q : TReq) (c : Nat),
    c < 100 ∧ Issued (s.elapse dt) p x q 1795 1 ((s.elapse dt).corePerm c) ∧ (s.elapse dt).coreAbsent c = false ∧ ((s.elapse dt).core c).state = CState.running ∧ s.cores.chans = [] ∧ s.rm.flows = [] ∧ s.dbg.steps = []) ∧
  (∃ (s : State) (dt : Nat) (p : Path) (x : Session) (q : TReq) (c : Nat) (clear : Nat),
    c < 100 ∧ Issued (s.elapse dt) p x q 1796 2 ((s.elapse dt).corePerm c) ∧ clear < 2 ∧ (s.elapse dt).coreAbsent c = true) ∧
  (∃ (s : State) (dt : Nat) (p : Path) (x : Session) (q : TReq) (c : Nat) (clear : Nat),
    c < 100 ∧ Issued (s.elapse dt) p x q 1796 2 ((s.elapse dt).corePerm c) ∧ clear < 2 ∧ (s.elapse dt).coreAbsent c = false ∧ ((s.elapse dt).core c).state ≠ CState.stopped) ∧
  (∃ (s : State) (dt : Nat) (p : Path) (x : Session) (q : TReq) (c : Nat) (clear : Nat),
    c < 100 ∧ Issued (s.elapse dt) p x q 1796 2 ((s.elapse dt).corePerm c) ∧ clear < 2 ∧ (s.elapse dt).coreAbsent c = false ∧ ((s.elapse dt).core c).state = CState.stopped ∧ clear = 0) ∧
  (∃ (s : State) (dt : Nat) (p : Path) (x : Session) (q : TReq) (c : Nat) (clear : Nat),
    c < 100 ∧ Issued (s.elapse dt) p x q 1796 2 ((s.elapse dt).corePerm c) ∧ clear < 2 ∧ (s.elapse dt).coreAbsent c = false ∧ ((s.elapse dt).core c).state = CState.stopped ∧ clear = 1) ∧
  (∃ (s : State) (dt : Nat) (p : Path) (x : Session) (q : TReq) (c : Nat) (h : Nat),
    c < 100 ∧ Issued (s.elapse dt) p x q 1797 2 ((s.elapse dt).corePerm c) ∧ (h < 8 ∨ h = 255) ∧ (s.elapse dt).coreAbsent c = true) ∧
  (∃ (s : State) (dt : Nat) (p : Path) (x : Session) (q : TReq) (c : Nat) (h : Nat),
    c < 100 ∧ Issued (s.elapse dt) p x q 1797 2 ((s.elapse dt).corePerm c) ∧ (h < 8 ∨ h = 255) ∧ (s.elapse dt).coreAbsent c = false) ∧
  (∃ (s : State) (dt : Nat) (p : Path) (x : Session) (q : TReq) (c : Nat),
    c < 100 ∧ Issued (s.elapse dt) p x q 1798 1 ((s.elapse dt).corePerm c) ∧ (s.elapse dt).coreAbsent c = true) ∧
  (∃ (s : State) (dt : Nat) (p : Path) (x : Session) (q : TReq) (c : Nat),
    c < 100 ∧ Issued (s.elapse dt) p x q 1798 1 ((s.elapse dt).corePerm c) ∧ (s.elapse dt).coreAbsent c = false) :=
  ⟨⟨(run1 { dlValid := true, deadline := 5 }), (ns 5), 1, 2,
      plain_of (by decide +kernel), by decide +kernel⟩,
    ⟨(run1 { dlValid := true, deadline := 5 }), (ns 5 - 1), 1, 2,
      plain_of (by decide +kernel), by decide +kernel⟩,
    ⟨(run1 {}), (ns 5 - 1), 1, 2,
      plain_of (by decide +kernel), by decide +kernel⟩,
    ⟨(run1 { loads := [(4, 8, 77, true), (5, 8, 78, true)] }), (ns 5 - 1), 1, 2, 4, 8, 77, true, [(5, 8, 78, true)],
      plain_of (by decide +kernel), by decide +kernel⟩,
    ⟨(run1 { state := .stalled, blocked := some (.await [4, 5]), loads := [(4, 8, 77, false), (5, 8, 78, true)] }), (ns 5 - 1), 1, 2, 4, 8, 77, false, [(5, 8, 78, true)], [4, 5],
      plain_of (by decide +kernel), by decide +kernel⟩,
    ⟨(run1 { state := .stalled, blocked := some (.await [4]), loads := [(4, 8, 77, false), (5, 8, 78, true)] }), (ns 5 - 1), 1, 2, 4, 8, 77, false, [(5, 8, 78, true)], [4],
      plain_of (by decide +kernel), by decide +kernel⟩,
    ⟨(paged1 { state := .stalled, blocked := some (.load 8 9 (2 ^ 32)), loads := [(4, 8, 77, false), (5, 8, 78, true)] }), 3, 1, 2, 4, 8, 77, false, [(5, 8, 78, true)], 8, 9, (2 ^ 32),
      plain_of (by decide +kernel), by decide +kernel⟩,
    ⟨(run1 {}), (ns 5 - 1), 1,
      plain_of (by decide +kernel), by decide +kernel⟩,
    ⟨(run1 { state := .waiting, blocked := some (.wfe 1 5) }), (ns 5 - 1), 1,
      plain_of (by decide +kernel), by decide +kernel⟩,
    ⟨(run1 {}), (ns 5 - 1), 1,
      plain_of (by decide +kernel), by decide +kernel⟩,
    ⟨{ run1 {} with cores.cores := [(96, { state := .stopped }), (99, { state := .running })] }, 3, 96,
      plain_of (by decide +kernel), by decide +kernel⟩,
    ⟨(ask (run1 {}) 0x0701 4), 3, (.mp 1), (sess 0x0701 4), (req 0x0701 4), 1, (2 ^ 63 + 2 ^ 20),
      by decide +kernel, issued_of (by decide +kernel), by decide +kernel⟩,
    ⟨(ask (run1 {}) 0x0701 4), 3, (.mp 1), (sess 0x0701 4), (req 0x0701 4), 1, 0, 8, (2^18 - 4),
      by decide +kernel, issued_of (by decide +kernel), by decide +kernel⟩,
    ⟨(ask { run1 {} with fuse.orderCode := 0x0B } 0x0701 4), 3, (.mp 1), (sess 0x0701 4), (req 0x0701 4), 48, 0, 8, (2^18 - 8),
      by decide +kernel, issued_of (by decide +kernel), by decide +kernel⟩,
    ⟨(ask (run1 {}) 0x0701 4), 3, (.mp 1), (sess 0x0701 4), (req 0x0701 4), 1, 0, 8, (2^18 - 8),
      by decide +kernel, issued_of (by decide +kernel), by decide +kernel⟩,
    ⟨(ask (run1 {}) 0x0701 4), 3, (.mp 1), (sess 0x0701 4), (req 0x0701 4), 0, 0, 8, (2^18 - 8),
      by decide +kernel, issued_of (by decide +kernel), by decide +kernel⟩,
    ⟨(ask (run1 {}) 0x0702 3), 3, (.mp 1), (sess 0x0702 3), (req 0x0702 3), 1, 255, (2 ^ 63 + 2 ^ 20),
      by decide +kernel, issued_of (by decide +kernel), by decide +kernel⟩,
    ⟨(ask (run1 {}) 0x0702 3), 3, (.mp 1), (sess 0x0702 3), (req 0x0702 3), 1, 255, 0, [1],
      by decide +kernel, issued_of (by decide +kernel), by decide +kernel⟩,
    ⟨(ask { run1 {} with fuse.orderCode := 0x0B } 0x0702 3), 3, (.mp 1), (sess 0x0702 3), (req 0x0702 3), 48, 255, 0, [],
      by decide +kernel, issued_of (by decide +kernel), by decide +kernel⟩,
    ⟨(ask (run1 {}) 0x0702 3), 3, (.mp 1), (sess 0x0702 3), (req 0x0702 3), 1, 255, 0, (zeros 128),
      by decide +kernel, issued_of (by decide +kernel), by decide +kernel⟩,
    ⟨(ask { run1 {} with cores.cores := [(1, { state := .loaded })] } 0x0702 3), 3, (.mp 1), (sess 0x0702 3), (req 0x0702 3), 1, 255, 0, (zeros 128),
      by decide +kernel, issued_of (by decide +kernel), by decide +kernel⟩,
    ⟨(ask { run1 {} with fuse.orderCode := 0x0B } 0x0703 1), 3, (.mp 1), (sess 0x0703 1), (req 0x0703 1), 48,
      by decide +kernel, issued_of (by decide +kernel), by decide +kernel⟩,
    ⟨(ask (run1 {}) 0x0703 1), 3, (.mp 1), (sess 0x0703 1), (req 0x0703 1), 0,
      by decide +kernel, issued_of (by decide +kernel), by decide +kernel⟩,
    ⟨(ask { run1 {} with cores.cores := [(1, { state := .stopped, faultClass := 1 })] } 0x0703 1), 3, (.mp 1), (sess 0x0703 1), (req 0x0703 1), 1,
      by decide +kernel, issued_of (by decide +kernel), by decide +kernel⟩,
    ⟨(ask (run1 {}) 0x0703 1), 3, (.mp 1), (sess 0x0703 1), (req 0x0703 1), 1,
      by decide +kernel, issued_of (by decide +kernel), by decide +kernel⟩,
    ⟨(ask { run1 {} with fuse.orderCode := 0x0B } 0x0704 2), 3, (.mp 1), (sess 0x0704 2), (req 0x0704 2), 48, 1,
      by decide +kernel, issued_of (by decide +kernel), by decide +kernel⟩,
    ⟨(ask (run1 {}) 0x0704 2), 3, (.mp 1), (sess 0x0704 2), (req 0x0704 2), 1, 1,
      by decide +kernel, issued_of (by decide +kernel), by decide +kernel⟩,
    ⟨(ask { run1 {} with cores.cores := [(1, { state := .stopped, urgent := 3 })] } 0x0704 2), 3, (.mp 1), (sess 0x0704 2), (req 0x0704 2), 1, 0,
      by decide +kernel, issued_of (by decide +kernel), by decide +kernel⟩,
    ⟨(ask { run1 {} with cores.cores := [(1, { state := .stopped, urgent := 3 })] } 0x0704 2), 3, (.mp 1), (sess 0x0704 2), (req 0x0704 2), 1, 1,
      by decide +kernel, issued_of (by decide +kernel), by decide +kernel⟩,
    ⟨(ask { run1 {} with fuse.orderCode := 0x0B } 0x0705 2), 3, (.mp 1), (sess 0x0705 2), (req 0x0705 2), 48, 0xFF,
      by decide +kernel, issued_of (by decide +kernel), by decide +kernel⟩,
    ⟨(ask { run1 {} with cores.cores := [(1, { state := .stopped, urgent := 3 })] } 0x0705 2), 3, (.mp 1), (sess 0x0705 2), (req 0x0705 2), 1, 0xFF,
      by decide +kernel, issued_of (by decide +kernel), by decide +kernel⟩,
    ⟨(ask { run1 {} with fuse.orderCode := 0x0B } 0x0706 1), 3, (.mp 1), (sess 0x0706 1), (req 0x0706 1), 48,
      by decide +kernel, issued_of (by decide +kernel), by decide +kernel⟩,
    ⟨(ask (run1 {}) 0x0706 1), 3, (.mp 1), (sess 0x0706 1), (req 0x0706 1), 1,
      by decide +kernel, issued_of (by decide +kernel), by decide +kernel⟩⟩

set_option Elab.async false
set_option maxRecDepth 4000
/-- The premises of `Obligations.ChannelsAndSubscriptions`, clause by clause, are met. -/
theorem witness_ChannelsAndSubscriptions :
  (∃ (s : State) (dt : Nat) (c : Nat) (h : Nat) (w : Nat) (x : Thread) (y : Channel),
    Fetches (s.elapse dt) c h w x ∧ (((s.elapse dt).chan? (x.reg (wRs1 w))).or (tget? s.cores.gone (x.reg (wRs1 w))) = some y ∧ y.dom = (s.elapse dt).cdom c ∧ y.senders.contains (c, h) = true) ∧ y.broken = true ∧ wordD w 4 0 = true ∧ x.slot = none) ∧
  (∃ (s : State) (dt : Nat) (c : Nat) (h : Nat) (w : Nat) (x : Thread) (y : Channel),
    Fetches (s.elapse dt) c h w x ∧ (((s.elapse dt).chan? (x.reg (wRs1 w))).or (tget? s.cores.gone (x.reg (wRs1 w))) = some y ∧ y.dom = (s.elapse dt).cdom c ∧ y.senders.contains (c, h) = true) ∧ y.broken = true ∧ wordD w 4 1 = true ∧ x.slot = none) ∧
  (∃ (s : State) (dt : Nat) (c : Nat) (h : Nat) (w : Nat) (x : Thread) (y : Channel),
    Fetches (s.elapse dt) c h w x ∧ (((s.elapse dt).chan? (x.reg (wRs1 w))).or (tget? s.cores.gone (x.reg (wRs1 w))) = some y ∧ y.dom = (s.elapse dt).cdom c ∧ y.senders.contains (c, h) = true) ∧ y.broken = true ∧ wordD w 4 2 = true) ∧
  (∃ (s : State) (dt : Nat) (c : Nat) (h : Nat) (w : Nat) (x : Thread) (y : Channel),
    Fetches (s.elapse dt) c h w x ∧ (((s.elapse dt).chan? (x.reg (wRs1 w))).or (tget? s.cores.gone (x.reg (wRs1 w))) = some y ∧ y.dom = (s.elapse dt).cdom c ∧ y.senders.contains (c, h) = true) ∧ y.broken = true ∧ wordD w 4 3 = true) ∧
  (∃ (s : State) (dt : Nat) (c : Nat) (h : Nat) (w : Nat) (x : Thread) (y : Channel),
    Fetches (s.elapse dt) c h w x ∧ (((s.elapse dt).chan? (x.reg (wRs1 w))).or (tget? s.cores.gone (x.reg (wRs1 w))) = some y ∧ y.dom = (s.elapse dt).cdom c ∧ y.senders.contains (c, h) = true) ∧ y.broken = true ∧ wordD w 4 4 = true ∧ (x.stores = 0 ∨ x.slot ≠ some (x.reg (wRs1 w)))) ∧
  (∃ (s : State) (dt : Nat) (c : Nat) (h : Nat) (w : Nat) (x : Thread) (y : Channel),
    Fetches (s.elapse dt) c h w x ∧ (((s.elapse dt).chan? (x.reg (wRs1 w))).or (tget? s.cores.gone (x.reg (wRs1 w))) = some y ∧ y.dom = (s.elapse dt).cdom c ∧ y.senders.contains (c, h) = true) ∧ y.broken = true ∧ wordD w 4 5 = true ∧ x.slot ≠ some (x.reg (wRs1 w))) ∧
  (∃ (s : State) (dt : Nat) (c : Nat) (h : Nat) (w : Nat) (x : Thread) (y : Channel),
    Fetches (s.elapse dt) c h w x ∧ (((s.elapse dt).chan? (x.reg (wRs1 w))).or (tget? s.cores.gone (x.reg (wRs1 w))) = some y ∧ y.dom = (s.elapse dt).cdom c ∧ y.senders.contains (c, h) = true) ∧ y.broken = false ∧ x.slot = none ∧ y.holder = none ∧ (s.elapse dt).chanUsed (x.reg (wRs1 w)) y < y.cap ∧ wordD w 4 0 = true) ∧
  (∃ (s : State) (dt : Nat) (c : Nat) (h : Nat) (w : Nat) (x : Thread) (y : Channel),
    Fetches (s.elapse dt) c h w x ∧ (((s.elapse dt).chan? (x.reg (wRs1 w))).or (tget? s.cores.gone (x.reg (wRs1 w))) = some y ∧ y.dom = (s.elapse dt).cdom c ∧ y.senders.contains (c, h) = true) ∧ y.broken = false ∧ x.slot = none ∧ y.holder = none ∧ (s.elapse dt).chanUsed (x.reg (wRs1 w)) y < y.cap ∧ wordD w 4 1 = true) ∧
  (∃ (s : State) (dt : Nat) (c : Nat) (h : Nat) (w : Nat) (x : Thread) (y : Channel),
    Fetches (s.elapse dt) c h w x ∧ (((s.elapse dt).chan? (x.reg (wRs1 w))).or (tget? s.cores.gone (x.reg (wRs1 w))) = some y ∧ y.dom = (s.elapse dt).cdom c ∧ y.senders.contains (c, h) = true) ∧ y.broken = false ∧ x.slot = none ∧ (y.holder.isSome = true ∨ y.cap ≤ (s.elapse dt).chanUsed (x.reg (wRs1 w)) y) ∧ wordD w 4 0 = true) ∧
  (∃ (s : State) (dt : Nat) (c : Nat) (h : Nat) (w : Nat) (x : Thread) (y : Channel),
    Fetches (s.elapse dt) c h w x ∧ (((s.elapse dt).chan? (x.reg (wRs1 w))).or (tget? s.cores.gone (x.reg (wRs1 w))) = some y ∧ y.dom = (s.elapse dt).cdom c ∧ y.senders.contains (c, h) = true) ∧ y.broken = false ∧ x.slot = none ∧ (y.holder.isSome = true ∨ y.cap ≤ (s.elapse dt).chanUsed (x.reg (wRs1 w)) y) ∧ wordD w 4 1 = true ∧ y.tries.contains (c, h, true) = false) ∧
  (∃ (s : State) (dt : Nat) (c : Nat) (h : Nat) (w : Nat) (x : Thread) (y : Channel),
    Fetches (s.elapse dt) c h w x ∧ (((s.elapse dt).chan? (x.reg (wRs1 w))).or (tget? s.cores.gone (x.reg (wRs1 w))) = some y ∧ y.dom = (s.elapse dt).cdom c ∧ y.senders.contains (c, h) = true) ∧ y.broken = false ∧ x.slot = none ∧ (y.holder.isSome = true ∨ y.cap ≤ (s.elapse dt).chanUsed (x.reg (wRs1 w)) y) ∧ wordD w 4 1 = true ∧ y.tries.contains (c, h, true) = true) ∧
  (∃ (s : State) (dt : Nat) (c : Nat) (h : Nat) (w : Nat) (x : Thread) (y : Channel),
    Fetches (s.elapse dt) c h w x ∧ (((s.elapse dt).chan? (x.reg (wRs1 w))).or (tget? s.cores.gone (x.reg (wRs1 w))) = some y ∧ y.dom = (s.elapse dt).cdom c ∧ y.senders.contains (c, h) = true) ∧ y.broken = false ∧ x.abandoned.contains (x.reg (wRs1 w)) = true ∧ wordD w 4 2 = true) ∧
  (∃ (s : State) (dt : Nat) (c : Nat) (h : Nat) (w : Nat) (x : Thread) (y : Channel),
    Fetches (s.elapse dt) c h w x ∧ (((s.elapse dt).chan? (x.reg (wRs1 w))).or (tget? s.cores.gone (x.reg (wRs1 w))) = some y ∧ y.dom = (s.elapse dt).cdom c ∧ y.senders.contains (c, h) = true) ∧ y.broken = false ∧ x.abandoned.contains (x.reg (wRs1 w)) = true ∧ wordD w 4 3 = true) ∧
  (∃ (s : State) (dt : Nat) (c : Nat) (h : Nat) (w : Nat) (x : Thread) (y : Channel),
    Fetches (s.elapse dt) c h w x ∧ (((s.elapse dt).chan? (x.reg (wRs1 w))).or (tget? s.cores.gone (x.reg (wRs1 w))) = some y ∧ y.dom = (s.elapse dt).cdom c ∧ y.senders.contains (c, h) = true) ∧ y.broken = false ∧ x.abandoned.contains (x.reg (wRs1 w)) = true ∧ wordD w 4 4 = true ∧ (x.stores = 0 ∨ x.slot ≠ some (x.reg (wRs1 w)))) ∧
  (∃ (s : State) (dt : Nat) (c : Nat) (h : Nat) (w : Nat) (x : Thread) (y : Channel),
    Fetches (s.elapse dt) c h w x ∧ (((s.elapse dt).chan? (x.reg (wRs1 w))).or (tget? s.cores.gone (x.reg (wRs1 w))) = some y ∧ y.dom = (s.elapse dt).cdom c ∧ y.senders.contains (c, h) = true) ∧ y.broken = false ∧ x.abandoned.contains (x.reg (wRs1 w)) = true ∧ wordD w 4 5 = true ∧ x.slot ≠ some (x.reg (wRs1 w))) ∧
  (∃ (s : State) (dt : Nat) (c : Nat) (h : Nat) (w : Nat) (x : Thread) (y : Channel),
    Fetches (s.elapse dt) c h w x ∧ (((s.elapse dt).chan? (x.reg (wRs1 w))).or (tget? s.cores.gone (x.reg (wRs1 w))) = some y ∧ y.dom = (s.elapse dt).cdom c ∧ y.senders.contains (c, h) = true) ∧ y.broken = false ∧ x.abandoned.contains (x.reg (wRs1 w)) = false ∧ x.slot = some (x.reg (wRs1 w)) ∧ y.holder = some (c, h) ∧ wordD w 4 2 = true ∧ y.staged.length < 8) ∧
  (∃ (s : State) (dt : Nat) (c : Nat) (h : Nat) (w : Nat) (x : Thread) (y : Channel),
    Fetches (s.elapse dt) c h w x ∧ (((s.elapse dt).chan? (x.reg (wRs1 w))).or (tget? s.cores.gone (x.reg (wRs1 w))) = some y ∧ y.dom = (s.elapse dt).cdom c ∧ y.senders.contains (c, h) = true) ∧ y.broken = false ∧ x.abandoned.contains (x.reg (wRs1 w)) = false ∧ x.slot = some (x.reg (wRs1 w)) ∧ y.holder = some (c, h) ∧ wordD w 4 4 = true ∧ 0 < x.stores ∧ y.staged ≠ []) ∧
  (∃ (s : State) (dt : Nat) (c : Nat) (h : Nat) (w : Nat) (x : Thread) (y : Channel),
    Fetches (s.elapse dt) c h w x ∧ (((s.elapse dt).chan? (x.reg (wRs1 w))).or (tget? s.cores.gone (x.reg (wRs1 w))) = some y ∧ y.dom = (s.elapse dt).cdom c ∧ y.senders.contains (c, h) = true) ∧ y.broken = false ∧ x.abandoned.contains (x.reg (wRs1 w)) = false ∧ x.slot = some (x.reg (wRs1 w)) ∧ y.holder = some (c, h) ∧ y.tries = [] ∧ ((y.senders.all fun e => match ((s.elapse dt).thr e.fst e.snd).blocked with | some (Blocked.cbegin chan rd) => false | x => true) = true) ∧ wordD w 4 5 = true) ∧
  (∃ (s : State) (dt : Nat) (c : Nat) (h : Nat) (w : Nat) (x : Thread) (y : Channel),
    Fetches (s.elapse dt) c h w x ∧ (((s.elapse dt).chan? (x.reg (wRs1 w))).or (tget? s.cores.gone (x.reg (wRs1 w))) = some y ∧ y.dom = (s.elapse dt).cdom c ∧ y.senders.contains (c, h) = true) ∧ y.broken = false ∧ x.abandoned.contains (x.reg (wRs1 w)) = false ∧ x.slot = some (x.reg (wRs1 w)) ∧ y.holder = some (c, h) ∧ y.tries = [] ∧ ((y.senders.all fun e => match ((s.elapse dt).thr e.fst e.snd).blocked with | some (Blocked.cbegin chan rd) => false | x => true) = true) ∧ y.staged ≠ [] ∧ x.item = none ∧ ((s.elapse dt).thr y.recv.fst y.recv.snd).blocked = none ∧ wordD w 4 3 = true) ∧
  (∃ (s : State) (dt : Nat) (c : Nat) (h : Nat) (w : Nat) (x : Thread) (y : Channel),
    Fetches (s.elapse dt) c h w x ∧ (((s.elapse dt).chan? (x.reg (wRs1 w))).or (tget? s.cores.gone (x.reg (wRs1 w))) = some y ∧ y.dom = (s.elapse dt).cdom c ∧ y.senders.contains (c, h) = true) ∧ y.broken = false ∧ x.abandoned.contains (x.reg (wRs1 w)) = false ∧ x.slot = some (x.reg (wRs1 w)) ∧ y.holder = some (c, h) ∧ y.tries = [] ∧ ((y.senders.all fun e => match ((s.elapse dt).thr e.fst e.snd).blocked with | some (Blocked.cbegin chan rd) => false | x => true) = true) ∧ y.staged ≠ [] ∧ x.item = none ∧ ((s.elapse dt).thr y.recv.fst y.recv.snd).blocked = none ∧ wordD w 4 4 = true ∧ x.stores = 0) ∧
  (∃ (s : State) (dt : Nat) (c : Nat) (h : Nat) (w : Nat) (x : Thread) (y : Channel) (c2 : Nat) (h2 : Nat) (d2 : Nat),
    Fetches (s.elapse dt) c h w x ∧ (((s.elapse dt).chan? (x.reg (wRs1 w))).or (tget? s.cores.gone (x.reg (wRs1 w))) = some y ∧ y.dom = (s.elapse dt).cdom c ∧ y.senders.contains (c, h) = true) ∧ y.broken = false ∧ x.abandoned.contains (x.reg (wRs1 w)) = false ∧ x.slot = some (x.reg (wRs1 w)) ∧ y.holder = some (c, h) ∧ wordD w 4 5 = true ∧ y.tries = [] ∧ y.senders = [(c, h), (c2, h2)] ∧ c2 ≠ c ∧ ((s.elapse dt).thr c2 h2).state = TState.waiting ∧ ((s.elapse dt).thr c2 h2).blocked = some (Blocked.cbegin (x.reg (wRs1 w)) d2) ∧ y.ready.length + y.taken.length + (s.elapse dt).chanHeld (x.reg (wRs1 w)) < y.cap) ∧
  (∃ (s : State) (dt : Nat) (c : Nat) (h : Nat) (w : Nat) (x : Thread) (y : Channel) (c2 : Nat) (h2 : Nat),
    Fetches (s.elapse dt) c h w x ∧ (((s.elapse dt).chan? (x.reg (wRs1 w))).or (tget? s.cores.gone (x.reg (wRs1 w))) = some y ∧ y.dom = (s.elapse dt).cdom c ∧ y.senders.contains (c, h) = true) ∧ y.broken = false ∧ x.abandoned.contains (x.reg (wRs1 w)) = false ∧ x.slot = some (x.reg (wRs1 w)) ∧ y.holder = some (c, h) ∧ wordD w 4 5 = true ∧ y.tries = [(c2, h2, true)] ∧ ((y.senders.all fun e => match ((s.elapse dt).thr e.fst e.snd).blocked with | some (Blocked.cbegin chan rd) => false | x => true) = true) ∧ c2 ≠ c ∧ ((s.elapse dt).core c2).state = CState.running ∧ ((s.elapse dt).thr c2 h2).live = true ∧ ((s.elapse dt).thr c2 h2).blocked = none) ∧
  (∃ (s : State) (dt : Nat) (c : Nat) (h : Nat) (w : Nat) (x : Thread) (y : Channel) (c2 : Nat) (h2 : Nat) (d2 : Nat),
    Fetches (s.elapse dt) c h w x ∧ (((s.elapse dt).chan? (x.reg (wRs1 w))).or (tget? s.cores.gone (x.reg (wRs1 w))) = some y ∧ y.dom = (s.elapse dt).cdom c ∧ y.senders.contains (c, h) = true) ∧ y.broken = false ∧ x.abandoned.contains (x.reg (wRs1 w)) = false ∧ x.slot = some (x.reg (wRs1 w)) ∧ y.holder = some (c, h) ∧ wordD w 4 3 = true ∧ y.tries = [] ∧ ((y.senders.all fun e => match ((s.elapse dt).thr e.fst e.snd).blocked with | some (Blocked.cbegin chan rd) => false | x => true) = true) ∧ y.staged ≠ [] ∧ x.item = none ∧ y.recv = (c2, h2) ∧ c2 ≠ c ∧ ((s.elapse dt).thr c2 h2).state = TState.waiting ∧ ((s.elapse dt).thr c2 h2).blocked = some (Blocked.crecv (x.reg (wRs1 w)) d2) ∧ y.ready = []) ∧
  (∃ (s : State) (dt : Nat) (c : Nat) (h : Nat) (w : Nat) (x : Thread) (y : Channel),
    Fetches (s.elapse dt) c h w x ∧ (((s.elapse dt).chan? (x.reg (wRs1 w))).or (tget? s.cores.gone (x.reg (wRs1 w))) = some y ∧ y.dom = (s.elapse dt).cdom c ∧ y.senders.contains (c, h) = true) ∧ y.broken = false ∧ x.abandoned.contains (x.reg (wRs1 w)) = false ∧ x.slot = some (x.reg (wRs1 w)) ∧ y.holder = some (c, h) ∧ (c < 96 ∧ s.rm.flows = [] ∧ s.cores.chans = [(x.reg (wRs1 w), y)] ∧ y.tries = [] ∧ ((s.elapse dt).core c).threads = [(h, x)]) ∧ y.recv.fst ≠ c ∧ ((s.elapse dt).thr y.recv.fst y.recv.snd).blocked = none ∧ ((y.senders.all fun e => match ((s.elapse dt).thr e.fst e.snd).blocked with | some (Blocked.cbegin chan rd) => false | x => true) = true) ∧ wordD w 4 0 = true) ∧
  (∃ (s : State) (dt : Nat) (c : Nat) (h : Nat) (w : Nat) (x : Thread) (y : Channel),
    Fetches (s.elapse dt) c h w x ∧ (((s.elapse dt).chan? (x.reg (wRs1 w))).or (tget? s.cores.gone (x.reg (wRs1 w))) = some y ∧ y.dom = (s.elapse dt).cdom c ∧ y.senders.contains (c, h) = true) ∧ y.broken = false ∧ x.abandoned.contains (x.reg (wRs1 w)) = false ∧ x.slot = some (x.reg (wRs1 w)) ∧ y.holder = some (c, h) ∧ (c < 96 ∧ s.rm.flows = [] ∧ s.cores.chans = [(x.reg (wRs1 w), y)] ∧ y.tries = [] ∧ ((s.elapse dt).core c).threads = [(h, x)]) ∧ y.recv.fst ≠ c ∧ ((s.elapse dt).thr y.recv.fst y.recv.snd).blocked = none ∧ ((y.senders.all fun e => match ((s.elapse dt).thr e.fst e.snd).blocked with | some (Blocked.cbegin chan rd) => false | x => true) = true) ∧ wordD w 4 1 = true) ∧
  (∃ (s : State) (dt : Nat) (c : Nat) (h : Nat) (w : Nat) (x : Thread) (y : Channel),
    Fetches (s.elapse dt) c h w x ∧ (((s.elapse dt).chan? (x.reg (wRs1 w))).or (tget? s.cores.gone (x.reg (wRs1 w))) = some y ∧ y.dom = (s.elapse dt).cdom c ∧ y.senders.contains (c, h) = true) ∧ y.broken = false ∧ x.abandoned.contains (x.reg (wRs1 w)) = false ∧ x.slot = some (x.reg (wRs1 w)) ∧ y.holder = some (c, h) ∧ (c < 96 ∧ s.rm.flows = [] ∧ s.cores.chans = [(x.reg (wRs1 w), y)] ∧ y.tries = [] ∧ ((s.elapse dt).core c).threads = [(h, x)]) ∧ y.recv.fst ≠ c ∧ ((s.elapse dt).thr y.recv.fst y.recv.snd).blocked = none ∧ ((y.senders.all fun e => match ((s.elapse dt).thr e.fst e.snd).blocked with | some (Blocked.cbegin chan rd) => false | x => true) = true) ∧ wordD w 4 2 = true ∧ 8 ≤ y.staged.length) ∧
  (∃ (s : State) (dt : Nat) (c : Nat) (h : Nat) (w : Nat) (x : Thread) (y : Channel),
    Fetches (s.elapse dt) c h w x ∧ (((s.elapse dt).chan? (x.reg (wRs1 w))).or (tget? s.cores.gone (x.reg (wRs1 w))) = some y ∧ y.dom = (s.elapse dt).cdom c ∧ y.senders.contains (c, h) = true) ∧ y.broken = false ∧ x.abandoned.contains (x.reg (wRs1 w)) = false ∧ x.slot = some (x.reg (wRs1 w)) ∧ y.holder = some (c, h) ∧ (c < 96 ∧ s.rm.flows = [] ∧ s.cores.chans = [(x.reg (wRs1 w), y)] ∧ y.tries = [] ∧ ((s.elapse dt).core c).threads = [(h, x)]) ∧ y.recv.fst ≠ c ∧ ((s.elapse dt).thr y.recv.fst y.recv.snd).blocked = none ∧ ((y.senders.all fun e => match ((s.elapse dt).thr e.fst e.snd).blocked with | some (Blocked.cbegin chan rd) => false | x => true) = true) ∧ y.staged = [] ∧ wordD w 4 3 = true) ∧
  (∃ (s : State) (dt : Nat) (c : Nat) (h : Nat) (w : Nat) (x : Thread) (y : Channel),
    Fetches (s.elapse dt) c h w x ∧ (((s.elapse dt).chan? (x.reg (wRs1 w))).or (tget? s.cores.gone (x.reg (wRs1 w))) = some y ∧ y.dom = (s.elapse dt).cdom c ∧ y.senders.contains (c, h) = true) ∧ y.broken = false ∧ x.abandoned.contains (x.reg (wRs1 w)) = false ∧ x.slot = some (x.reg (wRs1 w)) ∧ y.holder = some (c, h) ∧ (c < 96 ∧ s.rm.flows = [] ∧ s.cores.chans = [(x.reg (wRs1 w), y)] ∧ y.tries = [] ∧ ((s.elapse dt).core c).threads = [(h, x)]) ∧ y.recv.fst ≠ c ∧ ((s.elapse dt).thr y.recv.fst y.recv.snd).blocked = none ∧ ((y.senders.all fun e => match ((s.elapse dt).thr e.fst e.snd).blocked with | some (Blocked.cbegin chan rd) => false | x => true) = true) ∧ y.staged = [] ∧ wordD w 4 4 = true) ∧
  (∃ (s : State) (dt : Nat) (c : Nat) (h : Nat) (w : Nat) (x : Thread) (y : Channel),
    Fetches (s.elapse dt) c h w x ∧ (((s.elapse dt).chan? (x.reg (wRs1 w))).or (tget? s.cores.gone (x.reg (wRs1 w))) = some y ∧ y.dom = (s.elapse dt).cdom c ∧ y.senders.contains (c, h) = true) ∧ y.broken = false ∧ x.abandoned.contains (x.reg (wRs1 w)) = false ∧ x.slot = none ∧ (c < 96 ∧ s.rm.flows = [] ∧ (List.all s.cores.chans fun y => y.snd.recv.fst != c && y.snd.tries.isEmpty) = true ∧ (List.all ((s.elapse dt).core c).threads fun y => y.snd.slot.isNone) = true) ∧ wordD w 4 2 = true) ∧
  (∃ (s : State) (dt : Nat) (c : Nat) (h : Nat) (w : Nat) (x : Thread) (y : Channel),
    Fetches (s.elapse dt) c h w x ∧ (((s.elapse dt).chan? (x.reg (wRs1 w))).or (tget? s.cores.gone (x.reg (wRs1 w))) = some y ∧ y.dom = (s.elapse dt).cdom c ∧ y.senders.contains (c, h) = true) ∧ y.broken = false ∧ x.abandoned.contains (x.reg (wRs1 w)) = false ∧ x.slot = none ∧ (c < 96 ∧ s.rm.flows = [] ∧ (List.all s.cores.chans fun y => y.snd.recv.fst != c && y.snd.tries.isEmpty) = true ∧ (List.all ((s.elapse dt).core c).threads fun y => y.snd.slot.isNone) = true) ∧ wordD w 4 3 = true) ∧
  (∃ (s : State) (dt : Nat) (c : Nat) (h : Nat) (w : Nat) (x : Thread) (y : Channel),
    Fetches (s.elapse dt) c h w x ∧ (((s.elapse dt).chan? (x.reg (wRs1 w))).or (tget? s.cores.gone (x.reg (wRs1 w))) = some y ∧ y.dom = (s.elapse dt).cdom c ∧ y.senders.contains (c, h) = true) ∧ y.broken = false ∧ x.abandoned.contains (x.reg (wRs1 w)) = false ∧ x.slot = none ∧ (c < 96 ∧ s.rm.flows = [] ∧ (List.all s.cores.chans fun y => y.snd.recv.fst != c && y.snd.tries.isEmpty) = true ∧ (List.all ((s.elapse dt).core c).threads fun y => y.snd.slot.isNone) = true) ∧ wordD w 4 4 = true) ∧
  (∃ (s : State) (dt : Nat) (c : Nat) (h : Nat) (w : Nat) (x : Thread) (y : Channel),
    Fetches (s.elapse dt) c h w x ∧ (((s.elapse dt).chan? (x.reg (wRs1 w))).or (tget? s.cores.gone (x.reg (wRs1 w))) = some y ∧ y.dom = (s.elapse dt).cdom c ∧ y.recv = (c, h)) ∧ y.broken = true ∧ wordD w 4 8 = true) ∧
  (∃ (s : State) (dt : Nat) (c : Nat) (h : Nat) (w : Nat) (x : Thread) (y : Channel),
    Fetches (s.elapse dt) c h w x ∧ (((s.elapse dt).chan? (x.reg (wRs1 w))).or (tget? s.cores.gone (x.reg (wRs1 w))) = some y ∧ y.dom = (s.elapse dt).cdom c ∧ y.recv = (c, h)) ∧ y.broken = true ∧ wordD w 4 9 = true) ∧
  (∃ (s : State) (dt : Nat) (c : Nat) (h : Nat) (w : Nat) (x : Thread) (y : Channel),
    Fetches (s.elapse dt) c h w x ∧ (((s.elapse dt).chan? (x.reg (wRs1 w))).or (tget? s.cores.gone (x.reg (wRs1 w))) = some y ∧ y.dom = (s.elapse dt).cdom c ∧ y.recv = (c, h)) ∧ y.broken = true ∧ wordD w 4 10 = true) ∧
  (∃ (s : State) (dt : Nat) (c : Nat) (h : Nat) (w : Nat) (x : Thread) (y : Channel) (k : Nat) (more : List Nat),
    Fetches (s.elapse dt) c h w x ∧ (((s.elapse dt).chan? (x.reg (wRs1 w))).or (tget? s.cores.gone (x.reg (wRs1 w))) = some y ∧ y.dom = (s.elapse dt).cdom c ∧ y.recv = (c, h)) ∧ y.broken = false ∧ y.ready = k :: more ∧ wordD w 4 8 = true) ∧
  (∃ (s : State) (dt : Nat) (c : Nat) (h : Nat) (w : Nat) (x : Thread) (y : Channel) (k : Nat) (more : List Nat),
    Fetches (s.elapse dt) c h w x ∧ (((s.elapse dt).chan? (x.reg (wRs1 w))).or (tget? s.cores.gone (x.reg (wRs1 w))) = some y ∧ y.dom = (s.elapse dt).cdom c ∧ y.recv = (c, h)) ∧ y.broken = false ∧ y.ready = k :: more ∧ wordD w 4 9 = true) ∧
  (∃ (s : State) (dt : Nat) (c : Nat) (h : Nat) (w : Nat) (x : Thread) (y : Channel),
    Fetches (s.elapse dt) c h w x ∧ (((s.elapse dt).chan? (x.reg (wRs1 w))).or (tget? s.cores.gone (x.reg (wRs1 w))) = some y ∧ y.dom = (s.elapse dt).cdom c ∧ y.recv = (c, h)) ∧ y.broken = false ∧ y.ready = [] ∧ wordD w 4 8 = true) ∧
  (∃ (s : State) (dt : Nat) (c : Nat) (h : Nat) (w : Nat) (x : Thread) (y : Channel),
    Fetches (s.elapse dt) c h w x ∧ (((s.elapse dt).chan? (x.reg (wRs1 w))).or (tget? s.cores.gone (x.reg (wRs1 w))) = some y ∧ y.dom = (s.elapse dt).cdom c ∧ y.recv = (c, h)) ∧ y.broken = false ∧ y.ready = [] ∧ wordD w 4 9 = true ∧ y.tries.contains (c, h, false) = false) ∧
  (∃ (s : State) (dt : Nat) (c : Nat) (h : Nat) (w : Nat) (x : Thread) (y : Channel),
    Fetches (s.elapse dt) c h w x ∧ (((s.elapse dt).chan? (x.reg (wRs1 w))).or (tget? s.cores.gone (x.reg (wRs1 w))) = some y ∧ y.dom = (s.elapse dt).cdom c ∧ y.recv = (c, h)) ∧ y.broken = false ∧ y.ready = [] ∧ wordD w 4 9 = true ∧ y.tries.contains (c, h, false) = true) ∧
  (∃ (s : State) (dt : Nat) (c : Nat) (h : Nat) (w : Nat) (x : Thread) (y : Channel) (k : Nat) (more : List Nat),
    Fetches (s.elapse dt) c h w x ∧ (((s.elapse dt).chan? (x.reg (wRs1 w))).or (tget? s.cores.gone (x.reg (wRs1 w))) = some y ∧ y.dom = (s.elapse dt).cdom c ∧ y.recv = (c, h)) ∧ y.broken = false ∧ y.taken = k :: more ∧ y.tries = [] ∧ ((y.senders.all fun e => match ((s.elapse dt).thr e.fst e.snd).blocked with | some (Blocked.cbegin chan rd) => false | x => true) = true) ∧ wordD w 4 10 = true) ∧
  (∃ (s : State) (dt : Nat) (c : Nat) (h : Nat) (w : Nat) (x : Thread) (y : Channel),
    Fetches (s.elapse dt) c h w x ∧ (((s.elapse dt).chan? (x.reg (wRs1 w))).or (tget? s.cores.gone (x.reg (wRs1 w))) = some y ∧ y.dom = (s.elapse dt).cdom c ∧ y.recv = (c, h)) ∧ y.broken = false ∧ y.taken = [] ∧ (c < 96 ∧ s.rm.flows = [] ∧ s.cores.chans = [(x.reg (wRs1 w), y)] ∧ y.tries = [] ∧ ((s.elapse dt).core c).threads = [(h, x)]) ∧ x.slot = none ∧ y.holder = none ∧ wordD w 4 10 = true) ∧
  (∃ (s : State) (dt : Nat) (c : Nat) (h : Nat) (w : Nat) (x : Thread),
    Fetches (s.elapse dt) c h w x ∧ (c < 96 ∧ s.rm.flows = [] ∧ (List.all s.cores.chans fun y => y.snd.recv.fst != c && y.snd.tries.isEmpty) = true ∧ (List.all ((s.elapse dt).core c).threads fun y => y.snd.slot.isNone) = true) ∧ (∀ (y : Channel), ((s.elapse dt).chan? (x.reg (wRs1 w))).or (tget? s.cores.gone (x.reg (wRs1 w))) = some y → y.dom = (s.elapse dt).cdom c → ¬y.senders.contains (c, h) = true) ∧ wordD w 4 0 = true) ∧
  (∃ (s : State) (dt : Nat) (c : Nat) (h : Nat) (w : Nat) (x : Thread),
    Fetches (s.elapse dt) c h w x ∧ (c < 96 ∧ s.rm.flows = [] ∧ (List.all s.cores.chans fun y => y.snd.recv.fst != c && y.snd.tries.isEmpty) = true ∧ (List.all ((s.elapse dt).core c).threads fun y => y.snd.slot.isNone) = true) ∧ (∀ (y : Channel), ((s.elapse dt).chan? (x.reg (wRs1 w))).or (tget? s.cores.gone (x.reg (wRs1 w))) = some y → y.dom = (s.elapse dt).cdom c → ¬y.senders.contains (c, h) = true) ∧ wordD w 4 1 = true) ∧
  (∃ (s : State) (dt : Nat) (c : Nat) (h : Nat) (w : Nat) (x : Thread),
    Fetches (s.elapse dt) c h w x ∧ (c < 96 ∧ s.rm.flows = [] ∧ (List.all s.cores.chans fun y => y.snd.recv.fst != c && y.snd.tries.isEmpty) = true ∧ (List.all ((s.elapse dt).core c).threads fun y => y.snd.slot.isNone) = true) ∧ (∀ (y : Channel), ((s.elapse dt).chan? (x.reg (wRs1 w))).or (tget? s.cores.gone (x.reg (wRs1 w))) = some y → y.dom = (s.elapse dt).cdom c → ¬y.senders.contains (c, h) = true) ∧ wordD w 4 2 = true) ∧
  (∃ (s : State) (dt : Nat) (c : Nat) (h : Nat) (w : Nat) (x : Thread),
    Fetches (s.elapse dt) c h w x ∧ (c < 96 ∧ s.rm.flows = [] ∧ (List.all s.cores.chans fun y => y.snd.recv.fst != c && y.snd.tries.isEmpty) = true ∧ (List.all ((s.elapse dt).core c).threads fun y => y.snd.slot.isNone) = true) ∧ (∀ (y : Channel), ((s.elapse dt).chan? (x.reg (wRs1 w))).or (tget? s.cores.gone (x.reg (wRs1 w))) = some y → y.dom = (s.elapse dt).cdom c → ¬y.senders.contains (c, h) = true) ∧ wordD w 4 3 = true) ∧
  (∃ (s : State) (dt : Nat) (c : Nat) (h : Nat) (w : Nat) (x : Thread),
    Fetches (s.elapse dt) c h w x ∧ (c < 96 ∧ s.rm.flows = [] ∧ (List.all s.cores.chans fun y => y.snd.recv.fst != c && y.snd.tries.isEmpty) = true ∧ (List.all ((s.elapse dt).core c).threads fun y => y.snd.slot.isNone) = true) ∧ (∀ (y : Channel), ((s.elapse dt).chan? (x.reg (wRs1 w))).or (tget? s.cores.gone (x.reg (wRs1 w))) = some y → y.dom = (s.elapse dt).cdom c → ¬y.senders.contains (c, h) = true) ∧ wordD w 4 4 = true) ∧
  (∃ (s : State) (dt : Nat) (c : Nat) (h : Nat) (w : Nat) (x : Thread),
    Fetches (s.elapse dt) c h w x ∧ (c < 96 ∧ s.rm.flows = [] ∧ (List.all s.cores.chans fun y => y.snd.recv.fst != c && y.snd.tries.isEmpty) = true ∧ (List.all ((s.elapse dt).core c).threads fun y => y.snd.slot.isNone) = true) ∧ (∀ (y : Channel), ((s.elapse dt).chan? (x.reg (wRs1 w))).or (tget? s.cores.gone (x.reg (wRs1 w))) = some y → y.dom = (s.elapse dt).cdom c → ¬y.senders.contains (c, h) = true) ∧ wordD w 4 5 = true) ∧
  (∃ (s : State) (dt : Nat) (c : Nat) (h : Nat) (w : Nat) (x : Thread),
    Fetches (s.elapse dt) c h w x ∧ (c < 96 ∧ s.rm.flows = [] ∧ (List.all s.cores.chans fun y => y.snd.recv.fst != c && y.snd.tries.isEmpty) = true ∧ (List.all ((s.elapse dt).core c).threads fun y => y.snd.slot.isNone) = true) ∧ (∀ (y : Channel), ((s.elapse dt).chan? (x.reg (wRs1 w))).or (tget? s.cores.gone (x.reg (wRs1 w))) = some y → y.dom = (s.elapse dt).cdom c → y.recv ≠ (c, h)) ∧ wordD w 4 8 = true) ∧
  (∃ (s : State) (dt : Nat) (c : Nat) (h : Nat) (w : Nat) (x : Thread),
    Fetches (s.elapse dt) c h w x ∧ (c < 96 ∧ s.rm.flows = [] ∧ (List.all s.cores.chans fun y => y.snd.recv.fst != c && y.snd.tries.isEmpty) = true ∧ (List.all ((s.elapse dt).core c).threads fun y => y.snd.slot.isNone) = true) ∧ (∀ (y : Channel), ((s.elapse dt).chan? (x.reg (wRs1 w))).or (tget? s.cores.gone (x.reg (wRs1 w))) = some y → y.dom = (s.elapse dt).cdom c → y.recv ≠ (c, h)) ∧ wordD w 4 9 = true) ∧
  (∃ (s : State) (dt : Nat) (c : Nat) (h : Nat) (w : Nat) (x : Thread),
    Fetches (s.elapse dt) c h w x ∧ (c < 96 ∧ s.rm.flows = [] ∧ (List.all s.cores.chans fun y => y.snd.recv.fst != c && y.snd.tries.isEmpty) = true ∧ (List.all ((s.elapse dt).core c).threads fun y => y.snd.slot.isNone) = true) ∧ (∀ (y : Channel), ((s.elapse dt).chan? (x.reg (wRs1 w))).or (tget? s.cores.gone (x.reg (wRs1 w))) = some y → y.dom = (s.elapse dt).cdom c → y.recv ≠ (c, h)) ∧ wordD w 4 10 = true) ∧
  (∃ (s : State) (dt : Nat) (c : Nat) (h : Nat) (w : Nat) (x : Thread) (k : Nat),
    Fetches (s.elapse dt) c h w x ∧ wordD w 4 16 = true ∧ ((x.reg (wRs1 w) % 256 = 2 ∨ x.reg (wRs1 w) % 256 = 1 ∧ bits (x.reg (wRs1 w)) 15 8 ≠ 0) ∧ x.reg (wRs2 w) % 32 = 0 ∧ x.reg (wRs2 w) + 512 ≤ 2 ^ 18) ∧ List.length x.subs < 4 ∧ ((List.map (fun y => List.length y.snd.subs) ((s.elapse dt).core c).threads).sum < 16) ∧ (tget? x.subs k).isNone = true ∧ k < 4 ∧ (∀ (j : Nat), j < k → (tget? x.subs j).isSome = true) ∧ (x.reg (wRs1 w) % 256 = 2 ∨ s.rm.flows = [])) ∧
  (∃ (s : State) (dt : Nat) (c : Nat) (h : Nat) (w : Nat) (x : Thread),
    Fetches (s.elapse dt) c h w x ∧ wordD w 4 16 = true ∧ ((x.reg (wRs1 w) % 256 = 2 ∨ x.reg (wRs1 w) % 256 = 1 ∧ bits (x.reg (wRs1 w)) 15 8 ≠ 0) ∧ x.reg (wRs2 w) % 32 = 0 ∧ x.reg (wRs2 w) + 512 ≤ 2 ^ 18) ∧ (4 ≤ List.length x.subs ∨ 16 ≤ (List.map (fun y => List.length y.snd.subs) ((s.elapse dt).core c).threads).sum)) ∧
  (∃ (s : State) (dt : Nat) (c : Nat) (h : Nat) (w : Nat) (x : Thread),
    Fetches (s.elapse dt) c h w x ∧ wordD w 4 16 = true ∧ (¬((x.reg (wRs1 w) % 256 = 2 ∨ x.reg (wRs1 w) % 256 = 1 ∧ bits (x.reg (wRs1 w)) 15 8 ≠ 0) ∧ x.reg (wRs2 w) % 32 = 0 ∧ x.reg (wRs2 w) + 512 ≤ 2 ^ 18)) ∧ (c < 96 ∧ s.rm.flows = [] ∧ s.cores.chans = [])) ∧
  (∃ (s : State) (dt : Nat) (c : Nat) (h : Nat) (w : Nat) (x : Thread) (y : Machine.Sub),
    Fetches (s.elapse dt) c h w x ∧ tget? x.subs (x.reg (wRs1 w)) = some y ∧ y.kind = 2 ∧ wordD w 4 17 = true) ∧
  (∃ (s : State) (dt : Nat) (c : Nat) (h : Nat) (w : Nat) (x : Thread) (y : Machine.Sub),
    Fetches (s.elapse dt) c h w x ∧ tget? x.subs (x.reg (wRs1 w)) = some y ∧ y.kind = 2 ∧ wordD w 4 18 = true ∧ y.unread = []) ∧
  (∃ (s : State) (dt : Nat) (c : Nat) (h : Nat) (w : Nat) (x : Thread) (y : Machine.Sub) (k : Nat) (more : List Nat),
    Fetches (s.elapse dt) c h w x ∧ tget? x.subs (x.reg (wRs1 w)) = some y ∧ y.kind = 2 ∧ wordD w 4 18 = true ∧ y.unread = k :: more) ∧
  (∃ (s : State) (dt : Nat) (c : Nat) (h : Nat) (w : Nat) (x : Thread) (y : Machine.Sub),
    Fetches (s.elapse dt) c h w x ∧ tget? x.subs (x.reg (wRs1 w)) = some y ∧ y.kind = 2 ∧ wordD w 4 19 = true) ∧
  (∃ (s : State) (dt : Nat) (c : Nat) (h : Nat) (w : Nat) (x : Thread) (y : Machine.Sub),
    Fetches (s.elapse dt) c h w x ∧ tget? x.subs (x.reg (wRs1 w)) = some y ∧ y.kind = 1 ∧ wordD w 4 17 = true ∧ s.rm.flows = [] ∧ (∀ (p : Nat × Nat), p ∈ (s.elapse dt).threads → ((s.elapse dt).thr p.fst p.snd).state ≠ TState.stalled)) ∧
  (∃ (s : State) (dt : Nat) (c : Nat) (h : Nat) (w : Nat) (x : Thread) (y : Machine.Sub),
    Fetches (s.elapse dt) c h w x ∧ tget? x.subs (x.reg (wRs1 w)) = some y ∧ y.kind = 1 ∧ (c < 96 ∧ s.rm.flows = [] ∧ s.cores.chans = []) ∧ wordD w 4 18 = true) ∧
  (∃ (s : State) (dt : Nat) (c : Nat) (h : Nat) (w : Nat) (x : Thread) (y : Machine.Sub),
    Fetches (s.elapse dt) c h w x ∧ tget? x.subs (x.reg (wRs1 w)) = some y ∧ y.kind = 1 ∧ (c < 96 ∧ s.rm.flows = [] ∧ s.cores.chans = []) ∧ wordD w 4 19 = true) ∧
  (∃ (s : State) (dt : Nat) (c : Nat) (h : Nat) (w : Nat) (x : Thread),
    Fetches (s.elapse dt) c h w x ∧ tget? x.subs (x.reg (wRs1 w)) = none ∧ (c < 96 ∧ s.rm.flows = [] ∧ s.cores.chans = []) ∧ wordD w 4 17 = true) ∧
  (∃ (s : State) (dt : Nat) (c : Nat) (h : Nat) (w : Nat) (x : Thread),
    Fetches (s.elapse dt) c h w x ∧ tget? x.subs (x.reg (wRs1 w)) = none ∧ (c < 96 ∧ s.rm.flows = [] ∧ s.cores.chans = []) ∧ wordD w 4 18 = true) ∧
  (∃ (s : State) (dt : Nat) (c : Nat) (h : Nat) (w : Nat) (x : Thread),
    Fetches (s.elapse dt) c h w x ∧ tget? x.subs (x.reg (wRs1 w)) = none ∧ (c < 96 ∧ s.rm.flows = [] ∧ s.cores.chans = []) ∧ wordD w 4 19 = true) :=
  ⟨⟨(word (dW 4 0 7 6) (ch {} { chS with broken := true })), 3, 1, 2, (dW 4 0 7 6), (thrWith {}), { chS with broken := true },
      fetches_of (by decide +kernel), by decide +kernel⟩,
    ⟨(word (dW 4 1 7 6) (ch {} { chS with broken := true })), 3, 1, 2, (dW 4 1 7 6), (thrWith {}), { chS with broken := true },
      fetches_of (by decide +kernel), by decide +kernel⟩,
    ⟨(word (dW 4 2 7 6) (ch {} { chS with broken := true })), 3, 1, 2, (dW 4 2 7 6), (thrWith {}), { chS with broken := true },
      fetches_of (by decide +kernel), by decide +kernel⟩,
    ⟨(word (dW 4 3 7 6) (ch {} { chS with broken := true })), 3, 1, 2, (dW 4 3 7 6), (thrWith {}), { chS with broken := true },
      fetches_of (by decide +kernel), by decide +kernel⟩,
    ⟨(word (dW 4 4 7 6) (ch { stores := 1 } { chS with broken := true })), 3, 1, 2, (dW 4 4 7 6), (thrWith { stores := 1 }), { chS with broken := true },
      fetches_of (by decide +kernel), by decide +kernel⟩,
    ⟨(word (dW 4 5 7 6) (ch {} { chS with broken := true })), 3, 1, 2, (dW 4 5 7 6), (thrWith {}), { chS with broken := true },
      fetches_of (by decide +kernel), by decide +kernel⟩,
    ⟨(word (dW 4 0 7 6) (ch {} { chS with ready := [0] })), 3, 1, 2, (dW 4 0 7 6), (thrWith {}), { chS with ready := [0] },
      fetches_of (by decide +kernel), by decide +kernel⟩,
    ⟨(word (dW 4 1 7 6) (ch {} { chS with ready := [0] })), 3, 1, 2, (dW 4 1 7 6), (thrWith {}), { chS with ready := [0] },
      fetches_of (by decide +kernel), by decide +kernel⟩,
    ⟨(word (dW 4 0 7 6) (ch {} { chS with ready := [0, 1] })), 3, 1, 2, (dW 4 0 7 6), (thrWith {}), { chS with ready := [0, 1] },
      fetches_of (by decide +kernel), by decide +kernel⟩,
    ⟨(word (dW 4 1 7 6) (ch {} { chS with ready := [0, 1] })), 3, 1, 2, (dW 4 1 7 6), (thrWith {}), { chS with ready := [0, 1] },
      fetches_of (by decide +kernel), by decide +kernel⟩,
    ⟨(word (dW 4 1 7 6) (ch {} { chS with ready := [0, 1], tries := [(1, 2, true)] })), 3, 1, 2, (dW 4 1 7 6), (thrWith {}), { chS with ready := [0, 1], tries := [(1, 2, true)] },
      fetches_of (by decide +kernel), by decide +kernel⟩,
    ⟨(word (dW 4 2 7 6) (ch { abandoned := [3] } chS)), 3, 1, 2, (dW 4 2 7 6), (thrWith { abandoned := [3] }), chS,
      fetches_of (by decide +kernel), by decide +kernel⟩,
    ⟨(word (dW 4 3 7 6) (ch { abandoned := [3] } chS)), 3, 1, 2, (dW 4 3 7 6), (thrWith { abandoned := [3] }), chS,
      fetches_of (by decide +kernel), by decide +kernel⟩,
    ⟨(word (dW 4 4 7 6) (ch { abandoned := [3] } chS)), 3, 1, 2, (dW 4 4 7 6), (thrWith { abandoned := [3] }), chS,
      fetches_of (by decide +kernel), by decide +kernel⟩,
    ⟨(word (dW 4 5 7 6) (ch { abandoned := [3] } chS)), 3, 1, 2, (dW 4 5 7 6), (thrWith { abandoned := [3] }), chS,
      fetches_of (by decide +kernel), by decide +kernel⟩,
    ⟨(word (dW 4 2 7 6) (ch { slot := some 3 } { chS with holder := some (1, 2), staged := [1,2,3,4,5,6,7] })), 3, 1, 2, (dW 4 2 7 6), (thrWith { slot := some 3 }), { chS with holder := some (1, 2), staged := [1,2,3,4,5,6,7] },
      fetches_of (by decide +kernel), by decide +kernel⟩,
    ⟨(word (dW 4 4 7 6) (ch { slot := some 3, stores := 1 } { chS with holder := some (1, 2), staged := [1,2,3,4,5,6,7] })), 3, 1, 2, (dW 4 4 7 6), (thrWith { slot := some 3, stores := 1 }), { chS with holder := some (1, 2), staged := [1,2,3,4,5,6,7] },
      fetches_of (by decide +kernel), by decide +kernel⟩,
    ⟨(word (dW 4 5 7 6) (ch { slot := some 3, stores := 1 } { chS with holder := some (1, 2), staged := [1,2,3,4,5,6,7] })), 3, 1, 2, (dW 4 5 7 6), (thrWith { slot := some 3, stores := 1 }), { chS with holder := some (1, 2), staged := [1,2,3,4,5,6,7] },
      fetches_of (by decide +kernel), by decide +kernel⟩,
    ⟨(word (dW 4 3 7 6) (ch { slot := some 3 } { chS with holder := some (1, 2), staged := [1,2,3,4,5,6,7,8], next := 1, seq := 2^32-1 })), 3, 1, 2, (dW 4 3 7 6), (thrWith { slot := some 3 }), { chS with holder := some (1, 2), staged := [1,2,3,4,5,6,7,8], next := 1, seq := 2^32-1 },
      fetches_of (by decide +kernel), by decide +kernel⟩,
    ⟨(word (dW 4 4 7 6) (ch { slot := some 3 } { chS with holder := some (1, 2), staged := [1,2,3,4,5,6,7,8], next := 1, seq := 2^32-1 })), 3, 1, 2, (dW 4 4 7 6), (thrWith { slot := some 3 }), { chS with holder := some (1, 2), staged := [1,2,3,4,5,6,7,8], next := 1, seq := 2^32-1 },
      fetches_of (by decide +kernel), by decide +kernel⟩,
    ⟨{ (word (dW 4 5 7 6) (ch { slot := some 3 } { chS with holder := some (1, 2), staged := [1], senders := [(1, 2), (2, 7)] })) with cores.cores := [(1, { state := .running, threads := [(2, thrWith { slot := some 3 })] }), (2, { state := .running, threads := [(7, { state := .waiting, blocked := some (.cbegin 3 9) })] })] }, 3, 1, 2, (dW 4 5 7 6), (thrWith { slot := some 3 }), { chS with holder := some (1, 2), staged := [1], senders := [(1, 2), (2, 7)] }, 2, 7, 9,
      fetches_of (by decide +kernel), by decide +kernel⟩,
    ⟨{ (word (dW 4 5 7 6) (ch { slot := some 3 } { chS with holder := some (1, 2), staged := [1], senders := [(1, 2), (2, 7)], tries := [(2, 7, true)] })) with cores.cores := [(1, { state := .running, threads := [(2, thrWith { slot := some 3 })] }), (2, { state := .running, threads := [(7, { state := .ready })] })] }, 3, 1, 2, (dW 4 5 7 6), (thrWith { slot := some 3 }), { chS with holder := some (1, 2), staged := [1], senders := [(1, 2), (2, 7)], tries := [(2, 7, true)] }, 2, 7,
      fetches_of (by decide +kernel), by decide +kernel⟩,
    ⟨{ (word (dW 4 3 7 6) (ch { slot := some 3 } { chS with holder := some (1, 2), staged := [1,2,3,4,5,6,7,8], next := 1, seq := 2^32-1 })) with cores.cores := [(1, { state := .running, threads := [(2, thrWith { slot := some 3 })] }), (5, { state := .running, threads := [(0, { state := .waiting, blocked := some (.crecv 3 9) })] })] }, 3, 1, 2, (dW 4 3 7 6), (thrWith { slot := some 3 }), { chS with holder := some (1, 2), staged := [1,2,3,4,5,6,7,8], next := 1, seq := 2^32-1 }, 5, 0, 9,
      fetches_of (by decide +kernel), by decide +kernel⟩,
    ⟨(word (dW 4 0 7 6) (ch { slot := some 3 } { chS with holder := some (1, 2), staged := [1,2,3,4,5,6,7,8], next := 1, seq := 2^32-1 })), 3, 1, 2, (dW 4 0 7 6), (thrWith { slot := some 3 }), { chS with holder := some (1, 2), staged := [1,2,3,4,5,6,7,8], next := 1, seq := 2^32-1 },
      fetches_of (by decide +kernel), by decide +kernel⟩,
    ⟨(word (dW 4 1 7 6) (ch { slot := some 3 } { chS with holder := some (1, 2), staged := [1,2,3,4,5,6,7,8], next := 1, seq := 2^32-1 })), 3, 1, 2, (dW 4 1 7 6), (thrWith { slot := some 3 }), { chS with holder := some (1, 2), staged := [1,2,3,4,5,6,7,8], next := 1, seq := 2^32-1 },
      fetches_of (by decide +kernel), by decide +kernel⟩,
    ⟨(word (dW 4 2 7 6) (ch { slot := some 3 } { chS with holder := some (1, 2), staged := [1,2,3,4,5,6,7,8], next := 1, seq := 2^32-1 })), 3, 1, 2, (dW 4 2 7 6), (thrWith { slot := some 3 }), { chS with holder := some (1, 2), staged := [1,2,3,4,5,6,7,8], next := 1, seq := 2^32-1 },
      fetches_of (by decide +kernel), by decide +kernel⟩,
    ⟨(word (dW 4 3 7 6) (ch { slot := some 3 } { chS with holder := some (1, 2) })), 3, 1, 2, (dW 4 3 7 6), (thrWith { slot := some 3 }), { chS with holder := some (1, 2) },
      fetches_of (by decide +kernel), by decide +kernel⟩,
    ⟨(word (dW 4 4 7 6) (ch { slot := some 3 } { chS with holder := some (1, 2) })), 3, 1, 2, (dW 4 4 7 6), (thrWith { slot := some 3 }), { chS with holder := some (1, 2) },
      fetches_of (by decide +kernel), by decide +kernel⟩,
    ⟨(word (dW 4 2 7 6) (ch {} chS)), 3, 1, 2, (dW 4 2 7 6), (thrWith {}), chS,
      fetches_of (by decide +kernel), by decide +kernel⟩,
    ⟨(word (dW 4 3 7 6) (ch {} chS)), 3, 1, 2, (dW 4 3 7 6), (thrWith {}), chS,
      fetches_of (by decide +kernel), by decide +kernel⟩,
    ⟨(word (dW 4 4 7 6) (ch {} chS)), 3, 1, 2, (dW 4 4 7 6), (thrWith {}), chS,
      fetches_of (by decide +kernel), by decide +kernel⟩,
    ⟨(word (dW 4 8 7 6) (ch {} { chR with broken := true })), 3, 1, 2, (dW 4 8 7 6), (thrWith {}), { chR with broken := true },
      fetches_of (by decide +kernel), by decide +kernel⟩,
    ⟨(word (dW 4 9 7 6) (ch {} { chR with broken := true })), 3, 1, 2, (dW 4 9 7 6), (thrWith {}), { chR with broken := true },
      fetches_of (by decide +kernel), by decide +kernel⟩,
    ⟨(word (dW 4 10 7 6) (ch {} { chR with broken := true })), 3, 1, 2, (dW 4 10 7 6), (thrWith {}), { chR with broken := true },
      fetches_of (by decide +kernel), by decide +kernel⟩,
    ⟨(word (dW 4 8 7 6) (ch {} { chR with ready := [1, 0] })), 3, 1, 2, (dW 4 8 7 6), (thrWith {}), { chR with ready := [1, 0] }, 1, [0],
      fetches_of (by decide +kernel), by decide +kernel⟩,
    ⟨(word (dW 4 9 7 6) (ch {} { chR with ready := [1, 0] })), 3, 1, 2, (dW 4 9 7 6), (thrWith {}), { chR with ready := [1, 0] }, 1, [0],
      fetches_of (by decide +kernel), by decide +kernel⟩,
    ⟨(word (dW 4 8 7 6) (ch {} { chR with taken := [1, 0] })), 3, 1, 2, (dW 4 8 7 6), (thrWith {}), { chR with taken := [1, 0] },
      fetches_of (by decide +kernel), by decide +kernel⟩,
    ⟨(word (dW 4 9 7 6) (ch {} { chR with taken := [1, 0] })), 3, 1, 2, (dW 4 9 7 6), (thrWith {}), { chR with taken := [1, 0] },
      fetches_of (by decide +kernel), by decide +kernel⟩,
    ⟨(word (dW 4 9 7 6) (ch {} { chR with taken := [1, 0], tries := [(1, 2, false)] })), 3, 1, 2, (dW 4 9 7 6), (thrWith {}), { chR with taken := [1, 0], tries := [(1, 2, false)] },
      fetches_of (by decide +kernel), by decide +kernel⟩,
    ⟨(word (dW 4 10 7 6) (ch {} { chR with taken := [1, 0] })), 3, 1, 2, (dW 4 10 7 6), (thrWith {}), { chR with taken := [1, 0] }, 1, [0],
      fetches_of (by decide +kernel), by decide +kernel⟩,
    ⟨(word (dW 4 10 7 6) (ch {} { chR with ready := [0] })), 3, 1, 2, (dW 4 10 7 6), (thrWith {}), { chR with ready := [0] },
      fetches_of (by decide +kernel), by decide +kernel⟩,
    ⟨(word (dW 4 0 7 6) (ch {} { chS with senders := [(1, 3)] })), 3, 1, 2, (dW 4 0 7 6), (thrWith {}),
      fetches_of (by decide +kernel), by decide +kernel⟩,
    ⟨(word (dW 4 1 7 6) (ch {} { chS with senders := [(1, 3)] })), 3, 1, 2, (dW 4 1 7 6), (thrWith {}),
      fetches_of (by decide +kernel), by decide +kernel⟩,
    ⟨(word (dW 4 2 7 6) (ch {} { chS with senders := [(1, 3)] })), 3, 1, 2, (dW 4 2 7 6), (thrWith {}),
      fetches_of (by decide +kernel), by decide +kernel⟩,
    ⟨(word (dW 4 3 7 6) (ch {} { chS with senders := [(1, 3)] })), 3, 1, 2, (dW 4 3 7 6), (thrWith {}),
      fetches_of (by decide +kernel), by decide +kernel⟩,
    ⟨(word (dW 4 4 7 6) (ch {} { chS with senders := [(1, 3)] })), 3, 1, 2, (dW 4 4 7 6), (thrWith {}),
      fetches_of (by decide +kernel), by decide +kernel⟩,
    ⟨(word (dW 4 5 7 6) (ch {} { chS with senders := [(1, 3)] })), 3, 1, 2, (dW 4 5 7 6), (thrWith {}),
      fetches_of (by decide +kernel), by decide +kernel⟩,
    ⟨(word (dW 4 8 7 6) (ch {} { chS with senders := [(1, 3)] })), 3, 1, 2, (dW 4 8 7 6), (thrWith {}),
      fetches_of (by decide +kernel), by decide +kernel⟩,
    ⟨(word (dW 4 9 7 6) (ch {} { chS with senders := [(1, 3)] })), 3, 1, 2, (dW 4 9 7 6), (thrWith {}),
      fetches_of (by decide +kernel), by decide +kernel⟩,
    ⟨(word (dW 4 10 7 6) (ch {} { chS with senders := [(1, 3)] })), 3, 1, 2, (dW 4 10 7 6), (thrWith {}),
      fetches_of (by decide +kernel), by decide +kernel⟩,
    ⟨(word (dW 4 16 7 6) (run1 { regs := [(7, 2 + 256), (6, 512)], subs := [(0, { kind := 1 })] })), 3, 1, 2, (dW 4 16 7 6), (thrWith { regs := [(7, 2 + 256), (6, 512)], subs := [(0, { kind := 1 })] }), 1,
      fetches_of (by decide +kernel), by decide +kernel⟩,
    ⟨(word (dW 4 16 7 6) (run1 { regs := [(7, 2 + 256), (6, 512)], subs := [(0, { kind := 1 }), (1, { kind := 1 }), (2, { kind := 2 }), (3, { kind := 2 })] })), 3, 1, 2, (dW 4 16 7 6), (thrWith { regs := [(7, 2 + 256), (6, 512)], subs := [(0, { kind := 1 }), (1, { kind := 1 }), (2, { kind := 2 }), (3, { kind := 2 })] }),
      fetches_of (by decide +kernel), by decide +kernel⟩,
    ⟨(word (dW 4 16 7 6) (run1 { regs := [(7, 2 + 256), (6, 2 ^ 18 - 480)] })), 3, 1, 2, (dW 4 16 7 6), (thrWith { regs := [(7, 2 + 256), (6, 2 ^ 18 - 480)] }),
      fetches_of (by decide +kernel), by decide +kernel⟩,
    ⟨(word (dW 4 17 7 6) (run1 { subs := [(3, { kind := 2, region := 1024, unread := [4, 5], read := [2] })] })), 3, 1, 2, (dW 4 17 7 6), (thrWith { subs := [(3, { kind := 2, region := 1024, unread := [4, 5], read := [2] })] }), { kind := 2, region := 1024, unread := [4, 5], read := [2] },
      fetches_of (by decide +kernel), by decide +kernel⟩,
    ⟨(word (dW 4 18 7 6) (run1 { subs := [(3, { kind := 2 })] })), 3, 1, 2, (dW 4 18 7 6), (thrWith { subs := [(3, { kind := 2 })] }), { kind := 2 },
      fetches_of (by decide +kernel), by decide +kernel⟩,
    ⟨(word (dW 4 18 7 6) (run1 { subs := [(3, { kind := 2, region := 1024, unread := [4, 5], read := [2] })] })), 3, 1, 2, (dW 4 18 7 6), (thrWith { subs := [(3, { kind := 2, region := 1024, unread := [4, 5], read := [2] })] }), { kind := 2, region := 1024, unread := [4, 5], read := [2] }, 4, [5],
      fetches_of (by decide +kernel), by decide +kernel⟩,
    ⟨(word (dW 4 19 7 6) (run1 { subs := [(3, { kind := 2, region := 1024, unread := [4, 5], read := [2] })] })), 3, 1, 2, (dW 4 19 7 6), (thrWith { subs := [(3, { kind := 2, region := 1024, unread := [4, 5], read := [2] })] }), { kind := 2, region := 1024, unread := [4, 5], read := [2] },
      fetches_of (by decide +kernel), by decide +kernel⟩,
    ⟨(word (dW 4 17 7 6) (run1 { subs := [(3, { kind := 1, unread := [4] })] })), 3, 1, 2, (dW 4 17 7 6), (thrWith { subs := [(3, { kind := 1, unread := [4] })] }), { kind := 1, unread := [4] },
      fetches_of (by decide +kernel), by decide +kernel⟩,
    ⟨(word (dW 4 18 7 6) (run1 { subs := [(3, { kind := 1, unread := [4] })] })), 3, 1, 2, (dW 4 18 7 6), (thrWith { subs := [(3, { kind := 1, unread := [4] })] }), { kind := 1, unread := [4] },
      fetches_of (by decide +kernel), by decide +kernel⟩,
    ⟨(word (dW 4 19 7 6) (run1 { subs := [(3, { kind := 1, unread := [4] })] })), 3, 1, 2, (dW 4 19 7 6), (thrWith { subs := [(3, { kind := 1, unread := [4] })] }), { kind := 1, unread := [4] },
      fetches_of (by decide +kernel), by decide +kernel⟩,
    ⟨(word (dW 4 17 7 6) (run1 {})), 3, 1, 2, (dW 4 17 7 6), (thrWith {}),
      fetches_of (by decide +kernel), by decide +kernel⟩,
    ⟨(word (dW 4 18 7 6) (run1 {})), 3, 1, 2, (dW 4 18 7 6), (thrWith {}),
      fetches_of (by decide +kernel), by decide +kernel⟩,
    ⟨(word (dW 4 19 7 6) (run1 {})), 3, 1, 2, (dW 4 19 7 6), (thrWith {}),
      fetches_of (by decide +kernel), by decide +kernel⟩⟩

/-- The premises of `Obligations.ChannelCommands`, clause by clause, are met. -/
theorem witness_ChannelCommands :
  (∃ (s : State) (dt : Nat) (p : Path) (x : Session) (q : TReq) (n : Nat) (core : Nat) (thr : Nat) (off : Nat) (cap : Nat) (es : List (Nat × Nat)),
    Issued (s.elapse dt) p x q 1856 (6 + 2 * es.length) ((s.elapse dt).chanPerm n) ∧ (cap = 0 ∨ 64 < cap ∨ es = [] ∨ 8 < es.length ∨ off % 8 ≠ 0 ∨ 2 ^ 18 < off + 72 * cap ∨ ∃ e, e ∈ (core, thr) :: es ∧ (100 ≤ e.fst ∨ 8 ≤ e.snd))) ∧
  (∃ (s : State) (dt : Nat) (p : Path) (x : Session) (q : TReq) (n : Nat) (core : Nat) (thr : Nat) (off : Nat) (cap : Nat) (es : List (Nat × Nat)),
    Issued (s.elapse dt) p x q 1856 (6 + 2 * es.length) ((s.elapse dt).chanPerm n) ∧ (¬(cap = 0 ∨ 64 < cap ∨ es = [] ∨ 8 < es.length ∨ off % 8 ≠ 0 ∨ 2 ^ 18 < off + 72 * cap ∨ ∃ e, e ∈ (core, thr) :: es ∧ (100 ≤ e.fst ∨ 8 ≤ e.snd))) ∧ ((s.elapse dt).chanOwner n = none ∨ ((s.elapse dt).chan? n).isSome = true)) ∧
  (∃ (s : State) (dt : Nat) (p : Path) (x : Session) (q : TReq) (n : Nat) (core : Nat) (thr : Nat) (off : Nat) (cap : Nat) (es : List (Nat × Nat)) (d : Nat),
    Issued (s.elapse dt) p x q 1856 (6 + 2 * es.length) ((s.elapse dt).chanPerm n) ∧ (¬(cap = 0 ∨ 64 < cap ∨ es = [] ∨ 8 < es.length ∨ off % 8 ≠ 0 ∨ 2 ^ 18 < off + 72 * cap ∨ ∃ e, e ∈ (core, thr) :: es ∧ (100 ≤ e.fst ∨ 8 ≤ e.snd))) ∧ (s.elapse dt).chanOwner n = some d ∧ (s.elapse dt).chan? n = none ∧ (¬∀ (e : Nat × Nat), e ∈ (core, thr) :: es → e.fst < 96 ∧ (s.elapse dt).coreAbsent e.fst = false ∧ (s.elapse dt).coreDom e.fst = some d)) ∧
  (∃ (s : State) (dt : Nat) (p : Path) (x : Session) (q : TReq) (n : Nat) (core : Nat) (thr : Nat) (off : Nat) (cap : Nat) (es : List (Nat × Nat)) (d : Nat),
    Issued (s.elapse dt) p x q 1856 (6 + 2 * es.length) ((s.elapse dt).chanPerm n) ∧ (¬(cap = 0 ∨ 64 < cap ∨ es = [] ∨ 8 < es.length ∨ off % 8 ≠ 0 ∨ 2 ^ 18 < off + 72 * cap ∨ ∃ e, e ∈ (core, thr) :: es ∧ (100 ≤ e.fst ∨ 8 ≤ e.snd))) ∧ (s.elapse dt).chanOwner n = some d ∧ (s.elapse dt).chan? n = none ∧ (∀ (e : Nat × Nat), e ∈ (core, thr) :: es → e.fst < 96 ∧ (s.elapse dt).coreAbsent e.fst = false ∧ (s.elapse dt).coreDom e.fst = some d) ∧ (¬∀ (y : Nat × Channel), y ∈ s.cores.chans → y.snd.recv.fst ≠ core ∨ off + 72 * cap ≤ y.snd.off ∨ y.snd.off + 72 * y.snd.cap ≤ off)) ∧
  (∃ (s : State) (dt : Nat) (p : Path) (x : Session) (q : TReq) (n : Nat) (core : Nat) (thr : Nat) (off : Nat) (cap : Nat) (es : List (Nat × Nat)) (d : Nat),
    Issued (s.elapse dt) p x q 1856 (6 + 2 * es.length) ((s.elapse dt).chanPerm n) ∧ (¬(cap = 0 ∨ 64 < cap ∨ es = [] ∨ 8 < es.length ∨ off % 8 ≠ 0 ∨ 2 ^ 18 < off + 72 * cap ∨ ∃ e, e ∈ (core, thr) :: es ∧ (100 ≤ e.fst ∨ 8 ≤ e.snd))) ∧ (s.elapse dt).chanOwner n = some d ∧ (s.elapse dt).chan? n = none ∧ (∀ (e : Nat × Nat), e ∈ (core, thr) :: es → e.fst < 96 ∧ (s.elapse dt).coreAbsent e.fst = false ∧ (s.elapse dt).coreDom e.fst = some d) ∧ (∀ (y : Nat × Channel), y ∈ s.cores.chans → y.snd.recv.fst ≠ core ∨ off + 72 * cap ≤ y.snd.off ∨ y.snd.off + 72 * y.snd.cap ≤ off)) ∧
  (∃ (s : State) (dt : Nat) (p : Path) (x : Session) (q : TReq) (n : Nat),
    Issued (s.elapse dt) p x q 1857 1 ((s.elapse dt).chanPerm n) ∧ (s.elapse dt).chan? n = none) ∧
  (∃ (s : State) (dt : Nat) (p : Path) (x : Session) (q : TReq) (n : Nat) (y : Channel),
    Issued (s.elapse dt) p x q 1857 1 ((s.elapse dt).chanPerm n) ∧ (s.elapse dt).chan? n = some y ∧ y.broken = true) ∧
  (∃ (s : State) (dt : Nat) (p : Path) (x : Session) (q : TReq) (n : Nat) (y : Channel),
    Issued (s.elapse dt) p x q 1857 1 ((s.elapse dt).chanPerm n) ∧ (s.elapse dt).chan? n = some y ∧ y.broken = false ∧ y.holder = none ∧ y.tries = [] ∧ (s.elapse dt).Plain ∧ (((y.recv :: y.senders).all fun e => ((s.elapse dt).thr e.fst e.snd).blocked.isNone) = true)) ∧
  (∃ (s : State) (dt : Nat) (p : Path) (x : Session) (q : TReq) (n : Nat) (y : Channel) (c : Nat) (h : Nat) (d : Nat),
    Issued (s.elapse dt) p x q 1857 1 ((s.elapse dt).chanPerm n) ∧ (s.elapse dt).chan? n = some y ∧ y.broken = false ∧ y.holder = none ∧ y.tries = [] ∧ (s.elapse dt).Plain ∧ y.recv = (c, h) ∧ ((s.elapse dt).thr c h).state = TState.waiting ∧ ((s.elapse dt).thr c h).blocked = some (Blocked.crecv n d) ∧ ((y.senders.all fun e => ((s.elapse dt).thr e.fst e.snd).blocked.isNone) = true)) ∧
  (∃ (s : State) (dt : Nat) (p : Path) (x : Session) (q : TReq) (n : Nat) (y : Channel) (c : Nat) (h : Nat) (d : Nat),
    Issued (s.elapse dt) p x q 1857 1 ((s.elapse dt).chanPerm n) ∧ (s.elapse dt).chan? n = some y ∧ y.broken = false ∧ y.holder = none ∧ y.tries = [] ∧ (s.elapse dt).Plain ∧ y.senders = [(c, h)] ∧ ((s.elapse dt).thr c h).state = TState.waiting ∧ ((s.elapse dt).thr c h).blocked = some (Blocked.cbegin n d) ∧ ((s.elapse dt).thr y.recv.fst y.recv.snd).blocked = none ∧ y.ready = []) ∧
  (∃ (s : State) (dt : Nat) (p : Path) (x : Session) (q : TReq) (n : Nat),
    Issued (s.elapse dt) p x q 1858 1 ((s.elapse dt).chanPerm n) ∧ (s.elapse dt).chan? n = none) ∧
  (∃ (s : State) (dt : Nat) (p : Path) (x : Session) (q : TReq) (n : Nat) (y : Channel),
    Issued (s.elapse dt) p x q 1858 1 ((s.elapse dt).chanPerm n) ∧ (s.elapse dt).chan? n = some y ∧ y.holder = none) ∧
  (∃ (s : State) (dt : Nat) (p : Path) (x : Session) (q : TReq) (n : Nat) (y : Channel) (c : Nat) (h : Nat),
    Issued (s.elapse dt) p x q 1858 1 ((s.elapse dt).chanPerm n) ∧ (s.elapse dt).chan? n = some y ∧ y.holder = some (c, h) ∧ (s.elapse dt).Plain ∧ y.tries = [] ∧ ((y.senders.all fun e => match ((s.elapse dt).thr e.fst e.snd).blocked with | some (Blocked.cbegin chan rd) => false | x => true) = true)) ∧
  (∃ (s : State) (dt : Nat) (p : Path) (x : Session) (q : TReq) (n : Nat) (y : Channel),
    Issued (s.elapse dt) p x q 1859 1 ((s.elapse dt).chanPerm n) ∧ (s.elapse dt).chan? n = some y ∧ y.holder = none) ∧
  (∃ (s : State) (dt : Nat) (p : Path) (x : Session) (q : TReq) (n : Nat) (y : Channel) (c : Nat) (h : Nat),
    Issued (s.elapse dt) p x q 1859 1 ((s.elapse dt).chanPerm n) ∧ (s.elapse dt).chan? n = some y ∧ y.holder = some (c, h)) ∧
  (∃ (s : State) (dt : Nat) (p : Path) (x : Session) (q : TReq) (ls : List (Nat × Nat)),
    Issued (s.elapse dt) p x q 1860 32 Perm.any ∧ (rangesOk 4096 ls = false ∨ ¬∀ (y : Nat × Channel), y ∈ s.cores.chans → inRange (ls.getD y.snd.dom (0, 0)) y.fst = true)) ∧
  (∃ (s : State) (dt : Nat) (p : Path) (x : Session) (q : TReq) (ls : List (Nat × Nat)),
    Issued (s.elapse dt) p x q 1860 32 Perm.any ∧ rangesOk 4096 ls = true ∧ (∀ (y : Nat × Channel), y ∈ s.cores.chans → inRange (ls.getD y.snd.dom (0, 0)) y.fst = true)) ∧
  (∃ (s : State) (dt : Nat),
    (s.elapse dt).Settled ∧ (∀ (y : Nat × Channel), y ∈ s.cores.chans → ¬(y.snd.holder.isSome = true ∧ y.snd.told = false ∧ y.snd.since + ns 1000000 ≤ (s.elapse dt).now))) ∧
  (∃ (s : State) (dt : Nat) (n : Nat) (y : Channel),
    (s.elapse dt).Settled ∧ (s.elapse dt).chan? n = some y ∧ (y.holder.isSome = true ∧ y.told = false ∧ y.since + ns 1000000 ≤ (s.elapse dt).now) ∧ (∀ (z : Nat × Channel), z ∈ s.cores.chans → z.fst = n ∨ ¬(z.snd.holder.isSome = true ∧ z.snd.told = false ∧ z.snd.since + ns 1000000 ≤ (s.elapse dt).now)) ∧ ((List.map (fun z => z.fst) s.cores.chans).Nodup)) ∧
  (∃ (s : State) (dt : Nat),
    (s.elapse dt).Settled ∧ (∀ (f : Nat × Flow), f ∈ s.rm.flows → ¬(f.snd.hand.isSome = true ∧ f.snd.told = false ∧ f.snd.markedAt + grid 20 ≤ (s.elapse dt).now))) ∧
  (∃ (s : State) (dt : Nat) (n : Nat) (f : Flow),
    (s.elapse dt).Settled ∧ tget? s.rm.flows n = some f ∧ (f.hand.isSome = true ∧ f.told = false ∧ f.markedAt + grid 20 ≤ (s.elapse dt).now) ∧ (∀ (z : Nat × Flow), z ∈ s.rm.flows → z.fst = n ∨ ¬(z.snd.hand.isSome = true ∧ z.snd.told = false ∧ z.snd.markedAt + grid 20 ≤ (s.elapse dt).now)) ∧ ((List.map (fun z => z.fst) s.rm.flows).Nodup)) :=
  ⟨⟨(ask (linked .service) 0x0740 8), 3, (.mp 1), (sess 0x0740 8), (req 0x0740 8), 3, 1, 2, 64, 65, [(5,0)],
      issued_of (by decide +kernel), by decide +kernel⟩,
    ⟨(ask (ch {} chS) 0x0740 8), 3, (.mp 1), (sess 0x0740 8), (req 0x0740 8), 3, 1, 2, 64, 64, [(5,0)],
      issued_of (by decide +kernel), by decide +kernel⟩,
    ⟨(ask (linked .service) 0x0740 8), 3, (.mp 1), (sess 0x0740 8), (req 0x0740 8), 3, 1, 2, 64, 64, [(96,0)], 0,
      issued_of (by decide +kernel), by decide +kernel⟩,
    ⟨(ask ({ linked .service with cores.chans := [(4, chS)] }) 0x0740 8), 3, (.mp 1), (sess 0x0740 8), (req 0x0740 8), 3, 5, 2, 56, 2, [(1,0)], 0,
      issued_of (by decide +kernel), by decide +kernel⟩,
    ⟨(ask ({ linked .service with cores.chans := [(4, chS)] }) 0x0740 8), 3, (.mp 1), (sess 0x0740 8), (req 0x0740 8), 3, 5, 2, 208, 2, [(95,7)], 0,
      issued_of (by decide +kernel), by decide +kernel⟩,
    ⟨(ask (linked .service) 0x0741 1), 3, (.mp 1), (sess 0x0741 1), (req 0x0741 1), 3,
      issued_of (by decide +kernel), by decide +kernel⟩,
    ⟨(ask (ch {} { chS with broken := true }) 0x0741 1), 3, (.mp 1), (sess 0x0741 1), (req 0x0741 1), 3, { chS with broken := true },
      issued_of (by decide +kernel), by decide +kernel⟩,
    ⟨(ask (ch {} { chS with ready := [1] }) 0x0741 1), 3, (.mp 1), (sess 0x0741 1), (req 0x0741 1), 3, { chS with ready := [1] },
      issued_of (by decide +kernel), by decide +kernel, by decide +kernel, by decide +kernel, by decide +kernel, plain_of (by decide +kernel), by decide +kernel⟩,
    ⟨(ask (ch { state := .waiting, blocked := some (.crecv 3 9) } { chS with recv := (1, 2), senders := [(5, 0)], ready := [] }) 0x0741 1), 3, (.mp 1), (sess 0x0741 1), (req 0x0741 1), 3, { chS with recv := (1, 2), senders := [(5, 0)], ready := [] }, 1, 2, 9,
      issued_of (by decide +kernel), by decide +kernel, by decide +kernel, by decide +kernel, by decide +kernel, plain_of (by decide +kernel), by decide +kernel⟩,
    ⟨(ask (ch { state := .waiting, blocked := some (.cbegin 3 9) } { chS with senders := [(1, 2)] }) 0x0741 1), 3, (.mp 1), (sess 0x0741 1), (req 0x0741 1), 3, { chS with senders := [(1, 2)] }, 1, 2, 9,
      issued_of (by decide +kernel), by decide +kernel, by decide +kernel, by decide +kernel, by decide +kernel, plain_of (by decide +kernel), by decide +kernel⟩,
    ⟨(ask (linked .service) 0x0742 1), 3, (.mp 1), (sess 0x0742 1), (req 0x0742 1), 3,
      issued_of (by decide +kernel), by decide +kernel⟩,
    ⟨(ask (ch {} chS) 0x0742 1), 3, (.mp 1), (sess 0x0742 1), (req 0x0742 1), 3, chS,
      issued_of (by decide +kernel), by decide +kernel⟩,
    ⟨(ask (ch { slot := some 3 } { chS with holder := some (1, 2), staged := [4] }) 0x0742 1), 3, (.mp 1), (sess 0x0742 1), (req 0x0742 1), 3, { chS with holder := some (1, 2), staged := [4] }, 1, 2,
      issued_of (by decide +kernel), by decide +kernel, by decide +kernel, plain_of (by decide +kernel), by decide +kernel⟩,
    ⟨(ask (ch {} { chS with ready := [1] }) 0x0743 1), 3, (.mp 1), (sess 0x0743 1), (req 0x0743 1), 3, { chS with ready := [1] },
      issued_of (by decide +kernel), by decide +kernel⟩,
    ⟨(ask (ch {} { chS with holder := some (1, 2) }) 0x0743 1), 3, (.mp 1), (sess 0x0743 1), (req 0x0743 1), 3, { chS with holder := some (1, 2) }, 1, 2,
      issued_of (by decide +kernel), by decide +kernel⟩,
    ⟨(ask (ch {} chS) 0x0744 32), 3, (.mp 1), (sess 0x0744 32), (req 0x0744 32), ([(0, 5), (4, 1)] ++ List.replicate 14 (0,0)),
      issued_of (by decide +kernel), by decide +kernel⟩,
    ⟨(ask ({ ch {} chS with cores.gone := [(5, chS)] }) 0x0744 32), 3, (.mp 1), (sess 0x0744 32), (req 0x0744 32), ([(0, 4), (4, 1)] ++ List.replicate 14 (0,0)),
      issued_of (by decide +kernel), by decide +kernel⟩,
    ⟨(ch {} { chS with holder := some (1, 2) }), (ns 1000000 - 1),
      settled_of (by decide +kernel), by decide +kernel⟩,
    ⟨{ linked .service with cores.chans := [(3, { chS with holder := some (1, 2) }), (4, { chS with holder := some (5, 1), since := 9 })] }, (ns 1000000), 3, { chS with holder := some (1, 2) },
      settled_of (by decide +kernel), by decide +kernel⟩,
    ⟨{ linked .service with rm.flows := [(3, { hand := some (1, 2) })] }, (grid 20 - 1),
      settled_of (by decide +kernel), by decide +kernel⟩,
    ⟨{ linked .service with rm.flows := [(3, { hand := some (1, 2) }), (4, {})] }, (grid 20), 3, { hand := some (1, 2) },
      settled_of (by decide +kernel), by decide +kernel⟩⟩

set_option Elab.async false
set_option maxRecDepth 4000
/-- The premises of `Obligations.RingsAndDoorbells`, clause by clause, are met. -/
theorem witness_RingsAndDoorbells :
  (∃ (s : State) (dt : Nat) (fn : Nat) (w : Nat),
    (s.elapse dt).Plain ∧ ((s.elapse dt).barOpen fn = false ∨ w ≠ 4 ∧ w ≠ 8)) ∧
  (∃ (s : State) (dt : Nat) (fn : Nat) (n : Nat) (w : Nat) (v : Nat),
    (s.elapse dt).Plain ∧ (s.elapse dt).barOpen fn = true ∧ (w = 4 ∨ w = 8) ∧ (v ≠ n ∨ ((s.elapse dt).ring (rkey fn n)).enable = false ∨ (s.fn fn).halted = true ∧ (((s.elapse dt).ring (rkey fn n)).kind < 2 ∨ ((s.elapse dt).ring (rkey fn n)).sump = []) ∨ (s.pfn fn).frozen = true)) ∧
  (∃ (s : State) (dt : Nat) (fn : Nat) (n : Nat) (w : Nat) (v : Nat),
    (s.elapse dt).Plain ∧ (s.elapse dt).barOpen fn = true ∧ (w = 4 ∨ w = 8) ∧ (¬(v ≠ n ∨ ((s.elapse dt).ring (rkey fn n)).enable = false ∨ (s.fn fn).halted = true ∧ (((s.elapse dt).ring (rkey fn n)).kind < 2 ∨ ((s.elapse dt).ring (rkey fn n)).sump = []) ∨ (s.pfn fn).frozen = true)) ∧ (s.glb.mode = Mode.drain ∧ ((s.elapse dt).ring (rkey fn n)).kind < 2 ∧ (((s.elapse dt).ring (rkey fn n)).engine ∈ [0, 2, 4] ∨ ((s.elapse dt).ring (rkey fn n)).engine = 3 ∧ (s.elapse dt).isSend (rkey fn n) = true))) ∧
  (∃ (s : State) (dt : Nat) (fn : Nat) (n : Nat) (w : Nat) (v : Nat),
    (s.elapse dt).Plain ∧ (s.elapse dt).barOpen fn = true ∧ (w = 4 ∨ w = 8) ∧ (¬(v ≠ n ∨ ((s.elapse dt).ring (rkey fn n)).enable = false ∨ (s.fn fn).halted = true ∧ (((s.elapse dt).ring (rkey fn n)).kind < 2 ∨ ((s.elapse dt).ring (rkey fn n)).sump = []) ∨ (s.pfn fn).frozen = true)) ∧ (¬(s.glb.mode = Mode.drain ∧ ((s.elapse dt).ring (rkey fn n)).kind < 2 ∧ (((s.elapse dt).ring (rkey fn n)).engine ∈ [0, 2, 4] ∨ ((s.elapse dt).ring (rkey fn n)).engine = 3 ∧ (s.elapse dt).isSend (rkey fn n) = true))) ∧ ((s.elapse dt).ring (rkey fn n)).reading = true) ∧
  (∃ (s : State) (dt : Nat) (fn : Nat) (n : Nat) (w : Nat) (v : Nat),
    (s.elapse dt).Plain ∧ (s.elapse dt).barOpen fn = true ∧ (w = 4 ∨ w = 8) ∧ (¬(v ≠ n ∨ ((s.elapse dt).ring (rkey fn n)).enable = false ∨ (s.fn fn).halted = true ∧ (((s.elapse dt).ring (rkey fn n)).kind < 2 ∨ ((s.elapse dt).ring (rkey fn n)).sump = []) ∨ (s.pfn fn).frozen = true)) ∧ (¬(s.glb.mode = Mode.drain ∧ ((s.elapse dt).ring (rkey fn n)).kind < 2 ∧ (((s.elapse dt).ring (rkey fn n)).engine ∈ [0, 2, 4] ∨ ((s.elapse dt).ring (rkey fn n)).engine = 3 ∧ (s.elapse dt).isSend (rkey fn n) = true))) ∧ ((s.elapse dt).ring (rkey fn n)).reading = false ∧ (s.elapse dt).mute fn = false ∧ fnOfKey (rkey fn n) = fn ∧ (s.elapse dt).waits fn = false ∧ (s.elapse dt).tagFree fn = true) ∧
  (∃ (s : State) (dt : Nat) (fn : Nat) (n : Nat) (w : Nat) (v : Nat),
    (s.elapse dt).Plain ∧ (s.elapse dt).barOpen fn = true ∧ (w = 4 ∨ w = 8) ∧ (¬(v ≠ n ∨ ((s.elapse dt).ring (rkey fn n)).enable = false ∨ (s.fn fn).halted = true ∧ (((s.elapse dt).ring (rkey fn n)).kind < 2 ∨ ((s.elapse dt).ring (rkey fn n)).sump = []) ∨ (s.pfn fn).frozen = true)) ∧ (¬(s.glb.mode = Mode.drain ∧ ((s.elapse dt).ring (rkey fn n)).kind < 2 ∧ (((s.elapse dt).ring (rkey fn n)).engine ∈ [0, 2, 4] ∨ ((s.elapse dt).ring (rkey fn n)).engine = 3 ∧ (s.elapse dt).isSend (rkey fn n) = true))) ∧ ((s.elapse dt).ring (rkey fn n)).reading = false ∧ (s.elapse dt).mute fn = false ∧ fnOfKey (rkey fn n) = fn ∧ ((s.elapse dt).waits fn = true ∨ (s.elapse dt).tagFree fn = false)) ∧
  (∃ (s : State) (dt : Nat) (fn : Nat),
    (s.elapse dt).Plain ∧ ((s.elapse dt).barOpen fn = false ∨ 0 < (s.elapse dt).ringsOn fun m _ => fnOfKey m == fn)) ∧
  (∃ (s : State) (dt : Nat) (fn : Nat),
    (s.elapse dt).Plain ∧ (s.elapse dt).barOpen fn = true ∧ (((s.elapse dt).ringsOn fun m _ => fnOfKey m == fn) = 0)) ∧
  (∃ (s : State) (dt : Nat) (fn : Nat) (n : Nat),
    (s.elapse dt).Plain ∧ ((s.elapse dt).barOpen fn = false ∨ ((s.elapse dt).ring (rkey fn n)).enable = true)) ∧
  (∃ (s : State) (dt : Nat) (fn : Nat) (n : Nat) (v : Nat),
    (s.elapse dt).Plain ∧ (s.elapse dt).barOpen fn = true ∧ ((s.elapse dt).ring (rkey fn n)).enable = false ∧ v.testBit 0 = false) ∧
  (∃ (s : State) (dt : Nat) (fn : Nat) (n : Nat) (v : Nat),
    (s.elapse dt).Plain ∧ (s.elapse dt).barOpen fn = true ∧ ((s.elapse dt).ring (rkey fn n)).enable = false ∧ v.testBit 0 = true ∧ (((s.elapse dt).ringFn (fnOfKey (rkey fn n))).agreed = 0 ∨ ({ (s.elapse dt).ring (rkey fn n) with kind := bits v 2 1, log2 := if 4 ≤ bits v 7 3 ∧ bits v 7 3 ≤ 16 then bits v 7 3 else ((s.elapse dt).ring (rkey fn n)).log2, engine := if bits v 11 8 ≤ 7 then bits v 11 8 else ((s.elapse dt).ring (rkey fn n)).engine, rcEvery := v.testBit 12, cq := bits v 25 16 } : Ring).log2 < 4 ∨ 16 < ({ (s.elapse dt).ring (rkey fn n) with kind := bits v 2 1, log2 := if 4 ≤ bits v 7 3 ∧ bits v 7 3 ≤ 16 then bits v 7 3 else ((s.elapse dt).ring (rkey fn n)).log2, engine := if bits v 11 8 ≤ 7 then bits v 11 8 else ((s.elapse dt).ring (rkey fn n)).engine, rcEvery := v.testBit 12, cq := bits v 25 16 } : Ring).log2 ∨ (((s.elapse dt).ringQuota ((s.elapse dt).fnDom (fnOfKey (rkey fn n)))).fst ≤ (s.elapse dt).ringsOn fun m x => (s.elapse dt).fnDom (fnOfKey m) == (s.elapse dt).fnDom (fnOfKey (rkey fn n)) && true) ∨ (1024 ≤ (s.elapse dt).ringsOn fun m _ => fnOfKey m == fnOfKey (rkey fn n)) ∨ 2 ≤ ({ (s.elapse dt).ring (rkey fn n) with kind := bits v 2 1, log2 := if 4 ≤ bits v 7 3 ∧ bits v 7 3 ≤ 16 then bits v 7 3 else ((s.elapse dt).ring (rkey fn n)).log2, engine := if bits v 11 8 ≤ 7 then bits v 11 8 else ((s.elapse dt).ring (rkey fn n)).engine, rcEvery := v.testBit 12, cq := bits v 25 16 } : Ring).kind ∧ ((if isVf (fnOfKey (rkey fn n)) = true then 64 else 2048) ≤ ({ (s.elapse dt).ring (rkey fn n) with kind := bits v 2 1, log2 := if 4 ≤ bits v 7 3 ∧ bits v 7 3 ≤ 16 then bits v 7 3 else ((s.elapse dt).ring (rkey fn n)).log2, engine := if bits v 11 8 ≤ 7 then bits v 11 8 else ((s.elapse dt).ring (rkey fn n)).engine, rcEvery := v.testBit 12, cq := bits v 25 16 } : Ring).vector ∨ ((s.elapse dt).ringQuota ((s.elapse dt).fnDom (fnOfKey (rkey fn n)))).snd ≤ (s.elapse dt).ringsOn fun m x => (s.elapse dt).fnDom (fnOfKey m) == (s.elapse dt).fnDom (fnOfKey (rkey fn n)) && decide (2 ≤ x.kind)) ∨ ({ (s.elapse dt).ring (rkey fn n) with kind := bits v 2 1, log2 := if 4 ≤ bits v 7 3 ∧ bits v 7 3 ≤ 16 then bits v 7 3 else ((s.elapse dt).ring (rkey fn n)).log2, engine := if bits v 11 8 ≤ 7 then bits v 11 8 else ((s.elapse dt).ring (rkey fn n)).engine, rcEvery := v.testBit 12, cq := bits v 25 16 } : Ring).kind < 2 ∧ (((s.elapse dt).ring (rkey (fnOfKey (rkey fn n)) ({ (s.elapse dt).ring (rkey fn n) with kind := bits v 2 1, log2 := if 4 ≤ bits v 7 3 ∧ bits v 7 3 ≤ 16 then bits v 7 3 else ((s.elapse dt).ring (rkey fn n)).log2, engine := if bits v 11 8 ≤ 7 then bits v 11 8 else ((s.elapse dt).ring (rkey fn n)).engine, rcEvery := v.testBit 12, cq := bits v 25 16 } : Ring).cq)).enable = false ∨ (((s.elapse dt).ring (rkey (fnOfKey (rkey fn n)) ({ (s.elapse dt).ring (rkey fn n) with kind := bits v 2 1, log2 := if 4 ≤ bits v 7 3 ∧ bits v 7 3 ≤ 16 then bits v 7 3 else ((s.elapse dt).ring (rkey fn n)).log2, engine := if bits v 11 8 ≤ 7 then bits v 11 8 else ((s.elapse dt).ring (rkey fn n)).engine, rcEvery := v.testBit 12, cq := bits v 25 16 } : Ring).cq)).kind ≠ if ({ (s.elapse dt).ring (rkey fn n) with kind := bits v 2 1, log2 := if 4 ≤ bits v 7 3 ∧ bits v 7 3 ≤ 16 then bits v 7 3 else ((s.elapse dt).ring (rkey fn n)).log2, engine := if bits v 11 8 ≤ 7 then bits v 11 8 else ((s.elapse dt).ring (rkey fn n)).engine, rcEvery := v.testBit 12, cq := bits v 25 16 } : Ring).engine = 5 ∨ ({ (s.elapse dt).ring (rkey fn n) with kind := bits v 2 1, log2 := if 4 ≤ bits v 7 3 ∧ bits v 7 3 ≤ 16 then bits v 7 3 else ((s.elapse dt).ring (rkey fn n)).log2, engine := if bits v 11 8 ≤ 7 then bits v 11 8 else ((s.elapse dt).ring (rkey fn n)).engine, rcEvery := v.testBit 12, cq := bits v 25 16 } : Ring).engine = 6 then 3 else 2) ∨ Option.any (fun o => ((s.elapse dt).attach ((s.elapse dt).fnDom (fnOfKey (rkey fn n))) o).isNone) (engineRole ({ (s.elapse dt).ring (rkey fn n) with kind := bits v 2 1, log2 := if 4 ≤ bits v 7 3 ∧ bits v 7 3 ≤ 16 then bits v 7 3 else ((s.elapse dt).ring (rkey fn n)).log2, engine := if bits v 11 8 ≤ 7 then bits v 11 8 else ((s.elapse dt).ring (rkey fn n)).engine, rcEvery := v.testBit 12, cq := bits v 25 16 } : Ring).engine) = true ∨ ({ (s.elapse dt).ring (rkey fn n) with kind := bits v 2 1, log2 := if 4 ≤ bits v 7 3 ∧ bits v 7 3 ≤ 16 then bits v 7 3 else ((s.elapse dt).ring (rkey fn n)).log2, engine := if bits v 11 8 ≤ 7 then bits v 11 8 else ((s.elapse dt).ring (rkey fn n)).engine, rcEvery := v.testBit 12, cq := bits v 25 16 } : Ring).engine ∈ [6, 7] ∧ fnOfKey (rkey fn n) ≠ (s.elapse dt).firstPf ((s.elapse dt).fnDom (fnOfKey (rkey fn n)))))) ∧
  (∃ (s : State) (dt : Nat) (fn : Nat) (n : Nat) (v : Nat),
    (s.elapse dt).Plain ∧ (s.elapse dt).barOpen fn = true ∧ ((s.elapse dt).ring (rkey fn n)).enable = false ∧ v.testBit 0 = true ∧ (¬(((s.elapse dt).ringFn (fnOfKey (rkey fn n))).agreed = 0 ∨ ({ (s.elapse dt).ring (rkey fn n) with kind := bits v 2 1, log2 := if 4 ≤ bits v 7 3 ∧ bits v 7 3 ≤ 16 then bits v 7 3 else ((s.elapse dt).ring (rkey fn n)).log2, engine := if bits v 11 8 ≤ 7 then bits v 11 8 else ((s.elapse dt).ring (rkey fn n)).engine, rcEvery := v.testBit 12, cq := bits v 25 16 } : Ring).log2 < 4 ∨ 16 < ({ (s.elapse dt).ring (rkey fn n) with kind := bits v 2 1, log2 := if 4 ≤ bits v 7 3 ∧ bits v 7 3 ≤ 16 then bits v 7 3 else ((s.elapse dt).ring (rkey fn n)).log2, engine := if bits v 11 8 ≤ 7 then bits v 11 8 else ((s.elapse dt).ring (rkey fn n)).engine, rcEvery := v.testBit 12, cq := bits v 25 16 } : Ring).log2 ∨ (((s.elapse dt).ringQuota ((s.elapse dt).fnDom (fnOfKey (rkey fn n)))).fst ≤ (s.elapse dt).ringsOn fun m x => (s.elapse dt).fnDom (fnOfKey m) == (s.elapse dt).fnDom (fnOfKey (rkey fn n)) && true) ∨ (1024 ≤ (s.elapse dt).ringsOn fun m _ => fnOfKey m == fnOfKey (rkey fn n)) ∨ 2 ≤ ({ (s.elapse dt).ring (rkey fn n) with kind := bits v 2 1, log2 := if 4 ≤ bits v 7 3 ∧ bits v 7 3 ≤ 16 then bits v 7 3 else ((s.elapse dt).ring (rkey fn n)).log2, engine := if bits v 11 8 ≤ 7 then bits v 11 8 else ((s.elapse dt).ring (rkey fn n)).engine, rcEvery := v.testBit 12, cq := bits v 25 16 } : Ring).kind ∧ ((if isVf (fnOfKey (rkey fn n)) = true then 64 else 2048) ≤ ({ (s.elapse dt).ring (rkey fn n) with kind := bits v 2 1, log2 := if 4 ≤ bits v 7 3 ∧ bits v 7 3 ≤ 16 then bits v 7 3 else ((s.elapse dt).ring (rkey fn n)).log2, engine := if bits v 11 8 ≤ 7 then bits v 11 8 else ((s.elapse dt).ring (rkey fn n)).engine, rcEvery := v.testBit 12, cq := bits v 25 16 } : Ring).vector ∨ ((s.elapse dt).ringQuota ((s.elapse dt).fnDom (fnOfKey (rkey fn n)))).snd ≤ (s.elapse dt).ringsOn fun m x => (s.elapse dt).fnDom (fnOfKey m) == (s.elapse dt).fnDom (fnOfKey (rkey fn n)) && decide (2 ≤ x.kind)) ∨ ({ (s.elapse dt).ring (rkey fn n) with kind := bits v 2 1, log2 := if 4 ≤ bits v 7 3 ∧ bits v 7 3 ≤ 16 then bits v 7 3 else ((s.elapse dt).ring (rkey fn n)).log2, engine := if bits v 11 8 ≤ 7 then bits v 11 8 else ((s.elapse dt).ring (rkey fn n)).engine, rcEvery := v.testBit 12, cq := bits v 25 16 } : Ring).kind < 2 ∧ (((s.elapse dt).ring (rkey (fnOfKey (rkey fn n)) ({ (s.elapse dt).ring (rkey fn n) with kind := bits v 2 1, log2 := if 4 ≤ bits v 7 3 ∧ bits v 7 3 ≤ 16 then bits v 7 3 else ((s.elapse dt).ring (rkey fn n)).log2, engine := if bits v 11 8 ≤ 7 then bits v 11 8 else ((s.elapse dt).ring (rkey fn n)).engine, rcEvery := v.testBit 12, cq := bits v 25 16 } : Ring).cq)).enable = false ∨ (((s.elapse dt).ring (rkey (fnOfKey (rkey fn n)) ({ (s.elapse dt).ring (rkey fn n) with kind := bits v 2 1, log2 := if 4 ≤ bits v 7 3 ∧ bits v 7 3 ≤ 16 then bits v 7 3 else ((s.elapse dt).ring (rkey fn n)).log2, engine := if bits v 11 8 ≤ 7 then bits v 11 8 else ((s.elapse dt).ring (rkey fn n)).engine, rcEvery := v.testBit 12, cq := bits v 25 16 } : Ring).cq)).kind ≠ if ({ (s.elapse dt).ring (rkey fn n) with kind := bits v 2 1, log2 := if 4 ≤ bits v 7 3 ∧ bits v 7 3 ≤ 16 then bits v 7 3 else ((s.elapse dt).ring (rkey fn n)).log2, engine := if bits v 11 8 ≤ 7 then bits v 11 8 else ((s.elapse dt).ring (rkey fn n)).engine, rcEvery := v.testBit 12, cq := bits v 25 16 } : Ring).engine = 5 ∨ ({ (s.elapse dt).ring (rkey fn n) with kind := bits v 2 1, log2 := if 4 ≤ bits v 7 3 ∧ bits v 7 3 ≤ 16 then bits v 7 3 else ((s.elapse dt).ring (rkey fn n)).log2, engine := if bits v 11 8 ≤ 7 then bits v 11 8 else ((s.elapse dt).ring (rkey fn n)).engine, rcEvery := v.testBit 12, cq := bits v 25 16 } : Ring).engine = 6 then 3 else 2) ∨ Option.any (fun o => ((s.elapse dt).attach ((s.elapse dt).fnDom (fnOfKey (rkey fn n))) o).isNone) (engineRole ({ (s.elapse dt).ring (rkey fn n) with kind := bits v 2 1, log2 := if 4 ≤ bits v 7 3 ∧ bits v 7 3 ≤ 16 then bits v 7 3 else ((s.elapse dt).ring (rkey fn n)).log2, engine := if bits v 11 8 ≤ 7 then bits v 11 8 else ((s.elapse dt).ring (rkey fn n)).engine, rcEvery := v.testBit 12, cq := bits v 25 16 } : Ring).engine) = true ∨ ({ (s.elapse dt).ring (rkey fn n) with kind := bits v 2 1, log2 := if 4 ≤ bits v 7 3 ∧ bits v 7 3 ≤ 16 then bits v 7 3 else ((s.elapse dt).ring (rkey fn n)).log2, engine := if bits v 11 8 ≤ 7 then bits v 11 8 else ((s.elapse dt).ring (rkey fn n)).engine, rcEvery := v.testBit 12, cq := bits v 25 16 } : Ring).engine ∈ [6, 7] ∧ fnOfKey (rkey fn n) ≠ (s.elapse dt).firstPf ((s.elapse dt).fnDom (fnOfKey (rkey fn n)))))) ∧ (({ (s.elapse dt).ring (rkey fn n) with kind := bits v 2 1, log2 := if 4 ≤ bits v 7 3 ∧ bits v 7 3 ≤ 16 then bits v 7 3 else ((s.elapse dt).ring (rkey fn n)).log2, engine := if bits v 11 8 ≤ 7 then bits v 11 8 else ((s.elapse dt).ring (rkey fn n)).engine, rcEvery := v.testBit 12, cq := bits v 25 16 } : Ring).engine ≠ 4 ∨ 2 ≤ ({ (s.elapse dt).ring (rkey fn n) with kind := bits v 2 1, log2 := if 4 ≤ bits v 7 3 ∧ bits v 7 3 ≤ 16 then bits v 7 3 else ((s.elapse dt).ring (rkey fn n)).log2, engine := if bits v 11 8 ≤ 7 then bits v 11 8 else ((s.elapse dt).ring (rkey fn n)).engine, rcEvery := v.testBit 12, cq := bits v 25 16 } : Ring).kind)) ∧
  (∃ (s : State) (dt : Nat) (fn : Nat) (n : Nat) (v : Nat),
    (s.elapse dt).Plain ∧ (s.elapse dt).barOpen fn = true ∧ ((s.elapse dt).ring (rkey fn n)).enable = false ∧ v.testBit 0 = true ∧ (({ (s.elapse dt).ring (rkey fn n) with kind := bits v 2 1, log2 := if 4 ≤ bits v 7 3 ∧ bits v 7 3 ≤ 16 then bits v 7 3 else ((s.elapse dt).ring (rkey fn n)).log2, engine := if bits v 11 8 ≤ 7 then bits v 11 8 else ((s.elapse dt).ring (rkey fn n)).engine, rcEvery := v.testBit 12, cq := bits v 25 16 } : Ring).engine = 4) ∧ (({ (s.elapse dt).ring (rkey fn n) with kind := bits v 2 1, log2 := if 4 ≤ bits v 7 3 ∧ bits v 7 3 ≤ 16 then bits v 7 3 else ((s.elapse dt).ring (rkey fn n)).log2, engine := if bits v 11 8 ≤ 7 then bits v 11 8 else ((s.elapse dt).ring (rkey fn n)).engine, rcEvery := v.testBit 12, cq := bits v 25 16 } : Ring).kind < 2) ∧ ((s.elapse dt).ringValid (rkey fn n) ({ (s.elapse dt).ring (rkey fn n) with kind := bits v 2 1, log2 := if 4 ≤ bits v 7 3 ∧ bits v 7 3 ≤ 16 then bits v 7 3 else ((s.elapse dt).ring (rkey fn n)).log2, engine := if bits v 11 8 ≤ 7 then bits v 11 8 else ((s.elapse dt).ring (rkey fn n)).engine, rcEvery := v.testBit 12, cq := bits v 25 16 } : Ring) = false)) ∧
  (∃ (s : State) (dt : Nat) (fn : Nat) (n : Nat) (v : Nat),
    (s.elapse dt).Plain ∧ (s.elapse dt).barOpen fn = true ∧ ((s.elapse dt).ring (rkey fn n)).enable = false ∧ v.testBit 0 = true ∧ (({ (s.elapse dt).ring (rkey fn n) with kind := bits v 2 1, log2 := if 4 ≤ bits v 7 3 ∧ bits v 7 3 ≤ 16 then bits v 7 3 else ((s.elapse dt).ring (rkey fn n)).log2, engine := if bits v 11 8 ≤ 7 then bits v 11 8 else ((s.elapse dt).ring (rkey fn n)).engine, rcEvery := v.testBit 12, cq := bits v 25 16 } : Ring).engine = 4) ∧ (({ (s.elapse dt).ring (rkey fn n) with kind := bits v 2 1, log2 := if 4 ≤ bits v 7 3 ∧ bits v 7 3 ≤ 16 then bits v 7 3 else ((s.elapse dt).ring (rkey fn n)).log2, engine := if bits v 11 8 ≤ 7 then bits v 11 8 else ((s.elapse dt).ring (rkey fn n)).engine, rcEvery := v.testBit 12, cq := bits v 25 16 } : Ring).kind < 2) ∧ ((s.elapse dt).ringValid (rkey fn n) ({ (s.elapse dt).ring (rkey fn n) with kind := bits v 2 1, log2 := if 4 ≤ bits v 7 3 ∧ bits v 7 3 ≤ 16 then bits v 7 3 else ((s.elapse dt).ring (rkey fn n)).log2, engine := if bits v 11 8 ≤ 7 then bits v 11 8 else ((s.elapse dt).ring (rkey fn n)).engine, rcEvery := v.testBit 12, cq := bits v 25 16 } : Ring) = true)) ∧
  (∃ (s : State) (dt : Nat) (fn : Nat) (n : Nat),
    (s.elapse dt).Plain ∧ (List.find? (fun x => x.what == 0 && x.ring == rkey fn n && !x.dead) (s.elapse dt).pcie.reads = none)) ∧
  (∃ (s : State) (dt : Nat) (fn : Nat) (n : Nat),
    (s.elapse dt).Plain ∧ (List.find? (fun x => x.what == 1 && x.ring == rkey fn n && !x.dead) (s.elapse dt).pcie.reads = none)) ∧
  (∃ (s : State) (dt : Nat) (fn : Nat) (n : Nat) (v : Nat) (h : HRead),
    (s.elapse dt).Plain ∧ v < 2 ^ 32 ∧ (s.elapse dt).pcie.reads = [h] ∧ h.what = 0 ∧ h.ring = rkey fn n ∧ h.dead = false ∧ h.len = 4 ∧ h.got = [] ∧ (s.elapse dt).pcie.held = [] ∧ fnOfKey (rkey fn n) = fn ∧ ((s.elapse dt).ring (rkey fn n)).kind < 2 ∧ (v + 2 ^ 32 - ((s.elapse dt).ring (rkey fn n)).done) % 2 ^ 32 ≤ ((s.elapse dt).ring (rkey fn n)).entries ∧ ((s.elapse dt).ring (rkey fn n)).again = false) ∧
  (∃ (s : State) (dt : Nat) (fn : Nat) (n : Nat) (v : Nat) (h : HRead),
    (s.elapse dt).Plain ∧ v < 2 ^ 32 ∧ (s.elapse dt).pcie.reads = [h] ∧ h.what = 0 ∧ h.ring = rkey fn n ∧ h.dead = false ∧ h.len = 4 ∧ h.got = [] ∧ (s.elapse dt).pcie.held = [] ∧ fnOfKey (rkey fn n) = fn ∧ ((s.elapse dt).ring (rkey fn n)).kind < 2 ∧ (v + 2 ^ 32 - ((s.elapse dt).ring (rkey fn n)).done) % 2 ^ 32 ≤ ((s.elapse dt).ring (rkey fn n)).entries ∧ ((s.elapse dt).ring (rkey fn n)).again = true ∧ ((s.elapse dt).ring (rkey fn n)).enable = true ∧ (s.elapse dt).mute fn = false) ∧
  (∃ (s : State) (dt : Nat) (fn : Nat) (n : Nat) (v : Nat) (h : HRead),
    (s.elapse dt).Plain ∧ v < 2 ^ 32 ∧ (s.elapse dt).pcie.reads = [h] ∧ h.what = 0 ∧ h.ring = rkey fn n ∧ h.dead = false ∧ h.len = 4 ∧ h.got = [] ∧ (s.elapse dt).pcie.held = [] ∧ fnOfKey (rkey fn n) = fn ∧ ((s.elapse dt).ring (rkey fn n)).kind < 2 ∧ ((s.elapse dt).ring (rkey fn n)).again = false ∧ ((s.elapse dt).ring (rkey fn n)).entries < (v + 2 ^ 32 - ((s.elapse dt).ring (rkey fn n)).done) % 2 ^ 32 ∧ (s.elapse dt).fnDom fn ≠ 0 ∧ (s.fn fn).halted = false) ∧
  (∃ (s : State) (dt : Nat) (fn : Nat) (n : Nat) (v : Nat) (h : HRead),
    (s.elapse dt).Plain ∧ v < 2 ^ 32 ∧ (s.elapse dt).pcie.reads = [h] ∧ h.what = 0 ∧ h.ring = rkey fn n ∧ h.dead = false ∧ h.len = 4 ∧ h.got = [] ∧ (s.elapse dt).pcie.held = [] ∧ fnOfKey (rkey fn n) = fn ∧ ((s.elapse dt).ring (rkey fn n)).kind < 2 ∧ ((s.elapse dt).ring (rkey fn n)).again = false ∧ ((s.elapse dt).ring (rkey fn n)).entries < (v + 2 ^ 32 - ((s.elapse dt).ring (rkey fn n)).done) % 2 ^ 32 ∧ (s.elapse dt).fnDom fn = 0 ∧ s.glb.mode ≠ Mode.lockdown) ∧
  (∃ (s : State) (dt : Nat) (fn : Nat) (n : Nat) (v : Nat) (h : HRead),
    (s.elapse dt).Plain ∧ v < 2 ^ 32 ∧ (s.elapse dt).pcie.reads = [h] ∧ h.what = 0 ∧ h.ring = rkey fn n ∧ h.dead = false ∧ h.len = 4 ∧ h.got = [] ∧ (s.elapse dt).pcie.held = [] ∧ fnOfKey (rkey fn n) = fn ∧ ((s.elapse dt).ring (rkey fn n)).kind ≥ 2 ∧ ((s.elapse dt).ring (rkey fn n)).again = false ∧ (s.elapse dt).feeders (rkey fn n) = [] ∧ s.tosen.sessions = [] ∧ ((s.elapse dt).ring (rkey fn n)).sump = []) ∧
  (∃ (s : State) (dt : Nat) (fn : Nat) (n : Nat) (v : Nat) (h : HRead) (e : Comp) (more : List Comp),
    (s.elapse dt).Plain ∧ v < 2 ^ 32 ∧ (s.elapse dt).pcie.reads = [h] ∧ h.what = 0 ∧ h.ring = rkey fn n ∧ h.dead = false ∧ h.len = 4 ∧ h.got = [] ∧ (s.elapse dt).pcie.held = [] ∧ fnOfKey (rkey fn n) = fn ∧ ((s.elapse dt).ring (rkey fn n)).kind ≥ 2 ∧ ((s.elapse dt).ring (rkey fn n)).again = false ∧ (s.elapse dt).feeders (rkey fn n) = [] ∧ s.tosen.sessions = [] ∧ ((s.elapse dt).ring (rkey fn n)).sump = e :: more ∧ ((s.elapse dt).ring (rkey fn n)).entries ≤ (((s.elapse dt).ring (rkey fn n)).dev + 2 ^ 32 - v) % 2 ^ 32) ∧
  (∃ (s : State) (dt : Nat) (fn : Nat) (n : Nat) (v : Nat) (h : HRead) (e : Comp),
    (s.elapse dt).Plain ∧ v < 2 ^ 32 ∧ (s.elapse dt).pcie.reads = [h] ∧ h.what = 0 ∧ h.ring = rkey fn n ∧ h.dead = false ∧ h.len = 4 ∧ h.got = [] ∧ (s.elapse dt).pcie.held = [] ∧ fnOfKey (rkey fn n) = fn ∧ ((s.elapse dt).ring (rkey fn n)).kind ≥ 2 ∧ ((s.elapse dt).ring (rkey fn n)).again = false ∧ (s.elapse dt).feeders (rkey fn n) = [] ∧ s.tosen.sessions = [] ∧ ((s.elapse dt).ring (rkey fn n)).sump = [e] ∧ ((s.elapse dt).ring (rkey fn n)).late = [] ∧ (((s.elapse dt).ring (rkey fn n)).dev + 2 ^ 32 - v) % 2 ^ 32 < ((s.elapse dt).ring (rkey fn n)).entries ∧ e.src = none ∧ ((s.elapse dt).ring (rkey fn n)).mod = 0) ∧
  (∃ (s : State) (dt : Nat) (fn : Nat) (n : Nat) (b : Bytes) (h : HRead),
    (s.elapse dt).Plain ∧ List.length b = 32 ∧ (s.elapse dt).pcie.reads = [h] ∧ h.what = 1 ∧ h.ring = rkey fn n ∧ h.dead = false ∧ h.len = 32 ∧ h.got = [] ∧ (s.elapse dt).pcie.held = [] ∧ ((s.elapse dt).ring (rkey fn n)).kind < 2 ∧ ((s.elapse dt).ring (rkey fn n)).peek = [] ∧ ((s.elapse dt).ring (rkey fn n)).host = (((s.elapse dt).ring (rkey fn n)).dev + 1) % 2 ^ 32 ∧ fnOfKey (rkey fn n) = fn ∧ (s.elapse dt).mute fn = false ∧ (s.fn fn).halted = false ∧ s.glb.mode ≠ Mode.lockdown ∧ ((s.elapse dt).ring (rkey fn ((s.elapse dt).ring (rkey fn n)).cq)).sumpFull = true) ∧
  (∃ (s : State) (dt : Nat) (fn : Nat) (n : Nat) (b : Bytes) (h : HRead),
    (s.elapse dt).Plain ∧ List.length b = 32 ∧ (s.elapse dt).pcie.reads = [h] ∧ h.what = 1 ∧ h.ring = rkey fn n ∧ h.dead = false ∧ h.len = 32 ∧ h.got = [] ∧ (s.elapse dt).pcie.held = [] ∧ ((s.elapse dt).ring (rkey fn n)).kind < 2 ∧ ((s.elapse dt).ring (rkey fn n)).peek = [] ∧ ((s.elapse dt).ring (rkey fn n)).host = (((s.elapse dt).ring (rkey fn n)).dev + 1) % 2 ^ 32 ∧ fnOfKey (rkey fn n) = fn ∧ (s.elapse dt).mute fn = false ∧ (s.fn fn).halted = false ∧ s.glb.mode ≠ Mode.lockdown ∧ ((s.elapse dt).ring (rkey fn ((s.elapse dt).ring (rkey fn n)).cq)).sumpFull = false ∧ ((s.elapse dt).ring (rkey fn n)).engine = 0 ∧ ofLe (slice b 24 1) = 1 ∧ (ofLe (slice b 25 1)).testBit 5 = true) ∧
  (∃ (s : State) (dt : Nat) (fn : Nat) (n : Nat) (b : Bytes) (h : HRead),
    (s.elapse dt).Plain ∧ List.length b = 32 ∧ (s.elapse dt).pcie.reads = [h] ∧ h.what = 1 ∧ h.ring = rkey fn n ∧ h.dead = false ∧ h.len = 32 ∧ h.got = [] ∧ (s.elapse dt).pcie.held = [] ∧ ((s.elapse dt).ring (rkey fn n)).kind < 2 ∧ ((s.elapse dt).ring (rkey fn n)).peek = [] ∧ ((s.elapse dt).ring (rkey fn n)).host = (((s.elapse dt).ring (rkey fn n)).dev + 1) % 2 ^ 32 ∧ fnOfKey (rkey fn n) = fn ∧ (s.elapse dt).mute fn = false ∧ (s.fn fn).halted = false ∧ s.glb.mode ≠ Mode.lockdown ∧ ((s.elapse dt).ring (rkey fn ((s.elapse dt).ring (rkey fn n)).cq)).sumpFull = false ∧ ((s.elapse dt).ring (rkey fn n)).engine = 1 ∧ (s.elapse dt).fnDom fn ≠ 0 ∧ ofLe (slice b 24 1) ≠ 2) ∧
  (∃ (s : State) (dt : Nat) (fn : Nat) (n : Nat) (b : Bytes) (h : HRead),
    (s.elapse dt).Plain ∧ List.length b = 32 ∧ (s.elapse dt).pcie.reads = [h] ∧ h.what = 1 ∧ h.ring = rkey fn n ∧ h.dead = false ∧ h.len = 32 ∧ h.got = [] ∧ (s.elapse dt).pcie.held = [] ∧ ((s.elapse dt).ring (rkey fn n)).kind < 2 ∧ ((s.elapse dt).ring (rkey fn n)).peek = [] ∧ ((s.elapse dt).ring (rkey fn n)).host = (((s.elapse dt).ring (rkey fn n)).dev + 1) % 2 ^ 32 ∧ fnOfKey (rkey fn n) = fn ∧ (s.elapse dt).mute fn = false ∧ (s.fn fn).halted = false ∧ s.glb.mode ≠ Mode.lockdown ∧ ((s.elapse dt).ring (rkey fn ((s.elapse dt).ring (rkey fn n)).cq)).sumpFull = false ∧ ((s.elapse dt).ring (rkey fn n)).engine = 1 ∧ (s.elapse dt).fnDom fn ≠ 0 ∧ ¬ofLe (slice b 24 1) ≠ 2 ∧ (1 < ofLe (slice b 25 1) ∨ ofLe (slice b 8 8) ≠ 0 ∨ ofLe (slice b 26 2) ≠ 0 ∨ ofLe (slice b 30 1) ≠ 0)) ∧
  (∃ (s : State) (dt : Nat) (fn : Nat) (n : Nat) (b : Bytes) (h : HRead),
    (s.elapse dt).Plain ∧ List.length b = 32 ∧ (s.elapse dt).pcie.reads = [h] ∧ h.what = 1 ∧ h.ring = rkey fn n ∧ h.dead = false ∧ h.len = 32 ∧ h.got = [] ∧ (s.elapse dt).pcie.held = [] ∧ ((s.elapse dt).ring (rkey fn n)).kind < 2 ∧ ((s.elapse dt).ring (rkey fn n)).peek = [] ∧ ((s.elapse dt).ring (rkey fn n)).host = (((s.elapse dt).ring (rkey fn n)).dev + 1) % 2 ^ 32 ∧ fnOfKey (rkey fn n) = fn ∧ (s.elapse dt).mute fn = false ∧ (s.fn fn).halted = false ∧ s.glb.mode ≠ Mode.lockdown ∧ ((s.elapse dt).ring (rkey fn ((s.elapse dt).ring (rkey fn n)).cq)).sumpFull = false ∧ ((s.elapse dt).ring (rkey fn n)).engine = 1 ∧ (s.elapse dt).fnDom fn ≠ 0 ∧ ¬ofLe (slice b 24 1) ≠ 2 ∧ (¬(1 < ofLe (slice b 25 1) ∨ ofLe (slice b 8 8) ≠ 0 ∨ ofLe (slice b 26 2) ≠ 0 ∨ ofLe (slice b 30 1) ≠ 0)) ∧ (ofLe (slice b 20 4) < 256 ∨ 65536 < ofLe (slice b 20 4) ∨ ofLe (slice b 20 4) % 64 ≠ 0)) ∧
  (∃ (s : State) (dt : Nat) (fn : Nat) (n : Nat) (b : Bytes) (h : HRead),
    (s.elapse dt).Plain ∧ List.length b = 32 ∧ (s.elapse dt).pcie.reads = [h] ∧ h.what = 1 ∧ h.ring = rkey fn n ∧ h.dead = false ∧ h.len = 32 ∧ h.got = [] ∧ (s.elapse dt).pcie.held = [] ∧ ((s.elapse dt).ring (rkey fn n)).kind < 2 ∧ ((s.elapse dt).ring (rkey fn n)).peek = [] ∧ ((s.elapse dt).ring (rkey fn n)).host = (((s.elapse dt).ring (rkey fn n)).dev + 1) % 2 ^ 32 ∧ fnOfKey (rkey fn n) = fn ∧ (s.elapse dt).mute fn = false ∧ (s.fn fn).halted = false ∧ s.glb.mode ≠ Mode.lockdown ∧ ((s.elapse dt).ring (rkey fn ((s.elapse dt).ring (rkey fn n)).cq)).sumpFull = false ∧ ((s.elapse dt).ring (rkey fn n)).engine = 1 ∧ (s.elapse dt).fnDom fn ≠ 0 ∧ ¬ofLe (slice b 24 1) ≠ 2 ∧ (¬(1 < ofLe (slice b 25 1) ∨ ofLe (slice b 8 8) ≠ 0 ∨ ofLe (slice b 26 2) ≠ 0 ∨ ofLe (slice b 30 1) ≠ 0)) ∧ (¬(ofLe (slice b 20 4) < 256 ∨ 65536 < ofLe (slice b 20 4) ∨ ofLe (slice b 20 4) % 64 ≠ 0)) ∧ (ofLe (slice b 0 8) = 0 ∨ ofLe (slice b 0 8) % 64 ≠ 0)) ∧
  (∃ (s : State) (dt : Nat) (fn : Nat) (n : Nat) (b : Bytes) (h : HRead),
    (s.elapse dt).Plain ∧ List.length b = 32 ∧ (s.elapse dt).pcie.reads = [h] ∧ h.what = 1 ∧ h.ring = rkey fn n ∧ h.dead = false ∧ h.len = 32 ∧ h.got = [] ∧ (s.elapse dt).pcie.held = [] ∧ ((s.elapse dt).ring (rkey fn n)).kind < 2 ∧ ((s.elapse dt).ring (rkey fn n)).peek = [] ∧ ((s.elapse dt).ring (rkey fn n)).host = (((s.elapse dt).ring (rkey fn n)).dev + 1) % 2 ^ 32 ∧ fnOfKey (rkey fn n) = fn ∧ (s.elapse dt).mute fn = false ∧ (s.fn fn).halted = false ∧ s.glb.mode ≠ Mode.lockdown ∧ ((s.elapse dt).ring (rkey fn ((s.elapse dt).ring (rkey fn n)).cq)).sumpFull = false ∧ ((s.elapse dt).ring (rkey fn n)).engine = 1 ∧ (s.elapse dt).fnDom fn = 0 ∧ (ofLe (slice b 24 1) ≠ 2 ∨ (1 < ofLe (slice b 25 1) ∨ ofLe (slice b 8 8) ≠ 0 ∨ ofLe (slice b 26 2) ≠ 0 ∨ ofLe (slice b 30 1) ≠ 0) ∨ (ofLe (slice b 20 4) < 256 ∨ 65536 < ofLe (slice b 20 4) ∨ ofLe (slice b 20 4) % 64 ≠ 0) ∨ ofLe (slice b 0 8) = 0 ∨ ofLe (slice b 0 8) % 64 ≠ 0)) ∧
  (∃ (s : State) (dt : Nat) (fn : Nat) (n : Nat) (b : Bytes) (h : HRead),
    (s.elapse dt).Plain ∧ List.length b = 32 ∧ (s.elapse dt).pcie.reads = [h] ∧ h.what = 1 ∧ h.ring = rkey fn n ∧ h.dead = false ∧ h.len = 32 ∧ h.got = [] ∧ (s.elapse dt).pcie.held = [] ∧ ((s.elapse dt).ring (rkey fn n)).kind < 2 ∧ ((s.elapse dt).ring (rkey fn n)).peek = [] ∧ ((s.elapse dt).ring (rkey fn n)).host = (((s.elapse dt).ring (rkey fn n)).dev + 1) % 2 ^ 32 ∧ fnOfKey (rkey fn n) = fn ∧ (s.elapse dt).mute fn = false ∧ (s.fn fn).halted = false ∧ s.glb.mode ≠ Mode.lockdown ∧ ((s.elapse dt).ring (rkey fn ((s.elapse dt).ring (rkey fn n)).cq)).sumpFull = false ∧ ((s.elapse dt).ring (rkey fn n)).engine = 1 ∧ ¬ofLe (slice b 24 1) ≠ 2 ∧ (¬(1 < ofLe (slice b 25 1) ∨ ofLe (slice b 8 8) ≠ 0 ∨ ofLe (slice b 26 2) ≠ 0 ∨ ofLe (slice b 30 1) ≠ 0)) ∧ (¬(ofLe (slice b 20 4) < 256 ∨ 65536 < ofLe (slice b 20 4) ∨ ofLe (slice b 20 4) % 64 ≠ 0)) ∧ (¬(ofLe (slice b 0 8) = 0 ∨ ofLe (slice b 0 8) % 64 ≠ 0)) ∧ s.tm.queues = [] ∧ s.tm.scheds = []) :=
  ⟨⟨(post1 {}), 3, 0, 2,
      plain_of (by decide +kernel), by decide +kernel⟩,
    ⟨(post1 {}), 3, 0, 3, 4, 4,
      plain_of (by decide +kernel), by decide +kernel⟩,
    ⟨{ post1 { engine := 2 } with glb.mode := .drain }, 3, 0, 3, 8, 3,
      plain_of (by decide +kernel), by decide +kernel⟩,
    ⟨(post1 { reading := true }), 3, 0, 3, 8, 3,
      plain_of (by decide +kernel), by decide +kernel⟩,
    ⟨(post1 { idxAddr := 0x1000, kind := 3 }), 3, 0, 3, 8, 3,
      plain_of (by decide +kernel), by decide +kernel⟩,
    ⟨{ post1 { idxAddr := 0x1000 } with pcie.fns := [(0, { mse := true })] }, 3, 0, 3, 8, 3,
      plain_of (by decide +kernel), by decide +kernel⟩,
    ⟨(post1 {}), 3, 0,
      plain_of (by decide +kernel), by decide +kernel⟩,
    ⟨(linked .service), 3, 0,
      plain_of (by decide +kernel), by decide +kernel⟩,
    ⟨(post1 {}), 3, 0, 3,
      plain_of (by decide +kernel), by decide +kernel⟩,
    ⟨(linked .service), 3, 0, 3, 6,
      plain_of (by decide +kernel), by decide +kernel⟩,
    ⟨(linked .service), 3, 0, 3, (1 + 4 + 4 * 8),
      plain_of (by decide +kernel), by decide +kernel⟩,
    ⟨{ linked .service with rings.fns := [(0, { agreed := 16 })] }, 3, 0, 3, (1 + 4 + 4 * 8),
      plain_of (by decide +kernel), by decide +kernel⟩,
    ⟨(linked .service), 3, 0, 3, (1 + 4 * 8 + 4 * 256),
      plain_of (by decide +kernel), by decide +kernel⟩,
    ⟨{ tenant .service with rings.fns := [(4096, { agreed := 20 })], rings.rings := [(rkey 4096 9, { enable := true, kind := 2 })] }, 3, 4096, 3, (1 + 4 * 8 + 4 * 256 + 9 * 65536),
      plain_of (by decide +kernel), by decide +kernel⟩,
    ⟨(post1 {}), 3, 0, 3,
      plain_of (by decide +kernel), by decide +kernel⟩,
    ⟨(post1 {}), 3, 0, 3,
      plain_of (by decide +kernel), by decide +kernel⟩,
    ⟨(idx { log2 := 4 } 0 4), 3, 0, 3, 16, (hr 0 4),
      plain_of (by decide +kernel), by decide +kernel⟩,
    ⟨(idx { log2 := 4, again := true, done := 2^32 - 1 } 0 4), 3, 0, 3, 15, (hr 0 4),
      plain_of (by decide +kernel), by decide +kernel⟩,
    ⟨{ mapped .service with rings.rings := [(rkey 4096 3, { enable := true, log2 := 4 })], pcie.reads := [{ hr 0 4 with fn := 4096, ring := rkey 4096 3 }] }, 3, 4096, 3, 17, { hr 0 4 with fn := 4096, ring := rkey 4096 3 },
      plain_of (by decide +kernel), by decide +kernel⟩,
    ⟨(idx { log2 := 4 } 0 4), 3, 0, 3, 17, (hr 0 4),
      plain_of (by decide +kernel), by decide +kernel⟩,
    ⟨(idx { kind := 2, log2 := 4, fullStop := true } 0 4), 3, 0, 3, 17, (hr 0 4),
      plain_of (by decide +kernel), by decide +kernel⟩,
    ⟨(idx { kind := 2, log2 := 4, fullStop := true, dev := 16, sump := [{ data := zeros 16 }] } 0 4), 3, 0, 3, 0, (hr 0 4), { data := zeros 16 }, [],
      plain_of (by decide +kernel), by decide +kernel⟩,
    ⟨(idx { kind := 2, log2 := 4, fullStop := true, dev := 16, sump := [{ data := zeros 16 }] } 0 4), 3, 0, 3, 1, (hr 0 4), { data := zeros 16 },
      plain_of (by decide +kernel), by decide +kernel⟩,
    ⟨{ idx { log2 := 4, engine := 1, host := 1, cq := 4 } 1 32 with rings.rings := [(rkey 0 3, { enable := true, log2 := 4, engine := 1, host := 1, cq := 4 }), (rkey 0 4, { sumpFull := true })] }, 3, 0, 3, rxDesc, (hr 1 32),
      plain_of (by decide +kernel), by decide +kernel⟩,
    ⟨(idx { log2 := 4, host := 1 } 1 32), 3, 0, 3, (zeros 24 ++ [1, 32] ++ zeros 6), (hr 1 32),
      plain_of (by decide +kernel), by decide +kernel⟩,
    ⟨(rx4096 1), 3, 4096, 3, (zeros 32), { hr 1 32 with fn := 4096, ring := rkey 4096 3 },
      plain_of (by decide +kernel), by decide +kernel⟩,
    ⟨(rx4096 1), 3, 4096, 3, (le 0x10000 8 ++ le 1 8 ++ le 9 4 ++ le 2048 4 ++ le 2 1 ++ zeros 7), { hr 1 32 with fn := 4096, ring := rkey 4096 3 },
      plain_of (by decide +kernel), by decide +kernel⟩,
    ⟨(rx4096 1), 3, 4096, 3, (le 0x10000 8 ++ le 0 8 ++ le 9 4 ++ le 2080 4 ++ le 2 1 ++ zeros 7), { hr 1 32 with fn := 4096, ring := rkey 4096 3 },
      plain_of (by decide +kernel), by decide +kernel⟩,
    ⟨(rx4096 1), 3, 4096, 3, (le 0x10020 8 ++ le 0 8 ++ le 9 4 ++ le 65536 4 ++ le 2 1 ++ zeros 7), { hr 1 32 with fn := 4096, ring := rkey 4096 3 },
      plain_of (by decide +kernel), by decide +kernel⟩,
    ⟨(idx { log2 := 4, engine := 1, host := 1 } 1 32), 3, 0, 3, (zeros 32), (hr 1 32),
      plain_of (by decide +kernel), by decide +kernel⟩,
    ⟨(idx { log2 := 4, engine := 1, host := 1 } 1 32), 3, 0, 3, rxDesc, (hr 1 32),
      plain_of (by decide +kernel), by decide +kernel⟩⟩

/-- The premises of `Obligations.QuotasModerationAndReset`, clause by clause, are met. -/
theorem witness_QuotasModerationAndReset :
  (∃ (s : State) (dt : Nat) (p : Path) (x : Session) (q : TReq) (rs : List Nat) (cs : List Nat),
    Issued (s.elapse dt) p x q 2368 32 Perm.any ∧ (65536 < rs.sum ∨ 2048 < cs.sum ∨ ∃ d, d ∈ List.range 16 ∧ ((nth rs d < (s.elapse dt).ringsOn fun m x => (s.elapse dt).fnDom (fnOfKey m) == d) ∨ nth cs d < (s.elapse dt).ringsOn fun m r => (s.elapse dt).fnDom (fnOfKey m) == d && decide (r.kind ≥ 2)))) ∧
  (∃ (s : State) (dt : Nat) (p : Path) (x : Session) (q : TReq) (rs : List Nat) (cs : List Nat),
    Issued (s.elapse dt) p x q 2368 32 Perm.any ∧ (¬(65536 < rs.sum ∨ 2048 < cs.sum ∨ ∃ d, d ∈ List.range 16 ∧ ((nth rs d < (s.elapse dt).ringsOn fun m x => (s.elapse dt).fnDom (fnOfKey m) == d) ∨ nth cs d < (s.elapse dt).ringsOn fun m r => (s.elapse dt).fnDom (fnOfKey m) == d && decide (r.kind ≥ 2))))) ∧
  (∃ (s : State) (dt : Nat) (p : Path) (x : Session) (q : TReq) (v : Nat),
    Issued (s.elapse dt) p x q 2369 1 (if v.testBit 24 = true then Perm.owner ((s.elapse dt).fnDom (v % 256 * 4096)) else Perm.owner 0) ∧ v < 2 ^ 25 ∧ (s.elapse dt).fnExists (fnOf v) = false) ∧
  (∃ (s : State) (dt : Nat) (p : Path) (x : Session) (q : TReq) (v : Nat),
    Issued (s.elapse dt) p x q 2369 1 (if v.testBit 24 = true then Perm.owner ((s.elapse dt).fnDom (v % 256 * 4096)) else Perm.owner 0) ∧ v < 2 ^ 25 ∧ (s.elapse dt).fnExists (fnOf v) = true ∧ (s.fn (fnOf v)).inReset = true ∧ (s.elapse dt).vfsOf (fnOf v) = []) ∧
  (∃ (s : State) (dt : Nat) (p : Path) (x : Session) (q : TReq) (v : Nat),
    Issued (s.elapse dt) p x q 2369 1 (if v.testBit 24 = true then Perm.owner ((s.elapse dt).fnDom (v % 256 * 4096)) else Perm.owner 0) ∧ v < 2 ^ 25 ∧ (s.elapse dt).fnExists (fnOf v) = true ∧ (s.fn (fnOf v)).inReset = false ∧ ((s.elapse dt).vfsOf (fnOf v) = [] ∧ ((s.elapse dt).pfn (fnOf v)).wins = [] ∧ s.tm.queues = [] ∧ s.tm.scheds = [] ∧ s.rdma.qps = [] ∧ s.rdma.mrs = [] ∧ s.rdma.intake = [] ∧ s.rdma.eventRings = [] ∧ s.stor.nss = [] ∧ s.stor.cmds = [] ∧ s.dma.waits = [] ∧ s.slu.store = [] ∧ s.pcie.reads = [] ∧ s.pcie.held = [] ∧ s.tb.latch = [] ∧ s.led.chains = [] ∧ s.ports.ports = [] ∧ (List.all s.rings.rings fun y => fnOfKey y.fst != fnOf v || y.snd.posters.isEmpty && y.snd.engine != 4) = true) ∧ s.tosen.opens = [] ∧ (∀ (r : Nat), p ≠ Path.ring (fnOf v) r) ∧ s.tosen.sessions = [x] ∧ x.path = p ∧ (s.elapse dt).Plain) ∧
  (∃ (s : State) (dt : Nat) (f : Nat),
    (s.elapse dt).Plain ∧ (s.firmware = false ∨ (s.elapse dt).cfgOpen f = false) ∧ s.glb.mode ≠ Mode.recovery) ∧
  (∃ (s : State) (dt : Nat) (f : Nat),
    (s.elapse dt).Plain ∧ s.firmware = true ∧ s.glb.mode ≠ Mode.recovery ∧ (s.elapse dt).cfgOpen f = true ∧ ((s.elapse dt).vfsOf f = [] ∧ ((s.elapse dt).pfn f).wins = [] ∧ s.tm.queues = [] ∧ s.tm.scheds = [] ∧ s.rdma.qps = [] ∧ s.rdma.mrs = [] ∧ s.rdma.intake = [] ∧ s.rdma.eventRings = [] ∧ s.stor.nss = [] ∧ s.stor.cmds = [] ∧ s.dma.waits = [] ∧ s.slu.store = [] ∧ s.pcie.reads = [] ∧ s.pcie.held = [] ∧ s.tb.latch = [] ∧ s.led.chains = [] ∧ s.ports.ports = [] ∧ (List.all s.rings.rings fun y => fnOfKey y.fst != f || y.snd.posters.isEmpty && y.snd.engine != 4) = true) ∧ (s.fn f).inReset = false ∧ s.tosen.sessions = [] ∧ s.tosen.opens = []) ∧
  (∃ (s : State) (dt : Nat),
    (s.elapse dt).Plain ∧ s.glb.mode = Mode.recovery ∧ (s.elapse dt).cfgOpen 0 = true) ∧
  (∃ (s : State) (dt : Nat) (f : Nat),
    (s.elapse dt).Plain ∧ (s.fn f).inReset = true ∧ (f = 0 → s.boot.trial = false) ∧ ((s.elapse dt).pfn f).resetPaths = []) ∧
  (∃ (s : State) (dt : Nat) (p : Path) (x : Session) (q : TReq) (f : Nat),
    (s.elapse dt).Settled ∧ (s.fn f).inReset = true ∧ (f = 0 → s.boot.trial = false) ∧ ((s.elapse dt).pfn f).resetPaths = [p] ∧ Awaits (s.elapse dt) p x q 2369) ∧
  (∃ (s : State) (dt : Nat),
    (s.elapse dt).Plain ∧ ((List.all s.rings.rings fun y => !y.snd.modHeld || decide ((s.elapse dt).now < y.snd.modEnd)) = true)) ∧
  (∃ (s : State) (dt : Nat) (k : Nat) (r : Ring),
    (s.elapse dt).Plain ∧ s.rings.rings = [(k, r)] ∧ r.modHeld = true ∧ r.modEnd ≤ (s.elapse dt).now ∧ r.mod ≠ 0 ∧ (s.elapse dt).mute (fnOfKey k) = false ∧ ((s.elapse dt).pfn (fnOfKey k)).masked r.vector = true) ∧
  (∃ (s : State) (dt : Nat) (k : Nat) (r : Ring),
    (s.elapse dt).Plain ∧ s.rings.rings = [(k, r)] ∧ r.modHeld = true ∧ r.modEnd ≤ (s.elapse dt).now ∧ r.mod ≠ 0 ∧ (s.elapse dt).mute (fnOfKey k) = false ∧ ((s.elapse dt).pfn (fnOfKey k)).masked r.vector = false ∧ (s.elapse dt).waits (fnOfKey k) = false) :=
  ⟨⟨(ask (linked .service) 0x0940 32), 3, (.mp 1), (sess 0x0940 32), (req 0x0940 32), (List.replicate 16 4097), (List.replicate 16 128),
      issued_of (by decide +kernel), by decide +kernel⟩,
    ⟨(ask (post1 {}) 0x0940 32), 3, (.mp 1), (sess 0x0940 32), (req 0x0940 32), (List.replicate 16 4096), (List.replicate 16 128),
      issued_of (by decide +kernel), by decide +kernel⟩,
    ⟨(ask (linked .service) 0x0941 1), 3, (.mp 1), (sess 0x0941 1), (req 0x0941 1), 1,
      issued_of (by decide +kernel), by decide +kernel⟩,
    ⟨(ask { mapped .service with glb.fns := [(4096, { inReset := true })] } 0x0941 1), 3, (.mp 1), (sess 0x0941 1), (req 0x0941 1), 1,
      issued_of (by decide +kernel), by decide +kernel⟩,
    ⟨(ask { mapped .service with rings.rings := [(rkey 4096 3, { enable := true })] } 0x0941 1), 3, (.mp 1), (sess 0x0941 1), (req 0x0941 1), 1,
      issued_of (by decide +kernel), by decide +kernel, by decide +kernel, by decide +kernel, by decide +kernel, by decide +kernel, (fun _ h => nomatch h), by decide +kernel, by decide +kernel, plain_of (by decide +kernel)⟩,
    ⟨(inMode .service), 3, 0,
      plain_of (by decide +kernel), by decide +kernel⟩,
    ⟨{ mapped .service with rings.rings := [(rkey 4096 3, { enable := true }), (rkey 0 3, { enable := true })] }, 3, 4096,
      plain_of (by decide +kernel), by decide +kernel⟩,
    ⟨{ linked .recovery with boot.recOffer := 5 }, 3,
      plain_of (by decide +kernel), by decide +kernel⟩,
    ⟨{ mapped .service with glb.fns := [(0, { inReset := true })] }, 3, 0,
      plain_of (by decide +kernel), by decide +kernel⟩,
    ⟨(wait { mapped .service with glb.fns := [(4096, { inReset := true })], pcie.fns := [(4096, { resetPaths := [.mp 1] })] } 0x0941 1), 3, (.mp 1), (busy 0x0941 1), (req 0x0941 1), 4096,
      settled_of (by decide +kernel), by decide +kernel, by decide +kernel, by decide +kernel, awaits_of (by decide +kernel)⟩,
    ⟨(post1 { modHeld := true, modEnd := 4 }), 3,
      plain_of (by decide +kernel), by decide +kernel⟩,
    ⟨(post1 { modHeld := true, modEnd := 3, mod := 1 }), 3, (rkey 0 3), { enable := true, modHeld := true, modEnd := 3, mod := 1 },
      plain_of (by decide +kernel), by decide +kernel⟩,
    ⟨{ post1 { modHeld := true, modEnd := 3, mod := 1 } with pcie.fns := [(0, { mse := true, bme := true, msixOn := true, msix := [(3, 0)] })] }, 3, (rkey 0 3), { enable := true, modHeld := true, modEnd := 3, mod := 1 },
      plain_of (by decide +kernel), by decide +kernel⟩⟩

set_option Elab.async false
set_option maxRecDepth 4000
/-- The premises of `Obligations.DmaChannels`, clause by clause, are met. -/
theorem witness_DmaChannels :
  (∃ (s : State) (dt : Nat) (fn : Nat) (n : Nat),
    (s.elapse dt).Plain ∧ (((s.elapse dt).ring (rkey fn ((s.elapse dt).ring (rkey fn n)).cq)).sumpFull = true ∨ s.glb.mode = Mode.lockdown ∨ s.firmware = false ∨ (s.elapse dt).dmaOn (rkey fn n) = false ∨ (((s.elapse dt).ring (rkey fn n)).fetched.all fun d => d.started || d.ended) = true ∨ ((s.elapse dt).ring (rkey fn n)).engine ≠ 2 ∨ ((s.elapse dt).ring (rkey fn n)).dma.isSome = true)) ∧
  (∃ (s : State) (dt : Nat) (fn : Nat) (n : Nat) (d : Desc),
    (s.elapse dt).Plain ∧ s.firmware = true ∧ s.glb.mode ≠ Mode.lockdown ∧ ((s.elapse dt).ring (rkey fn ((s.elapse dt).ring (rkey fn n)).cq)).sumpFull = false ∧ ((s.elapse dt).ring (rkey fn n)).dma = none ∧ ((s.elapse dt).ring (rkey fn n)).engine = 2 ∧ (s.elapse dt).dmaOn (rkey fn n) = true ∧ fnOfKey (rkey fn n) = fn ∧ ((s.elapse dt).ring (rkey fn n)).fetched = [d] ∧ d.started = false ∧ d.ended = false ∧ d.isEntry = false ∧ d.rcSet = true ∧ d.type = 26 ∧ 0 < d.len ∧ (s.mem.poison = [] ∧ s.mem.bad = []) ∧ ((s.elapse dt).localBad d.addr = false ∧ (s.elapse dt).localBad d.aux = false) ∧ (d.addr + d.len ≤ d.aux ∨ d.aux + d.len ≤ d.addr) ∧ ((s.elapse dt).ring (rkey fn n)).chan = none) ∧
  (∃ (s : State) (dt : Nat) (fn : Nat) (n : Nat) (d : Desc) (c : Nat),
    (s.elapse dt).Plain ∧ s.firmware = true ∧ s.glb.mode ≠ Mode.lockdown ∧ ((s.elapse dt).ring (rkey fn ((s.elapse dt).ring (rkey fn n)).cq)).sumpFull = false ∧ ((s.elapse dt).ring (rkey fn n)).dma = none ∧ ((s.elapse dt).ring (rkey fn n)).engine = 2 ∧ (s.elapse dt).dmaOn (rkey fn n) = true ∧ fnOfKey (rkey fn n) = fn ∧ ((s.elapse dt).ring (rkey fn n)).fetched = [d] ∧ d.started = false ∧ d.ended = false ∧ d.isEntry = false ∧ d.rcSet = true ∧ d.type = 26 ∧ 0 < d.len ∧ (s.mem.poison = [] ∧ s.mem.bad = []) ∧ ((s.elapse dt).localBad d.addr = false ∧ (s.elapse dt).localBad d.aux = false) ∧ (d.addr + d.len ≤ d.aux ∨ d.aux + d.len ≤ d.addr) ∧ ((s.elapse dt).ring (rkey fn n)).chan = some c) ∧
  (∃ (s : State) (dt : Nat) (fn : Nat) (n : Nat) (d : Desc),
    (s.elapse dt).Plain ∧ s.firmware = true ∧ s.glb.mode ≠ Mode.lockdown ∧ ((s.elapse dt).ring (rkey fn ((s.elapse dt).ring (rkey fn n)).cq)).sumpFull = false ∧ ((s.elapse dt).ring (rkey fn n)).dma = none ∧ ((s.elapse dt).ring (rkey fn n)).engine = 2 ∧ (s.elapse dt).dmaOn (rkey fn n) = true ∧ fnOfKey (rkey fn n) = fn ∧ ((s.elapse dt).ring (rkey fn n)).fetched = [d] ∧ d.started = false ∧ d.ended = false ∧ d.isEntry = false ∧ d.rcSet = true ∧ d.type = 26 ∧ 0 < d.len ∧ (s.mem.poison = [] ∧ s.mem.bad = []) ∧ ((s.elapse dt).localBad d.addr = false ∧ (s.elapse dt).localBad d.aux = false) ∧ (¬(d.addr + d.len ≤ d.aux ∨ d.aux + d.len ≤ d.addr)) ∧ ((s.elapse dt).ring (rkey fn n)).chan = none) ∧
  (∃ (s : State) (dt : Nat) (fn : Nat) (n : Nat) (d : Desc),
    (s.elapse dt).Plain ∧ s.firmware = true ∧ s.glb.mode ≠ Mode.lockdown ∧ ((s.elapse dt).ring (rkey fn ((s.elapse dt).ring (rkey fn n)).cq)).sumpFull = false ∧ ((s.elapse dt).ring (rkey fn n)).dma = none ∧ ((s.elapse dt).ring (rkey fn n)).engine = 2 ∧ (s.elapse dt).dmaOn (rkey fn n) = true ∧ fnOfKey (rkey fn n) = fn ∧ ((s.elapse dt).ring (rkey fn n)).fetched = [d] ∧ d.started = false ∧ d.ended = false ∧ d.isEntry = false ∧ d.rcSet = true ∧ d.type % 4 = 0 ∧ d.type / 4 % 4 < 3 ∧ d.type / 16 = 1) ∧
  (∃ (s : State) (dt : Nat) (fn : Nat) (n : Nat) (d : Desc),
    (s.elapse dt).Plain ∧ s.firmware = true ∧ s.glb.mode ≠ Mode.lockdown ∧ ((s.elapse dt).ring (rkey fn ((s.elapse dt).ring (rkey fn n)).cq)).sumpFull = false ∧ ((s.elapse dt).ring (rkey fn n)).dma = none ∧ ((s.elapse dt).ring (rkey fn n)).engine = 2 ∧ (s.elapse dt).dmaOn (rkey fn n) = true ∧ fnOfKey (rkey fn n) = fn ∧ ((s.elapse dt).ring (rkey fn n)).fetched = [d] ∧ d.started = false ∧ d.ended = false ∧ d.isEntry = false ∧ d.rcSet = true ∧ ((s.elapse dt).ring (rkey fn n)).chan = none ∧ (s.elapse dt).mute fn = false ∧ d.type ∈ [17, 21, 25] ∧ (s.elapse dt).cisternOk ((s.elapse dt).fnDom fn) d.addr (min d.len (pageSize - d.addr % pageSize)) = false) ∧
  (∃ (s : State) (dt : Nat) (fn : Nat) (n : Nat) (d : Desc),
    (s.elapse dt).Plain ∧ s.firmware = true ∧ s.glb.mode ≠ Mode.lockdown ∧ ((s.elapse dt).ring (rkey fn ((s.elapse dt).ring (rkey fn n)).cq)).sumpFull = false ∧ ((s.elapse dt).ring (rkey fn n)).dma = none ∧ ((s.elapse dt).ring (rkey fn n)).engine = 2 ∧ (s.elapse dt).dmaOn (rkey fn n) = true ∧ fnOfKey (rkey fn n) = fn ∧ ((s.elapse dt).ring (rkey fn n)).fetched = [d] ∧ d.started = false ∧ d.ended = false ∧ d.isEntry = false ∧ d.rcSet = true ∧ ((s.elapse dt).ring (rkey fn n)).chan = none ∧ (s.elapse dt).mute fn = false ∧ d.type ∈ [18, 22, 26] ∧ (s.elapse dt).localBad d.addr = true) ∧
  (∃ (s : State) (dt : Nat) (fn : Nat) (n : Nat) (d : Desc),
    (s.elapse dt).Plain ∧ s.firmware = true ∧ s.glb.mode ≠ Mode.lockdown ∧ ((s.elapse dt).ring (rkey fn ((s.elapse dt).ring (rkey fn n)).cq)).sumpFull = false ∧ ((s.elapse dt).ring (rkey fn n)).dma = none ∧ ((s.elapse dt).ring (rkey fn n)).engine = 2 ∧ (s.elapse dt).dmaOn (rkey fn n) = true ∧ fnOfKey (rkey fn n) = fn ∧ ((s.elapse dt).ring (rkey fn n)).fetched = [d] ∧ d.started = false ∧ d.ended = false ∧ d.isEntry = false ∧ d.rcSet = true ∧ ((s.elapse dt).ring (rkey fn n)).chan = none ∧ (s.elapse dt).mute fn = false ∧ d.type = 26 ∧ 0 < d.len ∧ (s.elapse dt).localBad d.addr = false ∧ s.mem.bad = [] ∧ ((s.mem.poison.any fun w => decide (localAt (localCore d.addr) (localOff d.addr) < 32 * w + 32) && decide (32 * w < localAt (localCore d.addr) (localOff d.addr) + d.len)) = true)) ∧
  (∃ (s : State) (dt : Nat) (fn : Nat) (n : Nat) (d : Desc),
    (s.elapse dt).Plain ∧ s.firmware = true ∧ s.glb.mode ≠ Mode.lockdown ∧ ((s.elapse dt).ring (rkey fn ((s.elapse dt).ring (rkey fn n)).cq)).sumpFull = false ∧ ((s.elapse dt).ring (rkey fn n)).dma = none ∧ ((s.elapse dt).ring (rkey fn n)).engine = 2 ∧ (s.elapse dt).dmaOn (rkey fn n) = true ∧ fnOfKey (rkey fn n) = fn ∧ ((s.elapse dt).ring (rkey fn n)).fetched = [d] ∧ d.started = false ∧ d.ended = false ∧ d.isEntry = false ∧ d.rcSet = true ∧ ((s.elapse dt).ring (rkey fn n)).chan = none ∧ (s.elapse dt).mute fn = false ∧ d.type = 26 ∧ 0 < d.len ∧ (s.mem.poison = [] ∧ s.mem.bad = []) ∧ (d.addr + d.len ≤ d.aux ∨ d.aux + d.len ≤ d.addr) ∧ (s.elapse dt).localBad d.addr = false ∧ (s.elapse dt).localBad d.aux = true) ∧
  (∃ (s : State) (dt : Nat) (fn : Nat) (n : Nat) (d : Desc),
    (s.elapse dt).Plain ∧ s.firmware = true ∧ s.glb.mode ≠ Mode.lockdown ∧ ((s.elapse dt).ring (rkey fn ((s.elapse dt).ring (rkey fn n)).cq)).sumpFull = false ∧ ((s.elapse dt).ring (rkey fn n)).dma = none ∧ ((s.elapse dt).ring (rkey fn n)).engine = 2 ∧ (s.elapse dt).dmaOn (rkey fn n) = true ∧ fnOfKey (rkey fn n) = fn ∧ ((s.elapse dt).ring (rkey fn n)).fetched = [d] ∧ d.started = false ∧ d.ended = false ∧ d.isEntry = false ∧ d.rcSet = true ∧ d.type = 31 ∧ (d.addr = 0 ∨ d.addr % 16 ≠ 0 ∨ d.aux = 0 ∨ d.aux % 16 ≠ 0) ∧ (s.elapse dt).fnDom fn ≠ 0 ∧ (s.fn fn).halted = false) ∧
  (∃ (s : State) (dt : Nat) (fn : Nat) (n : Nat) (d : Desc),
    (s.elapse dt).Plain ∧ s.firmware = true ∧ s.glb.mode ≠ Mode.lockdown ∧ ((s.elapse dt).ring (rkey fn ((s.elapse dt).ring (rkey fn n)).cq)).sumpFull = false ∧ ((s.elapse dt).ring (rkey fn n)).dma = none ∧ ((s.elapse dt).ring (rkey fn n)).engine = 2 ∧ (s.elapse dt).dmaOn (rkey fn n) = true ∧ fnOfKey (rkey fn n) = fn ∧ ((s.elapse dt).ring (rkey fn n)).fetched = [d] ∧ d.started = false ∧ d.ended = false ∧ d.isEntry = false ∧ d.rcSet = true ∧ d.type = 31 ∧ (d.addr = 0 ∨ d.addr % 16 ≠ 0 ∨ d.aux = 0 ∨ d.aux % 16 ≠ 0) ∧ (s.elapse dt).fnDom fn = 0) ∧
  (∃ (s : State) (dt : Nat) (fn : Nat) (n : Nat) (d : Desc),
    (s.elapse dt).Plain ∧ s.firmware = true ∧ s.glb.mode ≠ Mode.lockdown ∧ ((s.elapse dt).ring (rkey fn ((s.elapse dt).ring (rkey fn n)).cq)).sumpFull = false ∧ ((s.elapse dt).ring (rkey fn n)).dma = none ∧ ((s.elapse dt).ring (rkey fn n)).engine = 2 ∧ (s.elapse dt).dmaOn (rkey fn n) = true ∧ fnOfKey (rkey fn n) = fn ∧ ((s.elapse dt).ring (rkey fn n)).fetched = [d] ∧ d.started = false ∧ d.ended = false ∧ d.isEntry = false ∧ d.rcSet = true ∧ d.type = 31 ∧ d.addr ≠ 0 ∧ d.addr % 16 = 0 ∧ d.aux ≠ 0 ∧ d.aux % 16 = 0) ∧
  (∃ (s : State) (dt : Nat) (fn : Nat) (n : Nat) (d : Desc) (e : Desc),
    (s.elapse dt).Plain ∧ s.firmware = true ∧ s.glb.mode ≠ Mode.lockdown ∧ ((s.elapse dt).ring (rkey fn ((s.elapse dt).ring (rkey fn n)).cq)).sumpFull = false ∧ ((s.elapse dt).ring (rkey fn n)).dma = none ∧ ((s.elapse dt).ring (rkey fn n)).engine = 2 ∧ (s.elapse dt).dmaOn (rkey fn n) = true ∧ fnOfKey (rkey fn n) = fn ∧ ((s.elapse dt).ring (rkey fn n)).fetched = [d, e] ∧ d.started = false ∧ d.ended = false ∧ d.isEntry = false ∧ d.rcSet = false ∧ e.rcSet = true ∧ e.isEntry = false ∧ d.idx ≠ e.idx ∧ ((s.elapse dt).ring (rkey fn n)).chan = none ∧ (s.elapse dt).mute fn = false ∧ d.type = 26 ∧ (s.elapse dt).localBad d.addr = true) ∧
  (∃ (s : State) (dt : Nat) (fn : Nat) (n : Nat),
    (s.elapse dt).Plain ∧ (List.find? (fun x => x.what == 5 && x.ring == rkey fn n && !x.dead) (s.elapse dt).pcie.reads = none)) ∧
  (∃ (s : State) (dt : Nat) (fn : Nat) (n : Nat) (h : HRead) (m : Nat),
    (s.elapse dt).Plain ∧ (s.elapse dt).pcie.reads = [h] ∧ h.what = 5 ∧ h.ring = rkey fn n ∧ h.dead = false ∧ h.len = 0 ∧ (s.elapse dt).pcie.held = [] ∧ ((s.elapse dt).ring (rkey fn n)).flushing = m + 2) ∧
  (∃ (s : State) (dt : Nat) (fn : Nat) (n : Nat) (h : HRead) (d : Desc),
    (s.elapse dt).Plain ∧ (s.elapse dt).pcie.reads = [h] ∧ h.what = 5 ∧ h.ring = rkey fn n ∧ h.dead = false ∧ h.len = 0 ∧ (s.elapse dt).pcie.held = [] ∧ ((s.elapse dt).ring (rkey fn n)).flushing = 1 ∧ ((s.elapse dt).ring (rkey fn n)).fetched = [d] ∧ d.rcSet = true ∧ d.ended = true ∧ d.acks = 0 ∧ ((s.elapse dt).ring (rkey fn n)).host = ((s.elapse dt).ring (rkey fn n)).dev ∧ ((s.elapse dt).ring (rkey fn n)).peek = []) ∧
  (∃ (s : State) (dt : Nat) (fn : Nat) (n : Nat),
    (s.elapse dt).Plain ∧ firstRun ((s.elapse dt).ring (rkey fn n)).fetched = none) ∧
  (∃ (s : State) (dt : Nat) (fn : Nat) (n : Nat) (d : Desc),
    (s.elapse dt).Plain ∧ ((s.elapse dt).ring (rkey fn n)).fetched = [d] ∧ d.rcSet = true ∧ d.isEntry = false ∧ d.ended = true ∧ ((s.elapse dt).ring (rkey fn n)).flushing = 0 ∧ ((s.elapse dt).ring (rkey fn n)).host = ((s.elapse dt).ring (rkey fn n)).dev ∧ ((s.elapse dt).ring (rkey fn n)).peek = [] ∧ d.wrote = none ∧ d.here = [] ∧ 1 < d.acks) ∧
  (∃ (s : State) (dt : Nat) (fn : Nat) (n : Nat) (d : Desc),
    (s.elapse dt).Plain ∧ ((s.elapse dt).ring (rkey fn n)).fetched = [d] ∧ d.rcSet = true ∧ d.isEntry = false ∧ d.ended = true ∧ ((s.elapse dt).ring (rkey fn n)).flushing = 0 ∧ ((s.elapse dt).ring (rkey fn n)).host = ((s.elapse dt).ring (rkey fn n)).dev ∧ ((s.elapse dt).ring (rkey fn n)).peek = [] ∧ d.wrote = none ∧ d.here = [] ∧ d.acks = 1) ∧
  (∃ (s : State) (dt : Nat) (c : Nat) (h : Nat),
    (s.elapse dt).Plain ∧ ((s.elapse dt).thr c h).stores = 0) ∧
  (∃ (s : State) (dt : Nat) (c : Nat) (h : Nat),
    (s.elapse dt).Plain ∧ (1 < ((s.elapse dt).thr c h).stores ∨ ((s.elapse dt).thr c h).stores = 1 ∧ ((s.elapse dt).thr c h).blocked = none)) ∧
  (∃ (s : State) (dt : Nat) (c : Nat) (h : Nat),
    (s.elapse dt).Plain ∧ ((s.elapse dt).thr c h).stores = 1 ∧ ((s.elapse dt).thr c h).blocked = some Blocked.fence ∧ ((s.elapse dt).thr c h).state = TState.stalled) ∧
  (∃ (s : State) (dt : Nat) (c : Nat) (h : Nat) (n : Nat) (d : Nat),
    (s.elapse dt).Plain ∧ ((s.elapse dt).thr c h).stores = 1 ∧ ((s.elapse dt).thr c h).blocked = some (Blocked.commit n d) ∧ ((s.elapse dt).thr c h).state = TState.stalled) ∧
  (∃ (s : State) (dt : Nat) (p : Path) (x : Session) (q : TReq) (ch : Nat) (dom : Nat) (role : Nat) (wt : Nat),
    Issued (s.elapse dt) p x q 2400 4 Perm.any ∧ ch < 64 ∧ dom < 16 ∧ role < 4 ∧ (wt < 1 ∨ 15 < wt)) ∧
  (∃ (s : State) (dt : Nat) (p : Path) (x : Session) (q : TReq) (ch : Nat) (dom : Nat) (role : Nat) (wt : Nat),
    Issued (s.elapse dt) p x q 2400 4 Perm.any ∧ ch < 64 ∧ dom < 16 ∧ role < 4 ∧ 1 ≤ wt ∧ wt ≤ 15 ∧ 0 < (s.elapse dt).attached ch) ∧
  (∃ (s : State) (dt : Nat) (p : Path) (x : Session) (q : TReq) (ch : Nat) (dom : Nat) (role : Nat) (wt : Nat),
    Issued (s.elapse dt) p x q 2400 4 Perm.any ∧ ch < 64 ∧ dom < 16 ∧ role < 4 ∧ 1 ≤ wt ∧ wt ≤ 15 ∧ (s.elapse dt).attached ch = 0) ∧
  (∃ (s : State) (dt : Nat) (p : Path) (x : Session) (q : TReq) (ch : Nat),
    Issued (s.elapse dt) p x q 2401 1 (Perm.owner ((s.elapse dt).chanCfg ch).fst) ∧ ch < 64) :=
  ⟨⟨(dring { dr [] with engine := 0 }), 3, 0, 3,
      plain_of (by decide +kernel), by decide +kernel⟩,
    ⟨(dring (dr [{ type := 0x1A, len := 3, addr := 4, aux := 2 ^ 18 + 8, flags := 1 }])), 3, 0, 3, { type := 0x1A, len := 3, addr := 4, aux := 2 ^ 18 + 8, flags := 1 },
      plain_of (by decide +kernel), by decide +kernel⟩,
    ⟨(dring { dr [{ type := 0x1A, len := 3, addr := 4, aux := 7, flags := 1 }] with chan := some 5 }), 3, 0, 3, { type := 0x1A, len := 3, addr := 4, aux := 7, flags := 1 }, 5,
      plain_of (by decide +kernel), by decide +kernel⟩,
    ⟨(dring (dr [{ type := 0x1A, len := 8, addr := 4, aux := 8, flags := 1 }])), 3, 0, 3, { type := 0x1A, len := 8, addr := 4, aux := 8, flags := 1 },
      plain_of (by decide +kernel), by decide +kernel⟩,
    ⟨(dring (dr [{ type := 0x18, len := 8, addr := 4096, aux := 8, flags := 1 }])), 3, 0, 3, { type := 0x18, len := 8, addr := 4096, aux := 8, flags := 1 },
      plain_of (by decide +kernel), by decide +kernel⟩,
    ⟨(dring (dr [{ type := 0x11, len := 8, addr := 4, aux := 8, flags := 1 }])), 3, 0, 3, { type := 0x11, len := 8, addr := 4, aux := 8, flags := 1 },
      plain_of (by decide +kernel), by decide +kernel⟩,
    ⟨(dring (dr [{ type := 0x12, len := 8, addr := 2 ^ 18 * 120, aux := 8, flags := 1 }])), 3, 0, 3, { type := 0x12, len := 8, addr := 2 ^ 18 * 120, aux := 8, flags := 1 },
      plain_of (by decide +kernel), by decide +kernel⟩,
    ⟨{ dring (dr [{ type := 0x1A, len := 8, addr := 40, aux := 8, flags := 1 }]) with mem.poison := [localAt 0 40 / 32] }, 3, 0, 3, { type := 0x1A, len := 8, addr := 40, aux := 8, flags := 1 },
      plain_of (by decide +kernel), by decide +kernel⟩,
    ⟨(dring (dr [{ type := 0x1A, len := 8, aux := 2 ^ 18 * 120, addr := 8, flags := 1 }])), 3, 0, 3, { type := 0x1A, len := 8, aux := 2 ^ 18 * 120, addr := 8, flags := 1 },
      plain_of (by decide +kernel), by decide +kernel⟩,
    ⟨{ mapped .service with rings.rings := [(rkey 4096 3, dr [{ type := 0x1F, idx := 2, flags := 1 }])] }, 3, 4096, 3, { type := 0x1F, idx := 2, flags := 1 },
      plain_of (by decide +kernel), by decide +kernel⟩,
    ⟨(dring (dr [{ type := 0x1F, idx := 2, flags := 1, addr := 16, aux := 8 }])), 3, 0, 3, { type := 0x1F, idx := 2, flags := 1, addr := 16, aux := 8 },
      plain_of (by decide +kernel), by decide +kernel⟩,
    ⟨(dring (dr [{ type := 0x1F, idx := 2, flags := 1, addr := 16, aux := 32 }])), 3, 0, 3, { type := 0x1F, idx := 2, flags := 1, addr := 16, aux := 32 },
      plain_of (by decide +kernel), by decide +kernel⟩,
    ⟨(dring (dr [{ type := 0x1A, len := 8, addr := 2 ^ 18 * 120, aux := 8 }, { idx := 1, type := 0x1A, len := 8, flags := 1 }])), 3, 0, 3, { type := 0x1A, len := 8, addr := 2 ^ 18 * 120, aux := 8 }, { idx := 1, type := 0x1A, len := 8, flags := 1 },
      plain_of (by decide +kernel), by decide +kernel⟩,
    ⟨(dring (dr [])), 3, 0, 3,
      plain_of (by decide +kernel), by decide +kernel⟩,
    ⟨{ dring { dr [] with flushing := 3 } with pcie.reads := [hr 5 0] }, 3, 0, 3, (hr 5 0), 1,
      plain_of (by decide +kernel), by decide +kernel⟩,
    ⟨{ dring { dr [{ flags := 1, ended := true, wrote := some 4 }] with flushing := 1 } with pcie.reads := [hr 5 0] }, 3, 0, 3, (hr 5 0), { flags := 1, ended := true, wrote := some 4 },
      plain_of (by decide +kernel), by decide +kernel⟩,
    ⟨(dring (dr [{ idx := 7, acks := 2 }])), 3, 0, 3,
      plain_of (by decide +kernel), by decide +kernel⟩,
    ⟨(dring (dr [{ idx := 7, acks := 2, flags := 1, ended := true }])), 3, 0, 3, { idx := 7, acks := 2, flags := 1, ended := true },
      plain_of (by decide +kernel), by decide +kernel⟩,
    ⟨(dring (dr [{ idx := 7, acks := 1, flags := 1, ended := true }])), 3, 0, 3, { idx := 7, acks := 1, flags := 1, ended := true },
      plain_of (by decide +kernel), by decide +kernel⟩,
    ⟨(run1 {}), 3, 1, 2,
      plain_of (by decide +kernel), by decide +kernel⟩,
    ⟨(run1 { stores := 2 }), 3, 1, 2,
      plain_of (by decide +kernel), by decide +kernel⟩,
    ⟨(run1 { stores := 1, state := .stalled, blocked := some .fence }), 3, 1, 2,
      plain_of (by decide +kernel), by decide +kernel⟩,
    ⟨(ch { slot := some 3, stores := 1, state := .stalled, blocked := some (.commit 3 9) } { chS with holder := some (1, 2), staged := [4] }), 3, 1, 2, 3, 9,
      plain_of (by decide +kernel), by decide +kernel⟩,
    ⟨(ask (linked .service) 0x0960 4), 3, (.mp 1), (sess 0x0960 4), (req 0x0960 4), 5, 0, 3, 16,
      issued_of (by decide +kernel), by decide +kernel⟩,
    ⟨(ask (dring { dr [] with chan := some 5 }) 0x0960 4), 3, (.mp 1), (sess 0x0960 4), (req 0x0960 4), 5, 0, 3, 15,
      issued_of (by decide +kernel), by decide +kernel⟩,
    ⟨(ask (linked .service) 0x0960 4), 3, (.mp 1), (sess 0x0960 4), (req 0x0960 4), 5, 15, 3, 15,
      issued_of (by decide +kernel), by decide +kernel⟩,
    ⟨(ask (dring { dr [{ type := 0x1A }] with chan := some 5 }) 0x0961 1), 3, (.mp 1), (sess 0x0961 1), (req 0x0961 1), 5,
      issued_of (by decide +kernel), by decide +kernel⟩⟩

set_option Elab.async false
set_option maxRecDepth 4000
/-- The premises of `Obligations.WorkItemsAndPages`, clause by clause, are met. -/
theorem witness_WorkItemsAndPages :
  (∃ (s : State) (dt : Nat) (c : Nat) (h : Nat) (w : Nat) (x : Thread) (y : Machine.Sub),
    Fetches (s.elapse dt) c h w x ∧ ((fun f7 => wordD w 6 f7 = true) 0) ∧ tget? x.subs (x.reg (wRs1 w)) = some y ∧ y.kind = 1 ∧ x.item = none ∧ y.unread = []) ∧
  (∃ (s : State) (dt : Nat) (c : Nat) (h : Nat) (w : Nat) (x : Thread) (y : Machine.Sub) (k : Nat) (more : List Nat) (fk : Nat) (f : Flow) (i : Item),
    Fetches (s.elapse dt) c h w x ∧ ((fun f7 => wordD w 6 f7 = true) 0) ∧ tget? x.subs (x.reg (wRs1 w)) = some y ∧ y.kind = 1 ∧ x.item = none ∧ y.unread = k :: more ∧ s.rm.flows = [(fk, f)] ∧ f.out = [i] ∧ i.at_ = some (c, h, x.reg (wRs1 w), k)) ∧
  (∃ (s : State) (dt : Nat) (c : Nat) (h : Nat) (w : Nat) (x : Thread) (fk : Nat) (f : Flow) (i : Item) (y : Machine.Sub) (k : Nat) (m : Nat),
    Fetches (s.elapse dt) c h w x ∧ ((fun f7 => wordD w 6 f7 = true) 1) ∧ x.item = some (fk, i.seq, m, k) ∧ s.rm.flows = [(fk, f)] ∧ f.out = [i] ∧ i.taken = true ∧ i.at_ = some (c, h, m, k) ∧ tget? x.subs m = some y ∧ (((s.elapse dt).threads.all fun p => ((s.elapse dt).thr p.fst p.snd).state != TState.stalled) = true) ∧ f.hand = none ∧ (i.buf = none ∨ s.tosen.sessions = [])) ∧
  (∃ (s : State) (dt : Nat) (c : Nat) (h : Nat) (w : Nat) (x : Thread) (fk : Nat) (f : Flow) (i : Item) (y : Machine.Sub) (k : Nat) (m : Nat),
    Fetches (s.elapse dt) c h w x ∧ ((fun f7 => wordD w 6 f7 = true) 1) ∧ x.item = some (fk, i.seq, m, k) ∧ s.rm.flows = [(fk, f)] ∧ f.out = [i] ∧ i.taken = true ∧ i.at_ = some (c, h, m, k) ∧ tget? x.subs m = some y ∧ (((s.elapse dt).threads.all fun p => ((s.elapse dt).thr p.fst p.snd).state != TState.stalled) = true) ∧ f.hand.isSome = true ∧ ((f.items.any fun j => j.before) = false) ∧ f.held = [] ∧ f.due = [] ∧ i.buf = none) ∧
  (∃ (s : State) (dt : Nat) (c : Nat) (h : Nat) (w : Nat) (x : Thread) (f : Flow),
    Fetches (s.elapse dt) c h w x ∧ ((fun f7 => wordD w 6 f7 = true) 2) ∧ x.reg (wRs1 w) < (s.elapse dt).flowRange ((s.elapse dt).cdom c) ∧ s.rm.flows = [(flowKey ((s.elapse dt).cdom c) (x.reg (wRs1 w)), f)] ∧ ((s.elapse dt).fclass ((s.elapse dt).cdom c) f.cls).depth ≤ f.depth) ∧
  (∃ (s : State) (dt : Nat) (c : Nat) (h : Nat) (w : Nat) (x : Thread) (f : Flow),
    Fetches (s.elapse dt) c h w x ∧ ((fun f7 => wordD w 6 f7 = true) 2) ∧ x.reg (wRs1 w) < (s.elapse dt).flowRange ((s.elapse dt).cdom c) ∧ s.rm.flows = [(flowKey ((s.elapse dt).cdom c) (x.reg (wRs1 w)), f)] ∧ f.depth < ((s.elapse dt).fclass ((s.elapse dt).cdom c) f.cls).depth ∧ f.place.isSome = true) ∧
  (∃ (s : State) (dt : Nat) (c : Nat) (h : Nat) (w : Nat) (x : Thread) (f : Flow) (p : Nat × Nat),
    Fetches (s.elapse dt) c h w x ∧ ((fun f7 => wordD w 6 f7 = true) 2) ∧ x.reg (wRs1 w) < (s.elapse dt).flowRange ((s.elapse dt).cdom c) ∧ s.rm.flows = [(flowKey ((s.elapse dt).cdom c) (x.reg (wRs1 w)), f)] ∧ f.depth < ((s.elapse dt).fclass ((s.elapse dt).cdom c) f.cls).depth ∧ f.place = none ∧ flowDom (flowKey ((s.elapse dt).cdom c) (x.reg (wRs1 w))) = (s.elapse dt).cdom c ∧ List.filter ((s.elapse dt).eligible ((s.elapse dt).cdom c) f.cls) (s.elapse dt).threads = [p]) ∧
  (∃ (s : State) (dt : Nat) (c : Nat) (h : Nat) (w : Nat) (x : Thread) (f : Flow),
    Fetches (s.elapse dt) c h w x ∧ ((fun f7 => wordD w 6 f7 = true) 2) ∧ x.reg (wRs1 w) < (s.elapse dt).flowRange ((s.elapse dt).cdom c) ∧ s.rm.flows = [(flowKey ((s.elapse dt).cdom c) (x.reg (wRs1 w)), f)] ∧ f.depth < ((s.elapse dt).fclass ((s.elapse dt).cdom c) f.cls).depth ∧ f.place = none ∧ flowDom (flowKey ((s.elapse dt).cdom c) (x.reg (wRs1 w))) = (s.elapse dt).cdom c ∧ List.filter ((s.elapse dt).eligible ((s.elapse dt).cdom c) f.cls) (s.elapse dt).threads = []) ∧
  (∃ (s : State) (dt : Nat) (c : Nat) (h : Nat) (w : Nat) (x : Thread),
    Fetches (s.elapse dt) c h w x ∧ ((fun f7 => wordD w 6 f7 = true) 8) ∧ x.priv = true ∧ 0 < x.reg (wRs1 w) % 2048 ∧ x.reg (wRs1 w) % 2048 ≤ 1024 ∧ s.tosen.sessions = [] ∧ (((s.elapse dt).rmDom ((s.elapse dt).cdom c)).dataPages < ((s.elapse dt).rmDom ((s.elapse dt).cdom c)).usedPages + x.reg (wRs1 w) % 2048 ∨ (s.elapse dt).freePages < x.reg (wRs1 w) % 2048)) ∧
  (∃ (s : State) (dt : Nat) (c : Nat) (h : Nat) (w : Nat) (x : Thread),
    Fetches (s.elapse dt) c h w x ∧ ((fun f7 => wordD w 6 f7 = true) 8) ∧ x.priv = true ∧ 0 < x.reg (wRs1 w) % 2048 ∧ x.reg (wRs1 w) % 2048 ≤ 1024 ∧ s.tosen.sessions = [] ∧ ((s.elapse dt).rmDom ((s.elapse dt).cdom c)).mapped = [] ∧ x.reg (wRs1 w) % 2048 ≤ ((s.elapse dt).rmDom ((s.elapse dt).cdom c)).dataPages ∧ x.reg (wRs1 w) % 2048 ≤ (s.elapse dt).freePages) ∧
  (∃ (s : State) (dt : Nat) (c : Nat) (h : Nat) (w : Nat) (x : Thread) (m : Nat) (k : Nat),
    Fetches (s.elapse dt) c h w x ∧ ((fun f7 => wordD w 6 f7 = true) 8) ∧ x.priv = true ∧ 0 < x.reg (wRs1 w) % 2048 ∧ x.reg (wRs1 w) % 2048 ≤ 1024 ∧ s.tosen.sessions = [] ∧ ((s.elapse dt).rmDom ((s.elapse dt).cdom c)).mapped = [(m, k)] ∧ k + x.reg (wRs1 w) % 2048 ≤ ((s.elapse dt).rmDom ((s.elapse dt).cdom c)).dataPages ∧ x.reg (wRs1 w) % 2048 ≤ (s.elapse dt).freePages ∧ 0 < k ∧ (m + k ≤ if (x.reg (wRs1 w)).testBit 31 = true then 65536 else 0)) ∧
  (∃ (s : State) (dt : Nat) (c : Nat) (h : Nat) (w : Nat) (x : Thread) (m : Nat) (k : Nat),
    Fetches (s.elapse dt) c h w x ∧ ((fun f7 => wordD w 6 f7 = true) 8) ∧ x.priv = true ∧ 0 < x.reg (wRs1 w) % 2048 ∧ x.reg (wRs1 w) % 2048 ≤ 1024 ∧ s.tosen.sessions = [] ∧ ((s.elapse dt).rmDom ((s.elapse dt).cdom c)).mapped = [(m, k)] ∧ k + x.reg (wRs1 w) % 2048 ≤ ((s.elapse dt).rmDom ((s.elapse dt).cdom c)).dataPages ∧ x.reg (wRs1 w) % 2048 ≤ (s.elapse dt).freePages ∧ 0 < k ∧ (if (x.reg (wRs1 w)).testBit 31 = true then 65536 else 0) < m ∧ (if (x.reg (wRs1 w)).testBit 31 = true then 65536 else 0) + x.reg (wRs1 w) % 2048 ≤ min m (if (x.reg (wRs1 w)).testBit 31 = true then 1048576 else 61440)) ∧
  (∃ (s : State) (dt : Nat) (c : Nat) (h : Nat) (w : Nat) (x : Thread) (m : Nat) (k : Nat),
    Fetches (s.elapse dt) c h w x ∧ ((fun f7 => wordD w 6 f7 = true) 8) ∧ x.priv = true ∧ 0 < x.reg (wRs1 w) % 2048 ∧ x.reg (wRs1 w) % 2048 ≤ 1024 ∧ s.tosen.sessions = [] ∧ ((s.elapse dt).rmDom ((s.elapse dt).cdom c)).mapped = [(m, k)] ∧ k + x.reg (wRs1 w) % 2048 ≤ ((s.elapse dt).rmDom ((s.elapse dt).cdom c)).dataPages ∧ x.reg (wRs1 w) % 2048 ≤ (s.elapse dt).freePages ∧ 0 < k ∧ m < (if (x.reg (wRs1 w)).testBit 31 = true then 65536 else 0) + x.reg (wRs1 w) % 2048 ∧ (if (x.reg (wRs1 w)).testBit 31 = true then 65536 else 0) ≤ m ∧ (m + k + x.reg (wRs1 w) % 2048 ≤ if (x.reg (wRs1 w)).testBit 31 = true then 1048576 else 61440)) ∧
  (∃ (s : State) (dt : Nat) (c : Nat) (h : Nat) (w : Nat) (x : Thread) (m : Nat) (k : Nat),
    Fetches (s.elapse dt) c h w x ∧ ((fun f7 => wordD w 6 f7 = true) 8) ∧ x.priv = true ∧ 0 < x.reg (wRs1 w) % 2048 ∧ x.reg (wRs1 w) % 2048 ≤ 1024 ∧ s.tosen.sessions = [] ∧ ((s.elapse dt).rmDom ((s.elapse dt).cdom c)).mapped = [(m, k)] ∧ k + x.reg (wRs1 w) % 2048 ≤ ((s.elapse dt).rmDom ((s.elapse dt).cdom c)).dataPages ∧ x.reg (wRs1 w) % 2048 ≤ (s.elapse dt).freePages ∧ 0 < k ∧ m < (if (x.reg (wRs1 w)).testBit 31 = true then 65536 else 0) + x.reg (wRs1 w) % 2048 ∧ (if (x.reg (wRs1 w)).testBit 31 = true then 65536 else 0) ≤ m ∧ (if (x.reg (wRs1 w)).testBit 31 = true then 1048576 else 61440) < m + k + x.reg (wRs1 w) % 2048) ∧
  (∃ (s : State) (dt : Nat) (c : Nat) (h : Nat) (w : Nat) (x : Thread),
    Fetches (s.elapse dt) c h w x ∧ ((fun f7 => wordD w 6 f7 = true) 9) ∧ x.priv = true ∧ x.reg (wRs1 w) % 65536 = 0 ∧ x.reg (wRs2 w) = 0) ∧
  (∃ (s : State) (dt : Nat) (c : Nat) (h : Nat) (w : Nat) (x : Thread) (m : Nat) (k : Nat),
    Fetches (s.elapse dt) c h w x ∧ ((fun f7 => wordD w 6 f7 = true) 9) ∧ x.priv = true ∧ x.reg (wRs1 w) % 65536 = 0 ∧ ((s.elapse dt).rmDom ((s.elapse dt).cdom c)).mapped = [(m, k)] ∧ 0 < x.reg (wRs2 w) ∧ m ≤ x.reg (wRs1 w) / 65536 ∧ x.reg (wRs1 w) / 65536 + x.reg (wRs2 w) ≤ m + k ∧ x.reg (wRs2 w) ≤ 1048576 ∧ s.tosen.sessions = []) ∧
  (∃ (s : State) (dt : Nat) (c : Nat) (h : Nat) (w : Nat) (x : Thread),
    Fetches (s.elapse dt) c h w x ∧ x.priv = false ∧ x.tactive = false ∧ ((fun f7 => wordD w 6 f7 = true) 8)) ∧
  (∃ (s : State) (dt : Nat) (c : Nat) (h : Nat) (w : Nat) (x : Thread),
    Fetches (s.elapse dt) c h w x ∧ x.priv = false ∧ x.tactive = false ∧ ((fun f7 => wordD w 6 f7 = true) 9)) ∧
  (∃ (s : State) (dt : Nat) (c : Nat) (h : Nat) (w : Nat) (x : Thread),
    Fetches (s.elapse dt) c h w x ∧ c < 96 ∧ s.cores.chans = [] ∧ s.rm.flows = [] ∧ ((fun f7 => wordD w 6 f7 = true) 0) ∧ (x.item.isSome = true ∨ tget? x.subs (x.reg (wRs1 w)) = none ∨ Option.any (fun y => y.kind != 1) (tget? x.subs (x.reg (wRs1 w))) = true)) ∧
  (∃ (s : State) (dt : Nat) (c : Nat) (h : Nat) (w : Nat) (x : Thread),
    Fetches (s.elapse dt) c h w x ∧ c < 96 ∧ s.cores.chans = [] ∧ s.rm.flows = [] ∧ ((fun f7 => wordD w 6 f7 = true) 1) ∧ x.item = none) ∧
  (∃ (s : State) (dt : Nat) (c : Nat) (h : Nat) (w : Nat) (x : Thread),
    Fetches (s.elapse dt) c h w x ∧ c < 96 ∧ s.cores.chans = [] ∧ s.rm.flows = [] ∧ ((fun f7 => wordD w 6 f7 = true) 2) ∧ (s.elapse dt).flowRange ((s.elapse dt).cdom c) ≤ x.reg (wRs1 w)) ∧
  (∃ (s : State) (dt : Nat) (c : Nat) (h : Nat) (w : Nat) (x : Thread),
    Fetches (s.elapse dt) c h w x ∧ c < 96 ∧ s.cores.chans = [] ∧ s.rm.flows = [] ∧ ((fun f7 => wordD w 6 f7 = true) 8) ∧ x.priv = true ∧ (x.reg (wRs1 w) % 2048 = 0 ∨ 1024 < x.reg (wRs1 w) % 2048)) ∧
  (∃ (s : State) (dt : Nat) (c : Nat) (h : Nat) (w : Nat) (x : Thread),
    Fetches (s.elapse dt) c h w x ∧ c < 96 ∧ s.cores.chans = [] ∧ s.rm.flows = [] ∧ ((fun f7 => wordD w 6 f7 = true) 9) ∧ x.priv = true ∧ (x.reg (wRs1 w) % 65536 ≠ 0 ∨ 1048576 < x.reg (wRs2 w) ∨ 0 < x.reg (wRs2 w) ∧ ((s.elapse dt).rmDom ((s.elapse dt).cdom c)).mapped = [])) ∧
  (∃ (s : State) (dt : Nat) (c : Nat),
    (s.elapse dt).Plain ∧ ((s.elapse dt).impOn = false ∨ (s.elapse dt).sumpTurn c = none)) ∧
  (∃ (s : State) (dt : Nat) (c : Nat) (qn : Nat) (f : Frame) (more : List Frame),
    (s.elapse dt).Plain ∧ (s.elapse dt).impOn = true ∧ (s.elapse dt).sumpTurn c = some qn ∧ ((s.elapse dt).queue qn).frames = f :: more ∧ (s.elapse dt).freeBuf c = none) ∧
  (∃ (s : State) (dt : Nat) (c : Nat) (qn : Nat) (f : Frame) (more : List Frame) (b : Nat) (cfg : SumpCfg),
    (s.elapse dt).Plain ∧ (s.elapse dt).impOn = true ∧ (s.elapse dt).sumpTurn c = some qn ∧ ((s.elapse dt).queue qn).frames = f :: more ∧ (s.elapse dt).freeBuf c = some b ∧ tget? s.rm.sumps qn = some cfg ∧ f.bad = true) ∧
  (∃ (s : State) (dt : Nat) (c : Nat) (qn : Nat) (f : Frame) (more : List Frame) (b : Nat) (cfg : SumpCfg),
    (s.elapse dt).Plain ∧ (s.elapse dt).impOn = true ∧ (s.elapse dt).sumpTurn c = some qn ∧ ((s.elapse dt).queue qn).frames = f :: more ∧ (s.elapse dt).freeBuf c = some b ∧ tget? s.rm.sumps qn = some cfg ∧ f.bad = false ∧ ((if ((s.elapse dt).queue qn).sa = some 65535 then (((s.elapse dt).sumpPop qn f).setRmDom c (have __src := (s.elapse dt).rmDom c; { dataPages := __src.dataPages, itemMib := __src.itemMib, ctxPages := __src.ctxPages, qpLines := __src.qpLines, otherLines := __src.otherLines, missPkts := __src.missPkts, missKib := __src.missKib, flows := __src.flows, handover := __src.handover, mapped := __src.mapped, bufs := __src.bufs, homes := __src.homes, episodes := __src.episodes, occurred := __src.occurred, rr := qn, counters := __src.counters })).espIn c f.data else (some f.data, ((s.elapse dt).sumpPop qn f).setRmDom c (have __src := (s.elapse dt).rmDom c; { dataPages := __src.dataPages, itemMib := __src.itemMib, ctxPages := __src.ctxPages, qpLines := __src.qpLines, otherLines := __src.otherLines, missPkts := __src.missPkts, missKib := __src.missKib, flows := __src.flows, handover := __src.handover, mapped := __src.mapped, bufs := __src.bufs, homes := __src.homes, episodes := __src.episodes, occurred := __src.occurred, rr := qn, counters := __src.counters }))).snd.flowRoom c (cfg.base + crc32c 4294967295 (List.flatMap (fun e => slice (List.take 128 f.data) e.fst e.snd) cfg.ranges) % 2 ^ cfg.log2) = false)) ∧
  (∃ (s : State) (dt : Nat) (c : Nat) (qn : Nat) (f : Frame) (more : List Frame) (b : Nat) (cfg : SumpCfg),
    (s.elapse dt).Plain ∧ (s.elapse dt).impOn = true ∧ (s.elapse dt).sumpTurn c = some qn ∧ ((s.elapse dt).queue qn).frames = f :: more ∧ (s.elapse dt).freeBuf c = some b ∧ tget? s.rm.sumps qn = some cfg ∧ f.bad = false ∧ (if ((s.elapse dt).queue qn).sa = some 65535 then (((s.elapse dt).sumpPop qn f).setRmDom c (have __src := (s.elapse dt).rmDom c; { dataPages := __src.dataPages, itemMib := __src.itemMib, ctxPages := __src.ctxPages, qpLines := __src.qpLines, otherLines := __src.otherLines, missPkts := __src.missPkts, missKib := __src.missKib, flows := __src.flows, handover := __src.handover, mapped := __src.mapped, bufs := __src.bufs, homes := __src.homes, episodes := __src.episodes, occurred := __src.occurred, rr := qn, counters := __src.counters })).espIn c f.data else (some f.data, ((s.elapse dt).sumpPop qn f).setRmDom c (have __src := (s.elapse dt).rmDom c; { dataPages := __src.dataPages, itemMib := __src.itemMib, ctxPages := __src.ctxPages, qpLines := __src.qpLines, otherLines := __src.otherLines, missPkts := __src.missPkts, missKib := __src.missKib, flows := __src.flows, handover := __src.handover, mapped := __src.mapped, bufs := __src.bufs, homes := __src.homes, episodes := __src.episodes, occurred := __src.occurred, rr := qn, counters := __src.counters }))).fst = none ∧ ((if ((s.elapse dt).queue qn).sa = some 65535 then (((s.elapse dt).sumpPop qn f).setRmDom c (have __src := (s.elapse dt).rmDom c; { dataPages := __src.dataPages, itemMib := __src.itemMib, ctxPages := __src.ctxPages, qpLines := __src.qpLines, otherLines := __src.otherLines, missPkts := __src.missPkts, missKib := __src.missKib, flows := __src.flows, handover := __src.handover, mapped := __src.mapped, bufs := __src.bufs, homes := __src.homes, episodes := __src.episodes, occurred := __src.occurred, rr := qn, counters := __src.counters })).espIn c f.data else (some f.data, ((s.elapse dt).sumpPop qn f).setRmDom c (have __src := (s.elapse dt).rmDom c; { dataPages := __src.dataPages, itemMib := __src.itemMib, ctxPages := __src.ctxPages, qpLines := __src.qpLines, otherLines := __src.otherLines, missPkts := __src.missPkts, missKib := __src.missKib, flows := __src.flows, handover := __src.handover, mapped := __src.mapped, bufs := __src.bufs, homes := __src.homes, episodes := __src.episodes, occurred := __src.occurred, rr := qn, counters := __src.counters }))).snd.flowRoom c (cfg.base + crc32c 4294967295 (List.flatMap (fun e => slice (List.take 128 f.data) e.fst e.snd) cfg.ranges) % 2 ^ cfg.log2) = true)) ∧
  (∃ (s : State) (dt : Nat) (c : Nat) (qn : Nat) (f : Frame) (more : List Frame) (b : Nat) (cfg : SumpCfg) (bytes : Bytes),
    (s.elapse dt).Plain ∧ (s.elapse dt).impOn = true ∧ (s.elapse dt).sumpTurn c = some qn ∧ ((s.elapse dt).queue qn).frames = f :: more ∧ (s.elapse dt).freeBuf c = some b ∧ tget? s.rm.sumps qn = some cfg ∧ (if ((s.elapse dt).queue qn).sa = some 65535 then (((s.elapse dt).sumpPop qn f).setRmDom c (have __src := (s.elapse dt).rmDom c; { dataPages := __src.dataPages, itemMib := __src.itemMib, ctxPages := __src.ctxPages, qpLines := __src.qpLines, otherLines := __src.otherLines, missPkts := __src.missPkts, missKib := __src.missKib, flows := __src.flows, handover := __src.handover, mapped := __src.mapped, bufs := __src.bufs, homes := __src.homes, episodes := __src.episodes, occurred := __src.occurred, rr := qn, counters := __src.counters })).espIn c f.data else (some f.data, ((s.elapse dt).sumpPop qn f).setRmDom c (have __src := (s.elapse dt).rmDom c; { dataPages := __src.dataPages, itemMib := __src.itemMib, ctxPages := __src.ctxPages, qpLines := __src.qpLines, otherLines := __src.otherLines, missPkts := __src.missPkts, missKib := __src.missKib, flows := __src.flows, handover := __src.handover, mapped := __src.mapped, bufs := __src.bufs, homes := __src.homes, episodes := __src.episodes, occurred := __src.occurred, rr := qn, counters := __src.counters }))).fst = some bytes ∧ f.bad = false ∧ ((if ((s.elapse dt).queue qn).sa = some 65535 then (((s.elapse dt).sumpPop qn f).setRmDom c (have __src := (s.elapse dt).rmDom c; { dataPages := __src.dataPages, itemMib := __src.itemMib, ctxPages := __src.ctxPages, qpLines := __src.qpLines, otherLines := __src.otherLines, missPkts := __src.missPkts, missKib := __src.missKib, flows := __src.flows, handover := __src.handover, mapped := __src.mapped, bufs := __src.bufs, homes := __src.homes, episodes := __src.episodes, occurred := __src.occurred, rr := qn, counters := __src.counters })).espIn c f.data else (some f.data, ((s.elapse dt).sumpPop qn f).setRmDom c (have __src := (s.elapse dt).rmDom c; { dataPages := __src.dataPages, itemMib := __src.itemMib, ctxPages := __src.ctxPages, qpLines := __src.qpLines, otherLines := __src.otherLines, missPkts := __src.missPkts, missKib := __src.missKib, flows := __src.flows, handover := __src.handover, mapped := __src.mapped, bufs := __src.bufs, homes := __src.homes, episodes := __src.episodes, occurred := __src.occurred, rr := qn, counters := __src.counters }))).snd.flowRoom c (cfg.base + crc32c 4294967295 (List.flatMap (fun e => slice (List.take 128 f.data) e.fst e.snd) cfg.ranges) % 2 ^ cfg.log2) = true) ∧ (((s.elapse dt).flow (flowKey c (cfg.base + crc32c 4294967295 (List.flatMap (fun e => slice (List.take 128 f.data) e.fst e.snd) cfg.ranges) % 2 ^ cfg.log2))).place.isSome = true) ∧ ((tget? s.rm.flows (flowKey c (cfg.base + crc32c 4294967295 (List.flatMap (fun e => slice (List.take 128 f.data) e.fst e.snd) cfg.ranges) % 2 ^ cfg.log2))).isSome = true)) ∧
  (∃ (s : State) (dt : Nat) (k : Nat),
    (s.elapse dt).Plain ∧ ((s.elapse dt).flow k).fullPeriod ≠ some ((s.elapse dt).now / grid 20) ∧ (tget? s.rm.flows k).isSome = true) ∧
  (∃ (s : State) (dt : Nat) (k : Nat),
    (s.elapse dt).Plain ∧ ((s.elapse dt).flow k).fullPeriod = some ((s.elapse dt).now / grid 20)) ∧
  (∃ (s : State) (dt : Nat) (c : Nat) (h : Nat),
    (s.elapse dt).Plain ∧ ((List.all s.rm.flows fun f => f.snd.held.isEmpty && f.snd.due.isEmpty) = true) ∧ ((s.elapse dt).impOn = false ∨ ((s.elapse dt).core c).state ≠ CState.running ∨ ((s.elapse dt).thr c h).live = false ∨ ((s.elapse dt).thr c h).state = TState.halted ∨ (s.elapse dt).turnFor c h = none)) ∧
  (∃ (s : State) (dt : Nat) (c : Nat) (h : Nat) (k : Nat) (f : Flow),
    (s.elapse dt).Plain ∧ ((List.all s.rm.flows fun f => f.snd.held.isEmpty && f.snd.due.isEmpty) = true) ∧ s.rm.flows = [(k, f)] ∧ (s.elapse dt).impOn = true ∧ ((s.elapse dt).core c).state = CState.running ∧ ((s.elapse dt).thr c h).live = true ∧ ((s.elapse dt).thr c h).state ≠ TState.halted ∧ f.place = some (c, h) ∧ f.hand = none ∧ (((s.elapse dt).fclass (flowDom k) f.cls).inflight ≤ (List.filter (fun i => i.onThr c h) f.out).length ∨ f.items = [] ∨ ∀ (y : Nat × Machine.Sub), y ∈ ((s.elapse dt).thr c h).subs → y.snd.kind ≠ 1 ∨ y.snd.mask.testBit f.cls = false ∨ 16 ≤ y.snd.unread.length + y.snd.read.length)) ∧
  (∃ (s : State) (dt : Nat) (c : Nat) (h : Nat) (k : Nat) (f : Flow) (i : Item) (more : List Item) (n : Nat) (y : Machine.Sub),
    (s.elapse dt).Plain ∧ ((List.all s.rm.flows fun f => f.snd.held.isEmpty && f.snd.due.isEmpty) = true) ∧ s.rm.flows = [(k, f)] ∧ (s.elapse dt).impOn = true ∧ ((s.elapse dt).core c).state = CState.running ∧ ((s.elapse dt).thr c h).live = true ∧ ((s.elapse dt).thr c h).state ≠ TState.halted ∧ f.place = some (c, h) ∧ f.hand = none ∧ ((List.filter (fun i => i.onThr c h) f.out).length < ((s.elapse dt).fclass (flowDom k) f.cls).inflight) ∧ f.items = i :: more ∧ ¬i ∈ more ∧ ((s.elapse dt).thr c h).subs = [(n, y)] ∧ y.kind = 1 ∧ y.mask.testBit f.cls = true ∧ y.unread.length + y.read.length < 16 ∧ (s.elapse dt).ctx? (ctxKey 2 (flowDom k) (flowNum k)) = none) ∧
  (∃ (s : State) (dt : Nat) (c : Nat) (h : Nat) (k : Nat) (f : Flow) (i : Item) (more : List Item) (n : Nat) (y : Machine.Sub) (z : Ctx),
    (s.elapse dt).Plain ∧ ((List.all s.rm.flows fun f => f.snd.held.isEmpty && f.snd.due.isEmpty) = true) ∧ s.rm.flows = [(k, f)] ∧ (s.elapse dt).impOn = true ∧ ((s.elapse dt).core c).state = CState.running ∧ ((s.elapse dt).thr c h).live = true ∧ ((s.elapse dt).thr c h).state ≠ TState.halted ∧ f.place = some (c, h) ∧ f.hand = none ∧ ((List.filter (fun i => i.onThr c h) f.out).length < ((s.elapse dt).fclass (flowDom k) f.cls).inflight) ∧ f.items = i :: more ∧ ¬i ∈ more ∧ ((s.elapse dt).thr c h).subs = [(n, y)] ∧ y.kind = 1 ∧ y.mask.testBit f.cls = true ∧ y.unread.length + y.read.length < 16 ∧ (s.elapse dt).ctx? (ctxKey 2 (flowDom k) (flowNum k)) = some z ∧ z.place = 0 ∧ z.failed = false ∧ s.mem.marks = []) ∧
  (∃ (s : State) (dt : Nat) (c : Nat) (h : Nat) (k : Nat) (f : Flow) (i : Item) (more : List Item) (n : Nat) (y : Machine.Sub) (z : Ctx),
    (s.elapse dt).Plain ∧ ((List.all s.rm.flows fun f => f.snd.held.isEmpty && f.snd.due.isEmpty) = true) ∧ s.rm.flows = [(k, f)] ∧ (s.elapse dt).impOn = true ∧ ((s.elapse dt).core c).state = CState.running ∧ ((s.elapse dt).thr c h).live = true ∧ ((s.elapse dt).thr c h).state ≠ TState.halted ∧ f.place = some (c, h) ∧ f.hand = none ∧ ((List.filter (fun i => i.onThr c h) f.out).length < ((s.elapse dt).fclass (flowDom k) f.cls).inflight) ∧ f.items = i :: more ∧ ¬i ∈ more ∧ ((s.elapse dt).thr c h).subs = [(n, y)] ∧ y.kind = 1 ∧ y.mask.testBit f.cls = true ∧ y.unread.length + y.read.length < 16 ∧ (s.elapse dt).ctx? (ctxKey 2 (flowDom k) (flowNum k)) = some z ∧ z.place ≠ 0) ∧
  (∃ (s : State) (dt : Nat),
    (s.elapse dt).Plain ∧ ((s.elapse dt).impOn = false ∨ (s.elapse dt).now / grid 20 ≤ s.rm.rebalanced)) ∧
  (∃ (s : State) (dt : Nat),
    (s.elapse dt).Plain ∧ (s.elapse dt).impOn = true ∧ s.rm.rebalanced < (s.elapse dt).now / grid 20 ∧ ((List.all s.rm.classes fun e => !e.snd.rebalance) = true)) ∧
  (∃ (s : State) (dt : Nat) (cl : FClass) (p : Nat × Nat) (q : Nat × Nat) (k : Nat) (f : Flow),
    (s.elapse dt).Plain ∧ (s.elapse dt).impOn = true ∧ s.rm.rebalanced < (s.elapse dt).now / grid 20 ∧ s.rm.classes = [(0, cl)] ∧ cl.rebalance = true ∧ (s.elapse dt).domOn 0 = true ∧ List.filter ((s.elapse dt).eligible 0 0) (s.elapse dt).threads = [p, q] ∧ p ≠ q ∧ s.rm.flows = [(k, f)] ∧ flowDom k = 0 ∧ f.cls = 0 ∧ f.place = some p ∧ f.hand = none ∧ f.due = [] ∧ f.items ≠ [] ∧ 0 < cl.high ∧ cl.high ≤ f.items.length) ∧
  (∃ (s : State) (dt : Nat) (cl : FClass) (p : Nat × Nat) (q : Nat × Nat) (k : Nat) (f : Flow),
    (s.elapse dt).Plain ∧ (s.elapse dt).impOn = true ∧ s.rm.rebalanced < (s.elapse dt).now / grid 20 ∧ s.rm.classes = [(0, cl)] ∧ cl.rebalance = true ∧ (s.elapse dt).domOn 0 = true ∧ List.filter ((s.elapse dt).eligible 0 0) (s.elapse dt).threads = [p, q] ∧ p ≠ q ∧ s.rm.flows = [(k, f)] ∧ flowDom k = 0 ∧ f.cls = 0 ∧ f.place = some p ∧ f.hand = none ∧ f.due = [] ∧ f.items ≠ [] ∧ 0 < cl.high ∧ f.items.length < cl.high) ∧
  (∃ (s : State) (dt : Nat),
    (s.elapse dt).Plain ∧ s.rm.zeroing = []) ∧
  (∃ (s : State) (dt : Nat) (d : Nat) (p : Nat) (n : Nat) (more : List (Nat × Nat × Nat)),
    (s.elapse dt).Plain ∧ s.rm.zeroing = (d, p, n) :: more ∧ (s.mem.marked = [] ∨ 2 ^ 20 ≤ p)) ∧
  (∃ (s : State) (dt : Nat) (d : Nat) (p : Nat) (n : Nat) (more : List (Nat × Nat × Nat)) (y : Nat),
    (s.elapse dt).Plain ∧ s.rm.zeroing = (d, p, n) :: more ∧ s.mem.marked = [(dataPageKey d p, y)] ∧ p < 2 ^ 20) :=
  ⟨⟨(word (dW 6 0 7 6) (run1 { subs := [(3, wsub)] })), 3, 1, 2, (dW 6 0 7 6), (thrWith { subs := [(3, wsub)] }), wsub,
      fetches_of (by decide +kernel), by decide +kernel⟩,
    ⟨(word (dW 6 0 7 6) (flow0 { subs := [(3, { wsub with unread := [0, 1] })] } { out := [it0] })), 3, 1, 2, (dW 6 0 7 6), (thrWith { subs := [(3, { wsub with unread := [0, 1] })] }), { wsub with unread := [0, 1] }, 0, [1], 0, { out := [it0] }, it0,
      fetches_of (by decide +kernel), by decide +kernel⟩,
    ⟨(word (dW 6 1 7 6) ({ flow0 { subs := [(3, { wsub with read := [0] })], item := some (0, 0, 3, 0) } { out := [{ it0 with taken := true, buf := some 4 }] } with rm.doms := [(0, { bufs := [4] })] })), 3, 1, 2, (dW 6 1 7 6), (thrWith { subs := [(3, { wsub with read := [0] })], item := some (0, 0, 3, 0) }), 0, { out := [{ it0 with taken := true, buf := some 4 }] }, { it0 with taken := true, buf := some 4 }, { wsub with read := [0] }, 0, 3,
      fetches_of (by decide +kernel), by decide +kernel⟩,
    ⟨(word (dW 6 1 7 6) (flow0 { subs := [(3, { wsub with read := [0] })], item := some (0, 0, 3, 0) } { out := [{ it0 with taken := true }], hand := some (1, 2) })), 3, 1, 2, (dW 6 1 7 6), (thrWith { subs := [(3, { wsub with read := [0] })], item := some (0, 0, 3, 0) }), 0, { out := [{ it0 with taken := true }], hand := some (1, 2) }, { it0 with taken := true }, { wsub with read := [0] }, 0, 3,
      fetches_of (by decide +kernel), by decide +kernel⟩,
    ⟨(word (dW 6 2 7 6) ({ flow0 {} {} with rm.flows := [(3, { items := [it0] })], rm.classes := [(0, { depth := 1 })] })), 3, 1, 2, (dW 6 2 7 6), (thrWith {}), { items := [it0] },
      fetches_of (by decide +kernel), by decide +kernel⟩,
    ⟨(word (dW 6 2 7 6) ({ flow0 {} {} with rm.flows := [(3, { place := some (1, 2), nextSeq := 2 ^ 32 - 1 })] })), 3, 1, 2, (dW 6 2 7 6), (thrWith {}), { place := some (1, 2), nextSeq := 2 ^ 32 - 1 },
      fetches_of (by decide +kernel), by decide +kernel⟩,
    ⟨(word (dW 6 2 7 6) ({ flow0 { subs := [(0, wsub)] } {} with rm.flows := [(3, {})] })), 3, 1, 2, (dW 6 2 7 6), (thrWith { subs := [(0, wsub)] }), {}, (1, 2),
      fetches_of (by decide +kernel), by decide +kernel⟩,
    ⟨(word (dW 6 2 7 6) ({ flow0 {} {} with rm.flows := [(3, {})] })), 3, 1, 2, (dW 6 2 7 6), (thrWith {}), {},
      fetches_of (by decide +kernel), by decide +kernel⟩,
    ⟨(word (dW 6 8 7 6) (pages {} [(0, 6)])), 3, 1, 2, (dW 6 8 7 6), (thrWith {}),
      fetches_of (by decide +kernel), by decide +kernel⟩,
    ⟨(word (dW 6 8 7 6) (pages { regs := [(7, 2 ^ 31 + 8)] } [])), 3, 1, 2, (dW 6 8 7 6), (thrWith { regs := [(7, 2 ^ 31 + 8)] }),
      fetches_of (by decide +kernel), by decide +kernel⟩,
    ⟨(word (dW 6 8 7 6) (pages { regs := [(7, 2 ^ 31 + 3)] } [(4, 5)])), 3, 1, 2, (dW 6 8 7 6), (thrWith { regs := [(7, 2 ^ 31 + 3)] }), 4, 5,
      fetches_of (by decide +kernel), by decide +kernel⟩,
    ⟨(word (dW 6 8 7 6) (pages {} [(3, 5)])), 3, 1, 2, (dW 6 8 7 6), (thrWith {}), 3, 5,
      fetches_of (by decide +kernel), by decide +kernel⟩,
    ⟨(word (dW 6 8 7 6) (pages {} [(2, 5)])), 3, 1, 2, (dW 6 8 7 6), (thrWith {}), 2, 5,
      fetches_of (by decide +kernel), by decide +kernel⟩,
    ⟨(word (dW 6 8 7 6) ({ pages {} [(1, 0xEFFE)] with rm.doms := [(0, { dataPages := 70000, mapped := [(1, 0xEFFE)] })] })), 3, 1, 2, (dW 6 8 7 6), (thrWith {}), 1, 0xEFFE,
      fetches_of (by decide +kernel), by decide +kernel⟩,
    ⟨(word (dW 6 9 7 6) (pages { regs := [(7, 5 * 65536), (6, 0)] } [(5, 3)])), 3, 1, 2, (dW 6 9 7 6), (thrWith { regs := [(7, 5 * 65536), (6, 0)] }),
      fetches_of (by decide +kernel), by decide +kernel⟩,
    ⟨(word (dW 6 9 7 6) (pages { regs := [(7, 5 * 65536), (6, 1)] } [(4, 3)])), 3, 1, 2, (dW 6 9 7 6), (thrWith { regs := [(7, 5 * 65536), (6, 1)] }), 4, 3,
      fetches_of (by decide +kernel), by decide +kernel⟩,
    ⟨(word (dW 6 8 7 6) (run1U {})), 3, 1, 2, (dW 6 8 7 6), (thrU {}),
      fetches_of (by decide +kernel), by decide +kernel⟩,
    ⟨(word (dW 6 9 7 6) (run1U {})), 3, 1, 2, (dW 6 9 7 6), (thrU {}),
      fetches_of (by decide +kernel), by decide +kernel⟩,
    ⟨(word (dW 6 0 7 6) (run1 { regs := [(7, 1048576)] })), 3, 1, 2, (dW 6 0 7 6), (thrWith { regs := [(7, 1048576)] }),
      fetches_of (by decide +kernel), by decide +kernel⟩,
    ⟨(word (dW 6 1 7 6) (run1 { regs := [(7, 1048576)] })), 3, 1, 2, (dW 6 1 7 6), (thrWith { regs := [(7, 1048576)] }),
      fetches_of (by decide +kernel), by decide +kernel⟩,
    ⟨(word (dW 6 2 7 6) (run1 { regs := [(7, 1048576)] })), 3, 1, 2, (dW 6 2 7 6), (thrWith { regs := [(7, 1048576)] }),
      fetches_of (by decide +kernel), by decide +kernel⟩,
    ⟨(word (dW 6 8 7 6) (run1 { regs := [(7, 1025)] })), 3, 1, 2, (dW 6 8 7 6), (thrWith { regs := [(7, 1025)] }),
      fetches_of (by decide +kernel), by decide +kernel⟩,
    ⟨(word (dW 6 9 7 6) (run1 {})), 3, 1, 2, (dW 6 9 7 6), (thrWith {}),
      fetches_of (by decide +kernel), by decide +kernel⟩,
    ⟨(run1 {}), 3, 0,
      plain_of (by decide +kernel), by decide +kernel⟩,
    ⟨({ run1 {} with tm.queues := [(9, { cfg := { kind := 3 }, frames := [{ data := zeros 60 }] })], rm.sumps := [(9, { cls := 0, base := 4, log2 := 0, ranges := [] })], rm.flows := [(4, { place := some (1, 2) })], rm.doms := [(0, { itemMib := 0 })] }), 3, 0, 9, { data := zeros 60 }, [],
      plain_of (by decide +kernel), by decide +kernel⟩,
    ⟨({ run1 {} with tm.queues := [(9, { cfg := { kind := 3 }, frames := [{ data := zeros 60, bad := true }] })], rm.sumps := [(9, { cls := 0, base := 4, log2 := 0, ranges := [] })], rm.flows := [(4, { place := some (1, 2) })] }), 3, 0, 9, { data := zeros 60, bad := true }, [], 0, { cls := 0, base := 4, log2 := 0, ranges := [] },
      plain_of (by decide +kernel), by decide +kernel⟩,
    ⟨({ run1 {} with tm.queues := [(9, { cfg := { kind := 3 }, frames := [{ data := zeros 60 }] })], rm.sumps := [(9, { cls := 0, base := 4, log2 := 0, ranges := [] })], rm.flows := [(4, { place := some (1, 2), items := [it0] })], rm.classes := [(0, { depth := 1 })] }), 3, 0, 9, { data := zeros 60 }, [], 0, { cls := 0, base := 4, log2 := 0, ranges := [] },
      plain_of (by decide +kernel), by decide +kernel⟩,
    ⟨({ run1 {} with tm.queues := [(9, { cfg := { kind := 3 }, sa := some 0xFFFF, frames := [{ data := (zeros 12 ++ [8#8, 0#8, 0x45#8] ++ zeros 8 ++ [50#8] ++ zeros 40) }] })], rm.sumps := [(9, { cls := 0, base := 4, log2 := 0, ranges := [] })], rm.flows := [(4, { place := some (1, 2) })] }), 3, 0, 9, { data := (zeros 12 ++ [8#8, 0#8, 0x45#8] ++ zeros 8 ++ [50#8] ++ zeros 40) }, [], 0, { cls := 0, base := 4, log2 := 0, ranges := [] },
      plain_of (by decide +kernel), by decide +kernel⟩,
    ⟨({ run1 {} with tm.queues := [(9, { cfg := { kind := 3 }, frames := [{ data := zeros 60 }] })], rm.sumps := [(9, { cls := 0, base := 4, log2 := 0, ranges := [] })], rm.flows := [(4, { place := some (1, 2) })] }), 3, 0, 9, { data := zeros 60 }, [], 0, { cls := 0, base := 4, log2 := 0, ranges := [] }, (zeros 60),
      plain_of (by decide +kernel), by decide +kernel⟩,
    ⟨(flow0 {} {}), 3, 0,
      plain_of (by decide +kernel), by decide +kernel⟩,
    ⟨({ flow0 {} {} with rm.flows := [(0, { fullPeriod := some 0 })] }), 3, 0,
      plain_of (by decide +kernel), by decide +kernel⟩,
    ⟨(run1 {}), 3, 1, 2,
      plain_of (by decide +kernel), by decide +kernel⟩,
    ⟨(flow0 { subs := [(3, { wsub with mask := 2 })] } { place := some (1, 2), items := [{ seq := 5 }, { seq := 6 }], migrated := true }), 3, 1, 2, 0, { place := some (1, 2), items := [{ seq := 5 }, { seq := 6 }], migrated := true },
      plain_of (by decide +kernel), by decide +kernel⟩,
    ⟨(flow0 { subs := [(3, wsub)] } { place := some (1, 2), items := [{ seq := 5 }, { seq := 6 }], migrated := true }), 3, 1, 2, 0, { place := some (1, 2), items := [{ seq := 5 }, { seq := 6 }], migrated := true }, { seq := 5 }, [{ seq := 6 }], 3, wsub,
      plain_of (by decide +kernel), by decide +kernel⟩,
    ⟨({ flow0 { subs := [(3, wsub)] } { place := some (1, 2), items := [{ seq := 5 }, { seq := 6 }], migrated := true } with rm.ctxs := [(ctxKey 2 0 0, {})] }), 3, 1, 2, 0, { place := some (1, 2), items := [{ seq := 5 }, { seq := 6 }], migrated := true }, { seq := 5 }, [{ seq := 6 }], 3, wsub, {},
      plain_of (by decide +kernel), by decide +kernel⟩,
    ⟨({ flow0 { subs := [(3, wsub)] } { place := some (1, 2), items := [{ seq := 5 }, { seq := 6 }], migrated := true } with rm.ctxs := [(ctxKey 2 0 0, { place := 1 })] }), 3, 1, 2, 0, { place := some (1, 2), items := [{ seq := 5 }, { seq := 6 }], migrated := true }, { seq := 5 }, [{ seq := 6 }], 3, wsub, { place := 1 },
      plain_of (by decide +kernel), by decide +kernel⟩,
    ⟨(run1 {}), 3,
      plain_of (by decide +kernel), by decide +kernel⟩,
    ⟨({ run1 {} with now := grid 20 }), 3,
      plain_of (by decide +kernel), by decide +kernel⟩,
    ⟨({ run1 {} with now := grid 20, cores.cores := [(1, { state := .running, threads := [(2, { thr1 with subs := [(0, wsub)] }), (3, { thr1 with subs := [(0, wsub)] })] })], rm.classes := [(0, { rebalance := true, high := 2, low := 1 })], rm.flows := [(4, { place := some (1, 2), items := [{ seq := 5 }, { seq := 6 }] })] }), 3, { rebalance := true, high := 2, low := 1 }, (1, 2), (1, 3), 4, { place := some (1, 2), items := [{ seq := 5 }, { seq := 6 }] },
      plain_of (by decide +kernel), by decide +kernel⟩,
    ⟨({ run1 {} with now := grid 20, cores.cores := [(1, { state := .running, threads := [(2, { thr1 with subs := [(0, wsub)] }), (3, { thr1 with subs := [(0, wsub)] })] })], rm.classes := [(0, { rebalance := true, high := 2, low := 1 })], rm.flows := [(4, { place := some (1, 2), items := [{ seq := 5 }] })] }), 3, { rebalance := true, high := 2, low := 1 }, (1, 2), (1, 3), 4, { place := some (1, 2), items := [{ seq := 5 }] },
      plain_of (by decide +kernel), by decide +kernel⟩,
    ⟨(run1 {}), 3,
      plain_of (by decide +kernel), by decide +kernel⟩,
    ⟨({ run1 {} with rm.zeroing := [(0, 4, 1), (0, 9, 2)] }), 3, 0, 4, 1, [(0, 9, 2)],
      plain_of (by decide +kernel), by decide +kernel⟩,
    ⟨({ run1 {} with rm.zeroing := [(0, 4, 2)], mem.marked := [(dataPageKey 0 4, 77)] }), 3, 0, 4, 2, [], 77,
      plain_of (by decide +kernel), by decide +kernel⟩⟩

/-- The premises of `Obligations.ManagerCommands`, clause by clause, are met. -/
theorem witness_ManagerCommands :
  (∃ (s : State) (dt : Nat) (p : Path) (x : Session) (q : TReq) (cls : Nat) (n : Nat) (d : Nat) (re : Nat) (rb : Nat) (hi : Nat) (lo : Nat),
    Issued (s.elapse dt) p x q 1824 7 Perm.any ∧ (¬(cls < 8 ∧ 1 ≤ n ∧ n ≤ 16 ∧ 1 ≤ d ∧ d ≤ 4096 ∧ re < 2 ∧ rb < 2 ∧ hi ≤ 65535 ∧ 1 ≤ lo ∧ lo < hi))) ∧
  (∃ (s : State) (dt : Nat) (p : Path) (x : Session) (q : TReq) (cls : Nat) (n : Nat) (d : Nat) (re : Nat) (rb : Nat) (hi : Nat) (lo : Nat),
    Issued (s.elapse dt) p x q 1824 7 Perm.any ∧ (cls < 8 ∧ 1 ≤ n ∧ n ≤ 16 ∧ 1 ≤ d ∧ d ≤ 4096 ∧ re < 2 ∧ rb < 2 ∧ hi ≤ 65535 ∧ 1 ≤ lo ∧ lo < hi)) ∧
  (∃ (s : State) (dt : Nat) (p : Path) (x : Session) (q : TReq) (n : Nat) (cls : Nat) (f : Nat) (k : Nat) (rs : List (Nat × Nat)),
    Issued (s.elapse dt) p x q 1825 (5 + 2 * rs.length) ((s.elapse dt).queuePerm n) ∧ (¬(cls < 8 ∧ k ≤ 12 ∧ rs.length ≤ 4 ∧ (∀ (e : Nat × Nat), e ∈ rs → e.fst + e.snd ≤ 128) ∧ f + 2 ^ k ≤ (s.elapse dt).flowRange (((s.elapse dt).queueDom n).getD 0)))) ∧
  (∃ (s : State) (dt : Nat) (p : Path) (x : Session) (q : TReq) (n : Nat) (cls : Nat) (f : Nat) (k : Nat) (rs : List (Nat × Nat)),
    Issued (s.elapse dt) p x q 1825 (5 + 2 * rs.length) ((s.elapse dt).queuePerm n) ∧ (cls < 8 ∧ k ≤ 12 ∧ rs.length ≤ 4 ∧ (∀ (e : Nat × Nat), e ∈ rs → e.fst + e.snd ≤ 128) ∧ f + 2 ^ k ≤ (s.elapse dt).flowRange (((s.elapse dt).queueDom n).getD 0)) ∧ ((s.elapse dt).queueDom n = none ∨ ((s.elapse dt).queue n).cfg.kind ≠ 3)) ∧
  (∃ (s : State) (dt : Nat) (p : Path) (x : Session) (q : TReq) (n : Nat) (cls : Nat) (f : Nat) (k : Nat) (rs : List (Nat × Nat)),
    Issued (s.elapse dt) p x q 1825 (5 + 2 * rs.length) ((s.elapse dt).queuePerm n) ∧ (cls < 8 ∧ k ≤ 12 ∧ rs.length ≤ 4 ∧ (∀ (e : Nat × Nat), e ∈ rs → e.fst + e.snd ≤ 128) ∧ f + 2 ^ k ≤ (s.elapse dt).flowRange (((s.elapse dt).queueDom n).getD 0)) ∧ ((s.elapse dt).queueDom n).isSome = true ∧ ((s.elapse dt).queue n).cfg.kind = 3) ∧
  (∃ (s : State) (dt : Nat) (p : Path) (x : Session) (q : TReq) (n : Nat) (c : Nat) (h : Nat),
    Issued (s.elapse dt) p x q 1826 3 (flowPerm n) ∧ n < 2 ^ 24 ∧ (¬((s.elapse dt).coreDom c = some (flowDom (cmdFlow x.dom n)) ∧ h < 8 ∧ ((s.elapse dt).core c).state = CState.running ∧ ((s.elapse dt).thr c h).live = true ∧ ((s.elapse dt).thr c h).covers ((s.elapse dt).flow (cmdFlow x.dom n)).cls = true))) ∧
  (∃ (s : State) (dt : Nat) (p : Path) (x : Session) (q : TReq) (n : Nat) (c : Nat) (h : Nat),
    Issued (s.elapse dt) p x q 1826 3 (flowPerm n) ∧ n < 2 ^ 24 ∧ ((s.elapse dt).coreDom c = some (flowDom (cmdFlow x.dom n)) ∧ h < 8 ∧ ((s.elapse dt).core c).state = CState.running ∧ ((s.elapse dt).thr c h).live = true ∧ ((s.elapse dt).thr c h).covers ((s.elapse dt).flow (cmdFlow x.dom n)).cls = true) ∧ (((s.elapse dt).flow (cmdFlow x.dom n)).hand.isSome = true ∨ ((s.elapse dt).flow (cmdFlow x.dom n)).due ≠ [])) ∧
  (∃ (s : State) (dt : Nat) (p : Path) (x : Session) (q : TReq) (n : Nat) (c : Nat) (h : Nat),
    Issued (s.elapse dt) p x q 1826 3 (flowPerm n) ∧ n < 2 ^ 24 ∧ ((s.elapse dt).coreDom c = some (flowDom (cmdFlow x.dom n)) ∧ h < 8 ∧ ((s.elapse dt).core c).state = CState.running ∧ ((s.elapse dt).thr c h).live = true ∧ ((s.elapse dt).thr c h).covers ((s.elapse dt).flow (cmdFlow x.dom n)).cls = true) ∧ ((s.elapse dt).flow (cmdFlow x.dom n)).hand = none ∧ ((s.elapse dt).flow (cmdFlow x.dom n)).due = [] ∧ (tget? s.rm.flows (cmdFlow x.dom n) = none ∨ ((s.elapse dt).flow (cmdFlow x.dom n)).place = some (c, h))) ∧
  (∃ (s : State) (dt : Nat) (p : Path) (x : Session) (q : TReq) (n : Nat) (c : Nat) (h : Nat),
    Issued (s.elapse dt) p x q 1826 3 (flowPerm n) ∧ n < 2 ^ 24 ∧ ((s.elapse dt).coreDom c = some (flowDom (cmdFlow x.dom n)) ∧ h < 8 ∧ ((s.elapse dt).core c).state = CState.running ∧ ((s.elapse dt).thr c h).live = true ∧ ((s.elapse dt).thr c h).covers ((s.elapse dt).flow (cmdFlow x.dom n)).cls = true) ∧ ((s.elapse dt).flow (cmdFlow x.dom n)).hand = none ∧ ((s.elapse dt).flow (cmdFlow x.dom n)).due = [] ∧ (tget? s.rm.flows (cmdFlow x.dom n)).isSome = true ∧ ((s.elapse dt).flow (cmdFlow x.dom n)).place ≠ some (c, h) ∧ (((s.elapse dt).flow (cmdFlow x.dom n)).items ≠ [] ∨ ((s.elapse dt).flow (cmdFlow x.dom n)).out ≠ [])) ∧
  (∃ (s : State) (dt : Nat) (p : Path) (x : Session) (q : TReq) (n : Nat) (c : Nat) (h : Nat),
    Issued (s.elapse dt) p x q 1826 3 (flowPerm n) ∧ n < 2 ^ 24 ∧ ((s.elapse dt).coreDom c = some (flowDom (cmdFlow x.dom n)) ∧ h < 8 ∧ ((s.elapse dt).core c).state = CState.running ∧ ((s.elapse dt).thr c h).live = true ∧ ((s.elapse dt).thr c h).covers ((s.elapse dt).flow (cmdFlow x.dom n)).cls = true) ∧ ((s.elapse dt).flow (cmdFlow x.dom n)).hand = none ∧ ((s.elapse dt).flow (cmdFlow x.dom n)).due = [] ∧ (tget? s.rm.flows (cmdFlow x.dom n)).isSome = true ∧ ((s.elapse dt).flow (cmdFlow x.dom n)).place ≠ some (c, h) ∧ ((s.elapse dt).flow (cmdFlow x.dom n)).items = [] ∧ ((s.elapse dt).flow (cmdFlow x.dom n)).out = [] ∧ ((s.elapse dt).flow (cmdFlow x.dom n)).held = [] ∧ List.length s.rm.flows = 1) ∧
  (∃ (s : State) (dt : Nat) (p : Path) (x : Session) (q : TReq) (n : Nat),
    Issued (s.elapse dt) p x q 1827 1 (flowPerm n) ∧ n < 2 ^ 24) ∧
  (∃ (s : State) (dt : Nat) (p : Path) (x : Session) (q : TReq) (ls : List (Nat × Nat)),
    Issued (s.elapse dt) p x q 1828 32 Perm.any ∧ (1048576 < (List.map (fun e => e.fst.fst) (List.filter (fun e => (s.elapse dt).domOn e.snd) ls.zipIdx)).sum ∨ 8192 < (List.map (fun e => e.fst.snd) (List.filter (fun e => (s.elapse dt).domOn e.snd) ls.zipIdx)).sum ∨ ∃ f, f ∈ s.rm.flows ∧ ∀ (e : (Nat × Nat) × Nat), e ∈ List.filter (fun e => (s.elapse dt).domOn e.snd) ls.zipIdx → e.snd ≠ flowDom f.fst ∨ e.fst.fst ≤ flowNum f.fst)) ∧
  (∃ (s : State) (dt : Nat) (p : Path) (x : Session) (q : TReq) (ls : List (Nat × Nat)),
    Issued (s.elapse dt) p x q 1828 32 Perm.any ∧ (¬(1048576 < (List.map (fun e => e.fst.fst) (List.filter (fun e => (s.elapse dt).domOn e.snd) ls.zipIdx)).sum ∨ 8192 < (List.map (fun e => e.fst.snd) (List.filter (fun e => (s.elapse dt).domOn e.snd) ls.zipIdx)).sum ∨ ∃ f, f ∈ s.rm.flows ∧ ∀ (e : (Nat × Nat) × Nat), e ∈ List.filter (fun e => (s.elapse dt).domOn e.snd) ls.zipIdx → e.snd ≠ flowDom f.fst ∨ e.fst.fst ≤ flowNum f.fst))) ∧
  (∃ (s : State) (dt : Nat) (p : Path) (x : Session) (q : TReq) (d : Nat) (a : Nat) (b : Nat) (c : Nat),
    Issued (s.elapse dt) p x q 2049 4 Perm.any ∧ d < 16 ∧ (¬((s.elapse dt).domOn d = true ∧ a ≤ ((s.elapse dt).memCeil d).getD (s.elapse dt).pagesTotal ∧ b ≤ 256 ∧ c < 2 ^ 22))) ∧
  (∃ (s : State) (dt : Nat) (p : Path) (x : Session) (q : TReq) (d : Nat) (a : Nat) (b : Nat) (c : Nat),
    Issued (s.elapse dt) p x q 2049 4 Perm.any ∧ d < 16 ∧ ((s.elapse dt).domOn d = true ∧ a ≤ ((s.elapse dt).memCeil d).getD (s.elapse dt).pagesTotal ∧ b ≤ 256 ∧ c < 2 ^ 22) ∧ (¬((∀ (e : Nat), e ∈ (s.elapse dt).doms → ∀ (m : Nat), (s.elapse dt).memCeil e = some m → ((s.elapse dt).setRmDom d { dataPages := a, itemMib := b, ctxPages := c, qpLines := ((s.elapse dt).rmDom d).qpLines, otherLines := ((s.elapse dt).rmDom d).otherLines, missPkts := ((s.elapse dt).rmDom d).missPkts, missKib := ((s.elapse dt).rmDom d).missKib, flows := ((s.elapse dt).rmDom d).flows, handover := ((s.elapse dt).rmDom d).handover, mapped := ((s.elapse dt).rmDom d).mapped, bufs := ((s.elapse dt).rmDom d).bufs, homes := ((s.elapse dt).rmDom d).homes, episodes := ((s.elapse dt).rmDom d).episodes, occurred := ((s.elapse dt).rmDom d).occurred, rr := ((s.elapse dt).rmDom d).rr, counters := ((s.elapse dt).rmDom d).counters }).poolPages e ≤ m) ∧ (List.map ((s.elapse dt).setRmDom d { dataPages := a, itemMib := b, ctxPages := c, qpLines := ((s.elapse dt).rmDom d).qpLines, otherLines := ((s.elapse dt).rmDom d).otherLines, missPkts := ((s.elapse dt).rmDom d).missPkts, missKib := ((s.elapse dt).rmDom d).missKib, flows := ((s.elapse dt).rmDom d).flows, handover := ((s.elapse dt).rmDom d).handover, mapped := ((s.elapse dt).rmDom d).mapped, bufs := ((s.elapse dt).rmDom d).bufs, homes := ((s.elapse dt).rmDom d).homes, episodes := ((s.elapse dt).rmDom d).episodes, occurred := ((s.elapse dt).rmDom d).occurred, rr := ((s.elapse dt).rmDom d).rr, counters := ((s.elapse dt).rmDom d).counters }).poolPages (s.elapse dt).doms).sum + s.mem.retired.length ≤ (s.elapse dt).pagesTotal))) ∧
  (∃ (s : State) (dt : Nat) (p : Path) (x : Session) (q : TReq) (d : Nat) (a : Nat) (b : Nat) (c : Nat),
    Issued (s.elapse dt) p x q 2049 4 Perm.any ∧ d < 16 ∧ ((s.elapse dt).domOn d = true ∧ a ≤ ((s.elapse dt).memCeil d).getD (s.elapse dt).pagesTotal ∧ b ≤ 256 ∧ c < 2 ^ 22) ∧ ((∀ (e : Nat), e ∈ (s.elapse dt).doms → ∀ (m : Nat), (s.elapse dt).memCeil e = some m → ((s.elapse dt).setRmDom d { dataPages := a, itemMib := b, ctxPages := c, qpLines := ((s.elapse dt).rmDom d).qpLines, otherLines := ((s.elapse dt).rmDom d).otherLines, missPkts := ((s.elapse dt).rmDom d).missPkts, missKib := ((s.elapse dt).rmDom d).missKib, flows := ((s.elapse dt).rmDom d).flows, handover := ((s.elapse dt).rmDom d).handover, mapped := ((s.elapse dt).rmDom d).mapped, bufs := ((s.elapse dt).rmDom d).bufs, homes := ((s.elapse dt).rmDom d).homes, episodes := ((s.elapse dt).rmDom d).episodes, occurred := ((s.elapse dt).rmDom d).occurred, rr := ((s.elapse dt).rmDom d).rr, counters := ((s.elapse dt).rmDom d).counters }).poolPages e ≤ m) ∧ (List.map ((s.elapse dt).setRmDom d { dataPages := a, itemMib := b, ctxPages := c, qpLines := ((s.elapse dt).rmDom d).qpLines, otherLines := ((s.elapse dt).rmDom d).otherLines, missPkts := ((s.elapse dt).rmDom d).missPkts, missKib := ((s.elapse dt).rmDom d).missKib, flows := ((s.elapse dt).rmDom d).flows, handover := ((s.elapse dt).rmDom d).handover, mapped := ((s.elapse dt).rmDom d).mapped, bufs := ((s.elapse dt).rmDom d).bufs, homes := ((s.elapse dt).rmDom d).homes, episodes := ((s.elapse dt).rmDom d).episodes, occurred := ((s.elapse dt).rmDom d).occurred, rr := ((s.elapse dt).rmDom d).rr, counters := ((s.elapse dt).rmDom d).counters }).poolPages (s.elapse dt).doms).sum + s.mem.retired.length ≤ (s.elapse dt).pagesTotal) ∧ (a < ((s.elapse dt).rmDom d).usedPages ∨ (∃ n, n ∈ ((s.elapse dt).rmDom d).bufs ∧ b * 64 ≤ n) ∨ c * 256 < (s.elapse dt).backUsed d)) ∧
  (∃ (s : State) (dt : Nat) (p : Path) (x : Session) (q : TReq) (d : Nat) (a : Nat) (b : Nat) (c : Nat),
    Issued (s.elapse dt) p x q 2049 4 Perm.any ∧ d < 16 ∧ ((s.elapse dt).domOn d = true ∧ a ≤ ((s.elapse dt).memCeil d).getD (s.elapse dt).pagesTotal ∧ b ≤ 256 ∧ c < 2 ^ 22) ∧ ((∀ (e : Nat), e ∈ (s.elapse dt).doms → ∀ (m : Nat), (s.elapse dt).memCeil e = some m → ((s.elapse dt).setRmDom d { dataPages := a, itemMib := b, ctxPages := c, qpLines := ((s.elapse dt).rmDom d).qpLines, otherLines := ((s.elapse dt).rmDom d).otherLines, missPkts := ((s.elapse dt).rmDom d).missPkts, missKib := ((s.elapse dt).rmDom d).missKib, flows := ((s.elapse dt).rmDom d).flows, handover := ((s.elapse dt).rmDom d).handover, mapped := ((s.elapse dt).rmDom d).mapped, bufs := ((s.elapse dt).rmDom d).bufs, homes := ((s.elapse dt).rmDom d).homes, episodes := ((s.elapse dt).rmDom d).episodes, occurred := ((s.elapse dt).rmDom d).occurred, rr := ((s.elapse dt).rmDom d).rr, counters := ((s.elapse dt).rmDom d).counters }).poolPages e ≤ m) ∧ (List.map ((s.elapse dt).setRmDom d { dataPages := a, itemMib := b, ctxPages := c, qpLines := ((s.elapse dt).rmDom d).qpLines, otherLines := ((s.elapse dt).rmDom d).otherLines, missPkts := ((s.elapse dt).rmDom d).missPkts, missKib := ((s.elapse dt).rmDom d).missKib, flows := ((s.elapse dt).rmDom d).flows, handover := ((s.elapse dt).rmDom d).handover, mapped := ((s.elapse dt).rmDom d).mapped, bufs := ((s.elapse dt).rmDom d).bufs, homes := ((s.elapse dt).rmDom d).homes, episodes := ((s.elapse dt).rmDom d).episodes, occurred := ((s.elapse dt).rmDom d).occurred, rr := ((s.elapse dt).rmDom d).rr, counters := ((s.elapse dt).rmDom d).counters }).poolPages (s.elapse dt).doms).sum + s.mem.retired.length ≤ (s.elapse dt).pagesTotal) ∧ (¬(a < ((s.elapse dt).rmDom d).usedPages ∨ (∃ n, n ∈ ((s.elapse dt).rmDom d).bufs ∧ b * 64 ≤ n) ∨ c * 256 < (s.elapse dt).backUsed d)) ∧ ((s.elapse dt).rmDom d).itemMib ≤ b ∧ ((s.elapse dt).rmDom d).ctxPages ≤ c) ∧
  (∃ (s : State) (dt : Nat) (p : Path) (x : Session) (q : TReq) (d : Nat) (a : Nat) (b : Nat) (c : Nat),
    Issued (s.elapse dt) p x q 2049 4 Perm.any ∧ d < 16 ∧ ((s.elapse dt).domOn d = true ∧ a ≤ ((s.elapse dt).memCeil d).getD (s.elapse dt).pagesTotal ∧ b ≤ 256 ∧ c < 2 ^ 22) ∧ ((∀ (e : Nat), e ∈ (s.elapse dt).doms → ∀ (m : Nat), (s.elapse dt).memCeil e = some m → ((s.elapse dt).setRmDom d { dataPages := a, itemMib := b, ctxPages := c, qpLines := ((s.elapse dt).rmDom d).qpLines, otherLines := ((s.elapse dt).rmDom d).otherLines, missPkts := ((s.elapse dt).rmDom d).missPkts, missKib := ((s.elapse dt).rmDom d).missKib, flows := ((s.elapse dt).rmDom d).flows, handover := ((s.elapse dt).rmDom d).handover, mapped := ((s.elapse dt).rmDom d).mapped, bufs := ((s.elapse dt).rmDom d).bufs, homes := ((s.elapse dt).rmDom d).homes, episodes := ((s.elapse dt).rmDom d).episodes, occurred := ((s.elapse dt).rmDom d).occurred, rr := ((s.elapse dt).rmDom d).rr, counters := ((s.elapse dt).rmDom d).counters }).poolPages e ≤ m) ∧ (List.map ((s.elapse dt).setRmDom d { dataPages := a, itemMib := b, ctxPages := c, qpLines := ((s.elapse dt).rmDom d).qpLines, otherLines := ((s.elapse dt).rmDom d).otherLines, missPkts := ((s.elapse dt).rmDom d).missPkts, missKib := ((s.elapse dt).rmDom d).missKib, flows := ((s.elapse dt).rmDom d).flows, handover := ((s.elapse dt).rmDom d).handover, mapped := ((s.elapse dt).rmDom d).mapped, bufs := ((s.elapse dt).rmDom d).bufs, homes := ((s.elapse dt).rmDom d).homes, episodes := ((s.elapse dt).rmDom d).episodes, occurred := ((s.elapse dt).rmDom d).occurred, rr := ((s.elapse dt).rmDom d).rr, counters := ((s.elapse dt).rmDom d).counters }).poolPages (s.elapse dt).doms).sum + s.mem.retired.length ≤ (s.elapse dt).pagesTotal) ∧ (¬(a < ((s.elapse dt).rmDom d).usedPages ∨ (∃ n, n ∈ ((s.elapse dt).rmDom d).bufs ∧ b * 64 ≤ n) ∨ c * 256 < (s.elapse dt).backUsed d)) ∧ b ≤ ((s.elapse dt).rmDom d).itemMib ∧ c ≤ ((s.elapse dt).rmDom d).ctxPages ∧ (b < ((s.elapse dt).rmDom d).itemMib ∨ c < ((s.elapse dt).rmDom d).ctxPages) ∧ d ∈ (s.elapse dt).doms ∧ (s.elapse dt).doms.Nodup) ∧
  (∃ (s : State) (dt : Nat) (p : Path) (x : Session) (q : TReq) (d : Nat),
    Issued (s.elapse dt) p x q 2050 1 (Perm.owner d) ∧ d < 16) ∧
  (∃ (s : State) (dt : Nat) (p : Path) (x : Session) (q : TReq) (ls : List (List Nat)),
    Issued (s.elapse dt) p x q 2051 64 Perm.any ∧ (16384 < (fun i => (List.map (fun e => nth e.fst i) (List.filter (fun e => (s.elapse dt).domOn e.snd) ls.zipIdx)).sum) 0 ∨ 49152 < (fun i => (List.map (fun e => nth e.fst i) (List.filter (fun e => (s.elapse dt).domOn e.snd) ls.zipIdx)).sum) 1 ∨ 4096 < (fun i => (List.map (fun e => nth e.fst i) (List.filter (fun e => (s.elapse dt).domOn e.snd) ls.zipIdx)).sum) 2 ∨ 8192 < (fun i => (List.map (fun e => nth e.fst i) (List.filter (fun e => (s.elapse dt).domOn e.snd) ls.zipIdx)).sum) 3 ∨ ∃ e, e ∈ List.filter (fun e => (s.elapse dt).domOn e.snd) ls.zipIdx ∧ (nth e.fst 0 < (s.elapse dt).pinned e.snd 1 * 4 ∨ nth e.fst 1 < (s.elapse dt).pinned e.snd 2 * 4))) ∧
  (∃ (s : State) (dt : Nat) (p : Path) (x : Session) (q : TReq) (ls : List (List Nat)),
    Issued (s.elapse dt) p x q 2051 64 Perm.any ∧ (¬(16384 < (fun i => (List.map (fun e => nth e.fst i) (List.filter (fun e => (s.elapse dt).domOn e.snd) ls.zipIdx)).sum) 0 ∨ 49152 < (fun i => (List.map (fun e => nth e.fst i) (List.filter (fun e => (s.elapse dt).domOn e.snd) ls.zipIdx)).sum) 1 ∨ 4096 < (fun i => (List.map (fun e => nth e.fst i) (List.filter (fun e => (s.elapse dt).domOn e.snd) ls.zipIdx)).sum) 2 ∨ 8192 < (fun i => (List.map (fun e => nth e.fst i) (List.filter (fun e => (s.elapse dt).domOn e.snd) ls.zipIdx)).sum) 3 ∨ ∃ e, e ∈ List.filter (fun e => (s.elapse dt).domOn e.snd) ls.zipIdx ∧ (nth e.fst 0 < (s.elapse dt).pinned e.snd 1 * 4 ∨ nth e.fst 1 < (s.elapse dt).pinned e.snd 2 * 4))) ∧ s.rm.ctxs = []) ∧
  (∃ (s : State) (dt : Nat) (p : Path) (x : Session) (q : TReq) (ty : Nat) (addr : Nat),
    Issued (s.elapse dt) p x q 2052 3 Perm.any ∧ 1 ≤ ty ∧ ty ≤ 3 ∧ (badAddr p addr = true ∨ 2 ^ 63 ≤ addr)) ∧
  (∃ (s : State) (dt : Nat) (p : Path) (x : Session) (q : TReq) (ty : Nat) (addr : Nat) (n : Nat),
    Issued (s.elapse dt) p x q 2052 3 Perm.any ∧ 1 ≤ ty ∧ ty ≤ 3 ∧ badAddr p addr = false ∧ addr < 2 ^ 63 ∧ (addr % 4096 ≠ 0 ∨ n = 0)) ∧
  (∃ (s : State) (dt : Nat) (p : Path) (x : Session) (q : TReq) (ty : Nat) (addr : Nat) (n : Nat),
    Issued (s.elapse dt) p x q 2052 3 Perm.any ∧ 1 ≤ ty ∧ ty ≤ 3 ∧ badAddr p addr = false ∧ addr < 2 ^ 63 ∧ addr % 4096 = 0 ∧ n ≠ 0 ∧ (∃ e, e ∈ s.rm.ctxs ∧ ctxDom e.fst = x.dom ∧ ctxType e.fst = ty)) ∧
  (∃ (s : State) (dt : Nat) (p : Path) (x : Session) (q : TReq) (ty : Nat) (addr : Nat) (n : Nat),
    Issued (s.elapse dt) p x q 2052 3 Perm.any ∧ 1 ≤ ty ∧ ty ≤ 3 ∧ badAddr p addr = false ∧ addr < 2 ^ 63 ∧ addr % 4096 = 0 ∧ n ≠ 0 ∧ (∀ (e : Nat × Ctx), e ∈ s.rm.ctxs → ctxDom e.fst ≠ x.dom ∨ ctxType e.fst ≠ ty)) ∧
  (∃ (s : State) (dt : Nat) (p : Path) (x : Session) (q : TReq) (ty : Nat) (n : Nat) (pin : Nat),
    Issued (s.elapse dt) p x q 2053 3 Perm.any ∧ ty ≤ 3 ∧ n < 2 ^ 26 ∧ pin < 2 ∧ (pin = 1 ∧ Option.any (fun y => y.pinned) ((s.elapse dt).ctx? (ctxKey ty x.dom n)) = false ∧ (s.elapse dt).lines x.dom ty < ((List.filter (fun e => e.snd.pinned) ((s.elapse dt).ctxsOf x.dom ty)).length + 1) * 4)) ∧
  (∃ (s : State) (dt : Nat) (p : Path) (x : Session) (q : TReq) (ty : Nat) (n : Nat) (pin : Nat),
    Issued (s.elapse dt) p x q 2053 3 Perm.any ∧ ty ≤ 3 ∧ n < 2 ^ 26 ∧ pin < 2 ∧ (¬(pin = 1 ∧ Option.any (fun y => y.pinned) ((s.elapse dt).ctx? (ctxKey ty x.dom n)) = false ∧ (s.elapse dt).lines x.dom ty < ((List.filter (fun e => e.snd.pinned) ((s.elapse dt).ctxsOf x.dom ty)).length + 1) * 4)) ∧ (s.elapse dt).ctx? (ctxKey ty x.dom n) = none) ∧
  (∃ (s : State) (dt : Nat) (p : Path) (x : Session) (q : TReq) (ty : Nat) (n : Nat) (pin : Nat) (y : Ctx),
    Issued (s.elapse dt) p x q 2053 3 Perm.any ∧ ty ≤ 3 ∧ n < 2 ^ 26 ∧ pin < 2 ∧ (¬(pin = 1 ∧ Option.any (fun y => y.pinned) ((s.elapse dt).ctx? (ctxKey ty x.dom n)) = false ∧ (s.elapse dt).lines x.dom ty < ((List.filter (fun e => e.snd.pinned) ((s.elapse dt).ctxsOf x.dom ty)).length + 1) * 4)) ∧ (s.elapse dt).ctx? (ctxKey ty x.dom n) = some y ∧ pin = 0) ∧
  (∃ (s : State) (dt : Nat) (p : Path) (x : Session) (q : TReq) (ty : Nat) (n : Nat) (pin : Nat) (y : Ctx),
    Issued (s.elapse dt) p x q 2053 3 Perm.any ∧ ty ≤ 3 ∧ n < 2 ^ 26 ∧ pin < 2 ∧ (¬(pin = 1 ∧ Option.any (fun y => y.pinned) ((s.elapse dt).ctx? (ctxKey ty x.dom n)) = false ∧ (s.elapse dt).lines x.dom ty < ((List.filter (fun e => e.snd.pinned) ((s.elapse dt).ctxsOf x.dom ty)).length + 1) * 4)) ∧ (s.elapse dt).ctx? (ctxKey ty x.dom n) = some y ∧ pin = 1 ∧ y.place = 0) ∧
  (∃ (s : State) (dt : Nat) (p : Path) (x : Session) (q : TReq) (ty : Nat) (n : Nat) (pin : Nat) (y : Ctx),
    Issued (s.elapse dt) p x q 2053 3 Perm.any ∧ ty ≤ 3 ∧ n < 2 ^ 26 ∧ pin < 2 ∧ (¬(pin = 1 ∧ Option.any (fun y => y.pinned) ((s.elapse dt).ctx? (ctxKey ty x.dom n)) = false ∧ (s.elapse dt).lines x.dom ty < ((List.filter (fun e => e.snd.pinned) ((s.elapse dt).ctxsOf x.dom ty)).length + 1) * 4)) ∧ (s.elapse dt).ctx? (ctxKey ty x.dom n) = some y ∧ pin = 1 ∧ y.place ≠ 0) :=
  ⟨⟨(ask (linked .service) 0x0720 7), 3, (.mp 1), (sess 0x0720 7), (req 0x0720 7), 8, 1, 1, 0, 0, 2, 1,
      issued_of (by decide +kernel), by decide +kernel⟩,
    ⟨(ask (linked .service) 0x0720 7), 3, (.mp 1), (sess 0x0720 7), (req 0x0720 7), 7, 16, 4096, 1, 1, 65535, 65534,
      issued_of (by decide +kernel), by decide +kernel⟩,
    ⟨(ask (linked .service) 0x0721 5), 3, (.mp 1), (sess 0x0721 5), (req 0x0721 5), 9, 0, 1048576, 0, [],
      issued_of (by decide +kernel), by decide +kernel⟩,
    ⟨(ask (linked .service) 0x0721 7), 3, (.mp 1), (sess 0x0721 7), (req 0x0721 7), 9, 0, 1048575, 0, [(100, 28)],
      issued_of (by decide +kernel), by decide +kernel⟩,
    ⟨(ask ({ linked .service with tm.queues := [(9, { cfg := { kind := 3 } })] }) 0x0721 7), 3, (.mp 1), (sess 0x0721 7), (req 0x0721 7), 9, 0, 1048575, 0, [(100, 28)],
      issued_of (by decide +kernel), by decide +kernel⟩,
    ⟨(ask (linked .service) 0x0722 3), 3, (.mp 1), (sess 0x0722 3), (req 0x0722 3), 0, 1, 2,
      issued_of (by decide +kernel), by decide +kernel⟩,
    ⟨(ask (flow0 { subs := [(3, wsub)] } { hand := some (1, 3) }) 0x0722 3), 3, (.mp 1), (sess 0x0722 3), (req 0x0722 3), 0, 1, 2,
      issued_of (by decide +kernel), by decide +kernel⟩,
    ⟨(ask (run1 { subs := [(3, wsub)] }) 0x0722 3), 3, (.mp 1), (sess 0x0722 3), (req 0x0722 3), 0, 1, 2,
      issued_of (by decide +kernel), by decide +kernel⟩,
    ⟨(ask (flow0 { subs := [(3, wsub)] } { place := some (1, 3), items := [it0] }) 0x0722 3), 3, (.mp 1), (sess 0x0722 3), (req 0x0722 3), 0, 1, 2,
      issued_of (by decide +kernel), by decide +kernel⟩,
    ⟨(ask (flow0 { subs := [(3, wsub)] } { place := some (1, 3) }) 0x0722 3), 3, (.mp 1), (sess 0x0722 3), (req 0x0722 3), 0, 1, 2,
      issued_of (by decide +kernel), by decide +kernel⟩,
    ⟨(ask (flow0 { subs := [(3, wsub)] } { place := some (1, 3), nextSeq := 4 }) 0x0723 1), 3, (.mp 1), (sess 0x0723 1), (req 0x0723 1), 0,
      issued_of (by decide +kernel), by decide +kernel⟩,
    ⟨(ask (linked .service) 0x0724 32), 3, (.mp 1), (sess 0x0724 32), (req 0x0724 32), (List.replicate 16 (1048577, 0)),
      issued_of (by decide +kernel), by decide +kernel⟩,
    ⟨(ask (flow0 {} {}) 0x0724 32), 3, (.mp 1), (sess 0x0724 32), (req 0x0724 32), (List.replicate 16 (1048576, 8192)),
      issued_of (by decide +kernel), by decide +kernel⟩,
    ⟨(ask (linked .service) 0x0801 4), 3, (.mp 1), (sess 0x0801 4), (req 0x0801 4), 0, 1, 257, 1,
      issued_of (by decide +kernel), by decide +kernel⟩,
    ⟨(ask (linked .service) 0x0801 4), 3, (.mp 1), (sess 0x0801 4), (req 0x0801 4), 0, 2098961, 1, 1,
      issued_of (by decide +kernel), by decide +kernel⟩,
    ⟨(ask (pages {} [(0, 6)]) 0x0801 4), 3, (.mp 1), (sess 0x0801 4), (req 0x0801 4), 0, 5, 1, 1,
      issued_of (by decide +kernel), by decide +kernel⟩,
    ⟨(ask (pages {} [(0, 6)]) 0x0801 4), 3, (.mp 1), (sess 0x0801 4), (req 0x0801 4), 0, 6, 256, 256,
      issued_of (by decide +kernel), by decide +kernel⟩,
    ⟨(ask (pages {} [(0, 6)]) 0x0801 4), 3, (.mp 1), (sess 0x0801 4), (req 0x0801 4), 0, 6, 1, 1,
      issued_of (by decide +kernel), by decide +kernel⟩,
    ⟨(ask (pages {} [(0, 6)]) 0x0802 1), 3, (.mp 1), (sess 0x0802 1), (req 0x0802 1), 0,
      issued_of (by decide +kernel), by decide +kernel⟩,
    ⟨(ask (linked .service) 0x0803 64), 3, (.mp 1), (sess 0x0803 64), (req 0x0803 64), (List.replicate 16 [0, 0, 0, 8193]),
      issued_of (by decide +kernel), by decide +kernel⟩,
    ⟨(ask (linked .service) 0x0803 64), 3, (.mp 1), (sess 0x0803 64), (req 0x0803 64), (List.replicate 16 [16384, 49152, 4096, 8192]),
      issued_of (by decide +kernel), by decide +kernel⟩,
    ⟨(ask (linked .service) 0x0804 3), 3, (.mp 1), (sess 0x0804 3), (req 0x0804 3), 3, (2 ^ 63),
      issued_of (by decide +kernel), by decide +kernel⟩,
    ⟨(ask (linked .service) 0x0804 3), 3, (.mp 1), (sess 0x0804 3), (req 0x0804 3), 3, 100, 1,
      issued_of (by decide +kernel), by decide +kernel⟩,
    ⟨(ask (ctxs (ctxKey 3 0 5) {}) 0x0804 3), 3, (.mp 1), (sess 0x0804 3), (req 0x0804 3), 3, 4096, 1,
      issued_of (by decide +kernel), by decide +kernel⟩,
    ⟨(ask (ctxs (ctxKey 1 0 5) {}) 0x0804 3), 3, (.mp 1), (sess 0x0804 3), (req 0x0804 3), 3, 4096, 1,
      issued_of (by decide +kernel), by decide +kernel⟩,
    ⟨(ask ({ ctxs (ctxKey 1 0 5) {} with rm.doms := [(0, { qpLines := some 3 })] }) 0x0805 3), 3, (.mp 1), (sess 0x0805 3), (req 0x0805 3), 1, 5, 1,
      issued_of (by decide +kernel), by decide +kernel⟩,
    ⟨(ask (linked .service) 0x0805 3), 3, (.mp 1), (sess 0x0805 3), (req 0x0805 3), 1, 5, 1,
      issued_of (by decide +kernel), by decide +kernel⟩,
    ⟨(ask (ctxs (ctxKey 1 0 5) { pinned := true }) 0x0805 3), 3, (.mp 1), (sess 0x0805 3), (req 0x0805 3), 1, 5, 0, { pinned := true },
      issued_of (by decide +kernel), by decide +kernel⟩,
    ⟨(ask (ctxs (ctxKey 1 0 5) {}) 0x0805 3), 3, (.mp 1), (sess 0x0805 3), (req 0x0805 3), 1, 5, 1, {},
      issued_of (by decide +kernel), by decide +kernel⟩,
    ⟨(ask (ctxs (ctxKey 1 0 5) { place := 1 }) 0x0805 3), 3, (.mp 1), (sess 0x0805 3), (req 0x0805 3), 1, 5, 1, { place := 1 },
      issued_of (by decide +kernel), by decide +kernel⟩⟩

set_option Elab.async false
set_option maxRecDepth 4000
/-- The premises of `Obligations.HostReadsEnd`, clause by clause, are met. -/
theorem witness_HostReadsEnd :
  (∃ (s : State) (dt : Nat) (tag : Nat),
    (s.elapse dt).Plain ∧ (List.find? (fun r => r.tag == tag) (s.elapse dt).pcie.reads = none) ∧ tget? (s.elapse dt).pcie.quarantine tag = none) ∧
  (∃ (s : State) (dt : Nat) (tag : Nat) (x : Nat × Nat) (a : Nat),
    (s.elapse dt).Plain ∧ (List.find? (fun r => r.tag == tag) (s.elapse dt).pcie.reads = none) ∧ tget? (s.elapse dt).pcie.quarantine tag = some x ∧ (s.elapse dt).pcie.held = [] ∧ (s.elapse dt).pcie.lateAt = some a ∧ (s.elapse dt).elapsed < a + grid 20) ∧
  (∃ (s : State) (dt : Nat) (tag : Nat) (x : Nat × Nat),
    (s.elapse dt).Plain ∧ (List.find? (fun r => r.tag == tag) (s.elapse dt).pcie.reads = none) ∧ tget? (s.elapse dt).pcie.quarantine tag = some x ∧ (s.elapse dt).pcie.held = [] ∧ ((s.elapse dt).pcie.lateAt = none ∨ ∃ a, a ∈ (s.elapse dt).pcie.lateAt ∧ a + grid 20 ≤ (s.elapse dt).elapsed)) ∧
  (∃ (s : State) (dt : Nat) (tag : Nat) (r : HRead) (st : Nat),
    (s.elapse dt).Plain ∧ (s.elapse dt).pcie.reads = [r] ∧ r.tag = tag ∧ (s.elapse dt).pcie.held = [] ∧ st ≠ 0 ∧ r.dead = true) ∧
  (∃ (s : State) (dt : Nat) (tag : Nat) (r : HRead) (b : Bytes),
    (s.elapse dt).Plain ∧ (s.elapse dt).pcie.reads = [r] ∧ r.tag = tag ∧ (s.elapse dt).pcie.held = [] ∧ r.dead = true ∧ List.length r.got + List.length b < r.len) ∧
  (∃ (s : State) (dt : Nat) (tag : Nat) (r : HRead) (b : Bytes),
    (s.elapse dt).Plain ∧ (s.elapse dt).pcie.reads = [r] ∧ r.tag = tag ∧ (s.elapse dt).pcie.held = [] ∧ r.dead = true ∧ List.length r.got + List.length b = r.len) ∧
  (∃ (s : State) (dt : Nat) (tag : Nat) (r : HRead) (st : Nat),
    (s.elapse dt).Plain ∧ (s.elapse dt).pcie.reads = [r] ∧ r.tag = tag ∧ (s.elapse dt).pcie.held = [] ∧ st ≠ 0 ∧ r.dead = false ∧ r.what < 2 ∧ ((s.elapse dt).pfn r.fn).frozen = false) ∧
  (∃ (s : State) (dt : Nat) (tag : Nat) (r : HRead) (st : Nat),
    (s.elapse dt).Plain ∧ (s.elapse dt).pcie.reads = [r] ∧ r.tag = tag ∧ (s.elapse dt).pcie.held = [] ∧ st ≠ 0 ∧ r.dead = false ∧ r.what < 2 ∧ ((s.elapse dt).pfn r.fn).frozen = true) ∧
  (∃ (s : State) (dt : Nat) (tag : Nat) (r : HRead) (b : Bytes),
    (s.elapse dt).Plain ∧ (s.elapse dt).pcie.reads = [r] ∧ r.tag = tag ∧ (s.elapse dt).pcie.held = [] ∧ r.dead = false ∧ r.what = 0 ∧ r.len = 4 ∧ List.length r.got + List.length b = 4 ∧ ((s.elapse dt).ring r.ring).kind < 2 ∧ (ofLe (r.got ++ b) + 2 ^ 32 - ((s.elapse dt).ring r.ring).done) % 2 ^ 32 ≤ ((s.elapse dt).ring r.ring).entries ∧ ((s.elapse dt).ring r.ring).again = false) ∧
  (∃ (s : State) (dt : Nat) (tag : Nat) (r : HRead) (b : Bytes),
    (s.elapse dt).Plain ∧ (s.elapse dt).pcie.reads = [r] ∧ r.tag = tag ∧ (s.elapse dt).pcie.held = [] ∧ r.dead = false ∧ r.what < 2 ∧ ((s.elapse dt).pfn r.fn).frozen = false ∧ List.length r.got + List.length b < r.len) ∧
  (∃ (s : State) (dt : Nat) (tag : Nat) (r : HRead) (b : Bytes),
    (s.elapse dt).Plain ∧ (s.elapse dt).pcie.reads = [r] ∧ r.tag = tag ∧ (s.elapse dt).pcie.held = [] ∧ r.dead = false ∧ r.what < 2 ∧ ((s.elapse dt).pfn r.fn).frozen = false ∧ List.length r.got + List.length b = r.len) ∧
  (∃ (s : State) (dt : Nat) (tag : Nat) (r : HRead),
    (s.elapse dt).Plain ∧ (s.elapse dt).pcie.reads = [r] ∧ r.tag = tag ∧ (s.elapse dt).pcie.held = [] ∧ (s.elapse dt).elapsed < r.at_ + r.cto) ∧
  (∃ (s : State) (dt : Nat) (tag : Nat) (r : HRead),
    (s.elapse dt).Plain ∧ (s.elapse dt).pcie.reads = [r] ∧ r.tag = tag ∧ (s.elapse dt).pcie.held = [] ∧ r.at_ + r.cto ≤ (s.elapse dt).elapsed ∧ r.dead = true) ∧
  (∃ (s : State) (dt : Nat) (tag : Nat) (r : HRead),
    (s.elapse dt).Plain ∧ (s.elapse dt).pcie.reads = [r] ∧ r.tag = tag ∧ (s.elapse dt).pcie.held = [] ∧ r.at_ + r.cto ≤ (s.elapse dt).elapsed ∧ r.dead = false ∧ r.what < 2 ∧ ((s.elapse dt).pfn r.fn).frozen = false) ∧
  (∃ (s : State) (dt : Nat) (tag : Nat) (x : Nat × Nat),
    (s.elapse dt).Plain ∧ tget? (s.elapse dt).pcie.quarantine tag = some x ∧ (s.elapse dt).elapsed < x.fst) ∧
  (∃ (s : State) (dt : Nat) (tag : Nat) (x : Nat × Nat),
    (s.elapse dt).Plain ∧ tget? (s.elapse dt).pcie.quarantine tag = some x ∧ x.fst ≤ (s.elapse dt).elapsed ∧ (s.elapse dt).pcie.held = []) :=
  ⟨⟨(linked .service), 3, 7,
      plain_of (by decide +kernel), by decide +kernel⟩,
    ⟨{ linked .service with pcie.quarantine := [(7, (99, 0))], pcie.lateAt := some 1 }, 3, 7, (99, 0), 1,
      plain_of (by decide +kernel), by decide +kernel⟩,
    ⟨{ linked .service with pcie.quarantine := [(7, (99, 0))], pcie.lateAt := none }, 3, 7, (99, 0),
      plain_of (by decide +kernel), by decide +kernel⟩,
    ⟨{ linked .service with pcie.reads := [{ hr 0 4 with dead := true }] }, 3, 7, { hr 0 4 with dead := true }, 2,
      plain_of (by decide +kernel), by decide +kernel⟩,
    ⟨{ linked .service with pcie.reads := [{ hr 0 4 with dead := true }] }, 3, 7, { hr 0 4 with dead := true }, [1,2,3],
      plain_of (by decide +kernel), by decide +kernel⟩,
    ⟨{ linked .service with pcie.reads := [{ hr 0 4 with dead := true }] }, 3, 7, { hr 0 4 with dead := true }, [1,2,3,4],
      plain_of (by decide +kernel), by decide +kernel⟩,
    ⟨(idx {} 0 4), 3, 7, (hr 0 4), 2,
      plain_of (by decide +kernel), by decide +kernel⟩,
    ⟨{ idx {} 0 4 with pcie.fns := [(0, { frozen := true })] }, 3, 7, (hr 0 4), 2,
      plain_of (by decide +kernel), by decide +kernel⟩,
    ⟨(idx { log2 := 4, host := 1 } 0 4), 3, 7, (hr 0 4), [16,0,0,0],
      plain_of (by decide +kernel), by decide +kernel⟩,
    ⟨(idx {} 0 4), 3, 7, (hr 0 4), [16,0,0],
      plain_of (by decide +kernel), by decide +kernel⟩,
    ⟨(idx {} 0 4), 3, 7, (hr 0 4), [16,0,0,0],
      plain_of (by decide +kernel), by decide +kernel⟩,
    ⟨{ idx {} 0 4 with pcie.reads := [{ hr 0 4 with cto := 4 }] }, 3, 7, { hr 0 4 with cto := 4 },
      plain_of (by decide +kernel), by decide +kernel⟩,
    ⟨{ idx {} 0 4 with pcie.reads := [{ hr 0 4 with cto := 4, dead := true }] }, 4, 7, { hr 0 4 with cto := 4, dead := true },
      plain_of (by decide +kernel), by decide +kernel⟩,
    ⟨(idx {} 1 4), 3, 7, (hr 1 4),
      plain_of (by decide +kernel), by decide +kernel⟩,
    ⟨{ linked .service with pcie.quarantine := [(7, (4, 0))] }, 3, 7, (4, 0),
      plain_of (by decide +kernel), by decide +kernel⟩,
    ⟨{ linked .service with pcie.quarantine := [(7, (4, 0))] }, 4, 7, (4, 0),
      plain_of (by decide +kernel), by decide +kernel⟩⟩

/-- The premises of `Obligations.LinksAndConfiguration`, clause by clause, are met. -/
theorem witness_LinksAndConfiguration :
  (∃ (s : State) (dt : Nat) (b : Bool) (sp : Nat) (w : Nat),
    (s.elapse dt).Plain ∧ 1 ≤ sp ∧ sp ≤ 6 ∧ (b = false ∨ (s.elapse dt).pcie.x8x8 = true) ∧ (w ∈ [1, 2, 4, 8] ∨ w = 16 ∧ (s.elapse dt).pcie.x8x8 = false)) ∧
  (∃ (s : State) (dt : Nat) (b : Bool) (sp : Nat) (w : Nat),
    (s.elapse dt).Plain ∧ 1 ≤ sp ∧ sp ≤ 6 ∧ (¬(b = false ∨ (s.elapse dt).pcie.x8x8 = true) ∨ ¬w ∈ [1, 2, 4, 8, 16] ∨ 8 < w ∧ (s.elapse dt).pcie.x8x8 = true)) ∧
  (∃ (s : State) (dt : Nat) (b : Bool),
    (s.elapse dt).Plain ∧ ((if b = true then (s.elapse dt).pcie.linkB else (s.elapse dt).pcie.linkA).up = false ∨ ¬(b = false ∨ (s.elapse dt).pcie.x8x8 = true))) ∧
  (∃ (s : State) (dt : Nat) (b : Bool),
    (s.elapse dt).Plain ∧ (b = false ∨ (s.elapse dt).pcie.x8x8 = true) ∧ (if b = true then (s.elapse dt).pcie.linkB else (s.elapse dt).pcie.linkA).up = true ∧ (s.elapse dt).linkPfs b = [] ∧ s.firmware = false) ∧
  (∃ (s : State) (dt : Nat) (b : Bool) (n : Nat),
    (s.elapse dt).Plain ∧ (b = false ∨ (s.elapse dt).pcie.x8x8 = true) ∧ (if b = true then (s.elapse dt).pcie.linkB else (s.elapse dt).pcie.linkA).up = true ∧ (s.elapse dt).linkPfs b = [n] ∧ ((fun f => (s.elapse dt).vfsOf f = [] ∧ ((s.elapse dt).pfn f).wins = [] ∧ s.tm.queues = [] ∧ s.tm.scheds = [] ∧ s.rdma.qps = [] ∧ s.rdma.mrs = [] ∧ s.rdma.intake = [] ∧ s.rdma.eventRings = [] ∧ s.stor.nss = [] ∧ s.stor.cmds = [] ∧ s.dma.waits = [] ∧ s.slu.store = [] ∧ s.pcie.reads = [] ∧ s.pcie.held = [] ∧ s.tb.latch = [] ∧ s.led.chains = [] ∧ s.ports.ports = [] ∧ (s.fn f).inReset = false ∧ s.tosen.sessions = [] ∧ s.tosen.opens = [] ∧ s.glb.mode ≠ Mode.recovery ∧ (List.all s.rings.rings fun y => fnOfKey y.fst != f || y.snd.posters.isEmpty && y.snd.engine != 4) = true) (n * 4096))) ∧
  (∃ (s : State) (dt : Nat) (b : Bool),
    (s.elapse dt).Plain ∧ ((if b = true then (s.elapse dt).pcie.linkB else (s.elapse dt).pcie.linkA).up = false ∨ (if b = true then (s.elapse dt).pcie.linkB else (s.elapse dt).pcie.linkA).aspm = false ∨ 2 ≤ (if b = true then (s.elapse dt).pcie.linkB else (s.elapse dt).pcie.linkA).lpm ∨ ((s.elapse dt).pcie.reads.any fun r => (s.elapse dt).onB r.fn == b) = true ∨ (List.any s.rings.rings fun r => (s.elapse dt).onB (fnOfKey r.fst) == b && r.snd.engine == 2 && (r.snd.dma.isSome || r.snd.fetched.any fun d => !d.ended)) = true)) ∧
  (∃ (s : State) (dt : Nat) (b : Bool),
    (s.elapse dt).Plain ∧ (if b = true then (s.elapse dt).pcie.linkB else (s.elapse dt).pcie.linkA).up = true ∧ (if b = true then (s.elapse dt).pcie.linkB else (s.elapse dt).pcie.linkA).aspm = true ∧ (if b = true then (s.elapse dt).pcie.linkB else (s.elapse dt).pcie.linkA).lpm < 2 ∧ (((s.elapse dt).pcie.reads.any fun r => (s.elapse dt).onB r.fn == b) = false) ∧ ((List.any s.rings.rings fun r => (s.elapse dt).onB (fnOfKey r.fst) == b && r.snd.engine == 2 && (r.snd.dma.isSome || r.snd.fetched.any fun d => !d.ended)) = false)) ∧
  (∃ (s : State) (dt : Nat) (b : Bool),
    (s.elapse dt).Plain ∧ ((if b = true then (s.elapse dt).pcie.linkB else (s.elapse dt).pcie.linkA).up = false ∨ (if b = true then (s.elapse dt).pcie.linkB else (s.elapse dt).pcie.linkA).flit = false ∨ (if b = true then (s.elapse dt).pcie.linkB else (s.elapse dt).pcie.linkA).l0p = false ∨ (s.elapse dt).pcie.l0pAuto = false ∨ (if b = true then (s.elapse dt).pcie.linkB else (s.elapse dt).pcie.linkA).active ≤ (s.elapse dt).pcie.l0pWidth)) ∧
  (∃ (s : State) (dt : Nat) (b : Bool),
    (s.elapse dt).Plain ∧ (if b = true then (s.elapse dt).pcie.linkB else (s.elapse dt).pcie.linkA).up = true ∧ (if b = true then (s.elapse dt).pcie.linkB else (s.elapse dt).pcie.linkA).flit = true ∧ (if b = true then (s.elapse dt).pcie.linkB else (s.elapse dt).pcie.linkA).l0p = true ∧ (s.elapse dt).pcie.l0pAuto = true ∧ (s.elapse dt).pcie.l0pWidth < (if b = true then (s.elapse dt).pcie.linkB else (s.elapse dt).pcie.linkA).active) ∧
  (∃ (s : State) (dt : Nat) (f : Nat) (d : Bool),
    (s.elapse dt).Plain ∧ ((s.elapse dt).cfgOpen f = false ∨ ((s.elapse dt).pfn f).d3 = d)) ∧
  (∃ (s : State) (dt : Nat) (f : Nat),
    (s.elapse dt).Plain ∧ (s.elapse dt).cfgOpen f = true ∧ (s.elapse dt).pcie.held = [] ∧ ((s.elapse dt).pfn f).d3 = false ∧ ((s.elapse dt).pfn f).outbox = []) ∧
  (∃ (s : State) (dt : Nat) (f : Nat),
    (s.elapse dt).Plain ∧ (s.elapse dt).cfgOpen f = true ∧ (s.elapse dt).pcie.held = [] ∧ ((s.elapse dt).pfn f).d3 = true ∧ ((s.elapse dt).pfn f).bme = true ∧ (s.elapse dt).mute f = false) ∧
  (∃ (s : State) (dt : Nat) (f : Nat),
    (s.elapse dt).Plain ∧ (s.elapse dt).cfgOpen f = true ∧ (s.elapse dt).pcie.held = [] ∧ ((s.elapse dt).pfn f).d3 = true ∧ ((s.elapse dt).pfn f).bme = false) ∧
  (∃ (s : State) (dt : Nat) (f : Nat),
    (s.elapse dt).Plain ∧ (((s.elapse dt).pfn f).d3 = false ∨ (s.elapse dt).elapsed < ((s.elapse dt).pfn f).d3At + ns 10000000)) ∧
  (∃ (s : State) (dt : Nat) (f : Nat),
    (s.elapse dt).Plain ∧ ((s.elapse dt).pfn f).d3 = true ∧ ((s.elapse dt).pfn f).d3At + ns 10000000 ≤ (s.elapse dt).elapsed ∧ (s.elapse dt).ctxsVia f = []) ∧
  (∃ (s : State) (dt : Nat) (f : Nat),
    (s.elapse dt).Plain ∧ (s.elapse dt).cfgOpen f = false) ∧
  (∃ (s : State) (dt : Nat) (f : Nat) (on : Bool),
    (s.elapse dt).Plain ∧ (s.elapse dt).cfgOpen f = true ∧ (s.elapse dt).pcie.held = [] ∧ s.tm.queues = [] ∧ (((s.elapse dt).pfn f).outbox = [] ∨ on = false)) ∧
  (∃ (s : State) (dt : Nat) (f : Nat) (on : Bool),
    (s.elapse dt).Plain ∧ (s.elapse dt).cfgOpen f = true ∧ (s.elapse dt).pcie.held = [] ∧ s.tm.queues = [] ∧ on = true ∧ ((s.elapse dt).pfn f).d3 = false ∧ (s.elapse dt).mute f = false) ∧
  (∃ (s : State) (dt : Nat) (f : Nat) (r : HRead),
    (s.elapse dt).Plain ∧ (s.elapse dt).cfgOpen f = true ∧ ((s.elapse dt).pfn f).d3 = false ∧ (s.elapse dt).mute f = false ∧ ((s.elapse dt).pfn f).outbox = [] ∧ s.tm.queues = [] ∧ (s.elapse dt).pcie.held = [r] ∧ r.fn = f) ∧
  (∃ (s : State) (dt : Nat) (pf : Nat),
    (s.elapse dt).Plain ∧ (pf = 0 ∨ 7 < pf ∨ (s.elapse dt).cfgOpen (pf * 4096) = false)) ∧
  (∃ (s : State) (dt : Nat) (pf : Nat) (n : Nat),
    (s.elapse dt).Plain ∧ 0 < pf ∧ pf ≤ 7 ∧ (s.elapse dt).cfgOpen (pf * 4096) = true ∧ ((s.elapse dt).pfn (pf * 4096)).vfs = 0 ∧ 1 ≤ n ∧ n ≤ (s.elapse dt).totalVfsOf pf) ∧
  (∃ (s : State) (dt : Nat) (pf : Nat) (n : Nat),
    (s.elapse dt).Plain ∧ 0 < pf ∧ pf ≤ 7 ∧ (s.elapse dt).cfgOpen (pf * 4096) = true ∧ (((s.elapse dt).pfn (pf * 4096)).vfs ≠ 0 ∨ n = 0 ∨ (s.elapse dt).totalVfsOf pf < n)) ∧
  (∃ (s : State) (dt : Nat) (pf : Nat),
    (s.elapse dt).Plain ∧ 0 < pf ∧ pf ≤ 7 ∧ (s.elapse dt).cfgOpen (pf * 4096) = true ∧ ((s.elapse dt).pfn (pf * 4096)).vfs = 1 ∧ ((fun f => (s.elapse dt).vfsOf f = [] ∧ ((s.elapse dt).pfn f).wins = [] ∧ s.tm.queues = [] ∧ s.tm.scheds = [] ∧ s.rdma.qps = [] ∧ s.rdma.mrs = [] ∧ s.rdma.intake = [] ∧ s.rdma.eventRings = [] ∧ s.stor.nss = [] ∧ s.stor.cmds = [] ∧ s.dma.waits = [] ∧ s.slu.store = [] ∧ s.pcie.reads = [] ∧ s.pcie.held = [] ∧ s.tb.latch = [] ∧ s.led.chains = [] ∧ s.ports.ports = [] ∧ (s.fn f).inReset = false ∧ s.tosen.sessions = [] ∧ s.tosen.opens = [] ∧ s.glb.mode ≠ Mode.recovery ∧ (List.all s.rings.rings fun y => fnOfKey y.fst != f || y.snd.posters.isEmpty && y.snd.engine != 4) = true) (pf * 4096 + 1)) ∧ ((s.elapse dt).pfn (pf * 4096 + 1)).resetPaths = []) ∧
  (∃ (s : State) (dt : Nat) (f : Nat) (v : Nat),
    (s.elapse dt).Plain ∧ ((s.elapse dt).cfgOpen f = false ∨ 2 < v)) ∧
  (∃ (s : State) (dt : Nat) (f : Nat) (v : Nat),
    (s.elapse dt).Plain ∧ (s.elapse dt).cfgOpen f = true ∧ v ≤ 2) ∧
  (∃ (s : State) (dt : Nat) (p : Path) (x : Session) (q : TReq) (i : Nat) (a : Nat) (w : Nat) (sn : Nat) (ns_ : Nat),
    Issued (s.elapse dt) p x q 2311 5 Perm.any ∧ (¬(i < 2 ^ 32 ∧ a ≤ 1 ∧ w ∈ [1, 2, 4, 8] ∧ sn < 65536 ∧ ns_ < 65536))) ∧
  (∃ (s : State) (dt : Nat) (p : Path) (x : Session) (q : TReq) (i : Nat) (a : Nat) (w : Nat) (sn : Nat) (ns_ : Nat),
    Issued (s.elapse dt) p x q 2311 5 Perm.any ∧ (i < 2 ^ 32 ∧ a ≤ 1 ∧ w ∈ [1, 2, 4, 8] ∧ sn < 65536 ∧ ns_ < 65536)) ∧
  (∃ (s : State) (dt : Nat) (p : Path) (x : Session) (q : TReq) (ls : List Nat),
    Issued (s.elapse dt) p x q 2312 7 Perm.any ∧ 2048 < ls.sum) ∧
  (∃ (s : State) (dt : Nat) (p : Path) (x : Session) (q : TReq) (ls : List Nat),
    Issued (s.elapse dt) p x q 2312 7 Perm.any ∧ ls.sum ≤ 2048) :=
  ⟨⟨(inMode .service), 3, false, 6, 16,
      plain_of (by decide +kernel), by decide +kernel⟩,
    ⟨{ inMode .service with pcie.x8x8 := true }, 3, false, 6, 16,
      plain_of (by decide +kernel), by decide +kernel⟩,
    ⟨(inMode .service), 3, true,
      plain_of (by decide +kernel), by decide +kernel⟩,
    ⟨{ inMode .recovery with pcie.x8x8 := true, pcie.linkB := { up := true } }, 3, true,
      plain_of (by decide +kernel), by decide +kernel⟩,
    ⟨{ idx {} 0 4 with pcie.reads := [] }, 3, false, 0,
      plain_of (by decide +kernel), by decide +kernel⟩,
    ⟨(linked .service), 3, false,
      plain_of (by decide +kernel), by decide +kernel⟩,
    ⟨{ linked .service with pcie.linkA := { up := true, aspm := true }, rings.rings := [(3, { engine := 2, fetched := [{ ended := true }] })] }, 3, false,
      plain_of (by decide +kernel), by decide +kernel⟩,
    ⟨{ linked .service with pcie.l0pAuto := true, pcie.linkA := { up := true, flit := true, l0p := true, active := 8 } }, 3, false,
      plain_of (by decide +kernel), by decide +kernel⟩,
    ⟨{ linked .service with pcie.l0pAuto := true, pcie.linkA := { up := true, flit := true, l0p := true, active := 16 } }, 3, false,
      plain_of (by decide +kernel), by decide +kernel⟩,
    ⟨(linked .service), 3, 0, false,
      plain_of (by decide +kernel), by decide +kernel⟩,
    ⟨(linked .service), 3, 0,
      plain_of (by decide +kernel), by decide +kernel⟩,
    ⟨{ linked .service with pcie.fns := [(0, { d3 := true, bme := true, outbox := [.irq 0 5] })] }, 3, 0,
      plain_of (by decide +kernel), by decide +kernel⟩,
    ⟨{ linked .service with pcie.fns := [(0, { d3 := true, outbox := [.irq 0 5] })] }, 3, 0,
      plain_of (by decide +kernel), by decide +kernel⟩,
    ⟨(linked .service), 3, 0,
      plain_of (by decide +kernel), by decide +kernel⟩,
    ⟨{ linked .service with elapsed := ns 10000000, pcie.fns := [(0, { d3 := true, mse := true })], pcie.reads := [hr 1 32], rings.rings := [(0, { enable := true, log2 := 4, fetched := [{}] })] }, 0, 0,
      plain_of (by decide +kernel), by decide +kernel⟩,
    ⟨(linked .service), 3, 8,
      plain_of (by decide +kernel), by decide +kernel⟩,
    ⟨(linked .service), 3, 0, false,
      plain_of (by decide +kernel), by decide +kernel⟩,
    ⟨{ linked .service with pcie.fns := [(0, { outbox := [.irq 0 5] })] }, 3, 0, true,
      plain_of (by decide +kernel), by decide +kernel⟩,
    ⟨{ linked .service with pcie.fns := [(0, {})], pcie.held := [hr 1 32] }, 3, 0, (hr 1 32),
      plain_of (by decide +kernel), by decide +kernel⟩,
    ⟨(linked .service), 3, 0,
      plain_of (by decide +kernel), by decide +kernel⟩,
    ⟨(mapped .service), 3, 1, 292,
      plain_of (by decide +kernel), by decide +kernel⟩,
    ⟨{ mapped .service with pcie.fns := [(0, { mse := true, bme := true }), (4096, { mse := true, vfs := 2 }), (4097, { mse := true })] }, 3, 1, 5,
      plain_of (by decide +kernel), by decide +kernel⟩,
    ⟨{ mapped .service with pcie.fns := [(0, { mse := true, bme := true }), (4096, { mse := true, vfs := 1 }), (4097, { mse := true })] }, 3, 1,
      plain_of (by decide +kernel), by decide +kernel⟩,
    ⟨(mapped .service), 3, 0, 3,
      plain_of (by decide +kernel), by decide +kernel⟩,
    ⟨(mapped .service), 3, 0, 2,
      plain_of (by decide +kernel), by decide +kernel⟩,
    ⟨(ask (linked .service) 0x0907 5), 3, (.mp 1), (sess 0x0907 5), (req 0x0907 5), 1, 1, 16, 0, 0,
      issued_of (by decide +kernel), by decide +kernel⟩,
    ⟨(ask (linked .service) 0x0907 5), 3, (.mp 1), (sess 0x0907 5), (req 0x0907 5), (2 ^ 32 - 1), 1, 8, 65535, 65535,
      issued_of (by decide +kernel), by decide +kernel⟩,
    ⟨(ask (linked .service) 0x0908 7), 3, (.mp 1), (sess 0x0908 7), (req 0x0908 7), [2049],
      issued_of (by decide +kernel), by decide +kernel⟩,
    ⟨(ask (linked .service) 0x0908 7), 3, (.mp 1), (sess 0x0908 7), (req 0x0908 7), [2048],
      issued_of (by decide +kernel), by decide +kernel⟩⟩

/-- The premises of `Obligations.WindowsAndRom`, clause by clause, are met. -/
theorem witness_WindowsAndRom :
  (∃ (s : State) (dt : Nat) (f : Nat),
    (s.elapse dt).Plain ∧ ((s.elapse dt).fnExists f = false ∨ ((s.elapse dt).linkOf f).up = false)) ∧
  (∃ (s : State) (dt : Nat) (f : Nat),
    (s.elapse dt).Plain ∧ (s.elapse dt).fnExists f = true ∧ ((s.elapse dt).linkOf f).up = true ∧ (s.glb.mode = Mode.recovery ∨ ((s.elapse dt).pfn f).mse = false ∨ ((s.elapse dt).pfn f).d3 = true ∨ s.glb.mode = Mode.lockdown ∧ f ≠ 0)) ∧
  (∃ (s : State) (dt : Nat) (f : Nat),
    (s.elapse dt).Plain ∧ (s.elapse dt).fnExists f = true ∧ ((s.elapse dt).linkOf f).up = true ∧ (¬(s.glb.mode = Mode.recovery ∨ ((s.elapse dt).pfn f).mse = false ∨ ((s.elapse dt).pfn f).d3 = true ∨ s.glb.mode = Mode.lockdown ∧ f ≠ 0)) ∧ (s.firmware = false ∨ (s.fn f).inReset = true)) ∧
  (∃ (s : State) (dt : Nat) (f : Nat) (e : Nat) (o : Nat) (n : Nat),
    (s.elapse dt).Plain ∧ (s.elapse dt).fnExists f = true ∧ ((s.elapse dt).linkOf f).up = true ∧ s.glb.mode ≠ Mode.recovery ∧ (¬(s.glb.mode = Mode.lockdown ∧ f ≠ 0)) ∧ ((s.elapse dt).pfn f).mse = true ∧ ((s.elapse dt).pfn f).d3 = false ∧ s.firmware = true ∧ (s.fn f).inReset = false ∧ e < 64 ∧ o < (s.elapse dt).sliceOf f ∧ 0 < n ∧ s.mem.bad = [] ∧ (((s.elapse dt).win f e).valid = true ∧ o + n ≤ ((s.elapse dt).win f e).pages * pageSize ∧ o + n ≤ (s.elapse dt).sliceOf f ∧ (s.elapse dt).cisternOk ((s.elapse dt).fnDom f) (((s.elapse dt).win f e).target + o) n = true) ∧ ((s.elapse dt).win f e).rd = true ∧ (s.elapse dt).poisoned (cisternAt ((s.elapse dt).fnDom f) (((s.elapse dt).win f e).target + o)) n = false) ∧
  (∃ (s : State) (dt : Nat) (f : Nat) (e : Nat) (o : Nat) (n : Nat),
    (s.elapse dt).Plain ∧ (s.elapse dt).fnExists f = true ∧ ((s.elapse dt).linkOf f).up = true ∧ s.glb.mode ≠ Mode.recovery ∧ (¬(s.glb.mode = Mode.lockdown ∧ f ≠ 0)) ∧ ((s.elapse dt).pfn f).mse = true ∧ ((s.elapse dt).pfn f).d3 = false ∧ s.firmware = true ∧ (s.fn f).inReset = false ∧ e < 64 ∧ o < (s.elapse dt).sliceOf f ∧ 0 < n ∧ s.mem.bad = [] ∧ (((s.elapse dt).win f e).valid = true ∧ o + n ≤ ((s.elapse dt).win f e).pages * pageSize ∧ o + n ≤ (s.elapse dt).sliceOf f ∧ (s.elapse dt).cisternOk ((s.elapse dt).fnDom f) (((s.elapse dt).win f e).target + o) n = true) ∧ ((s.elapse dt).win f e).rd = true ∧ (s.elapse dt).poisoned (cisternAt ((s.elapse dt).fnDom f) (((s.elapse dt).win f e).target + o)) n = true) ∧
  (∃ (s : State) (dt : Nat) (f : Nat) (e : Nat) (o : Nat) (n : Nat) (b : Bytes),
    (s.elapse dt).Plain ∧ (s.elapse dt).fnExists f = true ∧ ((s.elapse dt).linkOf f).up = true ∧ s.glb.mode ≠ Mode.recovery ∧ (¬(s.glb.mode = Mode.lockdown ∧ f ≠ 0)) ∧ ((s.elapse dt).pfn f).mse = true ∧ ((s.elapse dt).pfn f).d3 = false ∧ s.firmware = true ∧ (s.fn f).inReset = false ∧ e < 64 ∧ o < (s.elapse dt).sliceOf f ∧ 0 < n ∧ s.mem.bad = [] ∧ (((s.elapse dt).win f e).valid = true ∧ o + n ≤ ((s.elapse dt).win f e).pages * pageSize ∧ o + n ≤ (s.elapse dt).sliceOf f ∧ (s.elapse dt).cisternOk ((s.elapse dt).fnDom f) (((s.elapse dt).win f e).target + o) n = true) ∧ ((s.elapse dt).win f e).wr = true ∧ s.mem.poison = [] ∧ List.length b = n) ∧
  (∃ (s : State) (dt : Nat) (f : Nat) (e : Nat) (o : Nat) (n : Nat),
    (s.elapse dt).Plain ∧ (s.elapse dt).fnExists f = true ∧ ((s.elapse dt).linkOf f).up = true ∧ s.glb.mode ≠ Mode.recovery ∧ (¬(s.glb.mode = Mode.lockdown ∧ f ≠ 0)) ∧ ((s.elapse dt).pfn f).mse = true ∧ ((s.elapse dt).pfn f).d3 = false ∧ s.firmware = true ∧ (s.fn f).inReset = false ∧ e < 64 ∧ o < (s.elapse dt).sliceOf f ∧ 0 < n ∧ s.mem.bad = [] ∧ (¬(((s.elapse dt).win f e).valid = true ∧ o + n ≤ ((s.elapse dt).win f e).pages * pageSize ∧ o + n ≤ (s.elapse dt).sliceOf f ∧ (s.elapse dt).cisternOk ((s.elapse dt).fnDom f) (((s.elapse dt).win f e).target + o) n = true) ∨ ((s.elapse dt).win f e).rd = false)) ∧
  (∃ (s : State) (dt : Nat) (f : Nat) (e : Nat) (o : Nat) (n : Nat),
    (s.elapse dt).Plain ∧ (s.elapse dt).fnExists f = true ∧ ((s.elapse dt).linkOf f).up = true ∧ s.glb.mode ≠ Mode.recovery ∧ (¬(s.glb.mode = Mode.lockdown ∧ f ≠ 0)) ∧ ((s.elapse dt).pfn f).mse = true ∧ ((s.elapse dt).pfn f).d3 = false ∧ s.firmware = true ∧ (s.fn f).inReset = false ∧ e < 64 ∧ o < (s.elapse dt).sliceOf f ∧ 0 < n ∧ s.mem.bad = [] ∧ (¬(((s.elapse dt).win f e).valid = true ∧ o + n ≤ ((s.elapse dt).win f e).pages * pageSize ∧ o + n ≤ (s.elapse dt).sliceOf f ∧ (s.elapse dt).cisternOk ((s.elapse dt).fnDom f) (((s.elapse dt).win f e).target + o) n = true) ∨ ((s.elapse dt).win f e).wr = false)) ∧
  (∃ (s : State) (dt : Nat) (off : Nat) (n : Nat),
    (s.elapse dt).Plain ∧ ((s.elapse dt).pcie.linkA.up = false ∨ s.glb.mode = Mode.recovery ∨ ((s.elapse dt).pfn 0).romEn = false ∨ ((s.elapse dt).pfn 0).mse = false ∨ ((s.elapse dt).pfn 0).d3 = true ∨ 2 ^ 22 < off + n)) ∧
  (∃ (s : State) (dt : Nat) (off : Nat) (n : Nat),
    (s.elapse dt).Plain ∧ (s.elapse dt).pcie.linkA.up = true ∧ s.glb.mode ≠ Mode.recovery ∧ ((s.elapse dt).pfn 0).romEn = true ∧ ((s.elapse dt).pfn 0).mse = true ∧ ((s.elapse dt).pfn 0).d3 = false ∧ off + n ≤ 2 ^ 22 ∧ (s.elapse dt).elapsed < s.pw.perstAt + ns 100000000) ∧
  (∃ (s : State) (dt : Nat) (off : Nat) (n : Nat),
    (s.elapse dt).Plain ∧ (s.elapse dt).pcie.linkA.up = true ∧ s.glb.mode ≠ Mode.recovery ∧ ((s.elapse dt).pfn 0).romEn = true ∧ ((s.elapse dt).pfn 0).mse = true ∧ ((s.elapse dt).pfn 0).d3 = false ∧ off + n ≤ 2 ^ 22 ∧ s.pw.perstAt + ns 100000000 ≤ (s.elapse dt).elapsed ∧ s.firmware = true ∧ (s.fn 0).inReset = true) ∧
  (∃ (s : State) (dt : Nat) (off : Nat) (n : Nat),
    (s.elapse dt).Plain ∧ (s.elapse dt).pcie.linkA.up = true ∧ s.glb.mode ≠ Mode.recovery ∧ ((s.elapse dt).pfn 0).romEn = true ∧ ((s.elapse dt).pfn 0).mse = true ∧ ((s.elapse dt).pfn 0).d3 = false ∧ off + n ≤ 2 ^ 22 ∧ s.pw.perstAt + ns 100000000 ≤ (s.elapse dt).elapsed ∧ s.firmware = true ∧ (s.fn 0).inReset = false) ∧
  (∃ (s : State) (dt : Nat) (off : Nat) (n : Nat),
    (s.elapse dt).Plain ∧ (s.elapse dt).pcie.linkA.up = true ∧ s.glb.mode ≠ Mode.recovery ∧ ((s.elapse dt).pfn 0).romEn = true ∧ ((s.elapse dt).pfn 0).mse = true ∧ ((s.elapse dt).pfn 0).d3 = false ∧ off + n ≤ 2 ^ 22 ∧ s.pw.perstAt + ns 100000000 ≤ (s.elapse dt).elapsed ∧ s.firmware = false) ∧
  (∃ (s : State) (dt : Nat) (pf : Nat) (e : Nat),
    (s.elapse dt).Plain ∧ ((s.elapse dt).barOpen 0 = false ∨ (s.elapse dt).pfOn pf = false ∨ 63 < e)) ∧
  (∃ (s : State) (dt : Nat) (pf : Nat) (e : Nat) (v : Nat),
    (s.elapse dt).Plain ∧ (s.elapse dt).barOpen 0 = true ∧ (s.elapse dt).pfOn pf = true ∧ e ≤ 63 ∧ v.testBit 0 = false) ∧
  (∃ (s : State) (dt : Nat) (pf : Nat) (e : Nat) (v : Nat),
    (s.elapse dt).Plain ∧ (s.elapse dt).barOpen 0 = true ∧ (s.elapse dt).pfOn pf = true ∧ e ≤ 63 ∧ v.testBit 0 = true ∧ (((s.elapse dt).win (pf * 4096) e).target % pageSize = 0 ∧ 1 ≤ ((s.elapse dt).win (pf * 4096) e).pages ∧ ((s.elapse dt).win (pf * 4096) e).pages ≤ (s.elapse dt).sliceOf (pf * 4096) / pageSize ∧ ((s.elapse dt).win (pf * 4096) e).target + ((s.elapse dt).win (pf * 4096) e).pages * pageSize ≤ 2 ^ 32)) ∧
  (∃ (s : State) (dt : Nat) (pf : Nat) (e : Nat) (v : Nat),
    (s.elapse dt).Plain ∧ (s.elapse dt).barOpen 0 = true ∧ (s.elapse dt).pfOn pf = true ∧ e ≤ 63 ∧ v.testBit 0 = true ∧ (¬(((s.elapse dt).win (pf * 4096) e).target % pageSize = 0 ∧ 1 ≤ ((s.elapse dt).win (pf * 4096) e).pages ∧ ((s.elapse dt).win (pf * 4096) e).pages ≤ (s.elapse dt).sliceOf (pf * 4096) / pageSize ∧ ((s.elapse dt).win (pf * 4096) e).target + ((s.elapse dt).win (pf * 4096) e).pages * pageSize ≤ 2 ^ 32))) ∧
  (∃ (s : State) (dt : Nat) (pf : Nat) (e : Nat) (n : Nat),
    (s.elapse dt).Plain ∧ (s.elapse dt).barOpen 0 = true ∧ (s.elapse dt).pfOn pf = true ∧ e ≤ 63 ∧ ((s.elapse dt).win (pf * 4096) e).valid = true ∧ n ≤ 2) ∧
  (∃ (s : State) (dt : Nat) (pf : Nat) (e : Nat) (v : Nat),
    (s.elapse dt).Plain ∧ (s.elapse dt).barOpen 0 = true ∧ (s.elapse dt).pfOn pf = true ∧ e ≤ 63 ∧ ((s.elapse dt).win (pf * 4096) e).valid = false ∧ v < 2 ^ 32) ∧
  (∃ (s : State) (dt : Nat) (f : Nat) (e : Nat),
    (s.elapse dt).Plain ∧ ((s.elapse dt).win f e).drained = true) ∧
  (∃ (s : State) (dt : Nat) (f : Nat) (e : Nat),
    (s.elapse dt).Plain ∧ ((s.elapse dt).win f e).drained = false ∧ ((s.elapse dt).win f e).waiting = []) ∧
  (∃ (s : State) (dt : Nat) (p : Path) (x : Session) (q : TReq) (f : Nat) (e : Nat),
    (s.elapse dt).Settled ∧ Awaits (s.elapse dt) p x q 2308 ∧ ((s.elapse dt).win f e).drained = false ∧ ((s.elapse dt).win f e).waiting = [p]) ∧
  (∃ (s : State) (dt : Nat) (p : Path) (x : Session) (q : TReq) (v : Nat) (e : Nat) (tg : Nat) (pg : Nat),
    v < 2 ^ 25 ∧ (Issued (s.elapse dt) p x q 2307 4 ((s.elapse dt).funcPerm v)) ∧ tg < 2 ^ 36 ∧ pg < 2 ^ 15 ∧ 63 < e) ∧
  (∃ (s : State) (dt : Nat) (p : Path) (x : Session) (q : TReq) (v : Nat) (e : Nat) (tg : Nat) (pg : Nat),
    v < 2 ^ 25 ∧ (Issued (s.elapse dt) p x q 2307 4 ((s.elapse dt).funcPerm v)) ∧ tg < 2 ^ 36 ∧ pg < 2 ^ 15 ∧ e ≤ 63 ∧ (s.elapse dt).fnExists (fnOf v) = false) ∧
  (∃ (s : State) (dt : Nat) (p : Path) (x : Session) (q : TReq) (v : Nat) (e : Nat) (tg : Nat) (pg : Nat),
    v < 2 ^ 25 ∧ (Issued (s.elapse dt) p x q 2307 4 ((s.elapse dt).funcPerm v)) ∧ tg < 2 ^ 36 ∧ pg < 2 ^ 15 ∧ e ≤ 63 ∧ (s.elapse dt).fnExists (fnOf v) = true ∧ ((s.elapse dt).win (fnOf v) e).valid = false) ∧
  (∃ (s : State) (dt : Nat) (p : Path) (x : Session) (q : TReq) (v : Nat) (e : Nat) (tg : Nat) (pg : Nat),
    v < 2 ^ 25 ∧ (Issued (s.elapse dt) p x q 2307 4 ((s.elapse dt).funcPerm v)) ∧ tg < 2 ^ 36 ∧ pg < 2 ^ 15 ∧ e ≤ 63 ∧ (s.elapse dt).fnExists (fnOf v) = true ∧ ((s.elapse dt).win (fnOf v) e).valid = true) ∧
  (∃ (s : State) (dt : Nat) (p : Path) (x : Session) (q : TReq) (v : Nat) (e : Nat) (on : Nat) (sq : Nat) (rd : Nat) (wr : Nat),
    v < 2 ^ 25 ∧ (Issued (s.elapse dt) p x q 2308 6 ((s.elapse dt).funcPerm v)) ∧ on ≤ 1 ∧ sq ≤ 15 ∧ rd ≤ 1 ∧ wr ≤ 1 ∧ 63 < e) ∧
  (∃ (s : State) (dt : Nat) (p : Path) (x : Session) (q : TReq) (v : Nat) (e : Nat) (on : Nat) (sq : Nat) (rd : Nat) (wr : Nat),
    v < 2 ^ 25 ∧ (Issued (s.elapse dt) p x q 2308 6 ((s.elapse dt).funcPerm v)) ∧ on ≤ 1 ∧ sq ≤ 15 ∧ rd ≤ 1 ∧ wr ≤ 1 ∧ e ≤ 63 ∧ (s.elapse dt).fnExists (fnOf v) = false) ∧
  (∃ (s : State) (dt : Nat) (p : Path) (x : Session) (q : TReq) (v : Nat) (e : Nat) (on : Nat) (sq : Nat) (rd : Nat) (wr : Nat),
    v < 2 ^ 25 ∧ (Issued (s.elapse dt) p x q 2308 6 ((s.elapse dt).funcPerm v)) ∧ on ≤ 1 ∧ sq ≤ 15 ∧ rd ≤ 1 ∧ wr ≤ 1 ∧ e ≤ 63 ∧ (s.elapse dt).fnExists (fnOf v) = true ∧ on = 1 ∧ (s.elapse dt).winGood (fnOf v) ((s.elapse dt).win (fnOf v) e) = true) ∧
  (∃ (s : State) (dt : Nat) (p : Path) (x : Session) (q : TReq) (v : Nat) (e : Nat) (on : Nat) (sq : Nat) (rd : Nat) (wr : Nat),
    v < 2 ^ 25 ∧ (Issued (s.elapse dt) p x q 2308 6 ((s.elapse dt).funcPerm v)) ∧ on ≤ 1 ∧ sq ≤ 15 ∧ rd ≤ 1 ∧ wr ≤ 1 ∧ e ≤ 63 ∧ (s.elapse dt).fnExists (fnOf v) = true ∧ on = 1 ∧ (s.elapse dt).winGood (fnOf v) ((s.elapse dt).win (fnOf v) e) = false) ∧
  (∃ (s : State) (dt : Nat) (p : Path) (x : Session) (q : TReq) (v : Nat) (e : Nat) (on : Nat) (sq : Nat) (rd : Nat) (wr : Nat),
    v < 2 ^ 25 ∧ (Issued (s.elapse dt) p x q 2308 6 ((s.elapse dt).funcPerm v)) ∧ on ≤ 1 ∧ sq ≤ 15 ∧ rd ≤ 1 ∧ wr ≤ 1 ∧ e ≤ 63 ∧ (s.elapse dt).fnExists (fnOf v) = true ∧ on = 0 ∧ ((s.elapse dt).win (fnOf v) e).valid = false ∧ ((s.elapse dt).win (fnOf v) e).drained = true) ∧
  (∃ (s : State) (dt : Nat) (p : Path) (x : Session) (q : TReq) (v : Nat) (e : Nat) (on : Nat) (sq : Nat) (rd : Nat) (wr : Nat),
    v < 2 ^ 25 ∧ (Issued (s.elapse dt) p x q 2308 6 ((s.elapse dt).funcPerm v)) ∧ on ≤ 1 ∧ sq ≤ 15 ∧ rd ≤ 1 ∧ wr ≤ 1 ∧ e ≤ 63 ∧ (s.elapse dt).fnExists (fnOf v) = true ∧ on = 0 ∧ (((s.elapse dt).win (fnOf v) e).valid = true ∨ ((s.elapse dt).win (fnOf v) e).drained = false)) ∧
  (∃ (s : State) (dt : Nat) (p : Path) (x : Session) (q : TReq) (v : Nat) (e : Nat),
    v < 2 ^ 25 ∧ (Issued (s.elapse dt) p x q 2309 2 ((s.elapse dt).funcPerm v)) ∧ 63 < e) ∧
  (∃ (s : State) (dt : Nat) (p : Path) (x : Session) (q : TReq) (v : Nat) (e : Nat),
    v < 2 ^ 25 ∧ (Issued (s.elapse dt) p x q 2309 2 ((s.elapse dt).funcPerm v)) ∧ e ≤ 63 ∧ (s.elapse dt).fnExists (fnOf v) = false) ∧
  (∃ (s : State) (dt : Nat) (p : Path) (x : Session) (q : TReq) (v : Nat) (e : Nat),
    v < 2 ^ 25 ∧ (Issued (s.elapse dt) p x q 2309 2 ((s.elapse dt).funcPerm v)) ∧ e ≤ 63 ∧ (s.elapse dt).fnExists (fnOf v) = true) ∧
  (∃ (s : State) (dt : Nat) (p : Path) (x : Session) (q : TReq) (v : Nat) (us : Nat),
    v < 2 ^ 25 ∧ (Issued (s.elapse dt) p x q 2306 2 ((s.elapse dt).funcPerm v)) ∧ (us < 50 ∨ 64000 < us)) ∧
  (∃ (s : State) (dt : Nat) (p : Path) (x : Session) (q : TReq) (v : Nat) (us : Nat),
    v < 2 ^ 25 ∧ (Issued (s.elapse dt) p x q 2306 2 ((s.elapse dt).funcPerm v)) ∧ 50 ≤ us ∧ us ≤ 64000 ∧ (s.elapse dt).fnExists (fnOf v) = false) ∧
  (∃ (s : State) (dt : Nat) (p : Path) (x : Session) (q : TReq) (v : Nat) (us : Nat),
    v < 2 ^ 25 ∧ (Issued (s.elapse dt) p x q 2306 2 ((s.elapse dt).funcPerm v)) ∧ 50 ≤ us ∧ us ≤ 64000 ∧ (s.elapse dt).fnExists (fnOf v) = true) ∧
  (∃ (s : State) (dt : Nat) (p : Path) (x : Session) (q : TReq) (v : Nat) (z : Nat),
    v < 2 ^ 25 ∧ Issued (s.elapse dt) p x q 2310 2 Perm.any ∧ (¬∃ k, k ∈ List.range 15 ∧ z = 2 ^ (22 + k))) ∧
  (∃ (s : State) (dt : Nat) (p : Path) (x : Session) (q : TReq) (v : Nat) (z : Nat),
    v < 2 ^ 25 ∧ Issued (s.elapse dt) p x q 2310 2 Perm.any ∧ (∃ k, k ∈ List.range 15 ∧ z = 2 ^ (22 + k)) ∧ (s.elapse dt).fnExists (fnOf v) = false) ∧
  (∃ (s : State) (dt : Nat) (p : Path) (x : Session) (q : TReq) (v : Nat) (z : Nat),
    v < 2 ^ 25 ∧ Issued (s.elapse dt) p x q 2310 2 Perm.any ∧ (∃ k, k ∈ List.range 15 ∧ z = 2 ^ (22 + k)) ∧ (s.elapse dt).fnExists (fnOf v) = true ∧ (s.elapse dt).winCeil ((s.elapse dt).fnDom (fnOf v)) < z) ∧
  (∃ (s : State) (dt : Nat) (p : Path) (x : Session) (q : TReq) (v : Nat) (z : Nat),
    v < 2 ^ 25 ∧ Issued (s.elapse dt) p x q 2310 2 Perm.any ∧ (∃ k, k ∈ List.range 15 ∧ z = 2 ^ (22 + k)) ∧ (s.elapse dt).fnExists (fnOf v) = true ∧ z ≤ (s.elapse dt).winCeil ((s.elapse dt).fnDom (fnOf v))) ∧
  (∃ (s : State) (dt : Nat) (p : Path) (x : Session) (q : TReq) (v : Nat),
    v < 2 ^ 25 ∧ (Issued (s.elapse dt) p x q 2305 1 ((s.elapse dt).funcPerm v)) ∧ (s.elapse dt).fnExists (fnOf v) = false) ∧
  (∃ (s : State) (dt : Nat) (p : Path) (x : Session) (q : TReq) (v : Nat),
    v < 2 ^ 25 ∧ (Issued (s.elapse dt) p x q 2305 1 ((s.elapse dt).funcPerm v)) ∧ (s.elapse dt).fnExists (fnOf v) = true) :=
  ⟨⟨(inMode .service), 3, 0,
      plain_of (by decide +kernel), by decide +kernel⟩,
    ⟨{ linked .service with pcie.fns := [] }, 3, 0,
      plain_of (by decide +kernel), by decide +kernel⟩,
    ⟨{ linked .service with glb.fns := [(0, { inReset := true })] }, 3, 0,
      plain_of (by decide +kernel), by decide +kernel⟩,
    ⟨(winS { pages := 1, valid := true, rd := true }), 3, 0, 0, 65532, 4,
      plain_of (by decide +kernel), by decide +kernel⟩,
    ⟨{ winS { pages := 1, valid := true, rd := true } with mem.poison := [cisternAt 0 65532 / 32] }, 3, 0, 0, 65532, 4,
      plain_of (by decide +kernel), by decide +kernel⟩,
    ⟨(winS { pages := 1, valid := true, wr := true }), 3, 0, 0, 65532, 4, [1,2,3,4],
      plain_of (by decide +kernel), by decide +kernel⟩,
    ⟨(winS { pages := 1, valid := true, rd := true }), 3, 0, 0, 65533, 4,
      plain_of (by decide +kernel), by decide +kernel⟩,
    ⟨(winS { pages := 1, valid := true }), 3, 0, 0, 65532, 4,
      plain_of (by decide +kernel), by decide +kernel⟩,
    ⟨(linked .service), 3, 0, 4,
      plain_of (by decide +kernel), by decide +kernel⟩,
    ⟨{ linked .service with pcie.fns := [(0, { mse := true, romEn := true })], pcie.rom := [1, 2], pw.perstAt := 1 }, 3, 1, 4,
      plain_of (by decide +kernel), by decide +kernel⟩,
    ⟨{ linked .service with pcie.fns := [(0, { mse := true, romEn := true })], pcie.rom := [1, 2], elapsed := ns 100000000, glb.fns := [(0, { inReset := true })] }, 3, 1, 4,
      plain_of (by decide +kernel), by decide +kernel⟩,
    ⟨{ linked .service with pcie.fns := [(0, { mse := true, romEn := true })], pcie.rom := [1, 2], elapsed := ns 100000000 }, 3, 1, 4,
      plain_of (by decide +kernel), by decide +kernel⟩,
    ⟨{ linked .service with elapsed := ns 100000000, glb.mode := .boot, pcie.fns := [(0, { mse := true, romEn := true })] }, 3, 1, 4,
      plain_of (by decide +kernel), by decide +kernel⟩,
    ⟨(linked .service), 3, 0, 64,
      plain_of (by decide +kernel), by decide +kernel⟩,
    ⟨(winS { pages := 1, valid := true, drained := false }), 3, 0, 0, 0x2E,
      plain_of (by decide +kernel), by decide +kernel⟩,
    ⟨(winS { pages := 1 }), 3, 0, 0, 0x2F,
      plain_of (by decide +kernel), by decide +kernel⟩,
    ⟨(winS { pages := 1 }), 3, 0, 1, 0x2F,
      plain_of (by decide +kernel), by decide +kernel⟩,
    ⟨(winS { pages := 1, valid := true }), 3, 0, 0, 1,
      plain_of (by decide +kernel), by decide +kernel⟩,
    ⟨(winS { target := 2 ^ 34 + 65536, pages := 1 }), 3, 0, 0, 0x18003,
      plain_of (by decide +kernel), by decide +kernel⟩,
    ⟨(winS { pages := 1 }), 3, 0, 0,
      plain_of (by decide +kernel), by decide +kernel⟩,
    ⟨(winS { pages := 1, drained := false }), 3, 0, 0,
      plain_of (by decide +kernel), by decide +kernel⟩,
    ⟨(wait (winS { pages := 1, drained := false, waiting := [.mp 1] }) 0x0904 6), 3, (.mp 1), (busy 0x0904 6), (req 0x0904 6), 0, 0,
      settled_of (by decide +kernel), awaits_of (by decide +kernel), by decide +kernel⟩,
    ⟨(ask (winS {}) 0x0903 4), 3, (.mp 1), (sess 0x0903 4), (req 0x0903 4), 0, 64, 65537, 3,
      by decide +kernel, issued_of (by decide +kernel), by decide +kernel⟩,
    ⟨(ask (winS {}) 0x0903 4), 3, (.mp 1), (sess 0x0903 4), (req 0x0903 4), 8, 63, 65537, 3,
      by decide +kernel, issued_of (by decide +kernel), by decide +kernel⟩,
    ⟨(ask (winS {}) 0x0903 4), 3, (.mp 1), (sess 0x0903 4), (req 0x0903 4), 0, 0, 65537, 3,
      by decide +kernel, issued_of (by decide +kernel), by decide +kernel⟩,
    ⟨(ask (winS { valid := true }) 0x0903 4), 3, (.mp 1), (sess 0x0903 4), (req 0x0903 4), 0, 0, 65537, 3,
      by decide +kernel, issued_of (by decide +kernel), by decide +kernel⟩,
    ⟨(ask (winS {}) 0x0904 6), 3, (.mp 1), (sess 0x0904 6), (req 0x0904 6), 0, 64, 1, 15, 1, 0,
      by decide +kernel, issued_of (by decide +kernel), by decide +kernel⟩,
    ⟨(ask (winS {}) 0x0904 6), 3, (.mp 1), (sess 0x0904 6), (req 0x0904 6), 8, 63, 1, 15, 1, 0,
      by decide +kernel, issued_of (by decide +kernel), by decide +kernel⟩,
    ⟨(ask (winS { pages := 1 }) 0x0904 6), 3, (.mp 1), (sess 0x0904 6), (req 0x0904 6), 0, 0, 1, 15, 1, 0,
      by decide +kernel, issued_of (by decide +kernel), by decide +kernel⟩,
    ⟨(ask (winS {}) 0x0904 6), 3, (.mp 1), (sess 0x0904 6), (req 0x0904 6), 0, 0, 1, 15, 1, 0,
      by decide +kernel, issued_of (by decide +kernel), by decide +kernel⟩,
    ⟨(ask (winS {}) 0x0904 6), 3, (.mp 1), (sess 0x0904 6), (req 0x0904 6), 0, 0, 0, 15, 1, 0,
      by decide +kernel, issued_of (by decide +kernel), by decide +kernel⟩,
    ⟨(ask (winS { valid := true }) 0x0904 6), 3, (.mp 1), (sess 0x0904 6), (req 0x0904 6), 0, 0, 0, 15, 1, 0,
      by decide +kernel, issued_of (by decide +kernel), by decide +kernel⟩,
    ⟨(ask (winS {}) 0x0905 2), 3, (.mp 1), (sess 0x0905 2), (req 0x0905 2), 0, 64,
      by decide +kernel, issued_of (by decide +kernel), by decide +kernel⟩,
    ⟨(ask (winS {}) 0x0905 2), 3, (.mp 1), (sess 0x0905 2), (req 0x0905 2), 8, 63,
      by decide +kernel, issued_of (by decide +kernel), by decide +kernel⟩,
    ⟨(ask (winS { valid := true, target := 2 ^ 34 + 65536 }) 0x0905 2), 3, (.mp 1), (sess 0x0905 2), (req 0x0905 2), 0, 0,
      by decide +kernel, issued_of (by decide +kernel), by decide +kernel⟩,
    ⟨(ask (winS {}) 0x0902 2), 3, (.mp 1), (sess 0x0902 2), (req 0x0902 2), 0, 64001,
      by decide +kernel, issued_of (by decide +kernel), by decide +kernel⟩,
    ⟨(ask (winS {}) 0x0902 2), 3, (.mp 1), (sess 0x0902 2), (req 0x0902 2), 8, 64000,
      by decide +kernel, issued_of (by decide +kernel), by decide +kernel⟩,
    ⟨(ask (winS {}) 0x0902 2), 3, (.mp 1), (sess 0x0902 2), (req 0x0902 2), 0, 50,
      by decide +kernel, issued_of (by decide +kernel), by decide +kernel⟩,
    ⟨(ask (winS {}) 0x0906 2), 3, (.mp 1), (sess 0x0906 2), (req 0x0906 2), 0, (2 ^ 22 + 1),
      by decide +kernel, issued_of (by decide +kernel), by decide +kernel⟩,
    ⟨(ask (winS {}) 0x0906 2), 3, (.mp 1), (sess 0x0906 2), (req 0x0906 2), 8, (2 ^ 22),
      by decide +kernel, issued_of (by decide +kernel), by decide +kernel⟩,
    ⟨(ask (mapped .service) 0x0906 2), 3, (.mp 1), (sess 0x0906 2), (req 0x0906 2), 0, (2 ^ 36),
      by decide +kernel, issued_of (by decide +kernel), by decide +kernel⟩,
    ⟨(ask (winS {}) 0x0906 2), 3, (.mp 1), (sess 0x0906 2), (req 0x0906 2), 0, (2 ^ 36),
      by decide +kernel, issued_of (by decide +kernel), by decide +kernel⟩,
    ⟨(ask (winS {}) 0x0901 1), 3, (.mp 1), (sess 0x0901 1), (req 0x0901 1), 8,
      by decide +kernel, issued_of (by decide +kernel), by decide +kernel⟩,
    ⟨(ask (winS {}) 0x0901 1), 3, (.mp 1), (sess 0x0901 1), (req 0x0901 1), 0,
      by decide +kernel, issued_of (by decide +kernel), by decide +kernel⟩⟩

end Sys2Proof.Tests
end

