-- ==== Sys2Proof/Tests/WitnessesC.lean ====
section
/-! SUPPORT. Concrete states and operands that meet the premises of each clause of the statements, from 02_modes_and_bring_up.md on; each theorem is named after its statement. -/
namespace Sys2Proof.Tests
open Sys2Proof.Machine
set_option Elab.async false
set_option maxRecDepth 4000

set_option Elab.async false
set_option maxRecDepth 4000
/-- The premises of `Obligations.RdmaPackets`, clause by clause, are met. -/
theorem witness_RdmaPackets :
  (∃ (s : State) (dt : Nat) (fn : Nat) (r : Nat × Instr),
    r ∈ [(0, Instr.rdmaRequestPacket dt fn), (1, Instr.rdmaAckReceived dt fn), (2, Instr.rdmaNakReceived dt fn), (3, Instr.rdmaRnrNakReceived dt fn), (4, Instr.rdmaReadResponse dt fn), (5, Instr.cnpReceived dt fn)] ∧ (s.elapse dt).Plain ∧ ((s.elapse dt).glb.mode = Mode.lockdown ∨ (s.elapse dt).mute fn = true ∨ tget (s.elapse dt).rdma.intake fn [] = [])) ∧
  (∃ (s : State) (dt : Nat) (fn : Nat) (r : Nat × Instr) (f : Frame) (more : List Frame),
    r ∈ [(0, Instr.rdmaRequestPacket dt fn), (1, Instr.rdmaAckReceived dt fn), (2, Instr.rdmaNakReceived dt fn), (3, Instr.rdmaRnrNakReceived dt fn), (4, Instr.rdmaReadResponse dt fn), (5, Instr.cnpReceived dt fn)] ∧ (s.elapse dt).Plain ∧ tget (s.elapse dt).rdma.intake fn [] = f :: more ∧ pktClass f ≠ r.fst) ∧
  (∃ (s : State) (dt : Nat) (fn : Nat) (r : Nat × Instr) (f : Frame),
    r ∈ [(0, Instr.rdmaRequestPacket dt fn), (1, Instr.rdmaAckReceived dt fn), (2, Instr.rdmaNakReceived dt fn), (3, Instr.rdmaRnrNakReceived dt fn), (4, Instr.rdmaReadResponse dt fn), (5, Instr.cnpReceived dt fn)] ∧ (s.elapse dt).Plain ∧ (s.elapse dt).glb.mode ≠ Mode.lockdown ∧ (s.elapse dt).mute fn = false ∧ tget (s.elapse dt).rdma.intake fn [] = [f] ∧ pktClass f = r.fst ∧ roceOf f.data = none) ∧
  (∃ (s : State) (dt : Nat) (fn : Nat) (r : Nat × Instr) (f : Frame) (dip : Nat) (ecn : Nat) (b : Bytes),
    r ∈ [(0, Instr.rdmaRequestPacket dt fn), (1, Instr.rdmaAckReceived dt fn), (2, Instr.rdmaNakReceived dt fn), (3, Instr.rdmaRnrNakReceived dt fn), (4, Instr.rdmaReadResponse dt fn), (5, Instr.cnpReceived dt fn)] ∧ (s.elapse dt).Plain ∧ (s.elapse dt).glb.mode ≠ Mode.lockdown ∧ (s.elapse dt).mute fn = false ∧ tget (s.elapse dt).rdma.intake fn [] = [f] ∧ pktClass f = r.fst ∧ roceOf f.data = some (dip, ecn, b, false)) ∧
  (∃ (s : State) (dt : Nat) (fn : Nat) (r : Nat × Instr) (f : Frame) (dip : Nat) (ecn : Nat) (b : Bytes),
    r ∈ [(0, Instr.rdmaRequestPacket dt fn), (1, Instr.rdmaAckReceived dt fn), (2, Instr.rdmaNakReceived dt fn), (3, Instr.rdmaRnrNakReceived dt fn), (4, Instr.rdmaReadResponse dt fn), (5, Instr.cnpReceived dt fn)] ∧ (s.elapse dt).Plain ∧ (s.elapse dt).glb.mode ≠ Mode.lockdown ∧ (s.elapse dt).mute fn = false ∧ tget (s.elapse dt).rdma.intake fn [] = [f] ∧ pktClass f = r.fst ∧ roceOf f.data = some (dip, ecn, b, true) ∧ (((s.elapse dt).rdma.qpFree.any fun x => x.num == bthQpn b % 2 ^ 20 && !x.free && decide ((s.elapse dt).elapsed < x.ends)) = true) ∧ bthQpn b / 2 ^ 20 = 1) ∧
  (∃ (s : State) (dt : Nat) (fn : Nat) (r : Nat × Instr) (f : Frame) (dip : Nat) (ecn : Nat) (b : Bytes),
    r ∈ [(0, Instr.rdmaRequestPacket dt fn), (1, Instr.rdmaAckReceived dt fn), (2, Instr.rdmaNakReceived dt fn), (3, Instr.rdmaRnrNakReceived dt fn), (4, Instr.rdmaReadResponse dt fn), (5, Instr.cnpReceived dt fn)] ∧ (s.elapse dt).Plain ∧ (s.elapse dt).glb.mode ≠ Mode.lockdown ∧ (s.elapse dt).mute fn = false ∧ tget (s.elapse dt).rdma.intake fn [] = [f] ∧ pktClass f = r.fst ∧ roceOf f.data = some (dip, ecn, b, true) ∧ (¬((s.elapse dt).rdma.qpFree.any fun x => x.num == bthQpn b % 2 ^ 20 && !x.free && decide ((s.elapse dt).elapsed < x.ends)) = true ∨ bthQpn b / 2 ^ 20 ≠ 1) ∧ (s.elapse dt).qp? (bthQpn b % 2 ^ 20) = none) ∧
  (∃ (s : State) (dt : Nat) (fn : Nat) (r : Nat × Instr) (f : Frame) (dip : Nat) (ecn : Nat) (b : Bytes) (q : Qp),
    r ∈ [(0, Instr.rdmaRequestPacket dt fn), (1, Instr.rdmaAckReceived dt fn), (2, Instr.rdmaNakReceived dt fn), (3, Instr.rdmaRnrNakReceived dt fn), (4, Instr.rdmaReadResponse dt fn), (5, Instr.cnpReceived dt fn)] ∧ (s.elapse dt).Plain ∧ (s.elapse dt).glb.mode ≠ Mode.lockdown ∧ (s.elapse dt).mute fn = false ∧ tget (s.elapse dt).rdma.intake fn [] = [f] ∧ pktClass f = r.fst ∧ roceOf f.data = some (dip, ecn, b, true) ∧ (¬((s.elapse dt).rdma.qpFree.any fun x => x.num == bthQpn b % 2 ^ 20 && !x.free && decide ((s.elapse dt).elapsed < x.ends)) = true ∨ bthQpn b / 2 ^ 20 ≠ 1) ∧ (s.elapse dt).qp? (bthQpn b % 2 ^ 20) = some q ∧ (bthQpn b / 2 ^ 20 ≠ 1 ∨ q.fn ≠ fn ∨ (s.elapse dt).gidOk f.port dip q.dom = false)) ∧
  (∃ (s : State) (dt : Nat) (fn : Nat) (r : Nat × Instr) (f : Frame) (dip : Nat) (ecn : Nat) (b : Bytes) (q : Qp),
    r ∈ [(0, Instr.rdmaRequestPacket dt fn), (1, Instr.rdmaAckReceived dt fn), (2, Instr.rdmaNakReceived dt fn), (3, Instr.rdmaRnrNakReceived dt fn), (4, Instr.rdmaReadResponse dt fn), (5, Instr.cnpReceived dt fn)] ∧ (s.elapse dt).Plain ∧ (s.elapse dt).glb.mode ≠ Mode.lockdown ∧ (s.elapse dt).mute fn = false ∧ tget (s.elapse dt).rdma.intake fn [] = [f] ∧ pktClass f = r.fst ∧ roceOf f.data = some (dip, ecn, b, true) ∧ (¬((s.elapse dt).rdma.qpFree.any fun x => x.num == bthQpn b % 2 ^ 20 && !x.free && decide ((s.elapse dt).elapsed < x.ends)) = true) ∧ (s.elapse dt).qp? (bthQpn b % 2 ^ 20) = some q ∧ bthQpn b / 2 ^ 20 = 1 ∧ q.fn = fn ∧ (s.elapse dt).gidOk f.port dip q.dom = true ∧ (s.elapse dt).ctx? (ctxKey 1 q.dom (bthQpn b % 2 ^ 20)) = none ∧ q.state ∈ [QState.reset, QState.init, QState.error] ∧ r.fst ≠ 5) ∧
  (∃ (s : State) (dt : Nat) (fn : Nat) (n : Nat) (f : Frame) (b : Bytes) (q : Qp),
    Arrives (s.elapse dt) fn 0 n f b q ∧ 0 < psnDiff (bthPsn b) q.expPsn ∧ psnDiff (bthPsn b) q.expPsn < 2 ^ 23 ∧ q.nakked = true) ∧
  (∃ (s : State) (dt : Nat) (fn : Nat) (n : Nat) (f : Frame) (b : Bytes) (q : Qp),
    Arrives (s.elapse dt) fn 0 n f b q ∧ 0 < psnDiff (bthPsn b) q.expPsn ∧ psnDiff (bthPsn b) q.expPsn < 2 ^ 23 ∧ q.nakked = false) ∧
  (∃ (s : State) (dt : Nat) (fn : Nat) (n : Nat) (f : Frame) (b : Bytes) (q : Qp),
    Arrives (s.elapse dt) fn 0 n f b q ∧ 2 ^ 23 ≤ psnDiff (bthPsn b) q.expPsn ∧ bthOp b ≤ 11) ∧
  (∃ (s : State) (dt : Nat) (fn : Nat) (n : Nat) (f : Frame) (b : Bytes) (q : Qp) (a : Nat × Nat),
    Arrives (s.elapse dt) fn 0 n f b q ∧ 2 ^ 23 ≤ psnDiff (bthPsn b) q.expPsn ∧ (bthOp b = 19 ∨ bthOp b = 20) ∧ (List.find? (fun x => x.fst == bthPsn b) q.atomics = some a)) ∧
  (∃ (s : State) (dt : Nat) (fn : Nat) (n : Nat) (f : Frame) (b : Bytes) (q : Qp),
    Arrives (s.elapse dt) fn 0 n f b q ∧ bthPsn b = q.expPsn ∧ bthPsn b < 2 ^ 24 ∧ q.msg = none ∧ bthOp b ∈ [1, 2, 3, 7, 8, 9]) ∧
  (∃ (s : State) (dt : Nat) (fn : Nat) (n : Nat) (f : Frame) (b : Bytes) (q : Qp),
    Arrives (s.elapse dt) fn 0 n f b q ∧ bthPsn b = q.expPsn ∧ bthPsn b < 2 ^ 24 ∧ q.msg = none ∧ bthOp b ∈ [0, 4] ∧ (((s.elapse dt).taken fn).ctxNeed (ctxKey 1 q.dom n)).snd.recvBuf q = none) ∧
  (∃ (s : State) (dt : Nat) (fn : Nat) (n : Nat) (f : Frame) (b : Bytes) (q : Qp) (d : Desc),
    Arrives (s.elapse dt) fn 0 n f b q ∧ bthPsn b = q.expPsn ∧ bthPsn b < 2 ^ 24 ∧ q.msg = none ∧ bthOp b ∈ [0, 4] ∧ (((s.elapse dt).taken fn).ctxNeed (ctxKey 1 q.dom n)).snd.recvBuf q = some d ∧ List.length (bodyAfter b 12) ≤ d.len ∧ bthOp b = 0 ∧ bthAck b = false ∧ q.unacked < 15) ∧
  (∃ (s : State) (dt : Nat) (fn : Nat) (n : Nat) (f : Frame) (b : Bytes) (q : Qp) (d : Desc),
    Arrives (s.elapse dt) fn 0 n f b q ∧ bthPsn b = q.expPsn ∧ bthPsn b < 2 ^ 24 ∧ q.msg = none ∧ bthOp b ∈ [0, 4] ∧ (((s.elapse dt).taken fn).ctxNeed (ctxKey 1 q.dom n)).snd.recvBuf q = some d ∧ List.length (bodyAfter b 12) ≤ d.len ∧ bthOp b = 4 ∧ (d.type < 48 ∨ bodyAfter b 12 = [] ∨ (s.elapse dt).cisternOk q.dom d.addr (List.length (bodyAfter b 12)) = true)) ∧
  (∃ (s : State) (dt : Nat) (fn : Nat) (n : Nat) (f : Frame) (b : Bytes) (q : Qp) (d : Desc),
    Arrives (s.elapse dt) fn 0 n f b q ∧ bthPsn b = q.expPsn ∧ bthPsn b < 2 ^ 24 ∧ q.msg = none ∧ bthOp b ∈ [0, 4] ∧ (((s.elapse dt).taken fn).ctxNeed (ctxKey 1 q.dom n)).snd.recvBuf q = some d ∧ d.len < List.length (bodyAfter b 12)) ∧
  (∃ (s : State) (dt : Nat) (fn : Nat) (n : Nat) (f : Frame) (b : Bytes) (q : Qp),
    Arrives (s.elapse dt) fn 0 n f b q ∧ bthPsn b = q.expPsn ∧ bthPsn b < 2 ^ 24 ∧ q.msg = none ∧ bthOp b ∈ [10, 12, 19, 20, 29] ∧ (((s.elapse dt).taken fn).ctxNeed (ctxKey 1 q.dom n)).snd.mr? (ofBe (slice b 20 4)) = none) ∧
  (∃ (s : State) (dt : Nat) (fn : Nat) (n : Nat) (f : Frame) (b : Bytes) (q : Qp) (m : Mr),
    Arrives (s.elapse dt) fn 0 n f b q ∧ bthPsn b = q.expPsn ∧ bthPsn b < 2 ^ 24 ∧ q.msg = none ∧ bthOp b ∈ [10, 12, 19, 20, 29] ∧ (((s.elapse dt).taken fn).ctxNeed (ctxKey 1 q.dom n)).snd.mr? (ofBe (slice b 20 4)) = some m ∧ m.key ≠ ofBe (slice b 20 4)) ∧
  (∃ (s : State) (dt : Nat) (fn : Nat) (n : Nat) (f : Frame) (b : Bytes) (q : Qp) (m : Mr),
    Arrives (s.elapse dt) fn 0 n f b q ∧ bthPsn b = q.expPsn ∧ bthPsn b < 2 ^ 24 ∧ q.msg = none ∧ bthOp b ∈ [10, 12, 19, 20, 29] ∧ (((s.elapse dt).taken fn).ctxNeed (ctxKey 1 q.dom n)).snd.mr? (ofBe (slice b 20 4)) = some m ∧ m.key = ofBe (slice b 20 4) ∧ m.closing.isSome = true) ∧
  (∃ (s : State) (dt : Nat) (fn : Nat) (n : Nat) (f : Frame) (b : Bytes) (q : Qp) (m : Mr),
    Arrives (s.elapse dt) fn 0 n f b q ∧ bthPsn b = q.expPsn ∧ bthPsn b < 2 ^ 24 ∧ q.msg = none ∧ bthOp b ∈ [10, 12, 19, 20, 29] ∧ (((s.elapse dt).taken fn).ctxNeed (ctxKey 1 q.dom n)).snd.mr? (ofBe (slice b 20 4)) = some m ∧ m.key = ofBe (slice b 20 4) ∧ m.closing = none ∧ (m.fn ≠ q.fn ∨ m.pd ≠ q.attr.pd ∨ m.rights.testBit (if bthOp b = 12 then 0 else if bthOp b = 19 ∨ bthOp b = 20 then 2 else 1) = false ∨ ofBe (slice b 12 8) < m.va ∨ (m.va + m.len < ofBe (slice b 12 8) + if bthOp b ∈ [19, 20, 29] then 8 else ofBe (slice b 24 4)) ∨ bthOp b ∈ [19, 20, 29] ∧ ofBe (slice b 12 8) % 8 ≠ 0)) ∧
  (∃ (s : State) (dt : Nat) (fn : Nat) (n : Nat) (f : Frame) (b : Bytes) (q : Qp) (m : Mr),
    Arrives (s.elapse dt) fn 0 n f b q ∧ bthPsn b = q.expPsn ∧ bthPsn b < 2 ^ 24 ∧ q.msg = none ∧ bthOp b ∈ [10, 12, 19, 20, 29] ∧ (((s.elapse dt).taken fn).ctxNeed (ctxKey 1 q.dom n)).snd.mr? (ofBe (slice b 20 4)) = some m ∧ m.key = ofBe (slice b 20 4) ∧ m.closing = none ∧ m.fn = q.fn ∧ m.pd = q.attr.pd ∧ (m.rights.testBit (if bthOp b = 12 then 0 else if bthOp b = 19 ∨ bthOp b = 20 then 2 else 1) = true) ∧ m.va ≤ ofBe (slice b 12 8) ∧ ((ofBe (slice b 12 8) + if bthOp b ∈ [19, 20, 29] then 8 else ofBe (slice b 24 4)) ≤ m.va + m.len) ∧ (bthOp b ∈ [19, 20, 29] → ofBe (slice b 12 8) % 8 = 0) ∧ (bthOp b = 19 ∨ bthOp b = 20) ∧ m.space = 0) ∧
  (∃ (s : State) (dt : Nat) (fn : Nat) (n : Nat) (f : Frame) (b : Bytes) (q : Qp) (m : Mr),
    Arrives (s.elapse dt) fn 0 n f b q ∧ bthPsn b = q.expPsn ∧ bthPsn b < 2 ^ 24 ∧ q.msg = none ∧ bthOp b ∈ [10, 12, 19, 20, 29] ∧ (((s.elapse dt).taken fn).ctxNeed (ctxKey 1 q.dom n)).snd.mr? (ofBe (slice b 20 4)) = some m ∧ m.key = ofBe (slice b 20 4) ∧ m.closing = none ∧ m.fn = q.fn ∧ m.pd = q.attr.pd ∧ (m.rights.testBit (if bthOp b = 12 then 0 else if bthOp b = 19 ∨ bthOp b = 20 then 2 else 1) = true) ∧ m.va ≤ ofBe (slice b 12 8) ∧ ((ofBe (slice b 12 8) + if bthOp b ∈ [19, 20, 29] then 8 else ofBe (slice b 24 4)) ≤ m.va + m.len) ∧ (bthOp b ∈ [19, 20, 29] → ofBe (slice b 12 8) % 8 = 0) ∧ m.space = 1 ∧ (0 < if bthOp b ∈ [19, 20, 29] then 8 else ofBe (slice b 24 4)) ∧ (((s.elapse dt).taken fn).ctxNeed (ctxKey 1 q.dom n)).snd.cisternOk q.dom (m.addr + (ofBe (slice b 12 8) - m.va)) (if bthOp b ∈ [19, 20, 29] then 8 else ofBe (slice b 24 4)) = false ∧ (bthOp b ≠ 10 ∨ List.length (bodyAfter b 28) = if bthOp b ∈ [19, 20, 29] then 8 else ofBe (slice b 24 4))) ∧
  (∃ (s : State) (dt : Nat) (fn : Nat) (n : Nat) (f : Frame) (b : Bytes) (q : Qp) (m : Mr),
    Arrives (s.elapse dt) fn 0 n f b q ∧ bthPsn b = q.expPsn ∧ bthPsn b < 2 ^ 24 ∧ q.msg = none ∧ bthOp b ∈ [10, 12, 19, 20, 29] ∧ (((s.elapse dt).taken fn).ctxNeed (ctxKey 1 q.dom n)).snd.mr? (ofBe (slice b 20 4)) = some m ∧ m.key = ofBe (slice b 20 4) ∧ m.closing = none ∧ m.fn = q.fn ∧ m.pd = q.attr.pd ∧ (m.rights.testBit (if bthOp b = 12 then 0 else if bthOp b = 19 ∨ bthOp b = 20 then 2 else 1) = true) ∧ m.va ≤ ofBe (slice b 12 8) ∧ ((ofBe (slice b 12 8) + if bthOp b ∈ [19, 20, 29] then 8 else ofBe (slice b 24 4)) ≤ m.va + m.len) ∧ (bthOp b ∈ [19, 20, 29] → ofBe (slice b 12 8) % 8 = 0) ∧ m.space = 1 ∧ (((s.elapse dt).taken fn).ctxNeed (ctxKey 1 q.dom n)).snd.cisternOk q.dom (m.addr + (ofBe (slice b 12 8) - m.va)) (if bthOp b ∈ [19, 20, 29] then 8 else ofBe (slice b 24 4)) = true ∧ s.mem.poison = [] ∧ s.mem.bad = [] ∧ bthOp b = 10 ∧ (List.length (bodyAfter b 28) = if bthOp b ∈ [19, 20, 29] then 8 else ofBe (slice b 24 4))) ∧
  (∃ (s : State) (dt : Nat) (fn : Nat) (n : Nat) (f : Frame) (b : Bytes) (q : Qp) (m : Mr),
    Arrives (s.elapse dt) fn 0 n f b q ∧ bthPsn b = q.expPsn ∧ bthPsn b < 2 ^ 24 ∧ q.msg = none ∧ bthOp b ∈ [10, 12, 19, 20, 29] ∧ (((s.elapse dt).taken fn).ctxNeed (ctxKey 1 q.dom n)).snd.mr? (ofBe (slice b 20 4)) = some m ∧ m.key = ofBe (slice b 20 4) ∧ m.closing = none ∧ m.fn = q.fn ∧ m.pd = q.attr.pd ∧ (m.rights.testBit (if bthOp b = 12 then 0 else if bthOp b = 19 ∨ bthOp b = 20 then 2 else 1) = true) ∧ m.va ≤ ofBe (slice b 12 8) ∧ ((ofBe (slice b 12 8) + if bthOp b ∈ [19, 20, 29] then 8 else ofBe (slice b 24 4)) ≤ m.va + m.len) ∧ (bthOp b ∈ [19, 20, 29] → ofBe (slice b 12 8) % 8 = 0) ∧ m.space = 1 ∧ (((s.elapse dt).taken fn).ctxNeed (ctxKey 1 q.dom n)).snd.cisternOk q.dom (m.addr + (ofBe (slice b 12 8) - m.va)) (if bthOp b ∈ [19, 20, 29] then 8 else ofBe (slice b 24 4)) = true ∧ s.mem.poison = [] ∧ s.mem.bad = [] ∧ bthOp b = 29 ∧ List.length (slice b 28 8) = 8) ∧
  (∃ (s : State) (dt : Nat) (fn : Nat) (n : Nat) (f : Frame) (b : Bytes) (q : Qp) (m : Mr),
    Arrives (s.elapse dt) fn 0 n f b q ∧ bthPsn b = q.expPsn ∧ bthPsn b < 2 ^ 24 ∧ q.msg = none ∧ bthOp b ∈ [10, 12, 19, 20, 29] ∧ (((s.elapse dt).taken fn).ctxNeed (ctxKey 1 q.dom n)).snd.mr? (ofBe (slice b 20 4)) = some m ∧ m.key = ofBe (slice b 20 4) ∧ m.closing = none ∧ m.fn = q.fn ∧ m.pd = q.attr.pd ∧ (m.rights.testBit (if bthOp b = 12 then 0 else if bthOp b = 19 ∨ bthOp b = 20 then 2 else 1) = true) ∧ m.va ≤ ofBe (slice b 12 8) ∧ ((ofBe (slice b 12 8) + if bthOp b ∈ [19, 20, 29] then 8 else ofBe (slice b 24 4)) ≤ m.va + m.len) ∧ (bthOp b ∈ [19, 20, 29] → ofBe (slice b 12 8) % 8 = 0) ∧ m.space = 1 ∧ (((s.elapse dt).taken fn).ctxNeed (ctxKey 1 q.dom n)).snd.cisternOk q.dom (m.addr + (ofBe (slice b 12 8) - m.va)) (if bthOp b ∈ [19, 20, 29] then 8 else ofBe (slice b 24 4)) = true ∧ s.mem.poison = [] ∧ s.mem.bad = [] ∧ bthOp b = 12) ∧
  (∃ (s : State) (dt : Nat) (fn : Nat) (n : Nat) (f : Frame) (b : Bytes) (q : Qp) (m : Mr),
    Arrives (s.elapse dt) fn 0 n f b q ∧ bthPsn b = q.expPsn ∧ bthPsn b < 2 ^ 24 ∧ q.msg = none ∧ bthOp b ∈ [10, 12, 19, 20, 29] ∧ (((s.elapse dt).taken fn).ctxNeed (ctxKey 1 q.dom n)).snd.mr? (ofBe (slice b 20 4)) = some m ∧ m.key = ofBe (slice b 20 4) ∧ m.closing = none ∧ m.fn = q.fn ∧ m.pd = q.attr.pd ∧ (m.rights.testBit (if bthOp b = 12 then 0 else if bthOp b = 19 ∨ bthOp b = 20 then 2 else 1) = true) ∧ m.va ≤ ofBe (slice b 12 8) ∧ ((ofBe (slice b 12 8) + if bthOp b ∈ [19, 20, 29] then 8 else ofBe (slice b 24 4)) ≤ m.va + m.len) ∧ (bthOp b ∈ [19, 20, 29] → ofBe (slice b 12 8) % 8 = 0) ∧ m.space = 1 ∧ (((s.elapse dt).taken fn).ctxNeed (ctxKey 1 q.dom n)).snd.cisternOk q.dom (m.addr + (ofBe (slice b 12 8) - m.va)) (if bthOp b ∈ [19, 20, 29] then 8 else ofBe (slice b 24 4)) = true ∧ s.mem.poison = [] ∧ s.mem.bad = [] ∧ (bthOp b = 19 ∨ bthOp b = 20)) ∧
  (∃ (s : State) (dt : Nat) (fn : Nat) (n : Nat) (f : Frame) (b : Bytes) (q : Qp) (m : Mr),
    Arrives (s.elapse dt) fn 0 n f b q ∧ bthPsn b = q.expPsn ∧ bthPsn b < 2 ^ 24 ∧ q.msg = none ∧ bthOp b ∈ [10, 12, 19, 20, 29] ∧ (((s.elapse dt).taken fn).ctxNeed (ctxKey 1 q.dom n)).snd.mr? (ofBe (slice b 20 4)) = some m ∧ m.key = ofBe (slice b 20 4) ∧ m.closing = none ∧ m.fn = q.fn ∧ m.pd = q.attr.pd ∧ (m.rights.testBit (if bthOp b = 12 then 0 else if bthOp b = 19 ∨ bthOp b = 20 then 2 else 1) = true) ∧ m.va ≤ ofBe (slice b 12 8) ∧ ((ofBe (slice b 12 8) + if bthOp b ∈ [19, 20, 29] then 8 else ofBe (slice b 24 4)) ≤ m.va + m.len) ∧ (bthOp b ∈ [19, 20, 29] → ofBe (slice b 12 8) % 8 = 0) ∧ bthOp b = 12 ∧ m.space = 0 ∧ (0 < if bthOp b ∈ [19, 20, 29] then 8 else ofBe (slice b 24 4))) ∧
  (∃ (s : State) (dt : Nat) (fn : Nat) (n : Nat) (f : Frame) (b : Bytes) (q : Qp),
    Arrives (s.elapse dt) fn 1 n f b q ∧ q.awaits (bthPsn b) = false) ∧
  (∃ (s : State) (dt : Nat) (fn : Nat) (n : Nat) (f : Frame) (b : Bytes) (q : Qp) (r : RReq),
    Arrives (s.elapse dt) fn 1 n f b q ∧ q.reqs = [r] ∧ r.op < 4 ∧ r.first = some q.ackPsn ∧ q.ackPsn < 2 ^ 24 ∧ q.sendPsn = q.nextPsn ∧ bthPsn b = q.ackPsn ∧ r.psns = 2 ∧ q.nextPsn = (q.ackPsn + 2) % 2 ^ 24) ∧
  (∃ (s : State) (dt : Nat) (fn : Nat) (n : Nat) (f : Frame) (b : Bytes) (q : Qp) (r : RReq) (k : Nat) (i : Nat),
    Arrives (s.elapse dt) fn 1 n f b q ∧ q.reqs = [r] ∧ r.op < 4 ∧ r.first = some q.ackPsn ∧ q.ackPsn < 2 ^ 24 ∧ q.sendPsn = q.nextPsn ∧ bthPsn b = q.ackPsn ∧ r.psns = 1 ∧ q.nextPsn = (q.ackPsn + 1) % 2 ^ 24 ∧ r.owner = Owner.ring k i) ∧
  (∃ (s : State) (dt : Nat) (fn : Nat) (n : Nat) (f : Frame) (b : Bytes) (q : Qp),
    Arrives (s.elapse dt) fn 2 n f b q ∧ BitVec.toNat (List.getD b 12 0) % 32 = 0 ∧ psnDiff q.nextPsn q.ackPsn < psnDiff (bthPsn b) q.ackPsn) ∧
  (∃ (s : State) (dt : Nat) (fn : Nat) (n : Nat) (f : Frame) (b : Bytes) (q : Qp) (k : Nat),
    Arrives (s.elapse dt) fn 2 n f b q ∧ BitVec.toNat (List.getD b 12 0) % 32 = 0 ∧ bthPsn b = q.ackPsn ∧ q.ackPsn < 2 ^ 24 ∧ q.backAt ≠ some (s.elapse dt).elapsed ∧ (s.elapse dt).timerFires q.timer = false ∧ q.retries = k + 1) ∧
  (∃ (s : State) (dt : Nat) (fn : Nat) (n : Nat) (f : Frame) (b : Bytes) (q : Qp),
    Arrives (s.elapse dt) fn 2 n f b q ∧ BitVec.toNat (List.getD b 12 0) % 32 = 0 ∧ bthPsn b = q.ackPsn ∧ q.ackPsn < 2 ^ 24 ∧ q.backAt = some (s.elapse dt).elapsed) ∧
  (∃ (s : State) (dt : Nat) (fn : Nat) (n : Nat) (f : Frame) (b : Bytes) (q : Qp),
    Arrives (s.elapse dt) fn 2 n f b q ∧ BitVec.toNat (List.getD b 12 0) % 32 ≠ 0 ∧ q.awaits (bthPsn b) = false) ∧
  (∃ (s : State) (dt : Nat) (fn : Nat) (n : Nat) (f : Frame) (b : Bytes) (q : Qp) (r : RReq) (k : Nat) (i : Nat),
    Arrives (s.elapse dt) fn 2 n f b q ∧ BitVec.toNat (List.getD b 12 0) % 32 ≠ 0 ∧ bthPsn b = q.ackPsn ∧ q.ackPsn < 2 ^ 24 ∧ q.awaits (bthPsn b) = true ∧ q.msg = none ∧ q.reqs = [r] ∧ r.owner = Owner.ring k i) ∧
  (∃ (s : State) (dt : Nat) (fn : Nat) (n : Nat) (f : Frame) (b : Bytes) (q : Qp),
    Arrives (s.elapse dt) fn 3 n f b q ∧ q.awaits (bthPsn b) = false) ∧
  (∃ (s : State) (dt : Nat) (fn : Nat) (n : Nat) (f : Frame) (b : Bytes) (q : Qp),
    Arrives (s.elapse dt) fn 3 n f b q ∧ bthPsn b = q.ackPsn ∧ q.ackPsn < 2 ^ 24 ∧ q.awaits (bthPsn b) = true ∧ (q.attr.rnrRetry = 7 ∨ 0 < q.rnrs)) ∧
  (∃ (s : State) (dt : Nat) (fn : Nat) (n : Nat) (f : Frame) (b : Bytes) (q : Qp) (r : RReq) (k : Nat) (i : Nat),
    Arrives (s.elapse dt) fn 3 n f b q ∧ bthPsn b = q.ackPsn ∧ q.ackPsn < 2 ^ 24 ∧ q.awaits (bthPsn b) = true ∧ q.attr.rnrRetry ≠ 7 ∧ q.rnrs = 0 ∧ q.msg = none ∧ q.reqs = [r] ∧ r.owner = Owner.ring k i) ∧
  (∃ (s : State) (dt : Nat) (fn : Nat) (n : Nat) (f : Frame) (b : Bytes) (q : Qp) (r : RReq) (c : Nat) (i : Nat),
    Arrives (s.elapse dt) fn 4 n f b q ∧ q.reqs = [r] ∧ r.op = 4 ∧ r.answered = false ∧ r.got = 0 ∧ r.first = some q.ackPsn ∧ q.ackPsn < 2 ^ 24 ∧ bthPsn b = q.ackPsn ∧ q.sendPsn = q.nextPsn ∧ 0 < q.attr.mtu ∧ r.owner = Owner.stor c i ∧ r.psns = 2 ∧ q.nextPsn = (q.ackPsn + 2) % 2 ^ 24 ∧ bthOp b = 13 ∧ List.length (bodyAfter b 16) = q.attr.mtu ∧ q.attr.mtu ≤ r.len) ∧
  (∃ (s : State) (dt : Nat) (fn : Nat) (n : Nat) (f : Frame) (b : Bytes) (q : Qp) (r : RReq) (k : Nat) (i : Nat),
    Arrives (s.elapse dt) fn 4 n f b q ∧ q.reqs = [r] ∧ r.op = 4 ∧ r.answered = false ∧ r.got = 0 ∧ r.first = some q.ackPsn ∧ q.ackPsn < 2 ^ 24 ∧ bthPsn b = q.ackPsn ∧ q.sendPsn = q.nextPsn ∧ 0 < q.attr.mtu ∧ r.owner = Owner.ring k i ∧ r.psns = 1 ∧ q.nextPsn = (q.ackPsn + 1) % 2 ^ 24 ∧ bthOp b = 16 ∧ List.length (bodyAfter b 16) = r.len ∧ 0 < r.len ∧ r.len ≤ q.attr.mtu ∧ r.space = 1 ∧ (s.elapse dt).cisternOk q.dom r.addr r.len = true ∧ s.mem.poison = [] ∧ s.mem.bad = []) ∧
  (∃ (s : State) (dt : Nat) (fn : Nat) (n : Nat) (f : Frame) (b : Bytes) (q : Qp) (r : RReq) (k : Nat) (i : Nat),
    Arrives (s.elapse dt) fn 4 n f b q ∧ q.reqs = [r] ∧ r.op = 4 ∧ r.answered = false ∧ r.got = 0 ∧ r.first = some q.ackPsn ∧ q.ackPsn < 2 ^ 24 ∧ bthPsn b = q.ackPsn ∧ q.sendPsn = q.nextPsn ∧ 0 < q.attr.mtu ∧ r.owner = Owner.ring k i ∧ r.psns = 1 ∧ q.msg = none ∧ (bthOp b = 18 ∨ bthOp b = 16 ∧ r.len ≤ q.attr.mtu ∧ List.length (bodyAfter b 16) ≠ r.len)) ∧
  (∃ (s : State) (dt : Nat) (fn : Nat) (n : Nat) (f : Frame) (b : Bytes) (q : Qp),
    Arrives (s.elapse dt) fn 5 n f b q ∧ ((s.elapse dt).ccOf q.dom).en = false) ∧
  (∃ (s : State) (dt : Nat) (fn : Nat) (n : Nat) (f : Frame) (b : Bytes) (q : Qp),
    Arrives (s.elapse dt) fn 5 n f b q ∧ ((s.elapse dt).ccOf q.dom).en = true) :=
  ⟨⟨(rnet [] qp9), 3, 0, (0, .rdmaRequestPacket 3 0),
      by decide +kernel, plain_of (by decide +kernel), by decide +kernel⟩,
    ⟨(rnet [rpkt (rb 0x81 0 [])] qp9), 3, 0, (0, .rdmaRequestPacket 3 0), (rpkt (rb 0x81 0 [])), [],
      by decide +kernel, plain_of (by decide +kernel), by decide +kernel⟩,
    ⟨(rnet [{ data := zeros 60, port := 5 }] qp9), 3, 0, (0, .rdmaRequestPacket 3 0), { data := zeros 60, port := 5 },
      by decide +kernel, plain_of (by decide +kernel), by decide +kernel⟩,
    ⟨(rnet [{ rpkt (rb 0x11 0 (be 0x1F000000 4)) with data := (rpkt (rb 0x11 0 (be 0x1F000000 4))).data.set 50 1 }] qp9), 3, 0, (1, .rdmaAckReceived 3 0), { rpkt (rb 0x11 0 (be 0x1F000000 4)) with data := (rpkt (rb 0x11 0 (be 0x1F000000 4))).data.set 50 1 }, gid0, 0, ((rb 0x11 0 (be 0x1F000000 4)).set 8 1),
      by decide +kernel, plain_of (by decide +kernel), by decide +kernel⟩,
    ⟨{ rnet [rpkt (rb 0x11 0 (be 0x1F000000 4))] qp9 with rdma.qpFree := [{ num := 9, ends := 4, free := false }] }, 3, 0, (1, .rdmaAckReceived 3 0), (rpkt (rb 0x11 0 (be 0x1F000000 4))), gid0, 0, (rb 0x11 0 (be 0x1F000000 4)),
      by decide +kernel, plain_of (by decide +kernel), by decide +kernel⟩,
    ⟨{ rnet [rpkt (rb 0x11 0 (be 0x1F000000 4))] qp9 with rdma.qps := [] }, 3, 0, (1, .rdmaAckReceived 3 0), (rpkt (rb 0x11 0 (be 0x1F000000 4))), gid0, 0, (rb 0x11 0 (be 0x1F000000 4)),
      by decide +kernel, plain_of (by decide +kernel), by decide +kernel⟩,
    ⟨(rnet [rpkt (rb 0x11 0 (be 0x1F000000 4))] { qp9 with fn := 4096 }), 3, 0, (1, .rdmaAckReceived 3 0), (rpkt (rb 0x11 0 (be 0x1F000000 4))), gid0, 0, (rb 0x11 0 (be 0x1F000000 4)), { qp9 with fn := 4096 },
      by decide +kernel, plain_of (by decide +kernel), by decide +kernel⟩,
    ⟨(rnet [rpkt (rb 0x11 0 (be 0x1F000000 4))] { qp9 with state := .init }), 3, 0, (1, .rdmaAckReceived 3 0), (rpkt (rb 0x11 0 (be 0x1F000000 4))), gid0, 0, (rb 0x11 0 (be 0x1F000000 4)), { qp9 with state := .init },
      by decide +kernel, plain_of (by decide +kernel), by decide +kernel⟩,
    ⟨(rnet [rpkt (rb 0 3 [1])] { qp9 with expPsn := 1, nakked := true }), 3, 0, 9, (rpkt (rb 0 3 [1])), (rb 0 3 [1]), { qp9 with expPsn := 1, nakked := true },
      arrives_of (by decide +kernel), by decide +kernel⟩,
    ⟨(rnet [rpkt (rb 0 3 [1])] { qp9 with expPsn := 1 }), 3, 0, 9, (rpkt (rb 0 3 [1])), (rb 0 3 [1]), { qp9 with expPsn := 1 },
      arrives_of (by decide +kernel), by decide +kernel⟩,
    ⟨(rnet [rpkt (rb 4 0 [1])] { qp9 with expPsn := 1 }), 3, 0, 9, (rpkt (rb 4 0 [1])), (rb 4 0 [1]), { qp9 with expPsn := 1 },
      arrives_of (by decide +kernel), by decide +kernel⟩,
    ⟨(rnet [rpkt (rb 0x13 0 (zeros 28))] { qp9 with expPsn := 1, atomics := [(0, 7)] }), 3, 0, 9, (rpkt (rb 0x13 0 (zeros 28))), (rb 0x13 0 (zeros 28)), { qp9 with expPsn := 1, atomics := [(0, 7)] }, (0, 7),
      arrives_of (by decide +kernel), by decide +kernel⟩,
    ⟨(rnet [rpkt (rb 2 1 [1])] { qp9 with expPsn := 1 }), 3, 0, 9, (rpkt (rb 2 1 [1])), (rb 2 1 [1]), { qp9 with expPsn := 1 },
      arrives_of (by decide +kernel), by decide +kernel⟩,
    ⟨(rnet [rpkt (rb 4 1 [1])] { qp9 with expPsn := 1 }), 3, 0, 9, (rpkt (rb 4 1 [1])), (rb 4 1 [1]), { qp9 with expPsn := 1 },
      arrives_of (by decide +kernel), by decide +kernel⟩,
    ⟨(rbuf { idx := 4, len := 2, addr := 65536, type := 0x29 } [rpkt (rb 0 1 [1, 2])] { qp9 with expPsn := 1 }), 3, 0, 9, (rpkt (rb 0 1 [1, 2])), (rb 0 1 [1, 2]), { qp9 with expPsn := 1 }, { idx := 4, len := 2, addr := 65536, type := 0x29 },
      arrives_of (by decide +kernel), by decide +kernel⟩,
    ⟨(rbuf { idx := 4, len := 2, addr := 65536, type := 0x29 } [rpkt (rb 4 1 [1, 2])] { qp9 with expPsn := 1 }), 3, 0, 9, (rpkt (rb 4 1 [1, 2])), (rb 4 1 [1, 2]), { qp9 with expPsn := 1 }, { idx := 4, len := 2, addr := 65536, type := 0x29 },
      arrives_of (by decide +kernel), by decide +kernel⟩,
    ⟨(rbuf { idx := 4, len := 2, addr := 65536, type := 0x29 } [rpkt (rb 4 1 [1, 2, 3])] { qp9 with expPsn := 1 }), 3, 0, 9, (rpkt (rb 4 1 [1, 2, 3])), (rb 4 1 [1, 2, 3]), { qp9 with expPsn := 1 }, { idx := 4, len := 2, addr := 65536, type := 0x29 },
      arrives_of (by decide +kernel), by decide +kernel⟩,
    ⟨(rnet [rpkt (rb 0x0C 0 (reach 256 64 ++ []))] qp9), 3, 0, 9, (rpkt (rb 0x0C 0 (reach 256 64 ++ []))), (rb 0x0C 0 (reach 256 64 ++ [])), qp9,
      arrives_of (by decide +kernel), by decide +kernel⟩,
    ⟨(rreg { mrc with key := 0x904 } [rpkt (rb 0x0C 0 (reach 256 64 ++ []))] qp9), 3, 0, 9, (rpkt (rb 0x0C 0 (reach 256 64 ++ []))), (rb 0x0C 0 (reach 256 64 ++ [])), qp9, { mrc with key := 0x904 },
      arrives_of (by decide +kernel), by decide +kernel⟩,
    ⟨(rreg { mrc with closing := some (.mp 1) } [rpkt (rb 0x0C 0 (reach 256 64 ++ []))] qp9), 3, 0, 9, (rpkt (rb 0x0C 0 (reach 256 64 ++ []))), (rb 0x0C 0 (reach 256 64 ++ [])), qp9, { mrc with closing := some (.mp 1) },
      arrives_of (by decide +kernel), by decide +kernel⟩,
    ⟨(rreg mrc [rpkt (rb 0x0C 0 (reach 257 64 ++ []))] qp9), 3, 0, 9, (rpkt (rb 0x0C 0 (reach 257 64 ++ []))), (rb 0x0C 0 (reach 257 64 ++ [])), qp9, mrc,
      arrives_of (by decide +kernel), by decide +kernel⟩,
    ⟨(rreg { mrc with space := 0 } [rpkt (rb 0x13 0 (reach 256 0 ++ zeros 12))] qp9), 3, 0, 9, (rpkt (rb 0x13 0 (reach 256 0 ++ zeros 12))), (rb 0x13 0 (reach 256 0 ++ zeros 12)), qp9, { mrc with space := 0 },
      arrives_of (by decide +kernel), by decide +kernel⟩,
    ⟨(rreg { mrc with addr := 65536 } [rpkt (rb 0x0C 0 (reach 256 64 ++ []))] qp9), 3, 0, 9, (rpkt (rb 0x0C 0 (reach 256 64 ++ []))), (rb 0x0C 0 (reach 256 64 ++ [])), qp9, { mrc with addr := 65536 },
      arrives_of (by decide +kernel), by decide +kernel⟩,
    ⟨(rreg mrc [rpkt (rb 0x0A 0 (reach 316 4 ++ [1, 2, 3, 4]))] qp9), 3, 0, 9, (rpkt (rb 0x0A 0 (reach 316 4 ++ [1, 2, 3, 4]))), (rb 0x0A 0 (reach 316 4 ++ [1, 2, 3, 4])), qp9, mrc,
      arrives_of (by decide +kernel), by decide +kernel⟩,
    ⟨(rreg mrc [rpkt (rb 0x1D 0 (reach 312 8 ++ [1, 2, 3, 4, 5, 6, 7, 8]))] qp9), 3, 0, 9, (rpkt (rb 0x1D 0 (reach 312 8 ++ [1, 2, 3, 4, 5, 6, 7, 8]))), (rb 0x1D 0 (reach 312 8 ++ [1, 2, 3, 4, 5, 6, 7, 8])), qp9, mrc,
      arrives_of (by decide +kernel), by decide +kernel⟩,
    ⟨(rreg mrc [rpkt (rb 0x0C 0 (reach 256 64 ++ []))] qp9), 3, 0, 9, (rpkt (rb 0x0C 0 (reach 256 64 ++ []))), (rb 0x0C 0 (reach 256 64 ++ [])), qp9, mrc,
      arrives_of (by decide +kernel), by decide +kernel⟩,
    ⟨(rreg mrc [rpkt (rb 0x13 0 (be 256 8 ++ be (9 * 256 + 5) 4 ++ be 77 8 ++ be 0 8))] qp9), 3, 0, 9, (rpkt (rb 0x13 0 (be 256 8 ++ be (9 * 256 + 5) 4 ++ be 77 8 ++ be 0 8))), (rb 0x13 0 (be 256 8 ++ be (9 * 256 + 5) 4 ++ be 77 8 ++ be 0 8)), qp9, mrc,
      arrives_of (by decide +kernel), by decide +kernel⟩,
    ⟨(rreg { mrc with space := 0 } [rpkt (rb 0x0C 0 (reach 256 64 ++ []))] qp9), 3, 0, 9, (rpkt (rb 0x0C 0 (reach 256 64 ++ []))), (rb 0x0C 0 (reach 256 64 ++ [])), qp9, { mrc with space := 0 },
      arrives_of (by decide +kernel), by decide +kernel⟩,
    ⟨(rnet [rpkt (rb 0x11 0 (be 0x1F000000 4))] qp9), 3, 0, 9, (rpkt (rb 0x11 0 (be 0x1F000000 4))), (rb 0x11 0 (be 0x1F000000 4)), qp9,
      arrives_of (by decide +kernel), by decide +kernel⟩,
    ⟨(rnet [rpkt (rb 0x11 0 (be 0x1F000000 4))] { qp9 with reqs := [rreq 0 2], nextPsn := 2, sendPsn := 2 }), 3, 0, 9, (rpkt (rb 0x11 0 (be 0x1F000000 4))), (rb 0x11 0 (be 0x1F000000 4)), { qp9 with reqs := [rreq 0 2], nextPsn := 2, sendPsn := 2 }, (rreq 0 2),
      arrives_of (by decide +kernel), by decide +kernel⟩,
    ⟨(rnet [rpkt (rb 0x11 0 (be 0x1F000000 4))] { qp9 with reqs := [{ rreq 0 1 with owner := .ring (rkey 0 4) 0 }], nextPsn := 1, sendPsn := 1 }), 3, 0, 9, (rpkt (rb 0x11 0 (be 0x1F000000 4))), (rb 0x11 0 (be 0x1F000000 4)), { qp9 with reqs := [{ rreq 0 1 with owner := .ring (rkey 0 4) 0 }], nextPsn := 1, sendPsn := 1 }, { rreq 0 1 with owner := .ring (rkey 0 4) 0 }, (rkey 0 4), 0,
      arrives_of (by decide +kernel), by decide +kernel⟩,
    ⟨(rnet [rpkt (rb 0x11 5 (be 0x60000000 4))] { qp9 with reqs := [rreq 0 2], nextPsn := 2, sendPsn := 2 }), 3, 0, 9, (rpkt (rb 0x11 5 (be 0x60000000 4))), (rb 0x11 5 (be 0x60000000 4)), { qp9 with reqs := [rreq 0 2], nextPsn := 2, sendPsn := 2 },
      arrives_of (by decide +kernel), by decide +kernel⟩,
    ⟨(rnet [rpkt (rb 0x11 0 (be 0x60000000 4))] { qp9 with reqs := [rreq 0 2], nextPsn := 2, sendPsn := 2 }), 3, 0, 9, (rpkt (rb 0x11 0 (be 0x60000000 4))), (rb 0x11 0 (be 0x60000000 4)), { qp9 with reqs := [rreq 0 2], nextPsn := 2, sendPsn := 2 }, 6,
      arrives_of (by decide +kernel), by decide +kernel⟩,
    ⟨(rnet [rpkt (rb 0x11 0 (be 0x60000000 4))] { qp9 with reqs := [rreq 0 2], nextPsn := 2, sendPsn := 2, backAt := some 3 }), 3, 0, 9, (rpkt (rb 0x11 0 (be 0x60000000 4))), (rb 0x11 0 (be 0x60000000 4)), { qp9 with reqs := [rreq 0 2], nextPsn := 2, sendPsn := 2, backAt := some 3 },
      arrives_of (by decide +kernel), by decide +kernel⟩,
    ⟨(rnet [rpkt (rb 0x11 0 (be 0x61000000 4))] qp9), 3, 0, 9, (rpkt (rb 0x11 0 (be 0x61000000 4))), (rb 0x11 0 (be 0x61000000 4)), qp9,
      arrives_of (by decide +kernel), by decide +kernel⟩,
    ⟨(rnet [rpkt (rb 0x11 0 (be 0x61000000 4))] { qp9 with reqs := [{ rreq 0 1 with owner := .ring (rkey 0 4) 0 }], nextPsn := 1, sendPsn := 1 }), 3, 0, 9, (rpkt (rb 0x11 0 (be 0x61000000 4))), (rb 0x11 0 (be 0x61000000 4)), { qp9 with reqs := [{ rreq 0 1 with owner := .ring (rkey 0 4) 0 }], nextPsn := 1, sendPsn := 1 }, { rreq 0 1 with owner := .ring (rkey 0 4) 0 }, (rkey 0 4), 0,
      arrives_of (by decide +kernel), by decide +kernel⟩,
    ⟨(rnet [rpkt (rb 0x11 0 (be 0x21000000 4))] qp9), 3, 0, 9, (rpkt (rb 0x11 0 (be 0x21000000 4))), (rb 0x11 0 (be 0x21000000 4)), qp9,
      arrives_of (by decide +kernel), by decide +kernel⟩,
    ⟨(rnet [rpkt (rb 0x11 0 (be 0x21000000 4))] { qp9 with attr := { qp9.attr with rnrRetry := 3 }, rnrs := 3, reqs := [rreq 0 2], nextPsn := 2, sendPsn := 2 }), 3, 0, 9, (rpkt (rb 0x11 0 (be 0x21000000 4))), (rb 0x11 0 (be 0x21000000 4)), { qp9 with attr := { qp9.attr with rnrRetry := 3 }, rnrs := 3, reqs := [rreq 0 2], nextPsn := 2, sendPsn := 2 },
      arrives_of (by decide +kernel), by decide +kernel⟩,
    ⟨(rnet [rpkt (rb 0x11 0 (be 0x21000000 4))] { qp9 with attr := { qp9.attr with rnrRetry := 3 }, rnrs := 0, reqs := [{ rreq 0 1 with owner := .ring (rkey 0 4) 0 }], nextPsn := 1, sendPsn := 1 }), 3, 0, 9, (rpkt (rb 0x11 0 (be 0x21000000 4))), (rb 0x11 0 (be 0x21000000 4)), { qp9 with attr := { qp9.attr with rnrRetry := 3 }, rnrs := 0, reqs := [{ rreq 0 1 with owner := .ring (rkey 0 4) 0 }], nextPsn := 1, sendPsn := 1 }, { rreq 0 1 with owner := .ring (rkey 0 4) 0 }, (rkey 0 4), 0,
      arrives_of (by decide +kernel), by decide +kernel⟩,
    ⟨(rnet [rpkt (rb 0x0D 0 [0, 0, 0, 1, 7, 8])] { qp9 with attr := { qp9.attr with mtu := 2 }, reqs := [rreq 4 2], nextPsn := 2, sendPsn := 2 }), 3, 0, 9, (rpkt (rb 0x0D 0 [0, 0, 0, 1, 7, 8])), (rb 0x0D 0 [0, 0, 0, 1, 7, 8]), { qp9 with attr := { qp9.attr with mtu := 2 }, reqs := [rreq 4 2], nextPsn := 2, sendPsn := 2 }, (rreq 4 2), 0, 0,
      arrives_of (by decide +kernel), by decide +kernel⟩,
    ⟨(rreg mrc [rpkt (rb 0x10 0 [0, 0, 0, 1, 7, 8])] { qp9 with attr := { qp9.attr with mtu := 2 }, reqs := [{ rreq 4 1 with owner := .ring (rkey 0 4) 0, space := 1, addr := 64, len := 2 }], nextPsn := 1, sendPsn := 1 }), 3, 0, 9, (rpkt (rb 0x10 0 [0, 0, 0, 1, 7, 8])), (rb 0x10 0 [0, 0, 0, 1, 7, 8]), { qp9 with attr := { qp9.attr with mtu := 2 }, reqs := [{ rreq 4 1 with owner := .ring (rkey 0 4) 0, space := 1, addr := 64, len := 2 }], nextPsn := 1, sendPsn := 1 }, { rreq 4 1 with owner := .ring (rkey 0 4) 0, space := 1, addr := 64, len := 2 }, (rkey 0 4), 0,
      arrives_of (by decide +kernel), by decide +kernel⟩,
    ⟨(rnet [rpkt (rb 0x10 0 [0, 0, 0, 1, 7, 8])] { qp9 with attr := { qp9.attr with mtu := 2 }, reqs := [{ rreq 4 1 with owner := .ring (rkey 0 4) 0, space := 1, addr := 64, len := 1 }], nextPsn := 1, sendPsn := 1 }), 3, 0, 9, (rpkt (rb 0x10 0 [0, 0, 0, 1, 7, 8])), (rb 0x10 0 [0, 0, 0, 1, 7, 8]), { qp9 with attr := { qp9.attr with mtu := 2 }, reqs := [{ rreq 4 1 with owner := .ring (rkey 0 4) 0, space := 1, addr := 64, len := 1 }], nextPsn := 1, sendPsn := 1 }, { rreq 4 1 with owner := .ring (rkey 0 4) 0, space := 1, addr := 64, len := 1 }, (rkey 0 4), 0,
      arrives_of (by decide +kernel), by decide +kernel⟩,
    ⟨(rnet [rpkt (rb 0x81 0 (zeros 16))] qp9), 3, 0, 9, (rpkt (rb 0x81 0 (zeros 16))), (rb 0x81 0 (zeros 16)), qp9,
      arrives_of (by decide +kernel), by decide +kernel⟩,
    ⟨{ rnet [rpkt (rb 0x81 0 (zeros 16))] qp9 with rdma.cc := [(0, { en := true })] }, 3, 0, 9, (rpkt (rb 0x81 0 (zeros 16))), (rb 0x81 0 (zeros 16)), qp9,
      arrives_of (by decide +kernel), by decide +kernel⟩⟩

/-- The premises of `Obligations.RdmaTimes`, clause by clause, are met. -/
theorem witness_RdmaTimes :
  (∃ (s : State) (dt : Nat) (n : Nat) (i : Instr),
    (s.elapse dt).Plain ∧ (s.elapse dt).qp? n = none ∧ i ∈ [Instr.ackTimerExpiry dt n, Instr.rnrTimerExpiry dt n, Instr.responderAckTimer dt n, Instr.rdmaPacedEnqueue dt n]) ∧
  (∃ (s : State) (dt : Nat) (n : Nat) (i : Instr),
    (s.elapse dt).Plain ∧ (s.elapse dt).rdmaOn = false ∧ i ∈ [Instr.ackTimerExpiry dt n, Instr.rnrTimerExpiry dt n, Instr.responderAckTimer dt n, Instr.rdmaPacedEnqueue dt n, Instr.ccRateIncrease dt]) ∧
  (∃ (s : State) (dt : Nat) (n : Nat) (q : Qp),
    (s.elapse dt).Plain ∧ (s.elapse dt).qp? n = some q ∧ ((s.elapse dt).timerFires q.timer = false ∨ ¬q.state ∈ [QState.rts, QState.sqd])) ∧
  (∃ (s : State) (dt : Nat) (n : Nat) (q : Qp),
    (s.elapse dt).Plain ∧ (s.elapse dt).qp? n = some q ∧ (s.elapse dt).timerFires q.rnrAt = false) ∧
  (∃ (s : State) (dt : Nat) (n : Nat) (q : Qp),
    (s.elapse dt).Plain ∧ (s.elapse dt).qp? n = some q ∧ (q.unacked = 0 ∨ q.ackAt = none ∨ ∃ a, a ∈ q.ackAt ∧ (s.elapse dt).elapsed < a)) ∧
  (∃ (s : State) (dt : Nat) (n : Nat) (q : Qp),
    (s.elapse dt).Plain ∧ (s.elapse dt).qp? n = some q ∧ (((s.elapse dt).ccOf q.dom).en = false ∨ (s.elapse dt).elapsed < q.nextAt)) ∧
  (∃ (s : State) (dt : Nat) (n : Nat) (q : Qp) (k : Nat),
    (s.elapse dt).Plain ∧ (s.elapse dt).qp? n = some q ∧ (s.elapse dt).rdmaOn = true ∧ q.state ∈ [QState.rts, QState.sqd] ∧ (s.elapse dt).timerFires q.timer = true ∧ q.retries = k + 1) ∧
  (∃ (s : State) (dt : Nat) (n : Nat) (q : Qp) (r : RReq) (k : Nat) (i : Nat),
    (s.elapse dt).Plain ∧ (s.elapse dt).qp? n = some q ∧ (s.elapse dt).rdmaOn = true ∧ q.state ∈ [QState.rts, QState.sqd] ∧ (s.elapse dt).timerFires q.timer = true ∧ q.retries = 0 ∧ q.msg = none ∧ q.reqs = [r] ∧ r.owner = Owner.ring k i) ∧
  (∃ (s : State) (dt : Nat) (n : Nat) (q : Qp),
    (s.elapse dt).Plain ∧ (s.elapse dt).qp? n = some q ∧ (s.elapse dt).rdmaOn = true ∧ (s.elapse dt).timerFires q.rnrAt = true) ∧
  (∃ (s : State) (dt : Nat) (n : Nat) (q : Qp) (at_ : Nat),
    (s.elapse dt).Plain ∧ (s.elapse dt).qp? n = some q ∧ (s.elapse dt).rdmaOn = true ∧ q.ackAt = some at_ ∧ at_ ≤ (s.elapse dt).elapsed ∧ 0 < q.unacked) ∧
  (∃ (s : State) (dt : Nat) (n : Nat) (q : Qp),
    (s.elapse dt).Plain ∧ (s.elapse dt).qp? n = some q ∧ (s.elapse dt).rdmaOn = true ∧ ((s.elapse dt).ccOf q.dom).en = true ∧ q.nextAt ≤ (s.elapse dt).elapsed ∧ (¬q.state ∈ [QState.rts, QState.sqd] ∨ (s.elapse dt).mute q.fn = true)) ∧
  (∃ (s : State) (dt : Nat) (n : Nat) (q : Qp) (at_ : Nat) (r : RReq),
    (s.elapse dt).Plain ∧ (s.elapse dt).qp? n = some q ∧ (s.elapse dt).rdmaOn = true ∧ ((s.elapse dt).ccOf q.dom).en = true ∧ q.nextAt ≤ (s.elapse dt).elapsed ∧ q.rate = some at_ ∧ 0 < at_ ∧ q.state = QState.rts ∧ q.rnrAt = none ∧ q.reqs = [r] ∧ r.op < 4 ∧ r.psns = 1 ∧ r.first = some q.sendPsn ∧ q.ackPsn = q.sendPsn ∧ q.sendPsn < 2 ^ 24 ∧ q.nextPsn = (q.sendPsn + 1) % 2 ^ 24 ∧ (s.elapse dt).mute q.fn = false ∧ ((s.elapse dt).ctxNeed (ctxKey 1 q.dom n)).fst = true) ∧
  (∃ (s : State) (dt : Nat),
    (s.elapse dt).Plain ∧ (s.elapse dt).now / grid 16 ≤ s.rdma.ccGrid) ∧
  (∃ (s : State) (dt : Nat),
    (s.elapse dt).Plain ∧ (s.elapse dt).rdmaOn = true ∧ s.rdma.ccGrid < (s.elapse dt).now / grid 16 ∧ s.rdma.ccPend = []) ∧
  (∃ (s : State) (dt : Nat) (n : Nat),
    (s.elapse dt).Plain ∧ (Option.all (fun m => m.closing.isNone || m.asking) (tget? s.rdma.mrs n) = true ∨ (s.elapse dt).mrBusy n = true)) ∧
  (∃ (s : State) (dt : Nat) (n : Nat) (m : Mr) (a : Nat),
    (s.elapse dt).Plain ∧ tget? s.rdma.mrs n = some m ∧ m.closing.isSome = true ∧ (s.elapse dt).mrBusy n = false ∧ m.asking = false ∧ m.wrote = some a) ∧
  (∃ (s : State) (dt : Nat) (p : Path) (x : Session) (q : TReq) (c : Nat × CcCfg),
    (s.elapse dt).Settled ∧ s.rdma.ccPend = [(p, c)] ∧ (s.elapse dt).rdmaOn = true ∧ s.rdma.ccGrid < (s.elapse dt).now / grid 16 ∧ ((List.all s.rdma.qps fun y => y.snd.rate == none && !y.snd.slowed) = true) ∧ Awaits (s.elapse dt) p x q 2571) ∧
  (∃ (s : State) (dt : Nat) (n : Nat) (p : Path) (x : Session) (q : TReq) (m : Mr),
    (s.elapse dt).Settled ∧ tget? s.rdma.mrs n = some m ∧ m.closing = some p ∧ (s.elapse dt).mrBusy n = false ∧ m.asking = false ∧ m.wrote = none ∧ Awaits (s.elapse dt) p x q 2568) :=
  ⟨⟨(linked .service), 3, 9, (.ackTimerExpiry 3 9),
      plain_of (by decide +kernel), by decide +kernel⟩,
    ⟨{ linked .service with glb.mode := .lockdown }, 3, 9, (.ackTimerExpiry 3 9),
      plain_of (by decide +kernel), by decide +kernel⟩,
    ⟨(rnet [] qp9), 3, 9, qp9,
      plain_of (by decide +kernel), by decide +kernel⟩,
    ⟨(rnet [] qp9), 3, 9, qp9,
      plain_of (by decide +kernel), by decide +kernel⟩,
    ⟨(rnet [] qp9), 3, 9, qp9,
      plain_of (by decide +kernel), by decide +kernel⟩,
    ⟨(rnet [] qp9), 3, 9, qp9,
      plain_of (by decide +kernel), by decide +kernel⟩,
    ⟨(rnet [] { qp9 with reqs := [rreq 0 2], nextPsn := 2, sendPsn := 2, timer := some 0 }), 3, 9, { qp9 with reqs := [rreq 0 2], nextPsn := 2, sendPsn := 2, timer := some 0 }, 6,
      plain_of (by decide +kernel), by decide +kernel⟩,
    ⟨(rnet [] { qp9 with reqs := [{ rreq 0 1 with owner := .ring (rkey 0 4) 0 }], nextPsn := 1, sendPsn := 1, timer := some 0, retries := 0 }), 3, 9, { qp9 with reqs := [{ rreq 0 1 with owner := .ring (rkey 0 4) 0 }], nextPsn := 1, sendPsn := 1, timer := some 0, retries := 0 }, { rreq 0 1 with owner := .ring (rkey 0 4) 0 }, (rkey 0 4), 0,
      plain_of (by decide +kernel), by decide +kernel⟩,
    ⟨(rnet [] { qp9 with reqs := [rreq 0 2], nextPsn := 2, sendPsn := 2, rnrAt := some 0 }), 3, 9, { qp9 with reqs := [rreq 0 2], nextPsn := 2, sendPsn := 2, rnrAt := some 0 },
      plain_of (by decide +kernel), by decide +kernel⟩,
    ⟨(rnet [] { qp9 with ackAt := some 3, unacked := 1, resps := [{ kind := 1, psn := 0, waits := some 4 }] }), 3, 9, { qp9 with ackAt := some 3, unacked := 1, resps := [{ kind := 1, psn := 0, waits := some 4 }] }, 3,
      plain_of (by decide +kernel), by decide +kernel⟩,
    ⟨{ rnet [] { qp9 with state := .init } with rdma.cc := [(0, { en := true })] }, 3, 9, { qp9 with state := .init },
      plain_of (by decide +kernel), by decide +kernel⟩,
    ⟨{ rnet [] { qp9 with reqs := [{ rreq 0 1 with len := 4, data := [1,2,3,4], ready := true }], nextPsn := 1, rate := some 1048576 } with rdma.cc := [(0, { en := true })] }, 3, 9, { qp9 with reqs := [{ rreq 0 1 with len := 4, data := [1,2,3,4], ready := true }], nextPsn := 1, rate := some 1048576 }, 1048576, { rreq 0 1 with len := 4, data := [1,2,3,4], ready := true },
      plain_of (by decide +kernel), by decide +kernel⟩,
    ⟨(rnet [] qp9), 3,
      plain_of (by decide +kernel), by decide +kernel⟩,
    ⟨{ rnet [] { qp9 with rate := some 1000 } with now := grid 16 }, 3,
      plain_of (by decide +kernel), by decide +kernel⟩,
    ⟨(rnet [] qp9), 3, 9,
      plain_of (by decide +kernel), by decide +kernel⟩,
    ⟨{ linked .service with rdma.mrs := [(9, { mr0 with closing := some (.mp 1), wrote := some 63 })] }, 3, 9, { mr0 with closing := some (.mp 1), wrote := some 63 }, 63,
      plain_of (by decide +kernel), by decide +kernel⟩,
    ⟨{ wait (rnet [] qp9) 0x0A0B 5 with now := grid 16, rdma.ccPend := [(.mp 1, 0, { en := true })] }, 3, (.mp 1), (busy 0x0A0B 5), (req 0x0A0B 5), (0, { en := true }),
      settled_of (by decide +kernel), by decide +kernel, by decide +kernel, by decide +kernel, by decide +kernel, awaits_of (by decide +kernel)⟩,
    ⟨{ wait (linked .service) 0x0A08 1 with rdma.mrs := [(9, { mr0 with closing := some (.mp 1), refused := 3 })] }, 3, 9, (.mp 1), (busy 0x0A08 1), (req 0x0A08 1), { mr0 with closing := some (.mp 1), refused := 3 },
      settled_of (by decide +kernel), by decide +kernel, by decide +kernel, by decide +kernel, by decide +kernel, by decide +kernel, awaits_of (by decide +kernel)⟩⟩

/-- The premises of `Obligations.RdmaCommands`, clause by clause, are met. -/
theorem witness_RdmaCommands :
  (∃ (s : State) (dt : Nat) (p : Path) (x : Session) (q : TReq) (f : Nat) (n : Nat),
    (Issued (s.elapse dt) p x q 2561 2 ((s.elapse dt).funcPerm f)) ∧ f < 2 ^ 25 ∧ n < 1024 ∧ (((s.elapse dt).ring (rkey (fnOf f) n)).enable = false ∨ ((s.elapse dt).ring (rkey (fnOf f) n)).kind ≠ 3)) ∧
  (∃ (s : State) (dt : Nat) (p : Path) (x : Session) (q : TReq) (f : Nat) (n : Nat),
    (Issued (s.elapse dt) p x q 2561 2 ((s.elapse dt).funcPerm f)) ∧ f < 2 ^ 25 ∧ n < 1024 ∧ ((s.elapse dt).ring (rkey (fnOf f) n)).enable = true ∧ ((s.elapse dt).ring (rkey (fnOf f) n)).kind = 3) ∧
  (∃ (s : State) (dt : Nat) (p : Path) (x : Session) (q : TReq) (port : Nat) (i : Nat) (d : Nat),
    Issued (s.elapse dt) p x q 2562 5 (Perm.port port) ∧ port < 24 ∧ d < 16 ∧ 15 < i) ∧
  (∃ (s : State) (dt : Nat) (p : Path) (x : Session) (q : TReq) (port : Nat) (i : Nat) (d : Nat),
    Issued (s.elapse dt) p x q 2562 5 (Perm.port port) ∧ port < 24 ∧ d < 16 ∧ i ≤ 15 ∧ (s.elapse dt).portCount ≤ port) ∧
  (∃ (s : State) (dt : Nat) (p : Path) (x : Session) (q : TReq) (port : Nat) (i : Nat) (d : Nat),
    Issued (s.elapse dt) p x q 2562 5 (Perm.port port) ∧ port < 24 ∧ d < 16 ∧ i ≤ 15 ∧ port < (s.elapse dt).portCount) ∧
  (∃ (s : State) (dt : Nat) (p : Path) (x : Session) (q : TReq) (fc : Nat) (a : Nat) (b : Nat) (n : Nat),
    (Issued (s.elapse dt) p x q 2563 4 ((s.elapse dt).funcPerm fc)) ∧ fc < 2 ^ 25 ∧ a < 1024 ∧ b < 1024 ∧ n < 32768 ∧ (¬(a ≠ b ∧ (((s.elapse dt).ring (rkey (fnOf fc) a)).enable = true ∧ ((s.elapse dt).ring (rkey (fnOf fc) a)).engine = 3 ∧ ((s.elapse dt).ring (rkey (fnOf fc) a)).kind < 2 ∧ (List.all s.rdma.qps fun y => y.snd.storage.isSome || (if true = true then y.snd.recvRing else y.snd.sendRing) != rkey (fnOf fc) a) = true) ∧ ((s.elapse dt).ring (rkey (fnOf fc) b)).enable = true ∧ ((s.elapse dt).ring (rkey (fnOf fc) b)).engine = 3 ∧ ((s.elapse dt).ring (rkey (fnOf fc) b)).kind < 2 ∧ (List.all s.rdma.qps fun y => y.snd.storage.isSome || (if false = true then y.snd.recvRing else y.snd.sendRing) != rkey (fnOf fc) b) = true))) ∧
  (∃ (s : State) (dt : Nat) (p : Path) (x : Session) (q : TReq) (fc : Nat) (a : Nat) (b : Nat) (n : Nat),
    (Issued (s.elapse dt) p x q 2563 4 ((s.elapse dt).funcPerm fc)) ∧ fc < 2 ^ 25 ∧ a < 1024 ∧ b < 1024 ∧ n < 32768 ∧ (a ≠ b ∧ (((s.elapse dt).ring (rkey (fnOf fc) a)).enable = true ∧ ((s.elapse dt).ring (rkey (fnOf fc) a)).engine = 3 ∧ ((s.elapse dt).ring (rkey (fnOf fc) a)).kind < 2 ∧ (List.all s.rdma.qps fun y => y.snd.storage.isSome || (if true = true then y.snd.recvRing else y.snd.sendRing) != rkey (fnOf fc) a) = true) ∧ ((s.elapse dt).ring (rkey (fnOf fc) b)).enable = true ∧ ((s.elapse dt).ring (rkey (fnOf fc) b)).engine = 3 ∧ ((s.elapse dt).ring (rkey (fnOf fc) b)).kind < 2 ∧ (List.all s.rdma.qps fun y => y.snd.storage.isSome || (if false = true then y.snd.recvRing else y.snd.sendRing) != rkey (fnOf fc) b) = true) ∧ (¬((s.elapse dt).queueDom n = some ((s.elapse dt).fnDom (fnOf fc)) ∧ ((s.elapse dt).queue n).cfg.kind = 1))) ∧
  (∃ (s : State) (dt : Nat) (p : Path) (x : Session) (q : TReq) (fc : Nat) (a : Nat) (b : Nat) (n : Nat),
    (Issued (s.elapse dt) p x q 2563 4 ((s.elapse dt).funcPerm fc)) ∧ fc < 2 ^ 25 ∧ a < 1024 ∧ b < 1024 ∧ n < 32768 ∧ (a ≠ b ∧ (((s.elapse dt).ring (rkey (fnOf fc) a)).enable = true ∧ ((s.elapse dt).ring (rkey (fnOf fc) a)).engine = 3 ∧ ((s.elapse dt).ring (rkey (fnOf fc) a)).kind < 2 ∧ (List.all s.rdma.qps fun y => y.snd.storage.isSome || (if true = true then y.snd.recvRing else y.snd.sendRing) != rkey (fnOf fc) a) = true) ∧ ((s.elapse dt).ring (rkey (fnOf fc) b)).enable = true ∧ ((s.elapse dt).ring (rkey (fnOf fc) b)).engine = 3 ∧ ((s.elapse dt).ring (rkey (fnOf fc) b)).kind < 2 ∧ (List.all s.rdma.qps fun y => y.snd.storage.isSome || (if false = true then y.snd.recvRing else y.snd.sendRing) != rkey (fnOf fc) b) = true) ∧ ((s.elapse dt).queueDom n = some ((s.elapse dt).fnDom (fnOf fc)) ∧ ((s.elapse dt).queue n).cfg.kind = 1) ∧ (((s.elapse dt).qpRangeOf ((s.elapse dt).fnDom (fnOf fc))).snd ≤ (List.filter (fun y => inRange ((s.elapse dt).qpRangeOf ((s.elapse dt).fnDom (fnOf fc))) y.fst) s.rdma.qps).length ∨ (s.elapse dt).ctxRoom 1 ((s.elapse dt).fnDom (fnOf fc)) = false)) ∧
  (∃ (s : State) (dt : Nat) (p : Path) (x : Session) (q : TReq) (fc : Nat) (a : Nat) (b : Nat) (n : Nat),
    (Issued (s.elapse dt) p x q 2563 4 ((s.elapse dt).funcPerm fc)) ∧ fc < 2 ^ 25 ∧ a < 1024 ∧ b < 1024 ∧ n < 32768 ∧ (a ≠ b ∧ (((s.elapse dt).ring (rkey (fnOf fc) a)).enable = true ∧ ((s.elapse dt).ring (rkey (fnOf fc) a)).engine = 3 ∧ ((s.elapse dt).ring (rkey (fnOf fc) a)).kind < 2 ∧ (List.all s.rdma.qps fun y => y.snd.storage.isSome || (if true = true then y.snd.recvRing else y.snd.sendRing) != rkey (fnOf fc) a) = true) ∧ ((s.elapse dt).ring (rkey (fnOf fc) b)).enable = true ∧ ((s.elapse dt).ring (rkey (fnOf fc) b)).engine = 3 ∧ ((s.elapse dt).ring (rkey (fnOf fc) b)).kind < 2 ∧ (List.all s.rdma.qps fun y => y.snd.storage.isSome || (if false = true then y.snd.recvRing else y.snd.sendRing) != rkey (fnOf fc) b) = true) ∧ ((s.elapse dt).queueDom n = some ((s.elapse dt).fnDom (fnOf fc)) ∧ ((s.elapse dt).queue n).cfg.kind = 1) ∧ (s.elapse dt).newQpn ((s.elapse dt).fnDom (fnOf fc)) = Except.error 16777472) ∧
  (∃ (s : State) (dt : Nat) (p : Path) (x : Session) (q : TReq) (fc : Nat) (a : Nat) (b : Nat) (n : Nat) (r : Nat),
    (Issued (s.elapse dt) p x q 2563 4 ((s.elapse dt).funcPerm fc)) ∧ fc < 2 ^ 25 ∧ a < 1024 ∧ b < 1024 ∧ n < 32768 ∧ (a ≠ b ∧ (((s.elapse dt).ring (rkey (fnOf fc) a)).enable = true ∧ ((s.elapse dt).ring (rkey (fnOf fc) a)).engine = 3 ∧ ((s.elapse dt).ring (rkey (fnOf fc) a)).kind < 2 ∧ (List.all s.rdma.qps fun y => y.snd.storage.isSome || (if true = true then y.snd.recvRing else y.snd.sendRing) != rkey (fnOf fc) a) = true) ∧ ((s.elapse dt).ring (rkey (fnOf fc) b)).enable = true ∧ ((s.elapse dt).ring (rkey (fnOf fc) b)).engine = 3 ∧ ((s.elapse dt).ring (rkey (fnOf fc) b)).kind < 2 ∧ (List.all s.rdma.qps fun y => y.snd.storage.isSome || (if false = true then y.snd.recvRing else y.snd.sendRing) != rkey (fnOf fc) b) = true) ∧ ((s.elapse dt).queueDom n = some ((s.elapse dt).fnDom (fnOf fc)) ∧ ((s.elapse dt).queue n).cfg.kind = 1) ∧ (s.elapse dt).newQpn ((s.elapse dt).fnDom (fnOf fc)) = Except.ok r) ∧
  (∃ (s : State) (dt : Nat) (p : Path) (x : Session) (q : TReq) (fc : Nat) (a : Nat) (b : Nat) (n : Nat) (r : Nat) (m : Nat),
    (Issued (s.elapse dt) p x q 2563 4 ((s.elapse dt).funcPerm fc)) ∧ fc < 2 ^ 25 ∧ a < 1024 ∧ b < 1024 ∧ n < 32768 ∧ (a ≠ b ∧ (((s.elapse dt).ring (rkey (fnOf fc) a)).enable = true ∧ ((s.elapse dt).ring (rkey (fnOf fc) a)).engine = 3 ∧ ((s.elapse dt).ring (rkey (fnOf fc) a)).kind < 2 ∧ (List.all s.rdma.qps fun y => y.snd.storage.isSome || (if true = true then y.snd.recvRing else y.snd.sendRing) != rkey (fnOf fc) a) = true) ∧ ((s.elapse dt).ring (rkey (fnOf fc) b)).enable = true ∧ ((s.elapse dt).ring (rkey (fnOf fc) b)).engine = 3 ∧ ((s.elapse dt).ring (rkey (fnOf fc) b)).kind < 2 ∧ (List.all s.rdma.qps fun y => y.snd.storage.isSome || (if false = true then y.snd.recvRing else y.snd.sendRing) != rkey (fnOf fc) b) = true) ∧ ((s.elapse dt).queueDom n = some ((s.elapse dt).fnDom (fnOf fc)) ∧ ((s.elapse dt).queue n).cfg.kind = 1) ∧ (s.elapse dt).qpRangeOf ((s.elapse dt).fnDom (fnOf fc)) = (r, m + 1) ∧ s.rdma.qps = [] ∧ s.rdma.qpFree = [] ∧ s.rm.ctxs = [] ∧ (s.elapse dt).ctxRoom 1 ((s.elapse dt).fnDom (fnOf fc)) = true ∧ 0 < (s.elapse dt).lines ((s.elapse dt).fnDom (fnOf fc)) 1 ∧ (s.elapse dt).fnDom (fnOf fc) < 16 ∧ r < 2 ^ 20) ∧
  (∃ (s : State) (dt : Nat) (p : Path) (x : Session) (q : TReq) (n : Nat) (to_ : Nat) (attrs : List (Nat × Nat)),
    (Issued (s.elapse dt) p x q 2564 (3 + 2 * attrs.length + (List.filter (fun a => a.fst == 4) attrs).length) ((s.elapse dt).qpPerm n)) ∧ n < 2 ^ 20 ∧ to_ ≤ 5 ∧ (s.elapse dt).qp? n = none) ∧
  (∃ (s : State) (dt : Nat) (p : Path) (x : Session) (q : TReq) (n : Nat) (to_ : Nat) (attrs : List (Nat × Nat)) (y : Qp),
    (Issued (s.elapse dt) p x q 2564 (3 + 2 * attrs.length + (List.filter (fun a => a.fst == 4) attrs).length) ((s.elapse dt).qpPerm n)) ∧ n < 2 ^ 20 ∧ to_ ≤ 5 ∧ (s.elapse dt).qp? n = some y ∧ ((attrs.any fun a => !(attrsFor y.state to_).contains a.fst || attrBad a.fst a.snd) = true ∨ ((attrsNeeded y.state to_).any fun a => !attrs.any fun b => b.fst == a) = true ∨ to_ = 1 ∧ (attrs.any fun a => a.fst == 0 && decide (a.snd < 24) && (decide ((s.elapse dt).portCount ≤ a.snd) || (s.elapse dt).portIn a.snd y.dom)) = false)) ∧
  (∃ (s : State) (dt : Nat) (p : Path) (x : Session) (q : TReq) (n : Nat) (to_ : Nat) (attrs : List (Nat × Nat)) (y : Qp),
    (Issued (s.elapse dt) p x q 2564 (3 + 2 * attrs.length + (List.filter (fun a => a.fst == 4) attrs).length) ((s.elapse dt).qpPerm n)) ∧ n < 2 ^ 20 ∧ to_ ≤ 5 ∧ (s.elapse dt).qp? n = some y ∧ (¬((attrs.any fun a => !(attrsFor y.state to_).contains a.fst || attrBad a.fst a.snd) = true ∨ ((attrsNeeded y.state to_).any fun a => !attrs.any fun b => b.fst == a) = true ∨ to_ = 1 ∧ (attrs.any fun a => a.fst == 0 && decide (a.snd < 24) && (decide ((s.elapse dt).portCount ≤ a.snd) || (s.elapse dt).portIn a.snd y.dom)) = false)) ∧ y.storage.isSome = true) ∧
  (∃ (s : State) (dt : Nat) (p : Path) (x : Session) (q : TReq) (n : Nat) (to_ : Nat) (attrs : List (Nat × Nat)) (y : Qp),
    (Issued (s.elapse dt) p x q 2564 (3 + 2 * attrs.length + (List.filter (fun a => a.fst == 4) attrs).length) ((s.elapse dt).qpPerm n)) ∧ n < 2 ^ 20 ∧ to_ ≤ 5 ∧ (s.elapse dt).qp? n = some y ∧ (¬((attrs.any fun a => !(attrsFor y.state to_).contains a.fst || attrBad a.fst a.snd) = true ∨ ((attrsNeeded y.state to_).any fun a => !attrs.any fun b => b.fst == a) = true ∨ to_ = 1 ∧ (attrs.any fun a => a.fst == 0 && decide (a.snd < 24) && (decide ((s.elapse dt).portCount ≤ a.snd) || (s.elapse dt).portIn a.snd y.dom)) = false)) ∧ y.storage = none ∧ (¬(to_ = 0 ∨ to_ = 5 ∨ to_ = 1 ∧ y.state = QState.reset ∨ to_ = 2 ∧ y.state = QState.init ∨ to_ = 3 ∧ y.state ∈ [QState.rtr, QState.sqd] ∨ to_ = 4 ∧ y.state = QState.rts) ∨ to_ = 1 ∧ (attrs.any fun a => a.fst == 0 && decide ((s.elapse dt).portCount ≤ a.snd)) = true)) ∧
  (∃ (s : State) (dt : Nat) (p : Path) (x : Session) (q : TReq) (n : Nat) (to_ : Nat) (attrs : List (Nat × Nat)) (y : Qp) (port : Nat) (pd : Nat),
    (Issued (s.elapse dt) p x q 2564 (3 + 2 * attrs.length + (List.filter (fun a => a.fst == 4) attrs).length) ((s.elapse dt).qpPerm n)) ∧ n < 2 ^ 20 ∧ to_ ≤ 5 ∧ (s.elapse dt).qp? n = some y ∧ (¬((attrs.any fun a => !(attrsFor y.state to_).contains a.fst || attrBad a.fst a.snd) = true ∨ ((attrsNeeded y.state to_).any fun a => !attrs.any fun b => b.fst == a) = true ∨ to_ = 1 ∧ (attrs.any fun a => a.fst == 0 && decide (a.snd < 24) && (decide ((s.elapse dt).portCount ≤ a.snd) || (s.elapse dt).portIn a.snd y.dom)) = false)) ∧ y.storage = none ∧ (¬(to_ = 1 ∧ (attrs.any fun a => a.fst == 0 && decide ((s.elapse dt).portCount ≤ a.snd)) = true)) ∧ (s.elapse dt).stor.ended = [] ∧ to_ = 1 ∧ y.state = QState.reset ∧ attrs = [(0, port), (1, pd)]) ∧
  (∃ (s : State) (dt : Nat) (p : Path) (x : Session) (q : TReq) (n : Nat) (to_ : Nat) (attrs : List (Nat × Nat)) (y : Qp),
    (Issued (s.elapse dt) p x q 2564 (3 + 2 * attrs.length + (List.filter (fun a => a.fst == 4) attrs).length) ((s.elapse dt).qpPerm n)) ∧ n < 2 ^ 20 ∧ to_ ≤ 5 ∧ (s.elapse dt).qp? n = some y ∧ (¬((attrs.any fun a => !(attrsFor y.state to_).contains a.fst || attrBad a.fst a.snd) = true ∨ ((attrsNeeded y.state to_).any fun a => !attrs.any fun b => b.fst == a) = true ∨ to_ = 1 ∧ (attrs.any fun a => a.fst == 0 && decide (a.snd < 24) && (decide ((s.elapse dt).portCount ≤ a.snd) || (s.elapse dt).portIn a.snd y.dom)) = false)) ∧ y.storage = none ∧ (¬(to_ = 1 ∧ (attrs.any fun a => a.fst == 0 && decide ((s.elapse dt).portCount ≤ a.snd)) = true)) ∧ (s.elapse dt).stor.ended = [] ∧ to_ = 2 ∧ y.state = QState.init) ∧
  (∃ (s : State) (dt : Nat) (p : Path) (x : Session) (q : TReq) (n : Nat) (to_ : Nat) (attrs : List (Nat × Nat)) (y : Qp) (psn : Nat),
    (Issued (s.elapse dt) p x q 2564 (3 + 2 * attrs.length + (List.filter (fun a => a.fst == 4) attrs).length) ((s.elapse dt).qpPerm n)) ∧ n < 2 ^ 20 ∧ to_ ≤ 5 ∧ (s.elapse dt).qp? n = some y ∧ (¬((attrs.any fun a => !(attrsFor y.state to_).contains a.fst || attrBad a.fst a.snd) = true ∨ ((attrsNeeded y.state to_).any fun a => !attrs.any fun b => b.fst == a) = true ∨ to_ = 1 ∧ (attrs.any fun a => a.fst == 0 && decide (a.snd < 24) && (decide ((s.elapse dt).portCount ≤ a.snd) || (s.elapse dt).portIn a.snd y.dom)) = false)) ∧ y.storage = none ∧ (¬(to_ = 1 ∧ (attrs.any fun a => a.fst == 0 && decide ((s.elapse dt).portCount ≤ a.snd)) = true)) ∧ (s.elapse dt).stor.ended = [] ∧ to_ = 3 ∧ y.state = QState.rtr ∧ attrs = [(17, psn)] ∧ y.reqs = []) ∧
  (∃ (s : State) (dt : Nat) (p : Path) (x : Session) (q : TReq) (n : Nat) (to_ : Nat) (attrs : List (Nat × Nat)) (y : Qp),
    (Issued (s.elapse dt) p x q 2564 (3 + 2 * attrs.length + (List.filter (fun a => a.fst == 4) attrs).length) ((s.elapse dt).qpPerm n)) ∧ n < 2 ^ 20 ∧ to_ ≤ 5 ∧ (s.elapse dt).qp? n = some y ∧ (¬((attrs.any fun a => !(attrsFor y.state to_).contains a.fst || attrBad a.fst a.snd) = true ∨ ((attrsNeeded y.state to_).any fun a => !attrs.any fun b => b.fst == a) = true ∨ to_ = 1 ∧ (attrs.any fun a => a.fst == 0 && decide (a.snd < 24) && (decide ((s.elapse dt).portCount ≤ a.snd) || (s.elapse dt).portIn a.snd y.dom)) = false)) ∧ y.storage = none ∧ (¬(to_ = 1 ∧ (attrs.any fun a => a.fst == 0 && decide ((s.elapse dt).portCount ≤ a.snd)) = true)) ∧ (s.elapse dt).stor.ended = [] ∧ to_ = 3 ∧ y.state = QState.sqd ∧ y.reqs = [] ∧ y.sendPsn = y.nextPsn) ∧
  (∃ (s : State) (dt : Nat) (p : Path) (x : Session) (q : TReq) (n : Nat) (to_ : Nat) (attrs : List (Nat × Nat)) (y : Qp),
    (Issued (s.elapse dt) p x q 2564 (3 + 2 * attrs.length + (List.filter (fun a => a.fst == 4) attrs).length) ((s.elapse dt).qpPerm n)) ∧ n < 2 ^ 20 ∧ to_ ≤ 5 ∧ (s.elapse dt).qp? n = some y ∧ (¬((attrs.any fun a => !(attrsFor y.state to_).contains a.fst || attrBad a.fst a.snd) = true ∨ ((attrsNeeded y.state to_).any fun a => !attrs.any fun b => b.fst == a) = true ∨ to_ = 1 ∧ (attrs.any fun a => a.fst == 0 && decide (a.snd < 24) && (decide ((s.elapse dt).portCount ≤ a.snd) || (s.elapse dt).portIn a.snd y.dom)) = false)) ∧ y.storage = none ∧ (¬(to_ = 1 ∧ (attrs.any fun a => a.fst == 0 && decide ((s.elapse dt).portCount ≤ a.snd)) = true)) ∧ (s.elapse dt).stor.ended = [] ∧ to_ = 4 ∧ y.state = QState.rts ∧ ((y.reqs.any fun r => r.first.isSome) = true)) ∧
  (∃ (s : State) (dt : Nat) (p : Path) (x : Session) (q : TReq) (n : Nat) (to_ : Nat) (attrs : List (Nat × Nat)) (y : Qp),
    (Issued (s.elapse dt) p x q 2564 (3 + 2 * attrs.length + (List.filter (fun a => a.fst == 4) attrs).length) ((s.elapse dt).qpPerm n)) ∧ n < 2 ^ 20 ∧ to_ ≤ 5 ∧ (s.elapse dt).qp? n = some y ∧ (¬((attrs.any fun a => !(attrsFor y.state to_).contains a.fst || attrBad a.fst a.snd) = true ∨ ((attrsNeeded y.state to_).any fun a => !attrs.any fun b => b.fst == a) = true ∨ to_ = 1 ∧ (attrs.any fun a => a.fst == 0 && decide (a.snd < 24) && (decide ((s.elapse dt).portCount ≤ a.snd) || (s.elapse dt).portIn a.snd y.dom)) = false)) ∧ y.storage = none ∧ (¬(to_ = 1 ∧ (attrs.any fun a => a.fst == 0 && decide ((s.elapse dt).portCount ≤ a.snd)) = true)) ∧ (s.elapse dt).stor.ended = [] ∧ to_ = 4 ∧ y.state = QState.rts ∧ ((y.reqs.any fun r => r.first.isSome) = false)) ∧
  (∃ (s : State) (dt : Nat) (p : Path) (x : Session) (q : TReq) (n : Nat) (to_ : Nat) (attrs : List (Nat × Nat)) (y : Qp),
    (Issued (s.elapse dt) p x q 2564 (3 + 2 * attrs.length + (List.filter (fun a => a.fst == 4) attrs).length) ((s.elapse dt).qpPerm n)) ∧ n < 2 ^ 20 ∧ to_ ≤ 5 ∧ (s.elapse dt).qp? n = some y ∧ (¬((attrs.any fun a => !(attrsFor y.state to_).contains a.fst || attrBad a.fst a.snd) = true ∨ ((attrsNeeded y.state to_).any fun a => !attrs.any fun b => b.fst == a) = true ∨ to_ = 1 ∧ (attrs.any fun a => a.fst == 0 && decide (a.snd < 24) && (decide ((s.elapse dt).portCount ≤ a.snd) || (s.elapse dt).portIn a.snd y.dom)) = false)) ∧ y.storage = none ∧ (¬(to_ = 1 ∧ (attrs.any fun a => a.fst == 0 && decide ((s.elapse dt).portCount ≤ a.snd)) = true)) ∧ (s.elapse dt).stor.ended = [] ∧ to_ = 0 ∧ y.reqs = [] ∧ y.msg = none) ∧
  (∃ (s : State) (dt : Nat) (p : Path) (x : Session) (q : TReq) (n : Nat) (to_ : Nat) (attrs : List (Nat × Nat)) (y : Qp) (rs : List RReq),
    (Issued (s.elapse dt) p x q 2564 (3 + 2 * attrs.length + (List.filter (fun a => a.fst == 4) attrs).length) ((s.elapse dt).qpPerm n)) ∧ n < 2 ^ 20 ∧ to_ ≤ 5 ∧ (s.elapse dt).qp? n = some y ∧ (¬((attrs.any fun a => !(attrsFor y.state to_).contains a.fst || attrBad a.fst a.snd) = true ∨ ((attrsNeeded y.state to_).any fun a => !attrs.any fun b => b.fst == a) = true ∨ to_ = 1 ∧ (attrs.any fun a => a.fst == 0 && decide (a.snd < 24) && (decide ((s.elapse dt).portCount ≤ a.snd) || (s.elapse dt).portIn a.snd y.dom)) = false)) ∧ y.storage = none ∧ (¬(to_ = 1 ∧ (attrs.any fun a => a.fst == 0 && decide ((s.elapse dt).portCount ≤ a.snd)) = true)) ∧ (s.elapse dt).stor.ended = [] ∧ (to_ = 0 ∨ to_ = 5) ∧ y.reqs = rs ∧ y.msg = none ∧ ((rs.all fun r => match r.owner with | Owner.ring k idx => true | x => false) = true)) ∧
  (∃ (s : State) (dt : Nat) (p : Path) (x : Session) (q : TReq) (n : Nat) (to_ : Nat) (attrs : List (Nat × Nat)) (y : Qp),
    (Issued (s.elapse dt) p x q 2564 (3 + 2 * attrs.length + (List.filter (fun a => a.fst == 4) attrs).length) ((s.elapse dt).qpPerm n)) ∧ n < 2 ^ 20 ∧ to_ ≤ 5 ∧ (s.elapse dt).qp? n = some y ∧ (¬((attrs.any fun a => !(attrsFor y.state to_).contains a.fst || attrBad a.fst a.snd) = true ∨ ((attrsNeeded y.state to_).any fun a => !attrs.any fun b => b.fst == a) = true ∨ to_ = 1 ∧ (attrs.any fun a => a.fst == 0 && decide (a.snd < 24) && (decide ((s.elapse dt).portCount ≤ a.snd) || (s.elapse dt).portIn a.snd y.dom)) = false)) ∧ y.storage = none ∧ (¬(to_ = 1 ∧ (attrs.any fun a => a.fst == 0 && decide ((s.elapse dt).portCount ≤ a.snd)) = true)) ∧ (s.elapse dt).stor.ended = [] ∧ to_ = 5 ∧ y.reqs = [] ∧ y.msg = none) ∧
  (∃ (s : State) (dt : Nat) (p : Path) (x : Session) (q : TReq) (n : Nat),
    Issued (s.elapse dt) p x q 2565 1 ((s.elapse dt).qpPerm n) ∧ n < 2 ^ 20 ∧ (s.elapse dt).qp? n = none) ∧
  (∃ (s : State) (dt : Nat) (p : Path) (x : Session) (q : TReq) (n : Nat) (y : Qp),
    Issued (s.elapse dt) p x q 2565 1 ((s.elapse dt).qpPerm n) ∧ n < 2 ^ 20 ∧ (s.elapse dt).qp? n = some y) ∧
  (∃ (s : State) (dt : Nat) (p : Path) (x : Session) (q : TReq) (n : Nat),
    Issued (s.elapse dt) p x q 2566 1 ((s.elapse dt).qpPerm n) ∧ n < 2 ^ 20 ∧ (s.elapse dt).qp? n = none ∧ (s.elapse dt).stor.ended = []) ∧
  (∃ (s : State) (dt : Nat) (p : Path) (x : Session) (q : TReq) (n : Nat) (y : Qp),
    Issued (s.elapse dt) p x q 2566 1 ((s.elapse dt).qpPerm n) ∧ n < 2 ^ 20 ∧ (s.elapse dt).qp? n = some y ∧ y.storage.isSome = true) ∧
  (∃ (s : State) (dt : Nat) (p : Path) (x : Session) (q : TReq) (n : Nat) (y : Qp),
    Issued (s.elapse dt) p x q 2566 1 ((s.elapse dt).qpPerm n) ∧ n < 2 ^ 20 ∧ (s.elapse dt).qp? n = some y ∧ y.storage = none ∧ y.reqs = [] ∧ y.msg = none ∧ (s.elapse dt).stor.ended = []) ∧
  (∃ (s : State) (dt : Nat) (p : Path) (x : Session) (q : TReq) (n : Nat) (y : Qp) (r : RReq) (k : Nat) (i : Nat),
    Issued (s.elapse dt) p x q 2566 1 ((s.elapse dt).qpPerm n) ∧ n < 2 ^ 20 ∧ (s.elapse dt).qp? n = some y ∧ y.storage = none ∧ y.reqs = [r] ∧ r.owner = Owner.ring k i ∧ y.msg = none ∧ (s.elapse dt).stor.ended = []) ∧
  (∃ (s : State) (dt : Nat) (p : Path) (x : Session) (q : TReq) (fc : Nat) (pd : Nat) (sp : Nat) (a : Nat) (l : Nat) (rt : Nat),
    (Issued (s.elapse dt) p x q 2567 7 ((s.elapse dt).funcPerm fc)) ∧ fc < 2 ^ 25 ∧ pd < 65536 ∧ rt < 32 ∧ (¬(0 < l ∧ l ≤ 2 ^ 40 ∧ (sp = 0 ∨ sp = 1 ∧ rt.testBit 4 = false ∧ a + l ≤ 2 ^ 36)))) ∧
  (∃ (s : State) (dt : Nat) (p : Path) (x : Session) (q : TReq) (fc : Nat) (pd : Nat) (sp : Nat) (a : Nat) (l : Nat) (rt : Nat),
    (Issued (s.elapse dt) p x q 2567 7 ((s.elapse dt).funcPerm fc)) ∧ fc < 2 ^ 25 ∧ pd < 65536 ∧ rt < 32 ∧ (0 < l ∧ l ≤ 2 ^ 40 ∧ (sp = 0 ∨ sp = 1 ∧ rt.testBit 4 = false ∧ a + l ≤ 2 ^ 36)) ∧ (¬((s.elapse dt).mrUsed ((s.elapse dt).fnDom (fnOf fc)) < (s.elapse dt).mrQuotaOf ((s.elapse dt).fnDom (fnOf fc)) ∧ (s.rdma.mrNext < 1048576 ∨ s.rdma.mrFree ≠ [])))) ∧
  (∃ (s : State) (dt : Nat) (p : Path) (x : Session) (q : TReq) (fc : Nat) (pd : Nat) (sp : Nat) (a : Nat) (l : Nat) (rt : Nat),
    (Issued (s.elapse dt) p x q 2567 7 ((s.elapse dt).funcPerm fc)) ∧ fc < 2 ^ 25 ∧ pd < 65536 ∧ rt < 32 ∧ (0 < l ∧ l ≤ 2 ^ 40 ∧ (sp = 0 ∨ sp = 1 ∧ rt.testBit 4 = false ∧ a + l ≤ 2 ^ 36)) ∧ ((s.elapse dt).mrUsed ((s.elapse dt).fnDom (fnOf fc)) < (s.elapse dt).mrQuotaOf ((s.elapse dt).fnDom (fnOf fc)) ∧ (s.rdma.mrNext < 1048576 ∨ s.rdma.mrFree ≠ [])) ∧ 2 ^ 64 < a + l) ∧
  (∃ (s : State) (dt : Nat) (p : Path) (x : Session) (q : TReq) (fc : Nat) (pd : Nat) (sp : Nat) (a : Nat) (l : Nat) (rt : Nat) (prev : Nat),
    (Issued (s.elapse dt) p x q 2567 7 ((s.elapse dt).funcPerm fc)) ∧ fc < 2 ^ 25 ∧ pd < 65536 ∧ rt < 32 ∧ (0 < l ∧ l ≤ 2 ^ 40 ∧ (sp = 0 ∨ sp = 1 ∧ rt.testBit 4 = false ∧ a + l ≤ 2 ^ 36)) ∧ ((s.elapse dt).mrUsed ((s.elapse dt).fnDom (fnOf fc)) < (s.elapse dt).mrQuotaOf ((s.elapse dt).fnDom (fnOf fc)) ∧ (s.rdma.mrNext < 1048576 ∨ s.rdma.mrFree ≠ [])) ∧ a + l ≤ 2 ^ 64 ∧ s.rdma.mrNext < 1048576 ∧ tget? s.rdma.mrKeys s.rdma.mrNext = some prev) ∧
  (∃ (s : State) (dt : Nat) (p : Path) (x : Session) (q : TReq) (fc : Nat) (pd : Nat) (sp : Nat) (a : Nat) (l : Nat) (rt : Nat),
    (Issued (s.elapse dt) p x q 2567 7 ((s.elapse dt).funcPerm fc)) ∧ fc < 2 ^ 25 ∧ pd < 65536 ∧ rt < 32 ∧ (0 < l ∧ l ≤ 2 ^ 40 ∧ (sp = 0 ∨ sp = 1 ∧ rt.testBit 4 = false ∧ a + l ≤ 2 ^ 36)) ∧ ((s.elapse dt).mrUsed ((s.elapse dt).fnDom (fnOf fc)) < (s.elapse dt).mrQuotaOf ((s.elapse dt).fnDom (fnOf fc)) ∧ (s.rdma.mrNext < 1048576 ∨ s.rdma.mrFree ≠ [])) ∧ a + l ≤ 2 ^ 64 ∧ s.rdma.mrNext < 1048576 ∧ tget? s.rdma.mrKeys s.rdma.mrNext = none) ∧
  (∃ (s : State) (dt : Nat) (p : Path) (x : Session) (q : TReq) (fc : Nat) (pd : Nat) (sp : Nat) (a : Nat) (l : Nat) (rt : Nat) (i : Nat) (more : List Nat) (prev : Nat),
    (Issued (s.elapse dt) p x q 2567 7 ((s.elapse dt).funcPerm fc)) ∧ fc < 2 ^ 25 ∧ pd < 65536 ∧ rt < 32 ∧ (0 < l ∧ l ≤ 2 ^ 40 ∧ (sp = 0 ∨ sp = 1 ∧ rt.testBit 4 = false ∧ a + l ≤ 2 ^ 36)) ∧ ((s.elapse dt).mrUsed ((s.elapse dt).fnDom (fnOf fc)) < (s.elapse dt).mrQuotaOf ((s.elapse dt).fnDom (fnOf fc)) ∧ (s.rdma.mrNext < 1048576 ∨ s.rdma.mrFree ≠ [])) ∧ a + l ≤ 2 ^ 64 ∧ 1048576 ≤ s.rdma.mrNext ∧ s.rdma.mrFree = i :: more ∧ tget? s.rdma.mrKeys i = some prev) ∧
  (∃ (s : State) (dt : Nat) (p : Path) (x : Session) (q : TReq) (key : Nat),
    key < 2 ^ 32 ∧ Issued (s.elapse dt) p x q 2568 1 ((s.elapse dt).keyPerm key) ∧ (¬Option.any (fun m => m.key == key) ((s.elapse dt).mr? key) = true)) ∧
  (∃ (s : State) (dt : Nat) (p : Path) (x : Session) (q : TReq) (key : Nat) (m : Mr),
    key < 2 ^ 32 ∧ Issued (s.elapse dt) p x q 2568 1 ((s.elapse dt).keyPerm key) ∧ (s.elapse dt).mr? key = some m ∧ m.key = key ∧ m.closing.isSome = true) ∧
  (∃ (s : State) (dt : Nat) (p : Path) (x : Session) (q : TReq) (key : Nat) (m : Mr),
    key < 2 ^ 32 ∧ Issued (s.elapse dt) p x q 2568 1 ((s.elapse dt).keyPerm key) ∧ (s.elapse dt).mr? key = some m ∧ m.key = key ∧ m.closing = none) ∧
  (∃ (s : State) (dt : Nat) (p : Path) (x : Session) (q : TReq) (key : Nat),
    key < 2 ^ 32 ∧ Issued (s.elapse dt) p x q 2569 1 ((s.elapse dt).keyPerm key) ∧ (¬Option.any (fun m => m.key == key) ((s.elapse dt).mr? key) = true)) ∧
  (∃ (s : State) (dt : Nat) (p : Path) (x : Session) (q : TReq) (key : Nat) (m : Mr),
    key < 2 ^ 32 ∧ Issued (s.elapse dt) p x q 2569 1 ((s.elapse dt).keyPerm key) ∧ (s.elapse dt).mr? key = some m ∧ m.key = key) ∧
  (∃ (s : State) (dt : Nat) (p : Path) (x : Session) (q : TReq) (qs : List (Nat × Nat × Nat)),
    Issued (s.elapse dt) p x q 2570 48 Perm.any ∧ (rangesOk 1048576 (List.map (fun r => (r.fst.fst, r.fst.snd.fst)) (List.filter (fun r => (s.elapse dt).domOn r.snd) qs.zipIdx)) = false ∨ 1048576 < (List.map (fun r => r.fst.snd.fst) (List.filter (fun r => (s.elapse dt).domOn r.snd) qs.zipIdx)).sum ∨ 1048576 < (List.map (fun r => r.fst.snd.snd) (List.filter (fun r => (s.elapse dt).domOn r.snd) qs.zipIdx)).sum ∨ (List.any s.rdma.qps fun y => !(List.filter (fun r => (s.elapse dt).domOn r.snd) qs.zipIdx).any fun r => r.snd == y.snd.dom && decide (r.fst.fst ≤ y.fst) && decide (y.fst < r.fst.fst + r.fst.snd.fst)) = true ∨ ((List.filter (fun r => (s.elapse dt).domOn r.snd) qs.zipIdx).any fun r => decide (r.fst.snd.snd < (s.elapse dt).mrUsed r.snd)) = true)) ∧
  (∃ (s : State) (dt : Nat) (p : Path) (x : Session) (q : TReq) (qs : List (Nat × Nat × Nat)),
    Issued (s.elapse dt) p x q 2570 48 Perm.any ∧ (¬(rangesOk 1048576 (List.map (fun r => (r.fst.fst, r.fst.snd.fst)) (List.filter (fun r => (s.elapse dt).domOn r.snd) qs.zipIdx)) = false ∨ 1048576 < (List.map (fun r => r.fst.snd.fst) (List.filter (fun r => (s.elapse dt).domOn r.snd) qs.zipIdx)).sum ∨ 1048576 < (List.map (fun r => r.fst.snd.snd) (List.filter (fun r => (s.elapse dt).domOn r.snd) qs.zipIdx)).sum ∨ (List.any s.rdma.qps fun y => !(List.filter (fun r => (s.elapse dt).domOn r.snd) qs.zipIdx).any fun r => r.snd == y.snd.dom && decide (r.fst.fst ≤ y.fst) && decide (y.fst < r.fst.fst + r.fst.snd.fst)) = true ∨ ((List.filter (fun r => (s.elapse dt).domOn r.snd) qs.zipIdx).any fun r => decide (r.fst.snd.snd < (s.elapse dt).mrUsed r.snd)) = true))) ∧
  (∃ (s : State) (dt : Nat) (p : Path) (x : Session) (q : TReq) (d : Nat) (en : Nat) (de : Nat) (ai : Nat) (mn : Nat),
    Issued (s.elapse dt) p x q 2571 5 (Perm.owner d) ∧ d < 16 ∧ (¬(en ≤ 1 ∧ 1 ≤ de ∧ de ≤ 4 ∧ 1 ≤ ai ∧ ai ≤ 10000 ∧ 10 ≤ mn ∧ mn ≤ 100000))) ∧
  (∃ (s : State) (dt : Nat) (p : Path) (x : Session) (q : TReq) (d : Nat) (en : Nat) (de : Nat) (ai : Nat) (mn : Nat),
    Issued (s.elapse dt) p x q 2571 5 (Perm.owner d) ∧ d < 16 ∧ (en ≤ 1 ∧ 1 ≤ de ∧ de ≤ 4 ∧ 1 ≤ ai ∧ ai ≤ 10000 ∧ 10 ≤ mn ∧ mn ≤ 100000)) ∧
  (∃ (s : State) (dt : Nat) (p : Path) (x : Session) (q : TReq) (e : Nat),
    Issued (s.elapse dt) p x q 2572 1 Perm.any ∧ (e < 20 ∨ 30 < e)) ∧
  (∃ (s : State) (dt : Nat) (p : Path) (x : Session) (q : TReq) (e : Nat),
    Issued (s.elapse dt) p x q 2572 1 Perm.any ∧ 20 ≤ e ∧ e ≤ 30) ∧
  (∃ (s : State) (dt : Nat) (p : Path) (x : Session) (q : TReq) (d : Nat),
    Issued (s.elapse dt) p x q 2573 1 (Perm.owner d) ∧ d < 16) ∧
  (∃ (s : State) (dt : Nat) (k : Nat) (c : Ctx),
    (s.elapse dt).Plain ∧ (s.elapse dt).ctx? k = some c ∧ ((s.elapse dt).rdmaOn = false ∨ c.fetching = false ∨ c.writing = true)) ∧
  (∃ (s : State) (dt : Nat) (k : Nat) (c : Ctx),
    (s.elapse dt).Plain ∧ (s.elapse dt).ctx? k = some c ∧ ((s.elapse dt).rdmaOn = false ∨ c.writing = false)) ∧
  (∃ (s : State) (dt : Nat) (k : Nat) (c : Ctx),
    (s.elapse dt).Plain ∧ (s.elapse dt).ctx? k = some c ∧ (s.elapse dt).rdmaOn = true ∧ c.fetching = true ∧ c.writing = false ∧ c.place ≠ 1 ∧ s.mem.marks.contains (4, k) = false ∧ (((s.elapse dt).pcie.reads.all fun r => r.what != 6 || r.sub != k || r.dead) = true)) ∧
  (∃ (s : State) (dt : Nat) (k : Nat) (c : Ctx),
    (s.elapse dt).Plain ∧ (s.elapse dt).ctx? k = some c ∧ (s.elapse dt).rdmaOn = true ∧ s.tosen.sessions = [] ∧ (s.elapse dt).stor.ended = [] ∧ ctxType k = 2 ∧ s.rm.ctxs = [(k, c)] ∧ s.mem.marks = [] ∧ c.parked = [] ∧ c.waiting = none ∧ c.fetching = true ∧ c.writing = false ∧ c.place = 1 ∧ 0 < (s.elapse dt).lines (ctxDom k) 2) ∧
  (∃ (s : State) (dt : Nat) (k : Nat) (c : Ctx) (r : HRead),
    (s.elapse dt).Plain ∧ (s.elapse dt).ctx? k = some c ∧ (s.elapse dt).rdmaOn = true ∧ s.tosen.sessions = [] ∧ (s.elapse dt).stor.ended = [] ∧ ctxType k = 2 ∧ s.rm.ctxs = [(k, c)] ∧ s.mem.marks = [] ∧ c.parked = [] ∧ c.waiting = none ∧ c.fetching = true ∧ c.writing = false ∧ c.place = 2 ∧ (s.elapse dt).pcie.reads = [r] ∧ r.what = 6 ∧ r.sub = k ∧ r.dead = false ∧ (s.elapse dt).pcie.held = [] ∧ 0 < (s.elapse dt).lines (ctxDom k) 2) ∧
  (∃ (s : State) (dt : Nat) (k : Nat) (c : Ctx),
    (s.elapse dt).Plain ∧ (s.elapse dt).ctx? k = some c ∧ (s.elapse dt).rdmaOn = true ∧ s.tosen.sessions = [] ∧ (s.elapse dt).stor.ended = [] ∧ ctxType k = 2 ∧ s.rm.ctxs = [(k, c)] ∧ s.mem.marks = [] ∧ c.parked = [] ∧ c.waiting = none ∧ c.writing = true ∧ c.fetching = false) ∧
  (∃ (s : State) (dt : Nat) (k : Nat) (c : Ctx),
    (s.elapse dt).Plain ∧ (s.elapse dt).ctx? k = some c ∧ (s.elapse dt).rdmaOn = true ∧ s.tosen.sessions = [] ∧ (s.elapse dt).stor.ended = [] ∧ ctxType k = 2 ∧ s.rm.ctxs = [(k, c)] ∧ s.mem.marks = [] ∧ c.parked = [] ∧ c.waiting = none ∧ c.writing = true ∧ c.fetching = true) :=
  ⟨⟨(ask (linked .service) 0x0A01 2), 3, (.mp 1), (sess 0x0A01 2), (req 0x0A01 2), 0, 3,
      issued_of (by decide +kernel), by decide +kernel⟩,
    ⟨(ask (post1 { kind := 3 }) 0x0A01 2), 3, (.mp 1), (sess 0x0A01 2), (req 0x0A01 2), 0, 3,
      issued_of (by decide +kernel), by decide +kernel⟩,
    ⟨(ask (linked .service) 0x0A02 5), 3, (.mp 1), (sess 0x0A02 5), (req 0x0A02 5), 5, 16, 0,
      issued_of (by decide +kernel), by decide +kernel⟩,
    ⟨(ask (bDev .service) 0x0A02 5), 3, (.mp 1), (sess 0x0A02 5), (req 0x0A02 5), 16, 15, 0,
      issued_of (by decide +kernel), by decide +kernel⟩,
    ⟨(ask (linked .service) 0x0A02 5), 3, (.mp 1), (sess 0x0A02 5), (req 0x0A02 5), 23, 15, 0,
      issued_of (by decide +kernel), by decide +kernel⟩,
    ⟨(ask (post1 { kind := 3 }) 0x0A03 4), 3, (.mp 1), (sess 0x0A03 4), (req 0x0A03 4), 0, 3, 3, 9,
      issued_of (by decide +kernel), by decide +kernel⟩,
    ⟨(ask rqr 0x0A03 4), 3, (.mp 1), (sess 0x0A03 4), (req 0x0A03 4), 0, 3, 4, 32767,
      issued_of (by decide +kernel), by decide +kernel⟩,
    ⟨(ask { rqr with tm.queues := [(9, { cfg := { kind := 1 } })], rdma.qpRange := [(0, (5, 0))] } 0x0A03 4), 3, (.mp 1), (sess 0x0A03 4), (req 0x0A03 4), 0, 3, 4, 9,
      issued_of (by decide +kernel), by decide +kernel⟩,
    ⟨(ask { rqr with tm.queues := [(9, { cfg := { kind := 1 } })], rdma.qpRange := [(0, (5, 1))], rdma.qpFree := [{ num := 5, ends := 9, free := false }] } 0x0A03 4), 3, (.mp 1), (sess 0x0A03 4), (req 0x0A03 4), 0, 3, 4, 9,
      issued_of (by decide +kernel), by decide +kernel, by decide +kernel, by decide +kernel, by decide +kernel, by decide +kernel, by decide +kernel, rfl⟩,
    ⟨(ask { rqr with tm.queues := [(9, { cfg := { kind := 1 } })], rdma.qpRange := [(0, (5, 1))] } 0x0A03 4), 3, (.mp 1), (sess 0x0A03 4), (req 0x0A03 4), 0, 3, 4, 9, 5,
      issued_of (by decide +kernel), by decide +kernel, by decide +kernel, by decide +kernel, by decide +kernel, by decide +kernel, by decide +kernel, rfl⟩,
    ⟨(ask { rqr with tm.queues := [(9, { cfg := { kind := 1 } })], rdma.qpRange := [(0, (5, 1))] } 0x0A03 4), 3, (.mp 1), (sess 0x0A03 4), (req 0x0A03 4), 0, 3, 4, 9, 5, 0,
      issued_of (by decide +kernel), by decide +kernel⟩,
    ⟨(ask (linked .service) 0x0A04 3), 3, (.mp 1), (sess 0x0A04 3), (req 0x0A04 3), 9, 1, [],
      issued_of (by decide +kernel), by decide +kernel⟩,
    ⟨(ask (rnet [] { qp9 with state := .init }) 0x0A04 8), 3, (.mp 1), (sess 0x0A04 8), (req 0x0A04 8), 9, 1, [(4, 2), (0, 1)], { qp9 with state := .init },
      issued_of (by decide +kernel), by decide +kernel⟩,
    ⟨(ask (rnet [] { qp9 with storage := some (0, 0) }) 0x0A04 3), 3, (.mp 1), (sess 0x0A04 3), (req 0x0A04 3), 9, 5, [], { qp9 with storage := some (0, 0) },
      issued_of (by decide +kernel), by decide +kernel⟩,
    ⟨(ask (rnet [] { qp9 with state := .init }) 0x0A04 3), 3, (.mp 1), (sess 0x0A04 3), (req 0x0A04 3), 9, 4, [], { qp9 with state := .init },
      issued_of (by decide +kernel), by decide +kernel⟩,
    ⟨(ask (rnet [] { qp9 with state := .reset }) 0x0A04 7), 3, (.mp 1), (sess 0x0A04 7), (req 0x0A04 7), 9, 1, [(0, 23), (1, 65535)], { qp9 with state := .reset }, 23, 65535,
      issued_of (by decide +kernel), by decide +kernel⟩,
    ⟨(ask (rnet [] { qp9 with state := .init }) 0x0A04 14), 3, (.mp 1), (sess 0x0A04 14), (req 0x0A04 14), 9, 2, [(2, 7), (3, 8), (4, gid0), (5, 1), (13, 99)], { qp9 with state := .init },
      issued_of (by decide +kernel), by decide +kernel⟩,
    ⟨(ask (rnet [] { qp9 with state := .rtr }) 0x0A04 5), 3, (.mp 1), (sess 0x0A04 5), (req 0x0A04 5), 9, 3, [(17, 2 ^ 24 - 1)], { qp9 with state := .rtr }, (2 ^ 24 - 1),
      issued_of (by decide +kernel), by decide +kernel⟩,
    ⟨(ask (rnet [] { qp9 with state := .sqd }) 0x0A04 3), 3, (.mp 1), (sess 0x0A04 3), (req 0x0A04 3), 9, 3, [], { qp9 with state := .sqd },
      issued_of (by decide +kernel), by decide +kernel⟩,
    ⟨(ask (rnet [] { qp9 with reqs := [rreq 0 2], nextPsn := 2, sendPsn := 2 }) 0x0A04 3), 3, (.mp 1), (sess 0x0A04 3), (req 0x0A04 3), 9, 4, [], { qp9 with reqs := [rreq 0 2], nextPsn := 2, sendPsn := 2 },
      issued_of (by decide +kernel), by decide +kernel⟩,
    ⟨(ask (rnet [] qp9) 0x0A04 3), 3, (.mp 1), (sess 0x0A04 3), (req 0x0A04 3), 9, 4, [], qp9,
      issued_of (by decide +kernel), by decide +kernel⟩,
    ⟨(ask (rnet [] { qp9 with expPsn := 3 }) 0x0A04 3), 3, (.mp 1), (sess 0x0A04 3), (req 0x0A04 3), 9, 0, [], { qp9 with expPsn := 3 },
      issued_of (by decide +kernel), by decide +kernel⟩,
    ⟨(ask (rnet [] { qp9 with reqs := [{ rreq 0 1 with owner := .ring (rkey 0 4) 0 }], nextPsn := 1, sendPsn := 1 }) 0x0A04 3), 3, (.mp 1), (sess 0x0A04 3), (req 0x0A04 3), 9, 5, [], { qp9 with reqs := [{ rreq 0 1 with owner := .ring (rkey 0 4) 0 }], nextPsn := 1, sendPsn := 1 }, [{ rreq 0 1 with owner := .ring (rkey 0 4) 0 }],
      issued_of (by decide +kernel), by decide +kernel⟩,
    ⟨(ask (rnet [] { qp9 with state := .reset }) 0x0A04 3), 3, (.mp 1), (sess 0x0A04 3), (req 0x0A04 3), 9, 5, [], { qp9 with state := .reset },
      issued_of (by decide +kernel), by decide +kernel⟩,
    ⟨(ask (linked .service) 0x0A05 1), 3, (.mp 1), (sess 0x0A05 1), (req 0x0A05 1), 9,
      issued_of (by decide +kernel), by decide +kernel⟩,
    ⟨(ask (rnet [] qp9) 0x0A05 1), 3, (.mp 1), (sess 0x0A05 1), (req 0x0A05 1), 9, qp9,
      issued_of (by decide +kernel), by decide +kernel⟩,
    ⟨(ask (linked .service) 0x0A06 1), 3, (.mp 1), (sess 0x0A06 1), (req 0x0A06 1), 9,
      issued_of (by decide +kernel), by decide +kernel⟩,
    ⟨(ask (rnet [] { qp9 with storage := some (0, 0) }) 0x0A06 1), 3, (.mp 1), (sess 0x0A06 1), (req 0x0A06 1), 9, { qp9 with storage := some (0, 0) },
      issued_of (by decide +kernel), by decide +kernel⟩,
    ⟨(ask (rnet [] qp9) 0x0A06 1), 3, (.mp 1), (sess 0x0A06 1), (req 0x0A06 1), 9, qp9,
      issued_of (by decide +kernel), by decide +kernel⟩,
    ⟨(ask (rnet [] { qp9 with reqs := [{ rreq 0 1 with owner := .ring (rkey 0 4) 0 }], nextPsn := 1, sendPsn := 1 }) 0x0A06 1), 3, (.mp 1), (sess 0x0A06 1), (req 0x0A06 1), 9, { qp9 with reqs := [{ rreq 0 1 with owner := .ring (rkey 0 4) 0 }], nextPsn := 1, sendPsn := 1 }, { rreq 0 1 with owner := .ring (rkey 0 4) 0 }, (rkey 0 4), 0,
      issued_of (by decide +kernel), by decide +kernel⟩,
    ⟨(ask (linked .service) 0x0A07 7), 3, (.mp 1), (sess 0x0A07 7), (req 0x0A07 7), 0, 1, 1, (2 ^ 36 - 63), 64, 15,
      issued_of (by decide +kernel), by decide +kernel⟩,
    ⟨(ask { linked .service with rdma.mrQuota := [(0, 0)] } 0x0A07 7), 3, (.mp 1), (sess 0x0A07 7), (req 0x0A07 7), 0, 1, 0, 0, 64, 16,
      issued_of (by decide +kernel), by decide +kernel⟩,
    ⟨(ask (linked .service) 0x0A07 7), 3, (.mp 1), (sess 0x0A07 7), (req 0x0A07 7), 0, 1, 0, (2 ^ 64 - 63), 64, 16,
      issued_of (by decide +kernel), by decide +kernel⟩,
    ⟨(ask { linked .service with rdma.mrKeys := [(0, 255)] } 0x0A07 7), 3, (.mp 1), (sess 0x0A07 7), (req 0x0A07 7), 0, 65535, 1, (2 ^ 36 - 64), 64, 15, 255,
      issued_of (by decide +kernel), by decide +kernel⟩,
    ⟨(ask (linked .service) 0x0A07 7), 3, (.mp 1), (sess 0x0A07 7), (req 0x0A07 7), 0, 65535, 0, (2 ^ 64 - 64), 64, 31,
      issued_of (by decide +kernel), by decide +kernel⟩,
    ⟨(ask { linked .service with rdma.mrNext := 1048576, rdma.mrFree := [7, 8], rdma.mrKeys := [(7, 3)] } 0x0A07 7), 3, (.mp 1), (sess 0x0A07 7), (req 0x0A07 7), 0, 65535, 0, 0, 64, 31, 7, [8], 3,
      issued_of (by decide +kernel), by decide +kernel⟩,
    ⟨(ask { linked .service with rdma.mrs := [(9, mr0)] } 0x0A08 1), 3, (.mp 1), (sess 0x0A08 1), (req 0x0A08 1), (9 * 256 + 4),
      by decide +kernel, issued_of (by decide +kernel), by decide +kernel⟩,
    ⟨(ask { linked .service with rdma.mrs := [(9, { mr0 with closing := some (.mp 2) })] } 0x0A08 1), 3, (.mp 1), (sess 0x0A08 1), (req 0x0A08 1), (9 * 256 + 5), { mr0 with closing := some (.mp 2) },
      by decide +kernel, issued_of (by decide +kernel), by decide +kernel⟩,
    ⟨(ask { linked .service with rdma.mrs := [(9, mr0)] } 0x0A08 1), 3, (.mp 1), (sess 0x0A08 1), (req 0x0A08 1), (9 * 256 + 5), mr0,
      by decide +kernel, issued_of (by decide +kernel), by decide +kernel⟩,
    ⟨(ask { linked .service with rdma.mrs := [(9, mr0)] } 0x0A09 1), 3, (.mp 1), (sess 0x0A09 1), (req 0x0A09 1), (9 * 256 + 4),
      by decide +kernel, issued_of (by decide +kernel), by decide +kernel⟩,
    ⟨(ask { linked .service with rdma.mrs := [(9, mr0)] } 0x0A09 1), 3, (.mp 1), (sess 0x0A09 1), (req 0x0A09 1), (9 * 256 + 5), mr0,
      by decide +kernel, issued_of (by decide +kernel), by decide +kernel⟩,
    ⟨(ask (linked .service) 0x0A0A 48), 3, (.mp 1), (sess 0x0A0A 48), (req 0x0A0A 48), (List.replicate 16 (0, 1048577, 0)),
      issued_of (by decide +kernel), by decide +kernel⟩,
    ⟨(ask (rnet [] qp9) 0x0A0A 48), 3, (.mp 1), (sess 0x0A0A 48), (req 0x0A0A 48), (List.replicate 16 (0, 1048576, 1048576)),
      issued_of (by decide +kernel), by decide +kernel⟩,
    ⟨(ask (linked .service) 0x0A0B 5), 3, (.mp 1), (sess 0x0A0B 5), (req 0x0A0B 5), 0, 1, 5, 1, 10,
      issued_of (by decide +kernel), by decide +kernel⟩,
    ⟨(ask (linked .service) 0x0A0B 5), 3, (.mp 1), (sess 0x0A0B 5), (req 0x0A0B 5), 0, 1, 4, 10000, 100000,
      issued_of (by decide +kernel), by decide +kernel⟩,
    ⟨(ask (linked .service) 0x0A0C 1), 3, (.mp 1), (sess 0x0A0C 1), (req 0x0A0C 1), 31,
      issued_of (by decide +kernel), by decide +kernel⟩,
    ⟨(ask (linked .service) 0x0A0C 1), 3, (.mp 1), (sess 0x0A0C 1), (req 0x0A0C 1), 30,
      issued_of (by decide +kernel), by decide +kernel⟩,
    ⟨(ask (linked .service) 0x0A0D 1), 3, (.mp 1), (sess 0x0A0D 1), (req 0x0A0D 1), 1,
      issued_of (by decide +kernel), by decide +kernel⟩,
    ⟨(ctxs (ctxKey 2 0 5) {}), 3, (ctxKey 2 0 5), {},
      plain_of (by decide +kernel), by decide +kernel⟩,
    ⟨(ctxs (ctxKey 2 0 5) {}), 3, (ctxKey 2 0 5), {},
      plain_of (by decide +kernel), by decide +kernel⟩,
    ⟨(ctxs (ctxKey 2 0 5) { fetching := true, place := 2 }), 3, (ctxKey 2 0 5), { fetching := true, place := 2 },
      plain_of (by decide +kernel), by decide +kernel⟩,
    ⟨(ctxs (ctxKey 2 0 5) { fetching := true, place := 1 }), 3, (ctxKey 2 0 5), { fetching := true, place := 1 },
      plain_of (by decide +kernel), by decide +kernel⟩,
    ⟨{ ctxs (ctxKey 2 0 5) { fetching := true, place := 2 } with pcie.reads := [{ hr 6 256 with sub := ctxKey 2 0 5 }] }, 3, (ctxKey 2 0 5), { fetching := true, place := 2 }, { hr 6 256 with sub := ctxKey 2 0 5 },
      plain_of (by decide +kernel), by decide +kernel⟩,
    ⟨(ctxs (ctxKey 2 0 5) { writing := true }), 3, (ctxKey 2 0 5), { writing := true },
      plain_of (by decide +kernel), by decide +kernel⟩,
    ⟨(ctxs (ctxKey 2 0 5) { writing := true, fetching := true, place := 1 }), 3, (ctxKey 2 0 5), { writing := true, fetching := true, place := 1 },
      plain_of (by decide +kernel), by decide +kernel⟩⟩

set_option Elab.async false
set_option maxRecDepth 4000
/-- The premises of `Obligations.SecurityCommands`, clause by clause, are met. -/
theorem witness_SecurityCommands :
  (∃ (s : State) (dt : Nat) (p : Path) (x : Session) (q : TReq) (po : Nat) (on : Nat) (su : Nat) (v : Nat) (w : Nat) (si : Nat) (o : Nat) (ex : List Nat),
    Issued (s.elapse dt) p x q 2817 (8 + ex.length) (dataPerm po) ∧ w < 2 ^ 32 ∧ ((ex.all fun t => decide (t < 65536)) = true) ∧ (¬(po < 24 ∧ on ≤ 1 ∧ su ≤ 1 ∧ v ≤ 2 ∧ si ≤ 1 ∧ o ∈ [0, 30, 50] ∧ ex.length ≤ 4))) ∧
  (∃ (s : State) (dt : Nat) (p : Path) (x : Session) (q : TReq) (po : Nat) (on : Nat) (su : Nat) (v : Nat) (w : Nat) (si : Nat) (o : Nat) (ex : List Nat),
    Issued (s.elapse dt) p x q 2817 (8 + ex.length) (dataPerm po) ∧ w < 2 ^ 32 ∧ ((ex.all fun t => decide (t < 65536)) = true) ∧ (po < 24 ∧ on ≤ 1 ∧ su ≤ 1 ∧ v ≤ 2 ∧ si ≤ 1 ∧ o ∈ [0, 30, 50] ∧ ex.length ≤ 4) ∧ (s.elapse dt).portCount ≤ po) ∧
  (∃ (s : State) (dt : Nat) (p : Path) (x : Session) (q : TReq) (po : Nat) (on : Nat) (su : Nat) (v : Nat) (w : Nat) (si : Nat) (o : Nat) (ex : List Nat),
    Issued (s.elapse dt) p x q 2817 (8 + ex.length) (dataPerm po) ∧ w < 2 ^ 32 ∧ ((ex.all fun t => decide (t < 65536)) = true) ∧ (po < 24 ∧ on ≤ 1 ∧ su ≤ 1 ∧ v ≤ 2 ∧ si ≤ 1 ∧ o ∈ [0, 30, 50] ∧ ex.length ≤ 4) ∧ po < (s.elapse dt).portCount) ∧
  (∃ (s : State) (dt : Nat) (p : Path) (x : Session) (q : TReq) (po : Nat) (sc : Nat) (an : Nat) (ss : Nat),
    Issued (s.elapse dt) p x q 2818 12 (dataPerm po) ∧ po < 24 ∧ sc ≤ 4 ∧ an ≤ 3 ∧ ss < 2 ^ 32 ∧ (s.elapse dt).portCount ≤ po) ∧
  (∃ (s : State) (dt : Nat) (p : Path) (x : Session) (q : TReq) (po : Nat) (sc : Nat) (an : Nat) (ss : Nat),
    Issued (s.elapse dt) p x q 2818 12 (dataPerm po) ∧ po < 24 ∧ sc ≤ 4 ∧ an ≤ 3 ∧ ss < 2 ^ 32 ∧ po < (s.elapse dt).portCount ∧ tget? (tget ((s.elapse dt).ms po).scs sc ({ } : MsSc)).sas an = none ∧ (s.elapse dt).keyQuota ((s.elapse dt).portOwner po) ≤ (s.elapse dt).keysUsed ((s.elapse dt).portOwner po) + (s.elapse dt).keysPending ((s.elapse dt).portOwner po)) ∧
  (∃ (s : State) (dt : Nat) (p : Path) (x : Session) (q : TReq) (po : Nat) (sc : Nat) (an : Nat) (ss : Nat),
    Issued (s.elapse dt) p x q 2818 12 (dataPerm po) ∧ po < 24 ∧ sc ≤ 4 ∧ an ≤ 3 ∧ ss < 2 ^ 32 ∧ po < (s.elapse dt).portCount ∧ ((tget? (tget ((s.elapse dt).ms po).scs sc ({ } : MsSc)).sas an).isSome = true ∨ ¬(s.elapse dt).keyQuota ((s.elapse dt).portOwner po) ≤ (s.elapse dt).keysUsed ((s.elapse dt).portOwner po) + (s.elapse dt).keysPending ((s.elapse dt).portOwner po))) ∧
  (∃ (s : State) (dt : Nat) (p : Path) (x : Session) (q : TReq) (po : Nat) (an : Nat),
    Issued (s.elapse dt) p x q 2819 2 (dataPerm po) ∧ po < 24 ∧ an ≤ 3 ∧ (s.elapse dt).portCount ≤ po) ∧
  (∃ (s : State) (dt : Nat) (p : Path) (x : Session) (q : TReq) (po : Nat) (an : Nat),
    Issued (s.elapse dt) p x q 2819 2 (dataPerm po) ∧ po < 24 ∧ an ≤ 3 ∧ po < (s.elapse dt).portCount ∧ tget? (tget ((s.elapse dt).ms po).scs 0 ({ } : MsSc)).sas an = none) ∧
  (∃ (s : State) (dt : Nat) (p : Path) (x : Session) (q : TReq) (po : Nat) (an : Nat),
    Issued (s.elapse dt) p x q 2819 2 (dataPerm po) ∧ po < 24 ∧ an ≤ 3 ∧ po < (s.elapse dt).portCount ∧ (tget? (tget ((s.elapse dt).ms po).scs 0 ({ } : MsSc)).sas an).isSome = true) ∧
  (∃ (s : State) (dt : Nat) (p : Path) (x : Session) (q : TReq) (po : Nat),
    Issued (s.elapse dt) p x q 2820 1 (dataPerm po) ∧ po < 24 ∧ (s.elapse dt).portCount ≤ po) ∧
  (∃ (s : State) (dt : Nat) (p : Path) (x : Session) (q : TReq) (po : Nat),
    Issued (s.elapse dt) p x q 2820 1 (dataPerm po) ∧ po < 24 ∧ po < (s.elapse dt).portCount) ∧
  (∃ (s : State) (dt : Nat) (p : Path) (x : Session) (q : TReq) (di : Nat) (sp : Nat) (sa : Nat) (es : Nat) (se : Nat) (tl : Nat) (a : Nat) (b : Nat),
    Issued (s.elapse dt) p x q 2832 (16 + ceilDiv tl 8) Perm.any ∧ sp < 2 ^ 32 ∧ sa < 2 ^ 32 ∧ a < 65536 ∧ b < 65536 ∧ (¬(di ≤ 1 ∧ es ≤ 1 ∧ tl ≤ 64 ∧ (es = 1 ∨ se < 2 ^ 32)))) ∧
  (∃ (s : State) (dt : Nat) (p : Path) (x : Session) (q : TReq) (di : Nat) (sp : Nat) (sa : Nat) (es : Nat) (se : Nat) (tl : Nat) (a : Nat) (b : Nat),
    Issued (s.elapse dt) p x q 2832 (16 + ceilDiv tl 8) Perm.any ∧ sp < 2 ^ 32 ∧ sa < 2 ^ 32 ∧ a < 65536 ∧ b < 65536 ∧ (di ≤ 1 ∧ es ≤ 1 ∧ tl ≤ 64 ∧ (es = 1 ∨ se < 2 ^ 32)) ∧ ((s.elapse dt).keyQuota x.dom ≤ (s.elapse dt).keysUsed x.dom + (s.elapse dt).keysPending x.dom ∨ (s.elapse dt).freeHandle = 16384)) ∧
  (∃ (s : State) (dt : Nat) (p : Path) (x : Session) (q : TReq) (di : Nat) (sp : Nat) (sa : Nat) (es : Nat) (se : Nat) (tl : Nat) (a : Nat) (b : Nat),
    Issued (s.elapse dt) p x q 2832 (16 + ceilDiv tl 8) Perm.any ∧ sp < 2 ^ 32 ∧ sa < 2 ^ 32 ∧ a < 65536 ∧ b < 65536 ∧ (di ≤ 1 ∧ es ≤ 1 ∧ tl ≤ 64 ∧ (es = 1 ∨ se < 2 ^ 32)) ∧ (¬((s.elapse dt).keyQuota x.dom ≤ (s.elapse dt).keysUsed x.dom + (s.elapse dt).keysPending x.dom ∨ (s.elapse dt).freeHandle = 16384))) ∧
  (∃ (s : State) (dt : Nat) (p : Path) (x : Session) (q : TReq) (h : Nat),
    Issued (s.elapse dt) p x q 2833 1 ((s.elapse dt).espPerm h) ∧ h < 16384) ∧
  (∃ (s : State) (dt : Nat) (p : Path) (x : Session) (q : TReq) (n : Nat) (h : Nat),
    Issued (s.elapse dt) p x q 2834 2 ((s.elapse dt).queuePerm n) ∧ n < 32768 ∧ h < 65536 ∧ ((s.elapse dt).queueDom n = none ∨ ¬(h = 65535 ∧ tget? s.sec.esp h = none ∨ ∃ a, tget? s.sec.esp h = some a ∧ a.outbound = true ∧ (s.elapse dt).queueDom n = some a.dom))) ∧
  (∃ (s : State) (dt : Nat) (p : Path) (x : Session) (q : TReq) (n : Nat) (h : Nat),
    Issued (s.elapse dt) p x q 2834 2 ((s.elapse dt).queuePerm n) ∧ n < 32768 ∧ h < 65536 ∧ (s.elapse dt).queueDom n ≠ none ∧ (h = 65535 ∧ tget? s.sec.esp h = none ∨ ∃ a, tget? s.sec.esp h = some a ∧ a.outbound = true ∧ (s.elapse dt).queueDom n = some a.dom)) ∧
  (∃ (s : State) (dt : Nat) (p : Path) (x : Session) (q : TReq) (h : Nat),
    Issued (s.elapse dt) p x q 2835 1 ((s.elapse dt).espPerm h) ∧ h < 16384 ∧ tget? s.sec.esp h = none) ∧
  (∃ (s : State) (dt : Nat) (p : Path) (x : Session) (q : TReq) (h : Nat) (a : EspSa),
    Issued (s.elapse dt) p x q 2835 1 ((s.elapse dt).espPerm h) ∧ h < 16384 ∧ tget? s.sec.esp h = some a) ∧
  (∃ (s : State) (dt : Nat) (p : Path) (x : Session) (q : TReq) (l : List Nat),
    Issued (s.elapse dt) p x q 2848 16 Perm.any ∧ (16384 < l.sum ∨ (s.elapse dt).prov = true ∧ ∃ d, d ∈ List.range 16 ∧ (s.elapse dt).domField d 36 22 < nth l d)) ∧
  (∃ (s : State) (dt : Nat) (p : Path) (x : Session) (q : TReq) (l : List Nat),
    Issued (s.elapse dt) p x q 2848 16 Perm.any ∧ (¬(16384 < l.sum ∨ (s.elapse dt).prov = true ∧ ∃ d, d ∈ List.range 16 ∧ (s.elapse dt).domField d 36 22 < nth l d))) ∧
  (∃ (s : State) (dt : Nat),
    (s.elapse dt).Plain ∧ s.sec.pend = []) ∧
  (∃ (s : State) (dt : Nat) (p : Path) (x : Session) (q : TReq) (op : SecOp) (code : Nat) (reply : List Nat) (more : List SecPend) (po : Nat) (v : MsPort),
    (s.elapse dt).Settled ∧ s.sec.pend = ({ path := p, opcode := code, op := op, reply := reply } : SecPend) :: more ∧ Awaits (s.elapse dt) p x q code ∧ op = SecOp.port po v) ∧
  (∃ (s : State) (dt : Nat) (p : Path) (x : Session) (q : TReq) (op : SecOp) (code : Nat) (reply : List Nat) (more : List SecPend) (po : Nat) (sc : Nat) (si : Nat) (an : Nat) (v : MsSa),
    (s.elapse dt).Settled ∧ s.sec.pend = ({ path := p, opcode := code, op := op, reply := reply } : SecPend) :: more ∧ Awaits (s.elapse dt) p x q code ∧ op = SecOp.sa po sc si an v) ∧
  (∃ (s : State) (dt : Nat) (p : Path) (x : Session) (q : TReq) (op : SecOp) (code : Nat) (reply : List Nat) (more : List SecPend) (po : Nat) (an : Nat),
    (s.elapse dt).Settled ∧ s.sec.pend = ({ path := p, opcode := code, op := op, reply := reply } : SecPend) :: more ∧ Awaits (s.elapse dt) p x q code ∧ op = SecOp.txAn po an) ∧
  (∃ (s : State) (dt : Nat) (p : Path) (x : Session) (q : TReq) (op : SecOp) (code : Nat) (reply : List Nat) (more : List SecPend) (h : Nat) (v : EspSa),
    (s.elapse dt).Settled ∧ s.sec.pend = ({ path := p, opcode := code, op := op, reply := reply } : SecPend) :: more ∧ Awaits (s.elapse dt) p x q code ∧ op = SecOp.esp h v) ∧
  (∃ (s : State) (dt : Nat) (p : Path) (x : Session) (q : TReq) (op : SecOp) (code : Nat) (reply : List Nat) (more : List SecPend) (h : Nat),
    (s.elapse dt).Settled ∧ s.sec.pend = ({ path := p, opcode := code, op := op, reply := reply } : SecPend) :: more ∧ Awaits (s.elapse dt) p x q code ∧ op = SecOp.espDel h) ∧
  (∃ (s : State) (dt : Nat) (p : Path) (x : Session) (q : TReq) (op : SecOp) (code : Nat) (reply : List Nat) (more : List SecPend) (n : Nat) (h : Nat),
    (s.elapse dt).Settled ∧ s.sec.pend = ({ path := p, opcode := code, op := op, reply := reply } : SecPend) :: more ∧ Awaits (s.elapse dt) p x q code ∧ op = SecOp.bind n h) ∧
  (∃ (s : State) (dt : Nat) (p : Path) (x : Session) (q : TReq) (op : SecOp) (code : Nat) (reply : List Nat) (more : List SecPend) (l : List Nat),
    (s.elapse dt).Settled ∧ s.sec.pend = ({ path := p, opcode := code, op := op, reply := reply } : SecPend) :: more ∧ Awaits (s.elapse dt) p x q code ∧ op = SecOp.quota l) :=
  ⟨⟨(ask (linked .service) 0x0B01 8), 3, (.mp 1), (sess 0x0B01 8), (req 0x0B01 8), 0, 1, 2, 0, 0, 0, 0, [],
      issued_of (by decide +kernel), by decide +kernel⟩,
    ⟨(ask (bDev .service) 0x0B01 8), 3, (.mp 1), (sess 0x0B01 8), (req 0x0B01 8), 16, 1, 1, 0, 0, 0, 0, [],
      issued_of (by decide +kernel), by decide +kernel⟩,
    ⟨(ask (linked .service) 0x0B01 10), 3, (.mp 1), (sess 0x0B01 10), (req 0x0B01 10), 23, 1, 1, 2, 5, 1, 50, [5, 0x888E],
      issued_of (by decide +kernel), by decide +kernel⟩,
    ⟨(ask (bDev .service) 0x0B02 12), 3, (.mp 1), (sess 0x0B02 12), (req 0x0B02 12), 16, 4, 3, 2,
      issued_of (by decide +kernel), by decide +kernel⟩,
    ⟨(ask { linked .service with sec.quota := [(0, 0)] } 0x0B02 12), 3, (.mp 1), (sess 0x0B02 12), (req 0x0B02 12), 5, 4, 3, 2,
      issued_of (by decide +kernel), by decide +kernel⟩,
    ⟨(ask (linked .service) 0x0B02 12), 3, (.mp 1), (sess 0x0B02 12), (req 0x0B02 12), 5, 4, 3, 2,
      issued_of (by decide +kernel), by decide +kernel⟩,
    ⟨(ask (bDev .service) 0x0B03 2), 3, (.mp 1), (sess 0x0B03 2), (req 0x0B03 2), 16, 1,
      issued_of (by decide +kernel), by decide +kernel⟩,
    ⟨(ask (linked .service) 0x0B03 2), 3, (.mp 1), (sess 0x0B03 2), (req 0x0B03 2), 5, 1,
      issued_of (by decide +kernel), by decide +kernel⟩,
    ⟨(ask msec 0x0B03 2), 3, (.mp 1), (sess 0x0B03 2), (req 0x0B03 2), 5, 1,
      issued_of (by decide +kernel), by decide +kernel⟩,
    ⟨(ask (bDev .service) 0x0B04 1), 3, (.mp 1), (sess 0x0B04 1), (req 0x0B04 1), 16,
      issued_of (by decide +kernel), by decide +kernel⟩,
    ⟨(ask msec 0x0B04 1), 3, (.mp 1), (sess 0x0B04 1), (req 0x0B04 1), 5,
      issued_of (by decide +kernel), by decide +kernel⟩,
    ⟨(ask (linked .service) 0x0B10 24), 3, (.mp 1), (sess 0x0B10 24), (req 0x0B10 24), 0, 5, 4, 0, (2 ^ 32), 64, 0, 0,
      issued_of (by decide +kernel), by decide +kernel⟩,
    ⟨(ask { linked .service with sec.quota := [(0, 0)] } 0x0B10 24), 3, (.mp 1), (sess 0x0B10 24), (req 0x0B10 24), 0, 5, 4, 1, (2 ^ 32), 64, 0, 0,
      issued_of (by decide +kernel), by decide +kernel⟩,
    ⟨(ask sec0 0x0B10 17), 3, (.mp 1), (sess 0x0B10 17), (req 0x0B10 17), 0, 5, 4, 1, (2 ^ 32), 1, 0, 4500,
      issued_of (by decide +kernel), by decide +kernel⟩,
    ⟨(ask sec0 0x0B11 1), 3, (.mp 1), (sess 0x0B11 1), (req 0x0B11 1), 7,
      issued_of (by decide +kernel), by decide +kernel⟩,
    ⟨(ask sec0 0x0B12 2), 3, (.mp 1), (sess 0x0B12 2), (req 0x0B12 2), 9, 8,
      issued_of (by decide +kernel), by decide +kernel, by decide +kernel, .inr (fun h => h.elim (fun h => absurd h.1 (by decide)) (fun ⟨a, h, _⟩ => by cases h))⟩,
    ⟨(ask sec0 0x0B12 2), 3, (.mp 1), (sess 0x0B12 2), (req 0x0B12 2), 9, 7,
      issued_of (by decide +kernel), by decide +kernel, by decide +kernel, by decide +kernel, .inr ⟨esp7, rfl, rfl, by decide +kernel⟩⟩,
    ⟨(ask sec0 0x0B13 1), 3, (.mp 1), (sess 0x0B13 1), (req 0x0B13 1), 8,
      issued_of (by decide +kernel), by decide +kernel⟩,
    ⟨(ask sec0 0x0B13 1), 3, (.mp 1), (sess 0x0B13 1), (req 0x0B13 1), 7, esp7,
      issued_of (by decide +kernel), by decide +kernel⟩,
    ⟨(ask sec0 0x0B20 16), 3, (.mp 1), (sess 0x0B20 16), (req 0x0B20 16), [16384, 1],
      issued_of (by decide +kernel), by decide +kernel⟩,
    ⟨(ask sec0 0x0B20 16), 3, (.mp 1), (sess 0x0B20 16), (req 0x0B20 16), [16384, 0],
      issued_of (by decide +kernel), by decide +kernel⟩,
    ⟨(linked .service), 3,
      plain_of (by decide +kernel), by decide +kernel⟩,
    ⟨(wait (pend 0x0B01 (.port 5 { validate := 2 })) 0x0B01 11), 3, (.mp 1), (busy 0x0B01 11), (req 0x0B01 11), (.port 5 { validate := 2 }), 0x0B01, [], [], 5, { validate := 2 },
      settled_of (by decide +kernel), by decide +kernel, awaits_of (by decide +kernel), by decide +kernel⟩,
    ⟨(wait (pend 0x0B02 (.sa 5 0 9 2 { key := 1, ssci := 2, salt := 3, pn := 4 })) 0x0B02 12), 3, (.mp 1), (busy 0x0B02 12), (req 0x0B02 12), (.sa 5 0 9 2 { key := 1, ssci := 2, salt := 3, pn := 4 }), 0x0B02, [], [], 5, 0, 9, 2, { key := 1, ssci := 2, salt := 3, pn := 4 },
      settled_of (by decide +kernel), by decide +kernel, awaits_of (by decide +kernel), by decide +kernel⟩,
    ⟨(wait (pend 0x0B03 (.txAn 5 1)) 0x0B03 2), 3, (.mp 1), (busy 0x0B03 2), (req 0x0B03 2), (.txAn 5 1), 0x0B03, [], [], 5, 1,
      settled_of (by decide +kernel), by decide +kernel, awaits_of (by decide +kernel), by decide +kernel⟩,
    ⟨(wait (pend 0x0B10 (.esp 8 esp7)) 0x0B10 24), 3, (.mp 1), (busy 0x0B10 24), (req 0x0B10 24), (.esp 8 esp7), 0x0B10, [], [], 8, esp7,
      settled_of (by decide +kernel), by decide +kernel, awaits_of (by decide +kernel), by decide +kernel⟩,
    ⟨(wait (pend 0x0B11 (.espDel 7)) 0x0B11 1), 3, (.mp 1), (busy 0x0B11 1), (req 0x0B11 1), (.espDel 7), 0x0B11, [], [], 7,
      settled_of (by decide +kernel), by decide +kernel, awaits_of (by decide +kernel), by decide +kernel⟩,
    ⟨(wait (pend 0x0B12 (.bind 9 7)) 0x0B12 2), 3, (.mp 1), (busy 0x0B12 2), (req 0x0B12 2), (.bind 9 7), 0x0B12, [], [], 9, 7,
      settled_of (by decide +kernel), by decide +kernel, awaits_of (by decide +kernel), by decide +kernel⟩,
    ⟨(wait (pend 0x0B20 (.quota [3])) 0x0B20 16), 3, (.mp 1), (busy 0x0B20 16), (req 0x0B20 16), (.quota [3]), 0x0B20, [], [], [3],
      settled_of (by decide +kernel), by decide +kernel, awaits_of (by decide +kernel), by decide +kernel⟩⟩

/-- The premises of `Obligations.StorageCommands`, clause by clause, are met. -/
theorem witness_StorageCommands :
  (∃ (s : State) (dt : Nat) (p : Path) (x : Session) (q : TReq) (fc : Nat) (id : Nat) (b : Nat) (c : Nat) (ts : List (List Nat)),
    fc < 2 ^ 25 ∧ (Issued (s.elapse dt) p x q 2624 (5 + 26 * ts.length) ((s.elapse dt).funcPerm fc)) ∧ (¬((s.elapse dt).isStorage (fnOf fc) = true ∧ (1 ≤ id ∧ id ≤ 64) ∧ (b = 512 ∨ b = 4096) ∧ c ≤ 2 ^ 40 ∧ 1 ≤ ts.length ∧ ts.length ≤ 3 ∧ ts.any targetBad = false))) ∧
  (∃ (s : State) (dt : Nat) (p : Path) (x : Session) (q : TReq) (fc : Nat) (id : Nat) (b : Nat) (c : Nat) (ts : List (List Nat)),
    fc < 2 ^ 25 ∧ (Issued (s.elapse dt) p x q 2624 (5 + 26 * ts.length) ((s.elapse dt).funcPerm fc)) ∧ ((s.elapse dt).isStorage (fnOf fc) = true ∧ (1 ≤ id ∧ id ≤ 64) ∧ (b = 512 ∨ b = 4096) ∧ c ≤ 2 ^ 40 ∧ 1 ≤ ts.length ∧ ts.length ≤ 3 ∧ ts.any targetBad = false) ∧ ((s.elapse dt).nsTaken.contains (nsKey (fnOf fc) id) = true ∨ 1024 ≤ (s.elapse dt).nsTaken.length)) ∧
  (∃ (s : State) (dt : Nat) (p : Path) (x : Session) (q : TReq) (fc : Nat) (id : Nat) (b : Nat) (c : Nat) (ts : List (List Nat)),
    fc < 2 ^ 25 ∧ (Issued (s.elapse dt) p x q 2624 (5 + 26 * ts.length) ((s.elapse dt).funcPerm fc)) ∧ ((s.elapse dt).isStorage (fnOf fc) = true ∧ (1 ≤ id ∧ id ≤ 64) ∧ (b = 512 ∨ b = 4096) ∧ c ≤ 2 ^ 40 ∧ 1 ≤ ts.length ∧ ts.length ≤ 3 ∧ ts.any targetBad = false) ∧ (s.elapse dt).nsTaken.contains (nsKey (fnOf fc) id) = false ∧ (s.elapse dt).nsTaken.length < 1024 ∧ ts.any ((s.elapse dt).targetForeign ((s.elapse dt).fnDom (fnOf fc))) = true) ∧
  (∃ (s : State) (dt : Nat) (p : Path) (x : Session) (q : TReq) (fc : Nat) (id : Nat) (b : Nat) (c : Nat) (ts : List (List Nat)),
    fc < 2 ^ 25 ∧ (Issued (s.elapse dt) p x q 2624 (5 + 26 * ts.length) ((s.elapse dt).funcPerm fc)) ∧ ((s.elapse dt).isStorage (fnOf fc) = true ∧ (1 ≤ id ∧ id ≤ 64) ∧ (b = 512 ∨ b = 4096) ∧ c ≤ 2 ^ 40 ∧ 1 ≤ ts.length ∧ ts.length ≤ 3 ∧ ts.any targetBad = false) ∧ (s.elapse dt).nsTaken.contains (nsKey (fnOf fc) id) = false ∧ (s.elapse dt).nsTaken.length < 1024 ∧ ts.any ((s.elapse dt).targetForeign ((s.elapse dt).fnDom (fnOf fc))) = false) ∧
  (∃ (s : State) (dt : Nat) (p : Path) (x : Session) (q : TReq) (fc : Nat) (id : Nat) (j : Nat) (a : List Nat),
    fc < 2 ^ 25 ∧ (Issued (s.elapse dt) p x q 2625 29 ((s.elapse dt).funcPerm fc)) ∧ ((((s.elapse dt).ns? (nsKey (fnOf fc) id)).bind fun n => n.targets[j]?) = none ∨ ¬(1 ≤ id ∧ id ≤ 64) ∨ targetBad a = true)) ∧
  (∃ (s : State) (dt : Nat) (p : Path) (x : Session) (q : TReq) (fc : Nat) (id : Nat) (j : Nat) (a : List Nat) (n : Ns) (g : NsTarget),
    fc < 2 ^ 25 ∧ (Issued (s.elapse dt) p x q 2625 29 ((s.elapse dt).funcPerm fc)) ∧ (1 ≤ id ∧ id ≤ 64) ∧ targetBad a = false ∧ (s.elapse dt).ns? (nsKey (fnOf fc) id) = some n ∧ n.targets[j]? = some g ∧ g.online = true) ∧
  (∃ (s : State) (dt : Nat) (p : Path) (x : Session) (q : TReq) (fc : Nat) (id : Nat) (j : Nat) (a : List Nat) (n : Ns) (g : NsTarget),
    fc < 2 ^ 25 ∧ (Issued (s.elapse dt) p x q 2625 29 ((s.elapse dt).funcPerm fc)) ∧ (1 ≤ id ∧ id ≤ 64) ∧ targetBad a = false ∧ (s.elapse dt).ns? (nsKey (fnOf fc) id) = some n ∧ n.targets[j]? = some g ∧ g.online = false ∧ (s.elapse dt).targetForeign ((s.elapse dt).fnDom (fnOf fc)) a = true) ∧
  (∃ (s : State) (dt : Nat) (p : Path) (x : Session) (q : TReq) (fc : Nat) (id : Nat) (j : Nat) (a : List Nat) (n : Ns) (g : NsTarget),
    fc < 2 ^ 25 ∧ (Issued (s.elapse dt) p x q 2625 29 ((s.elapse dt).funcPerm fc)) ∧ (1 ≤ id ∧ id ≤ 64) ∧ targetBad a = false ∧ (s.elapse dt).ns? (nsKey (fnOf fc) id) = some n ∧ n.targets[j]? = some g ∧ g.online = false ∧ (s.elapse dt).targetForeign ((s.elapse dt).fnDom (fnOf fc)) a = false) ∧
  (∃ (s : State) (dt : Nat) (p : Path) (x : Session) (q : TReq) (fc : Nat) (id : Nat),
    fc < 2 ^ 25 ∧ id < 256 ∧ (Issued (s.elapse dt) p x q 2626 2 ((s.elapse dt).funcPerm fc)) ∧ (¬(1 ≤ id ∧ id ≤ 64))) ∧
  (∃ (s : State) (dt : Nat) (p : Path) (x : Session) (q : TReq) (fc : Nat) (id : Nat),
    fc < 2 ^ 25 ∧ id < 256 ∧ (Issued (s.elapse dt) p x q 2626 2 ((s.elapse dt).funcPerm fc)) ∧ (1 ≤ id ∧ id ≤ 64)) ∧
  (∃ (s : State) (dt : Nat) (p : Path) (x : Session) (q : TReq) (fc : Nat) (id : Nat),
    fc < 2 ^ 25 ∧ id < 256 ∧ (Issued (s.elapse dt) p x q 2627 2 ((s.elapse dt).funcPerm fc)) ∧ (¬(1 ≤ id ∧ id ≤ 64))) ∧
  (∃ (s : State) (dt : Nat) (p : Path) (x : Session) (q : TReq) (fc : Nat) (id : Nat),
    fc < 2 ^ 25 ∧ id < 256 ∧ (Issued (s.elapse dt) p x q 2627 2 ((s.elapse dt).funcPerm fc)) ∧ (1 ≤ id ∧ id ≤ 64) ∧ (s.elapse dt).ns? (nsKey (fnOf fc) id) = none) ∧
  (∃ (s : State) (dt : Nat) (p : Path) (x : Session) (q : TReq) (fc : Nat) (id : Nat) (n : Ns),
    fc < 2 ^ 25 ∧ id < 256 ∧ (Issued (s.elapse dt) p x q 2627 2 ((s.elapse dt).funcPerm fc)) ∧ (1 ≤ id ∧ id ≤ 64) ∧ (s.elapse dt).ns? (nsKey (fnOf fc) id) = some n) ∧
  (∃ (s : State) (dt : Nat),
    (s.elapse dt).Plain ∧ ((s.elapse dt).rdmaOn = false ∨ List.filter (s.elapse dt).flushReady s.stor.cmds = [])) ∧
  (∃ (s : State) (dt : Nat) (c : StCmd),
    (s.elapse dt).Plain ∧ (s.elapse dt).rdmaOn = true ∧ s.stor.cmds = [c] ∧ c.op = 0 ∧ c.started = false ∧ c.left = [] ∧ (s.elapse dt).ns? c.ns = none) ∧
  (∃ (s : State) (dt : Nat) (c : StCmd) (n : Ns),
    (s.elapse dt).Plain ∧ (s.elapse dt).rdmaOn = true ∧ s.stor.cmds = [c] ∧ c.op = 0 ∧ c.started = false ∧ c.left = [] ∧ (s.elapse dt).ns? c.ns = some n ∧ n.state = 0) ∧
  (∃ (s : State) (dt : Nat) (c : StCmd) (n : Ns),
    (s.elapse dt).Plain ∧ (s.elapse dt).rdmaOn = true ∧ s.stor.cmds = [c] ∧ c.op = 0 ∧ c.started = false ∧ c.left = [] ∧ (s.elapse dt).ns? c.ns = some n ∧ n.state ≠ 0 ∧ n.cap < c.va + c.len) ∧
  (∃ (s : State) (dt : Nat) (c : StCmd) (n : Ns) (g : NsTarget) (y : Qp),
    (s.elapse dt).Plain ∧ (s.elapse dt).rdmaOn = true ∧ s.stor.cmds = [c] ∧ c.op = 0 ∧ c.started = false ∧ c.left = [] ∧ (s.elapse dt).ns? c.ns = some n ∧ n.state ≠ 0 ∧ c.va + c.len ≤ n.cap ∧ n.targets = [g] ∧ g.online = true ∧ (s.elapse dt).qp? g.qp = some y ∧ y.state ≠ QState.error) ∧
  (∃ (s : State) (dt : Nat) (p : Path) (x : Session) (q : TReq) (fc : Nat) (id : Nat) (op : SecOp) (code : Nat) (more : List SecPend) (v : Ns),
    (s.elapse dt).Settled ∧ s.sec.pend = ({ path := p, opcode := code, op := op } : SecPend) :: more ∧ Awaits (s.elapse dt) p x q code ∧ op = SecOp.nsCreate (nsKey (fnOf fc) id) v ∧ ((s.elapse dt).ns? (nsKey (fnOf fc) id)).isSome = true) ∧
  (∃ (s : State) (dt : Nat) (p : Path) (x : Session) (q : TReq) (fc : Nat) (id : Nat) (op : SecOp) (code : Nat) (more : List SecPend) (v : Ns) (g : NsTarget) (n : Nat),
    (s.elapse dt).Settled ∧ s.sec.pend = ({ path := p, opcode := code, op := op } : SecPend) :: more ∧ Awaits (s.elapse dt) p x q code ∧ op = SecOp.nsCreate (nsKey (fnOf fc) id) v ∧ (s.elapse dt).ns? (nsKey (fnOf fc) id) = none ∧ v.targets = [g] ∧ ({ s.elapse dt with sec := ({ (s.elapse dt).sec with pend := more } : Sec) } : State).newQpn ((s.elapse dt).fnDom (nsFn (nsKey (fnOf fc) id))) = Except.ok n) ∧
  (∃ (s : State) (dt : Nat) (p : Path) (x : Session) (q : TReq) (fc : Nat) (id : Nat) (op : SecOp) (code : Nat) (more : List SecPend) (v : Ns) (g : NsTarget) (e : Nat),
    (s.elapse dt).Settled ∧ s.sec.pend = ({ path := p, opcode := code, op := op } : SecPend) :: more ∧ Awaits (s.elapse dt) p x q code ∧ op = SecOp.nsCreate (nsKey (fnOf fc) id) v ∧ (s.elapse dt).ns? (nsKey (fnOf fc) id) = none ∧ v.targets = [g] ∧ ({ s.elapse dt with sec := ({ (s.elapse dt).sec with pend := more } : Sec) } : State).newQpn ((s.elapse dt).fnDom (nsFn (nsKey (fnOf fc) id))) = Except.error e) ∧
  (∃ (s : State) (dt : Nat) (p : Path) (x : Session) (q : TReq) (fc : Nat) (id : Nat) (op : SecOp) (code : Nat) (more : List SecPend) (n : Ns) (j : Nat) (v : NsTarget) (g : NsTarget),
    (s.elapse dt).Settled ∧ s.sec.pend = ({ path := p, opcode := code, op := op } : SecPend) :: more ∧ Awaits (s.elapse dt) p x q code ∧ op = SecOp.nsTarget (nsKey (fnOf fc) id) j v ∧ (s.elapse dt).ns? (nsKey (fnOf fc) id) = some n ∧ n.targets[j]? = some g ∧ g.online = true) ∧
  (∃ (s : State) (dt : Nat) (p : Path) (x : Session) (q : TReq) (fc : Nat) (id : Nat) (op : SecOp) (code : Nat) (more : List SecPend) (n : Ns) (j : Nat) (v : NsTarget) (g : NsTarget) (y : Qp),
    (s.elapse dt).Settled ∧ s.sec.pend = ({ path := p, opcode := code, op := op } : SecPend) :: more ∧ Awaits (s.elapse dt) p x q code ∧ op = SecOp.nsTarget (nsKey (fnOf fc) id) j v ∧ (s.elapse dt).ns? (nsKey (fnOf fc) id) = some n ∧ n.targets[j]? = some g ∧ g.online = false ∧ (s.elapse dt).qp? g.qp = some y ∧ y.reqs = [] ∧ y.msg = none) ∧
  (∃ (s : State) (dt : Nat) (p : Path) (x : Session) (q : TReq) (fc : Nat) (id : Nat) (op : SecOp) (code : Nat) (more : List SecPend),
    (s.elapse dt).Settled ∧ s.sec.pend = ({ path := p, opcode := code, op := op } : SecPend) :: more ∧ Awaits (s.elapse dt) p x q code ∧ op = SecOp.nsDelete (nsKey (fnOf fc) id) ∧ s.stor.ended = [] ∧ (s.elapse dt).ns? (nsKey (fnOf fc) id) = none) ∧
  (∃ (s : State) (dt : Nat) (p : Path) (x : Session) (q : TReq) (fc : Nat) (id : Nat) (op : SecOp) (code : Nat) (more : List SecPend) (n : Ns),
    (s.elapse dt).Settled ∧ s.sec.pend = ({ path := p, opcode := code, op := op } : SecPend) :: more ∧ Awaits (s.elapse dt) p x q code ∧ op = SecOp.nsDelete (nsKey (fnOf fc) id) ∧ s.stor.ended = [] ∧ (s.elapse dt).ns? (nsKey (fnOf fc) id) = some n ∧ n.targets = [] ∧ ((s.stor.cmds.all fun c => c.ns != nsKey (fnOf fc) id) = true)) ∧
  (∃ (s : State) (dt : Nat) (p : Path) (x : Session) (q : TReq) (fc : Nat) (id : Nat) (op : SecOp) (code : Nat) (more : List SecPend) (n : Ns) (g : NsTarget) (y : Qp),
    (s.elapse dt).Settled ∧ s.sec.pend = ({ path := p, opcode := code, op := op } : SecPend) :: more ∧ Awaits (s.elapse dt) p x q code ∧ op = SecOp.nsDelete (nsKey (fnOf fc) id) ∧ s.stor.ended = [] ∧ (s.elapse dt).ns? (nsKey (fnOf fc) id) = some n ∧ n.targets = [g] ∧ ((s.stor.cmds.all fun c => c.ns != nsKey (fnOf fc) id) = true) ∧ (s.elapse dt).qp? g.qp = some y ∧ y.reqs = [] ∧ y.msg = none) ∧
  (∃ (s : State) (dt : Nat) (p : Path) (x : Session) (q : TReq) (fc : Nat) (id : Nat) (op : SecOp) (code : Nat) (more : List SecPend) (n : Ns) (c : StCmd),
    (s.elapse dt).Settled ∧ s.sec.pend = ({ path := p, opcode := code, op := op } : SecPend) :: more ∧ Awaits (s.elapse dt) p x q code ∧ op = SecOp.nsDelete (nsKey (fnOf fc) id) ∧ s.stor.ended = [] ∧ (s.elapse dt).ns? (nsKey (fnOf fc) id) = some n ∧ n.targets = [] ∧ s.stor.cmds = [c] ∧ c.ns = nsKey (fnOf fc) id) :=
  ⟨⟨(ask stor1 0x0A40 31), 3, (.mp 1), (sess 0x0A40 31), (req 0x0A40 31), 1, 65, 512, 4096, [tgt],
      by decide +kernel, issued_of (by decide +kernel), by decide +kernel⟩,
    ⟨(ask { stor1 with stor.nss := [(nsKey 4096 64, ns1)] } 0x0A40 31), 3, (.mp 1), (sess 0x0A40 31), (req 0x0A40 31), 1, 64, 512, 4096, [tgt],
      by decide +kernel, issued_of (by decide +kernel), by decide +kernel⟩,
    ⟨(ask stor1 0x0A40 31), 3, (.mp 1), (sess 0x0A40 31), (req 0x0A40 31), 1, 64, 512, 4096, [tgt.set 0 0],
      by decide +kernel, issued_of (by decide +kernel), by decide +kernel⟩,
    ⟨(ask stor1 0x0A40 31), 3, (.mp 1), (sess 0x0A40 31), (req 0x0A40 31), 1, 64, 512, (2 ^ 40), [tgt],
      by decide +kernel, issued_of (by decide +kernel), by decide +kernel⟩,
    ⟨(ask { stor1 with stor.nss := [(nsKey 4096 1, ns1)] } 0x0A41 29), 3, (.mp 1), (sess 0x0A41 29), (req 0x0A41 29), 1, 1, 1, tgt,
      by decide +kernel, issued_of (by decide +kernel), by decide +kernel⟩,
    ⟨(ask { stor1 with stor.nss := [(nsKey 4096 1, ns1)] } 0x0A41 29), 3, (.mp 1), (sess 0x0A41 29), (req 0x0A41 29), 1, 1, 0, tgt, ns1, { targetOf tgt with online := true, qp := 9 },
      by decide +kernel, issued_of (by decide +kernel), by decide +kernel⟩,
    ⟨(ask { stor1 with stor.nss := [(nsKey 4096 1, { ns1 with targets := [targetOf tgt] })] } 0x0A41 29), 3, (.mp 1), (sess 0x0A41 29), (req 0x0A41 29), 1, 1, 0, (tgt.set 0 0), { ns1 with targets := [targetOf tgt] }, (targetOf tgt),
      by decide +kernel, issued_of (by decide +kernel), by decide +kernel⟩,
    ⟨(ask { stor1 with stor.nss := [(nsKey 4096 1, { ns1 with targets := [targetOf tgt] })] } 0x0A41 29), 3, (.mp 1), (sess 0x0A41 29), (req 0x0A41 29), 1, 1, 0, tgt, { ns1 with targets := [targetOf tgt] }, (targetOf tgt),
      by decide +kernel, issued_of (by decide +kernel), by decide +kernel⟩,
    ⟨(ask stor1 0x0A42 2), 3, (.mp 1), (sess 0x0A42 2), (req 0x0A42 2), 1, 0,
      by decide +kernel, by decide +kernel, issued_of (by decide +kernel), by decide +kernel⟩,
    ⟨(ask stor1 0x0A42 2), 3, (.mp 1), (sess 0x0A42 2), (req 0x0A42 2), 1, 1,
      by decide +kernel, by decide +kernel, issued_of (by decide +kernel), by decide +kernel⟩,
    ⟨(ask stor1 0x0A43 2), 3, (.mp 1), (sess 0x0A43 2), (req 0x0A43 2), 1, 65,
      by decide +kernel, by decide +kernel, issued_of (by decide +kernel), by decide +kernel⟩,
    ⟨(ask stor1 0x0A43 2), 3, (.mp 1), (sess 0x0A43 2), (req 0x0A43 2), 1, 64,
      by decide +kernel, by decide +kernel, issued_of (by decide +kernel), by decide +kernel⟩,
    ⟨(ask { stor1 with stor.nss := [(nsKey 4096 1, ns1)] } 0x0A43 2), 3, (.mp 1), (sess 0x0A43 2), (req 0x0A43 2), 1, 1, ns1,
      by decide +kernel, by decide +kernel, issued_of (by decide +kernel), by decide +kernel⟩,
    ⟨stor1, 3,
      plain_of (by decide +kernel), by decide +kernel⟩,
    ⟨{ stor1 with stor.cmds := [flush0] }, 3, flush0,
      plain_of (by decide +kernel), by decide +kernel⟩,
    ⟨{ stor1 with stor.cmds := [flush0], stor.nss := [(nsKey 4096 1, { ns1 with state := 0 })] }, 3, flush0, { ns1 with state := 0 },
      plain_of (by decide +kernel), by decide +kernel⟩,
    ⟨{ stor1 with stor.cmds := [{ flush0 with va := 4097 }], stor.nss := [(nsKey 4096 1, ns1)] }, 3, { flush0 with va := 4097 }, ns1,
      plain_of (by decide +kernel), by decide +kernel⟩,
    ⟨{ stor1 with stor.cmds := [flush0], stor.nss := [(nsKey 4096 1, ns1)], rdma.qps := [(9, { qp9 with fn := 4096, dom := 1 })] }, 3, flush0, ns1, { targetOf tgt with online := true, qp := 9 }, { qp9 with fn := 4096, dom := 1 },
      plain_of (by decide +kernel), by decide +kernel⟩,
    ⟨(wait { stor1 with sec.pend := [chg 0x0A40 (.nsCreate (nsKey 4096 1) { ns1 with targets := [targetOf tgt] })], stor.nss := [((nsKey 4096 1), ns1)] } 0x0A40 31), 3, (.mp 1), (busy 0x0A40 31), (req 0x0A40 31), 1, 1, (.nsCreate (nsKey 4096 1) { ns1 with targets := [targetOf tgt] }), 0x0A40, [], { ns1 with targets := [targetOf tgt] },
      settled_of (by decide +kernel), by decide +kernel, awaits_of (by decide +kernel), by decide +kernel⟩,
    ⟨(wait { stor1 with sec.pend := [chg 0x0A40 (.nsCreate (nsKey 4096 1) { ns1 with targets := [targetOf tgt] })], rdma.qpRange := [(1, (5, 1))] } 0x0A40 31), 3, (.mp 1), (busy 0x0A40 31), (req 0x0A40 31), 1, 1, (.nsCreate (nsKey 4096 1) { ns1 with targets := [targetOf tgt] }), 0x0A40, [], { ns1 with targets := [targetOf tgt] }, (targetOf tgt), 5,
      settled_of (by decide +kernel), by decide +kernel, awaits_of (by decide +kernel), by decide +kernel, by decide +kernel, by decide +kernel, rfl⟩,
    ⟨(wait { stor1 with sec.pend := [chg 0x0A40 (.nsCreate (nsKey 4096 1) { ns1 with targets := [targetOf tgt] })], rdma.qpRange := [(1, (5, 0))] } 0x0A40 31), 3, (.mp 1), (busy 0x0A40 31), (req 0x0A40 31), 1, 1, (.nsCreate (nsKey 4096 1) { ns1 with targets := [targetOf tgt] }), 0x0A40, [], { ns1 with targets := [targetOf tgt] }, (targetOf tgt), 0x02000103,
      settled_of (by decide +kernel), by decide +kernel, awaits_of (by decide +kernel), by decide +kernel, by decide +kernel, by decide +kernel, rfl⟩,
    ⟨(wait { stor1 with sec.pend := [chg 0x0A41 (.nsTarget (nsKey 4096 1) 0 (targetOf tgt))], stor.nss := [((nsKey 4096 1), ns1)] } 0x0A41 29), 3, (.mp 1), (busy 0x0A41 29), (req 0x0A41 29), 1, 1, (.nsTarget (nsKey 4096 1) 0 (targetOf tgt)), 0x0A41, [], ns1, 0, (targetOf tgt), { targetOf tgt with online := true, qp := 9 },
      settled_of (by decide +kernel), by decide +kernel, awaits_of (by decide +kernel), by decide +kernel⟩,
    ⟨(wait { stor1 with sec.pend := [chg 0x0A41 (.nsTarget (nsKey 4096 1) 0 (targetOf tgt))], stor.nss := [((nsKey 4096 1), { ns1 with state := 0, targets := [{ targetOf tgt with qp := 9 }] })], rdma.qps := [(9, { qp9 with fn := 4096, dom := 1, state := .error, expPsn := 3 })] } 0x0A41 29), 3, (.mp 1), (busy 0x0A41 29), (req 0x0A41 29), 1, 1, (.nsTarget (nsKey 4096 1) 0 (targetOf tgt)), 0x0A41, [], { ns1 with state := 0, targets := [{ targetOf tgt with qp := 9 }] }, 0, (targetOf tgt), { targetOf tgt with qp := 9 }, { qp9 with fn := 4096, dom := 1, state := .error, expPsn := 3 },
      settled_of (by decide +kernel), by decide +kernel, awaits_of (by decide +kernel), by decide +kernel⟩,
    ⟨(wait { stor1 with sec.pend := [chg 0x0A42 (.nsDelete (nsKey 4096 1))] } 0x0A42 2), 3, (.mp 1), (busy 0x0A42 2), (req 0x0A42 2), 1, 1, (.nsDelete (nsKey 4096 1)), 0x0A42, [],
      settled_of (by decide +kernel), by decide +kernel, awaits_of (by decide +kernel), by decide +kernel⟩,
    ⟨(wait { stor1 with sec.pend := [chg 0x0A42 (.nsDelete (nsKey 4096 1))], stor.nss := [((nsKey 4096 1), { ns1 with targets := [] })] } 0x0A42 2), 3, (.mp 1), (busy 0x0A42 2), (req 0x0A42 2), 1, 1, (.nsDelete (nsKey 4096 1)), 0x0A42, [], { ns1 with targets := [] },
      settled_of (by decide +kernel), by decide +kernel, awaits_of (by decide +kernel), by decide +kernel⟩,
    ⟨(wait { stor1 with sec.pend := [chg 0x0A42 (.nsDelete (nsKey 4096 1))], stor.nss := [((nsKey 4096 1), ns1)], rdma.qps := [(9, { qp9 with fn := 4096, dom := 1 })] } 0x0A42 2), 3, (.mp 1), (busy 0x0A42 2), (req 0x0A42 2), 1, 1, (.nsDelete (nsKey 4096 1)), 0x0A42, [], ns1, { targetOf tgt with online := true, qp := 9 }, { qp9 with fn := 4096, dom := 1 },
      settled_of (by decide +kernel), by decide +kernel, awaits_of (by decide +kernel), by decide +kernel⟩,
    ⟨(wait { stor1 with sec.pend := [chg 0x0A42 (.nsDelete (nsKey 4096 1))], stor.nss := [((nsKey 4096 1), { ns1 with targets := [] })], stor.cmds := [flush0] } 0x0A42 2), 3, (.mp 1), (busy 0x0A42 2), (req 0x0A42 2), 1, 1, (.nsDelete (nsKey 4096 1)), 0x0A42, [], { ns1 with targets := [] }, flush0,
      settled_of (by decide +kernel), by decide +kernel, awaits_of (by decide +kernel), by decide +kernel⟩⟩

set_option Elab.async false
set_option maxRecDepth 4000
/-- The premises of `Obligations.ProvisioningCommands`, clause by clause, are met. -/
theorem witness_ProvisioningCommands :
  (∃ (s : State) (dt : Nat) (p : Path) (x : Session) (q : TReq) (a : Nat),
    Issued (s.elapse dt) p x q 3585 2 Perm.any ∧ badAddr p a = true) ∧
  (∃ (s : State) (dt : Nat) (p : Path) (x : Session) (q : TReq) (a : Nat) (n : Nat),
    Issued (s.elapse dt) p x q 3585 2 Perm.any ∧ badAddr p a = false ∧ n ≠ 336) ∧
  (∃ (s : State) (dt : Nat) (p : Path) (x : Session) (q : TReq) (a : Nat) (n : Nat),
    Issued (s.elapse dt) p x q 3585 2 Perm.any ∧ badAddr p a = false ∧ n = 336 ∧ s.glb.mode ≠ Mode.factory) ∧
  (∃ (s : State) (dt : Nat) (p : Path) (x : Session) (q : TReq) (a : Nat) (n : Nat),
    Issued (s.elapse dt) p x q 3585 2 Perm.any ∧ badAddr p a = false ∧ n = 336 ∧ s.glb.mode = Mode.factory) ∧
  (∃ (s : State) (dt : Nat) (p : Path) (x : Session) (q : TReq),
    Issued (s.elapse dt) p x q 3586 0 Perm.any ∧ s.glb.mode ≠ Mode.factory) ∧
  (∃ (s : State) (dt : Nat) (p : Path) (x : Session) (q : TReq) (r : Nat),
    Issued (s.elapse dt) p x q 3586 0 Perm.any ∧ s.glb.mode = Mode.factory ∧ (s.elapse dt).mapFails s.fuse.staged = some r) ∧
  (∃ (s : State) (dt : Nat) (p : Path) (x : Session) (q : TReq),
    Issued (s.elapse dt) p x q 3586 0 Perm.any ∧ s.glb.mode = Mode.factory ∧ (s.elapse dt).mapFails s.fuse.staged = none) ∧
  (∃ (s : State) (dt : Nat) (p : Path) (x : Session) (q : TReq) (crc : Nat),
    Issued (s.elapse dt) p x q 3587 1 Perm.any ∧ crc < 2 ^ 32 ∧ crc ≠ mapCrcOf s.fuse.staged) ∧
  (∃ (s : State) (dt : Nat) (p : Path) (x : Session) (q : TReq) (crc : Nat),
    Issued (s.elapse dt) p x q 3587 1 Perm.any ∧ crc < 2 ^ 32 ∧ crc = mapCrcOf s.fuse.staged ∧ s.glb.mode ≠ Mode.factory) ∧
  (∃ (s : State) (dt : Nat) (p : Path) (x : Session) (q : TReq) (crc : Nat) (r : Nat),
    Issued (s.elapse dt) p x q 3587 1 Perm.any ∧ crc < 2 ^ 32 ∧ crc = mapCrcOf s.fuse.staged ∧ s.glb.mode = Mode.factory ∧ (s.elapse dt).mapFails s.fuse.staged = some r) ∧
  (∃ (s : State) (dt : Nat) (p : Path) (x : Session) (q : TReq) (crc : Nat),
    Issued (s.elapse dt) p x q 3587 1 Perm.any ∧ crc < 2 ^ 32 ∧ crc = mapCrcOf s.fuse.staged ∧ s.glb.mode = Mode.factory ∧ (s.elapse dt).mapFails s.fuse.staged = none ∧ (s.fuse.burning.isSome = true ∨ (s.elapse dt).burnBlocked s.fuse.staged = true)) ∧
  (∃ (s : State) (dt : Nat) (p : Path) (x : Session) (q : TReq) (crc : Nat),
    Issued (s.elapse dt) p x q 3587 1 Perm.any ∧ crc < 2 ^ 32 ∧ crc = mapCrcOf s.fuse.staged ∧ s.glb.mode = Mode.factory ∧ (s.elapse dt).mapFails s.fuse.staged = none ∧ s.fuse.burning = none ∧ (s.elapse dt).burnBlocked s.fuse.staged = false) ∧
  (∃ (s : State) (dt : Nat),
    (s.elapse dt).Plain ∧ s.fuse.burning = none) ∧
  (∃ (s : State) (dt : Nat) (p : Path) (x : Session) (q : TReq) (m : Bytes),
    (s.elapse dt).Settled ∧ s.fuse.burning = some (p, m) ∧ Awaits (s.elapse dt) p x q 3587) ∧
  (∃ (s : State) (dt : Nat) (p : Path) (x : Session) (q : TReq) (d : Nat) (r : Nat),
    Issued (s.elapse dt) p x q 3588 2 Perm.any ∧ d ≤ 15 ∧ r ≤ 15 ∧ ((s.elapse dt).prov = false ∨ ∀ (i : Nat), i < 4 → (fun i => r.testBit i && (s.elapse dt).debugOpen d i) i = false)) ∧
  (∃ (s : State) (dt : Nat) (p : Path) (x : Session) (q : TReq) (d : Nat) (r : Nat),
    Issued (s.elapse dt) p x q 3588 2 Perm.any ∧ d ≤ 15 ∧ r ≤ 15 ∧ (s.elapse dt).prov = true ∧ (∃ i, i < 4 ∧ (fun i => r.testBit i && (s.elapse dt).debugOpen d i) i = true) ∧ (d ≠ 0 ∨ (fun i => r.testBit i && (s.elapse dt).debugOpen d i) 2 = false)) ∧
  (∃ (s : State) (dt : Nat) (p : Path) (x : Session) (q : TReq) (d : Nat) (r : Nat),
    Issued (s.elapse dt) p x q 3588 2 Perm.any ∧ d ≤ 15 ∧ r ≤ 15 ∧ (s.elapse dt).prov = true ∧ d = 0 ∧ ((fun i => r.testBit i && (s.elapse dt).debugOpen d i) 2 = true)) ∧
  (∃ (s : State) (dt : Nat) (p : Path) (x : Session) (q : TReq),
    Issued (s.elapse dt) p x q 3589 0 Perm.any ∧ (s.elapse dt).lockFuse = false) ∧
  (∃ (s : State) (dt : Nat) (p : Path) (x : Session) (q : TReq),
    Issued (s.elapse dt) p x q 3589 0 Perm.any ∧ (s.elapse dt).lockFuse = true) ∧
  (∃ (s : State) (dt : Nat) (p : Path) (x : Session) (q : TReq) (d : Nat),
    Issued (s.elapse dt) p x q 3590 1 (Perm.owner d) ∧ d ≤ 15) ∧
  (∃ (s : State) (dt : Nat) (p : Path) (x : Session) (q : TReq) (po : Nat),
    Issued (s.elapse dt) p x q 3591 1 Perm.any ∧ ((s.elapse dt).portCount ≤ po ∨ (s.elapse dt).portShared po = false ∨ ((s.elapse dt).portMask po).testBit x.dom = false)) ∧
  (∃ (s : State) (dt : Nat) (p : Path) (x : Session) (q : TReq) (po : Nat),
    Issued (s.elapse dt) p x q 3591 1 Perm.any ∧ po < (s.elapse dt).portCount ∧ (s.elapse dt).portShared po = true ∧ ((s.elapse dt).portMask po).testBit x.dom = true) ∧
  (∃ (s : State) (dt : Nat),
    (s.elapse dt).Plain ∧ ((s.elapse dt).firmware = false ∨ (s.elapse dt).now % grid 30 ≠ 0 ∨ (s.elapse dt).lockFuse = false)) ∧
  (∃ (s : State) (dt : Nat),
    (s.elapse dt).Plain ∧ (s.elapse dt).firmware = true ∧ (s.elapse dt).now % grid 30 = 0 ∧ (s.elapse dt).lockFuse = true ∧ (s.elapse dt).mapGood = true) ∧
  (∃ (s : State) (dt : Nat),
    (s.elapse dt).Plain ∧ (s.elapse dt).firmware = true ∧ (s.elapse dt).now % grid 30 = 0 ∧ (s.elapse dt).lockFuse = true ∧ (s.elapse dt).mapGood = false ∧ (s.elapse dt).glb.mode ≠ Mode.lockdown) ∧
  (∃ (s : State) (dt : Nat) (m : Bytes),
    (s.elapse dt).mapFails m = none) :=
  ⟨⟨(ask (inMode .factory) 0x0E01 2), 3, (.mp 1), (sess 0x0E01 2), (req 0x0E01 2), (2 ^ 63 + 2 ^ 20),
      issued_of (by decide +kernel), by decide +kernel⟩,
    ⟨(ask (inMode .factory) 0x0E01 2), 3, (.mp 1), (sess 0x0E01 2), (req 0x0E01 2), 64, 335,
      issued_of (by decide +kernel), by decide +kernel⟩,
    ⟨(ask (inMode .service) 0x0E01 2), 3, (.mp 1), (sess 0x0E01 2), (req 0x0E01 2), 64, 336,
      issued_of (by decide +kernel), by decide +kernel⟩,
    ⟨(ask (inMode .factory) 0x0E01 2), 3, (.mp 1), (sess 0x0E01 2), (req 0x0E01 2), 64, 336,
      issued_of (by decide +kernel), by decide +kernel⟩,
    ⟨(ask (inMode .service) 0x0E02 0), 3, (.mp 1), (sess 0x0E02 0), (req 0x0E02 0),
      issued_of (by decide +kernel), by decide +kernel⟩,
    ⟨(ask (stagedS []) 0x0E02 0), 3, (.mp 1), (sess 0x0E02 0), (req 0x0E02 0), 1,
      issued_of (by decide +kernel), by decide +kernel⟩,
    ⟨(ask (stagedS map1) 0x0E02 0), 3, (.mp 1), (sess 0x0E02 0), (req 0x0E02 0),
      issued_of (by decide +kernel), by decide +kernel⟩,
    (by
      by_cases h : mapCrcOf (ask (stagedS map1) 0x0E03 1).fuse.staged = 5
      · exact ⟨ask (stagedS map1) 0x0E03 1, 3, .mp 1, sess 0x0E03 1, req 0x0E03 1, 6, issued_of (by decide +kernel), by decide +kernel,
          fun e => absurd (e.trans h) (by decide)⟩
      · exact ⟨ask (stagedS map1) 0x0E03 1, 3, .mp 1, sess 0x0E03 1, req 0x0E03 1, 5, issued_of (by decide +kernel), by decide +kernel,
          fun e => h e.symm⟩),
    ⟨(ask { linked .service with fuse.staged := map2 } 0x0E03 1), 3, (.mp 1), (sess 0x0E03 1), (req 0x0E03 1), (mapCrcOf (ask { linked .service with fuse.staged := map2 } 0x0E03 1).fuse.staged),
      issued_of (by decide +kernel), crc_lt _, rfl, by decide +kernel⟩,
    ⟨(ask (stagedS (zeros 336)) 0x0E03 1), 3, (.mp 1), (sess 0x0E03 1), (req 0x0E03 1), (mapCrcOf (ask (stagedS (zeros 336)) 0x0E03 1).fuse.staged), 1,
      issued_of (by decide +kernel), crc_lt _, rfl, by decide +kernel⟩,
    ⟨(ask { stagedS map1 with fuse.burning := some (.mp 2, map1) } 0x0E03 1), 3, (.mp 1), (sess 0x0E03 1), (req 0x0E03 1), (mapCrcOf (ask { stagedS map1 with fuse.burning := some (.mp 2, map1) } 0x0E03 1).fuse.staged),
      issued_of (by decide +kernel), crc_lt _, rfl, by decide +kernel, by decide +kernel, .inl rfl⟩,
    ⟨(ask (stagedS map1) 0x0E03 1), 3, (.mp 1), (sess 0x0E03 1), (req 0x0E03 1), (mapCrcOf (ask (stagedS map1) 0x0E03 1).fuse.staged),
      issued_of (by decide +kernel), crc_lt _, rfl, by decide +kernel, by decide +kernel, by decide +kernel, burn_free rfl rfl⟩,
    ⟨(inMode .factory), 3,
      plain_of (by decide +kernel), by decide +kernel⟩,
    ⟨(wait { stagedS map1 with fuse.burning := some (.mp 1, map1) } 0x0E03 1), 3, (.mp 1), (busy 0x0E03 1), (req 0x0E03 1), map1,
      settled_of (by decide +kernel), by decide +kernel, awaits_of (by decide +kernel)⟩,
    ⟨(ask (stagedS map1) 0x0E04 2), 3, (.mp 1), (sess 0x0E04 2), (req 0x0E04 2), 15, 15,
      issued_of (by decide +kernel), by decide +kernel⟩,
    ⟨(ask { mapped .service with cores.cores := [(1, { state := .running, threads := [(2, thr1)] })], dbg.halted := [(10, (1, 16))], dbg.steps := [(10, (1, 4))], dbg.bps := [(10, {})] } 0x0E04 2), 3, (.mp 1), (sess 0x0E04 2), (req 0x0E04 2), 1, 2,
      issued_of (by decide +kernel), by decide +kernel⟩,
    ⟨(ask (mapped .service) 0x0E04 2), 3, (.mp 1), (sess 0x0E04 2), (req 0x0E04 2), 0, 4,
      issued_of (by decide +kernel), by decide +kernel⟩,
    ⟨(ask (inMode .factory) 0x0E05 0), 3, (.mp 1), (sess 0x0E05 0), (req 0x0E05 0),
      issued_of (by decide +kernel), by decide +kernel⟩,
    ⟨(ask (mapped .service) 0x0E05 0), 3, (.mp 1), (sess 0x0E05 0), (req 0x0E05 0),
      issued_of (by decide +kernel), by decide +kernel⟩,
    ⟨(ask (mapped .service) 0x0E06 1), 3, (.mp 1), (sess 0x0E06 1), (req 0x0E06 1), 1,
      issued_of (by decide +kernel), by decide +kernel⟩,
    ⟨(ask (mapped .service) 0x0E07 1), 3, (.mp 1), (sess 0x0E07 1), (req 0x0E07 1), 0,
      issued_of (by decide +kernel), by decide +kernel⟩,
    ⟨(ask { mapped .service with fuse.live := ((map2.set 0x90 0xD0).set 0x91 0), tm.queues := [(9, { cfg := { kind := 1, port := 0 }, counters := [1, 2, 3, 4, 5, 6, 7, 8, 9] })] } 0x0E07 1), 3, (.mp 1), (sess 0x0E07 1), (req 0x0E07 1), 0,
      issued_of (by decide +kernel), by decide +kernel⟩,
    ⟨{ mapped .service with now := grid 30 }, 3,
      plain_of (by decide +kernel), by decide +kernel⟩,
    ⟨{ linked .service with fuse.map := [1], fuse.mapCrc := mapCrcOf [1] }, 0,
      plain_of (by decide +kernel), by decide +kernel, by decide +kernel, by decide +kernel, map_good (congrArg mapCrcOf rfl)⟩,
    (by
      by_cases h : mapCrcOf [1#8] = 5
      · exact ⟨{ linked .service with fuse.map := [1], fuse.mapCrc := 6 }, 0, plain_of (by decide +kernel), by decide +kernel, by decide +kernel,
          by decide +kernel, map_bad (fun e => absurd (h.symm.trans e) (by decide)), by decide +kernel⟩
      · exact ⟨{ linked .service with fuse.map := [1], fuse.mapCrc := 5 }, 0, plain_of (by decide +kernel), by decide +kernel, by decide +kernel,
          by decide +kernel, map_bad h, by decide +kernel⟩),
    ⟨(inMode .factory), 3, map1,
      by decide +kernel⟩⟩

set_option Elab.async false
set_option maxRecDepth 4000
/-- The premises of `Obligations.TosenArrives`, clause by clause, are met. -/
theorem witness_TosenArrives :
  (∃ (s : State) (dt : Nat),
    (s.elapse dt).Plain ∧ s.ports.mp.up = false) ∧
  (∃ (s : State) (dt : Nat) (frame : Bytes),
    (s.elapse dt).Settled ∧ s.ports.mp.up = true ∧ (¬((64 ≤ List.length frame ∧ List.length frame ≤ ((s.elapse dt).pt 24).cfg.maxFrame ∧ List.drop (List.length frame - 4) frame = le (fcs (List.take (List.length frame - 4) frame)) 4) ∧ s.firmware = true ∧ ofBe (slice frame 0 6) = s.fuse.mpMac ∧ ofBe (slice frame 12 2) = 34997 ∧ ofBe (slice frame 14 2) = 21587 ∧ ofLe (slice frame 16 1) = 1))) ∧
  (∃ (s : State) (dt : Nat) (frame : Bytes),
    (s.elapse dt).Settled ∧ s.ports.mp.up = true ∧ ((64 ≤ List.length frame ∧ List.length frame ≤ ((s.elapse dt).pt 24).cfg.maxFrame ∧ List.drop (List.length frame - 4) frame = le (fcs (List.take (List.length frame - 4) frame)) 4) ∧ s.firmware = true ∧ ofBe (slice frame 0 6) = s.fuse.mpMac ∧ ofBe (slice frame 12 2) = 34997 ∧ ofBe (slice frame 14 2) = 21587 ∧ ofLe (slice frame 16 1) = 1) ∧ (¬(s.glb.mode = Mode.factory ∨ s.tosen.allow.contains (ofBe (slice frame 6 6)) = true))) ∧
  (∃ (s : State) (dt : Nat) (frame : Bytes),
    (s.elapse dt).Settled ∧ s.ports.mp.up = true ∧ ((64 ≤ List.length frame ∧ List.length frame ≤ ((s.elapse dt).pt 24).cfg.maxFrame ∧ List.drop (List.length frame - 4) frame = le (fcs (List.take (List.length frame - 4) frame)) 4) ∧ s.firmware = true ∧ ofBe (slice frame 0 6) = s.fuse.mpMac ∧ ofBe (slice frame 12 2) = 34997 ∧ ofBe (slice frame 14 2) = 21587 ∧ ofLe (slice frame 16 1) = 1) ∧ (s.glb.mode = Mode.factory ∨ s.tosen.allow.contains (ofBe (slice frame 6 6)) = true) ∧ (¬(ofLe (slice frame 17 1) ≤ 3 ∧ 8 ≤ ofBe (slice frame 20 2) ∧ ofBe (slice frame 20 2) ≤ 1488 ∧ ((ofLe (slice frame 17 1)).testBit 1 = true ∨ ofBe (slice frame 20 2) = 1488) ∧ 26 + ofBe (slice frame 20 2) ≤ List.length frame))) ∧
  (∃ (s : State) (dt : Nat) (frame : Bytes),
    (s.elapse dt).Settled ∧ s.ports.mp.up = true ∧ ((64 ≤ List.length frame ∧ List.length frame ≤ ((s.elapse dt).pt 24).cfg.maxFrame ∧ List.drop (List.length frame - 4) frame = le (fcs (List.take (List.length frame - 4) frame)) 4) ∧ s.firmware = true ∧ ofBe (slice frame 0 6) = s.fuse.mpMac ∧ ofBe (slice frame 12 2) = 34997 ∧ ofBe (slice frame 14 2) = 21587 ∧ ofLe (slice frame 16 1) = 1) ∧ (s.glb.mode = Mode.factory ∨ s.tosen.allow.contains (ofBe (slice frame 6 6)) = true) ∧ (ofLe (slice frame 17 1) ≤ 3 ∧ 8 ≤ ofBe (slice frame 20 2) ∧ ofBe (slice frame 20 2) ≤ 1488 ∧ ((ofLe (slice frame 17 1)).testBit 1 = true ∨ ofBe (slice frame 20 2) = 1488) ∧ 26 + ofBe (slice frame 20 2) ≤ List.length frame) ∧ (List.find? (fun x => x.mac == ofBe (slice frame 6 6)) s.tosen.partials = none) ∧ (ofLe (slice frame 17 1) % 2 = 0 ∨ ofBe (slice frame 18 2) ≠ 0)) ∧
  (∃ (s : State) (dt : Nat) (frame : Bytes),
    (s.elapse dt).Settled ∧ s.ports.mp.up = true ∧ ((64 ≤ List.length frame ∧ List.length frame ≤ ((s.elapse dt).pt 24).cfg.maxFrame ∧ List.drop (List.length frame - 4) frame = le (fcs (List.take (List.length frame - 4) frame)) 4) ∧ s.firmware = true ∧ ofBe (slice frame 0 6) = s.fuse.mpMac ∧ ofBe (slice frame 12 2) = 34997 ∧ ofBe (slice frame 14 2) = 21587 ∧ ofLe (slice frame 16 1) = 1) ∧ (s.glb.mode = Mode.factory ∨ s.tosen.allow.contains (ofBe (slice frame 6 6)) = true) ∧ (ofLe (slice frame 17 1) ≤ 3 ∧ 8 ≤ ofBe (slice frame 20 2) ∧ ofBe (slice frame 20 2) ≤ 1488 ∧ ((ofLe (slice frame 17 1)).testBit 1 = true ∨ ofBe (slice frame 20 2) = 1488) ∧ 26 + ofBe (slice frame 20 2) ≤ List.length frame) ∧ (List.find? (fun x => x.mac == ofBe (slice frame 6 6)) s.tosen.partials = none) ∧ ofLe (slice frame 17 1) = 1 ∧ ofBe (slice frame 18 2) = 0) ∧
  (∃ (s : State) (dt : Nat) (frame : Bytes),
    (s.elapse dt).Settled ∧ s.ports.mp.up = true ∧ ((64 ≤ List.length frame ∧ List.length frame ≤ ((s.elapse dt).pt 24).cfg.maxFrame ∧ List.drop (List.length frame - 4) frame = le (fcs (List.take (List.length frame - 4) frame)) 4) ∧ s.firmware = true ∧ ofBe (slice frame 0 6) = s.fuse.mpMac ∧ ofBe (slice frame 12 2) = 34997 ∧ ofBe (slice frame 14 2) = 21587 ∧ ofLe (slice frame 16 1) = 1) ∧ (s.glb.mode = Mode.factory ∨ s.tosen.allow.contains (ofBe (slice frame 6 6)) = true) ∧ (ofLe (slice frame 17 1) ≤ 3 ∧ 8 ≤ ofBe (slice frame 20 2) ∧ ofBe (slice frame 20 2) ≤ 1488 ∧ ((ofLe (slice frame 17 1)).testBit 1 = true ∨ ofBe (slice frame 20 2) = 1488) ∧ 26 + ofBe (slice frame 20 2) ≤ List.length frame) ∧ (List.find? (fun x => x.mac == ofBe (slice frame 6 6)) s.tosen.partials = none) ∧ (s.elapse dt).Plain ∧ ofLe (slice frame 17 1) = 3 ∧ ofBe (slice frame 18 2) = 0 ∧ (reqOf (slice frame 22 (ofBe (slice frame 20 2))) (ofBe (slice frame 20 2))).opcode = 1 ∧ (reqOf (slice frame 22 (ofBe (slice frame 20 2))) (ofBe (slice frame 20 2))).seq = 1 ∧ genOf (slice frame 22 (ofBe (slice frame 20 2))) = 0) ∧
  (∃ (s : State) (dt : Nat) (frame : Bytes),
    (s.elapse dt).Settled ∧ s.ports.mp.up = true ∧ ((64 ≤ List.length frame ∧ List.length frame ≤ ((s.elapse dt).pt 24).cfg.maxFrame ∧ List.drop (List.length frame - 4) frame = le (fcs (List.take (List.length frame - 4) frame)) 4) ∧ s.firmware = true ∧ ofBe (slice frame 0 6) = s.fuse.mpMac ∧ ofBe (slice frame 12 2) = 34997 ∧ ofBe (slice frame 14 2) = 21587 ∧ ofLe (slice frame 16 1) = 1) ∧ (s.glb.mode = Mode.factory ∨ s.tosen.allow.contains (ofBe (slice frame 6 6)) = true) ∧ (ofLe (slice frame 17 1) ≤ 3 ∧ 8 ≤ ofBe (slice frame 20 2) ∧ ofBe (slice frame 20 2) ≤ 1488 ∧ ((ofLe (slice frame 17 1)).testBit 1 = true ∨ ofBe (slice frame 20 2) = 1488) ∧ 26 + ofBe (slice frame 20 2) ≤ List.length frame) ∧ (List.find? (fun x => x.mac == ofBe (slice frame 6 6)) s.tosen.partials = none) ∧ (s.elapse dt).Plain ∧ ofLe (slice frame 17 1) = 3 ∧ ofBe (slice frame 18 2) = 0 ∧ (s.elapse dt).session? (Path.mp (ofBe (slice frame 6 6))) = none ∧ (reqOf (slice frame 22 (ofBe (slice frame 20 2))) (ofBe (slice frame 20 2))).opcode ≠ 1) ∧
  (∃ (s : State) (dt : Nat) (frame : Bytes) (x : Session),
    (s.elapse dt).Settled ∧ s.ports.mp.up = true ∧ ((64 ≤ List.length frame ∧ List.length frame ≤ ((s.elapse dt).pt 24).cfg.maxFrame ∧ List.drop (List.length frame - 4) frame = le (fcs (List.take (List.length frame - 4) frame)) 4) ∧ s.firmware = true ∧ ofBe (slice frame 0 6) = s.fuse.mpMac ∧ ofBe (slice frame 12 2) = 34997 ∧ ofBe (slice frame 14 2) = 21587 ∧ ofLe (slice frame 16 1) = 1) ∧ (s.glb.mode = Mode.factory ∨ s.tosen.allow.contains (ofBe (slice frame 6 6)) = true) ∧ (ofLe (slice frame 17 1) ≤ 3 ∧ 8 ≤ ofBe (slice frame 20 2) ∧ ofBe (slice frame 20 2) ≤ 1488 ∧ ((ofLe (slice frame 17 1)).testBit 1 = true ∨ ofBe (slice frame 20 2) = 1488) ∧ 26 + ofBe (slice frame 20 2) ≤ List.length frame) ∧ (List.find? (fun x => x.mac == ofBe (slice frame 6 6)) s.tosen.partials = none) ∧ (s.elapse dt).Plain ∧ ofLe (slice frame 17 1) = 3 ∧ ofBe (slice frame 18 2) = 0 ∧ (s.elapse dt).session? (Path.mp (ofBe (slice frame 6 6))) = some x ∧ (¬(genOf (slice frame 22 (ofBe (slice frame 20 2))) = x.gen ∧ (reqOf (slice frame 22 (ofBe (slice frame 20 2))) (ofBe (slice frame 20 2))).seq ≠ 0 ∧ (reqOf (slice frame 22 (ofBe (slice frame 20 2))) (ofBe (slice frame 20 2))).opcode ≠ 1)) ∧ (¬((reqOf (slice frame 22 (ofBe (slice frame 20 2))) (ofBe (slice frame 20 2))).opcode = 1 ∧ (reqOf (slice frame 22 (ofBe (slice frame 20 2))) (ofBe (slice frame 20 2))).seq = 1 ∧ genOf (slice frame 22 (ofBe (slice frame 20 2))) = 0))) ∧
  (∃ (s : State) (dt : Nat) (frame : Bytes) (x : Session),
    (s.elapse dt).Settled ∧ s.ports.mp.up = true ∧ ((64 ≤ List.length frame ∧ List.length frame ≤ ((s.elapse dt).pt 24).cfg.maxFrame ∧ List.drop (List.length frame - 4) frame = le (fcs (List.take (List.length frame - 4) frame)) 4) ∧ s.firmware = true ∧ ofBe (slice frame 0 6) = s.fuse.mpMac ∧ ofBe (slice frame 12 2) = 34997 ∧ ofBe (slice frame 14 2) = 21587 ∧ ofLe (slice frame 16 1) = 1) ∧ (s.glb.mode = Mode.factory ∨ s.tosen.allow.contains (ofBe (slice frame 6 6)) = true) ∧ (ofLe (slice frame 17 1) ≤ 3 ∧ 8 ≤ ofBe (slice frame 20 2) ∧ ofBe (slice frame 20 2) ≤ 1488 ∧ ((ofLe (slice frame 17 1)).testBit 1 = true ∨ ofBe (slice frame 20 2) = 1488) ∧ 26 + ofBe (slice frame 20 2) ≤ List.length frame) ∧ (List.find? (fun x => x.mac == ofBe (slice frame 6 6)) s.tosen.partials = none) ∧ (s.elapse dt).Plain ∧ ofLe (slice frame 17 1) = 3 ∧ ofBe (slice frame 18 2) = 0 ∧ (s.elapse dt).session? (Path.mp (ofBe (slice frame 6 6))) = some x ∧ (genOf (slice frame 22 (ofBe (slice frame 20 2))) = x.gen ∧ (reqOf (slice frame 22 (ofBe (slice frame 20 2))) (ofBe (slice frame 20 2))).seq ≠ 0 ∧ (reqOf (slice frame 22 (ofBe (slice frame 20 2))) (ofBe (slice frame 20 2))).opcode ≠ 1) ∧ seqAhead x.want (reqOf (slice frame 22 (ofBe (slice frame 20 2))) (ofBe (slice frame 20 2))).seq = 0 ∧ (16 ≤ x.queue.length + if x.running.isSome = true then 1 else 0)) ∧
  (∃ (s : State) (dt : Nat) (frame : Bytes) (x : Session),
    (s.elapse dt).Settled ∧ s.ports.mp.up = true ∧ ((64 ≤ List.length frame ∧ List.length frame ≤ ((s.elapse dt).pt 24).cfg.maxFrame ∧ List.drop (List.length frame - 4) frame = le (fcs (List.take (List.length frame - 4) frame)) 4) ∧ s.firmware = true ∧ ofBe (slice frame 0 6) = s.fuse.mpMac ∧ ofBe (slice frame 12 2) = 34997 ∧ ofBe (slice frame 14 2) = 21587 ∧ ofLe (slice frame 16 1) = 1) ∧ (s.glb.mode = Mode.factory ∨ s.tosen.allow.contains (ofBe (slice frame 6 6)) = true) ∧ (ofLe (slice frame 17 1) ≤ 3 ∧ 8 ≤ ofBe (slice frame 20 2) ∧ ofBe (slice frame 20 2) ≤ 1488 ∧ ((ofLe (slice frame 17 1)).testBit 1 = true ∨ ofBe (slice frame 20 2) = 1488) ∧ 26 + ofBe (slice frame 20 2) ≤ List.length frame) ∧ (List.find? (fun x => x.mac == ofBe (slice frame 6 6)) s.tosen.partials = none) ∧ (s.elapse dt).Plain ∧ ofLe (slice frame 17 1) = 3 ∧ ofBe (slice frame 18 2) = 0 ∧ (s.elapse dt).session? (Path.mp (ofBe (slice frame 6 6))) = some x ∧ (genOf (slice frame 22 (ofBe (slice frame 20 2))) = x.gen ∧ (reqOf (slice frame 22 (ofBe (slice frame 20 2))) (ofBe (slice frame 20 2))).seq ≠ 0 ∧ (reqOf (slice frame 22 (ofBe (slice frame 20 2))) (ofBe (slice frame 20 2))).opcode ≠ 1) ∧ seqAhead x.want (reqOf (slice frame 22 (ofBe (slice frame 20 2))) (ofBe (slice frame 20 2))).seq = 0 ∧ ((x.queue.length + if x.running.isSome = true then 1 else 0) < 16) ∧ (x.running.isSome = true ∨ Option.all (fun y => opDefined y.opcode) (x.queue ++ [reqOf (slice frame 22 (ofBe (slice frame 20 2))) (ofBe (slice frame 20 2))]).head? = true)) ∧
  (∃ (s : State) (dt : Nat) (frame : Bytes) (x : Session),
    (s.elapse dt).Settled ∧ s.ports.mp.up = true ∧ ((64 ≤ List.length frame ∧ List.length frame ≤ ((s.elapse dt).pt 24).cfg.maxFrame ∧ List.drop (List.length frame - 4) frame = le (fcs (List.take (List.length frame - 4) frame)) 4) ∧ s.firmware = true ∧ ofBe (slice frame 0 6) = s.fuse.mpMac ∧ ofBe (slice frame 12 2) = 34997 ∧ ofBe (slice frame 14 2) = 21587 ∧ ofLe (slice frame 16 1) = 1) ∧ (s.glb.mode = Mode.factory ∨ s.tosen.allow.contains (ofBe (slice frame 6 6)) = true) ∧ (ofLe (slice frame 17 1) ≤ 3 ∧ 8 ≤ ofBe (slice frame 20 2) ∧ ofBe (slice frame 20 2) ≤ 1488 ∧ ((ofLe (slice frame 17 1)).testBit 1 = true ∨ ofBe (slice frame 20 2) = 1488) ∧ 26 + ofBe (slice frame 20 2) ≤ List.length frame) ∧ (List.find? (fun x => x.mac == ofBe (slice frame 6 6)) s.tosen.partials = none) ∧ (s.elapse dt).Plain ∧ ofLe (slice frame 17 1) = 3 ∧ ofBe (slice frame 18 2) = 0 ∧ (s.elapse dt).session? (Path.mp (ofBe (slice frame 6 6))) = some x ∧ (genOf (slice frame 22 (ofBe (slice frame 20 2))) = x.gen ∧ (reqOf (slice frame 22 (ofBe (slice frame 20 2))) (ofBe (slice frame 20 2))).seq ≠ 0 ∧ (reqOf (slice frame 22 (ofBe (slice frame 20 2))) (ofBe (slice frame 20 2))).opcode ≠ 1) ∧ seqAhead x.want (reqOf (slice frame 22 (ofBe (slice frame 20 2))) (ofBe (slice frame 20 2))).seq = 0 ∧ ((x.queue.length + if x.running.isSome = true then 1 else 0) = 0) ∧ opDefined (reqOf (slice frame 22 (ofBe (slice frame 20 2))) (ofBe (slice frame 20 2))).opcode = false ∧ (reqOf (slice frame 22 (ofBe (slice frame 20 2))) (ofBe (slice frame 20 2))).len = (reqOf (slice frame 22 (ofBe (slice frame 20 2))) (ofBe (slice frame 20 2))).carried ∧ (reqOf (slice frame 22 (ofBe (slice frame 20 2))) (ofBe (slice frame 20 2))).flags = 0 ∧ (reqOf (slice frame 22 (ofBe (slice frame 20 2))) (ofBe (slice frame 20 2))).status = 0 ∧ (reqOf (slice frame 22 (ofBe (slice frame 20 2))) (ofBe (slice frame 20 2))).ver = x.ver ∧ (reqOf (slice frame 22 (ofBe (slice frame 20 2))) (ofBe (slice frame 20 2))).dom = x.dom) ∧
  (∃ (s : State) (dt : Nat) (frame : Bytes) (x : Session),
    (s.elapse dt).Settled ∧ s.ports.mp.up = true ∧ ((64 ≤ List.length frame ∧ List.length frame ≤ ((s.elapse dt).pt 24).cfg.maxFrame ∧ List.drop (List.length frame - 4) frame = le (fcs (List.take (List.length frame - 4) frame)) 4) ∧ s.firmware = true ∧ ofBe (slice frame 0 6) = s.fuse.mpMac ∧ ofBe (slice frame 12 2) = 34997 ∧ ofBe (slice frame 14 2) = 21587 ∧ ofLe (slice frame 16 1) = 1) ∧ (s.glb.mode = Mode.factory ∨ s.tosen.allow.contains (ofBe (slice frame 6 6)) = true) ∧ (ofLe (slice frame 17 1) ≤ 3 ∧ 8 ≤ ofBe (slice frame 20 2) ∧ ofBe (slice frame 20 2) ≤ 1488 ∧ ((ofLe (slice frame 17 1)).testBit 1 = true ∨ ofBe (slice frame 20 2) = 1488) ∧ 26 + ofBe (slice frame 20 2) ≤ List.length frame) ∧ (List.find? (fun x => x.mac == ofBe (slice frame 6 6)) s.tosen.partials = none) ∧ (s.elapse dt).Plain ∧ ofLe (slice frame 17 1) = 3 ∧ ofBe (slice frame 18 2) = 0 ∧ (s.elapse dt).session? (Path.mp (ofBe (slice frame 6 6))) = some x ∧ (genOf (slice frame 22 (ofBe (slice frame 20 2))) = x.gen ∧ (reqOf (slice frame 22 (ofBe (slice frame 20 2))) (ofBe (slice frame 20 2))).seq ≠ 0 ∧ (reqOf (slice frame 22 (ofBe (slice frame 20 2))) (ofBe (slice frame 20 2))).opcode ≠ 1) ∧ 0 < seqAhead x.want (reqOf (slice frame 22 (ofBe (slice frame 20 2))) (ofBe (slice frame 20 2))).seq ∧ seqAhead x.want (reqOf (slice frame 22 (ofBe (slice frame 20 2))) (ofBe (slice frame 20 2))).seq ≤ 15) ∧
  (∃ (s : State) (dt : Nat) (frame : Bytes) (x : Session) (c : TReply),
    (s.elapse dt).Settled ∧ s.ports.mp.up = true ∧ ((64 ≤ List.length frame ∧ List.length frame ≤ ((s.elapse dt).pt 24).cfg.maxFrame ∧ List.drop (List.length frame - 4) frame = le (fcs (List.take (List.length frame - 4) frame)) 4) ∧ s.firmware = true ∧ ofBe (slice frame 0 6) = s.fuse.mpMac ∧ ofBe (slice frame 12 2) = 34997 ∧ ofBe (slice frame 14 2) = 21587 ∧ ofLe (slice frame 16 1) = 1) ∧ (s.glb.mode = Mode.factory ∨ s.tosen.allow.contains (ofBe (slice frame 6 6)) = true) ∧ (ofLe (slice frame 17 1) ≤ 3 ∧ 8 ≤ ofBe (slice frame 20 2) ∧ ofBe (slice frame 20 2) ≤ 1488 ∧ ((ofLe (slice frame 17 1)).testBit 1 = true ∨ ofBe (slice frame 20 2) = 1488) ∧ 26 + ofBe (slice frame 20 2) ≤ List.length frame) ∧ (List.find? (fun x => x.mac == ofBe (slice frame 6 6)) s.tosen.partials = none) ∧ (s.elapse dt).Plain ∧ ofLe (slice frame 17 1) = 3 ∧ ofBe (slice frame 18 2) = 0 ∧ (s.elapse dt).session? (Path.mp (ofBe (slice frame 6 6))) = some x ∧ (genOf (slice frame 22 (ofBe (slice frame 20 2))) = x.gen ∧ (reqOf (slice frame 22 (ofBe (slice frame 20 2))) (ofBe (slice frame 20 2))).seq ≠ 0 ∧ (reqOf (slice frame 22 (ofBe (slice frame 20 2))) (ofBe (slice frame 20 2))).opcode ≠ 1) ∧ 2 ^ 32 - 17 ≤ seqAhead x.want (reqOf (slice frame 22 (ofBe (slice frame 20 2))) (ofBe (slice frame 20 2))).seq ∧ (List.find? (fun c => c.seq == (reqOf (slice frame 22 (ofBe (slice frame 20 2))) (ofBe (slice frame 20 2))).seq) x.cache = some c)) ∧
  (∃ (s : State) (dt : Nat) (frame : Bytes) (x : Session),
    (s.elapse dt).Settled ∧ s.ports.mp.up = true ∧ ((64 ≤ List.length frame ∧ List.length frame ≤ ((s.elapse dt).pt 24).cfg.maxFrame ∧ List.drop (List.length frame - 4) frame = le (fcs (List.take (List.length frame - 4) frame)) 4) ∧ s.firmware = true ∧ ofBe (slice frame 0 6) = s.fuse.mpMac ∧ ofBe (slice frame 12 2) = 34997 ∧ ofBe (slice frame 14 2) = 21587 ∧ ofLe (slice frame 16 1) = 1) ∧ (s.glb.mode = Mode.factory ∨ s.tosen.allow.contains (ofBe (slice frame 6 6)) = true) ∧ (ofLe (slice frame 17 1) ≤ 3 ∧ 8 ≤ ofBe (slice frame 20 2) ∧ ofBe (slice frame 20 2) ≤ 1488 ∧ ((ofLe (slice frame 17 1)).testBit 1 = true ∨ ofBe (slice frame 20 2) = 1488) ∧ 26 + ofBe (slice frame 20 2) ≤ List.length frame) ∧ (List.find? (fun x => x.mac == ofBe (slice frame 6 6)) s.tosen.partials = none) ∧ (s.elapse dt).Plain ∧ ofLe (slice frame 17 1) = 3 ∧ ofBe (slice frame 18 2) = 0 ∧ (s.elapse dt).session? (Path.mp (ofBe (slice frame 6 6))) = some x ∧ (genOf (slice frame 22 (ofBe (slice frame 20 2))) = x.gen ∧ (reqOf (slice frame 22 (ofBe (slice frame 20 2))) (ofBe (slice frame 20 2))).seq ≠ 0 ∧ (reqOf (slice frame 22 (ofBe (slice frame 20 2))) (ofBe (slice frame 20 2))).opcode ≠ 1) ∧ 2 ^ 32 - 17 ≤ seqAhead x.want (reqOf (slice frame 22 (ofBe (slice frame 20 2))) (ofBe (slice frame 20 2))).seq ∧ (List.find? (fun c => c.seq == (reqOf (slice frame 22 (ofBe (slice frame 20 2))) (ofBe (slice frame 20 2))).seq) x.cache = none) ∧ (((x.queue.any fun y => y.seq == (reqOf (slice frame 22 (ofBe (slice frame 20 2))) (ofBe (slice frame 20 2))).seq) || Option.any (fun y => y.seq == (reqOf (slice frame 22 (ofBe (slice frame 20 2))) (ofBe (slice frame 20 2))).seq) x.running) = true)) ∧
  (∃ (s : State) (dt : Nat) (frame : Bytes) (x : Session),
    (s.elapse dt).Settled ∧ s.ports.mp.up = true ∧ ((64 ≤ List.length frame ∧ List.length frame ≤ ((s.elapse dt).pt 24).cfg.maxFrame ∧ List.drop (List.length frame - 4) frame = le (fcs (List.take (List.length frame - 4) frame)) 4) ∧ s.firmware = true ∧ ofBe (slice frame 0 6) = s.fuse.mpMac ∧ ofBe (slice frame 12 2) = 34997 ∧ ofBe (slice frame 14 2) = 21587 ∧ ofLe (slice frame 16 1) = 1) ∧ (s.glb.mode = Mode.factory ∨ s.tosen.allow.contains (ofBe (slice frame 6 6)) = true) ∧ (ofLe (slice frame 17 1) ≤ 3 ∧ 8 ≤ ofBe (slice frame 20 2) ∧ ofBe (slice frame 20 2) ≤ 1488 ∧ ((ofLe (slice frame 17 1)).testBit 1 = true ∨ ofBe (slice frame 20 2) = 1488) ∧ 26 + ofBe (slice frame 20 2) ≤ List.length frame) ∧ (List.find? (fun x => x.mac == ofBe (slice frame 6 6)) s.tosen.partials = none) ∧ (s.elapse dt).Plain ∧ ofLe (slice frame 17 1) = 3 ∧ ofBe (slice frame 18 2) = 0 ∧ (s.elapse dt).session? (Path.mp (ofBe (slice frame 6 6))) = some x ∧ (genOf (slice frame 22 (ofBe (slice frame 20 2))) = x.gen ∧ (reqOf (slice frame 22 (ofBe (slice frame 20 2))) (ofBe (slice frame 20 2))).seq ≠ 0 ∧ (reqOf (slice frame 22 (ofBe (slice frame 20 2))) (ofBe (slice frame 20 2))).opcode ≠ 1) ∧ 2 ^ 32 - 17 ≤ seqAhead x.want (reqOf (slice frame 22 (ofBe (slice frame 20 2))) (ofBe (slice frame 20 2))).seq ∧ (List.find? (fun c => c.seq == (reqOf (slice frame 22 (ofBe (slice frame 20 2))) (ofBe (slice frame 20 2))).seq) x.cache = none) ∧ (¬((x.queue.any fun y => y.seq == (reqOf (slice frame 22 (ofBe (slice frame 20 2))) (ofBe (slice frame 20 2))).seq) || Option.any (fun y => y.seq == (reqOf (slice frame 22 (ofBe (slice frame 20 2))) (ofBe (slice frame 20 2))).seq) x.running) = true)) ∧
  (∃ (s : State) (dt : Nat) (frame : Bytes) (x : Session),
    (s.elapse dt).Settled ∧ s.ports.mp.up = true ∧ ((64 ≤ List.length frame ∧ List.length frame ≤ ((s.elapse dt).pt 24).cfg.maxFrame ∧ List.drop (List.length frame - 4) frame = le (fcs (List.take (List.length frame - 4) frame)) 4) ∧ s.firmware = true ∧ ofBe (slice frame 0 6) = s.fuse.mpMac ∧ ofBe (slice frame 12 2) = 34997 ∧ ofBe (slice frame 14 2) = 21587 ∧ ofLe (slice frame 16 1) = 1) ∧ (s.glb.mode = Mode.factory ∨ s.tosen.allow.contains (ofBe (slice frame 6 6)) = true) ∧ (ofLe (slice frame 17 1) ≤ 3 ∧ 8 ≤ ofBe (slice frame 20 2) ∧ ofBe (slice frame 20 2) ≤ 1488 ∧ ((ofLe (slice frame 17 1)).testBit 1 = true ∨ ofBe (slice frame 20 2) = 1488) ∧ 26 + ofBe (slice frame 20 2) ≤ List.length frame) ∧ (List.find? (fun x => x.mac == ofBe (slice frame 6 6)) s.tosen.partials = none) ∧ (s.elapse dt).Plain ∧ ofLe (slice frame 17 1) = 3 ∧ ofBe (slice frame 18 2) = 0 ∧ (s.elapse dt).session? (Path.mp (ofBe (slice frame 6 6))) = some x ∧ (genOf (slice frame 22 (ofBe (slice frame 20 2))) = x.gen ∧ (reqOf (slice frame 22 (ofBe (slice frame 20 2))) (ofBe (slice frame 20 2))).seq ≠ 0 ∧ (reqOf (slice frame 22 (ofBe (slice frame 20 2))) (ofBe (slice frame 20 2))).opcode ≠ 1) ∧ 15 < seqAhead x.want (reqOf (slice frame 22 (ofBe (slice frame 20 2))) (ofBe (slice frame 20 2))).seq ∧ seqAhead x.want (reqOf (slice frame 22 (ofBe (slice frame 20 2))) (ofBe (slice frame 20 2))).seq < 2 ^ 32 - 17) ∧
  (∃ (s : State) (dt : Nat) (frame : Bytes) (o : Partial),
    (s.elapse dt).Settled ∧ s.ports.mp.up = true ∧ ((64 ≤ List.length frame ∧ List.length frame ≤ ((s.elapse dt).pt 24).cfg.maxFrame ∧ List.drop (List.length frame - 4) frame = le (fcs (List.take (List.length frame - 4) frame)) 4) ∧ s.firmware = true ∧ ofBe (slice frame 0 6) = s.fuse.mpMac ∧ ofBe (slice frame 12 2) = 34997 ∧ ofBe (slice frame 14 2) = 21587 ∧ ofLe (slice frame 16 1) = 1) ∧ (s.glb.mode = Mode.factory ∨ s.tosen.allow.contains (ofBe (slice frame 6 6)) = true) ∧ (ofLe (slice frame 17 1) ≤ 3 ∧ 8 ≤ ofBe (slice frame 20 2) ∧ ofBe (slice frame 20 2) ≤ 1488 ∧ ((ofLe (slice frame 17 1)).testBit 1 = true ∨ ofBe (slice frame 20 2) = 1488) ∧ 26 + ofBe (slice frame 20 2) ≤ List.length frame) ∧ (List.find? (fun x => x.mac == ofBe (slice frame 6 6)) s.tosen.partials = some o) ∧ (s.elapse dt).elapsed < o.at_ + grid 27 ∧ ofLe (slice frame 17 1) = 0 ∧ ofBe (slice frame 18 2) = o.nextIdx) ∧
  (∃ (s : State) (dt : Nat) (frame : Bytes) (o : Partial),
    (s.elapse dt).Settled ∧ s.ports.mp.up = true ∧ ((64 ≤ List.length frame ∧ List.length frame ≤ ((s.elapse dt).pt 24).cfg.maxFrame ∧ List.drop (List.length frame - 4) frame = le (fcs (List.take (List.length frame - 4) frame)) 4) ∧ s.firmware = true ∧ ofBe (slice frame 0 6) = s.fuse.mpMac ∧ ofBe (slice frame 12 2) = 34997 ∧ ofBe (slice frame 14 2) = 21587 ∧ ofLe (slice frame 16 1) = 1) ∧ (s.glb.mode = Mode.factory ∨ s.tosen.allow.contains (ofBe (slice frame 6 6)) = true) ∧ (ofLe (slice frame 17 1) ≤ 3 ∧ 8 ≤ ofBe (slice frame 20 2) ∧ ofBe (slice frame 20 2) ≤ 1488 ∧ ((ofLe (slice frame 17 1)).testBit 1 = true ∨ ofBe (slice frame 20 2) = 1488) ∧ 26 + ofBe (slice frame 20 2) ≤ List.length frame) ∧ (List.find? (fun x => x.mac == ofBe (slice frame 6 6)) s.tosen.partials = some o) ∧ (s.elapse dt).elapsed < o.at_ + grid 27 ∧ ofLe (slice frame 17 1) = 2 ∧ ofBe (slice frame 18 2) = o.nextIdx) ∧
  (∃ (s : State) (dt : Nat) (frame : Bytes) (o : Partial),
    (s.elapse dt).Settled ∧ s.ports.mp.up = true ∧ ((64 ≤ List.length frame ∧ List.length frame ≤ ((s.elapse dt).pt 24).cfg.maxFrame ∧ List.drop (List.length frame - 4) frame = le (fcs (List.take (List.length frame - 4) frame)) 4) ∧ s.firmware = true ∧ ofBe (slice frame 0 6) = s.fuse.mpMac ∧ ofBe (slice frame 12 2) = 34997 ∧ ofBe (slice frame 14 2) = 21587 ∧ ofLe (slice frame 16 1) = 1) ∧ (s.glb.mode = Mode.factory ∨ s.tosen.allow.contains (ofBe (slice frame 6 6)) = true) ∧ (ofLe (slice frame 17 1) ≤ 3 ∧ 8 ≤ ofBe (slice frame 20 2) ∧ ofBe (slice frame 20 2) ≤ 1488 ∧ ((ofLe (slice frame 17 1)).testBit 1 = true ∨ ofBe (slice frame 20 2) = 1488) ∧ 26 + ofBe (slice frame 20 2) ≤ List.length frame) ∧ (List.find? (fun x => x.mac == ofBe (slice frame 6 6)) s.tosen.partials = some o) ∧ (s.elapse dt).elapsed < o.at_ + grid 27 ∧ ofLe (slice frame 17 1) % 2 = 0 ∧ ofBe (slice frame 18 2) ≠ o.nextIdx) ∧
  (∃ (s : State) (dt : Nat) (frame : Bytes) (o : Partial),
    (s.elapse dt).Settled ∧ s.ports.mp.up = true ∧ ((64 ≤ List.length frame ∧ List.length frame ≤ ((s.elapse dt).pt 24).cfg.maxFrame ∧ List.drop (List.length frame - 4) frame = le (fcs (List.take (List.length frame - 4) frame)) 4) ∧ s.firmware = true ∧ ofBe (slice frame 0 6) = s.fuse.mpMac ∧ ofBe (slice frame 12 2) = 34997 ∧ ofBe (slice frame 14 2) = 21587 ∧ ofLe (slice frame 16 1) = 1) ∧ (s.glb.mode = Mode.factory ∨ s.tosen.allow.contains (ofBe (slice frame 6 6)) = true) ∧ (ofLe (slice frame 17 1) ≤ 3 ∧ 8 ≤ ofBe (slice frame 20 2) ∧ ofBe (slice frame 20 2) ≤ 1488 ∧ ((ofLe (slice frame 17 1)).testBit 1 = true ∨ ofBe (slice frame 20 2) = 1488) ∧ 26 + ofBe (slice frame 20 2) ≤ List.length frame) ∧ (List.find? (fun x => x.mac == ofBe (slice frame 6 6)) s.tosen.partials = some o) ∧ (s.elapse dt).elapsed < o.at_ + grid 27 ∧ ofLe (slice frame 17 1) % 2 = 1 ∧ ofBe (slice frame 18 2) ≠ 0) ∧
  (∃ (s : State) (dt : Nat) (frame : Bytes) (o : Partial),
    (s.elapse dt).Settled ∧ s.ports.mp.up = true ∧ ((64 ≤ List.length frame ∧ List.length frame ≤ ((s.elapse dt).pt 24).cfg.maxFrame ∧ List.drop (List.length frame - 4) frame = le (fcs (List.take (List.length frame - 4) frame)) 4) ∧ s.firmware = true ∧ ofBe (slice frame 0 6) = s.fuse.mpMac ∧ ofBe (slice frame 12 2) = 34997 ∧ ofBe (slice frame 14 2) = 21587 ∧ ofLe (slice frame 16 1) = 1) ∧ (s.glb.mode = Mode.factory ∨ s.tosen.allow.contains (ofBe (slice frame 6 6)) = true) ∧ (ofLe (slice frame 17 1) ≤ 3 ∧ 8 ≤ ofBe (slice frame 20 2) ∧ ofBe (slice frame 20 2) ≤ 1488 ∧ ((ofLe (slice frame 17 1)).testBit 1 = true ∨ ofBe (slice frame 20 2) = 1488) ∧ 26 + ofBe (slice frame 20 2) ≤ List.length frame) ∧ (List.find? (fun x => x.mac == ofBe (slice frame 6 6)) s.tosen.partials = some o) ∧ o.at_ + grid 27 ≤ (s.elapse dt).elapsed ∧ (ofLe (slice frame 17 1) % 2 = 0 ∨ ofBe (slice frame 18 2) ≠ 0)) ∧
  (∃ (s : State) (dt : Nat) (frame : Bytes) (o : Partial),
    (s.elapse dt).Settled ∧ s.ports.mp.up = true ∧ ((64 ≤ List.length frame ∧ List.length frame ≤ ((s.elapse dt).pt 24).cfg.maxFrame ∧ List.drop (List.length frame - 4) frame = le (fcs (List.take (List.length frame - 4) frame)) 4) ∧ s.firmware = true ∧ ofBe (slice frame 0 6) = s.fuse.mpMac ∧ ofBe (slice frame 12 2) = 34997 ∧ ofBe (slice frame 14 2) = 21587 ∧ ofLe (slice frame 16 1) = 1) ∧ (s.glb.mode = Mode.factory ∨ s.tosen.allow.contains (ofBe (slice frame 6 6)) = true) ∧ (ofLe (slice frame 17 1) ≤ 3 ∧ 8 ≤ ofBe (slice frame 20 2) ∧ ofBe (slice frame 20 2) ≤ 1488 ∧ ((ofLe (slice frame 17 1)).testBit 1 = true ∨ ofBe (slice frame 20 2) = 1488) ∧ 26 + ofBe (slice frame 20 2) ≤ List.length frame) ∧ (List.find? (fun x => x.mac == ofBe (slice frame 6 6)) s.tosen.partials = some o) ∧ ofLe (slice frame 17 1) = 1 ∧ ofBe (slice frame 18 2) = 0) ∧
  (∃ (s : State) (dt : Nat) (frame : Bytes) (o : Partial),
    (s.elapse dt).Settled ∧ s.ports.mp.up = true ∧ ((64 ≤ List.length frame ∧ List.length frame ≤ ((s.elapse dt).pt 24).cfg.maxFrame ∧ List.drop (List.length frame - 4) frame = le (fcs (List.take (List.length frame - 4) frame)) 4) ∧ s.firmware = true ∧ ofBe (slice frame 0 6) = s.fuse.mpMac ∧ ofBe (slice frame 12 2) = 34997 ∧ ofBe (slice frame 14 2) = 21587 ∧ ofLe (slice frame 16 1) = 1) ∧ (s.glb.mode = Mode.factory ∨ s.tosen.allow.contains (ofBe (slice frame 6 6)) = true) ∧ (ofLe (slice frame 17 1) ≤ 3 ∧ 8 ≤ ofBe (slice frame 20 2) ∧ ofBe (slice frame 20 2) ≤ 1488 ∧ ((ofLe (slice frame 17 1)).testBit 1 = true ∨ ofBe (slice frame 20 2) = 1488) ∧ 26 + ofBe (slice frame 20 2) ≤ List.length frame) ∧ (List.find? (fun x => x.mac == ofBe (slice frame 6 6)) s.tosen.partials = some o) ∧ ofLe (slice frame 17 1) = 3 ∧ ofBe (slice frame 18 2) = 0) :=
  ⟨⟨(linked .service), 3,
      plain_of (by decide +kernel), by decide +kernel⟩,
    ⟨{ mpUp .factory with fuse.mpMac := 6 }, 3, (seg 3 0 (pkt)),
      settled_of (by decide +kernel), by decide +kernel⟩,
    ⟨(mpUp .service), 3, (seg 3 0 (pkt)),
      settled_of (by decide +kernel), by decide +kernel⟩,
    ⟨(mpUp .factory), 3, (seg 1 0 (pkt)),
      settled_of (by decide +kernel), by decide +kernel⟩,
    ⟨(mpUp .factory), 3, (seg 2 1 (pkt)),
      settled_of (by decide +kernel), by decide +kernel⟩,
    ⟨(mpUp .factory), 3, (seg 1 0 (zeros 1488)),
      settled_of (by decide +kernel), by decide +kernel, ⟨seg_whole (by decide) (by decide +kernel), by decide +kernel⟩, by decide +kernel, ⟨by decide +kernel, by decide +kernel, by decide +kernel, by decide +kernel, seg_room (by decide) (by decide +kernel)⟩, by decide +kernel⟩,
    ⟨(mps se1), 3, (seg 3 0 (pk 1 1 0)),
      settled_of (by decide +kernel), by decide +kernel, by decide +kernel, by decide +kernel, by decide +kernel, by decide +kernel, plain_of (by decide +kernel), by decide +kernel⟩,
    ⟨(mpUp .factory), 3, (seg 3 0 (pkt)),
      settled_of (by decide +kernel), by decide +kernel, by decide +kernel, by decide +kernel, by decide +kernel, by decide +kernel, plain_of (by decide +kernel), by decide +kernel⟩,
    ⟨(mps se1), 3, (seg 3 0 (pk 3 20 2)), se1,
      settled_of (by decide +kernel), by decide +kernel, by decide +kernel, by decide +kernel, by decide +kernel, by decide +kernel, plain_of (by decide +kernel), by decide +kernel⟩,
    ⟨(mps { se1 with queue := List.replicate 16 (req 3 0) }), 3, (seg 3 0 (pk 3 20 1)), { se1 with queue := List.replicate 16 (req 3 0) },
      settled_of (by decide +kernel), by decide +kernel, by decide +kernel, by decide +kernel, by decide +kernel, by decide +kernel, plain_of (by decide +kernel), by decide +kernel⟩,
    ⟨(mps se1), 3, (seg 3 0 (pk 3 20 1)), se1,
      settled_of (by decide +kernel), by decide +kernel, by decide +kernel, by decide +kernel, by decide +kernel, by decide +kernel, plain_of (by decide +kernel), by decide +kernel⟩,
    ⟨(mps se1), 3, (seg 3 0 (pk 8 20 1)), se1,
      settled_of (by decide +kernel), by decide +kernel, by decide +kernel, by decide +kernel, by decide +kernel, by decide +kernel, plain_of (by decide +kernel), by decide +kernel⟩,
    ⟨(mps se1), 3, (seg 3 0 (pk 3 35 1)), se1,
      settled_of (by decide +kernel), by decide +kernel, by decide +kernel, by decide +kernel, by decide +kernel, by decide +kernel, plain_of (by decide +kernel), by decide +kernel⟩,
    ⟨(mps { se1 with cache := [{ seq := 4, began := 0, opcode := 3, status := 0, fields := [7] }] }), 3, (seg 3 0 (pk 3 4 1)), { se1 with cache := [{ seq := 4, began := 0, opcode := 3, status := 0, fields := [7] }] }, { seq := 4, began := 0, opcode := 3, status := 0, fields := [7] },
      settled_of (by decide +kernel), by decide +kernel, by decide +kernel, by decide +kernel, by decide +kernel, by decide +kernel, plain_of (by decide +kernel), by decide +kernel⟩,
    ⟨(mps { se1 with queue := [{ req 3 0 with seq := 19 }] }), 3, (seg 3 0 (pk 3 19 1)), { se1 with queue := [{ req 3 0 with seq := 19 }] },
      settled_of (by decide +kernel), by decide +kernel, by decide +kernel, by decide +kernel, by decide +kernel, by decide +kernel, plain_of (by decide +kernel), by decide +kernel⟩,
    ⟨(mps se1), 3, (seg 3 0 (pk 3 19 1)), se1,
      settled_of (by decide +kernel), by decide +kernel, by decide +kernel, by decide +kernel, by decide +kernel, by decide +kernel, plain_of (by decide +kernel), by decide +kernel⟩,
    ⟨(mps se1), 3, (seg 3 0 (pk 3 3 1)), se1,
      settled_of (by decide +kernel), by decide +kernel, by decide +kernel, by decide +kernel, by decide +kernel, by decide +kernel, plain_of (by decide +kernel), by decide +kernel⟩,
    ⟨mpp, 3, (seg 0 1 (zeros 1488)), part1,
      settled_of (by decide +kernel), by decide +kernel, ⟨seg_whole (by decide) (by decide +kernel), by decide +kernel⟩, by decide +kernel, ⟨by decide +kernel, by decide +kernel, by decide +kernel, by decide +kernel, seg_room (by decide) (by decide +kernel)⟩, by decide +kernel⟩,
    ⟨mpp, 3, (seg 2 1 (zeros 8)), part1,
      settled_of (by decide +kernel), by decide +kernel⟩,
    ⟨mpp, 3, (seg 2 2 (zeros 8)), part1,
      settled_of (by decide +kernel), by decide +kernel⟩,
    ⟨mpp, 3, (seg 3 1 (zeros 8)), part1,
      settled_of (by decide +kernel), by decide +kernel⟩,
    ⟨mpp, (grid 27), (seg 2 1 (zeros 8)), part1,
      settled_of (by decide +kernel), by decide +kernel⟩,
    ⟨mpp, 3, (seg 1 0 (zeros 1488)), part1,
      settled_of (by decide +kernel), by decide +kernel, ⟨seg_whole (by decide) (by decide +kernel), by decide +kernel⟩, by decide +kernel, ⟨by decide +kernel, by decide +kernel, by decide +kernel, by decide +kernel, seg_room (by decide) (by decide +kernel)⟩, by decide +kernel⟩,
    ⟨mpp, 3, (seg 3 0 (pkt)), part1,
      settled_of (by decide +kernel), by decide +kernel⟩⟩

/-- The premises of `Obligations.SessionCommands`, clause by clause, are met. -/
theorem witness_SessionCommands :
  (∃ (s : State) (dt : Nat) (p : Path),
    (s.elapse dt).Plain ∧ (List.find? (fun y => y.fst == p) s.tosen.opens = none)) ∧
  (∃ (s : State) (dt : Nat) (p : Path) (q : TReq),
    (s.elapse dt).Settled ∧ (List.find? (fun y => y.fst == p) s.tosen.opens = some (p, q)) ∧ (s.elapse dt).carries p = false) ∧
  (∃ (s : State) (dt : Nat) (p : Path) (q : TReq) (a : Nat) (b : Nat) (c : Nat) (f : Nat) (e : Nat) (st : Nat),
    (s.elapse dt).Settled ∧ (List.find? (fun y => y.fst == p) s.tosen.opens = some (p, q)) ∧ (s.elapse dt).carries p = true ∧ (s.elapse dt).openCheck p q a b c f e = Except.error st) ∧
  (∃ (s : State) (dt : Nat) (p : Path) (q : TReq) (a : Nat) (b : Nat) (c : Nat) (f : Nat) (e : Nat) (v : Nat),
    (s.elapse dt).Settled ∧ (List.find? (fun y => y.fst == p) s.tosen.opens = some (p, q)) ∧ (s.elapse dt).carries p = true ∧ (s.elapse dt).session? p = none ∧ (s.elapse dt).openCheck p q a b c f e = Except.ok v) ∧
  (∃ (s : State) (dt : Nat) (p : Path) (q : TReq) (a : Nat) (b : Nat) (c : Nat) (f : Nat),
    ((q.len = q.carried ∧ q.flags = 0 ∧ q.status = 0) ∧ q.ver = 16 * a ∧ (a = 2 → q.dom = (s.elapse dt).pathDom p) ∧ q.len = 64 ∧ a < 16 ∧ b < 16 ∧ c < 16 ∧ f ≤ 1) ∧ a ≠ 1 ∧ a ≠ 2) ∧
  (∃ (s : State) (dt : Nat) (p : Path) (q : TReq) (a : Nat) (b : Nat) (c : Nat) (f : Nat),
    ((q.len = q.carried ∧ q.flags = 0 ∧ q.status = 0) ∧ q.ver = 16 * a ∧ (a = 2 → q.dom = (s.elapse dt).pathDom p) ∧ q.len = 64 ∧ a < 16 ∧ b < 16 ∧ c < 16 ∧ f ≤ 1) ∧ (a = 1 ∨ a = 2) ∧ (c < b ∨ (if a = 2 then 3 else 6) < b)) ∧
  (∃ (s : State) (dt : Nat) (p : Path) (q : TReq) (a : Nat) (b : Nat) (c : Nat) (f : Nat),
    (((q.len = q.carried ∧ q.flags = 0 ∧ q.status = 0) ∧ q.ver = 16 * a ∧ (a = 2 → q.dom = (s.elapse dt).pathDom p) ∧ q.len = 64 ∧ a < 16 ∧ b < 16 ∧ c < 16 ∧ f ≤ 1) ∧ (a = 1 ∨ a = 2) ∧ b ≤ c ∧ b ≤ if a = 2 then 3 else 6) ∧ p = Path.windlass ∧ (s.elapse dt).debugOpen 0 2 = false) ∧
  (∃ (s : State) (dt : Nat) (p : Path) (q : TReq) (a : Nat) (b : Nat) (c : Nat) (f : Nat) (e : Nat),
    (((q.len = q.carried ∧ q.flags = 0 ∧ q.status = 0) ∧ q.ver = 16 * a ∧ (a = 2 → q.dom = (s.elapse dt).pathDom p) ∧ q.len = 64 ∧ a < 16 ∧ b < 16 ∧ c < 16 ∧ f ≤ 1) ∧ (a = 1 ∨ a = 2) ∧ b ≤ c ∧ b ≤ if a = 2 then 3 else 6) ∧ p ≠ Path.windlass ∧ e < 2 ^ 63 ∧ (f = 1 ∧ (a = 1 ∨ pathOnRing p = true ∧ (e = 0 ∨ e % 256 ≠ 0)))) ∧
  (∃ (s : State) (dt : Nat) (p : Path) (q : TReq) (a : Nat) (b : Nat) (c : Nat) (f : Nat) (e : Nat),
    (((q.len = q.carried ∧ q.flags = 0 ∧ q.status = 0) ∧ q.ver = 16 * a ∧ (a = 2 → q.dom = (s.elapse dt).pathDom p) ∧ q.len = 64 ∧ a < 16 ∧ b < 16 ∧ c < 16 ∧ f ≤ 1) ∧ (a = 1 ∨ a = 2) ∧ b ≤ c ∧ b ≤ if a = 2 then 3 else 6) ∧ p ≠ Path.windlass ∧ e < 2 ^ 63 ∧ (¬(f = 1 ∧ (a = 1 ∨ pathOnRing p = true ∧ (e = 0 ∨ e % 256 ≠ 0)))) ∧ (f = 1 ∧ pathOnRing p = true ∧ ((s.elapse dt).tosen.sessions.any fun y => y.dom == (s.elapse dt).pathDom p && y.events && pathOnRing y.path) = true)) ∧
  (∃ (s : State) (dt : Nat) (p : Path) (q : TReq) (a : Nat) (b : Nat) (c : Nat) (f : Nat) (e : Nat),
    (((q.len = q.carried ∧ q.flags = 0 ∧ q.status = 0) ∧ q.ver = 16 * a ∧ (a = 2 → q.dom = (s.elapse dt).pathDom p) ∧ q.len = 64 ∧ a < 16 ∧ b < 16 ∧ c < 16 ∧ f ≤ 1) ∧ (a = 1 ∨ a = 2) ∧ b ≤ c ∧ b ≤ if a = 2 then 3 else 6) ∧ p ≠ Path.windlass ∧ e < 2 ^ 63 ∧ (¬(f = 1 ∧ (a = 1 ∨ pathOnRing p = true ∧ (e = 0 ∨ e % 256 ≠ 0)))) ∧ (¬(f = 1 ∧ pathOnRing p = true ∧ ((s.elapse dt).tosen.sessions.any fun y => y.dom == (s.elapse dt).pathDom p && y.events && pathOnRing y.path) = true)) ∧ (s.elapse dt).sessionLimit p = true) ∧
  (∃ (s : State) (dt : Nat) (p : Path) (q : TReq) (a : Nat) (b : Nat) (c : Nat) (f : Nat) (e : Nat),
    (((q.len = q.carried ∧ q.flags = 0 ∧ q.status = 0) ∧ q.ver = 16 * a ∧ (a = 2 → q.dom = (s.elapse dt).pathDom p) ∧ q.len = 64 ∧ a < 16 ∧ b < 16 ∧ c < 16 ∧ f ≤ 1) ∧ (a = 1 ∨ a = 2) ∧ b ≤ c ∧ b ≤ if a = 2 then 3 else 6) ∧ p ≠ Path.windlass ∧ e < 2 ^ 63 ∧ (¬(f = 1 ∧ (a = 1 ∨ pathOnRing p = true ∧ (e = 0 ∨ e % 256 ≠ 0)))) ∧ (¬(f = 1 ∧ pathOnRing p = true ∧ ((s.elapse dt).tosen.sessions.any fun y => y.dom == (s.elapse dt).pathDom p && y.events && pathOnRing y.path) = true)) ∧ (s.elapse dt).sessionLimit p = false) ∧
  (∃ (s : State) (dt : Nat) (p : Path) (x : Session) (q : TReq),
    Issued (s.elapse dt) p x q 2 0 Perm.any) ∧
  (∃ (s : State) (dt : Nat) (p : Path) (x : Session) (q : TReq),
    Issued (s.elapse dt) p x q 3 0 Perm.any) ∧
  (∃ (s : State) (dt : Nat) (p : Path) (x : Session) (q : TReq) (off : Nat) (n : Nat),
    Issued (s.elapse dt) p x q 4 (2 + (n + 7) / 8) Perm.any ∧ (¬(1 ≤ n ∧ n ≤ 65496 ∧ off + n ≤ 2 ^ 20))) ∧
  (∃ (s : State) (dt : Nat) (p : Path) (x : Session) (q : TReq) (off : Nat) (n : Nat),
    Issued (s.elapse dt) p x q 4 (2 + (n + 7) / 8) Perm.any ∧ (1 ≤ n ∧ n ≤ 65496 ∧ off + n ≤ 2 ^ 20) ∧ pathOnRing p = true) ∧
  (∃ (s : State) (dt : Nat) (p : Path) (x : Session) (q : TReq) (off : Nat) (n : Nat),
    Issued (s.elapse dt) p x q 4 (2 + (n + 7) / 8) Perm.any ∧ (1 ≤ n ∧ n ≤ 65496 ∧ off + n ≤ 2 ^ 20) ∧ pathOnRing p = false) ∧
  (∃ (s : State) (dt : Nat) (p : Path) (x : Session) (q : TReq) (off : Nat) (n : Nat),
    Issued (s.elapse dt) p x q 5 2 Perm.any ∧ (¬(1 ≤ n ∧ n ≤ 65496 ∧ off + n ≤ 2 ^ 20))) ∧
  (∃ (s : State) (dt : Nat) (p : Path) (x : Session) (q : TReq) (off : Nat) (n : Nat),
    Issued (s.elapse dt) p x q 5 2 Perm.any ∧ (1 ≤ n ∧ n ≤ 65496 ∧ off + n ≤ 2 ^ 20) ∧ pathOnRing p = true) ∧
  (∃ (s : State) (dt : Nat) (p : Path) (x : Session) (q : TReq) (off : Nat) (n : Nat),
    Issued (s.elapse dt) p x q 5 2 Perm.any ∧ (1 ≤ n ∧ n ≤ 65496 ∧ off + n ≤ 2 ^ 20) ∧ pathOnRing p = false) ∧
  (∃ (s : State) (dt : Nat) (p : Path) (x : Session) (q : TReq),
    Issued (s.elapse dt) p x q 6 0 Perm.any ∧ x.dom ≠ 0) ∧
  (∃ (s : State) (dt : Nat) (p : Path) (x : Session) (q : TReq),
    Issued (s.elapse dt) p x q 6 0 Perm.any ∧ x.dom = 0) ∧
  (∃ (s : State) (dt : Nat) (p : Path) (x : Session) (q : TReq) (n : Nat) (macs : List Nat),
    Issued (s.elapse dt) p x q 7 (1 + n) Perm.any ∧ ((macs.all fun m => decide (m < 2 ^ 48)) = true) ∧ 8 < n) ∧
  (∃ (s : State) (dt : Nat) (p : Path) (x : Session) (q : TReq) (n : Nat) (macs : List Nat),
    Issued (s.elapse dt) p x q 7 (1 + n) Perm.any ∧ ((macs.all fun m => decide (m < 2 ^ 48)) = true) ∧ n ≤ 8) ∧
  (∃ (s : State) (dt : Nat) (p : Path) (x : Session) (q : TReq),
    (s.elapse dt).Settled ∧ (s.elapse dt).firmware = true ∧ (s.elapse dt).session? p = some x ∧ x.running = none ∧ x.queue = [q] ∧ q.opcode = 3590 ∧ (s.elapse dt).replyRoom p = true ∧ (¬(q.len = q.carried ∧ q.flags = 0 ∧ q.status = 0))) ∧
  (∃ (s : State) (dt : Nat) (p : Path) (x : Session) (q : TReq),
    (s.elapse dt).Settled ∧ (s.elapse dt).firmware = true ∧ (s.elapse dt).session? p = some x ∧ x.running = none ∧ x.queue = [q] ∧ q.opcode = 3590 ∧ (s.elapse dt).replyRoom p = true ∧ (q.len = q.carried ∧ q.flags = 0 ∧ q.status = 0) ∧ q.ver ≠ x.ver) ∧
  (∃ (s : State) (dt : Nat) (p : Path) (x : Session) (q : TReq),
    (s.elapse dt).Settled ∧ (s.elapse dt).firmware = true ∧ (s.elapse dt).session? p = some x ∧ x.running = none ∧ x.queue = [q] ∧ q.opcode = 3590 ∧ (s.elapse dt).replyRoom p = true ∧ (q.len = q.carried ∧ q.flags = 0 ∧ q.status = 0) ∧ q.ver = x.ver ∧ x.ver / 16 = 2 ∧ q.dom ≠ x.dom) ∧
  (∃ (s : State) (dt : Nat) (p : Path) (x : Session) (q : TReq),
    (s.elapse dt).Settled ∧ (s.elapse dt).firmware = true ∧ (s.elapse dt).session? p = some x ∧ x.running = none ∧ x.queue = [q] ∧ q.opcode = 3590 ∧ (s.elapse dt).replyRoom p = true ∧ (q.len = q.carried ∧ q.flags = 0 ∧ q.status = 0) ∧ q.ver = x.ver ∧ x.ver / 16 = 1) ∧
  (∃ (s : State) (dt : Nat) (p : Path) (x : Session) (q : TReq),
    (s.elapse dt).Settled ∧ (s.elapse dt).firmware = true ∧ (s.elapse dt).session? p = some x ∧ x.running = none ∧ x.queue = [q] ∧ q.opcode = 3590 ∧ (s.elapse dt).replyRoom p = true ∧ ((q.len = q.carried ∧ q.flags = 0 ∧ q.status = 0) ∧ q.ver = x.ver ∧ x.ver / 16 = 2 ∧ q.dom = x.dom) ∧ q.len ≠ 24) ∧
  (∃ (s : State) (dt : Nat) (p : Path) (x : Session) (q : TReq) (d : Nat),
    (s.elapse dt).Settled ∧ (s.elapse dt).firmware = true ∧ (s.elapse dt).session? p = some x ∧ x.running = none ∧ x.queue = [q] ∧ q.opcode = 3590 ∧ (s.elapse dt).replyRoom p = true ∧ ((q.len = q.carried ∧ q.flags = 0 ∧ q.status = 0) ∧ q.ver = x.ver ∧ x.ver / 16 = 2 ∧ q.dom = x.dom) ∧ q.len = 24 ∧ 15 < d) ∧
  (∃ (s : State) (dt : Nat) (p : Path) (x : Session) (q : TReq) (d : Nat),
    (s.elapse dt).Settled ∧ (s.elapse dt).firmware = true ∧ (s.elapse dt).session? p = some x ∧ x.running = none ∧ x.queue = [q] ∧ q.opcode = 3590 ∧ (s.elapse dt).replyRoom p = true ∧ (((q.len = q.carried ∧ q.flags = 0 ∧ q.status = 0) ∧ q.ver = x.ver ∧ x.ver / 16 = 2 ∧ q.dom = x.dom) ∧ q.len = 24 ∧ d ≤ 15) ∧ x.dom ≠ 0 ∧ d ≠ x.dom) ∧
  (∃ (s : State) (dt : Nat) (p : Path) (x : Session) (q : TReq) (d : Nat),
    (s.elapse dt).Settled ∧ (s.elapse dt).firmware = true ∧ (s.elapse dt).session? p = some x ∧ x.running = none ∧ x.queue = [q] ∧ q.opcode = 3590 ∧ (s.elapse dt).replyRoom p = true ∧ (((q.len = q.carried ∧ q.flags = 0 ∧ q.status = 0) ∧ q.ver = x.ver ∧ x.ver / 16 = 2 ∧ q.dom = x.dom) ∧ q.len = 24 ∧ d ≤ 15) ∧ (x.dom = 0 ∨ d = x.dom) ∧ s.glb.mode = Mode.drain) ∧
  (∃ (s : State) (dt : Nat) (p : Path) (x : Session) (q : TReq),
    (s.elapse dt).Settled ∧ (s.elapse dt).firmware = true ∧ (s.elapse dt).session? p = some x ∧ x.running = none ∧ x.queue = [q] ∧ q.opcode = 1569 ∧ (s.elapse dt).replyRoom p = true ∧ ((q.len = q.carried ∧ q.flags = 0 ∧ q.status = 0) ∧ q.ver = x.ver ∧ x.ver / 16 = 2 ∧ q.dom = x.dom) ∧ x.ver = 32) ∧
  (∃ (s : State) (dt : Nat) (p : Path) (x : Session) (q : TReq) (h : Nat) (d : Nat),
    (s.elapse dt).Settled ∧ (s.elapse dt).firmware = true ∧ (s.elapse dt).session? p = some x ∧ x.running = none ∧ x.queue = [q] ∧ q.opcode = 2833 ∧ (s.elapse dt).replyRoom p = true ∧ ((q.len = q.carried ∧ q.flags = 0 ∧ q.status = 0) ∧ q.ver = x.ver ∧ x.ver / 16 = 2 ∧ q.dom = x.dom) ∧ q.len = 24 ∧ h < 16384 ∧ (s.elapse dt).espPerm h = Perm.owner d ∧ x.dom = 0 ∧ d ≠ 0 ∧ (s.elapse dt).isoLock = true) ∧
  (∃ (s : State) (dt : Nat) (p : Path) (x : Session) (q : TReq),
    (s.elapse dt).Settled ∧ (s.elapse dt).firmware = true ∧ (s.elapse dt).session? p = some x ∧ x.running = none ∧ x.queue = [q] ∧ q.opcode = 3589 ∧ (s.elapse dt).replyRoom p = true ∧ ((q.len = q.carried ∧ q.flags = 0 ∧ q.status = 0) ∧ q.ver = x.ver ∧ x.ver / 16 = 2 ∧ q.dom = x.dom) ∧ q.len = 16 ∧ x.dom ≠ 0) ∧
  (∃ (s : State) (dt : Nat) (p : Path) (x : Session) (q : TReq),
    (s.elapse dt).Settled ∧ (s.elapse dt).firmware = true ∧ (s.elapse dt).session? p = some x ∧ x.running = none ∧ x.queue = [q] ∧ q.opcode = 3589 ∧ (s.elapse dt).replyRoom p = true ∧ ((q.len = q.carried ∧ q.flags = 0 ∧ q.status = 0) ∧ q.ver = x.ver ∧ x.ver / 16 = 2 ∧ q.dom = x.dom) ∧ q.len = 16 ∧ x.dom = 0 ∧ s.glb.mode = Mode.lockdown) :=
  ⟨⟨(linked .service), 3, (.mp 1),
      plain_of (by decide +kernel), by decide +kernel⟩,
    ⟨{ mpUp .recovery with tosen.opens := [(.mp 1, { seq := 1, opcode := 1, ver := 0x20, len := 64, carried := 64 })] }, 3, (.mp 1), { seq := 1, opcode := 1, ver := 0x20, len := 64, carried := 64 },
      settled_of (by decide +kernel), by decide +kernel⟩,
    ⟨{ mpUp .factory with tosen.opens := [(.mp 1, { seq := 1, opcode := 1, ver := 0x20, len := 64, carried := 64 })] }, 3, (.mp 1), { seq := 1, opcode := 1, ver := 0x20, len := 64, carried := 64 }, 2, 4, 4, 0, 0, 0x0500FF02,
      settled_of (by decide +kernel), by decide +kernel, by decide +kernel, rfl⟩,
    ⟨{ mpUp .factory with tosen.opens := [(.mp 1, { seq := 1, opcode := 1, ver := 0x20, len := 64, carried := 64 })] }, 3, (.mp 1), { seq := 1, opcode := 1, ver := 0x20, len := 64, carried := 64 }, 2, 0, 7, 1, 0, 0x23,
      settled_of (by decide +kernel), by decide +kernel, by decide +kernel, by decide +kernel, rfl⟩,
    ⟨(linked .service), 3, (.mp 1), { seq := 1, opcode := 1, ver := 0x30, len := 64, carried := 64 }, 3, 0, 3, 0,
      by decide +kernel⟩,
    ⟨(linked .service), 3, (.mp 1), { seq := 1, opcode := 1, ver := 0x20, len := 64, carried := 64 }, 2, 4, 5, 0,
      by decide +kernel⟩,
    ⟨{ mapped .service with fuse.map := map2.set 15 0x54, fuse.live := map2.set 15 0x54 }, 3, .windlass, { seq := 1, opcode := 1, ver := 0x20, len := 64, carried := 64 }, 2, 0, 3, 0,
      by decide +kernel⟩,
    ⟨(linked .service), 3, (.ring 0 3), { seq := 1, opcode := 1, ver := 0x20, len := 64, carried := 64 }, 2, 0, 3, 1, 128,
      by decide +kernel⟩,
    ⟨{ linked .service with tosen.sessions := [{ se1 with path := .ring 0 4, events := true }] }, 3, (.ring 0 3), { seq := 1, opcode := 1, ver := 0x20, len := 64, carried := 64 }, 2, 0, 3, 1, 256,
      by decide +kernel⟩,
    ⟨{ linked .service with tosen.sessions := List.replicate 8 se1 }, 3, (.mp 1), { seq := 1, opcode := 1, ver := 0x20, len := 64, carried := 64 }, 2, 0, 3, 0, 0,
      by decide +kernel⟩,
    ⟨(linked .service), 3, (.ring 0 3), { seq := 1, opcode := 1, ver := 0x20, len := 64, carried := 64 }, 2, 0, 2, 1, 256,
      by decide +kernel⟩,
    ⟨(ask (linked .service) 0x0002 0), 3, (.mp 1), (sess 0x0002 0), (req 0x0002 0),
      issued_of (by decide +kernel)⟩,
    ⟨(ask (linked .service) 0x0003 0), 3, (.mp 1), (sess 0x0003 0), (req 0x0003 0),
      issued_of (by decide +kernel)⟩,
    ⟨(ask (linked .service) 0x0004 3), 3, (.mp 1), (sess 0x0004 3), (req 0x0004 3), (2 ^ 20), 1,
      issued_of (by decide +kernel), by decide +kernel⟩,
    ⟨{ linked .service with tosen.sessions := [{ sess 0x0004 3 with path := .ring 0 3 }] }, 3, (.ring 0 3), { sess 0x0004 3 with path := .ring 0 3 }, (req 0x0004 3), 0, 1,
      issued_of (by decide +kernel), by decide +kernel⟩,
    ⟨(ask (linked .service) 0x0004 4), 3, (.mp 1), (sess 0x0004 4), (req 0x0004 4), (2 ^ 20 - 9), 9,
      issued_of (by decide +kernel), by decide +kernel⟩,
    ⟨(ask (linked .service) 0x0005 2), 3, (.mp 1), (sess 0x0005 2), (req 0x0005 2), 0, 65497,
      issued_of (by decide +kernel), by decide +kernel⟩,
    ⟨{ linked .service with tosen.sessions := [{ sess 0x0005 2 with path := .ring 0 3 }] }, 3, (.ring 0 3), { sess 0x0005 2 with path := .ring 0 3 }, (req 0x0005 2), 0, 1,
      issued_of (by decide +kernel), by decide +kernel⟩,
    ⟨(ask (linked .service) 0x0005 2), 3, (.mp 1), (sess 0x0005 2), (req 0x0005 2), 7, 9,
      issued_of (by decide +kernel), by decide +kernel⟩,
    ⟨{ mapped .service with tosen.sessions := [sess1 0x0006 0] }, 3, (.mp 1), (sess1 0x0006 0), (req1 0x0006 0),
      issued_of (by decide +kernel), by decide +kernel⟩,
    ⟨(ask (linked .service) 0x0006 0), 3, (.mp 1), (sess 0x0006 0), (req 0x0006 0),
      issued_of (by decide +kernel), by decide +kernel⟩,
    ⟨(ask (linked .service) 0x0007 10), 3, (.mp 1), (sess 0x0007 10), (req 0x0007 10), 9, [1, 2, 3, 4, 5, 6, 7, 8, 9],
      issued_of (by decide +kernel), by decide +kernel⟩,
    ⟨(ask { linked .service with tosen.allow := [1, 2] } 0x0007 9), 3, (.mp 1), (sess 0x0007 9), (req 0x0007 9), 8, [1, 3, 3, 4, 5, 6, 7, 8],
      issued_of (by decide +kernel), by decide +kernel⟩,
    ⟨{ mapped .service with tosen.sessions := [{ sess 0x0E06 1 with queue := [{ req 0x0E06 1 with seq := 2, carried := 32 }] }] }, 3, (.mp 1), { sess 0x0E06 1 with queue := [{ req 0x0E06 1 with seq := 2, carried := 32 }] }, { req 0x0E06 1 with seq := 2, carried := 32 },
      settled_of (by decide +kernel), by decide +kernel⟩,
    ⟨{ mapped .service with tosen.sessions := [{ sess 0x0E06 1 with queue := [{ req 0x0E06 1 with seq := 2, ver := 0x22 }] }] }, 3, (.mp 1), { sess 0x0E06 1 with queue := [{ req 0x0E06 1 with seq := 2, ver := 0x22 }] }, { req 0x0E06 1 with seq := 2, ver := 0x22 },
      settled_of (by decide +kernel), by decide +kernel⟩,
    ⟨{ mapped .service with tosen.sessions := [{ sess 0x0E06 1 with queue := [{ req 0x0E06 1 with seq := 2, dom := 1 }] }] }, 3, (.mp 1), { sess 0x0E06 1 with queue := [{ req 0x0E06 1 with seq := 2, dom := 1 }] }, { req 0x0E06 1 with seq := 2, dom := 1 },
      settled_of (by decide +kernel), by decide +kernel⟩,
    ⟨{ mapped .service with tosen.sessions := [{ sess 0x0E06 1 with queue := [{ req 0x0E06 1 with seq := 2, ver := 0x16 }], ver := 0x16 }] }, 3, (.mp 1), { sess 0x0E06 1 with queue := [{ req 0x0E06 1 with seq := 2, ver := 0x16 }], ver := 0x16 }, { req 0x0E06 1 with seq := 2, ver := 0x16 },
      settled_of (by decide +kernel), by decide +kernel⟩,
    ⟨{ mapped .service with tosen.sessions := [{ sess 0x0E06 2 with queue := [{ req 0x0E06 2 with seq := 2 }] }] }, 3, (.mp 1), { sess 0x0E06 2 with queue := [{ req 0x0E06 2 with seq := 2 }] }, { req 0x0E06 2 with seq := 2 },
      settled_of (by decide +kernel), by decide +kernel⟩,
    ⟨{ mapped .service with tosen.sessions := [{ sess 0x0E06 1 with queue := [{ req 0x0E06 1 with seq := 2 }] }] }, 3, (.mp 1), { sess 0x0E06 1 with queue := [{ req 0x0E06 1 with seq := 2 }] }, { req 0x0E06 1 with seq := 2 }, 16,
      settled_of (by decide +kernel), by decide +kernel⟩,
    ⟨{ mapped .service with tosen.sessions := [{ sess 0x0E06 1 with queue := [{ req 0x0E06 1 with seq := 2, dom := 1 }], dom := 1 }] }, 3, (.mp 1), { sess 0x0E06 1 with queue := [{ req 0x0E06 1 with seq := 2, dom := 1 }], dom := 1 }, { req 0x0E06 1 with seq := 2, dom := 1 }, 0,
      settled_of (by decide +kernel), by decide +kernel⟩,
    ⟨{ mapped .drain with tosen.sessions := [{ sess 0x0E06 1 with queue := [{ req 0x0E06 1 with seq := 2 }] }] }, 3, (.mp 1), { sess 0x0E06 1 with queue := [{ req 0x0E06 1 with seq := 2 }] }, { req 0x0E06 1 with seq := 2 }, 1,
      settled_of (by decide +kernel), by decide +kernel⟩,
    ⟨{ mapped .service with tosen.sessions := [{ sess 0x0621 1 with queue := [{ req 0x0621 1 with seq := 2, ver := 0x20 }], ver := 0x20 }] }, 3, (.mp 1), { sess 0x0621 1 with queue := [{ req 0x0621 1 with seq := 2, ver := 0x20 }], ver := 0x20 }, { req 0x0621 1 with seq := 2, ver := 0x20 },
      settled_of (by decide +kernel), by decide +kernel⟩,
    ⟨{ { mapped .service with fuse.map := map2.set 0 0x33, fuse.live := map2.set 0 0x33, sec.esp := [(7, { esp7 with dom := 1 })] } with tosen.sessions := [{ sess 0x0B11 1 with queue := [{ req 0x0B11 1 with seq := 2 }] }] }, 3, (.mp 1), { sess 0x0B11 1 with queue := [{ req 0x0B11 1 with seq := 2 }] }, { req 0x0B11 1 with seq := 2 }, 7, 1,
      settled_of (by decide +kernel), by decide +kernel⟩,
    ⟨{ mapped .service with tosen.sessions := [{ sess 0x0E05 0 with queue := [{ req 0x0E05 0 with seq := 2, dom := 1 }], dom := 1 }] }, 3, (.mp 1), { sess 0x0E05 0 with queue := [{ req 0x0E05 0 with seq := 2, dom := 1 }], dom := 1 }, { req 0x0E05 0 with seq := 2, dom := 1 },
      settled_of (by decide +kernel), by decide +kernel⟩,
    ⟨{ mapped .lockdown with tosen.sessions := [{ sess 0x0E05 0 with queue := [{ req 0x0E05 0 with seq := 2 }] }] }, 3, (.mp 1), { sess 0x0E05 0 with queue := [{ req 0x0E05 0 with seq := 2 }] }, { req 0x0E05 0 with seq := 2 },
      settled_of (by decide +kernel), by decide +kernel⟩⟩

set_option Elab.async false
set_option maxRecDepth 4000
/-- The premises of `Obligations.BootRomTriesSlots`, clause by clause, are met. -/
theorem witness_BootRomTriesSlots :
  (∃ (s : State) (dt : Nat) (i : Nat),
    (¬(((s.elapse dt).slot i).magic = 1397050451 ∧ ((s.elapse dt).slot i).format / 16 = 1))) ∧
  (∃ (s : State) (dt : Nat) (i : Nat),
    (((s.elapse dt).slot i).magic = 1397050451 ∧ ((s.elapse dt).slot i).format / 16 = 1) ∧ ¬512 + 48 * manBlocks ((s.elapse dt).slot i).manifest ≤ List.length ((s.elapse dt).slot i).manifest) ∧
  (∃ (s : State) (dt : Nat) (i : Nat),
    (((s.elapse dt).slot i).magic = 1397050451 ∧ ((s.elapse dt).slot i).format / 16 = 1) ∧ 512 + 48 * manBlocks ((s.elapse dt).slot i).manifest ≤ List.length ((s.elapse dt).slot i).manifest ∧ (¬(ofLe (slice ((s.elapse dt).slot i).manifest 0 4) = 1296125513 ∧ ofLe (slice ((s.elapse dt).slot i).manifest 4 1) / 16 = 1 ∧ ofLe (slice ((s.elapse dt).slot i).manifest 12 2) = 9312 ∧ 1 ≤ manBlocks ((s.elapse dt).slot i).manifest ∧ manBlocks ((s.elapse dt).slot i).manifest ≤ 1022 ∧ ofLe (slice ((s.elapse dt).slot i).manifest 14 1) ≤ s.fuse.stepping ∧ (List.filter (fun z => z.fst == 1) (manSections ((s.elapse dt).slot i).manifest)).length = 1 ∧ (List.filter (fun z => z.fst == 2) (manSections ((s.elapse dt).slot i).manifest)).length ≤ 1 ∧ (∀ (z : Nat × Nat × Nat), z ∈ manSections ((s.elapse dt).slot i).manifest → z.snd.fst % 8 = 0 ∧ z.snd.fst + z.snd.snd ≤ manBlocks ((s.elapse dt).slot i).manifest * 65536) ∧ List.Pairwise (fun a b => a.snd.fst + a.snd.snd ≤ b.snd.fst ∨ b.snd.fst + b.snd.snd ≤ a.snd.fst) (manSections ((s.elapse dt).slot i).manifest)))) ∧
  (∃ (s : State) (dt : Nat) (i : Nat),
    (((s.elapse dt).slot i).magic = 1397050451 ∧ ((s.elapse dt).slot i).format / 16 = 1) ∧ 512 + 48 * manBlocks ((s.elapse dt).slot i).manifest ≤ List.length ((s.elapse dt).slot i).manifest ∧ (ofLe (slice ((s.elapse dt).slot i).manifest 0 4) = 1296125513 ∧ ofLe (slice ((s.elapse dt).slot i).manifest 4 1) / 16 = 1 ∧ ofLe (slice ((s.elapse dt).slot i).manifest 12 2) = 9312 ∧ 1 ≤ manBlocks ((s.elapse dt).slot i).manifest ∧ manBlocks ((s.elapse dt).slot i).manifest ≤ 1022 ∧ ofLe (slice ((s.elapse dt).slot i).manifest 14 1) ≤ s.fuse.stepping ∧ (List.filter (fun z => z.fst == 1) (manSections ((s.elapse dt).slot i).manifest)).length = 1 ∧ (List.filter (fun z => z.fst == 2) (manSections ((s.elapse dt).slot i).manifest)).length ≤ 1 ∧ (∀ (z : Nat × Nat × Nat), z ∈ manSections ((s.elapse dt).slot i).manifest → z.snd.fst % 8 = 0 ∧ z.snd.fst + z.snd.snd ≤ manBlocks ((s.elapse dt).slot i).manifest * 65536) ∧ List.Pairwise (fun a b => a.snd.fst + a.snd.snd ≤ b.snd.fst ∨ b.snd.fst + b.snd.snd ≤ a.snd.fst) (manSections ((s.elapse dt).slot i).manifest)) ∧ readsSet ((s.elapse dt).keySlot (manKey ((s.elapse dt).slot i).manifest)).programmed = false) ∧
  (∃ (s : State) (dt : Nat) (i : Nat),
    (((s.elapse dt).slot i).magic = 1397050451 ∧ ((s.elapse dt).slot i).format / 16 = 1) ∧ 512 + 48 * manBlocks ((s.elapse dt).slot i).manifest ≤ List.length ((s.elapse dt).slot i).manifest ∧ (ofLe (slice ((s.elapse dt).slot i).manifest 0 4) = 1296125513 ∧ ofLe (slice ((s.elapse dt).slot i).manifest 4 1) / 16 = 1 ∧ ofLe (slice ((s.elapse dt).slot i).manifest 12 2) = 9312 ∧ 1 ≤ manBlocks ((s.elapse dt).slot i).manifest ∧ manBlocks ((s.elapse dt).slot i).manifest ≤ 1022 ∧ ofLe (slice ((s.elapse dt).slot i).manifest 14 1) ≤ s.fuse.stepping ∧ (List.filter (fun z => z.fst == 1) (manSections ((s.elapse dt).slot i).manifest)).length = 1 ∧ (List.filter (fun z => z.fst == 2) (manSections ((s.elapse dt).slot i).manifest)).length ≤ 1 ∧ (∀ (z : Nat × Nat × Nat), z ∈ manSections ((s.elapse dt).slot i).manifest → z.snd.fst % 8 = 0 ∧ z.snd.fst + z.snd.snd ≤ manBlocks ((s.elapse dt).slot i).manifest * 65536) ∧ List.Pairwise (fun a b => a.snd.fst + a.snd.snd ≤ b.snd.fst ∨ b.snd.fst + b.snd.snd ≤ a.snd.fst) (manSections ((s.elapse dt).slot i).manifest)) ∧ readsSet ((s.elapse dt).keySlot (manKey ((s.elapse dt).slot i).manifest)).programmed = true ∧ readsSet ((s.elapse dt).keySlot (manKey ((s.elapse dt).slot i).manifest)).revoked = true) ∧
  (∃ (s : State) (dt : Nat) (i : Nat),
    (((s.elapse dt).slot i).magic = 1397050451 ∧ ((s.elapse dt).slot i).format / 16 = 1) ∧ 512 + 48 * manBlocks ((s.elapse dt).slot i).manifest ≤ List.length ((s.elapse dt).slot i).manifest ∧ (ofLe (slice ((s.elapse dt).slot i).manifest 0 4) = 1296125513 ∧ ofLe (slice ((s.elapse dt).slot i).manifest 4 1) / 16 = 1 ∧ ofLe (slice ((s.elapse dt).slot i).manifest 12 2) = 9312 ∧ 1 ≤ manBlocks ((s.elapse dt).slot i).manifest ∧ manBlocks ((s.elapse dt).slot i).manifest ≤ 1022 ∧ ofLe (slice ((s.elapse dt).slot i).manifest 14 1) ≤ s.fuse.stepping ∧ (List.filter (fun z => z.fst == 1) (manSections ((s.elapse dt).slot i).manifest)).length = 1 ∧ (List.filter (fun z => z.fst == 2) (manSections ((s.elapse dt).slot i).manifest)).length ≤ 1 ∧ (∀ (z : Nat × Nat × Nat), z ∈ manSections ((s.elapse dt).slot i).manifest → z.snd.fst % 8 = 0 ∧ z.snd.fst + z.snd.snd ≤ manBlocks ((s.elapse dt).slot i).manifest * 65536) ∧ List.Pairwise (fun a b => a.snd.fst + a.snd.snd ≤ b.snd.fst ∨ b.snd.fst + b.snd.snd ≤ a.snd.fst) (manSections ((s.elapse dt).slot i).manifest)) ∧ ((s.elapse dt).keySlot (manKey ((s.elapse dt).slot i).manifest)).live = true ∧ ofLe (sha384 (manPub ((s.elapse dt).slot i).manifest)) ≠ ((s.elapse dt).keySlot (manKey ((s.elapse dt).slot i).manifest)).hash) ∧
  (∃ (s : State) (dt : Nat) (i : Nat),
    (((s.elapse dt).slot i).magic = 1397050451 ∧ ((s.elapse dt).slot i).format / 16 = 1) ∧ 512 + 48 * manBlocks ((s.elapse dt).slot i).manifest ≤ List.length ((s.elapse dt).slot i).manifest ∧ (ofLe (slice ((s.elapse dt).slot i).manifest 0 4) = 1296125513 ∧ ofLe (slice ((s.elapse dt).slot i).manifest 4 1) / 16 = 1 ∧ ofLe (slice ((s.elapse dt).slot i).manifest 12 2) = 9312 ∧ 1 ≤ manBlocks ((s.elapse dt).slot i).manifest ∧ manBlocks ((s.elapse dt).slot i).manifest ≤ 1022 ∧ ofLe (slice ((s.elapse dt).slot i).manifest 14 1) ≤ s.fuse.stepping ∧ (List.filter (fun z => z.fst == 1) (manSections ((s.elapse dt).slot i).manifest)).length = 1 ∧ (List.filter (fun z => z.fst == 2) (manSections ((s.elapse dt).slot i).manifest)).length ≤ 1 ∧ (∀ (z : Nat × Nat × Nat), z ∈ manSections ((s.elapse dt).slot i).manifest → z.snd.fst % 8 = 0 ∧ z.snd.fst + z.snd.snd ≤ manBlocks ((s.elapse dt).slot i).manifest * 65536) ∧ List.Pairwise (fun a b => a.snd.fst + a.snd.snd ≤ b.snd.fst ∨ b.snd.fst + b.snd.snd ≤ a.snd.fst) (manSections ((s.elapse dt).slot i).manifest)) ∧ ((s.elapse dt).keySlot (manKey ((s.elapse dt).slot i).manifest)).live = true ∧ ofLe (sha384 (manPub ((s.elapse dt).slot i).manifest)) = ((s.elapse dt).keySlot (manKey ((s.elapse dt).slot i).manifest)).hash) ∧
  (∃ (s : State) (dt : Nat),
    (s.elapse dt).Plain ∧ (s.pw.bootDue = false ∨ s.glb.mode ≠ Mode.boot)) ∧
  (∃ (s : State) (dt : Nat) (l : List Bytes),
    (s.elapse dt).Plain ∧ s.pw.bootDue = true ∧ s.glb.mode = Mode.boot ∧ (({ ({ s.elapse dt with boot := ({ (s.elapse dt).boot with slotA := if l = [] then s.boot.slotA else s.boot.slotA.read (l.getD 0 []) (l.getD 1 []), slotB := if l = [] then s.boot.slotB else s.boot.slotB.read (l.getD 2 []) (l.getD 3 []), anyFailed := false } : Boot) } : State) with pw := ({ ({ s.elapse dt with boot := ({ (s.elapse dt).boot with slotA := if l = [] then s.boot.slotA else s.boot.slotA.read (l.getD 0 []) (l.getD 1 []), slotB := if l = [] then s.boot.slotB else s.boot.slotB.read (l.getD 2 []) (l.getD 3 []), anyFailed := false } : Boot) } : State).pw with bootDue := false } : Power) } : State).candidates = [])) ∧
  (∃ (s : State) (dt : Nat) (l : List Bytes) (a : Nat) (rest : List Nat),
    (s.elapse dt).Plain ∧ s.pw.bootDue = true ∧ s.glb.mode = Mode.boot ∧ (({ ({ s.elapse dt with boot := ({ (s.elapse dt).boot with slotA := if l = [] then s.boot.slotA else s.boot.slotA.read (l.getD 0 []) (l.getD 1 []), slotB := if l = [] then s.boot.slotB else s.boot.slotB.read (l.getD 2 []) (l.getD 3 []), anyFailed := false } : Boot) } : State) with pw := ({ ({ s.elapse dt with boot := ({ (s.elapse dt).boot with slotA := if l = [] then s.boot.slotA else s.boot.slotA.read (l.getD 0 []) (l.getD 1 []), slotB := if l = [] then s.boot.slotB else s.boot.slotB.read (l.getD 2 []) (l.getD 3 []), anyFailed := false } : Boot) } : State).pw with bootDue := false } : Power) } : State).candidates = a :: rest) ∧ (({ ({ s.elapse dt with boot := ({ (s.elapse dt).boot with slotA := if l = [] then s.boot.slotA else s.boot.slotA.read (l.getD 0 []) (l.getD 1 []), slotB := if l = [] then s.boot.slotB else s.boot.slotB.read (l.getD 2 []) (l.getD 3 []), anyFailed := false } : Boot) } : State) with pw := ({ ({ s.elapse dt with boot := ({ (s.elapse dt).boot with slotA := if l = [] then s.boot.slotA else s.boot.slotA.read (l.getD 0 []) (l.getD 1 []), slotB := if l = [] then s.boot.slotB else s.boot.slotB.read (l.getD 2 []) (l.getD 3 []), anyFailed := false } : Boot) } : State).pw with bootDue := false } : Power) } : State).slotCheck a = 0)) ∧
  (∃ (s : State) (dt : Nat) (l : List Bytes) (a : Nat) (b : Nat) (rest : List Nat),
    (s.elapse dt).Plain ∧ s.pw.bootDue = true ∧ s.glb.mode = Mode.boot ∧ (({ ({ s.elapse dt with boot := ({ (s.elapse dt).boot with slotA := if l = [] then s.boot.slotA else s.boot.slotA.read (l.getD 0 []) (l.getD 1 []), slotB := if l = [] then s.boot.slotB else s.boot.slotB.read (l.getD 2 []) (l.getD 3 []), anyFailed := false } : Boot) } : State) with pw := ({ ({ s.elapse dt with boot := ({ (s.elapse dt).boot with slotA := if l = [] then s.boot.slotA else s.boot.slotA.read (l.getD 0 []) (l.getD 1 []), slotB := if l = [] then s.boot.slotB else s.boot.slotB.read (l.getD 2 []) (l.getD 3 []), anyFailed := false } : Boot) } : State).pw with bootDue := false } : Power) } : State).candidates = a :: b :: rest) ∧ (({ ({ s.elapse dt with boot := ({ (s.elapse dt).boot with slotA := if l = [] then s.boot.slotA else s.boot.slotA.read (l.getD 0 []) (l.getD 1 []), slotB := if l = [] then s.boot.slotB else s.boot.slotB.read (l.getD 2 []) (l.getD 3 []), anyFailed := false } : Boot) } : State) with pw := ({ ({ s.elapse dt with boot := ({ (s.elapse dt).boot with slotA := if l = [] then s.boot.slotA else s.boot.slotA.read (l.getD 0 []) (l.getD 1 []), slotB := if l = [] then s.boot.slotB else s.boot.slotB.read (l.getD 2 []) (l.getD 3 []), anyFailed := false } : Boot) } : State).pw with bootDue := false } : Power) } : State).slotCheck a ≠ 0) ∧ (({ ({ ({ s.elapse dt with boot := ({ (s.elapse dt).boot with slotA := if l = [] then s.boot.slotA else s.boot.slotA.read (l.getD 0 []) (l.getD 1 []), slotB := if l = [] then s.boot.slotB else s.boot.slotB.read (l.getD 2 []) (l.getD 3 []), anyFailed := false } : Boot) } : State) with pw := ({ ({ s.elapse dt with boot := ({ (s.elapse dt).boot with slotA := if l = [] then s.boot.slotA else s.boot.slotA.read (l.getD 0 []) (l.getD 1 []), slotB := if l = [] then s.boot.slotB else s.boot.slotB.read (l.getD 2 []) (l.getD 3 []), anyFailed := false } : Boot) } : State).pw with bootDue := false } : Power) } : State).setSlot a ({ ({ ({ s.elapse dt with boot := ({ (s.elapse dt).boot with slotA := if l = [] then s.boot.slotA else s.boot.slotA.read (l.getD 0 []) (l.getD 1 []), slotB := if l = [] then s.boot.slotB else s.boot.slotB.read (l.getD 2 []) (l.getD 3 []), anyFailed := false } : Boot) } : State) with pw := ({ ({ s.elapse dt with boot := ({ (s.elapse dt).boot with slotA := if l = [] then s.boot.slotA else s.boot.slotA.read (l.getD 0 []) (l.getD 1 []), slotB := if l = [] then s.boot.slotB else s.boot.slotB.read (l.getD 2 []) (l.getD 3 []), anyFailed := false } : Boot) } : State).pw with bootDue := false } : Power) } : State).slot a with lastFail := ({ ({ s.elapse dt with boot := ({ (s.elapse dt).boot with slotA := if l = [] then s.boot.slotA else s.boot.slotA.read (l.getD 0 []) (l.getD 1 []), slotB := if l = [] then s.boot.slotB else s.boot.slotB.read (l.getD 2 []) (l.getD 3 []), anyFailed := false } : Boot) } : State) with pw := ({ ({ s.elapse dt with boot := ({ (s.elapse dt).boot with slotA := if l = [] then s.boot.slotA else s.boot.slotA.read (l.getD 0 []) (l.getD 1 []), slotB := if l = [] then s.boot.slotB else s.boot.slotB.read (l.getD 2 []) (l.getD 3 []), anyFailed := false } : Boot) } : State).pw with bootDue := false } : Power) } : State).slotCheck a, failBlock := 0 } : Slot) with boot := ({ (({ ({ s.elapse dt with boot := ({ (s.elapse dt).boot with slotA := if l = [] then s.boot.slotA else s.boot.slotA.read (l.getD 0 []) (l.getD 1 []), slotB := if l = [] then s.boot.slotB else s.boot.slotB.read (l.getD 2 []) (l.getD 3 []), anyFailed := false } : Boot) } : State) with pw := ({ ({ s.elapse dt with boot := ({ (s.elapse dt).boot with slotA := if l = [] then s.boot.slotA else s.boot.slotA.read (l.getD 0 []) (l.getD 1 []), slotB := if l = [] then s.boot.slotB else s.boot.slotB.read (l.getD 2 []) (l.getD 3 []), anyFailed := false } : Boot) } : State).pw with bootDue := false } : Power) } : State).setSlot a ({ ({ ({ s.elapse dt with boot := ({ (s.elapse dt).boot with slotA := if l = [] then s.boot.slotA else s.boot.slotA.read (l.getD 0 []) (l.getD 1 []), slotB := if l = [] then s.boot.slotB else s.boot.slotB.read (l.getD 2 []) (l.getD 3 []), anyFailed := false } : Boot) } : State) with pw := ({ ({ s.elapse dt with boot := ({ (s.elapse dt).boot with slotA := if l = [] then s.boot.slotA else s.boot.slotA.read (l.getD 0 []) (l.getD 1 []), slotB := if l = [] then s.boot.slotB else s.boot.slotB.read (l.getD 2 []) (l.getD 3 []), anyFailed := false } : Boot) } : State).pw with bootDue := false } : Power) } : State).slot a with lastFail := ({ ({ s.elapse dt with boot := ({ (s.elapse dt).boot with slotA := if l = [] then s.boot.slotA else s.boot.slotA.read (l.getD 0 []) (l.getD 1 []), slotB := if l = [] then s.boot.slotB else s.boot.slotB.read (l.getD 2 []) (l.getD 3 []), anyFailed := false } : Boot) } : State) with pw := ({ ({ s.elapse dt with boot := ({ (s.elapse dt).boot with slotA := if l = [] then s.boot.slotA else s.boot.slotA.read (l.getD 0 []) (l.getD 1 []), slotB := if l = [] then s.boot.slotB else s.boot.slotB.read (l.getD 2 []) (l.getD 3 []), anyFailed := false } : Boot) } : State).pw with bootDue := false } : Power) } : State).slotCheck a, failBlock := 0 } : Slot)).boot with trying := none, anyFailed := true } : Boot) } : State).slotCheck b = 0)) ∧
  (∃ (s : State) (dt : Nat) (l : List Bytes) (a : Nat),
    (s.elapse dt).Plain ∧ s.pw.bootDue = true ∧ s.glb.mode = Mode.boot ∧ (({ ({ s.elapse dt with boot := ({ (s.elapse dt).boot with slotA := if l = [] then s.boot.slotA else s.boot.slotA.read (l.getD 0 []) (l.getD 1 []), slotB := if l = [] then s.boot.slotB else s.boot.slotB.read (l.getD 2 []) (l.getD 3 []), anyFailed := false } : Boot) } : State) with pw := ({ ({ s.elapse dt with boot := ({ (s.elapse dt).boot with slotA := if l = [] then s.boot.slotA else s.boot.slotA.read (l.getD 0 []) (l.getD 1 []), slotB := if l = [] then s.boot.slotB else s.boot.slotB.read (l.getD 2 []) (l.getD 3 []), anyFailed := false } : Boot) } : State).pw with bootDue := false } : Power) } : State).candidates = [a]) ∧ (({ ({ s.elapse dt with boot := ({ (s.elapse dt).boot with slotA := if l = [] then s.boot.slotA else s.boot.slotA.read (l.getD 0 []) (l.getD 1 []), slotB := if l = [] then s.boot.slotB else s.boot.slotB.read (l.getD 2 []) (l.getD 3 []), anyFailed := false } : Boot) } : State) with pw := ({ ({ s.elapse dt with boot := ({ (s.elapse dt).boot with slotA := if l = [] then s.boot.slotA else s.boot.slotA.read (l.getD 0 []) (l.getD 1 []), slotB := if l = [] then s.boot.slotB else s.boot.slotB.read (l.getD 2 []) (l.getD 3 []), anyFailed := false } : Boot) } : State).pw with bootDue := false } : Power) } : State).slotCheck a ≠ 0)) ∧
  (∃ (s : State) (dt : Nat),
    (s.elapse dt).Plain ∧ (s.glb.mode ≠ Mode.recovery ∨ s.boot.window = false ∨ (s.elapse dt).elapsed < s.boot.windowEnd ∨ (s.elapse dt).recActive = true)) ∧
  (∃ (s : State) (dt : Nat) (l : List Bytes),
    (s.elapse dt).Plain ∧ s.glb.mode = Mode.recovery ∧ s.boot.window = true ∧ s.boot.windowEnd ≤ (s.elapse dt).elapsed ∧ (s.elapse dt).recActive = false ∧ (({ ({ s.elapse dt with boot := ({ (s.elapse dt).boot with slotA := if l = [] then s.boot.slotA else s.boot.slotA.read (l.getD 0 []) (l.getD 1 []), slotB := if l = [] then s.boot.slotB else s.boot.slotB.read (l.getD 2 []) (l.getD 3 []), anyFailed := false } : Boot) } : State) with boot := ({ ({ s.elapse dt with boot := ({ (s.elapse dt).boot with slotA := if l = [] then s.boot.slotA else s.boot.slotA.read (l.getD 0 []) (l.getD 1 []), slotB := if l = [] then s.boot.slotB else s.boot.slotB.read (l.getD 2 []) (l.getD 3 []), anyFailed := false } : Boot) } : State).boot with cycle := s.boot.cycle + 1, window := false } : Boot) } : State).candidates = [])) ∧
  (∃ (s : State) (dt : Nat) (l : List Bytes) (a : Nat) (rest : List Nat),
    (s.elapse dt).Plain ∧ s.glb.mode = Mode.recovery ∧ s.boot.window = true ∧ s.boot.windowEnd ≤ (s.elapse dt).elapsed ∧ (s.elapse dt).recActive = false ∧ (({ ({ s.elapse dt with boot := ({ (s.elapse dt).boot with slotA := if l = [] then s.boot.slotA else s.boot.slotA.read (l.getD 0 []) (l.getD 1 []), slotB := if l = [] then s.boot.slotB else s.boot.slotB.read (l.getD 2 []) (l.getD 3 []), anyFailed := false } : Boot) } : State) with boot := ({ ({ s.elapse dt with boot := ({ (s.elapse dt).boot with slotA := if l = [] then s.boot.slotA else s.boot.slotA.read (l.getD 0 []) (l.getD 1 []), slotB := if l = [] then s.boot.slotB else s.boot.slotB.read (l.getD 2 []) (l.getD 3 []), anyFailed := false } : Boot) } : State).boot with cycle := s.boot.cycle + 1, window := false } : Boot) } : State).candidates = a :: rest) ∧ (({ ({ s.elapse dt with boot := ({ (s.elapse dt).boot with slotA := if l = [] then s.boot.slotA else s.boot.slotA.read (l.getD 0 []) (l.getD 1 []), slotB := if l = [] then s.boot.slotB else s.boot.slotB.read (l.getD 2 []) (l.getD 3 []), anyFailed := false } : Boot) } : State) with boot := ({ ({ s.elapse dt with boot := ({ (s.elapse dt).boot with slotA := if l = [] then s.boot.slotA else s.boot.slotA.read (l.getD 0 []) (l.getD 1 []), slotB := if l = [] then s.boot.slotB else s.boot.slotB.read (l.getD 2 []) (l.getD 3 []), anyFailed := false } : Boot) } : State).boot with cycle := s.boot.cycle + 1, window := false } : Boot) } : State).slotCheck a = 0)) ∧
  (∃ (s : State) (dt : Nat) (l : List Bytes) (a : Nat) (b : Nat) (rest : List Nat),
    (s.elapse dt).Plain ∧ s.glb.mode = Mode.recovery ∧ s.boot.window = true ∧ s.boot.windowEnd ≤ (s.elapse dt).elapsed ∧ (s.elapse dt).recActive = false ∧ (({ ({ s.elapse dt with boot := ({ (s.elapse dt).boot with slotA := if l = [] then s.boot.slotA else s.boot.slotA.read (l.getD 0 []) (l.getD 1 []), slotB := if l = [] then s.boot.slotB else s.boot.slotB.read (l.getD 2 []) (l.getD 3 []), anyFailed := false } : Boot) } : State) with boot := ({ ({ s.elapse dt with boot := ({ (s.elapse dt).boot with slotA := if l = [] then s.boot.slotA else s.boot.slotA.read (l.getD 0 []) (l.getD 1 []), slotB := if l = [] then s.boot.slotB else s.boot.slotB.read (l.getD 2 []) (l.getD 3 []), anyFailed := false } : Boot) } : State).boot with cycle := s.boot.cycle + 1, window := false } : Boot) } : State).candidates = a :: b :: rest) ∧ (({ ({ s.elapse dt with boot := ({ (s.elapse dt).boot with slotA := if l = [] then s.boot.slotA else s.boot.slotA.read (l.getD 0 []) (l.getD 1 []), slotB := if l = [] then s.boot.slotB else s.boot.slotB.read (l.getD 2 []) (l.getD 3 []), anyFailed := false } : Boot) } : State) with boot := ({ ({ s.elapse dt with boot := ({ (s.elapse dt).boot with slotA := if l = [] then s.boot.slotA else s.boot.slotA.read (l.getD 0 []) (l.getD 1 []), slotB := if l = [] then s.boot.slotB else s.boot.slotB.read (l.getD 2 []) (l.getD 3 []), anyFailed := false } : Boot) } : State).boot with cycle := s.boot.cycle + 1, window := false } : Boot) } : State).slotCheck a ≠ 0) ∧ (({ ({ ({ s.elapse dt with boot := ({ (s.elapse dt).boot with slotA := if l = [] then s.boot.slotA else s.boot.slotA.read (l.getD 0 []) (l.getD 1 []), slotB := if l = [] then s.boot.slotB else s.boot.slotB.read (l.getD 2 []) (l.getD 3 []), anyFailed := false } : Boot) } : State) with boot := ({ ({ s.elapse dt with boot := ({ (s.elapse dt).boot with slotA := if l = [] then s.boot.slotA else s.boot.slotA.read (l.getD 0 []) (l.getD 1 []), slotB := if l = [] then s.boot.slotB else s.boot.slotB.read (l.getD 2 []) (l.getD 3 []), anyFailed := false } : Boot) } : State).boot with cycle := s.boot.cycle + 1, window := false } : Boot) } : State).setSlot a ({ ({ ({ s.elapse dt with boot := ({ (s.elapse dt).boot with slotA := if l = [] then s.boot.slotA else s.boot.slotA.read (l.getD 0 []) (l.getD 1 []), slotB := if l = [] then s.boot.slotB else s.boot.slotB.read (l.getD 2 []) (l.getD 3 []), anyFailed := false } : Boot) } : State) with boot := ({ ({ s.elapse dt with boot := ({ (s.elapse dt).boot with slotA := if l = [] then s.boot.slotA else s.boot.slotA.read (l.getD 0 []) (l.getD 1 []), slotB := if l = [] then s.boot.slotB else s.boot.slotB.read (l.getD 2 []) (l.getD 3 []), anyFailed := false } : Boot) } : State).boot with cycle := s.boot.cycle + 1, window := false } : Boot) } : State).slot a with lastFail := ({ ({ s.elapse dt with boot := ({ (s.elapse dt).boot with slotA := if l = [] then s.boot.slotA else s.boot.slotA.read (l.getD 0 []) (l.getD 1 []), slotB := if l = [] then s.boot.slotB else s.boot.slotB.read (l.getD 2 []) (l.getD 3 []), anyFailed := false } : Boot) } : State) with boot := ({ ({ s.elapse dt with boot := ({ (s.elapse dt).boot with slotA := if l = [] then s.boot.slotA else s.boot.slotA.read (l.getD 0 []) (l.getD 1 []), slotB := if l = [] then s.boot.slotB else s.boot.slotB.read (l.getD 2 []) (l.getD 3 []), anyFailed := false } : Boot) } : State).boot with cycle := s.boot.cycle + 1, window := false } : Boot) } : State).slotCheck a, failBlock := 0 } : Slot) with boot := ({ (({ ({ s.elapse dt with boot := ({ (s.elapse dt).boot with slotA := if l = [] then s.boot.slotA else s.boot.slotA.read (l.getD 0 []) (l.getD 1 []), slotB := if l = [] then s.boot.slotB else s.boot.slotB.read (l.getD 2 []) (l.getD 3 []), anyFailed := false } : Boot) } : State) with boot := ({ ({ s.elapse dt with boot := ({ (s.elapse dt).boot with slotA := if l = [] then s.boot.slotA else s.boot.slotA.read (l.getD 0 []) (l.getD 1 []), slotB := if l = [] then s.boot.slotB else s.boot.slotB.read (l.getD 2 []) (l.getD 3 []), anyFailed := false } : Boot) } : State).boot with cycle := s.boot.cycle + 1, window := false } : Boot) } : State).setSlot a ({ ({ ({ s.elapse dt with boot := ({ (s.elapse dt).boot with slotA := if l = [] then s.boot.slotA else s.boot.slotA.read (l.getD 0 []) (l.getD 1 []), slotB := if l = [] then s.boot.slotB else s.boot.slotB.read (l.getD 2 []) (l.getD 3 []), anyFailed := false } : Boot) } : State) with boot := ({ ({ s.elapse dt with boot := ({ (s.elapse dt).boot with slotA := if l = [] then s.boot.slotA else s.boot.slotA.read (l.getD 0 []) (l.getD 1 []), slotB := if l = [] then s.boot.slotB else s.boot.slotB.read (l.getD 2 []) (l.getD 3 []), anyFailed := false } : Boot) } : State).boot with cycle := s.boot.cycle + 1, window := false } : Boot) } : State).slot a with lastFail := ({ ({ s.elapse dt with boot := ({ (s.elapse dt).boot with slotA := if l = [] then s.boot.slotA else s.boot.slotA.read (l.getD 0 []) (l.getD 1 []), slotB := if l = [] then s.boot.slotB else s.boot.slotB.read (l.getD 2 []) (l.getD 3 []), anyFailed := false } : Boot) } : State) with boot := ({ ({ s.elapse dt with boot := ({ (s.elapse dt).boot with slotA := if l = [] then s.boot.slotA else s.boot.slotA.read (l.getD 0 []) (l.getD 1 []), slotB := if l = [] then s.boot.slotB else s.boot.slotB.read (l.getD 2 []) (l.getD 3 []), anyFailed := false } : Boot) } : State).boot with cycle := s.boot.cycle + 1, window := false } : Boot) } : State).slotCheck a, failBlock := 0 } : Slot)).boot with trying := none, anyFailed := true } : Boot) } : State).slotCheck b = 0)) ∧
  (∃ (s : State) (dt : Nat) (i : Nat),
    (s.elapse dt).Plain ∧ s.boot.trying = some i ∧ (s.boot.bad.isSome = true ∨ manBlocks ((s.elapse dt).slot i).manifest ≤ s.boot.blocks)) ∧
  (∃ (s : State) (dt : Nat) (i : Nat) (st : Nat),
    (s.elapse dt).Plain ∧ s.boot.trying = some i ∧ s.boot.bad = none ∧ s.boot.blocks < manBlocks ((s.elapse dt).slot i).manifest ∧ s.boot.sigOk = false ∧ st = 1) ∧
  (∃ (s : State) (dt : Nat) (i : Nat) (st : Nat),
    (s.elapse dt).Plain ∧ s.boot.trying = some i ∧ s.boot.bad = none ∧ s.boot.blocks < manBlocks ((s.elapse dt).slot i).manifest ∧ s.boot.sigOk = false ∧ st = 2) ∧
  (∃ (s : State) (dt : Nat) (i : Nat) (st : Nat),
    (s.elapse dt).Plain ∧ s.boot.trying = some i ∧ s.boot.bad = none ∧ s.boot.blocks < manBlocks ((s.elapse dt).slot i).manifest ∧ s.boot.sigOk = false ∧ st = 0) ∧
  (∃ (s : State) (dt : Nat) (i : Nat) (st : Nat),
    (s.elapse dt).Plain ∧ s.boot.trying = some i ∧ s.boot.bad = none ∧ s.boot.blocks < manBlocks ((s.elapse dt).slot i).manifest ∧ s.boot.sigOk = true ∧ s.boot.rest = [] ∧ s.glb.mode = Mode.boot ∧ st = 1) ∧
  (∃ (s : State) (dt : Nat) (i : Nat) (st : Nat),
    (s.elapse dt).Plain ∧ s.boot.trying = some i ∧ s.boot.bad = none ∧ s.boot.blocks < manBlocks ((s.elapse dt).slot i).manifest ∧ s.boot.sigOk = true ∧ s.boot.rest = [] ∧ s.glb.mode = Mode.boot ∧ st = 2) ∧
  (∃ (s : State) (dt : Nat) (i : Nat) (st : Nat),
    (s.elapse dt).Plain ∧ s.boot.trying = some i ∧ s.boot.bad = none ∧ s.boot.blocks < manBlocks ((s.elapse dt).slot i).manifest ∧ s.boot.sigOk = true ∧ st = 0 ∧ i ≤ 1) ∧
  (∃ (s : State) (dt : Nat) (i : Nat),
    (s.elapse dt).Plain ∧ s.boot.trying = some i ∧ i ≤ 1 ∧ s.boot.sigOk = false ∧ s.boot.bad = none) ∧
  (∃ (s : State) (dt : Nat) (i : Nat) (w : Nat × Nat),
    (s.elapse dt).Plain ∧ s.boot.trying = some i ∧ i ≤ 1 ∧ s.boot.sigOk = false ∧ s.boot.bad = some w ∧ s.boot.rest = [] ∧ s.glb.mode = Mode.boot) ∧
  (∃ (s : State) (dt : Nat),
    (s.elapse dt).Plain ∧ s.boot.trying = none ∧ (¬(s.glb.mode = Mode.recovery ∧ s.boot.recManOk = true ∧ s.boot.recSigOk = false ∧ (s.boot.recState = 1 ∨ s.boot.recState = 2)))) ∧
  (∃ (s : State) (dt : Nat),
    (s.elapse dt).Plain ∧ s.boot.trying = none ∧ (s.glb.mode = Mode.recovery ∧ s.boot.recManOk = true ∧ s.boot.recSigOk = false ∧ (s.boot.recState = 1 ∨ s.boot.recState = 2)) ∧ s.boot.recBad = none ∧ s.boot.recFinish = none ∧ s.boot.recAccepted < 131072) ∧
  (∃ (s : State) (dt : Nat) (l : List Bytes) (a : Nat),
    (s.elapse dt).Plain ∧ s.glb.mode = Mode.recovery ∧ s.boot.window = true ∧ s.boot.windowEnd ≤ (s.elapse dt).elapsed ∧ (s.elapse dt).recActive = false ∧ (({ ({ s.elapse dt with boot := ({ (s.elapse dt).boot with slotA := if l = [] then s.boot.slotA else s.boot.slotA.read (l.getD 0 []) (l.getD 1 []), slotB := if l = [] then s.boot.slotB else s.boot.slotB.read (l.getD 2 []) (l.getD 3 []), anyFailed := false } : Boot) } : State) with boot := ({ ({ s.elapse dt with boot := ({ (s.elapse dt).boot with slotA := if l = [] then s.boot.slotA else s.boot.slotA.read (l.getD 0 []) (l.getD 1 []), slotB := if l = [] then s.boot.slotB else s.boot.slotB.read (l.getD 2 []) (l.getD 3 []), anyFailed := false } : Boot) } : State).boot with cycle := s.boot.cycle + 1, window := false } : Boot) } : State).candidates = [a]) ∧ (({ ({ s.elapse dt with boot := ({ (s.elapse dt).boot with slotA := if l = [] then s.boot.slotA else s.boot.slotA.read (l.getD 0 []) (l.getD 1 []), slotB := if l = [] then s.boot.slotB else s.boot.slotB.read (l.getD 2 []) (l.getD 3 []), anyFailed := false } : Boot) } : State) with boot := ({ ({ s.elapse dt with boot := ({ (s.elapse dt).boot with slotA := if l = [] then s.boot.slotA else s.boot.slotA.read (l.getD 0 []) (l.getD 1 []), slotB := if l = [] then s.boot.slotB else s.boot.slotB.read (l.getD 2 []) (l.getD 3 []), anyFailed := false } : Boot) } : State).boot with cycle := s.boot.cycle + 1, window := false } : Boot) } : State).slotCheck a ≠ 0)) :=
  ⟨⟨{ romS { slotA := {} } with fuse.keys := [key1, {}, {}, {}], fuse.stepping := 0x10 }, 3, 0,
      by decide +kernel⟩,
    ⟨{ romS { slotA := { slotS {} with manifest := man1.take 559 } } with fuse.keys := [key1, {}, {}, {}], fuse.stepping := 0x10 }, 3, 0,
      by decide +kernel⟩,
    ⟨{ romS { slotA := { slotS {} with manifest := man1.set 4 0x20 } } with fuse.keys := [key1, {}, {}, {}], fuse.stepping := 0x10 }, 3, 0,
      by decide +kernel⟩,
    ⟨{ romS { slotA := slotS {} } with fuse.keys := [], fuse.stepping := 0x10 }, 3, 0,
      by decide +kernel⟩,
    ⟨{ romS { slotA := slotS {} } with fuse.keys := [{ key1 with revoked := 0x1F }], fuse.stepping := 0x10 }, 3, 0,
      by decide +kernel⟩,
    ⟨{ romS { slotA := slotS {} } with fuse.keys := [{ key1 with hash := 5 }], fuse.stepping := 0x10 }, 3, 0,
      by decide +kernel⟩,
    ⟨{ romS { slotA := slotS {} } with fuse.keys := [key1, {}, {}, {}], fuse.stepping := 0x10 }, 3, 0,
      by decide +kernel⟩,
    ⟨(linked .service), 3,
      plain_of (by decide +kernel), by decide +kernel⟩,
    ⟨State.reset, 3, [],
      plain_of (by decide +kernel), by decide +kernel⟩,
    ⟨(romS {}), 3, [], 1, [],
      plain_of (by decide +kernel), by decide +kernel⟩,
    ⟨(romS { slotA := { slotS { state := 0xFFFF0000 } with magic := 5 } }), 3, [], 0, 1, [],
      plain_of (by decide +kernel), by decide +kernel⟩,
    ⟨{ romS {} with fuse.keys := [] }, 3, [], 1,
      plain_of (by decide +kernel), by decide +kernel⟩,
    ⟨(recS { windowEnd := grid 33 }), (grid 33 - 1),
      plain_of (by decide +kernel), by decide +kernel⟩,
    ⟨(recS {}), 3, [],
      plain_of (by decide +kernel), by decide +kernel⟩,
    ⟨{ recS { slotB := slotS { state := 0xFF000000 } } with fuse.keys := [key1, {}, {}, {}] }, 3, [], 1, [],
      plain_of (by decide +kernel), by decide +kernel⟩,
    ⟨{ recS { slotB := slotS { state := 0xFF000000 }, slotA := { slotS { state := 0xFFFF0000 } with magic := 5 } } with fuse.keys := [key1, {}, {}, {}] }, 3, [], 0, 1, [],
      plain_of (by decide +kernel), by decide +kernel⟩,
    ⟨(tryB { blocks := 1 }), 3, 1,
      plain_of (by decide +kernel), by decide +kernel⟩,
    ⟨(tryB {}), 3, 1, 1,
      plain_of (by decide +kernel), by decide +kernel⟩,
    ⟨(tryB {}), 3, 1, 2,
      plain_of (by decide +kernel), by decide +kernel⟩,
    ⟨(tryB {}), 3, 1, 0,
      plain_of (by decide +kernel), by decide +kernel⟩,
    ⟨(tryB { sigOk := true }), 3, 1, 1,
      plain_of (by decide +kernel), by decide +kernel⟩,
    ⟨(tryB { sigOk := true }), 3, 1, 2,
      plain_of (by decide +kernel), by decide +kernel⟩,
    ⟨(tryB { sigOk := true }), 3, 1, 0,
      plain_of (by decide +kernel), by decide +kernel⟩,
    ⟨(tryB {}), 3, 1,
      plain_of (by decide +kernel), by decide +kernel⟩,
    ⟨(tryB { bad := some (8, 0) }), 3, 1, (8, 0),
      plain_of (by decide +kernel), by decide +kernel⟩,
    ⟨(linked .service), 3,
      plain_of (by decide +kernel), by decide +kernel⟩,
    ⟨(recS { recManOk := true, recState := 2, recAccepted := 131071 }), 3,
      plain_of (by decide +kernel), by decide +kernel⟩,
    ⟨{ recS { slotB := slotS { state := 0xFF000000 } } with fuse.keys := [] }, 3, [], 1,
      plain_of (by decide +kernel), by decide +kernel⟩⟩

/-- The premises of `Obligations.RecoveryTransfers`, clause by clause, are met. -/
theorem witness_RecoveryTransfers :
  (∃ (s : State) (dt : Nat),
    (s.elapse dt).Plain ∧ (s.elapse dt).recOpen = false) ∧
  (∃ (s : State) (dt : Nat) (e : Bool),
    (s.elapse dt).Plain ∧ (s.elapse dt).recOpen = true ∧ (e = true ∨ s.boot.recBusy = true)) ∧
  (∃ (s : State) (dt : Nat) (o : Nat) (b : Bytes),
    (s.elapse dt).Plain ∧ (s.elapse dt).recOpen = true ∧ s.boot.recBusy = false ∧ o + List.length b ≤ 524288 ∧ o < 524288) ∧
  (∃ (s : State) (dt : Nat),
    (s.elapse dt).Plain ∧ s.glb.mode ≠ Mode.recovery) ∧
  (∃ (s : State) (dt : Nat) (mp : Option (Nat × Nat)),
    (s.elapse dt).Plain ∧ s.glb.mode = Mode.recovery ∧ mp = none ∧ (¬((s.glb.mode = Mode.recovery ∧ (mp = none → (s.elapse dt).recOpen = true ∧ s.boot.recAgreed ≠ 0) ∧ ∀ (m : Nat × Nat), mp = some m → s.ports.mp.up = true ∧ m.snd / 16 = 1) ∧ s.boot.window = true ∧ (if s.glb.mode = Mode.recovery ∧ s.boot.recState = 1 ∧ s.boot.recHeard + grid 34 ≤ (s.elapse dt).elapsed then ({ s.elapse dt with boot := ({ (s.elapse dt).boot with recState := 5, recBusy := false, recFail := 13, recFinish := none } : Boot) } : State) else s.elapse dt).boot.recBusy = false))) ∧
  (∃ (s : State) (dt : Nat) (mp : Option (Nat × Nat)),
    (s.elapse dt).Plain ∧ s.glb.mode = Mode.recovery ∧ mp ≠ none ∧ s.ports.mp.up = false) ∧
  (∃ (s : State) (dt : Nat) (mp : Option (Nat × Nat)) (m : Nat × Nat),
    (s.elapse dt).Plain ∧ s.glb.mode = Mode.recovery ∧ mp = some m ∧ s.ports.mp.up = true ∧ (¬((s.glb.mode = Mode.recovery ∧ (mp = none → (s.elapse dt).recOpen = true ∧ s.boot.recAgreed ≠ 0) ∧ ∀ (m : Nat × Nat), mp = some m → s.ports.mp.up = true ∧ m.snd / 16 = 1) ∧ s.boot.window = true ∧ (if s.glb.mode = Mode.recovery ∧ s.boot.recState = 1 ∧ s.boot.recHeard + grid 34 ≤ (s.elapse dt).elapsed then ({ s.elapse dt with boot := ({ (s.elapse dt).boot with recState := 5, recBusy := false, recFail := 13, recFinish := none } : Boot) } : State) else s.elapse dt).boot.recBusy = false))) ∧
  (∃ (s : State) (dt : Nat) (mp : Option (Nat × Nat)),
    (s.elapse dt).Plain ∧ ((s.glb.mode = Mode.recovery ∧ (mp = none → (s.elapse dt).recOpen = true ∧ s.boot.recAgreed ≠ 0) ∧ ∀ (m : Nat × Nat), mp = some m → s.ports.mp.up = true ∧ m.snd / 16 = 1) ∧ s.boot.window = true ∧ (if s.glb.mode = Mode.recovery ∧ s.boot.recState = 1 ∧ s.boot.recHeard + grid 34 ≤ (s.elapse dt).elapsed then ({ s.elapse dt with boot := ({ (s.elapse dt).boot with recState := 5, recBusy := false, recFail := 13, recFinish := none } : Boot) } : State) else s.elapse dt).boot.recBusy = false) ∧ (1 ≤ (if s.glb.mode = Mode.recovery ∧ s.boot.recState = 1 ∧ s.boot.recHeard + grid 34 ≤ (s.elapse dt).elapsed then ({ s.elapse dt with boot := ({ (s.elapse dt).boot with recState := 5, recBusy := false, recFail := 13, recFinish := none } : Boot) } : State) else s.elapse dt).boot.recState ∧ (if s.glb.mode = Mode.recovery ∧ s.boot.recState = 1 ∧ s.boot.recHeard + grid 34 ≤ (s.elapse dt).elapsed then ({ s.elapse dt with boot := ({ (s.elapse dt).boot with recState := 5, recBusy := false, recFail := 13, recFinish := none } : Boot) } : State) else s.elapse dt).boot.recState ≤ 4) ∧ (s.boot.recOwner ≠ if mp = none then 0 else 1)) ∧
  (∃ (s : State) (dt : Nat) (mp : Option (Nat × Nat)),
    (s.elapse dt).Plain ∧ ((s.glb.mode = Mode.recovery ∧ (mp = none → (s.elapse dt).recOpen = true ∧ s.boot.recAgreed ≠ 0) ∧ ∀ (m : Nat × Nat), mp = some m → s.ports.mp.up = true ∧ m.snd / 16 = 1) ∧ s.boot.window = true ∧ (if s.glb.mode = Mode.recovery ∧ s.boot.recState = 1 ∧ s.boot.recHeard + grid 34 ≤ (s.elapse dt).elapsed then ({ s.elapse dt with boot := ({ (s.elapse dt).boot with recState := 5, recBusy := false, recFail := 13, recFinish := none } : Boot) } : State) else s.elapse dt).boot.recBusy = false) ∧ (¬(1 ≤ (if s.glb.mode = Mode.recovery ∧ s.boot.recState = 1 ∧ s.boot.recHeard + grid 34 ≤ (s.elapse dt).elapsed then ({ s.elapse dt with boot := ({ (s.elapse dt).boot with recState := 5, recBusy := false, recFail := 13, recFinish := none } : Boot) } : State) else s.elapse dt).boot.recState ∧ (if s.glb.mode = Mode.recovery ∧ s.boot.recState = 1 ∧ s.boot.recHeard + grid 34 ≤ (s.elapse dt).elapsed then ({ s.elapse dt with boot := ({ (s.elapse dt).boot with recState := 5, recBusy := false, recFail := 13, recFinish := none } : Boot) } : State) else s.elapse dt).boot.recState ≤ 4) ∨ s.boot.recOwner = if mp = none then 0 else 1)) ∧
  (∃ (s : State) (dt : Nat) (mp : Option (Nat × Nat)),
    (s.elapse dt).Plain ∧ ((s.glb.mode = Mode.recovery ∧ (mp = none → (s.elapse dt).recOpen = true ∧ s.boot.recAgreed ≠ 0) ∧ ∀ (m : Nat × Nat), mp = some m → s.ports.mp.up = true ∧ m.snd / 16 = 1) ∧ s.boot.window = true ∧ (if s.glb.mode = Mode.recovery ∧ s.boot.recState = 1 ∧ s.boot.recHeard + grid 34 ≤ (s.elapse dt).elapsed then ({ s.elapse dt with boot := ({ (s.elapse dt).boot with recState := 5, recBusy := false, recFail := 13, recFinish := none } : Boot) } : State) else s.elapse dt).boot.recBusy = false) ∧ (¬((if s.glb.mode = Mode.recovery ∧ s.boot.recState = 1 ∧ s.boot.recHeard + grid 34 ≤ (s.elapse dt).elapsed then ({ s.elapse dt with boot := ({ (s.elapse dt).boot with recState := 5, recBusy := false, recFail := 13, recFinish := none } : Boot) } : State) else s.elapse dt).boot.recState = 1 ∧ s.boot.recOwner = if mp = none then 0 else 1))) ∧
  (∃ (s : State) (dt : Nat) (mp : Option (Nat × Nat)) (n : Nat),
    (s.elapse dt).Plain ∧ ((s.glb.mode = Mode.recovery ∧ (mp = none → (s.elapse dt).recOpen = true ∧ s.boot.recAgreed ≠ 0) ∧ ∀ (m : Nat × Nat), mp = some m → s.ports.mp.up = true ∧ m.snd / 16 = 1) ∧ s.boot.window = true ∧ (if s.glb.mode = Mode.recovery ∧ s.boot.recState = 1 ∧ s.boot.recHeard + grid 34 ≤ (s.elapse dt).elapsed then ({ s.elapse dt with boot := ({ (s.elapse dt).boot with recState := 5, recBusy := false, recFail := 13, recFinish := none } : Boot) } : State) else s.elapse dt).boot.recBusy = false) ∧ ((if s.glb.mode = Mode.recovery ∧ s.boot.recState = 1 ∧ s.boot.recHeard + grid 34 ≤ (s.elapse dt).elapsed then ({ s.elapse dt with boot := ({ (s.elapse dt).boot with recState := 5, recBusy := false, recFail := 13, recFinish := none } : Boot) } : State) else s.elapse dt).boot.recState = 1 ∧ s.boot.recOwner = if mp = none then 0 else 1) ∧ (¬((8 ≤ if mp = none then s.boot.recLen else n) ∧ ((if mp = none then s.boot.recLen else n) ≤ if mp = none then 524288 else 1488) ∧ (if mp = none then s.boot.recLen else n) % 8 = 0))) ∧
  (∃ (s : State) (dt : Nat) (mp : Option (Nat × Nat)) (off : Nat) (n : Nat),
    (s.elapse dt).Plain ∧ ((s.glb.mode = Mode.recovery ∧ (mp = none → (s.elapse dt).recOpen = true ∧ s.boot.recAgreed ≠ 0) ∧ ∀ (m : Nat × Nat), mp = some m → s.ports.mp.up = true ∧ m.snd / 16 = 1) ∧ s.boot.window = true ∧ (if s.glb.mode = Mode.recovery ∧ s.boot.recState = 1 ∧ s.boot.recHeard + grid 34 ≤ (s.elapse dt).elapsed then ({ s.elapse dt with boot := ({ (s.elapse dt).boot with recState := 5, recBusy := false, recFail := 13, recFinish := none } : Boot) } : State) else s.elapse dt).boot.recBusy = false) ∧ ((if s.glb.mode = Mode.recovery ∧ s.boot.recState = 1 ∧ s.boot.recHeard + grid 34 ≤ (s.elapse dt).elapsed then ({ s.elapse dt with boot := ({ (s.elapse dt).boot with recState := 5, recBusy := false, recFail := 13, recFinish := none } : Boot) } : State) else s.elapse dt).boot.recState = 1 ∧ s.boot.recOwner = if mp = none then 0 else 1) ∧ ((8 ≤ if mp = none then s.boot.recLen else n) ∧ ((if mp = none then s.boot.recLen else n) ≤ if mp = none then 524288 else 1488) ∧ (if mp = none then s.boot.recLen else n) % 8 = 0) ∧ (if mp = none then s.boot.recOffset else off) ≠ s.boot.recAccepted) ∧
  (∃ (s : State) (dt : Nat) (mp : Option (Nat × Nat)) (off : Nat) (n : Nat),
    (s.elapse dt).Plain ∧ ((s.glb.mode = Mode.recovery ∧ (mp = none → (s.elapse dt).recOpen = true ∧ s.boot.recAgreed ≠ 0) ∧ ∀ (m : Nat × Nat), mp = some m → s.ports.mp.up = true ∧ m.snd / 16 = 1) ∧ s.boot.window = true ∧ (if s.glb.mode = Mode.recovery ∧ s.boot.recState = 1 ∧ s.boot.recHeard + grid 34 ≤ (s.elapse dt).elapsed then ({ s.elapse dt with boot := ({ (s.elapse dt).boot with recState := 5, recBusy := false, recFail := 13, recFinish := none } : Boot) } : State) else s.elapse dt).boot.recBusy = false) ∧ ((if s.glb.mode = Mode.recovery ∧ s.boot.recState = 1 ∧ s.boot.recHeard + grid 34 ≤ (s.elapse dt).elapsed then ({ s.elapse dt with boot := ({ (s.elapse dt).boot with recState := 5, recBusy := false, recFail := 13, recFinish := none } : Boot) } : State) else s.elapse dt).boot.recState = 1 ∧ s.boot.recOwner = if mp = none then 0 else 1) ∧ ((8 ≤ if mp = none then s.boot.recLen else n) ∧ ((if mp = none then s.boot.recLen else n) ≤ if mp = none then 524288 else 1488) ∧ (if mp = none then s.boot.recLen else n) % 8 = 0) ∧ (if mp = none then s.boot.recOffset else off) = s.boot.recAccepted ∧ (s.boot.recTotal < (if mp = none then s.boot.recOffset else off) + if mp = none then s.boot.recLen else n)) ∧
  (∃ (s : State) (dt : Nat) (mp : Option (Nat × Nat)) (off : Nat) (n : Nat),
    (s.elapse dt).Plain ∧ ((s.glb.mode = Mode.recovery ∧ (mp = none → (s.elapse dt).recOpen = true ∧ s.boot.recAgreed ≠ 0) ∧ ∀ (m : Nat × Nat), mp = some m → s.ports.mp.up = true ∧ m.snd / 16 = 1) ∧ s.boot.window = true ∧ (if s.glb.mode = Mode.recovery ∧ s.boot.recState = 1 ∧ s.boot.recHeard + grid 34 ≤ (s.elapse dt).elapsed then ({ s.elapse dt with boot := ({ (s.elapse dt).boot with recState := 5, recBusy := false, recFail := 13, recFinish := none } : Boot) } : State) else s.elapse dt).boot.recBusy = false) ∧ ((if s.glb.mode = Mode.recovery ∧ s.boot.recState = 1 ∧ s.boot.recHeard + grid 34 ≤ (s.elapse dt).elapsed then ({ s.elapse dt with boot := ({ (s.elapse dt).boot with recState := 5, recBusy := false, recFail := 13, recFinish := none } : Boot) } : State) else s.elapse dt).boot.recState = 1 ∧ s.boot.recOwner = if mp = none then 0 else 1) ∧ ((8 ≤ if mp = none then s.boot.recLen else n) ∧ ((if mp = none then s.boot.recLen else n) ≤ if mp = none then 524288 else 1488) ∧ (if mp = none then s.boot.recLen else n) % 8 = 0) ∧ (if mp = none then s.boot.recOffset else off) = s.boot.recAccepted ∧ (((if mp = none then s.boot.recOffset else off) + if mp = none then s.boot.recLen else n) ≤ s.boot.recTotal) ∧ (((if mp = none then s.boot.recOffset else off) + if mp = none then s.boot.recLen else n) < 512) ∧ s.boot.recManOk = false ∧ s.boot.recSigOk = false) ∧
  (∃ (s : State) (dt : Nat) (mp : Option (Nat × Nat)) (off : Nat) (n : Nat) (data : Bytes),
    (s.elapse dt).Plain ∧ ((s.glb.mode = Mode.recovery ∧ (mp = none → (s.elapse dt).recOpen = true ∧ s.boot.recAgreed ≠ 0) ∧ ∀ (m : Nat × Nat), mp = some m → s.ports.mp.up = true ∧ m.snd / 16 = 1) ∧ s.boot.window = true ∧ (if s.glb.mode = Mode.recovery ∧ s.boot.recState = 1 ∧ s.boot.recHeard + grid 34 ≤ (s.elapse dt).elapsed then ({ s.elapse dt with boot := ({ (s.elapse dt).boot with recState := 5, recBusy := false, recFail := 13, recFinish := none } : Boot) } : State) else s.elapse dt).boot.recBusy = false) ∧ ((if s.glb.mode = Mode.recovery ∧ s.boot.recState = 1 ∧ s.boot.recHeard + grid 34 ≤ (s.elapse dt).elapsed then ({ s.elapse dt with boot := ({ (s.elapse dt).boot with recState := 5, recBusy := false, recFail := 13, recFinish := none } : Boot) } : State) else s.elapse dt).boot.recState = 1 ∧ s.boot.recOwner = if mp = none then 0 else 1) ∧ ((8 ≤ if mp = none then s.boot.recLen else n) ∧ ((if mp = none then s.boot.recLen else n) ≤ if mp = none then 524288 else 1488) ∧ (if mp = none then s.boot.recLen else n) % 8 = 0) ∧ (if mp = none then s.boot.recOffset else off) = s.boot.recAccepted ∧ (((if mp = none then s.boot.recOffset else off) + if mp = none then s.boot.recLen else n) ≤ s.boot.recTotal) ∧ (512 ≤ (if mp = none then s.boot.recOffset else off) + if mp = none then s.boot.recLen else n) ∧ (min 65536 (manLen (({ if mp = none then ({ if s.glb.mode = Mode.recovery ∧ s.boot.recState = 1 ∧ s.boot.recHeard + grid 34 ≤ (s.elapse dt).elapsed then ({ s.elapse dt with boot := ({ (s.elapse dt).boot with recState := 5, recBusy := false, recFail := 13, recFinish := none } : Boot) } : State) else s.elapse dt with boot := ({ (if s.glb.mode = Mode.recovery ∧ s.boot.recState = 1 ∧ s.boot.recHeard + grid 34 ≤ (s.elapse dt).elapsed then ({ s.elapse dt with boot := ({ (s.elapse dt).boot with recState := 5, recBusy := false, recFail := 13, recFinish := none } : Boot) } : State) else s.elapse dt).boot with recRefused := false } : Boot) } : State) else if s.glb.mode = Mode.recovery ∧ s.boot.recState = 1 ∧ s.boot.recHeard + grid 34 ≤ (s.elapse dt).elapsed then ({ s.elapse dt with boot := ({ (s.elapse dt).boot with recState := 5, recBusy := false, recFail := 13, recFinish := none } : Boot) } : State) else s.elapse dt with boot := ({ (if mp = none then ({ if s.glb.mode = Mode.recovery ∧ s.boot.recState = 1 ∧ s.boot.recHeard + grid 34 ≤ (s.elapse dt).elapsed then ({ s.elapse dt with boot := ({ (s.elapse dt).boot with recState := 5, recBusy := false, recFail := 13, recFinish := none } : Boot) } : State) else s.elapse dt with boot := ({ (if s.glb.mode = Mode.recovery ∧ s.boot.recState = 1 ∧ s.boot.recHeard + grid 34 ≤ (s.elapse dt).elapsed then ({ s.elapse dt with boot := ({ (s.elapse dt).boot with recState := 5, recBusy := false, recFail := 13, recFinish := none } : Boot) } : State) else s.elapse dt).boot with recRefused := false } : Boot) } : State) else if s.glb.mode = Mode.recovery ∧ s.boot.recState = 1 ∧ s.boot.recHeard + grid 34 ≤ (s.elapse dt).elapsed then ({ s.elapse dt with boot := ({ (s.elapse dt).boot with recState := 5, recBusy := false, recFail := 13, recFinish := none } : Boot) } : State) else s.elapse dt).boot with recAccepted := (if mp = none then s.boot.recOffset else off) + if mp = none then s.boot.recLen else n, recHeard := (s.elapse dt).elapsed } : Boot) } : State).ramWrite (recAt (if mp = none then s.boot.recOffset else off)) (slice (if mp = none then mreads s.ram (recWinAt 0) (if mp = none then s.boot.recLen else n) else data) 0 (if mp = none then s.boot.recLen else n))).recManifest) ≤ (if mp = none then s.boot.recOffset else off) + if mp = none then s.boot.recLen else n) ∧ s.boot.recManOk = false ∧ ((s.elapse dt).manFail (({ if mp = none then ({ if s.glb.mode = Mode.recovery ∧ s.boot.recState = 1 ∧ s.boot.recHeard + grid 34 ≤ (s.elapse dt).elapsed then ({ s.elapse dt with boot := ({ (s.elapse dt).boot with recState := 5, recBusy := false, recFail := 13, recFinish := none } : Boot) } : State) else s.elapse dt with boot := ({ (if s.glb.mode = Mode.recovery ∧ s.boot.recState = 1 ∧ s.boot.recHeard + grid 34 ≤ (s.elapse dt).elapsed then ({ s.elapse dt with boot := ({ (s.elapse dt).boot with recState := 5, recBusy := false, recFail := 13, recFinish := none } : Boot) } : State) else s.elapse dt).boot with recRefused := false } : Boot) } : State) else if s.glb.mode = Mode.recovery ∧ s.boot.recState = 1 ∧ s.boot.recHeard + grid 34 ≤ (s.elapse dt).elapsed then ({ s.elapse dt with boot := ({ (s.elapse dt).boot with recState := 5, recBusy := false, recFail := 13, recFinish := none } : Boot) } : State) else s.elapse dt with boot := ({ (if mp = none then ({ if s.glb.mode = Mode.recovery ∧ s.boot.recState = 1 ∧ s.boot.recHeard + grid 34 ≤ (s.elapse dt).elapsed then ({ s.elapse dt with boot := ({ (s.elapse dt).boot with recState := 5, recBusy := false, recFail := 13, recFinish := none } : Boot) } : State) else s.elapse dt with boot := ({ (if s.glb.mode = Mode.recovery ∧ s.boot.recState = 1 ∧ s.boot.recHeard + grid 34 ≤ (s.elapse dt).elapsed then ({ s.elapse dt with boot := ({ (s.elapse dt).boot with recState := 5, recBusy := false, recFail := 13, recFinish := none } : Boot) } : State) else s.elapse dt).boot with recRefused := false } : Boot) } : State) else if s.glb.mode = Mode.recovery ∧ s.boot.recState = 1 ∧ s.boot.recHeard + grid 34 ≤ (s.elapse dt).elapsed then ({ s.elapse dt with boot := ({ (s.elapse dt).boot with recState := 5, recBusy := false, recFail := 13, recFinish := none } : Boot) } : State) else s.elapse dt).boot with recAccepted := (if mp = none then s.boot.recOffset else off) + if mp = none then s.boot.recLen else n, recHeard := (s.elapse dt).elapsed } : Boot) } : State).ramWrite (recAt (if mp = none then s.boot.recOffset else off)) (slice (if mp = none then mreads s.ram (recWinAt 0) (if mp = none then s.boot.recLen else n) else data) 0 (if mp = none then s.boot.recLen else n))).recManifest ≠ 0)) ∧
  (∃ (s : State) (dt : Nat) (mp : Option (Nat × Nat)) (off : Nat) (n : Nat) (data : Bytes),
    (s.elapse dt).Plain ∧ ((s.glb.mode = Mode.recovery ∧ (mp = none → (s.elapse dt).recOpen = true ∧ s.boot.recAgreed ≠ 0) ∧ ∀ (m : Nat × Nat), mp = some m → s.ports.mp.up = true ∧ m.snd / 16 = 1) ∧ s.boot.window = true ∧ (if s.glb.mode = Mode.recovery ∧ s.boot.recState = 1 ∧ s.boot.recHeard + grid 34 ≤ (s.elapse dt).elapsed then ({ s.elapse dt with boot := ({ (s.elapse dt).boot with recState := 5, recBusy := false, recFail := 13, recFinish := none } : Boot) } : State) else s.elapse dt).boot.recBusy = false) ∧ ((if s.glb.mode = Mode.recovery ∧ s.boot.recState = 1 ∧ s.boot.recHeard + grid 34 ≤ (s.elapse dt).elapsed then ({ s.elapse dt with boot := ({ (s.elapse dt).boot with recState := 5, recBusy := false, recFail := 13, recFinish := none } : Boot) } : State) else s.elapse dt).boot.recState = 1 ∧ s.boot.recOwner = if mp = none then 0 else 1) ∧ ((8 ≤ if mp = none then s.boot.recLen else n) ∧ ((if mp = none then s.boot.recLen else n) ≤ if mp = none then 524288 else 1488) ∧ (if mp = none then s.boot.recLen else n) % 8 = 0) ∧ (if mp = none then s.boot.recOffset else off) = s.boot.recAccepted ∧ (((if mp = none then s.boot.recOffset else off) + if mp = none then s.boot.recLen else n) ≤ s.boot.recTotal) ∧ (512 ≤ (if mp = none then s.boot.recOffset else off) + if mp = none then s.boot.recLen else n) ∧ (min 65536 (manLen (({ if mp = none then ({ if s.glb.mode = Mode.recovery ∧ s.boot.recState = 1 ∧ s.boot.recHeard + grid 34 ≤ (s.elapse dt).elapsed then ({ s.elapse dt with boot := ({ (s.elapse dt).boot with recState := 5, recBusy := false, recFail := 13, recFinish := none } : Boot) } : State) else s.elapse dt with boot := ({ (if s.glb.mode = Mode.recovery ∧ s.boot.recState = 1 ∧ s.boot.recHeard + grid 34 ≤ (s.elapse dt).elapsed then ({ s.elapse dt with boot := ({ (s.elapse dt).boot with recState := 5, recBusy := false, recFail := 13, recFinish := none } : Boot) } : State) else s.elapse dt).boot with recRefused := false } : Boot) } : State) else if s.glb.mode = Mode.recovery ∧ s.boot.recState = 1 ∧ s.boot.recHeard + grid 34 ≤ (s.elapse dt).elapsed then ({ s.elapse dt with boot := ({ (s.elapse dt).boot with recState := 5, recBusy := false, recFail := 13, recFinish := none } : Boot) } : State) else s.elapse dt with boot := ({ (if mp = none then ({ if s.glb.mode = Mode.recovery ∧ s.boot.recState = 1 ∧ s.boot.recHeard + grid 34 ≤ (s.elapse dt).elapsed then ({ s.elapse dt with boot := ({ (s.elapse dt).boot with recState := 5, recBusy := false, recFail := 13, recFinish := none } : Boot) } : State) else s.elapse dt with boot := ({ (if s.glb.mode = Mode.recovery ∧ s.boot.recState = 1 ∧ s.boot.recHeard + grid 34 ≤ (s.elapse dt).elapsed then ({ s.elapse dt with boot := ({ (s.elapse dt).boot with recState := 5, recBusy := false, recFail := 13, recFinish := none } : Boot) } : State) else s.elapse dt).boot with recRefused := false } : Boot) } : State) else if s.glb.mode = Mode.recovery ∧ s.boot.recState = 1 ∧ s.boot.recHeard + grid 34 ≤ (s.elapse dt).elapsed then ({ s.elapse dt with boot := ({ (s.elapse dt).boot with recState := 5, recBusy := false, recFail := 13, recFinish := none } : Boot) } : State) else s.elapse dt).boot with recAccepted := (if mp = none then s.boot.recOffset else off) + if mp = none then s.boot.recLen else n, recHeard := (s.elapse dt).elapsed } : Boot) } : State).ramWrite (recAt (if mp = none then s.boot.recOffset else off)) (slice (if mp = none then mreads s.ram (recWinAt 0) (if mp = none then s.boot.recLen else n) else data) 0 (if mp = none then s.boot.recLen else n))).recManifest) ≤ (if mp = none then s.boot.recOffset else off) + if mp = none then s.boot.recLen else n) ∧ s.boot.recManOk = false ∧ ((s.elapse dt).manFail (({ if mp = none then ({ if s.glb.mode = Mode.recovery ∧ s.boot.recState = 1 ∧ s.boot.recHeard + grid 34 ≤ (s.elapse dt).elapsed then ({ s.elapse dt with boot := ({ (s.elapse dt).boot with recState := 5, recBusy := false, recFail := 13, recFinish := none } : Boot) } : State) else s.elapse dt with boot := ({ (if s.glb.mode = Mode.recovery ∧ s.boot.recState = 1 ∧ s.boot.recHeard + grid 34 ≤ (s.elapse dt).elapsed then ({ s.elapse dt with boot := ({ (s.elapse dt).boot with recState := 5, recBusy := false, recFail := 13, recFinish := none } : Boot) } : State) else s.elapse dt).boot with recRefused := false } : Boot) } : State) else if s.glb.mode = Mode.recovery ∧ s.boot.recState = 1 ∧ s.boot.recHeard + grid 34 ≤ (s.elapse dt).elapsed then ({ s.elapse dt with boot := ({ (s.elapse dt).boot with recState := 5, recBusy := false, recFail := 13, recFinish := none } : Boot) } : State) else s.elapse dt with boot := ({ (if mp = none then ({ if s.glb.mode = Mode.recovery ∧ s.boot.recState = 1 ∧ s.boot.recHeard + grid 34 ≤ (s.elapse dt).elapsed then ({ s.elapse dt with boot := ({ (s.elapse dt).boot with recState := 5, recBusy := false, recFail := 13, recFinish := none } : Boot) } : State) else s.elapse dt with boot := ({ (if s.glb.mode = Mode.recovery ∧ s.boot.recState = 1 ∧ s.boot.recHeard + grid 34 ≤ (s.elapse dt).elapsed then ({ s.elapse dt with boot := ({ (s.elapse dt).boot with recState := 5, recBusy := false, recFail := 13, recFinish := none } : Boot) } : State) else s.elapse dt).boot with recRefused := false } : Boot) } : State) else if s.glb.mode = Mode.recovery ∧ s.boot.recState = 1 ∧ s.boot.recHeard + grid 34 ≤ (s.elapse dt).elapsed then ({ s.elapse dt with boot := ({ (s.elapse dt).boot with recState := 5, recBusy := false, recFail := 13, recFinish := none } : Boot) } : State) else s.elapse dt).boot with recAccepted := (if mp = none then s.boot.recOffset else off) + if mp = none then s.boot.recLen else n, recHeard := (s.elapse dt).elapsed } : Boot) } : State).ramWrite (recAt (if mp = none then s.boot.recOffset else off)) (slice (if mp = none then mreads s.ram (recWinAt 0) (if mp = none then s.boot.recLen else n) else data) 0 (if mp = none then s.boot.recLen else n))).recManifest = 0) ∧ ((manBlocks (({ if mp = none then ({ if s.glb.mode = Mode.recovery ∧ s.boot.recState = 1 ∧ s.boot.recHeard + grid 34 ≤ (s.elapse dt).elapsed then ({ s.elapse dt with boot := ({ (s.elapse dt).boot with recState := 5, recBusy := false, recFail := 13, recFinish := none } : Boot) } : State) else s.elapse dt with boot := ({ (if s.glb.mode = Mode.recovery ∧ s.boot.recState = 1 ∧ s.boot.recHeard + grid 34 ≤ (s.elapse dt).elapsed then ({ s.elapse dt with boot := ({ (s.elapse dt).boot with recState := 5, recBusy := false, recFail := 13, recFinish := none } : Boot) } : State) else s.elapse dt).boot with recRefused := false } : Boot) } : State) else if s.glb.mode = Mode.recovery ∧ s.boot.recState = 1 ∧ s.boot.recHeard + grid 34 ≤ (s.elapse dt).elapsed then ({ s.elapse dt with boot := ({ (s.elapse dt).boot with recState := 5, recBusy := false, recFail := 13, recFinish := none } : Boot) } : State) else s.elapse dt with boot := ({ (if mp = none then ({ if s.glb.mode = Mode.recovery ∧ s.boot.recState = 1 ∧ s.boot.recHeard + grid 34 ≤ (s.elapse dt).elapsed then ({ s.elapse dt with boot := ({ (s.elapse dt).boot with recState := 5, recBusy := false, recFail := 13, recFinish := none } : Boot) } : State) else s.elapse dt with boot := ({ (if s.glb.mode = Mode.recovery ∧ s.boot.recState = 1 ∧ s.boot.recHeard + grid 34 ≤ (s.elapse dt).elapsed then ({ s.elapse dt with boot := ({ (s.elapse dt).boot with recState := 5, recBusy := false, recFail := 13, recFinish := none } : Boot) } : State) else s.elapse dt).boot with recRefused := false } : Boot) } : State) else if s.glb.mode = Mode.recovery ∧ s.boot.recState = 1 ∧ s.boot.recHeard + grid 34 ≤ (s.elapse dt).elapsed then ({ s.elapse dt with boot := ({ (s.elapse dt).boot with recState := 5, recBusy := false, recFail := 13, recFinish := none } : Boot) } : State) else s.elapse dt).boot with recAccepted := (if mp = none then s.boot.recOffset else off) + if mp = none then s.boot.recLen else n, recHeard := (s.elapse dt).elapsed } : Boot) } : State).ramWrite (recAt (if mp = none then s.boot.recOffset else off)) (slice (if mp = none then mreads s.ram (recWinAt 0) (if mp = none then s.boot.recLen else n) else data) 0 (if mp = none then s.boot.recLen else n))).recManifest + 1) * 65536 ≠ s.boot.recTotal)) ∧
  (∃ (s : State) (dt : Nat) (mp : Option (Nat × Nat)) (off : Nat) (n : Nat) (data : Bytes),
    (s.elapse dt).Plain ∧ ((s.glb.mode = Mode.recovery ∧ (mp = none → (s.elapse dt).recOpen = true ∧ s.boot.recAgreed ≠ 0) ∧ ∀ (m : Nat × Nat), mp = some m → s.ports.mp.up = true ∧ m.snd / 16 = 1) ∧ s.boot.window = true ∧ (if s.glb.mode = Mode.recovery ∧ s.boot.recState = 1 ∧ s.boot.recHeard + grid 34 ≤ (s.elapse dt).elapsed then ({ s.elapse dt with boot := ({ (s.elapse dt).boot with recState := 5, recBusy := false, recFail := 13, recFinish := none } : Boot) } : State) else s.elapse dt).boot.recBusy = false) ∧ ((if s.glb.mode = Mode.recovery ∧ s.boot.recState = 1 ∧ s.boot.recHeard + grid 34 ≤ (s.elapse dt).elapsed then ({ s.elapse dt with boot := ({ (s.elapse dt).boot with recState := 5, recBusy := false, recFail := 13, recFinish := none } : Boot) } : State) else s.elapse dt).boot.recState = 1 ∧ s.boot.recOwner = if mp = none then 0 else 1) ∧ ((8 ≤ if mp = none then s.boot.recLen else n) ∧ ((if mp = none then s.boot.recLen else n) ≤ if mp = none then 524288 else 1488) ∧ (if mp = none then s.boot.recLen else n) % 8 = 0) ∧ (if mp = none then s.boot.recOffset else off) = s.boot.recAccepted ∧ (((if mp = none then s.boot.recOffset else off) + if mp = none then s.boot.recLen else n) ≤ s.boot.recTotal) ∧ (512 ≤ (if mp = none then s.boot.recOffset else off) + if mp = none then s.boot.recLen else n) ∧ (min 65536 (manLen (({ if mp = none then ({ if s.glb.mode = Mode.recovery ∧ s.boot.recState = 1 ∧ s.boot.recHeard + grid 34 ≤ (s.elapse dt).elapsed then ({ s.elapse dt with boot := ({ (s.elapse dt).boot with recState := 5, recBusy := false, recFail := 13, recFinish := none } : Boot) } : State) else s.elapse dt with boot := ({ (if s.glb.mode = Mode.recovery ∧ s.boot.recState = 1 ∧ s.boot.recHeard + grid 34 ≤ (s.elapse dt).elapsed then ({ s.elapse dt with boot := ({ (s.elapse dt).boot with recState := 5, recBusy := false, recFail := 13, recFinish := none } : Boot) } : State) else s.elapse dt).boot with recRefused := false } : Boot) } : State) else if s.glb.mode = Mode.recovery ∧ s.boot.recState = 1 ∧ s.boot.recHeard + grid 34 ≤ (s.elapse dt).elapsed then ({ s.elapse dt with boot := ({ (s.elapse dt).boot with recState := 5, recBusy := false, recFail := 13, recFinish := none } : Boot) } : State) else s.elapse dt with boot := ({ (if mp = none then ({ if s.glb.mode = Mode.recovery ∧ s.boot.recState = 1 ∧ s.boot.recHeard + grid 34 ≤ (s.elapse dt).elapsed then ({ s.elapse dt with boot := ({ (s.elapse dt).boot with recState := 5, recBusy := false, recFail := 13, recFinish := none } : Boot) } : State) else s.elapse dt with boot := ({ (if s.glb.mode = Mode.recovery ∧ s.boot.recState = 1 ∧ s.boot.recHeard + grid 34 ≤ (s.elapse dt).elapsed then ({ s.elapse dt with boot := ({ (s.elapse dt).boot with recState := 5, recBusy := false, recFail := 13, recFinish := none } : Boot) } : State) else s.elapse dt).boot with recRefused := false } : Boot) } : State) else if s.glb.mode = Mode.recovery ∧ s.boot.recState = 1 ∧ s.boot.recHeard + grid 34 ≤ (s.elapse dt).elapsed then ({ s.elapse dt with boot := ({ (s.elapse dt).boot with recState := 5, recBusy := false, recFail := 13, recFinish := none } : Boot) } : State) else s.elapse dt).boot with recAccepted := (if mp = none then s.boot.recOffset else off) + if mp = none then s.boot.recLen else n, recHeard := (s.elapse dt).elapsed } : Boot) } : State).ramWrite (recAt (if mp = none then s.boot.recOffset else off)) (slice (if mp = none then mreads s.ram (recWinAt 0) (if mp = none then s.boot.recLen else n) else data) 0 (if mp = none then s.boot.recLen else n))).recManifest) ≤ (if mp = none then s.boot.recOffset else off) + if mp = none then s.boot.recLen else n) ∧ s.boot.recManOk = false ∧ ((s.elapse dt).manFail (({ if mp = none then ({ if s.glb.mode = Mode.recovery ∧ s.boot.recState = 1 ∧ s.boot.recHeard + grid 34 ≤ (s.elapse dt).elapsed then ({ s.elapse dt with boot := ({ (s.elapse dt).boot with recState := 5, recBusy := false, recFail := 13, recFinish := none } : Boot) } : State) else s.elapse dt with boot := ({ (if s.glb.mode = Mode.recovery ∧ s.boot.recState = 1 ∧ s.boot.recHeard + grid 34 ≤ (s.elapse dt).elapsed then ({ s.elapse dt with boot := ({ (s.elapse dt).boot with recState := 5, recBusy := false, recFail := 13, recFinish := none } : Boot) } : State) else s.elapse dt).boot with recRefused := false } : Boot) } : State) else if s.glb.mode = Mode.recovery ∧ s.boot.recState = 1 ∧ s.boot.recHeard + grid 34 ≤ (s.elapse dt).elapsed then ({ s.elapse dt with boot := ({ (s.elapse dt).boot with recState := 5, recBusy := false, recFail := 13, recFinish := none } : Boot) } : State) else s.elapse dt with boot := ({ (if mp = none then ({ if s.glb.mode = Mode.recovery ∧ s.boot.recState = 1 ∧ s.boot.recHeard + grid 34 ≤ (s.elapse dt).elapsed then ({ s.elapse dt with boot := ({ (s.elapse dt).boot with recState := 5, recBusy := false, recFail := 13, recFinish := none } : Boot) } : State) else s.elapse dt with boot := ({ (if s.glb.mode = Mode.recovery ∧ s.boot.recState = 1 ∧ s.boot.recHeard + grid 34 ≤ (s.elapse dt).elapsed then ({ s.elapse dt with boot := ({ (s.elapse dt).boot with recState := 5, recBusy := false, recFail := 13, recFinish := none } : Boot) } : State) else s.elapse dt).boot with recRefused := false } : Boot) } : State) else if s.glb.mode = Mode.recovery ∧ s.boot.recState = 1 ∧ s.boot.recHeard + grid 34 ≤ (s.elapse dt).elapsed then ({ s.elapse dt with boot := ({ (s.elapse dt).boot with recState := 5, recBusy := false, recFail := 13, recFinish := none } : Boot) } : State) else s.elapse dt).boot with recAccepted := (if mp = none then s.boot.recOffset else off) + if mp = none then s.boot.recLen else n, recHeard := (s.elapse dt).elapsed } : Boot) } : State).ramWrite (recAt (if mp = none then s.boot.recOffset else off)) (slice (if mp = none then mreads s.ram (recWinAt 0) (if mp = none then s.boot.recLen else n) else data) 0 (if mp = none then s.boot.recLen else n))).recManifest = 0) ∧ ((manBlocks (({ if mp = none then ({ if s.glb.mode = Mode.recovery ∧ s.boot.recState = 1 ∧ s.boot.recHeard + grid 34 ≤ (s.elapse dt).elapsed then ({ s.elapse dt with boot := ({ (s.elapse dt).boot with recState := 5, recBusy := false, recFail := 13, recFinish := none } : Boot) } : State) else s.elapse dt with boot := ({ (if s.glb.mode = Mode.recovery ∧ s.boot.recState = 1 ∧ s.boot.recHeard + grid 34 ≤ (s.elapse dt).elapsed then ({ s.elapse dt with boot := ({ (s.elapse dt).boot with recState := 5, recBusy := false, recFail := 13, recFinish := none } : Boot) } : State) else s.elapse dt).boot with recRefused := false } : Boot) } : State) else if s.glb.mode = Mode.recovery ∧ s.boot.recState = 1 ∧ s.boot.recHeard + grid 34 ≤ (s.elapse dt).elapsed then ({ s.elapse dt with boot := ({ (s.elapse dt).boot with recState := 5, recBusy := false, recFail := 13, recFinish := none } : Boot) } : State) else s.elapse dt with boot := ({ (if mp = none then ({ if s.glb.mode = Mode.recovery ∧ s.boot.recState = 1 ∧ s.boot.recHeard + grid 34 ≤ (s.elapse dt).elapsed then ({ s.elapse dt with boot := ({ (s.elapse dt).boot with recState := 5, recBusy := false, recFail := 13, recFinish := none } : Boot) } : State) else s.elapse dt with boot := ({ (if s.glb.mode = Mode.recovery ∧ s.boot.recState = 1 ∧ s.boot.recHeard + grid 34 ≤ (s.elapse dt).elapsed then ({ s.elapse dt with boot := ({ (s.elapse dt).boot with recState := 5, recBusy := false, recFail := 13, recFinish := none } : Boot) } : State) else s.elapse dt).boot with recRefused := false } : Boot) } : State) else if s.glb.mode = Mode.recovery ∧ s.boot.recState = 1 ∧ s.boot.recHeard + grid 34 ≤ (s.elapse dt).elapsed then ({ s.elapse dt with boot := ({ (s.elapse dt).boot with recState := 5, recBusy := false, recFail := 13, recFinish := none } : Boot) } : State) else s.elapse dt).boot with recAccepted := (if mp = none then s.boot.recOffset else off) + if mp = none then s.boot.recLen else n, recHeard := (s.elapse dt).elapsed } : Boot) } : State).ramWrite (recAt (if mp = none then s.boot.recOffset else off)) (slice (if mp = none then mreads s.ram (recWinAt 0) (if mp = none then s.boot.recLen else n) else data) 0 (if mp = none then s.boot.recLen else n))).recManifest + 1) * 65536 = s.boot.recTotal) ∧ (((if mp = none then s.boot.recOffset else off) + if mp = none then s.boot.recLen else n) < 131072) ∧ s.boot.recSigOk = false) ∧
  (∃ (s : State) (dt : Nat) (mp : Option (Nat × Nat)) (off : Nat) (n : Nat),
    (s.elapse dt).Plain ∧ ((s.glb.mode = Mode.recovery ∧ (mp = none → (s.elapse dt).recOpen = true ∧ s.boot.recAgreed ≠ 0) ∧ ∀ (m : Nat × Nat), mp = some m → s.ports.mp.up = true ∧ m.snd / 16 = 1) ∧ s.boot.window = true ∧ (if s.glb.mode = Mode.recovery ∧ s.boot.recState = 1 ∧ s.boot.recHeard + grid 34 ≤ (s.elapse dt).elapsed then ({ s.elapse dt with boot := ({ (s.elapse dt).boot with recState := 5, recBusy := false, recFail := 13, recFinish := none } : Boot) } : State) else s.elapse dt).boot.recBusy = false) ∧ ((if s.glb.mode = Mode.recovery ∧ s.boot.recState = 1 ∧ s.boot.recHeard + grid 34 ≤ (s.elapse dt).elapsed then ({ s.elapse dt with boot := ({ (s.elapse dt).boot with recState := 5, recBusy := false, recFail := 13, recFinish := none } : Boot) } : State) else s.elapse dt).boot.recState = 1 ∧ s.boot.recOwner = if mp = none then 0 else 1) ∧ ((8 ≤ if mp = none then s.boot.recLen else n) ∧ ((if mp = none then s.boot.recLen else n) ≤ if mp = none then 524288 else 1488) ∧ (if mp = none then s.boot.recLen else n) % 8 = 0) ∧ (if mp = none then s.boot.recOffset else off) = s.boot.recAccepted ∧ (((if mp = none then s.boot.recOffset else off) + if mp = none then s.boot.recLen else n) ≤ s.boot.recTotal) ∧ s.boot.recManOk = true ∧ s.boot.recSigOk = false) ∧
  (∃ (s : State) (dt : Nat) (mp : Option (Nat × Nat)),
    (s.elapse dt).Plain ∧ ((s.glb.mode = Mode.recovery ∧ (mp = none → (s.elapse dt).recOpen = true ∧ s.boot.recAgreed ≠ 0) ∧ ∀ (m : Nat × Nat), mp = some m → s.ports.mp.up = true ∧ m.snd / 16 = 1) ∧ s.boot.window = true ∧ (if s.glb.mode = Mode.recovery ∧ s.boot.recState = 1 ∧ s.boot.recHeard + grid 34 ≤ (s.elapse dt).elapsed then ({ s.elapse dt with boot := ({ (s.elapse dt).boot with recState := 5, recBusy := false, recFail := 13, recFinish := none } : Boot) } : State) else s.elapse dt).boot.recBusy = false) ∧ (¬((if s.glb.mode = Mode.recovery ∧ s.boot.recState = 1 ∧ s.boot.recHeard + grid 34 ≤ (s.elapse dt).elapsed then ({ s.elapse dt with boot := ({ (s.elapse dt).boot with recState := 5, recBusy := false, recFail := 13, recFinish := none } : Boot) } : State) else s.elapse dt).boot.recState = 1 ∧ (s.boot.recOwner = if mp = none then 0 else 1) ∧ s.boot.recTotal ≤ s.boot.recAccepted))) ∧
  (∃ (s : State) (dt : Nat) (mp : Option (Nat × Nat)),
    (s.elapse dt).Plain ∧ ((s.glb.mode = Mode.recovery ∧ (mp = none → (s.elapse dt).recOpen = true ∧ s.boot.recAgreed ≠ 0) ∧ ∀ (m : Nat × Nat), mp = some m → s.ports.mp.up = true ∧ m.snd / 16 = 1) ∧ s.boot.window = true ∧ (if s.glb.mode = Mode.recovery ∧ s.boot.recState = 1 ∧ s.boot.recHeard + grid 34 ≤ (s.elapse dt).elapsed then ({ s.elapse dt with boot := ({ (s.elapse dt).boot with recState := 5, recBusy := false, recFail := 13, recFinish := none } : Boot) } : State) else s.elapse dt).boot.recBusy = false) ∧ ((if s.glb.mode = Mode.recovery ∧ s.boot.recState = 1 ∧ s.boot.recHeard + grid 34 ≤ (s.elapse dt).elapsed then ({ s.elapse dt with boot := ({ (s.elapse dt).boot with recState := 5, recBusy := false, recFail := 13, recFinish := none } : Boot) } : State) else s.elapse dt).boot.recState = 1 ∧ (s.boot.recOwner = if mp = none then 0 else 1) ∧ s.boot.recTotal ≤ s.boot.recAccepted) ∧ (¬(s.boot.recSigOk = true ∧ s.boot.recBad = none))) ∧
  (∃ (s : State) (dt : Nat) (mp : Option (Nat × Nat)) (f : Bool),
    (s.elapse dt).Plain ∧ ((s.glb.mode = Mode.recovery ∧ (mp = none → (s.elapse dt).recOpen = true ∧ s.boot.recAgreed ≠ 0) ∧ ∀ (m : Nat × Nat), mp = some m → s.ports.mp.up = true ∧ m.snd / 16 = 1) ∧ s.boot.window = true ∧ (if s.glb.mode = Mode.recovery ∧ s.boot.recState = 1 ∧ s.boot.recHeard + grid 34 ≤ (s.elapse dt).elapsed then ({ s.elapse dt with boot := ({ (s.elapse dt).boot with recState := 5, recBusy := false, recFail := 13, recFinish := none } : Boot) } : State) else s.elapse dt).boot.recBusy = false) ∧ ((if s.glb.mode = Mode.recovery ∧ s.boot.recState = 1 ∧ s.boot.recHeard + grid 34 ≤ (s.elapse dt).elapsed then ({ s.elapse dt with boot := ({ (s.elapse dt).boot with recState := 5, recBusy := false, recFail := 13, recFinish := none } : Boot) } : State) else s.elapse dt).boot.recState = 1 ∧ (s.boot.recOwner = if mp = none then 0 else 1) ∧ s.boot.recTotal ≤ s.boot.recAccepted) ∧ (s.boot.recSigOk = true ∧ s.boot.recBad = none) ∧ f = false) ∧
  (∃ (s : State) (dt : Nat) (mp : Option (Nat × Nat)) (f : Bool),
    (s.elapse dt).Plain ∧ ((s.glb.mode = Mode.recovery ∧ (mp = none → (s.elapse dt).recOpen = true ∧ s.boot.recAgreed ≠ 0) ∧ ∀ (m : Nat × Nat), mp = some m → s.ports.mp.up = true ∧ m.snd / 16 = 1) ∧ s.boot.window = true ∧ (if s.glb.mode = Mode.recovery ∧ s.boot.recState = 1 ∧ s.boot.recHeard + grid 34 ≤ (s.elapse dt).elapsed then ({ s.elapse dt with boot := ({ (s.elapse dt).boot with recState := 5, recBusy := false, recFail := 13, recFinish := none } : Boot) } : State) else s.elapse dt).boot.recBusy = false) ∧ ((if s.glb.mode = Mode.recovery ∧ s.boot.recState = 1 ∧ s.boot.recHeard + grid 34 ≤ (s.elapse dt).elapsed then ({ s.elapse dt with boot := ({ (s.elapse dt).boot with recState := 5, recBusy := false, recFail := 13, recFinish := none } : Boot) } : State) else s.elapse dt).boot.recState = 1 ∧ (s.boot.recOwner = if mp = none then 0 else 1) ∧ s.boot.recTotal ≤ s.boot.recAccepted) ∧ (s.boot.recSigOk = true ∧ s.boot.recBad = none) ∧ f = true) ∧
  (∃ (s : State) (dt : Nat) (mp : Option (Nat × Nat)),
    (s.elapse dt).Plain ∧ ((s.glb.mode = Mode.recovery ∧ (mp = none → (s.elapse dt).recOpen = true ∧ s.boot.recAgreed ≠ 0) ∧ ∀ (m : Nat × Nat), mp = some m → s.ports.mp.up = true ∧ m.snd / 16 = 1) ∧ s.boot.window = true ∧ (if s.glb.mode = Mode.recovery ∧ s.boot.recState = 1 ∧ s.boot.recHeard + grid 34 ≤ (s.elapse dt).elapsed then ({ s.elapse dt with boot := ({ (s.elapse dt).boot with recState := 5, recBusy := false, recFail := 13, recFinish := none } : Boot) } : State) else s.elapse dt).boot.recBusy = false) ∧ (¬((1 ≤ (if s.glb.mode = Mode.recovery ∧ s.boot.recState = 1 ∧ s.boot.recHeard + grid 34 ≤ (s.elapse dt).elapsed then ({ s.elapse dt with boot := ({ (s.elapse dt).boot with recState := 5, recBusy := false, recFail := 13, recFinish := none } : Boot) } : State) else s.elapse dt).boot.recState ∧ (if s.glb.mode = Mode.recovery ∧ s.boot.recState = 1 ∧ s.boot.recHeard + grid 34 ≤ (s.elapse dt).elapsed then ({ s.elapse dt with boot := ({ (s.elapse dt).boot with recState := 5, recBusy := false, recFail := 13, recFinish := none } : Boot) } : State) else s.elapse dt).boot.recState ≤ 4) ∧ s.boot.recOwner = if mp = none then 0 else 1))) ∧
  (∃ (s : State) (dt : Nat) (mp : Option (Nat × Nat)),
    (s.elapse dt).Plain ∧ ((s.glb.mode = Mode.recovery ∧ (mp = none → (s.elapse dt).recOpen = true ∧ s.boot.recAgreed ≠ 0) ∧ ∀ (m : Nat × Nat), mp = some m → s.ports.mp.up = true ∧ m.snd / 16 = 1) ∧ s.boot.window = true ∧ (if s.glb.mode = Mode.recovery ∧ s.boot.recState = 1 ∧ s.boot.recHeard + grid 34 ≤ (s.elapse dt).elapsed then ({ s.elapse dt with boot := ({ (s.elapse dt).boot with recState := 5, recBusy := false, recFail := 13, recFinish := none } : Boot) } : State) else s.elapse dt).boot.recBusy = false) ∧ ((1 ≤ (if s.glb.mode = Mode.recovery ∧ s.boot.recState = 1 ∧ s.boot.recHeard + grid 34 ≤ (s.elapse dt).elapsed then ({ s.elapse dt with boot := ({ (s.elapse dt).boot with recState := 5, recBusy := false, recFail := 13, recFinish := none } : Boot) } : State) else s.elapse dt).boot.recState ∧ (if s.glb.mode = Mode.recovery ∧ s.boot.recState = 1 ∧ s.boot.recHeard + grid 34 ≤ (s.elapse dt).elapsed then ({ s.elapse dt with boot := ({ (s.elapse dt).boot with recState := 5, recBusy := false, recFail := 13, recFinish := none } : Boot) } : State) else s.elapse dt).boot.recState ≤ 4) ∧ s.boot.recOwner = if mp = none then 0 else 1)) ∧
  (∃ (s : State) (dt : Nat),
    (s.elapse dt).Plain ∧ (s.boot.recState ≠ 3 ∨ s.boot.recBusy = false)) ∧
  (∃ (s : State) (dt : Nat),
    (s.elapse dt).Plain ∧ s.boot.recState = 3 ∧ s.boot.recBusy = true ∧ s.boot.recTarget ≤ 1) ∧
  (∃ (s : State) (dt : Nat),
    (s.elapse dt).Plain ∧ (s.glb.mode ≠ Mode.recovery ∨ s.ports.mp.up = false)) :=
  ⟨⟨(linked .service), 3,
      plain_of (by decide +kernel), by decide +kernel⟩,
    ⟨(recS { recState := 1 }), 3, true,
      plain_of (by decide +kernel), by decide +kernel⟩,
    ⟨(recS {  }), 3, 524286, [1, 2],
      plain_of (by decide +kernel), by decide +kernel⟩,
    ⟨(linked .service), 3,
      plain_of (by decide +kernel), by decide +kernel⟩,
    ⟨{ recS {} with boot.recAgreed := 0 }, 3, none,
      plain_of (by decide +kernel), by decide +kernel⟩,
    ⟨(recS {}), 3, (some (5, 0x10)),
      plain_of (by decide +kernel), by decide +kernel⟩,
    ⟨recMp, 3, (some (5, 0x20)), (5, 0x20),
      plain_of (by decide +kernel), by decide +kernel⟩,
    ⟨(recS { recState := 2, recOwner := 1 }), 3, none,
      plain_of (by decide +kernel), by decide +kernel⟩,
    ⟨(recS { recLen := 131072, recOwner := 1 }), 3, none,
      plain_of (by decide +kernel), by decide +kernel⟩,
    ⟨(recS { recState := 2 }), 3, none,
      plain_of (by decide +kernel), by decide +kernel⟩,
    ⟨(recS { recState := 1, recTotal := 131072, recLen := 4 }), 3, none, 0,
      plain_of (by decide +kernel), by decide +kernel⟩,
    ⟨(recS { recState := 1, recTotal := 131072, recLen := 8, recOffset := 8 }), 3, none, 0, 0,
      plain_of (by decide +kernel), by decide +kernel⟩,
    ⟨(recS { recState := 1, recTotal := 131072, recLen := 8, recOffset := 131072, recAccepted := 131072 }), 3, none, 0, 0,
      plain_of (by decide +kernel), by decide +kernel⟩,
    ⟨(recS { recState := 1, recTotal := 131072, recLen := 8, recOffset := 8, recAccepted := 8 }), 3, none, 0, 0,
      plain_of (by decide +kernel), by decide +kernel⟩,
    ⟨{ recM { recLen := 8, recOffset := 552, recAccepted := 552, recTotal := 131072 } with fuse.keys := [], fuse.stepping := 0x10 }, 3, none, 0, 0, [],
      plain_of (by decide +kernel), by decide +kernel⟩,
    ⟨{ recM { recLen := 8, recOffset := 552, recAccepted := 552, recTotal := 196608 } with fuse.keys := [key1, {}, {}, {}], fuse.stepping := 0x10 }, 3, none, 0, 0, [],
      plain_of (by decide +kernel), by decide +kernel⟩,
    ⟨{ recM { recLen := 8, recOffset := 552, recAccepted := 552, recTotal := 131072 } with fuse.keys := [key1, {}, {}, {}], fuse.stepping := 0x10 }, 3, none, 0, 0, [],
      plain_of (by decide +kernel), by decide +kernel⟩,
    ⟨(recS { recState := 1, recTotal := 131072, recLen := 8, recOffset := 1024, recAccepted := 1024, recManOk := true }), 3, none, 0, 0,
      plain_of (by decide +kernel), by decide +kernel⟩,
    ⟨(recS { recState := 1, recTotal := 131072,  }), 3, none,
      plain_of (by decide +kernel), by decide +kernel⟩,
    ⟨(recS { recState := 1, recTotal := 131072, recAccepted := 131072 }), 3, none,
      plain_of (by decide +kernel), by decide +kernel⟩,
    ⟨(recS { recState := 1, recTotal := 131072, recAccepted := 131072, recSigOk := true, recManOk := true, recBlocks := 1 }), 3, none, false,
      plain_of (by decide +kernel), by decide +kernel⟩,
    ⟨(recS { recState := 1, recTotal := 131072, recAccepted := 131072, recSigOk := true, recManOk := true, recBlocks := 1 }), 3, none, true,
      plain_of (by decide +kernel), by decide +kernel⟩,
    ⟨(recS { recState := 2, recOwner := 1 }), 3, none,
      plain_of (by decide +kernel), by decide +kernel⟩,
    ⟨(recS { recState := 2 }), 3, none,
      plain_of (by decide +kernel), by decide +kernel⟩,
    ⟨(recS {  }), 3,
      plain_of (by decide +kernel), by decide +kernel⟩,
    ⟨(recS { recState := 3, recBusy := true, recTarget := 1 }), 3,
      plain_of (by decide +kernel), by decide +kernel⟩,
    ⟨(recS {}), 3,
      plain_of (by decide +kernel), by decide +kernel⟩⟩

/-- The premises of `Obligations.BootCommands`, clause by clause, are met. -/
theorem witness_BootCommands :
  (∃ (s : State) (dt : Nat) (p : Path) (x : Session) (q : TReq),
    Issued (s.elapse dt) p x q 3073 0 Perm.any) ∧
  (∃ (s : State) (dt : Nat) (p : Path) (x : Session) (q : TReq) (n : Nat),
    Issued (s.elapse dt) p x q 3074 1 Perm.any ∧ (¬(n % 65536 = 0 ∧ 131072 ≤ n ∧ n ≤ 67043328))) ∧
  (∃ (s : State) (dt : Nat) (p : Path) (x : Session) (q : TReq) (n : Nat) (o : Path),
    Issued (s.elapse dt) p x q 3074 1 Perm.any ∧ (n % 65536 = 0 ∧ 131072 ≤ n ∧ n ≤ 67043328) ∧ (s.elapse dt).updateOf = some o ∧ o ≠ p) ∧
  (∃ (s : State) (dt : Nat) (p : Path) (x : Session) (q : TReq) (n : Nat),
    Issued (s.elapse dt) p x q 3074 1 Perm.any ∧ (n % 65536 = 0 ∧ 131072 ≤ n ∧ n ≤ 67043328) ∧ ((s.elapse dt).updateOf = none ∨ (s.elapse dt).updateOf = some p)) ∧
  (∃ (s : State) (dt : Nat) (p : Path) (x : Session) (q : TReq) (a : Nat),
    Issued (s.elapse dt) p x q 3075 3 Perm.any ∧ badAddr p a = true) ∧
  (∃ (s : State) (dt : Nat) (p : Path) (x : Session) (q : TReq) (a : Nat) (o : Nat) (n : Nat),
    Issued (s.elapse dt) p x q 3075 3 Perm.any ∧ badAddr p a = false ∧ (¬(8 ≤ n ∧ n ≤ 1048576 ∧ n % 8 = 0 ∧ ((s.elapse dt).updateOf = some p → o + n ≤ s.boot.updLen)))) ∧
  (∃ (s : State) (dt : Nat) (p : Path) (x : Session) (q : TReq) (a : Nat) (o : Nat) (n : Nat),
    Issued (s.elapse dt) p x q 3075 3 Perm.any ∧ badAddr p a = false ∧ (8 ≤ n ∧ n ≤ 1048576 ∧ n % 8 = 0 ∧ ((s.elapse dt).updateOf = some p → o + n ≤ s.boot.updLen)) ∧ ((s.elapse dt).updateOf ≠ some p ∨ o ≠ s.boot.updDone)) ∧
  (∃ (s : State) (dt : Nat) (p : Path) (x : Session) (q : TReq) (a : Nat) (o : Nat) (n : Nat),
    Issued (s.elapse dt) p x q 3075 3 Perm.any ∧ badAddr p a = false ∧ (8 ≤ n ∧ n ≤ 1048576 ∧ n % 8 = 0 ∧ ((s.elapse dt).updateOf = some p → o + n ≤ s.boot.updLen)) ∧ (s.elapse dt).updateOf = some p ∧ o = s.boot.updDone) ∧
  (∃ (s : State) (dt : Nat) (p : Path) (x : Session) (q : TReq),
    Issued (s.elapse dt) p x q 3076 0 Perm.any ∧ (s.elapse dt).updateOf ≠ some p) ∧
  (∃ (s : State) (dt : Nat) (p : Path) (x : Session) (q : TReq),
    Issued (s.elapse dt) p x q 3076 0 Perm.any ∧ (s.elapse dt).updateOf = some p) ∧
  (∃ (s : State) (dt : Nat) (p : Path) (x : Session) (q : TReq) (v : Nat) (al : Nat),
    Issued (s.elapse dt) p x q 3078 2 Perm.any ∧ al ≤ 1 ∧ (¬((s.elapse dt).counter < v ∧ v ≤ s.boot.sv ∧ (s.boot.trial = false ∨ s.boot.markedValid = true) ∧ s.boot.fromHost = false))) ∧
  (∃ (s : State) (dt : Nat) (p : Path) (x : Session) (q : TReq) (v : Nat) (al : Nat),
    Issued (s.elapse dt) p x q 3078 2 Perm.any ∧ al ≤ 1 ∧ ((s.elapse dt).counter < v ∧ v ≤ s.boot.sv ∧ (s.boot.trial = false ∨ s.boot.markedValid = true) ∧ s.boot.fromHost = false) ∧ ((s.elapse dt).slot (1 - s.boot.bootedSlot)).code = 3 ∧ manSv ((s.elapse dt).slot (1 - s.boot.bootedSlot)).manifest < v ∧ al = 0) ∧
  (∃ (s : State) (dt : Nat) (p : Path) (x : Session) (q : TReq) (v : Nat) (al : Nat),
    Issued (s.elapse dt) p x q 3078 2 Perm.any ∧ al ≤ 1 ∧ ((s.elapse dt).counter < v ∧ v ≤ s.boot.sv ∧ (s.boot.trial = false ∨ s.boot.markedValid = true) ∧ s.boot.fromHost = false) ∧ (((s.elapse dt).slot (1 - s.boot.bootedSlot)).code ≠ 3 ∨ v ≤ manSv ((s.elapse dt).slot (1 - s.boot.bootedSlot)).manifest ∨ al = 1)) ∧
  (∃ (s : State) (dt : Nat) (p : Path) (x : Session) (q : TReq) (k : Nat),
    Issued (s.elapse dt) p x q 3079 7 Perm.any ∧ 3 < k) ∧
  (∃ (s : State) (dt : Nat) (p : Path) (x : Session) (q : TReq) (k : Nat),
    Issued (s.elapse dt) p x q 3079 7 Perm.any ∧ k ≤ 3 ∧ ((s.elapse dt).keySlot k).programmed ≠ 0) ∧
  (∃ (s : State) (dt : Nat) (p : Path) (x : Session) (q : TReq) (k : Nat),
    Issued (s.elapse dt) p x q 3079 7 Perm.any ∧ k ≤ 3 ∧ ((s.elapse dt).keySlot k).programmed = 0) ∧
  (∃ (s : State) (dt : Nat) (p : Path) (x : Session) (q : TReq) (k : Nat),
    Issued (s.elapse dt) p x q 3080 1 Perm.any ∧ 3 < k) ∧
  (∃ (s : State) (dt : Nat) (p : Path) (x : Session) (q : TReq) (k : Nat),
    Issued (s.elapse dt) p x q 3080 1 Perm.any ∧ k ≤ 3 ∧ (∀ (i : Nat), i < 4 → i ≠ k → ((s.elapse dt).keySlot i).live = false)) ∧
  (∃ (s : State) (dt : Nat) (p : Path) (x : Session) (q : TReq) (k : Nat),
    Issued (s.elapse dt) p x q 3080 1 Perm.any ∧ k ≤ 3 ∧ (∃ i, i < 4 ∧ i ≠ k ∧ ((s.elapse dt).keySlot i).live = true)) :=
  ⟨⟨(ask (linked .service) 0x0C01 0), 3, (.mp 1), (sess 0x0C01 0), (req 0x0C01 0),
      issued_of (by decide +kernel)⟩,
    ⟨(ask (linked .service) 0x0C02 1), 3, (.mp 1), (sess 0x0C02 1), (req 0x0C02 1), 65536,
      issued_of (by decide +kernel), by decide +kernel⟩,
    ⟨{ linked .service with tosen.sessions := [sess 0x0C02 1, { sess 0 0 with path := .mp 2 }], boot.updating := some (.mp 2, 1) }, 3, (.mp 1), (sess 0x0C02 1), (req 0x0C02 1), 131072, (.mp 2),
      issued_of (by decide +kernel), by decide +kernel⟩,
    ⟨(ask (linked .service) 0x0C02 1), 3, (.mp 1), (sess 0x0C02 1), (req 0x0C02 1), 67043328,
      issued_of (by decide +kernel), by decide +kernel⟩,
    ⟨(ask (linked .service) 0x0C03 3), 3, (.mp 1), (sess 0x0C03 3), (req 0x0C03 3), (2 ^ 63 + 2 ^ 20),
      issued_of (by decide +kernel), by decide +kernel⟩,
    ⟨(ask (linked .service) 0x0C03 3), 3, (.mp 1), (sess 0x0C03 3), (req 0x0C03 3), 0, 0, 1048584,
      issued_of (by decide +kernel), by decide +kernel⟩,
    ⟨(ask (linked .service) 0x0C03 3), 3, (.mp 1), (sess 0x0C03 3), (req 0x0C03 3), 0, 0, 8,
      issued_of (by decide +kernel), by decide +kernel⟩,
    ⟨(ask (upd {}) 0x0C03 3), 3, (.mp 1), (sess 0x0C03 3), (req 0x0C03 3), 0, 0, 8,
      issued_of (by decide +kernel), by decide +kernel⟩,
    ⟨(ask (linked .service) 0x0C04 0), 3, (.mp 1), (sess 0x0C04 0), (req 0x0C04 0),
      issued_of (by decide +kernel), by decide +kernel⟩,
    ⟨(ask (upd {}) 0x0C04 0), 3, (.mp 1), (sess 0x0C04 0), (req 0x0C04 0),
      issued_of (by decide +kernel), by decide +kernel⟩,
    ⟨(ask (upd {}) 0x0C06 2), 3, (.mp 1), (sess 0x0C06 2), (req 0x0C06 2), 1, 0,
      issued_of (by decide +kernel), by decide +kernel⟩,
    ⟨(ask (upd { sv := 3, slotB := slotS { state := 0xFFFF0000 } }) 0x0C06 2), 3, (.mp 1), (sess 0x0C06 2), (req 0x0C06 2), 3, 0,
      issued_of (by decide +kernel), by decide +kernel⟩,
    ⟨(ask (upd { sv := 3, slotB := slotS { state := 0xFFFF0000 } }) 0x0C06 2), 3, (.mp 1), (sess 0x0C06 2), (req 0x0C06 2), 3, 1,
      issued_of (by decide +kernel), by decide +kernel⟩,
    ⟨(ask (upd {}) 0x0C07 7), 3, (.mp 1), (sess 0x0C07 7), (req 0x0C07 7), 4,
      issued_of (by decide +kernel), by decide +kernel⟩,
    ⟨(ask (upd {}) 0x0C07 7), 3, (.mp 1), (sess 0x0C07 7), (req 0x0C07 7), 0,
      issued_of (by decide +kernel), by decide +kernel⟩,
    ⟨(ask (upd {}) 0x0C07 7), 3, (.mp 1), (sess 0x0C07 7), (req 0x0C07 7), 3,
      issued_of (by decide +kernel), by decide +kernel⟩,
    ⟨(ask (upd {}) 0x0C08 1), 3, (.mp 1), (sess 0x0C08 1), (req 0x0C08 1), 4,
      issued_of (by decide +kernel), by decide +kernel⟩,
    ⟨(ask (upd {}) 0x0C08 1), 3, (.mp 1), (sess 0x0C08 1), (req 0x0C08 1), 0,
      issued_of (by decide +kernel), by decide +kernel⟩,
    ⟨(ask (upd {}) 0x0C08 1), 3, (.mp 1), (sess 0x0C08 1), (req 0x0C08 1), 3,
      issued_of (by decide +kernel), by decide +kernel⟩⟩

set_option Elab.async false
set_option maxRecDepth 4000
/-- The premises of `Obligations.MemoryIntegrity`, clause by clause, are met. -/
theorem witness_MemoryIntegrity :
  (∃ (s : State) (dt : Nat) (st : Nat),
    (s.elapse dt).Plain ∧ (s.elapse dt).stackCount ≤ st) ∧
  (∃ (s : State) (dt : Nat) (st : Nat) (k : Nat) (d : Nat) (n : Nat),
    (s.elapse dt).Plain ∧ st < (s.elapse dt).stackCount ∧ (s.elapse dt).hbmBad k d n = true) ∧
  (∃ (s : State) (dt : Nat) (st : Nat) (m : Nat) (k : Nat) (d : Nat) (n : Nat),
    (s.elapse dt).Plain ∧ st < (s.elapse dt).stackCount ∧ (s.elapse dt).hbmBad k d n = false ∧ symbols (if k = 0 then m ||| tget s.mem.bad (cisternAt d n / 32) 0 else m) = 0) ∧
  (∃ (s : State) (dt : Nat) (st : Nat) (m : Nat) (k : Nat) (d : Nat) (n : Nat),
    (s.elapse dt).Plain ∧ st < (s.elapse dt).stackCount ∧ (s.elapse dt).hbmBad k d n = false ∧ symbols (if k = 0 then m ||| tget s.mem.bad (cisternAt d n / 32) 0 else m) = 1) ∧
  (∃ (s : State) (dt : Nat) (a : Nat) (st : Nat) (m : Nat) (k : Nat) (d : Nat) (n : Nat),
    (s.elapse dt).Plain ∧ st < (s.elapse dt).stackCount ∧ (s.elapse dt).hbmBad k d n = false ∧ symbols (if k = 0 then m ||| tget s.mem.bad (cisternAt d n / 32) 0 else m) = 2 ∧ (if (tget (s.elapse dt).rollPass.mem.c2 (a / 65536) []).contains a = true then tget (s.elapse dt).rollPass.mem.c2 (a / 65536) [] else tget (s.elapse dt).rollPass.mem.c2 (a / 65536) [] ++ [a]).length < (s.elapse dt).rollPass.mem.cfg.retireC2) ∧
  (∃ (s : State) (dt : Nat) (a : Nat) (st : Nat) (m : Nat) (k : Nat) (d : Nat) (n : Nat),
    (s.elapse dt).Plain ∧ st < (s.elapse dt).stackCount ∧ (s.elapse dt).hbmBad k d n = false ∧ symbols (if k = 0 then m ||| tget s.mem.bad (cisternAt d n / 32) 0 else m) = 2 ∧ (s.elapse dt).rollPass.mem.cfg.retireC2 ≤ (if (tget (s.elapse dt).rollPass.mem.c2 (a / 65536) []).contains a = true then tget (s.elapse dt).rollPass.mem.c2 (a / 65536) [] else tget (s.elapse dt).rollPass.mem.c2 (a / 65536) [] ++ [a]).length) ∧
  (∃ (s : State) (dt : Nat) (st : Nat) (m : Nat) (k : Nat) (d : Nat) (n : Nat),
    (s.elapse dt).Plain ∧ st < (s.elapse dt).stackCount ∧ (s.elapse dt).hbmBad k d n = false ∧ 3 ≤ symbols (if k = 0 then m ||| tget s.mem.bad (cisternAt d n / 32) 0 else m) ∧ s.glb.mode = Mode.lockdown) ∧
  (∃ (s : State) (dt : Nat) (st : Nat) (m : Nat) (k : Nat) (d : Nat) (n : Nat),
    (s.elapse dt).Plain ∧ st < (s.elapse dt).stackCount ∧ (s.elapse dt).hbmBad k d n = false ∧ 3 ≤ symbols (if k = 0 then m ||| tget s.mem.bad (cisternAt d n / 32) 0 else m) ∧ s.glb.mode ≠ Mode.lockdown ∧ k ≤ 4 ∧ 0 < d ∧ d ≤ 16 ∧ s.glb.mode ≠ Mode.factory) ∧
  (∃ (s : State) (dt : Nat) (st : Nat) (m : Nat) (k : Nat) (d : Nat) (n : Nat),
    (s.elapse dt).Plain ∧ st < (s.elapse dt).stackCount ∧ (s.elapse dt).hbmBad k d n = false ∧ 3 ≤ symbols (if k = 0 then m ||| tget s.mem.bad (cisternAt d n / 32) 0 else m) ∧ s.glb.mode ≠ Mode.lockdown ∧ (4 < k ∨ d = 0 ∨ 16 < d ∨ s.glb.mode = Mode.factory)) ∧
  (∃ (s : State) (dt : Nat) (st : Nat) (o : Nat) (m : Nat) (k : Nat),
    (s.elapse dt).Plain ∧ (st = 0 ∨ 9 < st ∨ symbols (if st = 3 ∨ st = 8 then m ||| tget s.mem.bad (localAt k o / 32) 0 else m) = 0)) ∧
  (∃ (s : State) (dt : Nat) (st : Nat) (o : Nat) (m : Nat) (k : Nat),
    (s.elapse dt).Plain ∧ (st = 3 ∨ st = 8) ∧ s.mem.poison.contains (localAt k o / 32) = true ∧ (1 ≤ symbols (if st = 3 ∨ st = 8 then m ||| tget s.mem.bad (localAt k o / 32) 0 else m))) ∧
  (∃ (s : State) (dt : Nat) (st : Nat) (o : Nat) (m : Nat) (k : Nat),
    (s.elapse dt).Plain ∧ (1 ≤ st ∧ st ≤ 9 ∧ ¬((st = 3 ∨ st = 8) ∧ s.mem.poison.contains (localAt k o / 32) = true)) ∧ (1 ≤ symbols (if st = 3 ∨ st = 8 then m ||| tget s.mem.bad (localAt k o / 32) 0 else m)) ∧ (symbols (if st = 3 ∨ st = 8 then m ||| tget s.mem.bad (localAt k o / 32) 0 else m) ≤ 2)) ∧
  (∃ (s : State) (dt : Nat) (st : Nat) (o : Nat) (m : Nat) (k : Nat),
    (s.elapse dt).Plain ∧ (1 ≤ st ∧ st ≤ 9 ∧ ¬((st = 3 ∨ st = 8) ∧ s.mem.poison.contains (localAt k o / 32) = true)) ∧ (3 ≤ symbols (if st = 3 ∨ st = 8 then m ||| tget s.mem.bad (localAt k o / 32) 0 else m)) ∧ s.glb.mode = Mode.lockdown) ∧
  (∃ (s : State) (dt : Nat) (st : Nat) (o : Nat) (m : Nat) (d : Nat) (k : Nat),
    (s.elapse dt).Plain ∧ (1 ≤ st ∧ st ≤ 9 ∧ ¬((st = 3 ∨ st = 8) ∧ s.mem.poison.contains (localAt k o / 32) = true)) ∧ (3 ≤ symbols (if st = 3 ∨ st = 8 then m ||| tget s.mem.bad (localAt k o / 32) 0 else m)) ∧ s.glb.mode ≠ Mode.lockdown ∧ (0 < if st = 6 ∨ 8 ≤ st then 255 else if st = 3 then ((s.elapse dt).coreDom k).getD 16 else d) ∧ ((if st = 6 ∨ 8 ≤ st then 255 else if st = 3 then ((s.elapse dt).coreDom k).getD 16 else d) ≤ 16) ∧ s.glb.mode ≠ Mode.factory) ∧
  (∃ (s : State) (dt : Nat) (st : Nat) (o : Nat) (m : Nat) (d : Nat) (k : Nat),
    (s.elapse dt).Plain ∧ (1 ≤ st ∧ st ≤ 9 ∧ ¬((st = 3 ∨ st = 8) ∧ s.mem.poison.contains (localAt k o / 32) = true)) ∧ (3 ≤ symbols (if st = 3 ∨ st = 8 then m ||| tget s.mem.bad (localAt k o / 32) 0 else m)) ∧ s.glb.mode ≠ Mode.lockdown ∧ ((if st = 6 ∨ 8 ≤ st then 255 else if st = 3 then ((s.elapse dt).coreDom k).getD 16 else d) = 0 ∨ (16 < if st = 6 ∨ 8 ≤ st then 255 else if st = 3 then ((s.elapse dt).coreDom k).getD 16 else d) ∨ s.glb.mode = Mode.factory)) ∧
  (∃ (s : State) (dt : Nat) (d : Nat),
    (s.elapse dt).Plain ∧ (∀ (e : Nat × Nat), tget? s.mem.uePeriod d = some e → (s.elapse dt).now / grid 20 ≤ e.fst)) ∧
  (∃ (s : State) (dt : Nat) (d : Nat) (e : Nat × Nat),
    (s.elapse dt).Plain ∧ tget? s.mem.uePeriod d = some e ∧ e.fst < (s.elapse dt).now / grid 20 ∧ (e.snd ≤ 64 ∨ s.glb.mode = Mode.lockdown)) ∧
  (∃ (s : State) (dt : Nat) (d : Nat) (e : Nat × Nat),
    (s.elapse dt).Plain ∧ tget? s.mem.uePeriod d = some e ∧ e.fst < (s.elapse dt).now / grid 20 ∧ 64 < e.snd ∧ s.glb.mode ≠ Mode.lockdown) ∧
  (∃ (s : State) (dt : Nat) (p : Path) (x : Session) (q : TReq) (d : Nat),
    Issued (s.elapse dt) p x q 2080 1 (Perm.owner d) ∧ d < 16) ∧
  (∃ (s : State) (dt : Nat) (p : Path) (x : Session) (q : TReq) (a : Nat) (b : Nat) (c : Nat) (e : Nat),
    Issued (s.elapse dt) p x q 2081 4 Perm.any ∧ (¬(32 ≤ a ∧ a ≤ 40 ∧ 28 ≤ b ∧ b ≤ 36 ∧ 1 ≤ c ∧ c ≤ 15 ∧ e ≤ 4095))) ∧
  (∃ (s : State) (dt : Nat) (p : Path) (x : Session) (q : TReq) (a : Nat) (b : Nat) (c : Nat) (e : Nat),
    Issued (s.elapse dt) p x q 2081 4 Perm.any ∧ (32 ≤ a ∧ a ≤ 40 ∧ 28 ≤ b ∧ b ≤ 36 ∧ 1 ≤ c ∧ c ≤ 15 ∧ e ≤ 4095)) ∧
  (∃ (v : State),
    v.elapsed - v.mem.sramAt < grid v.mem.cfg.sram ∧ v.elapsed - v.mem.passAt < grid v.mem.cfg.scrub) ∧
  (∃ (v : State) (c : MemCfg),
    v.elapsed - v.mem.sramAt < grid v.mem.cfg.sram ∧ grid v.mem.cfg.scrub ≤ v.elapsed - v.mem.passAt ∧ v.mem.cfgNext = some c ∧ v.elapsed - v.mem.passAt < grid v.mem.cfg.scrub + grid c.scrub) ∧
  (∃ (v : State) (b : Nat),
    grid v.mem.cfg.sram ≤ v.elapsed - v.mem.sramAt ∧ v.elapsed - v.mem.sramAt < grid v.mem.cfg.sram + grid b ∧ v.elapsed - v.mem.passAt < grid v.mem.cfg.scrub ∧ v.mem.sramNext = some b) ∧
  (∃ (s : State) (dt : Nat) (p : Path) (x : Session) (q : TReq) (a : Nat),
    Issued (s.elapse dt) p x q 2082 2 Perm.any ∧ badAddr p a = true) ∧
  (∃ (s : State) (dt : Nat) (p : Path) (x : Session) (q : TReq) (a : Nat),
    Issued (s.elapse dt) p x q 2082 2 Perm.any ∧ badAddr p a = false) ∧
  (∃ (s : State) (dt : Nat) (p : Path) (x : Session) (q : TReq) (a : Nat),
    Issued (s.elapse dt) p x q 2083 2 Perm.any ∧ badAddr p a = true) ∧
  (∃ (s : State) (dt : Nat) (p : Path) (x : Session) (q : TReq) (a : Nat) (n : Nat),
    Issued (s.elapse dt) p x q 2083 2 Perm.any ∧ badAddr p a = false ∧ n < 8 * s.mem.retired.length) ∧
  (∃ (s : State) (dt : Nat) (p : Path) (x : Session) (q : TReq) (a : Nat) (n : Nat),
    Issued (s.elapse dt) p x q 2083 2 Perm.any ∧ badAddr p a = false ∧ 8 * s.mem.retired.length ≤ n) ∧
  (∃ (s : State) (dt : Nat) (p : Path) (x : Session) (q : TReq) (n : Nat),
    Issued (s.elapse dt) p x q 2084 1 Perm.any ∧ n < 2098961 + 98304 ∧ (¬(s.glb.mode = Mode.priming ∧ 98304 ≤ n ∧ n < (s.elapse dt).pagesTotal + 98304 ∧ (s.mem.marked.any fun m => m.snd == n) = false))) ∧
  (∃ (s : State) (dt : Nat) (p : Path) (x : Session) (q : TReq) (n : Nat),
    Issued (s.elapse dt) p x q 2084 1 Perm.any ∧ n < 2098961 + 98304 ∧ (s.glb.mode = Mode.priming ∧ 98304 ≤ n ∧ n < (s.elapse dt).pagesTotal + 98304 ∧ (s.mem.marked.any fun m => m.snd == n) = false) ∧ (¬0 < (List.map (fun d => ((s.elapse dt).rmDom d).usedPages + ((s.elapse dt).rmDom d).bufs.length) (s.elapse dt).doms).sum + (s.elapse dt).zeroingPages)) ∧
  (∃ (s : State) (dt : Nat) (p : Path) (x : Session) (q : TReq) (n : Nat),
    Issued (s.elapse dt) p x q 2084 1 Perm.any ∧ n < 2098961 + 98304 ∧ (s.glb.mode = Mode.priming ∧ 98304 ≤ n ∧ n < (s.elapse dt).pagesTotal + 98304 ∧ (s.mem.marked.any fun m => m.snd == n) = false) ∧ (0 < (List.map (fun d => ((s.elapse dt).rmDom d).usedPages + ((s.elapse dt).rmDom d).bufs.length) (s.elapse dt).doms).sum + (s.elapse dt).zeroingPages)) ∧
  (∃ (s : State) (dt : Nat) (p : Path) (x : Session) (q : TReq) (d : Nat) (a : Nat) (m : Nat),
    Issued (s.elapse dt) p x q 2085 3 (Perm.owner d) ∧ d < 16 ∧ m < 2 ^ 36 ∧ (¬(0 < m ∧ a % 32 = 0 ∧ ((s.elapse dt).cisternOk d a 32 = true ∨ (s.elapse dt).itemOk d a 32 = true)))) ∧
  (∃ (s : State) (dt : Nat) (p : Path) (x : Session) (q : TReq) (d : Nat) (a : Nat) (m : Nat),
    Issued (s.elapse dt) p x q 2085 3 (Perm.owner d) ∧ d < 16 ∧ m < 2 ^ 36 ∧ (0 < m ∧ a % 32 = 0 ∧ ((s.elapse dt).cisternOk d a 32 = true ∨ (s.elapse dt).itemOk d a 32 = true)) ∧ s.glb.mode ≠ Mode.factory ∧ (s.elapse dt).debugOpen d 2 = false) ∧
  (∃ (s : State) (dt : Nat) (p : Path) (x : Session) (q : TReq) (d : Nat) (a : Nat) (m : Nat),
    Issued (s.elapse dt) p x q 2085 3 (Perm.owner d) ∧ d < 16 ∧ m < 2 ^ 36 ∧ (0 < m ∧ a % 32 = 0 ∧ ((s.elapse dt).cisternOk d a 32 = true ∨ (s.elapse dt).itemOk d a 32 = true)) ∧ (s.glb.mode = Mode.factory ∨ (s.elapse dt).debugOpen d 2 = true)) :=
  ⟨⟨(inMode .service), 3, 9,
      plain_of (by decide +kernel), by decide +kernel⟩,
    ⟨{ inMode .service with mem.marks := [(11, 2 ^ 64 + 5)] }, 3, 0, 4, 1, 5,
      plain_of (by decide +kernel), by decide +kernel⟩,
    ⟨(inMode .service), 3, 0, 0, 4, 1, 5,
      plain_of (by decide +kernel), by decide +kernel⟩,
    ⟨{ inMode .service with now := 99, mem.logC := List.replicate 192 [] }, 3, 3, 0x1000, 4, 1, 5,
      plain_of (by decide +kernel), by decide +kernel⟩,
    ⟨(inMode .service), 3, 64, 3, 3, 5, 1, 64,
      plain_of (by decide +kernel), by decide +kernel⟩,
    ⟨{ tenant .service with mem.cfg.retireC2 := 1 }, 3, 65536, 3, 3, 0, 1, 64,
      plain_of (by decide +kernel), by decide +kernel⟩,
    ⟨{ linked .lockdown with mem.logU := List.replicate 64 [] }, 3, 3, 7, 4, 1, 5,
      plain_of (by decide +kernel), by decide +kernel⟩,
    ⟨(tenant .service), 3, 3, 7, 4, 1, 5,
      plain_of (by decide +kernel), by decide +kernel⟩,
    ⟨(inMode .service), 3, 3, 7, 5, 15, 5,
      plain_of (by decide +kernel), by decide +kernel⟩,
    ⟨(inMode .service), 3, 10, 0, 7, 0,
      plain_of (by decide +kernel), by decide +kernel⟩,
    ⟨{ inMode .service with mem.poison := [localAt 1 64 / 32] }, 3, 3, 64, 1, 1,
      plain_of (by decide +kernel), by decide +kernel⟩,
    ⟨(inMode .service), 3, 5, 6, 3, 0,
      plain_of (by decide +kernel), by decide +kernel⟩,
    ⟨(linked .lockdown), 3, 2, 6, 7, 0,
      plain_of (by decide +kernel), by decide +kernel⟩,
    ⟨(tenant .service), 3, 2, 6, 7, 1, 0,
      plain_of (by decide +kernel), by decide +kernel⟩,
    ⟨(inMode .service), 3, 9, 5, 7, 0, 0,
      plain_of (by decide +kernel), by decide +kernel⟩,
    ⟨{ inMode .service with mem.uePeriod := [(1, (0, 9))] }, 3, 1,
      plain_of (by decide +kernel), by decide +kernel⟩,
    ⟨{ inMode .service with now := grid 20, mem.uePeriod := [(1, (0, 64))] }, 3, 1, (0, 64),
      plain_of (by decide +kernel), by decide +kernel⟩,
    ⟨{ inMode .service with now := grid 20, mem.uePeriod := [(1, (0, 65))] }, 3, 1, (0, 65),
      plain_of (by decide +kernel), by decide +kernel⟩,
    ⟨{ mapped .service with tosen.sessions := [sess1 0x0820 1] }, 3, (.mp 1), (sess1 0x0820 1), (req1 0x0820 1), 1,
      issued_of (by decide +kernel), by decide +kernel⟩,
    ⟨(ask (linked .service) 0x0821 4), 3, (.mp 1), (sess 0x0821 4), (req 0x0821 4), 31, 28, 1, 0,
      issued_of (by decide +kernel), by decide +kernel⟩,
    ⟨(ask (linked .service) 0x0821 4), 3, (.mp 1), (sess 0x0821 4), (req 0x0821 4), 40, 36, 15, 4095,
      issued_of (by decide +kernel), by decide +kernel⟩,
    ⟨(inMode .service),
      by decide +kernel⟩,
    ⟨{ elapsed := grid 36, mem.sramAt := grid 36, mem.cfgNext := some { scrub := 32 } }, { scrub := 32 },
      by decide +kernel⟩,
    ⟨{ elapsed := grid 32, mem.sramNext := some 28 }, 28,
      by decide +kernel⟩,
    ⟨(ask (linked .service) 0x0822 2), 3, (.mp 1), (sess 0x0822 2), (req 0x0822 2), (2 ^ 63 + 2 ^ 20),
      issued_of (by decide +kernel), by decide +kernel⟩,
    ⟨(ask { linked .service with mem.logC := [[1]] } 0x0822 2), 3, (.mp 1), (sess 0x0822 2), (req 0x0822 2), 0,
      issued_of (by decide +kernel), by decide +kernel⟩,
    ⟨(ask { linked .service with mem.retired := [7], mem.marked := [(1, 8)] } 0x0823 2), 3, (.mp 1), (sess 0x0823 2), (req 0x0823 2), (2 ^ 63 + 2 ^ 20),
      issued_of (by decide +kernel), by decide +kernel⟩,
    ⟨(ask { linked .service with mem.retired := [7], mem.marked := [(1, 8)] } 0x0823 2), 3, (.mp 1), (sess 0x0823 2), (req 0x0823 2), 0, 7,
      issued_of (by decide +kernel), by decide +kernel⟩,
    ⟨(ask { linked .service with mem.retired := [7], mem.marked := [(1, 8)] } 0x0823 2), 3, (.mp 1), (sess 0x0823 2), (req 0x0823 2), (2 ^ 63), 8,
      issued_of (by decide +kernel), by decide +kernel⟩,
    ⟨(ask (linked .service) 0x0824 1), 3, (.mp 1), (sess 0x0824 1), (req 0x0824 1), 400000,
      issued_of (by decide +kernel), by decide +kernel⟩,
    ⟨(ask (linked .priming) 0x0824 1), 3, (.mp 1), (sess 0x0824 1), (req 0x0824 1), 98304,
      issued_of (by decide +kernel), by decide +kernel⟩,
    ⟨(ask { linked .priming with rm.zeroing := [(0, 0, 1)] } 0x0824 1), 3, (.mp 1), (sess 0x0824 1), (req 0x0824 1), 400000,
      issued_of (by decide +kernel), by decide +kernel⟩,
    ⟨(ask (pages {} [(0, 1)]) 0x0825 3), 3, (.mp 1), (sess 0x0825 3), (req 0x0825 3), 0, 65536, 7,
      issued_of (by decide +kernel), by decide +kernel⟩,
    ⟨(ask { mapped .service with fuse.map := map2.set 15 0x3C, fuse.live := map2.set 15 0x3C, rm.doms := [(0, { dataPages := 8, mapped := [(0, 1)] })] } 0x0825 3), 3, (.mp 1), (sess 0x0825 3), (req 0x0825 3), 0, 0, 7,
      issued_of (by decide +kernel), by decide +kernel⟩,
    ⟨(ask (pages {} [(0, 1)]) 0x0825 3), 3, (.mp 1), (sess 0x0825 3), (req 0x0825 3), 0, 32, 7,
      issued_of (by decide +kernel), by decide +kernel⟩⟩

set_option Elab.async false
set_option maxRecDepth 4000
/-- The premises of `Obligations.WindlassSession`, clause by clause, are met. -/
theorem witness_WindlassSession :
  (∃ (s : State) (dt : Nat) (seq : Nat) (c : Bool) (f : List Nat) (b : Bytes) (r : Nat × Instr),
    (s.elapse dt).Plain ∧ s.dbg.deaf = true ∧ r ∈ [(2, Instr.disconnect dt seq c f), (3, Instr.wlStatus dt seq c f), (4, Instr.csrRead dt seq c f), (16, Instr.wlHalt dt seq c f), (17, Instr.wlResume dt seq c f), (18, Instr.wlStep dt seq c f), (19, Instr.bpSet dt seq c f), (20, Instr.bpClear dt seq c f), (21, Instr.regRead dt seq c f), (22, Instr.regWrite dt seq c f), (23, Instr.wlMemRead dt seq c f), (24, Instr.wlMemWrite dt seq c f), (25, Instr.wlChanAbandon dt seq c f), (32, Instr.wlTosen dt seq c b), (33, Instr.poll dt seq c f)]) ∧
  (∃ (s : State) (dt : Nat) (seq : Nat) (c : Bool) (f : List Nat) (b : Bytes) (k : WlResp) (r : Nat × Instr),
    (s.elapse dt).Plain ∧ s.dbg.deaf = false ∧ s.dbg.last = some k ∧ k.seq = seq ∧ r ∈ [(2, Instr.disconnect dt seq c f), (3, Instr.wlStatus dt seq c f), (4, Instr.csrRead dt seq c f), (16, Instr.wlHalt dt seq c f), (17, Instr.wlResume dt seq c f), (18, Instr.wlStep dt seq c f), (19, Instr.bpSet dt seq c f), (20, Instr.bpClear dt seq c f), (21, Instr.regRead dt seq c f), (22, Instr.regWrite dt seq c f), (23, Instr.wlMemRead dt seq c f), (24, Instr.wlMemWrite dt seq c f), (25, Instr.wlChanAbandon dt seq c f), (32, Instr.wlTosen dt seq c b), (33, Instr.poll dt seq c f)]) ∧
  (∃ (s : State) (dt : Nat) (seq : Nat) (c : Bool) (f : List Nat) (b : Bytes) (r : Nat × Instr),
    (s.elapse dt).Plain ∧ s.dbg.deaf = false ∧ (∀ (k : WlResp), s.dbg.last = some k → k.seq ≠ seq) ∧ c = false ∧ f ≠ [] ∧ b ≠ [] ∧ r ∈ [(2, Instr.disconnect dt seq c f), (3, Instr.wlStatus dt seq c f), (4, Instr.csrRead dt seq c f), (16, Instr.wlHalt dt seq c f), (17, Instr.wlResume dt seq c f), (18, Instr.wlStep dt seq c f), (19, Instr.bpSet dt seq c f), (20, Instr.bpClear dt seq c f), (21, Instr.regRead dt seq c f), (22, Instr.regWrite dt seq c f), (23, Instr.wlMemRead dt seq c f), (24, Instr.wlMemWrite dt seq c f), (25, Instr.wlChanAbandon dt seq c f), (32, Instr.wlTosen dt seq c b), (33, Instr.poll dt seq c f)]) ∧
  (∃ (s : State) (dt : Nat) (seq : Nat) (c : Bool) (f : List Nat) (b : Bytes) (r : Nat × Instr),
    (s.elapse dt).Plain ∧ s.dbg.deaf = false ∧ (∀ (k : WlResp), s.dbg.last = some k → k.seq ≠ seq) ∧ c = true ∧ s.dbg.connected = false ∧ r ∈ [(2, Instr.disconnect dt seq c f), (3, Instr.wlStatus dt seq c f), (4, Instr.csrRead dt seq c f), (16, Instr.wlHalt dt seq c f), (17, Instr.wlResume dt seq c f), (18, Instr.wlStep dt seq c f), (19, Instr.bpSet dt seq c f), (20, Instr.bpClear dt seq c f), (21, Instr.regRead dt seq c f), (22, Instr.regWrite dt seq c f), (23, Instr.wlMemRead dt seq c f), (24, Instr.wlMemWrite dt seq c f), (25, Instr.wlChanAbandon dt seq c f), (32, Instr.wlTosen dt seq c b), (33, Instr.poll dt seq c f)]) ∧
  (∃ (s : State) (dt : Nat) (seq : Nat) (c : Bool) (f : List Nat) (b : Bytes) (r : Nat × Instr),
    (s.elapse dt).Plain ∧ s.dbg.deaf = false ∧ (∀ (k : WlResp), s.dbg.last = some k → k.seq ≠ seq) ∧ c = true ∧ s.dbg.connected = true ∧ s.firmware = false ∧ f.head? ≠ some 255 ∧ r ∈ [(2, Instr.disconnect dt seq c f), (3, Instr.wlStatus dt seq c f), (4, Instr.csrRead dt seq c f), (16, Instr.wlHalt dt seq c f), (17, Instr.wlResume dt seq c f), (18, Instr.wlStep dt seq c f), (19, Instr.bpSet dt seq c f), (20, Instr.bpClear dt seq c f), (21, Instr.regRead dt seq c f), (22, Instr.regWrite dt seq c f), (23, Instr.wlMemRead dt seq c f), (24, Instr.wlMemWrite dt seq c f), (25, Instr.wlChanAbandon dt seq c f), (32, Instr.wlTosen dt seq c b), (33, Instr.poll dt seq c f)] ∧ r.fst ≠ 2 ∧ r.fst ≠ 4) ∧
  (∃ (s : State) (dt : Nat) (seq : Nat) (c : Bool) (f : List Nat) (b : Bytes) (r : Nat × Instr),
    (s.elapse dt).Plain ∧ s.dbg.deaf = false ∧ (∀ (k : WlResp), s.dbg.last = some k → k.seq ≠ seq) ∧ c = true ∧ s.dbg.connected = true ∧ s.firmware = true ∧ f.length = 7 ∧ nth f 3 = 0 ∧ List.length b = 8 ∧ r ∈ [(2, Instr.disconnect dt seq c f), (3, Instr.wlStatus dt seq c f), (4, Instr.csrRead dt seq c f), (16, Instr.wlHalt dt seq c f), (17, Instr.wlResume dt seq c f), (18, Instr.wlStep dt seq c f), (19, Instr.bpSet dt seq c f), (20, Instr.bpClear dt seq c f), (21, Instr.regRead dt seq c f), (22, Instr.regWrite dt seq c f), (23, Instr.wlMemRead dt seq c f), (24, Instr.wlMemWrite dt seq c f), (25, Instr.wlChanAbandon dt seq c f), (32, Instr.wlTosen dt seq c b), (33, Instr.poll dt seq c f)]) ∧
  (∃ (s : State) (dt : Nat) (seq : Nat) (c : Bool) (f : List Nat),
    (s.elapse dt).Plain ∧ s.dbg.deaf = false ∧ (∀ (k : WlResp), s.dbg.last = some k → k.seq ≠ seq) ∧ c = true ∧ f.length ≠ 3) ∧
  (∃ (s : State) (dt : Nat) (seq : Nat) (c : Bool) (f : List Nat) (a : Nat) (y : Nat) (z : Nat),
    (s.elapse dt).Plain ∧ s.dbg.deaf = false ∧ (∀ (k : WlResp), s.dbg.last = some k → k.seq ≠ seq) ∧ c = true ∧ f = [a, y, z] ∧ (a ≠ 1 ∨ y ≠ 0)) ∧
  (∃ (s : State) (dt : Nat) (seq : Nat) (c : Bool) (f : List Nat) (a : Nat) (y : Nat) (z : Nat),
    (s.elapse dt).Plain ∧ s.dbg.deaf = false ∧ (∀ (k : WlResp), s.dbg.last = some k → k.seq ≠ seq) ∧ c = true ∧ f = [a, y, z] ∧ a = 1 ∧ y = 0 ∧ s.dbg.connected = false ∧ s.tosen.sessions = []) ∧
  (∃ (s : State) (dt : Nat) (seq : Nat) (c : Bool) (f : List Nat) (a : Nat) (y : Nat) (z : Nat),
    (s.elapse dt).Plain ∧ s.dbg.deaf = false ∧ (∀ (k : WlResp), s.dbg.last = some k → k.seq ≠ seq) ∧ c = true ∧ f = [a, y, z] ∧ a = 1 ∧ y = 0 ∧ s.dbg.connected = true ∧ s.dbg.halted = [] ∧ s.tosen.sessions = []) ∧
  (∃ (s : State) (dt : Nat) (seq : Nat) (c : Bool) (f : List Nat),
    (s.elapse dt).Plain ∧ s.dbg.deaf = false ∧ (∀ (k : WlResp), s.dbg.last = some k → k.seq ≠ seq) ∧ c = true ∧ f = [] ∧ s.dbg.connected = true ∧ s.dbg.halted = [] ∧ s.tosen.sessions = []) ∧
  (∃ (s : State) (dt : Nat),
    (s.elapse dt).Plain ∧ (s.dbg.connected = false ∨ (s.elapse dt).elapsed < s.dbg.heard + grid 30)) ∧
  (∃ (s : State) (dt : Nat),
    (s.elapse dt).Plain ∧ s.dbg.connected = true ∧ s.dbg.heard + grid 30 ≤ (s.elapse dt).elapsed ∧ s.dbg.halted = [] ∧ s.tosen.sessions = []) :=
  ⟨⟨{ linked .service with dbg.deaf := true }, 3, 7, true, [], [], (0x21, .poll 3 7 true []),
      plain_of (by decide +kernel), by decide +kernel⟩,
    ⟨{ linked .service with dbg.last := some { type := 1, seq := 7, cls := 0, fields := [] } }, 3, 7, true, [], [], { type := 1, seq := 7, cls := 0, fields := [] }, (0x12, .wlStep 3 7 true []),
      plain_of (by decide +kernel), by decide +kernel⟩,
    ⟨(linked .service), 3, 7, false, [1], [1], (0x12, .wlStep 3 7 false [1]),
      plain_of (by decide +kernel), by decide +kernel⟩,
    ⟨(linked .service), 3, 7, true, [], [], (0x20, .wlTosen 3 7 true []),
      plain_of (by decide +kernel), by decide +kernel⟩,
    ⟨{ linked .recovery with dbg.connected := true }, 3, 7, true, [1], [], (0x03, .wlStatus 3 7 true [1]),
      plain_of (by decide +kernel), by decide +kernel⟩,
    ⟨{ linked .service with dbg.connected := true }, 3, 7, true, [0, 0, 0, 0, 0, 0, 0], (zeros 8), (0x18, .wlMemWrite 3 7 true [0, 0, 0, 0, 0, 0, 0]),
      plain_of (by decide +kernel), by decide +kernel⟩,
    ⟨(linked .service), 3, 7, true, [1, 0],
      plain_of (by decide +kernel), by decide +kernel⟩,
    ⟨(linked .service), 3, 7, true, [2, 0, 0], 2, 0, 0,
      plain_of (by decide +kernel), by decide +kernel⟩,
    ⟨(linked .service), 3, 7, true, [1, 0, 0], 1, 0, 0,
      plain_of (by decide +kernel), by decide +kernel⟩,
    ⟨{ linked .service with dbg.connected := true, dbg.bps := [(8, {})] }, 3, 7, true, [1, 0, 0], 1, 0, 0,
      plain_of (by decide +kernel), by decide +kernel⟩,
    ⟨{ linked .service with dbg.connected := true, dbg.bps := [(8, {})], tosen.opens := [(.windlass, {})] }, 3, 7, true, [],
      plain_of (by decide +kernel), by decide +kernel⟩,
    ⟨{ linked .service with dbg.connected := true }, (grid 30 - 1),
      plain_of (by decide +kernel), by decide +kernel⟩,
    ⟨{ linked .service with dbg.connected := true }, (grid 30),
      plain_of (by decide +kernel), by decide +kernel⟩⟩

/-- The premises of `Obligations.WindlassRequests`, clause by clause, are met. -/
theorem witness_WindlassRequests :
  (∃ (s : State) (dt : Nat) (seq : Nat) (a : Nat),
    Probes (s.elapse dt) seq ∧ a % 4 ≠ 0) ∧
  (∃ (s : State) (dt : Nat) (seq : Nat) (a : Nat),
    Probes (s.elapse dt) seq ∧ a % 4 = 0 ∧ (s.elapse dt).debugOpen 0 0 = false) ∧
  (∃ (s : State) (dt : Nat) (seq : Nat) (a : Nat),
    Probes (s.elapse dt) seq ∧ a % 4 = 0 ∧ (s.elapse dt).debugOpen 0 0 = true ∧ (s.elapse dt).barSize 0 ≤ a) ∧
  (∃ (s : State) (dt : Nat) (seq : Nat) (a : Nat),
    Probes (s.elapse dt) seq ∧ a % 4 = 0 ∧ (s.elapse dt).debugOpen 0 0 = true ∧ a < (s.elapse dt).barSize 0) ∧
  (∃ (s : State) (dt : Nat) (seq : Nat) (c : Nat) (d : Nat),
    Probes (s.elapse dt) seq ∧ (s.elapse dt).wlCore c = none ∧ c ≠ 255 ∧ d < 256) ∧
  (∃ (s : State) (dt : Nat) (seq : Nat) (c : Nat) (d : Nat) (h : Nat),
    Probes (s.elapse dt) seq ∧ (s.elapse dt).wlCore c = some d ∧ h < 8 ∧ (s.elapse dt).debugOpen d 0 = false) ∧
  (∃ (s : State) (dt : Nat) (seq : Nat) (c : Nat) (d : Nat) (h : Nat),
    Probes (s.elapse dt) seq ∧ (s.elapse dt).wlCore c = some d ∧ h < 8 ∧ (s.elapse dt).debugOpen d 2 = false) ∧
  (∃ (s : State) (dt : Nat) (seq : Nat) (c : Nat) (d : Nat) (h : Nat),
    Probes (s.elapse dt) seq ∧ (s.elapse dt).wlCore c = some d ∧ h < 8 ∧ (s.elapse dt).debugOpen d 1 = false) ∧
  (∃ (s : State) (dt : Nat) (seq : Nat) (c : Nat) (d : Nat) (h : Nat) (m : Nat),
    Probes (s.elapse dt) seq ∧ (s.elapse dt).wlCore c = some d ∧ h < 8 ∧ (s.elapse dt).debugOpen d 1 = true ∧ m < 256 ∧ (¬((s.elapse dt).core c).state = CState.running ∨ ∃ i, i < 8 ∧ m.testBit i = true ∧ ((s.elapse dt).thr c i).live = false)) ∧
  (∃ (s : State) (dt : Nat) (seq : Nat) (c : Nat) (d : Nat) (h : Nat) (m : Nat),
    Probes (s.elapse dt) seq ∧ (s.elapse dt).wlCore c = some d ∧ h < 8 ∧ (s.elapse dt).debugOpen d 1 = true ∧ m < 256 ∧ ((s.elapse dt).core c).state = CState.running ∧ (∀ (i : Nat), i < 8 → m.testBit i = true → ((s.elapse dt).thr c i).live = true) ∧ s.tosen.sessions = []) ∧
  (∃ (s : State) (dt : Nat) (seq : Nat) (c : Nat) (d : Nat) (h : Nat) (m : Nat),
    Probes (s.elapse dt) seq ∧ (s.elapse dt).wlCore c = some d ∧ h < 8 ∧ (s.elapse dt).debugOpen d 1 = true ∧ m < 256 ∧ (¬((s.elapse dt).core c).state = CState.running ∨ ∃ i, i < 8 ∧ m.testBit i = true ∧ ((s.elapse dt).thr c i).state ≠ TState.halted)) ∧
  (∃ (s : State) (dt : Nat) (seq : Nat) (c : Nat) (d : Nat) (h : Nat) (m : Nat),
    Probes (s.elapse dt) seq ∧ (s.elapse dt).wlCore c = some d ∧ h < 8 ∧ (s.elapse dt).debugOpen d 1 = true ∧ m < 256 ∧ ((s.elapse dt).core c).state = CState.running ∧ (∀ (i : Nat), i < 8 → m.testBit i = true → ((s.elapse dt).thr c i).state = TState.halted) ∧ s.tosen.sessions = []) ∧
  (∃ (s : State) (dt : Nat) (seq : Nat) (c : Nat) (d : Nat) (h : Nat),
    Probes (s.elapse dt) seq ∧ (s.elapse dt).wlCore c = some d ∧ h < 8 ∧ (s.elapse dt).debugOpen d 1 = true ∧ ((s.elapse dt).core c).state = CState.running ∧ ((s.elapse dt).thr c h).live = true ∧ ((s.elapse dt).thr c h).state ≠ TState.halted ∧ s.tosen.sessions = [] ∧ ((s.elapse dt).thr c h).subs = []) ∧
  (∃ (s : State) (dt : Nat) (seq : Nat) (c : Nat) (d : Nat) (h : Nat),
    Probes (s.elapse dt) seq ∧ (s.elapse dt).wlCore c = some d ∧ h < 8 ∧ (s.elapse dt).debugOpen d 1 = true ∧ ((s.elapse dt).core c).state = CState.running ∧ ((s.elapse dt).thr c h).state = TState.halted ∧ ((s.elapse dt).thr c h).blocked = none ∧ s.tosen.sessions = []) ∧
  (∃ (s : State) (dt : Nat) (seq : Nat) (c : Nat) (d : Nat) (h : Nat) (n : Nat),
    Probes (s.elapse dt) seq ∧ (s.elapse dt).wlCore c = some d ∧ h < 8 ∧ (s.elapse dt).debugOpen d 1 = true ∧ (n = 0 ∨ 65535 < n)) ∧
  (∃ (s : State) (dt : Nat) (seq : Nat) (c : Nat) (d : Nat) (h : Nat) (n : Nat),
    Probes (s.elapse dt) seq ∧ (s.elapse dt).wlCore c = some d ∧ h < 8 ∧ (s.elapse dt).debugOpen d 1 = true ∧ 1 ≤ n ∧ n ≤ 65535 ∧ (¬((s.elapse dt).core c).state = CState.running ∨ ((s.elapse dt).thr c h).state ≠ TState.halted)) ∧
  (∃ (s : State) (dt : Nat) (seq : Nat) (c : Nat) (d : Nat) (h : Nat) (n : Nat),
    Probes (s.elapse dt) seq ∧ (s.elapse dt).wlCore c = some d ∧ h < 8 ∧ (s.elapse dt).debugOpen d 1 = true ∧ 1 ≤ n ∧ n ≤ 65535 ∧ ((s.elapse dt).core c).state = CState.running ∧ ((s.elapse dt).thr c h).state = TState.halted ∧ ((s.elapse dt).thr c h).under = TState.ready ∧ ((s.elapse dt).thr c h).blocked = none) ∧
  (∃ (s : State) (dt : Nat) (seq : Nat) (c : Nat) (d : Nat) (h : Nat) (n : Nat) (m : Nat) (r : Nat),
    Probes (s.elapse dt) seq ∧ (s.elapse dt).wlCore c = some d ∧ h < 8 ∧ (s.elapse dt).debugOpen d 1 = true ∧ 1 ≤ n ∧ n ≤ 65535 ∧ ((s.elapse dt).core c).state = CState.running ∧ ((s.elapse dt).thr c h).state = TState.halted ∧ ((s.elapse dt).thr c h).under = TState.waiting ∧ ((s.elapse dt).thr c h).blocked = some (Blocked.wfe m r) ∧ ((s.elapse dt).thr c h).pend &&& m = 0) ∧
  (∃ (s : State) (dt : Nat) (seq : Nat) (c : Nat) (d : Nat) (h : Nat) (k : Nat) (m : Nat) (a : Nat) (n : Nat),
    Probes (s.elapse dt) seq ∧ (s.elapse dt).wlCore c = some d ∧ h < 8 ∧ (s.elapse dt).debugOpen d 1 = true ∧ (¬((k = 1 ∧ n = 4 ∧ a % 4 = 0 ∨ 2 ≤ k ∧ k ≤ 4 ∧ n ∈ [1, 2, 4, 8, 16, 32, 64, 128, 256, 512, 1024, 2048, 4096] ∧ a % n = 0) ∧ m < 256))) ∧
  (∃ (s : State) (dt : Nat) (seq : Nat) (c : Nat) (d : Nat) (h : Nat) (k : Nat) (m : Nat) (a : Nat) (n : Nat),
    Probes (s.elapse dt) seq ∧ (s.elapse dt).wlCore c = some d ∧ h < 8 ∧ (s.elapse dt).debugOpen d 1 = true ∧ (k = 1 ∧ n = 4 ∧ a % 4 = 0 ∨ 2 ≤ k ∧ k ≤ 4 ∧ n ∈ [1, 2, 4, 8, 16, 32, 64, 128, 256, 512, 1024, 2048, 4096] ∧ a % n = 0) ∧ m < 256) ∧
  (∃ (s : State) (dt : Nat) (seq : Nat) (c : Nat) (d : Nat) (h : Nat) (r : Nat),
    Probes (s.elapse dt) seq ∧ (s.elapse dt).wlCore c = some d ∧ h < 8 ∧ (s.elapse dt).debugOpen d 0 = true ∧ (r ≤ 32 ∨ 4096 ≤ r ∧ r ≤ 4111) ∧ (¬(((s.elapse dt).thr c h).state = TState.halted ∨ ((s.elapse dt).core c).state = CState.stopped))) ∧
  (∃ (s : State) (dt : Nat) (seq : Nat) (c : Nat) (d : Nat) (h : Nat) (r : Nat),
    Probes (s.elapse dt) seq ∧ (s.elapse dt).wlCore c = some d ∧ h < 8 ∧ (s.elapse dt).debugOpen d 0 = true ∧ r < 32 ∧ (((s.elapse dt).thr c h).state = TState.halted ∨ ((s.elapse dt).core c).state = CState.stopped)) ∧
  (∃ (s : State) (dt : Nat) (seq : Nat) (c : Nat) (d : Nat) (h : Nat) (r : Nat),
    Probes (s.elapse dt) seq ∧ (s.elapse dt).wlCore c = some d ∧ h < 8 ∧ (s.elapse dt).debugOpen d 0 = true ∧ r = 32 ∧ (((s.elapse dt).thr c h).state = TState.halted ∨ ((s.elapse dt).core c).state = CState.stopped)) ∧
  (∃ (s : State) (dt : Nat) (seq : Nat) (c : Nat) (d : Nat) (h : Nat) (r : Nat),
    Probes (s.elapse dt) seq ∧ (s.elapse dt).wlCore c = some d ∧ h < 8 ∧ (s.elapse dt).debugOpen d 0 = true ∧ 4096 ≤ r ∧ r ≤ 4111 ∧ (((s.elapse dt).thr c h).state = TState.halted ∨ ((s.elapse dt).core c).state = CState.stopped)) ∧
  (∃ (s : State) (dt : Nat) (seq : Nat) (c : Nat) (d : Nat) (h : Nat) (r : Nat),
    Probes (s.elapse dt) seq ∧ (s.elapse dt).wlCore c = some d ∧ h < 8 ∧ (s.elapse dt).debugOpen d 0 = true ∧ (s.elapse dt).debugOpen d 2 = true ∧ (¬(r ≤ 32 ∨ 4096 ≤ r ∧ r ≤ 4111))) ∧
  (∃ (s : State) (dt : Nat) (seq : Nat) (c : Nat) (d : Nat) (h : Nat) (r : Nat) (w : Nat),
    Probes (s.elapse dt) seq ∧ (s.elapse dt).wlCore c = some d ∧ h < 8 ∧ (s.elapse dt).debugOpen d 0 = true ∧ (s.elapse dt).debugOpen d 2 = true ∧ (r ≤ 32 ∨ 4096 ≤ r ∧ r ≤ 4111) ∧ (¬(((s.elapse dt).thr c h).state = TState.halted ∧ ((s.elapse dt).core c).state ≠ CState.stopped) ∨ r ∈ [0, 4096, 4100, 4101, 4103, 4109, 4110] ∨ r = 32 ∧ w % 4 ≠ 0)) ∧
  (∃ (s : State) (dt : Nat) (seq : Nat) (c : Nat) (d : Nat) (h : Nat) (r : Nat),
    Probes (s.elapse dt) seq ∧ (s.elapse dt).wlCore c = some d ∧ h < 8 ∧ (s.elapse dt).debugOpen d 0 = true ∧ (s.elapse dt).debugOpen d 2 = true ∧ 0 < r ∧ r < 32 ∧ (((s.elapse dt).thr c h).state = TState.halted ∧ ((s.elapse dt).core c).state ≠ CState.stopped) ∧ s.tosen.sessions = []) ∧
  (∃ (s : State) (dt : Nat) (seq : Nat) (c : Nat) (d : Nat) (h : Nat) (r : Nat) (w : Nat),
    Probes (s.elapse dt) seq ∧ (s.elapse dt).wlCore c = some d ∧ h < 8 ∧ (s.elapse dt).debugOpen d 0 = true ∧ (s.elapse dt).debugOpen d 2 = true ∧ r = 32 ∧ w % 4 = 0 ∧ (((s.elapse dt).thr c h).state = TState.halted ∧ ((s.elapse dt).core c).state ≠ CState.stopped) ∧ s.tosen.sessions = []) ∧
  (∃ (s : State) (dt : Nat) (seq : Nat) (c : Nat) (d : Nat) (h : Nat) (r : Nat) (w : Nat),
    Probes (s.elapse dt) seq ∧ (s.elapse dt).wlCore c = some d ∧ h < 8 ∧ (s.elapse dt).debugOpen d 0 = true ∧ (s.elapse dt).debugOpen d 2 = true ∧ 4096 ≤ r ∧ r ≤ 4111 ∧ (((s.elapse dt).thr c h).state = TState.halted ∧ ((s.elapse dt).core c).state ≠ CState.stopped) ∧ (¬(r ∈ [0, 4096, 4100, 4101, 4103, 4109, 4110] ∨ r = 32 ∧ w % 4 ≠ 0)) ∧ s.tosen.sessions = []) ∧
  (∃ (s : State) (dt : Nat) (seq : Nat) (c : Nat) (d : Nat) (h : Nat) (a : Nat) (n : Nat),
    Probes (s.elapse dt) seq ∧ (s.elapse dt).wlCore c = some d ∧ h < 8 ∧ 8 ≤ n ∧ n ≤ 4096 ∧ n % 8 = 0 ∧ (s.elapse dt).debugOpen d 0 = true ∧ a % 8 = 0 ∧ a + n ≤ 2 ^ 18 ∧ s.mem.bad = [] ∧ (s.elapse dt).poisoned (localAt c a) n = true) ∧
  (∃ (s : State) (dt : Nat) (seq : Nat) (c : Nat) (d : Nat) (h : Nat) (a : Nat) (n : Nat),
    Probes (s.elapse dt) seq ∧ (s.elapse dt).wlCore c = some d ∧ h < 8 ∧ 8 ≤ n ∧ n ≤ 4096 ∧ n % 8 = 0 ∧ (s.elapse dt).debugOpen d 0 = true ∧ a % 8 = 0 ∧ a + n ≤ 2 ^ 18 ∧ s.mem.bad = [] ∧ (s.elapse dt).poisoned (localAt c a) n = false) ∧
  (∃ (s : State) (dt : Nat) (seq : Nat) (c : Nat) (d : Nat) (h : Nat) (a : Nat) (n : Nat) (ws : List Nat),
    Probes (s.elapse dt) seq ∧ (s.elapse dt).wlCore c = some d ∧ h < 8 ∧ 8 ≤ n ∧ n ≤ 4096 ∧ n % 8 = 0 ∧ ws.length = n / 8 ∧ (s.elapse dt).debugOpen d 0 = true ∧ (s.elapse dt).debugOpen d 2 = true ∧ (a % 8 ≠ 0 ∨ 2 ^ 18 < a + n)) ∧
  (∃ (s : State) (dt : Nat) (seq : Nat) (c : Nat) (d : Nat) (h : Nat) (a : Nat) (n : Nat) (ws : List Nat),
    Probes (s.elapse dt) seq ∧ (s.elapse dt).wlCore c = some d ∧ h < 8 ∧ 8 ≤ n ∧ n ≤ 4096 ∧ n % 8 = 0 ∧ ws.length = n / 8 ∧ (s.elapse dt).debugOpen d 0 = true ∧ (s.elapse dt).debugOpen d 2 = true ∧ a % 8 = 0 ∧ a + n ≤ 2 ^ 18 ∧ s.mem.bad = [] ∧ s.tosen.sessions = []) ∧
  (∃ (s : State) (dt : Nat) (seq : Nat) (d : Nat) (n : Nat),
    Probes (s.elapse dt) seq ∧ 8 ≤ n ∧ n ≤ 4096 ∧ n % 8 = 0 ∧ (15 < d ∨ (s.elapse dt).domOn d = false)) ∧
  (∃ (s : State) (dt : Nat) (seq : Nat) (d : Nat) (n : Nat),
    Probes (s.elapse dt) seq ∧ 8 ≤ n ∧ n ≤ 4096 ∧ n % 8 = 0 ∧ d ≤ 15 ∧ (s.elapse dt).domOn d = true ∧ ((s.elapse dt).debugOpen d 3 = false ∨ (s.elapse dt).debugOpen d 0 = false)) ∧
  (∃ (s : State) (dt : Nat) (seq : Nat) (d : Nat) (a : Nat) (n : Nat),
    Probes (s.elapse dt) seq ∧ 8 ≤ n ∧ n ≤ 4096 ∧ n % 8 = 0 ∧ d ≤ 15 ∧ (s.elapse dt).domOn d = true ∧ (s.elapse dt).debugOpen d 3 = true ∧ (s.elapse dt).debugOpen d 0 = true ∧ (¬((s.elapse dt).cisternOk d a n = true ∨ (s.elapse dt).itemOk d a n = true))) ∧
  (∃ (s : State) (dt : Nat) (seq : Nat) (d : Nat) (a : Nat) (n : Nat),
    Probes (s.elapse dt) seq ∧ 8 ≤ n ∧ n ≤ 4096 ∧ n % 8 = 0 ∧ d ≤ 15 ∧ (s.elapse dt).domOn d = true ∧ (s.elapse dt).debugOpen d 3 = true ∧ (s.elapse dt).debugOpen d 0 = true ∧ ((s.elapse dt).cisternOk d a n = true ∨ (s.elapse dt).itemOk d a n = true) ∧ s.mem.bad = [] ∧ s.mem.poison = []) ∧
  (∃ (s : State) (dt : Nat) (seq : Nat) (d : Nat) (a : Nat) (n : Nat) (ws : List Nat),
    Probes (s.elapse dt) seq ∧ 8 ≤ n ∧ n ≤ 4096 ∧ n % 8 = 0 ∧ d ≤ 15 ∧ (s.elapse dt).domOn d = true ∧ (s.elapse dt).debugOpen d 3 = true ∧ (s.elapse dt).debugOpen d 0 = true ∧ ws.length = n / 8 ∧ (s.elapse dt).debugOpen d 2 = true ∧ (s.elapse dt).cisternOk d a n = false) ∧
  (∃ (s : State) (dt : Nat) (seq : Nat) (d : Nat) (a : Nat) (n : Nat) (ws : List Nat),
    Probes (s.elapse dt) seq ∧ 8 ≤ n ∧ n ≤ 4096 ∧ n % 8 = 0 ∧ d ≤ 15 ∧ (s.elapse dt).domOn d = true ∧ (s.elapse dt).debugOpen d 3 = true ∧ (s.elapse dt).debugOpen d 0 = true ∧ ws.length = n / 8 ∧ (s.elapse dt).debugOpen d 2 = true ∧ (s.elapse dt).cisternOk d a n = true ∧ s.mem.bad = [] ∧ s.tosen.sessions = []) ∧
  (∃ (s : State) (dt : Nat) (seq : Nat) (n : Nat),
    Probes (s.elapse dt) seq ∧ (s.elapse dt).chan? n = none) ∧
  (∃ (s : State) (dt : Nat) (seq : Nat) (n : Nat) (h : Channel),
    Probes (s.elapse dt) seq ∧ (s.elapse dt).chan? n = some h ∧ (s.elapse dt).debugOpen h.dom 2 = false) ∧
  (∃ (s : State) (dt : Nat) (seq : Nat) (n : Nat) (h : Channel),
    Probes (s.elapse dt) seq ∧ (s.elapse dt).chan? n = some h ∧ (s.elapse dt).debugOpen h.dom 2 = true ∧ h.holder = none) ∧
  (∃ (s : State) (dt : Nat) (seq : Nat) (n : Nat) (h : Channel),
    Probes (s.elapse dt) seq ∧ (s.elapse dt).chan? n = some h ∧ (s.elapse dt).debugOpen h.dom 2 = true ∧ h.holder.isSome = true ∧ s.tosen.sessions = []) ∧
  (∃ (s : State) (dt : Nat) (seq : Nat) (b : Bytes),
    Probes (s.elapse dt) seq ∧ 16 ≤ List.length b ∧ List.length b % 8 = 0 ∧ (s.elapse dt).debugOpen 0 2 = false) ∧
  (∃ (s : State) (dt : Nat) (seq : Nat) (b : Bytes),
    Probes (s.elapse dt) seq ∧ 16 ≤ List.length b ∧ List.length b % 8 = 0 ∧ (s.elapse dt).debugOpen 0 2 = true ∧ 64 ≤ s.dbg.queue.length) ∧
  (∃ (s : State) (dt : Nat) (seq : Nat) (b : Bytes),
    Probes (s.elapse dt) seq ∧ 16 ≤ List.length b ∧ List.length b % 8 = 0 ∧ (s.elapse dt).debugOpen 0 2 = true ∧ s.dbg.queue.length < 64) ∧
  (∃ (s : State) (dt : Nat) (seq : Nat),
    Probes (s.elapse dt) seq ∧ (s.elapse dt).debugOpen 0 2 = true ∧ s.dbg.queue = []) ∧
  (∃ (s : State) (dt : Nat) (seq : Nat) (k : Bytes × Nat) (more : List (Bytes × Nat)),
    Probes (s.elapse dt) seq ∧ (s.elapse dt).debugOpen 0 2 = true ∧ s.dbg.queue = k :: more) ∧
  (∃ (s : State) (dt : Nat) (seq : Nat) (p : Path) (x : Session) (q : TReq) (d : Nat),
    Probes (s.elapse dt) seq ∧ Issued (s.elapse dt) p x q 3329 1 (Perm.owner d) ∧ d < 16) ∧
  (∃ (s : State) (dt : Nat) (seq : Nat) (p : Path) (x : Session) (q : TReq),
    Probes (s.elapse dt) seq ∧ Issued (s.elapse dt) p x q 3330 0 Perm.any) :=
  ⟨⟨(prb {} {}), 3, 7, 2,
      probes_of (by decide +kernel), by decide +kernel⟩,
    ⟨{ prb {} {} with fuse.map := map2.set 15 0x44, fuse.live := map2.set 15 0x44 }, 3, 7, 0,
      probes_of (by decide +kernel), by decide +kernel⟩,
    ⟨(prb {} {}), 3, 7, (2 ^ 24),
      probes_of (by decide +kernel), by decide +kernel⟩,
    ⟨(prb {} {}), 3, 7, (2 ^ 20 - 4),
      probes_of (by decide +kernel), by decide +kernel⟩,
    ⟨(prb {} {}), 3, 7, 200, 1,
      probes_of (by decide +kernel), by decide +kernel⟩,
    ⟨{ prb {} {} with fuse.map := (map2.set 23 0x44), fuse.live := (map2.set 23 0x44), rm.doms := [(0, { dataPages := 8, mapped := [(0, 1)] })] }, 3, 7, 1, 1, 2,
      probes_of (by decide +kernel), by decide +kernel⟩,
    ⟨{ prb {} {} with fuse.map := (map2.set 23 0x50), fuse.live := (map2.set 23 0x50), rm.doms := [(0, { dataPages := 8, mapped := [(0, 1)] })] }, 3, 7, 1, 1, 2,
      probes_of (by decide +kernel), by decide +kernel⟩,
    ⟨{ prb {} {} with fuse.map := (map2.set 23 0x48), fuse.live := (map2.set 23 0x48), rm.doms := [(0, { dataPages := 8, mapped := [(0, 1)] })] }, 3, 7, 1, 1, 2,
      probes_of (by decide +kernel), by decide +kernel⟩,
    ⟨(prb {} {}), 3, 7, 1, 0, 2, 12,
      probes_of (by decide +kernel), by decide +kernel⟩,
    ⟨(prb {} {}), 3, 7, 1, 0, 2, 4,
      probes_of (by decide +kernel), by decide +kernel⟩,
    ⟨(prb {} {}), 3, 7, 1, 0, 2, 4,
      probes_of (by decide +kernel), by decide +kernel⟩,
    ⟨(prb { state := .halted } {}), 3, 7, 1, 0, 2, 4,
      probes_of (by decide +kernel), by decide +kernel⟩,
    ⟨(prb {} {}), 3, 7, 1, 0, 2,
      probes_of (by decide +kernel), by decide +kernel⟩,
    ⟨(prb { state := .halted } {}), 3, 7, 1, 0, 2,
      probes_of (by decide +kernel), by decide +kernel⟩,
    ⟨(prb {} {}), 3, 7, 1, 0, 2, 65536,
      probes_of (by decide +kernel), by decide +kernel⟩,
    ⟨(prb {} {}), 3, 7, 1, 0, 2, 65535,
      probes_of (by decide +kernel), by decide +kernel⟩,
    ⟨(prb { state := .halted } {}), 3, 7, 1, 0, 2, 1,
      probes_of (by decide +kernel), by decide +kernel⟩,
    ⟨(prb { state := .halted, under := .waiting, blocked := some (.wfe 4 5) } {}), 3, 7, 1, 0, 2, 1, 4, 5,
      probes_of (by decide +kernel), by decide +kernel⟩,
    ⟨(prb {} {}), 3, 7, 1, 0, 2, 1, 255, 4, 8,
      probes_of (by decide +kernel), by decide +kernel⟩,
    ⟨(prb {} {}), 3, 7, 1, 0, 2, 1, 255, 4, 4,
      probes_of (by decide +kernel), by decide +kernel⟩,
    ⟨(prb {} {}), 3, 7, 1, 0, 2, 32,
      probes_of (by decide +kernel), by decide +kernel⟩,
    ⟨(prb { state := .halted } {}), 3, 7, 1, 0, 2, 6,
      probes_of (by decide +kernel), by decide +kernel⟩,
    ⟨(prb { state := .halted } {}), 3, 7, 1, 0, 2, 32,
      probes_of (by decide +kernel), by decide +kernel⟩,
    ⟨(prb { state := .halted } {}), 3, 7, 1, 0, 2, 0x1001,
      probes_of (by decide +kernel), by decide +kernel⟩,
    ⟨(prb { state := .halted } {}), 3, 7, 1, 0, 2, 33,
      probes_of (by decide +kernel), by decide +kernel⟩,
    ⟨(prb { state := .halted } {}), 3, 7, 1, 0, 2, 32, 2,
      probes_of (by decide +kernel), by decide +kernel⟩,
    ⟨(prb { state := .halted } {}), 3, 7, 1, 0, 2, 31,
      probes_of (by decide +kernel), by decide +kernel⟩,
    ⟨(prb { state := .halted } {}), 3, 7, 1, 0, 2, 32, 64,
      probes_of (by decide +kernel), by decide +kernel⟩,
    ⟨(prb { state := .halted } {}), 3, 7, 1, 0, 2, 0x1002, 64,
      probes_of (by decide +kernel), by decide +kernel⟩,
    ⟨{ prb {} {} with mem.poison := [localAt 1 64 / 32] }, 3, 7, 1, 0, 2, 64, 8,
      probes_of (by decide +kernel), by decide +kernel⟩,
    ⟨(prb {} {}), 3, 7, 1, 0, 2, (2 ^ 18 - 8), 8,
      probes_of (by decide +kernel), by decide +kernel⟩,
    ⟨(prb {} {}), 3, 7, 1, 0, 2, 4, 8, [5],
      probes_of (by decide +kernel), by decide +kernel⟩,
    ⟨(prb {} {}), 3, 7, 1, 0, 2, (2 ^ 18 - 16), 16, [5, 6],
      probes_of (by decide +kernel), by decide +kernel⟩,
    ⟨(prb {} {}), 3, 7, 16, 8,
      probes_of (by decide +kernel), by decide +kernel⟩,
    ⟨{ prb {} {} with fuse.map := map2.set 15 0x60, fuse.live := map2.set 15 0x60 }, 3, 7, 0, 8,
      probes_of (by decide +kernel), by decide +kernel⟩,
    ⟨{ prb {} {} with rm.doms := [(0, { dataPages := 8, mapped := [(0, 1)] })] }, 3, 7, 0, 65536, 8,
      probes_of (by decide +kernel), by decide +kernel⟩,
    ⟨{ prb {} {} with rm.doms := [(0, { dataPages := 8, mapped := [(0, 1)] })] }, 3, 7, 0, 65528, 8,
      probes_of (by decide +kernel), by decide +kernel⟩,
    ⟨{ prb {} {} with rm.doms := [(0, { dataPages := 8, mapped := [(0, 1)] })] }, 3, 7, 0, 65536, 8, [5],
      probes_of (by decide +kernel), by decide +kernel⟩,
    ⟨{ prb {} {} with rm.doms := [(0, { dataPages := 8, mapped := [(0, 1)] })] }, 3, 7, 0, 65528, 8, [5],
      probes_of (by decide +kernel), by decide +kernel⟩,
    ⟨(prb {} {}), 3, 7, 3,
      probes_of (by decide +kernel), by decide +kernel⟩,
    ⟨{ prb {} {} with cores.chans := [(3, chS)], fuse.map := map2.set 15 0x50, fuse.live := map2.set 15 0x50 }, 3, 7, 3, chS,
      probes_of (by decide +kernel), by decide +kernel⟩,
    ⟨{ prb {} {} with cores.chans := [(3, chS)] }, 3, 7, 3, chS,
      probes_of (by decide +kernel), by decide +kernel⟩,
    ⟨{ prb {} {} with cores.chans := [(3, { chS with holder := some (1, 2) })] }, 3, 7, 3, { chS with holder := some (1, 2) },
      probes_of (by decide +kernel), by decide +kernel⟩,
    ⟨{ prb {} {} with fuse.map := map2.set 15 0x50, fuse.live := map2.set 15 0x50 }, 3, 7, (zeros 16),
      probes_of (by decide +kernel), by decide +kernel⟩,
    ⟨(prb {} { queue := List.replicate 64 ([], 0) }), 3, 7, (zeros 16),
      probes_of (by decide +kernel), by decide +kernel⟩,
    ⟨(prb {} {}), 3, 7, pkt,
      probes_of (by decide +kernel), by decide +kernel⟩,
    ⟨(prb {} {}), 3, 7,
      probes_of (by decide +kernel), by decide +kernel⟩,
    ⟨(prb {} { queue := [([1, 2], 3)] }), 3, 7, ([1, 2], 3), [],
      probes_of (by decide +kernel), by decide +kernel⟩,
    ⟨{ mapped .service with dbg := { connected := true }, tosen.sessions := [sess1 0x0D01 1] }, 3, 7, (.mp 1), (sess1 0x0D01 1), (req1 0x0D01 1), 1,
      probes_of (by decide +kernel), issued_of (by decide +kernel), by decide +kernel⟩,
    ⟨{ prb {} {} with tosen.sessions := [sess 0x0D02 0] }, 3, 7, (.mp 1), (sess 0x0D02 0), (req 0x0D02 0),
      probes_of (by decide +kernel), issued_of (by decide +kernel)⟩⟩

set_option Elab.async false
set_option maxRecDepth 4000
/-- The premises of `Obligations.PinsAndRails`, clause by clause, are met. -/
theorem witness_PinsAndRails :
  (∃ (s : State) (dt : Nat),
    (s.elapse dt).Calm ∧ (s.elapse dt).pw.pwrGood = true ∧ (s.elapse dt).pw.inReset = false) ∧
  (∃ (s : State) (dt : Nat),
    (s.elapse dt).Calm ∧ (s.elapse dt).pw.pwrGood = true ∧ (s.elapse dt).pw.inReset = true) ∧
  (∃ (s : State) (dt : Nat),
    (s.elapse dt).Calm ∧ (s.elapse dt).pw.pwrGood = false ∧ (s.elapse dt).pw.tripHeld = false) ∧
  (∃ (s : State) (dt : Nat),
    (s.elapse dt).Calm ∧ (s.elapse dt).pw.pwrGood = false ∧ (s.elapse dt).pw.tripHeld = true ∧ (s.elapse dt).pw.tripHot = false ∧ (s.elapse dt).pw.tripPwrLow = true) ∧
  (∃ (s : State) (dt : Nat),
    (s.elapse dt).Calm ∧ (s.elapse dt).pw.pwrGood = false ∧ (s.elapse dt).pw.tripHeld = true ∧ ((s.elapse dt).pw.tripHot = true ∨ (s.elapse dt).pw.tripPwrLow = false)) ∧
  (∃ (s : State) (dt : Nat) (low : Nat),
    (s.elapse dt).Calm ∧ (low < 100000 ∨ (s.elapse dt).pw.perst = false)) ∧
  (∃ (s : State) (dt : Nat) (low : Nat),
    (s.elapse dt).Calm ∧ 100000 ≤ low ∧ (s.elapse dt).pw.perst = true ∧ (s.elapse dt).dead = true) ∧
  (∃ (s : State) (dt : Nat) (low : Nat),
    (s.elapse dt).Calm ∧ 100000 ≤ low ∧ (s.elapse dt).pw.perst = true ∧ (s.elapse dt).dead = false ∧ (s.glb.mode.closes = false ∨ (s.elapse dt).pw.pwrGood = false)) ∧
  (∃ (s : State) (dt : Nat) (low : Nat),
    (s.elapse dt).Calm ∧ 100000 ≤ low ∧ (s.elapse dt).pw.perst = true ∧ (s.elapse dt).dead = false ∧ s.glb.mode.closes = true ∧ (s.elapse dt).pw.pwrGood = true ∧ s.chainsClosed = true) ∧
  (∃ (s : State) (dt : Nat) (low : Nat),
    (s.elapse dt).Calm ∧ 100000 ≤ low ∧ (s.elapse dt).pw.perst = true ∧ (s.elapse dt).dead = false ∧ s.glb.mode.closes = true ∧ (s.elapse dt).pw.pwrGood = true ∧ s.chainsClosed = false) ∧
  (∃ (s : State) (dt : Nat) (low : Nat),
    (s.elapse dt).Calm ∧ 1000 ≤ low ∧ (s.elapse dt).pw.resetN = true ∧ (s.elapse dt).dead = true) ∧
  (∃ (s : State) (dt : Nat) (low : Nat),
    (s.elapse dt).Calm ∧ 1000 ≤ low ∧ (s.elapse dt).pw.resetN = true ∧ (s.elapse dt).dead = false ∧ (s.glb.mode.closes = false ∨ (s.elapse dt).pw.pwrGood = false)) ∧
  (∃ (s : State) (dt : Nat) (low : Nat),
    (s.elapse dt).Calm ∧ 1000 ≤ low ∧ (s.elapse dt).pw.resetN = true ∧ (s.elapse dt).dead = false ∧ s.glb.mode.closes = true ∧ (s.elapse dt).pw.pwrGood = true ∧ s.chainsClosed = true) ∧
  (∃ (s : State) (dt : Nat) (low : Nat),
    (s.elapse dt).Calm ∧ 1000 ≤ low ∧ (s.elapse dt).pw.resetN = true ∧ (s.elapse dt).dead = false ∧ s.glb.mode.closes = true ∧ (s.elapse dt).pw.pwrGood = true ∧ s.chainsClosed = false) ∧
  (∃ (s : State) (dt : Nat) (low : Nat),
    (s.elapse dt).Calm ∧ 100 ≤ low ∧ low < 1000 ∧ (s.elapse dt).pw.resetN = true ∧ (s.elapse dt).dead = true) ∧
  (∃ (s : State) (dt : Nat) (low : Nat),
    (s.elapse dt).Calm ∧ 100 ≤ low ∧ low < 1000 ∧ (s.elapse dt).pw.resetN = true ∧ (s.elapse dt).dead = false ∧ (s.glb.mode.closes = false ∨ (s.elapse dt).pw.pwrGood = false)) ∧
  (∃ (s : State) (dt : Nat) (low : Nat),
    (s.elapse dt).Calm ∧ 100 ≤ low ∧ low < 1000 ∧ (s.elapse dt).pw.resetN = true ∧ (s.elapse dt).dead = false ∧ s.glb.mode.closes = true ∧ (s.elapse dt).pw.pwrGood = true ∧ s.chainsClosed = true) ∧
  (∃ (s : State) (dt : Nat) (low : Nat),
    (s.elapse dt).Calm ∧ 100 ≤ low ∧ low < 1000 ∧ (s.elapse dt).pw.resetN = true ∧ (s.elapse dt).dead = false ∧ s.glb.mode.closes = true ∧ (s.elapse dt).pw.pwrGood = true ∧ s.chainsClosed = false) ∧
  (∃ (s : State) (dt : Nat) (low : Nat),
    (s.elapse dt).Calm ∧ (low < 100 ∨ (s.elapse dt).pw.resetN = false)) ∧
  (∃ (s : State) (dt : Nat),
    (s.elapse dt).Calm ∧ (s.elapse dt).pw.vddAux = false) ∧
  (∃ (s : State) (dt : Nat),
    (s.elapse dt).Calm ∧ (s.elapse dt).pw.vddAux = true ∧ (s.elapse dt).pw.inReset = false) ∧
  (∃ (s : State) (dt : Nat),
    (s.elapse dt).Calm ∧ (s.elapse dt).pw.vddAux = true ∧ (s.elapse dt).pw.inReset = true) ∧
  (∃ (s : State) (dt : Nat),
    (s.elapse dt).Calm ∧ (s.elapse dt).pw.refCore = true ∧ (s.elapse dt).pw.inReset = false) ∧
  (∃ (s : State) (dt : Nat),
    (s.elapse dt).Calm ∧ (s.elapse dt).pw.refCore = true ∧ (s.elapse dt).pw.inReset = true) ∧
  (∃ (s : State) (dt : Nat),
    (s.elapse dt).Calm ∧ (s.elapse dt).pw.refCore = false) ∧
  (∃ (s : State) (dt : Nat),
    (s.elapse dt).Calm ∧ (s.elapse dt).pw.closing = true ∧ (s.elapse dt).pw.inReset = false ∧ (s.elapse dt).pw.closeBegan + 2 ^ 21 * 65536 ≤ (s.elapse dt).elapsed) ∧
  (∃ (s : State) (dt : Nat),
    (s.elapse dt).Calm ∧ ((s.elapse dt).pw.closing = false ∨ (s.elapse dt).elapsed < (s.elapse dt).pw.closeBegan + 2 ^ 21 * 65536)) ∧
  (∃ (s : State) (dt : Nat) (w : Path) (x : Session) (q : TReq),
    (s.elapse dt).Calm ∧ Issued (s.elapse dt) w x q 3077 0 Perm.any ∧ s.glb.mode.closes = true ∧ (s.elapse dt).pw.pwrGood = true ∧ s.chainsClosed = false) ∧
  (∃ (s : State) (dt : Nat) (w : Path) (x : Session) (q : TReq),
    (s.elapse dt).Calm ∧ Issued (s.elapse dt) w x q 3077 0 Perm.any ∧ s.glb.mode.closes = true ∧ (s.elapse dt).pw.pwrGood = true ∧ s.chainsClosed = true) ∧
  (∃ (s : State) (dt : Nat) (w : Path) (x : Session) (q : TReq),
    (s.elapse dt).Calm ∧ Issued (s.elapse dt) w x q 3077 0 Perm.any ∧ (s.glb.mode.closes = false ∨ (s.elapse dt).pw.pwrGood = false)) :=
  ⟨⟨{ inMode .service with glb.failsafe := true, tb.rec0 := true, tb.rec1 := true, tb.ppsHigh := true, fuse.map := map2, pcie.totalNext := [(4096, 7)] }, 3,
      (by first | exact .inr (plain_of (by decide +kernel)) | exact .inl (by decide +kernel)), by decide +kernel⟩,
    ⟨(pw { inReset := true }), 3,
      (by first | exact .inr (plain_of (by decide +kernel)) | exact .inl (by decide +kernel)), by decide +kernel⟩,
    ⟨(pw { pwrGood := false, inReset := true }), 3,
      (by first | exact .inr (plain_of (by decide +kernel)) | exact .inl (by decide +kernel)), by decide +kernel⟩,
    ⟨(pw { pwrGood := false, inReset := true, tripHeld := true, tripPwrLow := true }), 3,
      (by first | exact .inr (plain_of (by decide +kernel)) | exact .inl (by decide +kernel)), by decide +kernel⟩,
    ⟨(pw { pwrGood := false, inReset := true, tripHeld := true, tripPwrLow := false }), 3,
      (by first | exact .inr (plain_of (by decide +kernel)) | exact .inl (by decide +kernel)), by decide +kernel⟩,
    ⟨(inMode .service), 3, 99999,
      (by first | exact .inr (plain_of (by decide +kernel)) | exact .inl (by decide +kernel)), by decide +kernel⟩,
    ⟨(pw { inReset := true }), 3, 100000,
      (by first | exact .inr (plain_of (by decide +kernel)) | exact .inl (by decide +kernel)), by decide +kernel⟩,
    ⟨(inMode .factory), 3, 100000,
      (by first | exact .inr (plain_of (by decide +kernel)) | exact .inl (by decide +kernel)), by decide +kernel⟩,
    ⟨(inMode .service), 3, 100000,
      (by first | exact .inr (plain_of (by decide +kernel)) | exact .inl (by decide +kernel)), by decide +kernel⟩,
    ⟨{ ledger .service with glb.failsafe := true, tb.rec0 := true, tb.rec1 := true, tb.ppsHigh := true, ports.ports := [(3, { state := .up, tx := [{ data := [1] }] })] }, 3, 100000,
      (by first | exact .inr (plain_of (by decide +kernel)) | exact .inl (by decide +kernel)), by decide +kernel⟩,
    ⟨(pw { inReset := true }), 3, 1000,
      (by first | exact .inr (plain_of (by decide +kernel)) | exact .inl (by decide +kernel)), by decide +kernel⟩,
    ⟨(inMode .factory), 3, 1000,
      (by first | exact .inr (plain_of (by decide +kernel)) | exact .inl (by decide +kernel)), by decide +kernel⟩,
    ⟨(inMode .service), 3, 1000,
      (by first | exact .inr (plain_of (by decide +kernel)) | exact .inl (by decide +kernel)), by decide +kernel⟩,
    ⟨{ ledger .service with glb.failsafe := true, tb.rec0 := true, tb.rec1 := true, tb.ppsHigh := true, ports.ports := [(3, { state := .up, tx := [{ data := [1] }] })] }, 3, 1000,
      (by first | exact .inr (plain_of (by decide +kernel)) | exact .inl (by decide +kernel)), by decide +kernel⟩,
    ⟨(pw { inReset := true }), 3, 100,
      (by first | exact .inr (plain_of (by decide +kernel)) | exact .inl (by decide +kernel)), by decide +kernel⟩,
    ⟨(inMode .factory), 3, 100,
      (by first | exact .inr (plain_of (by decide +kernel)) | exact .inl (by decide +kernel)), by decide +kernel⟩,
    ⟨(inMode .service), 3, 100,
      (by first | exact .inr (plain_of (by decide +kernel)) | exact .inl (by decide +kernel)), by decide +kernel⟩,
    ⟨{ ledger .service with glb.failsafe := true, tb.rec0 := true, tb.rec1 := true, tb.ppsHigh := true, ports.ports := [(3, { state := .up, tx := [{ data := [1] }] })] }, 3, 100,
      (by first | exact .inr (plain_of (by decide +kernel)) | exact .inl (by decide +kernel)), by decide +kernel⟩,
    ⟨(inMode .service), 3, 99,
      (by first | exact .inr (plain_of (by decide +kernel)) | exact .inl (by decide +kernel)), by decide +kernel⟩,
    ⟨(pw { vddAux := false, inReset := true, tripSeen := true }), 3,
      (by first | exact .inr (plain_of (by decide +kernel)) | exact .inl (by decide +kernel)), by decide +kernel⟩,
    ⟨{ inMode .service with led.retention := [(0, [1])], dbg.tap := { ir := 2 }, pw := { therm := true, bootDue := false } }, 3,
      (by first | exact .inr (plain_of (by decide +kernel)) | exact .inl (by decide +kernel)), by decide +kernel⟩,
    ⟨{ pw { inReset := true, therm := true } with led.retention := [(0, [1])], dbg.tap := { ir := 2 } }, 3,
      (by first | exact .inr (plain_of (by decide +kernel)) | exact .inl (by decide +kernel)), by decide +kernel⟩,
    ⟨(inMode .service), 3,
      (by first | exact .inr (plain_of (by decide +kernel)) | exact .inl (by decide +kernel)), by decide +kernel⟩,
    ⟨(pw { inReset := true }), 3,
      (by first | exact .inr (plain_of (by decide +kernel)) | exact .inl (by decide +kernel)), by decide +kernel⟩,
    ⟨(pw { refCore := false, inReset := true }), 3,
      (by first | exact .inr (plain_of (by decide +kernel)) | exact .inl (by decide +kernel)), by decide +kernel⟩,
    ⟨(pw { closing := true, closeCause := 2 }), (2 ^ 21 * 65536),
      (by first | exact .inr (plain_of (by decide +kernel)) | exact .inl (by decide +kernel)), by decide +kernel⟩,
    ⟨(pw { closing := true, closeCause := 2 }), (2 ^ 21 * 65536 - 1),
      (by first | exact .inr (plain_of (by decide +kernel)) | exact .inl (by decide +kernel)), by decide +kernel⟩,
    ⟨(ask (ledger .service) 0x0C05 0), 3, (.mp 1), (sess 0x0C05 0), (req 0x0C05 0),
      (by first | exact .inr (plain_of (by decide +kernel)) | exact .inl (by decide +kernel)), issued_of (by decide +kernel), by decide +kernel⟩,
    ⟨(ask (inMode .service) 0x0C05 0), 3, (.mp 1), (sess 0x0C05 0), (req 0x0C05 0),
      (by first | exact .inr (plain_of (by decide +kernel)) | exact .inl (by decide +kernel)), issued_of (by decide +kernel), by decide +kernel⟩,
    ⟨(ask (inMode .factory) 0x0C05 0), 3, (.mp 1), (sess 0x0C05 0), (req 0x0C05 0),
      (by first | exact .inr (plain_of (by decide +kernel)) | exact .inl (by decide +kernel)), issued_of (by decide +kernel), by decide +kernel⟩⟩

/-- The premises of `Obligations.TemperatureAndScan`, clause by clause, are met. -/
theorem witness_TemperatureAndScan :
  (∃ (s : State) (dt : Nat) (tj : Nat),
    (s.elapse dt).Calm ∧ s.pw.vddAux = true ∧ 100 ≤ tjOf tj) ∧
  (∃ (s : State) (dt : Nat) (i : Instr),
    (s.elapse dt).Calm ∧ s.pw.vddAux = false ∧ i ∈ [Instr.thermAssert dt 100, Instr.thermRelease dt 94, Instr.thermalCritical dt 110, Instr.thermalTrip dt 120, Instr.i2cWrite dt [5], Instr.tapReset dt, Instr.idcode dt, Instr.bypass dt, Instr.clamp dt, Instr.highz dt, Instr.samplePreload dt 1 2, Instr.extest dt 1 2, Instr.extestPulse dt 1 2 3, Instr.extestTrain dt 1 2 3]) ∧
  (∃ (s : State) (dt : Nat) (tj : Nat),
    (s.elapse dt).Calm ∧ s.pw.vddAux = true ∧ tjOf tj < 100) ∧
  (∃ (s : State) (dt : Nat) (tj : Nat),
    (s.elapse dt).Calm ∧ s.pw.vddAux = true ∧ tjOf tj < 95) ∧
  (∃ (s : State) (dt : Nat) (tj : Nat),
    (s.elapse dt).Calm ∧ s.pw.vddAux = true ∧ 95 ≤ tjOf tj) ∧
  (∃ (s : State) (dt : Nat) (tj : Nat),
    (s.elapse dt).Calm ∧ s.pw.vddAux = true ∧ 110 ≤ tjOf tj ∧ ((s.elapse dt).dead = true ∨ s.glb.mode = Mode.boot ∨ s.glb.mode = Mode.recovery ∨ s.glb.mode = Mode.lockdown)) ∧
  (∃ (s : State) (dt : Nat) (tj : Nat),
    (s.elapse dt).Calm ∧ s.pw.vddAux = true ∧ 110 ≤ tjOf tj ∧ (s.elapse dt).dead = false ∧ (s.glb.mode = Mode.factory ∨ s.glb.mode = Mode.priming ∨ s.glb.mode = Mode.service ∨ s.glb.mode = Mode.drain)) ∧
  (∃ (s : State) (dt : Nat) (tj : Nat),
    (s.elapse dt).Calm ∧ s.pw.vddAux = true ∧ tjOf tj < 110) ∧
  (∃ (s : State) (dt : Nat) (tj : Nat),
    (s.elapse dt).Calm ∧ s.pw.vddAux = true ∧ 120 ≤ tjOf tj ∧ (s.elapse dt).pw.inReset = false) ∧
  (∃ (s : State) (dt : Nat) (tj : Nat),
    (s.elapse dt).Calm ∧ s.pw.vddAux = true ∧ 120 ≤ tjOf tj ∧ (s.elapse dt).pw.inReset = true) ∧
  (∃ (s : State) (dt : Nat) (tj : Nat),
    (s.elapse dt).Calm ∧ s.pw.vddAux = true ∧ tjOf tj < 120) ∧
  (∃ (s : State) (dt : Nat),
    (s.elapse dt).Calm ∧ s.pw.vddAux = true ∧ s.pw.resetN = false) ∧
  (∃ (s : State) (dt : Nat),
    (s.elapse dt).Calm ∧ s.pw.vddAux = true ∧ s.pw.resetN = true) :=
  ⟨⟨(inMode .service), 3, 100,
      (by first | exact .inr (plain_of (by decide +kernel)) | exact .inl (by decide +kernel)), by decide +kernel⟩,
    ⟨(pw { vddAux := false, inReset := true }), 3, (.idcode 3),
      (by first | exact .inr (plain_of (by decide +kernel)) | exact .inl (by decide +kernel)), by decide +kernel⟩,
    ⟨(inMode .service), 3, 99,
      (by first | exact .inr (plain_of (by decide +kernel)) | exact .inl (by decide +kernel)), by decide +kernel⟩,
    ⟨(pw { therm := true, tj := 100, tjMax := 100 }), 3, 94,
      (by first | exact .inr (plain_of (by decide +kernel)) | exact .inl (by decide +kernel)), by decide +kernel⟩,
    ⟨(pw { therm := true }), 3, 95,
      (by first | exact .inr (plain_of (by decide +kernel)) | exact .inl (by decide +kernel)), by decide +kernel⟩,
    ⟨(inMode .recovery), 3, 110,
      (by first | exact .inr (plain_of (by decide +kernel)) | exact .inl (by decide +kernel)), by decide +kernel⟩,
    ⟨(ledger .service), 3, 110,
      (by first | exact .inr (plain_of (by decide +kernel)) | exact .inl (by decide +kernel)), by decide +kernel⟩,
    ⟨(ledger .service), 3, 109,
      (by first | exact .inr (plain_of (by decide +kernel)) | exact .inl (by decide +kernel)), by decide +kernel⟩,
    ⟨(ledger .service), 3, 120,
      (by first | exact .inr (plain_of (by decide +kernel)) | exact .inl (by decide +kernel)), by decide +kernel⟩,
    ⟨(pw { inReset := true }), 3, 120,
      (by first | exact .inr (plain_of (by decide +kernel)) | exact .inl (by decide +kernel)), by decide +kernel⟩,
    ⟨(ledger .service), 3, 119,
      (by first | exact .inr (plain_of (by decide +kernel)) | exact .inl (by decide +kernel)), by decide +kernel⟩,
    ⟨(pw { resetN := false, inReset := true }), 3,
      (by first | exact .inr (plain_of (by decide +kernel)) | exact .inl (by decide +kernel)), by decide +kernel⟩,
    ⟨(inMode .service), 3,
      (by first | exact .inr (plain_of (by decide +kernel)) | exact .inl (by decide +kernel)), by decide +kernel⟩⟩

/-- The premises of `Obligations.RegisterAccess`, clause by clause, are met. -/
theorem witness_RegisterAccess :
  (∃ (s : State) (dt : Nat) (fn : Nat) (off : Nat),
    (s.elapse dt).Plain ∧ (s.elapse dt).asked fn = false ∧ off < 2 ^ 21) ∧
  (∃ (s : State) (dt : Nat) (fn : Nat) (off : Nat),
    (s.elapse dt).Plain ∧ (s.elapse dt).asked fn = true ∧ ((s.pfn fn).mse = false ∨ (s.pfn fn).d3 = true ∨ s.glb.mode = Mode.lockdown ∧ fn ≠ 0) ∧ off < 2 ^ 21) ∧
  (∃ (s : State) (dt : Nat) (fn : Nat) (off : Nat) (v : Nat),
    (s.elapse dt).Plain ∧ (s.elapse dt).asked fn = true ∧ (((s.pfn fn).mse = true ∧ (s.pfn fn).d3 = false ∧ (s.glb.mode = Mode.lockdown → fn = 0)) ∧ s.glb.mode ≠ Mode.boot ∧ s.glb.mode ≠ Mode.recovery ∧ (s.fn fn).inReset = false) ∧ off < 2 ^ 20 ∧ off % 8 = 0 ∧ off / 65536 ≠ 2 ∧ off / 65536 ≠ 3 ∧ (s.elapse dt).reg64 fn off = some v ∧ (s.elapse dt).reg64 fn (off + 4) = none) ∧
  (∃ (s : State) (dt : Nat) (fn : Nat),
    (s.elapse dt).Plain ∧ (s.elapse dt).asked fn = true ∧ ((s.pfn fn).mse = true ∧ (s.pfn fn).d3 = false ∧ (s.glb.mode = Mode.lockdown → fn = 0)) ∧ s.glb.mode ≠ Mode.recovery ∧ (s.glb.mode = Mode.boot ∨ (s.fn fn).inReset = true)) ∧
  (∃ (s : State) (dt : Nat) (fn : Nat) (off : Nat),
    (s.elapse dt).Plain ∧ (s.elapse dt).asked fn = true ∧ ((s.pfn fn).mse = true ∧ (s.pfn fn).d3 = false ∧ (s.glb.mode = Mode.lockdown → fn = 0)) ∧ s.glb.mode = Mode.recovery ∧ off < 2 ^ 20 ∧ off % 4 = 0) ∧
  (∃ (s : State) (dt : Nat) (fn : Nat) (n : Nat),
    (s.elapse dt).Plain ∧ ((s.elapse dt).cfgOpen fn = false ∨ 4 < n)) ∧
  (∃ (s : State) (dt : Nat) (fn : Nat) (code : Nat),
    (s.elapse dt).Plain ∧ (s.elapse dt).cfgOpen fn = true ∧ (pfOf fn = 0 ∧ s.glb.mode = Mode.recovery ∧ code = 16711680 ∨ pfOf fn = 0 ∧ s.glb.mode ≠ Mode.recovery ∧ code = 737280 ∨ pfOf fn ≠ 0 ∧ mapField s.fuse.live (776 + pfOf fn) 1 5 4 = 0 ∧ code = 131072 ∨ pfOf fn ≠ 0 ∧ mapField s.fuse.live (776 + pfOf fn) 1 5 4 = 1 ∧ code = 67586 ∨ pfOf fn ≠ 0 ∧ mapField s.fuse.live (776 + pfOf fn) 1 5 4 = 2 ∧ code = 1179648)) ∧
  (∃ (s : State) (dt : Nat) (fn : Nat),
    (s.elapse dt).Plain ∧ (s.elapse dt).cfgOpen fn = true ∧ fn = 0) ∧
  (∃ (s : State) (dt : Nat) (fn : Nat) (v : Nat),
    (s.elapse dt).Plain ∧ (s.elapse dt).cfgOpen fn = true ∧ isVf fn = false ∧ v ≤ 14 ∧ 2 ^ (22 + v) ≤ (s.pfn fn).winMax) ∧
  (∃ (s : State) (dt : Nat) (fn : Nat) (v : Nat),
    (s.elapse dt).Plain ∧ (s.elapse dt).cfgOpen fn = true ∧ (s.pfn fn).winMax < 2 ^ (22 + v)) ∧
  (∃ (s : State) (dt : Nat) (fn : Nat),
    (s.elapse dt).Plain ∧ (s.elapse dt).cfgOpen fn = true ∧ (s.pfn fn).pba = []) ∧
  (∃ (s : State) (dt : Nat) (fn : Nat),
    (s.elapse dt).Plain ∧ (s.elapse dt).cfgOpen fn = false) ∧
  (∃ (s : State) (dt : Nat) (fn : Nat),
    (s.elapse dt).Plain ∧ s.glb.mode ≠ Mode.recovery ∧ (s.elapse dt).barOpen fn = false) ∧
  (∃ (s : State) (dt : Nat) (n : Nat),
    (s.elapse dt).Plain ∧ n ≠ 4 ∧ n ≠ 8) ∧
  (∃ (s : State) (dt : Nat) (fn : Nat) (v : Nat),
    (s.elapse dt).Plain ∧ s.glb.mode = Mode.recovery ∧ fn = 0 ∧ (s.elapse dt).recOpen = true ∧ v < 2 ^ 32) ∧
  (∃ (s : State) (dt : Nat) (fn : Nat) (v : Nat),
    (s.elapse dt).Plain ∧ s.glb.mode ≠ Mode.recovery ∧ (s.elapse dt).barOpen fn = true ∧ fn = 0 ∧ 0 < v ∧ v < 65536) ∧
  (∃ (s : State) (dt : Nat) (fn : Nat) (p : Nat) (v : Nat),
    (s.elapse dt).Plain ∧ s.glb.mode ≠ Mode.recovery ∧ (s.elapse dt).barOpen fn = true ∧ fn = 0 ∧ p < 25 ∧ (p < s.portCount ∨ p = 24) ∧ v < 2 ^ 32) ∧
  (∃ (s : State) (dt : Nat) (fn : Nat) (n : Nat) (v : Nat),
    (s.elapse dt).Plain ∧ s.glb.mode ≠ Mode.recovery ∧ (s.elapse dt).barOpen fn = true ∧ n < 1024 ∧ v < 2 ^ 32 ∧ (((fun n => s.ring (rkey fn n)) n).enable = false)) ∧
  (∃ (s : State) (dt : Nat) (fn : Nat) (n : Nat),
    (s.elapse dt).Plain ∧ s.glb.mode ≠ Mode.recovery ∧ (s.elapse dt).barOpen fn = true ∧ n < 1024 ∧ (((fun n => s.ring (rkey fn n)) n).enable = true)) :=
  ⟨⟨(inMode .service), 3, 0, 0x20000,
      plain_of (by decide +kernel), by decide +kernel⟩,
    ⟨{ mapped .service with pcie.fns := [(4096, { d3 := true, mse := true })] }, 3, 4096, 8,
      plain_of (by decide +kernel), by decide +kernel⟩,
    ⟨{ linked .service with pcie.counters := [0,0,0,0,0,0,0,2^40+9] }, 3, 0, 0xF0138, (2 ^ 40 + 9),
      plain_of (by decide +kernel), by decide +kernel⟩,
    ⟨(linked .boot), 3, 0,
      plain_of (by decide +kernel), by decide +kernel⟩,
    ⟨(linked .recovery), 3, 0, 0x100,
      plain_of (by decide +kernel), by decide +kernel⟩,
    ⟨(inMode .service), 3, 0, 4,
      plain_of (by decide +kernel), by decide +kernel⟩,
    ⟨(linked .service), 3, 0, 0x0B4000,
      plain_of (by decide +kernel), by decide +kernel⟩,
    ⟨(linked .service), 3, 0,
      plain_of (by decide +kernel), by decide +kernel⟩,
    ⟨(linked .service), 3, 0, 6,
      plain_of (by decide +kernel), by decide +kernel⟩,
    ⟨(linked .service), 3, 0, 14,
      plain_of (by decide +kernel), by decide +kernel⟩,
    ⟨(linked .service), 3, 0,
      plain_of (by decide +kernel), by decide +kernel⟩,
    ⟨(inMode .service), 3, 0,
      plain_of (by decide +kernel), by decide +kernel⟩,
    ⟨(inMode .service), 3, 0,
      plain_of (by decide +kernel), by decide +kernel⟩,
    ⟨(linked .service), 3, 2,
      plain_of (by decide +kernel), by decide +kernel⟩,
    ⟨(linked .recovery), 3, 0, 0xFFF,
      plain_of (by decide +kernel), by decide +kernel⟩,
    ⟨(linked .service), 3, 0, 65535,
      plain_of (by decide +kernel), by decide +kernel⟩,
    ⟨{ linked .service with ports.ports := [(24, { half := 2^32-1, halfMask := 2 ^ 63 + 5 })] }, 3, 0, 24, 5,
      plain_of (by decide +kernel), by decide +kernel⟩,
    ⟨(linked .service), 3, 0, 1023, (2 ^ 32 - 1),
      plain_of (by decide +kernel), by decide +kernel⟩,
    ⟨(post1 {}), 3, 0, 3,
      plain_of (by decide +kernel), by decide +kernel⟩⟩

end Sys2Proof.Tests
end

/-! Reads of a register of the timebase through a control BAR (R12, R46, R47): what the read of a latched word answers, and with it the
statement on register access. -/
namespace Sys2Proof.Machine

/-! What a command ends with when no report and no debug step is under way. -/

/-- No counter has passed half its range. -/
theorem flushHalf_none (s : State) (h : s.ports.halfDue = []) : s.flushHalf = s := by
  simp only [State.flushHalf, h, List.foldl_nil]
  rw [← h]

/-- No debug step is in progress, and none waits for its response. -/
theorem stepFlush_none (s : State) (hs : s.dbg.steps = []) (hw : s.dbg.stepWait = none) : s.stepFlush = s := by
  simp only [State.stepFlush, hs, List.foldl_nil, State.wlStepped, hw]

/-- The quality byte in force before is the present one. -/
theorem noteQuality_same (s : State) : s.noteQuality s.quality = s := by simp only [State.noteQuality, if_true]

/-- A command whose only effect is one emission, carried out with nothing else under way. -/
theorem run_emit {s : State} {dt : Nat} {f : State → State} {e : Emission} (h : (s.elapse dt).Plain)
    (hf : f (s.elapse dt) = (s.elapse dt).emit e) : s.run dt f = .next ((s.elapse dt).emit e) := by
  have hhalf : ((s.elapse dt).emit e).flushHalf = (s.elapse dt).emit e := flushHalf_none _ h.half
  have hstep : ((s.elapse dt).emit e).stepFlush = (s.elapse dt).emit e := stepFlush_none _ h.steps h.wait
  have hqual : ((s.elapse dt).emit e).noteQuality (s.elapse dt).quality = (s.elapse dt).emit e := noteQuality_same _
  rw [run_settled s dt f h.settled (by rw [hf]; exact h.settled.flow) (by rw [hf]; exact h.settled.freed), hf, hhalf, hstep, hqual]
  rfl

/-! Words of a control BAR. -/

/-- Function `f` reads its registers (R31, R318): it is asked, with Memory Space Enable and in D0, neither in reset nor stopped by Lockdown,
and the boot phase is over. -/
structure State.ReadsRegs (u : State) (f : Nat) : Prop where
  asked : u.asked f = true
  shown : (u.pfn f).mse = true ∧ (u.pfn f).d3 = false ∧ (u.glb.mode = .lockdown → f = 0)
  booted : u.glb.mode ≠ .boot ∧ u.glb.mode ≠ .recovery
  released : (u.fn f).inReset = false

/-- The passing of time leaves the functions as they are. -/
theorem elapse_pfn (s : State) (dt f : Nat) : (s.elapse dt).pfn f = s.pfn f := by rw [State.pfn, State.pfn, elapse_pcie]
theorem elapse_fn (s : State) (dt f : Nat) : (s.elapse dt).fn f = s.fn f := by rw [State.fn, State.fn, elapse_glb]

theorem readPhase_of_readsRegs {u : State} {f : Nat} (h : u.ReadsRegs f) (off : Nat) : u.readPhase f off = u.readWord f off := by
  simp [State.readPhase, h.booted, h.released]

/-- A read of one aligned word answers 32 bits of it (R12). -/
theorem readBytes_word (s : State) (f off : Nat) (ha : off % 4 = 0) :
    s.readBytes f off 4 = ((s.readPhase f off).1 % 2 ^ 32, (s.readPhase f off).2) := by
  have e : off / 4 * 4 = off := by omega
  simp [State.readBytes, e]

theorem barRead_word {u : State} {f off : Nat} (h : u.ReadsRegs f) (ho : off < 2 ^ 20) (ha : off % 4 = 0) :
    u.barRead f off 4 = (u.readWord f off).2.emit (.value f off ((u.readWord f off).1 % 2 ^ 32)) := by
  have hm : off % u.barSize f = off := Nat.mod_eq_of_lt (by unfold State.barSize; split <;> omega)
  obtain ⟨hmse, hd3, hlock⟩ := h.shown
  have hl : (u.glb.mode = .lockdown && f ≠ 0) = false := by simpa using hlock
  simp only [State.barRead, h.asked, hmse, hd3, hl, hm, readBytes_word u f off ha, readPhase_of_readsRegs h]
  simp

theorem exec_latchingLoRead (dt fn off n : Nat) (s : State) : exec (.latchingLoRead dt fn off n) s = execLatchingLoRead dt fn off n s := rfl

/-- A read of TB_NOW_HI (R46, R47) answers the low 32 bits of what the function's last read of TB_NOW_LO has latched, and changes nothing. -/
theorem exec_latchingLoRead_tbNowHi {s : State} {dt fn : Nat} (h : (s.elapse dt).Plain) (hr : (s.elapse dt).ReadsRegs fn) :
    exec (.latchingLoRead dt fn 0x20004 4) s =
      .next ((s.elapse dt).emit (.value fn 0x20004 ((tget s.tb.latch fn (0, 0, 0)).1 % 2 ^ 32))) := by
  have hw : (s.elapse dt).readWord fn 0x20004 = ((tget s.tb.latch fn (0, 0, 0)).1, s.elapse dt) := by
    simp [State.readWord]
  rw [exec_latchingLoRead]
  unfold execLatchingLoRead
  refine run_emit h ?_
  rw [if_neg (by decide), barRead_word hr (by decide) (by decide), hw]

/-- Refutes O60: the statement ranges over every state, also over one whose latch for a function holds more than the 32 bits of TB_NOW_HI
(no read of TB_NOW_LO leaves such a latch, as device time counts modulo 2^80). There the clause for TB_NOW_HI asks for the latch as it
stands, and the read answers 32 bits of it: with 2^32 latched, 0. -/
theorem not_registerAccess : ¬ Obligations.RegisterAccess := by
  unfold Obligations.RegisterAccess
  intro h
  obtain ⟨s, hplain, hreads, hlatch⟩ : ∃ s : State, (s.elapse 0).Plain ∧ (s.elapse 0).ReadsRegs 0 ∧ s.tb.latch = [(0, (2 ^ 32, 0, 0))] :=
    ⟨{ glb := { mode := .service }, tb := { latch := [(0, (2 ^ 32, 0, 0))] }
       pcie := { linkA := { up := true }, fns := [(0, { mse := true })] } },
      ⟨⟨rfl, rfl, rfl, rfl, rfl⟩, rfl, rfl, rfl, rfl⟩,
      ⟨by decide, by decide, by decide, by decide⟩, rfl⟩
  obtain ⟨-, hAsked, -⟩ := h s 0 0 hplain
  obtain ⟨-, -, -, -, hHi, -⟩ := hAsked hreads.asked
  have hread := exec_latchingLoRead_tbNowHi hplain hreads
  obtain ⟨-, hshown, hbooted, hreleased⟩ := hreads
  rw [elapse_pfn, elapse_glb] at hshown
  rw [elapse_glb] at hbooted
  rw [elapse_fn] at hreleased
  obtain ⟨t, ht, hval⟩ := hHi ⟨hshown, hbooted.1, hbooted.2, hreleased⟩
  rw [hread, hlatch] at ht
  rw [hlatch] at hval
  have hout : Emission.value 0 0x20004 0 = Emission.value 0 0x20004 (2 ^ 32) := by
    cases ht
    exact (List.cons.inj (congrArg State.out hval)).1
  cases hout

end Sys2Proof.Machine

namespace Sys2Proof.Machine

/-! Faults of a core (R230, R231) and what they leave of the rings: the stop of a core is also an occasion on which results held back elsewhere
are tried again (R248), and with it the statement on the instructions of a thread. -/

/-- States that agree show the same of their rings, but for what completions write. -/
theorem Agree.rings {s t : State} (h : Agree s t) : tnorm {} Ring.still t.rings.rings = tnorm {} Ring.still s.rings.rings :=
  congrArg (fun v => v.rings.rings) h.still

theorem given_rings (s : State) (c t : Nat) (f : Form) : (s.given c t f).rings = s.rings := rfl
theorem coreCount1_rings (s : State) (c i : Nat) : (s.coreCount1 c i).rings = s.rings := rfl

/-- Refutes O31: of a fault the statement asks that no ring but by its completions changes, in every state without flows. The stop of a core
ends in `State.retryHeld`, which tries the results of every core's stalled threads again. In the state written out here, thread 0 of
core 3 is stalled at a post to ring 0, and no flow holds it back: as thread 2 of core 1 faults on an illegal instruction, that post goes
out, and the ring's PI is 1 where the statement asks for 0. (Commands leave a thread stalled so only for a flow, and a flow stays listed;
the statement's premises do not say it.) -/
theorem not_instructionsAndTraps : ¬ Obligations.InstructionsAndTraps := by
  unfold Obligations.InstructionsAndTraps
  rintro ⟨hgeneral, -⟩
  obtain ⟨s, hfetch, hchans, hflows, hidle, t, hrun, hposted⟩ : ∃ s : State, Fetches (s.elapse 0) 1 2 0 { state := .ready } ∧
      s.cores.chans = [] ∧ s.rm.flows = [] ∧ tnorm {} Ring.still s.rings.rings = [(0, { enable := true, kind := 1, pi := 0 })] ∧
      ∃ t, exec (.generalInstruction 0 1 2 0 .illegal) s = .next t ∧
        tnorm {} Ring.still t.rings.rings = [(0, { enable := true, kind := 1, pi := 1, reading := true })] :=
    ⟨{ glb := { mode := .service }
       cores := { cores := [(1, { state := .running, threads := [(2, { state := .ready })] }),
         (3, { state := .running, threads := [(0, { state := .stalled, blocked := some (.post 5 0 []) })] })] }
       rings := { rings := [(0, { enable := true, kind := 1 })] } },
      { plain := ⟨⟨rfl, rfl, rfl, rfl, rfl⟩, rfl, rfl, rfl, rfl⟩
        runs := rfl, running := by decide, thread := by decide, ready := rfl, loads := rfl, sound := rfl, bps := rfl
        code := .inl rfl, inside := by decide, word := by decide, turn := by decide, clean := ⟨rfl, rfl⟩ },
      rfl, rfl, rfl, _, rfl, by decide +kernel⟩
  obtain ⟨-, -, -, -, -, -, -, -, -, hfaults, -⟩ := hgeneral s 0 1 2 0 { state := .ready } hfetch (by decide)
  obtain ⟨⟨t', hrun', -, hagree⟩, -⟩ := hfaults (by decide) hchans hflows
  obtain rfl : t = t' := by injection hrun.symm.trans hrun'
  have hsame := hagree.rings
  rw [setCore_rings, setThr_rings, coreCount1_rings, given_rings, elapse_rings, hidle, hposted] at hsame
  exact absurd hsame (by decide)

end Sys2Proof.Machine

namespace Sys2Proof.Machine

/-! The Windlass line and its session (R462-R468): what an event leaves of the debug port and of threads at rest, what the whole of a command
keeps of an ended session, what a request draws by the checks of its line, and with them the statement on the session. -/

/-! What events leave of the debug port, and of threads that nothing blocks. -/

/-- The debug port without what an event writes there: the probe's queue, and the periods of DEBUG_EVENT. -/
def Dbg.untold (d : Dbg) : Dbg := { d with queue := [], lost := 0, evPeriod := [] }

/-- From `s` to `t` the debug port has changed no further than events change it, and no thread has become blocked. -/
structure Told (s t : State) : Prop where
  dbg : t.dbg.untold = s.dbg.untold
  free : ∀ c h, (s.thr c h).blocked = none → (t.thr c h).blocked = none

theorem Told.refl (s : State) : Told s s := ⟨rfl, fun _ _ h => h⟩

theorem Told.trans {s t u : State} (h : Told s t) (k : Told t u) : Told s u :=
  ⟨k.dbg.trans h.dbg, fun c x hx => k.free c x (h.free c x hx)⟩

theorem Told.of {s t : State} (hd : t.dbg.untold = s.dbg.untold) (hc : t.cores.cores = s.cores.cores) : Told s t :=
  ⟨hd, fun c x hx => by simpa only [State.thr, State.core, hc] using hx⟩

theorem Told.fold {α : Type} (f : State → α → State) (h : ∀ s x, Told s (f s x)) (l : List α) (s : State) : Told s (l.foldl f s) := by
  induction l generalizing s with
  | nil => exact Told.refl s
  | cons x r ih => exact (h s x).trans (ih (f s x))

theorem Told.ite {s t u : State} {p : Prop} [Decidable p] (ht : Told s t) (hu : Told s u) : Told s (if p then t else u) := by
  split <;> assumption

theorem told_setThr (s : State) (c t : Nat) (x : Thread) (h : (s.thr c t).blocked = none → x.blocked = none) : Told s (s.setThr c t x) := by
  refine ⟨rfl, fun c' t' hb => ?_⟩
  rw [thr_setThr]
  split
  · next e =>
    obtain ⟨rfl, rfl⟩ := e
    exact h hb
  · exact hb

theorem tryWfe_blocked_of_unblocked (x : Thread) (h : x.blocked = none) : x.tryWfe.blocked = none := by
  simp only [Thread.tryWfe, h]

theorem told_wake (s : State) (c t src : Nat) : Told s (s.wake c t src) := by
  unfold State.wake
  simp only
  exact Told.ite (told_setThr s c t _ fun h => tryWfe_blocked_of_unblocked _ h) (Told.refl s)

theorem told_ramWrite (s : State) (a : Nat) (b : Bytes) : Told s (s.ramWrite a b) := Told.of rfl rfl

theorem told_subRecord (s : State) (c t h : Nat) (mk : Nat → Bytes) : Told s (s.subRecord c t h mk) := by
  unfold State.subRecord
  simp only
  split
  · exact Told.refl s
  · refine Told.ite (told_setThr s c t _ id) (Told.trans ?_ (told_wake _ _ _ _))
    refine Told.trans ?_ (told_setThr _ c t _ id)
    exact told_ramWrite s _ _

theorem told_subEvent (s : State) (d op : Nat) (fs : List Nat) : Told s (s.subEvent d op fs) := by
  unfold State.subEvent
  exact Told.fold _ (fun s x => told_subRecord s _ _ _ _) _ s

theorem told_setRing (s : State) (k : Nat) (r : Ring) : Told s (s.setRing k r) := Told.of rfl rfl

theorem told_wakePosters (s : State) (k : Nat) : Told s (s.wakePosters k) := by
  unfold State.wakePosters
  simp only
  refine (told_setRing s k _).trans (Told.fold _ (fun s p => ?_) _ _)
  refine Told.trans ?_ (told_wake _ _ _ _)
  exact told_setThr s _ _ _ id

/-! Completions and events. -/

theorem told_setLink (s : State) (b : Bool) (l : Link) : Told s (s.setLink b l) := by
  unfold State.setLink
  exact Told.ite (Told.of rfl rfl) (Told.of rfl rfl)

theorem told_hostWr (s : State) (f : Nat) (e : Emission) : Told s (s.hostWr f e) := by
  have hbusy : Told s (s.linkBusy f) := Told.ite (told_setLink s _ _) (Told.refl s)
  have hfull : ∀ n, Told (s.linkBusy f) ((s.linkBusy f).linkFull f n) := fun n => Told.ite (told_setLink _ _ _) (Told.refl _)
  unfold State.hostWr
  refine Told.ite (Told.refl s) (Told.ite (Told.of rfl rfl) ?_)
  exact (hbusy.trans (hfull _)).trans (Told.of rfl rfl)

theorem told_sendVector (s : State) (f v : Nat) : Told s (s.sendVector f v) := by
  unfold State.sendVector
  exact Told.ite (Told.refl s) (Told.ite (Told.of rfl rfl) (told_hostWr s f _))

theorem told_signal (s : State) (k : Nat) : Told s (s.signal k) := by
  unfold State.signal
  refine Told.ite (told_sendVector s _ _) (Told.ite (told_setRing s k _) ?_)
  refine Told.trans ?_ (told_sendVector _ _ _)
  exact told_setRing s k _

theorem told_freeSlots (s : State) (x : Option (Nat × Nat)) : Told s (s.freeSlots x) := by
  cases x <;> exact Told.of rfl rfl

theorem told_writeComp (s : State) (k : Nat) (c : Comp) : Told s (s.writeComp k c) := by
  unfold State.writeComp
  simp only
  refine Told.trans ?_ (told_signal _ k)
  have hwritten : ∀ (t : State) (e e' : Emission) r, Told s t →
      Told s ((((t.hostWr (fnOfKey k) e).setRing k r).hostWr (fnOfKey k) e').freeSlots c.frees) := fun t e e' r h =>
    (((h.trans (told_hostWr _ _ _)).trans (told_setRing _ _ _)).trans (told_hostWr _ _ _)).trans (told_freeSlots _ _)
  have hpacket : ∀ e, Told s (if c.packet.isEmpty then s else s.hostWr (fnOfKey k) e) := fun e => Told.ite (Told.refl s) (told_hostWr s _ _)
  split
  · exact hwritten _ _ _ _ (hpacket _)
  · refine Told.trans ?_ (told_wakePosters _ _)
    refine Told.trans ?_ (told_hostWr _ _ _)
    refine Told.trans ?_ (told_setRing _ _ _)
    exact hwritten _ _ _ _ (hpacket _)

theorem told_ringCount (s : State) (f i : Nat) : Told s (s.ringCount f i) := Told.of rfl rfl

theorem told_postCore (s : State) (k : Nat) (c : Comp) : Told s (s.postCore k c).1 := by
  unfold State.postCore
  simp only
  split
  · exact Told.refl s
  · split
    · exact told_writeComp s k c
    · split
      · exact told_setRing s k _
      · refine Told.ite (told_setRing s k _) (Told.trans ?_ (told_ringCount _ _ _))
        exact told_setRing s k _

theorem told_eventRing (s : State) (x : Session) (fn rid op dom : Nat) (fs : List Nat) : Told s (s.eventRing x fn rid op dom fs).1 := by
  have hsession : ∀ f, Told s (s.onSession x.path f) := fun f => Told.of rfl rfl
  unfold State.eventRing
  simp only
  split
  · split <;> exact hsession _
  · exact (hsession _).trans (told_postCore _ _ _)

theorem told_eventDom (s : State) (d op dom : Nat) (fs : List Nat) : Told s (s.eventDom d op dom fs).1 := by
  unfold State.eventDom
  simp only
  split
  · split
    · exact (Told.ite (Told.refl s) (told_subEvent s d op fs)).trans (told_eventRing _ _ _ _ _ _ _)
    · exact Told.refl s
  · exact Told.trans (t := { s with tosen.evLost := tupd s.tosen.evLost d 0 inc48 }) (Told.of rfl rfl) (told_subEvent _ d op fs)

theorem told_macBy (s : State) (p i k : Nat) : Told s (s.macBy p i k) := by
  unfold State.macBy
  exact Told.ite (Told.of rfl rfl) (Told.of rfl rfl)

theorem told_macGood (s : State) (p base bins : Nat) (b : Bytes) : Told s (s.macGood p base bins b) := by
  have hfour : ∀ i j k n, Told s ((((s.mac p i).macBy p j n).mac p k).mac p (bins + sizeBin b.length)) := fun i j k n =>
    (((told_macBy s p i 1).trans (told_macBy _ p j n)).trans (told_macBy _ p k 1)).trans (told_macBy _ p _ 1)
  unfold State.macGood
  exact Told.ite ((hfour _ _ _ _).trans (told_macBy _ p _ 1)) (hfour _ _ _ _)

theorem told_macSent (s : State) (p : Nat) (b : Bytes) : Told s (s.macSent p b) := by
  have hcounted : ∀ i, Told s ((s.macGood p 32 48 b).mac p i) := fun i => (told_macGood s p 32 48 b).trans (told_macBy _ p i 1)
  unfold State.macSent
  refine Told.ite (hcounted _) (Told.ite ((hcounted 39).trans ?_) (told_macGood s p 32 48 b))
  exact Told.fold _ (fun s i => Told.ite (told_macBy s p _ 1) (Told.refl s)) _ _

theorem told_mpSend (s : State) (mac : Nat) (p : Bytes) : Told s (s.mpSend mac p) := by
  unfold State.mpSend
  refine Told.fold _ (fun s b => ?_) _ s
  unfold State.mpTx
  exact Told.ite (Told.of rfl rfl) ((told_macSent s 24 _).trans (Told.of rfl rfl))

theorem told_windlassQueue (s : State) (p : Bytes) : Told s (s.windlassQueue p) := by
  unfold State.windlassQueue
  exact Told.ite (Told.of rfl rfl) (Told.of rfl rfl)

theorem told_eventSide (s : State) (all : Bool) (op dom : Nat) (fs : List Nat) : Told s (s.eventSide all op dom fs) := by
  unfold State.eventSide
  refine Told.fold _ (fun s x => ?_) _ s
  simp only
  split
  · exact Told.ite (told_mpSend _ _ _) (Told.refl _)
  · exact Told.ite (told_windlassQueue _ _) (Told.refl _)
  · exact Told.refl _

theorem told_event0 (s : State) (ds : List Nat) (op dom : Nat) (fs : List Nat) : Told s (s.event0 ds op dom fs).1 := by
  have hdoms : ∀ (l : List Nat) (a : State × List (Nat × Nat)), Told a.1 (l.foldl (fun (a : State × List (Nat × Nat)) d =>
      let x := a.1.eventDom d op dom fs
      (x.1, a.2 ++ x.2)) a).1 := by
    intro l
    induction l with
    | nil => exact fun a => Told.refl a.1
    | cons d r ih => exact fun a => (told_eventDom a.1 d op dom fs).trans (ih ((a.1.eventDom d op dom fs).1, a.2 ++ (a.1.eventDom d op dom fs).2))
  unfold State.event0
  exact Told.ite ((hdoms _ (s, [])).trans (told_eventSide _ _ _ _ _)) (hdoms _ (s, []))

theorem told_event1 (s : State) (ds : List Nat) (op dom : Nat) (fs : List Nat) : Told s (s.event1 ds op dom fs) :=
  (told_event0 s ds op dom fs).trans (Told.fold _ (fun s _ => told_event0 s _ _ _ _) _ _)

/-- An event changes nothing of the debug port but what its own packets write there, and blocks no thread. -/
theorem told_event (s : State) (ds : List Nat) (op dom : Nat) (fs : List Nat) : Told s (s.event ds op dom fs) :=
  (told_event0 s ds op dom fs).trans (Told.fold _ (fun s _ => told_event1 s _ _ _ _) _ _)

theorem told_debugEvent (s : State) (c t cause : Nat) : Told s (s.debugEvent c t cause) := by
  unfold State.debugEvent State.debugEventFor
  refine Told.ite (Told.of rfl rfl) (Told.trans ?_ (told_event _ _ _ _ _))
  exact Told.of rfl rfl

theorem told_debugAll (s : State) (cause : Nat) : Told s (s.debugAll cause) := by
  unfold State.debugAll
  exact Told.ite (Told.refl s) (Told.fold _ (fun s _ => told_event s _ _ _ _) _ _)

theorem events_debugAll (s : State) (cause : Nat) : Events s (s.debugAll cause) := by
  unfold State.debugAll
  exact Events.ite (Events.refl s) (Events.fold _ (fun s _ => events_event s _ _ _ _) _ _)

theorem told_flushHalf (s : State) : Told s s.flushHalf := by
  unfold State.flushHalf
  exact Told.trans (t := { s with ports.halfDue := [] }) (Told.of rfl rfl) (Told.fold _ (fun s _ => told_event s _ _ _ _) _ _)

/-! What the end of a command keeps of the debug port and of Tosen sessions. -/

/-- From `s` to `t` the debug port and the Tosen sessions have changed no further than reports and replies change them. -/
structure SessionsKept (s t : State) : Prop where
  dbg : t.dbg.still = s.dbg.still
  sessions : t.tosen.sessions.map Session.quiet = s.tosen.sessions.map Session.quiet

theorem SessionsKept.refl (s : State) : SessionsKept s s := ⟨rfl, rfl⟩

theorem SessionsKept.trans {s t u : State} (h : SessionsKept s t) (k : SessionsKept t u) : SessionsKept s u :=
  ⟨k.dbg.trans h.dbg, k.sessions.trans h.sessions⟩

theorem SessionsKept.of {s t : State} (hd : t.dbg = s.dbg) (hs : t.tosen = s.tosen) : SessionsKept s t := ⟨by rw [hd], by rw [hs]⟩

theorem SessionsKept.fold {α : Type} (f : State → α → State) (h : ∀ s x, SessionsKept s (f s x)) (l : List α) (s : State) :
    SessionsKept s (l.foldl f s) := by
  induction l generalizing s with
  | nil => exact SessionsKept.refl s
  | cons x r ih => exact (h s x).trans (ih (f s x))

theorem SessionsKept.ite {s t u : State} {p : Prop} [Decidable p] (ht : SessionsKept s t) (hu : SessionsKept s u) :
    SessionsKept s (if p then t else u) := by
  split <;> assumption

theorem Events.sessionsKept {s t : State} (h : Events s t) : SessionsKept s t :=
  ⟨congrArg State.dbg h.quiet, congrArg (fun v => v.tosen.sessions) h.quiet⟩

theorem sessionsKept_ledgerEvent (s : State) (d cause : Nat) : SessionsKept s (s.ledgerEvent d cause) :=
  (events_event s _ _ _ _).sessionsKept

theorem sessionsKept_setChain (s : State) (d : Nat) (c : Chain) : SessionsKept s (s.setChain d c) := SessionsKept.of rfl rfl

theorem sessionsKept_retention (s : State) (d : Nat) : SessionsKept s (s.retention d) := by
  have hrecord : ∀ (c : Chain) a cause, SessionsKept s (((s.setChain d c).special1 d 0x12 false false a).ledgerEvent d cause) :=
    fun c _ _ => ((sessionsKept_setChain s d c).trans (sessionsKept_setChain _ d _)).trans (sessionsKept_ledgerEvent _ _ _)
  have hsums : ∀ (t : State) c c' cause (p q : Prop) [Decidable p] [Decidable q], SessionsKept s t →
      SessionsKept s (if p then (t.setChain d c).ledgerEvent d cause else if q then t.setChain d c' else t) := fun t c c' cause p q _ _ h =>
    SessionsKept.ite (h.trans ((sessionsKept_setChain t d c).trans (sessionsKept_ledgerEvent _ _ _)))
      (SessionsKept.ite (h.trans (sessionsKept_setChain t d c')) h)
  unfold State.retention
  exact hsums _ _ _ _ _ _ (SessionsKept.ite (hrecord _ _ _) (SessionsKept.ite (hrecord _ _ _) (SessionsKept.refl s)))

theorem sessionsKept_ledFlush (s : State) : SessionsKept s s.ledFlush := by
  unfold State.ledFlush
  refine SessionsKept.fold _ (fun s x => SessionsKept.trans ?_ (sessionsKept_retention _ _)) _ s
  exact sessionsKept_setChain _ _ _

theorem sessionsKept_startTx (s : State) (p : Nat) (t : TxFrame) : SessionsKept s (s.startTx p t) := by
  have hbegin : ∀ v : State, SessionsKept v (v.beginTx p) := fun v => by
    unfold State.beginTx
    simp only
    split <;> exact SessionsKept.of rfl rfl
  unfold State.startTx
  refine SessionsKept.ite (SessionsKept.trans ?_ (hbegin _)) (SessionsKept.of rfl rfl)
  exact SessionsKept.of rfl rfl

theorem sessionsKept_pfcFlush (s : State) : SessionsKept s s.pfcFlush := by
  have hsend : ∀ (v : State) p m, SessionsKept v (v.pfcSend p m) := fun v p m => by
    unfold State.pfcSend
    simp only
    split
    · exact SessionsKept.refl v
    · split
      · exact SessionsKept.of rfl rfl
      · exact sessionsKept_startTx v p _
  unfold State.pfcFlush
  exact SessionsKept.trans (t := { s with ports.pfcDue := [] }) (SessionsKept.of rfl rfl) (SessionsKept.fold _ (fun v x => hsend v _ _) _ _)

/-! What the end of a command acts on. -/

/-- What the end of a command acts on or writes back, but for the counters past half their range: where two states have this in common, they
end a command alike. -/
def State.residue (s : State) : List Instr × Nat × Nat × Power × Fuse × Ledger × Table (Nat × List Nat) × Tb × Table (Nat × Nat) × Option (Nat × Nat) :=
  (s.pending, s.elapsed, s.now, s.pw, s.fuse, s.led, s.ports.pfcDue, { s.tb with quals := [] }, s.dbg.steps, s.dbg.stepWait)

@[simp] theorem emit_residue (s : State) (e : Emission) : (s.emit e).residue = s.residue := rfl
@[simp] theorem used_residue (s : State) : s.used.residue = s.residue := rfl
@[simp] theorem dbgCount_residue (s : State) (i : Nat) : (s.dbgCount i).residue = s.residue := rfl
@[simp] theorem probed_residue (s : State) : s.probed.residue = s.residue := rfl
@[simp] theorem wlRespond_residue (s : State) (type seq cls : Nat) (fs : List Nat) : (s.wlRespond type seq cls fs).residue = s.residue := by
  unfold State.wlRespond
  split <;> rfl

theorem residue_of_told {s t : State} (h : Events s t) (k : Told s t) : t.residue = s.residue := by
  have hsteps : t.dbg.steps = s.dbg.steps := by have := congrArg Dbg.steps k.dbg; exact this
  have hwait : t.dbg.stepWait = s.dbg.stepWait := by have := congrArg Dbg.stepWait k.dbg; exact this
  simp only [State.residue, h.pending, h.elapsed, h.now, h.pw, h.fuse, h.led, h.agree.pfcDue, h.tb, hsteps, hwait]

@[simp] theorem debugAll_residue (s : State) (cause : Nat) : (s.debugAll cause).residue = s.residue :=
  residue_of_told (events_debugAll s cause) (told_debugAll s cause)

theorem keepAll_of_residue {u v : State} (h : v.residue = u.residue) : State.keepAll u v = v := by
  simp only [State.residue, Prod.mk.injEq] at h
  obtain ⟨hpending, helapsed, hnow, hpw, hfuse, hled, -⟩ := h
  simp only [State.keepAll, ← hpending, ← helapsed, ← hnow, ← hpw, ← hfuse, ← hled]

theorem quality_of_residue {u v : State} (h : v.residue = u.residue) : v.quality = u.quality := by
  have hq : ∀ x : State, x.quality = State.quality { u with tb := { x.tb with quals := [] } } := fun _ => rfl
  have htb : { v.tb with quals := [] } = { u.tb with quals := [] } := congrArg (fun r => r.2.2.2.2.2.2.2.1) h
  rw [hq v, hq u, htb]

/-- Of a state with the residue of a plain one, the Ledger and flow control have nothing to send at the end of the command. -/
theorem flush_of_residue {u v : State} (hu : u.Plain) (h : v.residue = u.residue) : v.ledFlush.pfcFlush = v := by
  have hled : v.led = u.led := congrArg (fun r => r.2.2.2.2.2.1) h
  have hflow : v.ports.pfcDue = u.ports.pfcDue := congrArg (fun r => r.2.2.2.2.2.2.1) h
  rw [ledFlush_none v (by rw [hled]; exact hu.settled.freed), pfcFlush_none v (by rw [hflow]; exact hu.settled.flow)]

theorem stepFlush_of_residue {u v : State} (hu : u.Plain) (h : v.residue = u.residue) : v.stepFlush = v := by
  simp only [State.residue, Prod.mk.injEq] at h
  obtain ⟨-, -, -, -, -, -, -, -, hsteps, hwait⟩ := h
  exact stepFlush_none v (hsteps.trans hu.steps) (hwait.trans hu.wait)

theorem flushHalf_residue (s : State) : s.flushHalf.residue = s.residue := residue_of_told (events_flushHalf s) (told_flushHalf s)

/-- A command from a plain state ends as it acts, when what it leaves asks nothing of its end. -/
theorem run_exact {s : State} {dt : Nat} {f : State → State} (hu : (s.elapse dt).Plain) (hr : (f (s.elapse dt)).residue = (s.elapse dt).residue)
    (hh : (f (s.elapse dt)).ports.halfDue = []) : s.run dt f = .next (f (s.elapse dt)) := by
  simp only [State.run, State.runWith, hu.settled.alive, settled_flush hu.settled, Bool.false_eq_true, if_false]
  rw [flush_of_residue hu hr, flushHalf_none _ hh, stepFlush_of_residue hu hr, ← quality_of_residue hr, noteQuality_same,
    keepAll_of_residue hr]

/-- A command from a plain state ends with sessions and debug port as it acts leaves them, but for its reports; and what is halted stays so when
what it leaves asks nothing else of its end. -/
theorem run_reports {s : State} {dt : Nat} (f : State → State) (hu : (s.elapse dt).Plain) :
    ∃ t, s.run dt f = .next t ∧ SessionsKept (f (s.elapse dt)) t ∧
      ((f (s.elapse dt)).residue = (s.elapse dt).residue → t.dbg.halted = (f (s.elapse dt)).dbg.halted) := by
  refine ⟨_, rfl, ?_⟩
  rw [hu.settled.alive, settled_flush hu.settled]
  simp only [Bool.false_eq_true, if_false]
  generalize f (s.elapse dt) = v
  constructor
  · have hend := (events_finish v.ledFlush.pfcFlush (s.elapse dt).quality).sessionsKept
    exact ((sessionsKept_ledFlush v).trans (sessionsKept_pfcFlush _)).trans ⟨hend.dbg, hend.sessions⟩
  · intro hr
    have hstep := stepFlush_of_residue hu ((flushHalf_residue v).trans hr)
    have hdbg : (v.flushHalf.noteQuality (s.elapse dt).quality).dbg = v.flushHalf.dbg := by
      unfold State.noteQuality
      split <;> rfl
    rw [flush_of_residue hu hr, hstep]
    have hhalted : v.flushHalf.dbg.halted = v.dbg.halted := by have := congrArg Dbg.halted (told_flushHalf v).dbg; exact this
    exact (congrArg Dbg.halted hdbg).trans hhalted

/-- What a command from a plain state completes with, when what it leaves asks nothing of its end. -/
theorem completes_of_run {i : Instr} {s : State} {dt : Nat} {f : State → State} {P : State → Prop} (hi : exec i s = s.run dt f)
    (hu : (s.elapse dt).Plain) (hr : (f (s.elapse dt)).residue = (s.elapse dt).residue) (hh : (f (s.elapse dt)).ports.halfDue = [])
    (hP : P (f (s.elapse dt))) : Completes i s P :=
  ⟨_, hi.trans (run_exact hu hr hh), hP⟩

/-! A request by the checks of its line (R463-R466). -/

/-- A request with a valid header that is new (R465): the line is listened to, no step awaits its response, and `seq` is not that of the
response kept. -/
structure State.Hears (u : State) (seq : Nat) : Prop where
  listens : u.dbg.deaf = false
  wait : u.dbg.stepWait = none
  fresh : ∀ r, u.dbg.last = some r → r.seq ≠ seq

/-- What a request answers, sent unless it comes later. -/
def WlAns.sent (a : WlAns) (type seq : Nat) : State := if a.1 = wlLater then a.2.2 else a.2.2.wlRespond type seq a.1 a.2.1

section
variable {u : State} {type seq : Nat} {c inRec lenOk : Bool} {f : List Nat} {body : State → WlAns}

theorem wlRun_deaf (h : u.dbg.deaf = true) : u.wlRun type seq c f inRec lenOk body = u := by simp only [State.wlRun, h, if_true]

/-- A request that repeats the sequence of the response kept draws that response again (R465). -/
theorem wlRun_repeated (hd : u.dbg.deaf = false) (hw : u.dbg.stepWait = none) {k : WlResp} (hl : u.dbg.last = some k) (hk : k.seq = seq) :
    u.wlRun type seq c f inRec lenOk body = u.probed.emit (.windlass (k.type + 0x80) seq k.cls k.fields) := by
  subst hk
  simp [State.wlRun, hd, hw, hl, State.probed, State.dbgCount]

/-- A new request goes through the checks of its line, in order. -/
theorem wlRun_new (h : u.Hears seq) : u.wlRun type seq c f inRec lenOk body =
    if !c && !f.isEmpty then (u.probed.dbgCount 2).wlMalformed.sent type seq
    else if type ≠ 1 && !u.dbg.connected then WlAns.sent (3, [2], u.probed) type seq
    else if !u.firmware && !inRec then WlAns.sent (2, [4], u.probed) type seq
    else if !lenOk then u.probed.wlMalformed.sent type seq
    else (body u.probed).sent type seq := by
  unfold State.wlRun
  cases hl : u.dbg.last with
  | none => simp [h.listens, h.wait, hl, State.dbgCount, State.probed, WlAns.sent, State.firmware]
  | some r => simp [h.listens, h.wait, hl, h.fresh r hl, State.dbgCount, State.probed, WlAns.sent, State.firmware]

/-- An answer that does not come later is sent at once. -/
theorem sent_now (cls : Nat) (fs : List Nat) (t : State) (h : cls < 256) : WlAns.sent (cls, fs, t) type seq = t.wlRespond type seq cls fs :=
  if_neg (by simp only [wlLater]; omega)

/-- A malformed request is refused with class 0x03 and a reason of R464, a free value. -/
theorem malformed_sent (t : State) :
    ∃ why, 1 ≤ why ∧ why ≤ 6 ∧ t.wlMalformed.sent type seq = t.used.wlRespond type seq 3 [why] :=
  ⟨1 + t.freeBits 16 % 6, by omega, by omega, sent_now _ _ _ (by decide)⟩

/-- A payload whose CRC fails is refused as malformed, and counted (R464). -/
theorem wlRun_badCrc (h : u.Hears seq) (hf : f ≠ []) :
    u.wlRun type seq false f inRec lenOk body = (u.probed.dbgCount 2).wlMalformed.sent type seq :=
  (wlRun_new h).trans (if_pos (by simpa using hf))

/-- Without a session only CONNECT is served (R466). -/
theorem wlRun_unconnected (h : u.Hears seq) (ht : type ≠ 1) (hc : u.dbg.connected = false) :
    u.wlRun type seq true f inRec lenOk body = u.probed.wlRespond type seq 3 [2] := by
  rw [wlRun_new h, if_neg (by simp), if_pos (by simp [ht, hc]), sent_now _ _ _ (by decide)]

/-- With a session, or by CONNECT, a request of a good payload comes to the checks of the mode and of its form. -/
theorem wlRun_admitted (h : u.Hears seq) (hc : type = 1 ∨ u.dbg.connected = true) : u.wlRun type seq true f inRec lenOk body =
    if !u.firmware && !inRec then WlAns.sent (2, [4], u.probed) type seq
    else if !lenOk then u.probed.wlMalformed.sent type seq
    else (body u.probed).sent type seq := by
  rw [wlRun_new h, if_neg (by simp), if_neg]
  rcases hc with hc | hc <;> simp only [hc] <;> simp

/-- Where no firmware runs, a request that Recovery does not serve is refused (R467). -/
theorem wlRun_unserved (h : u.Hears seq) (hc : type = 1 ∨ u.dbg.connected = true) (hf : u.firmware = false) :
    u.wlRun type seq true f false lenOk body = u.probed.wlRespond type seq 2 [4] := by
  rw [wlRun_admitted h hc, if_pos (by simp [hf]), sent_now _ _ _ (by decide)]

/-- A request is served where firmware runs, and where Recovery serves it. -/
theorem not_unserved {runs inRec : Bool} (h : runs = true ∨ inRec = true) : ¬ (!runs && !inRec) = true := by
  rw [Bool.and_eq_true, Bool.not_eq_true', Bool.not_eq_true']
  rintro ⟨hruns, hrec⟩
  rcases h with h | h
  · cases hruns.symm.trans h
  · cases hrec.symm.trans h

/-- A request of a wrong form is refused (R464). -/
theorem wlRun_malformed (h : u.Hears seq) (hc : type = 1 ∨ u.dbg.connected = true) (hf : u.firmware = true ∨ inRec = true) :
    u.wlRun type seq true f inRec false body = u.probed.wlMalformed.sent type seq := by
  rw [wlRun_admitted h hc, if_neg (not_unserved hf), if_pos (by decide)]

/-- A request of a right form that its mode serves is answered by its own part. -/
theorem wlRun_served (h : u.Hears seq) (hc : type = 1 ∨ u.dbg.connected = true) (hf : u.firmware = true ∨ inRec = true) :
    u.wlRun type seq true f inRec true body = (body u.probed).sent type seq := by
  rw [wlRun_admitted h hc, if_neg (not_unserved hf), if_neg (by decide)]

end

@[simp] theorem dbgCount_ports (s : State) (i : Nat) : (s.dbgCount i).ports = s.ports := rfl
@[simp] theorem used_ports (s : State) : s.used.ports = s.ports := rfl
@[simp] theorem probed_ports (s : State) : s.probed.ports = s.ports := rfl
@[simp] theorem wlRespond_ports (s : State) (type seq cls : Nat) (fs : List Nat) : (s.wlRespond type seq cls fs).ports = s.ports := by
  unfold State.wlRespond
  split <;> rfl

/-- The command is a request of `type` on the line: `g` its fields, `inRec` whether Recovery serves it, `lenOk` whether its form is right. -/
def LineRequest (i : Instr) (dt type seq : Nat) (c : Bool) (g : List Nat) (inRec lenOk : Bool) : Prop :=
  ∃ body, ∀ s, exec i s = s.run dt fun u => u.wlRun type seq c g inRec lenOk body

/-- A command from a plain state that sends a response, and asks nothing else of its end. -/
theorem completes_response {i : Instr} {s : State} {dt type seq cls : Nat} {fs : List Nat} {f : State → State} {w : State}
    (hi : exec i s = s.run dt f) (hu : (s.elapse dt).Plain) (hf : f (s.elapse dt) = w.wlRespond type seq cls fs)
    (hr : w.residue = (s.elapse dt).residue) (hp : w.ports = (s.elapse dt).ports) :
    Completes i s fun t => t = w.wlRespond type seq cls fs :=
  completes_of_run hi hu (by rw [hf, wlRespond_residue, hr]) (by rw [hf, wlRespond_ports, hp, hu.half]) hf

section
variable {i : Instr} {s : State} {dt type seq : Nat} {c inRec lenOk : Bool} {g : List Nat}

theorem LineRequest.deaf (hi : LineRequest i dt type seq c g inRec lenOk) (hu : (s.elapse dt).Plain) (hd : (s.elapse dt).dbg.deaf = true) :
    Completes i s fun t => t = s.elapse dt := by
  obtain ⟨body, hi⟩ := hi
  have hrun : (s.elapse dt).wlRun type seq c g inRec lenOk body = s.elapse dt := wlRun_deaf hd
  exact completes_of_run (hi s) hu (congrArg State.residue hrun) (hrun.symm ▸ hu.half) hrun

theorem LineRequest.repeated (hi : LineRequest i dt type seq c g inRec lenOk) (hu : (s.elapse dt).Plain)
    (hd : (s.elapse dt).dbg.deaf = false) {k : WlResp} (hl : (s.elapse dt).dbg.last = some k) (hk : k.seq = seq) :
    Completes i s fun t => t = (s.elapse dt).probed.emit (.windlass (k.type + 0x80) seq k.cls k.fields) := by
  obtain ⟨body, hi⟩ := hi
  have hrun := wlRun_repeated (type := type) (c := c) (inRec := inRec) (lenOk := lenOk) (f := g) (body := body) hd hu.wait hl hk
  exact completes_of_run (hi s) hu (by rw [hrun, emit_residue, probed_residue]) (by rw [hrun, emit_ports, probed_ports, hu.half]) hrun

theorem LineRequest.badCrc (hi : LineRequest i dt type seq false g inRec lenOk) (hu : (s.elapse dt).Plain) (h : (s.elapse dt).Hears seq)
    (hg : g ≠ []) : Completes i s fun t => ∃ why, 1 ≤ why ∧ why ≤ 6 ∧ t = ((s.elapse dt).probed.dbgCount 2).used.wlRespond type seq 3 [why] := by
  obtain ⟨body, hi⟩ := hi
  obtain ⟨why, hlow, hhigh, hsent⟩ := malformed_sent (type := type) (seq := seq) ((s.elapse dt).probed.dbgCount 2)
  obtain ⟨t, ht, he⟩ := completes_response (hi s) hu ((wlRun_badCrc h hg).trans hsent) (by simp) (by simp)
  exact ⟨t, ht, why, hlow, hhigh, he⟩

theorem LineRequest.unconnected (hi : LineRequest i dt type seq true g inRec lenOk) (hu : (s.elapse dt).Plain) (h : (s.elapse dt).Hears seq)
    (ht : type ≠ 1) (hc : (s.elapse dt).dbg.connected = false) :
    Completes i s fun t => t = (s.elapse dt).probed.wlRespond type seq 3 [2] := by
  obtain ⟨body, hi⟩ := hi
  exact completes_response (hi s) hu (wlRun_unconnected h ht hc) (probed_residue _) (probed_ports _)

theorem LineRequest.unserved (hi : LineRequest i dt type seq true g false lenOk) (hu : (s.elapse dt).Plain) (h : (s.elapse dt).Hears seq)
    (hc : (s.elapse dt).dbg.connected = true) (hf : (s.elapse dt).firmware = false) :
    Completes i s fun t => t = (s.elapse dt).probed.wlRespond type seq 2 [4] := by
  obtain ⟨body, hi⟩ := hi
  exact completes_response (hi s) hu (wlRun_unserved h (.inr hc) hf) (probed_residue _) (probed_ports _)

theorem LineRequest.malformed (hi : LineRequest i dt type seq true g inRec false) (hu : (s.elapse dt).Plain) (h : (s.elapse dt).Hears seq)
    (hc : type = 1 ∨ (s.elapse dt).dbg.connected = true) (hf : (s.elapse dt).firmware = true ∨ inRec = true) :
    Completes i s fun t => ∃ why, 1 ≤ why ∧ why ≤ 6 ∧ t = (s.elapse dt).probed.used.wlRespond type seq 3 [why] := by
  obtain ⟨body, hi⟩ := hi
  obtain ⟨why, hlow, hhigh, hsent⟩ := malformed_sent (type := type) (seq := seq) (s.elapse dt).probed
  obtain ⟨t, ht, he⟩ := completes_response (hi s) hu ((wlRun_malformed h hc hf).trans hsent) (by simp) (by simp)
  exact ⟨t, ht, why, hlow, hhigh, he⟩

end

/-! The requests of R467. -/

theorem connect_request (dt seq : Nat) (c : Bool) (f : List Nat) :
    LineRequest (.connect dt seq c f) dt 0x01 seq c f true (f.length == 3) := ⟨_, fun _ => rfl⟩

/-- Every request but CONNECT, with its type: the list of the statement. (Lean compiles no constructor of so large a type, hence noncomputable.) -/
noncomputable def windlassRows (dt seq : Nat) (c : Bool) (f : List Nat) (b : Bytes) : List (Nat × Instr) :=
  [(0x02, .disconnect dt seq c f), (0x03, .wlStatus dt seq c f), (0x04, .csrRead dt seq c f), (0x10, .wlHalt dt seq c f),
    (0x11, .wlResume dt seq c f), (0x12, .wlStep dt seq c f), (0x13, .bpSet dt seq c f), (0x14, .bpClear dt seq c f), (0x15, .regRead dt seq c f),
    (0x16, .regWrite dt seq c f), (0x17, .wlMemRead dt seq c f), (0x18, .wlMemWrite dt seq c f), (0x19, .wlChanAbandon dt seq c f),
    (0x20, .wlTosen dt seq c b), (0x21, .poll dt seq c f)]

/-- What the checks of the line see of a request other than CONNECT: its fields `g` come of the operands, Recovery serves of them DISCONNECT,
CSR_READ and the STATUS of the device, and seven fields with a length of 0, or eight bytes, are no request's form. -/
structure RowForm (type : Nat) (f : List Nat) (b : Bytes) (g : List Nat) (inRec lenOk : Bool) : Prop where
  other : type ≠ 1
  fields : f ≠ [] → b ≠ [] → g ≠ []
  inRec : inRec = true → type = 2 ∨ type = 4 ∨ nth f 0 = 0xFF
  form : f.length = 7 → nth f 3 = 0 → b.length = 8 → lenOk = false

theorem fieldsOf_ne_nil {b : Bytes} (h : b ≠ []) : fieldsOf b ≠ [] := by
  have hlen : 0 < b.length := List.length_pos_iff.mpr h
  have hceil : ceilDiv b.length 8 ≠ 0 := by unfold ceilDiv; omega
  simpa [fieldsOf] using hceil

theorem windlassRows_request {dt seq : Nat} {c : Bool} {f : List Nat} {b : Bytes} {r : Nat × Instr} (hr : r ∈ windlassRows dt seq c f b) :
    ∃ g inRec lenOk, LineRequest r.2 dt r.1 seq c g inRec lenOk ∧ RowForm r.1 f b g inRec lenOk := by
  have hempty : f.length = 7 → f.isEmpty = false := fun h => by cases f with
    | nil => cases h
    | cons x l => rfl
  simp only [windlassRows, List.mem_cons, List.not_mem_nil, or_false] at hr
  obtain rfl | rfl | rfl | rfl | rfl | rfl | rfl | rfl | rfl | rfl | rfl | rfl | rfl | rfl | rfl := hr
  case inr.inr.inr.inr.inr.inr.inr.inr.inr.inr.inr.inr.inr.inl =>
    exact ⟨_, _, _, ⟨_, fun _ => rfl⟩, by simp, fun _ h => fieldsOf_ne_nil h, by simp, fun _ _ h => by simp [h]⟩
  all_goals exact ⟨_, _, _, ⟨_, fun _ => rfl⟩, by simp, fun h _ => h, by simp, fun h h' _ => by simp [hempty h, memForm, h, h']⟩

/-! The end of a session (R466). -/

/-- The session of the port has ended, and with it its breakpoints and its Tosen session. -/
structure State.SessionOver (t : State) : Prop where
  connected : t.dbg.connected = false
  agreed : t.dbg.agreed = 0
  bps : t.dbg.bps = []
  session : t.session? .windlass = none

theorem State.SessionOver.kept {s t : State} (h : s.SessionOver) (k : SessionsKept s t) : t.SessionOver := by
  refine ⟨?_, ?_, ?_, ?_⟩
  · have := congrArg Dbg.connected k.dbg
    exact this.trans h.connected
  · have := congrArg Dbg.agreed k.dbg
    exact this.trans h.agreed
  · have := congrArg Dbg.bps k.dbg
    exact this.trans h.bps
  · refine Option.eq_none_iff_forall_ne_some.mpr fun x hx => ?_
    obtain ⟨y, hy, -⟩ := find_quiet .windlass t.tosen.sessions s.tosen.sessions k.sessions.symm x hx
    exact absurd (h.session.symm.trans hy) (by simp)

/-- The session closed once its threads go on: its Tosen session, its breakpoints and its queue are gone, and the end is reported
(R466, R477). -/
def State.sessionClosed (w : State) : State :=
  { w with
    tosen.sessions := w.tosen.sessions.filter (fun x => !(x.path == Path.windlass))
    tosen.opens := w.tosen.opens.filter (fun x => x.1 != Path.windlass)
    dbg := { w.dbg with connected := false, agreed := 0, bps := [], queue := [], lost := 0 } }.debugAll 2

/-- Steps are forgotten. -/
def State.unstepped (w : State) : State := { w with dbg.steps := [], dbg.stepWait := none }

theorem unstepped_self {w : State} (hs : w.dbg.steps = []) (hw : w.dbg.stepWait = none) : w.unstepped = w := by
  unfold State.unstepped
  rw [← hs, ← hw]

theorem sessionClosed_over (w : State) : w.sessionClosed.SessionOver := by
  refine State.SessionOver.kept ?_ (events_debugAll _ 2).sessionsKept
  exact ⟨rfl, rfl, rfl, by simp [State.session?]⟩

theorem sessionClosed_residue (w : State) : w.sessionClosed.residue = w.residue := debugAll_residue _ 2

theorem sessionClosed_halted (w : State) : w.sessionClosed.dbg.halted = w.dbg.halted := by
  have := congrArg Dbg.halted (told_debugAll { w with
    tosen.sessions := w.tosen.sessions.filter (fun x => !(x.path == Path.windlass))
    tosen.opens := w.tosen.opens.filter (fun x => x.1 != Path.windlass)
    dbg := { w.dbg with connected := false, agreed := 0, bps := [], queue := [], lost := 0 } } 2).dbg
  exact this

section
variable {w : State}

theorem wlEnd_unconnected (hc : w.dbg.connected = false) : w.wlEnd = w := by simp [State.wlEnd, hc]

/-- An open session ends by the threads it has halted going on, and its close. -/
theorem wlEnd_connected (hc : w.dbg.connected = true) : w.wlEnd = (w.unstepped.wlResumeAll (fun _ => true)).sessionClosed := by
  rw [State.wlEnd, if_neg (by simp [hc])]
  rfl

theorem wlEnd_over (hc : w.dbg.connected = true) : w.wlEnd.SessionOver := by
  rw [wlEnd_connected hc]
  exact sessionClosed_over _

/-- A session that halted nothing and steps nothing just closes. -/
theorem wlEnd_unhalted (hc : w.dbg.connected = true) (hh : w.dbg.halted = []) (hs : w.dbg.steps = []) (hw : w.dbg.stepWait = none) :
    w.wlEnd = w.sessionClosed := by
  rw [wlEnd_connected hc, unstepped_self hs hw, State.wlResumeAll, hh, List.foldl_nil]

/-- A halted thread that nothing blocks resumes with no more to do than its report. -/
theorem wlResume_unblocked {c t : Nat} (hst : (w.thr c t).state = .halted) (hb : (w.thr c t).blocked = none) :
    w.wlResume c t = (w.wlGo c t).debugEvent c t 4 := by
  have hgo : ((w.wlGo c t).thr c t).blocked = none := by
    rw [State.wlGo, if_neg (by simp [hst])]
    refine (congrArg Thread.blocked (thr_setThr w c t c t _)).trans ?_
    rw [if_pos ⟨rfl, rfl⟩]
    exact hb
  have hfree : (((w.wlGo c t).debugEvent c t 4).thr c t).blocked = none := (told_debugEvent _ c t 4).free c t hgo
  rw [State.wlResume, if_neg (by simp [hst])]
  simp only [State.wlRetry, hfree, ite_self]

theorem wlGo_residue {c t : Nat} (hst : (w.thr c t).state = .halted) : (w.wlGo c t).residue = w.residue := by
  rw [State.wlGo, if_neg (by simp [hst])]
  rfl

theorem wlGo_halted {c t : Nat} (hst : (w.thr c t).state = .halted) : (w.wlGo c t).dbg.halted = tdel w.dbg.halted (tkey c t) := by
  rw [State.wlGo, if_neg (by simp [hst])]
  rfl

theorem debugEvent_residue (w : State) (c t cause : Nat) : (w.debugEvent c t cause).residue = w.residue :=
  residue_of_told (events_debugEvent w c t cause) (told_debugEvent w c t cause)

theorem debugEvent_halted (w : State) (c t cause : Nat) : (w.debugEvent c t cause).dbg.halted = w.dbg.halted := by
  have := congrArg Dbg.halted (told_debugEvent w c t cause).dbg
  exact this

/-- A session that halted one thread, which nothing blocks, ends with no thread halted and nothing left to do. -/
theorem wlEnd_resumed {k : Nat} {e : Nat × Nat} (hc : w.dbg.connected = true) (hh : w.dbg.halted = [(k, e)])
    (hst : (w.thr (k / 8) (k % 8)).state = .halted) (hb : (w.thr (k / 8) (k % 8)).blocked = none) (hs : w.dbg.steps = [])
    (hw : w.dbg.stepWait = none) : w.wlEnd.residue = w.residue ∧ w.wlEnd.dbg.halted = [] := by
  have hall : w.wlResumeAll (fun _ => true) = (w.wlGo (k / 8) (k % 8)).debugEvent (k / 8) (k % 8) 4 := by
    rw [State.wlResumeAll, hh]
    exact wlResume_unblocked hst hb
  have hkey : tkey (k / 8) (k % 8) = k := by unfold tkey; omega
  rw [wlEnd_connected hc, unstepped_self hs hw, hall]
  constructor
  · rw [sessionClosed_residue, debugEvent_residue, wlGo_residue hst]
  · rw [sessionClosed_halted, debugEvent_halted, wlGo_halted hst, hh, hkey]
    simp [tdel]

end

/-! An event to one domain where no Tosen session is open. -/

theorem subEvent_ports (s : State) (d op : Nat) (fs : List Nat) : (s.subEvent d op fs).ports = s.ports := by
  have hwake : ∀ (v : State) c t src, (v.wake c t src).ports = v.ports := fun v c t src => by
    unfold State.wake
    simp only
    split <;> rfl
  have hrecord : ∀ (v : State) c t h mk, (v.subRecord c t h mk).ports = v.ports := fun v c t h mk => by
    unfold State.subRecord
    simp only
    split
    · rfl
    · split
      · rfl
      · exact hwake _ _ _ _
  unfold State.subEvent
  exact List.foldlRecOn (motive := fun v : State => v.ports = s.ports) _ _ rfl fun v hv x _ => (hrecord v _ _ _ _).trans hv

theorem Events.unheard {s t : State} (h : Events s t) (hs : s.tosen.sessions = []) : t.tosen.sessions = [] :=
  List.map_eq_nil_iff.mp (h.sessionsKept.sessions.trans (by rw [hs]; rfl))

theorem eventSide_unheard {s : State} (h : s.tosen.sessions = []) (all : Bool) (op dom : Nat) (fs : List Nat) : s.eventSide all op dom fs = s := by
  rw [State.eventSide, h, List.foldl_nil]

theorem event_unheard {s : State} (h : s.tosen.sessions = []) (d op dom : Nat) (fs : List Nat) :
    s.event [d] op dom fs = ({ s with tosen.evLost := tupd s.tosen.evLost d 0 inc48 } : State).subEvent d op fs := by
  have hdom : s.eventDom d op dom fs = (({ s with tosen.evLost := tupd s.tosen.evLost d 0 inc48 } : State).subEvent d op fs, []) := by
    rw [State.eventDom, h, List.find?_nil]
  have hlost : (s.eventDom d op dom fs).1.tosen.sessions = [] := (events_eventDom s d op dom fs).unheard h
  have hone : s.event0 [d] op dom fs = (if [d].contains 0 then (s.eventDom d op dom fs).1.eventSide false op dom fs else (s.eventDom d op dom fs).1,
      (s.eventDom d op dom fs).2) := rfl
  rw [State.event, hone, eventSide_unheard hlost, ite_self, hdom]
  rfl

theorem debugAll_ports {s : State} (h : s.tosen.sessions = []) (cause : Nat) : (s.debugAll cause).ports = s.ports := by
  unfold State.debugAll
  split
  · rfl
  · refine (List.foldlRecOn (motive := fun v : State => v.tosen.sessions = [] ∧ v.ports = s.ports) _ _ ⟨h, rfl⟩ fun v hv d _ => ?_).2
    obtain ⟨hnone, hports⟩ := hv
    refine ⟨(events_event v _ _ _ _).unheard hnone, ?_⟩
    rw [event_unheard hnone, subEvent_ports]
    exact hports

/-! What the responses of a session's start and end say. -/

theorem sessionClosed_ports {w : State} (h : w.tosen.sessions = []) : w.sessionClosed.ports = w.ports :=
  (debugAll_ports (by simp [h]) 2).trans rfl

theorem sessionClosed_unheard {w : State} (h : w.tosen.sessions = []) : w.sessionClosed.tosen.sessions = [] :=
  (events_debugAll _ 2).unheard (by simp [h])

theorem sessionClosed_glb (w : State) : w.sessionClosed.glb = w.glb := (events_debugAll _ 2).glb

/-- A session opened at 1.0, and reported (R466, R477). -/
def State.sessionOpened (w : State) : State := { w with dbg.connected := true, dbg.agreed := 0x10 }.debugAll 1

theorem sessionOpened_residue (w : State) : w.sessionOpened.residue = w.residue := debugAll_residue _ 1
theorem sessionOpened_ports {w : State} (h : w.tosen.sessions = []) : w.sessionOpened.ports = w.ports := (debugAll_ports (by simp [h]) 1).trans rfl
theorem sessionOpened_fuse (w : State) : w.sessionOpened.fuse = w.fuse := (events_debugAll _ 1).fuse
theorem sessionOpened_glb (w : State) : w.sessionOpened.glb = w.glb := (events_debugAll _ 1).glb

/-- What CONNECT tells of the device depends on its fuses and its mode alone (R466). -/
theorem identity_of_fuse_glb {t u : State} (hf : t.fuse = u.fuse) (hg : t.glb = u.glb) :
    [0x10, t.glbId, t.fuse.serial, t.glbMode, t.dbgRights] = [0x10, u.glbId, u.fuse.serial, u.glbMode, u.dbgRights] := by
  have hopen : t.debugOpen = u.debugOpen := by funext d r; simp only [State.debugOpen, State.prov, hf]
  have hrights : t.dbgRights = u.dbgRights := by unfold State.dbgRights; rw [hopen]
  simp only [State.glbId, State.glbMode, hrights, hf, hg]

/-! CONNECT and the ends of a session. -/

/-- The end of a session that began from `u`: it is over, and a thread it had halted, which nothing blocks, is halted no more (R466). -/
def State.Ended (u t : State) : Prop := t.dbg.connected = false ∧ t.dbg.agreed = 0 ∧ t.dbg.bps = [] ∧ t.session? .windlass = none ∧
  ∀ k w, u.dbg.halted = [(k, w)] → (u.thr (k / 8) (k % 8)).state = .halted → (u.thr (k / 8) (k % 8)).blocked = none →
    (u.core (k / 8)).state = .running → k % 8 < 8 → t.dbg.halted = []

theorem State.Plain.hears {u : State} (hu : u.Plain) {seq : Nat} (hd : u.dbg.deaf = false) (hf : ∀ k, u.dbg.last = some k → k.seq ≠ seq) :
    u.Hears seq := ⟨hd, hu.wait, hf⟩

section
variable {i : Instr} {s : State} {dt seq : Nat}

/-- A command whose own part leaves the session over completes with its end. -/
theorem completes_ended {f : State → State} (hi : exec i s = s.run dt f) (hu : (s.elapse dt).Plain)
    (hover : (f (s.elapse dt)).SessionOver)
    (hresumed : ∀ k w, (s.elapse dt).dbg.halted = [(k, w)] → ((s.elapse dt).thr (k / 8) (k % 8)).state = .halted →
      ((s.elapse dt).thr (k / 8) (k % 8)).blocked = none →
      (f (s.elapse dt)).residue = (s.elapse dt).residue ∧ (f (s.elapse dt)).dbg.halted = []) :
    Completes i s (s.elapse dt).Ended := by
  obtain ⟨t, hrun, hkept, hhalted⟩ := run_reports f hu
  obtain ⟨hc, ha, hb, hs⟩ := hover.kept hkept
  refine ⟨t, hi.trans hrun, hc, ha, hb, hs, fun k w hk hst hbl _ _ => ?_⟩
  obtain ⟨hres, hnone⟩ := hresumed k w hk hst hbl
  exact (hhalted hres).trans hnone

theorem exec_connect (a y z : Nat) : exec (.connect dt seq true [a, y, z]) s = s.run dt fun u => u.wlRun 1 seq true [a, y, z] true true fun v =>
    if a ≠ 1 || y ≠ 0 then (5, [], v) else
      let t := v.wlEnd.sessionOpened
      (0, [0x10, t.glbId, t.fuse.serial, t.glbMode, t.dbgRights], t) := rfl

/-- A CONNECT that does not offer 1.0 is refused (R8). -/
theorem connect_unoffered (hu : (s.elapse dt).Plain) (h : (s.elapse dt).Hears seq) {a y z : Nat} (ho : a ≠ 1 ∨ y ≠ 0) :
    Completes (.connect dt seq true [a, y, z]) s fun t => t = (s.elapse dt).probed.wlRespond 1 seq 5 [] := by
  refine completes_response (exec_connect a y z) hu ?_ (probed_residue _) (probed_ports _)
  rw [wlRun_served h (.inl rfl) (.inr rfl), if_pos (by rwa [Bool.or_eq_true, decide_eq_true_eq, decide_eq_true_eq]), sent_now _ _ _ (by decide)]

/-- A CONNECT that offers 1.0 opens a session from the state `w` in which the one before has ended, where that asks nothing else of the
command's end. -/
theorem connect_opens (hu : (s.elapse dt).Plain) (h : (s.elapse dt).Hears seq) {w : State} (z : Nat) (hw : (s.elapse dt).probed.wlEnd = w)
    (hres : w.residue = (s.elapse dt).residue) (hports : w.ports = (s.elapse dt).ports) (hnone : w.tosen.sessions = [])
    (hglb : w.glb = (s.elapse dt).glb) :
    Completes (.connect dt seq true [1, 0, z]) s fun t => t = w.sessionOpened.wlRespond 1 seq 0
      [0x10, (s.elapse dt).glbId, (s.elapse dt).fuse.serial, (s.elapse dt).glbMode, (s.elapse dt).dbgRights] := by
  have hfuse : w.fuse = (s.elapse dt).fuse := congrArg (fun r => r.2.2.2.2.1) hres
  have hsays := identity_of_fuse_glb ((sessionOpened_fuse w).trans hfuse) ((sessionOpened_glb w).trans hglb)
  refine completes_response (exec_connect 1 0 z) hu ?_ ((sessionOpened_residue w).trans hres) ((sessionOpened_ports hnone).trans hports)
  rw [wlRun_served h (.inl rfl) (.inr rfl), if_neg (by decide), hw, sent_now _ _ _ (by decide), hsays]

theorem exec_disconnect : exec (.disconnect dt seq true []) s =
    s.run dt fun u => u.wlRun 2 seq true [] true true fun v => (0, [], v.wlEnd) := rfl

theorem exec_wlSessionIdleTimeout : exec (.wlSessionIdleTimeout dt) s =
    s.run dt fun u => if u.dbg.connected && u.dbg.heard + grid 30 ≤ u.elapsed then u.wlEnd else u := rfl

theorem disconnect_run {u : State} (h : u.Hears seq) (hc : u.dbg.connected = true) :
    (u.wlRun 2 seq true [] true true fun v => (0, [], v.wlEnd)) = u.probed.wlEnd.wlRespond 2 seq 0 [] := by
  rw [wlRun_served h (.inr hc) (.inr rfl), sent_now _ _ _ (by decide)]

theorem wlRespond_halted (v : State) (type cls : Nat) (fs : List Nat) : (v.wlRespond type seq cls fs).dbg.halted = v.dbg.halted := by
  unfold State.wlRespond
  split <;> rfl

theorem disconnect_ends (hu : (s.elapse dt).Plain) (h : (s.elapse dt).Hears seq) (hc : (s.elapse dt).dbg.connected = true) :
    Completes (.disconnect dt seq true []) s (s.elapse dt).Ended := by
  have hrun := disconnect_run h hc
  refine completes_ended exec_disconnect hu ?_ fun k w hk hst hb => ?_
  · rw [hrun]
    exact (wlEnd_over (w := (s.elapse dt).probed) hc).kept (events_wlRespond _ _ _ _ _).sessionsKept
  · obtain ⟨hres, hnone⟩ := wlEnd_resumed (w := (s.elapse dt).probed) hc hk hst hb hu.steps hu.wait
    rw [hrun, wlRespond_residue, wlRespond_halted]
    exact ⟨hres, hnone⟩

theorem disconnect_closes (hu : (s.elapse dt).Plain) (h : (s.elapse dt).Hears seq) (hc : (s.elapse dt).dbg.connected = true)
    (hh : (s.elapse dt).dbg.halted = []) (hnone : (s.elapse dt).tosen.sessions = []) :
    Completes (.disconnect dt seq true []) s fun t => t = (s.elapse dt).probed.sessionClosed.wlRespond 2 seq 0 [] := by
  refine completes_response exec_disconnect hu ?_ (sessionClosed_residue _) (sessionClosed_ports hnone)
  rw [disconnect_run h hc, wlEnd_unhalted (w := (s.elapse dt).probed) hc hh hu.steps hu.wait]

theorem idle_run {u : State} (hc : u.dbg.connected = true) (hl : u.dbg.heard + grid 30 ≤ u.elapsed) :
    (if u.dbg.connected && u.dbg.heard + grid 30 ≤ u.elapsed then u.wlEnd else u) = u.wlEnd :=
  if_pos (by rw [hc, decide_eq_true hl]; rfl)

theorem idle_keeps (hu : (s.elapse dt).Plain)
    (h : (s.elapse dt).dbg.connected = false ∨ (s.elapse dt).elapsed < (s.elapse dt).dbg.heard + grid 30) :
    Completes (.wlSessionIdleTimeout dt) s fun t => t = s.elapse dt := by
  have hearly : ¬ ((s.elapse dt).dbg.connected && (s.elapse dt).dbg.heard + grid 30 ≤ (s.elapse dt).elapsed) = true := by
    rw [Bool.and_eq_true, decide_eq_true_eq]
    rintro ⟨hc, hl⟩
    rcases h with h | h
    · rw [h] at hc
      cases hc
    · omega
  exact completes_of_run exec_wlSessionIdleTimeout hu (by rw [if_neg hearly]) (by rw [if_neg hearly, hu.half]) (if_neg hearly)

theorem idle_ends (hu : (s.elapse dt).Plain) (hc : (s.elapse dt).dbg.connected = true)
    (hl : (s.elapse dt).dbg.heard + grid 30 ≤ (s.elapse dt).elapsed) : Completes (.wlSessionIdleTimeout dt) s (s.elapse dt).Ended := by
  refine completes_ended exec_wlSessionIdleTimeout hu ?_ fun k w hk hst hb => ?_
  · rw [idle_run hc hl]
    exact wlEnd_over hc
  · rw [idle_run hc hl]
    exact wlEnd_resumed hc hk hst hb hu.steps hu.wait

theorem idle_closes (hu : (s.elapse dt).Plain) (hc : (s.elapse dt).dbg.connected = true)
    (hl : (s.elapse dt).dbg.heard + grid 30 ≤ (s.elapse dt).elapsed) (hh : (s.elapse dt).dbg.halted = [])
    (hnone : (s.elapse dt).tosen.sessions = []) : Completes (.wlSessionIdleTimeout dt) s fun t => t = (s.elapse dt).sessionClosed := by
  have hrun := (idle_run hc hl).trans (wlEnd_unhalted hc hh hu.steps hu.wait)
  exact completes_of_run exec_wlSessionIdleTimeout hu (by rw [hrun, sessionClosed_residue]) (by rw [hrun, sessionClosed_ports hnone, hu.half]) hrun

end

/-! The line itself (R463), and the probe's disconnection (R420). -/

section
variable {s : State} {dt : Nat}

theorem elapse_firmware (s : State) (dt : Nat) : (s.elapse dt).firmware = s.firmware := by simp only [State.firmware, elapse_glb]

theorem lineReset_hears (hu : (s.elapse dt).Plain) : Completes (.lineReset dt) s fun t => t = { s.elapse dt with dbg.deaf := false } :=
  completes_of_run (f := fun u => { u with dbg.deaf := false }) rfl hu rfl hu.half rfl

theorem exec_wlHeaderCrcFail : exec (.wlHeaderCrcFail dt) s =
    s.run dt fun u => if u.dbg.deaf then u else { u with dbg.deaf := true }.dbgCount 1 := rfl

theorem headerCrcFail_deaf (hu : (s.elapse dt).Plain) (hd : (s.elapse dt).dbg.deaf = true) :
    Completes (.wlHeaderCrcFail dt) s fun t => t = s.elapse dt :=
  completes_of_run exec_wlHeaderCrcFail hu (by rw [if_pos hd]) (by rw [if_pos hd, hu.half]) (if_pos hd)

theorem headerCrcFail_deafens (hu : (s.elapse dt).Plain) (hd : (s.elapse dt).dbg.deaf = false) :
    Completes (.wlHeaderCrcFail dt) s fun t => t = { s.elapse dt with dbg.deaf := true }.dbgCount 1 := by
  have hrun : (if (s.elapse dt).dbg.deaf then s.elapse dt else { s.elapse dt with dbg.deaf := true }.dbgCount 1) =
      { s.elapse dt with dbg.deaf := true }.dbgCount 1 := if_neg (by rw [hd]; decide)
  exact completes_of_run exec_wlHeaderCrcFail hu (by rw [hrun]; rfl) (by rw [hrun]; exact hu.half) hrun

theorem probeDisconnect_ends (hu : (s.elapse dt).Plain) :
    Completes (.wlProbeDisconnect dt) s fun t => t = (s.elapse dt).wlTosenEnd :=
  completes_of_run (f := State.wlTosenEnd) rfl hu rfl hu.half rfl

end

theorem nth_zero_ne {f : List Nat} {n : Nat} (hf : f.head? ≠ some n) (hn : n ≠ 0) : nth f 0 ≠ n := by
  cases f with
  | nil => exact hn.symm
  | cons x r => simpa [nth] using hf

/-- Settles O56: each clause is one of the answers of `State.wlRun`, or an end of a session, seen at the end of its command. -/
theorem windlassSession : Obligations.WindlassSession := by
  unfold Obligations.WindlassSession
  intro s dt seq c f b
  rw [← elapse_dbg s dt, ← elapse_tosen s dt, ← elapse_fuse s dt, ← elapse_firmware s dt]
  intro u v rows closed ended hu
  have hconnect := connect_request dt seq c f
  have hrows : ∀ r ∈ rows, ∃ g inRec lenOk, LineRequest r.2 dt r.1 seq c g inRec lenOk ∧ RowForm r.1 f b g inRec lenOk :=
    fun r hr => windlassRows_request hr
  refine ⟨lineReset_hears hu, headerCrcFail_deaf hu, headerCrcFail_deafens hu, fun hd => ⟨hconnect.deaf hu hd, fun r hr => ?_⟩,
    fun hd => ⟨fun k hl hk => ⟨hconnect.repeated hu hd hl hk, fun r hr => ?_⟩, fun hfresh => ?_⟩, idle_keeps hu,
    fun hc hl => ⟨idle_ends hu hc hl, idle_closes hu hc hl⟩, probeDisconnect_ends hu⟩
  · obtain ⟨g, inRec, lenOk, hrow, -⟩ := hrows r hr
    exact hrow.deaf hu hd
  · obtain ⟨g, inRec, lenOk, hrow, -⟩ := hrows r hr
    exact hrow.repeated hu hd hl hk
  · have hnew : u.Hears seq := hu.hears hd hfresh
    refine ⟨?badCrc, ?unconnected, ?unserved, ?malformed, ?connectMalformed, fun a y z hc hf => ?connect, ?disconnect⟩
    case badCrc =>
      rintro rfl hf hb
      refine ⟨hconnect.badCrc hu hnew hf, fun r hr => ?_⟩
      obtain ⟨g, inRec, lenOk, hrow, hform⟩ := hrows r hr
      exact hrow.badCrc hu hnew (hform.fields hf hb)
    case unconnected =>
      rintro rfl hc r hr
      obtain ⟨g, inRec, lenOk, hrow, hform⟩ := hrows r hr
      exact hrow.unconnected hu hnew hform.other hc
    case unserved =>
      rintro rfl hc hfw hhead r hr h2 h4
      obtain ⟨g, inRec, lenOk, hrow, hform⟩ := hrows r hr
      have hrec : inRec = false := Bool.eq_false_iff.mpr fun h => by
        rcases hform.inRec h with h | h | h
        · exact h2 h
        · exact h4 h
        · exact nth_zero_ne hhead (by decide) h
      subst hrec
      exact hrow.unserved hu hnew hc hfw
    case malformed =>
      rintro rfl hc hfw hlen hzero hbytes r hr
      obtain ⟨g, inRec, lenOk, hrow, hform⟩ := hrows r hr
      obtain rfl := hform.form hlen hzero hbytes
      exact hrow.malformed hu hnew (.inr hc) (.inl hfw)
    case connectMalformed =>
      rintro rfl hlen
      rw [show (f.length == 3) = false by simpa using hlen] at hconnect
      exact hconnect.malformed hu hnew (.inl rfl) (.inr rfl)
    case connect =>
      subst hc hf
      refine ⟨connect_unoffered hu hnew, ?_, ?_⟩
      · rintro rfl rfl hc hnone
        exact connect_opens hu hnew z (wlEnd_unconnected (w := v) hc) rfl rfl hnone rfl
      · rintro rfl rfl hc hh hnone
        exact connect_opens hu hnew z (wlEnd_unhalted (w := v) hc hh hu.steps hu.wait) (sessionClosed_residue v) (sessionClosed_ports hnone)
          (sessionClosed_unheard hnone) (sessionClosed_glb v)
    case disconnect =>
      rintro rfl rfl hc
      exact ⟨disconnect_ends hu hnew hc, disconnect_closes hu hnew hc⟩

end Sys2Proof.Machine
